-- ==== Sys2Proof/Word.lean ====
section
/-! DEFINITION. The machine words: a word is 32 bits, a half-word 16 bits (R4). -/

namespace Sys2Proof

/-- A word (R4). -/
abbrev Word := BitVec 32

/-- A half-word (R4). -/
abbrev Half := BitVec 16

/-- A byte. -/
abbrev Byte := BitVec 8

end Sys2Proof
end

