-- ==== Sys2Proof/Syntax.lean ====
section
/-! DEFINITION. The commands the block takes: one constructor of Instr for each row of the opcode table, with the row's
operands. Operands named `…Obs`, `Env` and `HostFrame` carry what the world outside the device (hosts, air, crystals,
cells) puts into the command. -/

namespace Sys2Proof

/-- Who makes a register access: a host port, or an Easel context through SYS RGET and RPUT (R19, R405). -/
inductive Master where
  | host (p : Fin 4)
  | ctx (k : Fin 64)
deriving DecidableEq, Repr

/-- The six memory banks, Table 17-1. -/
inductive Bank where
  | pgm | ret | ptb | frm | msg | erg
deriving DecidableEq, Repr

/-- The two receive chains. -/
inductive Chain where
  | a | b
deriving DecidableEq, Repr

/-- The three synthesisers. -/
inductive Syn where
  | sya | syb | syt
deriving DecidableEq, Repr

/-- The calibrations a host may request in RFA_CAL_CTRL (R68). -/
inductive CalKind where
  | syaVco | sybVco | sytVco | rxaIq | rxbIq
deriving DecidableEq, Repr

/-- The clock multipliers. -/
inductive Mult where
  | cmc | cmr
deriving DecidableEq, Repr

/-- What a bank word's code word holds: a valid code word, one with a single-bit error, one that is uncorrectable
(a double-bit error, or poisoned, R348). -/
inductive Mark where
  | good | single | bad
deriving DecidableEq, Repr

/-- A parity error that the accesses of one command meet (R346, R266). -/
inductive ParityHit where
  | none | fetch | ctx | addr | data | read
deriving DecidableEq, Repr

/-- What the memory system's cells and paths do at a command: cells that have flipped since the last access (by bank
word, address ÷ 8), and a parity error on the command's own access. -/
structure Env where
  upsets : List (Nat × Mark)
  parity : ParityHit
deriving DecidableEq, Repr

/-- No upset and no parity error. -/
def Env.clean : Env := ⟨[], .none⟩

/-- One host frame from select fall to select rise: the words the host drove (header first), the edges counted, how many
of them were wait edges (R228), whether no write buffer was free at its first edge (R234), whether SYS_SOFTRESET took effect
while it was open (R238), the words (by place, from 0) whose data or fetch met a parity error (R237, R407), and the cells. -/
structure HostFrame where
  words : List Word
  edges : Nat
  waits : Nat
  busy  : Bool
  reset : Bool
  perr  : List Nat
  env   : Env
deriving DecidableEq, Repr

/-- A request waiting at an arbiter of Table 13-2 that has a row REQUEST_PROMOTED: a ready context at its core (level 2),
a Well claim by its place in the queue (level 3), or a request at a bank port (level 4) with the cycles it waited. -/
inductive ReqId where
  | issue (k : Fin 64)
  | well (i : Nat)
  | port (b : Bank) (waited : Nat)
deriving DecidableEq, Repr

/-- A candidate detection of one channel's detector at a symbol boundary (R81): the normalised correlation × 256, the
power over the correlation span in 10^-15 mW as the bins give it (before R65's correction), the preamble-start stamp (fine
units) and sample position, and, when the search runs over a residual (R109), the 24 bits received where a sync word may end,
with the stamp of their end. -/
structure Cand where
  chain : Chain
  chan  : Nat
  corr  : Nat
  power : Nat
  start : Nat
  pos   : Nat
  sync  : Option (Nat × Nat)
deriving DecidableEq, Repr

/-- What one chain's ADC and filter bank give at one sample position: its ADC samples in order, each at full scale or not
(those not listed: not), each bin's 12-bit I and Q and its power in 10^-15 mW before R65's correction, keyed by bin + 56
(keys not listed: zero). -/
structure ChainObs where
  clip : List Bool
  iq   : List (Nat × (Int × Int))
  pow  : List (Nat × Nat)
deriving DecidableEq, Repr

/-- What a lane comes to at a sample position: the preamble powers of both chains (10^-15 mW) when it ends stage 3 of
Table 5-1; the PHY header and the refined stamp of the sync end when it ends stage 6. -/
structure LaneObs where
  lane : Nat
  pow  : Option (Nat × Nat)
  hdr  : Option (Nat × Nat)
deriving DecidableEq, Repr

/-- One sample position (R74): both chains, the detectors' candidates, the bits received where the detectors search a sync
word (entry, 24 bits, stamp of their end), and the lanes that end stage 3 or 6. -/
structure SampleObs where
  a     : ChainObs
  b     : ChainObs
  cands : List Cand
  syncs : List (Nat × Nat × Nat)
  lanes : List LaneObs
deriving DecidableEq, Repr

/-- A break in the samples a lane reads (R97, R98). -/
inductive Cut where
  | gap | ecc
deriving DecidableEq, Repr

/-- What a lane's receiver finds in the samples of its entry (Table 5-1): the 24 bits received where it finds its sync word
and the stamp of their end (none: nothing within MAXERR), the PHY header, the body as received and still whitened: its bytes
without FEC, the 3-bit soft decisions of its coded bits with FEC; the carrier offset in Hz, the power over the sync word and
the preamble powers of both chains in 10^-15 mW, preamble and body SNR in 0.25 dB units, a break and whether the header was
complete before it, whether the picked chain had a break and the other went on, and the end of the frame's last symbol (stamp
and sample position). -/
structure FrameObs where
  sync    : Option (Nat × Nat)
  hdr     : Nat
  body    : List Byte
  soft    : List Nat
  fofs    : Int
  power   : Nat
  powA    : Nat
  powB    : Nat
  snr     : Nat
  bodySnr : Int
  cut     : Option Cut
  hdrDone : Bool
  switch  : Bool
  endAt   : Nat
  endPos  : Nat
deriving DecidableEq, Repr

/-- A wake call on the air as the wake receiver's chips decode it: the 32 bits compared with the call words, the next 32
(class, target, CRC), and the Caravan tick of the end of the CRC. -/
structure CallObs where
  word : Word
  rest : Word
  tick : Nat
deriving DecidableEq, Repr

/-- The cells the Brush meets: whether the region failed its test, and the spares whose cells fail theirs. -/
structure RegionObs where
  fails     : Bool
  badSpares : List Nat
deriving DecidableEq, Repr

/-- A sync or marker edge on the CVN line at a worker: the local stamp of its arrival and the root's tick of the edge. -/
structure LineObs where
  arrive : Nat
  tick   : Nat
  marker : Bool
deriving DecidableEq, Repr

/-- What a worker answered to an initiator frame: the words captured and the round trip in 0.5 ns units. -/
structure CascObs where
  words : List Word
  rtt   : Nat
deriving DecidableEq, Repr

/-- The commands, one constructor per row of the opcode table. -/
inductive Instr where
  /-- REGISTER_WRITE (R19). -/
  | registerWrite (m : Master) (addr : Nat) (v : Word)
  /-- CVN_NOW_LO_READ (R25). -/
  | cvnNowLoRead (m : Master)
  /-- ARM (R29). -/
  | arm (m : Master) (n : Fin 32) (v : Word)
  /-- CANCEL (R32). -/
  | cancel (m : Master) (n : Fin 32) (v : Word)
  /-- LAUNCHER_OCCURRENCE (R30). -/
  | launcherOccurrence (n : Fin 32)
  /-- PIN_PULSE_END (R31). -/
  | pinPulseEnd (pin : Fin 16)
  /-- LATE_OCCURRENCE_READY (R34). -/
  | lateOccurrenceReady (n : Fin 32)
  /-- TEMP_SAMPLE (R38). -/
  | tempSample (raw : Int)
  /-- SELF_MEASURE (R39). -/
  | selfMeasure (count : Nat)
  /-- TEMP_LOG_ENTRY (R40). -/
  | tempLogEntry
  /-- XO32_ABSENT (R301). -/
  | xo32Absent
  /-- XO32_PRESENT (R301). -/
  | xo32Present
  /-- TUNE_START (R56). -/
  | tuneStart (y : Syn)
  /-- SYNTH_LOCK (R54). -/
  | synthLock (y : Syn) (band : Nat)
  /-- LOCK_TIMEOUT (R55). -/
  | lockTimeout (y : Syn)
  /-- SYNTH_UNLOCK (R58). -/
  | synthUnlock (y : Syn)
  /-- SYA_VCO (R68). -/
  | syaVco (p : Fin 4)
  /-- SYB_VCO (R68). -/
  | sybVco (p : Fin 4)
  /-- SYT_VCO (R68). -/
  | sytVco (p : Fin 4)
  /-- SYT_VCO_START (R68). -/
  | sytVcoStart
  /-- RXA_IQ (R68). -/
  | rxaIq (p : Fin 4)
  /-- RXB_IQ (R68). -/
  | rxbIq (p : Fin 4)
  /-- CALIBRATION_END (R68). -/
  | calibrationEnd (y : CalKind) (band : Nat)
  /-- TEMP_START (R67). -/
  | tempStart (m : Master)
  /-- TEMP_CONVERSION_END (R67). -/
  | tempConversionEnd (raw : Int)
  /-- SAMPLE_POSITION (R74). -/
  | samplePosition (o : SampleObs)
  /-- SYNC_SEARCH_TIMEOUT (R82). -/
  | syncSearchTimeout (e : Nat)
  /-- ENTRY_PROMOTED (R87). -/
  | entryPromoted (e : Nat)
  /-- ENTRY_STARVED (R89). -/
  | entryStarved (e : Nat)
  /-- FLUSH (R90). -/
  | flush (m : Master)
  /-- PALETTE_START (R73). -/
  | paletteStart (c : Chain)
  /-- PALETTE_STOP (R91). -/
  | paletteStop (c : Chain)
  /-- CHZ_ENERGY_READ (R80). -/
  | chzEnergyRead (m : Master)
  /-- LANE_CATCH_UP (R100). -/
  | laneCatchUp (l : Nat)
  /-- LANE_STARVED (R100). -/
  | laneStarved (l : Nat)
  /-- LANE_FRAME_END (R95). -/
  | laneFrameEnd (l : Nat) (o : FrameObs)
  /-- RECOVERY_SLOT_START (R109). -/
  | recoverySlotStart (slot : Nat)
  /-- RECOVERY_ENTRY (R109). -/
  | recoveryEntry (slot : Nat) (det : Option Cand)
  /-- RECOVERY_REQUEST_DROPPED (R108). -/
  | recoveryRequestDropped (r : Nat)
  /-- GRP_REQ_SET (R93). -/
  | grpReqSet (m : Master) (g : Fin 16)
  /-- GRP_REQ_CLEAR (R93). -/
  | grpReqClear (m : Master) (g : Fin 16)
  /-- CNT_CLR (R105). -/
  | cntClr (m : Master)
  /-- LANE_RING_WRITE (R113). -/
  | laneRingWrite (m : Master) (base : Option Word) (size : Option Word)
  /-- TX_RELEASE_POINT (R117). -/
  | txReleasePoint (id : Nat)
  /-- LBT_COVERED (R121). -/
  | lbtCovered (id : Nat)
  /-- LBT_RETRY (R122). -/
  | lbtRetry (id : Nat)
  /-- PA_GRANT (R123). -/
  | paGrant (id : Nat)
  /-- TX_END (R125). -/
  | txEnd (id : Nat)
  /-- ACK_WINDOW_CLOSE (R132). -/
  | ackWindowClose (id : Nat)
  /-- TXP_ABORT (R125). -/
  | txpAbort (m : Master)
  /-- BUCKET_EXPIRY (R128). -/
  | bucketExpiry (n : Fin 8)
  /-- SGL_CLR (R129). -/
  | sglClr (m : Master) (v : Word)
  /-- SECONDS_CHANGE (R129). -/
  | secondsChange (m : Master) (n : Fin 8) (v : Word)
  /-- CALL_COPY_END (R133). -/
  | callCopyEnd (id : Nat)
  /-- KEY_SELECT (R149). -/
  | keySelect (m : Master) (v : Word)
  /-- KEY_LOAD (R149). -/
  | keyLoad (m : Master) (v : Word)
  /-- KEY_ERASE (R149). -/
  | keyErase (m : Master) (v : Word)
  /-- ERASE_ALL (R151). -/
  | eraseAll (m : Master)
  /-- AES_OPERATION_START (R155). -/
  | aesOperationStart (e : Fin 4)
  /-- SEC_HOLD_EXPIRY (R155). -/
  | secHoldExpiry (e : Fin 4)
  /-- BEACON_MISS (R181). -/
  | beaconMiss
  /-- SCAN_END (R182). -/
  | scanEnd
  /-- LEASE_SCAN (R178). -/
  | leaseScan
  /-- LEASE_EXPIRY (R179). -/
  | leaseExpiry
  /-- ASSIGNED_SLOT_END (R184). -/
  | assignedSlotEnd (slot : Nat)
  /-- NEXT_WRITE (R186). -/
  | nextWrite (m : Master) (v : Word)
  /-- WKR_ENABLE (R194). -/
  | wkrEnable (m : Master) (v : Word)
  /-- CAL (R194). -/
  | cal (m : Master) (v : Word)
  /-- PERIODIC_CALIBRATION (R194). -/
  | periodicCalibration
  /-- WKR_CALIBRATION_END (R194). -/
  | wkrCalibrationEnd (cap : Nat) (fine : Nat) (count : Nat)
  /-- CALL_RECEIVED (R198). -/
  | callReceived (o : CallObs)
  /-- RECORD_EXAMINATION (R217), in a clean environment where none is given. -/
  | recordExamination (env : Env := .clean)
  /-- MESSAGE_LAYER_ENABLE (R210). -/
  | messageLayerEnable (m : Master)
  /-- CHECK_ENGINE_START (R218). -/
  | checkEngineStart (e : Fin 8)
  /-- NOP (R229). -/
  | frameNop (p : Fin 4) (f : HostFrame)
  /-- READ (R236). -/
  | frameRead (p : Fin 4) (f : HostFrame)
  /-- WRITE (R233). -/
  | frameWrite (p : Fin 4) (f : HostFrame)
  /-- SUBMIT (R244). -/
  | frameSubmit (p : Fin 4) (f : HostFrame)
  /-- RESULT (R253). -/
  | frameResult (p : Fin 4) (f : HostFrame)
  /-- EVENTS (R259). -/
  | frameEvents (p : Fin 4) (f : HostFrame)
  /-- STATUS (R230). -/
  | frameStatus (p : Fin 4) (f : HostFrame)
  /-- ABORT (R255). -/
  | frameAbort (p : Fin 4) (f : HostFrame)
  /-- PORT_RESET (R235). -/
  | framePortReset (p : Fin 4) (f : HostFrame)
  /-- HPN_STAT_READ (R235). -/
  | hpnStatRead (p : Fin 4) (n : Fin 4)
  /-- LAST_SUBMIT_READ (R248). -/
  | lastSubmitRead (p : Fin 4) (n : Fin 4)
  /-- CASCADE_ENABLE (R239). -/
  | cascadeEnable (m : Master) (n : Fin 4) (v : Word)
  /-- WORKER_TIMEOUT (R241). -/
  | workerTimeout (p : Fin 4) (o : CascObs)
  /-- DISPATCH (R250). -/
  | dispatch
  /-- COMMAND_PROMOTED (R250). -/
  | commandPromoted (p : Fin 4) (slot : Fin 256)
  /-- LOST_RECORD (R258). -/
  | lostRecord (p : Fin 4)
  /-- RING_TAIL_WRITE (R259). -/
  | ringTailWrite (m : Master) (n : Fin 4) (v : Word)
  /-- EVENT_RING_WRITE (R260). -/
  | eventRingWrite (m : Master) (n : Fin 4) (base : Option Word) (size : Option Word)
  /-- ADD (R276). -/
  | opAdd (k : Fin 64) (env : Env)
  /-- SUB (R276). -/
  | opSub (k : Fin 64) (env : Env)
  /-- AND (R276). -/
  | opAnd (k : Fin 64) (env : Env)
  /-- IOR (R276). -/
  | opIor (k : Fin 64) (env : Env)
  /-- XOR (R276). -/
  | opXor (k : Fin 64) (env : Env)
  /-- SHL (R276). -/
  | opShl (k : Fin 64) (env : Env)
  /-- SHR (R276). -/
  | opShr (k : Fin 64) (env : Env)
  /-- SAR (R276). -/
  | opSar (k : Fin 64) (env : Env)
  /-- MUL (R276). -/
  | opMul (k : Fin 64) (env : Env)
  /-- CMP (R276). -/
  | opCmp (k : Fin 64) (env : Env)
  /-- MIN (R276). -/
  | opMin (k : Fin 64) (env : Env)
  /-- MAX (R276). -/
  | opMax (k : Fin 64) (env : Env)
  /-- SEL (R276). -/
  | opSel (k : Fin 64) (env : Env)
  /-- BFX (R276). -/
  | opBfx (k : Fin 64) (env : Env)
  /-- BFI (R276). -/
  | opBfi (k : Fin 64) (env : Env)
  /-- ADDI (R277). -/
  | opAddi (k : Fin 64) (env : Env)
  /-- ANDI (R277). -/
  | opAndi (k : Fin 64) (env : Env)
  /-- IORI (R277). -/
  | opIori (k : Fin 64) (env : Env)
  /-- XORI (R277). -/
  | opXori (k : Fin 64) (env : Env)
  /-- CMPI (R277). -/
  | opCmpi (k : Fin 64) (env : Env)
  /-- MOVI (R277). -/
  | opMovi (k : Fin 64) (env : Env)
  /-- HIGH (R277). -/
  | opHigh (k : Fin 64) (env : Env)
  /-- LDB (R278). -/
  | opLdb (k : Fin 64) (env : Env)
  /-- LDH (R278). -/
  | opLdh (k : Fin 64) (env : Env)
  /-- LDW (R278). -/
  | opLdw (k : Fin 64) (env : Env)
  /-- STB (R278). -/
  | opStb (k : Fin 64) (env : Env)
  /-- STH (R278). -/
  | opSth (k : Fin 64) (env : Env)
  /-- STW (R278). -/
  | opStw (k : Fin 64) (env : Env)
  /-- LDP (R280). -/
  | opLdp (k : Fin 64) (env : Env)
  /-- STP (R280). -/
  | opStp (k : Fin 64) (env : Env)
  /-- POSTED_STORE_COMPLETE (R279). -/
  | postedStoreComplete (k : Fin 64) (env : Env)
  /-- JMP (R281). -/
  | opJmp (k : Fin 64) (env : Env)
  /-- CALL (R281). -/
  | opCall (k : Fin 64) (env : Env)
  /-- RET (R281). -/
  | opRet (k : Fin 64) (env : Env)
  /-- YIELD (R281). -/
  | opYield (k : Fin 64) (env : Env)
  /-- HALT (R282). -/
  | opHalt (k : Fin 64) (env : Env)
  /-- FAIL (R282). -/
  | opFail (k : Fin 64) (env : Env)
  /-- LOOP (R281). -/
  | opLoop (k : Fin 64) (env : Env)
  /-- REQUEST_PROMOTED (R271). -/
  | requestPromoted (r : ReqId)
  /-- SEM_TAKE (R285). -/
  | semTake (p : Fin 4) (n : Fin 16)
  /-- SEM_FREE (R285). -/
  | semFree (p : Fin 4) (n : Fin 16)
  /-- TNOW (R288). -/
  | opTnow (k : Fin 64) (env : Env)
  /-- TADD (R288). -/
  | opTadd (k : Fin 64) (env : Env)
  /-- TWAIT (R288). -/
  | opTwait (k : Fin 64) (env : Env)
  /-- TWAIT_EXPIRY (R288). -/
  | twaitExpiry (k : Fin 64)
  /-- TAT (R288). -/
  | opTat (k : Fin 64) (env : Env)
  /-- TGUARD (R288). -/
  | opTguard (k : Fin 64) (env : Env)
  /-- TDRIFT (R43). -/
  | opTdrift (k : Fin 64) (env : Env)
  /-- TLEARN (R44). -/
  | opTlearn (k : Fin 64) (env : Env)
  /-- TUNE (R291). -/
  | opTune (k : Fin 64) (env : Env)
  /-- RXWIN (R291). -/
  | opRxwin (k : Fin 64) (env : Env)
  /-- RXWIN_START (R291). -/
  | rxwinStart (w : Nat)
  /-- RXWIN_END (R291). -/
  | rxwinEnd (w : Nat)
  /-- TXF (R291). -/
  | opTxf (k : Fin 64) (env : Env)
  /-- LBT (R119). -/
  | opLbt (k : Fin 64) (env : Env)
  /-- CALLTX (R133). -/
  | opCalltx (k : Fin 64) (env : Env)
  /-- ACKW (R291). -/
  | opAckw (k : Fin 64) (env : Env)
  /-- RSSI (R291). -/
  | opRssi (k : Fin 64) (env : Env)
  /-- GACK (R166). -/
  | opGack (k : Fin 64) (env : Env)
  /-- RGET (R292). -/
  | opRget (k : Fin 64) (env : Env)
  /-- RPUT (R292). -/
  | opRput (k : Fin 64) (env : Env)
  /-- MACQ (R292). -/
  | opMacq (k : Fin 64) (env : Env)
  /-- BUDG (R292). -/
  | opBudg (k : Fin 64) (env : Env)
  /-- LOCK (R285). -/
  | opLock (k : Fin 64) (env : Env)
  /-- FREE (R285). -/
  | opFree (k : Fin 64) (env : Env)
  /-- CAS (R384). -/
  | opCas (k : Fin 64) (env : Env)
  /-- COPY (R295). -/
  | opCopy (k : Fin 64) (env : Env)
  /-- FRAG (R208). -/
  | opFrag (k : Fin 64) (env : Env)
  /-- ABSORB (R213). -/
  | opAbsorb (k : Fin 64) (env : Env)
  /-- RELEASE (R216). -/
  | opRelease (k : Fin 64) (env : Env)
  /-- TOPEN (R222). -/
  | opTopen (k : Fin 64) (env : Env)
  /-- FIND (R295). -/
  | opFind (k : Fin 64) (env : Env)
  /-- SEAL (R296). -/
  | opSeal (k : Fin 64) (env : Env)
  /-- OPEN (R156). -/
  | opOpen (k : Fin 64) (env : Env)
  /-- CHK (R296). -/
  | opChk (k : Fin 64) (env : Env)
  /-- ENGINE_OPERATION_END (R294). -/
  | engineOperationEnd (id : Nat) (env : Env)
  /-- POST (R297). -/
  | opPost (k : Fin 64) (env : Env)
  /-- WAITE (R297). -/
  | opWaite (k : Fin 64) (env : Env)
  /-- WAITE_TIMEOUT (R297). -/
  | waiteTimeout (k : Fin 64)
  /-- SIG (R297). -/
  | opSig (k : Fin 64) (env : Env)
  /-- DMA_START (R298). -/
  | dmaStart (m : Master) (n : Fin 16) (v : Word)
  /-- DMA_STOP (R298). -/
  | dmaStop (m : Master) (n : Fin 16) (v : Word)
  /-- DMA_TRANSFER_END (R298). -/
  | dmaTransferEnd (n : Fin 16) (env : Env)
  /-- IDENT (R300). -/
  | svcIdent (k : Fin 64) (env : Env)
  /-- FILL (R300). -/
  | svcFill (k : Fin 64) (env : Env)
  /-- PRIMER_COPY (R300). -/
  | svcPrimerCopy (k : Fin 64) (env : Env)
  /-- CRC (R300). -/
  | svcCrc (k : Fin 64) (env : Env)
  /-- PTCLEAR (R300). -/
  | svcPtclear (k : Fin 64) (env : Env)
  /-- RETURN (R400). -/
  | svcReturn (k : Fin 64) (env : Env)
  /-- LOCK_SEQUENCE_START (R306). -/
  | lockSequenceStart (x : Mult)
  /-- LOCK_DECLARED (R306). -/
  | lockDeclared (x : Mult) (band : Nat) (count : Nat)
  /-- LOCK_ATTEMPT_FAIL (R309). -/
  | lockAttemptFail (x : Mult)
  /-- LOSS_OF_LOCK (R310). -/
  | lossOfLock (x : Mult)
  /-- LOSS_OF_REFERENCE (R310). -/
  | lossOfReference (x : Mult)
  /-- TCXO_PRESENT (R303). -/
  | tcxoPresent
  /-- RELOCK_CMC (R312). -/
  | relockCmc (m : Master) (v : Word)
  /-- RELOCK_CMR (R312). -/
  | relockCmr (m : Master) (v : Word)
  /-- CORE_BYP (R312). -/
  | coreByp (m : Master) (v : Word)
  /-- CMR_EN (R312). -/
  | cmrEn (m : Master) (v : Word)
  /-- TCXO_MODE_WRITE (R302). -/
  | tcxoModeWrite (m : Master) (v : Word)
  /-- FBO_MEASURE (R304). -/
  | fboMeasure (count : Nat)
  /-- REQUEST_SLEEP (R322). -/
  | requestSleep (m : Master) (v : Word)
  /-- REQUEST_DEEP_SLEEP (R322). -/
  | requestDeepSleep (m : Master) (v : Word)
  /-- REQUEST_OFF (R322). -/
  | requestOff (m : Master) (v : Word)
  /-- REQUEST_CANCEL (R322). -/
  | requestCancel (m : Master) (v : Word)
  /-- QUIET_POINT (R324). -/
  | quietPoint
  /-- GRACE_EXPIRY (R323). -/
  | graceExpiry
  /-- WAKE_PIN (R326). -/
  | wakePin
  /-- SELECT_FALL_WAKE (R238). -/
  | selectFallWake (p : Fin 4)
  /-- WAKE_FROM_OFF (R328). -/
  | wakeFromOff
  /-- WAKE_CORE_READY (R329). -/
  | wakeCoreReady
  /-- CLEARING_END (R330). -/
  | clearingEnd (b : Bank)
  /-- IDLE_ENTRY (R320). -/
  | idleEntry
  /-- CLAIM_GRANT (R335). -/
  | claimGrant
  /-- BUDGET_WRITE (R337). -/
  | budgetWrite (m : Master) (v : Word)
  /-- CLAIM_TAB_WRITE (R334). -/
  | claimTabWrite (m : Master) (v : Word)
  /-- PEAK_CLR (R338). -/
  | peakClr (m : Master)
  /-- SCRUB_WRITE_BACK (R347). -/
  | scrubWriteBack (w : Nat)
  /-- INJ (R351). -/
  | inj (m : Master) (v : Word)
  /-- BRUSH_REGION_START (R352). -/
  | brushRegionStart
  /-- REGION_TEST_END (R353). -/
  | regionTestEnd (o : RegionObs)
  /-- MAXWAIT_READ (R341). -/
  | maxwaitRead (m : Master)
  /-- WAKE_LAST_READ (R327). -/
  | wakeLastRead (m : Master)
  /-- RESET_N_LOW (R366). -/
  | resetNLow
  /-- RESET_N_RELEASE (R367). -/
  | resetNRelease
  /-- PRIMER_STARTUP (R368), in a clean environment where none is given. -/
  | primerStartup (env : Env := .clean)
  /-- SOFT_RESET (R370). -/
  | softReset (m : Master) (v : Word)
  /-- PIN_WORD_WRITE (R374). -/
  | pinWordWrite (m : Master) (n : Fin 16) (v : Word)
  /-- GP_INPUT_CHANGE (R374). -/
  | gpInputChange (n : Fin 16) (level : Bool)
  /-- IN_REFRESH (R374). -/
  | inRefresh
  /-- SYNC_PULSE (R379). -/
  | syncPulse
  /-- CODE_MARKER (R380). -/
  | codeMarker
  /-- LINE_EDGE (R381). -/
  | lineEdge (o : LineObs)
  /-- TIME_CODE (R381). -/
  | timeCode (code : BitVec 64)
  /-- HOLDOVER (R381). -/
  | holdover
  /-- FRAME_RUN (R385). -/
  | frameRun (m : Master) (v : Word)
  /-- SYS_LOCK (R403). -/
  | sysLock (m : Master) (v : Word)
  /-- XO32_EDGE (R23). -/
  | xo32Edge
  /-- CK_RADIO_WAIT_EXPIRY (R329). -/
  | ckRadioWaitExpiry
  /-- OPCODE_TRAP (R274). -/
  | opcodeTrap (k : Fin 64) (env : Env)
  /-- CASCADE_FRAME_END (R385). -/
  | cascadeFrameEnd (p : Fin 4) (o : CascObs)
deriving DecidableEq, Repr

end Sys2Proof
end

