-- ==== Sys2Proof/Decode.lean ====
section
/-! DEFINITION. The block has no instruction encoding: its commands are register accesses, frames and events, and the
opcode table gives no row any bits. No word spells a command. -/

namespace Sys2Proof

/-- The command that a table word spells: none, because no row of the opcode table has bits. -/
def decodeTableWord (_nbits _w : Nat) : Option Instr := none

end Sys2Proof
end

