-- ==== Sys2Proof/Machine/Bits.lean ====
section
/-! DEFINITION. Bit fields, bytes and byte order: [msb:lsb] with bit 0 least significant (R4), little-endian
multi-byte values (R5), and exact integer forms of the logarithmic codes. -/

namespace Sys2Proof.Machine

/-- Bits [hi:lo] of a word, as a number (R4). -/
def getBits (w : Word) (hi lo : Nat) : Nat := (w.toNat >>> lo) % 2 ^ (hi + 1 - lo)

/-- The word with bits [hi:lo] replaced by `v` (its low bits). -/
def putBits (w : Word) (hi lo v : Nat) : Word :=
  BitVec.ofNat 32
    (w.toNat % 2 ^ lo + (v % 2 ^ (hi + 1 - lo)) * 2 ^ lo + (w.toNat >>> (hi + 1)) * 2 ^ (hi + 1))

/-- One bit of a word. -/
def bit (w : Word) (i : Nat) : Bool := w.toNat.testBit i

/-- Bits [hi:lo] of a number. -/
def natBits (n hi lo : Nat) : Nat := (n >>> lo) % 2 ^ (hi + 1 - lo)

/-- The number of a Boolean. -/
def b2n (b : Bool) : Nat := if b then 1 else 0

/-- `v` taken as a signed number of `w` bits. -/
def signed (w v : Nat) : Int :=
  if v % 2 ^ w < 2 ^ (w - 1) then ((v % 2 ^ w : Nat) : Int) else ((v % 2 ^ w : Nat) : Int) - (2 ^ w : Nat)

/-- The `w`-bit two's complement of an integer. -/
def twos (w : Nat) (i : Int) : Nat := (i % ((2 ^ w : Nat) : Int)).toNat

/-- `i` limited to `lo` to `hi`. -/
def clampInt (lo hi i : Int) : Int := max lo (min hi i)

/-- The bytes of `v`, `n` of them, least significant first (R5). -/
def leBytes : Nat → Nat → List Byte
  | 0, _ => []
  | n + 1, v => BitVec.ofNat 8 v :: leBytes n (v / 256)

/-- The number held by bytes, least significant first (R5). -/
def leNat : List Byte → Nat
  | [] => 0
  | b :: t => b.toNat + 256 * leNat t

/-- The bytes of `v`, most significant first. -/
def beBytes (n v : Nat) : List Byte := (leBytes n v).reverse

/-- A list cut or filled with zero bytes to `n` bytes. -/
def padTo (n : Nat) (l : List Byte) : List Byte := (l ++ List.replicate (n - l.length) 0#8).take n

/-- A counter that saturates at `top`. -/
def satInc (top v : Nat) : Nat := if v < top then v + 1 else top

/-- Integer division of signed numbers rounded to the nearest, halves upward. -/
def roundDiv (a : Int) (b : Nat) : Int := (2 * a + (b : Int)) / ((2 * b : Nat) : Int)

/-- Ceiling of a / b. -/
def ceilDiv (a b : Nat) : Nat := (a + b - 1) / b

/-- Integer square root, by the bits of the root from the highest (`fuel` bits). -/
def isqrtBits (fuel n r : Nat) : Nat :=
  match fuel with
  | 0 => r
  | f + 1 =>
    let r' := r + 2 ^ f
    if r' * r' ≤ n then isqrtBits f n r' else isqrtBits f n r

/-- The 16th root of `n` for n < 2^4096, rounded down: the square root taken four times. -/
def root16 (n : Nat) : Nat :=
  isqrtBits 256 (isqrtBits 512 (isqrtBits 1024 (isqrtBits 2048 n 0) 0) 0) 0

end Sys2Proof.Machine
end

