-- ==== Sys2Proof/Machine/Crypt.lean ====
section
/-! DEFINITION. The ciphers and checks the manual names by their standards: the CRCs of R148, R197 and R219, AES-128
(FIPS 197) and CCM* with the format's nonce, length field and MIC lengths (R154). -/

namespace Sys2Proof.Machine

/-- One bit entering a CRC register of `w` bits (R219). -/
def crcBit (w poly r : Nat) (b : Bool) : Nat :=
  let r2 := r * 2 % 2 ^ w
  if (r.testBit (w - 1)) != b then r2 ^^^ (poly % 2 ^ w) else r2

/-- One byte entering, bit 0 first when `refin` (R219). -/
def crcByte (w poly : Nat) (refin : Bool) (r : Nat) (b : Byte) : Nat :=
  (List.range 8).foldl (fun r i => crcBit w poly r (b.toNat.testBit (if refin then i else 7 - i))) r

/-- Bytes entering in ascending order. -/
def crcRun (w poly : Nat) (refin : Bool) (r : Nat) (bs : List Byte) : Nat := bs.foldl (crcByte w poly refin) r

/-- The low `w` bits in reverse order. -/
def reflect (w v : Nat) : Nat :=
  (List.range w).foldl (fun a i => if v.testBit i then a + 2 ^ (w - 1 - i) else a) 0

/-- The CRC-32 of R148 over bytes. -/
def crc32 (bs : List Byte) : Nat := reflect 32 (crcRun 32 0x04C11DB7 true 0xFFFFFFFF bs) ^^^ 0xFFFFFFFF

/-- The CRC-16 of R148 over bytes. -/
def crc16 (bs : List Byte) : Nat := reflect 16 (crcRun 16 0x1021 true 0 bs)

/-- The CRC-8 of R197 over bytes. -/
def crc8 (bs : List Byte) : Nat := crcRun 8 0x07 false 0 bs

/-- The header check of R138 over bits [15:3] of a PHY header, bit 15 first. -/
def hchk (h : Nat) : Nat := (List.range 13).foldl (fun r i => crcBit 3 0x3 r (h.testBit (15 - i))) 0

/-- The whitening mask (R140): `n` bytes from register `r`. -/
def whiteMask : Nat → Nat → List Byte
  | 0, _ => []
  | n + 1, r =>
    let q := (List.range 8).foldl (fun (q : Nat × Nat) i =>
      (q.1 + (if q.2.testBit 0 then 2 ^ i else 0),
       q.2 / 2 + (if (q.2.testBit 0) != (q.2.testBit 5) then 256 else 0))) (0, r)
    BitVec.ofNat 8 q.1 :: whiteMask n q.2

/-- Bytes whitened, or de-whitened (R140). -/
def whiten (bs : List Byte) : List Byte := List.zipWith (· ^^^ ·) bs (whiteMask bs.length 0x1FF)

/-- The S-box of FIPS 197, 16 bytes to a row, lowest index in the low byte. -/
def sboxRow : Nat → Nat
  | 0 => 0x76ABD7FE2B670130C56F6BF27B777C63
  | 1 => 0xC072A49CAFA2D4ADF04759FA7DC982CA
  | 2 => 0x1531D871F1E5A534CCF73F362693FDB7
  | 3 => 0x75B227EBE28012079A059618C323C704
  | 4 => 0x842FE329B3D63B52A05A6E1B1A2C8309
  | 5 => 0xCF584C4A39BECB6A5BB1FC20ED00D153
  | 6 => 0xA89F3C507F02F94585334D43FBAAEFD0
  | 7 => 0xD2F3FF1021DAB6BCF5389D928F40A351
  | 8 => 0x73195D643D7EA7C41744975FEC130CCD
  | 9 => 0xDB0B5EDE14B8EE4688902A22DC4F8160
  | 10 => 0x79E4959162ACD3C25C2406490A3A32E0
  | 11 => 0x08AE7A65EAF4566CA94ED58D6D37C8E7
  | 12 => 0x8A8BBD4B1F74DDE8C6B4A61C2E2578BA
  | 13 => 0x9E1DC186B95735610EF6034866B53E70
  | 14 => 0xDF2855CEE9871E9B948ED9691198F8E1
  | 15 => 0x16BB54B00F2D99416842E6BF0D89A18C
  | _ => 0

/-- SubBytes of one byte. -/
def sbox (x : Nat) : Nat := (sboxRow (x / 16)) / 256 ^ (x % 16) % 256

/-- Multiplication by x in GF(2^8). -/
def xtime (x : Nat) : Nat := if 128 ≤ x then ((2 * x) ^^^ 0x11B) % 256 else 2 * x

/-- One round key from the one before (KeyExpansion). -/
def nextKey (rcon : Nat) (k : List Nat) : List Nat :=
  let g i := k.getD i 0
  let w0 := [g 0 ^^^ sbox (g 13) ^^^ rcon, g 1 ^^^ sbox (g 14), g 2 ^^^ sbox (g 15), g 3 ^^^ sbox (g 12)]
  let w1 := List.zipWith (· ^^^ ·) w0 [g 4, g 5, g 6, g 7]
  let w2 := List.zipWith (· ^^^ ·) w1 [g 8, g 9, g 10, g 11]
  let w3 := List.zipWith (· ^^^ ·) w2 [g 12, g 13, g 14, g 15]
  w0 ++ w1 ++ w2 ++ w3

/-- SubBytes and ShiftRows. -/
def subShift (s : List Nat) : List Nat :=
  [0, 5, 10, 15, 4, 9, 14, 3, 8, 13, 2, 7, 12, 1, 6, 11].map (fun i => sbox (s.getD i 0))

/-- MixColumns of one column. -/
def mixCol (a b c d : Nat) : List Nat :=
  let t := a ^^^ b ^^^ c ^^^ d
  [a ^^^ t ^^^ xtime (a ^^^ b), b ^^^ t ^^^ xtime (b ^^^ c), c ^^^ t ^^^ xtime (c ^^^ d), d ^^^ t ^^^ xtime (d ^^^ a)]

/-- MixColumns. -/
def mixAll (s : List Nat) : List Nat :=
  let g i := s.getD i 0
  mixCol (g 0) (g 1) (g 2) (g 3) ++ mixCol (g 4) (g 5) (g 6) (g 7) ++ mixCol (g 8) (g 9) (g 10) (g 11) ++
    mixCol (g 12) (g 13) (g 14) (g 15)

/-- The rounds after the first key addition; the last has no MixColumns. -/
def aesRounds : List Nat → List Nat → List Nat → List Nat
  | [], _, s => s
  | rc :: rcs, k, s =>
    let k := nextKey rc k
    let s := subShift s
    let s := if rcs.isEmpty then s else mixAll s
    aesRounds rcs k (List.zipWith (· ^^^ ·) s k)

/-- AES-128 encryption of one block. -/
def aesBlock (key block : List Byte) : List Byte :=
  let k := key.map (·.toNat)
  (aesRounds [1, 2, 4, 8, 16, 32, 64, 128, 0x1B, 0x36] k
    (List.zipWith (· ^^^ ·) (block.map (·.toNat)) k)).map (BitVec.ofNat 8)

/-- Bytes in blocks of 16, the last filled with zeros. -/
def blocks16 : Nat → List Byte → List (List Byte)
  | 0, _ => []
  | _ + 1, [] => []
  | f + 1, b :: bs => padTo 16 ((b :: bs).take 16) :: blocks16 f ((b :: bs).drop 16)

/-- The CBC-MAC of CCM*: B0, the authenticated data with its 2-byte length, the message. -/
def cbcMac (key nonce : List Byte) (m : Nat) (a msg : List Byte) : List Byte :=
  let flags := (if a.isEmpty then 0 else 64) + (if m = 0 then 0 else (m - 2) / 2 * 8) + 1
  let b0 := leBytes 1 flags ++ nonce ++ beBytes 2 msg.length
  let auth := if a.isEmpty then [] else blocks16 64 (beBytes 2 a.length ++ a)
  (b0 :: (auth ++ blocks16 64 msg)).foldl (fun x b => aesBlock key (List.zipWith (· ^^^ ·) x b))
    (List.replicate 16 0#8)

/-- The counter-mode key stream block A_i. -/
def ctrBlock (key nonce : List Byte) (i : Nat) : List Byte := aesBlock key (leBytes 1 1 ++ nonce ++ beBytes 2 i)

/-- Counter-mode encryption or decryption, counters from 1. -/
def ctrCrypt (key nonce msg : List Byte) : List Byte :=
  List.zipWith (· ^^^ ·) msg
    ((List.range (ceilDiv msg.length 16)).map (fun i => ctrBlock key nonce (i + 1))).flatten

/-- MIC bytes of a security level (Table 7-6); 0 for a value that is not one. -/
def micLen (level : Nat) : Nat :=
  match level with
  | 1 => 4 | 2 => 8 | 3 => 16 | 5 => 4 | 6 => 8 | 7 => 16 | _ => 0

/-- Whether the level encrypts the payload (Table 7-6). -/
def encrypts (level : Nat) : Bool := decide (5 ≤ level)

/-- The nonce of R154. -/
def nonceOf (eui ctr level : Nat) : List Byte := beBytes 8 eui ++ beBytes 4 ctr ++ leBytes 1 level

/-- CCM* sealing (R154): the payload as sent, and the MIC. -/
def ccmSeal (key : List Byte) (eui ctr level : Nat) (hdr payload : List Byte) : List Byte × List Byte :=
  let n := nonceOf eui ctr level
  let enc := encrypts level
  let t := cbcMac key n (micLen level) (if enc then hdr else hdr ++ payload) (if enc then payload else [])
  (if enc then ctrCrypt key n payload else payload,
   (List.zipWith (· ^^^ ·) t (ctrBlock key n 0)).take (micLen level))

/-- CCM* opening (R154): the plaintext, and the MIC it should carry. -/
def ccmOpen (key : List Byte) (eui ctr level : Nat) (hdr payload : List Byte) : List Byte × List Byte :=
  let n := nonceOf eui ctr level
  let enc := encrypts level
  let plain := if enc then ctrCrypt key n payload else payload
  let t := cbcMac key n (micLen level) (if enc then hdr else hdr ++ plain) (if enc then plain else [])
  (plain, (List.zipWith (· ^^^ ·) t (ctrBlock key n 0)).take (micLen level))

end Sys2Proof.Machine
end

