-- ==== Sys2Proof/Config.lean ====
section
/-! DEFINITION. The free values: what the manual leaves open and the machine nevertheless produces. Each is a constant
without a body, so a claim about it holds for every value. The argument `n` is the draw number, State.free. -/

namespace Sys2Proof

/-- How far (in fine units) the Caravan counter has moved when a command falls within an XO32 period (R23 gives the
limits, nothing gives the instant). -/
opaque Config.instant : Nat → Nat

/-- The bytes of the primer ROM (R300, R368: the manual does not give the code). -/
opaque Config.romByte : Nat → Byte

/-- A uniform draw of the device's random generator (R120, R122). -/
opaque Config.random : Nat → Nat

/-- What a lane had measured of a frame when a clock loss, an unlock or a forced tune ended it (R98: the record is written,
its measured fields are not stated). -/
opaque Config.unmeasured : Nat → Nat

/-- A stamp (fine units) where TADD leads before Caravan time zero or past the last tick (R288 states no result). -/
opaque Config.tAddOutside : Nat → Nat

/-- The measured rate error in ppb where the interval since TSYNC is empty (Table 2-10 divides by it). -/
opaque Config.rateAtZero : Nat → Int

/-- Whether a worker holds the interrupt line of a cascade port low (R239: the ball is an input there, and no command of the
opcode table drives it); the second argument is the port. -/
opaque Config.workerIrq : Nat → Nat → Bool

/-- How many bytes a running DMA channel still has to move (R298 gives the end of a transfer, not its pace). -/
opaque Config.dmaLeft : Nat → Nat

/-- How long the commit of a write-type frame takes, in fine units (R233 gives the limits); the second argument is the stamp of its
release. -/
opaque Config.commitTime : Nat → Nat → Nat

/-- Which of two equally likely paths a Viterbi decoder keeps (Table 5-1 stage 7 states the decoder, not its ties); the second
argument numbers the comparisons of one frame. -/
opaque Config.viterbiTie : Nat → Nat → Bool

end Sys2Proof
end

