-- ==== Sys2Proof/Machine/Regs.lean ====
section
/-! DEFINITION. The register map: every register of Table 22-6 with its offset from 0x0300_0000, its fields
(bits, access code of Table 0-2, encodings that are not reserved under R11) and its reset word, from the register
tables of the owning chapters (R410). -/

namespace Sys2Proof.Machine

/-- Access codes of Table 0-2 (R9). Bits of a register that no field covers are reserved. -/
inductive Acc where
  | ro | rw | wo | w1c | w1s | rc
deriving DecidableEq, Repr

/-- One field of a register table: bits [hi:lo], its access code, and the ranges of its encodings that are not
reserved (no range: none is reserved). -/
structure FieldDef where
  hi  : Nat
  lo  : Nat
  acc : Acc
  ok  : List (Nat × Nat)
deriving DecidableEq, Repr

/-- The reset word of a register array: one for all, or one for each instance (R12). -/
inductive ResetWord where
  | all  (w : Nat)
  | each (ws : List Nat)
deriving DecidableEq, Repr

/-- One register, or an array of `count` registers `stride` bytes apart. -/
structure RegDef where
  base   : Nat
  stride : Nat
  count  : Nat
  reset  : ResetWord
  fields : List FieldDef
deriving DecidableEq, Repr

/-- A named field: its register's offset from 0x0300_0000 and its bits (R6). -/
structure Fld where
  off : Nat
  hi  : Nat
  lo  : Nat
deriving DecidableEq, Repr

/-- SYS_ID: offset from 0x0300_0000 (Table 22-6). -/
def SYS_ID.off : Nat := 0x0
def SYS_ID.PART : Fld := ⟨SYS_ID.off, 31, 16⟩
def SYS_ID.MAKER : Fld := ⟨SYS_ID.off, 15, 8⟩
def SYS_ID.PKG : Fld := ⟨SYS_ID.off, 7, 0⟩
/-- SYS_REV: offset from 0x0300_0000 (Table 22-6). -/
def SYS_REV.off : Nat := 0x4
def SYS_REV.MAJOR : Fld := ⟨SYS_REV.off, 31, 24⟩
def SYS_REV.MINOR : Fld := ⟨SYS_REV.off, 23, 16⟩
def SYS_REV.PRIMER : Fld := ⟨SYS_REV.off, 15, 0⟩
/-- SYS_FAULT: offset from 0x0300_0000 (Table 22-6). -/
def SYS_FAULT.off : Nat := 0x8
def SYS_FAULT.FAULT : Fld := ⟨SYS_FAULT.off, 31, 31⟩
def SYS_FAULT.FAULT_CNT : Fld := ⟨SYS_FAULT.off, 30, 23⟩
def SYS_FAULT.LAST_KIND : Fld := ⟨SYS_FAULT.off, 15, 8⟩
def SYS_FAULT.EV : Fld := ⟨SYS_FAULT.off, 3, 0⟩
/-- SYS_FAULT_LOG: offset from 0x0300_0000 (Table 22-6). -/
def SYS_FAULT_LOG.off : Nat := 0xC
def SYS_FAULT_LOG.TOTAL : Fld := ⟨SYS_FAULT_LOG.off, 31, 16⟩
def SYS_FAULT_LOG.WRAP : Fld := ⟨SYS_FAULT_LOG.off, 6, 6⟩
def SYS_FAULT_LOG.HEAD : Fld := ⟨SYS_FAULT_LOG.off, 5, 0⟩
/-- SYS_PARITY_CNT: offset from 0x0300_0000 (Table 22-6). -/
def SYS_PARITY_CNT.off : Nat := 0x10
def SYS_PARITY_CNT.PERR : Fld := ⟨SYS_PARITY_CNT.off, 31, 31⟩
def SYS_PARITY_CNT.OCC_CNT : Fld := ⟨SYS_PARITY_CNT.off, 30, 23⟩
def SYS_PARITY_CNT.TOTAL : Fld := ⟨SYS_PARITY_CNT.off, 22, 0⟩
/-- SYS_ECC_CNT: offset from 0x0300_0000 (Table 22-6). -/
def SYS_ECC_CNT.off : Nat := 0x14
def SYS_ECC_CNT.UE_TOTAL : Fld := ⟨SYS_ECC_CNT.off, 31, 16⟩
def SYS_ECC_CNT.CE_TOTAL : Fld := ⟨SYS_ECC_CNT.off, 15, 0⟩
/-- SYS_SCRATCHn: offset from 0x0300_0000 (Table 22-6). -/
def SYS_SCRATCHn.off (n : Nat) : Nat := 0x18 + 4 * n
def SYS_SCRATCHn.DATA (n : Nat) : Fld := ⟨(SYS_SCRATCHn.off n), 31, 0⟩
/-- SYS_LOCK: offset from 0x0300_0000 (Table 22-6). -/
def SYS_LOCK.off : Nat := 0x28
def SYS_LOCK.KEY : Fld := ⟨SYS_LOCK.off, 31, 16⟩
def SYS_LOCK.DENY_CNT : Fld := ⟨SYS_LOCK.off, 15, 8⟩
def SYS_LOCK.DENY : Fld := ⟨SYS_LOCK.off, 1, 1⟩
def SYS_LOCK.LOCK : Fld := ⟨SYS_LOCK.off, 0, 0⟩
/-- SYS_SOFTRESET: offset from 0x0300_0000 (Table 22-6). -/
def SYS_SOFTRESET.off : Nat := 0x2C
def SYS_SOFTRESET.KEY : Fld := ⟨SYS_SOFTRESET.off, 31, 16⟩
def SYS_SOFTRESET.SR_CNT : Fld := ⟨SYS_SOFTRESET.off, 15, 8⟩
def SYS_SOFTRESET.GO : Fld := ⟨SYS_SOFTRESET.off, 0, 0⟩
/-- CLK_CTRL: offset from 0x0300_0000 (Table 22-6). -/
def CLK_CTRL.off : Nat := 0x1000
def CLK_CTRL.CORE_BYP : Fld := ⟨CLK_CTRL.off, 4, 4⟩
def CLK_CTRL.RELOCK_CMR : Fld := ⟨CLK_CTRL.off, 3, 3⟩
def CLK_CTRL.RELOCK_CMC : Fld := ⟨CLK_CTRL.off, 2, 2⟩
def CLK_CTRL.CMR_EN : Fld := ⟨CLK_CTRL.off, 0, 0⟩
/-- CLK_STAT: offset from 0x0300_0000 (Table 22-6). -/
def CLK_STAT.off : Nat := 0x1004
def CLK_STAT.FBO_ACTIVE : Fld := ⟨CLK_STAT.off, 31, 31⟩
def CLK_STAT.RADIO_STOP : Fld := ⟨CLK_STAT.off, 30, 30⟩
def CLK_STAT.XO32_OK : Fld := ⟨CLK_STAT.off, 29, 29⟩
def CLK_STAT.REF_OK : Fld := ⟨CLK_STAT.off, 28, 28⟩
def CLK_STAT.CMC_SUBST : Fld := ⟨CLK_STAT.off, 27, 27⟩
def CLK_STAT.CMR_STATE : Fld := ⟨CLK_STAT.off, 23, 20⟩
def CLK_STAT.CMC_STATE : Fld := ⟨CLK_STAT.off, 19, 16⟩
/-- CLK_CMn_CFG: offset from 0x0300_0000 (Table 22-6). -/
def CLK_CMn_CFG.off (n : Nat) : Nat := 0x1008 + 8 * n
def CLK_CMn_CFG.REFMODE (n : Nat) : Fld := ⟨(CLK_CMn_CFG.off n), 31, 30⟩
def CLK_CMn_CFG.SUBST (n : Nat) : Fld := ⟨(CLK_CMn_CFG.off n), 29, 29⟩
def CLK_CMn_CFG.SETTLE (n : Nat) : Fld := ⟨(CLK_CMn_CFG.off n), 23, 12⟩
/-- CLK_CMn_STAT: offset from 0x0300_0000 (Table 22-6). -/
def CLK_CMn_STAT.off (n : Nat) : Nat := 0x100C + 8 * n
def CLK_CMn_STAT.LOL (n : Nat) : Fld := ⟨(CLK_CMn_STAT.off n), 31, 31⟩
def CLK_CMn_STAT.REFLOSS (n : Nat) : Fld := ⟨(CLK_CMn_STAT.off n), 30, 30⟩
def CLK_CMn_STAT.FAIL (n : Nat) : Fld := ⟨(CLK_CMn_STAT.off n), 29, 29⟩
def CLK_CMn_STAT.LOCK (n : Nat) : Fld := ⟨(CLK_CMn_STAT.off n), 28, 28⟩
def CLK_CMn_STAT.ATTEMPT (n : Nat) : Fld := ⟨(CLK_CMn_STAT.off n), 27, 26⟩
def CLK_CMn_STAT.ERR (n : Nat) : Fld := ⟨(CLK_CMn_STAT.off n), 23, 16⟩
def CLK_CMn_STAT.N (n : Nat) : Fld := ⟨(CLK_CMn_STAT.off n), 13, 0⟩
/-- CLK_BAND_CMn: offset from 0x0300_0000 (Table 22-6). -/
def CLK_BAND_CMn.off (n : Nat) : Nat := 0x1018 + 4 * n
def CLK_BAND_CMn.BAND (n : Nat) : Fld := ⟨(CLK_BAND_CMn.off n), 31, 26⟩
def CLK_BAND_CMn.FAIL_CNT (n : Nat) : Fld := ⟨(CLK_BAND_CMn.off n), 23, 16⟩
def CLK_BAND_CMn.COUNT (n : Nat) : Fld := ⟨(CLK_BAND_CMn.off n), 15, 0⟩
/-- CLK_LOSS_CNT: offset from 0x0300_0000 (Table 22-6). -/
def CLK_LOSS_CNT.off : Nat := 0x1020
def CLK_LOSS_CNT.CMR_REF_CNT : Fld := ⟨CLK_LOSS_CNT.off, 31, 24⟩
def CLK_LOSS_CNT.CMR_LOL_CNT : Fld := ⟨CLK_LOSS_CNT.off, 23, 16⟩
def CLK_LOSS_CNT.CMC_REF_CNT : Fld := ⟨CLK_LOSS_CNT.off, 15, 8⟩
def CLK_LOSS_CNT.CMC_LOL_CNT : Fld := ⟨CLK_LOSS_CNT.off, 7, 0⟩
/-- CLK_FBO_TRIM: offset from 0x0300_0000 (Table 22-6). -/
def CLK_FBO_TRIM.off : Nat := 0x1024
def CLK_FBO_TRIM.MEAS : Fld := ⟨CLK_FBO_TRIM.off, 31, 16⟩
def CLK_FBO_TRIM.TRIM : Fld := ⟨CLK_FBO_TRIM.off, 5, 0⟩
/-- CLK_XO32_CFG: offset from 0x0300_0000 (Table 22-6). -/
def CLK_XO32_CFG.off : Nat := 0x1028
def CLK_XO32_CFG.ABSENT : Fld := ⟨CLK_XO32_CFG.off, 31, 31⟩
def CLK_XO32_CFG.ABSENT_CNT : Fld := ⟨CLK_XO32_CFG.off, 30, 23⟩
def CLK_XO32_CFG.EXT : Fld := ⟨CLK_XO32_CFG.off, 5, 5⟩
def CLK_XO32_CFG.CL : Fld := ⟨CLK_XO32_CFG.off, 4, 0⟩
/-- CLK_TCXO_CFG: offset from 0x0300_0000 (Table 22-6). -/
def CLK_TCXO_CFG.off : Nat := 0x102C
def CLK_TCXO_CFG.MODE : Fld := ⟨CLK_TCXO_CFG.off, 31, 30⟩
def CLK_TCXO_CFG.STARTUP : Fld := ⟨CLK_TCXO_CFG.off, 26, 16⟩
/-- PWR_STATE: offset from 0x0300_0000 (Table 22-6). -/
def PWR_STATE.off : Nat := 0x2000
def PWR_STATE.REFUSED : Fld := ⟨PWR_STATE.off, 31, 31⟩
def PWR_STATE.REFUSED_CNT : Fld := ⟨PWR_STATE.off, 30, 23⟩
def PWR_STATE.PEND : Fld := ⟨PWR_STATE.off, 22, 22⟩
def PWR_STATE.CLR : Fld := ⟨PWR_STATE.off, 13, 8⟩
def PWR_STATE.STATE : Fld := ⟨PWR_STATE.off, 2, 0⟩
/-- PWR_REQ: offset from 0x0300_0000 (Table 22-6). -/
def PWR_REQ.off : Nat := 0x2004
def PWR_REQ.OP : Fld := ⟨PWR_REQ.off, 31, 30⟩
def PWR_REQ.CANCEL : Fld := ⟨PWR_REQ.off, 29, 29⟩
def PWR_REQ.KEY : Fld := ⟨PWR_REQ.off, 23, 16⟩
def PWR_REQ.GRACE : Fld := ⟨PWR_REQ.off, 15, 8⟩
def PWR_REQ.IDLE_EN : Fld := ⟨PWR_REQ.off, 0, 0⟩
/-- PWR_WAKE_EN: offset from 0x0300_0000 (Table 22-6). -/
def PWR_WAKE_EN.off : Nat := 0x2008
def PWR_WAKE_EN.HOST : Fld := ⟨PWR_WAKE_EN.off, 5, 2⟩
def PWR_WAKE_EN.WKR : Fld := ⟨PWR_WAKE_EN.off, 1, 1⟩
def PWR_WAKE_EN.PIN : Fld := ⟨PWR_WAKE_EN.off, 0, 0⟩
/-- PWR_WAKE_LAST: offset from 0x0300_0000 (Table 22-6). -/
def PWR_WAKE_LAST.off : Nat := 0x200C
def PWR_WAKE_LAST.VALID : Fld := ⟨PWR_WAKE_LAST.off, 31, 31⟩
def PWR_WAKE_LAST.OVR : Fld := ⟨PWR_WAKE_LAST.off, 30, 30⟩
def PWR_WAKE_LAST.FROM : Fld := ⟨PWR_WAKE_LAST.off, 29, 27⟩
def PWR_WAKE_LAST.FIRST : Fld := ⟨PWR_WAKE_LAST.off, 26, 24⟩
def PWR_WAKE_LAST.SOURCES : Fld := ⟨PWR_WAKE_LAST.off, 20, 16⟩
def PWR_WAKE_LAST.LNCH : Fld := ⟨PWR_WAKE_LAST.off, 15, 11⟩
def PWR_WAKE_LAST.PORT : Fld := ⟨PWR_WAKE_LAST.off, 9, 8⟩
def PWR_WAKE_LAST.WAKE_CNT : Fld := ⟨PWR_WAKE_LAST.off, 7, 0⟩
/-- PWR_WAKE_TIME_LO: offset from 0x0300_0000 (Table 22-6). -/
def PWR_WAKE_TIME_LO.off : Nat := 0x2010
def PWR_WAKE_TIME_LO.TICKS_LO : Fld := ⟨PWR_WAKE_TIME_LO.off, 31, 0⟩
/-- PWR_WAKE_TIME_HI: offset from 0x0300_0000 (Table 22-6). -/
def PWR_WAKE_TIME_HI.off : Nat := 0x2014
def PWR_WAKE_TIME_HI.TICKS_HI : Fld := ⟨PWR_WAKE_TIME_HI.off, 15, 0⟩
/-- PWR_ISO_CFG: offset from 0x0300_0000 (Table 22-6). -/
def PWR_ISO_CFG.off : Nat := 0x2018
def PWR_ISO_CFG.CVN_KEEP : Fld := ⟨PWR_ISO_CFG.off, 16, 16⟩
def PWR_ISO_CFG.GP_KEEP : Fld := ⟨PWR_ISO_CFG.off, 15, 0⟩
/-- PWR_RET_CFG: offset from 0x0300_0000 (Table 22-6). -/
def PWR_RET_CFG.off : Nat := 0x201C
def PWR_RET_CFG.PTB_RET : Fld := ⟨PWR_RET_CFG.off, 1, 1⟩
def PWR_RET_CFG.PGM_RET : Fld := ⟨PWR_RET_CFG.off, 0, 0⟩
/-- WELL_BUDGET: offset from 0x0300_0000 (Table 22-6). -/
def WELL_BUDGET.off : Nat := 0x2020
def WELL_BUDGET.AGE_LIMIT : Fld := ⟨WELL_BUDGET.off, 31, 16⟩
def WELL_BUDGET.BUDGET : Fld := ⟨WELL_BUDGET.off, 9, 0⟩
/-- WELL_USED: offset from 0x0300_0000 (Table 22-6). -/
def WELL_USED.off : Nat := 0x2024
def WELL_USED.PEAK_CLR : Fld := ⟨WELL_USED.off, 31, 31⟩
def WELL_USED.PEAK : Fld := ⟨WELL_USED.off, 30, 20⟩
def WELL_USED.USED : Fld := ⟨WELL_USED.off, 10, 0⟩
/-- WELL_CLAIM_TAB: offset from 0x0300_0000 (Table 22-6). -/
def WELL_CLAIM_TAB.off : Nat := 0x2028
def WELL_CLAIM_TAB.WR : Fld := ⟨WELL_CLAIM_TAB.off, 31, 31⟩
def WELL_CLAIM_TAB.INDEX : Fld := ⟨WELL_CLAIM_TAB.off, 22, 16⟩
def WELL_CLAIM_TAB.VALUE : Fld := ⟨WELL_CLAIM_TAB.off, 11, 0⟩
/-- WELL_DENY_CNT: offset from 0x0300_0000 (Table 22-6). -/
def WELL_DENY_CNT.off : Nat := 0x202C
def WELL_DENY_CNT.DENY : Fld := ⟨WELL_DENY_CNT.off, 31, 31⟩
def WELL_DENY_CNT.OCC_CNT : Fld := ⟨WELL_DENY_CNT.off, 30, 23⟩
def WELL_DENY_CNT.TOTAL : Fld := ⟨WELL_DENY_CNT.off, 15, 0⟩
/-- WELL_QUEUE: offset from 0x0300_0000 (Table 22-6). -/
def WELL_QUEUE.off : Nat := 0x2030
def WELL_QUEUE.LEN : Fld := ⟨WELL_QUEUE.off, 30, 24⟩
def WELL_QUEUE.PROMO : Fld := ⟨WELL_QUEUE.off, 23, 23⟩
def WELL_QUEUE.DEVPRIO : Fld := ⟨WELL_QUEUE.off, 13, 12⟩
def WELL_QUEUE.HEAD : Fld := ⟨WELL_QUEUE.off, 10, 0⟩
/-- HPn_CFG: offset from 0x0300_0000 (Table 22-6). -/
def HPn_CFG.off (n : Nat) : Nat := 0x3000 + 1024 * n
def HPn_CFG.CK_REQ (n : Nat) : Fld := ⟨(HPn_CFG.off n), 31, 31⟩
def HPn_CFG.IRQ_OD (n : Nat) : Fld := ⟨(HPn_CFG.off n), 30, 30⟩
def HPn_CFG.DRIVE (n : Nat) : Fld := ⟨(HPn_CFG.off n), 29, 28⟩
/-- HPn_STAT: offset from 0x0300_0000 (Table 22-6). -/
def HPn_STAT.off (n : Nat) : Nat := 0x3004 + 1024 * n
def HPn_STAT.ADDR_OVER (n : Nat) : Fld := ⟨(HPn_STAT.off n), 31, 31⟩
def HPn_STAT.RDERR (n : Nat) : Fld := ⟨(HPn_STAT.off n), 30, 30⟩
def HPn_STAT.VOID (n : Nat) : Fld := ⟨(HPn_STAT.off n), 29, 29⟩
def HPn_STAT.FBO (n : Nat) : Fld := ⟨(HPn_STAT.off n), 28, 28⟩
def HPn_STAT.WBUF (n : Nat) : Fld := ⟨(HPn_STAT.off n), 27, 26⟩
def HPn_STAT.CASC (n : Nat) : Fld := ⟨(HPn_STAT.off n), 25, 25⟩
def HPn_STAT.EVPEND (n : Nat) : Fld := ⟨(HPn_STAT.off n), 23, 16⟩
/-- HPn_IRQ_EN: offset from 0x0300_0000 (Table 22-6). -/
def HPn_IRQ_EN.off (n : Nat) : Nat := 0x3008 + 1024 * n
def HPn_IRQ_EN.PEND (n : Nat) : Fld := ⟨(HPn_IRQ_EN.off n), 8, 8⟩
def HPn_IRQ_EN.REJECT (n : Nat) : Fld := ⟨(HPn_IRQ_EN.off n), 3, 3⟩
def HPn_IRQ_EN.OVF (n : Nat) : Fld := ⟨(HPn_IRQ_EN.off n), 2, 2⟩
def HPn_IRQ_EN.DONE (n : Nat) : Fld := ⟨(HPn_IRQ_EN.off n), 1, 1⟩
def HPn_IRQ_EN.EVENT (n : Nat) : Fld := ⟨(HPn_IRQ_EN.off n), 0, 0⟩
/-- HPn_IRQ_FLAG: offset from 0x0300_0000 (Table 22-6). -/
def HPn_IRQ_FLAG.off (n : Nat) : Nat := 0x300C + 1024 * n
def HPn_IRQ_FLAG.REJECT (n : Nat) : Fld := ⟨(HPn_IRQ_FLAG.off n), 3, 3⟩
def HPn_IRQ_FLAG.OVF (n : Nat) : Fld := ⟨(HPn_IRQ_FLAG.off n), 2, 2⟩
def HPn_IRQ_FLAG.DONE (n : Nat) : Fld := ⟨(HPn_IRQ_FLAG.off n), 1, 1⟩
def HPn_IRQ_FLAG.EVENT (n : Nat) : Fld := ⟨(HPn_IRQ_FLAG.off n), 0, 0⟩
/-- HPn_IRQ_CNT: offset from 0x0300_0000 (Table 22-6). -/
def HPn_IRQ_CNT.off (n : Nat) : Nat := 0x3010 + 1024 * n
def HPn_IRQ_CNT.REJECT_CNT (n : Nat) : Fld := ⟨(HPn_IRQ_CNT.off n), 31, 24⟩
def HPn_IRQ_CNT.OVF_CNT (n : Nat) : Fld := ⟨(HPn_IRQ_CNT.off n), 23, 16⟩
def HPn_IRQ_CNT.DONE_CNT (n : Nat) : Fld := ⟨(HPn_IRQ_CNT.off n), 15, 8⟩
def HPn_IRQ_CNT.EVENT_CNT (n : Nat) : Fld := ⟨(HPn_IRQ_CNT.off n), 7, 0⟩
/-- HPn_RING_BASE: offset from 0x0300_0000 (Table 22-6). -/
def HPn_RING_BASE.off (n : Nat) : Nat := 0x3014 + 1024 * n
def HPn_RING_BASE.BASE (n : Nat) : Fld := ⟨(HPn_RING_BASE.off n), 31, 0⟩
/-- HPn_RING_SIZE: offset from 0x0300_0000 (Table 22-6). -/
def HPn_RING_SIZE.off (n : Nat) : Nat := 0x3018 + 1024 * n
def HPn_RING_SIZE.SIZE (n : Nat) : Fld := ⟨(HPn_RING_SIZE.off n), 16, 0⟩
/-- HPn_RING_HEAD: offset from 0x0300_0000 (Table 22-6). -/
def HPn_RING_HEAD.off (n : Nat) : Nat := 0x301C + 1024 * n
def HPn_RING_HEAD.HEAD (n : Nat) : Fld := ⟨(HPn_RING_HEAD.off n), 15, 0⟩
/-- HPn_RING_TAIL: offset from 0x0300_0000 (Table 22-6). -/
def HPn_RING_TAIL.off (n : Nat) : Nat := 0x3020 + 1024 * n
def HPn_RING_TAIL.TAIL (n : Nat) : Fld := ⟨(HPn_RING_TAIL.off n), 15, 0⟩
/-- HPn_ERR: offset from 0x0300_0000 (Table 22-6). -/
def HPn_ERR.off (n : Nat) : Nat := 0x3024 + 1024 * n
def HPn_ERR.VOID (n : Nat) : Fld := ⟨(HPn_ERR.off n), 31, 31⟩
def HPn_ERR.VOID_CNT (n : Nat) : Fld := ⟨(HPn_ERR.off n), 30, 23⟩
def HPn_ERR.OP (n : Nat) : Fld := ⟨(HPn_ERR.off n), 22, 19⟩
def HPn_ERR.EDGES (n : Nat) : Fld := ⟨(HPn_ERR.off n), 16, 4⟩
def HPn_ERR.CODE (n : Nat) : Fld := ⟨(HPn_ERR.off n), 3, 0⟩
/-- HPn_LAST_SUBMIT: offset from 0x0300_0000 (Table 22-6). -/
def HPn_LAST_SUBMIT.off (n : Nat) : Nat := 0x3028 + 1024 * n
def HPn_LAST_SUBMIT.VALID (n : Nat) : Fld := ⟨(HPn_LAST_SUBMIT.off n), 31, 31⟩
def HPn_LAST_SUBMIT.OVR (n : Nat) : Fld := ⟨(HPn_LAST_SUBMIT.off n), 30, 30⟩
def HPn_LAST_SUBMIT.HANDLE (n : Nat) : Fld := ⟨(HPn_LAST_SUBMIT.off n), 15, 0⟩
/-- HPn_CASC_CFG: offset from 0x0300_0000 (Table 22-6). -/
def HPn_CASC_CFG.off (n : Nat) : Nat := 0x302C + 1024 * n
def HPn_CASC_CFG.EN (n : Nat) : Fld := ⟨(HPn_CASC_CFG.off n), 31, 31⟩
def HPn_CASC_CFG.SEL_EN (n : Nat) : Fld := ⟨(HPn_CASC_CFG.off n), 27, 24⟩
def HPn_CASC_CFG.WAIT_MAX (n : Nat) : Fld := ⟨(HPn_CASC_CFG.off n), 23, 16⟩
def HPn_CASC_CFG.CAPDLY (n : Nat) : Fld := ⟨(HPn_CASC_CFG.off n), 15, 12⟩
def HPn_CASC_CFG.HDIV (n : Nat) : Fld := ⟨(HPn_CASC_CFG.off n), 4, 0⟩
/-- SEQ_CTRL: offset from 0x0300_0000 (Table 22-6). -/
def SEQ_CTRL.off : Nat := 0x4000
def SEQ_CTRL.HOLD : Fld := ⟨SEQ_CTRL.off, 31, 31⟩
def SEQ_CTRL.CSEL : Fld := ⟨SEQ_CTRL.off, 5, 0⟩
/-- SEQ_CORE_STATn: offset from 0x0300_0000 (Table 22-6). -/
def SEQ_CORE_STATn.off (n : Nat) : Nat := 0x4004 + 4 * n
def SEQ_CORE_STATn.BUSY (n : Nat) : Fld := ⟨(SEQ_CORE_STATn.off n), 31, 16⟩
def SEQ_CORE_STATn.READY (n : Nat) : Fld := ⟨(SEQ_CORE_STATn.off n), 15, 0⟩
/-- SEQ_CTX_STAT: offset from 0x0300_0000 (Table 22-6). -/
def SEQ_CTX_STAT.off : Nat := 0x4014
def SEQ_CTX_STAT.STATE : Fld := ⟨SEQ_CTX_STAT.off, 31, 29⟩
def SEQ_CTX_STAT.WAIT : Fld := ⟨SEQ_CTX_STAT.off, 28, 24⟩
def SEQ_CTX_STAT.PROMO : Fld := ⟨SEQ_CTX_STAT.off, 17, 17⟩
def SEQ_CTX_STAT.HANDLE : Fld := ⟨SEQ_CTX_STAT.off, 15, 0⟩
/-- SEQ_SKETCH_BASE: offset from 0x0300_0000 (Table 22-6). -/
def SEQ_SKETCH_BASE.off : Nat := 0x4018
def SEQ_SKETCH_BASE.RETN : Fld := ⟨SEQ_SKETCH_BASE.off, 8, 0⟩
/-- SEQ_DISPATCH_CFG: offset from 0x0300_0000 (Table 22-6). -/
def SEQ_DISPATCH_CFG.off : Nat := 0x401C
def SEQ_DISPATCH_CFG.RESERVE : Fld := ⟨SEQ_DISPATCH_CFG.off, 19, 16⟩
def SEQ_DISPATCH_CFG.MASK3 : Fld := ⟨SEQ_DISPATCH_CFG.off, 15, 12⟩
def SEQ_DISPATCH_CFG.MASK2 : Fld := ⟨SEQ_DISPATCH_CFG.off, 11, 8⟩
def SEQ_DISPATCH_CFG.MASK1 : Fld := ⟨SEQ_DISPATCH_CFG.off, 7, 4⟩
def SEQ_DISPATCH_CFG.MASK0 : Fld := ⟨SEQ_DISPATCH_CFG.off, 3, 0⟩
/-- SEQ_AGE_LIMIT: offset from 0x0300_0000 (Table 22-6). -/
def SEQ_AGE_LIMIT.off : Nat := 0x4020
def SEQ_AGE_LIMIT.LIMIT : Fld := ⟨SEQ_AGE_LIMIT.off, 15, 0⟩
/-- SEQ_TRAP_INFO: offset from 0x0300_0000 (Table 22-6). -/
def SEQ_TRAP_INFO.off : Nat := 0x4024
def SEQ_TRAP_INFO.TRAP : Fld := ⟨SEQ_TRAP_INFO.off, 31, 31⟩
def SEQ_TRAP_INFO.TRAP_CNT : Fld := ⟨SEQ_TRAP_INFO.off, 30, 23⟩
def SEQ_TRAP_INFO.CTX : Fld := ⟨SEQ_TRAP_INFO.off, 17, 12⟩
def SEQ_TRAP_INFO.CAUSE : Fld := ⟨SEQ_TRAP_INFO.off, 3, 0⟩
/-- SEQ_SEMn: offset from 0x0300_0000 (Table 22-6). -/
def SEQ_SEMn.off (n : Nat) : Nat := 0x4040 + 4 * n
def SEQ_SEMn.HELD (n : Nat) : Fld := ⟨(SEQ_SEMn.off n), 31, 31⟩
def SEQ_SEMn.TAKE (n : Nat) : Fld := ⟨(SEQ_SEMn.off n), 30, 30⟩
def SEQ_SEMn.FREE (n : Nat) : Fld := ⟨(SEQ_SEMn.off n), 29, 29⟩
def SEQ_SEMn.WAITERS (n : Nat) : Fld := ⟨(SEQ_SEMn.off n), 15, 8⟩
def SEQ_SEMn.OWNER (n : Nat) : Fld := ⟨(SEQ_SEMn.off n), 6, 0⟩
/-- CVN_NOW_LO: offset from 0x0300_0000 (Table 22-6). -/
def CVN_NOW_LO.off : Nat := 0x5000
def CVN_NOW_LO.TICKS_LO : Fld := ⟨CVN_NOW_LO.off, 31, 0⟩
/-- CVN_NOW_HI: offset from 0x0300_0000 (Table 22-6). -/
def CVN_NOW_HI.off : Nat := 0x5004
def CVN_NOW_HI.TICKS_HI : Fld := ⟨CVN_NOW_HI.off, 15, 0⟩
/-- CVN_FINE: offset from 0x0300_0000 (Table 22-6). -/
def CVN_FINE.off : Nat := 0x5008
def CVN_FINE.QUAL : Fld := ⟨CVN_FINE.off, 31, 31⟩
def CVN_FINE.TRIMMED : Fld := ⟨CVN_FINE.off, 30, 30⟩
def CVN_FINE.XO32_SUB : Fld := ⟨CVN_FINE.off, 29, 29⟩
def CVN_FINE.FINE : Fld := ⟨CVN_FINE.off, 12, 0⟩
/-- CVN_CFG: offset from 0x0300_0000 (Table 22-6). -/
def CVN_CFG.off : Nat := 0x500C
def CVN_CFG.SELF_EN : Fld := ⟨CVN_CFG.off, 31, 31⟩
def CVN_CFG.TLOG_EN : Fld := ⟨CVN_CFG.off, 30, 30⟩
def CVN_CFG.TMODE : Fld := ⟨CVN_CFG.off, 29, 29⟩
def CVN_CFG.M2_SPAN : Fld := ⟨CVN_CFG.off, 27, 20⟩
def CVN_CFG.STURN : Fld := ⟨CVN_CFG.off, 19, 12⟩
def CVN_CFG.SK : Fld := ⟨CVN_CFG.off, 11, 0⟩
/-- CVN_RATE_TRIM: offset from 0x0300_0000 (Table 22-6). -/
def CVN_RATE_TRIM.off : Nat := 0x5010
def CVN_RATE_TRIM.TRIM : Fld := ⟨CVN_RATE_TRIM.off, 31, 0⟩
/-- CVN_SELF_MODEL: offset from 0x0300_0000 (Table 22-6). -/
def CVN_SELF_MODEL.off : Nat := 0x5014
def CVN_SELF_MODEL.SRATE : Fld := ⟨CVN_SELF_MODEL.off, 31, 16⟩
def CVN_SELF_MODEL.SUNC : Fld := ⟨CVN_SELF_MODEL.off, 15, 8⟩
def CVN_SELF_MODEL.SFLOOR : Fld := ⟨CVN_SELF_MODEL.off, 7, 0⟩
/-- CVN_LINE_CFG: offset from 0x0300_0000 (Table 22-6). -/
def CVN_LINE_CFG.off : Nat := 0x5018
def CVN_LINE_CFG.EN : Fld := ⟨CVN_LINE_CFG.off, 31, 31⟩
def CVN_LINE_CFG.LOCKWIN : Fld := ⟨CVN_LINE_CFG.off, 15, 8⟩
def CVN_LINE_CFG.LOSS : Fld := ⟨CVN_LINE_CFG.off, 7, 4⟩
/-- CVN_LINE_STAT: offset from 0x0300_0000 (Table 22-6). -/
def CVN_LINE_STAT.off : Nat := 0x501C
def CVN_LINE_STAT.HOLD : Fld := ⟨CVN_LINE_STAT.off, 31, 31⟩
def CVN_LINE_STAT.HOLD_CNT : Fld := ⟨CVN_LINE_STAT.off, 30, 23⟩
def CVN_LINE_STAT.CODEERR : Fld := ⟨CVN_LINE_STAT.off, 22, 22⟩
def CVN_LINE_STAT.CODE_CNT : Fld := ⟨CVN_LINE_STAT.off, 21, 14⟩
def CVN_LINE_STAT.STATE : Fld := ⟨CVN_LINE_STAT.off, 13, 12⟩
def CVN_LINE_STAT.RQUAL : Fld := ⟨CVN_LINE_STAT.off, 11, 11⟩
def CVN_LINE_STAT.RSUB : Fld := ⟨CVN_LINE_STAT.off, 10, 10⟩
def CVN_LINE_STAT.ERR : Fld := ⟨CVN_LINE_STAT.off, 9, 0⟩
/-- CVN_DELAY: offset from 0x0300_0000 (Table 22-6). -/
def CVN_DELAY.off : Nat := 0x5020
def CVN_DELAY.DELAY : Fld := ⟨CVN_DELAY.off, 15, 0⟩
/-- CVN_LAUNCH_STAT: offset from 0x0300_0000 (Table 22-6). -/
def CVN_LAUNCH_STAT.off : Nat := 0x5024
def CVN_LAUNCH_STAT.ARMED_MAP : Fld := ⟨CVN_LAUNCH_STAT.off, 31, 0⟩
/-- CVN_Ln_TIME_LO: offset from 0x0300_0000 (Table 22-6). -/
def CVN_Ln_TIME_LO.off (n : Nat) : Nat := 0x5100 + 16 * n
def CVN_Ln_TIME_LO.TICK_LO (n : Nat) : Fld := ⟨(CVN_Ln_TIME_LO.off n), 31, 16⟩
def CVN_Ln_TIME_LO.FINE (n : Nat) : Fld := ⟨(CVN_Ln_TIME_LO.off n), 12, 0⟩
/-- CVN_Ln_TIME_HI: offset from 0x0300_0000 (Table 22-6). -/
def CVN_Ln_TIME_HI.off (n : Nat) : Nat := 0x5104 + 16 * n
def CVN_Ln_TIME_HI.TICK_HI (n : Nat) : Fld := ⟨(CVN_Ln_TIME_HI.off n), 31, 0⟩
/-- CVN_Ln_ACT: offset from 0x0300_0000 (Table 22-6). -/
def CVN_Ln_ACT.off (n : Nat) : Nat := 0x5108 + 16 * n
def CVN_Ln_ACT.ARMED (n : Nat) : Fld := ⟨(CVN_Ln_ACT.off n), 31, 31⟩
def CVN_Ln_ACT.ARM (n : Nat) : Fld := ⟨(CVN_Ln_ACT.off n), 30, 30⟩
def CVN_Ln_ACT.CANCEL (n : Nat) : Fld := ⟨(CVN_Ln_ACT.off n), 29, 29⟩
def CVN_Ln_ACT.FIRED (n : Nat) : Fld := ⟨(CVN_Ln_ACT.off n), 28, 28⟩
def CVN_Ln_ACT.MISSED (n : Nat) : Fld := ⟨(CVN_Ln_ACT.off n), 27, 27⟩
def CVN_Ln_ACT.KEEP (n : Nat) : Fld := ⟨(CVN_Ln_ACT.off n), 26, 26⟩
def CVN_Ln_ACT.LATE_POL (n : Nat) : Fld := ⟨(CVN_Ln_ACT.off n), 25, 24⟩
def CVN_Ln_ACT.FIRE_CNT (n : Nat) : Fld := ⟨(CVN_Ln_ACT.off n), 23, 16⟩
def CVN_Ln_ACT.ACTION (n : Nat) : Fld := ⟨(CVN_Ln_ACT.off n), 15, 12⟩
def CVN_Ln_ACT.REPEAT (n : Nat) : Fld := ⟨(CVN_Ln_ACT.off n), 11, 8⟩
def CVN_Ln_ACT.ARG (n : Nat) : Fld := ⟨(CVN_Ln_ACT.off n), 7, 0⟩
/-- RFA_CHAIN_CFG: offset from 0x0300_0000 (Table 22-6). -/
def RFA_CHAIN_CFG.off : Nat := 0x6000
def RFA_CHAIN_CFG.SYT_ON : Fld := ⟨RFA_CHAIN_CFG.off, 6, 6⟩
def RFA_CHAIN_CFG.RXB_ON : Fld := ⟨RFA_CHAIN_CFG.off, 5, 5⟩
def RFA_CHAIN_CFG.RXA_ON : Fld := ⟨RFA_CHAIN_CFG.off, 4, 4⟩
def RFA_CHAIN_CFG.ARR : Fld := ⟨RFA_CHAIN_CFG.off, 1, 0⟩
/-- RFA_RXn_CFG: offset from 0x0300_0000 (Table 22-6). -/
def RFA_RXn_CFG.off (n : Nat) : Nat := 0x6004 + 4 * n
def RFA_RXn_CFG.CLIP (n : Nat) : Fld := ⟨(RFA_RXn_CFG.off n), 31, 31⟩
def RFA_RXn_CFG.CLIP_CNT (n : Nat) : Fld := ⟨(RFA_RXn_CFG.off n), 23, 16⟩
def RFA_RXn_CFG.EXT_GAIN (n : Nat) : Fld := ⟨(RFA_RXn_CFG.off n), 15, 8⟩
def RFA_RXn_CFG.DC_TRACK (n : Nat) : Fld := ⟨(RFA_RXn_CFG.off n), 3, 3⟩
def RFA_RXn_CFG.GAIN (n : Nat) : Fld := ⟨(RFA_RXn_CFG.off n), 2, 0⟩
/-- RFA_TX_CFG: offset from 0x0300_0000 (Table 22-6). -/
def RFA_TX_CFG.off : Nat := 0x600C
def RFA_TX_CFG.DEV4 : Fld := ⟨RFA_TX_CFG.off, 23, 16⟩
def RFA_TX_CFG.DEV2 : Fld := ⟨RFA_TX_CFG.off, 15, 8⟩
def RFA_TX_CFG.BT : Fld := ⟨RFA_TX_CFG.off, 1, 0⟩
/-- RFA_SYn_FREQ: offset from 0x0300_0000 (Table 22-6). -/
def RFA_SYn_FREQ.off (n : Nat) : Nat := 0x6010 + 4 * n
def RFA_SYn_FREQ.WORD (n : Nat) : Fld := ⟨(RFA_SYn_FREQ.off n), 27, 0⟩
/-- RFA_SY_DITHER: offset from 0x0300_0000 (Table 22-6). -/
def RFA_SY_DITHER.off : Nat := 0x601C
def RFA_SY_DITHER.SEL : Fld := ⟨RFA_SY_DITHER.off, 31, 30⟩
def RFA_SY_DITHER.DITH_EN : Fld := ⟨RFA_SY_DITHER.off, 26, 24⟩
def RFA_SY_DITHER.SEED : Fld := ⟨RFA_SY_DITHER.off, 22, 0⟩
/-- RFA_SY_STAT: offset from 0x0300_0000 (Table 22-6). -/
def RFA_SY_STAT.off : Nat := 0x6020
def RFA_SY_STAT.SYT_UNLK : Fld := ⟨RFA_SY_STAT.off, 31, 31⟩
def RFA_SY_STAT.SYB_UNLK : Fld := ⟨RFA_SY_STAT.off, 30, 30⟩
def RFA_SY_STAT.SYA_UNLK : Fld := ⟨RFA_SY_STAT.off, 29, 29⟩
def RFA_SY_STAT.SYT_LOCK : Fld := ⟨RFA_SY_STAT.off, 28, 28⟩
def RFA_SY_STAT.SYB_LOCK : Fld := ⟨RFA_SY_STAT.off, 27, 27⟩
def RFA_SY_STAT.SYA_LOCK : Fld := ⟨RFA_SY_STAT.off, 26, 26⟩
def RFA_SY_STAT.SYT_UNLK_CNT : Fld := ⟨RFA_SY_STAT.off, 23, 16⟩
def RFA_SY_STAT.SYB_UNLK_CNT : Fld := ⟨RFA_SY_STAT.off, 15, 8⟩
def RFA_SY_STAT.SYA_UNLK_CNT : Fld := ⟨RFA_SY_STAT.off, 7, 0⟩
/-- RFA_CAL_CTRL: offset from 0x0300_0000 (Table 22-6). -/
def RFA_CAL_CTRL.off : Nat := 0x6024
def RFA_CAL_CTRL.RXB_IQ : Fld := ⟨RFA_CAL_CTRL.off, 6, 6⟩
def RFA_CAL_CTRL.RXA_IQ : Fld := ⟨RFA_CAL_CTRL.off, 5, 5⟩
def RFA_CAL_CTRL.SYT_VCO : Fld := ⟨RFA_CAL_CTRL.off, 2, 2⟩
def RFA_CAL_CTRL.SYB_VCO : Fld := ⟨RFA_CAL_CTRL.off, 1, 1⟩
def RFA_CAL_CTRL.SYA_VCO : Fld := ⟨RFA_CAL_CTRL.off, 0, 0⟩
/-- RFA_CAL_STAT: offset from 0x0300_0000 (Table 22-6). -/
def RFA_CAL_STAT.off : Nat := 0x6028
def RFA_CAL_STAT.CAL_FAIL : Fld := ⟨RFA_CAL_STAT.off, 31, 31⟩
def RFA_CAL_STAT.CAL_FAIL_CNT : Fld := ⟨RFA_CAL_STAT.off, 27, 20⟩
def RFA_CAL_STAT.SYT_BAND : Fld := ⟨RFA_CAL_STAT.off, 17, 12⟩
def RFA_CAL_STAT.SYB_BAND : Fld := ⟨RFA_CAL_STAT.off, 11, 6⟩
def RFA_CAL_STAT.SYA_BAND : Fld := ⟨RFA_CAL_STAT.off, 5, 0⟩
/-- RFA_PA_LEVEL: offset from 0x0300_0000 (Table 22-6). -/
def RFA_PA_LEVEL.off : Nat := 0x602C
def RFA_PA_LEVEL.CAP : Fld := ⟨RFA_PA_LEVEL.off, 14, 8⟩
def RFA_PA_LEVEL.LEVEL : Fld := ⟨RFA_PA_LEVEL.off, 6, 0⟩
/-- RFA_PA_RAMP: offset from 0x0300_0000 (Table 22-6). -/
def RFA_PA_RAMP.off : Nat := 0x6030
def RFA_PA_RAMP.SHAPE : Fld := ⟨RFA_PA_RAMP.off, 4, 4⟩
def RFA_PA_RAMP.RAMP : Fld := ⟨RFA_PA_RAMP.off, 2, 0⟩
/-- RFA_EXT_CTL: offset from 0x0300_0000 (Table 22-6). -/
def RFA_EXT_CTL.off : Nat := 0x6034
def RFA_EXT_CTL.SW_LEAD : Fld := ⟨RFA_EXT_CTL.off, 31, 26⟩
def RFA_EXT_CTL.PA_LEAD : Fld := ⟨RFA_EXT_CTL.off, 25, 20⟩
def RFA_EXT_CTL.PA_LAG : Fld := ⟨RFA_EXT_CTL.off, 19, 14⟩
def RFA_EXT_CTL.SW_LAG : Fld := ⟨RFA_EXT_CTL.off, 13, 8⟩
def RFA_EXT_CTL.PACTL_EN : Fld := ⟨RFA_EXT_CTL.off, 1, 1⟩
def RFA_EXT_CTL.LNA_BYP : Fld := ⟨RFA_EXT_CTL.off, 0, 0⟩
/-- RFA_DIV_CFG: offset from 0x0300_0000 (Table 22-6). -/
def RFA_DIV_CFG.off : Nat := 0x6038
def RFA_DIV_CFG.PICK_MARGIN : Fld := ⟨RFA_DIV_CFG.off, 11, 4⟩
def RFA_DIV_CFG.TX_DEFAULT : Fld := ⟨RFA_DIV_CFG.off, 3, 3⟩
def RFA_DIV_CFG.TX_FOLLOW : Fld := ⟨RFA_DIV_CFG.off, 2, 2⟩
def RFA_DIV_CFG.MODE : Fld := ⟨RFA_DIV_CFG.off, 1, 0⟩
/-- RFA_TEMP: offset from 0x0300_0000 (Table 22-6). -/
def RFA_TEMP.off : Nat := 0x603C
def RFA_TEMP.START : Fld := ⟨RFA_TEMP.off, 31, 31⟩
def RFA_TEMP.SEQ : Fld := ⟨RFA_TEMP.off, 27, 20⟩
def RFA_TEMP.OFFSET : Fld := ⟨RFA_TEMP.off, 19, 12⟩
def RFA_TEMP.TEMP : Fld := ⟨RFA_TEMP.off, 11, 0⟩
/-- CHZ_CTRL: offset from 0x0300_0000 (Table 22-6). -/
def CHZ_CTRL.off : Nat := 0x7000
def CHZ_CTRL.RUN_B : Fld := ⟨CHZ_CTRL.off, 17, 17⟩
def CHZ_CTRL.RUN_A : Fld := ⟨CHZ_CTRL.off, 16, 16⟩
def CHZ_CTRL.FLUSH : Fld := ⟨CHZ_CTRL.off, 8, 8⟩
def CHZ_CTRL.DET_B : Fld := ⟨CHZ_CTRL.off, 3, 3⟩
def CHZ_CTRL.DET_A : Fld := ⟨CHZ_CTRL.off, 2, 2⟩
def CHZ_CTRL.EN_B : Fld := ⟨CHZ_CTRL.off, 1, 1⟩
def CHZ_CTRL.EN_A : Fld := ⟨CHZ_CTRL.off, 0, 0⟩
/-- CHZ_WINn: offset from 0x0300_0000 (Table 22-6). -/
def CHZ_WINn.off (n : Nat) : Nat := 0x7004 + 4 * n
def CHZ_WINn.HALF (n : Nat) : Fld := ⟨(CHZ_WINn.off n), 31, 31⟩
def CHZ_WINn.CENTRE (n : Nat) : Fld := ⟨(CHZ_WINn.off n), 16, 0⟩
/-- CHZ_BINMASK: offset from 0x0300_0000 (Table 22-6). -/
def CHZ_BINMASK.off : Nat := 0x700C
def CHZ_BINMASK.CHAIN : Fld := ⟨CHZ_BINMASK.off, 31, 31⟩
def CHZ_BINMASK.SEL_ONLY : Fld := ⟨CHZ_BINMASK.off, 30, 30⟩
def CHZ_BINMASK.GROUP : Fld := ⟨CHZ_BINMASK.off, 24, 20⟩
def CHZ_BINMASK.MASK : Fld := ⟨CHZ_BINMASK.off, 15, 0⟩
/-- CHZ_DET_CFG: offset from 0x0300_0000 (Table 22-6). -/
def CHZ_DET_CFG.off : Nat := 0x7010
def CHZ_DET_CFG.CFG_B : Fld := ⟨CHZ_DET_CFG.off, 31, 16⟩
def CHZ_DET_CFG.WIDTH : Fld := ⟨CHZ_DET_CFG.off, 15, 14⟩
def CHZ_DET_CFG.RATE : Fld := ⟨CHZ_DET_CFG.off, 13, 11⟩
def CHZ_DET_CFG.MOD : Fld := ⟨CHZ_DET_CFG.off, 10, 10⟩
def CHZ_DET_CFG.SYNC_EN : Fld := ⟨CHZ_DET_CFG.off, 9, 7⟩
def CHZ_DET_CFG.ALIGN : Fld := ⟨CHZ_DET_CFG.off, 6, 4⟩
def CHZ_DET_CFG.DET_LEN : Fld := ⟨CHZ_DET_CFG.off, 3, 0⟩
/-- CHZ_DET_THRESH: offset from 0x0300_0000 (Table 22-6). -/
def CHZ_DET_THRESH.off : Nat := 0x7014
def CHZ_DET_THRESH.CAPTURE : Fld := ⟨CHZ_DET_THRESH.off, 31, 24⟩
def CHZ_DET_THRESH.FLOOR : Fld := ⟨CHZ_DET_THRESH.off, 23, 16⟩
def CHZ_DET_THRESH.SNR_MIN : Fld := ⟨CHZ_DET_THRESH.off, 15, 8⟩
def CHZ_DET_THRESH.CORR : Fld := ⟨CHZ_DET_THRESH.off, 7, 0⟩
/-- CHZ_SYNCn: offset from 0x0300_0000 (Table 22-6). -/
def CHZ_SYNCn.off (n : Nat) : Nat := 0x7018 + 4 * n
def CHZ_SYNCn.MAXERR (n : Nat) : Fld := ⟨(CHZ_SYNCn.off n), 27, 24⟩
def CHZ_SYNCn.WORD (n : Nat) : Fld := ⟨(CHZ_SYNCn.off n), 23, 0⟩
/-- CHZ_PENDING_STAT: offset from 0x0300_0000 (Table 22-6). -/
def CHZ_PENDING_STAT.off : Nat := 0x7024
def CHZ_PENDING_STAT.OVERFLOW : Fld := ⟨CHZ_PENDING_STAT.off, 31, 31⟩
def CHZ_PENDING_STAT.OVF_CNT : Fld := ⟨CHZ_PENDING_STAT.off, 30, 23⟩
def CHZ_PENDING_STAT.FALSE_CNT : Fld := ⟨CHZ_PENDING_STAT.off, 22, 15⟩
def CHZ_PENDING_STAT.COUNT : Fld := ⟨CHZ_PENDING_STAT.off, 9, 0⟩
/-- CHZ_PENDING_POLICY: offset from 0x0300_0000 (Table 22-6). -/
def CHZ_PENDING_POLICY.off : Nat := 0x7028
def CHZ_PENDING_POLICY.AGE_LIMIT : Fld := ⟨CHZ_PENDING_POLICY.off, 31, 24⟩
def CHZ_PENDING_POLICY.MARGIN : Fld := ⟨CHZ_PENDING_POLICY.off, 23, 20⟩
def CHZ_PENDING_POLICY.UNEXP_CLASS : Fld := ⟨CHZ_PENDING_POLICY.off, 19, 18⟩
def CHZ_PENDING_POLICY.ORDER : Fld := ⟨CHZ_PENDING_POLICY.off, 17, 16⟩
def CHZ_PENDING_POLICY.MIN_B : Fld := ⟨CHZ_PENDING_POLICY.off, 15, 8⟩
def CHZ_PENDING_POLICY.MIN_A : Fld := ⟨CHZ_PENDING_POLICY.off, 7, 0⟩
/-- CHZ_ERG_CFG: offset from 0x0300_0000 (Table 22-6). -/
def CHZ_ERG_CFG.off : Nat := 0x702C
def CHZ_ERG_CFG.WR_B : Fld := ⟨CHZ_ERG_CFG.off, 1, 1⟩
def CHZ_ERG_CFG.WR_A : Fld := ⟨CHZ_ERG_CFG.off, 0, 0⟩
/-- CHZ_ERG_STAT: offset from 0x0300_0000 (Table 22-6). -/
def CHZ_ERG_STAT.off : Nat := 0x7030
def CHZ_ERG_STAT.GAP : Fld := ⟨CHZ_ERG_STAT.off, 31, 31⟩
def CHZ_ERG_STAT.GAP_CNT : Fld := ⟨CHZ_ERG_STAT.off, 30, 23⟩
def CHZ_ERG_STAT.WDENY : Fld := ⟨CHZ_ERG_STAT.off, 22, 22⟩
def CHZ_ERG_STAT.WDENY_CNT : Fld := ⟨CHZ_ERG_STAT.off, 21, 14⟩
def CHZ_ERG_STAT.WPOS : Fld := ⟨CHZ_ERG_STAT.off, 11, 0⟩
/-- CHZ_ENERGY: offset from 0x0300_0000 (Table 22-6). -/
def CHZ_ENERGY.off : Nat := 0x7034
def CHZ_ENERGY.CHAIN : Fld := ⟨CHZ_ENERGY.off, 31, 31⟩
def CHZ_ENERGY.SPAN : Fld := ⟨CHZ_ENERGY.off, 30, 29⟩
def CHZ_ENERGY.BIN : Fld := ⟨CHZ_ENERGY.off, 28, 20⟩
def CHZ_ENERGY.BLOCKS : Fld := ⟨CHZ_ENERGY.off, 19, 13⟩
def CHZ_ENERGY.EMAX : Fld := ⟨CHZ_ENERGY.off, 7, 0⟩
/-- LANE_CTRL: offset from 0x0300_0000 (Table 22-6). -/
def LANE_CTRL.off : Nat := 0x8000
def LANE_CTRL.EN : Fld := ⟨LANE_CTRL.off, 31, 31⟩
def LANE_CTRL.CNT_CLR : Fld := ⟨LANE_CTRL.off, 15, 15⟩
def LANE_CTRL.FCS32 : Fld := ⟨LANE_CTRL.off, 10, 8⟩
def LANE_CTRL.KEEP_FCS : Fld := ⟨LANE_CTRL.off, 4, 4⟩
def LANE_CTRL.KEEP_BAD : Fld := ⟨LANE_CTRL.off, 3, 3⟩
def LANE_CTRL.PT_UPD : Fld := ⟨LANE_CTRL.off, 2, 2⟩
def LANE_CTRL.STARVE_REC : Fld := ⟨LANE_CTRL.off, 1, 1⟩
/-- LANE_STATn: offset from 0x0300_0000 (Table 22-6). -/
def LANE_STATn.off (n : Nat) : Nat := 0x8004 + 4 * n
def LANE_STATn.BUSY (n : Nat) : Fld := ⟨(LANE_STATn.off n), 31, 0⟩
/-- LANE_ALLOC_CFG: offset from 0x0300_0000 (Table 22-6). -/
def LANE_ALLOC_CFG.off : Nat := 0x8014
def LANE_ALLOC_CFG.GRP_GRANT : Fld := ⟨LANE_ALLOC_CFG.off, 31, 16⟩
def LANE_ALLOC_CFG.GRP_REQ : Fld := ⟨LANE_ALLOC_CFG.off, 15, 0⟩
/-- LANE_RECOV_CFG: offset from 0x0300_0000 (Table 22-6). -/
def LANE_RECOV_CFG.off : Nat := 0x8018
def LANE_RECOV_CFG.RBASE : Fld := ⟨LANE_RECOV_CFG.off, 31, 15⟩
def LANE_RECOV_CFG.SCAN : Fld := ⟨LANE_RECOV_CFG.off, 14, 14⟩
def LANE_RECOV_CFG.EN : Fld := ⟨LANE_RECOV_CFG.off, 13, 13⟩
def LANE_RECOV_CFG.SLOTS : Fld := ⟨LANE_RECOV_CFG.off, 12, 8⟩
def LANE_RECOV_CFG.IMPAIR : Fld := ⟨LANE_RECOV_CFG.off, 7, 0⟩
/-- LANE_RECOV_STAT: offset from 0x0300_0000 (Table 22-6). -/
def LANE_RECOV_STAT.off : Nat := 0x801C
def LANE_RECOV_STAT.OK_CNT : Fld := ⟨LANE_RECOV_STAT.off, 31, 24⟩
def LANE_RECOV_STAT.FAIL_CNT : Fld := ⟨LANE_RECOV_STAT.off, 23, 16⟩
def LANE_RECOV_STAT.SKIP_CNT : Fld := ⟨LANE_RECOV_STAT.off, 15, 8⟩
def LANE_RECOV_STAT.WAIT : Fld := ⟨LANE_RECOV_STAT.off, 4, 0⟩
/-- LANE_STARVE_CNT: offset from 0x0300_0000 (Table 22-6). -/
def LANE_STARVE_CNT.off : Nat := 0x8020
def LANE_STARVE_CNT.STARVED : Fld := ⟨LANE_STARVE_CNT.off, 31, 31⟩
def LANE_STARVE_CNT.OCC_CNT : Fld := ⟨LANE_STARVE_CNT.off, 23, 16⟩
def LANE_STARVE_CNT.TOTAL : Fld := ⟨LANE_STARVE_CNT.off, 15, 0⟩
/-- LANE_RING_BASE: offset from 0x0300_0000 (Table 22-6). -/
def LANE_RING_BASE.off : Nat := 0x8024
def LANE_RING_BASE.BASE : Fld := ⟨LANE_RING_BASE.off, 31, 0⟩
/-- LANE_RING_SIZE: offset from 0x0300_0000 (Table 22-6). -/
def LANE_RING_SIZE.off : Nat := 0x8028
def LANE_RING_SIZE.SIZE : Fld := ⟨LANE_RING_SIZE.off, 20, 0⟩
/-- LANE_RING_HEAD: offset from 0x0300_0000 (Table 22-6). -/
def LANE_RING_HEAD.off : Nat := 0x802C
def LANE_RING_HEAD.FULL : Fld := ⟨LANE_RING_HEAD.off, 31, 31⟩
def LANE_RING_HEAD.FULL_CNT : Fld := ⟨LANE_RING_HEAD.off, 30, 23⟩
def LANE_RING_HEAD.HEAD : Fld := ⟨LANE_RING_HEAD.off, 19, 0⟩
/-- LANE_RING_TAIL: offset from 0x0300_0000 (Table 22-6). -/
def LANE_RING_TAIL.off : Nat := 0x8030
def LANE_RING_TAIL.TAIL : Fld := ⟨LANE_RING_TAIL.off, 19, 0⟩
/-- LANE_DIV_STAT: offset from 0x0300_0000 (Table 22-6). -/
def LANE_DIV_STAT.off : Nat := 0x8034
def LANE_DIV_STAT.PICK_B : Fld := ⟨LANE_DIV_STAT.off, 31, 16⟩
def LANE_DIV_STAT.PICK_A : Fld := ⟨LANE_DIV_STAT.off, 15, 0⟩
/-- LANE_CNT_OK: offset from 0x0300_0000 (Table 22-6). -/
def LANE_CNT_OK.off : Nat := 0x8038
def LANE_CNT_OK.COUNT : Fld := ⟨LANE_CNT_OK.off, 31, 0⟩
/-- LANE_CNT_FCS: offset from 0x0300_0000 (Table 22-6). -/
def LANE_CNT_FCS.off : Nat := 0x803C
def LANE_CNT_FCS.COUNT : Fld := ⟨LANE_CNT_FCS.off, 31, 0⟩
/-- TXP_CTRL: offset from 0x0300_0000 (Table 22-6). -/
def TXP_CTRL.off : Nat := 0x9000
def TXP_CTRL.ABORT : Fld := ⟨TXP_CTRL.off, 31, 31⟩
def TXP_CTRL.TS_INS : Fld := ⟨TXP_CTRL.off, 11, 11⟩
def TXP_CTRL.TEMP_INS : Fld := ⟨TXP_CTRL.off, 10, 10⟩
def TXP_CTRL.REQ_ACC : Fld := ⟨TXP_CTRL.off, 8, 8⟩
def TXP_CTRL.PRE_LEN : Fld := ⟨TXP_CTRL.off, 7, 0⟩
/-- TXP_STAT: offset from 0x0300_0000 (Table 22-6). -/
def TXP_STAT.off : Nat := 0x9004
def TXP_STAT.ACTIVE : Fld := ⟨TXP_STAT.off, 31, 31⟩
def TXP_STAT.ANT : Fld := ⟨TXP_STAT.off, 30, 30⟩
def TXP_STAT.LATE : Fld := ⟨TXP_STAT.off, 29, 29⟩
def TXP_STAT.CBUSY : Fld := ⟨TXP_STAT.off, 28, 28⟩
def TXP_STAT.NOCOV : Fld := ⟨TXP_STAT.off, 27, 27⟩
def TXP_STAT.LATE_CNT : Fld := ⟨TXP_STAT.off, 23, 16⟩
def TXP_STAT.CBUSY_CNT : Fld := ⟨TXP_STAT.off, 15, 8⟩
def TXP_STAT.LAST : Fld := ⟨TXP_STAT.off, 7, 0⟩
/-- TXP_LBT_CFG: offset from 0x0300_0000 (Table 22-6). -/
def TXP_LBT_CFG.off : Nat := 0x9008
def TXP_LBT_CFG.MODE : Fld := ⟨TXP_LBT_CFG.off, 31, 30⟩
def TXP_LBT_CFG.LISTEN : Fld := ⟨TXP_LBT_CFG.off, 23, 16⟩
def TXP_LBT_CFG.RAND : Fld := ⟨TXP_LBT_CFG.off, 15, 8⟩
def TXP_LBT_CFG.RETRY : Fld := ⟨TXP_LBT_CFG.off, 7, 4⟩
def TXP_LBT_CFG.BEXP : Fld := ⟨TXP_LBT_CFG.off, 3, 0⟩
/-- TXP_LBT_THRESH: offset from 0x0300_0000 (Table 22-6). -/
def TXP_LBT_THRESH.off : Nat := 0x900C
def TXP_LBT_THRESH.THRESH : Fld := ⟨TXP_LBT_THRESH.off, 7, 0⟩
/-- TXP_ACK_CFG: offset from 0x0300_0000 (Table 22-6). -/
def TXP_ACK_CFG.off : Nat := 0x9010
def TXP_ACK_CFG.EN : Fld := ⟨TXP_ACK_CFG.off, 31, 31⟩
def TXP_ACK_CFG.NOLBT : Fld := ⟨TXP_ACK_CFG.off, 30, 30⟩
def TXP_ACK_CFG.PEND : Fld := ⟨TXP_ACK_CFG.off, 29, 29⟩
def TXP_ACK_CFG.MISS : Fld := ⟨TXP_ACK_CFG.off, 28, 28⟩
def TXP_ACK_CFG.MISS_CNT : Fld := ⟨TXP_ACK_CFG.off, 27, 20⟩
def TXP_ACK_CFG.LEVEL : Fld := ⟨TXP_ACK_CFG.off, 16, 10⟩
/-- TXP_TURN: offset from 0x0300_0000 (Table 22-6). -/
def TXP_TURN.off : Nat := 0x9014
def TXP_TURN.ACK_TOL : Fld := ⟨TXP_TURN.off, 31, 20⟩
def TXP_TURN.TURN : Fld := ⟨TXP_TURN.off, 11, 0⟩
/-- TXP_CALL_CFG: offset from 0x0300_0000 (Table 22-6). -/
def TXP_CALL_CFG.off : Nat := 0x9018
def TXP_CALL_CFG.PRE_BITS : Fld := ⟨TXP_CALL_CFG.off, 31, 24⟩
def TXP_CALL_CFG.GAP : Fld := ⟨TXP_CALL_CFG.off, 23, 16⟩
def TXP_CALL_CFG.REPS : Fld := ⟨TXP_CALL_CFG.off, 15, 12⟩
def TXP_CALL_CFG.LEVEL : Fld := ⟨TXP_CALL_CFG.off, 6, 0⟩
/-- SGL_STAT: offset from 0x0300_0000 (Table 22-6). -/
def SGL_STAT.off : Nat := 0x901C
def SGL_STAT.CLR : Fld := ⟨SGL_STAT.off, 15, 8⟩
def SGL_STAT.ACTIVE : Fld := ⟨SGL_STAT.off, 7, 0⟩
/-- SGL_ACCn_BAND: offset from 0x0300_0000 (Table 22-6). -/
def SGL_ACCn_BAND.off (n : Nat) : Nat := 0x9100 + 16 * n
def SGL_ACCn_BAND.HIGH (n : Nat) : Fld := ⟨(SGL_ACCn_BAND.off n), 31, 16⟩
def SGL_ACCn_BAND.LOW (n : Nat) : Fld := ⟨(SGL_ACCn_BAND.off n), 15, 0⟩
/-- SGL_ACCn_LIMIT: offset from 0x0300_0000 (Table 22-6). -/
def SGL_ACCn_LIMIT.off (n : Nat) : Nat := 0x9104 + 16 * n
def SGL_ACCn_LIMIT.EXH_CNT (n : Nat) : Fld := ⟨(SGL_ACCn_LIMIT.off n), 31, 24⟩
def SGL_ACCn_LIMIT.LIMIT (n : Nat) : Fld := ⟨(SGL_ACCn_LIMIT.off n), 21, 0⟩
/-- SGL_ACCn_WINDOW: offset from 0x0300_0000 (Table 22-6). -/
def SGL_ACCn_WINDOW.off (n : Nat) : Nat := 0x9108 + 16 * n
def SGL_ACCn_WINDOW.EN (n : Nat) : Fld := ⟨(SGL_ACCn_WINDOW.off n), 31, 31⟩
def SGL_ACCn_WINDOW.LBT (n : Nat) : Fld := ⟨(SGL_ACCn_WINDOW.off n), 30, 30⟩
def SGL_ACCn_WINDOW.MAXAIR (n : Nat) : Fld := ⟨(SGL_ACCn_WINDOW.off n), 28, 23⟩
def SGL_ACCn_WINDOW.PCAP (n : Nat) : Fld := ⟨(SGL_ACCn_WINDOW.off n), 22, 16⟩
def SGL_ACCn_WINDOW.SECONDS (n : Nat) : Fld := ⟨(SGL_ACCn_WINDOW.off n), 11, 0⟩
/-- SGL_ACCn_USED: offset from 0x0300_0000 (Table 22-6). -/
def SGL_ACCn_USED.off (n : Nat) : Nat := 0x910C + 16 * n
def SGL_ACCn_USED.EXH (n : Nat) : Fld := ⟨(SGL_ACCn_USED.off n), 31, 31⟩
def SGL_ACCn_USED.USED (n : Nat) : Fld := ⟨(SGL_ACCn_USED.off n), 25, 0⟩
/-- MAC_ROLE: offset from 0x0300_0000 (Table 22-6). -/
def MAC_ROLE.off : Nat := 0xA000
def MAC_ROLE.SF_EN : Fld := ⟨MAC_ROLE.off, 31, 31⟩
def MAC_ROLE.MB_EN : Fld := ⟨MAC_ROLE.off, 30, 30⟩
def MAC_ROLE.ROLE_B : Fld := ⟨MAC_ROLE.off, 29, 28⟩
def MAC_ROLE.ROLE_A : Fld := ⟨MAC_ROLE.off, 27, 26⟩
def MAC_ROLE.EVPORT : Fld := ⟨MAC_ROLE.off, 25, 24⟩
def MAC_ROLE.UPIDX : Fld := ⟨MAC_ROLE.off, 23, 12⟩
def MAC_ROLE.BLEVEL : Fld := ⟨MAC_ROLE.off, 10, 8⟩
def MAC_ROLE.BKEY : Fld := ⟨MAC_ROLE.off, 5, 0⟩
/-- MAC_NETID: offset from 0x0300_0000 (Table 22-6). -/
def MAC_NETID.off : Nat := 0xA004
def MAC_NETID.SEED : Fld := ⟨MAC_NETID.off, 31, 16⟩
def MAC_NETID.NETID : Fld := ⟨MAC_NETID.off, 15, 0⟩
/-- MAC_SADDR: offset from 0x0300_0000 (Table 22-6). -/
def MAC_SADDR.off : Nat := 0xA008
def MAC_SADDR.SADDR : Fld := ⟨MAC_SADDR.off, 15, 0⟩
/-- MAC_LADDR_LO: offset from 0x0300_0000 (Table 22-6). -/
def MAC_LADDR_LO.off : Nat := 0xA00C
def MAC_LADDR_LO.LADDR_LO : Fld := ⟨MAC_LADDR_LO.off, 31, 0⟩
/-- MAC_LADDR_HI: offset from 0x0300_0000 (Table 22-6). -/
def MAC_LADDR_HI.off : Nat := 0xA010
def MAC_LADDR_HI.LADDR_HI : Fld := ⟨MAC_LADDR_HI.off, 31, 0⟩
/-- MAC_SF_CFG: offset from 0x0300_0000 (Table 22-6). -/
def MAC_SF_CFG.off : Nat := 0xA014
def MAC_SF_CFG.NEXT : Fld := ⟨MAC_SF_CFG.off, 31, 16⟩
def MAC_SF_CFG.HASH : Fld := ⟨MAC_SF_CFG.off, 15, 15⟩
def MAC_SF_CFG.ASSOC : Fld := ⟨MAC_SF_CFG.off, 14, 14⟩
def MAC_SF_CFG.CCOUNT : Fld := ⟨MAC_SF_CFG.off, 13, 9⟩
def MAC_SF_CFG.CFIRST : Fld := ⟨MAC_SF_CFG.off, 8, 4⟩
def MAC_SF_CFG.BO : Fld := ⟨MAC_SF_CFG.off, 3, 0⟩
/-- MAC_PLAN: offset from 0x0300_0000 (Table 22-6). -/
def MAC_PLAN.off : Nat := 0xA018
def MAC_PLAN.COUNTM1 : Fld := ⟨MAC_PLAN.off, 31, 25⟩
def MAC_PLAN.STEP : Fld := ⟨MAC_PLAN.off, 24, 17⟩
def MAC_PLAN.FIRST : Fld := ⟨MAC_PLAN.off, 16, 0⟩
/-- MAC_BEACON_STAT: offset from 0x0300_0000 (Table 22-6). -/
def MAC_BEACON_STAT.off : Nat := 0xA01C
def MAC_BEACON_STAT.LOST : Fld := ⟨MAC_BEACON_STAT.off, 31, 31⟩
def MAC_BEACON_STAT.LOST_CNT : Fld := ⟨MAC_BEACON_STAT.off, 30, 23⟩
def MAC_BEACON_STAT.REL : Fld := ⟨MAC_BEACON_STAT.off, 22, 22⟩
def MAC_BEACON_STAT.REL_CNT : Fld := ⟨MAC_BEACON_STAT.off, 21, 14⟩
def MAC_BEACON_STAT.SYNC : Fld := ⟨MAC_BEACON_STAT.off, 13, 13⟩
def MAC_BEACON_STAT.SCAN : Fld := ⟨MAC_BEACON_STAT.off, 12, 12⟩
def MAC_BEACON_STAT.MISS : Fld := ⟨MAC_BEACON_STAT.off, 11, 10⟩
/-- MAC_MISS_CFG: offset from 0x0300_0000 (Table 22-6). -/
def MAC_MISS_CFG.off : Nat := 0xA020
def MAC_MISS_CFG.SCAN : Fld := ⟨MAC_MISS_CFG.off, 31, 24⟩
def MAC_MISS_CFG.UNMOD : Fld := ⟨MAC_MISS_CFG.off, 23, 23⟩
def MAC_MISS_CFG.AREP : Fld := ⟨MAC_MISS_CFG.off, 22, 20⟩
/-- MAC_GACK_CFG: offset from 0x0300_0000 (Table 22-6). -/
def MAC_GACK_CFG.off : Nat := 0xA024
def MAC_GACK_CFG.AFTER_OPEN : Fld := ⟨MAC_GACK_CFG.off, 31, 31⟩
def MAC_GACK_CFG.MAXBITS : Fld := ⟨MAC_GACK_CFG.off, 27, 16⟩
def MAC_GACK_CFG.TXOFS : Fld := ⟨MAC_GACK_CFG.off, 15, 0⟩
/-- MAC_LEASE: offset from 0x0300_0000 (Table 22-6). -/
def MAC_LEASE.off : Nat := 0xA028
def MAC_LEASE.LEFT : Fld := ⟨MAC_LEASE.off, 31, 16⟩
def MAC_LEASE.LEASE : Fld := ⟨MAC_LEASE.off, 15, 0⟩
/-- MAC_PTAB_BASE: offset from 0x0300_0000 (Table 22-6). -/
def MAC_PTAB_BASE.off : Nat := 0xA02C
def MAC_PTAB_BASE.ENTRIES : Fld := ⟨MAC_PTAB_BASE.off, 31, 20⟩
def MAC_PTAB_BASE.BASE : Fld := ⟨MAC_PTAB_BASE.off, 19, 0⟩
/-- SEC_CTRL: offset from 0x0300_0000 (Table 22-6). -/
def SEC_CTRL.off : Nat := 0xB000
def SEC_CTRL.ERASE_ALL : Fld := ⟨SEC_CTRL.off, 31, 31⟩
def SEC_CTRL.ENG_BUSY : Fld := ⟨SEC_CTRL.off, 23, 20⟩
def SEC_CTRL.ENG_GRANT : Fld := ⟨SEC_CTRL.off, 19, 16⟩
def SEC_CTRL.ENGINES : Fld := ⟨SEC_CTRL.off, 10, 8⟩
def SEC_CTRL.HOLD : Fld := ⟨SEC_CTRL.off, 7, 0⟩
/-- SEC_KEY_SEL: offset from 0x0300_0000 (Table 22-6). -/
def SEC_KEY_SEL.off : Nat := 0xB004
def SEC_KEY_SEL.OP : Fld := ⟨SEC_KEY_SEL.off, 31, 30⟩
def SEC_KEY_SEL.PAIRWISE : Fld := ⟨SEC_KEY_SEL.off, 29, 29⟩
def SEC_KEY_SEL.CTR_ENTRY : Fld := ⟨SEC_KEY_SEL.off, 27, 16⟩
def SEC_KEY_SEL.STATE : Fld := ⟨SEC_KEY_SEL.off, 7, 6⟩
def SEC_KEY_SEL.SLOT : Fld := ⟨SEC_KEY_SEL.off, 5, 0⟩
/-- SEC_KEY_DATAn: offset from 0x0300_0000 (Table 22-6). -/
def SEC_KEY_DATAn.off (n : Nat) : Nat := 0xB008 + 4 * n
def SEC_KEY_DATAn.KEY (n : Nat) : Fld := ⟨(SEC_KEY_DATAn.off n), 31, 0⟩
/-- SEC_STAT: offset from 0x0300_0000 (Table 22-6). -/
def SEC_STAT.off : Nat := 0xB018
def SEC_STAT.FAIL : Fld := ⟨SEC_STAT.off, 31, 31⟩
def SEC_STAT.RPL : Fld := ⟨SEC_STAT.off, 30, 30⟩
def SEC_STAT.KEYBAD : Fld := ⟨SEC_STAT.off, 29, 29⟩
def SEC_STAT.LAST_REASON : Fld := ⟨SEC_STAT.off, 23, 16⟩
def SEC_STAT.KEYBAD_CNT : Fld := ⟨SEC_STAT.off, 15, 8⟩
/-- SEC_REPLAY_CFG: offset from 0x0300_0000 (Table 22-6). -/
def SEC_REPLAY_CFG.off : Nat := 0xB01C
def SEC_REPLAY_CFG.ALLOW_ANON : Fld := ⟨SEC_REPLAY_CFG.off, 31, 31⟩
def SEC_REPLAY_CFG.WIN : Fld := ⟨SEC_REPLAY_CFG.off, 5, 0⟩
/-- SEC_FAIL_CNT: offset from 0x0300_0000 (Table 22-6). -/
def SEC_FAIL_CNT.off : Nat := 0xB020
def SEC_FAIL_CNT.OCC_CNT : Fld := ⟨SEC_FAIL_CNT.off, 31, 24⟩
def SEC_FAIL_CNT.TOTAL : Fld := ⟨SEC_FAIL_CNT.off, 23, 0⟩
/-- SEC_REPLAY_CNT: offset from 0x0300_0000 (Table 22-6). -/
def SEC_REPLAY_CNT.off : Nat := 0xB024
def SEC_REPLAY_CNT.OCC_CNT : Fld := ⟨SEC_REPLAY_CNT.off, 31, 24⟩
def SEC_REPLAY_CNT.TOTAL : Fld := ⟨SEC_REPLAY_CNT.off, 23, 0⟩
/-- CHKn_CFG: offset from 0x0300_0000 (Table 22-6). -/
def CHKn_CFG.off (n : Nat) : Nat := 0xC000 + 32 * n
def CHKn_CFG.MSG (n : Nat) : Fld := ⟨(CHKn_CFG.off n), 31, 31⟩
def CHKn_CFG.REFOUT (n : Nat) : Fld := ⟨(CHKn_CFG.off n), 9, 9⟩
def CHKn_CFG.REFIN (n : Nat) : Fld := ⟨(CHKn_CFG.off n), 8, 8⟩
def CHKn_CFG.WIDTH (n : Nat) : Fld := ⟨(CHKn_CFG.off n), 4, 0⟩
/-- CHKn_POLY: offset from 0x0300_0000 (Table 22-6). -/
def CHKn_POLY.off (n : Nat) : Nat := 0xC004 + 32 * n
def CHKn_POLY.POLY (n : Nat) : Fld := ⟨(CHKn_POLY.off n), 31, 0⟩
/-- CHKn_INIT: offset from 0x0300_0000 (Table 22-6). -/
def CHKn_INIT.off (n : Nat) : Nat := 0xC008 + 32 * n
def CHKn_INIT.INIT (n : Nat) : Fld := ⟨(CHKn_INIT.off n), 31, 0⟩
/-- CHKn_VALUE: offset from 0x0300_0000 (Table 22-6). -/
def CHKn_VALUE.off (n : Nat) : Nat := 0xC00C + 32 * n
def CHKn_VALUE.VALUE (n : Nat) : Fld := ⟨(CHKn_VALUE.off n), 31, 0⟩
/-- CHKn_XOROUT: offset from 0x0300_0000 (Table 22-6). -/
def CHKn_XOROUT.off (n : Nat) : Nat := 0xC010 + 32 * n
def CHKn_XOROUT.XOROUT (n : Nat) : Fld := ⟨(CHKn_XOROUT.off n), 31, 0⟩
/-- CHKn_STAT: offset from 0x0300_0000 (Table 22-6). -/
def CHKn_STAT.off (n : Nat) : Nat := 0xC014 + 32 * n
def CHKn_STAT.BUSY (n : Nat) : Fld := ⟨(CHKn_STAT.off n), 31, 31⟩
def CHKn_STAT.PERR (n : Nat) : Fld := ⟨(CHKn_STAT.off n), 30, 30⟩
def CHKn_STAT.PERR_CNT (n : Nat) : Fld := ⟨(CHKn_STAT.off n), 29, 22⟩
def CHKn_STAT.CTX (n : Nat) : Fld := ⟨(CHKn_STAT.off n), 21, 16⟩
def CHKn_STAT.BYTES (n : Nat) : Fld := ⟨(CHKn_STAT.off n), 15, 0⟩
/-- DMAn_SRC: offset from 0x0300_0000 (Table 22-6). -/
def DMAn_SRC.off (n : Nat) : Nat := 0xD000 + 32 * n
def DMAn_SRC.SRC (n : Nat) : Fld := ⟨(DMAn_SRC.off n), 31, 0⟩
/-- DMAn_DST: offset from 0x0300_0000 (Table 22-6). -/
def DMAn_DST.off (n : Nat) : Nat := 0xD004 + 32 * n
def DMAn_DST.DST (n : Nat) : Fld := ⟨(DMAn_DST.off n), 31, 0⟩
/-- DMAn_LEN: offset from 0x0300_0000 (Table 22-6). -/
def DMAn_LEN.off (n : Nat) : Nat := 0xD008 + 32 * n
def DMAn_LEN.LEN (n : Nat) : Fld := ⟨(DMAn_LEN.off n), 19, 0⟩
/-- DMAn_CFG: offset from 0x0300_0000 (Table 22-6). -/
def DMAn_CFG.off (n : Nat) : Nat := 0xD00C + 32 * n
def DMAn_CFG.START (n : Nat) : Fld := ⟨(DMAn_CFG.off n), 31, 31⟩
def DMAn_CFG.STOP (n : Nat) : Fld := ⟨(DMAn_CFG.off n), 30, 30⟩
def DMAn_CFG.CTX (n : Nat) : Fld := ⟨(DMAn_CFG.off n), 21, 16⟩
def DMAn_CFG.FILL (n : Nat) : Fld := ⟨(DMAn_CFG.off n), 0, 0⟩
/-- DMAn_STAT: offset from 0x0300_0000 (Table 22-6). -/
def DMAn_STAT.off (n : Nat) : Nat := 0xD010 + 32 * n
def DMAn_STAT.DONE (n : Nat) : Fld := ⟨(DMAn_STAT.off n), 31, 31⟩
def DMAn_STAT.ERR (n : Nat) : Fld := ⟨(DMAn_STAT.off n), 30, 30⟩
def DMAn_STAT.DONE_CNT (n : Nat) : Fld := ⟨(DMAn_STAT.off n), 29, 22⟩
def DMAn_STAT.ERR_CNT (n : Nat) : Fld := ⟨(DMAn_STAT.off n), 21, 14⟩
def DMAn_STAT.BUSY (n : Nat) : Fld := ⟨(DMAn_STAT.off n), 13, 13⟩
def DMAn_STAT.CAUSE (n : Nat) : Fld := ⟨(DMAn_STAT.off n), 3, 0⟩
/-- DMA_ARB_CFG: offset from 0x0300_0000 (Table 22-6). -/
def DMA_ARB_CFG.off : Nat := 0xD200
def DMA_ARB_CFG.BURST : Fld := ⟨DMA_ARB_CFG.off, 3, 0⟩
/-- MEM_BANK_CFG: offset from 0x0300_0000 (Table 22-6). -/
def MEM_BANK_CFG.off : Nat := 0xE000
def MEM_BANK_CFG.SEL : Fld := ⟨MEM_BANK_CFG.off, 31, 29⟩
def MEM_BANK_CFG.SP_USED : Fld := ⟨MEM_BANK_CFG.off, 23, 16⟩
def MEM_BANK_CFG.SP_BAD : Fld := ⟨MEM_BANK_CFG.off, 15, 8⟩
def MEM_BANK_CFG.INJ : Fld := ⟨MEM_BANK_CFG.off, 1, 0⟩
/-- MEM_ROTATE_CFG: offset from 0x0300_0000 (Table 22-6). -/
def MEM_ROTATE_CFG.off : Nat := 0xE004
def MEM_ROTATE_CFG.PAIR_LOCK : Fld := ⟨MEM_ROTATE_CFG.off, 31, 31⟩
def MEM_ROTATE_CFG.SPLIT_CNT : Fld := ⟨MEM_ROTATE_CFG.off, 15, 0⟩
/-- MEM_ECC_CFG: offset from 0x0300_0000 (Table 22-6). -/
def MEM_ECC_CFG.off : Nat := 0xE008
def MEM_ECC_CFG.CE_REC : Fld := ⟨MEM_ECC_CFG.off, 1, 1⟩
def MEM_ECC_CFG.SCRUB : Fld := ⟨MEM_ECC_CFG.off, 0, 0⟩
/-- MEM_ECC_STAT: offset from 0x0300_0000 (Table 22-6). -/
def MEM_ECC_STAT.off : Nat := 0xE00C
def MEM_ECC_STAT.CE : Fld := ⟨MEM_ECC_STAT.off, 31, 31⟩
def MEM_ECC_STAT.UE : Fld := ⟨MEM_ECC_STAT.off, 30, 30⟩
def MEM_ECC_STAT.WDROP : Fld := ⟨MEM_ECC_STAT.off, 29, 29⟩
def MEM_ECC_STAT.BANK : Fld := ⟨MEM_ECC_STAT.off, 26, 24⟩
def MEM_ECC_STAT.CE_CNT : Fld := ⟨MEM_ECC_STAT.off, 23, 16⟩
def MEM_ECC_STAT.UE_CNT : Fld := ⟨MEM_ECC_STAT.off, 15, 8⟩
def MEM_ECC_STAT.WDROP_CNT : Fld := ⟨MEM_ECC_STAT.off, 7, 0⟩
/-- MEM_ERR_ADDR: offset from 0x0300_0000 (Table 22-6). -/
def MEM_ERR_ADDR.off : Nat := 0xE010
def MEM_ERR_ADDR.ADDR : Fld := ⟨MEM_ERR_ADDR.off, 31, 3⟩
def MEM_ERR_ADDR.KIND : Fld := ⟨MEM_ERR_ADDR.off, 2, 2⟩
def MEM_ERR_ADDR.SRC : Fld := ⟨MEM_ERR_ADDR.off, 1, 0⟩
/-- MEM_WALK_CFG: offset from 0x0300_0000 (Table 22-6). -/
def MEM_WALK_CFG.off : Nat := 0xE014
def MEM_WALK_CFG.EN : Fld := ⟨MEM_WALK_CFG.off, 31, 31⟩
def MEM_WALK_CFG.SPARE_EN : Fld := ⟨MEM_WALK_CFG.off, 30, 30⟩
def MEM_WALK_CFG.BANKS : Fld := ⟨MEM_WALK_CFG.off, 29, 24⟩
def MEM_WALK_CFG.INTERVAL : Fld := ⟨MEM_WALK_CFG.off, 15, 0⟩
/-- MEM_WALK_POS: offset from 0x0300_0000 (Table 22-6). -/
def MEM_WALK_POS.off : Nat := 0xE018
def MEM_WALK_POS.REGION : Fld := ⟨MEM_WALK_POS.off, 16, 0⟩
/-- MEM_WALK_STAT: offset from 0x0300_0000 (Table 22-6). -/
def MEM_WALK_STAT.off : Nat := 0xE01C
def MEM_WALK_STAT.REPAIR : Fld := ⟨MEM_WALK_STAT.off, 31, 31⟩
def MEM_WALK_STAT.NOSPARE : Fld := ⟨MEM_WALK_STAT.off, 30, 30⟩
def MEM_WALK_STAT.REPAIR_CNT : Fld := ⟨MEM_WALK_STAT.off, 29, 22⟩
def MEM_WALK_STAT.NOSPARE_CNT : Fld := ⟨MEM_WALK_STAT.off, 21, 14⟩
def MEM_WALK_STAT.BUSY : Fld := ⟨MEM_WALK_STAT.off, 13, 13⟩
def MEM_WALK_STAT.PASSES : Fld := ⟨MEM_WALK_STAT.off, 11, 0⟩
/-- MEM_ARB_CFG: offset from 0x0300_0000 (Table 22-6). -/
def MEM_ARB_CFG.off : Nat := 0xE020
def MEM_ARB_CFG.AGE_LIMIT : Fld := ⟨MEM_ARB_CFG.off, 15, 8⟩
/-- MEM_ARB_STAT: offset from 0x0300_0000 (Table 22-6). -/
def MEM_ARB_STAT.off : Nat := 0xE024
def MEM_ARB_STAT.PROMO : Fld := ⟨MEM_ARB_STAT.off, 31, 31⟩
def MEM_ARB_STAT.PROMO_CNT : Fld := ⟨MEM_ARB_STAT.off, 30, 23⟩
def MEM_ARB_STAT.BANK : Fld := ⟨MEM_ARB_STAT.off, 22, 20⟩
def MEM_ARB_STAT.MAXWAIT : Fld := ⟨MEM_ARB_STAT.off, 15, 0⟩
/-- WKR_CFG: offset from 0x0300_0000 (Table 22-6). -/
def WKR_CFG.off : Nat := 0xF000
def WKR_CFG.ADDR : Fld := ⟨WKR_CFG.off, 31, 16⟩
def WKR_CFG.EN : Fld := ⟨WKR_CFG.off, 15, 15⟩
def WKR_CFG.RUN_EN : Fld := ⟨WKR_CFG.off, 14, 14⟩
def WKR_CFG.BCAST : Fld := ⟨WKR_CFG.off, 13, 13⟩
def WKR_CFG.SK_EN : Fld := ⟨WKR_CFG.off, 12, 12⟩
def WKR_CFG.WEN : Fld := ⟨WKR_CFG.off, 11, 8⟩
def WKR_CFG.MAXERR : Fld := ⟨WKR_CFG.off, 7, 6⟩
def WKR_CFG.EVPORT : Fld := ⟨WKR_CFG.off, 5, 4⟩
def WKR_CFG.CALINT : Fld := ⟨WKR_CFG.off, 3, 0⟩
/-- WKR_TUNE: offset from 0x0300_0000 (Table 22-6). -/
def WKR_TUNE.off : Nat := 0xF004
def WKR_TUNE.CAL : Fld := ⟨WKR_TUNE.off, 31, 31⟩
def WKR_TUNE.HOLD : Fld := ⟨WKR_TUNE.off, 30, 24⟩
def WKR_TUNE.FINE : Fld := ⟨WKR_TUNE.off, 23, 18⟩
def WKR_TUNE.CAP : Fld := ⟨WKR_TUNE.off, 17, 12⟩
def WKR_TUNE.TARGET : Fld := ⟨WKR_TUNE.off, 11, 0⟩
/-- WKR_WORDn: offset from 0x0300_0000 (Table 22-6). -/
def WKR_WORDn.off (n : Nat) : Nat := 0xF008 + 4 * n
def WKR_WORDn.WORD (n : Nat) : Fld := ⟨(WKR_WORDn.off n), 31, 0⟩
/-- WKR_CLASS_MASK: offset from 0x0300_0000 (Table 22-6). -/
def WKR_CLASS_MASK.off : Nat := 0xF018
def WKR_CLASS_MASK.GROUP : Fld := ⟨WKR_CLASS_MASK.off, 31, 16⟩
def WKR_CLASS_MASK.SKETCH : Fld := ⟨WKR_CLASS_MASK.off, 15, 8⟩
def WKR_CLASS_MASK.CLASSES : Fld := ⟨WKR_CLASS_MASK.off, 7, 0⟩
/-- WKR_STAT: offset from 0x0300_0000 (Table 22-6). -/
def WKR_STAT.off : Nat := 0xF01C
def WKR_STAT.ACC : Fld := ⟨WKR_STAT.off, 31, 31⟩
def WKR_STAT.ACC_CNT : Fld := ⟨WKR_STAT.off, 30, 23⟩
def WKR_STAT.CALFAIL : Fld := ⟨WKR_STAT.off, 22, 22⟩
def WKR_STAT.CALFAIL_CNT : Fld := ⟨WKR_STAT.off, 21, 14⟩
def WKR_STAT.CALBUSY : Fld := ⟨WKR_STAT.off, 13, 13⟩
def WKR_STAT.LISTEN : Fld := ⟨WKR_STAT.off, 12, 12⟩
def WKR_STAT.COUNT : Fld := ⟨WKR_STAT.off, 11, 0⟩
/-- WKR_FALSE_CNT: offset from 0x0300_0000 (Table 22-6). -/
def WKR_FALSE_CNT.off : Nat := 0xF020
def WKR_FALSE_CNT.CRC_CNT : Fld := ⟨WKR_FALSE_CNT.off, 31, 24⟩
def WKR_FALSE_CNT.FOREIGN_CNT : Fld := ⟨WKR_FALSE_CNT.off, 23, 16⟩
def WKR_FALSE_CNT.WORD_CNT : Fld := ⟨WKR_FALSE_CNT.off, 15, 0⟩
/-- WKR_LAST: offset from 0x0300_0000 (Table 22-6). -/
def WKR_LAST.off : Nat := 0xF024
def WKR_LAST.CLASS : Fld := ⟨WKR_LAST.off, 31, 24⟩
def WKR_LAST.WORD : Fld := ⟨WKR_LAST.off, 23, 22⟩
def WKR_LAST.MATCH : Fld := ⟨WKR_LAST.off, 21, 20⟩
def WKR_LAST.TARGET : Fld := ⟨WKR_LAST.off, 15, 0⟩
/-- CAS_ROLE: offset from 0x0300_0000 (Table 22-6). -/
def CAS_ROLE.off : Nat := 0x10000
def CAS_ROLE.ROLE : Fld := ⟨CAS_ROLE.off, 31, 30⟩
def CAS_ROLE.UPPORT : Fld := ⟨CAS_ROLE.off, 29, 28⟩
/-- CAS_WORKERS: offset from 0x0300_0000 (Table 22-6). -/
def CAS_WORKERS.off : Nat := 0x10004
def CAS_WORKERS.PRESENT : Fld := ⟨CAS_WORKERS.off, 31, 24⟩
def CAS_WORKERS.UPPORT : Fld := ⟨CAS_WORKERS.off, 15, 0⟩
/-- CAS_CFG: offset from 0x0300_0000 (Table 22-6). -/
def CAS_CFG.off : Nat := 0x10008
def CAS_CFG.GO : Fld := ⟨CAS_CFG.off, 31, 31⟩
def CAS_CFG.WORKER : Fld := ⟨CAS_CFG.off, 30, 28⟩
def CAS_CFG.NOUT : Fld := ⟨CAS_CFG.off, 25, 16⟩
def CAS_CFG.BUF : Fld := ⟨CAS_CFG.off, 15, 0⟩
/-- CAS_STAT: offset from 0x0300_0000 (Table 22-6). -/
def CAS_STAT.off : Nat := 0x1000C
def CAS_STAT.DONE : Fld := ⟨CAS_STAT.off, 31, 31⟩
def CAS_STAT.TMO : Fld := ⟨CAS_STAT.off, 30, 30⟩
def CAS_STAT.DONE_CNT : Fld := ⟨CAS_STAT.off, 29, 22⟩
def CAS_STAT.TMO_CNT : Fld := ⟨CAS_STAT.off, 21, 14⟩
def CAS_STAT.BUSY : Fld := ⟨CAS_STAT.off, 13, 13⟩
def CAS_STAT.IRQ3 : Fld := ⟨CAS_STAT.off, 12, 12⟩
def CAS_STAT.IRQ2 : Fld := ⟨CAS_STAT.off, 11, 11⟩
def CAS_STAT.NGOT : Fld := ⟨CAS_STAT.off, 9, 0⟩
/-- CAS_LINE_DELAYn: offset from 0x0300_0000 (Table 22-6). -/
def CAS_LINE_DELAYn.off (n : Nat) : Nat := 0x10020 + 4 * n
def CAS_LINE_DELAYn.VALID (n : Nat) : Fld := ⟨(CAS_LINE_DELAYn.off n), 31, 31⟩
def CAS_LINE_DELAYn.RTT (n : Nat) : Fld := ⟨(CAS_LINE_DELAYn.off n), 15, 0⟩

/-- The registers of the SYS block. -/
def regsSys : List RegDef := [
  ⟨0x0, 0, 1, .all 0x96405A79,
    [⟨31, 16, .ro, []⟩,
     ⟨15, 8, .ro, []⟩,
     ⟨7, 0, .ro, []⟩]⟩,
  ⟨0x4, 0, 1, .all 0x1000011,
    [⟨31, 24, .ro, []⟩,
     ⟨23, 16, .ro, []⟩,
     ⟨15, 0, .ro, []⟩]⟩,
  ⟨0x8, 0, 1, .all 0x1,
    [⟨31, 31, .w1c, []⟩,
     ⟨30, 23, .ro, []⟩,
     ⟨15, 8, .ro, []⟩,
     ⟨3, 0, .rw, []⟩]⟩,
  ⟨0xC, 0, 1, .all 0x0,
    [⟨31, 16, .ro, []⟩,
     ⟨6, 6, .ro, []⟩,
     ⟨5, 0, .ro, []⟩]⟩,
  ⟨0x10, 0, 1, .all 0x0,
    [⟨31, 31, .w1c, []⟩,
     ⟨30, 23, .ro, []⟩,
     ⟨22, 0, .ro, []⟩]⟩,
  ⟨0x14, 0, 1, .all 0x0,
    [⟨31, 16, .ro, []⟩,
     ⟨15, 0, .ro, []⟩]⟩,
  ⟨0x18, 4, 4, .all 0x0,
    [⟨31, 0, .rw, []⟩]⟩,
  ⟨0x28, 0, 1, .all 0x0,
    [⟨31, 16, .wo, []⟩,
     ⟨15, 8, .ro, []⟩,
     ⟨1, 1, .w1c, []⟩,
     ⟨0, 0, .w1s, []⟩]⟩,
  ⟨0x2C, 0, 1, .all 0x0,
    [⟨31, 16, .wo, []⟩,
     ⟨15, 8, .ro, []⟩,
     ⟨0, 0, .wo, []⟩]⟩]

/-- The registers of the CLK block. -/
def regsClk : List RegDef := [
  ⟨0x1000, 0, 1, .all 0x1,
    [⟨4, 4, .rw, []⟩,
     ⟨3, 3, .w1s, []⟩,
     ⟨2, 2, .w1s, []⟩,
     ⟨0, 0, .rw, []⟩]⟩,
  ⟨0x1004, 0, 1, .all 0x40000000,
    [⟨31, 31, .ro, []⟩,
     ⟨30, 30, .ro, []⟩,
     ⟨29, 29, .ro, []⟩,
     ⟨28, 28, .ro, []⟩,
     ⟨27, 27, .ro, []⟩,
     ⟨23, 20, .ro, []⟩,
     ⟨19, 16, .ro, []⟩]⟩,
  ⟨0x1008, 0, 1, .all 0x2000D000,
    [⟨31, 30, .rw, [(0, 2)]⟩,
     ⟨29, 29, .rw, []⟩,
     ⟨23, 12, .rw, [(1, 4095)]⟩]⟩,
  ⟨0x1010, 0, 1, .all 0x540000,
    [⟨31, 30, .rw, [(0, 2)]⟩,
     ⟨23, 12, .rw, [(1, 4095)]⟩]⟩,
  ⟨0x100C, 8, 2, .each [0x1770, 0x20],
    [⟨31, 31, .w1c, []⟩,
     ⟨30, 30, .w1c, []⟩,
     ⟨29, 29, .w1c, []⟩,
     ⟨28, 28, .ro, []⟩,
     ⟨27, 26, .ro, []⟩,
     ⟨23, 16, .ro, []⟩,
     ⟨13, 0, .ro, []⟩]⟩,
  ⟨0x1018, 4, 2, .all 0x0,
    [⟨31, 26, .ro, []⟩,
     ⟨23, 16, .ro, []⟩,
     ⟨15, 0, .ro, []⟩]⟩,
  ⟨0x1020, 0, 1, .all 0x0,
    [⟨31, 24, .ro, []⟩,
     ⟨23, 16, .ro, []⟩,
     ⟨15, 8, .ro, []⟩,
     ⟨7, 0, .ro, []⟩]⟩,
  ⟨0x1024, 0, 1, .all 0x20,
    [⟨31, 16, .ro, []⟩,
     ⟨5, 0, .rw, []⟩]⟩,
  ⟨0x1028, 0, 1, .all 0xC,
    [⟨31, 31, .w1c, []⟩,
     ⟨30, 23, .ro, []⟩,
     ⟨5, 5, .rw, []⟩,
     ⟨4, 0, .rw, []⟩]⟩,
  ⟨0x102C, 0, 1, .all 0x7D00000,
    [⟨31, 30, .rw, [(0, 2)]⟩,
     ⟨26, 16, .rw, []⟩]⟩]

/-- The registers of the PWR block. -/
def regsPwr : List RegDef := [
  ⟨0x2000, 0, 1, .all 0x0,
    [⟨31, 31, .w1c, []⟩,
     ⟨30, 23, .ro, []⟩,
     ⟨22, 22, .ro, []⟩,
     ⟨13, 8, .ro, []⟩,
     ⟨2, 0, .ro, []⟩]⟩,
  ⟨0x2004, 0, 1, .all 0xA01,
    [⟨31, 30, .wo, []⟩,
     ⟨29, 29, .wo, []⟩,
     ⟨23, 16, .wo, []⟩,
     ⟨15, 8, .rw, [(1, 255)]⟩,
     ⟨0, 0, .rw, []⟩]⟩,
  ⟨0x2008, 0, 1, .all 0x1,
    [⟨5, 2, .rw, []⟩,
     ⟨1, 1, .rw, []⟩,
     ⟨0, 0, .rw, []⟩]⟩,
  ⟨0x200C, 0, 1, .all 0x0,
    [⟨31, 31, .rc, []⟩,
     ⟨30, 30, .rc, []⟩,
     ⟨29, 27, .ro, []⟩,
     ⟨26, 24, .ro, []⟩,
     ⟨20, 16, .ro, []⟩,
     ⟨15, 11, .ro, []⟩,
     ⟨9, 8, .ro, []⟩,
     ⟨7, 0, .ro, []⟩]⟩,
  ⟨0x2010, 0, 1, .all 0x0,
    [⟨31, 0, .ro, []⟩]⟩,
  ⟨0x2014, 0, 1, .all 0x0,
    [⟨15, 0, .ro, []⟩]⟩,
  ⟨0x2018, 0, 1, .all 0x1FFFF,
    [⟨16, 16, .rw, []⟩,
     ⟨15, 0, .rw, []⟩]⟩,
  ⟨0x201C, 0, 1, .all 0x3,
    [⟨1, 1, .rw, []⟩,
     ⟨0, 0, .rw, []⟩]⟩,
  ⟨0x2020, 0, 1, .all 0x420096,
    [⟨31, 16, .rw, []⟩,
     ⟨9, 0, .rw, [(16, 1023)]⟩]⟩,
  ⟨0x2024, 0, 1, .all 0x0,
    [⟨31, 31, .wo, []⟩,
     ⟨30, 20, .ro, []⟩,
     ⟨10, 0, .ro, []⟩]⟩,
  ⟨0x2028, 0, 1, .all 0x8,
    [⟨31, 31, .wo, []⟩,
     ⟨22, 16, .rw, [(0, 80)]⟩,
     ⟨11, 0, .rw, [(0, 2046)]⟩]⟩,
  ⟨0x202C, 0, 1, .all 0x0,
    [⟨31, 31, .w1c, []⟩,
     ⟨30, 23, .ro, []⟩,
     ⟨15, 0, .ro, []⟩]⟩,
  ⟨0x2030, 0, 1, .all 0x1000,
    [⟨30, 24, .ro, []⟩,
     ⟨23, 23, .ro, []⟩,
     ⟨13, 12, .rw, []⟩,
     ⟨10, 0, .ro, []⟩]⟩]

/-- The registers of the HOST block. -/
def regsHost : List RegDef := [
  ⟨0x3000, 1024, 4, .all 0x10000000,
    [⟨31, 31, .rw, []⟩,
     ⟨30, 30, .rw, []⟩,
     ⟨29, 28, .rw, [(0, 2)]⟩]⟩,
  ⟨0x3004, 1024, 4, .all 0x8000000,
    [⟨31, 31, .rc, []⟩,
     ⟨30, 30, .rc, []⟩,
     ⟨29, 29, .ro, []⟩,
     ⟨28, 28, .ro, []⟩,
     ⟨27, 26, .ro, []⟩,
     ⟨25, 25, .ro, []⟩,
     ⟨23, 16, .ro, []⟩]⟩,
  ⟨0x3008, 1024, 4, .all 0x5,
    [⟨8, 8, .rw, []⟩,
     ⟨3, 3, .rw, []⟩,
     ⟨2, 2, .rw, []⟩,
     ⟨1, 1, .rw, []⟩,
     ⟨0, 0, .rw, []⟩]⟩,
  ⟨0x300C, 1024, 4, .all 0x0,
    [⟨3, 3, .w1c, []⟩,
     ⟨2, 2, .w1c, []⟩,
     ⟨1, 1, .w1c, []⟩,
     ⟨0, 0, .w1c, []⟩]⟩,
  ⟨0x3010, 1024, 4, .all 0x0,
    [⟨31, 24, .ro, []⟩,
     ⟨23, 16, .ro, []⟩,
     ⟨15, 8, .ro, []⟩,
     ⟨7, 0, .ro, []⟩]⟩,
  ⟨0x3014, 1024, 4, .each [0x200000, 0x201000, 0x202000, 0x203000],
    [⟨31, 0, .rw, []⟩]⟩,
  ⟨0x3018, 1024, 4, .all 0x1000,
    [⟨16, 0, .rw, []⟩]⟩,
  ⟨0x301C, 1024, 4, .all 0x0,
    [⟨15, 0, .ro, []⟩]⟩,
  ⟨0x3020, 1024, 4, .all 0x0,
    [⟨15, 0, .rw, []⟩]⟩,
  ⟨0x3024, 1024, 4, .all 0x0,
    [⟨31, 31, .w1c, []⟩,
     ⟨30, 23, .ro, []⟩,
     ⟨22, 19, .ro, []⟩,
     ⟨16, 4, .ro, []⟩,
     ⟨3, 0, .ro, []⟩]⟩,
  ⟨0x3028, 1024, 4, .all 0x0,
    [⟨31, 31, .rc, []⟩,
     ⟨30, 30, .rc, []⟩,
     ⟨15, 0, .ro, []⟩]⟩,
  ⟨0x302C, 1024, 4, .all 0x10A002,
    [⟨31, 31, .rw, []⟩,
     ⟨27, 24, .rw, []⟩,
     ⟨23, 16, .rw, [(1, 255)]⟩,
     ⟨15, 12, .rw, []⟩,
     ⟨4, 0, .rw, [(2, 31)]⟩]⟩]

/-- The registers of the SEQ block. -/
def regsSeq : List RegDef := [
  ⟨0x4000, 0, 1, .all 0x0,
    [⟨31, 31, .rw, []⟩,
     ⟨5, 0, .rw, []⟩]⟩,
  ⟨0x4004, 4, 4, .all 0x0,
    [⟨31, 16, .ro, []⟩,
     ⟨15, 0, .ro, []⟩]⟩,
  ⟨0x4014, 0, 1, .all 0x0,
    [⟨31, 29, .ro, []⟩,
     ⟨28, 24, .ro, []⟩,
     ⟨17, 17, .ro, []⟩,
     ⟨15, 0, .ro, []⟩]⟩,
  ⟨0x4018, 0, 1, .all 0x0,
    [⟨8, 0, .rw, [(0, 256)]⟩]⟩,
  ⟨0x401C, 0, 1, .all 0xFFFF,
    [⟨19, 16, .rw, []⟩,
     ⟨15, 12, .rw, [(1, 15)]⟩,
     ⟨11, 8, .rw, [(1, 15)]⟩,
     ⟨7, 4, .rw, [(1, 15)]⟩,
     ⟨3, 0, .rw, [(1, 15)]⟩]⟩,
  ⟨0x4020, 0, 1, .all 0x148,
    [⟨15, 0, .rw, []⟩]⟩,
  ⟨0x4024, 0, 1, .all 0x0,
    [⟨31, 31, .w1c, []⟩,
     ⟨30, 23, .ro, []⟩,
     ⟨17, 12, .ro, []⟩,
     ⟨3, 0, .ro, []⟩]⟩,
  ⟨0x4040, 4, 16, .all 0x7F,
    [⟨31, 31, .ro, []⟩,
     ⟨30, 30, .w1s, []⟩,
     ⟨29, 29, .wo, []⟩,
     ⟨15, 8, .ro, []⟩,
     ⟨6, 0, .ro, []⟩]⟩]

/-- The registers of the CVN block. -/
def regsCvn : List RegDef := [
  ⟨0x5000, 0, 1, .all 0x0,
    [⟨31, 0, .ro, []⟩]⟩,
  ⟨0x5004, 0, 1, .all 0x0,
    [⟨15, 0, .ro, []⟩]⟩,
  ⟨0x5008, 0, 1, .all 0x0,
    [⟨31, 31, .ro, []⟩,
     ⟨30, 30, .ro, []⟩,
     ⟨29, 29, .ro, []⟩,
     ⟨12, 0, .ro, []⟩]⟩,
  ⟨0x500C, 0, 1, .all 0x2019DE0,
    [⟨31, 31, .rw, []⟩,
     ⟨30, 30, .rw, []⟩,
     ⟨29, 29, .rw, []⟩,
     ⟨27, 20, .rw, []⟩,
     ⟨19, 12, .rw, []⟩,
     ⟨11, 0, .rw, []⟩]⟩,
  ⟨0x5010, 0, 1, .all 0x0,
    [⟨31, 0, .rw, [(0, 500000), (4294467296, 4294967295)]⟩]⟩,
  ⟨0x5014, 0, 1, .all 0xFA50,
    [⟨31, 16, .rw, []⟩,
     ⟨15, 8, .rw, []⟩,
     ⟨7, 0, .rw, []⟩]⟩,
  ⟨0x5018, 0, 1, .all 0x1430,
    [⟨31, 31, .rw, []⟩,
     ⟨15, 8, .rw, []⟩,
     ⟨7, 4, .rw, [(1, 15)]⟩]⟩,
  ⟨0x501C, 0, 1, .all 0x0,
    [⟨31, 31, .w1c, []⟩,
     ⟨30, 23, .ro, []⟩,
     ⟨22, 22, .w1c, []⟩,
     ⟨21, 14, .ro, []⟩,
     ⟨13, 12, .ro, []⟩,
     ⟨11, 11, .ro, []⟩,
     ⟨10, 10, .ro, []⟩,
     ⟨9, 0, .ro, []⟩]⟩,
  ⟨0x5020, 0, 1, .all 0x0,
    [⟨15, 0, .rw, []⟩]⟩,
  ⟨0x5024, 0, 1, .all 0x0,
    [⟨31, 0, .ro, []⟩]⟩,
  ⟨0x5100, 16, 32, .all 0x0,
    [⟨31, 16, .rw, []⟩,
     ⟨12, 0, .rw, [(0, 5999)]⟩]⟩,
  ⟨0x5104, 16, 32, .all 0x0,
    [⟨31, 0, .rw, []⟩]⟩,
  ⟨0x5108, 16, 32, .all 0x0,
    [⟨31, 31, .ro, []⟩,
     ⟨30, 30, .wo, []⟩,
     ⟨29, 29, .wo, []⟩,
     ⟨28, 28, .ro, []⟩,
     ⟨27, 27, .ro, []⟩,
     ⟨26, 26, .rw, []⟩,
     ⟨25, 24, .rw, [(0, 2)]⟩,
     ⟨23, 16, .ro, []⟩,
     ⟨15, 12, .rw, [(0, 0), (2, 10)]⟩,
     ⟨11, 8, .rw, []⟩,
     ⟨7, 0, .rw, []⟩]⟩]

/-- The registers of the RFA block. -/
def regsRfa : List RegDef := [
  ⟨0x6000, 0, 1, .all 0x0,
    [⟨6, 6, .ro, []⟩,
     ⟨5, 5, .ro, []⟩,
     ⟨4, 4, .ro, []⟩,
     ⟨1, 0, .rw, [(0, 2)]⟩]⟩,
  ⟨0x6004, 4, 2, .all 0x8,
    [⟨31, 31, .w1c, []⟩,
     ⟨23, 16, .ro, []⟩,
     ⟨15, 8, .rw, []⟩,
     ⟨3, 3, .rw, []⟩,
     ⟨2, 0, .rw, [(0, 5)]⟩]⟩,
  ⟨0x600C, 0, 1, .all 0x152001,
    [⟨23, 16, .rw, []⟩,
     ⟨15, 8, .rw, []⟩,
     ⟨1, 0, .rw, [(0, 2)]⟩]⟩,
  ⟨0x6010, 4, 3, .all 0xB485555,
    [⟨27, 0, .rw, [(89565867, 104857600), (183500800, 209715200)]⟩]⟩,
  ⟨0x601C, 0, 1, .all 0x715A3C1,
    [⟨31, 30, .rw, [(0, 2)]⟩,
     ⟨26, 24, .rw, []⟩,
     ⟨22, 0, .rw, [(1, 8388607)]⟩]⟩,
  ⟨0x6020, 0, 1, .all 0x0,
    [⟨31, 31, .w1c, []⟩,
     ⟨30, 30, .w1c, []⟩,
     ⟨29, 29, .w1c, []⟩,
     ⟨28, 28, .ro, []⟩,
     ⟨27, 27, .ro, []⟩,
     ⟨26, 26, .ro, []⟩,
     ⟨23, 16, .ro, []⟩,
     ⟨15, 8, .ro, []⟩,
     ⟨7, 0, .ro, []⟩]⟩,
  ⟨0x6024, 0, 1, .all 0x0,
    [⟨6, 6, .w1s, []⟩,
     ⟨5, 5, .w1s, []⟩,
     ⟨2, 2, .w1s, []⟩,
     ⟨1, 1, .w1s, []⟩,
     ⟨0, 0, .w1s, []⟩]⟩,
  ⟨0x6028, 0, 1, .all 0x0,
    [⟨31, 31, .w1c, []⟩,
     ⟨27, 20, .ro, []⟩,
     ⟨17, 12, .ro, []⟩,
     ⟨11, 6, .ro, []⟩,
     ⟨5, 0, .ro, []⟩]⟩,
  ⟨0x602C, 0, 1, .all 0x5028,
    [⟨14, 8, .rw, [(0, 80)]⟩,
     ⟨6, 0, .rw, [(0, 80)]⟩]⟩,
  ⟨0x6030, 0, 1, .all 0x3,
    [⟨4, 4, .rw, []⟩,
     ⟨2, 0, .rw, []⟩]⟩,
  ⟨0x6034, 0, 1, .all 0x8508200,
    [⟨31, 26, .rw, []⟩,
     ⟨25, 20, .rw, []⟩,
     ⟨19, 14, .rw, []⟩,
     ⟨13, 8, .rw, []⟩,
     ⟨1, 1, .rw, []⟩,
     ⟨0, 0, .rw, []⟩]⟩,
  ⟨0x6038, 0, 1, .all 0x84,
    [⟨11, 4, .rw, []⟩,
     ⟨3, 3, .rw, []⟩,
     ⟨2, 2, .rw, []⟩,
     ⟨1, 0, .rw, [(0, 2)]⟩]⟩,
  ⟨0x603C, 0, 1, .all 0x0,
    [⟨31, 31, .w1s, []⟩,
     ⟨27, 20, .ro, []⟩,
     ⟨19, 12, .rw, []⟩,
     ⟨11, 0, .ro, []⟩]⟩]

/-- The registers of the CHZ block. -/
def regsChz : List RegDef := [
  ⟨0x7000, 0, 1, .all 0xC,
    [⟨17, 17, .ro, []⟩,
     ⟨16, 16, .ro, []⟩,
     ⟨8, 8, .wo, []⟩,
     ⟨3, 3, .rw, []⟩,
     ⟨2, 2, .rw, []⟩,
     ⟨1, 1, .rw, []⟩,
     ⟨0, 0, .rw, []⟩]⟩,
  ⟨0x7004, 4, 2, .all 0x80010EC8,
    [⟨31, 31, .rw, []⟩,
     ⟨16, 0, .rw, [(32800, 38400), (67200, 76800)]⟩]⟩,
  ⟨0x700C, 0, 1, .all 0xFFFF,
    [⟨31, 31, .rw, []⟩,
     ⟨30, 30, .wo, []⟩,
     ⟨24, 20, .rw, [(0, 24)]⟩,
     ⟨15, 0, .rw, []⟩]⟩,
  ⟨0x7010, 0, 1, .all 0x98849884,
    [⟨31, 16, .rw, []⟩,
     ⟨15, 14, .rw, []⟩,
     ⟨13, 11, .rw, []⟩,
     ⟨10, 10, .rw, []⟩,
     ⟨9, 7, .rw, []⟩,
     ⟨6, 4, .rw, []⟩,
     ⟨3, 0, .rw, []⟩]⟩,
  ⟨0x7014, 0, 1, .all 0xC0010A6,
    [⟨31, 24, .rw, []⟩,
     ⟨23, 16, .rw, []⟩,
     ⟨15, 8, .rw, []⟩,
     ⟨7, 0, .rw, []⟩]⟩,
  ⟨0x7018, 4, 3, .each [0x29E3A2D, 0x25B61C7, 0x2E40D93],
    [⟨27, 24, .rw, [(0, 4)]⟩,
     ⟨23, 0, .rw, []⟩]⟩,
  ⟨0x7024, 0, 1, .all 0x0,
    [⟨31, 31, .w1c, []⟩,
     ⟨30, 23, .ro, []⟩,
     ⟨22, 15, .ro, []⟩,
     ⟨9, 0, .ro, []⟩]⟩,
  ⟨0x7028, 0, 1, .all 0x402C0000,
    [⟨31, 24, .rw, []⟩,
     ⟨23, 20, .rw, [(1, 15)]⟩,
     ⟨19, 18, .rw, []⟩,
     ⟨17, 16, .rw, [(0, 2)]⟩,
     ⟨15, 8, .rw, [(0, 64)]⟩,
     ⟨7, 0, .rw, [(0, 64)]⟩]⟩,
  ⟨0x702C, 0, 1, .all 0x3,
    [⟨1, 1, .rw, []⟩,
     ⟨0, 0, .rw, []⟩]⟩,
  ⟨0x7030, 0, 1, .all 0x0,
    [⟨31, 31, .w1c, []⟩,
     ⟨30, 23, .ro, []⟩,
     ⟨22, 22, .w1c, []⟩,
     ⟨21, 14, .ro, []⟩,
     ⟨11, 0, .ro, []⟩]⟩,
  ⟨0x7034, 0, 1, .all 0x20FF,
    [⟨31, 31, .rw, []⟩,
     ⟨30, 29, .rw, []⟩,
     ⟨28, 20, .rw, [(0, 399)]⟩,
     ⟨19, 13, .rw, []⟩,
     ⟨7, 0, .ro, []⟩]⟩]

/-- The registers of the LANE block. -/
def regsLane : List RegDef := [
  ⟨0x8000, 0, 1, .all 0xE,
    [⟨31, 31, .rw, []⟩,
     ⟨15, 15, .wo, []⟩,
     ⟨10, 8, .rw, []⟩,
     ⟨4, 4, .rw, []⟩,
     ⟨3, 3, .rw, []⟩,
     ⟨2, 2, .rw, []⟩,
     ⟨1, 1, .rw, []⟩]⟩,
  ⟨0x8004, 4, 4, .all 0x0,
    [⟨31, 0, .ro, []⟩]⟩,
  ⟨0x8014, 0, 1, .all 0x0,
    [⟨31, 16, .ro, []⟩,
     ⟨15, 0, .rw, []⟩]⟩,
  ⟨0x8018, 0, 1, .all 0x1C680C,
    [⟨31, 15, .rw, [(32, 56)]⟩,
     ⟨14, 14, .rw, []⟩,
     ⟨13, 13, .rw, []⟩,
     ⟨12, 8, .rw, [(0, 8)]⟩,
     ⟨7, 0, .rw, []⟩]⟩,
  ⟨0x801C, 0, 1, .all 0x0,
    [⟨31, 24, .ro, []⟩,
     ⟨23, 16, .ro, []⟩,
     ⟨15, 8, .ro, []⟩,
     ⟨4, 0, .ro, []⟩]⟩,
  ⟨0x8020, 0, 1, .all 0x0,
    [⟨31, 31, .w1c, []⟩,
     ⟨23, 16, .ro, []⟩,
     ⟨15, 0, .ro, []⟩]⟩,
  ⟨0x8024, 0, 1, .all 0x100000,
    [⟨31, 0, .rw, []⟩]⟩,
  ⟨0x8028, 0, 1, .all 0x10000,
    [⟨20, 0, .rw, []⟩]⟩,
  ⟨0x802C, 0, 1, .all 0x0,
    [⟨31, 31, .w1c, []⟩,
     ⟨30, 23, .ro, []⟩,
     ⟨19, 0, .ro, []⟩]⟩,
  ⟨0x8030, 0, 1, .all 0x0,
    [⟨19, 0, .rw, []⟩]⟩,
  ⟨0x8034, 0, 1, .all 0x0,
    [⟨31, 16, .ro, []⟩,
     ⟨15, 0, .ro, []⟩]⟩,
  ⟨0x8038, 0, 1, .all 0x0,
    [⟨31, 0, .ro, []⟩]⟩,
  ⟨0x803C, 0, 1, .all 0x0,
    [⟨31, 0, .ro, []⟩]⟩]

/-- The registers of the TXP block. -/
def regsTxp : List RegDef := [
  ⟨0x9000, 0, 1, .all 0xD20,
    [⟨31, 31, .wo, []⟩,
     ⟨11, 11, .rw, []⟩,
     ⟨10, 10, .rw, []⟩,
     ⟨8, 8, .rw, []⟩,
     ⟨7, 0, .rw, [(16, 64)]⟩]⟩,
  ⟨0x9004, 0, 1, .all 0x0,
    [⟨31, 31, .ro, []⟩,
     ⟨30, 30, .ro, []⟩,
     ⟨29, 29, .w1c, []⟩,
     ⟨28, 28, .w1c, []⟩,
     ⟨27, 27, .ro, []⟩,
     ⟨23, 16, .ro, []⟩,
     ⟨15, 8, .ro, []⟩,
     ⟨7, 0, .ro, []⟩]⟩,
  ⟨0x9008, 0, 1, .all 0x320003,
    [⟨31, 30, .rw, [(0, 2)]⟩,
     ⟨23, 16, .rw, [(1, 255)]⟩,
     ⟨15, 8, .rw, []⟩,
     ⟨7, 4, .rw, []⟩,
     ⟨3, 0, .rw, [(0, 8)]⟩]⟩,
  ⟨0x900C, 0, 1, .all 0x6E,
    [⟨7, 0, .rw, []⟩]⟩,
  ⟨0x9010, 0, 1, .all 0x4001FC00,
    [⟨31, 31, .rw, []⟩,
     ⟨30, 30, .rw, []⟩,
     ⟨29, 29, .rw, []⟩,
     ⟨28, 28, .w1c, []⟩,
     ⟨27, 20, .ro, []⟩,
     ⟨16, 10, .rw, [(0, 80), (127, 127)]⟩]⟩,
  ⟨0x9014, 0, 1, .all 0xC800190,
    [⟨31, 20, .rw, []⟩,
     ⟨11, 0, .rw, [(400, 4000)]⟩]⟩,
  ⟨0x9018, 0, 1, .all 0x100A007F,
    [⟨31, 24, .rw, [(8, 255)]⟩,
     ⟨23, 16, .rw, []⟩,
     ⟨15, 12, .rw, []⟩,
     ⟨6, 0, .rw, [(0, 80), (127, 127)]⟩]⟩,
  ⟨0x901C, 0, 1, .all 0x0,
    [⟨15, 8, .wo, []⟩,
     ⟨7, 0, .ro, []⟩]⟩,
  ⟨0x9100, 16, 8, .all 0x0,
    [⟨31, 16, .rw, []⟩,
     ⟨15, 0, .rw, []⟩]⟩,
  ⟨0x9104, 16, 8, .all 0x0,
    [⟨31, 24, .ro, []⟩,
     ⟨21, 0, .rw, [(0, 3600000)]⟩]⟩,
  ⟨0x9108, 16, 8, .all 0x500E10,
    [⟨31, 31, .rw, []⟩,
     ⟨30, 30, .rw, []⟩,
     ⟨28, 23, .rw, []⟩,
     ⟨22, 16, .rw, [(0, 80)]⟩,
     ⟨11, 0, .rw, [(1, 3600)]⟩]⟩,
  ⟨0x910C, 16, 8, .all 0x0,
    [⟨31, 31, .w1c, []⟩,
     ⟨25, 0, .ro, []⟩]⟩]

/-- The registers of the MAC block. -/
def regsMac : List RegDef := [
  ⟨0xA000, 0, 1, .all 0x0,
    [⟨31, 31, .rw, []⟩,
     ⟨30, 30, .rw, []⟩,
     ⟨29, 28, .rw, []⟩,
     ⟨27, 26, .rw, []⟩,
     ⟨25, 24, .rw, []⟩,
     ⟨23, 12, .rw, []⟩,
     ⟨10, 8, .rw, [(0, 3), (5, 7)]⟩,
     ⟨5, 0, .rw, []⟩]⟩,
  ⟨0xA004, 0, 1, .all 0x0,
    [⟨31, 16, .rw, []⟩,
     ⟨15, 0, .rw, []⟩]⟩,
  ⟨0xA008, 0, 1, .all 0xFFFE,
    [⟨15, 0, .rw, []⟩]⟩,
  ⟨0xA00C, 0, 1, .all 0x0,
    [⟨31, 0, .rw, []⟩]⟩,
  ⟨0xA010, 0, 1, .all 0x0,
    [⟨31, 0, .rw, []⟩]⟩,
  ⟨0xA014, 0, 1, .all 0x14616,
    [⟨31, 16, .rw, []⟩,
     ⟨15, 15, .rw, []⟩,
     ⟨14, 14, .rw, []⟩,
     ⟨13, 9, .rw, []⟩,
     ⟨8, 4, .rw, []⟩,
     ⟨3, 0, .rw, [(0, 12)]⟩]⟩,
  ⟨0xA018, 0, 1, .all 0xC6090E02,
    [⟨31, 25, .rw, []⟩,
     ⟨24, 17, .rw, [(1, 255)]⟩,
     ⟨16, 0, .rw, []⟩]⟩,
  ⟨0xA01C, 0, 1, .all 0x0,
    [⟨31, 31, .w1c, []⟩,
     ⟨30, 23, .ro, []⟩,
     ⟨22, 22, .w1c, []⟩,
     ⟨21, 14, .ro, []⟩,
     ⟨13, 13, .ro, []⟩,
     ⟨12, 12, .ro, []⟩,
     ⟨11, 10, .ro, []⟩]⟩,
  ⟨0xA020, 0, 1, .all 0x10200000,
    [⟨31, 24, .rw, [(1, 255)]⟩,
     ⟨23, 23, .rw, []⟩,
     ⟨22, 20, .rw, []⟩]⟩,
  ⟨0xA024, 0, 1, .all 0x88000155,
    [⟨31, 31, .rw, []⟩,
     ⟨27, 16, .rw, [(0, 2048)]⟩,
     ⟨15, 0, .rw, []⟩]⟩,
  ⟨0xA028, 0, 1, .all 0xB40,
    [⟨31, 16, .ro, []⟩,
     ⟨15, 0, .rw, [(1, 65535)]⟩]⟩,
  ⟨0xA02C, 0, 1, .all 0x80000,
    [⟨31, 20, .rw, []⟩,
     ⟨19, 0, .ro, []⟩]⟩]

/-- The registers of the SEC block. -/
def regsSec : List RegDef := [
  ⟨0xB000, 0, 1, .all 0x40A,
    [⟨31, 31, .wo, []⟩,
     ⟨23, 20, .ro, []⟩,
     ⟨19, 16, .ro, []⟩,
     ⟨10, 8, .rw, [(1, 4)]⟩,
     ⟨7, 0, .rw, []⟩]⟩,
  ⟨0xB004, 0, 1, .all 0x0,
    [⟨31, 30, .wo, []⟩,
     ⟨29, 29, .rw, []⟩,
     ⟨27, 16, .rw, []⟩,
     ⟨7, 6, .ro, []⟩,
     ⟨5, 0, .rw, []⟩]⟩,
  ⟨0xB008, 4, 4, .all 0x0,
    [⟨31, 0, .wo, []⟩]⟩,
  ⟨0xB018, 0, 1, .all 0x0,
    [⟨31, 31, .w1c, []⟩,
     ⟨30, 30, .w1c, []⟩,
     ⟨29, 29, .w1c, []⟩,
     ⟨23, 16, .ro, []⟩,
     ⟨15, 8, .ro, []⟩]⟩,
  ⟨0xB01C, 0, 1, .all 0x20,
    [⟨31, 31, .rw, []⟩,
     ⟨5, 0, .rw, [(1, 32)]⟩]⟩,
  ⟨0xB020, 0, 1, .all 0x0,
    [⟨31, 24, .ro, []⟩,
     ⟨23, 0, .ro, []⟩]⟩,
  ⟨0xB024, 0, 1, .all 0x0,
    [⟨31, 24, .ro, []⟩,
     ⟨23, 0, .ro, []⟩]⟩]

/-- The registers of the CHK block. -/
def regsChk : List RegDef := [
  ⟨0xC000, 32, 8, .all 0x31F,
    [⟨31, 31, .rw, []⟩,
     ⟨9, 9, .rw, []⟩,
     ⟨8, 8, .rw, []⟩,
     ⟨4, 0, .rw, []⟩]⟩,
  ⟨0xC004, 32, 8, .all 0x4C11DB7,
    [⟨31, 0, .rw, []⟩]⟩,
  ⟨0xC008, 32, 8, .all 0xFFFFFFFF,
    [⟨31, 0, .rw, []⟩]⟩,
  ⟨0xC00C, 32, 8, .all 0xFFFFFFFF,
    [⟨31, 0, .rw, []⟩]⟩,
  ⟨0xC010, 32, 8, .all 0xFFFFFFFF,
    [⟨31, 0, .rw, []⟩]⟩,
  ⟨0xC014, 32, 8, .all 0x0,
    [⟨31, 31, .ro, []⟩,
     ⟨30, 30, .w1c, []⟩,
     ⟨29, 22, .ro, []⟩,
     ⟨21, 16, .ro, []⟩,
     ⟨15, 0, .ro, []⟩]⟩]

/-- The registers of the DMA block. -/
def regsDma : List RegDef := [
  ⟨0xD000, 32, 16, .all 0x0,
    [⟨31, 0, .rw, []⟩]⟩,
  ⟨0xD004, 32, 16, .all 0x0,
    [⟨31, 0, .rw, []⟩]⟩,
  ⟨0xD008, 32, 16, .all 0x0,
    [⟨19, 0, .rw, []⟩]⟩,
  ⟨0xD00C, 32, 16, .all 0x3F0000,
    [⟨31, 31, .w1s, []⟩,
     ⟨30, 30, .wo, []⟩,
     ⟨21, 16, .ro, []⟩,
     ⟨0, 0, .rw, []⟩]⟩,
  ⟨0xD010, 32, 16, .all 0x0,
    [⟨31, 31, .w1c, []⟩,
     ⟨30, 30, .w1c, []⟩,
     ⟨29, 22, .ro, []⟩,
     ⟨21, 14, .ro, []⟩,
     ⟨13, 13, .ro, []⟩,
     ⟨3, 0, .ro, []⟩]⟩,
  ⟨0xD200, 0, 1, .all 0x3,
    [⟨3, 0, .rw, [(0, 6)]⟩]⟩]

/-- The registers of the MEM block. -/
def regsMem : List RegDef := [
  ⟨0xE000, 0, 1, .all 0x0,
    [⟨31, 29, .rw, [(0, 5)]⟩,
     ⟨23, 16, .ro, []⟩,
     ⟨15, 8, .ro, []⟩,
     ⟨1, 0, .rw, [(0, 2)]⟩]⟩,
  ⟨0xE004, 0, 1, .all 0x80000000,
    [⟨31, 31, .rw, []⟩,
     ⟨15, 0, .ro, []⟩]⟩,
  ⟨0xE008, 0, 1, .all 0x1,
    [⟨1, 1, .rw, []⟩,
     ⟨0, 0, .rw, []⟩]⟩,
  ⟨0xE00C, 0, 1, .all 0x0,
    [⟨31, 31, .w1c, []⟩,
     ⟨30, 30, .w1c, []⟩,
     ⟨29, 29, .w1c, []⟩,
     ⟨26, 24, .ro, []⟩,
     ⟨23, 16, .ro, []⟩,
     ⟨15, 8, .ro, []⟩,
     ⟨7, 0, .ro, []⟩]⟩,
  ⟨0xE010, 0, 1, .all 0x0,
    [⟨31, 3, .ro, []⟩,
     ⟨2, 2, .ro, []⟩,
     ⟨1, 0, .ro, []⟩]⟩,
  ⟨0xE014, 0, 1, .all 0xFF0003E8,
    [⟨31, 31, .rw, []⟩,
     ⟨30, 30, .rw, []⟩,
     ⟨29, 24, .rw, []⟩,
     ⟨15, 0, .rw, [(1, 65535)]⟩]⟩,
  ⟨0xE018, 0, 1, .all 0x0,
    [⟨16, 0, .rw, [(0, 107519)]⟩]⟩,
  ⟨0xE01C, 0, 1, .all 0x0,
    [⟨31, 31, .w1c, []⟩,
     ⟨30, 30, .w1c, []⟩,
     ⟨29, 22, .ro, []⟩,
     ⟨21, 14, .ro, []⟩,
     ⟨13, 13, .ro, []⟩,
     ⟨11, 0, .ro, []⟩]⟩,
  ⟨0xE020, 0, 1, .all 0x4000,
    [⟨15, 8, .rw, []⟩]⟩,
  ⟨0xE024, 0, 1, .all 0x0,
    [⟨31, 31, .w1c, []⟩,
     ⟨30, 23, .ro, []⟩,
     ⟨22, 20, .ro, []⟩,
     ⟨15, 0, .rc, []⟩]⟩]

/-- The registers of the WKR block. -/
def regsWkr : List RegDef := [
  ⟨0xF000, 0, 1, .all 0xFFFE2040,
    [⟨31, 16, .rw, []⟩,
     ⟨15, 15, .rw, []⟩,
     ⟨14, 14, .rw, []⟩,
     ⟨13, 13, .rw, []⟩,
     ⟨12, 12, .rw, []⟩,
     ⟨11, 8, .rw, []⟩,
     ⟨7, 6, .rw, []⟩,
     ⟨5, 4, .rw, []⟩,
     ⟨3, 0, .rw, []⟩]⟩,
  ⟨0xF004, 0, 1, .all 0x20820CF0,
    [⟨31, 31, .w1s, []⟩,
     ⟨30, 24, .rw, []⟩,
     ⟨23, 18, .rw, []⟩,
     ⟨17, 12, .rw, []⟩,
     ⟨11, 0, .rw, [(1652, 1658), (3293, 3318)]⟩]⟩,
  ⟨0xF008, 4, 4, .all 0x0,
    [⟨31, 0, .rw, []⟩]⟩,
  ⟨0xF018, 0, 1, .all 0xFFFE00FF,
    [⟨31, 16, .rw, []⟩,
     ⟨15, 8, .rw, []⟩,
     ⟨7, 0, .rw, []⟩]⟩,
  ⟨0xF01C, 0, 1, .all 0x0,
    [⟨31, 31, .w1c, []⟩,
     ⟨30, 23, .ro, []⟩,
     ⟨22, 22, .w1c, []⟩,
     ⟨21, 14, .ro, []⟩,
     ⟨13, 13, .ro, []⟩,
     ⟨12, 12, .ro, []⟩,
     ⟨11, 0, .ro, []⟩]⟩,
  ⟨0xF020, 0, 1, .all 0x0,
    [⟨31, 24, .ro, []⟩,
     ⟨23, 16, .ro, []⟩,
     ⟨15, 0, .ro, []⟩]⟩,
  ⟨0xF024, 0, 1, .all 0x0,
    [⟨31, 24, .ro, []⟩,
     ⟨23, 22, .ro, []⟩,
     ⟨21, 20, .ro, []⟩,
     ⟨15, 0, .ro, []⟩]⟩]

/-- The registers of the CAS block. -/
def regsCas : List RegDef := [
  ⟨0x10000, 0, 1, .all 0x0,
    [⟨31, 30, .rw, []⟩,
     ⟨29, 28, .rw, []⟩]⟩,
  ⟨0x10004, 0, 1, .all 0x0,
    [⟨31, 24, .rw, []⟩,
     ⟨15, 0, .rw, []⟩]⟩,
  ⟨0x10008, 0, 1, .all 0x10000,
    [⟨31, 31, .w1s, []⟩,
     ⟨30, 28, .rw, []⟩,
     ⟨25, 16, .rw, [(1, 514)]⟩,
     ⟨15, 0, .rw, []⟩]⟩,
  ⟨0x1000C, 0, 1, .all 0x0,
    [⟨31, 31, .w1c, []⟩,
     ⟨30, 30, .w1c, []⟩,
     ⟨29, 22, .ro, []⟩,
     ⟨21, 14, .ro, []⟩,
     ⟨13, 13, .ro, []⟩,
     ⟨12, 12, .ro, []⟩,
     ⟨11, 11, .ro, []⟩,
     ⟨9, 0, .ro, []⟩]⟩,
  ⟨0x10020, 4, 8, .all 0x0,
    [⟨31, 31, .ro, []⟩,
     ⟨15, 0, .ro, []⟩]⟩]

/-- The registers of block `b` (the 4 KiB block at 0x0300_0000 + 0x1000 * b, Table 22-3). -/
def blockRegs (b : Nat) : List RegDef :=
  match b with
  | 0 => regsSys
  | 1 => regsClk
  | 2 => regsPwr
  | 3 => regsHost
  | 4 => regsSeq
  | 5 => regsCvn
  | 6 => regsRfa
  | 7 => regsChz
  | 8 => regsLane
  | 9 => regsTxp
  | 10 => regsMac
  | 11 => regsSec
  | 12 => regsChk
  | 13 => regsDma
  | 14 => regsMem
  | 15 => regsWkr
  | 16 => regsCas
  | _ => []

/-- Whether register definition `d` places a register at offset `off`. -/
def RegDef.hits (d : RegDef) (off : Nat) : Bool :=
  if d.stride = 0 then off == d.base
  else d.base ≤ off && (off - d.base) % d.stride == 0 && (off - d.base) / d.stride < d.count

/-- The definition of the register at `off`; none at an unimplemented offset (R405). -/
def findReg (off : Nat) : Option RegDef :=
  (blockRegs (off / 0x1000)).find? (fun d => d.hits off)

/-- Whether a register lies at `off` (R405, Table 22-3). -/
def implemented (off : Nat) : Bool := (findReg off).isSome

/-- The reset word of the instance of `d` at `off`. -/
def RegDef.resetAt (d : RegDef) (off : Nat) : Word :=
  match d.reset with
  | .all w => BitVec.ofNat 32 w
  | .each ws => BitVec.ofNat 32 (ws.getD ((off - d.base) / d.stride) 0)

/-- The value of the register at `off` after reset (R12); zero where no register lies. -/
def regReset (off : Nat) : Word :=
  match findReg off with
  | some d => d.resetAt off
  | none => 0#32

end Sys2Proof.Machine
end

