-- ==== Sys2Proof/Machine/Tab.lean ====
section
/-! DEFINITION. Sparse tables: a list of (key, value) pairs in one canonical form (keys strictly rising, no entry equal
to the default). Registers, memory, contexts, slots and the other arrays of the device are tables. -/

namespace Sys2Proof.Machine

/-- A sparse table over Nat keys. A key that is not listed holds the table's default. -/
abbrev Tab (α : Type) := List (Nat × α)

/-- The value at key `k`; the default `d k` where `k` is not listed. -/
def Tab.get {α : Type} (d : Nat → α) : Tab α → Nat → α
  | [], k => d k
  | (j, v) :: t, k => if k = j then v else Tab.get d t k

/-- The table without key `k`. -/
def Tab.drop {α : Type} (k : Nat) : Tab α → Tab α
  | [] => []
  | (j, v) :: t => if k = j then Tab.drop k t else (j, v) :: Tab.drop k t

/-- The table with `k` listed as `v`, at its place in rising order. -/
def Tab.put {α : Type} (k : Nat) (v : α) : Tab α → Tab α
  | [] => [(k, v)]
  | (j, w) :: t =>
    if k < j then (k, v) :: (j, w) :: t
    else if k = j then (k, v) :: t
    else (j, w) :: Tab.put k v t

/-- The table with key `k` holding `v`: listed unless `v` is the default, so that equal tables are equal lists. -/
def Tab.set {α : Type} [DecidableEq α] (d : Nat → α) (t : Tab α) (k : Nat) (v : α) : Tab α :=
  if v = d k then Tab.drop k t else Tab.put k v t

/-- Every key of the table is above `k`. -/
def Tab.above {α : Type} (k : Nat) : Tab α → Bool
  | [] => true
  | (j, _) :: t => decide (k < j) && Tab.above k t

/-- The canonical form: keys strictly rising, no entry equal to the default. -/
def Tab.wf {α : Type} [DecidableEq α] (d : Nat → α) : Tab α → Bool
  | [] => true
  | (j, v) :: t => decide (v ≠ d j) && Tab.above j t && Tab.wf d t

/-- The first listed key whose value passes `p`. -/
def Tab.findKey {α : Type} (p : Nat → α → Bool) : Tab α → Option Nat
  | [] => none
  | (j, v) :: t => if p j v then some j else Tab.findKey p t

/-- The values listed, each passed through `f`. -/
def Tab.mapVals {α : Type} [DecidableEq α] (d : Nat → α) (f : Nat → α → α) (t : Tab α) : Tab α :=
  t.foldl (fun acc e => Tab.set d acc e.1 (f e.1 e.2)) t

end Sys2Proof.Machine
end

