-- ==== Sys2Proof/Machine/State.lean ====
section
/-! DEFINITION. The state of the block: registers, banks, and every sequencer and engine the manual gives the device, as
plain data; the queue of waiting commands; the reasons a step can stop; the state after reset. Stamps are counted in fine
units (6000 to a tick, R7). -/

namespace Sys2Proof.Machine

/-- Memory: the bytes that are not zero, by byte address, addresses rising. -/
abbrev Memory := List Host.Cell

/-- What an unlisted byte reads as: zero, because every bank is cleared at start-up and wake (R330, R367). -/
def Memory.blank (_ : Nat) : Byte := 0#8

/-- The canonical form of memory: addresses strictly rising, no entry equal to an unlisted byte. -/
abbrev Memory.wf (m : Memory) : Bool := Tab.wf Memory.blank m

/-- The Caravan counter (R22, R23, R25, R40, R381). `now` is the present stamp; the present XO32 period began at `edge`
and advances the counter by `adv`; `frac` is what self-trim has left over, in 10^-6 fine units; `slew` is what the line
loop still has to remove, over `slewLeft` edges; `hold` is how far the counter must stand still (R382); `sampled` is the tick of the last temperature
sample; `absent`: XO32 has been found absent, so that the counter runs on a substitute clock and its tick boundaries stand
for edges (Table 2-7); `selfEdges` counts the edges over which self-trim has counted CK_RADIO cycles (R39). -/
structure TimeBase where
  now      : Nat
  edge     : Nat
  adv      : Nat
  frac     : Int
  slew     : Int
  slewLeft : Nat
  hold     : Nat
  logSum   : Nat
  logSq    : Nat
  sampled  : Nat
  absent   : Bool
  selfEdges : Nat
deriving DecidableEq, Repr

/-- A captured stamp with its quality bits (R25). -/
structure Cap where
  stamp   : Nat
  qual    : Bool
  trimmed : Bool
  sub     : Bool
deriving DecidableEq, Repr

/-- No captured stamp. -/
def Cap.zero : Cap := ⟨0, false, false, false⟩

/-- A launcher as it was last armed (R29): stamp, action, argument, repeat, policy, the context whose instruction armed
it, the radio operation it starts, whether its stamp had passed when the arming took effect, and a late occurrence (its
stamp) that waits to become ready (R34). -/
structure Lnch where
  armed  : Bool
  stamp  : Nat
  action : Nat
  arg    : Nat
  rep    : Nat
  pol    : Nat
  owner  : Option (Fin 64)
  op     : Option Nat
  late   : Bool
  wait   : Option Nat
deriving DecidableEq, Repr

/-- A disarmed launcher. -/
def Lnch.off : Lnch := ⟨false, 0, 0, 0, 0, 0, none, none, false, none⟩

/-- An age ticket (R270): a stamp, the fixed order of its source, and a detection's chain and first bin. -/
structure Ticket where
  stamp : Nat
  src   : Nat
  sub   : Nat
deriving DecidableEq, Repr

/-- What a parked context waits for (`SEQ_CTX_STAT.WAIT`, Table 13-12). -/
inductive Wait where
  | time | radio | event | engine | memory | semaphore | well
deriving DecidableEq, Repr

/-- The states of a context (R268); a context is in flight only inside the step of its instruction. -/
inductive CtxSt where
  | free
  | ready
  | parked (w : Wait)
deriving DecidableEq, Repr

/-- What a parked context's instruction still has to do when its condition comes. -/
inductive Susp where
  | none
  | twait (t : Nat)
  | tat (n : Fin 32)
  | lock (n : Nat)
  | budg (d : Nat)
  | radio (op : Nat)
  | engine (op : Nat)
  | retry
  | waite (mask : Nat) (d b : Nat) (timeout : Option Nat)
  | cas (d : Nat)
  | trap (cause : Nat)
deriving DecidableEq, Repr

/-- A posted store (R279): address, bytes, and a parity error on its way (R346). -/
structure PStore where
  addr   : Nat
  bytes  : List Byte
  parity : ParityHit
deriving DecidableEq, Repr

/-- One Easel context (Table 13-1, R268, R294, R297). `g` never lists key 0: g0 reads zero. `badEntry` is the cause with
which its first instruction traps (R272), 0 for none; `svc` the primer service sketch it runs; `posted` its posted stores;
`out` its operations with W = 0; `since` the stamp of its present request to issue (R271). -/
structure Ctx where
  st       : CtxSt
  susp     : Susp
  g        : Tab Word
  p        : BitVec 22
  z        : Bool
  n        : Bool
  c        : Bool
  v        : Bool
  t        : Tab (BitVec 64)
  h        : Half
  port     : Option (Fin 4)
  slot     : Nat
  prio     : Nat
  ticket   : Ticket
  promoted : Bool
  badEntry : Nat
  svc      : Option Nat
  posted   : List PStore
  user     : Nat
  ring     : Bool
  eng      : List Word
  notices  : List Word
  out      : Nat
  since    : Nat
deriving DecidableEq, Repr

/-- A free context; its registers hold zero. -/
def Ctx.empty : Ctx :=
  ⟨.free, .none, [], 0#22, false, false, false, false, [], 0#16, none, 0, 0, ⟨0, 0, 0⟩, false, 0, none, [], 0, false,
    [], [], 0, 0⟩

/-- A semaphore (R285): its owner (0–63 context, 0x40 + n host port n) and the contexts that wait. -/
structure Sem where
  owner : Option Nat
  wait  : List (Fin 64)
deriving DecidableEq, Repr

/-- A free semaphore. -/
def Sem.free : Sem := ⟨none, []⟩

/-- The states of a handle slot (R245). -/
inductive SlotSt where
  | free | queued | running (k : Fin 64) | done
deriving DecidableEq, Repr

/-- A handle slot (R245–R254): state, generation, descriptor, arguments, ticket, promotion, status, result data and the
order in which it was freed. -/
structure Slot where
  st       : SlotSt
  gen      : Nat
  sketch   : Nat
  prio     : Nat
  nores    : Bool
  noev     : Bool
  order    : Bool
  args     : List Word
  ticket   : Ticket
  promoted : Bool
  status   : Nat
  data     : List Byte
  freed    : Nat
deriving DecidableEq, Repr

/-- A slot that has never been used (R246). -/
def Slot.fresh : Slot := ⟨.free, 0, 0, 0, false, false, false, [], ⟨0, 0, 0⟩, false, 0, [], 0⟩

/-- A host port's internal state: the events lost since the last LOST record (R258), the words the device drove in the
last read frame, cascade mode in force (R239), whether the frame that is open woke the device (R238), and the stamps at which
the commits of its last two write-type frames end, which free their write buffers (R234). -/
structure Port where
  lost  : Nat
  reply : List Word
  casc  : Bool
  woke  : Bool
  bufs  : List Nat
deriving DecidableEq, Repr

/-- A port after reset. -/
def Port.zero : Port := ⟨0, [], false, false, []⟩

/-- A tune waiting for a synthesiser (R56): its word (0: power off), its channel for CHZ_WINn, the force option, the radio
operation it serves, and its ticket. -/
structure Tune where
  word   : Nat
  freq   : Option Nat
  force  : Bool
  op     : Option Nat
  ticket : Ticket
deriving DecidableEq, Repr

/-- What a synthesiser is doing: off, settling (a tune, or a calibration after an unlock or a request), or locked. -/
inductive SyPhase where
  | off | idle | settling | locked
deriving DecidableEq, Repr

/-- A synthesiser (R51–R60): phase, the tune in progress, its case (Table 3-5) and whether the second timeout runs (R55),
waiting tunes, word in use, word and temperature of the last calibration, the seed and the running dither register, the stamp
of its last lock, whether a requested calibration waits (SYT, R68), the stamp from which the lock timeout counts (R55), and
whether a tune or an unlock of SYA writes gap markers in both chains (R48, R76). -/
structure Synth where
  phase   : SyPhase
  cur     : Option Tune
  kase    : Nat
  second  : Bool
  queue   : List Tune
  word    : Nat
  calWord : Option Nat
  calTemp : Int
  seed    : Nat
  lfsr    : Nat
  lockAt  : Nat
  calWait : Bool
  since   : Nat
  wide    : Bool
deriving DecidableEq, Repr

/-- A block of the energy store (R78): its start and end stamps, summed power per bin (keyed by bin + 56), samples so far,
and whether a sample was a gap marker or PA_EN was high. -/
structure Block where
  start : Nat
  stop  : Nat
  pow   : Tab Nat
  n     : Nat
  gap   : Bool
  self  : Bool
deriving DecidableEq, Repr

/-- An empty block. -/
def Block.zero : Block := ⟨0, 0, [], 0, false, false⟩

/-- One chain's Palette (R73–R78): when it last started, its last gap marker, whether its next sample is the start marker,
whether the last ADC sample was clipped, samples written to the Erg, the samples of each bin's bank word in progress (key:
bin + 56, R345), completed blocks (newest first, at most 128), the
block in progress, the bin mask words of the 25 groups that differ from 0xFFFF, and the position at which it stopped writing. -/
structure Palette where
  start   : Nat
  gapAt   : Nat
  marker  : Bool
  clip    : Bool
  written : Nat
  part    : Tab (List Byte)
  blocks  : List Block
  cur     : Block
  mask    : Tab Nat
  stopPos : Nat
deriving DecidableEq, Repr

/-- A Palette after reset. -/
def Palette.zero : Palette := ⟨0, 0, false, false, 0, [], [], .zero, [], 0⟩

/-- An entry of the pending list, or a recovery entry (R85, R110): the chains that mark it, its channel's number, first
bin and width, detection stamp (its age ticket), preamble start, the age of its rewind point in samples written when it was
posted, the samples each chain had written then (R74), the rewind point's position, its strength, sync set and sync-end stamp, the entry its collision
mark names, class, partner index, promotion, whether no round has passed since it was posted, its lane, the residual
buffer it is read from, and the stamp of the frame end once a lane has decoded the length (R84). -/
structure Entry where
  chA      : Bool
  chB      : Bool
  chan     : Nat
  bin      : Nat
  width    : Nat
  det      : Nat
  start    : Nat
  age0     : Nat
  wr       : Nat
  wrB      : Nat
  rpos     : Nat
  strength : Nat
  sync     : Option (Nat × Nat)
  coll     : Option Nat
  cls      : Nat
  pidx     : Nat
  promoted : Bool
  fresh    : Bool
  lane     : Option Nat
  slot     : Option Nat
  endAt    : Option Nat
deriving DecidableEq, Repr

/-- A lane that holds an entry (R95): the entry, the chain read, whether it is behind the live stream, the other chain's
preamble power once stage 3 has picked this one (0xFF when there was nothing to pick), whether it has changed chain since
(R97), and the PHY header once decoded. -/
structure Lane where
  entry  : Nat
  chain  : Chain
  behind : Bool
  picked : Option Nat
  switch : Bool
  hdr    : Option Nat
deriving DecidableEq, Repr

/-- A frame record before it has a place in the ring (Table 5-3); `link` names the stronger frame (R111). -/
structure Rec where
  stamp  : Nat
  pidx   : Nat
  status : Nat
  flags  : Nat
  path   : Nat
  lane   : Nat
  binw   : Nat
  rssi   : Nat
  alt    : Nat
  fofs   : Nat
  phy    : Nat
  snr    : Nat
  berr   : Nat
  link   : Nat
  data   : List Byte
deriving DecidableEq, Repr

/-- An entry W that has ended otherwise than with OK while a later entry S names it (R106, R107): both numbers, W, whether
the held store keeps its record, and the record. -/
structure Held where
  weak   : Nat
  strong : Nat
  entry  : Entry
  keep   : Bool
  record : Rec
deriving DecidableEq, Repr

/-- A recovery request or slot (R107–R111): S's chain, channel and first bin and width, the start point, the end of S,
S's sequence number, W's entry (none for a scan), W's fallback record, S's ticket, whether the slot has handed its residual
on, the position at which it stopped appending live samples, and the age of the start point at the request with the samples
the chain had written then (R74). -/
structure Recov where
  chain    : Chain
  chan     : Nat
  bin      : Nat
  width    : Nat
  start    : Nat
  stop     : Nat
  seqno    : Nat
  weak     : Option Entry
  fallback : Option Rec
  ticket   : Ticket
  copied   : Bool
  lim      : Option Nat
  age0     : Nat
  wr       : Nat
deriving DecidableEq, Repr

/-- A receive window (R291): partner, chain, channel span in bins of the chain, open interval, POWER, and whether open. -/
structure RxWin where
  pidx  : Nat
  chain : Chain
  freq  : Nat
  width : Nat
  start : Nat
  stop  : Nat
  power : Bool
  isOpen : Bool
deriving DecidableEq, Repr

/-- The kinds of radio operation (Table 14-3), the automatic acknowledgement (R130) and a beacon (R166). -/
inductive OpKind where
  | tune | txf | lbt | calltx | ackw | gack | beacon | ack | rxwin
deriving DecidableEq, Repr

/-- Where a radio operation stands: waiting for a claim before power-up, for lock, for its release point, for a covered
interval, for the PA grant on time or late, on the air, for PA_EN to fall and for the switches to return (Table 3-7 steps 7
and 8), between call copies, or for an acknowledgement. -/
inductive OpPhase where
  | claim | lock | release | cover | backoff | grant | lateGrant | onAir | fall | swap | gap | ackWait | ackDecode | window
deriving DecidableEq, Repr

/-- A radio operation: its kind, context and registers, phase, chain, channel (centre in 6.25 kHz units, width in bins), rate,
modulation, sync set, preamble, options, level, policy, launcher, launch instant, lateness, tries, bytes to send, sequence
number awaited, partner, key, airtime units, copies left, when it started to listen, whether sealed, a TUNE's FORCE, the
bytes put into the buffer's content at step 3 of Table 6-2 (R114), the account and level registers as they stood when it
began (R61, R129), and the stamps at which PA_EN falls and the switches return (Table 3-7 steps 7 and 8). `aborted`: its
outcome has been reported, and only those steps are left. -/
structure RadioOp where
  kind   : OpKind
  ctx    : Option (Fin 64)
  d      : Nat
  ts     : Nat
  phase  : OpPhase
  at_    : Bool
  chain  : Nat
  freq   : Nat
  width  : Nat
  rate   : Nat
  mod4   : Bool
  sset   : Nat
  pre    : Nat
  fec    : Bool
  white  : Bool
  lbt    : Bool
  doSeal : Bool
  sealed : Bool
  level  : Nat
  pol    : Nat
  lnch   : Option (Fin 32)
  t      : Nat
  endAt  : Nat
  late   : Bool
  tries  : Nat
  listen : Nat
  origin : Nat
  worst  : Nat
  frame  : List Byte
  buf    : Nat
  len    : Nat
  seq    : Nat
  wantAck : Bool
  pidx   : Nat
  key    : Nat
  ant    : Nat
  air    : Nat
  units  : Nat
  copies : Nat
  kase   : Nat
  aborted : Bool
  force  : Bool
  prio   : Nat
  ticket : Ticket
  ins    : List (Nat × List Byte)
  cfg    : Tab Word
  fallAt : Nat
  backAt : Nat
deriving DecidableEq, Repr

/-- What the transmit path has put on the air (R61, R114, R136, R196): SYT's word and dither register (none: no dither), the
antenna and the clamped level, the launch instant, the symbols' deviations in 0.125 Hz, and a wake call's chips. -/
structure Emission where
  word   : Nat
  dither : Option Nat
  ant    : Nat
  level  : Nat
  start  : Nat
  dev    : List Int
  chips  : List Bool
deriving DecidableEq, Repr

/-- A bucket of a sand-glass account (R128): the tick at which it expires and its charge. -/
structure Bucket where
  tick  : Nat
  units : Nat
deriving DecidableEq, Repr

/-- A key slot (R149, R151): state 0 empty, 1 loaded, 2 bad. -/
structure Key where
  st   : Nat
  pair : Bool
  ctr  : Nat
  key  : List Byte
deriving DecidableEq, Repr

/-- An empty key slot. -/
def Key.empty : Key := ⟨0, false, 0, []⟩

/-- An AES engine (R155): the operation it works on, and the stamp at which its last one ended. Its claim is in the Well. -/
structure Aes where
  busy : Option Nat
  last : Nat
deriving DecidableEq, Repr

/-- An idle AES engine. -/
def Aes.idle : Aes := ⟨none, 0⟩

/-- The engine operations that queue (R294–R296, R208, R213): a copy on a DMA channel, a seal (frame address and length,
partner, key, destination), the sealing of a transmission, an open (record, destination, partner), a check (engine, address,
length, INIT loaded first, final check wanted), the opening of a beacon heard by the member role (LEN, FCS length, sync-end
stamp, rate, channel centre, and whether a lane decoded it from history), an absorption (plaintext address and length, partner, security level; its
reassembly record once its CRC run waits or runs), the building of a fragment (message address, length, FSZ, TID, REQ and RSP,
index, buffer), and the status word of a FRAG, ABSORB or FIND that has only to end. -/
inductive EngKind where
  | copy (ch : Nat)
  | seal (buf len pidx key dst : Nat)
  | txSeal (op : Nat)
  | opn (record dst pidx : Nat)
  | chk (e addr len : Nat) (load final : Bool)
  | beacon (len fcs t rate freq : Nat) (hist : Bool)
  | absorb (addr len pidx level : Nat) (record : Option Nat)
  | frag (msg len fsz tid rr k dst : Nat)
  | report (word : Nat)
deriving DecidableEq, Repr

/-- An engine operation in progress or queued: kind, context, destination register, whether the context waits (W), tag,
whether it has been started, priority, ticket, and what it has found so far: status, reason (Table 7-8), bytes; for an AES
engine also the frame it has staged, the key slot it has fetched, the frame counter it has consumed, and the stamp of the
record it opens (R151–R158). -/
structure EngOp where
  kind    : EngKind
  ctx     : Option (Fin 64)
  d       : Nat
  wait    : Bool
  tag     : Nat
  started : Bool
  prio    : Nat
  ticket  : Ticket
  status  : Nat
  reason  : Nat
  out     : List Byte
  staged  : List Byte
  key     : Option (Nat × Key)
  ctr     : Nat
  heard   : Nat
deriving DecidableEq, Repr

/-- An engine operation as it is queued. -/
def EngOp.new (kind : EngKind) (ctx : Option (Fin 64)) (d : Nat) (wait : Bool) (tag prio : Nat) (ticket : Ticket) : EngOp :=
  ⟨kind, ctx, d, wait, tag, false, prio, ticket, 0, 0, [], [], none, 0, 0⟩

/-- An announcement of a sleep gap (R186): the value written, the extra announcing beacons, and the superframe number of the
first announcing beacon once it has been built. -/
structure Ann where
  n     : Nat
  arep  : Nat
  first : Option Nat
deriving DecidableEq, Repr

/-- The MAC timing engine (R162–R190). Coordinator: SF0 once GACK has armed, the beacon's sequence number, the queued
assignment entries (address, cell word), the partners heard and opened in their cells (partner, superframe), where the next
group acknowledgement starts, the announcement, the next assigned slot to end (32 × superframe + slot), the tick of the next
lease scan. Member: the sync-end stamp of the last accepted beacon, its superframe start (R172), the intervals from it to
the beacon expected next, when a scan ends, whether it has sent in its cell since (R176). -/
structure Mac where
  sf0     : Option Nat
  num     : Nat
  queue   : List (Nat × Nat)
  heard   : List (Nat × Nat)
  opened  : List (Nat × Nat)
  base    : Nat
  ann     : Option Ann
  done    : Nat
  leaseAt : Nat
  lastAcc : Option Nat
  start   : Nat
  nextN   : Nat
  scanEnd : Option Nat
  sent    : Bool
deriving DecidableEq, Repr

/-- The MAC timing engine after reset. -/
def Mac.zero : Mac := ⟨none, 0, [], [], [], 0, none, 0, 1966080, none, 0, 1, none, false⟩

/-- The wake receiver (R194, R199): the tick at which a calibration in progress began, the tick at which the last one
began, the last accepted call (word, class, target, end tick), the tick before which its input does not count (R201), and the
tick at which the last call whose word matched was judged (R198). -/
structure Wkr where
  cal   : Option Nat
  ref   : Nat
  last  : Option (Nat × Nat × Nat × Nat)
  blind : Nat
  judged : Nat
deriving DecidableEq, Repr

/-- A DMA channel (R298): running, its source (or fill byte), destination, length, fill, and the COPY it serves. -/
structure Dma where
  busy : Bool
  src  : Nat
  dst  : Nat
  len  : Nat
  fill : Bool
  op   : Option Nat
deriving DecidableEq, Repr

/-- An idle DMA channel. -/
def Dma.idle : Dma := ⟨false, 0, 0, 0, false, none⟩

/-- A check engine's running operation, by its number; none when idle (R219). -/
structure Chk where
  op : Option Nat
deriving DecidableEq, Repr

/-- A multiplier (R305–R312): its state as CLK_STAT codes it (0 off, 1 waiting, 2 in a lock sequence, 5 locked, 6 failed;
the steps 2 to 4 of a sequence follow from the time), N in use, the start stamp and the SETTLE of the present sequence, and
the stamp at which the output was muted, and the band and count that the search of the sequence in progress gives (free values
until a declared lock gives them). -/
structure MultSt where
  st     : Nat
  n      : Nat
  start  : Nat
  settle : Nat
  stop   : Option Nat
  res    : Nat × Nat
deriving DecidableEq, Repr

/-- The power states (R319), with the states between: held in reset, starting after reset or Off (Table 18-6), entering a
sleeping state (Table 16-3), waking (Table 16-5). -/
inductive PwrSt where
  | inReset | starting | run | idle | sleep | deep | off | waking
deriving DecidableEq, Repr

/-- Power control (R319–R330): the state, the pending request (1 Sleep, 2 Deep sleep, 3 Off) and its stamp, the stamp of the
last wake event, reset release or soft reset, the stamp at which TCXO_EN rose, whether the CK_CORE domain runs, whether CK_RADIO is no
longer waited for, whether the primer start-up has ended, and the sketches that a wake queues when the core runs. -/
structure Power where
  st      : PwrSt
  req     : Nat
  reqAt   : Nat
  wakeAt  : Nat
  tcxoAt  : Nat
  core    : Bool
  noRadio : Bool
  primed  : Bool
  boot    : List (Nat × List Word)
deriving DecidableEq, Repr

/-- Who holds or asks for a Well claim (Table 16-7). -/
inductive Holder where
  | chain (c : Chain) | chzr (c : Chain) | erg | group (g : Nat) | aes (e : Nat) | txBase | pa (op : Nat) | budg (k : Fin 64)
deriving DecidableEq, Repr

/-- A Well claim: holder, amount in 0.5 mA, priority, ticket, the stamp at which it was placed, promoted (R332, R335). -/
structure Claim where
  who      : Holder
  amt      : Nat
  prio     : Nat
  ticket   : Ticket
  since    : Nat
  promoted : Bool
deriving DecidableEq, Repr

/-- The Well (R332–R338): claims granted and waiting (the standing claims are not listed), and rewritten entries of the PA
claim table. -/
structure Well where
  granted : List Claim
  queue   : List Claim
  tab     : Tab Nat
deriving DecidableEq, Repr

/-- The Brush (R352–R356): the region in progress, the stamp at which the last region fell due, spares in use and bad (key:
8 × bank code + spare), regions mapped (8 × bank code + spare + 1; 0: not mapped). -/
structure Brush where
  busy : Option Nat
  at_  : Nat
  used : List Nat
  bad  : List Nat
  map  : Tab Nat
deriving DecidableEq, Repr

/-- The output balls the manual names (R49, R302, Table 16-6), PA_CTL by the stamp at which its ramp up starts (none: 0 V); the
GP balls: levels driven from outside, levels and whether the device drives them, the stamp at which a running pulse ends plus 1
(0: none), the stamp of the last master write to the pin word plus 1 (0: none, R374); on CVN the tick of the last sync pulse or
marker sent, the last time code (R379, R380), and the level at which Sleep holds the ball (none: not driven, Table 16-6). -/
structure Pins where
  paEn   : Bool
  txrx   : Bool
  ant0   : Bool
  ant1   : Bool
  lnaByp : Bool
  tcxoEn : Bool
  paCtl  : Option Nat
  gpIn   : Tab Bool
  gpOut  : Tab Bool
  gpDrv  : Tab Bool
  pulses : Tab Nat
  wrote  : Tab Nat
  cvn    : Nat
  code   : Nat
  cvnKept : Option Bool
deriving DecidableEq, Repr

/-- The CVN line of a worker (R381): the local stamps of the last edge and the last marker, edges in a row out of and
within the window, mismatched codes in a row, whether the time has been set since acquiring began, and the last line error; on
the root whether the line code goes on after a soft reset (R386). -/
structure Line where
  last   : Nat
  marker : Option Nat
  miss   : Nat
  good   : Nat
  bad    : Nat
  timed  : Bool
  err    : Int
  goesOn : Bool
deriving DecidableEq, Repr

/-- What a cascade port runs or has queued (R384, R385): a frame run (worker, the words sent, the number to read, image address) or a
forward (its context, register, worker, submit words, whether it was resent), and its ticket. -/
inductive Casc where
  | run (worker : Nat) (out : List Word) (nin buf : Nat) (ticket : Ticket)
  | fwd (k : Fin 64) (d : Nat) (worker : Nat) (words : List Word) (again : Bool) (ticket : Ticket)
deriving DecidableEq, Repr

/-- The state of the block. -/
structure State where
  regs    : Tab Word
  mem     : Memory
  marks   : Tab Mark
  scrub   : List Nat
  time    : TimeBase
  caps    : Tab Cap
  lnch    : Tab Lnch
  ctx     : Tab Ctx
  sems    : Tab Sem
  slots   : Tab Slot
  ports   : Tab Port
  sya     : Synth
  syb     : Synth
  syt     : Synth
  tempConv : Bool
  pos     : Nat
  palA    : Palette
  palB    : Palette
  ents    : Tab (Option Entry)
  lanes   : Tab (Option Lane)
  held    : List Held
  reqs    : List Recov
  rslots  : Tab (Option Recov)
  seqno   : Nat
  wins    : Tab (Option RxWin)
  ops     : Tab (Option RadioOp)
  opNext  : Nat
  sent    : Option Emission
  accts   : Tab (List Bucket)
  keys    : Tab Key
  keyData : Tab Word
  aes     : Tab Aes
  engs    : Tab (Option EngOp)
  engNext : Nat
  mac     : Mac
  wkr     : Wkr
  msgQ    : List Nat
  msgEn   : Bool
  dma     : Tab Dma
  chk     : Tab Chk
  cmc     : MultSt
  cmr     : MultSt
  cmrOpen : Option (Nat × Nat)
  pwr     : Power
  well    : Well
  brush   : Brush
  pins    : Pins
  line    : Line
  casc2   : List Casc
  casc3   : List Casc
  order   : Nat
  free    : Nat
  pending : List Instr
deriving DecidableEq, Repr

/-- The reasons a step can fault. The block itself has none: every error the manual describes is an effect on the state. -/
inductive Fault where
  /-- The supplies are out of range or TEST_EN is high (R1, R375): the manual does not specify the device. No command of
  the opcode table brings this about, so no step raises it. Safe. -/
  | unspecifiedSupply
deriving DecidableEq, Repr

/-- The reasons a step can be refused. -/
inductive Refusal where
  /-- The command has no meaning in the model yet; raised by exec's own arms only. Safe. -/
  | notModelled (mnemonic : String)
deriving DecidableEq, Repr

/-- A synthesiser that is off, with its reset seed (Table 3-9). -/
def Synth.off (seed : Nat) : Synth :=
  ⟨.off, none, 0, false, [], 0x0B485555, none, 0, seed, seed, 0, false, 0, false⟩

/-- The device right after RESET_N has risen (R366, R367): every register at its reset value, every bank zero, the counter
at tick 0, the start-up of Table 18-6 ahead. -/
def State.reset : State where
  regs    := []
  mem     := []
  marks   := []
  scrub   := []
  time    := ⟨0, 0, 6000, 0, 0, 0, 0, 0, 0, 0, false, 0⟩
  caps    := []
  lnch    := []
  ctx     := []
  sems    := []
  slots   := []
  ports   := []
  sya     := .off 0x15A3C1
  syb     := .off 0x6B0E5D
  syt     := .off 0x3CF192
  tempConv := true
  pos     := 0
  palA    := .zero
  palB    := .zero
  ents    := []
  lanes   := []
  held    := []
  reqs    := []
  rslots  := []
  seqno   := 0
  wins    := []
  ops     := []
  opNext  := 0
  sent    := none
  accts   := []
  keys    := []
  keyData := []
  aes     := []
  engs    := []
  engNext := 0
  mac     := .zero
  wkr     := ⟨none, 0, none, 0, 0⟩
  msgQ    := []
  msgEn   := false
  dma     := []
  chk     := []
  cmc     := ⟨0, 6000, 0, 0, none, (0, 0)⟩
  cmr     := ⟨0, 32, 0, 0, none, (0, 0)⟩
  cmrOpen := none
  pwr     := ⟨.starting, 0, 0, 0, 0, false, false, false, []⟩
  well    := ⟨[], [], []⟩
  brush   := ⟨none, 0, [], [], []⟩
  pins    := ⟨false, false, false, false, false, false, none, [], [], [], [], [], 0, 0, none⟩
  line    := ⟨0, none, 0, 0, 0, false, 0, false⟩
  casc2   := []
  casc3   := []
  order   := 0
  free    := 0
  pending := []

end Sys2Proof.Machine
end

