-- ==== Sys2Proof/Machine/Ops.lean ====
section
/-! DEFINITION. The named operations over registers, time, memory, the fault log, the event rings, the Well, contexts and
slots, which every meaning uses. -/

namespace Sys2Proof

/-- Bank codes of Table 17-1. -/
def Bank.code : Bank → Nat
  | .pgm => 0 | .ret => 1 | .ptb => 2 | .frm => 3 | .msg => 4 | .erg => 5

/-- The bank of a code. -/
def Bank.ofCode : Nat → Option Bank
  | 0 => some .pgm | 1 => some .ret | 2 => some .ptb | 3 => some .frm | 4 => some .msg | 5 => some .erg | _ => none

/-- First address of a bank (Table 22-1). -/
def Bank.base : Bank → Nat
  | .pgm => 0 | .ret => 0x40000 | .ptb => 0x80000 | .frm => 0x100000 | .msg => 0x200000 | .erg => 0x400000

/-- Size of a bank in bytes (Table 17-1). -/
def Bank.size : Bank → Nat
  | .pgm => 0x40000 | .ret => 0x10000 | .ptb => 0x40000 | .frm => 0x100000 | .msg => 0x100000 | .erg => 0x400000

/-- The six banks in the order of Table 17-1. -/
def Bank.all : List Bank := [.pgm, .ret, .ptb, .frm, .msg, .erg]

/-- Whether the address lies in the bank. -/
def Bank.holds (b : Bank) (a : Nat) : Bool := decide (b.base ≤ a) && decide (a < b.base + b.size)

end Sys2Proof

namespace Sys2Proof.Machine

/-- Status codes of Table 12-7. -/
def Status.ok : Nat := 0x00
def Status.late : Nat := 0x10
def Status.lockTimeout : Nat := 0x11
def Status.channelBusy : Nat := 0x12
def Status.dutyExhausted : Nat := 0x13
def Status.noAck : Nat := 0x14
def Status.budgetDenied : Nat := 0x15
def Status.radioLost : Nat := 0x16
def Status.lateSent : Nat := 0x17
def Status.securityFail : Nat := 0x20
def Status.replay : Nat := 0x21
def Status.laneStarved : Nat := 0x30
def Status.fcsFail : Nat := 0x31
def Status.headerFail : Nat := 0x32
def Status.parity : Nat := 0x40
def Status.ecc : Nat := 0x41
def Status.beaconLost : Nat := 0x50
def Status.addressReleased : Nat := 0x51
def Status.unmodelled : Nat := 0x52
def Status.badCommand : Nat := 0x60
def Status.aborted : Nat := 0x61
def Status.trap : Nat := 0x62
def Status.queueFull : Nat := 0x63

/-! Registers. -/

/-- The word of the register at `off` (from 0x0300_0000). -/
def State.reg (s : State) (off : Nat) : Word := Tab.get regReset s.regs off

/-- The register at `off` set to `w`. -/
def State.setReg (s : State) (off : Nat) (w : Word) : State := { s with regs := Tab.set regReset s.regs off w }

/-- A field's value. -/
def State.fld (s : State) (f : Fld) : Nat := getBits (s.reg f.off) f.hi f.lo

/-- A field set to `v`. -/
def State.setFld (s : State) (f : Fld) (v : Nat) : State := s.setReg f.off (putBits (s.reg f.off) f.hi f.lo v)

/-- Whether a one-bit field is 1. -/
def State.on (s : State) (f : Fld) : Bool := s.fld f == 1

/-- An 8-bit counter one up, saturating at 255 (R262). -/
def State.incSat (s : State) (f : Fld) : State := s.setFld f (satInc 255 (s.fld f))

/-- A counter one up, modulo its width. -/
def State.incMod (s : State) (f : Fld) : State := s.setFld f (s.fld f + 1)

/-- A W1C flag set, and its occurrence counter (R262). -/
def State.raise (s : State) (flag cnt : Fld) : State := (s.setFld flag 1).incSat cnt

/-! Time. -/

/-- The device is in Sleep, Deep sleep or Off: the counter runs on XO32 alone (R24). -/
def State.asleep (s : State) : Bool := s.pwr.st == .sleep || s.pwr.st == .deep || s.pwr.st == .off

/-- The device is awake with the CK_CORE domain running: host frames, commands and instructions are served. -/
def State.awake (s : State) : Bool := s.pwr.core

/-- The present stamp; its fine count is 0 in a sleeping state (R24). -/
def State.stamp (s : State) : Nat := if s.asleep then s.time.now / 6000 * 6000 else s.time.now

/-- The present tick count. -/
def State.tick (s : State) : Nat := s.time.now / 6000

/-- The last stamp of the present XO32 period (R23), less what the counter must stand still (R382). -/
def TimeBase.limit (t : TimeBase) : Nat := t.edge + t.adv - 1 - t.hold

/-- The counter moved, within the present period, to the instant at which a command falls: some stamp from `now` to the
last of the period (R23), drawn free; no movement in a sleeping state (R24). -/
def State.touch (s : State) : State :=
  if s.asleep || s.time.limit ≤ s.time.now then s
  else { s with
    time := { s.time with now := max s.time.now (min s.time.limit (Config.instant s.free)) }
    free := s.free + 1 }

/-- The counter moved on to `t`, when `t` lies ahead within the present period. -/
def State.moveTo (s : State) (t : Nat) : State :=
  { s with time := { s.time with now := max s.time.now (min s.time.limit t) } }

/-- The counter reaches `t` within the present XO32 period, or has reached it. -/
def State.reach (s : State) (t : Nat) : Bool :=
  decide (t ≤ max s.time.now s.time.limit)

/-- The multiple of 2^`b` ticks that the counter reaches now: within the present XO32 period, or in a sleeping state with
the last edge (R24). -/
def State.multipleNow (s : State) (b : Nat) : Option Nat :=
  if s.asleep then
    let k := s.tick / 2 ^ b * 2 ^ b
    if s.time.now < 6000 * k + s.time.adv then some k else none
  else
    let k := ceilDiv s.stamp (6000 * 2 ^ b) * 2 ^ b
    if s.reach (6000 * k) then some k else none

/-- A stamp as R8 writes it: ticks in [63:16], fine count in [12:0]. -/
def stampWord (t : Nat) : Nat := (t / 6000 % 2 ^ 48) * 2 ^ 16 + t % 6000

/-- The stamp that a 64-bit word holds. -/
def wordStamp (w : Nat) : Nat := w / 2 ^ 16 * 6000 + w % 2 ^ 13

/-- A well-formed stamp word (R288). -/
def wordStampOk (w : Nat) : Bool := w % 2 ^ 16 < 6000

/-- Microseconds in fine units, rounded up (a tick is 30.517578125 µs). -/
def usFine (us : Nat) : Nat := ceilDiv (us * 24576) 125

/-- Milliseconds in fine units. -/
def msFine (ms : Nat) : Nat := usFine (1000 * ms)

/-- CVN_FINE.QUAL: the fine count is interpolated from CK_RADIO (R37). -/
def State.qual (s : State) : Bool := s.cmr.st == 5 && !s.asleep

/-- The CK_CORE domain runs on FBO (Table 15-3). -/
def State.onFbo (s : State) : Bool := s.awake && s.cmc.st != 5

/-- The number of an FBO period, 62.5 ns (12.288 fine units), that holds a stamp. -/
def fboCycle (t : Nat) : Nat := t * 1000 / 12288

/-- The cycle of the CK_CORE domain that holds a stamp (R411): one fine unit is one CK_CORE period. -/
def State.coreCycle (s : State) (t : Nat) : Nat := if s.onFbo then fboCycle t else t

/-- The cycle of the CK_RADIO control domain that holds a stamp (R411): one XO32 period holds 4687.5 CK_RADIO periods (R22);
in a sleeping state the XO32 edges are the cycles. -/
def State.radioCycle (s : State) (t : Nat) : Nat :=
  if s.asleep then t / 6000 else if s.cmr.st = 5 then t * 25 / 32 else fboCycle t

/-- The line loop owns the rate trim: a worker with the line enabled (R381). -/
def State.lineOwns (s : State) : Bool := s.on CVN_LINE_CFG.EN && decide (2 ≤ s.fld CAS_ROLE.ROLE)

/-- The present stamp with its quality bits, as CVN_NOW_LO captures it (R25, Table 2-2). -/
def State.cap (s : State) : Cap :=
  ⟨s.stamp, s.qual, s.on CVN_CFG.SELF_EN && !s.lineOwns, s.time.absent⟩

/-- A free value drawn: the state with the draw counter advanced. -/
def State.draw (s : State) : State := { s with free := s.free + 1 }

/-- A uniform draw among 0 … n − 1 of the random generator (R122). -/
def State.random (s : State) (n : Nat) : Nat := Config.random s.free % n

/-- A ticket taken now by source `src` (R270). -/
def State.ticketNow (s : State) (src : Nat) : Ticket := ⟨s.stamp, src, 0⟩

/-- Ticket order: older stamp, then the fixed order of sources (R270). -/
def Ticket.le (a b : Ticket) : Bool :=
  if a.stamp ≠ b.stamp then decide (a.stamp < b.stamp)
  else if a.src ≠ b.src then decide (a.src < b.src)
  else decide (a.sub ≤ b.sub)

/-- The element of a list that ranks first under `before`, the earlier one where neither ranks before the other. -/
def pickBest {α : Type} (before : α → α → Bool) : List α → Option α
  | [] => none
  | x :: xs =>
    match pickBest before xs with
    | none => some x
    | some y => if before y x && !before x y then some y else some x

/-! Memory (R340–R351, R404). -/

/-- The bank that holds an address (R404). -/
def bankOf (a : Nat) : Option Bank := Bank.all.find? (fun b => b.holds a)

/-- Whether an address lies in the primer ROM (R404). -/
def inRom (a : Nat) : Bool := decide (0xF00000 ≤ a) && decide (a < 0xF02000)

/-- The end of the memory region that holds an address (R278, R404). -/
def regionEnd (a : Nat) : Option Nat :=
  match bankOf a with
  | some b => some (b.base + b.size)
  | none => if inRom a then some 0xF02000 else none

/-- `n` bytes from `a` lie within one memory region (R278). -/
def spanOk (a n : Nat) : Bool :=
  match regionEnd a with
  | some e => decide (a + n ≤ e)
  | none => false

/-- `n` bytes from `a` lie within one region and are not in the primer ROM. -/
def spanWritable (a n : Nat) : Bool := spanOk a n && !inRom a

/-- The byte held at an address, whatever its check bits say. -/
def State.byte (s : State) (a : Nat) : Byte :=
  if inRom a then Config.romByte (a - 0xF00000) else Tab.get Memory.blank s.mem a

/-- `n` bytes held from `a`. -/
def State.bytes (s : State) (a n : Nat) : List Byte := (List.range n).map (fun i => s.byte (a + i))

/-- The little-endian number held in `n` bytes from `a` (R5). -/
def State.num (s : State) (a n : Nat) : Nat := leNat (s.bytes a n)

/-- One byte put into a bank. -/
def State.putByte (s : State) (a : Nat) (b : Byte) : State := { s with mem := Tab.set Memory.blank s.mem a b }

/-- Bytes put into a bank from `a` upward, check bits untouched. -/
def State.putBytes (s : State) (a : Nat) : List Byte → State
  | [] => s
  | b :: bs => (s.putByte a b).putBytes (a + 1) bs

/-- The mark of the bank word `w` (address ÷ 8). -/
def State.mark (s : State) (w : Nat) : Mark := Tab.get (fun _ => Mark.good) s.marks w

/-- The bank word's mark set. -/
def State.setMark (s : State) (w : Nat) (m : Mark) : State :=
  { s with marks := Tab.set (fun _ => Mark.good) s.marks w m, scrub := s.scrub.filter (· != w) }

/-- The mark a full write leaves in a bank: good, or what error injection arms (R343, R351). -/
def State.fullMark (s : State) (b : Bank) : Mark :=
  if s.fld MEM_BANK_CFG.INJ ≠ 0 ∧ s.fld MEM_BANK_CFG.SEL = b.code then
    (if s.fld MEM_BANK_CFG.INJ = 1 then .single else .bad) else .good

/-- INJ returns to 0b00 once a full write of bank SEL has used it (R351). -/
def State.useInj (s : State) (b : Bank) : State :=
  if s.fld MEM_BANK_CFG.SEL = b.code then s.setFld MEM_BANK_CFG.INJ 0 else s

/-- First region index of a bank (R352). -/
def region0 : Bank → Nat
  | .pgm => 0 | .ret => 4096 | .ptb => 5120 | .frm => 9216 | .msg => 25600 | .erg => 41984

/-- The bank of a region index. -/
def regionBank (r : Nat) : Bank :=
  if r < 4096 then .pgm else if r < 5120 then .ret else if r < 9216 then .ptb else if r < 25600 then .frm
  else if r < 41984 then .msg else .erg

/-- The byte address of a region. -/
def regionAddr (r : Nat) : Nat := (regionBank r).base + 64 * (r - region0 (regionBank r))

/-- Bank word `w` lies in the region that the Brush holds in its save buffer (R354). -/
def State.inBuffer (s : State) (w : Nat) : Bool :=
  match s.brush.busy with
  | some r => decide (regionAddr r / 8 ≤ w) && decide (w < regionAddr r / 8 + 8)
  | none => false

/-- The check bits of bank word `w` after a full write. One to the region under test changes the save buffer only (R354), so
it uses no INJ. -/
def State.markFull (s : State) (w : Nat) : State :=
  match bankOf (8 * w) with
  | some b => if s.inBuffer w then s.setMark w .good else (s.setMark w (s.fullMark b)).useInj b
  | none => s

/-- A write by the device's own logic: bytes put, and every bank word written in full gets fresh check bits (R343). -/
def State.devWrite (s : State) (a : Nat) (bs : List Byte) : State :=
  let s := s.putBytes a bs
  let w0 := ceilDiv a 8
  let w1 := (a + bs.length) / 8
  (List.range (w1 - w0)).foldl (fun s i => s.markFull (w0 + i)) s

/-- The little-endian number `v` written in `n` bytes by the device's own logic. -/
def State.devNum (s : State) (a n v : Nat) : State := s.devWrite a (leBytes n v)

/-! Event rings (R256–R262). Port n's registers lie 0x400 × n above port 0's. -/

/-- A port's internal state. -/
def State.port (s : State) (p : Nat) : Port := Tab.get (fun _ => Port.zero) s.ports p

/-- A port's internal state set. -/
def State.setPort (s : State) (p : Nat) (x : Port) : State :=
  { s with ports := Tab.set (fun _ => Port.zero) s.ports p x }

/-- Room in the ring of port `p`: (TAIL − HEAD − 16) mod SIZE (R258). -/
def State.ringRoom (s : State) (p : Nat) : Nat :=
  let size := s.fld (HPn_RING_SIZE.SIZE p)
  (s.fld (HPn_RING_TAIL.TAIL p) + 2 * size - s.fld (HPn_RING_HEAD.HEAD p) - 16) % size

/-- Unread records in the ring of port `p`. -/
def State.ringLen (s : State) (p : Nat) : Nat :=
  let size := s.fld (HPn_RING_SIZE.SIZE p)
  (s.fld (HPn_RING_HEAD.HEAD p) + size - s.fld (HPn_RING_TAIL.TAIL p)) % size / 16

/-- The four words of an event record (Table 12-5). -/
def eventBytes (code status handle a1 a2 st : Nat) : List Byte :=
  leBytes 4 (code % 256 * 2 ^ 24 + status % 256 * 2 ^ 16 + handle % 65536) ++ leBytes 4 (st / 6000) ++
    leBytes 4 a1 ++ leBytes 4 (a2 % 2 ^ 19 * 2 ^ 13 + st % 6000)

/-- Address of the ring record `j` places before HEAD. -/
def State.ringBack (s : State) (p j : Nat) : Nat :=
  let head := s.fld (HPn_RING_HEAD.HEAD p)
  let size := s.fld (HPn_RING_SIZE.SIZE p)
  s.fld (HPn_RING_BASE.BASE p) + if j = 0 then head else (head + size - 16 * j % size) % size

/-- The record at an address was posted in the present cycle with a CODE above `code`; a LOST record is none of these. -/
def State.postedAbove (s : State) (a code : Nat) : Bool :=
  let c := s.num (a + 3) 1
  decide (code < c) && c != 0xFF &&
    s.coreCycle (s.num (a + 4) 4 * 6000 + s.num (a + 12) 4 % 2 ^ 13) ==
      s.coreCycle (s.stamp / 6000 % 2 ^ 32 * 6000 + s.stamp % 6000)

/-- The unread records of the same cycle with a higher CODE, which a record of CODE `code` goes before (R258 step 3). -/
def State.ringAfter (s : State) (p code : Nat) : Nat :=
  ((List.range (s.ringLen p)).takeWhile (fun j => s.postedAbove (s.ringBack p (j + 1)) code)).length

/-- One record written before the last `m` records of the ring, HEAD advanced, EVENT set and counted (R258, R261). -/
def State.ringPut (s : State) (p m : Nat) (bs : List Byte) : State :=
  let head := s.fld (HPn_RING_HEAD.HEAD p)
  let old := (List.range m).map (fun j => (s.ringBack p j, s.bytes (s.ringBack p (j + 1)) 16))
  let s := old.foldl (fun s e => s.devWrite e.1 e.2) (s.devWrite (s.ringBack p m) bs)
  let s := s.setFld (HPn_RING_HEAD.HEAD p) ((head + 16) % s.fld (HPn_RING_SIZE.SIZE p))
  s.raise (HPn_IRQ_FLAG.EVENT p) (HPn_IRQ_CNT.EVENT_CNT p)

/-- The LOST record, when records are lost and room for two exists (R258 step 4). -/
def State.lostRecord (s : State) (p : Nat) : State :=
  if (s.port p).lost ≠ 0 ∧ 32 ≤ s.ringRoom p then
    (s.ringPut p 0 (eventBytes 0xFF 0 0 (s.port p).lost 0 s.stamp)).setPort p { s.port p with lost := 0 }
  else s

/-- An event posted on port `p` (R258), `m` more of its cycle's records going after it than its CODE asks: written, in ascending
CODE among those of its cycle, or counted as lost when no room is left or records are lost already and room for two has not
come. -/
def State.postBefore (s : State) (m p code status handle a1 a2 st : Nat) : State :=
  let s := s.lostRecord p
  if (s.port p).lost = 0 ∧ 16 ≤ s.ringRoom p then
    s.ringPut p (s.ringAfter p (code % 256) + m) (eventBytes code status handle a1 a2 st)
  else
    (s.setPort p { s.port p with lost := satInc 0xFFFFFFFF (s.port p).lost }).raise
      (HPn_IRQ_FLAG.OVF p) (HPn_IRQ_CNT.OVF_CNT p)

/-- An event posted on port `p`, after those of its cycle with its CODE. -/
def State.post (s : State) (p code status handle a1 a2 st : Nat) : State := s.postBefore 0 p code status handle a1 a2 st

/-- The ring of port `p` emptied, lost count included (R260). -/
def State.ringReset (s : State) (p : Nat) : State :=
  ((s.setFld (HPn_RING_HEAD.HEAD p) 0).setFld (HPn_RING_TAIL.TAIL p) 0).setPort p { s.port p with lost := 0 }

/-! The fault log (R395–R397). -/

/-- A record of the fault log: KIND, STATUS, SRC, INFO. -/
structure FaultRec where
  kind   : Nat
  status : Nat
  src    : Nat
  info   : Nat
deriving DecidableEq, Repr

/-- Address of fault record `k`. -/
def faultAddr (k : Nat) : Nat := 0x4D800 + 16 * k

/-- The log holds a record: some record has been written since it was cleared. -/
def State.faultAny (s : State) : Bool := s.fld SYS_FAULT_LOG.TOTAL != 0 || s.on SYS_FAULT_LOG.WRAP

/-- Index of the fault record `j` places before HEAD. -/
def State.faultBack (s : State) (j : Nat) : Nat := (s.fld SYS_FAULT_LOG.HEAD + 64 - j % 64) % 64

/-- The record at index `k` is of the present cycle and its KIND, or within one KIND its SRC, lies above that of `f`. -/
def State.faultAbove (s : State) (f : FaultRec) (k : Nat) : Bool :=
  let a := faultAddr k
  decide (f.kind % 256 * 256 + f.src % 256 < s.num (a + 8) 1 * 256 + s.num (a + 10) 1) &&
    s.coreCycle (wordStamp (s.num a 8)) == s.coreCycle s.stamp

/-- How many records the log holds. -/
def State.faultLen (s : State) : Nat :=
  if s.on SYS_FAULT_LOG.WRAP then 64 else min 64 (s.fld SYS_FAULT_LOG.TOTAL)

/-- The newest records that a fault of the same cycle goes before: ascending KIND, then SRC (R397 step 3). -/
def State.faultAfter (s : State) (f : FaultRec) : Nat :=
  ((List.range s.faultLen).takeWhile (fun j => s.faultAbove f (s.faultBack (j + 1)))).length

/-- The merge rule (R397 step 2): same KIND, SRC and INFO as the newest record before it, within 1024 ticks of its STAMP. -/
def State.faultMerges (s : State) (f : FaultRec) : Bool :=
  let m := s.faultAfter f
  let a := faultAddr (s.faultBack (m + 1))
  decide (m < s.faultLen) && s.num (a + 8) 1 == f.kind && s.num (a + 10) 1 == f.src && s.num (a + 12) 4 == f.info &&
    decide (s.stamp ≤ wordStamp (s.num a 8) + 1024 * 6000)

/-- The unread FAULT events of port `p` whose records move up one place: the newest ones, at most `m`, from index `k` on. -/
def State.faultMoved (s : State) (p m : Nat) : Nat :=
  ((List.range (min m (s.ringLen p))).takeWhile (fun j => s.num (s.ringBack p (s.ringAfter p 0x30 + j + 1) + 3) 1 == 0x30)).length

/-- A FAULT event on port `p` for record `k`, ahead of those of the `m` records that it went before, whose indices in ARG1
follow their records. -/
def State.faultPost (s : State) (p m k : Nat) (f : FaultRec) : State :=
  let n := s.faultMoved p m
  let s := (List.range n).foldl (fun s j =>
    let a := s.ringBack p (s.ringAfter p 0x30 + j + 1) + 8
    s.putBytes a (leBytes 4 ((s.num a 4 + 1) % 64))) s
  s.postBefore n p 0x30 f.status 0 k 0 s.stamp

/-- FAULT events on every port whose bit of SYS_FAULT.EV is set (R397 step 6). -/
def State.faultEvents (s : State) (f : FaultRec) (m k : Nat) : State :=
  if s.awake then
    [0, 1, 2, 3].foldl (fun s p => if (s.fld SYS_FAULT.EV).testBit p then s.faultPost p m k f else s) s
  else s

/-- A record written before the newest `m`, which move up one place; an open CMR record is followed, or lost with its place. -/
def State.faultPut (s : State) (m : Nat) (f : FaultRec) : State :=
  let h := s.fld SYS_FAULT_LOG.HEAD
  let old := (List.range m).map (fun j => (faultAddr (s.faultBack j), s.bytes (faultAddr (s.faultBack (j + 1))) 16))
  let moved := (List.range m).map (fun j => s.faultBack (j + 1))
  let s := { s with cmrOpen := match s.cmrOpen with
    | some (k, t) => if k = h then none else if moved.contains k then some ((k + 1) % 64, t) else some (k, t)
    | none => none }
  old.foldl (fun s e => s.devWrite e.1 e.2) (s.devWrite (faultAddr (s.faultBack m))
    (leBytes 8 (stampWord s.stamp) ++ leBytes 1 f.kind ++ leBytes 1 f.status ++ leBytes 1 f.src ++ leBytes 1 0 ++
      leBytes 4 f.info))

/-- A fault recorded (R397). -/
def State.fault (s : State) (f : FaultRec) : State :=
  let m := s.faultAfter f
  if s.faultMerges f then
    let a := faultAddr (s.faultBack (m + 1))
    s.putByte (a + 11) (BitVec.ofNat 8 (satInc 255 (s.num (a + 11) 1)))
  else
    let k := s.faultBack m
    let full := decide (s.faultLen = 64)
    let s := s.faultPut m f
    let s := s.setFld SYS_FAULT_LOG.HEAD ((s.fld SYS_FAULT_LOG.HEAD + 1) % 64)
    let s := if full then s.setFld SYS_FAULT_LOG.WRAP 1 else s
    let s := s.incMod SYS_FAULT_LOG.TOTAL
    let s := s.raise SYS_FAULT.FAULT SYS_FAULT.FAULT_CNT
    (if m = 0 then s.setFld SYS_FAULT.LAST_KIND f.kind else s).faultEvents f m k

/-- A parity error counted and recorded (R346, SYS_PARITY_CNT). -/
def State.parityErr (s : State) (src info : Nat) : State :=
  ((s.raise SYS_PARITY_CNT.PERR SYS_PARITY_CNT.OCC_CNT).incMod SYS_PARITY_CNT.TOTAL).fault
    ⟨0x10, Status.parity, src, info⟩

/-- A parity error in a read at `a` (R346). Table 21-2 gives no SRC for the primer ROM, so that one is a free value. -/
def State.readParity (s : State) (a : Nat) : State :=
  match bankOf a with
  | some b => s.parityErr b.code a
  | none => s.draw.parityErr (Config.unmeasured s.free % 256) a

/-- MEM_ERR_ADDR and its bank written (R349). -/
def State.errAddr (s : State) (b : Bank) (w kind src : Nat) : State :=
  (s.setReg MEM_ERR_ADDR.off (BitVec.ofNat 32 (w * 8 + kind * 4 + src))).setFld MEM_ECC_STAT.BANK b.code

/-- A correctable error met in bank word `w` (R347, R349). -/
def State.correctable (s : State) (b : Bank) (w src : Nat) : State :=
  let s := if s.on MEM_ECC_STAT.UE then s else s.errAddr b w 0 src
  let s := (s.raise MEM_ECC_STAT.CE MEM_ECC_STAT.CE_CNT).incMod SYS_ECC_CNT.CE_TOTAL
  if s.on MEM_ECC_CFG.CE_REC then s.fault ⟨0x12, 0, b.code, w * 8⟩ else s

/-- An uncorrectable error met in bank word `w` (R347, R349). -/
def State.uncorrectable (s : State) (b : Bank) (w src : Nat) : State :=
  let s := s.errAddr b w 1 src
  let s := (s.raise MEM_ECC_STAT.UE MEM_ECC_STAT.UE_CNT).incMod SYS_ECC_CNT.UE_TOTAL
  s.fault ⟨0x11, Status.ecc, b.code, w * 8⟩

/-- A read of bank word `w` by source `src` of MEM_ERR_ADDR (R347): whether the data is usable. -/
def State.readWord (s : State) (w src : Nat) : State × Bool :=
  match bankOf (w * 8), s.mark w with
  | some b, .single =>
    let s := s.correctable b w src
    (if s.on MEM_ECC_CFG.SCRUB && !s.scrub.contains w then { s with scrub := s.scrub ++ [w] } else s, true)
  | some b, .bad => (s.uncorrectable b w src, false)
  | _, _ => (s, true)

/-- The bank words that `n` bytes from `a` touch. -/
def wordsOf (a n : Nat) : List Nat :=
  if n = 0 then [] else (List.range ((a + n - 1) / 8 - a / 8 + 1)).map (fun i => a / 8 + i)

/-- A master's read of `n` bytes from `a`: whether every word was usable (R347, R350). -/
def State.readSpan (s : State) (a n : Nat) : State × Bool :=
  (wordsOf a n).foldl (fun (r : State × Bool) w => let q := r.1.readWord w 0; (q.1, r.2 && q.2)) (s, true)

/-- A split access counted (R344). -/
def State.split (s : State) (a n : Nat) : State :=
  if (wordsOf a n).length = 2 ∧ n ≤ 4 then s.incMod MEM_ROTATE_CFG.SPLIT_CNT else s

/-- A write of `bs` from `a`, all within one bank word (R343, R346, R348): full, or partial with its read. -/
def State.portWrite (s : State) (b : Bank) (a : Nat) (bs : List Byte) (parity : ParityHit) : State :=
  let w := a / 8
  if parity == .addr then s.parityErr b.code a
  else if parity == .data then (s.setMark w .bad).parityErr b.code a
  else if bs.length = 8 then (s.markFull w).putBytes a bs
  else
    let r := s.readWord w 2
    if r.2 then (r.1.setMark w .good).putBytes a bs
    else r.1.raise MEM_ECC_STAT.WDROP MEM_ECC_STAT.WDROP_CNT

/-- A write cut into bank words: (address, bytes) pieces. -/
def chunks : Nat → Nat → List Byte → List (Nat × List Byte)
  | 0, _, _ => []
  | _ + 1, _, [] => []
  | f + 1, a, b :: bs =>
    let n := 8 - a % 8
    (a, (b :: bs).take n) :: chunks f (a + n) ((b :: bs).drop n)

/-- A write by one of the device's engines, cut into bank words: full ones directly, partial ones merged (R343, R348). -/
def State.store (s : State) (a : Nat) (bs : List Byte) : State :=
  match bankOf a with
  | some b => (chunks (bs.length + 1) a bs).foldl (fun s c => s.portWrite b c.1 c.2 .none) s
  | none => s

/-- A number stored little-endian in `n` bytes by one of the device's engines. -/
def State.storeNum (s : State) (a n v : Nat) : State := s.store a (leBytes n v)

/-- Some Palette writes the Erg, its claim held (R73, R77). -/
def State.ergBusy (s : State) : Bool :=
  s.well.granted.any (fun c => c.who == .erg) &&
    ((s.on CHZ_CTRL.RUN_A && s.on CHZ_ERG_CFG.WR_A) || (s.on CHZ_CTRL.RUN_B && s.on CHZ_ERG_CFG.WR_B))

/-- Address of pin word `n` (R373). -/
def pinAddr (n : Nat) : Nat := 0x4DE00 + 4 * n

/-- GP ball `n` serves as a cascade select (R239). -/
def State.gpSelect (s : State) (n : Nat) : Bool :=
  let p := 2 + (n - 8) / 4
  decide (8 ≤ n) && (s.port p).casc && (s.fld (HPn_CASC_CFG.SEL_EN p)).testBit ((n - 8) % 4)

/-- The worker that an initiator frame of cascade port `p` is addressed to; none between frames. -/
def State.cascWorker (s : State) (p : Nat) : Option Nat :=
  match if p = 2 then s.casc2 else if p = 3 then s.casc3 else [] with
  | [] => none
  | .run w _ _ _ _ :: _ => some w
  | .fwd _ _ w _ _ _ :: _ => some w

/-- The level at a GP ball: what the device drives, else what is driven from outside. -/
def State.ball (s : State) (n : Nat) : Bool :=
  if Tab.get (fun _ => false) s.pins.gpDrv n then Tab.get (fun _ => false) s.pins.gpOut n
  else Tab.get (fun _ => false) s.pins.gpIn n

/-- IN of pin word `n` written by the device (R374). -/
def State.inWrite (s : State) (n : Nat) : State := s.store (pinAddr n + 2) (leBytes 1 (b2n (s.ball n)))

/-- IN written after a change at ball `n`, in Run and Idle (R374). -/
def State.inSync (s : State) (n : Nat) : State :=
  if s.awake ∧ (s.pwr.st = .run ∨ s.pwr.st = .idle) ∧ (s.num (pinAddr n) 4).testBit 16 ≠ s.ball n then s.inWrite n else s

/-- Pin word `n` applied to its ball (R373, R374); a word with DRIVE = 0b11 is ignored. A ball that serves as a cascade
select is driven low in a frame to its worker and idles high (R239). -/
def State.applyPin (s : State) (n : Nat) : State :=
  let w := s.num (pinAddr n) 4
  let set (d l : Bool) : State := { s with pins := { s.pins with
    gpDrv := Tab.set (fun _ => false) s.pins.gpDrv n d
    gpOut := Tab.set (fun _ => false) s.pins.gpOut n l } }
  if s.gpSelect n then (set true (s.cascWorker (2 + (n - 8) / 4) != some (n - 8))).inSync n
  else if natBits w 6 5 = 3 then s
  else (set (w.testBit 0 && !(w.testBit 4 && w.testBit 1)) (w.testBit 1)).inSync n

/-- Every pin word that a write of `n` bytes from `a` touches, applied. -/
def State.applyPins (s : State) (a n : Nat) : State :=
  (List.range 16).foldl (fun s i =>
    if pinAddr i < a + n ∧ a < pinAddr i + 4 then s.applyPin i else s) s

/-- The pin words whose LEVEL a master's write of `n` bytes from `a` reaches, noted with their stamp: in that cycle a launcher's
action on them has gone before (R374). -/
def State.pinNote (s : State) (a n : Nat) : State :=
  { s with pins := { s.pins with wrote := (List.range 16).foldl (fun l i =>
    if a ≤ pinAddr i ∧ pinAddr i < a + n then Tab.set (fun _ => 0) l i (s.stamp + 1) else l) s.pins.wrote } }

/-- A master has written pin word `i` in the present cycle. -/
def State.pinWritten (s : State) (i : Nat) : Bool :=
  match Tab.get (fun _ => 0) s.pins.wrote i with
  | 0 => false
  | t + 1 => s.coreCycle t == s.coreCycle s.stamp

/-! The message layer's control block (R209, R210). -/

/-- Address of the control block's field at `o`. -/
def msgCb (o : Nat) : Nat := 0x2F6000 + o

/-- Address of reassembly record `r`. -/
def msgRec (r : Nat) : Nat := 0x2F0000 + 64 * r

/-- Address of transaction record `x`. -/
def msgTxn (x : Nat) : Nat := 0x2F4000 + 32 * x

/-- CTRL.EN judged after a write (R210): a change from 0 to 1 frees every record and zeroes AHEAD, ATAIL and the counters. -/
def State.msgJudge (s : State) : State :=
  let en := (s.num (msgCb 0x18) 1).testBit 0
  if en && !s.msgEn then
    let s := (List.range 256).foldl (fun s r => (s.storeNum (msgRec r + 3) 1 0).storeNum (msgTxn r + 3) 1 0) s
    let s := (s.storeNum (msgCb 0x08) 8 0).storeNum (msgCb 0x20) 14 0
    { s with msgEn := true }
  else { s with msgEn := en }

/-- A bank write by a host port, a context or a DMA channel: discarded in the fault log (R395) and in ERG while a Palette
writes (R77); pin words are applied as they are written (R374). -/
def State.masterWrite (s : State) (a : Nat) (bs : List Byte) (parity : ParityHit) : State :=
  match bankOf a with
  | none => s
  | some b =>
    if b == .erg && s.ergBusy then s.raise CHZ_ERG_STAT.WDENY CHZ_ERG_STAT.WDENY_CNT
    else
      let s := (chunks (bs.length + 1) a bs).foldl (fun s c =>
        if 0x4D800 ≤ c.1 ∧ c.1 < 0x4DC00 then s else s.portWrite b c.1 c.2 parity) s
      if b == .ret then (s.pinNote a bs.length).applyPins a bs.length
      else if a ≤ msgCb 0x18 ∧ msgCb 0x18 < a + bs.length then s.msgJudge
      else s

/-- Cells that flip (operand Env): the marks of their bank words. -/
def State.upset (s : State) (e : Env) : State := e.upsets.foldl (fun s u => s.setMark u.1 u.2) s

/-! Power: leaving Idle. -/

/-- The device returns from Idle to Run when an Idle condition ceases to hold (R320). -/
def State.leaveIdle (s : State) : State :=
  if s.pwr.st == .idle then { s with pwr := { s.pwr with st := .run } } else s

/-! Contexts (R265–R269). -/

/-- A context. -/
def State.cx (s : State) (k : Nat) : Ctx := Tab.get (fun _ => Ctx.empty) s.ctx k

/-- A context set. -/
def State.setCx (s : State) (k : Nat) (c : Ctx) : State := { s with ctx := Tab.set (fun _ => Ctx.empty) s.ctx k c }

/-- g_i of a context; g0 reads zero (Table 13-1). -/
def Ctx.rd (c : Ctx) (i : Nat) : Word := if i = 0 then 0#32 else Tab.get (fun _ => 0#32) c.g i

/-- g_i written; a write of g0 is discarded. -/
def Ctx.wr (c : Ctx) (i : Nat) (w : Word) : Ctx :=
  if i = 0 then c else { c with g := Tab.set (fun _ => 0#32) c.g i w }

/-- t_i of a context. -/
def Ctx.rdT (c : Ctx) (i : Nat) : BitVec 64 := Tab.get (fun _ => 0#64) c.t i

/-- t_i written. -/
def Ctx.wrT (c : Ctx) (i : Nat) (w : BitVec 64) : Ctx := { c with t := Tab.set (fun _ => 0#64) c.t i w }

/-- A status word written to g_d with Z as R287 states, and the context ready again. -/
def State.finish (s : State) (k : Nat) (d : Nat) (w : Nat) : State :=
  let c := (s.cx k).wr d (BitVec.ofNat 32 w)
  (s.setCx k { c with st := .ready, susp := .none, z := w % 256 == 0, since := s.stamp }).leaveIdle

/-- A parked context made ready with nothing written. -/
def State.wake (s : State) (k : Nat) : State :=
  (s.setCx k { s.cx k with st := .ready, susp := .none, since := s.stamp }).leaveIdle

/-- A context parked. -/
def State.park (s : State) (k : Nat) (w : Wait) (u : Susp) : State :=
  s.setCx k { s.cx k with st := .parked w, susp := u }

/-! The Well (R332–R338). Amounts are in 0.5 mA units. -/

/-- WELL_USED: the standing 15.5 mA and the granted claims (R333). -/
def State.wellUsed (s : State) : Nat :=
  (if s.asleep then 0 else 31) + (s.well.granted.map (·.amt)).foldl (· + ·) 0

/-- Whether a holder has its claim granted. -/
def State.holds (s : State) (h : Holder) : Bool := s.well.granted.any (fun c => c.who == h)

/-- Whether a holder's claim waits. -/
def State.waits (s : State) (h : Holder) : Bool := s.well.queue.any (fun c => c.who == h)

/-- A claim that can never be granted (R336). -/
def State.neverFits (s : State) (amt : Nat) : Bool := decide (2 * s.fld WELL_BUDGET.BUDGET < amt + 31)

/-- A denial counted (R336). -/
def State.deny (s : State) : State :=
  (s.raise WELL_DENY_CNT.DENY WELL_DENY_CNT.OCC_CNT).incMod WELL_DENY_CNT.TOTAL

/-- A claim placed: denied at once when it can never be granted, else queued (R336, R338). Whether it was queued. -/
def State.place (s : State) (h : Holder) (amt prio : Nat) (t : Ticket) : State × Bool :=
  if s.neverFits amt then (s.deny, false)
  else ({ s with well := { s.well with queue := s.well.queue ++ [⟨h, amt, prio, t, s.stamp, false⟩] } }, true)

/-- Every claim of a holder withdrawn (R335, R337). -/
def State.withdraw (s : State) (h : Holder) : State :=
  { s with well := { s.well with
      granted := s.well.granted.filter (fun c => c.who != h)
      queue := s.well.queue.filter (fun c => c.who != h) } }

/-- Rank of waiting claims (R335): promoted by ticket, then priority, then ticket. -/
def Claim.before (a b : Claim) : Bool :=
  if a.promoted != b.promoted then a.promoted
  else if !a.promoted && a.prio ≠ b.prio then decide (a.prio < b.prio)
  else a.ticket.le b.ticket

/-- The first-ranked waiting claim. -/
def State.wellHead (s : State) : Option Claim := pickBest Claim.before s.well.queue

/-- A claim moved from the queue to the granted claims, PEAK kept (R338). -/
def State.grantClaim (s : State) (c : Claim) : State :=
  let s := { s with well := { s.well with
    queue := s.well.queue.erase c, granted := s.well.granted ++ [c] } }
  s.setFld WELL_USED.PEAK (max (s.fld WELL_USED.PEAK) s.wellUsed)

/-- The ticket of a register write's device claims (R332): the frame's or the RPUT's. -/
def State.masterTicket (s : State) : Master → Ticket
  | .host p => s.ticketNow p.val
  | .ctx k => (s.cx k.val).ticket

/-- A claim that the device places on a register write (R332). -/
def State.placeDev (s : State) (h : Holder) (amt : Nat) (t : Ticket) : State × Bool :=
  s.place h amt (s.fld WELL_QUEUE.DEVPRIO) t

/-! Slots and completion (R245–R254). -/

/-- Slot `i` of port `p`. -/
def State.slot (s : State) (p i : Nat) : Slot := Tab.get (fun _ => Slot.fresh) s.slots (256 * p + i)

/-- Slot `i` of port `p` set. -/
def State.setSlot (s : State) (p i : Nat) (x : Slot) : State :=
  { s with slots := Tab.set (fun _ => Slot.fresh) s.slots (256 * p + i) x }

/-- The handle of slot `i` of port `p` (Table 12-2). -/
def handleOf (p gen i : Nat) : Nat := p * 2 ^ 14 + gen % 64 * 2 ^ 8 + i

/-- The free slot of port `p` that has been free longest, ties in ascending slot number (R246). -/
def State.freeSlot (s : State) (p : Nat) : Option Nat :=
  pickBest (fun i j => decide ((s.slot p i).freed < (s.slot p j).freed))
    ((List.range 256).filter (fun i => (s.slot p i).st == .free))

/-- A command completes (R252, R257, R261): result held, or the slot freed with NORES; DONE set and counted; the DONE
event with NOEV = 0. -/
def State.complete (s : State) (p i status : Nat) (data : List Byte) : State :=
  let x := s.slot p i
  let h := handleOf p x.gen i
  let s := { s with order := s.order + 1 }
  let s := s.setSlot p i { x with
    st := if x.nores then .free else .done, status := status, data := data, freed := s.order }
  let s := s.raise (HPn_IRQ_FLAG.DONE p) (HPn_IRQ_CNT.DONE_CNT p)
  if x.noev then s else s.post p 0x01 status h data.length 0 s.stamp

/-- The sketch-table entry `n`: read from RET below RETN, else from PGM (R272). -/
def State.sketchEntry (s : State) (n : Nat) : Nat :=
  if n < s.fld SEQ_SKETCH_BASE.RETN then s.num (0x40000 + 4 * n) 4 else s.num (4 * n) 4

/-- A sketch number names a sketch (R244). -/
def State.namesSketch (s : State) (n : Nat) : Bool :=
  (decide (n < 1024) && s.sketchEntry n != 0) || (decide (0xFF00 ≤ n) && decide (n ≤ 0xFF05))

/-- A slot taken for an accepted command (R246): its generation advanced, 63 back to 1. -/
def State.takeSlot (s : State) (p i sketch prio : Nat) (nores noev order : Bool) (args : List Word) (t : Ticket) :
    State :=
  let g := (s.slot p i).gen
  s.setSlot p i ⟨.queued, if g = 63 then 1 else g + 1, sketch, prio, nores, noev, order, args, t, false, 0, [], 0⟩

/-- A command started by a launcher or by the wake receiver (R251). -/
def State.submitInternal (s : State) (sketch : Nat) (args : List Word) (t : Ticket) : State :=
  if !s.namesSketch sketch then s.post 0 0x01 Status.badCommand Status.badCommand sketch 0 s.stamp
  else
    match s.freeSlot 0 with
    | none => s.post 0 0x01 Status.queueFull Status.queueFull sketch 0 s.stamp
    | some i => s.takeSlot 0 i sketch 0 false false false args t

/-! Semaphores (R285). -/

/-- Semaphore `n`. -/
def State.sem (s : State) (n : Nat) : Sem := Tab.get (fun _ => Sem.free) s.sems n

/-- Semaphore `n` set. -/
def State.setSem (s : State) (n : Nat) (x : Sem) : State := { s with sems := Tab.set (fun _ => Sem.free) s.sems n x }

/-- A semaphore freed by its owner: it passes to the oldest waiter, which becomes ready, or becomes free (R285). -/
def State.freeSem (s : State) (n : Nat) : State :=
  let m := s.sem n
  match pickBest (fun a b => (s.cx a.val).ticket.le (s.cx b.val).ticket) m.wait with
  | some k => (s.setSem n ⟨some k.val, m.wait.erase k⟩).wake k.val
  | none => s.setSem n .free

/-! Radio state that several families read. -/

/-- The synthesiser of a name. -/
def State.syn (s : State) : Syn → Synth
  | .sya => s.sya | .syb => s.syb | .syt => s.syt

/-- A synthesiser set. -/
def State.setSyn (s : State) : Syn → Synth → State
  | .sya, x => { s with sya := x }
  | .syb, x => { s with syb := x }
  | .syt, x => { s with syt := x }

/-- The chain arrangement is diversity (Table 3-2). -/
def State.diversity (s : State) : Bool := s.fld RFA_CHAIN_CFG.ARR == 1

/-- The chain arrangement is single (Table 3-2). -/
def State.single (s : State) : Bool := s.fld RFA_CHAIN_CFG.ARR == 0

/-- A radio operation. -/
def State.op (s : State) (id : Nat) : Option RadioOp := Tab.get (fun _ => none) s.ops id

/-- A radio operation set. -/
def State.setOp (s : State) (id : Nat) (o : RadioOp) : State :=
  { s with ops := Tab.set (fun _ => none) s.ops id (some o) }

/-- A radio operation dropped. -/
def State.dropOp (s : State) (id : Nat) : State := { s with ops := Tab.drop id s.ops }

/-- A radio operation added under the next number. -/
def State.addOp (s : State) (o : RadioOp) : State :=
  { (s.setOp s.opNext o) with opNext := s.opNext + 1 }

/-- A launcher. -/
def State.launcher (s : State) (n : Nat) : Lnch := Tab.get (fun _ => Lnch.off) s.lnch n

/-- A launcher set. -/
def State.setLauncher (s : State) (n : Nat) (x : Lnch) : State :=
  { s with lnch := Tab.set (fun _ => Lnch.off) s.lnch n x }

/-- A partner entry's address (R280). -/
def partner (i : Nat) : Nat := 0x80000 + 64 * i

/-- A partner entry is valid and its flags are readable (R192, Table 17-3). -/
def State.partnerValid (s : State) (i : Nat) : Bool :=
  decide (i < 4096) && (s.num (partner i + 10) 2).testBit 0 && s.mark ((partner i + 8) / 8) != .bad

/-- A Palette. -/
def State.pal (s : State) : Chain → Palette
  | .a => s.palA | .b => s.palB

/-- A Palette set. -/
def State.setPal (s : State) : Chain → Palette → State
  | .a, x => { s with palA := x }
  | .b, x => { s with palB := x }

/-- A chain's Palette runs (CHZ_CTRL.RUN_n). -/
def State.palRuns (s : State) : Chain → Bool
  | .a => s.on CHZ_CTRL.RUN_A
  | .b => s.on CHZ_CTRL.RUN_B

/-- A chain is powered (RFA_CHAIN_CFG.RXn_ON). -/
def State.chainOn (s : State) : Chain → Bool
  | .a => s.on RFA_CHAIN_CFG.RXA_ON
  | .b => s.on RFA_CHAIN_CFG.RXB_ON

/-- An engine operation. -/
def State.eng (s : State) (id : Nat) : Option EngOp := Tab.get (fun _ => none) s.engs id

/-- An engine operation set. -/
def State.setEng (s : State) (id : Nat) (o : EngOp) : State :=
  { s with engs := Tab.set (fun _ => none) s.engs id (some o) }

/-- An engine operation added under the next number. -/
def State.addEng (s : State) (o : EngOp) : State :=
  { (s.setEng s.engNext o) with engNext := s.engNext + 1 }

/-- An engine operation dropped. -/
def State.dropEng (s : State) (id : Nat) : State := { s with engs := Tab.drop id s.engs }

end Sys2Proof.Machine
end

