-- ==== Sys2Proof/Machine/Radio.lean ====
section
/-! DEFINITION. What every timed and radio family shares: the signals that WAITE waits for, launchers being armed and
disarmed, and the end of a radio operation. -/

namespace Sys2Proof.Machine

/-! Signals (R297, Table 14-8). -/

/-- The signals present for context `k`, as bits of Table 14-8. -/
def State.present (s : State) (k : Nat) : Nat :=
  let c := s.cx k
  c.user % 2 ^ 16 + b2n c.ring * 2 ^ 16 + b2n (!s.msgQ.isEmpty) * 2 ^ 17 + b2n (!c.eng.isEmpty) * 2 ^ 18 +
    b2n (!c.notices.isEmpty) * 2 ^ 19

/-- The value of the lowest-numbered queued signal among `got` (Table 14-8). -/
def State.signalValue (s : State) (k got : Nat) : Option Word :=
  if got.testBit 17 then s.msgQ.head?.map (fun r => BitVec.ofNat 32 r)
  else if got.testBit 18 then (s.cx k).eng.head?
  else if got.testBit 19 then (s.cx k).notices.head?
  else none

/-- The present signals of the mask given to context `k` and consumed (Table 14-8). -/
def State.takeSignals (s : State) (k mask d b : Nat) : State :=
  let got := s.present k &&& mask
  let v := s.signalValue k got
  let s' := if got.testBit 17 then { s with msgQ := s.msgQ.tail } else s
  let c := s'.cx k
  let c := c.wr d (BitVec.ofNat 32 got)
  let c := match v with
    | some w => c.wr b w
    | none => c
  s'.setCx k { c with
    user := c.user &&& (2 ^ 20 - 1 - got % 2 ^ 16)
    ring := c.ring && !got.testBit 16
    eng := if got.testBit 18 then c.eng.tail else c.eng
    notices := if got.testBit 19 then c.notices.tail else c.notices
    c := false }

/-- A context parked in WAITE whose mask has a present signal resumes with it. -/
def State.deliver (s : State) (k : Nat) : State :=
  match (s.cx k).st, (s.cx k).susp with
  | .parked _, .waite mask d b _ =>
    if s.present k &&& mask = 0 then s else (s.takeSignals k mask d b).wake k
  | _, _ => s

/-- Message-queue entries given to the contexts that wait for MSG, oldest ticket first (R297). -/
def State.deliverMsg : Nat → State → State
  | 0, s => s
  | f + 1, s =>
    let ws := (List.range 64).filter (fun k =>
      match (s.cx k).st, (s.cx k).susp with
      | .parked _, .waite mask _ _ _ => mask.testBit 17 && !s.msgQ.isEmpty
      | _, _ => false)
    match pickBest (fun a b => (s.cx a).ticket.le (s.cx b).ticket) ws with
    | some k => State.deliverMsg f (s.deliver k)
    | none => s

/-- A record number queued for MSG (R216). -/
def State.signalMsg (s : State) (r : Nat) : State :=
  let s := { s with msgQ := s.msgQ ++ [r] }
  State.deliverMsg s.msgQ.length s

/-- The frame-ring signal: raised for every context, waiting ones resume (R103, Table 14-8). -/
def State.signalRing (s : State) : State :=
  (List.range 64).foldl (fun s k => (s.setCx k { s.cx k with ring := true }).deliver k) s

/-- User signals set on a context (R297). -/
def State.signalUser (s : State) (k bits : Nat) : State :=
  (s.setCx k { s.cx k with user := (s.cx k).user ||| bits }).deliver k

/-- An engine result queued for a context (Table 14-8: the status word with TAG in [14:12]). -/
def State.signalEng (s : State) (k tag w : Nat) : State :=
  (s.setCx k { s.cx k with eng := (s.cx k).eng ++ [putBits (BitVec.ofNat 32 w) 14 12 tag] }).deliver k

/-- A transaction notice queued for a context (Table 14-8). -/
def State.signalTxn (s : State) (k status retry record : Nat) : State :=
  (s.setCx k { s.cx k with
    notices := (s.cx k).notices ++ [BitVec.ofNat 32 (record * 2 ^ 16 + retry * 2 ^ 8 + status)] }).deliver k

/-! Launchers (R29–R34). -/

/-- An occurrence acted on: FIRED, counted (Table 2-4); a late one sets MISSED (R34). -/
def State.lnHit (s : State) (n : Nat) (late : Bool) : State :=
  let s := (s.setFld (CVN_Ln_ACT.FIRED n) 1).incSat (CVN_Ln_ACT.FIRE_CNT n)
  if late then s.setFld (CVN_Ln_ACT.MISSED n) 1 else s

/-- A launcher disarmed; a RADIO launcher returns ACTION and ARG to 0 (R32). -/
def State.lnOff (s : State) (n : Nat) : State :=
  let radio := (s.launcher n).armed && (s.launcher n).action == 1
  let s := (s.setLauncher n Lnch.off).setFld (CVN_Ln_ACT.ARMED n) 0
  if radio then (s.setFld (CVN_Ln_ACT.ACTION n) 0).setFld (CVN_Ln_ACT.ARG n) 0 else s

/-- A launcher armed: FIRED, MISSED and FIRE_CNT cleared (R29). -/
def State.lnArm (s : State) (n : Nat) (x : Lnch) : State :=
  let s := (s.setLauncher n x).setFld (CVN_Ln_ACT.ARMED n) 1
  ((s.setFld (CVN_Ln_ACT.FIRED n) 0).setFld (CVN_Ln_ACT.MISSED n) 0).setFld (CVN_Ln_ACT.FIRE_CNT n) 0

/-- The arming took effect late (R34): the stamp already reached, or less than 16 fine units ahead. -/
def State.lateArm (s : State) (stamp : Nat) : Bool := decide (stamp < s.stamp + 16)

/-- A launcher armed by an instruction (R288, R291). DEDUCED: its CVN_Ln registers show the stamp and action it took. -/
def State.lnArmInstr (s : State) (n stamp action arg rep pol : Nat) (k : Fin 64) (op : Option Nat) : State :=
  let w := stampWord stamp
  let s := (s.setFld (CVN_Ln_TIME_LO.TICK_LO n) (w / 2 ^ 16)).setFld (CVN_Ln_TIME_LO.FINE n) w
  let s := s.setReg (CVN_Ln_TIME_HI.off n) (BitVec.ofNat 32 (w / 2 ^ 32))
  let s := (s.setFld (CVN_Ln_ACT.LATE_POL n) pol).setFld (CVN_Ln_ACT.ACTION n) action
  let s := (s.setFld (CVN_Ln_ACT.REPEAT n) rep).setFld (CVN_Ln_ACT.ARG n) arg
  s.lnArm n ⟨true, stamp, action, arg, rep, pol, some k, op, false, none⟩

/-- The launcher an instruction of context `k` may arm (R288, R291): `some none` when it is armed by another context's
instruction or serves the beacons, `none` when no launcher of L4–L31 is free. -/
def State.lnPick (s : State) (lnch : Nat) (k : Fin 64) : Option (Option (Fin 32)) :=
  if h : lnch < 32 then
    let x := s.launcher lnch
    let beacon := match x.op.bind s.op with
      | some o => o.kind == .gack
      | none => false
    if x.armed && (beacon || (x.owner.isSome && x.owner != some k)) then some none else some (some ⟨lnch, h⟩)
  else
    match (List.finRange 32).find? (fun n => decide (4 ≤ n.val) && !(s.launcher n.val).armed) with
    | some n => some (some n)
    | none => none

/-! Radio operations. -/

/-- The kinds that transmit (Table 6-3): TXP_STAT reports them. -/
def OpKind.sends : OpKind → Bool
  | .txf | .calltx | .ackw | .beacon | .ack => true
  | _ => false

/-- The operation has begun its act, so that lateness shows in its status word (R287). -/
def RadioOp.acted (o : RadioOp) : Bool :=
  match o.kind, o.phase with
  | .tune, .lock => true
  | _, .onAir | _, .fall | _, .swap | _, .gap | _, .ackWait | _, .ackDecode | _, .window => true
  | _, _ => false

/-- A radio status word (R287): LATE in [8], QUAL in [9], a field in [31:16]. -/
def State.radioWord (s : State) (status : Nat) (late : Bool) (extra : Nat) : Nat :=
  status + b2n late * 2 ^ 8 + b2n s.qual * 2 ^ 9 + extra % 2 ^ 16 * 2 ^ 16

/-- TXP_STAT at the end of a transmission (Table 6-3, Table 6-7). -/
def State.txpEnd (s : State) (status : Nat) : State :=
  let s := s.setFld TXP_STAT.LAST status
  let s := if status = Status.late ∨ status = Status.lateSent then s.raise TXP_STAT.LATE TXP_STAT.LATE_CNT else s
  if status = Status.channelBusy then s.raise TXP_STAT.CBUSY TXP_STAT.CBUSY_CNT else s

/-- The context of an operation, if it is parked on it, takes its status word, and a TXF the launch instant (R291). -/
def State.opReport (s : State) (id : Nat) (o : RadioOp) (status extra : Nat) : State :=
  match o.ctx with
  | none => s
  | some k =>
    if (s.cx k.val).susp == .radio id then
      let s := if o.kind == .txf && (status == Status.ok || status == Status.lateSent || status == Status.noAck) then
          s.setCx k.val ((s.cx k.val).wrT o.ts (BitVec.ofNat 64 (stampWord o.t)))
        else s
      s.finish k.val o.d (s.radioWord status (o.late && o.acted) extra)
    else s

/-- The synthesiser of CHAIN 0, 1 or 2 of a radio descriptor (Table 14-2). -/
def synOf : Nat → Syn
  | 0 => .sya | 1 => .syb | _ => .syt

/-- The synthesiser of a receive chain. -/
def chainSyn : Chain → Syn
  | .a => .sya | .b => .syb

/-- RXA_ON, RXB_ON or SYT_ON. -/
def synOnFld : Syn → Fld
  | .sya => RFA_CHAIN_CFG.RXA_ON | .syb => RFA_CHAIN_CFG.RXB_ON | .syt => RFA_CHAIN_CFG.SYT_ON

/-- A synthesiser is powered. -/
def State.synOn (s : State) (y : Syn) : Bool := s.on (synOnFld y)

/-- The Well claim of a synthesiser's power (Table 14-5). -/
def synHolder : Syn → Holder
  | .sya => .chain .a | .syb => .chain .b | .syt => .txBase

/-- The synthesisers that power off together: in diversity both chains (R291). -/
def State.offSyns (s : State) (y : Syn) : List Syn :=
  if s.diversity && y == .sya then [.sya, .syb] else [y]

/-- The claims that powering CHAIN needs: 14 mA a chain, 12 mA for SYT (Table 14-5). -/
def State.powerNeeds (s : State) (y : Syn) : List (Syn × Nat) :=
  match y with
  | .syt => [(.syt, 24)]
  | _ => (s.offSyns y).map (fun z => (z, 28))

/-- The synthesiser that an operation in phase claim waits to power. -/
def RadioOp.syn (o : RadioOp) : Syn := if o.kind == .tune then synOf o.chain else .syt

/-- An operation still waiting for the claims of its power ends: they are withdrawn and nothing is powered, unless the chain
or SYT is on or another operation waits for the same claim (R291). -/
def State.claimLapse (s : State) (id : Nat) (o : RadioOp) : State :=
  if o.phase == .claim then
    let others := s.ops.filterMap (fun e => if e.1 = id then none else e.2)
    let kept := others.any (fun x => x.phase == .claim && (s.powerNeeds x.syn).any (fun z => (s.powerNeeds o.syn).any (fun y => y.1 == z.1)))
    if kept then s
    else (s.powerNeeds o.syn).foldl (fun s z => if s.synOn z.1 then s else s.withdraw (synHolder z.1)) s
  else s

/-- A radio operation's outcome: its power claims lapse, its launcher is disarmed, its context told (R287, R291, Table 6-3).
The first outcome of a beacon also ends the GACK that waits for it (Table 14-3). -/
def State.opClose (s : State) (id : Nat) (o : RadioOp) (status extra : Nat) : State :=
  let s := s.claimLapse id o
  let s := match o.lnch with
    | some n => if (s.launcher n.val).op == some id then s.lnOff n.val else s
    | none => s
  let s := s.dropOp id
  let s := if o.kind.sends then s.txpEnd status else s
  if o.kind == .beacon then
    match s.op o.buf with
    | some g => s.opReport o.buf g status extra
    | none => s
  else s.opReport id o status extra

/-- A radio operation ends: its PA claim is withdrawn, its outcome follows. -/
def State.opEnd (s : State) (id status extra : Nat) : State :=
  match s.op id with
  | none => s
  | some o => (s.withdraw (.pa id)).opClose id o status extra

/-- NOCOV of TXP_STAT: the last CHANNEL_BUSY or NO_ACK had no covering chain. -/
def State.setNocov (s : State) (b : Bool) : State := s.setFld TXP_STAT.NOCOV (b2n b)

/-- The radio operations, by number. -/
def State.opIds (s : State) : List Nat := s.ops.map (·.1)

end Sys2Proof.Machine
end

