-- ==== Sys2Proof/Machine/Security.lean ====
section
/-! DEFINITION. MAC frames, keys, sealing and opening with CCM*, replay protection (R143–R161). -/

namespace Sys2Proof.Machine

/-! The MAC frame (Tables 7-4, 7-5). -/

/-- Frame control. -/
def frameCtl (f : List Byte) : Nat := leNat (f.take 2)

/-- TYPE of a frame control. -/
def fcType (c : Nat) : Nat := natBits c 2 0

/-- SEC. -/
def fcSec (c : Nat) : Bool := c.testBit 3

/-- Ack-request. -/
def fcAr (c : Nat) : Bool := c.testBit 5

/-- DMODE. -/
def fcDmode (c : Nat) : Nat := natBits c 7 6

/-- SMODE. -/
def fcSmode (c : Nat) : Nat := natBits c 9 8

/-- TEMP. -/
def fcTemp (c : Nat) : Bool := c.testBit 10

/-- TS. -/
def fcTs (c : Nat) : Bool := c.testBit 11

/-- Security level. -/
def fcLevel (c : Nat) : Nat := natBits c 14 12

/-- Bytes of an address of a mode. -/
def addrLen (mode : Nat) : Nat := if mode = 2 then 2 else if mode = 3 then 8 else 0

/-- Offset of the source address. -/
def srcOff (c : Nat) : Nat := 5 + addrLen (fcDmode c)

/-- Offset of the frame counter (or of what follows the source address). -/
def auxOff (c : Nat) : Nat := srcOff c + addrLen (fcSmode c)

/-- Offset of the temperature byte. -/
def tempOff (c : Nat) : Nat := auxOff c + if fcSec c then 5 else 0

/-- Offset of the timestamp field. -/
def tsOff (c : Nat) : Nat := tempOff c + b2n (fcTemp c)

/-- Bytes of the header: every byte before the payload. -/
def hdrLen (c : Nat) : Nat := tsOff c + if fcTs c then 8 else 0

/-- The number in `n` bytes at offset `o` of a frame. -/
def fieldAt (f : List Byte) (o n : Nat) : Nat := leNat ((f.drop o).take n)

/-- `bs` written over a frame at offset `o`. -/
def overlay (f : List Byte) (o : Nat) (bs : List Byte) : List Byte := f.take o ++ bs ++ f.drop (o + bs.length)

/-- The destination address; none without one. -/
def destOf (f : List Byte) : Nat := fieldAt f 5 (addrLen (fcDmode (frameCtl f)))

/-- The source address. -/
def srcOf (f : List Byte) : Nat := fieldAt f (srcOff (frameCtl f)) (addrLen (fcSmode (frameCtl f)))

/-- A unicast frame: it has a destination that is not the broadcast address. -/
def unicast (f : List Byte) : Bool :=
  let d := fcDmode (frameCtl f)
  d == 3 || (d == 2 && destOf f != 0xFFFF)

/-- MIC bytes that a frame control calls for. -/
def micOf (c : Nat) : Nat := if fcSec c then micLen (fcLevel c) else 0

/-- A well-formed frame of LEN bytes with an FCS of `fcs` bytes (R145). -/
def wellFormed (c len fcs : Nat) : Bool :=
  !c.testBit 15 && decide (fcType c ≤ 5) && fcSmode c != 1 && fcDmode c != 1 &&
    (if fcSec c then micLen (fcLevel c) != 0 && fcSmode c != 0 else fcLevel c == 0) &&
    (fcType c != 2 || (fcDmode c == 0 && fcSmode c == 0 && !fcSec c && !fcTemp c && !fcTs c)) &&
    decide (hdrLen c + micOf c + fcs ≤ len)

/-- FCS bytes of a sync set (LANE_CTRL.FCS32). -/
def State.fcsLen (s : State) (set : Nat) : Nat := if (s.fld LANE_CTRL.FCS32).testBit set then 4 else 2

/-- The FCS of bytes for a sync set (R148). -/
def State.fcsBytes (s : State) (set : Nat) (bs : List Byte) : List Byte :=
  if (s.fld LANE_CTRL.FCS32).testBit set then leBytes 4 (crc32 bs) else leBytes 2 (crc16 bs)

/-! Keys (R149–R151). -/

/-- A key slot. -/
def State.key (s : State) (k : Nat) : Key := Tab.get (fun _ => Key.empty) s.keys k

/-- A key slot set. -/
def State.setKey (s : State) (k : Nat) (x : Key) : State := { s with keys := Tab.set (fun _ => Key.empty) s.keys k x }

/-- The 16 key bytes held in SEC_KEY_DATA0–3. -/
def State.keyBytes (s : State) : List Byte :=
  (List.range 4).flatMap (fun i => leBytes 4 (Tab.get (fun _ => 0#32) s.keyData i).toNat)

/-- A key loaded; SEC_KEY_DATA zero afterwards (R149). -/
def State.loadKey (s : State) (k : Nat) (pair : Bool) (ctr : Nat) : State :=
  { s.setKey k ⟨1, pair, ctr, s.keyBytes⟩ with keyData := [] }

/-- A key erased; SEC_KEY_DATA zero afterwards (R149). -/
def State.eraseKey (s : State) (k : Nat) : State := { s.setKey k .empty with keyData := [] }

/-- Every slot emptied (R151). -/
def State.eraseKeys (s : State) : State := { s with keys := [] }

/-- A key slot fails parity (R151, R346). The slot is marked while it holds the key that failed. -/
def State.keyBad (s : State) (k : Nat) : State :=
  let s := s.setKey k { s.key k with st := 2 }
  (s.raise SEC_STAT.KEYBAD SEC_STAT.KEYBAD_CNT).fault ⟨0x13, Status.parity, k, 0⟩

/-! Outcomes (R159). -/

/-- A seal or open that ends with a reason of Table 7-8. -/
def State.secCount (s : State) (status reason : Nat) : State :=
  let s := if reason = 0 then s else s.setFld SEC_STAT.LAST_REASON reason
  if status = Status.securityFail then
    ((s.setFld SEC_STAT.FAIL 1).incSat SEC_FAIL_CNT.OCC_CNT).incMod SEC_FAIL_CNT.TOTAL
  else if status = Status.replay then
    ((s.setFld SEC_STAT.RPL 1).incSat SEC_REPLAY_CNT.OCC_CNT).incMod SEC_REPLAY_CNT.TOTAL
  else s

/-- What a seal or an open has come to: status, reason, bytes. -/
structure SecRes where
  status : Nat
  reason : Nat
  out    : List Byte
deriving DecidableEq, Repr

/-- A security failure. -/
def SecRes.fail (reason : Nat) : SecRes := ⟨Status.securityFail, reason, []⟩

/-! Sealing (R152–R154). -/

/-- MAC_LADDR as one number. -/
def State.laddr (s : State) : Nat := s.fld MAC_LADDR_HI.LADDR_HI * 2 ^ 32 + s.fld MAC_LADDR_LO.LADDR_LO

/-- The key slot of a frame to be sealed (R152). -/
def State.sealSlot (s : State) (f : List Byte) (pidx key : Nat) : Nat :=
  if unicast f && s.partnerValid pidx then s.num (partner pidx + 0x0C) 1 else key

/-- What a seal has taken: the key slot with its key, the frame counter; with a refusal none. -/
structure Taken where
  slot : Nat
  key  : Key
  ctr  : Nat
deriving DecidableEq, Repr

/-- The bytes of a partner entry that the security block works on, read: whether they are usable (Table 17-3). -/
def State.readEntry (s : State) (i : Nat) : State × Bool := s.readSpan (partner i) 0x1C

/-- The key and the frame counter of a frame to be sealed, chosen and consumed in one access (R152, R153). DEDUCED: the entry
of a counter that counts as absent (R192) ends the seal as an invalid entry does (log entry 178). -/
def State.sealTake (s : State) (f : List Byte) (pidx key : Nat) : State × SecRes × Option Taken :=
  let slot := s.sealSlot f pidx key
  let k := s.key slot
  let dest := unicast f && s.partnerValid pidx
  let e := if k.pair then pidx else k.ctr
  if !wellFormed (frameCtl f) (f.length + micOf (frameCtl f)) 0 then (s, ⟨Status.headerFail, 0x01, []⟩, none)
  else if 64 ≤ slot then (s, .fail 0x12, none)
  else if k.st ≠ 1 then (s, .fail 0x11, none)
  else if k.pair ∧ !dest then (s, .fail 0x15, none)
  else
    let r := s.readEntry e
    let ctr := s.num (partner e + 0x14) 4
    if !r.2 then (r.1, ⟨Status.ecc, 0, []⟩, none)
    else if !s.partnerValid e then (r.1, .fail 0x13, none)
    else if ctr = 0xFFFFFFFF then (r.1, .fail 0x16, none)
    else (r.1.storeNum (partner e + 0x14) 4 (ctr + 1), ⟨Status.ok, 0, []⟩, some ⟨slot, k, ctr⟩)

/-- A frame sealed with what its seal has taken: frame counter, key index and MIC added (R154). DEDUCED: the buffer holds the
whole MAC frame, with room for the frame counter and the key index where Table 7-5 puts them. -/
def State.sealBytes (s : State) (f : List Byte) (k : Taken) : List Byte :=
  let c := frameCtl f
  let f := overlay f (auxOff c) (leBytes 4 k.ctr ++ leBytes 1 k.slot)
  let h := f.take (hdrLen c)
  let r := ccmSeal k.key.key s.laddr k.ctr (fcLevel c) h (f.drop (hdrLen c))
  h ++ r.1 ++ r.2

/-! Opening (R156–R158). -/

/-- Step 2: the entry is valid and is the frame's source, or anonymous opening is allowed and possible. -/
def State.openPartner (s : State) (f : List Byte) (pidx : Nat) : Bool :=
  let c := frameCtl f
  if pidx = 0xFFFF then s.on SEC_REPLAY_CFG.ALLOW_ANON && (!fcSec c || fcSmode c == 3)
  else s.partnerValid pidx &&
    (match fcSmode c with
      | 2 => s.num (partner pidx + 8) 2 == srcOf f
      | 3 => s.num (partner pidx) 8 == srcOf f
      | _ => false)

/-- Step 3: an unsecured data or command frame from a secure entry. -/
def State.openRefused (s : State) (f : List Byte) (pidx : Nat) : Bool :=
  let c := frameCtl f
  pidx != 0xFFFF && !fcSec c && (fcType c == 1 || fcType c == 3) && (s.num (partner pidx + 0x0A) 2).testBit 5

/-- Steps 1–5 of R156 on a frame of LEN bytes whose FCS takes `fcs`; `f` is the frame from frame control to the end of the
MIC. The bytes are the plaintext payload. -/
def State.openFrame (s : State) (f : List Byte) (len fcs pidx : Nat) : SecRes :=
  let c := frameCtl f
  if !wellFormed c len fcs then ⟨Status.headerFail, 0x01, []⟩
  else if !s.openPartner f pidx then .fail 0x13
  else if s.openRefused f pidx then .fail 0x14
  else
    let h := f.take (hdrLen c)
    let body := f.drop (hdrLen c)
    if !fcSec c then ⟨Status.ok, 0, body⟩
    else
      let slot := fieldAt f (auxOff c + 4) 1
      if 64 ≤ slot then .fail 0x12
      else if (s.key slot).st ≠ 1 then .fail 0x11
      else
        let m := micOf c
        let eui := if fcSmode c = 3 then srcOf f else s.num (partner pidx) 8
        let r := ccmOpen (s.key slot).key eui (fieldAt f (auxOff c) 4) (fcLevel c) h (body.take (body.length - m))
        if r.2 = body.drop (body.length - m) then ⟨Status.ok, 0, r.1⟩ else .fail 0x10

/-- The reason for which the replay checks of an entry refuse a frame (Table 7-7); 0 when they accept it. -/
def State.replayReason (s : State) (f : List Byte) (pidx : Nat) : Nat :=
  let c := frameCtl f
  let mode := natBits (s.num (partner pidx + 0x0A) 2) 4 3
  let d := (fieldAt f 2 1 + 256 - s.num (partner pidx + 0x0E) 1) % 256
  if mode % 2 = 1 ∧ fcSec c ∧ fieldAt f (auxOff c) 4 ≤ s.num (partner pidx + 0x10) 4 then 0x20
  else if mode < 2 then 0
  else if d = 0 then 0x21
  else if d ≤ 127 then 0
  else if s.fld SEC_REPLAY_CFG.WIN ≤ 256 - d then 0x22
  else if (s.num (partner pidx + 0x18) 4).testBit (256 - d) then 0x21
  else 0

/-- The replay state after acceptance (Table 7-7, one locked access: R158). -/
def State.replayTake (s : State) (f : List Byte) (pidx : Nat) : State :=
  let c := frameCtl f
  let mode := natBits (s.num (partner pidx + 0x0A) 2) 4 3
  let q := fieldAt f 2 1
  let map := s.num (partner pidx + 0x18) 4
  let d := (q + 256 - s.num (partner pidx + 0x0E) 1) % 256
  let s := if mode % 2 = 1 ∧ fcSec c then s.storeNum (partner pidx + 0x10) 4 (fieldAt f (auxOff c) 4) else s
  if mode < 2 then s
  else if d ≤ 127 then
    (s.storeNum (partner pidx + 0x18) 4 ((map <<< d ||| 1) % 2 ^ 32)).storeNum (partner pidx + 0x0E) 1 q
  else s.storeNum (partner pidx + 0x18) 4 (map ||| 2 ^ (256 - d))

/-! AES engines (R155). -/

/-- An AES engine. -/
def State.aesEng (s : State) (e : Nat) : Aes := Tab.get (fun _ => Aes.idle) s.aes e

/-- An AES engine set. -/
def State.setAes (s : State) (e : Nat) (x : Aes) : State := { s with aes := Tab.set (fun _ => Aes.idle) s.aes e x }

/-- The engines in use: 0 to ENGINES − 1. -/
def State.aesUsed (s : State) : List Nat := List.range (s.fld SEC_CTRL.ENGINES)

/-- A seal, open or transmission's sealing. -/
def EngKind.usesAes : EngKind → Bool
  | .seal _ _ _ _ _ | .txSeal _ | .opn _ _ _ | .beacon _ _ _ _ _ _ => true
  | _ => false

/-- The operations that wait for an AES engine, oldest ticket first to be taken. -/
def State.aesQueue (s : State) : List (Nat × EngOp) :=
  s.engs.filterMap (fun p => p.2.bind (fun o => if o.kind.usesAes && !o.started then some (p.1, o) else none))

/-- Claims placed for the engines that waiting operations need (R155); whether none was denied. DEDUCED: an engine is
claimed for each waiting operation that no granted idle engine can take. -/
def State.aesClaim (s : State) (prio : Nat) (t : Ticket) : State × Bool :=
  let open_ := s.aesUsed.filter (fun e => (s.aesEng e).busy.isNone && (s.holds (.aes e) || s.waits (.aes e)))
  if s.aesQueue.length ≤ open_.length then (s, true)
  else
    match s.aesUsed.find? (fun e => !s.holds (.aes e) && !s.waits (.aes e)) with
    | some e => s.place (.aes e) 3 prio t
    | none => (s, true)

end Sys2Proof.Machine
end

