-- ==== Sys2Proof/Machine/Drift.lean ====
section
/-! DEFINITION. Drift models: the device's own crystal and every partner's (R38–R45), computed exactly and rounded once,
as Table 2-10 states. Rates are in ppb, temperatures in °C. -/

namespace Sys2Proof.Machine

/-- Rounded to the nearest integer, halves upward. -/
def ratRound (q : Rat) : Int := (q + 1 / 2).floor

/-- The uncertainty of a code, 2^(c ÷ 16) ppb with c taken as 64 to 250 (R41), to 2^-64 ppb. -/
def uncOf (c : Nat) : Rat := (root16 (2 ^ (min 250 (max 64 c) + 1024)) : Rat) / (2 ^ 64 : Nat)

/-- The code of an uncertainty: ceil(16 × log2 U), 64 to 250 (R41). -/
def codeOf (u : Rat) : Nat := 64 + ((List.range 186).filter (fun i => decide (((2 ^ (64 + i) : Nat) : Rat) < u ^ 16))).length

/-- A number's absolute value. -/
def ratAbs (q : Rat) : Rat := if q < 0 then -q else q

/-! The self model (R39). -/

/-- e_s(T) of the self model, ppb. -/
def State.selfErr (s : State) (t : Rat) : Rat :=
  2 * (signed 16 (s.fld CVN_SELF_MODEL.SRATE) : Rat) +
    (signed 12 (s.fld CVN_CFG.SK) : Rat) / 16 * (t - signed 8 (s.fld CVN_CFG.STURN)) ^ 2

/-- The last temperature sample in °C. -/
def State.tempC (s : State) : Rat := (signed 12 (s.fld RFA_TEMP.TEMP) : Rat) / 16

/-- TRIM written by the self model: −e_s(T), within ±500,000 ppb; not while the line loop owns it (R381). -/
def State.trimNow (s : State) : State :=
  if s.lineOwns then s
  else s.setFld CVN_RATE_TRIM.TRIM (twos 32 (clampInt (-500000) 500000 (ratRound (-(s.selfErr s.tempC)))))

/-- What one learning step makes of rate, curvature (ppb/°C²) and uncertainty (steps 3 to 6 of Table 2-10). -/
structure Learned where
  rate  : Rat
  curve : Rat
  unc   : Rat
  reset : Bool

/-- Steps 3 to 6 of Table 2-10: `m2`, the measured rate, the guard sum, the old uncertainty, the gain, and whether the
curvature may change. -/
def learn (rate curve m2 meas guard old gain : Rat) (bend : Bool) : Learned :=
  let u := meas - (rate + curve * m2)
  if 4 * guard < ratAbs u then ⟨meas - curve * m2, curve, 2 * ratAbs u, true⟩
  else
    let sh := m2 ^ 2 / (m2 ^ 2 + 4096)
    let k := if m2 = 0 ∨ !bend then curve else max (-64) (min 0 (curve + sh * u * gain / m2))
    ⟨rate + (1 - sh) * u * gain, k, max 16 (old / 2 + ratAbs u / 2), false⟩

/-- The self model learns from one count of CK_RADIO cycles over 2^19 ticks (R39, R44). DEDUCED: the guard sum of Table 2-10
with SUNC for DUNC, in endpoint mode (log entry 29). DESIGN CHOICE: the last temperature sample stands for the mean
temperature of the 16 s (log entry 168). -/
def State.selfLearn (s : State) (count : Nat) : State :=
  let k : Rat := (signed 12 (s.fld CVN_CFG.SK) : Rat) / 16
  let m2 := (s.tempC - signed 8 (s.fld CVN_CFG.STURN)) ^ 2
  let meas : Rat := ((2457600000 : Rat) / count - 1) * 1000000000
  let un := uncOf (s.fld CVN_SELF_MODEL.SUNC)
  let r := learn (2 * (signed 16 (s.fld CVN_SELF_MODEL.SRATE) : Rat)) k m2 meas
    (2 * un + ratAbs k * s.fld CVN_CFG.M2_SPAN + 8 * (524288 / 2831155200)) un (1 / 16) true
  let s := s.setFld CVN_SELF_MODEL.SRATE (twos 16 (clampInt (-32767) 32767 (ratRound (r.rate / 2))))
  let s := s.setFld CVN_CFG.SK (twos 12 (ratRound (16 * r.curve)))
  (s.setFld CVN_SELF_MODEL.SUNC (max (codeOf r.unc) (min 250 (max 64 (s.fld CVN_SELF_MODEL.SFLOOR))))).trimNow

/-! Partner models (R41–R45). -/

/-- A field of a partner entry. -/
def State.pt (s : State) (i o n : Nat) : Nat := s.num (partner i + o) n

/-- A field of a partner entry written by the device. -/
def State.ptSet (s : State) (i o n v : Nat) : State := s.storeNum (partner i + o) n v

/-- Entry `k` of the temperature log: running sums in 0.5 °C and 0.25 °C² (R40). -/
def State.logSums (s : State) (k : Nat) : Nat × Nat :=
  (s.num (0x4E000 + 8 * (k % 1024)) 4, s.num (0x4E004 + 8 * (k % 1024)) 4)

/-- Mean and mean square of the own temperature between log entries `i` and `j`, in °C and °C²; two samples an entry. -/
def State.logMean (s : State) (i j : Nat) : Rat × Rat :=
  let n : Rat := 2 * ((j - i : Nat) : Rat)
  let a : Nat := ((s.logSums j).1 + 2 ^ 32 - (s.logSums i).1) % 2 ^ 32
  let b : Nat := ((s.logSums j).2 + 2 ^ 32 - (s.logSums i).2) % 2 ^ 32
  ((signed 32 a : Rat) / 2 / n, (b : Rat) / 4 / n)

/-- The log entry at or before a stamp. -/
def logAt (t : Nat) : Nat := t / (6000 * 2 ^ 22)

/-- The own temperature at a past stamp: the mean of the log entry that holds it, the latest one written when that one is
still to come (R40, R42). -/
def State.ownTemp (s : State) (t : Nat) : Rat :=
  let k := min (logAt t + 1) (logAt s.stamp)
  (s.logMean (k - 1) k).1

/-- Proxy mode applies (R42). -/
def State.proxy (s : State) (i d : Nat) : Bool :=
  s.on CVN_CFG.TMODE && s.on CVN_CFG.TLOG_EN && decide (wordStamp (s.num 0x4DFF8 8) < wordStamp (s.pt i 0x20 8)) &&
    decide (2 ^ 24 ≤ d) && decide (d ≤ 2 ^ 32)

/-- LTEMP in °C. -/
def State.ltemp (s : State) (i : Nat) : Rat := (signed 8 (s.pt i 0x30 1) : Rat) / 2

/-- The entry's PFLAGS.temp-capable. -/
def State.tempCapable (s : State) (i : Nat) : Bool := (s.pt i 0x0A 2).testBit 6

/-- M2 of a partner over `d` ticks that end at stamp `stop`, with the newly reported temperature, if any (R42). -/
def State.m2 (s : State) (i d stop : Nat) (t2 : Option Rat) : Rat :=
  let turn : Rat := signed 8 (s.pt i 0x2E 1)
  let sync := wordStamp (s.pt i 0x20 8)
  if s.proxy i d then
    let a := logAt sync
    let b := max (a + 1) (logAt (min stop s.stamp))
    let m := s.logMean a b
    let o1 := s.ltemp i - s.ownTemp sync
    let o := if !s.tempCapable i then 0
      else match t2 with
        | some t => (o1 + (t - s.ownTemp stop)) / 2
        | none => o1
    m.2 + 2 * (o - turn) * m.1 + (o - turn) ^ 2
  else if s.tempCapable i then ((s.ltemp i - turn) ^ 2 + ((t2.getD (s.ltemp i)) - turn) ^ 2) / 2
  else 0

/-- DRATE. -/
def State.drate (s : State) (i : Nat) : Rat := signed 32 (s.pt i 0x28 4)

/-- The curvature DTCO ÷ 16. -/
def State.dtco (s : State) (i : Nat) : Rat := (signed 16 (s.pt i 0x2C 2) : Rat) / 16

/-- The guard sum U of an interval of `d` ticks (R42). -/
def State.guardSum (s : State) (i d : Nat) : Rat :=
  uncOf (s.pt i 0x2F 1) + uncOf (s.fld CVN_SELF_MODEL.SUNC) +
    ratAbs (s.dtco i) * (if s.proxy i d then 4 else s.fld CVN_CFG.M2_SPAN) + 8 * d / 2831155200

/-- The predicted arrival, in fine units, rounded to the nearest (R42, R43). -/
def State.predict (s : State) (i d : Nat) : Nat :=
  let sync := wordStamp (s.pt i 0x20 8)
  let e := s.drate i + s.dtco i * s.m2 i d (sync + 6000 * d) none
  (ratRound ((sync : Rat) + 6000 * d * (1 - e / 1000000000))).toNat

/-- The guard in ticks, at least 2 (R42); four times it for an unmodelled partner with UNMOD = 0 (R185). 2 µs are 0.065536
ticks. -/
def State.guardTicks (s : State) (i d : Nat) : Nat :=
  let g := max 2 (s.guardSum i d / 1000000000 * d + 65536 / 1000000).ceil.toNat
  if (s.pt i 0x0A 2).testBit 7 ∧ s.fld MAC_MISS_CFG.UNMOD = 0 then 4 * g else g

/-- TLEARN (R44, Table 2-10) on a valid entry: the observed stamp, the schedule D and the reported temperature byte. Whether
step 4 applied. -/
def State.tlearn (s : State) (i tObs d temp : Nat) : State × Bool :=
  let sync := wordStamp (s.pt i 0x20 8)
  let t2 : Option Rat := if temp = 0x80 then none else some ((signed 8 temp : Rat) / 2)
  let m2 := s.m2 i d tObs t2
  let del : Rat := (tObs : Rat) - sync
  let meas : Rat := if tObs = sync then (Config.rateAtZero s.free : Rat) else (6000 * d - del) / del * 1000000000
  let s' := if tObs = sync then s.draw else s
  let n := s.pt i 0x33 1
  let r := if n = 0 then ⟨meas - s.dtco i * m2, s.dtco i, 2048, false⟩
    else learn (s.drate i) (s.dtco i) m2 meas (s.guardSum i d) (uncOf (s.pt i 0x2F 1))
      (if n = 1 then 1 / 2 else if n = 2 then 1 / 4 else 1 / 8) (s.tempCapable i)
  let s' := s'.ptSet i 0x20 8 (stampWord tObs)
  let s' := s'.ptSet i 0x28 4 (twos 32 (clampInt (-2147483648) 2147483647 (ratRound r.rate)))
  let s' := if s.tempCapable i then s'.ptSet i 0x2C 2 (twos 16 (clampInt (-32768) 32767 (ratRound (16 * r.curve)))) else s'
  let s' := s'.ptSet i 0x2F 1 (codeOf r.unc)
  let s' := if temp = 0x80 then s' else s'.ptSet i 0x30 1 temp
  let s' := s'.ptSet i 0x33 1 (satInc 255 n)
  (s'.ptSet i 0x0A 2 (s.pt i 0x0A 2 - if (s.pt i 0x0A 2).testBit 7 then 128 else 0), r.reset)

end Sys2Proof.Machine
end

