-- ==== Sys2Proof/Machine/Cells.lean ====
section
/-! DEFINITION. The superframe grid: slots, cells, the cell of a member, a member's own cell and beacon window
(R162–R173, R180). -/

namespace Sys2Proof.Machine

/-- Fine units of a slot at beacon order `bo`: 32 × 2^bo ticks (R162). -/
def slotFine (bo : Nat) : Nat := 192000 * 2 ^ bo

/-- Fine units of a beacon interval. -/
def biFine (bo : Nat) : Nat := 32 * slotFine bo

/-- A contention slot (R163). -/
def contention (first count j : Nat) : Bool := decide (first ≤ j) && decide (j < first + count)

/-- The assigned slots in ascending order (R163). -/
def assigned (first count : Nat) : List Nat := ((List.range 32).drop 1).filter (fun j => !contention first count j)

/-- The rank of an assigned slot (R164). -/
def rankOf (first count j : Nat) : Option Nat := (assigned first count).idxOf? j

/-- The hashed cell of an address (R171). -/
def hashCell (saddr seed na : Nat) : Nat := (saddr * 40503 + seed) % 65536 % na

/-- The number of assigned cells (R164). -/
def cellCount (count channels : Nat) : Nat := (31 - count) * channels

/-! The own superframe. -/

/-- BO of the own superframe. -/
def State.bo (s : State) : Nat := s.fld MAC_SF_CFG.BO

/-- First contention slot and their number. -/
def State.cont (s : State) : Nat × Nat := (s.fld MAC_SF_CFG.CFIRST, s.fld MAC_SF_CFG.CCOUNT)

/-- Channels of the plan. -/
def State.channels (s : State) : Nat := s.fld MAC_PLAN.COUNTM1 + 1

/-- The centre of plan channel `c` (R164). -/
def State.planFreq (s : State) (c : Nat) : Nat := s.fld MAC_PLAN.FIRST + c * s.fld MAC_PLAN.STEP

/-- SF0 while the own superframe runs. -/
def State.ownSf (s : State) : Option Nat := if s.on MAC_ROLE.SF_EN then s.mac.sf0 else none

/-- Superframe number and slot of a stamp, from superframe start `z`. -/
def sfSlot (bo z t : Nat) : Nat × Nat := ((t - z) / biFine bo, (t - z) / slotFine bo % 32)

/-- Superframe `k` is skipped by an announcement (R186). -/
def State.skipped (s : State) (k : Nat) : Bool :=
  match s.mac.ann with
  | some a => match a.first with
    | some f => decide (f + a.arep < k) && decide (k < f + a.n)
    | none => false
  | none => false

/-- The superframe of the next beacon occasion from superframe `k` on: the announced one when `k` is skipped. -/
def State.occasion (s : State) (k : Nat) : Nat :=
  match s.mac.ann with
  | some a => match a.first with
    | some f => if f + a.arep < k ∧ k < f + a.n then f + a.n else k
    | none => k
  | none => k

/-- A beacon has been sent: with the announced one NEXT returns to 1 (R186). -/
def State.beaconSent (s : State) (o : RadioOp) : State :=
  match s.mac.sf0, s.mac.ann with
  | some z, some a =>
    match a.first with
    | some f =>
      if f + a.n ≤ (o.t - z) / biFine s.bo then { s.setFld MAC_SF_CFG.NEXT 1 with mac := { s.mac with ann := none } } else s
    | none => s
  | _, _ => s

/-- An entry of a member of the own superframe. DEDUCED: valid, with PFLAGS.member-of. -/
def State.isMember (s : State) (i : Nat) : Bool := s.partnerValid i && (s.pt i 0x0A 2).testBit 2

/-- The members' entries. -/
def State.members (s : State) : List Nat := (List.range 4096).filter s.isMember

/-- The slot, channel and assigned-cell index of a member's cell (R164, R169, R171). -/
def State.cellOf (s : State) (i : Nat) : Option (Nat × Nat × Nat) :=
  let first := s.cont.1
  let count := s.cont.2
  let n := s.channels
  let b := s.pt i 0x1C 1
  let sa := s.pt i 8 2
  if b = 0xFF then none
  else if b = 0xFE then
    if sa = 0xFFFE ∨ sa = 0xFFFF ∨ cellCount count n = 0 then none
    else
      let x := hashCell sa (s.fld MAC_NETID.SEED) (cellCount count n)
      ((assigned first count)[x / n]?).map (fun j => (j, x % n, x))
  else (rankOf first count b).map (fun r => (b, s.pt i 0x1D 1, r * n + s.pt i 0x1D 1))

/-- A frame of member `i` whose sync word ends at `t` is in its cell; the superframe (R173). -/
def State.inCell (s : State) (i t : Nat) : Option Nat :=
  match s.ownSf, s.cellOf i with
  | some z, some (j, _, _) =>
    if z ≤ t ∧ (sfSlot s.bo z t).2 = j ∧ !s.skipped (sfSlot s.bo z t).1 then some (sfSlot s.bo z t).1 else none
  | _, _ => none

/-- The role of a chain (R189, R390): bit 0 coordinator, bit 1 member. -/
def State.roleOf (s : State) (c : Chain) : Nat :=
  if s.single then (match c with | .a => s.fld MAC_ROLE.ROLE_A | .b => 0)
  else if s.diversity then s.fld MAC_ROLE.ROLE_A
  else match c with | .a => s.fld MAC_ROLE.ROLE_A | .b => s.fld MAC_ROLE.ROLE_B

/-- Chain `c` receives the cell of member `i`: it has the coordinator role, and CELL byte 0x1E names it, which does not count in
diversity (R189, R390). -/
def State.cellOn (s : State) (i : Nat) (c : Chain) : Bool :=
  (s.roleOf c).testBit 0 &&
    (s.diversity || s.pt i 0x1E 1 % 2 == match c with | .a => 0 | .b => 1)

/-! The member role: the upstream record (Table 8-5). -/

/-- Address of the upstream record. -/
def upRec : Nat := 0x4DF00

/-- A field of the upstream record. -/
def State.up (s : State) (o n : Nat) : Nat := s.num (upRec + o) n

/-- A field of the upstream record written. -/
def State.upSet (s : State) (o n v : Nat) : State := s.storeNum (upRec + o) n v

/-- BO of the upstream superframe. -/
def State.upBo (s : State) : Nat := natBits (s.up 0 4) 3 0

/-- First contention slot and their number, upstream. -/
def State.upCont (s : State) : Nat × Nat := (natBits (s.up 0 4) 8 4, natBits (s.up 0 4) 13 9)

/-- Channels of the upstream plan. -/
def State.upChannels (s : State) : Nat := natBits (s.up 4 4) 31 25 + 1

/-- The own cell's slot (R170, R172). -/
def State.upSlot (s : State) : Option Nat :=
  if s.up 0x10 2 = 0xFFFF then none else (assigned s.upCont.1 s.upCont.2)[s.up 0x10 2 / s.upChannels]?

/-- The member is synchronised. -/
def State.upSync (s : State) : Bool := s.on MAC_ROLE.MB_EN && s.on MAC_BEACON_STAT.SYNC

/-- The window multiplier m of Table 8-4. -/
def State.upMult (s : State) : Nat :=
  match s.fld MAC_BEACON_STAT.MISS with
  | 0 => 1 | 1 => 2 | _ => 4

/-- Ticks from TSYNC to the beacon expected next. -/
def State.upTicks (s : State) : Nat := s.mac.nextN * (1024 * 2 ^ s.upBo)

/-- The upstream coordinator's entry is there: Deep sleep clears it, and the record in RET stands meanwhile (R183, R190). -/
def State.upKnown (s : State) : Bool := s.partnerValid (s.fld MAC_ROLE.UPIDX)

/-- The predicted sync end of the beacon expected next; from NEXTB while the upstream entry is missing. -/
def State.upNext (s : State) : Nat :=
  if s.upKnown then s.predict (s.fld MAC_ROLE.UPIDX) s.upTicks else wordStamp (s.up 0x18 8)

/-- The beacon window: t_pred ± m × G (R180). DEDUCED: without the upstream entry G is the least guard, 2 ticks (log entry
185). -/
def State.upWindow (s : State) : Nat × Nat :=
  let t := s.upNext
  let g := s.upMult * (if s.upKnown then s.guardTicks (s.fld MAC_ROLE.UPIDX) s.upTicks else 2) * 6000
  (t - g, t + g)

/-- The own cell: its slot and its channel's centre, in 6.25 kHz units (R164, R172). -/
def State.upCell (s : State) : Option (Nat × Nat) :=
  s.upSlot.map (fun j => (j, 2 * (natBits (s.up 4 4) 16 0 + s.up 0x10 2 % s.upChannels * natBits (s.up 4 4) 24 17)))

/-- The end of the slot in which `t` lies, slots of beacon order `bo` counted from `z`. -/
def slotEnd (bo z t : Nat) : Nat := z + ((t - z) / slotFine bo + 1) * slotFine bo

/-- The bound of a contention slot of the superframe that the device runs (R389). -/
def State.ownBound (s : State) (t : Nat) : Option Nat :=
  match s.ownSf with
  | some z => if z ≤ t ∧ contention s.cont.1 s.cont.2 (sfSlot s.bo z t).2 then some (slotEnd s.bo z t) else none
  | none => none

/-- A transmission of the member role. DEDUCED: a TXF to the upstream coordinator, or any TXF of a device that runs no
superframe of its own (log entry 182). -/
def State.memberTx (s : State) (o : RadioOp) : Bool :=
  o.kind == .txf && (o.pidx == s.fld MAC_ROLE.UPIDX || s.ownSf.isNone)

/-- The bound of a slot of the superframe that the device tracks (R389): a contention slot's end, or the own cell's. After two
misses the bound of the own cell is 0, and of every other slot but the contention slots for the member role's transmissions
(R181). -/
def State.upBound (s : State) (o : RadioOp) (t : Nat) : Option Nat :=
  if s.upSync ∧ s.mac.start ≤ t then
    let j := (sfSlot s.upBo s.mac.start t).2
    if contention s.upCont.1 s.upCont.2 j then some (slotEnd s.upBo s.mac.start t)
    else if s.upSlot = some j then
      if 2 ≤ s.fld MAC_BEACON_STAT.MISS then some 0 else some (slotEnd s.upBo s.mac.start t)
    else if 2 ≤ s.fld MAC_BEACON_STAT.MISS ∧ s.memberTx o then some 0
    else none
  else none

/-- The slot bound of R134 and R389 for a launch of `o` at `t`: the earlier one of both superframes; none under ALOHA
rules. -/
def State.bound (s : State) (o : RadioOp) (t : Nat) : Option Nat :=
  match s.ownBound t, s.upBound o t with
  | some a, some b => some (min a b)
  | some a, none => some a
  | none, b => b

/-- A TXF launched at its T lies in the member's own cell: its slot and its channel (R172, R176). -/
def State.inOwnCell (s : State) (o : RadioOp) : Bool :=
  s.upSync && o.kind == .txf && decide (s.mac.start ≤ o.t) &&
    s.upCell == some ((sfSlot s.upBo s.mac.start o.t).2, o.freq)

/-! The launch in the own cell (R172, Table 6-5). -/

/-- Ticks from the superframe start taken from the last accepted beacon to the launch in the own cell, slot `j`, of superframe
`k` after it. -/
def State.cellTicks (s : State) (j k : Nat) : Nat := (32 * k + j) * (32 * 2 ^ s.upBo) + s.up 0x0A 2

/-- The launch instant in the own cell of superframe `k`: S and the interval, scaled by the upstream entry's drift model. -/
def State.cellStamp (s : State) (j k : Nat) : Nat :=
  let u := s.fld MAC_ROLE.UPIDX
  s.mac.start + (s.predict u (s.cellTicks j k) - wordStamp (s.pt u 0x20 8))

/-- The next launch instant in the own cell that is `lead` or more ahead; no cell lies in an announced gap (R186), and two
misses bar the cell (R181). -/
def State.cellLaunch (s : State) (freq lead : Nat) : Option Nat :=
  match s.upCell with
  | some (j, f) =>
    if s.upSync ∧ f = freq ∧ s.fld MAC_BEACON_STAT.MISS < 2 then
      let k0 := (s.stamp - s.mac.start) / biFine s.upBo
      ([k0, k0 + 1, max (k0 + 1) (natBits (s.up 0 4) 31 16)].filter
        (fun k => decide (k = 0) || decide (natBits (s.up 0 4) 31 16 ≤ k))).map (s.cellStamp j) |>.find?
          (fun t => decide (s.stamp + lead ≤ t))
    else none
  | none => none

end Sys2Proof.Machine
end

