-- ==== Sys2Proof/Machine/Phy.lean ====
section
/-! DEFINITION. The physical layer: bits on the air, the PHY header, the convolutional code and its Viterbi decoder, sync-word
comparison, deviations, wake-call chips, and powers in decibels (R65, R82, R136–R141, R196). -/

namespace Sys2Proof.Machine

/-! Bits (R136). -/

/-- The low `w` bits of a number, most significant first. -/
def bitsDown (w v : Nat) : List Bool := (List.range w).map (fun i => v.testBit (w - 1 - i))

/-- Bytes on the air, bit 0 of each first. -/
def airBits (bs : List Byte) : List Bool := bs.flatMap (fun b => (List.range 8).map (fun i => b.toNat.testBit i))

/-- The number that bits spell, the first one least significant. -/
def bitsNat : List Bool → Nat
  | [] => 0
  | b :: t => (if b then 1 else 0) + 2 * bitsNat t

/-- Bytes from bits as `airBits` sends them; bits beyond the last whole byte fall off. -/
def airBytes : Nat → List Bool → List Byte
  | 0, _ => []
  | n + 1, bs => BitVec.ofNat 8 (bitsNat (bs.take 8)) :: airBytes n (bs.drop 8)

/-- `n` preamble symbols: 1 and 0 in turn, starting with 1. -/
def preambleBits (n : Nat) : List Bool := (List.range n).map (fun i => i % 2 == 0)

/-- The PHY header (Table 7-3): LEN, FEC, WHITE, MODE and the header check over them. -/
def phyHeader (len : Nat) (fec white mod4 : Bool) : Nat :=
  let h := len % 512 * 2 ^ 7 + b2n fec * 2 ^ 6 + b2n white * 2 ^ 5 + b2n mod4 * 2 ^ 3
  h + hchk h

/-- Symbols of a body of `len` bytes (R142). -/
def bodySymbols (len : Nat) (fec mod4 : Bool) : Nat :=
  let n := if fec then 2 * (8 * len + 6) else 8 * len
  if mod4 then n / 2 else n

/-! The K = 7 code (R141). -/

/-- The number of ones in the low seven bits. -/
def ones7 (v : Nat) : Nat := ((List.range 7).filter v.testBit).length

/-- The two coded bits of input `b` after the six inputs `r` (the latest in bit 5): the output of 0x79, then that of 0x5B. -/
def codeBits (r : Nat) (b : Bool) : Bool × Bool :=
  let w := r + b2n b * 64
  (ones7 (w &&& 0x79) % 2 == 1, ones7 (w &&& 0x5B) % 2 == 1)

/-- The encoder from state `r`. -/
def encodeFrom : Nat → List Bool → List Bool
  | _, [] => []
  | r, b :: t => (codeBits r b).1 :: (codeBits r b).2 :: encodeFrom ((r + b2n b * 64) / 2) t

/-- Bits encoded, six zero tail bits added, from the zero state. -/
def fecEncode (bs : List Bool) : List Bool := encodeFrom 0 (bs ++ List.replicate 6 false)

/-- The cost of coded bit `b` at a 3-bit soft decision: 0 says a certain 0, 7 a certain 1. -/
def softCost (b : Bool) (v : Nat) : Nat := if b then 7 - min 7 v else min 7 v

/-- A path into a state: its cost and its inputs, the latest first; none where no path leads there. -/
abbrev Path := Option (Nat × List Bool)

/-- The better of two paths into one state; `tie` decides between equal ones. -/
def Path.better (tie : Bool) (a b : Path) : Path :=
  match a, b with
  | none, y => y
  | x, none => x
  | some x, some y => if x.1 < y.1 ∨ (x.1 = y.1 ∧ tie) then some x else some y

/-- One step of the Viterbi decoder over the 64 states, at the soft decisions `v0`, `v1`. -/
def viterbiStep (tie : Nat → Bool) (ps : List Path) (v0 v1 : Nat) : List Path :=
  (List.range 64).map (fun r' =>
    let b := r'.testBit 5
    let go := fun r => (ps.getD r none).map (fun p =>
      (p.1 + softCost (codeBits r b).1 v0 + softCost (codeBits r b).2 v1, b :: p.2))
    Path.better (tie r') (go (r' % 32 * 2)) (go (r' % 32 * 2 + 1)))

/-- The decoder over pairs of soft decisions; step `n` uses the ties from 64 × n on. -/
def viterbiRun (tie : Nat → Bool) : Nat → List Path → List Nat → List Path
  | n, ps, v0 :: v1 :: t => viterbiRun tie (n + 1) (viterbiStep (fun i => tie (64 * n + i)) ps v0 v1) t
  | _, ps, _ => ps

/-- The inputs of the best path from the zero state to the zero state, tail bits dropped. -/
def viterbi (tie : Nat → Bool) (soft : List Nat) : List Bool :=
  match (viterbiRun tie 0 ((List.range 64).map (fun r => if r = 0 then some (0, []) else none)) soft).getD 0 none with
  | some p => (p.2.drop 6).reverse
  | none => []

/-- Soft decisions whose hard decision the decoded bits contradict: the bits corrected (Table 5-3, BERR). -/
def corrected (bits : List Bool) (soft : List Nat) : Nat :=
  ((List.zip (fecEncode bits) soft).filter (fun e => e.1 != decide (4 ≤ e.2))).length

/-! The sync word (R82). -/

/-- Bits in which the low 24 bits of two words differ. -/
def syncErrors (a b : Nat) : Nat := ((List.range 24).filter (fun i => a.testBit i != b.testBit i)).length

/-! Symbols (R137). -/

/-- Deviations of one-bit symbols. -/
def devTwo (d : Int) (bs : List Bool) : List Int := bs.map (fun b => if b then d else -d)

/-- Deviations of 4-GFSK body symbols, two bits each, the first bit sent first. -/
def devFour (d : Int) : List Bool → List Int
  | a :: b :: t => (if a then (if b then -d else -(3 * d)) else (if b then 3 * d else d)) :: devFour d t
  | _ => []

/-- The deviations of a frame: head bits (preamble, sync word, header) and body bits, `d` the inner deviation. -/
def devFrame (mod4 : Bool) (d : Int) (head body : List Bool) : List Int :=
  if mod4 then devTwo (3 * d) head ++ devFour d body else devTwo d (head ++ body)

/-- The body bits of a frame: whitened, then encoded (R140, R141). -/
def bodyBits (fec white : Bool) (f : List Byte) : List Bool :=
  let bs := airBits (if white then whiten f else f)
  if fec then fecEncode bs else bs

/-! The wake call (R196, R197). -/

/-- The bits of a call: preamble, then word, class, target and CRC-8, each most significant bit first. -/
def callBits (pre word cls target : Nat) : List Bool :=
  let bs := beBytes 4 word ++ beBytes 1 cls ++ beBytes 2 target
  preambleBits pre ++ (bs ++ beBytes 1 (crc8 bs)).flatMap (fun b => bitsDown 8 b.toNat)

/-- Manchester chips: a 1 is carrier on, then off; a 0 off, then on. -/
def chipsOf (bs : List Bool) : List Bool := bs.flatMap (fun b => [b, !b])

/-! Decibels (R65). -/

/-- The largest `r` below 2^`fuel` + `r0` with r^10 × `den` ≤ `num`, its bits found from the highest. -/
def root10 (fuel num den r : Nat) : Nat :=
  match fuel with
  | 0 => r
  | f + 1 =>
    let r' := r + 2 ^ f
    if r' ^ 10 * den ≤ num then root10 f num den r' else root10 f num den r

/-- 10^(d ÷ 10) × 2^32, rounded down. -/
def dbFactor (d : Int) : Nat := root10 96 (10 ^ d.toNat * 2 ^ 320) (10 ^ (-d).toNat) 0

/-- A power changed by `d` dB. -/
def byDb (d : Int) (p : Nat) : Nat := if d = 0 then p else (p * dbFactor d + 2 ^ 31) / 2 ^ 32

end Sys2Proof.Machine
end

