-- ==== Sys2Proof/Machine/Record.lean ====
section
/-! DEFINITION. Pending entries, the frame ring, the held store, and how a lane or an entry ends with a record
(R101–R111). -/

namespace Sys2Proof.Machine

/-! Entries and lanes. -/

/-- An entry. -/
def State.ent (s : State) (e : Nat) : Option Entry := Tab.get (fun _ => none) s.ents e

/-- An entry set. -/
def State.setEnt (s : State) (e : Nat) (x : Entry) : State :=
  { s with ents := Tab.set (fun _ => none) s.ents e (some x) }

/-- An entry removed. -/
def State.dropEnt (s : State) (e : Nat) : State := { s with ents := Tab.drop e s.ents }

/-- The age ticket of an entry: its detection stamp, ties by chain and first bin (R87, R270). -/
def Entry.ticket (x : Entry) : Ticket := ⟨x.det, 6, (if x.chA then 0 else 512) + x.bin⟩

/-- A lane. -/
def State.lane (s : State) (l : Nat) : Option Lane := Tab.get (fun _ => none) s.lanes l

/-- A lane set. -/
def State.setLane (s : State) (l : Nat) (x : Lane) : State :=
  { s with lanes := Tab.set (fun _ => none) s.lanes l (some x) }

/-- A lane freed. -/
def State.dropLane (s : State) (l : Nat) : State := { s with lanes := Tab.drop l s.lanes }

/-- The lane has picked between both chains (R96). -/
def Lane.didPick (ln : Lane) : Bool := match ln.picked with
  | some v => v != 0xFF
  | none => false

/-- The entries listed, with their numbers. -/
def State.entList (s : State) : List (Nat × Entry) := s.ents.filterMap (fun p => p.2.map (fun x => (p.1, x)))

/-- The lanes that hold entries, with their numbers. -/
def State.laneList (s : State) : List (Nat × Lane) := s.lanes.filterMap (fun p => p.2.map (fun x => (p.1, x)))

/-- A recovery slot. -/
def State.rslot (s : State) (n : Nat) : Option Recov := Tab.get (fun _ => none) s.rslots n

/-- A recovery slot set. -/
def State.setRslot (s : State) (n : Nat) (x : Recov) : State :=
  { s with rslots := Tab.set (fun _ => none) s.rslots n (some x) }

/-- A recovery slot freed. -/
def State.dropRslot (s : State) (n : Nat) : State := { s with rslots := Tab.drop n s.rslots }

/-- The horizon H in samples (R74). -/
def State.horizon (s : State) : Nat := if s.single then 4096 else 2048

/-- A chain's Palette writes the Erg (CHZ_ERG_CFG.WR_n). -/
def State.writesErg (s : State) : Chain → Bool
  | .a => s.on CHZ_ERG_CFG.WR_A
  | .b => s.on CHZ_ERG_CFG.WR_B

/-- The chains whose bins a lane may read for an entry (R89, R96): in diversity both, or the forced one. -/
def State.readable (s : State) (x : Entry) : List Chain :=
  if s.diversity then
    match s.fld RFA_DIV_CFG.MODE with
    | 1 => [.a]
    | 2 => [.b]
    | _ => [.a, .b]
  else if x.chA then [.a] else [.b]

/-- The entry has history (R89). -/
def State.hasHistory (s : State) (x : Entry) : Bool := (s.readable x).any s.writesErg

/-- The samples chain `c` had written when the entry was posted. -/
def Entry.wrOn (x : Entry) : Chain → Nat
  | .a => x.wr
  | .b => x.wrB

/-- The age of an entry's rewind point on chain `c`, in samples that the chain has written since (R74). -/
def State.ageOn (s : State) (c : Chain) (x : Entry) : Nat := x.age0 + ((s.pal c).written - x.wrOn c)

/-- The age of an entry's rewind point, in samples written (R74, R89). -/
def State.entAge (s : State) (x : Entry) : Nat := s.ageOn (((s.readable x).find? s.writesErg).getD .a) x

/-! Channels, symbols and acknowledgement windows (R70, R132). -/

/-- 0 for chain A, 1 for chain B. -/
def chainIx : Chain → Nat
  | .a => 0 | .b => 1

/-- Fine units of a symbol at a rate code: 1.2 kbaud × 2^code (Table 4-5). -/
def symFine (rate : Nat) : Nat := 163840 / 2 ^ rate

/-- Twice the centre of bins `bin` to `bin + w − 1` in 12.5 kHz units (R70). -/
def State.centre2 (s : State) (c : Chain) (bin w : Nat) : Int :=
  2 * (s.fld (CHZ_WINn.CENTRE (chainIx c)) : Int) + 2 * bin + w - 400 -
    (if s.on (CHZ_WINn.HALF (chainIx c)) then 0 else 1)

/-- The window in which an acknowledgement's sync word must end (R132), in fine units. -/
def State.ackWindow (s : State) (o : RadioOp) : Nat × Nat :=
  let m := o.endAt + usFine (s.fld TXP_TURN.TURN) + (s.fld TXP_CTRL.PRE_LEN + 24) * symFine o.rate
  let tol := usFine (s.fld TXP_TURN.ACK_TOL)
  (m - tol, m + tol)

/-- A sync-word end inside the window. -/
def State.inAckWindow (s : State) (o : RadioOp) (t : Nat) : Bool :=
  decide ((s.ackWindow o).1 ≤ t) && decide (t ≤ (s.ackWindow o).2)

/-- An entry lies on the channel an operation sent on (R132). -/
def State.sameChannel (s : State) (o : RadioOp) (x : Entry) : Bool :=
  let c : Chain := if x.chA then .a else .b
  x.width == o.width && decide (((o.freq : Int) - s.centre2 c x.bin x.width).natAbs ≤ 1)

/-- A lane still decodes a frame whose sync word ended in the window (R132). -/
def State.ackDecoding (s : State) (o : RadioOp) : Bool :=
  s.laneList.any (fun l => match s.ent l.2.entry with
    | some x => s.sameChannel o x && (match x.sync with | some (_, t) => s.inAckWindow o t | none => false)
    | none => false)

/-- A transmission that awaits a frame still decoded at its window's close ends with NO_ACK once no such frame is left
(R132). -/
def State.ackAwait (s : State) : State :=
  s.opIds.foldl (fun s i => match s.op i with
    | some o =>
      if o.phase == .ackDecode && !s.ackDecoding o then (s.setNocov false).opEnd i Status.noAck (min o.units 0xFFFF) else s
    | none => s) s

/-! Powers (R65, R78). -/

/-- A power at a chain's bins referred to the ball: corrected for GAIN, and lowered by EXT_GAIN while LNA_BYP = 0 (R65). -/
def State.toBall (s : State) (c : Chain) (p : Nat) : Nat :=
  byDb (6 * (s.fld (RFA_RXn_CFG.GAIN (chainIx c)) : Int) -
    (if s.on RFA_EXT_CTL.LNA_BYP then 0 else signed 8 (s.fld (RFA_RXn_CFG.EXT_GAIN (chainIx c))))) p

/-! The frame ring (R103, R113). -/

/-- The 32-byte header of a frame record (Table 5-3). -/
def Rec.header (r : Rec) (len seqno : Nat) : List Byte :=
  leBytes 8 (stampWord r.stamp) ++ leBytes 2 len ++ leBytes 2 r.pidx ++ leBytes 1 r.status ++ leBytes 1 r.flags ++
    leBytes 1 r.path ++ leBytes 1 r.lane ++ leBytes 2 r.binw ++ leBytes 1 r.rssi ++ leBytes 1 r.alt ++ leBytes 4 r.fofs ++
    leBytes 2 r.phy ++ leBytes 1 r.snr ++ leBytes 1 r.berr ++ leBytes 2 seqno ++ leBytes 2 r.link

/-- The pad record that fills the ring's end (R103 step 2). -/
def padHeader (len seqno : Nat) : List Byte :=
  (⟨0, 0xFFFF, 0, 1, 0, 0xFF, 0, 0, 0, 0, 0, 0, 0, 0xFFFF, []⟩ : Rec).header len seqno

/-- The bytes a record takes in the ring. -/
def Rec.size (r : Rec) : Nat := 32 + 8 * ceilDiv r.data.length 8

/-- A record R101 would write. -/
def State.wanted (s : State) (r : Rec) : Bool :=
  if r.status = Status.fcsFail ∨ r.status = Status.headerFail then s.on LANE_CTRL.KEEP_BAD
  else if r.status = Status.laneStarved then s.on LANE_CTRL.STARVE_REC
  else true

/-- A record written to the ring, after a pad where it does not fit before the end, or discarded with FULL (R103). The
SEQNO it took. -/
def State.writeRecord (s : State) (r : Rec) : State × Option Nat :=
  let base := s.fld LANE_RING_BASE.BASE
  let size := s.fld LANE_RING_SIZE.SIZE
  let head := s.fld LANE_RING_HEAD.HEAD
  let free := (s.fld LANE_RING_TAIL.TAIL + 2 * size - head - 8) % size
  let wrap := decide (size - head < r.size)
  let need := if wrap then size - head + r.size else r.size
  if free < need then (s.raise LANE_RING_HEAD.FULL LANE_RING_HEAD.FULL_CNT, none)
  else
    let s := if wrap ∧ 32 ≤ size - head then
        s.devWrite (base + head) (padHeader (size - head - 32) ((s.seqno + 0xFFFF) % 0x10000))
      else s
    let at_ := if wrap then 0 else head
    let s := s.devWrite (base + at_)
      (r.header r.data.length s.seqno ++ padTo (8 * ceilDiv r.data.length 8) r.data)
    let n := s.seqno
    let s := { s with seqno := (n + 1) % 0x10000 }
    let s := s.setFld LANE_RING_HEAD.HEAD ((at_ + r.size) % size)
    (s.signalRing, some n)

/-- A record written when R101 asks for it. -/
def State.emit (s : State) (r : Rec) : State := if s.wanted r then (s.writeRecord r).1 else s

/-- LANE_CNT_OK and LANE_CNT_FCS (R105). -/
def State.countFrame (s : State) (status : Nat) : State :=
  if status = Status.ok then s.incMod LANE_CNT_OK.COUNT
  else if status = Status.fcsFail ∨ status = Status.headerFail then s.incMod LANE_CNT_FCS.COUNT
  else s

/-- A starved entry or lane counted (R104). -/
def State.countStarved (s : State) : State :=
  (s.raise LANE_STARVE_CNT.STARVED LANE_STARVE_CNT.OCC_CNT).incMod LANE_STARVE_CNT.TOTAL

/-- SEQNO, or 0xFFFF, of the stronger frame, given to a recovered frame's LINK (R111). -/
def linkOf (seqno : Option Nat) : Nat := seqno.getD 0xFFFF

/-! Ends. -/

/-- Width code of Table 5-3 for 1, 2, 4 or 8 bins. -/
def widthCode (w : Nat) : Nat := if w = 1 then 0 else if w = 2 then 1 else if w = 4 then 2 else 3

/-- The held records whose stronger entry is `e`, and those that wait for each of them in turn, written (R106). -/
def State.releaseFrom : Nat → State → Nat → State
  | 0, s, _ => s
  | f + 1, s, e =>
    let hs := s.held.filter (fun h => h.strong == e)
    let s := { s with held := s.held.filter (fun h => h.strong != e) }
    hs.foldl (fun s h => State.releaseFrom f (if h.keep then (s.writeRecord h.record).1 else s) h.weak) s

/-- Held records of weaker entries whose stronger entry `e` has ended without a request are written, unless `e`'s own record
is held still: they follow it then (R106). -/
def State.releaseHeld (s : State) (e : Nat) : State :=
  if s.held.any (fun h => h.weak == e && h.keep) then s else State.releaseFrom (s.held.length + 1) s e

/-- The later entries whose collision mark names `e`, those that a lane decodes first (R106). -/
def State.stronger (s : State) (e : Nat) : List (Nat × Entry) :=
  let xs := s.entList.filter (fun p => p.2.coll == some e)
  xs.filter (fun p => p.2.lane.isSome) ++ xs.filter (fun p => p.2.lane.isNone)

/-- A record written when R101 asks for it, with the SEQNO it took. -/
def State.emitSeq (s : State) (r : Rec) : State × Option Nat := if s.wanted r then s.writeRecord r else (s, none)

/-- The outcome of entry `e` written, or held while a marked stronger frame decodes (R106). The SEQNO it took. An entry that
has not ended with OK is remembered for the stronger frame's request (R107). -/
def State.outcome (s : State) (e : Nat) (x : Entry) (r : Rec) : State × Option Nat :=
  match s.stronger e with
  | [] => s.emitSeq r
  | (t, y) :: _ =>
    if r.status = Status.ok ∨ x.slot.isSome then s.emitSeq r
    else
      let keep := s.wanted r && y.lane.isSome && decide ((s.held.filter (·.keep)).length < 16)
      let q := if keep then (s, none) else s.emitSeq r
      ({ q.1 with held := q.1.held ++ [⟨e, t, x, keep, r⟩] }, q.2)

/-- A recovery slot freed when its second lane ends: counted, its fallback record discarded (R110, R111). -/
def State.recovDone (s : State) (slot status : Nat) : State :=
  let s := s.dropRslot slot
  s.incSat (if status = Status.ok then LANE_RECOV_STAT.OK_CNT else LANE_RECOV_STAT.FAIL_CNT)

/-- A recovery request or slot given up: W's fallback record, kept because R101 would write it, is written (R108). -/
def State.fallback (s : State) (q : Recov) : State :=
  match q.fallback with
  | some r => (s.writeRecord r).1
  | none => s

/-- A group whose GRP_REQ bit is clear releases its claim when its last lane has ended (R93). -/
def State.groupRelease (s : State) (g : Nat) : State :=
  if s.holds (.group g) && !(s.fld LANE_ALLOC_CFG.GRP_REQ).testBit g && s.laneList.all (fun l => l.1 / 8 != g) then
    s.withdraw (.group g)
  else s

/-- PATH of a record (Table 5-3): the chain, the chains that detected, and whether a pick differs from the partner's LANT. -/
def State.pathOf (s : State) (x : Entry) (c : Chain) (picked : Bool) : Nat :=
  let cb := b2n (c == .b)
  let differs := picked && x.pidx != 0xFFFF && s.partnerValid x.pidx && s.num (partner x.pidx + 0x32) 1 / 2 % 2 != cb
  cb + 2 * cb + 4 * b2n x.chA + 8 * b2n x.chB + 16 * b2n differs

/-- What lane `l` could say of its entry `x` when something other than the frame ended it: what it had not measured, or had
measured unseen, are free values; an RSSI in −dBm is one. DESIGN CHOICE: FLAGS.GAP stays 0 for an end by a forced tune, an
unlock or a CK_RADIO stop (log entry 175), and a lane that starves keeps its number, stamp and measured RSSI (log entry
176). -/
def State.cutRecord (s : State) (l : Nat) (ln : Lane) (x : Entry) (status : Nat) : Rec :=
  let m := fun i => Config.unmeasured (8 * s.free + i)
  { stamp := match x.sync with | some (_, t) => t | none => m 0
    pidx := x.pidx
    status := status
    flags := b2n s.qual * 128 + b2n x.slot.isSome * 64 + b2n ln.behind * 32 + b2n x.coll.isSome * 16 + b2n ln.switch * 4
    path := s.pathOf x ln.chain ln.didPick
    lane := l
    binw := x.bin + widthCode x.width * 2 ^ 9 + (match x.sync with | some (i, _) => i | none => m 1 % 4) * 2 ^ 11
    rssi := m 2 % 256, alt := ln.picked.getD 0xFF, fofs := m 4 % 2 ^ 32
    phy := match ln.hdr with | some h => h % 2 ^ 16 | none => m 5 % 2 ^ 16
    snr := m 6 % 256, berr := m 7 % 256
    link := match x.slot.bind s.rslot with | some q => q.seqno | none => 0xFFFF
    data := [] }

/-- The lane, its entry and its recovery slot after the entry's outcome. -/
def State.laneFree (s : State) (l e status : Nat) : State :=
  let slot := (s.ent e).bind (·.slot)
  let s := (s.dropLane l).dropEnt e
  let s := match slot with
    | some n => s.recovDone n status
    | none => s
  let s := s.groupRelease (l / 8)
  if s.laneList.isEmpty then s.leaveIdle else s

/-- A lane ended by something other than its frame, with the status given and a header-only record (R97, R98, R112). -/
def State.laneCut (s : State) (l status : Nat) : State :=
  match s.lane l with
  | none => s
  | some ln =>
    match s.ent ln.entry with
    | none => s.dropLane l
    | some x =>
      let r := s.cutRecord l ln x status
      let s := s.draw
      let s := if status = Status.laneStarved then s.countStarved else s
      let s := (s.outcome ln.entry x r).1
      ((s.laneFree l ln.entry status).releaseHeld ln.entry).ackAwait

/-- An entry without a lane leaves as starved: counted and reported (R88, R89, R101). The fields that no lane measured are
free values. -/
def State.starve (s : State) (x : Entry) : State :=
  let m := fun i => Config.unmeasured (8 * s.free + i)
  s.draw.countStarved.emit
    { stamp := x.start, pidx := x.pidx, status := Status.laneStarved
      flags := b2n s.qual * 128 + b2n x.coll.isSome * 16 + 2
      path := m 0 % 4 + 4 * b2n x.chA + 8 * b2n x.chB
      lane := 0xFF
      binw := x.bin + widthCode x.width * 2 ^ 9 + (match x.sync with | some (i, _) => i | none => m 1 % 4) * 2 ^ 11
      rssi := x.strength, alt := 0xFF, fofs := m 4 % 2 ^ 32, phy := m 5 % 2 ^ 16, snr := m 6 % 256, berr := m 7 % 256
      link := 0xFFFF, data := [] }

/-- An entry without a lane that goes while a later entry S names it: S's request may still take its data (R107). -/
def State.remember (s : State) (e : Nat) : State :=
  match s.ent e, s.stronger e with
  | some x, (t, _) :: _ =>
    { s with held := s.held ++ [⟨e, t, x, false, ⟨0, 0, 0, 0, 0, 0, 0, 0, 0, 0, 0, 0, 0, 0, []⟩⟩] }
  | _, _ => s

/-- An entry removed; held records that waited for it are written (R106). -/
def State.removeEnt (s : State) (e : Nat) : State := ((s.remember e).dropEnt e).releaseHeld e

end Sys2Proof.Machine
end

