-- ==== Sys2Proof/Machine/Palette.lean ====
section
/-! DEFINITION. The Palette: windows and channels, the Erg, the energy store, detection, the pending list and the lane
allocator (R70–R92). -/

namespace Sys2Proof.Machine

/-! Windows and channels. -/

/-- A chain's half of CHZ_DET_CFG; in diversity chain B uses chain A's (R72). -/
def State.detCfg (s : State) (c : Chain) : Nat :=
  let w := (s.reg CHZ_DET_CFG.off).toNat
  if c == .b && !s.diversity then w / 2 ^ 16 else w % 2 ^ 16

/-- Bins of a width code: 1, 2, 4 or 8. -/
def widthOf (code : Nat) : Nat := 2 ^ code

/-- Channel width in bins. -/
def State.detWidth (s : State) (c : Chain) : Nat := widthOf (natBits (s.detCfg c) 15 14)

/-- Symbol rate code. -/
def State.detRate (s : State) (c : Chain) : Nat := natBits (s.detCfg c) 13 11

/-- Alignment a of the channel grid. -/
def State.detAlign (s : State) (c : Chain) : Nat := natBits (s.detCfg c) 6 4

/-- DET_LEN. -/
def State.detLen (s : State) (c : Chain) : Nat := natBits (s.detCfg c) 3 0

/-- First bin of channel `ch` (R72). -/
def State.chanBin (s : State) (c : Chain) (ch : Nat) : Nat := s.detAlign c + s.detWidth c * ch

/-- A channel number that exists: its last bin is 399 or lower (R72). -/
def State.chanOk (s : State) (c : Chain) (ch : Nat) : Bool := decide (s.chanBin c ch + s.detWidth c ≤ 400)

/-- The mask word of a group of 16 bins (CHZ_BINMASK). -/
def State.binMask (s : State) (c : Chain) (g : Nat) : Nat := Tab.get (fun _ => 0xFFFF) (s.pal c).mask g

/-- A bin's mask bit. -/
def State.binOn (s : State) (c : Chain) (b : Nat) : Bool := (s.binMask c (b / 16)).testBit (b % 16)

/-- The window lies in the 840–960 MHz band (R71). -/
def State.highBand (s : State) (c : Chain) : Bool := decide (67200 ≤ s.fld (CHZ_WINn.CENTRE (chainIx c)))

/-- Whether bin `b` overlaps the channel of centre `freq` and `w` bins: more than its edge (R120). Edges in 6.25 kHz steps
from the bin's low edge. -/
def State.overlaps (s : State) (c : Chain) (freq w : Nat) (b : Int) : Bool :=
  let lo : Int := 2 * b + 2 * (s.fld (CHZ_WINn.CENTRE (chainIx c)) : Int) - 400 -
    (if s.on (CHZ_WINn.HALF (chainIx c)) then 0 else 1)
  decide (lo < (freq : Int) + w) && decide ((freq : Int) - w < lo + 2)

/-- The bins of −56 to 455 that overlap a channel. -/
def State.overlapBins (s : State) (c : Chain) (freq w : Nat) : List Int :=
  ((List.range 512).map (fun (i : Nat) => (i : Int) - 56)).filter (fun b => s.overlaps c freq w b)

/-- The smallest of 1, 2, 4, 8 that is at least `n`. -/
def spanSize (n : Nat) : Nat := if n ≤ 1 then 1 else if n ≤ 2 then 2 else if n ≤ 4 then 4 else 8

/-- The group of usable bins (first, size) that covers a channel centred at `freq` × 6.25 kHz (R79, R120); none when a bin of the channel is not usable
or the channel lies outside the bins. -/
def State.span (s : State) (c : Chain) (freq w : Nat) : Option (Nat × Nat) :=
  let bs := s.overlapBins c freq w
  match bs with
  | [] => none
  | b0 :: _ =>
    if bs.all (fun b => decide (0 ≤ b) && decide (b ≤ 399)) &&
        s.highBand c == decide (134400 ≤ freq) then
      let n := bs.length
      if n ≤ 8 then
        let k := spanSize n
        some (min b0.toNat (400 - k), k)
      else some (b0.toNat + (n - 8) / 2, 8)
    else none

/-! Energy (R78–R80, R413). -/

/-- The energy code of a mean power num ÷ den in 10^-15 mW: E = round(2 × (P + 140)), 0–254. The code reaches k exactly
when P ≥ (k ÷ 2 − 140.25) dBm, that is when (num ÷ den)^40 ≥ 10^(2k + 39). -/
def energyCode (num den : Nat) : Nat :=
  ((List.range 254).filter (fun k => decide (den ^ 40 * 10 ^ (2 * (k + 1) + 39) ≤ num ^ 40))).length

/-- Summed power of the bins `bin` to `bin + w − 1` of a block. -/
def Block.span (k : Block) (bin w : Nat) : Nat :=
  ((List.range w).map (fun i => Tab.get (fun _ => 0) k.pow (bin + 56 + i))).foldl (· + ·) 0

/-- The span energy of a block (R78). -/
def Block.energy (k : Block) (bin w : Nat) : Nat := energyCode (k.span bin w) k.n

/-- A valid block that is not self (R78). -/
def Block.good (k : Block) : Bool := !k.gap && !k.self

/-- The largest span energy of the last `n` completed blocks that are valid and not self; 255 where none is left (R80). -/
def State.energyMax (s : State) (c : Chain) (bin w n : Nat) : Nat :=
  let ks := ((s.pal c).blocks.take n).filter Block.good
  if 400 < bin + w ∨ ks = [] then 255 else (ks.map (fun k => k.energy bin w)).foldl max 0

/-- The channel's floor at preamble start `p` (R413). -/
def State.floorAt (s : State) (c : Chain) (bin w p : Nat) : Option Nat :=
  let es := (((s.pal c).blocks.filter (fun k => k.good && decide (k.stop ≤ p))).take 32).map (fun k => k.energy bin w)
  match es with
  | [] => none
  | e :: t => some (t.foldl min e)

/-- A power in 10^-15 mW is at least `floor` (an energy code) plus `m` × 0.25 dB (R81). -/
def aboveFloor (power floor m : Nat) : Bool := decide (10 ^ (40 + 2 * floor + m) ≤ power ^ 40)

/-! Gaps (R57, R58, R68, R76). -/

/-- The chain's Palette writes gap markers: its synthesiser tunes or calibrates, its IQ calibration runs, or in diversity a
tune of SYA has not locked on both or an unlock of SYA lasts (R48, R76). -/
def State.gapNow (s : State) (c : Chain) : Bool :=
  (s.diversity && s.sya.wide) || (match c with
    | .a => s.sya.phase == .settling || s.on RFA_CAL_CTRL.RXA_IQ
    | .b => s.syb.phase == .settling || s.on RFA_CAL_CTRL.RXB_IQ)

/-- A case that writes gap markers: GAP set and counted once (R76), if a Palette writes them. DESIGN CHOICE: a running
Palette with WR_n = 0 counts its cases too, although no marker reaches the Erg (log entry 171). -/
def State.gapCase (s : State) (cs : List Chain) : State :=
  if cs.any s.palRuns then s.raise CHZ_ERG_STAT.GAP CHZ_ERG_STAT.GAP_CNT else s

/-! The Erg (R74–R77, R345). -/

/-- The code of a magnitude (R75). -/
def compand (m : Nat) : Nat :=
  if m < 32 then m
  else
    let g := Nat.log2 m - 3
    16 * g + (m >>> (g - 1)) % 16

/-- The byte of one component (R75): sign in [7], code in [6:0]. -/
def compByte (x : Int) : Byte :=
  let m := min x.natAbs 2047
  BitVec.ofNat 8 ((if x < 0 then 128 else 0) + compand m)

/-- The address of the bank word that holds position `p` of bin `i − 56` (R74). -/
def State.ergAddr (s : State) (c : Chain) (i p : Nat) : Nat :=
  if s.single then 0x400000 + i * 0x2000 + 2 * (p % 4096 / 4 * 4)
  else 0x400000 + chainIx c * 0x200000 + i * 0x1000 + 2 * (p % 2048 / 4 * 4)

/-- A gap marker's two bytes. -/
def gapBytes : List Byte := [0x80#8, 0x80#8]

/-- The sample of bin key `i` at position `p` added to its bank word, which is written once it is complete (R345). A word
begun in its middle keeps what a stop within it had written (R74, Table 4-3); otherwise its earlier positions are gaps. -/
def State.ergSample (s : State) (c : Chain) (i p : Nat) (bs : List Byte) : State :=
  let x := s.pal c
  let w := Tab.get (fun _ => []) x.part i
  let w := if w = [] ∧ p % 4 ≠ 0 ∧ x.stopPos / 4 = p / 4 then s.bytes (s.ergAddr c i p) (2 * (p % 4)) else w
  let w := w ++ (List.replicate (p % 4 - w.length / 2) gapBytes).flatten ++ bs
  if w.length < 8 then s.setPal c { x with part := Tab.set (fun _ => []) x.part i w }
  else (s.setPal c { x with part := Tab.drop i x.part }).devWrite (s.ergAddr c i p) (w.take 8)

/-- The last, incomplete words written with gap markers for the missing samples (R345). -/
def State.ergFlush (s : State) (c : Chain) : State :=
  let x := s.pal c
  let s := s.setPal c { x with part := [], stopPos := s.pos }
  let p := s.pos - 1
  x.part.foldl (fun s e =>
    s.devWrite (s.ergAddr c e.1 p) ((e.2 ++ (List.replicate 4 gapBytes).flatten).take 8)) s

/-- A bin's 12-bit I and Q in an observation. -/
def obsAt (o : ChainObs) (i : Nat) : Int × Int :=
  match o.iq.find? (fun e => e.1 == i) with
  | some e => e.2
  | none => (0, 0)

/-- One position written in every bin of a chain: samples, or gap markers. -/
def State.ergWrite (s : State) (c : Chain) (gap : Bool) (o : ChainObs) : State :=
  (List.range 512).foldl (fun s i =>
    s.ergSample c i s.pos
      (if gap then gapBytes else [compByte (obsAt o i).1, compByte (obsAt o i).2])) s

/-- Powers of one position added to the block in progress. -/
def addPow (t : Tab Nat) (ps : List (Nat × Nat)) : Tab Nat :=
  ps.foldl (fun t e => Tab.set (fun _ => 0) t e.1 (Tab.get (fun _ => 0) t e.1 + e.2)) t

/-- One position of the energy store. DEDUCED: blocks of 16 begin at positions that are multiples of 16; one that a start,
stop or outage cuts is invalid. A PA_EN edge has marked the block in progress already (`selfMark`). -/
def Palette.energyStep (x : Palette) (pos now : Nat) (gap self : Bool) (pow : List (Nat × Nat)) : Palette :=
  let k := if x.cur.n = 0 then { Block.zero with start := now, self := x.cur.self } else x.cur
  let k := { k with n := k.n + 1, gap := k.gap || gap, self := k.self || self, pow := addPow k.pow pow, stop := now }
  if pos % 16 = 15 then
    { x with cur := .zero, blocks := ({ k with gap := k.gap || decide (k.n < 16) } :: x.blocks).take 128 }
  else { x with cur := k }

/-- PA_EN is or has just been high: the blocks in progress of both chains are self (R78). -/
def State.selfMark (s : State) : State :=
  [Chain.a, Chain.b].foldl (fun s c => s.setPal c { s.pal c with cur := { (s.pal c).cur with self := true } }) s

/-- The byte at which a recovery slot keeps its sample of position `p` (R109). -/
def State.residualAddr (s : State) (slot : Nat) (q : Recov) (p : Nat) : Nat :=
  s.fld LANE_RECOV_CFG.RBASE * 0x8000 + 0x8000 * slot + 2 * ((p - q.start) * q.width)

/-- The position at which a residual buffer is full (R109, R110). -/
def Recov.full (q : Recov) : Nat := q.start + 0x4000 / q.width

/-- The running recovery slots append the live samples of the present position (R109 step 3); a gap marker stops a slot
(Table 5-6). -/
def State.appendLive (s : State) (c : Chain) (gap : Bool) (o : ChainObs) : State :=
  (List.range 8).foldl (fun s n =>
    match s.rslot n with
    | none => s
    | some q =>
      if q.chain != c || q.lim.isSome || decide (q.full ≤ s.pos) then s
      else if gap then s.setRslot n { q with lim := some s.pos }
      else s.store (s.residualAddr n q s.pos) ((List.range q.width).flatMap (fun i =>
        let z := obsAt o (q.bin + 56 + i)
        [compByte z.1, compByte z.2]))) s

/-- A chain's Palette writes the Erg: it runs, WR_n = 1, and the Erg-writing claim is held (R73, R77). -/
def State.ergWrites (s : State) (c : Chain) : Bool := s.palRuns c && s.writesErg c && s.holds .erg

/-- The runs of clipped samples that begin in `l` after a sample that was clipped or not (R66). -/
def clipRuns : Bool → List Bool → Nat
  | _, [] => 0
  | p, b :: t => b2n (b && !p) + clipRuns b t

/-- The ADC samples of a position: CLIP set and each new run of clipped ones counted (R66). -/
def State.clipSample (s : State) (c : Chain) (l : List Bool) : State :=
  if s.chainOn c then
    let s' := (List.range (clipRuns (s.pal c).clip l)).foldl (fun s _ =>
      s.raise (RFA_RXn_CFG.CLIP (chainIx c)) (RFA_RXn_CFG.CLIP_CNT (chainIx c))) s
    s'.setPal c { s'.pal c with clip := l.getLastD false }
  else s.setPal c { s.pal c with clip := false }

/-- A chain at one sample position (R65, R66, R74–R78). -/
def State.chainSample (s : State) (c : Chain) (o : ChainObs) : State :=
  let s := s.clipSample c o.clip
  if s.palRuns c then
    let gap := s.gapNow c || (s.pal c).marker
    let pow := o.pow.map (fun e => (e.1, s.toBall c e.2))
    let x := (s.pal c).energyStep s.pos s.stamp gap s.pins.paEn (if gap then [] else pow)
    let s := (s.setPal c { x with marker := false, gapAt := if gap then s.stamp else x.gapAt }).appendLive c gap o
    if s.ergWrites c then
      let s := s.setPal c { s.pal c with written := (s.pal c).written + 1 }
      s.ergWrite c gap o
    else s
  else s

/-- `n` positions skipped by an outage of CK_RADIO: gap markers in every bin, blocks invalid (R76, R91). A whole ring is
enough when the outage is longer. -/
def State.skipPositions (s : State) (n : Nat) : State :=
  let m := min n s.horizon
  let s := { s with pos := s.pos + (n - m) }
  (List.range m).foldl (fun s _ =>
    let s := [Chain.a, Chain.b].foldl (fun s c =>
      if s.palRuns c then
        let x := (s.pal c).energyStep s.pos s.stamp true false []
        let s := s.setPal c { x with gapAt := s.stamp, written := (s.pal c).written + b2n (s.ergWrites c) }
        if s.ergWrites c then s.ergWrite c true ⟨[], [], []⟩ else s
      else s) s
    { s with pos := s.pos + 1 }) s

/-! Detection and the pending list (R81–R90). -/

/-- A partner's receive window that a detection falls inside: open in time, and on its channel (R85). DEDUCED: the
window's centre lies within half a raster step of the channel's centre, and the widths are equal. -/
def State.inWindow (s : State) (w : RxWin) (c : Chain) (bin width start : Nat) : Bool :=
  (w.chain == c || s.diversity) && w.width == width && decide (w.start ≤ start) && decide (start < w.stop) &&
    decide ((2 * (w.freq : Int) - s.centre2 c bin width).natAbs ≤ 1)

/-- PCLASS of a partner entry. -/
def State.pclass (s : State) (i : Nat) : Nat := s.num (partner i + 0x0D) 1 % 4

/-- A detection on channel centre `f` within half a raster step. -/
def State.onFreq (s : State) (f : Nat) (c : Chain) (bin width : Nat) : Bool :=
  decide ((2 * (f : Int) - s.centre2 c bin width).natAbs ≤ 1)

/-- The members in whose cell, slot and channel, a detection falls (R173). -/
def State.cellWins (s : State) (c : Chain) (bin width start : Nat) : List Nat :=
  match s.ownSf with
  | none => []
  | some _ => s.members.filter (fun i =>
      (match s.cellOf i with
        | some (_, ch, _) => (s.inCell i start).isSome && s.onFreq (s.planFreq ch) c bin width
        | none => false) && s.cellOn i c)

/-- The upstream coordinator, when the detection could be its beacon: on the beacon frequency, the sync word to end in the
window (R43, R180). -/
def State.beaconWin (s : State) (c : Chain) (bin width start : Nat) : List Nat :=
  let e := start + (s.fld TXP_CTRL.PRE_LEN + 24) * symFine (s.detRate c)
  if s.upSync && (s.roleOf c).testBit 1 && s.onFreq (natBits (s.up 0x0C 4) 16 0) c bin width &&
      decide (s.upWindow.1 ≤ e) && decide (e ≤ s.upWindow.2) then
    [s.fld MAC_ROLE.UPIDX]
  else []

/-- Class and partner index of a detection (R85): the windows of RXWIN, the members' cells, the beacon window. -/
def State.classify (s : State) (c : Chain) (bin width start : Nat) : Nat × Nat :=
  let ws := s.wins.filterMap (fun p => p.2.bind (fun w =>
    if s.inWindow w c bin width start then some w.pidx else none)) ++
    s.cellWins c bin width start ++ s.beaconWin c bin width start
  let ws := (ws.filter s.partnerValid).map (fun i => (s.pclass i, i))
  match pickBest (fun a b => decide (a.1 < b.1)) ws with
  | some x => x
  | none => (s.fld CHZ_PENDING_POLICY.UNEXP_CLASS, 0xFFFF)

/-- The stamps of a candidate's correlation span: DET_LEN + 8 symbols from its preamble start, 2 symbols of filter delay
before the detection stamp (R81). -/
def State.corrSpan (s : State) (d : Cand) : Nat × Nat :=
  (d.start, d.start + (s.detLen d.chain + 8) * symFine (s.detRate d.chain))

/-- No sample of a candidate's correlation span lies in a self block (R81). -/
def State.spanClean (s : State) (d : Cand) : Bool :=
  let x := s.pal d.chain
  let sp := s.corrSpan d
  x.blocks.all (fun k => !k.self || decide (k.stop < sp.1) || decide (sp.2 < k.start)) &&
    (!x.cur.self || x.cur.n == 0 || decide (sp.2 < x.cur.start))

/-- The power of a candidate, referred to the ball (R65). -/
def State.candPower (s : State) (d : Cand) : Nat := s.toBall d.chain d.power

/-- What a channel's detector asks of a candidate's samples: its settings and its thresholds (R81). -/
def State.strongEnough (s : State) (d : Cand) : Bool :=
  let bin := s.chanBin d.chain d.chan
  let w := s.detWidth d.chain
  s.chanOk d.chain d.chan && (List.range w).all (fun i => s.binOn d.chain (bin + i)) &&
    decide (s.fld CHZ_DET_THRESH.CORR ≤ d.corr) &&
    (match s.floorAt d.chain bin w d.start with
      | some f => aboveFloor (s.candPower d) f (s.fld CHZ_DET_THRESH.SNR_MIN)
      | none => false) &&
    decide (s.fld CHZ_DET_THRESH.FLOOR ≤ energyCode (s.candPower d) 1)

/-- The detector's conditions of R81 on a candidate, its channel and the chain's state. -/
def State.detects (s : State) (d : Cand) : Bool :=
  let detOn := match d.chain with | .a => s.on CHZ_CTRL.DET_A | .b => s.on CHZ_CTRL.DET_B
  s.palRuns d.chain && detOn && !s.gapNow d.chain && s.strongEnough d && s.spanClean d

/-- The lowest enabled sync set whose word the 24 received bits match within MAXERR, at a stamp within 88 symbols of the
preamble start (R82). -/
def State.syncSet (s : State) (c : Chain) (start word t : Nat) : Option Nat :=
  if t ≤ start + 88 * symFine (s.detRate c) then
    (List.range 3).find? (fun i => (natBits (s.detCfg c) 9 7).testBit i &&
      decide (syncErrors word (s.fld (CHZ_SYNCn.WORD i)) ≤ s.fld (CHZ_SYNCn.MAXERR i)))
  else none

/-- The detection stamp: DET_LEN + 10 symbols after the preamble start (R81). -/
def State.detStamp (s : State) (d : Cand) : Nat :=
  d.start + (s.detLen d.chain + 10) * symFine (s.detRate d.chain)

/-- The entry of a detection (R85); its rewind point lies 2 symbols before the preamble start. -/
def State.entryOf (s : State) (d : Cand) (coll : Option Nat) : Entry :=
  let bin := s.chanBin d.chain d.chan
  let w := s.detWidth d.chain
  let cl := s.classify d.chain bin w d.start
  let age := s.pos - d.pos + ceilDiv (2 * symFine (s.detRate d.chain) * 100) 1572864
  { chA := d.chain == .a, chB := d.chain == .b, chan := d.chan, bin := bin, width := w, det := s.detStamp d
    start := d.start
    age0 := age, wr := s.palA.written, wrB := s.palB.written, rpos := s.pos - age
    strength := energyCode (s.candPower d) 1
    sync := d.sync.bind (fun m => (s.syncSet d.chain d.start m.1 m.2).map (fun i => (i, m.2)))
    coll := coll, cls := cl.1, pidx := cl.2
    promoted := false, fresh := true, lane := none, slot := none, endAt := none }

/-- The chain an entry counts as for the order of R86 and the minimum shares. -/
def Entry.chainKey (x : Entry) : Nat := if x.chA then 0 else 1

/-- The open entries of a channel on a chain: those listed whose frame end, once a lane has decoded the length, is still to
come (R84). -/
def State.openOn (s : State) (c : Chain) (ch : Nat) : List (Nat × Entry) :=
  s.entList.filter (fun p => p.2.chan == ch && p.2.slot.isNone && (match c with | .a => p.2.chA | .b => p.2.chB) &&
    (match p.2.endAt with
      | some t => decide (s.stamp < t)
      | none => true))

/-- Lanes held by entries of a chain (R86); in diversity every entry counts as chain A. -/
def State.lanesOf (s : State) (ck : Nat) : Nat :=
  (s.laneList.filter (fun l => match s.ent l.2.entry with
    | some x => (if s.diversity then 0 else x.chainKey) == ck
    | none => false)).length

/-- Rank step of an entry (R86): 1 promoted or recovery, 2 below its chain's minimum, 3 the rest. -/
def State.rankStep (s : State) (x : Entry) : Nat :=
  let ck := if s.diversity then 0 else x.chainKey
  if x.promoted || x.slot.isSome then 1
  else if s.lanesOf ck < (if ck = 0 then s.fld CHZ_PENDING_POLICY.MIN_A else s.fld CHZ_PENDING_POLICY.MIN_B) then 2
  else 3

/-- Ties: chain A first, then the lower first bin (R86). -/
def Entry.tie (x y : Entry) : Bool :=
  if x.chainKey ≠ y.chainKey then decide (x.chainKey < y.chainKey) else decide (x.bin ≤ y.bin)

/-- Order of step 3 (R86): by ORDER, then by detection stamp, then the tie rule. -/
def State.orderBefore (s : State) (x y : Entry) : Bool :=
  let byDet := if x.det ≠ y.det then decide (x.det < y.det) else x.tie y
  match s.fld CHZ_PENDING_POLICY.ORDER with
  | 1 => if x.strength ≠ y.strength then decide (y.strength < x.strength) else byDet
  | 2 => if x.cls ≠ y.cls then decide (x.cls < y.cls) else byDet
  | _ => byDet

/-- The allocator's rank (R86). DESIGN CHOICE: entries of step 2 of both chains rank among each other in the order of step 3
(log entry 170). -/
def State.entBefore (s : State) (x y : Entry) : Bool :=
  let a := s.rankStep x
  let b := s.rankStep y
  if a ≠ b then decide (a < b)
  else if a = 1 then (if x.det ≠ y.det then decide (x.det < y.det) else x.tie y)
  else s.orderBefore x y

/-- Entries waiting without a lane, recovery entries apart (CHZ_PENDING_STAT.COUNT). -/
def State.waiting (s : State) : List (Nat × Entry) := s.entList.filter (fun p => p.2.lane.isNone && p.2.slot.isNone)

/-- The lowest number that no entry uses and no collision mark names. -/
def State.freeEnt (s : State) : Nat :=
  ((List.range (2 * s.ents.length + 1)).find? (fun e =>
    (s.ent e).isNone && s.entList.all (fun p => p.2.coll != some e))).getD (2 * s.ents.length + 1)

/-- A new entry posted; with 512 waiting, the lowest-ranked of them or the new one leaves as starved (R88). -/
def State.postEntry (s : State) (x : Entry) : State :=
  if s.waiting.length < 512 then s.setEnt s.freeEnt x
  else
    let s := s.raise CHZ_PENDING_STAT.OVERFLOW CHZ_PENDING_STAT.OVF_CNT
    match pickBest (fun a b => s.entBefore b.2 a.2) (s.waiting.filter (fun p => !p.2.promoted)) with
    | some p =>
      if s.entBefore x p.2 && !s.entBefore p.2 x then
        let s := (s.removeEnt p.1).starve p.2
        s.setEnt s.freeEnt x
      else s.starve x
    | none => s.starve x

/-- A candidate judged: merged with the other chain's detection in diversity (R83), posted, or kept out by the collision
rule (R84). -/
def State.candidate (s : State) (d : Cand) : State :=
  if s.detects d then
    let two := 2 * symFine (s.detRate d.chain)
    let near := fun (x : Entry) => decide (x.start ≤ d.start + two) && decide (d.start ≤ x.start + two)
    let other := if s.diversity then
        (s.entList.filter (fun p => p.2.chan == d.chan && p.2.slot.isNone && near p.2 &&
          !(match d.chain with | .a => p.2.chA | .b => p.2.chB))).head?
      else none
    match other with
    | some p => s.setEnt p.1 { p.2 with
        chA := true, chB := true, strength := max p.2.strength (energyCode (s.candPower d) 1) }
    | none =>
      let strongest := pickBest (fun a b =>
        if a.2.strength ≠ b.2.strength then decide (b.2.strength < a.2.strength) else decide (b.2.det ≤ a.2.det))
        (s.openOn d.chain d.chan)
      match strongest with
      | none => s.postEntry (s.entryOf d none)
      | some p =>
        if p.2.strength + s.fld CHZ_DET_THRESH.CAPTURE ≤ energyCode (s.candPower d) 1 then
          s.postEntry (s.entryOf d (some p.1))
        else s
  else s

/-- 24 bits received where the detector of an entry searches its sync word, and the stamp of their end: a match is recorded in
an entry that has none yet, the lowest set of those that match (R82). -/
def State.syncMatch (s : State) (m : Nat × Nat × Nat) : State :=
  match s.ent m.1 with
  | some x =>
    match x.sync, s.syncSet (if x.chA then .a else .b) x.start m.2.1 m.2.2 with
    | none, some i => s.setEnt m.1 { x with sync := some (i, m.2.2) }
    | _, _ => s
  | none => s

/-- An entry past the starving age (R89). -/
def State.agedOut (s : State) (x : Entry) : Bool :=
  s.hasHistory x && decide (s.horizon < s.entAge x + s.fld CHZ_PENDING_POLICY.MARGIN * 16)

/-- An entry the allocator may serve: a recovery entry, or with EN = 1 one that is not starving and has history or was
just posted (R89, R94, Table 5-6). -/
def State.servable (s : State) (x : Entry) : Bool :=
  x.lane.isNone &&
    (x.slot.isSome || (s.on LANE_CTRL.EN && !s.agedOut x && (s.hasHistory x || x.fresh)))

/-- The lowest-numbered free lane of a granted group (R93). -/
def State.freeLane (s : State) : Option Nat :=
  (List.range 128).find? (fun l => (s.lane l).isNone && s.holds (.group (l / 8)) &&
    (s.fld LANE_ALLOC_CFG.GRP_REQ).testBit (l / 8))

/-- The chain that a granted lane reads before a pick. -/
def State.laneChain (s : State) (x : Entry) : Chain :=
  match x.slot.bind s.rslot with
  | some q => q.chain
  | none =>
    match s.readable x with
    | [c] => c
    | _ => if x.chA then .a else .b

/-- Lanes given, one after another, to the highest-ranked entries (R86). -/
def State.grantLanes : Nat → State → State
  | 0, s => s
  | f + 1, s =>
    match s.freeLane, pickBest (fun a b => s.entBefore a.2 b.2) (s.entList.filter (fun p => s.servable p.2)) with
    | some l, some (e, x) =>
      State.grantLanes f ((s.setEnt e { x with lane := some l }).setLane l ⟨e, s.laneChain x, true, none, false, none⟩)
    | _, _ => s

/-- One allocation round (R86); afterwards no entry counts as just posted. -/
def State.round (s : State) : State :=
  let s := State.grantLanes 128 s
  s.entList.foldl (fun s p => if p.2.fresh then s.setEnt p.1 { p.2 with fresh := false } else s) s

/-! Lanes at a sample position (Table 5-1 stages 3 and 6). -/

/-- −dBm, rounded, of a power in 10^-15 mW; 0 at 0 dBm or above. -/
def minusDbm (p : Nat) : Nat :=
  ((List.range 254).filter (fun k => decide (p ^ 20 * 10 ^ (2 * (k + 1)) ≤ 10 ^ 301))).length

/-- `a` exceeds `b` by at least `m` × 0.25 dB. -/
def exceeds (a b m : Nat) : Bool := decide (b ^ 40 * 10 ^ m ≤ a ^ 40)

/-- The antenna of the frame is chosen by the lane: diversity, pick per packet, no residual (R96). -/
def State.perPacket (s : State) (x : Entry) : Bool :=
  s.diversity && x.slot.isNone && s.fld RFA_DIV_CFG.MODE == 0

/-- The chains that wrote the Erg at position `p` of the history, or write now for a lane on the live stream (R77, R96): a
Palette that has stopped wrote up to its last position. -/
def State.wroteAt (s : State) (p : Nat) (c : Chain) : Bool :=
  (s.palRuns c && s.writesErg c) || decide (p < (s.pal c).stopPos)

/-- Stage 3: the chain that a lane of entry `x` takes with the preamble powers `pa`, `pb` at the balls (R96), and whether it
picked between both: a lane that reads the preamble from history uses only chains that wrote the Erg there. -/
def State.pick (s : State) (ln : Lane) (x : Entry) (pa pb : Nat) : Chain × Bool :=
  if !s.perPacket x then (ln.chain, false)
  else if ln.behind && s.wroteAt x.rpos .a != s.wroteAt x.rpos .b then (if s.wroteAt x.rpos .a then .a else .b, false)
  else if s.partnerValid x.pidx && x.pidx != 0xFFFF then
    if (s.num (partner x.pidx + 0x32) 1).testBit 1 then
      (if exceeds pa pb (s.fld RFA_DIV_CFG.PICK_MARGIN) then .a else .b, true)
    else (if exceeds pb pa (s.fld RFA_DIV_CFG.PICK_MARGIN) then .b else .a, true)
  else (if pa < pb then .b else .a, true)

/-- Diversity picks counted (LANE_DIV_STAT). -/
def State.countPick (s : State) (c : Chain) (picked : Bool) : State :=
  if picked then s.incMod (match c with | .a => LANE_DIV_STAT.PICK_A | .b => LANE_DIV_STAT.PICK_B) else s

/-- The lane after stage 3, with the powers its chains measured (10^-15 mW at the bins): its chain, and the other chain's
power when it picked; a pick is counted. A lane passes the stage once. -/
def State.lanePick (s : State) (ln : Lane) (x : Entry) (pa pb : Nat) : State × Lane :=
  if ln.picked.isSome then (s, ln)
  else
    let a := s.toBall .a pa
    let b := s.toBall .b pb
    let p := s.pick ln x a b
    (s.countPick p.1 p.2, { ln with
      chain := p.1
      picked := some (if p.2 then min 255 (minusDbm (match p.1 with | .a => b | .b => a)) else 0xFF) })

/-- The stamp of the frame end that a PHY header and the sync end give (R84, R142); none for a header that fails its check. -/
def State.frameStop (s : State) (c : Chain) (h t : Nat) : Option Nat :=
  if hchk h = h % 8 then
    some (t + (16 + bodySymbols (natBits h 15 7) (h.testBit 6) (natBits h 4 3 == 1)) * symFine (s.detRate c))
  else none

/-- A lane ends stage 3 or stage 6 at this position. -/
def State.laneStage (s : State) (m : LaneObs) : State :=
  match s.lane m.lane with
  | none => s
  | some ln =>
    match s.ent ln.entry with
    | none => s
    | some x =>
      let r := match m.pow with
        | some q => s.lanePick ln x q.1 q.2
        | none => (s, ln)
      match m.hdr with
      | some h => (r.1.setLane m.lane { r.2 with hdr := some h.1 }).setEnt ln.entry
          { x with endAt := s.frameStop r.2.chain h.1 h.2 }
      | none => r.1.setLane m.lane r.2

/-- SAMPLE_POSITION (R74): both chains sampled, sync words and detections taken, one allocation round. CK_RADIO must run. -/
def execSamplePosition (o : SampleObs) (s : State) : Host.Outcome State Fault Refusal :=
  if s.cmr.st ≠ 5 ∨ !s.awake then .next s
  else
    let s := s.touch
    let s := (s.chainSample .a o.a).chainSample .b o.b
    let s := { s with pos := s.pos + 1 }
    let s := s.setFld CHZ_ERG_STAT.WPOS (s.pos % s.horizon)
    let s := o.syncs.foldl State.syncMatch s
    let s := o.lanes.foldl State.laneStage s
    let s := o.cands.foldl State.candidate s
    .next s.round

/-- SYNC_SEARCH_TIMEOUT (R82): 88 symbols after the preamble start without a match, an entry without a lane goes. -/
def execSyncSearchTimeout (e : Nat) (s : State) : Host.Outcome State Fault Refusal :=
  let s := s.touch
  match s.ent e with
  | some x =>
    if x.lane.isNone ∧ x.slot.isNone ∧ x.sync.isNone ∧
        x.start + 88 * symFine (s.detRate (if x.chA then .a else .b)) ≤ s.stamp then
      .next ((s.removeEnt e).incSat CHZ_PENDING_STAT.FALSE_CNT)
    else .next s
  | none => .next s

/-- ENTRY_PROMOTED (R87): an entry's age has reached AGE_LIMIT × 1.28 ms. -/
def execEntryPromoted (e : Nat) (s : State) : Host.Outcome State Fault Refusal :=
  let s := s.touch
  match s.ent e with
  | some x =>
    let lim := s.fld CHZ_PENDING_POLICY.AGE_LIMIT
    if x.lane.isNone ∧ x.slot.isNone ∧ lim ≠ 0 ∧ lim * 6291456 ≤ 25 * (s.stamp - x.det) then
      .next (s.setEnt e { x with promoted := true })
    else .next s
  | none => .next s

/-- ENTRY_STARVED (R89): an entry without a lane has aged out, or has no history and its round has passed. -/
def execEntryStarved (e : Nat) (s : State) : Host.Outcome State Fault Refusal :=
  let s := s.touch
  match s.ent e with
  | some x =>
    if x.lane.isNone ∧ x.slot.isNone ∧ s.cmr.st = 5 ∧ (s.agedOut x ∨ (!s.hasHistory x ∧ !x.fresh)) then
      .next ((s.removeEnt e).starve x)
    else .next s
  | none => .next s

/-- Every entry without a lane removed, without reports or counts (R90). DESIGN CHOICE: a recovery entry that waits for a lane
stays, as it is no entry of the pending list (R110; log entry 174). -/
def State.flushPending (s : State) : State := s.waiting.foldl (fun s p => s.removeEnt p.1) s

/-! Starting and stopping (R73, R91). -/

/-- A chain's Palette starts: one gap marker before its first sample, a gap case of its own (R76). DESIGN CHOICE: in diversity
the starts of both chains are two cases (log entry 172). -/
def State.palStart (s : State) (c : Chain) : State :=
  if s.palRuns c then s
  else
    let s := s.setFld (match c with | .a => CHZ_CTRL.RUN_A | .b => CHZ_CTRL.RUN_B) 1
    let s := s.setPal c { s.pal c with start := s.stamp, gapAt := s.stamp, marker := true, cur := .zero }
    let s := s.raise CHZ_ERG_STAT.GAP CHZ_ERG_STAT.GAP_CNT
    if s.gapNow c then s.raise CHZ_ERG_STAT.GAP CHZ_ERG_STAT.GAP_CNT else s

/-- A chain's Palette stops: its last words written, its history frozen (R91, R345). -/
def State.palStop (s : State) (c : Chain) : State :=
  if s.palRuns c then
    let s := s.ergFlush c
    let s := s.setPal c { s.pal c with cur := .zero, marker := false }
    let s := s.setFld (match c with | .a => CHZ_CTRL.RUN_A | .b => CHZ_CTRL.RUN_B) 0
    if s.palRuns .a || s.palRuns .b then s else s.withdraw .erg
  else s

/-- ENn as it acts: in diversity EN_B follows EN_A (R73). -/
def State.palEnabled (s : State) (c : Chain) : Bool :=
  if s.diversity then s.on CHZ_CTRL.EN_A
  else match c with | .a => s.on CHZ_CTRL.EN_A | .b => s.on CHZ_CTRL.EN_B

/-- The channelizer claims judged again after a change from `old` (R73, Table 16-7): placed where ENn and RXn_ON have come
to hold, withdrawn with the Palette stopped where either has cleared. -/
def State.palJudge (s old : State) (t : Ticket) : State :=
  [Chain.a, Chain.b].foldl (fun s c =>
    if s.palEnabled c && s.chainOn c then
      if old.palEnabled c && old.chainOn c then s
      else if s.holds (.chzr c) || s.waits (.chzr c) then s else (s.placeDev (.chzr c) 18 t).1
    else (s.palStop c).withdraw (.chzr c)) s

/-- The Erg-writing claim, placed with the first running Palette that writes (Table 16-7). -/
def State.ergClaim (s : State) (t : Ticket) : State :=
  if ((s.palRuns .a && s.writesErg .a) || (s.palRuns .b && s.writesErg .b)) then
    if s.holds .erg || s.waits .erg then s else (s.placeDev .erg 4 t).1
  else s.withdraw .erg

/-- The RXWIN instructions that wait for a chain's Palette to run end with OK (R291, Table 14-3). -/
def State.windowsOk (s : State) (c : Chain) : State :=
  s.opIds.foldl (fun s i => match s.op i with
    | some o => if o.kind == .rxwin && o.phase == .window && o.chain == chainIx c then s.opEnd i Status.ok o.seq else s
    | none => s) s

/-- PALETTE_START (R73): ENn, RXn_ON and the grant hold; a chain that runs already is not started again. -/
def execPaletteStart (c : Chain) (s : State) : Host.Outcome State Fault Refusal :=
  let s := s.touch
  if s.awake ∧ s.palEnabled c ∧ s.chainOn c ∧ s.holds (.chzr c) ∧ !s.palRuns c then
    let t := match s.well.granted.find? (fun k => k.who == .chzr c) with
      | some k => k.ticket
      | none => s.ticketNow 0
    .next (((s.palStart c).ergClaim t).windowsOk c)
  else .next s

/-- PALETTE_STOP (R91): ENn or RXn_ON has cleared, or the claim is no longer held. -/
def execPaletteStop (c : Chain) (s : State) : Host.Outcome State Fault Refusal :=
  let s := s.touch
  if s.palRuns c ∧ !(s.palEnabled c ∧ s.chainOn c ∧ s.holds (.chzr c)) then .next ((s.palStop c).withdraw (.chzr c))
  else .next s

end Sys2Proof.Machine
end

