-- ==== Sys2Proof/Machine/Synth.lean ====
section
/-! DEFINITION. The three synthesisers: words, tune cases, tunes served in ticket order, lock, calibration, power
(R46–R60, R67, R68). -/

namespace Sys2Proof.Machine

/-- 0, 1, 2 for SYA, SYB, SYT, as the RFA registers number them. -/
def synIx : Syn → Nat
  | .sya => 0 | .syb => 1 | .syt => 2

/-- The receive chain of a synthesiser. -/
def synChain : Syn → Option Chain
  | .sya => some .a | .syb => some .b | .syt => none

/-- The frequency word of a channel centre in 12.5 kHz units: round(freq × 12,500 × 2^23 ÷ 38.4 MHz) (R290). -/
def wordOf (freq : Nat) : Nat := (freq * 16384 + 3) / 6

/-- The frequency word of a channel centre in 6.25 kHz units. -/
def wordOf2 (freq : Nat) : Nat := (freq * 8192 + 3) / 6

/-- A valid frequency word (R51, Table 3-4). -/
def wordOk (w : Nat) : Bool :=
  (decide (0x0556AAAB ≤ w) && decide (w ≤ 0x06400000)) || (decide (0x0AF00000 ≤ w) && decide (w ≤ 0x0C800000))

/-- The word lies in the 840–960 MHz band (Table 3-4). -/
def wordHigh (w : Nat) : Bool := decide (0x0AF00000 ≤ w)

/-- The LOCK bit of a synthesiser. -/
def synLockFld : Syn → Fld
  | .sya => RFA_SY_STAT.SYA_LOCK | .syb => RFA_SY_STAT.SYB_LOCK | .syt => RFA_SY_STAT.SYT_LOCK

/-- UNLK and UNLK_CNT of a synthesiser. -/
def synUnlkFld : Syn → Fld × Fld
  | .sya => (RFA_SY_STAT.SYA_UNLK, RFA_SY_STAT.SYA_UNLK_CNT)
  | .syb => (RFA_SY_STAT.SYB_UNLK, RFA_SY_STAT.SYB_UNLK_CNT)
  | .syt => (RFA_SY_STAT.SYT_UNLK, RFA_SY_STAT.SYT_UNLK_CNT)

/-- The band field of a synthesiser's last calibration. -/
def synBandFld : Syn → Fld
  | .sya => RFA_CAL_STAT.SYA_BAND | .syb => RFA_CAL_STAT.SYB_BAND | .syt => RFA_CAL_STAT.SYT_BAND

/-- The start bit of a synthesiser's calibration. -/
def synVcoFld : Syn → Fld
  | .sya => RFA_CAL_CTRL.SYA_VCO | .syb => RFA_CAL_CTRL.SYB_VCO | .syt => RFA_CAL_CTRL.SYT_VCO

/-- The start bit of a calibration. -/
def calFld : CalKind → Fld
  | .syaVco => RFA_CAL_CTRL.SYA_VCO | .sybVco => RFA_CAL_CTRL.SYB_VCO | .sytVco => RFA_CAL_CTRL.SYT_VCO
  | .rxaIq => RFA_CAL_CTRL.RXA_IQ | .rxbIq => RFA_CAL_CTRL.RXB_IQ

/-- The last temperature sample, signed, in 0.0625 °C (RFA_TEMP). -/
def State.temp (s : State) : Int := signed 12 (s.fld RFA_TEMP.TEMP)

/-- A temperature sample taken: TEMP with OFFSET, SEQ (R67). -/
def State.tempTake (s : State) (raw : Int) : State :=
  let t := clampInt (-2048) 2047 (raw + signed 8 (s.fld RFA_TEMP.OFFSET))
  (s.setFld RFA_TEMP.TEMP (twos 12 t)).incMod RFA_TEMP.SEQ

/-- TCXO_EN as CLK_TCXO_CFG.MODE sets it (R302). -/
def State.tcxoWanted (s : State) : Bool :=
  match s.fld CLK_TCXO_CFG.MODE with
  | 0 => !s.asleep && (s.on CLK_CTRL.CMR_EN || s.synOn .sya || s.synOn .syb || s.synOn .syt)
  | 1 => s.pwr.st != .deep && s.pwr.st != .off
  | _ => false

/-- TCXO_EN driven; a TCXO that is switched off is absent (R302, R303). -/
def State.tcxoJudge (s : State) : State :=
  let e := s.tcxoWanted && s.pwr.st != .inReset
  let s := if e && !s.pins.tcxoEn then { s with pwr := { s.pwr with tcxoAt := s.stamp } } else s
  let s := { s with pins := { s.pins with tcxoEn := e } }
  if e then s else s.setFld CLK_STAT.REF_OK 0

/-- Lanes that read a chain's live bins (R57). -/
def State.liveLanes (s : State) (cs : List Chain) : List Nat :=
  (s.laneList.filter (fun l => !l.2.behind && cs.contains l.2.chain &&
    (match s.ent l.2.entry with | some x => x.slot.isNone | none => false))).map (·.1)

/-- The other chain. -/
def otherChain : Chain → Chain
  | .a => .b | .b => .a

/-- Gap markers have begun on chains `cs`: live lanes there go on with the other chain in diversity, with SWITCH once they have
picked, else they end with the status given (R97, R98). -/
def State.gapLanes (s : State) (cs : List Chain) (status : Nat) : State :=
  (s.liveLanes cs).foldl (fun s l =>
    match s.lane l with
    | none => s
    | some ln =>
      let o := otherChain ln.chain
      if s.diversity && s.fld RFA_DIV_CFG.MODE == 0 && !cs.contains o && s.palRuns o && !s.gapNow o then
        s.setLane l { ln with chain := o, switch := ln.picked.isSome }
      else s.laneCut l status) s

/-- The chains that a tune of a synthesiser cuts (R57, R48). -/
def State.tuneChains (s : State) (y : Syn) : List Chain :=
  match y with
  | .sya => if s.diversity then [.a, .b] else [.a]
  | .syb => [.b]
  | .syt => []

/-- The case of a tune (R54, Table 3-5): 0 hop, 1 full calibration, 2 band change or power-up. A difference of 1 MHz is
218,453.33 steps; 20 °C is 320 units. -/
def State.tuneCase (s : State) (y : Syn) (w : Nat) : Nat :=
  let x := s.syn y
  match x.calWord with
  | none => 2
  | some c =>
    if wordHigh x.word ≠ wordHigh w then 2
    else if 384 * ((c : Int) - w).natAbs ≤ 83886080 ∧ (x.calTemp - s.temp).natAbs ≤ 320 then 0
    else 1

/-- One synthesiser begins to settle on a word: the word taken, the lock timeout started (R55), the window written with it
(R53), a temperature sample taken at a full calibration (R67). -/
def State.settle (s : State) (y : Syn) (t : Tune) (k : Nat) : State :=
  let x := s.syn y
  let s := s.setSyn y { x with
    phase := .settling, cur := some t, kase := k, second := false, word := t.word, since := s.stamp }
  let s := (s.setFld (RFA_SYn_FREQ.WORD (synIx y)) t.word).setFld (synLockFld y) 0
  let s := match synChain y, t.freq with
    | some c, some f => s.setFld (CHZ_WINn.CENTRE (chainIx c)) f
    | _, _ => s
  if k = 0 then s else { s with tempConv := true }

/-- The dither register takes the seed (R60). -/
def State.reseed (s : State) (y : Syn) : State := s.setSyn y { s.syn y with lfsr := (s.syn y).seed }

/-- The dither register of a synthesiser whose modulator is dithered (R60). -/
def State.dither (s : State) (y : Syn) : Option Nat :=
  if (s.fld RFA_SY_DITHER.DITH_EN).testBit (synIx y) then some (s.syn y).lfsr else none

/-- A tune starts (R54, R57, R48, R60): in diversity SYB follows SYA, and the markers reach both chains until both lock. -/
def State.tuneBegin (s : State) (y : Syn) (t : Tune) : State :=
  let cs := s.tuneChains y
  let s := (s.settle y t (s.tuneCase y t.word)).reseed y
  let s := if y == .sya && s.diversity then
      let s := (s.settle .syb { t with op := none } (s.tuneCase .syb t.word)).reseed .syb
      { s with sya := { s.sya with wide := true } }
    else s
  (s.gapLanes cs Status.aborted).gapCase cs

/-- The operations that tune or are to power a synthesiser end with ABORTED, `keep` apart: the tune in progress, waiting ones,
and TUNEs whose claims are still queued (R291). Transmissions that wait for the claim of SYT end as well. -/
def State.tunesEnd (s : State) (y : Syn) (keep : Option Nat) : State :=
  let x := s.syn y
  let claims := s.opIds.filter (fun i => match s.op i with
    | some o => o.phase == .claim && (s.powerNeeds o.syn).any (fun z => z.1 == y)
    | none => false)
  let ids := (x.cur.toList ++ x.queue).filterMap (·.op) ++ claims
  let s := s.setSyn y { x with cur := none, queue := [] }
  (ids.filter (fun i => some i != keep)).foldl (fun s i => s.opEnd i Status.aborted 0) s

/-- A synthesiser powered off with its chain: claims withdrawn, calibrations over, Palettes judged again (R68, R73, R302). -/
def State.synOff (s : State) (y : Syn) (keep : Option Nat) : State :=
  let old := s
  let s := s.tunesEnd y keep
  let s := s.setSyn y { s.syn y with phase := .off, calWord := none, calWait := false, kase := 0, second := false, wide := false }
  let s := ((s.setFld (synOnFld y) 0).setFld (synLockFld y) 0).setFld (synVcoFld y) 0
  let s := match y with
    | .sya => s.setFld RFA_CAL_CTRL.RXA_IQ 0
    | .syb => s.setFld RFA_CAL_CTRL.RXB_IQ 0
    | .syt => s
  ((s.withdraw (synHolder y)).palJudge old (s.ticketNow 0)).tcxoJudge

/-- A power-off waits: SYT held by a transmission, or live lanes without FORCE. -/
def State.offBlocked (s : State) (y : Syn) (force : Bool) : Bool :=
  (y == .syt && s.on TXP_STAT.ACTIVE) || (!force && !(s.liveLanes (s.tuneChains y)).isEmpty)

/-- A tune that cannot start yet (R56, R57, R68). -/
def State.tuneBlocked (s : State) (y : Syn) (t : Tune) : Bool :=
  s.offBlocked y t.force || (s.syn y).phase == .settling || (y == .sya && s.diversity && s.syb.phase == .settling)

/-- A power-off carried out for operation `op`. -/
def State.powerOff (s : State) (y : Syn) (op : Option Nat) : State :=
  let cs := s.tuneChains y
  let s := (s.liveLanes cs).foldl (fun s l => s.laneCut l Status.aborted) s
  let s := (s.offSyns y).foldl (fun s z => s.synOff z op) s
  match op with
  | some i => s.opEnd i Status.ok 0
  | none => s

/-- The oldest waiting tune of a synthesiser starts, if nothing holds it (R56). -/
def State.tuneTry (s : State) (y : Syn) : State :=
  let x := s.syn y
  match pickBest (fun a b => a.ticket.le b.ticket) x.queue with
  | none => s
  | some t =>
    if t.word = 0 then
      if s.offBlocked y t.force then s
      else (s.setSyn y { x with queue := x.queue.erase t }).powerOff y t.op
    else if s.tuneBlocked y t then s
    else (s.setSyn y { x with queue := x.queue.erase t }).tuneBegin y t

/-- A tune added to the queue; the oldest one there starts at once when nothing holds it. A power-off waits for older tunes
that wait, and cuts the one in progress short (R56, R291). -/
def State.tuneAdd (s : State) (y : Syn) (t : Tune) : State :=
  let x := s.syn y
  (s.setSyn y { x with queue := x.queue ++ [t] }).tuneTry y

/-- A synthesiser powered up (R291). -/
def State.powerUp (s : State) (y : Syn) (t : Ticket) : State :=
  if s.synOn y then s
  else
    let old := s
    let s := s.setFld (synOnFld y) 1
    let s := s.setSyn y { s.syn y with phase := .idle, calWord := none }
    (s.palJudge old t).tcxoJudge

/-- Power claims placed, those that are neither held nor waiting (R291, Table 14-5); whether none was denied. -/
def State.powerClaim (s : State) (y : Syn) (prio : Nat) (t : Ticket) : State × Bool :=
  (s.powerNeeds y).foldl (fun (r : State × Bool) z =>
    if r.1.holds (synHolder z.1) || r.1.waits (synHolder z.1) then r
    else
      let q := r.1.place (synHolder z.1) z.2 prio t
      (q.1, r.2 && q.2)) (s, true)

/-- Every claim that powering CHAIN needs is granted. -/
def State.powerHeld (s : State) (y : Syn) : Bool := (s.powerNeeds y).all (fun z => s.holds (synHolder z.1))

/-- A synthesiser reaches lock: the calibration's word, temperature and band kept when one ran (R54). -/
def State.lockNow (s : State) (y : Syn) (band : Nat) : State :=
  let x := s.syn y
  let s := s.setSyn y { x with
    phase := .locked, second := false, lockAt := s.stamp
    calWord := if x.kase = 0 then x.calWord else some x.word
    calTemp := if x.kase = 0 then x.calTemp else s.temp }
  let s := s.setFld (synLockFld y) 1
  if x.kase = 0 then s else s.setFld (synBandFld y) band

/-- The operation whose tune has ended with this lock, and the case it reports (R48: in diversity both must lock). -/
def State.lockedTune (s : State) (y : Syn) : Option (Option Nat × Nat) :=
  if s.diversity && y != .syt then
    if s.sya.phase == .locked && s.syb.phase == .locked then
      s.sya.cur.map (fun t => (t.op, max s.sya.kase s.syb.kase))
    else none
  else (s.syn y).cur.map (fun t => (t.op, (s.syn y).kase))

/-- The tunes that have locked forgotten. -/
def State.clearTune (s : State) (y : Syn) : State :=
  if s.diversity && y != .syt then
    if s.sya.phase == .locked && s.syb.phase == .locked then
      { s with sya := { s.sya with cur := none, wide := false }, syb := { s.syb with cur := none } }
    else if s.sya.phase == .locked && s.syb.cur.isNone then { s with sya := { s.sya with wide := false } }
    else s
  else s.setSyn y { s.syn y with cur := none }

/-- A full calibration of a powered synthesiser at its present word (R58, R68). -/
def State.calBegin (s : State) (y : Syn) : State :=
  let x := s.syn y
  if x.phase == .settling then { (s.setSyn y { x with kase := max x.kase 1 }) with tempConv := true }
  else s.settle y ⟨x.word, none, true, none, s.ticketNow 0⟩ 1

/-- The TCXO has come: the lock timeout of a synthesiser that settles counts from now (R55). -/
def State.synRef (s : State) : State :=
  [Syn.sya, .syb, .syt].foldl (fun s y =>
    if (s.syn y).phase == .settling then s.setSyn y { s.syn y with since := s.stamp } else s) s

/-- A calibration that the host asks for (R68): ignored when the synthesiser or chain is off. -/
def State.calRequest (s : State) (k : CalKind) : State :=
  match k with
  | .syaVco => if s.synOn .sya then
      (((s.setFld (calFld k) 1).calBegin .sya).gapLanes [.a] Status.aborted).gapCase [.a] else s
  | .sybVco => if s.synOn .syb then
      (((s.setFld (calFld k) 1).calBegin .syb).gapLanes [.b] Status.aborted).gapCase [.b] else s
  | .sytVco => if s.synOn .syt then
      let s := s.setFld (calFld k) 1
      if s.on TXP_STAT.ACTIVE then { s with syt := { s.syt with calWait := true } } else s.calBegin .syt
    else s
  | .rxaIq => if s.synOn .sya then
      ((s.setFld (calFld k) 1).gapLanes [.a] Status.aborted).gapCase [.a] else s
  | .rxbIq => if s.synOn .syb then
      ((s.setFld (calFld k) 1).gapLanes [.b] Status.aborted).gapCase [.b] else s

end Sys2Proof.Machine
end

