-- ==== Sys2Proof/Machine/Transmit.lean ====
section
/-! DEFINITION. The transmit path: airtime, sand-glass accounts, listen-before-talk, the PA claim, and the way of one
transmission from its instruction to its outcome (R49, R50, R61–R64, R114–R134). -/

namespace Sys2Proof.Machine

/-- A new radio operation with every open field zero. -/
def RadioOp.new (kind : OpKind) (ctx : Option (Fin 64)) (d prio : Nat) (t : Ticket) : RadioOp where
  kind := kind
  ctx := ctx
  d := d
  ts := 0
  phase := .release
  at_ := false
  chain := 2
  freq := 0
  width := 1
  rate := 0
  mod4 := false
  sset := 0
  pre := 0
  fec := false
  white := false
  lbt := false
  doSeal := false
  sealed := false
  level := 0
  pol := 0
  lnch := none
  t := 0
  endAt := 0
  late := false
  tries := 0
  listen := 0
  origin := 0
  worst := 0
  frame := []
  buf := 0
  len := 0
  seq := 0
  wantAck := false
  pidx := 0xFFFF
  key := 0
  ant := 0
  air := 0
  units := 0
  copies := 0
  kase := 0
  aborted := false
  force := false
  prio := prio
  ticket := t
  ins := []
  cfg := []
  fallAt := 0
  backAt := 0

/-! Times (Table 3-7). -/

/-- The ramp: 2^RAMP µs. -/
def State.rampUs (s : State) : Nat := 2 ^ s.fld RFA_PA_RAMP.RAMP

/-- The lead Λ: SW_LEAD + PA_LEAD + RAMP, in fine units rounded up. -/
def State.lead (s : State) : Nat :=
  usFine (s.fld RFA_EXT_CTL.SW_LEAD + s.fld RFA_EXT_CTL.PA_LEAD + s.rampUs)

/-- From PA_EN rising to the launch instant. -/
def State.riseLead (s : State) : Nat := usFine (s.fld RFA_EXT_CTL.PA_LEAD + s.rampUs)

/-- From the last symbol to PA_EN falling. -/
def State.fallLag (s : State) : Nat := usFine (s.rampUs + s.fld RFA_EXT_CTL.PA_LAG)

/-- From the last symbol to the end of the last switch movement. -/
def State.tail (s : State) : Nat := usFine (s.rampUs + s.fld RFA_EXT_CTL.PA_LAG + s.fld RFA_EXT_CTL.SW_LAG)

/-- Symbols of a frame of `len` bytes (R142). -/
def symbols (pre len : Nat) (fec mod4 : Bool) : Nat := pre + 40 + bodySymbols len fec mod4

/-- Airtime in units of 100 µs, rounded up (R125). -/
def airUnits (air : Nat) : Nat := ceilDiv (10 * air) 196608

/-- Airtime of one copy of a wake call: (PRE_BITS + 64) × 0.5 ms (R133). -/
def State.callAir (s : State) : Nat := (s.fld TXP_CALL_CFG.PRE_BITS + 64) * 98304

/-! Accounts (R126–R129). -/

/-- A register whose value counts for a transmission from its beginning: the sand-glass accounts' and RFA_PA_LEVEL (R61, R129). -/
def fixedReg (off : Nat) : Bool := (decide (0x9100 ≤ off) && decide (off < 0x9180)) || off == RFA_PA_LEVEL.off

/-- Those registers as they stand. -/
def State.fixedRegs (s : State) : Tab Word := s.regs.filter (fun e => fixedReg e.1)

/-- The state with those registers as they stood when a transmission began. -/
def State.asOf (s : State) (o : RadioOp) : State := { s with regs := o.cfg }

/-- The account is in force: EN = 1 and LOW < HIGH (SGL_STAT.ACTIVE). -/
def State.acctOn (s : State) (n : Nat) : Bool :=
  s.on (SGL_ACCn_WINDOW.EN n) && decide (s.fld (SGL_ACCn_BAND.LOW n) < s.fld (SGL_ACCn_BAND.HIGH n))

/-- A channel lies in account `n` (R126): centre and edges in 6.25 kHz steps, width in bins. -/
def State.liesIn (s : State) (freq w n : Nat) : Bool :=
  s.acctOn n && decide (4 * s.fld (SGL_ACCn_BAND.LOW n) + w ≤ freq) &&
    decide (freq + w ≤ 4 * s.fld (SGL_ACCn_BAND.HIGH n))

/-- The accounts a channel lies in. -/
def State.acctsOf (s : State) (freq w : Nat) : List Nat := (List.range 8).filter (s.liesIn freq w)

/-- An account's buckets. -/
def State.acct (s : State) (n : Nat) : List Bucket := Tab.get (fun _ => []) s.accts n

/-- An account's buckets set. -/
def State.setAcct (s : State) (n : Nat) (b : List Bucket) : State :=
  { s with accts := Tab.set (fun _ => []) s.accts n b }

/-- USED of an account: the buckets that have not expired (R128). -/
def State.used (s : State) (n : Nat) : Nat :=
  (((s.acct n).filter (fun b => decide (s.tick < b.tick))).map (·.units)).foldl (· + ·) 0

/-- An account has room for `a` units (R127). -/
def State.hasRoom (s : State) (a n : Nat) : Bool := decide (s.used n + a ≤ 10 * s.fld (SGL_ACCn_LIMIT.LIMIT n))

/-- Ticks of a bucket: SECONDS × 512 (R128). -/
def State.bucketTicks (s : State) (n : Nat) : Nat := 512 * s.fld (SGL_ACCn_WINDOW.SECONDS n)

/-- The tick at which a charge made at stamp `t` expires: the first multiple of B at or after t + 64 B (R128). -/
def State.expiryTick (s : State) (n t : Nat) : Nat :=
  (ceilDiv t (6000 * s.bucketTicks n) + 64) * s.bucketTicks n

/-- Units added to the bucket that expires at `k`. -/
def addBucket (k u : Nat) : List Bucket → List Bucket
  | [] => [⟨k, u⟩]
  | b :: bs => if b.tick = k then ⟨k, b.units + u⟩ :: bs else b :: addBucket k u bs

/-- Every account that a transmission lies in charged (R125, R128). -/
def State.charge (s : State) (o : RadioOp) (units t : Nat) : State :=
  ((s.asOf o).acctsOf o.freq o.width).foldl (fun s n =>
    s.setAcct n (addBucket ((s.asOf o).expiryTick n t) units (s.acct n))) s

/-- EXH set and counted on every account of a transmission without room (R127). -/
def State.exhaust (s : State) (o : RadioOp) (units : Nat) : State :=
  ((s.asOf o).acctsOf o.freq o.width).foldl (fun s n =>
    if (s.asOf o).hasRoom units n then s else s.raise (SGL_ACCn_USED.EXH n) (SGL_ACCn_LIMIT.EXH_CNT n)) s

/-- Every account that a transmission lies in has room. -/
def State.allRoom (s : State) (o : RadioOp) (units : Nat) : Bool :=
  ((s.asOf o).acctsOf o.freq o.width).all ((s.asOf o).hasRoom units)

/-- An airtime above MAXAIR of an account (R115). -/
def State.tooLong (s : State) (freq w air : Nat) : Bool :=
  (s.acctsOf freq w).any (fun n =>
    s.fld (SGL_ACCn_WINDOW.MAXAIR n) != 0 && decide (s.fld (SGL_ACCn_WINDOW.MAXAIR n) * 1966080 < air))

/-- A level clamped by CAP and by the accounts' PCAP (R61, R126). -/
def State.clampLevel (s : State) (freq w l : Nat) : Nat :=
  (s.acctsOf freq w).foldl (fun l n => min l (s.fld (SGL_ACCn_WINDOW.PCAP n))) (min l (s.fld RFA_PA_LEVEL.CAP))

/-- The reset PA claim of level `l` (R334): 8 + 158 × 10^((l − 80) ÷ 20) halves of 1 mA, halves rounded upward. The rounded
term reaches k exactly when 2k − 1 ≤ 316 × 10^((l − 80) ÷ 20). -/
def paClaimReset (l : Nat) : Nat :=
  8 + ((List.range 158).filter (fun k => decide ((2 * k + 1) ^ 20 * 10 ^ (80 - l) ≤ 316 ^ 20))).length

/-- The PA claim of a level (WELL_CLAIM_TAB). -/
def State.paClaim (s : State) (l : Nat) : Nat := Tab.get paClaimReset s.well.tab l

/-! Antennas (R50). -/

/-- The chain whose synthesiser is in the band of `w`; none with both or neither. -/
def State.bandChain (s : State) (w : Nat) : Option Chain :=
  let a := s.synOn .sya && wordHigh s.sya.word == wordHigh w
  let b := s.synOn .syb && wordHigh s.syb.word == wordHigh w
  if a && !b then some .a else if b && !a then some .b else none

/-- The transmit antenna: 0 A, 1 B; `pick` stands for LANT in an acknowledgement (R50, R130). -/
def State.txAnt (s : State) (uni : Bool) (pidx : Nat) (pick : Option Nat) (w : Nat) : Nat :=
  match s.fld RFA_CHAIN_CFG.ARR with
  | 1 =>
    if s.on RFA_DIV_CFG.TX_FOLLOW && uni then
      match pick with
      | some p => p
      | none =>
        if s.partnerValid pidx then s.num (partner pidx + 0x32) 1 % 2 else s.fld RFA_DIV_CFG.TX_DEFAULT
    else s.fld RFA_DIV_CFG.TX_DEFAULT
  | 2 =>
    match s.bandChain w with
    | some c => chainIx c
    | none => s.fld RFA_DIV_CFG.TX_DEFAULT
  | _ => s.fld RFA_DIV_CFG.TX_DEFAULT

/-! Listen-before-talk (R119–R122). -/

/-- What a test finds: no chain covers the channel, the interval is covered, it is clear, the largest code examined. -/
structure LbtRes where
  nocov   : Bool
  covered : Bool
  clear   : Bool
  worst   : Nat
deriving DecidableEq, Repr

/-- A running chain covers a channel with a group of usable bins (R79, R394). -/
def State.covers (s : State) (c : Chain) (freq w : Nat) : Option (Nat × Nat) :=
  if s.palRuns c then s.span c freq w else none

/-- The chain and span of a test (R120 steps 1, 2). -/
def State.lbtChain (s : State) (ant freq w : Nat) : Option (Chain × Nat × Nat) :=
  let c : Chain := if ant = 1 ∧ !s.single then .b else .a
  match s.covers c freq w with
  | some (b, n) => some (c, b, n)
  | none => (s.covers (otherChain c) freq w).map (fun p => (otherChain c, p.1, p.2))

/-- Whether an operation needs listen-before-talk (R119, R130). -/
def State.lbtNeeded (s : State) (o : RadioOp) : Bool :=
  if o.kind == .ack then !s.on TXP_ACK_CFG.NOLBT
  else o.lbt || ((s.asOf o).acctsOf o.freq o.width).any (fun n => (s.asOf o).on (SGL_ACCn_WINDOW.LBT n))

/-- The listen origin (R121); SYT takes no part in the LBT instruction (R119). -/
def State.lbtOrigin (s : State) (o : RadioOp) (c : Chain) : Nat :=
  let m := max (s.pal c).start (s.pal c).gapAt
  let m := if o.kind == .lbt then m else max m s.syt.lockAt
  let m := if s.gapNow c || (s.pal c).marker then max m s.stamp else m
  if s.fld TXP_LBT_CFG.MODE = 1 then max m o.origin else m

/-- The test for the interval of o.listen × 0.1 ms that ends at `tr` (R120, R121). DEDUCED: a self block in the interval is not
examined (R394) and leaves the interval uncovered (R79; log entry 66). -/
def State.lbtTest (s : State) (o : RadioOp) (tr : Nat) : LbtRes :=
  match s.lbtChain o.ant o.freq (if o.kind == .calltx then 2 else o.width) with
  | none => ⟨true, false, false, 255⟩
  | some (c, b, w) =>
    let x := s.pal c
    let ks := ((if x.cur.n = 0 then [] else [x.cur]) ++ x.blocks).filter
      (fun k => decide (s.lbtOrigin o c ≤ k.start) && decide (k.start ≤ tr) && !k.gap)
    let len := o.listen * 196608
    let inside := ks.filter (fun k => decide (10 * tr < 10 * k.stop + 157287 + len))
    let es := (inside.filter (fun k => !k.self)).map (·.energy b w)
    let worst := es.foldl max 0
    ⟨false, ks.any (fun k => decide (10 * k.start + len ≤ 10 * tr)) && inside.all (fun k => !k.self), decide (worst ≤ s.fld TXP_LBT_THRESH.THRESH),
      if es = [] then 255 else worst⟩

/-- A new random listen time, in 0.1 ms (R120 step 3). -/
def State.drawListen (s : State) (o : RadioOp) : State × RadioOp :=
  (s.draw, { o with listen := s.fld TXP_LBT_CFG.LISTEN + s.random (s.fld TXP_LBT_CFG.RAND + 1) })

/-- A random backoff in 0.1 ms: 1 to 10 × 2^BEXP (R122). -/
def State.drawBackoff (s : State) : State × Nat := (s.draw, 1 + s.random (10 * 2 ^ s.fld TXP_LBT_CFG.BEXP))

/-! The balls (Table 3-3, Table 3-7). -/

/-- The switches to transmit, and SYT held (R118). -/
def State.switchTx (s : State) (ant : Nat) : State :=
  let s := (s.setFld TXP_STAT.ACTIVE 1).setFld TXP_STAT.ANT ant
  { s with pins := { s.pins with txrx := true, ant0 := ant == 0, ant1 := ant != 0 } }

/-- The switches back to receive. -/
def State.switchRx (s : State) : State :=
  { s with pins := { s.pins with txrx := false, ant0 := false, ant1 := false } }

/-- PA_EN falls at `t`: the claim is withdrawn, the blocks in progress are self (R78), and the wake receiver ignores its input
for 1 ms more (R201). -/
def State.paFall (s : State) (id t : Nat) : State :=
  let s := (s.withdraw (.pa id)).selfMark
  { s with
    pins := { s.pins with paEn := false, paCtl := none }
    wkr := { s.wkr with blind := ceilDiv (t + msFine 1) 6000 } }

/-- SYT no longer held, switches to receive (Table 3-7 step 8). -/
def State.txFree (s : State) : State := (s.switchRx.setFld TXP_STAT.ACTIVE 0).leaveIdle

/-- The frame is over and Table 3-7 has steps 7 and 8 left. -/
def RadioOp.tailing (o : RadioOp) : Bool := o.phase == .fall || o.phase == .swap

/-- PA_EN has risen for the operation. -/
def RadioOp.launched (o : RadioOp) : Bool := o.phase == .onAir || o.tailing

/-- The operation holds SYT. -/
def RadioOp.holds (o : RadioOp) : Bool := o.phase == .grant || o.launched

/-! What goes on the air (R114, R136–R141, R196). -/

/-- The MAC frame of a transmission: a TXF's is its buffer's content, with what step 3 of Table 6-2 puts into it (R115). -/
def State.txBytes (s : State) (o : RadioOp) : List Byte :=
  if o.kind == .txf && !o.sealed then o.ins.foldl (fun f e => overlay f e.1 e.2) (s.bytes o.buf o.len) else o.frame

/-- The symbols of a packet: preamble, sync word, PHY header, and the body with its FCS, in deviations of 0.125 Hz. The
modulation index × 64 of RFA_TX_CFG makes a deviation of index × rate ÷ 2 (Table 7-2). -/
def State.packetDev (s : State) (o : RadioOp) : List Int :=
  let mac := s.txBytes o
  let f := mac ++ s.fcsBytes o.sset mac
  let d := (if o.mod4 then s.fld RFA_TX_CFG.DEV4 else s.fld RFA_TX_CFG.DEV2) * 75 * 2 ^ o.rate
  devFrame o.mod4 d (preambleBits o.pre ++ bitsDown 24 (s.fld (CHZ_SYNCn.WORD o.sset)) ++
    bitsDown 16 (phyHeader f.length o.fec o.white o.mod4)) (bodyBits o.fec o.white f)

/-- The chips of a wake call whose word, class and target `o.frame` holds. -/
def State.callChips (s : State) (o : RadioOp) : List Bool :=
  chipsOf (callBits (s.fld TXP_CALL_CFG.PRE_BITS) (fieldAt o.frame 0 4) (fieldAt o.frame 4 1) (fieldAt o.frame 5 2))

/-- What a transmission has put on the air, its last symbol sent at `e`; one cut short stops there. DESIGN CHOICE: an unsealed
buffer is read as it stands at the end (log entry 81). -/
def State.emission (s : State) (o : RadioOp) (e : Nat) : State :=
  let call := o.kind == .calltx
  let n := if o.t + o.air ≤ e then o.air else e - o.t
  { s with sent := some {
      word := s.syt.word, dither := s.dither .syt, ant := o.ant
      level := (s.asOf o).clampLevel o.freq o.width o.level, start := o.t
      dev := if call then [] else (s.packetDev o).take (n / symFine o.rate)
      chips := if call then (s.callChips o).take (n / 49152) else [] } }

/-! One transmission. -/

/-- The operation carries a timestamp field that the transmit path fills (R114, R124). -/
def State.stamped (s : State) (o : RadioOp) : Bool :=
  o.kind == .beacon || (o.kind == .txf && fcTs (frameCtl o.frame) && s.on TXP_CTRL.TS_INS)

/-- A frame that carries a timestamp field is never sent late (R124). -/
def RadioOp.neverLate (o : RadioOp) : Bool :=
  o.kind == .beacon || o.kind == .ack || ((o.kind == .txf) && fcTs (frameCtl o.frame))

/-- A transmission whose outcome has been reported while PA_EN or the switches have still to return (R64). -/
def State.txTail (s : State) (id : Nat) (o : RadioOp) : State :=
  s.setOp id { o with aborted := true, ctx := none, lnch := none, wantAck := false }

/-- An operation on the transmit path ends without more air: SYT freed if it held it, PA claim withdrawn. A missed
acknowledgement sets MISS instead of reporting a status (R130). One whose frame is over keeps its last two steps. -/
def State.txEnd (s : State) (id status extra : Nat) : State :=
  match s.op id with
  | none => s
  | some o =>
    if o.tailing then (if o.aborted then s else (s.opClose id o status extra).txTail id o)
    else
      let s := if o.holds then s.txFree else s
      if o.kind == .ack && status != Status.ok then
        (((s.withdraw (.pa id)).claimLapse id o).dropOp id).raise TXP_ACK_CFG.MISS TXP_ACK_CFG.MISS_CNT
      else s.opEnd id status extra

/-- A transmission cut short: charged from the launch instant to now, at least 1 unit once PA_EN has risen; the PA ramps down
with the shorter of RAMP and 16 µs, and steps 7 and 8 follow with their lags (R64, R125). -/
def State.txCut (s : State) (id status : Nat) : State :=
  match s.op id with
  | none => s
  | some o =>
    if o.phase == .onAir then
      let a := max 1 (airUnits (min o.air (s.stamp - o.t)))
      let u := o.units + a
      let ramp := min s.rampUs 16 + s.fld RFA_EXT_CTL.PA_LAG
      let fall := s.stamp + usFine ramp
      let back := s.stamp + usFine (ramp + s.fld RFA_EXT_CTL.SW_LAG)
      (((s.charge o a s.stamp).emission o s.stamp).opClose id o status (min u 0xFFFF)).txTail id
        { o with phase := .fall, units := u, endAt := s.stamp, fallAt := fall, backAt := back }
    else if o.tailing then s
    else s.txEnd id status (min o.units 0xFFFF)

/-- The transmission that holds SYT. -/
def State.txNow (s : State) : Option Nat :=
  s.opIds.find? (fun i => match s.op i with | some o => o.holds | none => false)

/-- Everything that would leave a transmission not ready at its release point, apart from LBT and accounts: lock at its
word, sealing, SYT free, CK_RADIO (R117 step 5, R118, Table 6-3). -/
def State.txReady (s : State) (o : RadioOp) : Bool :=
  s.syt.phase == .locked && s.syt.word == wordOf2 o.freq && (!o.doSeal || o.sealed) && !s.on TXP_STAT.ACTIVE && s.cmr.st == 5

/-- A late occurrence of a transmission (R34, R124): it waits under ACT_LATE, otherwise ends with LATE. -/
def State.txLate (s : State) (id : Nat) (phase : OpPhase) : State :=
  match s.op id with
  | none => s
  | some o =>
    let s := match o.lnch with
      | some n =>
        if (s.launcher n.val).op == some id then s.setFld (CVN_Ln_ACT.MISSED n.val) 1
        else if o.kind == OpKind.beacon && (s.launcher n.val).op == some o.buf then
          (s.setFld (CVN_Ln_ACT.MISSED n.val) 1).setLauncher n.val { s.launcher n.val with late := true }
        else s
      | none => s
    if o.pol = 0 ∧ !o.neverLate then s.setOp id { o with late := true, phase := phase }
    else s.txEnd id Status.late 0

/-- The end of the slot that bounds a transmission at `t` (R134, R389); none where the ALOHA rules hold. -/
def State.slotBound (s : State) (o : RadioOp) (t : Nat) : Option Nat :=
  if o.kind == .beacon then some (t + slotFine s.bo) else s.bound o t

/-- From the launch instant to the end of the last symbol: every copy of a wake call with the gaps between them (R133). -/
def State.wholeAir (s : State) (o : RadioOp) : Nat :=
  o.air * (o.copies + 1) + o.copies * msFine (s.fld TXP_CALL_CFG.GAP)

/-- The transmission ends, with its ramp, by the end of its slot (R134). -/
def State.slotFits (s : State) (o : RadioOp) (t : Nat) : Bool :=
  match s.slotBound o t with
  | some e => decide (t + s.wholeAir o + usFine s.rampUs ≤ e)
  | none => true

/-- The switches move and SYT is held: T is fixed (Table 6-2 step 5). -/
def State.txGo (s : State) (id : Nat) (o : RadioOp) (tr : Nat) : State :=
  (s.switchTx o.ant).setOp id { o with phase := .grant, t := tr + s.lead }

/-- Room in the accounts, then the launch (Table 6-2 step 5). -/
def State.txRoom (s : State) (id : Nat) (o : RadioOp) (tr : Nat) : State :=
  if !s.slotFits o (tr + s.lead) then s.txEnd id Status.late 0
  else if s.allRoom o (o.units + airUnits o.air * (o.copies + 1)) then s.txGo id o tr
  else (s.exhaust o (o.units + airUnits o.air * (o.copies + 1))).txEnd id Status.dutyExhausted 0

/-- A busy result: retried with a moved T, or the end with CHANNEL_BUSY (R122, R124). -/
def State.txBusy (s : State) (id : Nat) (o : RadioOp) (tr : Nat) : State :=
  if o.tries < s.fld TXP_LBT_CFG.RETRY ∧ !o.neverLate then
    let b := s.drawBackoff
    let q := b.1.drawListen o
    let t := tr + s.lead + ceilDiv (b.2 * 196608) 10
    let s := q.1.setOp id { q.2 with tries := o.tries + 1, phase := .backoff, t := t }
    match o.lnch with
    | some n => if (s.launcher n.val).op == some id then s.setLauncher n.val { s.launcher n.val with stamp := t } else s
    | none => s
  else (s.setNocov false).txEnd id Status.channelBusy 0

/-- Step 5 of Table 6-2 at release point `tr`, lock and sealing confirmed: listen-before-talk, then the accounts. -/
def State.txStep5 (s : State) (id : Nat) (o : RadioOp) (tr : Nat) : State :=
  if s.lbtNeeded o then
    let r := s.lbtTest o tr
    if r.nocov then (s.setNocov true).txEnd id Status.channelBusy 0
    else if !r.covered then
      if o.kind == .ack then s.txEnd id Status.channelBusy 0
      else if s.fld TXP_LBT_CFG.MODE = 2 then (s.setNocov false).txEnd id Status.channelBusy 0
      else if o.at_ ∧ !o.late then s.txLate id .cover
      else s.setOp id { o with phase := .cover }
    else if r.clear then s.txRoom id o tr
    else s.txBusy id o tr
  else s.txRoom id o tr

/-- The LBT instruction's decision for the interval ending at `tr` (R119). -/
def State.lbtDecide (s : State) (id : Nat) (o : RadioOp) (tr : Nat) : State :=
  let r := s.lbtTest o tr
  if r.nocov then s.opEnd id Status.channelBusy 255
  else if !r.covered then
    if s.fld TXP_LBT_CFG.MODE = 2 then s.opEnd id Status.channelBusy r.worst
    else s.setOp id { o with phase := .cover }
  else s.opEnd id (if r.clear then Status.ok else Status.channelBusy) r.worst

/-- The temperature byte of own frames: round(TEMP ÷ 8), limited to −127 … 127 (R146). -/
def State.tempByte (s : State) : Nat := twos 8 (clampInt (-127) 127 (roundDiv s.temp 8))

/-- The temperature byte and the timestamp field that the transmit path puts into a TXF's frame: offset and bytes (R114). -/
def State.txFill (s : State) (o : RadioOp) (t : Nat) : List (Nat × List Byte) :=
  let c := frameCtl o.frame
  (if fcTemp c && s.on TXP_CTRL.TEMP_INS then [(tempOff c, leBytes 1 s.tempByte)] else []) ++
    (if fcTs c && s.on TXP_CTRL.TS_INS then [(tsOff c, leBytes 8 (stampWord (t + (o.pre + 24) * symFine o.rate)))] else [])

/-- AES blocks of a seal (R154). -/
def sealBlocks (h p level : Nat) : Nat :=
  if encrypts level then 2 + ceilDiv (h + 2) 16 + 2 * ceilDiv p 16 else 2 + ceilDiv (h + p + 2) 16

/-- The sealing of a transmission queued for the AES engines (R155). -/
def State.txSealAdd (s : State) (id : Nat) (o : RadioOp) : State :=
  let s := s.addEng (.new (.txSeal id) none 0 false 0 o.prio o.ticket)
  let r := s.aesClaim o.prio o.ticket
  if r.2 then r.1
  else (r.1.dropEng (s.engNext - 1)).txEnd id Status.budgetDenied 0

/-- Step 3 of Table 6-2: SYT has locked. The frame is filled and its sealing queued, a beacon's apart (`beaconSealAt`); a T that
is to be fixed is fixed (R124). DESIGN CHOICE: this instant is also when classic mode reaches step 4, and R122's repeats keep it (log entry 177). -/
def State.txLocked (s : State) (id : Nat) : State :=
  match s.op id with
  | none => s
  | some o =>
    if o.phase != .lock then s
    else
      let q := s.drawListen o
      let s := q.1
      let o := q.2
      let c := frameCtl o.frame
      let fix := o.kind == .txf && s.stamped o && !o.at_
      let blocks := if o.doSeal then sealBlocks (hdrLen c) (o.frame.length - hdrLen c) (fcLevel c) else 0
      let t := if fix then s.stamp + 12 * blocks + usFine 20 + s.lead else o.t
      let o := { o with phase := .release, origin := s.stamp, t := t, at_ := o.at_ || fix }
      let o := if o.kind == .txf then { o with ins := s.txFill o t } else o
      let s := s.setOp id o
      if o.doSeal ∧ o.kind ≠ .beacon then s.txSealAdd id o else s

/-- Step 2 of Table 6-2: SYT tunes when its word differs; a context of a TXF parks for lock (R59). -/
def State.txTune (s : State) (id : Nat) : State :=
  match s.op id with
  | none => s
  | some o =>
    let s := s.setOp id { o with phase := .lock }
    let s := match o.ctx with
      | some k => if (s.cx k.val).susp == .radio id then s.park k.val .radio (.radio id) else s
      | none => s
    if s.syt.word = wordOf2 o.freq ∧ s.syt.phase = .locked then s.txLocked id
    else if s.syt.word = wordOf2 o.freq ∧ s.syt.phase = .settling then s
    else s.tuneAdd .syt ⟨wordOf2 o.freq, none, false, some id, o.ticket⟩

/-- Step 1's accounts and the transmit-base claim (R117, Table 14-5). -/
def State.txBegin (s : State) (id : Nat) : State :=
  match s.op id with
  | none => s
  | some o =>
    let a := airUnits o.air * (o.copies + 1)
    let o := { o with cfg := s.fixedRegs }
    let s := s.setOp id o
    if !s.allRoom o a then (s.exhaust o a).txEnd id Status.dutyExhausted 0
    else if s.synOn .syt then s.txTune id
    else
      let r := s.powerClaim .syt o.prio o.ticket
      if r.2 then
        let s := r.1.setOp id { o with phase := .claim }
        match o.ctx with
        | some k => if (s.cx k.val).susp == .radio id then s.park k.val .well (.radio id) else s
        | none => s
      else r.1.txEnd id Status.budgetDenied 0

/-- A channel that R115 refuses, for an airtime of `air`. -/
def State.txRefused (s : State) (freq w air : Nat) : Bool :=
  !wordOk (wordOf2 freq) || (s.on TXP_CTRL.REQ_ACC && (s.acctsOf freq w).isEmpty) || s.tooLong freq w air

/-- A claim that fits the budget now (R335). -/
def State.grantable (s : State) (c : Claim) : Bool := decide (s.wellUsed + c.amt ≤ 2 * s.fld WELL_BUDGET.BUDGET)

/-- The first-ranked claim is the PA claim of `id` and fits. -/
def State.paReady (s : State) (id : Nat) : Option Claim :=
  match s.wellHead with
  | some c => if c.who == .pa id && s.grantable c then some c else none
  | none => none

/-- PA_EN is high: the symbols follow at T, PA_CTL's ramp at T − RAMP with PACTL_EN = 1 (Table 3-7 steps 2 and 3). -/
def State.paUp (s : State) (id : Nat) (o : RadioOp) : State :=
  let s := (s.setOp id { o with phase := .onAir }).selfMark
  { s with pins := { s.pins with
    paEn := true, paCtl := if s.on RFA_EXT_CTL.PACTL_EN then some (o.t - usFine s.rampUs) else none } }

/-- The context that waits for an operation shows what it waits for (R293). -/
def State.opWaits (s : State) (id : Nat) (o : RadioOp) (w : Wait) : State :=
  match o.ctx with
  | some k => if (s.cx k.val).susp == .radio id then s.park k.val w (.radio id) else s
  | none => s

/-- PA_EN rises on schedule: the claim is placed, and granted at once when it ranks first and fits; otherwise the
occurrence is late (R123). A claim that a late grant has given stands already. -/
def State.paRise (s : State) (id : Nat) (o : RadioOp) : State :=
  if s.holds (.pa id) then s.paUp id o
  else
  let r := s.place (.pa id) (s.paClaim ((s.asOf o).clampLevel o.freq o.width o.level)) o.prio o.ticket
  if !r.2 then r.1.txEnd id Status.budgetDenied 0
  else
    match r.1.paReady id with
    | some c =>
      (r.1.grantClaim c).paUp id o
    | none =>
      let s := r.1.txFree
      let s := s.setOp id { o with phase := .lateGrant }
      if o.pol = 0 ∧ !o.neverLate then (s.txLate id .lateGrant).opWaits id o .well
      else (s.withdraw (.pa id)).txLate id .lateGrant

/-- A late grant (R123): the grant instant is the new release point; listen-before-talk once more, without retries. The
switches move at once, and PA_EN rises SW_LEAD later. -/
def State.paLate (s : State) (id : Nat) (o : RadioOp) (c : Claim) : State :=
  let s := (s.grantClaim c).opWaits id o .radio
  let q := s.drawListen o
  let s := q.1
  let o := q.2
  let r := s.lbtTest o s.stamp
  if s.lbtNeeded o ∧ !(r.covered ∧ r.clear) then
    ((s.withdraw (.pa id)).setNocov r.nocov).txEnd id Status.channelBusy 0
  else if !s.slotFits o (s.stamp + s.lead) then (s.withdraw (.pa id)).txEnd id Status.late 0
  else
    let t := s.stamp + s.lead
    let s := (s.switchTx o.ant).setOp id { o with phase := .grant, t := t, late := true }
    match o.lnch with
    | some n => if (s.launcher n.val).op == some id then (s.lnHit n.val true).lnOff n.val else s
    | none => s

/-- A running chain with its detectors on covers the channel (R132). -/
def State.hears (s : State) (freq w : Nat) : Bool :=
  (s.on CHZ_CTRL.DET_A && (s.covers .a freq w).isSome) || (s.on CHZ_CTRL.DET_B && (s.covers .b freq w).isSome)

/-- The status of a transmission that went out whole. -/
def RadioOp.sent (o : RadioOp) : Nat := if o.late then Status.lateSent else Status.ok

/-- The last symbol has ended and the ramp with it (Table 3-7 steps 5 and 6, Table 6-2 step 9): the accounts are charged. -/
def State.txRamped (s : State) (id : Nat) (o : RadioOp) : State :=
  let e := o.t + o.air
  let s := (s.charge o (airUnits o.air) (e + usFine s.rampUs)).emission o e
  let s := s.setOp id { o with
    phase := .fall, units := o.units + airUnits o.air, endAt := e, fallAt := e + s.fallLag, backAt := e + s.tail }
  { s with pins := { s.pins with paCtl := none } }

/-- Step 7 of Table 3-7. -/
def State.txFall (s : State) (id : Nat) (o : RadioOp) : State := (s.paFall id o.fallAt).setOp id { o with phase := .swap }

/-- Step 8 of Table 3-7: SYT freed, the outcome set or the acknowledgement awaited (R125, R132). -/
def State.txDone (s : State) (id : Nat) (o : RadioOp) : State :=
  let s := s.txFree
  if o.aborted then s.dropOp id
  else
    let s := if s.inOwnCell o then
        { s.upSet 0x12 1 0 with mac := { s.mac with sent := true } }
      else if o.kind == .beacon then s.beaconSent o
      else s
    let s := s.setOp id { o with phase := .ackWait }
    if o.wantAck then
      if s.hears o.freq o.width then s else (s.setNocov true).opEnd id Status.noAck (min o.units 0xFFFF)
    else s.opEnd id o.sent (min o.units 0xFFFF)

end Sys2Proof.Machine
end

