-- ==== Sys2Proof/Machine/Mac.lean ====
section
/-! DEFINITION. The MAC timing engine: beacons, group acknowledgement, assignment, leases, beacon loss (R162–R190). -/

namespace Sys2Proof.Machine

/-- The host port of the engine's events (MAC_ROLE.EVPORT). -/
def State.macPort (s : State) : Nat := s.fld MAC_ROLE.EVPORT

/-- An assignment entry queued (R169): the queue holds 128. -/
def State.assign (s : State) (saddr cell : Nat) : State × Bool :=
  if s.mac.queue.length < 128 then
    ({ s with mac := { s.mac with queue := s.mac.queue ++ [(saddr % 65536, cell)] } }, true)
  else (s, false)

/-- A member's cell taken from it: the slot byte 0xFF and a release entry (R178, R184). -/
def State.releaseCell (s : State) (i : Nat) : State :=
  let x := match s.cellOf i with
    | some (_, _, x) => x
    | none => 0
  let a := s.pt i 8 2
  ((s.ptSet i 0x1C 1 0xFF).assign a (x % 4096 + 4096)).1

/-! The beacon (R166–R168, R175, R186). -/

/-- The superframe that the beacon of superframe `k` acknowledges: the last one before it that was not skipped. -/
def State.ackedSf (s : State) (k : Nat) : Nat :=
  match s.mac.ann with
  | some a => match a.first with
    | some f => if k = f + a.n then f + a.arep else k - 1
    | none => k - 1
  | none => k - 1

/-- NEXT as the beacon of superframe `k` carries it (R186). -/
def State.nextOf (s : State) (k : Nat) : Nat :=
  match s.mac.ann with
  | none => 1
  | some a => match a.first with
    | none => a.n
    | some f => if k - f ≤ a.arep ∧ k < f + a.n then a.n - (k - f) else 1

/-- The announcement after the beacon of superframe `k` has been built: the first one begins it. -/
def State.annStep (s : State) (k : Nat) : State :=
  match s.mac.ann with
  | none => s
  | some a => match a.first with
    | none => { s with mac := { s.mac with ann := some { a with first := some k } } }
    | some _ => s

/-- An announcement once the beacons have stopped: one that has begun ends with the next beacon to be sent, one that has not
begun stays. DESIGN CHOICE: R186 does not say what a new GACK makes of it (log entry 184). -/
def annHold (a : Option Ann) : Option Ann := a.map (fun x => if x.first.isSome then ⟨0, 0, some 0⟩ else x)

/-- The members' cells: assigned-cell index and partner. -/
def State.cells (s : State) : List (Nat × Nat) :=
  s.members.filterMap (fun i => (s.cellOf i).map (fun c => (c.2.2, i)))

/-- The member in cell `i` was heard in superframe `k`, and opened with AFTER_OPEN (R175). -/
def State.acked (s : State) (cs : List (Nat × Nat)) (k i : Nat) : Bool :=
  cs.any (fun c => c.1 == i && s.mac.heard.contains (c.2, k) &&
    (!s.on MAC_GACK_CFG.AFTER_OPEN || s.mac.opened.contains (c.2, k)))

/-- Bytes of a bitmap of `g` bits. -/
def mapBytes (bits : List Bool) : List Byte :=
  leBytes (ceilDiv bits.length 8) ((List.range bits.length).foldl (fun n i => n + b2n (bits[i]?.getD false) * 2 ^ i) 0)

/-- The frame control of own beacons (R167). -/
def State.beaconCtl (s : State) : Nat :=
  let l := s.fld MAC_ROLE.BLEVEL
  3 * 2 ^ 8 + 2 ^ 11 + if l = 0 then 0 else 8 + l * 2 ^ 12

/-- LEN of a beacon with `g` bits of group acknowledgement and `n` entries. -/
def State.beaconLen (s : State) (o : RadioOp) (g n : Nat) : Nat :=
  hdrLen s.beaconCtl + 16 + ceilDiv g 8 + 4 * n + micOf s.beaconCtl + s.fcsLen o.sset

/-- Its airtime. -/
def State.beaconAir (s : State) (o : RadioOp) (g n : Nat) : Nat :=
  symbols o.pre (s.beaconLen o g n) o.fec o.mod4 * symFine o.rate

/-- It fits slot 0 and 511 bytes (R168, R115). -/
def State.beaconFits (s : State) (o : RadioOp) (g n : Nat) : Bool :=
  decide (s.beaconLen o g n ≤ 511) && decide (s.beaconAir o g n + usFine s.rampUs ≤ slotFine s.bo)

/-- The beacon for launch instant `o.t` (R167, R168), and the engine after it. -/
def State.buildBeacon (s : State) (o : RadioOp) : State × List Byte :=
  let z := s.mac.sf0.getD o.t
  let k := (o.t - z) / biFine s.bo
  let cs := s.cells
  let lo := cs.foldl (fun m c => min m c.1) 4095
  let hi := cs.foldl (fun m c => max m c.1) 0
  let base := if cs = [] then 0 else if lo < s.mac.base ∧ s.mac.base ≤ hi then s.mac.base else lo
  let want := if cs = [] then 0 else min (hi - base + 1) (min (s.fld MAC_GACK_CFG.MAXBITS) 2048)
  let g := (((List.range (want + 1)).reverse).find? (fun g => s.beaconFits o g 0)).getD 0
  let bits := (List.range g).map (fun j => s.acked cs (s.ackedSf k) (base + j))
  let n := (((List.range (min 127 s.mac.queue.length + 1)).reverse).find? (fun n => s.beaconFits o g n)).getD 0
  let cfg := putBits (s.reg MAC_SF_CFG.off) 31 16 (s.nextOf k)
  let c := s.beaconCtl
  let payload := leBytes 4 cfg.toNat ++ leBytes 4 (s.reg MAC_PLAN.off).toNat ++ leBytes 2 (s.fld MAC_NETID.SEED) ++
    leBytes 2 (s.fld MAC_GACK_CFG.TXOFS) ++ leBytes 3 (base + g * 2 ^ 12) ++ mapBytes bits ++ leBytes 1 n ++
    ((s.mac.queue.take n).map (fun e => leBytes 2 e.1 ++ leBytes 2 e.2)).flatten
  let hdr := leBytes 2 c ++ leBytes 1 (s.mac.num % 256) ++ leBytes 2 (s.fld MAC_NETID.NETID) ++ leBytes 8 s.laddr ++
    (if fcSec c then leBytes 4 0 ++ leBytes 1 (s.fld MAC_ROLE.BKEY) else []) ++
    leBytes 8 (stampWord (o.t + (o.pre + 24) * symFine o.rate))
  let s := { s with mac := { s.mac with
    num := s.mac.num + 1
    queue := s.mac.queue.drop n
    base := if hi < base + g then 0 else base + g
    heard := s.mac.heard.filter (fun e => decide (k ≤ e.2 + 1))
    opened := s.mac.opened.filter (fun e => decide (k ≤ e.2 + 1)) } }
  (s.annStep k, hdr ++ payload)

/-- The beacon put into its operation, with its airtime. -/
def State.beaconFill (s : State) (id : Nat) (o : RadioOp) : State × RadioOp :=
  let r := s.buildBeacon o
  let len := r.2.length + micOf (frameCtl r.2) + s.fcsLen o.sset
  let o := { o with frame := r.2, air := symbols o.pre len o.fec o.mod4 * symFine o.rate }
  (r.1.setOp id o, o)

/-- The next beacon operation of GACK operation `gid` on launcher `n`, for the launch instant `t`. -/
def State.beaconNew (s : State) (gid : Nat) (n : Fin 32) (t : Nat) : State :=
  match s.op gid with
  | none => s
  | some g =>
    let id := s.opNext
    let s := s.addOp { g with
      kind := .beacon, ctx := none, phase := .release, at_ := true, pol := 1, lnch := some n, t := t, buf := gid
      doSeal := s.fld MAC_ROLE.BLEVEL != 0, key := s.fld MAC_ROLE.BKEY, pre := s.fld TXP_CTRL.PRE_LEN }
    s.txBegin id

/-- The beacons stop (R291, R165): the launcher disarmed, operations that are not on the air ended. -/
def State.gackStop (s : State) : State :=
  let s := s.opIds.foldl (fun s i => match s.op i with
    | some o =>
      if o.kind == .gack then
        let s := match o.lnch with
          | some n => s.lnOff n.val
          | none => s
        (s.dropOp i).opReport i o Status.aborted 0
      else if o.kind == .beacon && !o.launched then s.txEnd i Status.aborted 0
      else s
    | none => s) s
  { s with mac := { s.mac with sf0 := none, ann := annHold s.mac.ann, heard := [], opened := [], base := 0, done := 0 } }

/-! Uplinks (R173, R175, R184). -/

/-- An OK frame heard on a chain: counted for the member it comes from when it is in its cell (R173, R189). -/
def State.macHear (s : State) (f : List Byte) (c : Chain) (t : Nat) : State :=
  if s.ownSf.isSome then
    let m := fcSmode (frameCtl f)
    let from_ := s.members.filter (fun i =>
      (m == 2 && s.pt i 8 2 == srcOf f) || (m == 3 && s.pt i 0 8 == srcOf f))
    from_.foldl (fun s i => match s.inCell i t with
      | some k => if s.cellOn i c then { s with mac := { s.mac with heard := (i, k) :: s.mac.heard } } else s
      | none => s) s
  else s

/-- A frame of partner `i` accepted by OPEN, its sync word ending at `t` (R175). -/
def State.macOpened (s : State) (i t : Nat) : State :=
  if s.ownSf.isSome ∧ s.isMember i then
    match s.inCell i t with
    | some k => { s with mac := { s.mac with opened := (i, k) :: s.mac.opened } }
    | none => s
  else s

/-- A partner lost to its model (R45). DESIGN CHOICE: PARTNER_UNMODELLED is not reported here, for no record or event is named
for it: the flag stands, and TDRIFT ends with the status under UNMOD = 1 (R185; log entry 169). -/
def State.unmodel (s : State) (i : Nat) : State :=
  if s.partnerValid i then
    let p := s.pt i 0x0A 2
    ((s.ptSet i 0x0A 2 (p ||| 128)).ptSet i 0x2F 1 250).ptSet i 0x33 1 0
  else s

/-- One member's count at the end of its slot (R184). DEDUCED: a member whose frame was not found in its cell is unmodelled
(R45). -/
def State.missMember (s : State) (i j k t : Nat) : State :=
  if s.mac.heard.contains (i, k) then s.ptSet i 0x0F 1 0
  else
    let n := s.pt i 0x0F 1 + 1
    let s := (s.unmodel i).ptSet i 0x0F 1 (min 3 n)
    if n < 3 then s
    else
      let p := s.pt i 0x0A 2
      let s := s.ptSet i 0x0A 2 (p ||| 256)
      (s.releaseCell i).post s.macPort 0x12 Status.noAck 0 i j t

/-- The next end of slot `j`: superframe and stamp. -/
def State.slotDue (s : State) (z j : Nat) : Nat × Nat :=
  let k := s.mac.done / 32 + if j < s.mac.done % 32 then 1 else 0
  (k, z + (32 * k + j + 1) * slotFine s.bo)

/-- ASSIGNED_SLOT_END (R184): the members of slot `j` are counted, unless the superframe was skipped. -/
def execAssignedSlotEnd (slot : Nat) (s : State) : Host.Outcome State Fault Refusal :=
  match s.ownSf with
  | none => .next s
  | some z =>
    let d := s.slotDue z slot
    if s.awake ∧ (assigned s.cont.1 s.cont.2).contains slot ∧ s.reach d.2 then
      let s := s.moveTo d.2
      let s := { s with mac := { s.mac with done := 32 * d.1 + slot + 1 } }
      if s.skipped d.1 then .next s
      else
        .next ((s.members.filter (fun i => match s.cellOf i with
          | some (j, _, _) => j == slot
          | none => false)).foldl (fun s i => s.missMember i slot d.1 d.2) s)
    else .next s

/-! Leases (R178, R179). -/

/-- Ticks of a minute. -/
def minuteTicks : Nat := 1966080

/-- One entry's lease ended at the coordinator (R178). -/
def State.leaseEnd (s : State) (i : Nat) : State :=
  let p := s.pt i 0x0A 2
  let s := s.releaseCell i
  let s := s.ptSet i 0x0A 2 (p - (if p.testBit 9 then 512 else 0) - (if p.testBit 2 then 4 else 0))
  s.post s.macPort 0x11 Status.addressReleased 0 i 0 s.stamp

/-- LEASE_SCAN (R178): every 1,966,080 ticks, every entry of the table is checked. -/
def execLeaseScan (s : State) : Host.Outcome State Fault Refusal :=
  let t := 6000 * s.mac.leaseAt
  if s.awake ∧ s.on MAC_ROLE.SF_EN ∧ s.reach t then
    let s := s.moveTo t
    let s := { s with mac := { s.mac with leaseAt := (max (s.tick) s.mac.leaseAt / minuteTicks + 1) * minuteTicks } }
    let n := if s.fld MAC_PTAB_BASE.ENTRIES = 0 then 4096 else s.fld MAC_PTAB_BASE.ENTRIES
    .next (((List.range n).filter (fun i => s.partnerValid i && (s.pt i 0x0A 2).testBit 9 &&
      decide (wordStamp (s.pt i 0x20 8) + s.fld MAC_LEASE.LEASE * minuteTicks * 6000 < s.stamp))).foldl
        State.leaseEnd s)
  else .next s

/-- The stamp at which the own lease runs out (R179). -/
def State.ownLease (s : State) : Option Nat :=
  if s.up 0x14 2 = 0 ∨ !s.on MAC_ROLE.MB_EN ∨ s.fld MAC_SADDR.SADDR = 0xFFFE then none
  else s.mac.lastAcc.map (fun a => a + s.up 0x14 2 * minuteTicks * 6000)

/-- LEASE_EXPIRY (R179): the own lease runs out. -/
def execLeaseExpiry (s : State) : Host.Outcome State Fault Refusal :=
  match s.ownLease with
  | none => .next s
  | some t =>
    if s.awake ∧ s.reach t then
      let s := s.moveTo t
      let s := (s.setFld MAC_SADDR.SADDR 0xFFFE).upSet 0x10 2 0xFFFF
      let s := s.raise MAC_BEACON_STAT.REL MAC_BEACON_STAT.REL_CNT
      .next (s.post s.macPort 0x11 Status.addressReleased 0 0xFFFF 0 t)
    else .next s

/-! The member role (R180–R183, R187). -/

/-- The stamp predicted for the next beacon, kept in NEXTB, `n` occasions having passed; without the upstream entry it moves by
as many intervals (R183, R190). -/
def State.upPredict (s : State) (n : Nat) : State :=
  s.upSet 0x18 8 (stampWord (s.upNext + if s.upKnown then 0 else n * biFine s.upBo))

/-- A scan begins (R182). -/
def State.scanBegin (s : State) : State :=
  let s := (s.setFld MAC_BEACON_STAT.SYNC 0).setFld MAC_BEACON_STAT.SCAN 1
  { s with mac := { s.mac with scanEnd := some (s.stamp + s.fld MAC_MISS_CFG.SCAN * biFine s.upBo) } }

/-- Beacon loss declared (Table 8-4, third row): the member's scheduled transmissions end with LATE. -/
def State.beaconLost (s : State) : State :=
  let s := s.raise MAC_BEACON_STAT.LOST MAC_BEACON_STAT.LOST_CNT
  let u := s.fld MAC_ROLE.UPIDX
  let s := s.post s.macPort 0x10 Status.beaconLost 0 u 0 s.stamp
  let s := s.opIds.foldl (fun s i => match s.op i with
    | some o =>
      if o.kind == .txf && o.at_ && o.pidx == u && !o.launched && o.phase != .ackWait && o.phase != .ackDecode then
        s.txEnd i Status.late 0
      else s
    | none => s) s
  (s.unmodel u).scanBegin

/-- `n` occasions missed (R181, R183): the row of Table 8-4 that the count reaches. -/
def State.missed (s : State) (n : Nat) : State :=
  let m := min 3 (s.fld MAC_BEACON_STAT.MISS + n)
  let s := s.setFld MAC_BEACON_STAT.MISS m
  let s := { s with mac := { s.mac with nextN := s.mac.nextN + n } }
  if m = 3 then s.beaconLost else s.upPredict n

/-- The channel of a beacon that a member takes (R180, R182). -/
def State.upChannel (s : State) (freq : Nat) : Bool :=
  freq == natBits (s.up 0x0C 4) 16 0 || (s.on MAC_BEACON_STAT.SCAN &&
    (List.range s.upChannels).any (fun c => freq == natBits (s.up 4 4) 16 0 + c * natBits (s.up 4 4) 24 17))

/-- A frame whose sync word ended in the window is still being received, or a beacon is being opened: the window lasts for its
length (R43, R180). -/
def State.beaconPending (s : State) : Bool :=
  s.engs.any (fun e => match e.2 with
    | some o => (match o.kind with | .beacon _ _ _ _ _ _ => true | _ => false)
    | none => false) ||
  s.lanes.any (fun l => match l.2 with
    | some ln => match s.ent ln.entry with
      | some x => match x.sync with
        | some (_, t) => decide (s.upWindow.1 ≤ t) && decide (t ≤ s.upWindow.2) &&
            s.upChannel ((s.centre2 ln.chain x.bin x.width).toNat / 2)
        | none => false
      | none => false
    | none => false)

/-- BEACON_MISS (R181): the window has ended without an accepted beacon. -/
def execBeaconMiss (s : State) : Host.Outcome State Fault Refusal :=
  if s.awake ∧ s.upSync ∧ s.reach s.upWindow.2 ∧ !s.beaconPending then .next ((s.moveTo s.upWindow.2).missed 1)
  else .next s

/-- SCAN_END (R182): the member stays unsynchronised. -/
def execScanEnd (s : State) : Host.Outcome State Fault Refusal :=
  match s.mac.scanEnd with
  | some t =>
    if s.awake ∧ s.on MAC_BEACON_STAT.SCAN ∧ s.reach t then
      let s := (s.moveTo t).setFld MAC_BEACON_STAT.SCAN 0
      .next { s with mac := { s.mac with scanEnd := none } }
    else .next s
  | none => .next s

/-- The cell of this member that a beacon's entries give: the last entry for its address (R170). -/
def cellEntry (saddr : Nat) : List Byte → Nat → Option Nat
  | _, 0 => none
  | bs, n + 1 =>
    match cellEntry saddr (bs.drop 4) n with
    | some c => some c
    | none => if leNat (bs.take 2) = saddr then some (leNat ((bs.drop 2).take 2)) else none

/-- What an accepted beacon's payload changes in the upstream record (R170, R171, R176, R180). -/
def State.upTake (s : State) (p : List Byte) : State :=
  let s := s.store upRec (p.take 12)
  let sa := s.fld MAC_SADDR.SADDR
  let g := leNat ((p.drop 12).take 3)
  let base := g % 4096
  let count := g / 4096
  let rest := p.drop (15 + ceilDiv count 8)
  let i := s.up 0x10 2
  let s := if s.mac.sent then
      let b := leNat ((p.drop 15).take (ceilDiv count 8))
      let r := if i < base ∨ base + count ≤ i then 3 else if b.testBit (i - base) then 1 else 2
      { s.upSet 0x12 1 r with mac := { s.mac with sent := false } }
    else s
  let e := cellEntry sa (rest.drop 1) (leNat (rest.take 1))
  let s : State := match e with
    | some c => ((if c.testBit 12 then s.upSet 0x10 2 0xFFFF else s.upSet 0x10 2 (c % 4096)).upSet 0x13 1 0)
    | none => s
  let hash : Bool := (s.up 0 4).testBit 15
  let na := cellCount s.upCont.2 s.upChannels
  if hash ∧ sa < 0xFFFE ∧ 0 < na ∧ (s.up 0x10 2 = 0xFFFF ∨ s.up 0x13 1 % 2 = 1) then
    (s.upSet 0x10 2 (hashCell sa (s.up 8 2) na)).upSet 0x13 1 1
  else if hash = false ∧ s.up 0x13 1 % 2 = 1 then (s.upSet 0x10 2 0xFFFF).upSet 0x13 1 0
  else s

/-- A beacon heard where R180 or R182 can accept it: in the window, in the Erg just before it, or anywhere in a scan. -/
def State.upTimely (s : State) (t : Nat) (hist : Bool) : Bool :=
  if s.on MAC_BEACON_STAT.SCAN then true
  else s.upSync && ((decide (s.upWindow.1 ≤ t) && decide (t ≤ s.upWindow.2)) ||
    (hist && decide (s.upWindow.1 ≤ t + slotFine s.upBo) && decide (t < s.upWindow.1)))

/-- A beacon heard by the member role (R180): `f` the frame to the end of its MIC, `len` and `fcs` as in R145, the sync-end
stamp, the rate, the channel centre, and whether the lane decoded it from history. It goes to the AES engines as an OPEN does
(R155), with the entry's class and the ticket of its detection; a refused claim leaves the beacon missed. -/
def State.beaconHear (s : State) (f : List Byte) (len fcs : Nat) (c : Chain) (t rate freq : Nat) (hist : Bool)
    (prio : Nat) (ticket : Ticket) : State :=
  let u := s.fld MAC_ROLE.UPIDX
  if s.on MAC_ROLE.MB_EN ∧ (s.roleOf c).testBit 1 ∧ fcType (frameCtl f) = 0 ∧ fieldAt f 3 2 = s.fld MAC_NETID.NETID ∧
      fcSmode (frameCtl f) = 3 ∧ s.partnerValid u ∧ srcOf f = s.pt u 0 8 ∧ s.upTimely t hist ∧ s.upChannel freq ∧
      (fcSec (frameCtl f) ∨ !(s.pt u 0x0A 2).testBit 5) then
    let id := s.engNext
    let s := s.addEng { EngOp.new (.beacon len fcs t rate freq hist) none 0 false 0 prio ticket with staged := f }
    let r := s.aesClaim prio ticket
    if r.2 then r.1 else r.1.dropEng id
  else s

/-- A beacon that OPEN has accepted (R170–R172, R176, R180): its payload, its sync-end stamp, rate and channel. -/
def State.beaconTake (s : State) (payload : List Byte) (t rate freq : Nat) : State :=
  let s := (s.tlearn (s.fld MAC_ROLE.UPIDX) t s.upTicks 0x80).1
  let s := s.upTake payload
  let n := natBits (s.up 0 4) 31 16
  let s := (s.setFld MAC_BEACON_STAT.MISS 0).setFld MAC_BEACON_STAT.SYNC 1
  let s := if s.on MAC_BEACON_STAT.SCAN then s.upSet 0x0C 4 freq else s
  let s := s.setFld MAC_BEACON_STAT.SCAN 0
  let s := { s with mac := { s.mac with
    lastAcc := some t, start := t - (s.fld TXP_CTRL.PRE_LEN + 24) * symFine rate, nextN := max 1 n, scanEnd := none } }
  s.upPredict 0

/-- MB_EN set: the member looks for its coordinator (R182). The lease runs on from the last accepted beacon (R179). -/
def State.memberStart (s : State) : State :=
  ({ s with mac := { s.mac with nextN := 1, sent := false } }.setFld MAC_BEACON_STAT.MISS 0).scanBegin

/-- MB_EN cleared. -/
def State.memberStop (s : State) : State :=
  let s := (s.setFld MAC_BEACON_STAT.SYNC 0).setFld MAC_BEACON_STAT.SCAN 0
  { s with mac := { s.mac with scanEnd := none } }

/-- The engine goes on after a sleep (R183): occasions that passed are counted at once. NEXTB stands for the next one when
Deep sleep has cleared the upstream entry, so that a gap announced before it is slept through (R187). -/
def State.macWake (s : State) : State :=
  let s := match s.mac.sf0 with
    | some z => { s with mac := { s.mac with done := max s.mac.done ((s.stamp - z) / slotFine s.bo) } }
    | none => s
  if s.upSync then
    let hi := s.upWindow.2
    if s.stamp ≤ hi then s else s.missed (1 + (s.stamp - hi) / biFine s.upBo)
  else s

/-- NEXT written (R186): an announcement, its withdrawal before it has begun, or a reserved encoding, which changes
nothing. -/
def State.nextWrite (s : State) (n : Nat) : State :=
  let begun : Bool := match s.mac.ann with
    | some a => a.first.isSome
    | none => false
  if n = 0 ∨ (2 ≤ n ∧ n < s.fld MAC_MISS_CFG.AREP + 2) ∨ begun = true then s
  else
    { s.setFld MAC_SF_CFG.NEXT n with
      mac := { s.mac with ann := if n = 1 then none else some ⟨n, s.fld MAC_MISS_CFG.AREP, none⟩ } }

end Sys2Proof.Machine
end

