-- ==== Sys2Proof/Machine/Rf.lean ====
section
/-! DEFINITION. What the radio front end does by itself: tunes starting, lock, lock timeouts, unlocks, calibrations and
temperature conversions ending (R54–R59, R67, R68). -/

namespace Sys2Proof.Machine

/-- A tuning synthesiser works: it has its reference and CK_CORE serves it (R55, R303). -/
def State.rfRuns (s : State) : Bool := s.awake && s.on CLK_STAT.REF_OK

/-- A synthesiser that settles and is no longer held by a start bit of RFA_CAL_CTRL. -/
def State.settles (s : State) (y : Syn) : Bool := (s.syn y).phase == .settling && s.rfRuns

/-- The transmissions that wait for SYT, those whose word is `w` first of all going on at lock (R59). -/
def State.sytWaiters (s : State) (w : Nat) : List Nat :=
  s.opIds.filter (fun i => match s.op i with
    | some o => o.phase == .lock && o.kind != .tune && wordOf2 o.freq == w
    | none => false)

/-- The transmissions that a failed SYT ends (R59): those that waited for its word, and those that had its lock and are not on
the air or done with it. -/
def State.sytUsers (s : State) : List Nat :=
  s.opIds.filter (fun i => match s.op i with
    | some o => o.kind.sends && (o.phase == .lock || o.phase == .release || o.phase == .cover || o.phase == .backoff ||
        o.phase == .lateGrant) && (o.phase != .lock || wordOf2 o.freq == s.syt.word)
    | none => false)

/-- A TUNE operation ended; the operations of other kinds go on by themselves. -/
def State.tuneEnd (s : State) (id status kase : Nat) : State :=
  match s.op id with
  | some o => if o.kind == .tune then s.opEnd id status kase else s
  | none => s

/-- A synthesiser reaches lock, and what waited for it goes on (R48, R54, R59). -/
def State.lockReached (s : State) (y : Syn) (band : Nat) : State :=
  let s := s.lockNow y band
  let r := s.lockedTune y
  let s := s.clearTune y
  let s := match r with
    | some (some id, k) => s.tuneEnd id Status.ok k
    | _ => s
  if y == .syt then (s.sytWaiters s.syt.word).foldl State.txLocked s else s

/-- TUNE_START (R56): the oldest waiting tune of the synthesiser starts when nothing holds it. -/
def execTuneStart (y : Syn) (s : State) : Host.Outcome State Fault Refusal :=
  if s.awake then .next (s.touch.tuneTry y) else .next s

/-- SYNTH_LOCK (R54): the synthesiser locks; `band` is the capacitor band that a calibration chose. -/
def execSynthLock (y : Syn) (band : Nat) (s : State) : Host.Outcome State Fault Refusal :=
  if s.settles y ∧ !s.on (synVcoFld y) then .next (s.touch.lockReached y band) else .next s

/-- A tune that waited behind one that failed: the power is off, so that its operation places the claims anew and goes on from
there (R56, R291). -/
def State.tuneAgain (s : State) (t : Tune) : State :=
  match t.op, t.op.bind s.op with
  | some id, some o =>
    let r := s.powerClaim o.syn o.prio o.ticket
    if !r.2 then r.1.opEnd id Status.budgetDenied 0
    else
      let s := r.1.setOp id { o with phase := .claim }
      match o.ctx with
      | some k => if (s.cx k.val).susp == .radio id then s.park k.val .well (.radio id) else s
      | none => s
  | _, _ => s

/-- The tune of synthesiser `y` fails for good (R55): CAL_FAIL, a fault record, its operations end, the power goes off; waiting
tunes go on (R56). -/
def State.lockFail (s : State) (y : Syn) : State :=
  let x := s.syn y
  let s := s.raise RFA_CAL_STAT.CAL_FAIL RFA_CAL_STAT.CAL_FAIL_CNT
  let s := s.fault ⟨0x09, Status.lockTimeout, synIx y, x.word⟩
  let s := match x.cur.bind (·.op) with
    | some id => s.tuneEnd id Status.lockTimeout x.kase
    | none => s
  let s := match y, s.diversity, s.sya.cur.bind (·.op) with
    | .syb, true, some id => s.tuneEnd id Status.lockTimeout s.sya.kase
    | _, _, _ => s
  let s := if y == .syt then s.sytUsers.foldl (fun s i => s.txEnd i Status.lockTimeout 0) s else s
  let ys := s.offSyns y
  let waiting := ys.flatMap (fun z => (s.syn z).queue)
  let s := ys.foldl (fun s z => s.setSyn z { s.syn z with queue := [] }) s
  let s := ys.foldl (fun s z => s.synOff z none) s
  waiting.foldl State.tuneAgain s

/-- LOCK_TIMEOUT (R55): 400 µs after the start of the tune, or after the TCXO was present, the first one starts a full
calibration and a second timeout; the second ends the tune. -/
def execLockTimeout (y : Syn) (s : State) : Host.Outcome State Fault Refusal :=
  let t := (s.syn y).since + usFine 400
  if s.settles y ∧ s.reach t then
    let s := s.moveTo t
    let x := s.syn y
    if x.second then .next (s.lockFail y)
    else .next { s.setSyn y { x with second := true, kase := max 1 x.kase, since := s.stamp } with tempConv := true }
  else .next s

/-- The chains that an unlock reaches (R76, Table 3-6). -/
def State.unlockChains (s : State) (y : Syn) : List Chain := s.tuneChains y

/-- A locked synthesiser loses lock (R58): UNLK, a fault record, a full calibration at once, and the effects of Table 3-6. -/
def State.synUnlock (s : State) (y : Syn) : State :=
  let f := synUnlkFld y
  let s := s.raise f.1 f.2
  let s := s.fault ⟨0x08, Status.lockTimeout, synIx y, (s.syn y).word⟩
  let s := s.calBegin y
  let s := if y == .sya && s.diversity then { s with sya := { s.sya with wide := true } } else s
  let s := (s.gapLanes (s.unlockChains y) Status.lockTimeout).gapCase (s.unlockChains y)
  match y, s.txNow with
  | .syt, some id => s.txCut id Status.lockTimeout
  | _, _ => s

/-- SYNTH_UNLOCK (R58). -/
def execSynthUnlock (y : Syn) (s : State) : Host.Outcome State Fault Refusal :=
  if (s.syn y).phase == .locked ∧ s.awake then .next (s.touch.synUnlock y) else .next s

/-- SYT_VCO_START (R68): a calibration of SYT that waited for a transmission starts. -/
def execSytVcoStart (s : State) : Host.Outcome State Fault Refusal :=
  if s.awake ∧ s.syt.calWait ∧ !s.on TXP_STAT.ACTIVE then
    let s := s.touch
    .next (({ s with syt := { s.syt with calWait := false } } : State).calBegin .syt)
  else .next s

/-- The synthesiser that a calibration of RFA_CAL_CTRL settles. -/
def calSyn : CalKind → Option Syn
  | .syaVco => some .sya | .sybVco => some .syb | .sytVco => some .syt
  | _ => none

/-- CALIBRATION_END (R68): the start bit clears; a synthesiser's calibration ends in lock. -/
def execCalibrationEnd (y : CalKind) (band : Nat) (s : State) : Host.Outcome State Fault Refusal :=
  if s.awake ∧ s.on (calFld y) then
    match calSyn y with
    | none => .next (s.touch.setFld (calFld y) 0)
    | some z =>
      if s.settles z then .next ((s.touch.setFld (calFld y) 0).lockReached z band) else .next s
  else .next s

/-- TEMP_CONVERSION_END (R67): a conversion in progress gives its sample. -/
def execTempConversionEnd (raw : Int) (s : State) : Host.Outcome State Fault Refusal :=
  if s.tempConv then
    .next (({ s.touch with tempConv := false } : State).tempTake raw |>.setFld RFA_TEMP.START 0)
  else .next s

end Sys2Proof.Machine
end

