-- ==== Sys2Proof/Machine/Air.lean ====
section
/-! DEFINITION. The instants of a transmission and of the accounts: release point, covered interval, retry, PA grant, end,
acknowledgement window, call copies, bucket expiry (R117–R134). -/

namespace Sys2Proof.Machine

/-- The release point Tr = T − Λ of an operation; the LBT instruction subtracts no lead (R119). -/
def State.release (s : State) (o : RadioOp) : Nat := if o.kind == .lbt then o.t else o.t - s.lead

/-- The release point of `o` has gone by in an earlier XO32 period, or had gone by when its launcher was armed (R34). -/
def State.releasePast (s : State) (o : RadioOp) : Bool :=
  decide (s.release o < s.time.edge) || (match o.lnch with
    | some n => (s.launcher n.val).late && o.at_
    | none => false)

/-- The frame of an unsealed beacon is built at its release point (R166); other operations have theirs. -/
def State.beaconReady (s : State) (id : Nat) (o : RadioOp) : State × RadioOp :=
  if o.kind == .beacon && !o.doSeal && o.frame.isEmpty then s.beaconFill id o else (s, o)

/-- When the sealing of a beacon is queued: long enough before its release point for the longest frame at the CK_CORE rate plus
20 µs, as R124 counts it. DESIGN CHOICE: R175 fixes the content there and gives no instant (log entry 183). -/
def State.beaconSealAt (s : State) (o : RadioOp) : Nat :=
  s.release o - (12 * sealBlocks (hdrLen s.beaconCtl) 511 (fcLevel s.beaconCtl) + usFine 20)

/-- A beacon whose sealing is due and has not been queued. -/
def State.beaconSealDue (s : State) (id : Nat) (o : RadioOp) : Bool :=
  o.kind == .beacon && o.doSeal && !o.sealed && o.phase == .release && s.reach (s.beaconSealAt o) &&
    !s.engs.any (fun e => match e.2 with
      | some q => q.kind == .txSeal id
      | none => false)

/-- An acknowledgement would end before the release point of every armed transmission (R131). -/
def State.ackFits (s : State) (o : RadioOp) : Bool :=
  s.opIds.all (fun i => match s.op i with
    | some p => !(p.kind.sends && p.kind != .ack && p.at_ &&
          (p.phase == .release || p.phase == .lock || p.phase == .claim || p.phase == .backoff)) ||
        decide (o.t + o.air + s.tail ≤ p.t - s.lead)
    | none => true)

/-- The scheduled release point of an armed transmission (R117 step 5). An acknowledgement is judged against the transmissions
armed since its frame ended (R131). -/
def State.releaseAt (s : State) (id : Nat) (o : RadioOp) : State :=
  let tr := s.release o
  let s := s.moveTo tr
  if o.phase != .release || !s.txReady o || s.releasePast o then s.txLate id o.phase
  else if o.kind == .ack && !s.ackFits o then s.txEnd id Status.late 0
  else
    let r := s.beaconReady id o
    if o.kind == .beacon && r.1.tooLong r.2.freq r.2.width r.2.air then r.1.txEnd id Status.badCommand 0
    else r.1.txStep5 id r.2 tr

/-- TX_RELEASE_POINT (R117): an operation reaches its release point: at its stamp when it has one, else as soon as it is
ready. The LBT instruction makes its test there (R119). A secured beacon's sealing is queued shortly before. -/
def execTxReleasePoint (id : Nat) (s : State) : Host.Outcome State Fault Refusal :=
  match s.op id with
  | none => .next s
  | some o =>
    if !s.awake then .next s
    else if o.kind == .lbt then
      if o.phase != .release then .next s
      else if o.at_ then
        if s.reach o.t then
          let s := s.moveTo o.t
          .next (s.lbtDecide id o o.t)
        else .next s
      else
        let s := s.touch
        .next (s.lbtDecide id o s.stamp)
    else if !o.kind.sends then .next s
    else if o.at_ && !o.late then
      if (o.phase == .release || o.phase == .lock || o.phase == .claim) && s.reach (s.release o) then
        .next (s.releaseAt id o)
      else if s.beaconSealDue id o then .next ((s.moveTo (s.beaconSealAt o)).txSealAdd id o)
      else .next s
    else if o.phase == .release && s.txReady o then
      let s := s.touch
      .next (s.txStep5 id o s.stamp)
    else .next s

/-- LBT_COVERED (R121): the interval that an operation waits for is covered. -/
def execLbtCovered (id : Nat) (s : State) : Host.Outcome State Fault Refusal :=
  match s.op id with
  | none => .next s
  | some o =>
    if o.phase == .cover && s.awake then
      let s' := s.touch
      if (s'.lbtTest o s'.stamp).covered && (o.kind == .lbt || s'.txReady o) then
        if o.kind == .lbt then .next (s'.lbtDecide id o s'.stamp)
        else .next (s'.txStep5 id o s'.stamp)
      else .next s
    else .next s

/-- LBT_RETRY (R122): steps 4 and 5 once more, at the release point of the moved T. -/
def execLbtRetry (id : Nat) (s : State) : Host.Outcome State Fault Refusal :=
  match s.op id with
  | none => .next s
  | some o =>
    if o.phase == .backoff && s.awake && s.reach (s.release o) then
      let s := s.moveTo (s.release o)
      if s.txReady o then .next (s.txStep5 id o (s.release o))
      else if o.at_ then .next (s.txLate id .release)
      else .next (s.setOp id { o with phase := .release })
    else .next s

/-- A queued PA claim of a late transmission is granted (R123). -/
def State.paGrantLate (s : State) (id : Nat) (o : RadioOp) : State :=
  if s.txReady o then
    match s.paReady id with
    | some c => s.touch.paLate id o c
    | none => s
  else s

/-- PA_GRANT (R123): at the scheduled rise of PA_EN the claim is placed and judged; a late one is granted when it fits. -/
def execPaGrant (id : Nat) (s : State) : Host.Outcome State Fault Refusal :=
  match s.op id with
  | none => .next s
  | some o =>
    if !s.awake then .next s
    else if o.phase == .grant && s.reach (o.t - s.riseLead) then
      let s := s.moveTo (o.t - s.riseLead)
      .next (s.paRise id o)
    else if o.phase == .lateGrant then .next (s.paGrantLate id o)
    else .next s

/-- The steps of Table 3-7 after the last symbol, each at its instant: the ramp has ended and the accounts are charged (step 6,
R117), PA_EN falls (step 7), the switches return and the outcome follows (step 8). -/
def State.txAfter (s : State) (id : Nat) (o : RadioOp) : State :=
  let e := o.t + o.air + usFine s.rampUs
  match o.phase with
  | .onAir => if o.copies = 0 ∧ s.reach e then (s.moveTo e).txRamped id o else s
  | .fall => if s.reach o.fallAt then (s.moveTo o.fallAt).txFall id o else s
  | .swap => if s.reach o.backAt then (s.moveTo o.backAt).txDone id o else s
  | _ => s

/-- TX_END (R125): a transmission takes its next step after the last symbol; the last of them ends it. -/
def execTxEnd (id : Nat) (s : State) : Host.Outcome State Fault Refusal :=
  match s.op id with
  | none => .next s
  | some o => .next (s.txAfter id o)

/-- ACK_WINDOW_CLOSE (R132): without a match, and with no decode in progress, the transmission ends with NO_ACK. -/
def execAckWindowClose (id : Nat) (s : State) : Host.Outcome State Fault Refusal :=
  match s.op id with
  | none => .next s
  | some o =>
    if o.phase == .ackWait && s.reach (s.ackWindow o).2 then
      let s := s.moveTo (s.ackWindow o).2
      if s.ackDecoding o then .next (s.setOp id { o with phase := .ackDecode })
      else .next ((s.setNocov false).opEnd id Status.noAck (min o.units 0xFFFF))
    else .next s

/-- BUCKET_EXPIRY (R128): buckets of account `n` whose tick is reached drop out of USED. -/
def execBucketExpiry (n : Fin 8) (s : State) : Host.Outcome State Fault Refusal :=
  match ((s.acct n.val).map (·.tick)).min? with
  | none => .next s
  | some k =>
    if s.reach (6000 * k) then
      let s := s.moveTo (6000 * k)
      .next (s.setAcct n.val ((s.acct n.val).filter (fun b => decide (s.tick < b.tick))))
    else .next s

/-- CALL_COPY_END (R133): a copy of a wake call ends and is charged; the next begins GAP ms later. The last ends the
operation with the steps of TX_END. -/
def execCallCopyEnd (id : Nat) (s : State) : Host.Outcome State Fault Refusal :=
  match s.op id with
  | none => .next s
  | some o =>
    let e := o.t + o.air
    if o.kind != .calltx || o.phase != .onAir then .next s
    else if o.copies = 0 then .next (s.txAfter id o)
    else if s.reach e then
      let s := ((s.moveTo e).charge o (airUnits o.air) e).emission o e
      .next (s.setOp id { o with
        t := e + msFine (s.fld TXP_CALL_CFG.GAP), copies := o.copies - 1, units := o.units + airUnits o.air })
    else .next s

end Sys2Proof.Machine
end

