-- ==== Sys2Proof/Machine/Lanes.lean ====
section
/-! DEFINITION. The lanes: catch-up, starving, the end of a frame with its record, partner update, acknowledgements and
beacon; collision recovery (R95–R112, R130–R132, R138–R148). -/

namespace Sys2Proof.Machine

/-! Reading history (R98–R100, R347). -/

/-- The position of an entry's rewind point. -/
def State.rewindPos (_s : State) (x : Entry) : Nat := x.rpos

/-- The first byte of a bin's row in the Erg (R74). -/
def State.ergRow (s : State) (c : Chain) (i : Nat) : Nat := s.ergAddr c i 0

/-- The group of four positions, counted from the one of `p0`, whose samples the bank word at byte `a` holds for one of `w` bins
from `bin` on chain `c`; none when no position from `p0` to `p1 − 1` lies in it. -/
def State.readGroup (s : State) (c : Chain) (bin w p0 p1 a : Nat) : Option Nat :=
  let h := s.horizon / 4
  ((List.range w).find? (fun i =>
    decide (s.ergRow c (bin + 56 + i) ≤ a) && decide (a < s.ergRow c (bin + 56 + i) + 2 * s.horizon))).bind (fun i =>
      let g := ((a - s.ergRow c (bin + 56 + i)) / 8 + h - p0 / 4 % h) % h
      if p0 < p1 ∧ g ≤ (p1 - 1) / 4 - p0 / 4 then some g else none)

/-- The marked words that hold samples of a span, with their groups. -/
def State.spanMarks (s : State) (c : Chain) (bin w p0 p1 : Nat) : List (Nat × Nat) :=
  s.marks.filterMap (fun m => (s.readGroup c bin w p0 p1 (8 * m.1)).map (fun g => (g, m.1)))

/-- Words read: those that are not usable (R347). -/
def State.readBad (s : State) (ws : List Nat) : State × List Nat :=
  ws.foldl (fun (r : State × List Nat) w => let q := r.1.readWord w 0; (q.1, if q.2 then r.2 else r.2 ++ [w])) (s, [])

/-- Where a lane stands in its history: its chain, whether it has changed chain, whether it can go on. -/
structure Walk where
  chain  : Chain
  switch : Bool
  ok     : Bool
deriving DecidableEq, Repr

/-- One group of positions read: with a word that is not usable a lane in diversity goes on with the other chain, when that
one's words are (R97, R98). -/
def State.walkStep (s : State) (v : Walk) (both : Bool) (a b : List (Nat × Nat)) (g : Nat) : State × Walk :=
  if !v.ok then (s, v)
  else
    let on := fun (c : Chain) => ((match c with | .a => a | .b => b).filter (fun (m : Nat × Nat) => m.1 == g)).map Prod.snd
    let r := s.readBad (on v.chain)
    if r.2 = [] then (r.1, v)
    else if !both then (r.1, { v with ok := false })
    else
      let q := r.1.readBad (on (otherChain v.chain))
      if q.2 = [] then (q.1, { v with chain := otherChain v.chain, switch := true }) else (q.1, { v with ok := false })

/-- A lane of entry `x` reads positions `p0` to `p1 − 1` of the history from chain `c` on: words with errors are reported, and
each that is not usable counts as gap markers (R97, R98). -/
def State.laneHistory (s : State) (x : Entry) (c : Chain) (p0 p1 : Nat) : State × Walk :=
  let both := s.perPacket x && s.wroteAt p0 .a && s.wroteAt p0 .b
  let marks := fun k => if (both || k == c) && s.wroteAt p0 k then s.spanMarks k x.bin x.width p0 p1 else []
  let gs := (marks .a ++ marks .b).foldl (fun t m => Tab.set (fun _ => false) t m.1 true) ([] : Tab Bool)
  gs.foldl (fun (r : State × Walk) g => r.1.walkStep r.2 both (marks .a) (marks .b) g.1) (s, ⟨c, false, true⟩)

/-- LANE_CATCH_UP (R100): a lane that was behind reads live bins from now on. A lane whose history has a break ends there
instead. -/
def execLaneCatchUp (l : Nat) (s : State) : Host.Outcome State Fault Refusal :=
  match s.lane l with
  | none => .next s
  | some ln =>
    match s.ent ln.entry with
    | none => .next s
    | some x =>
      if !s.awake ∨ s.cmr.st ≠ 5 ∨ !ln.behind then .next s
      else
        let r := if x.slot.isSome then (s, ⟨ln.chain, false, true⟩) else s.laneHistory x ln.chain (s.rewindPos x) s.pos
        if r.2.ok then
          .next (r.1.touch.setLane l { ln with behind := false, chain := r.2.chain, switch := ln.switch || r.2.switch })
        else .next s

/-- LANE_STARVED (R100): the read position of a lane that is behind has aged beyond H − 16 samples. -/
def execLaneStarved (l : Nat) (s : State) : Host.Outcome State Fault Refusal :=
  match s.lane l with
  | none => .next s
  | some ln =>
    match s.ent ln.entry with
    | none => .next s
    | some x =>
      if s.awake ∧ ln.behind ∧ x.slot.isNone ∧ s.horizon - 16 < s.entAge x then
        .next (s.touch.laneCut l Status.laneStarved)
      else .next s

/-! The frame (Table 5-1). -/

/-- What the lane decodes: status, break flag, frame bytes as they are recorded, the MAC frame without its FCS, and the bits
corrected. -/
structure Decoded where
  status : Nat
  gap    : Bool
  data   : List Byte
  mac    : List Byte
  berr   : Nat
deriving DecidableEq, Repr

/-- The PHY header is acceptable (R139). -/
def State.hdrOk (s : State) (c : Chain) (h fcs : Nat) : Bool :=
  hchk h == h % 8 && natBits h 4 3 == natBits (s.detCfg c) 10 10 && decide (2 + fcs ≤ natBits h 15 7)

/-- The body of a frame as stage 7 gives it, with the bits that the Viterbi decoder has corrected: decoded when the header's FEC
bit is set (R141), de-whitened when its whitening bit is (R140). Ties between paths are free values. -/
def State.bodyOf (s : State) (o : FrameObs) : List Byte × Nat :=
  let len := natBits o.hdr 15 7
  let r : List Byte × Nat := if o.hdr.testBit 6 then
      let bits := viterbi (Config.viterbiTie s.free) (o.soft.take (2 * (8 * len + 6)))
      (airBytes (min len (bits.length / 8)) bits, corrected bits (o.soft.take (2 * (8 * len + 6))))
    else (o.body.take len, 0)
  (if o.hdr.testBit 5 then whiten r.1 else r.1, r.2)

/-- Stages 6 to 8 (Table 5-1): header check, body, FCS; `errs` are the sync word's bit errors. `broken`: a break was met in the
samples; `lim`: a residual buffer ended before the frame, so that it ends with FCS_FAIL (R110). -/
def State.decodeFrame (s : State) (c : Chain) (set errs : Nat) (o : FrameObs) (broken lim : Bool) : Decoded :=
  let fcs := s.fcsLen set
  if broken && !o.hdrDone then ⟨Status.headerFail, true, [], [], errs⟩
  else if lim && !o.hdrDone then ⟨Status.fcsFail, false, [], [], errs⟩
  else if !s.hdrOk c o.hdr fcs then ⟨Status.headerFail, false, [], [], errs⟩
  else
    let len := natBits o.hdr 15 7
    let b := s.bodyOf o
    let errs := if o.hdr.testBit 6 then b.2 else errs
    let mac := b.1.take (len - fcs)
    if broken then ⟨Status.fcsFail, true, b.1, [], errs⟩
    else if lim || b.1.length != len || b.1.drop (len - fcs) != s.fcsBytes set mac then ⟨Status.fcsFail, false, b.1, [], errs⟩
    else ⟨Status.ok, false, if s.on LANE_CTRL.KEEP_FCS then b.1 else mac, mac, errs⟩

/-- LRSSI, LANT and STATS of a valid partner entry (R102, R192). -/
def State.partnerUpdate (s : State) (r : Rec) : State :=
  if s.on LANE_CTRL.PT_UPD ∧ r.pidx < 4096 ∧ s.partnerValid r.pidx then
    let st := s.pt r.pidx 0x34 4
    if r.status = Status.ok then
      let s := s.ptSet r.pidx 0x31 2 (r.rssi + r.path % 4 * 256)
      let rec_ := if r.flags.testBit 6 then satInc 255 (natBits st 31 24) else natBits st 31 24
      s.ptSet r.pidx 0x34 4 ((st + 1) % 65536 + natBits st 23 16 * 2 ^ 16 + rec_ * 2 ^ 24)
    else if r.status = Status.fcsFail ∨ r.status = Status.headerFail then
      s.ptSet r.pidx 0x34 4 (st % 65536 + satInc 255 (natBits st 23 16) * 2 ^ 16 + natBits st 31 24 * 2 ^ 24)
    else s
  else s

/-! Acknowledgements (R130–R132). -/

/-- The ack frame without its FCS (R148). -/
def State.ackFrame (s : State) (seq : Nat) (pend : Bool) : List Byte :=
  leBytes 2 (2 + 16 * b2n pend) ++ leBytes 1 seq ++ leBytes 2 (s.fld MAC_NETID.NETID)

/-- A level field whose 127 means RFA_PA_LEVEL.LEVEL. -/
def State.levelOf (s : State) (l : Nat) : Nat := if l = 127 then s.fld RFA_PA_LEVEL.LEVEL else l

/-- The first two conditions of R130. -/
def State.ackWanted (s : State) (f : List Byte) (len fcs : Nat) : Bool :=
  let c := frameCtl f
  s.on TXP_ACK_CFG.EN && wellFormed c len fcs && fcAr c && (fcType c == 1 || fcType c == 3) &&
    fieldAt f 3 2 == s.fld MAC_NETID.NETID && unicast f &&
    ((fcDmode c == 2 && destOf f == s.fld MAC_SADDR.SADDR) || (fcDmode c == 3 && destOf f == s.laddr))

/-- An operation that answers a received frame on its channel: freq in 6.25 kHz units, the frame's modes (R130, R291). -/
def State.ackOp (s : State) (kind : OpKind) (freq width rate set hdr seq : Nat) (pend : Bool) (o : RadioOp) : RadioOp :=
  let f := s.ackFrame seq pend
  let fec := hdr.testBit 6
  let m4 := natBits hdr 4 3 == 1
  let pre := s.fld TXP_CTRL.PRE_LEN
  { o with
    kind := kind, freq := freq, width := width, rate := rate, sset := set, fec := fec, white := hdr.testBit 5, mod4 := m4
    pre := pre, frame := f, air := symbols pre (f.length + s.fcsLen set) fec m4 * symFine rate }

/-- The automatic acknowledgement of an OK frame prepared, or missed (R130). -/
def State.autoAck (s : State) (x : Entry) (c : Chain) (f : List Byte) (hdr set endAt : Nat) : State :=
  if s.ackWanted f (natBits hdr 15 7) (s.fcsLen set) then
    let freq := (s.centre2 c x.bin x.width).toNat
    let w := wordOf2 freq
    let o := s.ackOp .ack freq x.width (s.detRate c) set hdr (fieldAt f 2 1) (s.on TXP_ACK_CFG.PEND)
      (RadioOp.new .ack none 0 0 x.ticket)
    let q := s.drawListen { o with
      at_ := true, pol := 1, level := s.levelOf (s.fld TXP_ACK_CFG.LEVEL), t := endAt + usFine (s.fld TXP_TURN.TURN)
      ant := s.txAnt true x.pidx (some (chainIx c)) w, origin := s.stamp, pidx := x.pidx, cfg := s.fixedRegs }
    let o := q.2
    let s := q.1
    if s.stamp + usFine 50 ≤ o.t - s.lead ∧ s.synOn .syt ∧ s.syt.phase = .locked ∧ s.syt.word = w ∧ s.ackFits o then
      s.addOp o
    else s.raise TXP_ACK_CFG.MISS TXP_ACK_CFG.MISS_CNT
  else s

/-- Transmissions that wait for an acknowledgement are judged by a frame of entry `x`: a match ends one; when no frame of
the window is still decoded after it, an awaited one ends with NO_ACK (R132). -/
def State.ackMatch (s : State) (x : Entry) (t : Nat) (ok : Bool) (f : List Byte) : State :=
  (s.opIds.foldl (fun s i => match s.op i with
    | some o =>
      if (o.phase == .ackWait || o.phase == .ackDecode) && s.sameChannel o x && s.inAckWindow o t &&
          (ok && fcType (frameCtl f) == 2 && fieldAt f 2 1 == o.seq) then
        s.opEnd i o.sent (min o.units 0xFFFF)
      else s
    | none => s) s).ackAwait

/-! Recovery requests (R107). -/

/-- The record that lane `l` of W would have written when it is stopped: none before it has decoded a PHY header. What it had
decoded of the body is a free value (R107, R108). -/
def State.stoppedRecord (s : State) (l : Nat) (ln : Lane) (w : Entry) : Option Rec :=
  match ln.hdr with
  | none => none
  | some h =>
    let set := match w.sync with | some (i, _) => i | none => 0
    let n := Config.unmeasured (8 * s.free + 7) % (natBits h 15 7 + 1)
    let r := if s.hdrOk ln.chain h (s.fcsLen set) then
        { s.cutRecord l ln w Status.fcsFail with
          data := (List.range n).map (fun i => BitVec.ofNat 8 (Config.unmeasured (0x10000 * s.free + i))) }
      else s.cutRecord l ln w Status.headerFail
    if s.wanted r then some r else none

/-- W of a marked pair, as far as it has not ended with OK: its entry and the record kept for it. -/
def State.weakOf (s : State) (e : Nat) : Option (Entry × Option Rec) :=
  match s.held.find? (fun h => h.weak == e) with
  | some h => some (h.entry, if h.keep then some h.record else none)
  | none =>
    match s.ent e with
    | none => none
    | some w =>
      match w.lane.bind (fun l => (s.lane l).map (fun ln => (l, ln))) with
      | some (l, ln) => some (w, s.stoppedRecord l ln w)
      | none => some (w, none)

/-- W taken out of the list, its lane, and the held store. DESIGN CHOICE: records held for W as the stronger frame are written
here, W having ended without a request of its own (R106; log entry 181). -/
def State.takeWeak (s : State) (e : Nat) : State :=
  let s := { s with held := s.held.filter (fun h => h.weak != e) }
  let s := match s.ent e with
    | none => s
    | some w =>
      match w.lane with
      | some l => ((s.dropLane l).dropEnt e).groupRelease (l / 8)
      | none => s.dropEnt e
  (State.releaseFrom (s.held.length + 1) s e).ackAwait

/-- The slots in use. -/
def State.slotsUsed (s : State) : Nat := ((List.range 8).filter (fun n => (s.rslot n).isSome)).length

/-- The request of S when its conditions hold (R107); otherwise held records are written. `stop`: the position of S's end. Ages
count samples written on chain `c` (R74). -/
def State.request (s : State) (e : Nat) (x : Entry) (c : Chain) (weak : Option (Entry × Option Rec)) (stop seqno : Nat) :
    State :=
  let start := match weak with
    | some (w, _) => min (s.rewindPos x) (s.rewindPos w)
    | none => s.rewindPos x
  let age := match weak with
    | some (w, _) => max (s.ageOn c x) (s.ageOn c w)
    | none => s.ageOn c x
  if s.horizon - 16 ≤ age ∨ 0x8000 < (stop - start) * x.width * 2 ∨
      (s.fld LANE_RECOV_CFG.SLOTS ≤ s.slotsUsed ∧ 16 ≤ s.reqs.length) then
    (s.incSat LANE_RECOV_STAT.SKIP_CNT).releaseHeld e
  else
    let s' := match weak, x.coll with
      | some _, some w => s.draw.takeWeak w
      | _, _ => s
    let q : Recov := ⟨c, x.chan, x.bin, x.width, start, stop, seqno, weak.map (·.1), (weak.bind (·.2)),
      x.ticket, false, none, age, (s.pal c).written⟩
    ({ s' with reqs := s'.reqs ++ [q] } : State).releaseHeld e

/-- The body's signal-to-noise ratio is impaired (scan, R107). -/
def State.impaired (s : State) (o : FrameObs) : Bool :=
  decide (o.bodySnr + 2 * (s.fld LANE_RECOV_CFG.IMPAIR : Int) ≤ (o.snr : Int))

/-- Stage 10: S has ended (R106, R107). -/
def State.raiseRequest (s : State) (e : Nat) (x : Entry) (c : Chain) (o : FrameObs) (status seqno : Nat) : State :=
  if s.on LANE_RECOV_CFG.EN ∧ status = Status.ok ∧ x.slot.isNone then
    match x.coll with
    | some w =>
      match s.weakOf w with
      | some r => s.request e x c (some r) o.endPos seqno
      | none => s.releaseHeld e
    | none =>
      if s.on LANE_RECOV_CFG.SCAN ∧ s.impaired o then s.request e x c none o.endPos seqno else s.releaseHeld e
  else s.releaseHeld e

/-! The end of a frame. -/

/-- The record of a frame (Table 5-3). -/
def State.frameRec (s : State) (l : Nat) (ln : Lane) (x : Entry) (o : FrameObs) (set t : Nat) (d : Decoded) : Rec where
  stamp := t
  pidx := x.pidx
  status := d.status
  flags := b2n s.qual * 128 + b2n x.slot.isSome * 64 + b2n ln.behind * 32 + b2n x.coll.isSome * 16 + b2n d.gap * 8 +
    b2n ln.switch * 4
  path := s.pathOf x ln.chain ln.didPick
  lane := l
  binw := x.bin + widthCode x.width * 2 ^ 9 + set * 2 ^ 11
  rssi := minusDbm (s.toBall ln.chain o.power)
  alt := ln.picked.getD 0xFF
  fofs := twos 32 o.fofs
  phy := o.hdr % 2 ^ 16
  snr := min o.snr 255
  berr := min d.berr 255
  link := match x.slot.bind s.rslot with
    | some q => q.seqno
    | none => 0xFFFF
  data := if d.status = Status.ok ∨ d.status = Status.fcsFail then d.data else []

/-- The sync word that the lane confirms, with its bit errors and refined stamp: the detector's set where it has matched one,
else the lowest that matches; within 88 symbols (Table 5-1 stage 5, R82). -/
def State.confirmSync (s : State) (x : Entry) (c : Chain) (o : FrameObs) : Option (Nat × Nat × Nat) :=
  match o.sync with
  | none => none
  | some (w, t) =>
    match s.syncSet c x.start w t with
    | none => none
    | some i =>
      let j := match x.sync with
        | some (k, _) => k
        | none => i
      some (j, syncErrors w (s.fld (CHZ_SYNCn.WORD j)), t)

/-- What an OK frame sets off besides its record: the MAC engine's counts, a beacon, an acknowledgement (R130, R173, R180). -/
def State.heard (s : State) (x : Entry) (c : Chain) (ln : Lane) (o : FrameObs) (set t : Nat) (f : List Byte) : State :=
  let s := s.macHear f c t
  let freq := ((s.centre2 c x.bin x.width + 1) / 2).toNat
  let s := s.beaconHear f (natBits o.hdr 15 7) (s.fcsLen set) c t (s.detRate c) freq ln.behind x.cls x.ticket
  s.autoAck x c f o.hdr set o.endAt

/-- A lane's frame ends with an outcome. -/
def State.frameEnd (s : State) (l : Nat) (ln : Lane) (x : Entry) (o : FrameObs) (set t : Nat) (d : Decoded) : State :=
  let r := s.frameRec l ln x o set t d
  let s := (if o.hdr.testBit 6 then s.draw else s).countFrame d.status
  let q := s.outcome ln.entry x r
  let s := q.1.partnerUpdate r
  let s := s.laneFree l ln.entry d.status
  let s := s.raiseRequest ln.entry x ln.chain o d.status (linkOf q.2)
  let s := s.ackMatch x t (d.status == Status.ok) d.mac
  if d.status = Status.ok then s.heard x ln.chain ln o set t d.mac else s

/-- The lane at the end of what it has received: picked at the latest now, and changed to the other chain where the words of its
history or the markers it met made it (R96, R97). -/
def State.laneAtEnd (s : State) (ln : Lane) (x : Entry) (o : FrameObs) : State × Lane × Bool :=
  let r := s.lanePick ln x o.powA o.powB
  let h := if ln.behind ∧ x.slot.isNone then r.1.laneHistory x r.2.chain (s.rewindPos x) o.endPos
    else (r.1, ⟨r.2.chain, false, true⟩)
  let ln := { r.2 with chain := h.2.chain, switch := r.2.switch || h.2.switch }
  let moved := o.switch && s.perPacket x && !ln.switch
  (h.1, if moved then { ln with chain := otherChain ln.chain, switch := true } else ln, h.2.ok)

/-- LANE_FRAME_END (R95): a lane ends its entry; with no sync word the entry is removed without a record (R82), unless a break or
the end of a residual buffer stopped the search (R98, R110). -/
def execLaneFrameEnd (l : Nat) (o : FrameObs) (s : State) : Host.Outcome State Fault Refusal :=
  match s.lane l with
  | none => .next s
  | some ln =>
    match s.ent ln.entry with
    | none => .next s
    | some x =>
      if !s.awake ∨ s.cmr.st ≠ 5 then .next s
      else
        let a := s.touch.laneAtEnd ln x o
        let s := a.1
        let ln := a.2.1
        let broken := o.cut.isSome || !a.2.2
        let lim := match x.slot.bind s.rslot with
          | some q => decide (min q.full (q.lim.getD q.full) < o.endPos)
          | none => false
        match s.confirmSync x ln.chain o with
        | some (set, errs, t) => .next (s.frameEnd l ln x o set t (s.decodeFrame ln.chain set errs o broken lim))
        | none =>
          let m := fun i => Config.unmeasured (8 * s.free + i)
          if broken then
            .next (s.draw.frameEnd l ln x o (m 1 % 4) (m 0) ⟨Status.headerFail, true, [], [], m 2⟩)
          else if lim then
            .next (s.draw.frameEnd l ln x o (m 1 % 4) (m 0) ⟨Status.fcsFail, false, [], [], m 2⟩)
          else
            let s := s.laneFree l ln.entry Status.headerFail
            .next (((if x.slot.isNone then s.incSat CHZ_PENDING_STAT.FALSE_CNT else s).releaseHeld ln.entry).ackAwait)

/-! Recovery slots (R108–R110). -/

/-- The two bytes of bin key `i` at position `p` as the history holds them. -/
def State.ergBytes (s : State) (c : Chain) (i p : Nat) : List Byte :=
  if p / 4 = s.pos / 4 then
    (Tab.get (fun _ => []) (s.pal c).part i).drop (2 * (p % 4)) |>.take 2
  else s.bytes (s.ergAddr c i p + 2 * (p % 4)) 2

/-- The history from the start point to the present copied into a slot's buffer (R109 steps 1 and 3). A word that is not usable
is reported, and its samples are copied as gap markers (Table 17-3). -/
def State.copyHistory (s : State) (n : Nat) (q : Recov) : State :=
  let p1 := min s.pos q.full
  let r := s.readBad ((s.spanMarks q.chain q.bin q.width q.start p1).map (·.2))
  (List.range (p1 - q.start)).foldl (fun s j =>
    s.store (s.residualAddr n q (q.start + j))
      ((List.range q.width).flatMap (fun i =>
        if r.2.contains (s.ergAddr q.chain (q.bin + 56 + i) (q.start + j) / 8) && (q.start + j) / 4 != s.pos / 4 then gapBytes
        else s.ergBytes q.chain (q.bin + 56 + i) (q.start + j)))) r.1

/-- A request whose start point has aged past H − 16 samples, counted as the chain writes them (R74, R108). -/
def State.reqAged (s : State) (q : Recov) : Bool :=
  decide (s.horizon - 16 < q.age0 + ((s.pal q.chain).written - q.wr))

/-- RECOVERY_SLOT_START (R109): the oldest waiting request takes slot `slot`, which copies its span. -/
def execRecoverySlotStart (slot : Nat) (s : State) : Host.Outcome State Fault Refusal :=
  if s.awake ∧ s.cmr.st = 5 ∧ slot < 8 ∧ (s.rslot slot).isNone ∧ s.slotsUsed < s.fld LANE_RECOV_CFG.SLOTS then
    match pickBest (fun (a b : Recov) => a.ticket.le b.ticket) s.reqs with
    | none => .next s
    | some q =>
      if s.reqAged q then .next s
      else
        let s := { s.touch with reqs := s.reqs.erase q }
        .next ((s.setRslot slot q).copyHistory slot q)
  else .next s

/-- A residual byte for a copied one: a gap marker stays, else a free value within the copied component. DEDUCED: the bound of
R412 holds for each component (log entry 186). -/
def residualByte (b : Byte) (v : Nat) : Byte :=
  if b = 0x80#8 then b
  else
    let c := v % (b.toNat % 128 + 1)
    BitVec.ofNat 8 (if c = 0 then 0 else c + v / 128 % 2 * 128)

/-- The residual of S in a slot's buffer (R109 step 2): its values are bounded and not predictable (R412), so they are free. -/
def State.residual (s : State) (n : Nat) (q : Recov) : State :=
  let len := (min q.stop q.full - q.start) * q.width * 2
  let a := s.residualAddr n q q.start
  s.draw.store a ((List.range len).map (fun i => residualByte (s.byte (a + i)) (Config.unmeasured (0x10000 * s.free + i))))

/-- A scan's detection: the channel's detector, with the live settings and thresholds, has found it between the start point and
the end of S, and a sync word matches (R109 step 4). -/
def State.scanFinds (s : State) (q : Recov) (d : Cand) : Bool :=
  decide (d.chain = q.chain) && d.chan == q.chan && decide (q.start ≤ d.pos) && decide (d.pos < q.stop) &&
    s.strongEnough d && (match d.sync with
      | some (w, t) => (s.syncSet d.chain d.start w t).isSome
      | none => false)

/-- RECOVERY_ENTRY (R109 step 4): a slot has copied and subtracted; it hands the residual on as a recovery entry. For a scan,
`det` is the first detection with a sync word in the residual; without one the slot ends. -/
def execRecoveryEntry (slot : Nat) (det : Option Cand) (s : State) : Host.Outcome State Fault Refusal :=
  match s.rslot slot with
  | none => .next s
  | some q =>
    if !s.awake ∨ s.cmr.st ≠ 5 ∨ q.copied then .next s
    else
      let s := (s.touch.residual slot q).setRslot slot { q with copied := true }
      match q.weak, det with
      | some w, _ => .next (s.setEnt s.freeEnt { w with lane := none, slot := some slot, fresh := false })
      | none, some d =>
        if s.scanFinds q d then .next (s.setEnt s.freeEnt { s.entryOf d none with slot := some slot, fresh := false })
        else .next (s.recovDone slot Status.headerFail)
      | none, none => .next (s.recovDone slot Status.headerFail)

/-- RECOVERY_REQUEST_DROPPED (R108): waiting request `r` (by its place in the queue) has aged too far. -/
def execRecoveryRequestDropped (r : Nat) (s : State) : Host.Outcome State Fault Refusal :=
  match s.reqs[r]? with
  | none => .next s
  | some q =>
    if s.awake ∧ s.reqAged q then
      let s := { s.touch with reqs := s.reqs.eraseIdx r }
      .next ((s.incSat LANE_RECOV_STAT.SKIP_CNT).fallback q)
    else .next s

end Sys2Proof.Machine
end

