-- ==== Sys2Proof/Machine/Reassembly.lean ====
section
/-! DEFINITION. The records of the message layer, the delivery of a message, and the examination of the records (R209, R210,
R216, R217, R222). -/

namespace Sys2Proof.Machine

/-! Records and counters (Tables 10-3, 10-4, 10-9). -/

/-- A field of reassembly record `r`. -/
def State.recFld (s : State) (r o n : Nat) : Nat := s.num (msgRec r + o) n

/-- A field of reassembly record `r` written. -/
def State.setRec (s : State) (r o n v : Nat) : State := s.storeNum (msgRec r + o) n v

/-- A field of transaction record `x`. -/
def State.txnFld (s : State) (x o n : Nat) : Nat := s.num (msgTxn x + o) n

/-- A field of transaction record `x` written. -/
def State.setTxn (s : State) (x o n v : Nat) : State := s.storeNum (msgTxn x + o) n v

/-- A counter of the control block one up, modulo 65,536 (R210). -/
def State.msgCount (s : State) (o : Nat) : State := s.storeNum (msgCb o) 2 (s.num (msgCb o) 2 + 1)

/-- Counters of Table 10-3. -/
def Msg.dupFrag : Nat := 0x20
def Msg.badFrag : Nat := 0x22
def Msg.orphan : Nat := 0x24
def Msg.noSpace : Nat := 0x26
def Msg.chkFail : Nat := 0x28
def Msg.timeout : Nat := 0x2A
def Msg.dupReq : Nat := 0x2C

/-- The layer is on (R210). -/
def State.msgOn (s : State) : Bool := (s.num (msgCb 0x18) 1).testBit 0

/-- The layer runs: in Run and Idle only (R217). -/
def State.msgRuns (s : State) : Bool := s.awake && (s.pwr.st == .run || s.pwr.st == .idle)

/-- The lowest-numbered reassembly record with this state, partner and TID. -/
def State.recOf (s : State) (st pidx tid : Nat) : Option Nat :=
  (List.range 256).find? (fun r => s.recFld r 3 1 == st && s.recFld r 0 2 == pidx && s.recFld r 2 1 == tid)

/-- The lowest-numbered transaction record with this state, partner and TID. -/
def State.txnOf (s : State) (st pidx tid : Nat) : Option Nat :=
  (List.range 256).find? (fun x => s.txnFld x 3 1 == st && s.txnFld x 0 2 == pidx && s.txnFld x 2 1 == tid)

/-- One of the records that `free` names, which one being a free value (R213, R222: "a free record"). -/
def State.anyFree (s : State) (free : Nat → Bool) : Option Nat :=
  let l := (List.range 256).filter free
  l[Config.unmeasured s.free % l.length]?

/-! Ends and notices (R216, R222). -/

/-- A notice to the context of a transaction. -/
def State.notify (s : State) (x status retry : Nat) : State :=
  let k := s.txnFld x 5 1
  if k < 64 then s.signalTxn k status retry x else s

/-- A transaction ended with a status and a notice. -/
def State.txnEnd (s : State) (x status : Nat) : State :=
  ((s.setTxn x 3 1 3).setTxn x 0x14 1 status).notify x status 0

/-- A record that has completed or failed is delivered: DONE, the event MESSAGE and the message signal (R216). -/
def State.deliverRec (s : State) (r st status : Nat) : State :=
  let s := ((s.setRec r 3 1 st).setRec r 0x19 1 status).setRec r 0x1C 4 s.tick
  (s.post (natBits (s.num (msgCb 0x18) 1) 2 1) 0x20 status 0 r (s.recFld r 0 2) s.stamp).signalMsg r

/-- A record failed (Table 10-10). -/
def State.recFail (s : State) (r status : Nat) : State := s.deliverRec r 3 status

/-! The examination (R217, R222). -/

/-- An absorption's CRC run waits for or uses a record of this partner and TID: the locked access of R215. -/
def State.recLocked (s : State) (pidx tid : Nat) : Bool :=
  s.engs.any (fun p => match p.2 with
    | some o => match o.kind with
      | .absorb _ _ _ _ (some r) => s.recFld r 0 2 == pidx && s.recFld r 2 1 == tid
      | _ => false
    | none => false)

/-- A reassembly record examined (R217); one under a locked access waits for the next examination. -/
def State.examineRec (s : State) (r : Nat) : State :=
  if s.recFld r 3 1 ≠ 1 ∨ s.recLocked (s.recFld r 0 2) (s.recFld r 2 1) then s
  else if (s.tick + 2 ^ 32 - s.recFld r 0x14 4) % 2 ^ 32 < 2 ^ 31 then (s.msgCount Msg.timeout).recFail r Status.noAck
  else if !s.partnerValid (s.recFld r 0 2) then s.recFail r Status.addressReleased
  else s

/-- The CRC run that completes the response of a partner and TID is under way. -/
def State.responseRuns (s : State) (pidx tid : Nat) : Bool :=
  s.engs.any (fun p => match p.2 with
    | some o => match o.kind with
      | .absorb _ _ _ _ (some r) => o.started && s.recFld r 0 2 == pidx && s.recFld r 2 1 == tid &&
          (s.recFld r 0x18 1).testBit 1 && s.recFld r 0x12 2 == s.recFld r 7 1 + 1
      | _ => false
    | none => false)

/-- The status that the notice of a retry carries, which the manual does not state: one of the codes of Table 12-7 (R263). -/
def noticeStatus (r : Nat) : Nat :=
  [0x00, 0x01, 0x02, 0x03, 0x10, 0x11, 0x12, 0x13, 0x14, 0x15, 0x16, 0x17, 0x20, 0x21, 0x30, 0x31, 0x32, 0x40, 0x41, 0x50,
    0x51, 0x52, 0x60, 0x61, 0x62, 0x63].getD (r % 26) 0

/-- A waiting transaction examined (R217, R222): due with no tries left, or of an invalid partner, it ends; due with tries left
it is tried again. DEDUCED: one whose response is being completed waits for the next examination (R223, log entry 187). -/
def State.examineWait (s : State) (x : Nat) : State :=
  let due := s.txnFld x 8 8
  if s.responseRuns (s.txnFld x 0 2) (s.txnFld x 2 1) then s
  else if wordStamp due ≤ s.stamp ∧ s.txnFld x 4 1 = 0 then (s.msgCount Msg.timeout).txnEnd x Status.noAck
  else if !s.partnerValid (s.txnFld x 0 2) then s.txnEnd x Status.addressReleased
  else if wordStamp due ≤ s.stamp then
    let s := s.setTxn x 4 1 (s.txnFld x 4 1 - 1)
    let s := s.setTxn x 8 8 (due + s.txnFld x 0x10 4 * 2 ^ 16)
    s.draw.notify x (noticeStatus (Config.unmeasured s.free)) 1
  else s

/-- A transaction record examined: a waiting one, or a held one, which is freed when DUE has passed (R224). -/
def State.examineTxn (s : State) (x : Nat) : State :=
  if s.txnFld x 3 1 = 1 then s.examineWait x
  else if s.txnFld x 3 1 = 2 ∧ wordStamp (s.txnFld x 8 8) ≤ s.stamp then s.setTxn x 3 1 0
  else s

/-- A trap of the house context (R283): recorded, and its piece of work over. Which instruction of the ROM traps is a free
value. -/
def State.houseTrap (s : State) (cause : Nat) : State :=
  let s := s.draw
  let s := ((s.raise SEQ_TRAP_INFO.TRAP SEQ_TRAP_INFO.TRAP_CNT).setFld SEQ_TRAP_INFO.CTX 63).setFld SEQ_TRAP_INFO.CAUSE cause
  s.fault ⟨0x20, Status.trap, cause, 4 * (0x3C0000 + Config.unmeasured s.free % 0x800)⟩

/-- A parity error that the house context meets in a fetch, in a register or in a load from `a` (R346, Table 13-9). -/
def State.houseParity (s : State) (a : Nat) (parity : ParityHit) : State :=
  (if parity == .ctx then s.parityErr 7 63 else s.readParity (if parity == .fetch then 0xF00000 else a)).houseTrap 0xB

/-- One record examined, by number: reassembly records, then transaction records. Whether its words were usable; an
uncorrectable one traps (R283, Table 17-3). -/
def State.examineOne (s : State) (i : Nat) : State × Bool :=
  let a := if i < 256 then msgRec i else msgTxn (i - 256)
  let q := s.readSpan a (if s.num (a + 3) 1 = 0 then 8 else 32)
  if !q.2 then (q.1.houseTrap 0xC, false)
  else (if i < 256 then q.1.examineRec i else q.1.examineTxn (i - 256), true)

/-- Every record examined in ascending record number (R217), the reassembly records first. A parity error ends the examination
after a number of records that is a free value. -/
def State.examineAll (s : State) (parity : ParityHit) : State :=
  let hit := parity != .none
  let n := if hit then Config.unmeasured s.free % 513 else 512
  let r := (List.range n).foldl (fun (r : State × Bool) i => if r.2 then r.1.examineOne i else r)
    (if hit then s.draw else s, true)
  if hit && r.2 then r.1.houseParity (msgRec 0) parity else r.1

end Sys2Proof.Machine
end

