-- ==== Sys2Proof/Machine/Clocks.lean ====
section
/-! DEFINITION. The clock multipliers CMC and CMR, their references, and what the loss of CK_RADIO ends (R301–R318). -/

namespace Sys2Proof.Machine

/-- A multiplier's index: CMC 0, CMR 1. -/
def multIx : Mult → Nat
  | .cmc => 0 | .cmr => 1

/-- A multiplier's state. -/
def State.mult (s : State) : Mult → MultSt
  | .cmc => s.cmc | .cmr => s.cmr

/-- A multiplier's state set. -/
def State.setMult (s : State) : Mult → MultSt → State
  | .cmc, x => { s with cmc := x }
  | .cmr, x => { s with cmr := x }

/-- N of a REFMODE (Table 15-1). -/
def multN (x : Mult) (mode : Nat) : Nat :=
  match x, mode with
  | .cmc, 1 => 3000 | .cmc, 2 => 12000 | .cmc, _ => 6000
  | .cmr, 1 => 16 | .cmr, 2 => 64 | .cmr, _ => 32

/-- `k` PFD periods of a multiplier whose divider is `n`, in fine units (Table 15-1). -/
def pfdFine (x : Mult) (n k : Nat) : Nat :=
  match x with
  | .cmc => k * n
  | .cmr => ceilDiv (4 * k * n) 25

/-- The start bit RELOCK_CMn. -/
def relockFld : Mult → Fld
  | .cmc => CLK_CTRL.RELOCK_CMC | .cmr => CLK_CTRL.RELOCK_CMR

/-- The loss counters of CLK_LOSS_CNT: lock, reference. -/
def lossFld : Mult → Fld × Fld
  | .cmc => (CLK_LOSS_CNT.CMC_LOL_CNT, CLK_LOSS_CNT.CMC_REF_CNT)
  | .cmr => (CLK_LOSS_CNT.CMR_LOL_CNT, CLK_LOSS_CNT.CMR_REF_CNT)

/-- The host lets the multiplier run (R302, R312). -/
def State.multOn (s : State) : Mult → Bool
  | .cmc => !s.on CLK_CTRL.CORE_BYP
  | .cmr => s.on CLK_CTRL.CMR_EN && s.fld CLK_TCXO_CFG.MODE != 2

/-- The device is powered as far as the clocks need: not held in reset and not asleep. -/
def State.powered (s : State) : Bool := !s.asleep && s.pwr.st != .inReset

/-- A reference that CMC or CMR may take at the start of a lock sequence is present (R303, R306, R311). -/
def State.refHere (s : State) : Mult → Bool
  | .cmc => s.on CLK_STAT.XO32_OK || (s.on (CLK_CMn_CFG.SUBST 0) && s.cmr.st == 5)
  | .cmr => s.on CLK_STAT.REF_OK

/-- The reference in use by a multiplier is absent (R310, R311). -/
def State.refGone (s : State) : Mult → Bool
  | .cmc => if s.on CLK_STAT.CMC_SUBST then s.cmr.st != 5 else !s.on CLK_STAT.XO32_OK
  | .cmr => !s.on CLK_STAT.REF_OK

/-- STATE leaves waking for Run when both conditions of R329 hold; the MAC timing engine goes on (R183), and the message layer
examines every record (R217). -/
def State.wakeJudge (s : State) : State :=
  if s.pwr.st == .waking && s.pwr.core && (s.cmc.st == 5 || s.cmc.st == 6 || s.on CLK_CTRL.CORE_BYP) &&
      (s.cmr.st == 5 || s.cmr.st == 6 || !s.multOn .cmr || s.pwr.noRadio) then
    let s := ({ s with pwr := { s.pwr with st := .run } } : State).macWake
    if s.msgOn then s.examineAll .none else s
  else s

/-! What the loss of CK_RADIO ends (Table 5-6, Table 6-3). -/

/-- The recovery slots in use. -/
def State.rslotList (s : State) : List (Nat × Recov) := s.rslots.filterMap (fun p => p.2.map (fun q => (p.1, q)))

/-- Recovery slot `n` ends without its second lane having finished: FAIL_CNT counts, and where W has reached no second lane
its fallback record is written (R108, Table 5-6). -/
def State.slotLost (s : State) (n : Nat) (q : Recov) : State :=
  let w := s.entList.filter (fun p => p.2.slot == some n)
  let s := (s.recovDone n Status.radioLost).fallback q
  w.foldl (fun s p => s.dropEnt p.1) s

/-- A waiting request given up because CK_RADIO is lost (Table 5-6). -/
def State.reqLost (s : State) (q : Recov) : State := (s.incSat LANE_RECOV_STAT.SKIP_CNT).fallback q

/-- An operation that the loss of CK_RADIO ends: its release point has passed and it has not yet been sent (Table 6-3). One that
backs off waits for the release point of its moved T. -/
def State.radioEnds (s : State) (o : RadioOp) : Bool :=
  (o.kind.sends || o.kind == .lbt) &&
    (o.phase == .cover || (o.phase == .backoff && decide (s.release o ≤ s.stamp)) || o.phase == .grant || o.phase == .lateGrant || o.phase == .onAir ||
      o.phase == .gap)

/-- The operations that the loss of CK_RADIO ends, ended (R37, R64, R125). -/
def State.opsLost (s : State) : State :=
  (s.opIds.filter (fun i => match s.op i with | some o => s.radioEnds o | none => false)).foldl
    (fun s i => s.txCut i Status.radioLost) s

/-- Lanes and slots that the loss of CK_RADIO ends. -/
def State.radioBound (s : State) : Nat := s.laneList.length + s.rslotList.length

/-- CK_RADIO stops: lanes, slots, requests and transmissions end as Table 5-6 and Table 6-3 state (R112). -/
def State.radioLost (s : State) : State :=
  let s := s.laneList.foldl (fun s l => s.laneCut l.1 Status.radioLost) s
  let s := s.rslotList.foldl (fun s p => s.slotLost p.1 p.2) s
  let q := s.reqs
  (q.foldl State.reqLost { s with reqs := [] }).opsLost

/-! Losing and stopping. -/

/-- The search of a sequence in progress has ended: steps 3 and 4 of Table 15-2 follow. -/
def State.searched (s : State) (x : Mult) : Bool :=
  (s.mult x).st == 2 && decide ((s.mult x).start + pfdFine x (s.mult x).n 24 ≤ s.stamp)

/-- BAND and COUNT keep the result of a search that has ended (R306). -/
def State.keepSearch (s : State) (x : Mult) : State :=
  if s.searched x then
    (s.setFld (CLK_BAND_CMn.BAND (multIx x)) (s.mult x).res.1).setFld (CLK_BAND_CMn.COUNT (multIx x)) (s.mult x).res.2
  else s

/-- A locked multiplier's output muted, or its sequence abandoned: it waits for its next lock sequence. With CMR the sample path
stops. -/
def State.muteOne (s : State) (x : Mult) : State :=
  let m := s.mult x
  let s := if x == .cmr && m.st == 5 then s.radioLost else s
  (s.keepSearch x).setMult x { m with st := 1, stop := if m.st = 5 then some s.stamp else m.stop }

/-- CMC no longer uses the substitute reference. -/
def State.noSubst (s : State) (x : Mult) : State := if x == .cmc then s.setFld CLK_STAT.CMC_SUBST 0 else s

/-- The record of a loss of CMR remembered, so that the next lock completes it (R397 step 7). -/
def State.cmrFault (s : State) (kind n : Nat) : State :=
  let f : FaultRec := ⟨kind, Status.radioLost, 0, 0xFFFF0000 + n⟩
  if s.faultMerges f then s.fault f
  else { s.fault f with cmrOpen := some (s.faultBack (s.faultAfter f), s.stamp) }

/-- A multiplier's reference is lost while it is locked or in a lock sequence (R310, R313): REFLOSS is counted; a record is
written for a loss from lock. -/
def State.lossOne (s : State) (x : Mult) : State :=
  let m := s.mult x
  if m.st = 5 ∨ m.st = 2 then
    let n := s.radioBound
    let s := s.raise (CLK_CMn_STAT.REFLOSS (multIx x)) (lossFld x).2
    let s := if m.st = 5 then
      match x with
      | .cmc => s.fault ⟨0x03, 0, s.fld CLK_STAT.CMC_SUBST, 0⟩
      | .cmr => s.cmrFault 0x06 n
    else s
    (s.muteOne x).noSubst x
  else s

/-- CMC on a reference that is gone loses it at once: the substitute with CMR, or XO32 (R310, R311). -/
def State.cmcFollows (s : State) : State := if s.refGone .cmc then s.lossOne .cmc else s

/-- A multiplier muted; CMC on the substitute loses its reference with CMR (R311). -/
def State.mute (s : State) (x : Mult) : State := if x == .cmr then (s.muteOne x).cmcFollows else s.muteOne x

/-- A multiplier's reference lost, and CMC's with CMR. -/
def State.refLoss (s : State) (x : Mult) : State := if x == .cmr then (s.lossOne x).cmcFollows else s.lossOne x

/-- A multiplier powered off: no loss is recorded, and its next sequence begins with ATTEMPT 0 (R302, R312, R324). The failed
state stands (R309). -/
def State.multOff (s : State) (x : Mult) : State :=
  if (s.mult x).st = 6 then s
  else
    let s := (s.mute x).noSubst x
    ((s.setMult x { s.mult x with st := 0 }).setFld (relockFld x) 0).setFld (CLK_CMn_STAT.ATTEMPT (multIx x)) 0

/-- The last CMR loss record completed with the time to this lock, in µs (R397 step 7). -/
def State.cmrComplete (s : State) : State :=
  match s.cmrOpen with
  | some (k, t) =>
    { s.storeNum (faultAddr k + 14) 2 (min 0xFFFE (roundDiv (125 * ((s.stamp - t : Nat) : Int)) 24576).toNat) with
      cmrOpen := none }
  | none => s

/-- LOCK_SEQUENCE_START (R306, R311): the first reference edge with the reference present; REFMODE and SETTLE are taken. What the
search will give cannot be predicted, so it is a free value within the tolerance of step 2. -/
def execLockSequenceStart (x : Mult) (s : State) : Host.Outcome State Fault Refusal :=
  if s.powered ∧ (s.mult x).st ≤ 1 ∧ s.multOn x ∧ s.refHere x then
    let s := s.touch
    let s := if x == .cmc then s.setFld CLK_STAT.CMC_SUBST (b2n (!s.on CLK_STAT.XO32_OK)) else s
    let n := multN x (s.fld (CLK_CMn_CFG.REFMODE (multIx x)))
    .next (s.draw.draw.setMult x { s.mult x with
      st := 2, n := n, start := s.stamp, settle := s.fld (CLK_CMn_CFG.SETTLE (multIx x))
      res := (Config.unmeasured s.free % 64, 4 * n - n / 8 + Config.unmeasured (s.free + 1) % (n / 4 + 1)) })
  else .next s

/-- A declared lock: CMR's sample path resumes, with gap markers over the outage (R76, R308, R397). -/
def State.lockNowMult (s : State) (x : Mult) : State :=
  let m := s.mult x
  let s := s.setMult x { m with st := 5, stop := none }
  let s := (s.setFld (CLK_CMn_STAT.ATTEMPT (multIx x)) 0).setFld (relockFld x) 0
  let s := match x, m.stop with
    | .cmr, some t =>
      (s.skipPositions (roundDiv (100 * ((s.stamp - t : Nat) : Int)) 1572864).toNat).gapCase [.a, .b]
    | _, _ => s
  (if x == .cmr then s.cmrComplete else s).wakeJudge

/-- LOCK_DECLARED (R306): after the search and SETTLE periods, 16 consecutive counts within N ± 1, no later than the 64 periods of
step 4, the reference still there. `band` and `count` are the search's result, which the manual does not predict. -/
def execLockDeclared (x : Mult) (band count : Nat) (s : State) : Host.Outcome State Fault Refusal :=
  let m := s.mult x
  let t := m.start + pfdFine x m.n (24 + m.settle + 16)
  if m.st = 2 ∧ !s.refGone x ∧ s.reach t ∧ s.stamp ≤ m.start + pfdFine x m.n (24 + m.settle + 64) ∧ band < 64 ∧ 8 * ((count : Int) - 4 * m.n).natAbs ≤ m.n then
    let s := (s.moveTo t).draw
    let s := (s.setFld (CLK_BAND_CMn.BAND (multIx x)) band).setFld (CLK_BAND_CMn.COUNT (multIx x)) count
    .next ((s.setFld (CLK_CMn_STAT.ERR (multIx x)) (twos 8 ((Config.unmeasured s.free % 3 : Nat) - 1 : Int))).lockNowMult x)
  else .next s

/-- A failed attempt (R309): FAIL, ATTEMPT; the second one puts the multiplier into the failed state. The search's result is
a free value. -/
def State.attemptFail (s : State) (x : Mult) : State :=
  let i := multIx x
  let s := s.raise (CLK_CMn_STAT.FAIL i) (CLK_BAND_CMn.FAIL_CNT i)
  let s := (s.setFld (CLK_BAND_CMn.BAND i) (Config.unmeasured s.free)).setFld (CLK_BAND_CMn.COUNT i)
    (Config.unmeasured (s.free + 1))
  let s := ((s.setFld (CLK_CMn_STAT.ERR i) (Config.unmeasured (s.free + 2))).draw).draw.draw
  let a := s.fld (CLK_CMn_STAT.ATTEMPT i) + 1
  let s := s.setFld (CLK_CMn_STAT.ATTEMPT i) a
  if a < 2 then s.setMult x { s.mult x with st := 1 }
  else
    let s := (s.setMult x { s.mult x with st := 6 }).setFld (relockFld x) 0
    (s.fault ⟨if x = .cmc then 0x04 else 0x07, if x = .cmc then 0 else Status.radioLost, 0,
      (s.reg (CLK_BAND_CMn.off i)).toNat⟩).wakeJudge

/-- LOCK_ATTEMPT_FAIL (R309): the band search fails, or no lock comes within the count's 64 periods. -/
def execLockAttemptFail (x : Mult) (s : State) : Host.Outcome State Fault Refusal :=
  let m := s.mult x
  if m.st = 2 ∧ s.reach (m.start + pfdFine x m.n 24) then
    .next ((s.touch.moveTo (m.start + pfdFine x m.n 24)).attemptFail x)
  else .next s

/-- LOSS_OF_LOCK (R310): counts out of tolerance. The count's difference from N is a free value outside ±2. -/
def execLossOfLock (x : Mult) (s : State) : Host.Outcome State Fault Refusal :=
  if (s.mult x).st = 5 then
    let s := s.touch
    let r := Config.unmeasured s.free
    let d : Int := if r % 2 = 0 then 3 + (r / 2 : Nat) % 125 else -3 - (r / 2 : Nat) % 125
    let n := s.radioBound
    let s := s.draw.raise (CLK_CMn_STAT.LOL (multIx x)) (lossFld x).1
    let s := s.setFld (CLK_CMn_STAT.ERR (multIx x)) (twos 8 d)
    let s := match x with
      | .cmc => s.fault ⟨0x02, 0, 0, twos 32 d⟩
      | .cmr => s.cmrFault 0x05 n
    .next ((s.mute x).noSubst x)
  else .next s

/-- LOSS_OF_REFERENCE (R303, R310, R311): for CMR a window counts outside 30 to 48 edges, REF_OK falls, and the locked
synthesisers lose lock (R58); for CMC the reference it uses has become absent. DESIGN CHOICE: the loss of CMR and the unlock of
each synthesiser are gap cases of their own (R76; log entry 173). -/
def execLossOfReference (x : Mult) (s : State) : Host.Outcome State Fault Refusal :=
  match x with
  | .cmc => if s.refGone .cmc then .next (s.touch.refLoss .cmc) else .next s
  | .cmr =>
    if s.on CLK_STAT.REF_OK then
      let s := (s.touch.setFld CLK_STAT.REF_OK 0).refLoss .cmr
      .next ([Syn.sya, .syb, .syt].foldl (fun s y => if (s.syn y).phase == .locked then s.synUnlock y else s) s)
    else .next s

/-- TCXO_PRESENT (R303): STARTUP µs have passed since TCXO_EN rose, counted on FBO (±4 %), and two windows were good. -/
def execTcxoPresent (s : State) : Host.Outcome State Fault Refusal :=
  if s.powered ∧ s.pins.tcxoEn ∧ !s.on CLK_STAT.REF_OK ∧
      s.reach (s.pwr.tcxoAt + usFine (s.fld CLK_TCXO_CFG.STARTUP) * 96 / 100) then
    .next (((s.touch.moveTo (s.pwr.tcxoAt + usFine (s.fld CLK_TCXO_CFG.STARTUP) * 96 / 100)).setFld CLK_STAT.REF_OK 1).synRef)
  else .next s

/-- XO32_PRESENT (R301): 64 good edges in a row. -/
def execXo32Present (s : State) : Host.Outcome State Fault Refusal :=
  if s.pwr.st = .inReset ∨ s.pwr.st = .off ∨ s.on CLK_STAT.XO32_OK then .next s
  else
    let s := s.touch.setFld CLK_STAT.XO32_OK 1
    .next { s with time := { s.time with absent := false } }

/-- FBO_MEASURE (R304): the FBO cycles of the last 64 ticks. DESIGN CHOICE: the periods end at the multiples of 64 ticks (log
entry 192). -/
def execFboMeasure (count : Nat) (s : State) : Host.Outcome State Fault Refusal :=
  if s.powered ∧ s.on CLK_STAT.XO32_OK ∧ s.tick % 64 = 0 then .next (s.touch.setFld CLK_FBO_TRIM.MEAS count) else .next s

/-! Register writes (R302, R312); the fields are written before these act. -/

/-- RELOCK_CMn written 1: ignored during a lock sequence, between its two attempts, or with the multiplier off (R312, R313);
one that waits for its reference shows the bit until it locks or fails. -/
def State.relock (s : State) (x : Mult) : State :=
  let m := s.mult x
  if m.st = 5 ∨ m.st = 6 ∨ (m.st = 1 ∧ s.fld (CLK_CMn_STAT.ATTEMPT (multIx x)) = 0) then
    let s := ((s.mute x).noSubst x).setFld (CLK_CMn_STAT.ATTEMPT (multIx x)) 0
    (s.setMult x { s.mult x with st := 1 }).setFld (relockFld x) 1
  else s

/-- CORE_BYP has changed (R309, R312). -/
def State.coreBypChanged (s : State) : State :=
  let s := ((s.keepSearch .cmc).setFld (CLK_CMn_STAT.ATTEMPT 0) 0).noSubst .cmc
  let s := { s with cmc := { s.cmc with st := if s.on CLK_CTRL.CORE_BYP then 0 else 1 } }
  (s.setFld CLK_CTRL.RELOCK_CMC 0).wakeJudge

/-- CMR_EN or MODE has changed (R302, R312): CMR is powered off ahead of TCXO_EN, or waits for its reference; with MODE = OFF
the synthesisers and their chains go off too. -/
def State.cmrJudge (s : State) : State :=
  let s :=
    if s.multOn .cmr then (if s.cmr.st = 0 ∧ s.powered then { s with cmr := { s.cmr with st := 1 } } else s)
    else s.multOff .cmr
  let s := if s.fld CLK_TCXO_CFG.MODE = 2 then
      [Syn.sya, .syb, .syt].foldl (fun s y => if s.synOn y then s.synOff y none else s) s
    else s
  s.tcxoJudge.wakeJudge

end Sys2Proof.Machine
end

