-- ==== Sys2Proof/Machine/Reset.lean ====
section
/-! DEFINITION. What resets and sleeps leave of the registers and of the engines (R247, R321, R366, R370, Table 16-2). -/

namespace Sys2Proof.Machine

/-- Registers that SYS_SOFTRESET leaves unchanged: SYS (R402), CLK (R318), PWR (R339), SEQ_SKETCH_BASE, the counter's and
the line's registers of CVN (R27), the SGL registers (R129), MEM_WALK_POS (R357) and WKR_FALSE_CNT (R205). -/
def softKeep (off : Nat) : Bool :=
  off < 0x3000 || off == SEQ_SKETCH_BASE.off || (CVN_CFG.off ≤ off && off ≤ 0x5020) ||
    (SGL_STAT.off ≤ off && off < 0xA000) || off == MEM_WALK_POS.off || off == WKR_FALSE_CNT.off

/-- Registers that leaving Deep sleep leaves unchanged: those and WKR, MAC, MEM and the registers of L0 to L3
(Table 16-2). -/
def deepKeep (off : Nat) : Bool :=
  softKeep off || off / 0x1000 == 0xA || off / 0x1000 == 0xE || off / 0x1000 == 0xF || (0x5100 ≤ off && off < 0x5140)

/-- Fields that both keep in registers that return to their reset values: `RFA_TEMP.OFFSET`, the bands of `RFA_CAL_STAT`
(end of chapter 3), CAP and FINE (R205), PASSES (R357). -/
def softFields : List Fld :=
  [RFA_TEMP.OFFSET, RFA_CAL_STAT.SYA_BAND, RFA_CAL_STAT.SYB_BAND, RFA_CAL_STAT.SYT_BAND, WKR_TUNE.CAP, WKR_TUNE.FINE,
    MEM_WALK_STAT.PASSES]

/-- Registers that `keep` does not name return to their reset values, but for the fields above. -/
def State.regsReset (s : State) (keep : Nat → Bool) : State :=
  softFields.foldl (fun r f => if keep f.off then r else r.setFld f (s.fld f))
    { s with regs := s.regs.filter (fun e => keep e.1) }

/-- Every slot freed with its generation advanced, 63 back to 1 (R246, R247). -/
def State.slotsReset (s : State) : State :=
  { s with
    slots := (List.range 1024).map (fun i =>
      let x := s.slot (i / 256) (i % 256)
      (i, { Slot.fresh with
        gen := if x.gen = 63 then 1 else x.gen + 1, freed := if x.st == .free then x.freed else s.order + 1 }))
    order := s.order + 1 }

/-- Transmissions on the air cut with ABORTED and charged (R64, R125, R370). -/
def State.cutAll (s : State) : State :=
  s.opIds.foldl (fun s i => match s.op i with
    | some o => if o.phase == .onAir then s.txCut i Status.aborted else s
    | none => s) s

/-- Everything that runs in the CK_CORE and CK_RADIO domains ended without results or events: contexts, radio and engine
operations, launchers that `keep` does not name, windows, semaphores, lanes, entries, engines (R247, R269, Table 18-7). -/
def State.workReset (s : State) (keep : Nat → Bool) : State :=
  { s with
    ctx := [], ops := [], engs := [], sems := [], wins := [], ents := [], lanes := [], held := [], reqs := [], rslots := []
    lnch := s.lnch.filter (fun e => keep e.1)
    aes := [], dma := [], chk := [], casc2 := [], casc3 := [], msgQ := [], msgEn := false
    palA := .zero, palB := .zero
    sya := .off 0x15A3C1, syb := .off 0x6B0E5D, syt := .off 0x3CF192
    tempConv := false, keyData := []
    pins := { s.pins with paEn := false, paCtl := none, txrx := false, ant0 := false, ant1 := false, lnaByp := false } }

/-- Every claim withdrawn; the PA claim table stands (R339, Table 16-3). -/
def State.claimsReset (s : State) : State := { s with well := { s.well with granted := [], queue := [] } }

/-- The layer's EN set to 0 in its control block (R210). -/
def State.msgOff (s : State) : State :=
  let b := s.num 0x2F6018 1
  s.storeNum 0x2F6018 1 (b - b % 2)

/-- A failed multiplier starts again after a soft reset (R309, R318). -/
def State.multRestart (s : State) (x : Mult) : State :=
  if (s.mult x).st = 6 then
    (s.setMult x { s.mult x with st := if s.multOn x then 1 else 0 }).setFld (CLK_CMn_STAT.ATTEMPT (multIx x)) 0
  else s

/-- The balls that served as cascade selects follow their pin words again when cascade mode has ended (R238, R239). -/
def State.selectsBack (s old : State) : State :=
  (List.range 8).foldl (fun s i => if old.gpSelect (8 + i) && !s.gpSelect (8 + i) && s.awake then s.applyPin (8 + i) else s) s

/-- The line state of Table 19-3. -/
def State.lineSt (s : State) : Nat := s.fld CVN_LINE_STAT.STATE

/-- The unit is a root with the line enabled. DEDUCED: a soft reset returns CAS_ROLE to standalone, and the line code goes on
until CAS_ROLE or CVN_LINE_CFG is written (R386; log entry 194). -/
def State.rootSends (s : State) : Bool := s.on CVN_LINE_CFG.EN && (s.fld CAS_ROLE.ROLE == 1 || s.line.goesOn)

/-- The line loop judged after EN or ROLE may have changed: Off, or Acquiring when it starts. -/
def State.lineJudge (s : State) : State :=
  if !s.lineOwns then s.setFld CVN_LINE_STAT.STATE 0
  else if s.lineSt = 0 then
    { s.setFld CVN_LINE_STAT.STATE 1 with line := ⟨s.stamp, none, 0, 0, 0, false, s.line.err, false⟩ }
  else s

/-- A soft reset has not come to its step 3 (R371): 20 µs have not passed since it, and its primer start-up has not ended. -/
def State.resetting (s : State) : Bool := !s.pwr.primed && decide (s.stamp < s.pwr.wakeAt + usFine 20)

/-- A soft reset (R370, Table 18-7): the Caravan counter, captured stamps, clocks, Brush, accounts, banks and GP balls run
on. PA_EN falls within 20 µs, from which the wake receiver's 1 ms counts (R64, R201). -/
def State.softReset (s : State) : State :=
  let old := s
  let s := s.cutAll
  let s := (s.workReset (fun _ => false)).claimsReset
  let s := s.slotsReset.msgOff
  let s := { s with
    keys := [], mac := .zero, pos := 0, ports := []
    wkr := ⟨none, 0, none, if old.pins.paEn then ceilDiv (s.stamp + usFine 20 + msFine 1) 6000 else s.wkr.blind, s.wkr.judged⟩
    brush := if s.on MEM_WALK_CFG.EN then s.brush else { s.brush with at_ := s.stamp }
    pwr := { s.pwr with req := 0, wakeAt := s.stamp, primed := false, boot := [] } }
  let s := (s.regsReset softKeep).incMod SYS_SOFTRESET.SR_CNT
  let s := (s.multRestart .cmc).multRestart .cmr
  let s := { s with line := { s.line with goesOn := old.rootSends } }
  (s.tcxoJudge.selectsBack old).lineJudge.leaveIdle

end Sys2Proof.Machine
end

