-- ==== Sys2Proof/Machine/Power.lean ====
section
/-! DEFINITION. Power states, waking, start-up and reset, and the grants of the Well (R319–R338, R366–R368). -/

namespace Sys2Proof.Machine

/-! Idle and the quiet point. -/

/-- Some DMA channel, AES engine or check engine is busy. -/
def State.enginesBusy (s : State) : Bool :=
  s.dma.any (fun d => d.2.busy) || s.aes.any (fun a => a.2.busy.isSome) || s.chk.any (fun c => c.2.op.isSome)

/-- Some context is ready; none is in flight between commands. -/
def State.someReady (s : State) : Bool := s.ctx.any (fun c => c.2.st == .ready)

/-- The conditions of Idle (R320). -/
def State.idleNow (s : State) : Bool :=
  s.on PWR_REQ.IDLE_EN && !s.someReady && !s.chainOn .a && !s.chainOn .b && !s.synOn .sya && !s.synOn .syb &&
    !s.synOn .syt && !s.enginesBusy && s.brush.busy.isNone

/-- A wait that does not hold off a sleeping state (R322): time, event, semaphore. -/
def Wait.sleeps : Wait → Bool
  | .time | .event | .semaphore => true
  | _ => false

/-- The quiet point (R322), with the Brush between regions (R357) and no initiator frame of a cascade port open. -/
def State.quiet (s : State) : Bool :=
  s.ctx.all (fun c => match c.2.st with
    | .free => true
    | .ready => false
    | .parked w => w.sleeps) &&
  !s.on TXP_STAT.ACTIVE && s.laneList.isEmpty && s.rslotList.isEmpty && !s.enginesBusy && s.brush.busy.isNone &&
  s.casc2.isEmpty && s.casc3.isEmpty

/-- IDLE_ENTRY (R320). -/
def execIdleEntry (s : State) : Host.Outcome State Fault Refusal :=
  if s.pwr.st = .run ∧ s.pwr.core ∧ s.idleNow then .next { s.touch with pwr := { s.touch.pwr with st := .idle } }
  else .next s

/-! Losing banks. -/

/-- A bank cleared to zero with valid check bits (R330). -/
def State.clearBank (s : State) (b : Bank) : State :=
  { s with
    mem := s.mem.filter (fun e => !b.holds e.1)
    marks := s.marks.filter (fun e => !b.holds (8 * e.1))
    scrub := s.scrub.filter (fun w => !b.holds (8 * w)) }

/-- The banks that a sleeping state loses (Table 16-1). -/
def State.lostBanks (s : State) (deep : Bool) : List Bank :=
  (if deep || !s.on PWR_RET_CFG.PGM_RET then [.pgm] else []) ++ (if deep || !s.on PWR_RET_CFG.PTB_RET then [.ptb] else []) ++
    [.frm, .msg, .erg]

/-! Entering Sleep, Deep sleep and Off (Table 16-3). -/

/-- The claims that stay queued in Sleep: those of parked contexts. -/
def Holder.ofContext : Holder → Bool
  | .budg _ | .aes _ => true
  | _ => false

/-- A Palette whose Erg is lost: only the bin mask stands. -/
def Palette.lost (x : Palette) : Palette := { Palette.zero with mask := x.mask }

/-- Steps 2 to 4: claims withdrawn, radio off, CMR off ahead of TCXO_EN, which `pwr.st` then governs. -/
def State.radioSleep (s : State) (deep : Bool) : State :=
  let s := [Syn.sya, .syb, .syt].foldl (fun s y => if s.synOn y then s.synOff y none else s) s
  let s := { s with
    well := { s.well with granted := [], queue := if deep then [] else s.well.queue.filter (fun c => c.who.ofContext) }
    ents := [], held := [], reqs := [], palA := s.palA.lost, palB := s.palB.lost
    pins := { s.pins with paEn := false, paCtl := none, txrx := false, ant0 := false, ant1 := false, lnaByp := false } }
  let s := (s.multOff .cmc).multOff .cmr
  (({ s with
    cmr := { s.cmr with st := 0, stop := none }
    cmc := { s.cmc with st := 0, stop := none }
    pwr := { s.pwr with st := if deep then .deep else .sleep, req := 0, core := false } } : State).tcxoJudge).setFld
    CLK_STAT.REF_OK 0

/-- Launchers that Deep sleep disarms, without FIRED or MISSED (R35). -/
def State.launchersDeep (s : State) : State :=
  (List.range 32).foldl (fun s n =>
    if (s.launcher n).armed && (decide (4 ≤ n) || !s.on (CVN_Ln_ACT.KEEP n)) then s.lnOff n else s) s

/-- The level of the line code at the present stamp (Table 19-2): 1 µs for a sync pulse, 3 µs for a marker, and 6 or 2 µs in
each of the 64 cells of 10 µs that start 20 µs after the marker. -/
def State.cvnLevel (s : State) : Bool :=
  let d := (s.stamp - 6000 * s.pins.cvn) * 125
  let u := (d - 20 * 24576) % (10 * 24576)
  if s.pins.cvn = 0 then false
  else if s.pins.cvn % 1024 ≠ 0 then decide (d < 24576)
  else decide (d < 3 * 24576) ||
    (decide (20 * 24576 ≤ d) && decide (d < 660 * 24576) &&
      decide (u < if s.pins.code.testBit (63 - (d - 20 * 24576) / (10 * 24576)) then 6 * 24576 else 2 * 24576))

/-- The GP balls that a sleeping state floats; cascade selects stay driven in Sleep (Table 16-6). -/
def State.gpSleep (s : State) (deep : Bool) : State :=
  { s with pins := { s.pins with
      cvnKept := if s.fld CAS_ROLE.ROLE == 1 then some (s.rootSends && s.cvnLevel) else none
      gpDrv := s.pins.gpDrv.filter (fun e => !deep && ((s.fld PWR_ISO_CFG.GP_KEEP).testBit e.1 || s.gpSelect e.1)) } }

/-- Sleep or Deep sleep entered (R324). -/
def State.enterSleep (s : State) (deep : Bool) : State :=
  let s := if s.on WKR_CFG.RUN_EN then s else { s with wkr := { s.wkr with blind := max s.wkr.blind s.tick } }
  let s := (s.radioSleep deep).gpSleep deep
  let s := (s.lostBanks deep).foldl State.clearBank { s with msgEn := false, msgQ := [] }
  if deep then
    let s := s.launchersDeep
    let l := s.lnch
    { (s.workReset (fun _ => true)) with
      lnch := l, palA := .zero, palB := .zero
      mac := { s.mac with sf0 := none, ann := annHold s.mac.ann, heard := [], opened := [], queue := [] } }
  else s

/-- The device as Off, a reset or a start-up finds it: every register, bank and key lost, the levels driven from outside
kept (Table 16-1, R366). -/
def State.cold (s : State) (st : PwrSt) : State :=
  { State.reset with
    pwr := { State.reset.pwr with st := st }
    pins := { State.reset.pins with gpIn := s.pins.gpIn }
    free := s.free
    pending := s.pending }

/-- The state that a pending request names, entered. -/
def State.enter (s : State) (req : Nat) : State :=
  if req = 3 then s.cold .off else s.enterSleep (req == 2)

/-- The device serves commands: the core domain runs outside the start-up. -/
def State.serves (s : State) : Bool := s.awake && (s.pwr.st == .run || s.pwr.st == .idle || s.pwr.st == .waking)

/-- QUIET_POINT (R322, R324): a pending request is carried out. DEDUCED: Table 16-3 is one step. -/
def execQuietPoint (s : State) : Host.Outcome State Fault Refusal :=
  if s.serves ∧ s.pwr.req ≠ 0 ∧ s.quiet then .next (s.touch.enter s.pwr.req) else .next s

/-- GRACE_EXPIRY (R323): no quiet point within GRACE ms. -/
def execGraceExpiry (s : State) : Host.Outcome State Fault Refusal :=
  let t := s.pwr.reqAt + msFine (s.fld PWR_REQ.GRACE)
  if s.serves ∧ s.pwr.req ≠ 0 ∧ s.reach t ∧ !s.quiet then
    let s := s.moveTo t
    if s.pwr.req = 3 then .next (s.cold .off)
    else .next (({ s with pwr := { s.pwr with req := 0 } } : State).raise PWR_STATE.REFUSED PWR_STATE.REFUSED_CNT)
  else .next s

/-! Waking (R326–R330). -/

/-- A wake recorded (R327): PWR_WAKE_LAST and PWR_WAKE_TIME with the first source. -/
def State.wakeRecord (s : State) (code tick : Nat) : State :=
  let deep := s.pwr.st == .deep
  let s := if s.on PWR_WAKE_LAST.VALID then s.setFld PWR_WAKE_LAST.OVR 1 else s
  let s := (s.setFld PWR_WAKE_LAST.VALID 1).incMod PWR_WAKE_LAST.WAKE_CNT
  let s := (s.setFld PWR_WAKE_LAST.FROM (if deep then 3 else 2)).setFld PWR_WAKE_LAST.FIRST code
  let s := (s.setFld PWR_WAKE_LAST.SOURCES (2 ^ (code - 1))).setFld PWR_WAKE_LAST.LNCH 0
  let s := (s.setFld PWR_WAKE_LAST.PORT 0).setFld PWR_WAKE_TIME_LO.TICKS_LO tick
  s.setFld PWR_WAKE_TIME_HI.TICKS_HI (tick / 2 ^ 32)

/-- The tick of the last wake. -/
def State.wakeTick (s : State) : Nat := s.fld PWR_WAKE_TIME_HI.TICKS_HI * 2 ^ 32 + s.fld PWR_WAKE_TIME_LO.TICKS_LO

/-- A further source in the tick of the wake (R327). -/
def State.wakeAlso (s : State) (code : Nat) : State :=
  let s := s.setFld PWR_WAKE_LAST.SOURCES (s.fld PWR_WAKE_LAST.SOURCES ||| 2 ^ (code - 1))
  s.setFld PWR_WAKE_LAST.FIRST (min code (s.fld PWR_WAKE_LAST.FIRST))

/-- The wake sequence's first step (Table 15-5, Table 16-5): the multipliers wait for their references, a failed one leaves
its state (R309), TCXO_EN rises. -/
def State.wakeStart (s : State) : State :=
  let s := { s with
    pwr := { s.pwr with st := .waking, wakeAt := s.stamp, noRadio := false }
    cmc := { s.cmc with st := if s.multOn .cmc then 1 else 0 }
    cmr := { s.cmr with st := if s.multOn .cmr then 1 else 0 } }
  let s := (s.setFld (CLK_CMn_STAT.ATTEMPT 0) 0).setFld (CLK_CMn_STAT.ATTEMPT 1) 0
  s.tcxoJudge

/-- The tick `tick` is that of the wake under way, before the core starts: a further source still counts (R327). -/
def State.joinsWake (s : State) (tick : Nat) : Bool := s.pwr.st == .waking && !s.pwr.core && tick == s.wakeTick

/-- A wake event of source `code` at tick `tick`, from Sleep or Deep sleep, or one more in the tick of the wake. Whether it
counted. -/
def State.wakeEvent (s : State) (code tick : Nat) : State × Bool :=
  if s.pwr.st == .sleep || s.pwr.st == .deep then ((s.wakeRecord code tick).wakeStart, true)
  else if s.joinsWake tick then (s.wakeAlso code, true)
  else (s, false)

/-- A launcher wakes the device (R36): LNCH is the lowest launcher that acted. -/
def State.wakeByLauncher (s : State) (n tick : Nat) : State :=
  let first := !(s.pwr.st == .waking && (s.fld PWR_WAKE_LAST.SOURCES).testBit 2)
  let r := s.wakeEvent 3 tick
  if r.2 then r.1.setFld PWR_WAKE_LAST.LNCH (if first then n else min n (s.fld PWR_WAKE_LAST.LNCH)) else s

/-- WAKE_PIN (R326): the WAKE ball has been high for 2 ticks. -/
def execWakePin (s : State) : Host.Outcome State Fault Refusal :=
  if s.on PWR_WAKE_EN.PIN then .next (s.wakeEvent 1 s.tick).1 else .next s

/-- XO32_ABSENT (R37, R301): no edge for 3 periods; a fault record, and a wake from Sleep or Deep sleep. DEDUCED: INFO is
the tick count, [31:0], that the substitute clock has reached. -/
def execXo32Absent (s : State) : Host.Outcome State Fault Refusal :=
  if s.pwr.st = .inReset ∨ s.pwr.st = .off ∨ s.time.absent then .next s
  else
    let s := { s.touch with time := { s.touch.time with absent := true } }
    let s := (s.raise CLK_XO32_CFG.ABSENT CLK_XO32_CFG.ABSENT_CNT).setFld CLK_STAT.XO32_OK 0
    .next ((s.fault ⟨0x01, 0, 0, s.tick % 2 ^ 32⟩).cmcFollows.wakeEvent 5 s.tick).1

/-- The event rings restart empty (R260, R330). -/
def State.ringsReset (s : State) : State := [0, 1, 2, 3].foldl State.ringReset s

/-- PWR_STATE.CLR set for banks (R330). -/
def State.setClr (s : State) (bs : List Bank) : State :=
  s.setFld PWR_STATE.CLR (bs.foldl (fun a b => a + 2 ^ b.code) 0)

/-- LNA_BYP and the GP balls driven again (R331, R374). -/
def State.pinsWake (s : State) : State :=
  let s := { s with pins := { s.pins with lnaByp := s.on RFA_EXT_CTL.LNA_BYP } }
  s.applyPins (pinAddr 0) 64

/-- Step 4 of Table 16-5: the CK_CORE domain runs. After Deep sleep registers, slots and the MAC's queue follow Table 16-2;
the sketches that the wake queued are submitted (R251). -/
def State.coreReady (s : State) : State :=
  let deep : Bool := s.fld PWR_WAKE_LAST.FROM = 3
  let boot := s.pwr.boot
  let s := { s with pwr := { s.pwr with core := true, boot := [] } }
  let s := if deep then (s.regsReset deepKeep).slotsReset.lineJudge else s
  let s := ((s.setClr (s.lostBanks deep)).ringsReset).pinsWake
  let s := boot.foldl (fun s b => s.submitInternal b.1 b.2 ⟨s.wakeTick * 6000, if s.fld PWR_WAKE_LAST.FIRST = 2 then 5 else 4, 0⟩) s
  s.wakeJudge

/-- Step 4 of Table 18-6: after a reset or Off; TCXO_EN has risen at step 2, all banks are being cleared. -/
def State.coreStart (s : State) : State :=
  let s := { s with pwr := { s.pwr with st := .run, core := true } }
  let s := s.tcxoJudge.setClr Bank.all
  { s with pwr := { s.pwr with tcxoAt := s.pwr.wakeAt + usFine 20 } }

/-- WAKE_CORE_READY (R329, R367): 200 µs after the wake or the release of RESET_N. -/
def execWakeCoreReady (s : State) : Host.Outcome State Fault Refusal :=
  let t := s.pwr.wakeAt + usFine 200
  if !s.pwr.core ∧ s.reach t then
    if s.pwr.st = .waking then .next (s.moveTo t).coreReady
    else if s.pwr.st = .starting then .next (s.moveTo t).coreStart
    else .next s
  else .next s

/-- CLEARING_END (R330). -/
def execClearingEnd (b : Bank) (s : State) : Host.Outcome State Fault Refusal :=
  let c := s.fld PWR_STATE.CLR
  if s.awake ∧ c.testBit b.code then .next (s.touch.setFld PWR_STATE.CLR (c - 2 ^ b.code)) else .next s

/-- CK_RADIO_WAIT_EXPIRY (R329): CMR still waits for its reference STARTUP + 100 µs after TCXO_EN rose. -/
def execCkRadioWaitExpiry (s : State) : Host.Outcome State Fault Refusal :=
  let t := s.pwr.tcxoAt + usFine (s.fld CLK_TCXO_CFG.STARTUP + 100)
  if s.pwr.st = .waking ∧ s.cmr.st = 1 ∧ !s.on CLK_STAT.REF_OK ∧ s.reach t then
    let s := s.moveTo t
    .next ({ s with pwr := { s.pwr with noRadio := true } } : State).wakeJudge
  else .next s

/-- WAKE_FROM_OFF (R328): a start-up, with the wake recorded. -/
def execWakeFromOff (s : State) : Host.Outcome State Fault Refusal :=
  if s.pwr.st = .off then
    let s := s.cold .starting
    let s := (s.setFld PWR_WAKE_LAST.FROM 1).setFld PWR_WAKE_LAST.FIRST 1
    .next (((s.setFld PWR_WAKE_LAST.SOURCES 1).setFld PWR_WAKE_LAST.VALID 1).setFld PWR_WAKE_LAST.WAKE_CNT 1)
  else .next s

/-- RESET_N_LOW (R366). -/
def execResetNLow (s : State) : Host.Outcome State Fault Refusal := .next (s.cold .inReset)

/-- RESET_N_RELEASE (R367): RESET_N rises and the counter runs from tick 0. -/
def execResetNRelease (s : State) : Host.Outcome State Fault Refusal :=
  if s.pwr.st = .inReset then .next (s.cold .starting) else .next s

/-- The first 8,188 bytes of the primer ROM. -/
def State.romBytes (s : State) (a n : Nat) : List Byte := s.bytes (0xF00000 + a) n

/-- PRIMER_STARTUP (R368): the house context checks the ROM's CRC-32; a mismatch is recorded and start-up goes on. A parity
error traps, and ends this piece of the house context's work (R283). -/
def execPrimerStartup (s : State) (env : Env := .clean) : Host.Outcome State Fault Refusal :=
  if s.awake ∧ !s.pwr.primed then
    let s := s.touch.upset env
    let c := crc32 (s.romBytes 0 8188)
    let s := if env.parity != .none then s.houseParity 0xF00000 env.parity
      else if c = leNat (s.romBytes 8188 4) then s
      else s.fault ⟨0x21, Status.fcsFail, 0, c⟩
    .next { s with pwr := { s.pwr with primed := true } }
  else .next s

/-! Grants (R335, Table 14-5). -/

/-- A TUNE goes on once its claims are granted (R291): the chain or SYT is powered and the tune queued. -/
def State.tuneGo (s : State) (id : Nat) (o : RadioOp) : State :=
  let y := synOf o.chain
  let s := (s.offSyns y).foldl (fun s z => s.powerUp z o.ticket) s
  let s := s.setOp id { o with phase := .lock }
  let s := match o.ctx with
    | some k => if (s.cx k.val).susp == Susp.radio id then s.park k.val Wait.radio (.radio id) else s
    | none => s
  s.tuneAdd y ⟨wordOf2 o.freq, if y == Syn.syt then none else some (o.freq / 2), o.force, some id, o.ticket⟩

/-- A transmission goes on once SYT may be powered (R117). -/
def State.txGoOn (s : State) (id : Nat) (o : RadioOp) : State := (s.powerUp .syt o.ticket).txTune id

/-- Every operation whose power claims are now all held goes on, in ticket order. -/
def State.claimsGo (s : State) : State :=
  let ids := s.opIds.filter (fun i => match s.op i with
    | some o => o.phase == .claim && s.powerHeld o.syn
    | none => false)
  ids.foldl (fun s i => match s.op i with
    | some o => if o.kind == .tune then s.tuneGo i o else s.txGoOn i o
    | none => s) s

/-- The oldest operation whose context waits for an AES claim goes on to wait for the engine (R293). -/
def State.aesGranted (s : State) : State :=
  let waiting := s.aesQueue.filterMap (fun p => p.2.ctx.bind (fun k =>
    if (s.cx k.val).st == .parked .well && (s.cx k.val).susp == .engine p.1 then some (p.1, k, p.2.ticket) else none))
  match pickBest (fun (a b : Nat × Fin 64 × Ticket) => a.2.2.le b.2.2) waiting with
  | some (id, k, _) => s.park k.val .engine (.engine id)
  | none => s

/-- What a granted claim sets going. -/
def State.granted (s : State) (h : Holder) : State :=
  match h with
  | .chain _ | .txBase => s.claimsGo
  | .budg k => match (s.cx k.val).susp with
    | .budg d => s.finish k.val d Status.ok
    | _ => s
  | .aes _ => s.aesGranted
  | _ => s

/-- CLAIM_GRANT (R335): the first-ranked waiting claim is granted when it fits; a PA claim as R123 states. -/
def execClaimGrant (s : State) : Host.Outcome State Fault Refusal :=
  if !s.awake then .next s
  else
    match s.wellHead with
    | none => .next s
    | some c =>
      if !s.grantable c then .next s
      else
        match c.who with
        | .pa id => match s.op id with
          | some o => .next (s.paGrantLate id o)
          | none => .next (s.withdraw (.pa id))
        | h => .next ((s.touch.grantClaim c).granted h)

end Sys2Proof.Machine
end

