-- ==== Sys2Proof/Machine/Wkr.lean ====
section
/-! DEFINITION. The wake receiver: calibration, wake calls and their judgement (R193–R203). -/

namespace Sys2Proof.Machine

/-- The receiver is on in the present power state (Table 9-2). -/
def State.wkrOn (s : State) : Bool :=
  s.on WKR_CFG.EN && (s.asleep || s.on WKR_CFG.RUN_EN) && s.pwr.st != .off && s.pwr.st != .inReset

/-- The receiver listens: on, and not calibrating (R194). -/
def State.wkrListens (s : State) : Bool := s.wkrOn && s.wkr.cal.isNone

/-- A calibration starts, unless one runs (R194). -/
def State.wkrCal (s : State) : State :=
  if s.wkr.cal.isSome then s
  else { s.setFld WKR_TUNE.CAL 1 with wkr := { s.wkr with cal := some s.tick, ref := s.tick } }

/-- Input counts only from now on. -/
def State.wkrDeaf (s : State) : State := { s with wkr := { s.wkr with blind := max s.wkr.blind s.tick } }

/-- WKR_CFG has been written (R194, Table 9-2): EN going from 0 to 1 calibrates before listening starts. -/
def State.wkrCfg (s old : State) : State :=
  let s := if s.wkrOn && !old.wkrOn then s.wkrDeaf else s
  if s.on WKR_CFG.EN && !old.on WKR_CFG.EN then s.wkrCal else s

/-- PERIODIC_CALIBRATION (R194): every CALINT × 2^21 ticks while listening, counted from the last calibration's start. -/
def execPeriodicCalibration (s : State) : Host.Outcome State Fault Refusal :=
  let t := (s.wkr.ref + s.fld WKR_CFG.CALINT * 2 ^ 21) * 6000
  if s.wkrListens ∧ s.fld WKR_CFG.CALINT ≠ 0 ∧ s.reach t then .next (s.moveTo t).wkrCal else .next s

/-- WKR_CALIBRATION_END (R194): 1536 ticks after the start; the closest codes and their count. -/
def execWkrCalibrationEnd (cap fine count : Nat) (s : State) : Host.Outcome State Fault Refusal :=
  match s.wkr.cal with
  | some t0 =>
    let t := (t0 + 1536) * 6000
    if s.reach t then
      let s := s.moveTo t
      let s := { s.setFld WKR_TUNE.CAL 0 with wkr := { s.wkr with cal := none } }
      let s := ((s.setFld WKR_TUNE.CAP cap).setFld WKR_TUNE.FINE fine).setFld WKR_STAT.COUNT count
      let d := ((s.fld WKR_STAT.COUNT : Int) - s.fld WKR_TUNE.TARGET).natAbs
      .next (if 2 < d then s.raise WKR_STAT.CALFAIL WKR_STAT.CALFAIL_CNT else s).wkrDeaf
    else .next s
  | none => .next s

/-- Bits in which two words differ. -/
def hamming (a b : Word) : Nat := ((List.range 32).filter (fun i => a.toNat.testBit i != b.toNat.testBit i)).length

/-- The lowest enabled call word that matches (R198). -/
def State.callWord (s : State) (w : Word) : Option Nat :=
  [0, 1, 2, 3].find? (fun n => (s.fld WKR_CFG.WEN).testBit n &&
    decide (hamming w (s.reg (WKR_WORDn.off n)) ≤ s.fld WKR_CFG.MAXERR))

/-- How a target is met (R198 step 3, `WKR_LAST.MATCH`). -/
def State.callTarget (s : State) (t : Nat) : Option Nat :=
  if t = 0xFFFE then none
  else if t = s.fld WKR_CFG.ADDR then some 0
  else if t = s.fld WKR_CLASS_MASK.GROUP then some 1
  else if t = 0xFFFF ∧ s.on WKR_CFG.BCAST then some 2
  else none

/-- A duplicate of the last accepted call (R199). -/
def State.callDup (s : State) (n c t tick : Nat) : Bool :=
  match s.wkr.last with
  | some (n', c', t', k) => n == n' && c == c' && t == t' && decide (tick ≤ k + 1024 * s.fld WKR_TUNE.HOLD)
  | none => false

/-- An accepted call acts by power state (Table 9-2); one in the tick of a wake by another source still counts as asleep
(R327). The fine count of its stamp outside a sleeping state is a free value. -/
def State.callActs (s : State) (tick : Nat) : State :=
  if s.asleep || s.joinsWake tick then
    if s.on PWR_WAKE_EN.WKR then
      let boot := if s.on WKR_CFG.SK_EN then
        [(s.fld WKR_CLASS_MASK.SKETCH, [s.reg WKR_LAST.off, BitVec.ofNat 32 tick])] else []
      let s := { s with pwr := { s.pwr with boot := s.pwr.boot ++ boot } }
      (s.wakeEvent 2 tick).1
    else s
  else if s.pwr.st == .run || s.pwr.st == .idle then
    s.draw.post (s.fld WKR_CFG.EVPORT) 0x03 0 0 (s.reg WKR_LAST.off).toNat 0
      (6000 * tick + Config.unmeasured s.free % 6000)
  else s

/-- A call accepted (R200). -/
def State.callAccept (s : State) (n c t m tick : Nat) : State :=
  let s := s.raise WKR_STAT.ACC WKR_STAT.ACC_CNT
  let s := ((s.setFld WKR_LAST.CLASS c).setFld WKR_LAST.WORD n).setFld WKR_LAST.MATCH m
  let s := s.setFld WKR_LAST.TARGET t
  ({ s with wkr := { s.wkr with last := some (n, c, t, tick) } } : State).callActs tick

/-- A call whose word matched, judged on CRC, class and target (R197, R198). -/
def State.callJudge (s : State) (n : Nat) (o : CallObs) : State :=
  let w := o.rest.toNat
  let c := natBits w 31 24
  let t := natBits w 23 8
  if crc8 (beBytes 4 o.word.toNat ++ beBytes 3 (w / 256)) ≠ w % 256 then s.incMod WKR_FALSE_CNT.CRC_CNT
  else
    match (s.fld WKR_CLASS_MASK.CLASSES).testBit (c / 32), s.callTarget t with
    | true, some m => if s.callDup n c t o.tick then s else s.callAccept n c t m o.tick
    | _, _ => s.incMod WKR_FALSE_CNT.FOREIGN_CNT

/-- The receiver hears a call that ends at tick `tick`: it listens there, the 72 bits a call has at least (8 preamble bits,
word, class, target, CRC) fit after it last had to ignore its input (1,156 ticks at +2 % of 2 kbit/s, R196), and the call's
word ended (32 bits, 514 ticks, before) after the last judged call had (R198). -/
def State.callHeard (s : State) (tick : Nat) : Bool :=
  (s.wkrListens || (s.on WKR_CFG.EN && s.wkr.cal.isNone && s.joinsWake tick)) && !s.pins.paEn &&
    decide (s.wkr.blind + 1156 ≤ tick) && decide (s.wkr.judged = 0 ∨ s.wkr.judged + 514 ≤ tick)

/-- CALL_RECEIVED (R198): a call heard whole; its end is known within 2 ticks (R200). While a call is judged no other word is
looked for. -/
def execCallReceived (o : CallObs) (s : State) : Host.Outcome State Fault Refusal :=
  let s := s.touch
  if s.callHeard o.tick ∧ o.tick ≤ s.tick + 2 ∧ s.tick ≤ o.tick + 2 then
    match s.callWord o.word with
    | some n =>
      let s := { s with wkr := { s.wkr with judged := o.tick } }
      .next ((s.incMod WKR_FALSE_CNT.WORD_CNT).callJudge n o)
    | none => .next s
  else .next s

end Sys2Proof.Machine
end

