-- ==== Sys2Proof/Machine/Engine.lean ====
section
/-! DEFINITION. DMA channels, check engines, AES engines and the end of engine operations (R155, R218–R220, R294–R299). -/

namespace Sys2Proof.Machine

/-! DMA channels (R298). -/

/-- A DMA channel. -/
def State.dmaCh (s : State) (n : Nat) : Dma := Tab.get (fun _ => Dma.idle) s.dma n

/-- A DMA channel set. -/
def State.setDma (s : State) (n : Nat) (x : Dma) : State := { s with dma := Tab.set (fun _ => Dma.idle) s.dma n x }

/-- The status of a COPY whose channel ended with a cause. DEDUCED: parity and uncorrectable errors by Table 12-7, an address
as a command that cannot be done, a stop as an abort. -/
def dmaStatus (cause : Nat) : Nat :=
  if cause = 0 then Status.ok else if cause = 1 then Status.parity else if cause = 2 then Status.ecc
  else if cause = 3 then Status.badCommand else Status.aborted

/-- The channel ends: DONE with cause 0, else ERR with CAUSE (R298); a COPY that it serves keeps the status. -/
def State.dmaEnd (s : State) (n cause : Nat) : State :=
  let s := match (s.dmaCh n).op with
    | some id =>
      match s.eng id with
      | some o => s.setEng id { o with status := dmaStatus cause }
      | none => s
    | none => s
  let s := (s.setDma n .idle).leaveIdle
  if cause = 0 then s.raise (DMAn_STAT.DONE n) (DMAn_STAT.DONE_CNT n)
  else (s.raise (DMAn_STAT.ERR n) (DMAn_STAT.ERR_CNT n)).setFld (DMAn_STAT.CAUSE n) cause

/-- A channel started on its registers (R298); CTX is 63 for the host or a launcher. Ignored while BUSY. -/
def State.dmaStart (s : State) (n ctx : Nat) (op : Option Nat) : State :=
  if (s.dmaCh n).busy then s
  else
    let src := s.fld (DMAn_SRC.SRC n)
    let dst := s.fld (DMAn_DST.DST n)
    let len := s.fld (DMAn_LEN.LEN n)
    let fill := s.on (DMAn_CFG.FILL n)
    let s := (s.setFld (DMAn_CFG.CTX n) ctx).leaveIdle
    if (!fill && !spanOk src len) || !spanWritable dst len then s.dmaEnd n 3
    else s.setDma n ⟨true, src, dst, len, fill, op⟩

/-- `n` bytes from `a` cut at bank words: (address, length) pieces. -/
def pieces : Nat → Nat → Nat → List (Nat × Nat)
  | 0, _, _ => []
  | f + 1, a, n => if n = 0 then [] else
    let k := min n (8 - a % 8)
    (a, k) :: pieces f (a + k) (n - k)

/-- The pieces of a channel's destination. -/
def Dma.pieces (d : Dma) : List (Nat × Nat) := Machine.pieces (d.len / 8 + 2) d.dst d.len

/-- A bank write at `a` by a channel would be discarded (R77, R395). -/
def State.discards (s : State) (a : Nat) : Bool :=
  (decide (0x4D800 ≤ a) && decide (a < 0x4DC00)) || (bankOf a == some .erg && s.ergBusy)

/-- The `n` bytes that a copy puts at `a`, taken from `src` in ascending order: one that the same piece has already put there
is read back as put (R298). -/
def State.copyBytes (s : State) (a src n : Nat) : List Byte :=
  (List.range n).foldl (fun bs j =>
    bs ++ [if a ≤ src + j ∧ src + j < a + j ∧ !s.discards a then bs.getD (src + j - a) 0#8 else s.byte (src + j)]) []

/-- One piece moved: its bytes read (or filled) and written. Whether the read was usable. -/
def State.dmaPiece (s : State) (d : Dma) (p : Nat × Nat) (parity : ParityHit) : State × Bool :=
  if d.fill then (s.masterWrite p.1 (List.replicate p.2 (BitVec.ofNat 8 d.src)) parity, true)
  else
    let a := d.src + (p.1 - d.dst)
    let r := s.readSpan a p.2
    if r.2 then (r.1.masterWrite p.1 (r.1.copyBytes p.1 a p.2) parity, true) else (r.1, false)

/-- Pieces moved in ascending order until an uncorrectable word stops the channel with CAUSE 2. -/
def State.dmaMove (d : Dma) : List (Nat × Nat) → State → State × Nat
  | [], s => (s, 0)
  | p :: t, s =>
    let r := s.dmaPiece d p .none
    if r.2 then State.dmaMove d t r.1 else (r.1, 2)

/-- The access that a parity error meets, after which the channel stands still with CAUSE 1 (R298, R346); a fill reads
nothing. -/
def State.dmaHit (s : State) (d : Dma) (p : Nat × Nat) (parity : ParityHit) : State × Nat :=
  match parity with
  | .addr | .data => ((s.dmaPiece d p parity).1, 1)
  | _ => (s.readParity (d.src + (p.1 - d.dst)), 1)

/-- A transfer as far as it goes: to its end, to an uncorrectable word, or to a parity error. Which access meets the parity error
is a free value. -/
def State.dmaRun (s : State) (d : Dma) (parity : ParityHit) : State × Nat :=
  let l := d.pieces
  if parity == .addr || parity == .data || (parity == .read && !d.fill) then
    let j := Config.unmeasured s.free % l.length
    let r := State.dmaMove d (l.take j) s.draw
    match l[j]? with
    | some p => if r.2 ≠ 0 then r else r.1.dmaHit d p parity
    | none => State.dmaMove d l s
  else State.dmaMove d l s

/-- DMA_TRANSFER_END (R298). -/
def execDmaTransferEnd (n : Fin 16) (env : Env) (s : State) : Host.Outcome State Fault Refusal :=
  let d := s.dmaCh n.val
  if s.awake ∧ d.busy then
    let r := (s.touch.upset env).dmaRun d env.parity
    .next (r.1.dmaEnd n.val r.2)
  else .next s

/-- A channel stopped (R298): what had moved by then is a free value; an uncorrectable word met before has stopped it already. -/
def State.dmaStop (s : State) (n : Nat) : State :=
  let d := s.dmaCh n
  if d.busy then
    let l := d.pieces
    let r := State.dmaMove d (l.take (Config.unmeasured s.free % (l.length + 1))) s.draw
    r.1.dmaEnd n (if r.2 = 0 then 4 else r.2)
  else s

/-! The end of an engine operation (R287, R294). -/

/-- An operation with a context of its own reports: the status word in g_d, or the ENG signal; a context that waits for a
place to start a fifth operation is ready again. -/
def State.engReport (s : State) (o : EngOp) (w : Nat) : State :=
  match o.ctx with
  | none => s
  | some k =>
    if o.wait then s.finish k.val o.d w
    else
      let s := (s.setCx k.val { s.cx k.val with out := (s.cx k.val).out - 1 }).signalEng k.val o.tag w
      if (s.cx k.val).susp == .retry then s.wake k.val else s

/-- An operation ended with a status word. -/
def State.engEnd (s : State) (id : Nat) (o : EngOp) (w : Nat) : State := (s.dropEng id).engReport o w

/-- No earlier operation of the same context is outstanding (R294). -/
def State.engFirst (s : State) (id : Nat) (o : EngOp) : Bool :=
  o.ctx.isNone || s.engs.all (fun p => match p.2 with
    | some q => decide (id ≤ p.1) || q.ctx != o.ctx
    | none => true)

/-! Check engines (R218–R220). -/

/-- A check engine's running operation. -/
def State.chkEng (s : State) (e : Nat) : Chk := Tab.get (fun _ => Chk.mk none) s.chk e

/-- A check engine set. -/
def State.setChk (s : State) (e : Nat) (x : Chk) : State := { s with chk := Tab.set (fun _ => Chk.mk none) s.chk e x }

/-- Engine `e` is lent to the message layer (R218). -/
def State.lent (s : State) (e : Nat) : Bool := s.on (CHKn_CFG.MSG e)

/-- The operations that wait for engine `e`: CHK instructions that name it. -/
def State.chkQueue (s : State) (e : Nat) : List (Nat × EngOp) :=
  s.engs.filterMap (fun p => p.2.bind (fun o => match o.kind with
    | .chk x _ _ _ _ => if x = e ∧ !o.started then some (p.1, o) else none
    | _ => none))

/-- The oldest waiting CHK takes its idle engine: INIT loaded when asked for (R296). -/
def State.chkTake (s : State) (e : Nat) : State :=
  if (s.chkEng e).op.isSome then s
  else
    match pickBest (fun (a b : Nat × EngOp) => a.2.ticket.le b.2.ticket) (s.chkQueue e) with
    | none => s
    | some (id, o) =>
      let s := (s.setEng id { o with started := true }).setChk e ⟨some id⟩
      let s := match o.ctx with
        | some k => s.setFld (CHKn_STAT.CTX e) k.val
        | none => s
      match o.kind with
      | .chk _ _ _ true _ =>
        (s.setReg (CHKn_VALUE.off e) (s.reg (CHKn_INIT.off e))).setFld (CHKn_STAT.BYTES e) 0
      | _ => s

/-- VALUE of engine `e` after it has run over bytes (R219). -/
def State.chkRun (s : State) (e : Nat) (bs : List Byte) : Nat :=
  crcRun (s.fld (CHKn_CFG.WIDTH e) + 1) (s.fld (CHKn_POLY.POLY e) % 2 ^ (s.fld (CHKn_CFG.WIDTH e) + 1))
    (s.on (CHKn_CFG.REFIN e)) (s.fld (CHKn_VALUE.VALUE e) % 2 ^ (s.fld (CHKn_CFG.WIDTH e) + 1)) bs

/-- The final check of engine `e` (R219). -/
def State.chkFinal (s : State) (e : Nat) : Nat :=
  let v := s.fld (CHKn_VALUE.VALUE e)
  (if s.on (CHKn_CFG.REFOUT e) then reflect (s.fld (CHKn_CFG.WIDTH e) + 1) v else v) ^^^ s.fld (CHKn_XOROUT.XOROUT e)

/-- Bytes run on engine `e`: VALUE and BYTES. -/
def State.chkBytes (s : State) (e : Nat) (bs : List Byte) : State :=
  (s.setReg (CHKn_VALUE.off e) (BitVec.ofNat 32 (s.chkRun e bs))).setFld (CHKn_STAT.BYTES e)
    (s.fld (CHKn_STAT.BYTES e) + bs.length)

/-- The bytes an engine reads, and the status with which a marked word or a parity error ends it (Table 17-3, R219): OK,
ECC_UNCORRECTABLE or PARITY. -/
def State.engRead (s : State) (a n : Nat) (parity : ParityHit) : State × Nat :=
  if parity == .read then (s.readParity a, Status.parity)
  else
    let r := s.readSpan a n
    (r.1, if r.2 then Status.ok else Status.ecc)

/-- A parity error in check engine `e` itself (R219). -/
def State.chkParity (s : State) (e : Nat) : State :=
  (s.raise (CHKn_STAT.PERR e) (CHKn_STAT.PERR_CNT e)).parityErr 8 e

/-- A CHK operation ends (R296). What VALUE holds after a failure is a free value. -/
def State.chkDone (s : State) (id : Nat) (o : EngOp) (e a n : Nat) (final : Bool) (parity : ParityHit) : State :=
  let r := if parity == .ctx then (s.chkParity e, Status.parity) else s.engRead a n parity
  let s := r.1.setChk e ⟨none⟩
  if r.2 = Status.ok then
    let s := s.chkBytes e (s.bytes a n)
    match o.ctx, o.wait with
    | some k, true =>
      let s := (s.dropEng id).finish k.val 0 Status.ok
      let w := if final then s.chkFinal e else s.fld (CHKn_VALUE.VALUE e)
      s.setCx k.val { (s.cx k.val).wr o.d (BitVec.ofNat 32 w) with v := false }
    | _, _ => s.engEnd id o Status.ok
  else
    let s := s.draw.setReg (CHKn_VALUE.off e) (BitVec.ofNat 32 (Config.unmeasured s.free))
    let s := s.engEnd id o r.2
    match o.ctx, o.wait with
    | some k, true => s.setCx k.val { s.cx k.val with v := true }
    | _, _ => s

/-! AES engines (R155). -/

/-- LEN of the PHY header of a frame record (R145). -/
def State.recLen (s : State) (record : Nat) : Nat := natBits (s.num (record + 0x18) 2) 15 7

/-- The FCS length of a frame record's sync set. -/
def State.recFcs (s : State) (record : Nat) : Nat := s.fcsLen (natBits (s.num (record + 0x10) 2) 12 11)

/-- The bytes that OPEN processes: from frame control to the end of the MIC (R145). -/
def State.recFrameLen (s : State) (record : Nat) : Nat := s.recLen record - s.recFcs record

/-- An operation that has been started with what an opening finds in the frame it has staged. -/
def State.openWork (s : State) (o : EngOp) (f : List Byte) (len fcs pidx : Nat) : State × EngOp :=
  let q := if pidx < 4096 then s.readEntry pidx else (s, true)
  if !q.2 then (q.1, { o with started := true, status := Status.ecc })
  else
    let slot := fieldAt f (auxOff (frameCtl f) + 4) 1
    let r := q.1.openFrame f len fcs pidx
    (q.1, { o with
      started := true, status := r.status, reason := r.reason, out := r.out, staged := f
      key := if fcSec (frameCtl f) then some (slot, s.key slot) else none })

/-- An operation that has been started with what a seal has taken for frame `f`; the sealed frame as it stands now. -/
def State.sealWork (s : State) (o : EngOp) (f : List Byte) (pidx key : Nat) : State × EngOp :=
  let r := s.sealTake f pidx key
  (r.1, { o with
    started := true, status := r.2.1.status, reason := r.2.1.reason, staged := f
    out := match r.2.2 with
      | some k => s.sealBytes f k
      | none => []
    key := r.2.2.map (fun k => (k.slot, k.key))
    ctr := match r.2.2 with
      | some k => k.ctr
      | none => 0 })

/-- What starting an operation on an AES engine computes: sealing consumes its frame counter here (R153); a beacon is built as
its sealing starts (R166, R175). -/
def State.aesWork (s : State) (o : EngOp) : State × EngOp :=
  match o.kind with
  | .seal buf len pidx key _ =>
    let q := s.engRead buf len .none
    if q.2 ≠ Status.ok then (q.1, { o with started := true, status := q.2 })
    else q.1.sealWork o (q.1.bytes buf len) pidx key
  | .txSeal op =>
    match s.op op with
    | some x =>
      let r := if x.kind == .beacon && x.frame.isEmpty then s.beaconFill op x else (s, x)
      if x.kind == .beacon && r.1.tooLong r.2.freq r.2.width r.2.air then
        (r.1, { o with started := true, status := Status.badCommand })
      else r.1.sealWork o (r.1.txBytes r.2) r.2.pidx r.2.key
    | none => (s, { o with started := true })
  | .opn record _ pidx =>
    let q := s.engRead (record + 32) (s.recFrameLen record) .none
    if q.2 ≠ Status.ok then (q.1, { o with started := true, status := q.2 })
    else
      let r := q.1.openWork o (q.1.bytes (record + 32) (q.1.recFrameLen record)) (q.1.recLen record) (q.1.recFcs record) pidx
      (r.1, { r.2 with heard := wordStamp (s.num record 8) })
  | .beacon len fcs t _ _ _ =>
    let r := s.openWork o o.staged len fcs (s.fld MAC_ROLE.UPIDX)
    (r.1, { r.2 with heard := t })
  | _ => (s, o)

/-- AES_OPERATION_START (R155): the oldest waiting seal or open takes granted, idle engine `e`. -/
def execAesOperationStart (e : Fin 4) (s : State) : Host.Outcome State Fault Refusal :=
  if s.awake ∧ e.val < s.fld SEC_CTRL.ENGINES ∧ s.holds (.aes e.val) ∧ (s.aesEng e.val).busy.isNone then
    match pickBest (fun (a b : Nat × EngOp) => a.2.ticket.le b.2.ticket) s.aesQueue with
    | none => .next s
    | some (id, o) =>
      let s := match o.ctx with
        | some k => if (s.cx k.val).susp == Susp.engine id then s.park k.val .engine (.engine id) else s
        | none => s
      let r := s.touch.aesWork o
      .next ((r.1.setEng id r.2).setAes e.val { r.1.aesEng e.val with busy := some id })
  else .next s

/-- The AES engine that works on operation `id` falls idle. -/
def State.aesDone (s : State) (id : Nat) : State :=
  (List.range 4).foldl (fun s e =>
    if (s.aesEng e).busy = some id then s.setAes e ⟨none, s.stamp⟩ else s) s

/-- SEC_HOLD_EXPIRY (R155): HOLD ms after engine `e`'s last operation its claim is released; an engine that ENGINES no longer
counts does not wait for the queue. -/
def execSecHoldExpiry (e : Fin 4) (s : State) : Host.Outcome State Fault Refusal :=
  let t := (s.aesEng e.val).last + msFine (s.fld SEC_CTRL.HOLD)
  if s.awake ∧ s.holds (.aes e.val) ∧ (s.aesEng e.val).busy.isNone ∧
      (s.aesQueue.isEmpty ∨ s.fld SEC_CTRL.ENGINES ≤ e.val) ∧ s.reach t then
    .next ((s.moveTo t).withdraw (.aes e.val))
  else .next s

/-- The status with which an operation on an AES engine ends, a parity error of its last access counted in: PARITY, on the
bank or on the key it fetched, whose slot turns bad unless it has been loaded anew (R151, Table 17-3, Table 21-3). -/
def State.aesParity (s : State) (o : EngOp) (a : Nat) (parity : ParityHit) : State × EngOp :=
  match parity, bankOf a, o.key with
  | .read, some b, _ => (s.parityErr b.code a, { o with status := Status.parity, reason := 0, out := [] })
  | .ctx, _, some (slot, k) =>
    (if s.key slot = k ∧ k.st = 1 then s.keyBad slot else s, { o with status := Status.parity, reason := 0, out := [] })
  | _, _, _ => (s, o)

/-- A SEAL ends (R296): the sealed frame written, its length reported. -/
def State.sealDone (s : State) (id : Nat) (o : EngOp) (buf dst : Nat) (parity : ParityHit) : State :=
  let q := s.aesParity o buf parity
  let s := (q.1.aesDone id).secCount q.2.status q.2.reason
  if q.2.status = Status.ok then (s.masterWrite dst q.2.out .none).engEnd id o (q.2.out.length * 2 ^ 16)
  else s.engEnd id o q.2.status

/-- The sealing of a transmission ends: its frame is the sealed one, of the buffer as it stands now (R115), or the transmission
ends with the failure. -/
def State.txSealDone (s : State) (id : Nat) (o : EngOp) (op : Nat) (parity : ParityHit) : State :=
  match s.op op with
  | none => (s.aesDone id).dropEng id
  | some x =>
    let q := s.aesParity o (if x.kind == .txf then x.buf else 0xFFFFFF) parity
    let s := ((q.1.aesDone id).secCount q.2.status q.2.reason).dropEng id
    if q.2.status = Status.ok then
      match o.key with
      | some (slot, k) => s.setOp op { x with sealed := true, frame := s.sealBytes (s.txBytes x) ⟨slot, k, o.ctr⟩ }
      | none => s
    else s.txEnd op q.2.status 0

/-- The partner entry whose replay state an operation's end checks. -/
def State.opensFor (s : State) (o : EngOp) : Option Nat :=
  match o.kind with
  | .opn _ _ p => some p
  | .beacon _ _ _ _ _ _ => some (s.fld MAC_ROLE.UPIDX)
  | _ => none

/-- An opening of the same entry that is under way was heard earlier: it passes the replay access first (R158). DESIGN CHOICE:
openings on the engines at the same time wait for the access together; the record's stamp tells which was heard first (log
entry 179). -/
def State.openBehind (s : State) (id : Nat) (o : EngOp) : Bool :=
  match s.opensFor o with
  | some p => decide (p < 4096) && s.engs.any (fun e => match e.2 with
    | some q => e.1 != id && q.started && s.opensFor q == some p &&
        (decide (q.heard < o.heard) || (q.heard == o.heard && decide (e.1 < id)))
    | none => false)
  | none => false

/-- Steps 6 and 7 of R156 for an opening that has come this far, in one access (R158): its status and reason. -/
def State.openAccess (s : State) (o : EngOp) (pidx : Nat) : State × Nat × Nat :=
  let why := if o.status = Status.ok ∧ pidx ≠ 0xFFFF then s.replayReason o.staged pidx else 0
  let st := if why = 0 then o.status else Status.replay
  let re := if why = 0 then o.reason else why
  let s := s.secCount st re
  (if st = Status.ok ∧ pidx ≠ 0xFFFF then s.replayTake o.staged pidx else s, st, re)

/-- An OPEN ends (R156, R158, R296): the replay check and its state, the plaintext written, the outcome reported. -/
def State.openDone (s : State) (id : Nat) (o : EngOp) (record dst pidx : Nat) (parity : ParityHit) : State :=
  let q := s.aesParity o record parity
  let r := (q.1.aesDone id).openAccess q.2 pidx
  if r.2.1 = Status.ok then
    ((r.1.macOpened pidx q.2.heard).masterWrite dst q.2.out .none).engEnd id o
      (q.2.out.length % 512 * 2 ^ 16 + b2n (pidx == 0xFFFF) * 2 ^ 31)
  else r.1.engEnd id o (r.2.2 * 2 ^ 8 + r.2.1)

/-- The opening of a beacon ends: an accepted one is taken (R180). -/
def State.beaconOpened (s : State) (id : Nat) (o : EngOp) (t rate freq : Nat) (parity : ParityHit) : State :=
  let q := s.aesParity o 0xFFFFFF parity
  let r := ((q.1.aesDone id).dropEng id).openAccess q.2 (s.fld MAC_ROLE.UPIDX)
  if r.2.1 = Status.ok then r.1.beaconTake q.2.out t rate freq else r.1

/-! Ending with ABORTED. -/

/-- An engine operation that its command's end aborts (R255, R283). -/
def State.engAbort (s : State) (id : Nat) (o : EngOp) : State :=
  let s := match o.kind with
    | .copy ch => if (s.dmaCh ch).op = some id then s.dmaStop ch else s
    | .chk e _ _ _ _ => if (s.chkEng e).op = some id then s.setChk e ⟨none⟩ else s
    | .absorb _ _ _ _ _ | .frag _ _ _ _ _ _ _ | .report _ =>
      (List.range 8).foldl (fun s e => if (s.chkEng e).op = some id then s.setChk e ⟨none⟩ else s) s
    | _ => s.aesDone id
  s.dropEng id

end Sys2Proof.Machine
end

