-- ==== Sys2Proof/Machine/Message.lean ====
section
/-! DEFINITION. The message layer: fragments, reassembly, transactions, the check engines lent to it, and the end of every
engine operation (R206–R225, R294). -/

namespace Sys2Proof.Machine

/-! Spans (R211). -/

/-- Bytes of the assembly area that a record's message takes. -/
def spanLen (len fsz : Nat) : Nat := ceilDiv (if fsz = 0 then len else len + 4) 64 * 64

/-- Offsets of the spans of the records that are not free; that of an empty whole message has no bytes. -/
def State.spans (s : State) : List Nat :=
  ((List.range 256).filter (fun r => s.recFld r 3 1 ≠ 0)).map (fun r => s.recFld r 8 4 - s.num (msgCb 0) 4)

/-- ATAIL: the span start of the oldest-allocated record that is not free, or AHEAD (R211). Spans are allocated upward from
AHEAD and around, so the oldest lies lowest above AHEAD, else lowest; one at AHEAD itself is the newest, an empty one. -/
def State.setTail (s : State) : State :=
  let h := s.num (msgCb 0x08) 4
  let l := s.spans
  let low (l : List Nat) : Option Nat := pickBest (fun a b => decide (a < b)) l
  s.storeNum (msgCb 0x0C) 4 ((low (l.filter (fun o => h < o)) <|> low l).getD h)

/-- The offset at which a span of `n` bytes is taken; none when it does not fit (R211). -/
def State.spanAt (s : State) (n : Nat) : Option Nat :=
  let h := s.num (msgCb 0x08) 4
  let t := s.num (msgCb 0x0C) 4
  let size := s.num (msgCb 4) 4
  let skip := decide (size < h + n)
  if s.spans.isEmpty then (if n ≤ size then some (if skip then 0 else h) else none)
  else if t ≤ h then (if !skip then some h else if n < t then some 0 else none)
  else if !skip ∧ h + n < t then some h else none

/-! Ends and notices (R216, R222–R225). -/

/-- A completed response ends its transaction, or is an orphan (R223). -/
def State.msgResponse (s : State) (r pidx tid : Nat) : State :=
  match s.txnOf 1 pidx tid with
  | some x => ((s.setTxn x 6 2 r).setRec r 0x1A 2 x).txnEnd x Status.ok
  | none => s.setRec r 0x18 1 (s.recFld r 0x18 1 ||| 0x10)

/-- A completed request is marked as a duplicate, or held (R224). -/
def State.msgRequest (s : State) (r pidx tid : Nat) : State :=
  match s.txnOf 2 pidx tid with
  | some _ => (s.setRec r 0x18 1 (s.recFld r 0x18 1 ||| 4)).msgCount Msg.dupReq
  | none =>
    match s.anyFree (fun x => s.txnFld x 3 1 == 0) with
    | none => s
    | some x =>
      s.draw.store (msgTxn x) (leBytes 2 pidx ++ leBytes 1 tid ++ leBytes 1 2 ++ leBytes 2 0xFF00 ++ leBytes 2 0xFFFF ++
        leBytes 8 (stampWord (s.stamp + s.num (msgCb 0x14) 4 * 6000)) ++ leBytes 8 0 ++ leBytes 8 (stampWord s.stamp))

/-- A record complete (R213, R223, R224). -/
def State.recDone (s : State) (r : Nat) : State :=
  let pidx := s.recFld r 0 2
  let tid := s.recFld r 2 1
  let fl := s.recFld r 0x18 1
  let s := if fl.testBit 1 then s.msgResponse r pidx tid else s
  let s := if fl.testBit 0 then s.msgRequest r pidx tid else s
  s.deliverRec r 2 Status.ok

/-! Fragments (Tables 10-1, 10-5). -/

/-- A fragment as its header gives it: KIND, TID, REQ and RSP, L, FSZ, index and data. -/
structure MsgFrag where
  kind : Nat
  tid  : Nat
  rr   : Nat
  len  : Nat
  fsz  : Nat
  k    : Nat
  data : List Byte
deriving DecidableEq, Repr

/-- The number of fragments of a message (R207). -/
def fragCount (len fsz : Nat) : Nat := ceilDiv (len + 4) (16 * fsz)

/-- Step 1 of Table 10-5: the payload's fragment, when its header is well formed. -/
def msgParse (bs : List Byte) : Option MsgFrag :=
  let m := fieldAt bs 0 1
  let kind := natBits m 7 6
  let hdr := if kind = 0 then 2 else if kind = 1 then 5 else 3
  let l := fieldAt bs 2 2 % 2 ^ 14 + 1
  let fsz := fieldAt bs 4 1
  if kind = 3 ∨ m % 16 ≠ 0 ∨ bs.length < hdr then none
  else if kind = 1 ∧ (fsz < 4 ∨ 31 < fsz ∨ 256 < fragCount l fsz) then none
  else some ⟨kind, fieldAt bs 1 1, b2n (m.testBit 5) + 2 * b2n (m.testBit 4), if kind = 0 then bs.length - 2 else l,
    if kind = 1 then fsz else 0, if kind = 2 then fieldAt bs 2 1 else 0, bs.drop hdr⟩

/-- The data length that fragment `k` of a message must have (step 5). -/
def fragLen (len fsz nlast k : Nat) : Nat :=
  if fsz = 0 then len else if k = nlast then len + 4 - nlast * (16 * fsz) else 16 * fsz

/-- MAP bit `k` of record `r`. -/
def State.mapBit (s : State) (r k : Nat) : Bool := (s.recFld r (0x20 + k / 8) 1).testBit (k % 8)

/-- What absorbing a fragment came to: its status, its record, and whether a CRC run is due (step 8). -/
structure Absorbed where
  status : Nat
  record : Option Nat
  run    : Bool
deriving DecidableEq, Repr

/-- A refused fragment: its status, its counter. -/
def State.refuse (s : State) (status cnt : Nat) : State × Absorbed := (s.msgCount cnt, ⟨status, none, false⟩)

/-- Step 7 of Table 10-5, and the end of a whole message. -/
def State.msgHold (s : State) (r : Nat) (f : MsgFrag) : State × Absorbed :=
  let fsz := s.recFld r 6 1
  let s := s.store (s.recFld r 8 4 + f.k * (16 * fsz)) f.data
  let o := 0x20 + f.k / 8
  let s := (s.setRec r o 1 (s.recFld r o 1 ||| 2 ^ (f.k % 8))).setRec r 0x12 2 (s.recFld r 0x12 2 + 1)
  let s := s.setRec r 0x14 4 (s.tick + s.num (msgCb 0x10) 4)
  if fsz = 0 then (s.recDone r, ⟨Status.ok, some r, false⟩)
  else (s, ⟨Status.ok, some r, s.mapBit r (s.recFld r 0x10 2)⟩)

/-- Steps 5 to 7 on an assembling record. -/
def State.addTo (s : State) (r : Nat) (f : MsgFrag) (sec : Bool) : State × Absorbed :=
  let nlast := s.recFld r 7 1
  if nlast < f.k ∨ f.data.length ≠ fragLen (s.recFld r 4 2) (s.recFld r 6 1) nlast f.k ∨
      (s.recFld r 0x18 1).testBit 3 ≠ sec then s.refuse Status.headerFail Msg.badFrag
  else if s.mapBit r f.k then
    let q := s.refuse Status.replay Msg.dupFrag
    (q.1, { q.2 with record := some r })
  else s.msgHold r f

/-- Steps 3 to 7 for a whole message or a first fragment that opens a new record; a record that it supersedes ends with
ABORTED. The fragment is judged whole before any record changes. -/
def State.openRec (s : State) (old : Option Nat) (f : MsgFrag) (pidx : Nat) (sec : Bool) : State × Absorbed :=
  let n := spanLen f.len f.fsz
  let nlast := if f.fsz = 0 then 0 else fragCount f.len f.fsz - 1
  if f.kind = 1 ∧ !(List.range 8).any s.lent then s.refuse Status.badCommand Msg.noSpace
  else
    match s.anyFree (fun r => s.recFld r 3 1 == 0), s.spanAt n with
    | some r, some o =>
      if f.data.length ≠ fragLen f.len f.fsz nlast 0 then s.refuse Status.headerFail Msg.badFrag
      else
        let s := s.draw
        let s := match old with
          | some q => s.recFail q Status.aborted
          | none => s
        let s := s.store (msgRec r) (leBytes 2 pidx ++ leBytes 1 f.tid ++ leBytes 1 1 ++ leBytes 2 f.len ++
          leBytes 1 f.fsz ++ leBytes 1 nlast ++ leBytes 4 (s.num (msgCb 0) 4 + o) ++ leBytes 4 0xFFFFFFFF ++
          leBytes 8 0 ++ leBytes 1 (f.rr + 8 * b2n sec) ++ leBytes 1 0 ++ leBytes 2 0xFFFF ++ leBytes 36 0)
        ((s.storeNum (msgCb 0x08) 4 (o + n)).setTail).msgHold r f
    | _, _ => s.refuse Status.queueFull Msg.noSpace

/-- Steps 2 to 7 of Table 10-5. -/
def State.absorbFrag (s : State) (f : MsgFrag) (pidx level : Nat) : State × Absorbed :=
  let old := s.recOf 1 pidx f.tid
  if (f.kind ≠ 0 ∨ pidx ≠ 0xFFFF) ∧ !s.partnerValid pidx then s.refuse Status.headerFail Msg.badFrag
  else if f.kind = 2 then
    match old with
    | none => s.refuse Status.headerFail Msg.orphan
    | some r => s.addTo r f (level != 0)
  else
    match old with
    | some r =>
      if f.kind = 1 ∧ s.recFld r 4 2 = f.len ∧ s.recFld r 6 1 = f.fsz then s.addTo r f (level != 0)
      else s.openRec old f pidx (level != 0)
    | none => s.openRec none f pidx (level != 0)

/-- Table 10-5 up to step 7, the payload read first (Table 17-3). -/
def State.absorbAt (s : State) (addr len pidx level : Nat) (parity : ParityHit) : State × Absorbed :=
  let q := s.engRead addr len parity
  if q.2 ≠ Status.ok then (q.1, ⟨q.2, none, false⟩)
  else
    match msgParse (q.1.bytes addr len) with
    | none => q.1.refuse Status.headerFail Msg.badFrag
    | some f => q.1.absorbFrag f pidx level

/-- The status word of an absorption (Table 14-6). -/
def Absorbed.word (x : Absorbed) : Nat := x.status + x.record.getD 0 * 2 ^ 16

/-- An operation of a parked context queued (R294). -/
def State.parkEng (s : State) (k : Fin 64) (d : Nat) (kind : EngKind) (t : Ticket) : State :=
  let c := s.cx k.val
  (s.addEng (.new kind (some k) d true 0 c.prio t)).park k.val .engine (.engine s.engNext)

/-- The absorptions of a partner that have not ended: those that wait, and the CRC runs. -/
def State.absorbsOf (s : State) (pidx : Nat) : List (Nat × EngOp) :=
  s.engs.filterMap (fun p => p.2.bind (fun o => match o.kind with
    | .absorb _ _ q _ _ => if q = pidx then some (p.1, o) else none
    | _ => none))

/-- Of two absorptions of one partner, `a` is passed before one with ticket `t`. -/
def EngOp.passes (a : EngOp) (t : Ticket) : Bool := a.ticket.le t && a.ticket != t

/-- An absorption of a partner's fragment at `addr` with ticket `t` waits: for Run or Idle (R217); for the locked record, or an
older absorption that waits for it (R215); a whole message, which completes at once, for every older absorption of the partner
(R216). -/
def State.absorbWaits (s : State) (addr pidx : Nat) (t : Ticket) : Bool :=
  let tid (a : Nat) : Nat := s.num (a + 1) 1
  !s.msgRuns || s.recLocked pidx (tid addr) || (s.absorbsOf pidx).any (fun p => p.2.passes t &&
    (s.num addr 1 / 64 == 0 || match p.2.kind with
      | .absorb a _ _ _ none => tid a == tid addr
      | _ => false))

/-- A fragment absorbed for operation `o`, number `id`: it goes on with the CRC run, or has only to end. -/
def State.absorbPass (s : State) (id : Nat) (o : EngOp) (parity : ParityHit) : State :=
  match o.kind with
  | .absorb a n q l _ =>
    let r := s.absorbAt a n q l parity
    r.1.setEng id { o with kind := if r.2.run then .absorb a n q l r.2.record else .report r.2.word }
  | _ => s

/-- The waiting absorptions of a partner passed in ticket order as long as one need not wait (R215, R216). -/
def State.absorbNext (pidx : Nat) : Nat → State → State
  | 0, s => s
  | f + 1, s =>
    let ready := (s.absorbsOf pidx).filter (fun p => match p.2.kind with
      | .absorb a _ q _ none => !s.absorbWaits a q p.2.ticket
      | _ => false)
    match pickBest (fun (a b : Nat × EngOp) => a.2.ticket.le b.2.ticket) ready with
    | none => s
    | some (id, o) => State.absorbNext pidx f (s.absorbPass id o .none)

/-- What an absorption of a partner held up goes on. -/
def State.absorbFree (s : State) (pidx : Nat) : State := State.absorbNext pidx (s.engs.length + 1) s

/-- ABSORB by context `k` (R213–R215): it parks, and its fragment is absorbed at once unless it must wait. -/
def State.absorbIssue (s : State) (k : Fin 64) (d addr len pidx level : Nat) (t : Ticket) (parity : ParityHit) : State :=
  let id := s.engNext
  let wait := s.absorbWaits addr pidx t
  let s := s.parkEng k d (.absorb addr len pidx level none) t
  match wait, s.eng id with
  | false, some o => s.absorbPass id o parity
  | _, _ => s

/-- An engine operation that its command's end aborts; what an absorption held up goes on. -/
def State.engCancel (s : State) (id : Nat) (o : EngOp) : State :=
  let s := s.engAbort id o
  match o.kind with
  | .absorb _ _ q _ _ => s.absorbFree q
  | _ => s

/-! FRAG (R206–R208). -/

/-- The header of fragment `k` (Table 10-1). -/
def fragHeader (len fsz tid rr k : Nat) : List Byte :=
  leBytes 1 ((if k = 0 then 0x40 else 0x80) + rr % 2 * 32 + rr / 2 % 2 * 16) ++ leBytes 1 tid ++
    if k = 0 then leBytes 2 (len - 1) ++ leBytes 1 fsz else leBytes 1 k

/-- The payload of fragment `k` over the whole message (R207). -/
def fragPayload (msg : List Byte) (fsz tid rr k : Nat) : List Byte :=
  fragHeader msg.length fsz tid rr k ++ ((msg ++ leBytes 4 (crc32 msg)).drop (k * (16 * fsz))).take (16 * fsz)

/-- R208's conditions for FRAG. -/
def State.fragOk (s : State) (len fsz k : Nat) : Bool :=
  decide (1 ≤ len ∧ len ≤ 16384 ∧ 4 ≤ fsz ∧ fsz ≤ 31 ∧ fragCount len fsz ≤ 256 ∧ k < fragCount len fsz) &&
    (List.range 8).any s.lent

/-- The bytes of fragment `k` of a message in memory: read, built and written. -/
def State.fragBuild (s : State) (msg len fsz tid rr k dst : Nat) (parity : ParityHit) : State × Nat :=
  let last := k + 1 = fragCount len fsz
  let a := if last then msg else msg + k * (16 * fsz)
  let q := s.engRead a (if last then len else min (16 * fsz) (len - k * (16 * fsz))) parity
  if q.2 ≠ Status.ok then (q.1, q.2)
  else
    let p := fragPayload (q.1.bytes msg len) fsz tid rr k
    (q.1.masterWrite dst p .none, p.length * 2 ^ 16)

/-- FRAG by context `k` (R208, R295): it parks; a refused one has only to end. -/
def State.fragIssue (s : State) (k : Fin 64) (d msg len fsz tid rr i dst : Nat) : State :=
  s.parkEng k d (if s.fragOk len fsz i then .frag msg len fsz tid rr i dst else .report Status.badCommand) (s.cx k.val).ticket

/-! RELEASE and TOPEN (R216, R222). -/

/-- Record `r` released; whether it was complete or failed. -/
def State.msgRelease (s : State) (r : Nat) : State × Bool :=
  if r < 256 ∧ (s.recFld r 3 1 = 2 ∨ s.recFld r 3 1 = 3) then ((s.setRec r 3 1 0).setTail, true) else (s, false)

/-- A transaction opened (R222): the status word. -/
def State.txnOpen (s : State) (pidx tid tries tout ctx : Nat) : State × Nat :=
  if (s.txnOf 1 pidx tid).isSome then (s, Status.badCommand)
  else
    match s.anyFree (fun x => s.txnFld x 3 1 == 0) with
    | none => (s, Status.queueFull)
    | some x =>
      (s.draw.store (msgTxn x) (leBytes 2 pidx ++ leBytes 1 tid ++ leBytes 1 1 ++ leBytes 1 tries ++ leBytes 1 ctx ++
        leBytes 2 0xFFFF ++ leBytes 8 (stampWord (s.stamp + tout * 6000)) ++ leBytes 4 tout ++ leBytes 4 0 ++
        leBytes 8 (stampWord s.stamp)), x * 2 ^ 16)

/-- The waiting transactions of a context whose handle is aborted (R222). -/
def State.txnAbort (s : State) (k : Nat) : State :=
  (List.range 256).foldl (fun s x =>
    if s.txnFld x 3 1 = 1 ∧ s.txnFld x 5 1 = k then (s.setTxn x 3 1 3).setTxn x 0x14 1 Status.aborted else s) s

/-! MESSAGE_LAYER_ENABLE and RECORD_EXAMINATION. -/

/-- MESSAGE_LAYER_ENABLE (R210): CTRL written with EN = 1 by a host port or a context. -/
def execMessageLayerEnable (_m : Master) (s : State) : Host.Outcome State Fault Refusal :=
  if s.awake then
    let s := s.touch
    .next (s.masterWrite (msgCb 0x18) [s.byte (msgCb 0x18) ||| 1#8] .none)
  else .next s

/-- RECORD_EXAMINATION (R217): every record in ascending number, every 32 ticks. DESIGN CHOICE: at the multiples of 32 from
tick 0 on, of which R217 gives the period alone (log entry 103). -/
def execRecordExamination (s : State) (env : Env := .clean) : Host.Outcome State Fault Refusal :=
  match s.multipleNow 5 with
  | none => .next s
  | some k =>
    if s.msgRuns ∧ s.msgOn ∧ s.pwr.primed then .next (((s.moveTo (6000 * k)).upset env).examineAll env.parity) else .next s

/-! CRC runs on lent engines (R214, R218). -/

/-- The operations that wait for a lent engine: CRC runs, and the last fragments, which carry the CRC-32 (R208). -/
def State.crcQueue (s : State) : List (Nat × EngOp) :=
  s.engs.filterMap (fun p => p.2.bind (fun o => match o.kind, o.started with
    | .absorb _ _ _ _ (some _), false => some (p.1, o)
    | .frag _ len fsz _ _ k _, false => if k + 1 = fragCount len fsz then some (p.1, o) else none
    | _, _ => none))

/-- A lent engine programmed with the CRC-32 parameters of R148 and a running value; CTX reads 63. -/
def State.crcLoad (s : State) (e run : Nat) : State :=
  let s := (s.setReg (CHKn_CFG.off e) 0x8000031F#32).setReg (CHKn_POLY.off e) 0x04C11DB7#32
  let s := (s.setReg (CHKn_INIT.off e) 0xFFFFFFFF#32).setReg (CHKn_XOROUT.off e) 0xFFFFFFFF#32
  ((s.setReg (CHKn_VALUE.off e) (BitVec.ofNat 32 run)).setFld (CHKn_STAT.CTX e) 63).setFld (CHKn_STAT.BYTES e) 0

/-- CHECK_ENGINE_START (R218): the oldest waiting run takes idle, lent engine `e`. -/
def execCheckEngineStart (e : Fin 8) (s : State) : Host.Outcome State Fault Refusal :=
  if s.msgRuns ∧ s.lent e.val ∧ (s.chkEng e.val).op.isNone then
    match pickBest (fun (a b : Nat × EngOp) => a.2.ticket.le b.2.ticket) s.crcQueue with
    | none => .next s
    | some (id, o) =>
      let run := match o.kind with
        | .absorb _ _ _ _ (some r) => s.recFld r 0x0C 4
        | _ => 0xFFFFFFFF
      let s := (s.touch.setEng id { o with started := true }).setChk e.val ⟨some id⟩
      .next (s.crcLoad e.val run).leaveIdle
  else .next s

/-- The first fragment from `k` on that record `r` does not hold, at most `nlast + 1`. -/
def State.gapFrom (s : State) (r nlast : Nat) : Nat → Nat → Nat
  | 0, k => k
  | f + 1, k => if k ≤ nlast ∧ s.mapBit r k then State.gapFrom s r nlast f (k + 1) else k

/-- A CRC run of record `r` ends on engine `e` (steps 8 and 9 of Table 10-5): the status of the absorption. -/
def State.crcRunEnd (s : State) (e r : Nat) (parity : ParityHit) : State × Nat :=
  let len := s.recFld r 4 2
  let f := 16 * s.recFld r 6 1
  let nlast := s.recFld r 7 1
  let buf := s.recFld r 8 4
  let k := s.recFld r 0x10 2
  let k' := s.gapFrom r nlast 257 k
  let last := k' = nlast + 1
  let a := min len (k * f)
  let n := min len (k' * f) - a
  let q := if parity == .ctx then (s.chkParity e, Status.parity)
    else s.engRead (buf + a) (if last then len + 4 - a else n) parity
  if q.2 ≠ Status.ok then (q.1.recFail r q.2, q.2)
  else
    let s := q.1.chkBytes e (q.1.bytes (buf + a) n)
    let s := (s.setRec r 0x0C 4 (s.fld (CHKn_VALUE.VALUE e))).setRec r 0x10 2 k'
    if last then
      if s.chkFinal e = s.num (buf + len) 4 then (s.recDone r, Status.ok)
      else ((s.msgCount Msg.chkFail).recFail r Status.fcsFail, Status.fcsFail)
    else (s, Status.ok)

/-- A run of the same partner that is under way is older: it ends first (R216). -/
def State.absorbBehind (s : State) (pidx : Nat) (t : Ticket) : Bool :=
  (s.absorbsOf pidx).any (fun p => p.2.started && p.2.passes t)

/-- An absorption's run ends: the status word, and what it held up goes on. -/
def State.absorbDone (s : State) (id : Nat) (o : EngOp) (e r pidx : Nat) (parity : ParityHit) : State :=
  let q := s.crcRunEnd e r parity
  ((q.1.setChk e ⟨none⟩).engEnd id o (q.2 + r * 2 ^ 16)).absorbFree pidx

/-- The building of a fragment ends (R208), the last one on engine `e`. -/
def State.fragDone (s : State) (id : Nat) (o : EngOp) (e : Option Nat) (msg len fsz tid rr k dst : Nat) (parity : ParityHit) :
    State :=
  match e, parity with
  | some e, .ctx => (((s.chkParity e).setChk e ⟨none⟩).engEnd id o Status.parity)
  | some e, _ =>
    let q := s.fragBuild msg len fsz tid rr k dst parity
    let s := if q.2 % 256 = Status.ok then q.1.chkBytes e (q.1.bytes msg len) else q.1
    (s.setChk e ⟨none⟩).engEnd id o q.2
  | none, _ =>
    let q := s.fragBuild msg len fsz tid rr k dst parity
    q.1.engEnd id o q.2

/-! ENGINE_OPERATION_END (R294). -/

/-- The check engine that runs operation `id`. -/
def State.chkOf (s : State) (id : Nat) : Option Nat := (List.range 8).find? (fun e => (s.chkEng e).op == some id)

/-- The end of operation `id`, when it has run. An opening waits for those of its entry that were heard earlier (R158), an
absorption's run for those of its partner that are older (R216). -/
def State.engDone (s : State) (id : Nat) (o : EngOp) (parity : ParityHit) : State :=
  match o.kind with
  | .copy ch => if (s.dmaCh ch).op = some id then s else s.engEnd id o o.status
  | .chk e a n _ final => if o.started then (s.chkDone id o e a n final parity).chkTake e else s
  | .seal buf _ _ _ dst => if o.started then s.sealDone id o buf dst parity else s
  | .txSeal op => if o.started then s.txSealDone id o op parity else s
  | .opn record dst pidx => if o.started && !s.openBehind id o then s.openDone id o record dst pidx parity else s
  | .beacon _ _ t rate freq _ => if o.started && !s.openBehind id o then s.beaconOpened id o t rate freq parity else s
  | .absorb _ _ q _ (some r) =>
    match s.chkOf id with
    | some e => if s.absorbBehind q o.ticket then s else s.absorbDone id o e r q parity
    | none => s
  | .absorb _ _ q _ none => s.absorbFree q
  | .frag msg len fsz tid rr k dst =>
    if k + 1 = fragCount len fsz ∧ s.chkOf id = none then s
    else s.fragDone id o (s.chkOf id) msg len fsz tid rr k dst parity
  | .report w => s.engEnd id o w

/-- ENGINE_OPERATION_END (R294): an operation that has run ends, none of its context's earlier ones being outstanding. -/
def execEngineOperationEnd (id : Nat) (env : Env) (s : State) : Host.Outcome State Fault Refusal :=
  match s.eng id with
  | some o => if s.awake ∧ s.engFirst id o then .next ((s.touch.upset env).engDone id o env.parity) else .next s
  | none => .next s

end Sys2Proof.Machine
end

