-- ==== Sys2Proof/Machine/Context.lean ====
section
/-! DEFINITION. How a command starts on a context and ends: dispatch, completion, abort and trap (R250, R255, R265–R269,
R272, R282, R283), posted stores becoming visible (R279), and promotion (R271). -/

namespace Sys2Proof.Machine

/-- Trap causes of Table 13-9. -/
def Trap.opcode : Nat := 1
def Trap.encoding : Nat := 2
def Trap.fetch : Nat := 3
def Trap.addr : Nat := 4
def Trap.align : Nat := 5
def Trap.ptb : Nat := 6
def Trap.result : Nat := 7
def Trap.status : Nat := 8
def Trap.sem : Nat := 9
def Trap.operand : Nat := 0xA
def Trap.parity : Nat := 0xB
def Trap.ecc : Nat := 0xC

/-- The status of a trap (Table 13-9). -/
def trapStatus (cause : Nat) : Nat :=
  if cause = Trap.parity then Status.parity else if cause = Trap.ecc then Status.ecc else Status.trap

/-! Posted stores (R279). -/

/-- One store becomes visible: split accesses counted, its bytes written, a message-layer enable or a pin word acted on. -/
def State.storeOut (s : State) (x : PStore) : State :=
  (s.split x.addr x.bytes.length).masterWrite x.addr x.bytes x.parity

/-- The stores at the head of a context's queue that lie in the bank word of the first and meet no parity error. -/
def storeRun : List PStore → List PStore
  | [] => []
  | x :: t => (x :: t).takeWhile (fun y =>
      y.addr / 8 == x.addr / 8 && (y.addr + y.bytes.length - 1) / 8 == x.addr / 8 && y.parity == .none)

/-- The byte that a run of stores leaves at `a`, if any of them covers it. -/
def runByte (l : List PStore) (a : Nat) : Option Byte :=
  l.foldl (fun b y => if y.addr ≤ a ∧ a < y.addr + y.bytes.length then y.bytes[a - y.addr]? else b) none

/-- Several stores that together cover the bank word of the first as one full write of it (R343). -/
def storeMerged (l : List PStore) : Option PStore :=
  let a := 8 * ((l.map (·.addr)).headD 0 / 8)
  let bs := (List.range 8).filterMap (fun i => runByte l (a + i))
  if 2 ≤ l.length ∧ bs.length = 8 then some ⟨a, bs, .none⟩ else none

/-- The oldest posted store of a context becomes visible, or with it the others that cover its bank word, as one full write when
they are granted together (R343); whether they are is a free value (log entry 197). -/
def State.storeNext (s : State) (k : Nat) : State :=
  match (s.cx k).posted with
  | [] => s
  | x :: t =>
    let l := storeRun (x :: t)
    match storeMerged l with
    | some y =>
      if Config.unmeasured s.free % 2 = 1 then
        (s.draw.setCx k { s.cx k with posted := (x :: t).drop l.length }).storeOut y
      else (s.draw.setCx k { s.cx k with posted := t }).storeOut x
    | none => (s.setCx k { s.cx k with posted := t }).storeOut x

/-- A store posted; the ninth waits until the oldest is visible. -/
def State.postStore (s : State) (k : Nat) (x : PStore) : State :=
  let s := if (s.cx k).posted.length < 8 then s else s.storeNext k
  s.setCx k { s.cx k with posted := (s.cx k).posted ++ [x] }

/-- A store to bytes of a reassembly record under a locked access: it waits until that access ends (R215, R278). -/
def State.storeLocked (s : State) (x : PStore) : Bool :=
  s.engs.any (fun p => match p.2 with
    | some o => match o.kind with
      | .absorb _ _ _ _ (some r) => decide (x.addr < msgRec r + 64 ∧ msgRec r < x.addr + x.bytes.length)
      | _ => false
    | none => false)

/-- The context's stores cannot all become visible yet. -/
def State.storesHeld (s : State) (k : Nat) : Bool := (s.cx k).posted.any s.storeLocked

/-- The context's oldest posted store cannot become visible yet. -/
def State.storeHeld (s : State) (k : Nat) : Bool :=
  match (s.cx k).posted with
  | [] => false
  | x :: _ => s.storeLocked x

/-- The posted stores of a context become visible in program order, up to one that a locked access still holds. -/
def State.drain (s : State) (k : Nat) : State :=
  (s.cx k).posted.foldl (fun s _ => if s.storeHeld k then s else s.storeNext k) s

/-! What a command's end takes with it. -/

/-- A radio operation ends with ABORTED (R32, R64, R125, R291). A tune in progress runs on; one whose claims still wait
withdraws them. -/
def State.opAbort (s : State) (id : Nat) (o : RadioOp) : State :=
  match o.kind with
  | .tune =>
    let s := s.opEnd id Status.aborted 0
    if o.phase == .claim then
      let y := o.syn
      let shared := s.opIds.any (fun i => match s.op i with
        | some q => q.phase == .claim && q.syn == y
        | none => false)
      if shared then s
      else (s.powerNeeds y).foldl (fun s z =>
        { s with well := { s.well with queue := s.well.queue.filter (fun c => c.who != synHolder z.1) } }) s
    else s
  | .gack => s.gackStop
  | .rxwin => ({ s with wins := Tab.drop o.seq s.wins } : State).opEnd id Status.aborted 0
  | .lbt => s.opEnd id Status.aborted 0
  | _ => s.txCut id Status.aborted

/-! Cascade ports (R239, R384). -/

/-- What a cascade port runs and has queued; the running one is first. -/
def State.casc (s : State) (p : Nat) : List Casc := if p = 2 then s.casc2 else if p = 3 then s.casc3 else []

/-- A cascade port's list set. -/
def State.setCasc (s : State) (p : Nat) (l : List Casc) : State :=
  if p = 2 then { s with casc2 := l } else if p = 3 then { s with casc3 := l } else s

/-- The ticket of a frame run or forward. -/
def Casc.ticket : Casc → Ticket
  | .run _ _ _ _ t => t
  | .fwd _ _ _ _ _ t => t

/-- A forward ends: the context takes its status word (R384). -/
def State.fwdEnd (s : State) (k : Fin 64) (d w : Nat) : State :=
  if (s.cx k.val).susp = .cas d then s.finish k.val d w else s

/-- What waits on a port that is no longer a cascade initiator ends: forwards with BAD_COMMAND, frame runs as timed out. -/
def State.cascDrop (s : State) (p : Nat) : State :=
  (s.casc p).foldl (fun s c => match c with
    | .fwd k d _ _ _ _ => s.fwdEnd k d Status.badCommand
    | .run _ _ _ _ _ => (s.setFld CAS_STAT.NGOT 0).raise CAS_STAT.TMO CAS_STAT.TMO_CNT) (s.setCasc p [])

/-- The select balls of a cascade port driven as its mode and its running frame ask (R239). -/
def State.selectPins (s : State) (p : Nat) : State :=
  if s.awake then (List.range 4).foldl (fun s j => s.applyPin (8 + 4 * (p - 2) + j)) s else s

/-- EN of a cascade port takes effect when no frame of the port runs (R239). -/
def State.cascJudge (s : State) (p : Nat) : State :=
  let en := decide (2 ≤ p) && s.on (HPn_CASC_CFG.EN p)
  if (s.port p).casc == en then s else (s.setPort p { s.port p with casc := en }).selectPins p

/-- The running frame of a port has ended: EN judged, and the oldest waiting one runs. -/
def State.cascNext (s : State) (p : Nat) : State :=
  let l := (s.casc p).tail
  let s := (s.setCasc p l).cascJudge p
  if !(s.port p).casc then s.cascDrop p
  else
    match pickBest (fun (a b : Casc) => a.ticket.le b.ticket) l with
    | some c => (s.setCasc p (c :: l.erase c)).selectPins p
    | none => s.selectPins p

/-- A frame run or forward added to a port. -/
def State.cascAdd (s : State) (p : Nat) (c : Casc) : State := (s.setCasc p (s.casc p ++ [c])).selectPins p

/-- The forwards of context `k` taken from a cascade port; when one of them ran, the port goes on with the next. -/
def State.cascAbort (s : State) (k : Fin 64) (p : Nat) : State :=
  let mine (c : Casc) : Bool := match c with
    | .fwd j _ _ _ _ _ => j == k
    | .run _ _ _ _ _ => false
  match s.casc p with
  | [] => s
  | c :: l =>
    let s := s.setCasc p (c :: l.filter (fun c => !mine c))
    if mine c then s.cascNext p else s

/-- The operations that a context started end with ABORTED (R255, R222, R283): radio and engine operations, transactions,
the launcher of a TAT, its cascade frames. -/
def State.workAbort (s : State) (k : Fin 64) : State :=
  let s := s.opIds.foldl (fun s i => match s.op i with
    | some o => if o.ctx = some k ∧ (s.cx k.val).susp = .radio i then s.opAbort i o else s
    | none => s) s
  let s := (s.engs.map (·.1)).foldl (fun s i => match s.eng i with
    | some o => if o.ctx = some k then s.engCancel i o else s
    | none => s) s
  let s := (List.range 32).foldl (fun s n =>
    if (s.launcher n).armed ∧ (s.launcher n).action = 2 ∧ (s.launcher n).owner = some k then s.lnOff n else s) s
  ((s.cascAbort k 2).cascAbort k 3).txnAbort k.val

/-- A context's Well claims and semaphores given up (R255, R282). -/
def State.letGo (s : State) (k : Fin 64) : State :=
  let s := s.withdraw (.budg k)
  (List.range 16).foldl (fun s n =>
    let m := s.sem n
    let s := if m.wait.contains k then s.setSem n { m with wait := m.wait.erase k } else s
    if m.owner = some k.val then s.freeSem n else s) s

/-- Engine operations that outlive their command report to nobody. -/
def State.orphan (s : State) (k : Fin 64) : State :=
  let f (_ : Nat) (o : Option EngOp) : Option EngOp :=
    o.map (fun x => if x.ctx = some k then { x with ctx := none } else x)
  { s with engs := Tab.mapVals (fun _ => none) f s.engs }

/-- The context becomes free and its command completes (R252). Only the RING signal outlives it, and stores that a locked access
still holds (R278). -/
def State.ctxEnd (s : State) (k : Fin 64) (status : Nat) (data : List Byte) : State :=
  let c := s.cx k.val
  let s := s.setCx k.val { Ctx.empty with ring := c.ring, posted := c.posted }
  match c.port with
  | some p => s.complete p.val c.slot status data
  | none => s

/-- HALT or FAIL ends a command (R282): stores visible, semaphores freed, claims withdrawn. -/
def State.cmdEnd (s : State) (k : Fin 64) (status : Nat) (data : List Byte) : State :=
  (((s.drain k.val).letGo k).orphan k).ctxEnd k status data

/-- A running command aborted (Table 12-4). -/
def State.cmdAbort (s : State) (k : Fin 64) : State :=
  (((s.drain k.val).workAbort k).letGo k).ctxEnd k Status.aborted []

/-- A trap taken (R283): TRAP, CTX and CAUSE recorded; the command ends with the trap's status and 8 bytes. On the house
context it goes to the fault record. -/
def State.trapNow (s : State) (k : Fin 64) (cause : Nat) : State :=
  let p := (s.cx k.val).p
  let s := ((s.drain k.val).workAbort k).letGo k
  let s := ((s.raise SEQ_TRAP_INFO.TRAP SEQ_TRAP_INFO.TRAP_CNT).setFld SEQ_TRAP_INFO.CTX k.val).setFld SEQ_TRAP_INFO.CAUSE cause
  let s := if k.val = 63 then s.fault ⟨0x20, Status.trap, cause, 4 * p.toNat⟩ else s
  s.ctxEnd k (trapStatus cause) (leBytes 4 (cause + k.val * 2 ^ 8) ++ leBytes 4 (4 * p.toNat))

/-- A trap: it waits, parked on memory, until the earlier stores of the context are visible (R279). -/
def State.trap (s : State) (k : Fin 64) (cause : Nat) : State :=
  if s.storesHeld k.val then s.park k.val .memory (.trap cause) else s.trapNow k cause

/-- A context parked on memory goes on: its instruction is issued again, or its trap is taken once nothing holds its stores. -/
def State.memoryGo (s : State) (k : Fin 64) : State :=
  match (s.cx k.val).st, (s.cx k.val).susp with
  | .parked .memory, .retry => s.wake k.val
  | .parked .memory, .trap cause => if s.storesHeld k.val then s else s.trapNow k cause
  | _, _ => s

/-- POSTED_STORE_COMPLETE (R279). -/
def execPostedStoreComplete (k : Fin 64) (env : Env) (s : State) : Host.Outcome State Fault Refusal :=
  if s.awake ∧ (s.cx k.val).posted ≠ [] ∧ !s.storeHeld k.val then .next (((s.touch.upset env).storeNext k.val).memoryGo k)
  else .next s

/-! Dispatch (R250, R266, R267, R272). -/

/-- A word address from which instructions are fetched (R273). -/
def fetchable (p : Nat) : Bool :=
  (decide (0x400 ≤ p) && decide (p ≤ 0xFFFF)) || (decide (0x10000 ≤ p) && decide (p ≤ 0x13FFF)) ||
    (decide (0x3C0000 ≤ p) && decide (p ≤ 0x3C07FF))

/-- The commands queued, by slot key (256 × port + slot). -/
def State.queued (s : State) : List (Nat × Slot) := s.slots.filter (fun x => x.2.st == .queued)

/-- A command may start as far as ORDER goes: no earlier command of its port is queued or running (R250). -/
def State.eligible (s : State) (key : Nat) (x : Slot) : Bool :=
  !x.order || s.slots.all (fun y =>
    y.1 / 256 != key / 256 || y.1 == key || y.2.st == .free || y.2.st == .done || x.ticket.le y.2.ticket)

/-- Contexts of a core that are free, house context apart. -/
def State.freeOn (s : State) (core : Nat) : List Nat :=
  ((List.range 16).map (fun j => 16 * core + j)).filter (fun k => k < 63 && (s.cx k).st == .free)

/-- Free contexts among 0–62. -/
def State.freeCtx (s : State) : Nat := ((List.range 63).filter (fun k => (s.cx k).st == .free)).length

/-- MASKp of SEQ_DISPATCH_CFG. -/
def maskFld (p : Nat) : Fld :=
  if p = 0 then SEQ_DISPATCH_CFG.MASK0 else if p = 1 then SEQ_DISPATCH_CFG.MASK1
  else if p = 2 then SEQ_DISPATCH_CFG.MASK2 else SEQ_DISPATCH_CFG.MASK3

/-- Contexts in use on a core. -/
def State.usedOn (s : State) (core : Nat) : Nat :=
  ((List.range 16).filter (fun j => (s.cx (16 * core + j)).st != .free)).length

/-- The context on which a command of priority `p` is placed (R266). -/
def State.place1 (s : State) (p : Nat) : Option (Fin 64) :=
  if p ≠ 0 ∧ s.freeCtx ≤ s.fld SEQ_DISPATCH_CFG.RESERVE then none
  else
    let cores := (List.range 4).filter (fun c => (s.fld (maskFld p)).testBit c && !(s.freeOn c).isEmpty)
    match pickBest (fun a b => decide (s.usedOn a < s.usedOn b)) cores with
    | none => none
    | some c => (s.freeOn c).head?.bind (fun k => if h : k < 64 then some ⟨k, h⟩ else none)

/-- Rank of queued commands (R250). -/
def Slot.before (x y : Slot) : Bool :=
  if x.promoted != y.promoted then x.promoted
  else if !x.promoted && x.prio ≠ y.prio then decide (x.prio < y.prio)
  else x.ticket.le y.ticket

/-- The sketch-table entry read as a command starts: the start address, and the cause with which the first instruction
traps when the entry is invalid (R272) or unusable (Table 17-3). -/
def State.entryRead (s : State) (n : Nat) : State × Nat × Nat :=
  let a := if n < s.fld SEQ_SKETCH_BASE.RETN then 0x40000 + 4 * n else 4 * n
  let r := s.readSpan a 4
  let e := r.1.num a 4
  if !r.2 then (r.1, 0, Trap.ecc)
  else if e / 2 ^ 22 ≠ 0 ∨ !fetchable (e % 2 ^ 22) then (r.1, e % 2 ^ 22, Trap.fetch)
  else (r.1, e, 0)

/-- Argument words as g1 upward. -/
def argTab (args : List Word) : Tab Word :=
  (List.range args.length).foldl (fun t i => Tab.set (fun _ => 0#32) t (i + 1) (args.getD i 0#32)) []

/-- A command started on a context (R267, R272). Where the primer ROM's service sketches lie is a free value. -/
def State.ctxStart (s : State) (key : Nat) (x : Slot) (k : Fin 64) : State :=
  let svc := if 0xFF00 ≤ x.sketch then some (x.sketch - 0xFF00) else none
  let r := if svc.isSome then (s.draw, 0x3C0000 + Config.unmeasured s.free % 0x800, 0) else s.entryRead x.sketch
  let s := r.1
  let c : Ctx := { Ctx.empty with
    st := .ready, g := argTab x.args, p := BitVec.ofNat 22 r.2.1
    t := Tab.set (fun _ => 0#64) [] 0 (BitVec.ofNat 64 (stampWord x.ticket.stamp))
    h := BitVec.ofNat 16 (handleOf (key / 256) x.gen (key % 256))
    port := some ⟨key / 256 % 4, Nat.mod_lt _ (by decide)⟩, slot := key % 256, prio := x.prio, ticket := x.ticket
    badEntry := r.2.2, svc := svc, ring := (s.cx k.val).ring, posted := (s.cx k.val).posted, since := s.stamp }
  (({ s with slots := Tab.set (fun _ => Slot.fresh) s.slots key { x with st := .running k } } : State).setCx k.val c).leaveIdle

/-- DISPATCH (R250, R266): the highest-ranked eligible command that a free context may take starts; none while HOLD = 1 or
before the primer start-up has ended (Table 18-6 step 6). -/
def execDispatch (s : State) : Host.Outcome State Fault Refusal :=
  if s.serves ∧ s.pwr.primed ∧ !s.on SEQ_CTRL.HOLD then
    match pickBest (fun (a b : Nat × Slot) => a.2.before b.2)
        (s.queued.filter (fun x => s.eligible x.1 x.2 && (s.place1 x.2.prio).isSome)) with
    | none => .next s
    | some (key, x) =>
      match s.place1 x.prio with
      | some k => .next (s.touch.ctxStart key x k)
      | none => .next s
  else .next s

/-- COMMAND_PROMOTED (R250, R271): a queued command has waited longer than SEQ_AGE_LIMIT. -/
def execCommandPromoted (p : Fin 4) (slot : Fin 256) (s : State) : Host.Outcome State Fault Refusal :=
  let x := s.slot p.val slot.val
  let l := s.fld SEQ_AGE_LIMIT.LIMIT
  let t := x.ticket.stamp + l * 6000 + 1
  if s.awake ∧ x.st = .queued ∧ !x.promoted ∧ l ≠ 0 ∧ s.reach t then
    .next ((s.moveTo t).setSlot p.val slot.val { x with promoted := true })
  else .next s

/-- LOST_RECORD (R258 step 4): room for two records has come. -/
def execLostRecord (p : Fin 4) (s : State) : Host.Outcome State Fault Refusal :=
  if s.awake then .next (s.touch.lostRecord p.val) else .next s

end Sys2Proof.Machine
end

