-- ==== Sys2Proof/Machine/Integrity.lean ====
section
/-! DEFINITION. Background integrity: write-back of corrected words, the Brush and its spares, promoted requests (R271, R335,
R341, R347, R352–R357). -/

namespace Sys2Proof.Machine

/-- SCRUB_WRITE_BACK (R347): a corrected word is written back to bank word `w`, unless it has been written or locked since. -/
def execScrubWriteBack (w : Nat) (s : State) : Host.Outcome State Fault Refusal :=
  if s.awake ∧ s.scrub.contains w then .next (s.touch.setMark w .good) else .next s

/-! The Brush. -/

/-- A bank is walked (MEM_WALK_CFG.BANKS). -/
def State.walks (s : State) (b : Bank) : Bool := (s.fld MEM_WALK_CFG.BANKS).testBit b.code

/-- The last region of a bank. -/
def lastRegion (b : Bank) : Nat := region0 b + b.size / 64 - 1

/-- The first region at or after `r`, in ascending index with wrap, that lies in a walked bank (R352). -/
def State.regionFrom (s : State) (r : Nat) : Option Nat :=
  if s.walks (regionBank r) then some r
  else
    match Bank.all.find? (fun b => s.walks b && decide (r < region0 b)) with
    | some b => some (region0 b)
    | none => (Bank.all.find? s.walks).map region0

/-- Region `r` is the last one of the last walked bank. -/
def State.lastWalked (s : State) (r : Nat) : Bool :=
  match Bank.all.reverse.find? s.walks with
  | some b => r == lastRegion b
  | none => false

/-- Step 1 of Table 17-4: the region's words read, corrected and counted; write-backs cancelled. -/
def State.brushRead (s : State) (r : Nat) : State :=
  let w0 := regionAddr r / 8
  (List.range 8).foldl (fun s i =>
    let s := (s.readWord (w0 + i) 1).1
    if s.mark (w0 + i) == .single then s.setMark (w0 + i) .good
    else { s with scrub := s.scrub.filter (· != w0 + i) }) s

/-- BRUSH_REGION_START (R352, R357): the next region falls due INTERVAL µs after the last one did. -/
def execBrushRegionStart (s : State) : Host.Outcome State Fault Refusal :=
  let t := s.brush.at_ + usFine (s.fld MEM_WALK_CFG.INTERVAL)
  if s.msgRuns ∧ s.on MEM_WALK_CFG.EN ∧ s.brush.busy = none ∧ !(s.pwr.req ≠ 0 ∧ s.quiet) ∧ s.reach t then
    match s.regionFrom (s.fld MEM_WALK_POS.REGION) with
    | none => .next s
    | some r =>
      let s := s.moveTo t
      let s := (s.brushRead r).leaveIdle
      let s := s.setFld MEM_WALK_POS.REGION (if s.lastWalked r then ((Bank.all.find? s.walks).map region0).getD 0
        else (r + 1) % 107520)
      .next { s with brush := { s.brush with busy := some r, at_ := s.stamp } }
  else .next s

/-- The spare that takes over a failing region: the lowest-numbered that is neither in use nor bad and passes its test, and
the ones found bad before it (R355). -/
def State.spareFor (s : State) (b : Bank) (bad : List Nat) : Option Nat × List Nat :=
  let l := (List.range 8).filter (fun k =>
    !s.brush.used.contains (8 * b.code + k) && !s.brush.bad.contains (8 * b.code + k))
  let k := l.find? (fun k => !bad.contains k)
  (k, (match k with
    | some k => l.filter (fun j => decide (j < k))
    | none => l).map (8 * b.code + ·))

/-- A failing region repaired, or restored in place (R355, R356). -/
def State.brushFail (s : State) (r : Nat) (bad : List Nat) : State :=
  let b := regionBank r
  let q := if s.on MEM_WALK_CFG.SPARE_EN then s.spareFor b bad else (none, [])
  let s := { s with brush := { s.brush with bad := s.brush.bad ++ q.2 } }
  match q.1 with
  | none => (s.raise MEM_WALK_STAT.NOSPARE MEM_WALK_STAT.NOSPARE_CNT).fault ⟨0x15, Status.ecc, b.code, r⟩
  | some k =>
    let old := Tab.get (fun _ => 0) s.brush.map r
    let n := 8 * b.code + k
    let s := { s with brush := { s.brush with
      used := s.brush.used.filter (fun x => x + 1 != old) ++ [n]
      bad := if old = 0 then s.brush.bad else s.brush.bad ++ [old - 1]
      map := Tab.set (fun _ => 0) s.brush.map r (n + 1) } }
    (s.raise MEM_WALK_STAT.REPAIR MEM_WALK_STAT.REPAIR_CNT).fault ⟨0x14, 0, b.code, r + k * 2 ^ 24⟩

/-- Step 6 of Table 17-4: the region's words are written back in full with fresh check bits, marked ones poisoned, so their
content does not change. DEDUCED: an armed INJ acts on the first of them (log entry 193). -/
def State.brushRestore (s : State) (r : Nat) : State :=
  (List.range 8).foldl (fun s i =>
    let w := regionAddr r / 8 + i
    if s.mark w == .bad then s else s.markFull w) { s with brush := { s.brush with busy := none } }

/-- REGION_TEST_END (R353, R355, R356): the region is restored and unlocked. -/
def execRegionTestEnd (o : RegionObs) (s : State) : Host.Outcome State Fault Refusal :=
  match s.brush.busy with
  | none => .next s
  | some r =>
    if s.awake then
      let s := s.touch
      let s := if o.fails then s.brushFail r o.badSpares else s
      let s := if s.lastWalked r then s.incMod MEM_WALK_STAT.PASSES else s
      .next (s.brushRestore r)
    else .next s

/-! Promotion. -/

/-- A port's wait noted: MAXWAIT and its bank, and the promotion when it exceeds the limit (R341). -/
def State.portWait (s : State) (b : Bank) (waited : Nat) : State :=
  let s := if s.fld MEM_ARB_STAT.MAXWAIT < waited then
      (s.setFld MEM_ARB_STAT.MAXWAIT (min waited 65535)).setFld MEM_ARB_STAT.BANK b.code
    else s
  let l := s.fld MEM_ARB_CFG.AGE_LIMIT
  if l ≠ 0 ∧ l < waited then s.raise MEM_ARB_STAT.PROMO MEM_ARB_STAT.PROMO_CNT else s

/-- The claim at place `i` of the Well's queue marked as promoted. -/
def promoteAt : Nat → List Claim → List Claim
  | _, [] => []
  | 0, c :: t => { c with promoted := true } :: t
  | i + 1, c :: t => c :: promoteAt i t

/-- REQUEST_PROMOTED (R271): a request has waited at its arbiter longer than its limit. -/
def execRequestPromoted (r : ReqId) (s : State) : Host.Outcome State Fault Refusal :=
  if !s.awake then .next s
  else
    match r with
    | .issue k =>
      let l := s.fld SEQ_AGE_LIMIT.LIMIT
      let t := (s.cx k.val).since + l * 6000 + 1
      if (s.cx k.val).st = .ready ∧ l ≠ 0 ∧ s.reach t then
        .next ((s.moveTo t).setCx k.val { s.cx k.val with promoted := true })
      else .next s
    | .well i =>
      match s.well.queue[i]? with
      | none => .next s
      | some c =>
        let l := s.fld WELL_BUDGET.AGE_LIMIT
        let t := c.since + l * 6000 + 1
        if !c.promoted ∧ l ≠ 0 ∧ s.reach t then
          let s := s.moveTo t
          .next { s with well := { s.well with queue := promoteAt i s.well.queue } }
        else .next s
    | .port b waited => .next (s.touch.portWait b waited)

end Sys2Proof.Machine
end

