-- ==== Sys2Proof/Machine/Cascade.lean ====
section
/-! DEFINITION. The CVN line and the cascade ports: driving and following the line code, forwarding commands and running frames
toward workers (R239–R241, R377–R386). -/

namespace Sys2Proof.Machine

/-! The root (R379, R380). -/

/-- The unit drives the line: the root, with EN = 1, in Run and Idle. -/
def State.lineDrives (s : State) : Bool := s.msgRuns && s.rootSends

/-- CAS_ROLE or CVN_LINE_CFG written: a line code that a soft reset has left going is ruled by them again. -/
def State.lineEnd (s : State) : State := { s with line := { s.line with goesOn := false } }

/-- The stamp of the next line edge: the next multiple of 32 ticks at which none has been sent. -/
def State.nextLine (s : State) : Nat :=
  let t := ceilDiv s.stamp 192000 * 192000
  if s.pins.cvn = t / 6000 then t + 192000 else t

/-- SYNC_PULSE (R379): at a multiple of 32 ticks that is not one of 1024. -/
def execSyncPulse (s : State) : Host.Outcome State Fault Refusal :=
  let t := s.nextLine
  if s.lineDrives ∧ t / 6000 % 1024 ≠ 0 ∧ s.reach t then
    let s := s.moveTo t
    .next { s with pins := { s.pins with cvn := t / 6000 } }
  else .next s

/-- The time code of a marker at stamp `t` (R380). -/
def State.timeCode (s : State) (t : Nat) : Nat :=
  let w := t / 6000 % 2 ^ 48 * 2 ^ 8 + b2n s.time.absent * 2 + b2n s.qual
  w * 2 ^ 8 + crc8 (beBytes 7 w)

/-- CODE_MARKER (R379, R380): at a multiple of 1024 ticks; the time code follows the marker. -/
def execCodeMarker (s : State) : Host.Outcome State Fault Refusal :=
  let t := s.nextLine
  if s.lineDrives ∧ t / 6000 % 1024 = 0 ∧ s.reach t then
    let s := s.moveTo t
    .next { s with pins := { s.pins with cvn := t / 6000, code := s.timeCode t } }
  else .next s

/-- What the device drives onto CVN: the root the line code, low in idle (R379); in Sleep its last level with CVN_KEEP, else
nothing (Table 16-6). -/
def State.cvnDrive (s : State) : Option Bool :=
  if s.pwr.st == .sleep then (if s.on PWR_ISO_CFG.CVN_KEEP then s.pins.cvnKept else none)
  else if s.awake && s.fld CAS_ROLE.ROLE == 1 then some (s.lineDrives && s.cvnLevel)
  else none

/-! The worker (R381, R382). -/

/-- DELAY in fine units, rounded to the nearest (0.5 ns = 1536 ÷ 15625 fine units). -/
def State.lineDelay (s : State) : Int := roundDiv (s.fld CVN_DELAY.DELAY * 1536) 15625

/-- The worker goes to Acquiring. -/
def State.lineAcquire (s : State) : State :=
  { s.setFld CVN_LINE_STAT.STATE 1 with line := { s.line with miss := 0, good := 0, bad := 0, timed := false } }

/-- The rate trim takes `d` more, within its range (R381, Table 2-3). -/
def State.trimAdd (s : State) (d : Int) : State :=
  s.setFld CVN_RATE_TRIM.TRIM
    (twos 32 (clampInt (-500000) 500000 (signed 32 (s.fld CVN_RATE_TRIM.TRIM) + d)))

/-- An edge in Acquiring: Locked when the next two after the time was set are within LOCKWIN. -/
def State.edgeAcquiring (s : State) (e : Int) : State :=
  if !s.line.timed then s
  else if e.natAbs ≤ s.fld CVN_LINE_CFG.LOCKWIN then
    if s.line.good = 1 then
      { s.setFld CVN_LINE_STAT.STATE 2 with line := { s.line with good := 0, miss := 0, bad := 0 } }
    else { s with line := { s.line with good := s.line.good + 1 } }
  else { s with line := { s.line with good := 0, timed := false } }

/-- An edge in Locked: e slewed out over 32 ticks and e ÷ 8 added to the trim; back to Acquiring beyond 1000 fine units, or
when the fourth edge in a row lies outside LOCKWIN. -/
def State.edgeLocked (s : State) (e : Int) : State :=
  let miss := if e.natAbs ≤ s.fld CVN_LINE_CFG.LOCKWIN then 0 else s.line.miss + 1
  if 1000 < e.natAbs ∨ miss = 4 then s.lineAcquire
  else
    ({ s with
      line := { s.line with miss := miss }
      time := { s.time with slew := e, slewLeft := 32 } } : State).trimAdd (roundDiv e 8)

/-- LINE_EDGE (R381): a sync or marker edge arrives at a worker; the line error is taken. -/
def execLineEdge (o : LineObs) (s : State) : Host.Outcome State Fault Refusal :=
  if s.awake ∧ s.lineOwns ∧ s.stamp ≤ o.arrive ∧ s.reach o.arrive then
    let s := s.moveTo o.arrive
    let e : Int := (o.arrive : Int) - (((6000 * o.tick : Nat) : Int) + s.lineDelay)
    let s : State := { s.setFld CVN_LINE_STAT.ERR (twos 10 (clampInt (-511) 511 e)) with
      line := { s.line with last := o.arrive, marker := if o.marker then some o.arrive else s.line.marker, err := e } }
    .next (if s.lineSt = 1 then s.edgeAcquiring e else if s.lineSt = 2 then s.edgeLocked e else s)
  else .next s

/-- The launchers whose stamps a forward step has passed are late (R382). -/
def State.launchersPassed (s : State) (t0 t1 : Nat) : State :=
  (List.range 32).foldl (fun s n =>
    let x := s.launcher n
    if x.armed ∧ t0 < x.stamp ∧ x.stamp < t1 then s.setLauncher n { x with late := true } else s) s

/-- The time set so that a marker that came at local stamp `m` stands at stamp `t` (R382): a step forward, or a standstill. -/
def State.timeSet (s : State) (m : Nat) (t : Int) : State :=
  let d := t - (m : Int)
  if 0 ≤ d then
    let n := d.toNat
    let t0 := s.time.now
    ({ s with time := { s.time with now := s.time.now + n, edge := s.time.edge + n, slew := 0, slewLeft := 0 } } :
      State).launchersPassed t0 (t0 + n)
  else { s with time := { s.time with hold := (-d).toNat, slew := 0, slewLeft := 0 } }

/-- CODEERR set and counted. -/
def State.codeErr (s : State) : State := s.raise CVN_LINE_STAT.CODEERR CVN_LINE_STAT.CODE_CNT

/-- The root's quality bits of an accepted code. -/
def State.codeTake (s : State) (w : Nat) : State :=
  (s.setFld CVN_LINE_STAT.RQUAL (natBits w 8 8)).setFld CVN_LINE_STAT.RSUB (natBits w 9 9)

/-- A code that passes its CRC after the marker that came at `m`. -/
def State.codeGood (s : State) (w m : Nat) : State :=
  let tick : Nat := w / 2 ^ 16
  if s.lineSt = 1 then
    let s : State := { s.codeTake w with line := { s.line with timed := true, good := 0 } }
    s.timeSet m (((6000 * tick : Nat) : Int) + s.lineDelay)
  else if s.lineSt = 2 then
    if ((m : Int) - s.lineDelay + 3000) / 6000 = (tick : Int) then
      { s.codeTake w with line := { s.line with bad := 0 } }
    else
      let s := s.codeErr
      if s.line.bad = 1 then s.lineAcquire else { s with line := { s.line with bad := s.line.bad + 1 } }
  else (s.codeTake w).lineAcquire

/-- TIME_CODE (R381): the 64 cells after a marker, whole 660 µs after its edge. -/
def execTimeCode (code : BitVec 64) (s : State) : Host.Outcome State Fault Refusal :=
  match s.line.marker with
  | none => .next s
  | some m =>
    let t := m + usFine 660
    if s.awake ∧ s.lineOwns ∧ s.reach t then
      let s := s.moveTo t
      let s := { s with line := { s.line with marker := none } }
      let w := code.toNat
      .next (if crc8 (beBytes 7 (w / 2 ^ 8)) = w % 2 ^ 8 then s.codeGood w m else s.codeErr)
    else .next s

/-- HOLDOVER (R381): no edge within LOSS × 32 ticks of the last. -/
def execHoldover (s : State) : Host.Outcome State Fault Refusal :=
  let t := s.line.last + s.fld CVN_LINE_CFG.LOSS * 192000
  if s.awake ∧ s.lineOwns ∧ (s.lineSt = 1 ∨ s.lineSt = 2) ∧ s.reach t then
    let s := (s.moveTo t).setFld CVN_LINE_STAT.STATE 3
    .next ((s.raise CVN_LINE_STAT.HOLD CVN_LINE_STAT.HOLD_CNT).fault ⟨0x22, 0, 0, twos 32 s.line.err⟩)
  else .next s

/-! Cascade ports (R239, R378). -/

/-- The cascade port that serves a worker (R378). -/
def workerPort (w : Nat) : Nat := if w ≤ 3 then 2 else 3

/-- A worker that the manager may use (R378). -/
def State.workerOk (s : State) (w : Nat) : Bool :=
  let p := workerPort w
  (s.fld CAS_WORKERS.PRESENT).testBit w && (s.port p).casc && (s.fld (HPn_CASC_CFG.SEL_EN p)).testBit (w % 4)

/-- What the device drives onto HPn_CLK: in cascade mode low while no frame runs, in Sleep too (Table 16-6); the edges of a frame
are not modelled (log entry 18). In target mode the ball is an input. -/
def State.clkDrive (s : State) (p : Nat) : Option Bool :=
  if (s.port p).casc && (s.awake || s.pwr.st == .sleep) && (s.casc p).isEmpty then some false else none

/-- The SUBMIT frame of a forward: header with CK = 1, the block, the check word (R229, R231, R384). -/
def submitFrame (words : List Word) : List Word :=
  let l := 0x58000000#32 :: words
  l ++ [BitVec.ofNat 32 (crc16 (l.flatMap (fun w => leBytes 4 w.toNat)))]

/-- The READ frame of a forward: the HPn_LAST_SUBMIT of the worker's port `p` (R229, R384). -/
def readLastSubmit (p : Nat) : List Word := [BitVec.ofNat 32 (0x20000000 + (0x3000000 + HPn_LAST_SUBMIT.off p) / 4)]

/-- The words that the initiator of port `p` drives in each frame of what it runs, header first. -/
def State.cascFrames (s : State) (p : Nat) : List (List Word) :=
  match s.casc p with
  | [] => []
  | .run _ out _ _ _ :: _ => [out]
  | .fwd _ _ w words _ _ :: _ => [submitFrame words, readLastSubmit (natBits (s.fld CAS_WORKERS.UPPORT) (2 * w + 1) (2 * w))]

/-- A frame run or forward is in progress (CAS_STAT.BUSY). -/
def State.cascBusy (s : State) : Bool := !s.casc2.isEmpty || !s.casc3.isEmpty

/-- The words read, stored after the image as far as MSG goes (R385). -/
def State.cascStore (s : State) (nout nin buf : Nat) (words : List Word) : State :=
  let a := 0x200000 + 16 * buf + 4 * (1 + nout)
  let n := min (min words.length nin) ((0x300000 - a) / 4)
  (s.masterWrite a ((words.take n).flatMap (fun w => leBytes 4 w.toNat)) .none).setFld CAS_STAT.NGOT (min words.length nin)

/-- The round trip of a read frame toward a worker noted (CAS_LINE_DELAYn). -/
def State.rttNote (s : State) (w rtt : Nat) : State :=
  (s.setFld (CAS_LINE_DELAYn.VALID w) 1).setFld (CAS_LINE_DELAYn.RTT w) (min rtt 65535)

/-- The READ of a forward has ended with the worker's HPn_LAST_SUBMIT (R384). -/
def State.fwdRead (s : State) (p : Nat) (k : Fin 64) (d w : Nat) (words : List Word) (again : Bool) (t : Ticket) (v : Word) :
    State :=
  let h := getBits v 15 0
  if bit v 31 then
    ((if natBits h 13 8 = 0 then s.fwdEnd k d (h % 256 + h * 2 ^ 16) else s.fwdEnd k d (h * 2 ^ 16))).cascNext p
  else if again then (s.fwdEnd k d Status.noAck).cascNext p
  else s.setCasc p (.fwd k d w words true t :: (s.casc p).tail)

/-- CASCADE_FRAME_END (R384, R385): the initiator has captured the last word it wants. -/
def execCascadeFrameEnd (p : Fin 4) (o : CascObs) (s : State) : Host.Outcome State Fault Refusal :=
  if !s.awake then .next s
  else
    match s.casc p.val with
    | [] => .next s
    | .run w out nin buf _ :: _ =>
      let s := s.touch.cascStore out.length nin buf o.words
      let s := if nin ≠ 0 ∧ o.words ≠ [] then s.rttNote w o.rtt else s
      .next ((s.raise CAS_STAT.DONE CAS_STAT.DONE_CNT).cascNext p.val)
    | .fwd k d w words again t :: _ =>
      .next ((s.touch.rttNote w o.rtt).fwdRead p.val k d w words again t (o.words.headD 0#32))

/-- WORKER_TIMEOUT (R241): the initiator ends the frame at the last whole word. -/
def execWorkerTimeout (p : Fin 4) (o : CascObs) (s : State) : Host.Outcome State Fault Refusal :=
  if !s.awake then .next s
  else
    match s.casc p.val with
    | [] => .next s
    | .run _ out nin buf _ :: _ =>
      let s := s.touch.cascStore out.length nin buf o.words
      .next ((s.raise CAS_STAT.TMO CAS_STAT.TMO_CNT).cascNext p.val)
    | .fwd k d _ _ _ _ :: _ => .next ((s.touch.fwdEnd k d Status.noAck).cascNext p.val)

/-- Word `i` of a frame image at `a`, zero past the end of MSG. -/
def State.imageWord (s : State) (a i : Nat) : Word := if a + 4 * i < 0x300000 then BitVec.ofNat 32 (s.num (a + 4 * i) 4) else 0#32

/-- A write of GO = 1 (R385): the image's frame runs toward WORKER; ignored while BUSY. A worker that the manager may not use
is not used (R378). -/
def State.frameGo (s : State) (t : Ticket) : State :=
  let w := s.fld CAS_CFG.WORKER
  if s.cascBusy || !s.workerOk w then s
  else
    let buf := s.fld CAS_CFG.BUF
    let nout := s.fld CAS_CFG.NOUT
    let a := 0x200000 + 16 * buf
    let s := (s.readSpan a (min (4 * (1 + nout)) (0x300000 - a))).1
    s.cascAdd (workerPort w) (.run w ((List.range nout).map (fun i => s.imageWord a (i + 1)))
      ((s.imageWord a 0).toNat % 2 ^ 10) buf t)

/-- CAS by context `k` (R384): the forward queued, the context parked. DEDUCED: WAIT reads engine. -/
def State.forward (s : State) (k : Fin 64) (d w : Nat) (words : List Word) : State :=
  if !s.workerOk w then s.finish k.val d Status.badCommand
  else (s.cascAdd (workerPort w) (.fwd k d w words false (s.cx k.val).ticket)).park k.val .engine (.cas d)

end Sys2Proof.Machine
end

