-- ==== Sys2Proof/Machine/Flags.lean ====
section
/-! DEFINITION. The flags of an Easel context, the condition codes, and the results of the ALU (R275–R277). -/

namespace Sys2Proof.Machine

/-- Z and N of a result (R276). -/
def Ctx.zn (c : Ctx) (r : Word) : Ctx := { c with z := r == 0#32, n := r.msb }

/-- C of a + b: the carry out of bit 31. -/
def carryAdd (a b : Word) : Bool := decide (2 ^ 32 ≤ a.toNat + b.toNat)

/-- V of a + b: the signed sum does not fit 32 bits. -/
def overAdd (a b : Word) : Bool := (a + b).toInt != a.toInt + b.toInt

/-- C of a − b: no borrow occurs. -/
def noBorrow (a b : Word) : Bool := decide (b.toNat ≤ a.toNat)

/-- V of a − b: the signed difference does not fit 32 bits. -/
def overSub (a b : Word) : Bool := (a - b).toInt != a.toInt - b.toInt

/-- The flags of a + b. -/
def Ctx.flagsAdd (c : Ctx) (a b : Word) : Ctx := { c.zn (a + b) with c := carryAdd a b, v := overAdd a b }

/-- The flags of a − b. -/
def Ctx.flagsSub (c : Ctx) (a b : Word) : Ctx := { c.zn (a - b) with c := noBorrow a b, v := overSub a b }

/-- A condition code tested (Table 13-4). -/
def Ctx.holds (c : Ctx) (code : Nat) : Bool :=
  match code with
  | 0x0 => true
  | 0x1 => c.z
  | 0x2 => !c.z
  | 0x3 => c.c
  | 0x4 => !c.c
  | 0x5 => c.n
  | 0x6 => !c.n
  | 0x7 => c.v
  | 0x8 => !c.v
  | 0x9 => c.c && !c.z
  | 0xA => !c.c || c.z
  | 0xB => c.n == c.v
  | 0xC => c.n != c.v
  | 0xD => !c.z && c.n == c.v
  | 0xE => c.z || c.n != c.v
  | _ => false

/-- A result written to g_d with Z and N. -/
def Ctx.wrZN (c : Ctx) (d : Nat) (r : Word) : Ctx := (c.zn r).wr d r

/-- a << s: the result, and the last bit shifted out; 0 when s = 0 (R276). -/
def shl (a : Word) (s : Nat) : Word × Bool := (a <<< s, s != 0 && bit a (32 - s))

/-- a >> s with zero fill. -/
def shr (a : Word) (s : Nat) : Word × Bool := (a >>> s, s != 0 && bit a (s - 1))

/-- a >> s with sign fill. -/
def sar (a : Word) (s : Nat) : Word × Bool := (a.sshiftRight s, s != 0 && bit a (s - 1))

/-- A shift's result with Z, N and C. -/
def Ctx.wrShift (c : Ctx) (d : Nat) (r : Word × Bool) : Ctx := ({ c.zn r.1 with c := r.2 } : Ctx).wr d r.1

/-- MUL: the low 32 bits, or the high 32 bits of the unsigned or signed product. -/
def mulWord (form : Nat) (a b : Word) : Word :=
  if form = 0 then a * b
  else if form = 1 then BitVec.ofNat 32 (a.toNat * b.toNat / 2 ^ 32)
  else BitVec.ofInt 32 (a.toInt * b.toInt / 2 ^ 32)

/-- a is below b, signed (x[0] = 0) or unsigned (x[0] = 1). -/
def below (x : Nat) (a b : Word) : Bool :=
  if x.testBit 0 then decide (a.toNat < b.toNat) else decide (a.toInt < b.toInt)

/-- BFX: `wid` bits of a from `pos`, zero- or sign-extended. -/
def bfx (a : Word) (pos wid : Nat) (sx : Bool) : Word :=
  let r := getBits a (pos + wid - 1) pos
  if sx then BitVec.ofInt 32 (signed wid r) else BitVec.ofNat 32 r

/-- BFI: a with `wid` bits from `pos` replaced by the low bits of b. -/
def bfi (a b : Word) (pos wid : Nat) : Word := putBits a (pos + wid - 1) pos b.toNat

end Sys2Proof.Machine
end

