-- ==== Sys2Proof/Machine/Operands.lean ====
section
/-! DEFINITION. Easel instructions as they are fetched, their fields and operands, loads and stores (R273, R274, R278–R280,
R283, R287). -/

namespace Sys2Proof.Machine

/-! Fields (Table 13-3). -/

/-- op, [31:26]. -/
def opOf (w : Nat) : Nat := natBits w 31 26

/-- d, or cond in format B, [25:22]. -/
def fd (w : Nat) : Nat := natBits w 25 22

/-- a, or g in format T, [21:18]. -/
def fa (w : Nat) : Nat := natBits w 21 18

/-- b, [17:14]. -/
def fb (w : Nat) : Nat := natBits w 17 14

/-- x of formats A and E, [13:0]. -/
def fx (w : Nat) : Nat := natBits w 13 0

/-- imm, off, or x of format T, [17:0]. -/
def fi (w : Nat) : Nat := natBits w 17 0

/-- td, [25:24]. -/
def ftd (w : Nat) : Nat := natBits w 25 24

/-- ta, [23:22]. -/
def fta (w : Nat) : Nat := natBits w 23 22

/-- imm or off sign-extended to 32 bits (R277). -/
def immWord (w : Nat) : Word := BitVec.ofInt 32 (signed 18 (fi w))

/-! Issue (R268, R272–R274, R283). -/

/-- p advanced to the next instruction; a promoted issue request has been served (R271). -/
def Ctx.next (c : Ctx) : Ctx := { c with p := c.p + 1#22, promoted := false }

/-- The context goes on to its next instruction. -/
def State.next (s : State) (k : Fin 64) : State := s.setCx k.val (s.cx k.val).next

/-- The context goes on to its next instruction, its registers changed by `f`. -/
def State.onCtx (s : State) (k : Fin 64) (f : Ctx → Ctx) : State := s.setCx k.val (f (s.cx k.val).next)

/-- A ready context of the same core has a promoted request that ranks before the request of `k` (R268, R271). -/
def State.issueBehind (s : State) (k : Fin 64) : Bool :=
  let c := s.cx k.val
  s.ctx.any (fun p => p.1 / 16 == k.val / 16 && p.1 != k.val && p.2.st == .ready && p.2.svc.isNone && p.2.promoted &&
    (!c.promoted || (p.2.ticket.le c.ticket && p.2.ticket != c.ticket)))

/-- The context may issue: the core runs, it is ready with an instruction of its own, and no promoted request goes ahead of it.
The order of the other requests of a core follows from the cycles that instructions take, which the model leaves out. -/
def State.issues (s : State) (k : Fin 64) : Bool :=
  s.serves && (s.cx k.val).st == .ready && (s.cx k.val).svc.isNone && !s.issueBehind k

/-- What a fetch finds: the state with the errors of the fetch counted and the next request of the context dated from now, the
cause with which it traps (0: none), the instruction word. -/
def State.instrFetch (s : State) (k : Fin 64) (parity : ParityHit) : State × Nat × Nat :=
  let c := s.cx k.val
  let s := s.setCx k.val { c with since := s.stamp }
  let a := 4 * c.p.toNat
  if c.badEntry ≠ 0 then (s, c.badEntry, 0)
  else if !fetchable c.p.toNat then (s, Trap.fetch, 0)
  else if parity == .ctx then (s.parityErr 7 k.val, Trap.parity, 0)
  else if parity == .fetch then (s.readParity a, Trap.parity, 0)
  else
    let r := s.readSpan a 4
    (r.1, if r.2 then 0 else Trap.ecc, s.num a 4)

/-- An instruction of context `k` issues. `op` is the row's op; a context whose instruction is another one is left alone. `f`
gives the effect, from the state after the fetch with p still at the instruction, and the instruction word. -/
def State.issue (s : State) (k : Fin 64) (env : Env) (op : Nat) (f : State → Nat → State) :
    Host.Outcome State Fault Refusal :=
  if s.issues k then
    let r := (s.touch.upset env).instrFetch k env.parity
    if r.2.1 ≠ 0 then .next (r.1.trap k r.2.1)
    else if opOf r.2.2 = op then .next (f r.1 r.2.2)
    else .next s
  else .next s

/-- As `issue`, for the rows that share one op and are told apart by a function in x. -/
def State.issueFn (s : State) (k : Fin 64) (env : Env) (op : Nat) (sel : Nat → Bool) (f : State → Nat → State) :
    Host.Outcome State Fault Refusal :=
  if s.issues k then
    let r := (s.touch.upset env).instrFetch k env.parity
    if r.2.1 ≠ 0 then .next (r.1.trap k r.2.1)
    else if opOf r.2.2 = op ∧ sel r.2.2 then .next (f r.1 r.2.2)
    else .next s
  else .next s

/-- The effect of an instruction whose encoding must pass `ok`; otherwise it traps with ENCODING (R274). -/
def State.coded (s : State) (k : Fin 64) (ok : Bool) (t : State) : State := if ok then t else s.trap k Trap.encoding

/-! Loads and stores (R278–R280). -/

/-- The byte that a load of context `k` returns: its own latest posted store to it, else memory (R279). -/
def State.ownByte (s : State) (k : Nat) (a : Nat) : Byte :=
  (s.cx k).posted.foldl (fun b x => if x.addr ≤ a ∧ a < x.addr + x.bytes.length then x.bytes.getD (a - x.addr) b else b)
    (s.byte a)

/-- `n` bytes from `a` as context `k` sees them. -/
def State.ownBytes (s : State) (k : Nat) (a n : Nat) : List Byte := (List.range n).map (fun i => s.ownByte k (a + i))

/-- The number in `n` bytes from `a` as context `k` sees them. -/
def State.ownNum (s : State) (k : Nat) (a n : Nat) : Nat := leNat (s.ownBytes k a n)

/-- A load's access to `n` bytes from `a`: the errors counted, and the cause with which it traps (0: none). -/
def State.access (s : State) (a n : Nat) (parity : ParityHit) : State × Nat :=
  if parity == .read || parity == .addr then (s.readParity a, Trap.parity)
  else
    let r := s.readSpan a n
    (r.1, if r.2 then 0 else Trap.ecc)

/-- The address of a format-M access: g_a + off modulo 2^32. -/
def Ctx.addr (c : Ctx) (w : Nat) : Nat := (c.rd (fa w) + immWord w).toNat

/-- A load of `n` bytes from `a` into g_d, zero-extended. -/
def State.load (s : State) (k : Fin 64) (d a n : Nat) (parity : ParityHit) : State :=
  if !spanOk a n then s.trap k Trap.addr
  else
    let r := (s.split a n).access a n parity
    if r.2 ≠ 0 then r.1.trap k r.2
    else r.1.onCtx k (fun c => c.wr d (BitVec.ofNat 32 (r.1.ownNum k.val a n)))

/-- The store that a parity error meets on its way. -/
def storeParity : ParityHit → ParityHit
  | .addr => .addr
  | .data => .data
  | _ => .none

/-- A context has 8 stores posted, the oldest of which cannot become visible: a ninth stalls (R279). -/
def State.stalls (s : State) (k : Nat) : Bool := decide (8 ≤ (s.cx k).posted.length) && s.storeHeld k

/-- The context waits on memory and issues the same instruction again once a store has become visible (R268, R279). -/
def State.parkMemory (s : State) (k : Fin 64) : State := s.park k.val .memory .retry

/-- What needs the context's earlier stores visible: it waits while one of them is held (R278, R279). -/
def State.visible (s : State) (k : Fin 64) (t : State) : State := if s.storesHeld k.val then s.parkMemory k else t

/-- A store of `bs` from `a` posted (R279). -/
def State.postBytes (s : State) (k : Fin 64) (a : Nat) (bs : List Byte) (parity : ParityHit) : State :=
  (s.next k).postStore k.val ⟨a, bs, storeParity parity⟩

/-- A store of the low `n` bytes of g_d to `a`. -/
def State.storeReg (s : State) (k : Fin 64) (d a n : Nat) (parity : ParityHit) : State :=
  if !spanWritable a n then s.trap k Trap.addr
  else if s.stalls k.val then s.parkMemory k
  else s.postBytes k a (leBytes n ((s.cx k.val).rd d).toNat) parity

/-- LDP and STP (R280): byte offset, size code and the zero bits of off. -/
def ptbOff (w : Nat) : Nat := natBits w 5 0

/-- The size of a partner-table field; 3 is reserved. -/
def ptbSize (w : Nat) : Nat := natBits w 7 6

/-- The encoding of LDP and STP is good. -/
def ptbOk (w : Nat) : Bool := ptbSize w != 3 && natBits w 17 8 == 0

/-- The access stays within an entry that exists. -/
def ptbIn (i w : Nat) : Bool := decide (i < 4096) && decide (ptbOff w + 2 ^ ptbSize w ≤ 64)

/-! Code addresses (R281). -/

/-- base of JMP and CALL: P, or the word address in g_a. -/
def Ctx.base (c : Ctx) (w : Nat) : Nat := if fa w = 0 then c.p.toNat else (c.rd (fa w)).toNat / 4

/-- A register that holds a code address holds a multiple of 4; g0 stands for P. DEDUCED: tested whether or not the
condition holds. -/
def Ctx.codeOk (c : Ctx) (i : Nat) : Bool := i == 0 || (c.rd i).toNat % 4 == 0

/-- A word address plus a signed word offset, modulo 2^22. DEDUCED: p keeps the low 22 bits. -/
def target (base : Nat) (w : Nat) : BitVec 22 := BitVec.ofInt 22 ((base : Int) + signed 18 (fi w))

/-! Operands of the other instructions (R287). -/

/-- An operand address: aligned, with `n` bytes (at least 1) in one region of R278. -/
def operandOk (a n align : Nat) : Bool := a % align == 0 && spanOk a (max n 1)

/-- A destination that is to be written: as an operand, and not in the primer ROM. -/
def targetOk (a n align : Nat) : Bool := operandOk a n align && !inRom a

/-- A parameter block or descriptor of `n` bytes at `a` read like a load (R287, Table 17-3): the trap's cause, 0 for none. -/
def State.block (s : State) (a n : Nat) (parity : ParityHit) : State × Nat :=
  if !operandOk a n 8 then (s, Trap.operand) else s.access a n parity

/-- A status word written at once, with Z (R287). -/
def State.status (s : State) (k : Fin 64) (d w : Nat) : State := s.finish k.val d w

/-- An instruction of chapter 14 that goes on when its operand test `cause` is 0, p advanced; otherwise it traps. -/
def State.passed (s : State) (k : Fin 64) (cause : Nat) (f : State → State) : State :=
  if cause ≠ 0 then s.trap k cause else f (s.next k)

end Sys2Proof.Machine
end

