-- ==== Sys2Proof/Machine/Easel.lean ====
section
/-! DEFINITION. The core instructions of Easel: ALU, immediates, memory, control, and the ops that trap (R274–R283). -/

namespace Sys2Proof.Machine

/-! ALU, format A (R276). -/

/-- A format-A instruction: its encoding tested, then g_d and the flags by `f` of the context, g_a and g_b. -/
def State.alu (s : State) (k : Fin 64) (w : Nat) (ok : Bool) (f : Ctx → Word → Word → Ctx) : State :=
  s.coded k ok (s.onCtx k (fun c => f c (c.rd (fa w)) (c.rd (fb w))))

/-- The shift distance s of R276. -/
def shiftBy (w : Nat) (b : Word) : Nat := (b.toNat % 32 + natBits w 4 0) % 32

/-- pos of BFX and BFI. -/
def bitPos (w : Nat) : Nat := natBits w 4 0

/-- wid of BFX and BFI. -/
def bitWid (w : Nat) : Nat := natBits w 9 5 + 1

/-- ADD. -/
def execOpAdd (k : Fin 64) (env : Env) (s : State) : Host.Outcome State Fault Refusal :=
  s.issue k env 0x00 (fun s w => s.alu k w (fx w == 0) (fun c a b => (c.flagsAdd a b).wr (fd w) (a + b)))

/-- SUB. -/
def execOpSub (k : Fin 64) (env : Env) (s : State) : Host.Outcome State Fault Refusal :=
  s.issue k env 0x01 (fun s w => s.alu k w (fx w == 0) (fun c a b => (c.flagsSub a b).wr (fd w) (a - b)))

/-- AND. -/
def execOpAnd (k : Fin 64) (env : Env) (s : State) : Host.Outcome State Fault Refusal :=
  s.issue k env 0x02 (fun s w => s.alu k w (fx w == 0) (fun c a b => c.wrZN (fd w) (a &&& b)))

/-- IOR. -/
def execOpIor (k : Fin 64) (env : Env) (s : State) : Host.Outcome State Fault Refusal :=
  s.issue k env 0x03 (fun s w => s.alu k w (fx w == 0) (fun c a b => c.wrZN (fd w) (a ||| b)))

/-- XOR. -/
def execOpXor (k : Fin 64) (env : Env) (s : State) : Host.Outcome State Fault Refusal :=
  s.issue k env 0x04 (fun s w => s.alu k w (fx w == 0) (fun c a b => c.wrZN (fd w) (a ^^^ b)))

/-- SHL. -/
def execOpShl (k : Fin 64) (env : Env) (s : State) : Host.Outcome State Fault Refusal :=
  s.issue k env 0x05 (fun s w =>
    s.alu k w (natBits w 13 5 == 0) (fun c a b => c.wrShift (fd w) (shl a (shiftBy w b))))

/-- SHR. -/
def execOpShr (k : Fin 64) (env : Env) (s : State) : Host.Outcome State Fault Refusal :=
  s.issue k env 0x06 (fun s w =>
    s.alu k w (natBits w 13 5 == 0) (fun c a b => c.wrShift (fd w) (shr a (shiftBy w b))))

/-- SAR. -/
def execOpSar (k : Fin 64) (env : Env) (s : State) : Host.Outcome State Fault Refusal :=
  s.issue k env 0x07 (fun s w =>
    s.alu k w (natBits w 13 5 == 0) (fun c a b => c.wrShift (fd w) (sar a (shiftBy w b))))

/-- MUL. -/
def execOpMul (k : Fin 64) (env : Env) (s : State) : Host.Outcome State Fault Refusal :=
  s.issue k env 0x08 (fun s w =>
    s.alu k w (decide (fx w < 3)) (fun c a b => c.wrZN (fd w) (mulWord (fx w) a b)))

/-- CMP. -/
def execOpCmp (k : Fin 64) (env : Env) (s : State) : Host.Outcome State Fault Refusal :=
  s.issue k env 0x09 (fun s w => s.alu k w (fx w == 0 && fd w == 0) (fun c a b => c.flagsSub a b))

/-- MIN. -/
def execOpMin (k : Fin 64) (env : Env) (s : State) : Host.Outcome State Fault Refusal :=
  s.issue k env 0x0A (fun s w =>
    s.alu k w (decide (fx w < 2)) (fun c a b => c.wrZN (fd w) (if below (fx w) b a then b else a)))

/-- MAX. -/
def execOpMax (k : Fin 64) (env : Env) (s : State) : Host.Outcome State Fault Refusal :=
  s.issue k env 0x0B (fun s w =>
    s.alu k w (decide (fx w < 2)) (fun c a b => c.wrZN (fd w) (if below (fx w) a b then b else a)))

/-- SEL. -/
def execOpSel (k : Fin 64) (env : Env) (s : State) : Host.Outcome State Fault Refusal :=
  s.issue k env 0x0C (fun s w =>
    s.alu k w (decide (fx w < 16)) (fun c a b => c.wr (fd w) (if c.holds (fx w) then a else b)))

/-- BFX. -/
def execOpBfx (k : Fin 64) (env : Env) (s : State) : Host.Outcome State Fault Refusal :=
  s.issue k env 0x0D (fun s w =>
    s.alu k w (decide (fx w < 0x800) && fb w == 0 && decide (bitPos w + bitWid w ≤ 32))
      (fun c a _ => c.wrZN (fd w) (bfx a (bitPos w) (bitWid w) ((fx w).testBit 10))))

/-- BFI. -/
def execOpBfi (k : Fin 64) (env : Env) (s : State) : Host.Outcome State Fault Refusal :=
  s.issue k env 0x0E (fun s w =>
    s.alu k w (decide (fx w < 0x400) && decide (bitPos w + bitWid w ≤ 32))
      (fun c a b => c.wr (fd w) (bfi a b (bitPos w) (bitWid w))))

/-! Immediates, format I (R277). -/

/-- A format-I instruction: as `alu`, over g_a and the sign-extended immediate. -/
def State.aluImm (s : State) (k : Fin 64) (w : Nat) (ok : Bool) (f : Ctx → Word → Word → Ctx) : State :=
  s.coded k ok (s.onCtx k (fun c => f c (c.rd (fa w)) (immWord w)))

/-- ADDI. -/
def execOpAddi (k : Fin 64) (env : Env) (s : State) : Host.Outcome State Fault Refusal :=
  s.issue k env 0x10 (fun s w => s.aluImm k w true (fun c a i => (c.flagsAdd a i).wr (fd w) (a + i)))

/-- ANDI. -/
def execOpAndi (k : Fin 64) (env : Env) (s : State) : Host.Outcome State Fault Refusal :=
  s.issue k env 0x11 (fun s w => s.aluImm k w true (fun c a i => c.wrZN (fd w) (a &&& i)))

/-- IORI. -/
def execOpIori (k : Fin 64) (env : Env) (s : State) : Host.Outcome State Fault Refusal :=
  s.issue k env 0x12 (fun s w => s.aluImm k w true (fun c a i => c.wrZN (fd w) (a ||| i)))

/-- XORI. -/
def execOpXori (k : Fin 64) (env : Env) (s : State) : Host.Outcome State Fault Refusal :=
  s.issue k env 0x13 (fun s w => s.aluImm k w true (fun c a i => c.wrZN (fd w) (a ^^^ i)))

/-- CMPI. -/
def execOpCmpi (k : Fin 64) (env : Env) (s : State) : Host.Outcome State Fault Refusal :=
  s.issue k env 0x14 (fun s w => s.aluImm k w (fd w == 0) (fun c a i => c.flagsSub a i))

/-- MOVI. -/
def execOpMovi (k : Fin 64) (env : Env) (s : State) : Host.Outcome State Fault Refusal :=
  s.issue k env 0x15 (fun s w => s.aluImm k w (fa w == 0) (fun c _ i => c.wr (fd w) i))

/-- HIGH: the immediate taken unsigned. -/
def execOpHigh (k : Fin 64) (env : Env) (s : State) : Host.Outcome State Fault Refusal :=
  s.issue k env 0x16 (fun s w =>
    s.aluImm k w true (fun c a _ => c.wr (fd w) (BitVec.ofNat 32 (fi w * 2 ^ 14 + a.toNat % 2 ^ 14))))

/-! Memory, format M (R278–R280). -/

/-- LDB. -/
def execOpLdb (k : Fin 64) (env : Env) (s : State) : Host.Outcome State Fault Refusal :=
  s.issue k env 0x18 (fun s w => s.load k (fd w) ((s.cx k.val).addr w) 1 env.parity)

/-- LDH. -/
def execOpLdh (k : Fin 64) (env : Env) (s : State) : Host.Outcome State Fault Refusal :=
  s.issue k env 0x19 (fun s w => s.load k (fd w) ((s.cx k.val).addr w) 2 env.parity)

/-- LDW. -/
def execOpLdw (k : Fin 64) (env : Env) (s : State) : Host.Outcome State Fault Refusal :=
  s.issue k env 0x1A (fun s w => s.load k (fd w) ((s.cx k.val).addr w) 4 env.parity)

/-- STB. -/
def execOpStb (k : Fin 64) (env : Env) (s : State) : Host.Outcome State Fault Refusal :=
  s.issue k env 0x1B (fun s w => s.storeReg k (fd w) ((s.cx k.val).addr w) 1 env.parity)

/-- STH. -/
def execOpSth (k : Fin 64) (env : Env) (s : State) : Host.Outcome State Fault Refusal :=
  s.issue k env 0x1C (fun s w => s.storeReg k (fd w) ((s.cx k.val).addr w) 2 env.parity)

/-- STW. -/
def execOpStw (k : Fin 64) (env : Env) (s : State) : Host.Outcome State Fault Refusal :=
  s.issue k env 0x1D (fun s w => s.storeReg k (fd w) ((s.cx k.val).addr w) 4 env.parity)

/-- A partner-table access: encoding, then the entry and field tested (R280). -/
def State.ptb (s : State) (k : Fin 64) (w : Nat) (t : Nat → State) : State :=
  let i := ((s.cx k.val).rd (fa w)).toNat
  s.coded k (ptbOk w) (if ptbIn i w then t (partner i + ptbOff w) else s.trap k Trap.ptb)

/-- LDP. -/
def execOpLdp (k : Fin 64) (env : Env) (s : State) : Host.Outcome State Fault Refusal :=
  s.issue k env 0x1E (fun s w => s.ptb k w (fun a => s.load k (fd w) a (2 ^ ptbSize w) env.parity))

/-- STP. -/
def execOpStp (k : Fin 64) (env : Env) (s : State) : Host.Outcome State Fault Refusal :=
  s.issue k env 0x1F (fun s w => s.ptb k w (fun a => s.storeReg k (fd w) a (2 ^ ptbSize w) env.parity))

/-! Control (R281, R282). -/

/-- JMP. -/
def execOpJmp (k : Fin 64) (env : Env) (s : State) : Host.Outcome State Fault Refusal :=
  s.issue k env 0x20 (fun s w =>
    let c := s.cx k.val
    if !c.codeOk (fa w) then s.trap k Trap.align
    else s.onCtx k (fun x => if c.holds (fd w) then { x with p := target (c.base w) w } else x))

/-- CALL. -/
def execOpCall (k : Fin 64) (env : Env) (s : State) : Host.Outcome State Fault Refusal :=
  s.issue k env 0x21 (fun s w =>
    let c := s.cx k.val
    if !c.codeOk (fa w) then s.trap k Trap.align
    else s.onCtx k (fun x =>
      if c.holds (fd w) then
        { x.wr 15 (BitVec.ofNat 32 (4 * (c.p.toNat + 1))) with p := target (c.base w) w }
      else x))

/-- RET. -/
def execOpRet (k : Fin 64) (env : Env) (s : State) : Host.Outcome State Fault Refusal :=
  s.issue k env 0x22 (fun s w =>
    let c := s.cx k.val
    let i := if fa w = 0 then 15 else fa w
    s.coded k (fi w == 0) (
      if !c.codeOk i then s.trap k Trap.align
      else s.onCtx k (fun x =>
        if c.holds (fd w) then { x with p := BitVec.ofNat 22 ((c.rd i).toNat / 4) } else x)))

/-- YIELD: the context has issued for this round (R268). The rounds of a core are cycles, which the model leaves out, so that it
only advances p. -/
def execOpYield (k : Fin 64) (env : Env) (s : State) : Host.Outcome State Fault Refusal :=
  s.issue k env 0x23 (fun s w => s.coded k (natBits w 25 0 == 0) (s.next k))

/-- HALT and FAIL (R282): the command ends with a status and g_b bytes from g_a, once every store of the context can become
visible. -/
def State.halt (s : State) (k : Fin 64) (w status : Nat) (parity : ParityHit) : State :=
  let c := s.cx k.val
  let a := (c.rd (fa w)).toNat
  let n := (c.rd (fb w)).toNat
  if 60 < n then s.trap k Trap.result
  else if n = 0 then s.visible k (s.cmdEnd k status [])
  else if !spanOk a n then s.trap k Trap.addr
  else s.visible k (
    let r := (s.drain k.val).access a n parity
    if r.2 ≠ 0 then r.1.trap k r.2
    else r.1.cmdEnd k status (r.1.bytes a n))

/-- HALT. -/
def execOpHalt (k : Fin 64) (env : Env) (s : State) : Host.Outcome State Fault Refusal :=
  s.issue k env 0x24 (fun s w => s.coded k (fd w == 0 && fx w == 0) (s.halt k w Status.ok env.parity))

/-- The codes that FAIL may give: those of Table 12-7 above 0x03, and 0x70 to 0x7F. -/
def failOk (v : Nat) : Bool :=
  [0x10, 0x11, 0x12, 0x13, 0x14, 0x15, 0x16, 0x17, 0x20, 0x21, 0x30, 0x31, 0x32, 0x40, 0x41, 0x50, 0x51, 0x52, 0x60, 0x61,
    0x62, 0x63].contains v || (decide (0x70 ≤ v) && decide (v ≤ 0x7F))

/-- FAIL. -/
def execOpFail (k : Fin 64) (env : Env) (s : State) : Host.Outcome State Fault Refusal :=
  s.issue k env 0x25 (fun s w =>
    s.coded k (fd w == 0 && decide (fx w < 256)) (
      if failOk (fx w) then s.halt k w (fx w) env.parity else s.trap k Trap.status))

/-- LOOP. -/
def execOpLoop (k : Fin 64) (env : Env) (s : State) : Host.Outcome State Fault Refusal :=
  s.issue k env 0x26 (fun s w =>
    let c := s.cx k.val
    let r := c.rd (fa w) - 1#32
    s.coded k (fd w == 0 && fa w != 0) (s.onCtx k (fun x =>
      let x := x.wr (fa w) r
      if r = 0#32 then x else { x with p := target c.p.toNat w })))

/-- The ops that name no instruction (R274). -/
def noOp (op : Nat) : Bool := op == 0x0F || op == 0x17 || op == 0x27 || op == 0x2F

/-- OPCODE_TRAP (R274). -/
def execOpcodeTrap (k : Fin 64) (env : Env) (s : State) : Host.Outcome State Fault Refusal :=
  if s.issues k then
    let r := (s.touch.upset env).instrFetch k env.parity
    if r.2.1 ≠ 0 then .next (r.1.trap k r.2.1)
    else if noOp (opOf r.2.2) then .next (r.1.trap k Trap.opcode)
    else .next s
  else .next s

end Sys2Proof.Machine
end

