-- ==== Sys2Proof/Machine/Timers.lean ====
section
/-! DEFINITION. What Caravan time brings about: XO32 edges, launcher occurrences, pin pulses, temperature samples, waits that
expire, receive windows, pins (R22–R40, R288, R291, R297, R374). -/

namespace Sys2Proof.Machine

/-! XO32 edges (R22, R23, R381). -/

/-- The rate trim corrects the edges: self-trim on (R22), or the line loop owns the trim (R381). -/
def State.trimOn (s : State) : Bool := s.on CVN_CFG.SELF_EN || s.lineOwns

/-- The advance of the XO32 period that begins: 6000 fine units corrected by the trim, what is left over carried (R22,
R38), and less the slew's step (R381). A substitute clock advances one tick (Table 2-7). -/
def State.nextPeriod (s : State) : TimeBase :=
  let t := s.time
  if t.absent then { t with adv := 6000 }
  else
    let raw : Int := 6000000000 + t.frac + (if s.trimOn then 6 * signed 32 (s.fld CVN_RATE_TRIM.TRIM) else 0)
    let step := if t.slewLeft = 0 then 0 else clampInt (-64) 64 (roundDiv t.slew t.slewLeft)
    { t with
      adv := (raw / 1000000 - step).toNat
      frac := raw % 1000000
      slew := t.slew - step
      slewLeft := t.slewLeft - 1 }

/-- XO32_EDGE (R23): the period ends; a counter that must stand still uses it up (R382). The substitute clock's tick
boundaries stand for edges while XO32 is absent. The edge counts for self-trim while its conditions hold (R39). -/
def execXo32Edge (s : State) : Host.Outcome State Fault Refusal :=
  if s.pwr.st = .inReset ∨ s.pwr.st = .off then .next s
  else
    let t := s.time
    let c := min t.hold (t.edge + t.adv - t.now)
    let now := t.edge + t.adv - c
    let counts := s.on CVN_CFG.SELF_EN && s.qual && s.on CLK_STAT.REF_OK && !t.absent
    let s := { s with time := { t with
      now := now, edge := now, hold := t.hold - c, selfEdges := if counts then t.selfEdges + 1 else 0 } }
    .next { s with time := s.nextPeriod }

/-! Pins (R31, R374). -/

/-- LEVEL of pin word `n` written and driven by a launcher, when the pin is an output; a master's write in the same cycle stands
over it (R374). -/
def State.pinDrive (s : State) (n : Nat) (level : Bool) : State :=
  let w := s.num (pinAddr n) 1
  if w.testBit 0 && !s.pinWritten n then
    let s := s.store (pinAddr n) (leBytes 1 (w - natBits w 1 1 * 2 + b2n level * 2))
    if s.asleep then s else s.applyPin n
  else s

/-- PIN_PULSE_END (R31). -/
def execPinPulseEnd (pin : Fin 16) (s : State) : Host.Outcome State Fault Refusal :=
  let e := Tab.get (fun _ => 0) s.pins.pulses pin.val
  if e ≠ 0 ∧ s.reach (e - 1) then
    let s := s.moveTo (e - 1)
    let s := { s with pins := { s.pins with pulses := Tab.set (fun _ => 0) s.pins.pulses pin.val 0 } }
    .next (s.pinDrive pin.val false)
  else .next s

/-- PIN_WORD_WRITE (R374): a master writes pin word `n`. -/
def execPinWordWrite (_m : Master) (n : Fin 16) (v : Word) (s : State) : Host.Outcome State Fault Refusal :=
  if s.awake then .next (s.touch.masterWrite (pinAddr n.val) (leBytes 4 v.toNat) .none) else .next s

/-- GP_INPUT_CHANGE (R374): the level driven onto a ball from outside changes; IN follows in Run and Idle. -/
def execGpInputChange (n : Fin 16) (level : Bool) (s : State) : Host.Outcome State Fault Refusal :=
  let s := s.touch
  let s := { s with pins := { s.pins with gpIn := Tab.set (fun _ => false) s.pins.gpIn n.val level } }
  .next (s.inSync n.val)

/-- IN_REFRESH (R374): IN of every pin word rewritten, every 32 ticks in Run and Idle. DESIGN CHOICE: at the multiples of 32
from tick 0 on, of which R374 gives the period alone (log entry 103). -/
def execInRefresh (s : State) : Host.Outcome State Fault Refusal :=
  match s.multipleNow 5 with
  | none => .next s
  | some k => if s.msgRuns then .next ((List.range 16).foldl State.inWrite (s.moveTo (6000 * k))) else .next s

/-! Launcher occurrences (R29–R36). -/

/-- The period of a launcher in fine units; 0 for one occurrence. -/
def Lnch.period (x : Lnch) : Nat := if x.rep = 0 then 0 else 2 ^ (x.rep + 7) * 6000

/-- The latest scheduled stamp that has passed (R30). -/
def Lnch.latest (x : Lnch) (st now : Nat) : Nat := if x.period = 0 then st else st + (now - st) / x.period * x.period

/-- After an occurrence at `st`: disarmed, or the next one scheduled a period later (R30). -/
def State.lnNext (s : State) (n st : Nat) : State :=
  let x := s.launcher n
  if x.rep = 0 then s.lnOff n
  else s.setLauncher n { x with stamp := st + x.period, late := false, wait := none }

/-- A late occurrence that does not act (Table 2-6): DISCARD, or SKIP. -/
def State.lnDrop (s : State) (n st : Nat) : State :=
  let x := s.launcher n
  let s := s.setFld (CVN_Ln_ACT.MISSED n) 1
  if x.pol = 2 then s.lnNext n st else s.lnOff n

/-- The context of a CONTEXT action is parked in TWAIT or TAT. -/
def State.ctxWaits (s : State) (k : Nat) : Bool :=
  match (s.cx k).susp with
  | .twait _ | .tat _ => true
  | _ => false

/-- A launcher's action on the output pins. -/
def State.pinAct (s : State) (action arg st : Nat) : State :=
  let pin := arg % 16
  let w := s.num (pinAddr pin) 1
  if action = 4 then s.pinDrive pin true
  else if action = 5 then s.pinDrive pin false
  else if action = 6 then s.pinDrive pin (!w.testBit 1)
  else if w.testBit 0 then
    let s := s.pinDrive pin true
    { s with pins := { s.pins with
      pulses := Tab.set (fun _ => 0) s.pins.pulses pin (st + (arg / 16 % 16 + 1) * 6000 + 1) } }
  else s

/-- A launcher acts at stamp `st` in Run (Table 2-5); RADIO apart. -/
def State.lnAct (s : State) (n : Nat) (x : Lnch) (st : Nat) : State :=
  if x.action = 2 then s.wake (x.arg % 64)
  else if x.action = 3 then s.dmaStart (x.arg % 16) 63 none
  else if 4 ≤ x.action ∧ x.action ≤ 7 then s.pinAct x.action x.arg st
  else if x.action = 8 then s.post (x.arg % 4) 0x02 0 0 n 0 st
  else if x.action = 9 then s.leaveIdle
  else if x.action = 10 then s.leaveIdle.submitInternal x.arg [] ⟨st, 4, 0⟩
  else s

/-- An occurrence other than RADIO, at stamp `st`, in Run: lost, late or acted on (R34). -/
def State.lnOccur (s : State) (n : Nat) (x : Lnch) (st : Nat) (late : Bool) : State :=
  if x.action = 2 ∧ !s.ctxWaits (x.arg % 64) then (s.setFld (CVN_Ln_ACT.MISSED n) 1).lnNext n st
  else
    let busy := x.action = 3 ∧ (s.dmaCh (x.arg % 16)).busy
    if (late ∨ busy) ∧ x.pol ≠ 0 then s.lnDrop n st
    else if busy then (s.setFld (CVN_Ln_ACT.MISSED n) 1).setLauncher n { x with wait := some st }
    else ((s.lnAct n x st).lnHit n late).lnNext n st

/-- A transmission at its launch instant: the occurrence is counted (R124). -/
def State.txOccur (s : State) (n : Nat) (o : RadioOp) : State :=
  if o.phase == .onAir && s.reach o.t then ((s.moveTo o.t).lnHit n o.late).lnOff n else s

/-- A TUNE at its stamp (R291): claims placed, then the tune. -/
def State.tuneOccur (s : State) (n : Nat) (x : Lnch) (id : Nat) (o : RadioOp) : State :=
  if o.phase != .release then s
  else
    let s := s.moveTo x.stamp
    if x.late && x.pol != 0 then (s.setFld (CVN_Ln_ACT.MISSED n) 1).opEnd id Status.late 0
    else
      let s := (s.lnHit n x.late).lnOff n
      let o := { o with late := x.late, lnch := none, phase := .claim }
      let s := s.setOp id o
      if o.freq = 0 then (s.setOp id { o with phase := .lock }).tuneAdd o.syn ⟨0, none, o.force, some id, o.ticket⟩
      else
      let r := s.powerClaim o.syn o.prio o.ticket
      if !r.2 then r.1.opEnd id Status.budgetDenied 0
      else if r.1.powerHeld o.syn then r.1.tuneGo id o
      else match o.ctx with
        | some k => r.1.park k.val .well (.radio id)
        | none => r.1

/-- A receive window at its start stamp: the launcher's part. A late one under DISCARD or SKIP is taken back (R34). -/
def State.winOccur (s : State) (n : Nat) (x : Lnch) (id : Nat) (o : RadioOp) : State :=
  let s := s.moveTo x.stamp
  if x.late && x.pol != 0 then
    ({ s.setFld (CVN_Ln_ACT.MISSED n) 1 with wins := Tab.drop o.seq s.wins } : State).opEnd id Status.late 0
  else
    let s := (s.lnHit n x.late).lnOff n
    if o.phase == .window then s.setOp id { o with lnch := none, late := x.late } else s.dropOp id

/-- The beacons of GACK operation `gid` for stamps up to `st` that have not gone out are late (R124, R166). -/
def State.beaconsLate (s : State) (gid st : Nat) : State :=
  s.opIds.foldl (fun s i => match s.op i with
    | some o => if o.kind == .beacon && o.buf == gid && decide (o.t ≤ st) && !o.launched then s.txLate i o.phase else s
    | none => s) s

/-- A beacon occurrence (R165, R166): counted when the beacon goes out on time; a late one is taken for every stamp passed
(R30), and DISCARD ends the beacons. The next beacon is prepared for the next occasion, which is the announced one when the
occasions before it are skipped. DEDUCED: the launcher's stamp moves on to it (R186; log entry 184). -/
def State.beaconOccur (s : State) (n : Fin 32) (x : Lnch) (gid : Nat) : State :=
  let s := s.moveTo x.stamp
  let out := s.opIds.any (fun i => match s.op i with
    | some o => o.kind == .beacon && o.buf == gid && o.t == x.stamp && o.launched
    | none => false)
  let st := if out then x.stamp else x.latest x.stamp s.stamp
  let s := if out then s.lnHit n.val false else s.beaconsLate gid st
  if !out ∧ (s.launcher n.val).late ∧ x.pol = 1 then s.gackStop
  else
    let z := s.mac.sf0.getD st
    let t := z + s.occasion ((st + x.period - z) / biFine s.bo) * biFine s.bo
    (s.setLauncher n.val { x with stamp := t, late := false }).beaconNew gid n t

/-- A RADIO launcher's occurrence (R32). -/
def State.radioOccur (s : State) (n : Fin 32) (x : Lnch) : State :=
  match x.op.bind s.op, x.op with
  | some o, some id =>
    match o.kind with
    | .gack => if s.reach x.stamp then s.beaconOccur n x id else s
    | .tune => if s.reach x.stamp then s.tuneOccur n.val x id o else s
    | .rxwin => if s.reach x.stamp then s.winOccur n.val x id o else s
    | _ => s.txOccur n.val o
  | _, _ => s

/-- An occurrence in Sleep, Deep sleep or before the core runs (R36): NONE, WAKE and WAKE_SKETCH are the occurrence; any
other action wakes the device and is late, ready when Run is reached. A radio operation learns of its policy there, so that
it ends with LATE under DISCARD and SKIP (Table 2-6). -/
def State.sleepOccur (s : State) (n : Nat) (x : Lnch) : State :=
  let tick := x.stamp / 6000
  let st := x.latest x.stamp s.stamp
  if x.action = 0 then (s.lnHit n false).lnNext n st
  else
    let s := s.wakeByLauncher n tick
    if x.action = 9 then (s.lnHit n false).lnNext n st
    else if x.action = 10 then
      let s := { s with pwr := { s.pwr with boot := s.pwr.boot ++ [(x.arg, [])] } }
      (s.lnHit n false).lnNext n st
    else if x.pol = 0 ∨ x.action = 1 then
      (s.setFld (CVN_Ln_ACT.MISSED n) 1).setLauncher n { x with wait := some x.stamp }
    else s.lnDrop n st

/-- The actions that are carried out in ascending launcher number: CONTEXT, DMA, EVENT, WAKE, WAKE_SKETCH (R33). -/
def ranked (action : Nat) : Bool := action == 2 || action == 3 || decide (8 ≤ action)

/-- A lower-numbered launcher reaches its stamp in the same cycle and has still to be carried out (R33, R411). -/
def State.lnBehind (s : State) (n : Nat) : Bool :=
  ranked (s.launcher n).action && (List.range n).any (fun m =>
    let y := s.launcher m
    y.armed && y.wait.isNone && ranked y.action && s.radioCycle y.stamp == s.radioCycle (s.launcher n).stamp)

/-- The counter reaches the stamp of launcher `n`, and the launcher acts (R30, R33–R36). Passed stamps are taken as the one
late occurrence of the latest (R30). -/
def State.occur (s : State) (n : Fin 32) : State :=
  let x := s.launcher n.val
  if !x.armed ∨ x.wait.isSome ∨ s.pwr.st = .inReset ∨ s.pwr.st = .off ∨ s.lnBehind n.val then s
  else if s.asleep ∨ !s.awake then
    if x.stamp / 6000 ≤ s.tick then s.sleepOccur n.val x else s
  else if x.action = 1 then s.radioOccur n x
  else if s.reach x.stamp then
    let s := s.moveTo x.stamp
    let st := x.latest x.stamp s.stamp
    s.lnOccur n.val x st (x.late || st != x.stamp)
  else s

/-- LAUNCHER_OCCURRENCE (R30): the counter reaches an armed launcher's stamp. -/
def execLauncherOccurrence (n : Fin 32) (s : State) : Host.Outcome State Fault Refusal := .next (s.occur n)

/-- An occurrence of launcher `n` that falls in the present cycle, or has been due before it, is carried out before a write to
its CVN_Ln_ACT (R31, R411). -/
def State.occurDue (s : State) (n : Fin 32) : State :=
  if s.coreCycle (s.launcher n.val).stamp ≤ s.coreCycle s.stamp then s.occur n else s

/-- LATE_OCCURRENCE_READY (R34, R36): a late occurrence that waits becomes ready: in Run, its DMA channel idle. Stamps passed
meanwhile are taken as one (R30). -/
def execLateOccurrenceReady (n : Fin 32) (s : State) : Host.Outcome State Fault Refusal :=
  let x := s.launcher n.val
  match x.wait with
  | none => .next s
  | some st0 =>
    let busy := x.action = 3 ∧ (s.dmaCh (x.arg % 16)).busy
    if !s.msgRuns ∨ busy then .next s
    else
      let s := s.touch
      let st := x.latest st0 s.stamp
      if x.action = 1 then
        let s := s.setLauncher n.val { x with stamp := st, wait := none, late := true }
        .next (s.radioOccur n (s.launcher n.val))
      else .next (s.lnOccur n.val { x with wait := none } st true)

/-! Temperature and self-trim (R38–R40). -/

/-- TEMP_SAMPLE (R38): every 2^21 ticks with SELF_EN or TLOG_EN. DESIGN CHOICE: at the multiples of 2^21 from tick 0 on, of
which R38 gives the period alone (log entry 167). -/
def execTempSample (raw : Int) (s : State) : Host.Outcome State Fault Refusal :=
  match s.multipleNow 21 with
  | none => .next s
  | some k =>
    if (s.on CVN_CFG.SELF_EN ∨ s.on CVN_CFG.TLOG_EN) ∧ s.pwr.st ≠ .inReset ∧ s.pwr.st ≠ .off ∧ k ≠ s.time.sampled then
      let s := (s.moveTo (6000 * k)).tempTake raw
      let v := roundDiv s.temp 8
      let s := { s with time := { s.time with
        sampled := k
        logSum := twos 32 (s.time.logSum + v)
        logSq := (s.time.logSq + v.natAbs * v.natAbs) % 2 ^ 32 } }
      .next (if s.on CVN_CFG.SELF_EN then s.trimNow else s)
    else .next s

/-- SELF_MEASURE (R39): CK_RADIO cycles have been counted over 2^19 XO32 edges with SELF_EN = 1, CMR locked and the TCXO
running; the count is learned from, and the next interval begins. -/
def execSelfMeasure (count : Nat) (s : State) : Host.Outcome State Fault Refusal :=
  if s.on CVN_CFG.SELF_EN ∧ s.qual ∧ s.on CLK_STAT.REF_OK ∧ !s.time.absent ∧ count ≠ 0 ∧ 2 ^ 19 ≤ s.time.selfEdges then
    .next (({ s with time := { s.time with selfEdges := s.time.selfEdges - 2 ^ 19 } } : State).touch.selfLearn count)
  else .next s

/-- TEMP_LOG_ENTRY (R40): at each multiple of 2^22 ticks. -/
def execTempLogEntry (s : State) : Host.Outcome State Fault Refusal :=
  match s.multipleNow 22 with
  | none => .next s
  | some k =>
    if s.on CVN_CFG.TLOG_EN ∧ s.pwr.st ≠ .inReset ∧ s.pwr.st ≠ .off then
      let s := s.moveTo (6000 * k)
      .next (s.store (0x4E000 + 8 * (k / 2 ^ 22 % 1024)) (leBytes 4 s.time.logSum ++ leBytes 4 s.time.logSq))
    else .next s

/-! Waits that expire (R288, R297). -/

/-- TWAIT_EXPIRY (R288): the counter reaches t_ta. -/
def execTwaitExpiry (k : Fin 64) (s : State) : Host.Outcome State Fault Refusal :=
  match (s.cx k.val).susp with
  | .twait t => if s.awake ∧ s.reach t then .next ((s.moveTo t).wake k.val) else .next s
  | _ => .next s

/-- WAITE_TIMEOUT (R297): g_d := 0 and C := 1. -/
def execWaiteTimeout (k : Fin 64) (s : State) : Host.Outcome State Fault Refusal :=
  match (s.cx k.val).susp with
  | .waite _ d _ (some t) =>
    if s.awake ∧ s.reach t then
      let s := s.moveTo t
      .next ((s.setCx k.val { (s.cx k.val).wr d 0#32 with c := true }).wake k.val)
    else .next s
  | _ => .next s

/-! Receive windows (R291). -/

/-- A receive window. -/
def State.win (s : State) (w : Nat) : Option RxWin := Tab.get (fun _ => none) s.wins w

/-- EN_n of a chain. -/
def enFld : Chain → Fld
  | .a => CHZ_CTRL.EN_A
  | .b => CHZ_CTRL.EN_B

/-- RXWIN_START (R291): the window opens; POWER sets EN_n of its chain. A Palette that runs already ends the instruction. -/
def execRxwinStart (w : Nat) (s : State) : Host.Outcome State Fault Refusal :=
  match s.win w with
  | some x =>
    if s.awake ∧ !x.isOpen ∧ s.reach x.start then
      let s := s.moveTo x.start
      let s := { s with wins := Tab.set (fun _ => none) s.wins w (some { x with isOpen := true }) }
      if x.power then
        let s := (s.setFld (enFld x.chain) 1).palJudge s (s.ticketNow 7)
        .next (if s.palRuns x.chain then s.windowsOk x.chain else s)
      else .next s
    else .next s
  | none => .next s

/-- RXWIN_END (R291): the window expires without notice; POWER clears EN_n unless another window of the chain is open. An
instruction that still waits for the Palette ends with LATE. -/
def execRxwinEnd (w : Nat) (s : State) : Host.Outcome State Fault Refusal :=
  match s.win w with
  | some x =>
    if s.awake ∧ x.isOpen ∧ s.reach x.stop then
      let s := s.moveTo x.stop
      let s := { s with wins := Tab.drop w s.wins }
      let s := s.opIds.foldl (fun s i => match s.op i with
        | some o => if o.kind == .rxwin && o.seq == w then s.opEnd i Status.late 0 else s
        | none => s) s
      let other := s.wins.any (fun p => match p.2 with
        | some y => y.isOpen && y.chain == x.chain
        | none => false)
      .next (if x.power ∧ !other then (s.setFld (enFld x.chain) 0).palJudge s (s.ticketNow 7) else s)
    else .next s
  | none => .next s

end Sys2Proof.Machine
end

