-- ==== Sys2Proof/Machine/RegView.lean ====
section
/-! DEFINITION. What a read of a register returns (R9, R406): the stored word, with the fields that show other state put
in; and what a read consumes (R25, R235). -/

namespace Sys2Proof.Machine

/-- The number under which a master's captured stamp is kept: one for each host port, one for all contexts (R25). -/
def capIx : Master → Nat
  | .host p => p.val
  | .ctx _ => 4

/-- A master's captured stamp. -/
def State.capOf (s : State) (m : Master) : Cap := Tab.get (fun _ => Cap.zero) s.caps (capIx m)

/-- A field of a register word shown as `v`. -/
def showFld (w : Word) (f : Fld) (v : Nat) : Word := putBits w f.hi f.lo v

/-- A one-bit field shown. -/
def showBit (w : Word) (f : Fld) (b : Bool) : Word := putBits w f.hi f.lo (b2n b)

/-- The bits of `n` flags as a number. -/
def bitsOf (n : Nat) (p : Nat → Bool) : Nat := (List.range n).foldl (fun a i => a + b2n (p i) * 2 ^ i) 0

/-- CLK_STAT.CMn_STATE: 2 to 4 in a lock sequence, by the time since it started (Table 15-2). -/
def State.multState (s : State) (x : Mult) : Nat :=
  let m := s.mult x
  if m.st ≠ 2 then m.st
  else if s.stamp < m.start + pfdFine x m.n 24 then 2
  else if s.stamp < m.start + pfdFine x m.n (24 + m.settle) then 3
  else 4

/-- The CLK registers that show the multipliers. -/
def State.viewClk (s : State) (off : Nat) (w : Word) : Word :=
  if off = CLK_STAT.off then
    let w := showBit (showBit w CLK_STAT.FBO_ACTIVE s.onFbo) CLK_STAT.RADIO_STOP (s.cmr.st != 5)
    showFld (showFld w CLK_STAT.CMR_STATE (s.multState .cmr)) CLK_STAT.CMC_STATE (s.multState .cmc)
  else if off = CLK_CMn_STAT.off 0 then
    showFld (showBit w (CLK_CMn_STAT.LOCK 0) (s.cmc.st == 5)) (CLK_CMn_STAT.N 0) s.cmc.n
  else if off = CLK_CMn_STAT.off 1 then
    showFld (showBit w (CLK_CMn_STAT.LOCK 1) (s.cmr.st == 5)) (CLK_CMn_STAT.N 1) s.cmr.n
  else if off = CLK_BAND_CMn.off 0 ∧ s.searched .cmc then
    showFld (showFld w (CLK_BAND_CMn.BAND 0) s.cmc.res.1) (CLK_BAND_CMn.COUNT 0) s.cmc.res.2
  else if off = CLK_BAND_CMn.off 1 ∧ s.searched .cmr then
    showFld (showFld w (CLK_BAND_CMn.BAND 1) s.cmr.res.1) (CLK_BAND_CMn.COUNT 1) s.cmr.res.2
  else w

/-- The conditions of Idle apart from the reading access itself (R320). -/
def State.idleBut (s : State) (m : Master) : Bool :=
  match m with
  | .host _ => s.idleNow
  | .ctx k => ({ s with ctx := Tab.drop k.val s.ctx } : State).idleNow

/-- The PWR registers that show the power state and the Well. -/
def State.viewPwr (s : State) (m : Master) (off : Nat) (w : Word) : Word :=
  if off = PWR_STATE.off then
    let v := if s.pwr.st == .waking then 3 else if s.idleBut m then 1 else 0
    showFld (showBit w PWR_STATE.PEND (s.pwr.req != 0)) PWR_STATE.STATE v
  else if off = WELL_USED.off then
    showFld (showFld w WELL_USED.USED s.wellUsed) WELL_USED.PEAK (max (s.fld WELL_USED.PEAK) s.wellUsed)
  else if off = WELL_CLAIM_TAB.off then showFld w WELL_CLAIM_TAB.VALUE (s.paClaim (s.fld WELL_CLAIM_TAB.INDEX))
  else if off = WELL_QUEUE.off then
    let w := showFld w WELL_QUEUE.LEN s.well.queue.length
    let w := showBit w WELL_QUEUE.PROMO (s.well.queue.any (·.promoted))
    showFld w WELL_QUEUE.HEAD ((s.wellHead.map (·.amt)).getD 0)
  else w

/-- The write buffers of a port that are free now (R234). -/
def State.buffersFree (s : State) (n : Nat) : Nat := 2 - ((s.port n).bufs.filter (fun e => decide (s.stamp < e))).length

/-- The HPn_STAT of port `n`. -/
def State.viewHost (s : State) (off : Nat) (w : Word) : Word :=
  let n := (off - 0x3000) / 0x400
  if off = HPn_STAT.off n then
    let w := showBit (showBit w (HPn_STAT.VOID n) (s.on (HPn_ERR.VOID n))) (HPn_STAT.FBO n) s.onFbo
    let w := showBit (showFld w (HPn_STAT.WBUF n) (s.buffersFree n)) (HPn_STAT.CASC n) (s.port n).casc
    showFld w (HPn_STAT.EVPEND n) (min 255 (s.ringLen n))
  else w

/-- SEQ_CTX_STAT of context `k` (Table 13-12); a context reading its own is in flight. -/
def State.ctxStat (s : State) (m : Master) (k : Nat) : Word :=
  let c := s.cx k
  let own : Bool := match m with
    | .ctx j => j.val == k
    | .host _ => false
  let st : Nat × Nat := match c.st with
    | .free => (0, 0)
    | .ready => (if own then 2 else 1, 0)
    | .parked u => (3, match u with
      | .time => 1 | .radio => 2 | .event => 3 | .engine => 4 | .memory => 5 | .semaphore => 6 | .well => 7)
  let w := showFld 0#32 SEQ_CTX_STAT.STATE st.1
  let w := showFld (showFld w SEQ_CTX_STAT.WAIT st.2) SEQ_CTX_STAT.HANDLE c.h.toNat
  showBit w SEQ_CTX_STAT.PROMO c.promoted

/-- The SEQ registers that show contexts and semaphores. -/
def State.viewSeq (s : State) (m : Master) (off : Nat) (w : Word) : Word :=
  if SEQ_CORE_STATn.off 0 ≤ off ∧ off ≤ SEQ_CORE_STATn.off 3 then
    let n := (off - SEQ_CORE_STATn.off 0) / 4
    let w := showFld w (SEQ_CORE_STATn.BUSY n) (bitsOf 16 (fun j => (s.cx (16 * n + j)).st != .free))
    showFld w (SEQ_CORE_STATn.READY n) (bitsOf 16 (fun j => (s.cx (16 * n + j)).st == .ready))
  else if off = SEQ_CTX_STAT.off then s.ctxStat m (s.fld SEQ_CTRL.CSEL)
  else if SEQ_SEMn.off 0 ≤ off then
    let n := (off - SEQ_SEMn.off 0) / 4
    let x := s.sem n
    let w := showBit w (SEQ_SEMn.HELD n) x.owner.isSome
    showFld (showFld w (SEQ_SEMn.WAITERS n) x.wait.length) (SEQ_SEMn.OWNER n) (x.owner.getD 0x7F)
  else w

/-- The CVN registers that show the counter and the launchers. -/
def State.viewCvn (s : State) (m : Master) (off : Nat) (w : Word) : Word :=
  let c := s.capOf m
  if off = CVN_NOW_LO.off then BitVec.ofNat 32 s.tick
  else if off = CVN_NOW_HI.off then showFld 0#32 CVN_NOW_HI.TICKS_HI (c.stamp / 6000 / 2 ^ 32)
  else if off = CVN_FINE.off then
    let w := showBit (showBit 0#32 CVN_FINE.QUAL c.qual) CVN_FINE.TRIMMED c.trimmed
    showFld (showBit w CVN_FINE.XO32_SUB c.sub) CVN_FINE.FINE (c.stamp % 6000)
  else if off = CVN_LAUNCH_STAT.off then BitVec.ofNat 32 (bitsOf 32 (fun n => (s.launcher n).armed))
  else w

/-- The seed of the synthesiser that SEL names. -/
def State.viewRfa (s : State) (off : Nat) (w : Word) : Word :=
  if off = RFA_SY_DITHER.off then showFld w RFA_SY_DITHER.SEED (s.syn (synOf (s.fld RFA_SY_DITHER.SEL))).seed else w

/-- A chain by its bit. -/
def chainOf (b : Bool) : Chain := if b then .b else .a

/-- The largest span energy that CHZ_ENERGY selects (R80). -/
def State.emax (s : State) : Nat :=
  let n := s.fld CHZ_ENERGY.BLOCKS
  s.energyMax (chainOf (s.on CHZ_ENERGY.CHAIN)) (s.fld CHZ_ENERGY.BIN) (widthOf (s.fld CHZ_ENERGY.SPAN))
    (if n = 0 then 128 else n)

/-- The CHZ registers that show the Palettes, the pending list and the energy history. DEDUCED: in diversity EN_B reads as
EN_A. -/
def State.viewChz (s : State) (off : Nat) (w : Word) : Word :=
  if off = CHZ_CTRL.off then (if s.diversity then showBit w CHZ_CTRL.EN_B (s.on CHZ_CTRL.EN_A) else w)
  else if off = CHZ_BINMASK.off then
    showFld w CHZ_BINMASK.MASK (s.binMask (chainOf (s.on CHZ_BINMASK.CHAIN)) (s.fld CHZ_BINMASK.GROUP))
  else if off = CHZ_PENDING_STAT.off then showFld w CHZ_PENDING_STAT.COUNT s.waiting.length
  else if off = CHZ_ERG_STAT.off then showFld w CHZ_ERG_STAT.WPOS (s.pos % s.horizon)
  else if off = CHZ_ENERGY.off then showFld w CHZ_ENERGY.EMAX s.emax
  else w

/-- The LANE registers that show lanes, groups and recovery. -/
def State.viewLane (s : State) (off : Nat) (w : Word) : Word :=
  if LANE_STATn.off 0 ≤ off ∧ off ≤ LANE_STATn.off 3 then
    BitVec.ofNat 32 (bitsOf 32 (fun j => (s.lane (32 * ((off - LANE_STATn.off 0) / 4) + j)).isSome))
  else if off = LANE_ALLOC_CFG.off then showFld w LANE_ALLOC_CFG.GRP_GRANT (bitsOf 16 (fun g => s.holds (.group g)))
  else if off = LANE_RECOV_STAT.off then showFld w LANE_RECOV_STAT.WAIT s.reqs.length
  else w

/-- The TXP registers that show the accounts. -/
def State.viewTxp (s : State) (off : Nat) (w : Word) : Word :=
  if off = SGL_STAT.off then showFld w SGL_STAT.ACTIVE (bitsOf 8 s.acctOn)
  else if 0x9100 ≤ off ∧ off % 16 = 12 then
    let n := (off - 0x9100) / 16
    showFld w (SGL_ACCn_USED.USED n) (s.used n)
  else w

/-- The SEC registers that show the engines and the selected key slot. -/
def State.viewSec (s : State) (off : Nat) (w : Word) : Word :=
  if off = SEC_CTRL.off then
    let w := showFld w SEC_CTRL.ENG_BUSY (bitsOf 4 (fun e => (s.aesEng e).busy.isSome))
    showFld w SEC_CTRL.ENG_GRANT (bitsOf 4 (fun e => s.holds (.aes e)))
  else if off = SEC_KEY_SEL.off then
    let k := s.key (s.fld SEC_KEY_SEL.SLOT)
    showFld (showFld (showBit w SEC_KEY_SEL.PAIRWISE k.pair) SEC_KEY_SEL.CTR_ENTRY k.ctr) SEC_KEY_SEL.STATE k.st
  else w

/-- The own lease left, in whole minutes. DESIGN CHOICE: a part of a minute is dropped. -/
def State.leaseLeft (s : State) : Nat :=
  match s.ownLease with
  | some t => (t - s.stamp) / (6000 * minuteTicks)
  | none => 0

/-- The MAC, WKR, CHK, DMA, MEM and CAS registers that show their engines. -/
def State.viewEng (s : State) (off : Nat) (w : Word) : Word :=
  if off = MAC_LEASE.off then showFld w MAC_LEASE.LEFT s.leaseLeft
  else if off = WKR_STAT.off then
    showBit (showBit w WKR_STAT.LISTEN s.wkrListens) WKR_STAT.CALBUSY s.wkr.cal.isSome
  else if off / 0x1000 = 0xC then
    let e := (off - 0xC000) / 0x20
    if off = CHKn_POLY.off e then BitVec.ofNat 32 (w.toNat % 2 ^ (s.fld (CHKn_CFG.WIDTH e) + 1))
    else if off = CHKn_STAT.off e then showBit w (CHKn_STAT.BUSY e) (s.chkEng e).op.isSome
    else w
  else if off / 0x1000 = 0xD then
    let n := (off - 0xD000) / 0x20
    if off = DMAn_STAT.off n then showBit w (DMAn_STAT.BUSY n) (s.dmaCh n).busy
    else if off = DMAn_LEN.off n ∧ (s.dmaCh n).busy then
      showFld w (DMAn_LEN.LEN n) (Config.dmaLeft s.free % ((s.dmaCh n).len + 1))
    else w
  else if off = MEM_BANK_CFG.off then
    let b := s.fld MEM_BANK_CFG.SEL
    let w := showFld w MEM_BANK_CFG.SP_USED (bitsOf 8 (fun k => s.brush.used.contains (8 * b + k)))
    showFld w MEM_BANK_CFG.SP_BAD (bitsOf 8 (fun k => s.brush.bad.contains (8 * b + k)))
  else if off = MEM_WALK_STAT.off then showBit w MEM_WALK_STAT.BUSY s.brush.busy.isSome
  else w

/-- HPn_IRQ_N asserted by the device (R261); while the CK_CORE domain is down the ball is clamped (Table 16-6). -/
def State.irq (s : State) (n : Nat) : Bool :=
  s.awake && (natBits ((s.reg (HPn_IRQ_FLAG.off n)).toNat &&& (s.reg (HPn_IRQ_EN.off n)).toNat) 3 0 != 0 ||
    (s.on (HPn_IRQ_EN.PEND n) && s.ringLen n != 0))

/-- What the device drives onto HPn_IRQ_N, high or low; nothing in cascade mode (R239), and nothing for high when IRQ_OD makes it
open-drain (R261, Table 16-6). -/
def State.irqDrive (s : State) (n : Nat) : Option Bool :=
  if (s.port n).casc then none else if s.irq n then some false else if s.on (HPn_CFG.IRQ_OD n) then none else some true

/-- HPn_IRQ_N is low: driven by the device, or in cascade mode by a worker (R239), which is a free value. -/
def State.irqLow (s : State) (n : Nat) : Bool :=
  if (s.port n).casc then Config.workerIrq s.free n else s.irqDrive n == some false

/-- The CAS register that shows the cascade ports. -/
def State.viewCas (s : State) (off : Nat) (w : Word) : Word :=
  if off = CAS_STAT.off then
    showBit (showBit (showBit w CAS_STAT.BUSY s.cascBusy) CAS_STAT.IRQ3 (s.irqLow 3)) CAS_STAT.IRQ2 (s.irqLow 2)
  else w

/-- The word that a read of the register at `off` by master `m` returns now (R405, R406). -/
def State.view (s : State) (m : Master) (off : Nat) : Word :=
  let w := s.reg off
  match off / 0x1000 with
  | 1 => s.viewClk off w
  | 2 => s.viewPwr m off w
  | 3 => s.viewHost off w
  | 4 => s.viewSeq m off w
  | 5 => s.viewCvn m off w
  | 6 => s.viewRfa off w
  | 7 => s.viewChz off w
  | 8 => s.viewLane off w
  | 9 => s.viewTxp off w
  | 0xB => s.viewSec off w
  | 0x10 => s.viewCas off w
  | _ => s.viewEng off w

/-- A register read by a master: the word, the stamp captured by CVN_NOW_LO (R25), a draw for what is free. Nothing is
consumed yet. -/
def State.readReg (s : State) (m : Master) (off : Nat) : State × Word :=
  let w := s.view m off
  let s := if off = CVN_NOW_LO.off then { s with caps := Tab.set (fun _ => Cap.zero) s.caps (capIx m) s.cap } else s
  (s.draw, w)

/-- The RC fields of a register consumed (R9, R235). -/
def State.consume (s : State) (off : Nat) : State :=
  match findReg off with
  | none => s
  | some d =>
    let w := d.fields.foldl (fun w f => if f.acc == .rc then putBits w f.hi f.lo 0 else w) (s.reg off)
    s.setReg off w

/-- A whole read of a register by a master: fetched and consumed. -/
def State.readWhole (s : State) (m : Master) (off : Nat) : State × Word :=
  let r := s.readReg m off
  (r.1.consume off, r.2)

end Sys2Proof.Machine
end

