-- ==== Sys2Proof/Machine/EaselTime.lean ====
section
/-! DEFINITION. The time instructions of Easel (R288, R289). -/

namespace Sys2Proof.Machine

/-- The stamp in t_i of a context, in fine units. -/
def Ctx.stampOf (c : Ctx) (i : Nat) : Nat := wordStamp (c.rdT i).toNat

/-- The interval form: a tick count in [47:16], all other bits zero. -/
def intervalOk (w : BitVec 64) : Bool := natBits w.toNat 15 0 == 0 && natBits w.toNat 63 48 == 0

/-- D of the interval form. -/
def intervalOf (w : BitVec 64) : Nat := natBits w.toNat 47 16

/-- The encodings of TNOW: the fields its form does not use are zero. -/
def tnowOk (w : Nat) : Bool :=
  natBits w 15 0 == 0 &&
    (match natBits w 17 16 with
      | 0 => fta w == 0 && fa w == 0
      | 1 => fta w == 0
      | 2 => ftd w == 0
      | _ => false)

/-- TNOW's load of a stamp: 8-byte aligned, well formed. -/
def State.tnowLoad (s : State) (k : Fin 64) (w : Nat) (parity : ParityHit) : State :=
  let a := ((s.cx k.val).rd (fa w)).toNat
  if a % 8 ≠ 0 then s.trap k Trap.operand
  else if !spanOk a 8 then s.trap k Trap.addr
  else
    let r := s.access a 8 parity
    let v := r.1.ownNum k.val a 8
    if r.2 ≠ 0 then r.1.trap k r.2
    else if !wordStampOk v then r.1.trap k Trap.operand
    else r.1.onCtx k (fun c => c.wrT (ftd w) (BitVec.ofNat 64 v))

/-- TNOW's store of a stamp. -/
def State.tnowStore (s : State) (k : Fin 64) (w : Nat) (parity : ParityHit) : State :=
  let c := s.cx k.val
  let a := (c.rd (fa w)).toNat
  if a % 8 ≠ 0 then s.trap k Trap.operand
  else if !spanWritable a 8 then s.trap k Trap.addr
  else if s.stalls k.val then s.parkMemory k
  else s.postBytes k a (leBytes 8 (c.rdT (fta w)).toNat) parity

/-- TNOW. -/
def execOpTnow (k : Fin 64) (env : Env) (s : State) : Host.Outcome State Fault Refusal :=
  s.issue k env 0x28 (fun s w => s.coded k (tnowOk w) (
    match natBits w 17 16 with
    | 0 => s.onCtx k (fun c => { c.wrT (ftd w) (BitVec.ofNat 64 (stampWord s.stamp)) with c := s.qual })
    | 1 => s.tnowLoad k w env.parity
    | _ => s.tnowStore k w env.parity))

/-- The sum of TADD in fine units. DEDUCED: g_g is signed, as x is. -/
def Ctx.tsum (c : Ctx) (w : Nat) : Int :=
  (c.stampOf (fta w) : Int) +
    ((c.rd (fa w)).toInt + signed 16 (natBits w 15 0)) * (if w.testBit 17 then 1 else 6000)

/-- The stamps a t register can hold end before tick 2^48. -/
def stampEnd : Nat := 6000 * 2 ^ 48

/-- The result of TADD: where the sum lies outside the stamps, a free one. -/
def State.tadd (s : State) (c : Ctx) (w : Nat) : State × Nat :=
  let t := c.tsum w
  if 0 ≤ t ∧ t < stampEnd then (s, t.toNat) else (s.draw, Config.tAddOutside s.free % stampEnd)

/-- TADD. -/
def execOpTadd (k : Fin 64) (env : Env) (s : State) : Host.Outcome State Fault Refusal :=
  s.issue k env 0x29 (fun s w => s.coded k (!w.testBit 16) (
    let r := s.tadd (s.cx k.val) w
    r.1.onCtx k (fun c =>
      { c.wrT (ftd w) (BitVec.ofNat 64 (stampWord r.2)) with n := decide (r.2 < s.stamp + 16) })))

/-- TWAIT. -/
def execOpTwait (k : Fin 64) (env : Env) (s : State) : Host.Outcome State Fault Refusal :=
  s.issue k env 0x2A (fun s w => s.coded k (ftd w == 0 && fa w == 0 && fi w == 0) (
    let t := (s.cx k.val).stampOf (fta w)
    if t ≤ s.stamp then s.onCtx k (fun c => { c with c := true })
    else (s.onCtx k (fun c => { c with c := false })).park k.val .time (.twait t)))

/-- A launcher about to be armed anew by its own context: a receive window that it serves no longer reports through it. -/
def State.lnFree (s : State) (n : Nat) : State :=
  match (s.launcher n).op with
  | some id => s.dropOp id
  | none => s

/-- The encoding of TAT: with x[5] = 1 it names no launcher, and x[4:0] is unused (R274). -/
def tatOk (w : Nat) : Bool := ftd w == 0 && fa w == 0 && natBits w 17 6 == 0 && (!w.testBit 5 || natBits w 4 0 == 0)

/-- TAT. -/
def execOpTat (k : Fin 64) (env : Env) (s : State) : Host.Outcome State Fault Refusal :=
  s.issue k env 0x2B (fun s w => s.coded k (tatOk w) (
    let t := (s.cx k.val).stampOf (fta w)
    match s.lnPick (if w.testBit 5 then 0xFF else natBits w 4 0) k with
    | some (some n) =>
      let late := s.lateArm t
      let s := (s.lnFree n.val).onCtx k (fun c => { c with c := late, v := false })
      let s := s.lnArmInstr n.val t 2 k.val 0 1 k none
      if late then (s.setFld (CVN_Ln_ACT.MISSED n.val) 1).lnOff n.val
      else s.park k.val .time (.tat n)
    | _ => s.onCtx k (fun c => { c with c := false, v := true })))

/-- TGUARD. -/
def execOpTguard (k : Fin 64) (env : Env) (s : State) : Host.Outcome State Fault Refusal :=
  s.issue k env 0x2C (fun s w => s.coded k (ftd w == 0 && fi w == 0) (
    let c := s.cx k.val
    let d : Int := (s.stamp : Int) - c.stampOf (fta w)
    let g : Int := 6000 * (c.rd (fa w)).toNat
    s.onCtx k (fun x => { x with z := decide (d.natAbs ≤ g), n := decide (d < -g), c := decide (g < d) })))

/-- A partner entry as TDRIFT and TLEARN read it, PFLAGS and the model (R289): whether it is valid; one with an unusable word
counts as not valid (Table 17-3). -/
def State.modelRead (s : State) (i : Nat) (parity : ParityHit) : State × Bool :=
  let r := s.access (partner i + 8) 8 parity
  let q := r.1.access (partner i + 0x20) 20 .none
  (q.1, r.2 == 0 && q.2 == 0 && (q.1.pt i 0x0A 2).testBit 0)

/-- TDRIFT. -/
def execOpTdrift (k : Fin 64) (env : Env) (s : State) : Host.Outcome State Fault Refusal :=
  s.issue k env 0x2D (fun s w => s.coded k (fi w == 0) (
    let c := s.cx k.val
    let i := (c.rd (fa w)).toNat
    let r := s.modelRead i env.parity
    if 4096 ≤ i ∨ !intervalOk (c.rdT (fta w)) then s.trap k Trap.operand
    else if !r.2 then r.1.onCtx k (fun x => { x with z := true, v := false })
    else
      let s := r.1
      let d := intervalOf (c.rdT (fta w))
      let un := (s.pt i 0x0A 2).testBit 7 && s.on MAC_MISS_CFG.UNMOD
      s.onCtx k (fun x =>
        { (x.wrT (ftd w) (BitVec.ofNat 64 (stampWord (s.predict i d)))).wr (fa w) (BitVec.ofNat 32 (s.guardTicks i d)) with
          z := false, v := un })))

/-- The operand of TLEARN: the index in [11:0], the temperature byte in [23:16], all other bits zero. -/
def tlearnOk (g : Nat) : Bool := natBits g 15 12 == 0 && natBits g 31 24 == 0

/-- TLEARN. -/
def execOpTlearn (k : Fin 64) (env : Env) (s : State) : Host.Outcome State Fault Refusal :=
  s.issue k env 0x2E (fun s w => s.coded k (fi w == 0) (
    let c := s.cx k.val
    let g := (c.rd (fa w)).toNat
    let i := natBits g 11 0
    let r := s.modelRead i env.parity
    if !tlearnOk g ∨ !intervalOk (c.rdT (ftd w)) then s.trap k Trap.operand
    else if !r.2 then r.1.onCtx k (fun x => { x with z := true, v := false })
    else
      let q := r.1.tlearn i (c.stampOf (fta w)) (intervalOf (c.rdT (ftd w))) (natBits g 23 16)
      q.1.onCtx k (fun x => { x with z := false, v := q.2 })))

end Sys2Proof.Machine
end

