-- ==== Sys2Proof/Machine/EaselRadio.lean ====
section
/-! DEFINITION. The radio instructions of Easel (R287, R290, R291), LBT (R119), CALLTX (R133), GACK (R166). -/

namespace Sys2Proof.Machine

/-! The radio descriptor (Table 14-2). -/

/-- A radio descriptor as it lies in memory. -/
structure Desc where
  freq   : Nat
  mode   : Nat
  opts   : Nat
  level  : Nat
  pre    : Nat
  buf    : Nat
  len    : Nat
  pidx   : Nat
  key    : Nat
  lnch   : Nat
  chain  : Nat
  span   : Nat
  cword  : Nat
  cls    : Nat
  target : Nat
deriving DecidableEq, Repr

/-- The descriptor at `a`, as context `k` sees memory. -/
def State.desc (s : State) (k a : Nat) : Desc where
  freq   := s.ownNum k a 4
  mode   := s.ownNum k (a + 4) 1
  opts   := s.ownNum k (a + 5) 1
  level  := s.ownNum k (a + 6) 1
  pre    := s.ownNum k (a + 7) 1
  buf    := s.ownNum k (a + 8) 4
  len    := s.ownNum k (a + 0xC) 2
  pidx   := s.ownNum k (a + 0xE) 2
  key    := s.ownNum k (a + 0x10) 1
  lnch   := s.ownNum k (a + 0x11) 1
  chain  := s.ownNum k (a + 0x12) 1
  span   := s.ownNum k (a + 0x14) 4
  cword  := s.ownNum k (a + 0x18) 4
  cls    := s.ownNum k (a + 0x1C) 1
  target := s.ownNum k (a + 0x1E) 2

/-- RATE of MODE. -/
def Desc.rate (x : Desc) : Nat := natBits x.mode 2 0

/-- WIDTH of MODE, coded. -/
def Desc.width (x : Desc) : Nat := natBits x.mode 5 4

/-- LATE_POL of OPTS. -/
def Desc.pol (x : Desc) : Nat := natBits x.opts 5 4

/-- FREQ is 17 bits wide. -/
def Desc.freqOk (x : Desc) : Bool := decide (x.freq < 2 ^ 17)

/-- The limit of RATE for a width (Table 1-4). -/
def rateLimit (width : Nat) : Nat := if width = 0 then 1 else if width = 1 then 2 else if width = 2 then 3 else 5

/-- MODE holds no reserved value and no RATE above its width's limit. -/
def Desc.modeOk (x : Desc) : Bool := decide (x.rate ≤ rateLimit x.width) && natBits x.mode 7 6 != 3

/-- OPTS holds no reserved value. -/
def Desc.optsOk (x : Desc) : Bool := natBits x.opts 7 6 == 0 && x.pol != 3

/-- LEVEL holds no reserved value. -/
def Desc.levelOk (x : Desc) : Bool := decide (x.level ≤ 80) || x.level == 127

/-- PRE holds no reserved value. -/
def Desc.preOk (x : Desc) : Bool := x.pre == 0 || (decide (16 ≤ x.pre) && decide (x.pre ≤ 64))

/-- PIDX names an entry or none. DEDUCED: other values are reserved. -/
def Desc.pidxOk (x : Desc) : Bool := decide (x.pidx < 4096) || x.pidx == 0xFFFF

/-- LNCH names a launcher or asks for a free one; it is read when AT = 1. -/
def Desc.lnchOk (x : Desc) (at_ : Bool) : Bool := !at_ || decide (x.lnch < 32) || x.lnch == 0xFF

/-- CHAIN names a receive chain. DEDUCED: RXWIN and RSSI of CHAIN = 2 end with BAD_COMMAND. -/
def Desc.rxOk (x : Desc) : Bool := decide (x.chain < 2)

/-- The receive chain that CHAIN names. -/
def Desc.rx (x : Desc) : Chain := if x.chain = 1 then .b else .a

/-- The radio operation that a descriptor asks for. -/
def Desc.op (x : Desc) (kind : OpKind) (k : Fin 64) (d : Nat) (c : Ctx) : RadioOp :=
  { RadioOp.new kind (some k) d c.prio c.ticket with
    freq := 2 * x.freq, width := 2 ^ x.width, rate := x.rate, mod4 := x.mode.testBit 3, sset := natBits x.mode 7 6
    fec := x.opts.testBit 0, white := x.opts.testBit 1, lbt := x.opts.testBit 2, doSeal := x.opts.testBit 3, pol := x.pol
    chain := x.chain, buf := x.buf, len := x.len, pidx := x.pidx, key := x.key }

/-! What the radio instructions share. -/

/-- AT, x[2]. -/
def atBit (w : Nat) : Bool := w.testBit 2

/-- The stamp in t_TS, TS = x[1:0]. -/
def Ctx.ts (c : Ctx) (w : Nat) : Nat := c.stampOf (natBits w 1 0)

/-- The encoding of a radio instruction: x within `mask`, b g0 unless it is used. -/
def radioOk (w mask : Nat) (useB : Bool) : Bool := fx w &&& mask == fx w && (useB || fb w == 0)

/-- TS names a stamp with AT = 1 only; without it the field is unused (R274, R291). TXF uses it always, to report T. -/
def tsOk (w : Nat) : Bool := atBit w || natBits w 1 0 == 0

/-- An operation that ends at once with a radio status word. -/
def State.radioNow (s : State) (k : Fin 64) (d status extra : Nat) : State :=
  s.finish k.val d (s.radioWord status false extra)

/-- The descriptor of a radio instruction read; a refused or unusable block traps. `f` has the state before p moves. -/
def State.radio (s : State) (k : Fin 64) (w : Nat) (parity : ParityHit) (f : State → Desc → State) : State :=
  let a := ((s.cx k.val).rd (fa w)).toNat
  let r := s.block a 32 parity
  if r.2 ≠ 0 then r.1.trap k r.2 else f r.1 (r.1.desc k.val a)

/-- CMR is in the failed state: no radio operation starts (R309). -/
def State.radioDead (s : State) : Bool := s.cmr.st == 6

/-- A radio operation begun by `f`, or ended at once when its descriptor is bad or CMR has failed. -/
def State.radioGo (s : State) (k : Fin 64) (d : Nat) (ok : Bool) (f : State → State) : State :=
  let s := s.next k
  if !ok then s.radioNow k d Status.badCommand 0
  else if s.radioDead then s.radioNow k d Status.radioLost 0
  else f s

/-- The launcher that AT arms: `f` goes on with it, or with none when AT = 0; a launcher refused ends the instruction. -/
def State.withLnch (s : State) (k : Fin 64) (d : Nat) (at_ : Bool) (x : Desc) (f : Option (Fin 32) → State) : State :=
  if !at_ then f none
  else
    match s.lnPick x.lnch k with
    | some (some n) => f (some n)
    | some none => s.radioNow k d Status.badCommand 0
    | none => s.radioNow k d Status.queueFull 0

/-- A launcher armed with ACTION = RADIO for an operation (R291). What ARG reads is a free value. -/
def State.armRadio (s : State) (n : Fin 32) (t rep pol : Nat) (k : Fin 64) (id : Nat) (late : Bool) : State :=
  let s := s.lnFree n.val
  let s := s.draw.lnArmInstr n.val t 1 (Config.unmeasured s.free % 256) rep pol k (some id)
  s.setLauncher n.val { s.launcher n.val with late := late }

/-- An operation's launcher armed, when it has one. -/
def State.armOpt (s : State) (n : Option (Fin 32)) (t pol : Nat) (k : Fin 64) (id : Nat) (late : Bool) : State :=
  match n with
  | some n => s.armRadio n t 0 pol k id late
  | none => s

/-! TUNE. -/

/-- A TUNE without AT: OFF powers off; otherwise the claims are placed, and the tune follows them. -/
def State.tuneNow (s : State) (k : Fin 64) (o : RadioOp) : State :=
  let id := s.opNext
  if o.freq = 0 then
    ((s.addOp { o with phase := .lock }).park k.val .radio (.radio id)).tuneAdd o.syn ⟨0, none, o.force, some id, o.ticket⟩
  else
    let s := (s.addOp { o with phase := .claim }).park k.val .well (.radio id)
    let r := s.powerClaim o.syn o.prio o.ticket
    if !r.2 then r.1.opEnd id Status.budgetDenied 0
    else if r.1.powerHeld o.syn then r.1.tuneGo id { o with phase := .claim }
    else r.1

/-- A TUNE with AT: it waits for its launcher. -/
def State.tuneAt (s : State) (k : Fin 64) (o : RadioOp) (n : Fin 32) (t : Nat) : State :=
  let id := s.opNext
  let s := (s.addOp { o with phase := .release, at_ := true, lnch := some n, t := t }).park k.val .radio (.radio id)
  s.armRadio n t 0 o.pol k id (s.lateArm t)

/-- The conditions of TUNE (R51, R290, Table 14-3). -/
def State.tuneOk (s : State) (x : Desc) (at_ off : Bool) : Bool :=
  x.freqOk && decide (x.chain < 3) && x.lnchOk at_ && (!at_ || x.pol != 3) && (off || wordOk (wordOf2 (2 * x.freq))) &&
    !(x.chain == 1 && (s.single || s.diversity))

/-- TUNE. An operation with frequency 0 is a power-off. -/
def execOpTune (k : Fin 64) (env : Env) (s : State) : Host.Outcome State Fault Refusal :=
  s.issue k env 0x30 (fun s w => s.coded k (radioOk w 0x1F false && tsOk w) (s.radio k w env.parity (fun s x =>
    let off := w.testBit 3
    s.radioGo k (fd w) (s.tuneOk x (atBit w) off) (fun s =>
      let c := s.cx k.val
      let o := { x.op .tune k (fd w) c with freq := if off then 0 else 2 * x.freq, force := w.testBit 4 }
      s.withLnch k (fd w) (atBit w) x (fun n =>
        match n with
        | some n => s.tuneAt k o n (c.ts w)
        | none => s.tuneNow k o)))))

/-! RXWIN. -/

/-- The lowest free place of the 128-entry window table. -/
def State.winFree (s : State) : Option Nat := (List.range 128).find? (fun i => (s.win i).isNone)

/-- A window taken out of the table; an instruction that waits for it ends with ABORTED. DEDUCED. -/
def State.winDrop (s : State) (i : Nat) : State :=
  let s := { s with wins := Tab.drop i s.wins }
  s.opIds.foldl (fun s id => match s.op id with
    | some o => if o.kind == .rxwin && o.seq == i then
        (match o.lnch with
          | some n => if (s.launcher n.val).op == some id then s.lnOff n.val else s
          | none => s).opEnd id Status.aborted 0
      else s
    | none => s) s

/-- Windows of a chain with POWER that are open. -/
def State.powerOpen (s : State) (c : Chain) : Bool :=
  s.wins.any (fun p => match p.2 with
    | some y => y.isOpen && y.power && y.chain == c
    | none => false)

/-- CANCEL: every window of a partner removed; EN_n of a chain falls when an open POWER window of it went and none is left
open. DEDUCED: the removal is the window's end. -/
def State.winCancel (s : State) (pidx : Nat) : State :=
  let old := s
  let ids := s.wins.filterMap (fun p => match p.2 with
    | some y => if y.pidx = pidx then some p.1 else none
    | none => none)
  let s := ids.foldl State.winDrop s
  let left (c : Chain) : Bool := s.wins.any (fun p => match p.2 with
    | some y => y.isOpen && y.chain == c
    | none => false)
  let close (s : State) (c : Chain) : State :=
    if old.powerOpen c && !s.powerOpen c && !left c then (s.setFld (enFld c) 0).palJudge s (s.ticketNow 7) else s
  close (close s .a) .b

/-- A window placed; with AT its launcher armed, and with POWER as well its context parked. -/
def State.winAdd (s : State) (k : Fin 64) (d : Nat) (x : Desc) (o : RadioOp) (power : Bool) (n : Option (Fin 32)) (t : Nat) :
    State :=
  match s.winFree with
  | none => s.radioNow k d Status.queueFull 0
  | some i =>
    let y : RxWin := ⟨x.pidx, x.rx, x.freq, 2 ^ x.width, t, t + x.span * 6000, power, false⟩
    let s := { s with wins := Tab.set (fun _ => none) s.wins i (some y) }
    match n with
    | none => s.radioNow k d Status.ok i
    | some n =>
      let id := s.opNext
      let s := s.addOp { o with seq := i, at_ := true, lnch := some n, t := t, phase := if power then .window else .release }
      let s := if power then s.park k.val .radio (.radio id) else s.radioNow k d Status.ok i
      s.armRadio n t 0 o.pol k id (s.lateArm t)

/-- RXWIN. -/
def execOpRxwin (k : Fin 64) (env : Env) (s : State) : Host.Outcome State Fault Refusal :=
  s.issue k env 0x31 (fun s w => s.coded k (radioOk w 0x1F false && tsOk w) (s.radio k w env.parity (fun s x =>
    let ok := x.freqOk && x.modeOk && x.rxOk && x.pidxOk && x.lnchOk (atBit w) && (!atBit w || x.pol != 3)
    if w.testBit 3 then
      if ok then ((s.next k).winCancel x.pidx).radioNow k (fd w) Status.ok 0
      else (s.next k).radioNow k (fd w) Status.badCommand 0
    else s.radioGo k (fd w) ok (fun s =>
      let c := s.cx k.val
      s.withLnch k (fd w) (atBit w) x (fun n =>
        s.winAdd k (fd w) x (x.op .rxwin k (fd w) c) (w.testBit 4) n (if atBit w then c.ts w else s.stamp))))))

/-! Transmissions. -/

/-- A transmission begun (R117): added, its context parked, its launcher armed, then step 1. One whose release point has
gone by already is late (R34). -/
def State.txStart (s : State) (k : Fin 64) (o : RadioOp) (n : Option (Fin 32)) : State :=
  let id := s.opNext
  let past := o.at_ && decide (o.t - s.lead < s.stamp)
  let s := (s.addOp { o with lnch := n }).park k.val .radio (.radio id)
  if s.txRefused o.freq o.width o.air then s.opEnd id Status.badCommand 0
  else
    let s := (s.armOpt n o.t o.pol k id past).txBegin id
    match n, s.op id with
    | none, some q => if past then s.txLate id q.phase else s
    | _, _ => s

/-- The frame of a TXF within the limits of R115: MAC frame, MIC and FCS at most 511 bytes; sealing only with SEC = 1. -/
def State.txfOk (s : State) (o : RadioOp) : Bool :=
  let c := frameCtl o.frame
  decide (o.len + (if o.doSeal then micOf c else 0) + s.fcsLen o.sset ≤ 511) && (!o.doSeal || fcSec c)

/-- A member's frame to its upstream coordinator that names no stamp launches in the own cell, where the MAC timing engine
sets T (R172, Table 6-5). DEDUCED: a TXF without AT to the entry of UPIDX on the own cell's channel is such a frame (log entry
188). -/
def State.cellTimed (s : State) (o : RadioOp) : RadioOp :=
  if o.at_ || o.pidx != s.fld MAC_ROLE.UPIDX then o
  else match s.cellLaunch o.freq s.lead with
    | some t => { o with at_ := true, t := t }
    | none => o

/-- The operation of a TXF: frame, preamble, airtime, level, antenna. DESIGN CHOICE: the antenna of R50 is chosen as the
instruction issues, and stays when the partner's LANT, the chain bands or TX_DEFAULT change before the launch (log entry 180). -/
def State.txfOp (s : State) (x : Desc) (k : Fin 64) (w : Nat) : RadioOp :=
  let o := x.op .txf k (fd w) (s.cx k.val)
  let f := s.ownBytes k.val x.buf x.len
  let c := frameCtl f
  let pre := if x.pre = 0 then s.fld TXP_CTRL.PRE_LEN else x.pre
  let len := x.len + (if o.doSeal then micOf c else 0) + s.fcsLen o.sset
  s.cellTimed { o with
    frame := f, pre := pre, air := symbols pre len o.fec o.mod4 * symFine o.rate, level := s.levelOf x.level
    ts := natBits w 1 0, at_ := atBit w, t := if atBit w then (s.cx k.val).ts w else 0
    ant := s.txAnt (unicast f) x.pidx none (wordOf2 o.freq), seq := fieldAt f 2 1, wantAck := fcAr c, origin := s.stamp }

/-- The fields that TXF reads hold no reserved value. -/
def Desc.txfOk (x : Desc) (at_ : Bool) : Bool :=
  x.freqOk && x.modeOk && x.optsOk && x.levelOk && x.preOk && x.pidxOk && x.lnchOk at_

/-- TXF. -/
def execOpTxf (k : Fin 64) (env : Env) (s : State) : Host.Outcome State Fault Refusal :=
  s.issue k env 0x32 (fun s w => s.coded k (radioOk w 7 false) (s.radio k w env.parity (fun s x =>
    if !operandOk x.buf x.len 1 then s.trap k Trap.operand
    else s.radioGo k (fd w) (x.txfOk (atBit w)) (fun s =>
      let q := s.engRead x.buf x.len .none
      let s := q.1
      let o := s.txfOp x k w
      if q.2 ≠ Status.ok then s.radioNow k (fd w) q.2 0
      else s.withLnch k (fd w) (atBit w) x (fun n =>
        if s.txfOk o then s.txStart k o n
        else ((s.addOp o).park k.val .radio (.radio s.opNext)).opEnd s.opNext Status.badCommand 0)))))

/-- LBT (R119): decided at once for the present stamp, or at its stamp. -/
def execOpLbt (k : Fin 64) (env : Env) (s : State) : Host.Outcome State Fault Refusal :=
  s.issue k env 0x33 (fun s w => s.coded k (radioOk w 7 false && tsOk w) (s.radio k w env.parity (fun s x =>
    s.radioGo k (fd w) (x.freqOk && x.modeOk) (fun s =>
      let c := s.cx k.val
      let o := x.op .lbt k (fd w) c
      let id := s.opNext
      let q := s.drawListen { o with
        origin := s.stamp, at_ := atBit w, t := if atBit w then c.ts w else s.stamp
        ant := s.txAnt false 0xFFFF none (wordOf2 o.freq) }
      let s := (q.1.addOp q.2).park k.val .radio (.radio id)
      if atBit w then s else s.lbtDecide id q.2 s.stamp))))

/-- The level of an instruction whose LEVEL of 127 means a default field, and 127 there RFA_PA_LEVEL.LEVEL. -/
def State.levelVia (s : State) (level dflt : Nat) : Nat := s.levelOf (if level = 127 then dflt else level)

/-- CALLTX (R133). -/
def execOpCalltx (k : Fin 64) (env : Env) (s : State) : Host.Outcome State Fault Refusal :=
  s.issue k env 0x34 (fun s w => s.coded k (radioOk w 7 false && tsOk w) (s.radio k w env.parity (fun s x =>
    s.radioGo k (fd w) (x.freqOk && x.optsOk && x.levelOk && x.lnchOk (atBit w)) (fun s =>
      let c := s.cx k.val
      let o := { x.op .calltx k (fd w) c with
        width := 2, doSeal := false, air := s.callAir, copies := s.fld TXP_CALL_CFG.REPS
        level := s.levelVia x.level (s.fld TXP_CALL_CFG.LEVEL), at_ := atBit w, t := if atBit w then c.ts w else 0
        frame := leBytes 4 x.cword ++ leBytes 1 x.cls ++ leBytes 2 x.target
        ant := s.fld RFA_DIV_CFG.TX_DEFAULT, origin := s.stamp }
      s.withLnch k (fd w) (atBit w) x (fun n => s.txStart k o n)))))

/-! ACKW. -/

/-- The record's frame: LEN and modes of PHYHDR, frame control. -/
def State.recHdr (s : State) (k a : Nat) : Nat := s.ownNum k (a + 0x18) 2

/-- A record that ACKW serves: an OK record of a data or command frame with ack-request. -/
def State.ackwServes (s : State) (k a : Nat) : Bool :=
  let c := s.ownNum k (a + 32) 2
  s.ownNum k (a + 0xC) 1 == Status.ok && !(s.ownNum k (a + 0xD) 1).testBit 0 && (fcType c == 1 || fcType c == 3) && fcAr c

/-- The operation of an ACKW on the record at `a` (R130, R131, R291). -/
def State.ackwOp (s : State) (x : Desc) (k : Fin 64) (w a : Nat) : RadioOp :=
  let path := s.ownNum k.val (a + 0xE) 1
  let binw := s.ownNum k.val (a + 0x10) 2
  let hdr := s.recHdr k.val a
  let c := chainOf (path.testBit 1)
  let width := widthOf (natBits binw 10 9)
  let freq := (s.centre2 c (natBits binw 8 0) width).toNat
  let rate := s.detRate c
  let end_ := wordStamp (s.ownNum k.val a 8) +
    (symbols 0 (natBits hdr 15 7) (hdr.testBit 6) (natBits hdr 4 3 == 1) - 24) * symFine rate
  let pidx := s.ownNum k.val (a + 0xA) 2
  let o := s.ackOp .ackw freq width rate (natBits binw 12 11) hdr (s.ownNum k.val (a + 34) 1) (w.testBit 3)
    (RadioOp.new .ackw (some k) (fd w) (s.cx k.val).prio (s.cx k.val).ticket)
  { o with
    pol := x.pol, lbt := x.opts.testBit 2, level := s.levelVia x.level (s.fld TXP_ACK_CFG.LEVEL), at_ := true
    t := if atBit w then (s.cx k.val).ts w else end_ + usFine (s.fld TXP_TURN.TURN)
    pidx := pidx, ant := s.txAnt true pidx (some (path % 2)) (wordOf2 freq), origin := s.stamp }

/-- ACKW. -/
def execOpAckw (k : Fin 64) (env : Env) (s : State) : Host.Outcome State Fault Refusal :=
  s.issue k env 0x35 (fun s w => s.coded k (radioOk w 0xF true && tsOk w) (s.radio k w env.parity (fun s x =>
    let a := ((s.cx k.val).rd (fb w)).toNat
    let r := if operandOk a 40 8 then s.access a 40 .none else (s, Trap.operand)
    if r.2 ≠ 0 then r.1.trap k r.2
    else r.1.radioGo k (fd w) (x.optsOk && x.levelOk && x.lnchOk (atBit w) && r.1.ackwServes k.val a) (fun s =>
      s.withLnch k (fd w) (atBit w) x (fun n => s.txStart k (s.ackwOp x k w a) n)))))

/-! RSSI and GACK. -/

/-- RSSI. DEDUCED: a number of blocks outside 1 to 128 ends it with BAD_COMMAND. -/
def execOpRssi (k : Fin 64) (env : Env) (s : State) : Host.Outcome State Fault Refusal :=
  s.issue k env 0x36 (fun s w => s.coded k (radioOk w 0 true) (s.radio k w env.parity (fun s x =>
    let n := ((s.cx k.val).rd (fb w)).toNat
    let s := s.next k
    if x.freqOk && x.modeOk && x.rxOk && decide (1 ≤ n) && decide (n ≤ 128) then
      match s.span x.rx (2 * x.freq) (2 ^ x.width) with
      | some (b, m) => s.radioNow k (fd w) Status.ok (s.energyMax x.rx b m n)
      | none => s.radioNow k (fd w) Status.ok 255
    else s.radioNow k (fd w) Status.badCommand 0)))

/-- GACK arms the beacon (R162, R166): SF0, the repeating launcher, the first beacon. Beacons that run already stop first. -/
def State.gackStart (s : State) (k : Fin 64) (o : RadioOp) (n : Fin 32) (t : Nat) : State :=
  let s := s.gackStop
  let id := s.opNext
  let s := (s.addOp { o with at_ := true, lnch := some n, t := t, phase := .window }).park k.val .radio (.radio id)
  let s := { s with mac := { s.mac with sf0 := some t } }
  let s := s.armRadio n t (s.bo + 3) o.pol k id (s.lateArm t)
  s.beaconNew id n t

/-- The fields that GACK reads hold no reserved value, and its channel is one that R115 admits. -/
def State.gackOk (s : State) (x : Desc) (at_ : Bool) : Bool :=
  x.freqOk && x.modeOk && x.optsOk && x.levelOk && x.lnchOk at_ && s.on MAC_ROLE.SF_EN

/-- GACK is refused as R115 says: its channel, and MAXAIR for the shortest beacon. -/
def State.gackRefused (s : State) (x : Desc) : Bool :=
  let o := { RadioOp.new .beacon none 0 0 ⟨0, 0, 0⟩ with
    rate := x.rate, mod4 := x.mode.testBit 3, sset := natBits x.mode 7 6, fec := x.opts.testBit 0, pre := s.fld TXP_CTRL.PRE_LEN }
  s.txRefused (2 * x.freq) (2 ^ x.width) (s.beaconAir o 0 0)

/-- GACK. -/
def execOpGack (k : Fin 64) (env : Env) (s : State) : Host.Outcome State Fault Refusal :=
  s.issue k env 0x37 (fun s w => s.coded k (radioOk w 0xF false && tsOk w) (s.radio k w env.parity (fun s x =>
    if w.testBit 3 then
      let s := s.next k
      if s.gackOk x (atBit w) then s.gackStop.radioNow k (fd w) Status.ok 0
      else s.radioNow k (fd w) Status.badCommand 0
    else s.radioGo k (fd w) (atBit w && s.gackOk x true && !s.gackRefused x) (fun s =>
      let c := s.cx k.val
      let o := { x.op .gack k (fd w) c with
        level := s.levelOf x.level, pidx := 0xFFFF, doSeal := false
        ant := s.txAnt false 0xFFFF none (wordOf2 (2 * x.freq)), origin := s.stamp }
      s.withLnch k (fd w) true x (fun n =>
        match n with
        | some n => s.gackStart k o n (c.ts w)
        | none => s)))))

end Sys2Proof.Machine
end

