-- ==== Sys2Proof/Machine/EaselEngine.lean ====
section
/-! DEFINITION. The engine instructions of Easel: MOVE, SEAL, OPEN, CHK (R294–R296). -/

namespace Sys2Proof.Machine

/-! What the functions of MOVE and SYS share. -/

/-- The function in x[5:0]. -/
def fnOf (w : Nat) : Nat := natBits w 5 0

/-- The functions of MOVE (Table 14-6). -/
def moveFns : List Nat := [0x00, 0x08, 0x09, 0x0A, 0x0B, 0x10]

/-- The functions of SYS (Table 14-4). -/
def sysFns : List Nat := [0x00, 0x01, 0x02, 0x10, 0x20, 0x21, 0x30]

/-- One function of an op that has several issues; a function code that is none of them traps with ENCODING (R287). -/
def State.function (s : State) (k : Fin 64) (env : Env) (op : Nat) (fns : List Nat) (fn : Nat) (f : State → Nat → State) :
    Host.Outcome State Fault Refusal :=
  s.issueFn k env op (fun w => fnOf w == fn || !fns.contains (fnOf w))
    (fun s w => s.coded k (fnOf w == fn) (f s w))

/-- g_a. -/
def State.ga (s : State) (k : Fin 64) (w : Nat) : Nat := ((s.cx k.val).rd (fa w)).toNat

/-- g_b. -/
def State.gb (s : State) (k : Fin 64) (w : Nat) : Nat := ((s.cx k.val).rd (fb w)).toNat

/-- g_d. -/
def State.gd (s : State) (k : Fin 64) (w : Nat) : Nat := ((s.cx k.val).rd (fd w)).toNat

/-- An operand test: the instruction goes on, or traps with OPERAND (R287). -/
def State.operand (s : State) (k : Fin 64) (ok : Bool) (t : State) : State := if ok then t else s.trap k Trap.operand

/-- A parameter block of `n` bytes at g_a read; `f` has the state before p moves and the block's address. -/
def State.param (s : State) (k : Fin 64) (w n : Nat) (parity : ParityHit) (f : State → Nat → State) : State :=
  let a := s.ga k w
  let r := s.block a n parity
  if r.2 ≠ 0 then r.1.trap k r.2 else f r.1 a

/-! Operations with W and a tag (R294). -/

/-- W. -/
def waitBit (w : Nat) : Bool := w.testBit 13

/-- TAG. -/
def tagOf (w : Nat) : Nat := natBits w 12 10

/-- A tag is used with W = 0 only (R274, R294). -/
def tagOk (w : Nat) : Bool := !waitBit w || tagOf w == 0

/-- A fifth operation with W = 0 parks until one has ended, and is issued again then; otherwise `f` goes on, p advanced. -/
def State.room (s : State) (k : Fin 64) (w : Nat) (f : State → State) : State :=
  if !waitBit w && decide (4 ≤ (s.cx k.val).out) then s.park k.val .engine .retry else f (s.next k)

/-- An operation queued, its number the state's engNext: the context parks (W = 1), or takes the status OK at once. -/
def State.engStart (s : State) (k : Fin 64) (w : Nat) (kind : EngKind) : State :=
  let c := s.cx k.val
  let id := s.engNext
  let s := s.addEng (.new kind (some k) (fd w) (waitBit w) (tagOf w) c.prio c.ticket)
  if waitBit w then s.park k.val .engine (.engine id)
  else (s.setCx k.val { s.cx k.val with out := (s.cx k.val).out + 1 }).finish k.val (fd w) Status.ok

/-- An AES operation queued, with the claim it may need (R155), on which the context waits with W = 1 (R293); one that can never
be granted ends with BUDGET_DENIED. -/
def State.aesStart (s : State) (k : Fin 64) (w : Nat) (kind : EngKind) : State :=
  let c := s.cx k.val
  let id := s.engNext
  let s0 := s
  let s := s.engStart k w kind
  let r := s.aesClaim c.prio c.ticket
  if r.2 then
    (if waitBit w && r.1.well.queue.length != s.well.queue.length then r.1.park k.val .well (.engine id) else r.1)
  else
    let s := (r.1.dropEng id).setCx k.val { r.1.cx k.val with out := (s0.cx k.val).out }
    s.finish k.val (fd w) Status.budgetDenied

/-! MOVE. -/

/-- COPY on channel x[9:6] (R295, R298). DESIGN CHOICE: a length of 2^20 or more is refused as an operand. -/
def State.copy (s : State) (k : Fin 64) (w : Nat) : State :=
  let ch := natBits w 9 6
  let src := s.ga k w
  let dst := s.gb k w
  let n := s.gd k w
  s.operand k (operandOk src n 1 && operandOk dst n 1 && decide (n < 2 ^ 20)) (s.visible k (s.room k w (fun s =>
    if (s.dmaCh ch).busy then s.finish k.val (fd w) Status.queueFull
    else
      let s := (s.setReg (DMAn_SRC.off ch) (BitVec.ofNat 32 src)).setReg (DMAn_DST.off ch) (BitVec.ofNat 32 dst)
      let s := (s.setFld (DMAn_LEN.LEN ch) n).setFld (DMAn_CFG.FILL ch) 0
      let id := s.engNext
      ((s.drain k.val).engStart k w (.copy ch)).dmaStart ch k.val (some id))))

/-- COPY. -/
def execOpCopy (k : Fin 64) (env : Env) (s : State) : Host.Outcome State Fault Refusal :=
  s.function k env 0x38 moveFns 0x00 (fun s w => s.coded k (tagOk w) (s.copy k w))

/-- FRAG (R208): the block, the message and the buffer tested, then the fragment. -/
def State.fragOp (s : State) (k : Fin 64) (w : Nat) (parity : ParityHit) : State :=
  s.param k w 16 parity (fun s a =>
    let msg := s.ownNum k.val a 4
    let len := s.ownNum k.val (a + 4) 2
    let fsz := s.ownNum k.val (a + 6) 1
    let i := s.ownNum k.val (a + 9) 1
    let out := if s.fragOk len fsz i then (if i = 0 then 5 else 3) + min (16 * fsz) (len + 4 - i * (16 * fsz)) else 1
    s.operand k (operandOk msg len 1 && targetOk (s.gb k w) out 1)
      (s.visible k (((s.drain k.val).next k).fragIssue k (fd w) msg len fsz (s.ownNum k.val (a + 7) 1)
        (s.ownNum k.val (a + 8) 1 % 4) i (s.gb k w))))

/-- FRAG. -/
def execOpFrag (k : Fin 64) (env : Env) (s : State) : Host.Outcome State Fault Refusal :=
  s.function k env 0x38 moveFns 0x08 (fun s w => s.coded k (natBits w 13 6 == 0) (s.fragOp k w env.parity))

/-- ABSORB (R213): its ticket is the STAMP of the frame record. -/
def execOpAbsorb (k : Fin 64) (env : Env) (s : State) : Host.Outcome State Fault Refusal :=
  s.function k env 0x38 moveFns 0x09 (fun s w => s.coded k (natBits w 13 6 == 0 && fb w == 0) (
    s.param k w 24 env.parity (fun s a =>
      let addr := s.ownNum k.val a 4
      let len := s.ownNum k.val (a + 4) 2
      s.operand k (operandOk addr len 1)
        (s.visible k (((s.drain k.val).next k).absorbIssue k (fd w) addr len (s.ownNum k.val (a + 6) 2)
          (s.ownNum k.val (a + 8) 1) ⟨wordStamp (s.ownNum k.val (a + 0x10) 8), 6, 0⟩ .none)))))

/-- RELEASE (R216). -/
def execOpRelease (k : Fin 64) (env : Env) (s : State) : Host.Outcome State Fault Refusal :=
  s.function k env 0x38 moveFns 0x0A (fun s w => s.coded k (natBits w 13 6 == 0 && fb w == 0) (
    let r := (s.next k).msgRelease (s.ga k w)
    r.1.finish k.val (fd w) (if r.2 then Status.ok else Status.badCommand)))

/-- TOPEN (R222). -/
def execOpTopen (k : Fin 64) (env : Env) (s : State) : Host.Outcome State Fault Refusal :=
  s.function k env 0x38 moveFns 0x0B (fun s w => s.coded k (natBits w 13 6 == 0 && fb w == 0) (
    s.param k w 16 env.parity (fun s a =>
      let r := (s.next k).txnOpen (s.ownNum k.val a 2) (s.ownNum k.val (a + 2) 1) (s.ownNum k.val (a + 3) 1)
        (s.ownNum k.val (a + 4) 4) (s.ownNum k.val (a + 8) 1)
      r.1.finish k.val (fd w) r.2)))

/-- The number of entries that FIND searches; ENTRIES = 0 stands for 4096. -/
def State.entries (s : State) : Nat := if s.fld MAC_PTAB_BASE.ENTRIES = 0 then 4096 else s.fld MAC_PTAB_BASE.ENTRIES

/-- The lowest valid entry whose short or long address is `v`, or 0xFFFF. -/
def State.findEntry (s : State) (long : Bool) (v : Nat) : Nat :=
  ((List.range s.entries).find? (fun i =>
    s.partnerValid i && (if long then s.pt i 0 8 == v else s.pt i 8 2 == v))).getD 0xFFFF

/-- FIND parks until its end, which reports the index (R294, R295). -/
def State.findPark (s : State) (k : Fin 64) (d i : Nat) : State :=
  (s.next k).parkEng k d (.report (i * 2 ^ 16)) (s.cx k.val).ticket

/-- FIND (R295): it parks, with the index that it found to report. -/
def execOpFind (k : Fin 64) (env : Env) (s : State) : Host.Outcome State Fault Refusal :=
  s.function k env 0x38 moveFns 0x10 (fun s w => s.coded k (natBits w 13 7 == 0 && fb w == 0) (
    let a := s.ga k w
    if w.testBit 6 then
      s.operand k (operandOk a 8 1) (
        let r := s.access a 8 env.parity
        if r.2 ≠ 0 then r.1.trap k r.2
        else r.1.findPark k (fd w) (r.1.findEntry true (r.1.ownNum k.val a 8)))
    else s.findPark k (fd w) (s.findEntry false (a % 2 ^ 16))))

/-! SEAL, OPEN, CHK. -/

/-- The encoding of SEAL, OPEN and CHK: the bits of x outside `mask` are zero. -/
def engOk (w mask : Nat) : Bool := fx w &&& mask == fx w && tagOk w

/-- SEAL: the operands tested, then the frame queued. -/
def State.sealOp (s : State) (k : Fin 64) (w : Nat) (parity : ParityHit) : State :=
  s.radio k w parity (fun s x =>
    let c := s.ownNum k.val x.buf 2
    s.operand k (operandOk x.buf x.len 1 && targetOk (s.gb k w) (x.len + micOf c) 1) (
      if !fcSec c || !x.pidxOk then (s.next k).finish k.val (fd w) Status.badCommand
      else
        let dst := s.gb k w
        s.visible k (s.room k w (fun s => (s.drain k.val).aesStart k w (.seal x.buf x.len x.pidx x.key dst)))))

/-- SEAL. -/
def execOpSeal (k : Fin 64) (env : Env) (s : State) : Host.Outcome State Fault Refusal :=
  s.issue k env 0x39 (fun s w => s.coded k (engOk w 0x3C00) (s.sealOp k w env.parity))

/-- The bytes of plaintext that OPEN of a record may write. -/
def State.openSpan (s : State) (a : Nat) : Nat :=
  let c := s.num (a + 32) 2
  s.recFrameLen a - hdrLen c - micOf c

/-- OPEN: the operands tested, then the record queued. -/
def State.openOp (s : State) (k : Fin 64) (w : Nat) (parity : ParityHit) : State :=
  let a := s.ga k w
  let dst := s.gb k w
  let s0 := s
  let s := s.drain k.val
  s0.visible k (s0.operand k (operandOk a 40 8 && operandOk a (32 + s.recFrameLen a) 8 && targetOk dst (s.openSpan a) 1) (
    let r := s.access a 32 parity
    let s := r.1
    if r.2 ≠ 0 then s.trap k r.2
    else if s.num (a + 0xC) 1 ≠ Status.ok ∨ (s.num (a + 0xD) 1).testBit 0 ∨ fcType (s.num (a + 32) 2) = 2 then
      (s.next k).finish k.val (fd w) Status.badCommand
    else
      let pidx := if w.testBit 4 then s.gd k w % 4096 else s.num (a + 0xA) 2
      s.room k w (fun s => s.aesStart k w (.opn a dst pidx))))

/-- OPEN. -/
def execOpOpen (k : Fin 64) (env : Env) (s : State) : Host.Outcome State Fault Refusal :=
  s.issue k env 0x3A (fun s w => s.coded k (engOk w 0x3C10) (s.openOp k w env.parity))

/-- CHK: a lent engine ends it with BAD_COMMAND and V := 1 (R218, R296). -/
def State.chkOp (s : State) (k : Fin 64) (w : Nat) : State :=
  let e := natBits w 2 0
  let a := s.ga k w
  let n := s.gb k w
  s.operand k (operandOk a n 1) (s.visible k (s.room k w (fun s =>
    if s.lent e then
      let s := s.finish k.val (fd w) Status.badCommand
      s.setCx k.val { s.cx k.val with v := true }
    else ((s.drain k.val).engStart k w (.chk e a n (w.testBit 3) (w.testBit 4))).chkTake e)))

/-- CHK. -/
def execOpChk (k : Fin 64) (env : Env) (s : State) : Host.Outcome State Fault Refusal :=
  s.issue k env 0x3B (fun s w => s.coded k (engOk w 0x3C1F) (s.chkOp k w))

end Sys2Proof.Machine
end

