-- ==== Sys2Proof/Machine/RegWrite.lean ====
section
/-! DEFINITION. Register writes (R9–R11, R19, R28, R403, R407): the words that one commit brings to a register block are
judged together on the state before it, then stored under the access codes, then what they set going happens in ascending
address order. -/

namespace Sys2Proof.Machine

/-! Judging one word. -/

/-- The encoding is not reserved (R11). -/
def FieldDef.takes (f : FieldDef) (v : Nat) : Bool := f.ok.isEmpty || f.ok.any (fun p => decide (p.1 ≤ v) && decide (v ≤ p.2))

/-- One field written under its access code (R9, R11); what W1S and WO fields do is not stored here. -/
def FieldDef.write (f : FieldDef) (w r : Word) : Word :=
  let v := getBits w f.hi f.lo
  match f.acc with
  | .rw => if f.takes v then putBits r f.hi f.lo v else r
  | .w1c => if v = 1 then putBits r f.hi f.lo 0 else r
  | .ro | .wo | .w1s | .rc => r

/-- The word with some RW fields put back to their present values: a write of these has no effect. -/
def State.keep (s : State) (off : Nat) (fs : List Fld) (w : Word) : Word :=
  fs.foldl (fun w f => showFld w f (getBits (s.reg off) f.hi f.lo)) w

/-- The value that a commit gives a register, or its present one. -/
def State.given (s : State) (l : List (Nat × Word)) (off : Nat) : Nat :=
  match l.find? (fun p => p.1 == off) with
  | some p => p.2.toNat
  | none => (s.reg off).toNat

/-- BASE and SIZE of the frame ring are taken together (R113). -/
def State.framePairOk (s : State) (l : List (Nat × Word)) : Bool :=
  let b := s.given l LANE_RING_BASE.off
  let n := s.given l LANE_RING_SIZE.off % 2 ^ 21
  b % 64 == 0 && n % 64 == 0 && decide (0x100000 ≤ b) && decide (1024 ≤ n) && decide (n ≤ 0x100000) &&
    decide (b + n ≤ 0x200000)

/-- BASE and SIZE of an event ring are taken together (R260). -/
def State.eventPairOk (s : State) (n : Nat) (l : List (Nat × Word)) : Bool :=
  let b := s.given l (HPn_RING_BASE.off n)
  let z := s.given l (HPn_RING_SIZE.off n) % 2 ^ 17
  b % 16 == 0 && z % 16 == 0 && decide (0x200000 ≤ b) && decide (256 ≤ z) && decide (z ≤ 0x10000) &&
    decide (b + z ≤ 0x300000)

/-- A TAIL within the span from the present TAIL to HEAD, on a record boundary (R259, Table 12-10). -/
def State.eventTailOk (s : State) (n v : Nat) : Bool :=
  let z := s.fld (HPn_RING_SIZE.SIZE n)
  let t := s.fld (HPn_RING_TAIL.TAIL n)
  v % 16 == 0 && decide (v < z) && decide ((v + z - t) % z ≤ 16 * s.ringLen n)

/-- A chain's half of CHZ_DET_CFG judged as a whole (R72). DEDUCED: a RATE of 6 or 7 keeps the present one first. -/
def detHalf (old new : Nat) : Nat :=
  let rate := if 6 ≤ natBits new 13 11 then natBits old 13 11 else natBits new 13 11
  let w := natBits new 15 14
  let top := if w = 0 then 1 else if w = 1 then 2 else if w = 2 then 3 else 5
  if widthOf w ≤ natBits new 6 4 ∨ top < rate then old
  else natBits new 15 14 * 2 ^ 14 + rate * 2 ^ 11 + new % 2 ^ 11

/-- A role (R189): 1 coordinator, 2 member, 3 both. -/
def hasRole (w : Nat) (b : Nat) : Bool := (natBits w 27 26).testBit b || (natBits w 29 28).testBit b

/-- MAC_ROLE judged (R189). DEDUCED: a run bit without a chain of its role and both roles keep their present values. -/
def State.gateRole (s : State) (w : Word) : Word :=
  let bad (v : Word) : Bool × Bool := (bit v 31 && !hasRole v.toNat 0, bit v 30 && !hasRole v.toNat 1)
  let b := bad w
  if b.1 || b.2 then
    let w := s.keep MAC_ROLE.off ([MAC_ROLE.ROLE_A, MAC_ROLE.ROLE_B] ++ (if b.1 then [MAC_ROLE.SF_EN] else []) ++
      (if b.2 then [MAC_ROLE.MB_EN] else [])) w
    let c := bad w
    s.keep MAC_ROLE.off ((if c.1 then [MAC_ROLE.SF_EN] else []) ++ (if c.2 then [MAC_ROLE.MB_EN] else [])) w
  else w

/-- The MAC registers' fields that a write does not reach (R163, R165, R189); NEXT is judged by R186 on its own. -/
def State.gateMac (s : State) (off : Nat) (w : Word) : Word :=
  let run := s.on MAC_ROLE.SF_EN
  if off = MAC_ROLE.off then s.gateRole w
  else if off = MAC_NETID.off then (if run then s.keep off [MAC_NETID.SEED] w else w)
  else if off = MAC_PLAN.off then (if run then s.reg off else w)
  else if off = MAC_SF_CFG.off then
    let w := s.keep off [MAC_SF_CFG.NEXT] w
    let first := getBits w 8 4
    let count := getBits w 13 9
    if run then s.keep off [MAC_SF_CFG.BO, MAC_SF_CFG.CFIRST, MAC_SF_CFG.CCOUNT, MAC_SF_CFG.HASH] w
    else if (first = 0 ∧ 0 < count) ∨ 32 < first + count then s.keep off [MAC_SF_CFG.CFIRST, MAC_SF_CFG.CCOUNT] w
    else w
  else w

/-- The RFA registers' fields that a write does not reach (R47, R48, R52). -/
def State.gateRfa (s : State) (off : Nat) (w : Word) : Word :=
  if off = RFA_CHAIN_CFG.off then (if s.chainOn .a || s.chainOn .b then s.keep off [RFA_CHAIN_CFG.ARR] w else w)
  else if off = RFA_SYn_FREQ.off 0 then (if s.synOn .sya then s.reg off else w)
  else if off = RFA_SYn_FREQ.off 1 then (if s.synOn .syb || s.diversity then s.reg off else w)
  else if off = RFA_SYn_FREQ.off 2 then (if s.synOn .syt then s.reg off else w)
  else if off = RFA_SY_DITHER.off then s.keep off [RFA_SY_DITHER.SEED] w
  else w

/-- The CHZ registers' fields that a write does not reach (R71, R72). -/
def State.gateChz (s : State) (off : Nat) (w : Word) : Word :=
  if off = CHZ_WINn.off 0 then (if s.chainOn .a then s.reg off else w)
  else if off = CHZ_WINn.off 1 then (if s.chainOn .b || s.diversity then s.reg off else w)
  else if off = CHZ_BINMASK.off then s.keep off [CHZ_BINMASK.MASK] w
  else if off = CHZ_DET_CFG.off then
    let r := (s.reg off).toNat
    BitVec.ofNat 32 (detHalf (r / 2 ^ 16) (w.toNat / 2 ^ 16) * 2 ^ 16 + detHalf (r % 2 ^ 16) (w.toNat % 2 ^ 16))
  else w

/-- The LANE registers' fields that a write does not reach (R113, Table 5-9). -/
def State.gateLane (s : State) (l : List (Nat × Word)) (off : Nat) (w : Word) : Word :=
  let en := s.on LANE_CTRL.EN
  if off = LANE_RECOV_CFG.off then (if en then s.keep off [LANE_RECOV_CFG.RBASE] w else w)
  else if off = LANE_RING_BASE.off ∨ off = LANE_RING_SIZE.off then (if en || !s.framePairOk l then s.reg off else w)
  else if off = LANE_RING_TAIL.off then
    let v := w.toNat % 2 ^ 20
    if v % 8 ≠ 0 ∨ s.fld LANE_RING_SIZE.SIZE ≤ v then s.reg off else w
  else w

/-- The HOST registers' fields that a write does not reach (R239, R259, R260). -/
def State.gateHost (s : State) (l : List (Nat × Word)) (off : Nat) (w : Word) : Word :=
  let n := (off - 0x3000) / 0x400
  if off = HPn_CASC_CFG.off n then (if n < 2 then s.keep off [HPn_CASC_CFG.EN n] w else w)
  else if off = HPn_RING_BASE.off n ∨ off = HPn_RING_SIZE.off n then (if s.eventPairOk n l then w else s.reg off)
  else if off = HPn_RING_TAIL.off n then (if s.eventTailOk n (w.toNat % 2 ^ 16) then w else s.reg off)
  else w

/-- A host write or an RPUT that would arm a launcher armed with RADIO is ignored (R32). -/
def State.armIgnored (s : State) (n : Nat) (w : Word) : Bool :=
  (s.launcher n).armed && (s.launcher n).action == 1 && bit w 30 && !bit w 29

/-- The CVN registers' fields that a write does not reach (R32, Tables 2-3 and 2-4). -/
def State.gateCvn (s : State) (off : Nat) (w : Word) : Word :=
  if off = CVN_RATE_TRIM.off then (if s.on CVN_CFG.SELF_EN || s.lineOwns then s.reg off else w)
  else if 0x5100 ≤ off ∧ off % 16 = 8 then
    let n := (off - 0x5100) / 16
    if s.armIgnored n w then s.reg off
    else if 4 ≤ n then s.keep off [CVN_Ln_ACT.KEEP n] w
    else w
  else w

/-- WIDTH of check engine `e` as the commit of words `l` leaves it: the words of one block act together (R233). -/
def State.widthAfter (s : State) (l : List (Nat × Word)) (e : Nat) : Nat :=
  match l.find? (fun p => p.1 == CHKn_CFG.off e), (s.chkEng e).op with
  | some p, none => getBits p.2 (CHKn_CFG.WIDTH e).hi (CHKn_CFG.WIDTH e).lo
  | _, _ => s.fld (CHKn_CFG.WIDTH e)

/-- The CHK, DMA, PWR and SEC registers' fields that a write does not reach (R218, R219, Tables 7-11, 10-8, 14-6). -/
def State.gateEng (s : State) (l : List (Nat × Word)) (off : Nat) (w : Word) : Word :=
  if off = WELL_CLAIM_TAB.off then s.keep off [WELL_CLAIM_TAB.VALUE] w
  else if off = SEC_KEY_SEL.off then s.keep off [SEC_KEY_SEL.PAIRWISE, SEC_KEY_SEL.CTR_ENTRY] w
  else if off / 0x1000 = 0xC then
    let e := (off - 0xC000) / 0x20
    let busy := (s.chkEng e).op.isSome
    if off = CHKn_CFG.off e then (if busy then s.keep off [CHKn_CFG.MSG e] w else w)
    else if off = CHKn_VALUE.off e then (if busy then s.reg off else w)
    else if off = CHKn_POLY.off e then BitVec.ofNat 32 (w.toNat % 2 ^ (s.widthAfter l e + 1))
    else w
  else if off / 0x1000 = 0xD then
    let n := (off - 0xD000) / 0x20
    if off = DMAn_LEN.off n ∧ (s.dmaCh n).busy then s.reg off else w
  else w

/-- A word with every field that its register's owner shuts out put back. -/
def State.gate (s : State) (l : List (Nat × Word)) (off : Nat) (w : Word) : Word :=
  match off / 0x1000 with
  | 3 => s.gateHost l off w
  | 5 => s.gateCvn off w
  | 6 => s.gateRfa off w
  | 7 => s.gateChz off w
  | 8 => s.gateLane l off w
  | 0xA => s.gateMac off w
  | _ => s.gateEng l off w

/-- The protected fields of a register (R403); WELL_CLAIM_TAB is protected for writes with WR = 1. -/
def protectedFields (off : Nat) (w : Word) : List FieldDef :=
  let all := match findReg off with
    | some d => d.fields
    | none => []
  if off / 0x1000 = 1 then all
  else if off = RFA_PA_LEVEL.off then all.filter (fun f => f.hi == RFA_PA_LEVEL.CAP.hi)
  else if 0x9100 ≤ off ∧ off < 0x9180 ∧ off % 16 ≠ 12 then all
  else if off = SGL_STAT.off then all
  else if off = WELL_CLAIM_TAB.off ∧ bit w 31 then all
  else []

/-- A write of `w` would change the field (R403). -/
def FieldDef.changes (f : FieldDef) (w r : Word) : Bool :=
  let v := getBits w f.hi f.lo
  match f.acc with
  | .rw => f.takes v && v != getBits r f.hi f.lo
  | .wo | .w1s | .w1c => v != 0
  | .ro | .rc => false

/-- A protected field put back: an RW field to its present value, any other to zero. -/
def FieldDef.shield (f : FieldDef) (r w : Word) : Word :=
  putBits w f.hi f.lo (if f.acc == .rw then getBits r f.hi f.lo else 0)

/-- A write that SYS_LOCK turns away in part (R403). -/
def State.denied (s : State) (off : Nat) (w : Word) : Bool :=
  s.on SYS_LOCK.LOCK && (protectedFields off w).any (fun f => f.changes w (s.reg off))

/-- A word with the protected fields put back (R403). -/
def State.shield (s : State) (off : Nat) (w : Word) : Word :=
  if s.on SYS_LOCK.LOCK then (protectedFields off w).foldl (fun w f => f.shield (s.reg off) w) w else w

/-- The word that a register holds after a write, before anything the write sets going. -/
def State.stored (s : State) (l : List (Nat × Word)) (off : Nat) (w : Word) : Word :=
  match findReg off with
  | some d => d.fields.foldl (fun r f => f.write (s.gate l off w) r) (s.reg off)
  | none => s.reg off

/-! What a write sets going, block by block. `old` is the state before the commit. -/

/-- SYS_LOCK and SYS_SOFTRESET: soft resets before step 3 of Table 18-7 make one (R370, R371, R403). -/
def State.effSys (s : State) (off : Nat) (w : Word) : State :=
  if off = SYS_LOCK.off ∧ bit w 0 ∧ getBits w 31 16 = 0x3C3C then s.setFld SYS_LOCK.LOCK 1
  else if off = SYS_SOFTRESET.off ∧ bit w 0 ∧ getBits w 31 16 = 0x5AA5 then (if s.resetting then s else s.softReset)
  else s

/-- CLK_CTRL and CLK_TCXO_CFG (R302, R312). -/
def State.effClk (s old : State) (off : Nat) (w : Word) : State :=
  if off = CLK_CTRL.off then
    let s := if s.on CLK_CTRL.CORE_BYP != old.on CLK_CTRL.CORE_BYP then s.coreBypChanged else s
    let s := if s.on CLK_CTRL.CMR_EN != old.on CLK_CTRL.CMR_EN then s.cmrJudge else s
    let s := if bit w 2 then s.relock .cmc else s
    if bit w 3 then s.relock .cmr else s
  else if off = CLK_TCXO_CFG.off ∧ s.fld CLK_TCXO_CFG.MODE ≠ old.fld CLK_TCXO_CFG.MODE then s.cmrJudge
  else s

/-- A sleep request placed, replaced or withdrawn (R322). -/
def State.powerRequest (s : State) (w : Word) : State :=
  let op := getBits w 31 30
  let cancel := bit w 29
  if cancel && op != 0 then s
  else if cancel then { s with pwr := { s.pwr with req := 0 } }
  else if op = 0 ∨ (op = 3 ∧ getBits w 23 16 ≠ 0x0F) then s
  else { s with pwr := { s.pwr with req := op, reqAt := s.stamp } }

/-- A queued claim denied (R336): its operation ends with BUDGET_DENIED (R123, R293). -/
def State.denyClaim (s : State) (c : Claim) : State :=
  let s := ({ s with well := { s.well with queue := s.well.queue.erase c } } : State).deny
  let waiters (p : RadioOp → Bool) : List Nat := s.opIds.filter (fun i => match s.op i with
    | some o => o.phase == .claim && p o
    | none => false)
  let drop (s : State) (ids : List Nat) : State := ids.foldl (fun s i => match s.op i with
    | some o => if o.kind == .tune then s.opEnd i Status.budgetDenied 0 else s.txEnd i Status.budgetDenied 0
    | none => s) s
  match c.who with
  | .chain h => drop s (waiters (fun o => (s.powerNeeds o.syn).any (fun z => z.1 == chainSyn h)))
  | .txBase => drop s (waiters (fun o => o.syn == .syt))
  | .pa id => s.txEnd id Status.budgetDenied 0
  | .budg k => match (s.cx k.val).susp with
    | .budg d => s.finish k.val d Status.budgetDenied
    | _ => s
  | .aes _ => match s.aesQueue.find? (fun p => p.2.ticket == c.ticket) with
    | some (i, o) => match o.kind with
      | .txSeal t => (s.dropEng i).txEnd t Status.budgetDenied 0
      | _ => s.engEnd i o Status.budgetDenied
    | none => s
  | .chzr _ | .erg | .group _ => s

/-- WELL_BUDGET lowered: queued claims that can no longer be granted are denied (R336, R337). -/
def State.budgetJudge (s : State) : State :=
  s.well.queue.foldl (fun s c => if s.well.queue.contains c && s.neverFits c.amt then s.denyClaim c else s) s

/-- The PWR registers (R322, R334, R337, R338). -/
def State.effPwr (s : State) (off : Nat) (w : Word) : State :=
  if off = PWR_REQ.off then
    let s := s.powerRequest w
    if s.on PWR_REQ.IDLE_EN then s else s.leaveIdle
  else if off = WELL_BUDGET.off then s.budgetJudge
  else if off = WELL_USED.off ∧ bit w 31 then s.setFld WELL_USED.PEAK s.wellUsed
  else if off = WELL_CLAIM_TAB.off ∧ bit w 31 ∧ getBits w 11 0 ≤ 2046 then
    { s with well := { s.well with
      tab := Tab.set paClaimReset s.well.tab (s.fld WELL_CLAIM_TAB.INDEX) (getBits w 11 0) } }
  else s

/-- The HOST registers (R239, R260). -/
def State.effHost (s old : State) (l : List (Nat × Word)) (off : Nat) : State :=
  let n := (off - 0x3000) / 0x400
  if off = HPn_CASC_CFG.off n then
    let s := if (s.casc n).isEmpty then s.cascJudge n else s
    (List.range 8).foldl (fun s i => if s.awake then s.applyPin (8 + i) else s) s
  else if off = HPn_RING_BASE.off n ∨ off = HPn_RING_SIZE.off n then (if old.eventPairOk n l then s.ringReset n else s)
  else s

/-- SEQ_SEMn TAKE and FREE by a host port (R285); both together are a reserved encoding (R286). DEDUCED: an RPUT, which no
port makes, takes and frees nothing. -/
def State.effSeq (s : State) (m : Master) (off : Nat) (w : Word) : State :=
  if SEQ_SEMn.off 0 ≤ off then
    let n := (off - SEQ_SEMn.off 0) / 4
    match m with
    | .ctx _ => s
    | .host p =>
      let x := s.sem n
      if bit w 30 && bit w 29 then s
      else if bit w 30 then
        (if x.owner.isNone && x.wait.isEmpty then s.setSem n ⟨some (0x40 + p.val), []⟩ else s)
      else if bit w 29 && x.owner == some (0x40 + p.val) then s.freeSem n
      else s
  else s

/-- A launcher armed by a register write (R29), late when its stamp has passed (R34). -/
def State.lnWrite (s : State) (n : Nat) : State :=
  let t := wordStamp ((s.reg (CVN_Ln_TIME_HI.off n)).toNat * 2 ^ 32 + (s.reg (CVN_Ln_TIME_LO.off n)).toNat)
  s.lnArm n ⟨true, t, s.fld (CVN_Ln_ACT.ACTION n), s.fld (CVN_Ln_ACT.ARG n), s.fld (CVN_Ln_ACT.REPEAT n),
    s.fld (CVN_Ln_ACT.LATE_POL n), none, none, s.lateArm t, none⟩

/-- The context parked in TAT on launcher `n` is woken by a CANCEL with V := 1 (R288). -/
def State.tatCancel (s : State) (n : Nat) (owner : Option (Fin 64)) : State :=
  match owner with
  | some k =>
    match (s.cx k.val).susp with
    | .tat m => if m.val = n then (s.setCx k.val { s.cx k.val with v := true }).wake k.val else s
    | _ => s
  | none => s

/-- A launcher disarmed by a register write; a radio operation that it serves ends with ABORTED (R29, R32). -/
def State.lnCancel (s : State) (n : Nat) : State :=
  let x := s.launcher n
  if !x.armed then s
  else
    match x.op with
    | some id => match s.op id with
      | some o =>
        let s := s.opAbort id o
        if (s.launcher n).armed then s.lnOff n else s
      | none => s.lnOff n
    | none => (s.lnOff n).tatCancel n x.owner

/-- The CVN registers (R29, R32, R40, R381). -/
def State.effCvn (s old : State) (off : Nat) (w : Word) : State :=
  if off = CVN_CFG.off then
    let s := if s.on CVN_CFG.SELF_EN then s else { s with time := { s.time with selfEdges := 0 } }
    if s.on CVN_CFG.TLOG_EN && !old.on CVN_CFG.TLOG_EN then s.devNum 0x4DFF8 8 (stampWord s.stamp) else s
  else if off = CVN_LINE_CFG.off then s.lineEnd.lineJudge
  else if 0x5100 ≤ off ∧ off % 16 = 8 then
    let n := (off - 0x5100) / 16
    if bit w 29 then s.lnCancel n
    else if bit w 30 && !old.armIgnored n w then s.lnWrite n
    else s
  else s

/-- A seed stored (R60): for the synthesiser that SEL of the same write names. -/
def State.seedWrite (s : State) (w : Word) : State :=
  let sel := getBits w 31 30
  let seed := getBits w 22 0
  if sel = 3 ∨ seed = 0 then s
  else s.setSyn (synOf sel) { s.syn (synOf sel) with seed := seed }

/-- The RFA registers (R47, R48, R60, R67, R68, R71). -/
def State.effRfa (s old : State) (t : Ticket) (off : Nat) (w : Word) : State :=
  if off = RFA_CHAIN_CFG.off then
    if s.fld RFA_CHAIN_CFG.ARR = old.fld RFA_CHAIN_CFG.ARR then s
    else (if s.diversity then s.setReg (CHZ_WINn.off 1) (s.reg (CHZ_WINn.off 0)) else s).palJudge old t
  else if off = RFA_SYn_FREQ.off 0 then
    if s.diversity && !s.synOn .sya then s.setReg (RFA_SYn_FREQ.off 1) (s.reg off) else s
  else if off = RFA_SY_DITHER.off then s.seedWrite w
  else if off = RFA_CAL_CTRL.off then
    [(0, CalKind.syaVco), (1, .sybVco), (2, .sytVco), (5, .rxaIq), (6, .rxbIq)].foldl (fun s c =>
      if bit w c.1 then s.calRequest c.2 else s) s
  else if off = RFA_EXT_CTL.off then { s with pins := { s.pins with lnaByp := s.on RFA_EXT_CTL.LNA_BYP } }
  else if off = RFA_TEMP.off ∧ bit w 31 then { s.setFld RFA_TEMP.START 1 with tempConv := true }
  else s

/-- The CHZ registers (R71, R73, R77, R90). -/
def State.effChz (s old : State) (t : Ticket) (off : Nat) (w : Word) : State :=
  if off = CHZ_CTRL.off then
    let s := if bit w 8 then s.flushPending else s
    s.palJudge old t
  else if off = CHZ_WINn.off 0 then
    if s.diversity && !s.chainOn .a then s.setReg (CHZ_WINn.off 1) (s.reg off) else s
  else if off = CHZ_BINMASK.off then
    if bit w 30 then s
    else
      let c := chainOf (s.on CHZ_BINMASK.CHAIN)
      s.setPal c { s.pal c with
        mask := Tab.set (fun _ => 0xFFFF) (s.pal c).mask (s.fld CHZ_BINMASK.GROUP) (getBits w 15 0) }
  else if off = CHZ_ERG_CFG.off then
    let s := [Chain.a, .b].foldl (fun s c =>
      if old.palRuns c && old.writesErg c && !s.writesErg c then s.ergFlush c else s) s
    s.ergClaim t
  else s

/-- Every counter of the LANE block set to 0 (R105). -/
def State.laneClear (s : State) : State :=
  [LANE_RECOV_STAT.OK_CNT, LANE_RECOV_STAT.FAIL_CNT, LANE_RECOV_STAT.SKIP_CNT, LANE_STARVE_CNT.OCC_CNT,
    LANE_STARVE_CNT.TOTAL, LANE_RING_HEAD.FULL_CNT, LANE_DIV_STAT.PICK_A, LANE_DIV_STAT.PICK_B, LANE_CNT_OK.COUNT,
    LANE_CNT_FCS.COUNT].foldl (fun s f => s.setFld f 0) s

/-- GRP_REQ written (R93): a 1 places the group's claim unless it is held or waits; a 0 withdraws it once no lane of the
group holds an entry. -/
def State.groupWrite (s : State) (t : Ticket) : State :=
  (List.range 16).foldl (fun s g =>
    if (s.fld LANE_ALLOC_CFG.GRP_REQ).testBit g then
      (if s.holds (.group g) || s.waits (.group g) then s else (s.placeDev (.group g) 5 t).1)
    else if s.waits (.group g) then s.withdraw (.group g)
    else s.groupRelease g) s

/-- The LANE registers (R93, R105, R113). -/
def State.effLane (s old : State) (t : Ticket) (off : Nat) (w : Word) : State :=
  if off = LANE_CTRL.off then (if bit w 15 then s.laneClear else s)
  else if off = LANE_ALLOC_CFG.off then s.groupWrite t
  else if (off = LANE_RING_BASE.off ∨ off = LANE_RING_SIZE.off) ∧ s.reg off ≠ old.reg off then
    (s.setFld LANE_RING_HEAD.HEAD 0).setFld LANE_RING_TAIL.TAIL 0
  else s

/-- An account's whole sum moved into one bucket that expires a full new window later (R129). -/
def State.moveBuckets (s : State) (n used : Nat) : State :=
  s.setAcct n (if used = 0 then [] else [⟨s.expiryTick n s.stamp, used⟩])

/-- The TXP and SGL registers (R64, R129). -/
def State.effTxp (s old : State) (off : Nat) (w : Word) : State :=
  if off = TXP_CTRL.off ∧ bit w 31 then
    match s.txNow with
    | some id => s.txCut id Status.aborted
    | none => s
  else if off = SGL_STAT.off then
    (List.range 8).foldl (fun s n => if bit w (8 + n) then s.setAcct n [] else s) s
  else if 0x9100 ≤ off ∧ off % 16 = 8 then
    let n := (off - 0x9100) / 16
    if s.fld (SGL_ACCn_WINDOW.SECONDS n) = old.fld (SGL_ACCn_WINDOW.SECONDS n) then s
    else s.moveBuckets n (old.used n)
  else s

/-- The SEC registers (R149, R151). -/
def State.effSec (s : State) (off : Nat) (w : Word) : State :=
  if off = SEC_CTRL.off then (if bit w 31 then s.eraseKeys else s)
  else if off = SEC_KEY_SEL.off then
    let k := s.fld SEC_KEY_SEL.SLOT
    if getBits w 31 30 = 1 then s.loadKey k (bit w 29) (getBits w 27 16)
    else if getBits w 31 30 = 2 then s.eraseKey k
    else s
  else if SEC_KEY_DATAn.off 0 ≤ off ∧ off ≤ SEC_KEY_DATAn.off 3 then
    { s with keyData := Tab.set (fun _ => 0#32) s.keyData ((off - SEC_KEY_DATAn.off 0) / 4) w }
  else s

/-- The MAC registers (R166, R180, R186). -/
def State.effMac (s old : State) (off : Nat) (w : Word) : State :=
  if off = MAC_ROLE.off then
    let s := if old.on MAC_ROLE.SF_EN && !s.on MAC_ROLE.SF_EN then s.gackStop else s
    if s.on MAC_ROLE.MB_EN && !old.on MAC_ROLE.MB_EN then s.memberStart
    else if old.on MAC_ROLE.MB_EN && !s.on MAC_ROLE.MB_EN then s.memberStop
    else s
  else if off = MAC_SF_CFG.off then s.nextWrite (getBits w 31 16)
  else s

/-- The WKR registers (R194). -/
def State.effWkr (s old : State) (off : Nat) (w : Word) : State :=
  if off = WKR_CFG.off then s.wkrCfg old
  else if off = WKR_TUNE.off ∧ bit w 31 then s.wkrCal
  else s

/-- The number by which DMAn_CFG.CTX names what started a channel. -/
def dmaCtx : Master → Nat
  | .host _ => 0x3F
  | .ctx k => k.val

/-- The CHK, DMA, MEM and CAS registers (R219, R298, R352, R381, R385). DESIGN CHOICE: START and STOP in one write stop. -/
def State.effEng (s old : State) (m : Master) (t : Ticket) (off : Nat) (w : Word) : State :=
  if off / 0x1000 = 0xC then
    let e := (off - 0xC000) / 0x20
    if off = CHKn_VALUE.off e ∧ (s.chkEng e).op.isNone then s.setFld (CHKn_STAT.BYTES e) 0 else s
  else if off / 0x1000 = 0xD then
    let n := (off - 0xD000) / 0x20
    if off = DMAn_CFG.off n then
      if bit w 30 then s.dmaStop n else if bit w 31 then s.dmaStart n (dmaCtx m) none else s
    else s
  else if off = MEM_WALK_CFG.off then
    if s.on MEM_WALK_CFG.EN && !old.on MEM_WALK_CFG.EN then { s with brush := { s.brush with at_ := s.stamp } } else s
  else if off = CAS_ROLE.off then s.lineEnd.lineJudge
  else if off = CAS_CFG.off ∧ bit w 31 then s.frameGo t
  else s

/-- What a committed word sets going. -/
def State.effect (s old : State) (m : Master) (t : Ticket) (l : List (Nat × Word)) (off : Nat) (w : Word) : State :=
  match off / 0x1000 with
  | 0 => s.effSys off w
  | 1 => s.effClk old off w
  | 2 => s.effPwr off w
  | 3 => s.effHost old l off
  | 4 => s.effSeq m off w
  | 5 => s.effCvn old off w
  | 6 => s.effRfa old t off w
  | 7 => s.effChz old t off w
  | 8 => s.effLane old t off w
  | 9 => s.effTxp old off w
  | 0xA => s.effMac old off w
  | 0xB => s.effSec off w
  | 0xF => s.effWkr old off w
  | _ => s.effEng old m t off w

/-- The occurrence of a launcher whose CVN_Ln_ACT a word writes, when it falls in the cycle of the write (R31). -/
def State.actFirst (s : State) (off : Nat) : State :=
  if 0x5108 ≤ off ∧ off < 0x5300 ∧ off % 16 = 8 then s.occurDue (Fin.ofNat 32 ((off - 0x5108) / 16)) else s

/-- The words of one commit to one register block, at the offsets of implemented registers, in ascending order (R19, R28,
R233). -/
def State.commit (s : State) (m : Master) (l : List (Nat × Word)) : State :=
  let s := l.foldl (fun s p => s.actFirst p.1) s
  let old := s
  let t := s.masterTicket m
  let l' := l.map (fun p => (p.1, old.shield p.1 p.2))
  let s := l'.foldl (fun s p => s.setReg p.1 (old.stored l' p.1 p.2)) s
  let s := l.foldl (fun s p => if old.denied p.1 p.2 then s.raise SYS_LOCK.DENY SYS_LOCK.DENY_CNT else s) s
  l'.foldl (fun s p => s.effect old m t l' p.1 p.2) s

/-! The commands. -/

/-- The master can reach a register: the CK_CORE domain serves it, and a host's port is not a cascade initiator (R239). -/
def State.reaches (s : State) (m : Master) : Bool :=
  s.serves && (match m with
    | .host p => !(s.port p.val).casc
    | .ctx _ => true)

/-- A register write as a command of its own: `f` gives the words from the state at the commit; words at offsets where no
register lies reach nothing (R405). -/
def State.regWrite (s : State) (m : Master) (f : State → List (Nat × Word)) : Host.Outcome State Fault Refusal :=
  if s.reaches m then
    let s := s.leaveIdle.touch
    .next (s.commit m ((f s).filter (fun p => implemented p.1)))
  else .next s

/-- A word with some bits set. -/
def withBits (w : Word) (n : Nat) : Word := w ||| BitVec.ofNat 32 n

/-- REGISTER_WRITE (R19). -/
def execRegisterWrite (m : Master) (addr : Nat) (v : Word) (s : State) : Host.Outcome State Fault Refusal :=
  s.regWrite m (fun _ => if 0x3000000 ≤ addr ∧ addr % 4 = 0 then [(addr - 0x3000000, v)] else [])

/-- ARM (R29): CVN_Ln_ACT written with ARM = 1. -/
def execArm (m : Master) (n : Fin 32) (v : Word) (s : State) : Host.Outcome State Fault Refusal :=
  s.regWrite m (fun _ => [(CVN_Ln_ACT.off n.val, withBits v 0x40000000)])

/-- CANCEL (R32): CVN_Ln_ACT written with CANCEL = 1. -/
def execCancel (m : Master) (n : Fin 32) (v : Word) (s : State) : Host.Outcome State Fault Refusal :=
  s.regWrite m (fun _ => [(CVN_Ln_ACT.off n.val, withBits v 0x20000000)])

/-- SYA_VCO (R68). -/
def execSyaVco (p : Fin 4) (s : State) : Host.Outcome State Fault Refusal :=
  s.regWrite (.host p) (fun _ => [(RFA_CAL_CTRL.off, 0x01#32)])

/-- SYB_VCO (R68). -/
def execSybVco (p : Fin 4) (s : State) : Host.Outcome State Fault Refusal :=
  s.regWrite (.host p) (fun _ => [(RFA_CAL_CTRL.off, 0x02#32)])

/-- SYT_VCO (R68). -/
def execSytVco (p : Fin 4) (s : State) : Host.Outcome State Fault Refusal :=
  s.regWrite (.host p) (fun _ => [(RFA_CAL_CTRL.off, 0x04#32)])

/-- RXA_IQ (R68). -/
def execRxaIq (p : Fin 4) (s : State) : Host.Outcome State Fault Refusal :=
  s.regWrite (.host p) (fun _ => [(RFA_CAL_CTRL.off, 0x20#32)])

/-- RXB_IQ (R68). -/
def execRxbIq (p : Fin 4) (s : State) : Host.Outcome State Fault Refusal :=
  s.regWrite (.host p) (fun _ => [(RFA_CAL_CTRL.off, 0x40#32)])

/-- TEMP_START (R67): START written 1, OFFSET at its present value. -/
def execTempStart (m : Master) (s : State) : Host.Outcome State Fault Refusal :=
  s.regWrite m (fun s => [(RFA_TEMP.off, withBits (s.reg RFA_TEMP.off) 0x80000000)])

/-- FLUSH (R90): FLUSH written 1, the other fields at their present values. -/
def execFlush (m : Master) (s : State) : Host.Outcome State Fault Refusal :=
  s.regWrite m (fun s => [(CHZ_CTRL.off, withBits (s.reg CHZ_CTRL.off) 0x100)])

/-- GRP_REQ_SET (R93): bit g written 1. -/
def execGrpReqSet (m : Master) (g : Fin 16) (s : State) : Host.Outcome State Fault Refusal :=
  s.regWrite m (fun s => [(LANE_ALLOC_CFG.off, withBits (s.reg LANE_ALLOC_CFG.off) (2 ^ g.val))])

/-- GRP_REQ_CLEAR (R93): bit g written 0. -/
def execGrpReqClear (m : Master) (g : Fin 16) (s : State) : Host.Outcome State Fault Refusal :=
  s.regWrite m (fun s => [(LANE_ALLOC_CFG.off, putBits (s.reg LANE_ALLOC_CFG.off) g.val g.val 0)])

/-- CNT_CLR (R105). -/
def execCntClr (m : Master) (s : State) : Host.Outcome State Fault Refusal :=
  s.regWrite m (fun s => [(LANE_CTRL.off, withBits (s.reg LANE_CTRL.off) 0x8000)])

/-- LANE_RING_WRITE (R113): the registers of the pair that the commit writes. -/
def execLaneRingWrite (m : Master) (base size : Option Word) (s : State) : Host.Outcome State Fault Refusal :=
  s.regWrite m (fun _ => (base.toList.map (fun v => (LANE_RING_BASE.off, v))) ++
    (size.toList.map (fun v => (LANE_RING_SIZE.off, v))))

/-- TXP_ABORT (R64, R125). -/
def execTxpAbort (m : Master) (s : State) : Host.Outcome State Fault Refusal :=
  s.regWrite m (fun s => [(TXP_CTRL.off, withBits (s.reg TXP_CTRL.off) 0x80000000)])

/-- SGL_CLR (R129). -/
def execSglClr (m : Master) (v : Word) (s : State) : Host.Outcome State Fault Refusal :=
  s.regWrite m (fun _ => [(SGL_STAT.off, v)])

/-- SECONDS_CHANGE (R129): SGL_ACCn_WINDOW written. -/
def execSecondsChange (m : Master) (n : Fin 8) (v : Word) (s : State) : Host.Outcome State Fault Refusal :=
  s.regWrite m (fun _ => [(SGL_ACCn_WINDOW.off n.val, v)])

/-- KEY_SELECT (R149): SEC_KEY_SEL written with OP = 0b00. -/
def execKeySelect (m : Master) (v : Word) (s : State) : Host.Outcome State Fault Refusal :=
  s.regWrite m (fun _ => [(SEC_KEY_SEL.off, showFld v SEC_KEY_SEL.OP 0)])

/-- KEY_LOAD (R149): SEC_KEY_SEL written with OP = load. -/
def execKeyLoad (m : Master) (v : Word) (s : State) : Host.Outcome State Fault Refusal :=
  s.regWrite m (fun _ => [(SEC_KEY_SEL.off, showFld v SEC_KEY_SEL.OP 1)])

/-- KEY_ERASE (R149): SEC_KEY_SEL written with OP = erase. -/
def execKeyErase (m : Master) (v : Word) (s : State) : Host.Outcome State Fault Refusal :=
  s.regWrite m (fun _ => [(SEC_KEY_SEL.off, showFld v SEC_KEY_SEL.OP 2)])

/-- ERASE_ALL (R151). -/
def execEraseAll (m : Master) (s : State) : Host.Outcome State Fault Refusal :=
  s.regWrite m (fun s => [(SEC_CTRL.off, withBits (s.reg SEC_CTRL.off) 0x80000000)])

/-- NEXT_WRITE (R186): MAC_SF_CFG written. -/
def execNextWrite (m : Master) (v : Word) (s : State) : Host.Outcome State Fault Refusal :=
  s.regWrite m (fun _ => [(MAC_SF_CFG.off, v)])

/-- WKR_ENABLE (R194): WKR_CFG written with EN = 1. -/
def execWkrEnable (m : Master) (v : Word) (s : State) : Host.Outcome State Fault Refusal :=
  s.regWrite m (fun _ => [(WKR_CFG.off, withBits v 0x8000)])

/-- CAL (R194): WKR_TUNE written with CAL = 1. -/
def execCal (m : Master) (v : Word) (s : State) : Host.Outcome State Fault Refusal :=
  s.regWrite m (fun _ => [(WKR_TUNE.off, withBits v 0x80000000)])

/-- CASCADE_ENABLE (R239): HPn_CASC_CFG written. -/
def execCascadeEnable (m : Master) (n : Fin 4) (v : Word) (s : State) : Host.Outcome State Fault Refusal :=
  s.regWrite m (fun _ => [(HPn_CASC_CFG.off n.val, v)])

/-- RING_TAIL_WRITE (R259): HPn_RING_TAIL written. -/
def execRingTailWrite (m : Master) (n : Fin 4) (v : Word) (s : State) : Host.Outcome State Fault Refusal :=
  s.regWrite m (fun _ => [(HPn_RING_TAIL.off n.val, v)])

/-- EVENT_RING_WRITE (R260): the registers of the pair that the commit writes. -/
def execEventRingWrite (m : Master) (n : Fin 4) (base size : Option Word) (s : State) :
    Host.Outcome State Fault Refusal :=
  s.regWrite m (fun _ => (base.toList.map (fun v => (HPn_RING_BASE.off n.val, v))) ++
    (size.toList.map (fun v => (HPn_RING_SIZE.off n.val, v))))

/-- SEM_TAKE (R285). -/
def execSemTake (p : Fin 4) (n : Fin 16) (s : State) : Host.Outcome State Fault Refusal :=
  s.regWrite (.host p) (fun _ => [(SEQ_SEMn.off n.val, 0x40000000#32)])

/-- SEM_FREE (R285). -/
def execSemFree (p : Fin 4) (n : Fin 16) (s : State) : Host.Outcome State Fault Refusal :=
  s.regWrite (.host p) (fun _ => [(SEQ_SEMn.off n.val, 0x20000000#32)])

/-- DMA_START (R298): DMAn_CFG written with START = 1. -/
def execDmaStart (m : Master) (n : Fin 16) (v : Word) (s : State) : Host.Outcome State Fault Refusal :=
  s.regWrite m (fun _ => [(DMAn_CFG.off n.val, withBits v 0x80000000)])

/-- DMA_STOP (R298): DMAn_CFG written with STOP = 1. -/
def execDmaStop (m : Master) (n : Fin 16) (v : Word) (s : State) : Host.Outcome State Fault Refusal :=
  s.regWrite m (fun _ => [(DMAn_CFG.off n.val, withBits v 0x40000000)])

/-- RELOCK_CMC (R312): CLK_CTRL written with RELOCK_CMC = 1. -/
def execRelockCmc (m : Master) (v : Word) (s : State) : Host.Outcome State Fault Refusal :=
  s.regWrite m (fun _ => [(CLK_CTRL.off, withBits v 0x4)])

/-- RELOCK_CMR (R312): CLK_CTRL written with RELOCK_CMR = 1. -/
def execRelockCmr (m : Master) (v : Word) (s : State) : Host.Outcome State Fault Refusal :=
  s.regWrite m (fun _ => [(CLK_CTRL.off, withBits v 0x8)])

/-- CORE_BYP (R312): CLK_CTRL written. -/
def execCoreByp (m : Master) (v : Word) (s : State) : Host.Outcome State Fault Refusal :=
  s.regWrite m (fun _ => [(CLK_CTRL.off, v)])

/-- CMR_EN (R312): CLK_CTRL written. -/
def execCmrEn (m : Master) (v : Word) (s : State) : Host.Outcome State Fault Refusal :=
  s.regWrite m (fun _ => [(CLK_CTRL.off, v)])

/-- TCXO_MODE_WRITE (R302): CLK_TCXO_CFG written. -/
def execTcxoModeWrite (m : Master) (v : Word) (s : State) : Host.Outcome State Fault Refusal :=
  s.regWrite m (fun _ => [(CLK_TCXO_CFG.off, v)])

/-- REQUEST_SLEEP (R322): PWR_REQ written with OP = Sleep. -/
def execRequestSleep (m : Master) (v : Word) (s : State) : Host.Outcome State Fault Refusal :=
  s.regWrite m (fun _ => [(PWR_REQ.off, showFld v PWR_REQ.OP 1)])

/-- REQUEST_DEEP_SLEEP (R322): PWR_REQ written with OP = Deep sleep. -/
def execRequestDeepSleep (m : Master) (v : Word) (s : State) : Host.Outcome State Fault Refusal :=
  s.regWrite m (fun _ => [(PWR_REQ.off, showFld v PWR_REQ.OP 2)])

/-- REQUEST_OFF (R322): PWR_REQ written with OP = Off. -/
def execRequestOff (m : Master) (v : Word) (s : State) : Host.Outcome State Fault Refusal :=
  s.regWrite m (fun _ => [(PWR_REQ.off, showFld v PWR_REQ.OP 3)])

/-- REQUEST_CANCEL (R322): PWR_REQ written with CANCEL = 1. -/
def execRequestCancel (m : Master) (v : Word) (s : State) : Host.Outcome State Fault Refusal :=
  s.regWrite m (fun _ => [(PWR_REQ.off, withBits v 0x20000000)])

/-- BUDGET_WRITE (R337): WELL_BUDGET written. -/
def execBudgetWrite (m : Master) (v : Word) (s : State) : Host.Outcome State Fault Refusal :=
  s.regWrite m (fun _ => [(WELL_BUDGET.off, v)])

/-- CLAIM_TAB_WRITE (R334): WELL_CLAIM_TAB written with WR = 1. -/
def execClaimTabWrite (m : Master) (v : Word) (s : State) : Host.Outcome State Fault Refusal :=
  s.regWrite m (fun _ => [(WELL_CLAIM_TAB.off, withBits v 0x80000000)])

/-- PEAK_CLR (R338). -/
def execPeakClr (m : Master) (s : State) : Host.Outcome State Fault Refusal :=
  s.regWrite m (fun _ => [(WELL_USED.off, 0x80000000#32)])

/-- INJ (R351): MEM_BANK_CFG written. -/
def execInj (m : Master) (v : Word) (s : State) : Host.Outcome State Fault Refusal :=
  s.regWrite m (fun _ => [(MEM_BANK_CFG.off, v)])

/-- SOFT_RESET (R370): SYS_SOFTRESET written with GO = 1. -/
def execSoftReset (m : Master) (v : Word) (s : State) : Host.Outcome State Fault Refusal :=
  s.regWrite m (fun _ => [(SYS_SOFTRESET.off, withBits v 0x1)])

/-- FRAME_RUN (R385): CAS_CFG written with GO = 1. -/
def execFrameRun (m : Master) (v : Word) (s : State) : Host.Outcome State Fault Refusal :=
  s.regWrite m (fun _ => [(CAS_CFG.off, withBits v 0x80000000)])

/-- SYS_LOCK (R403): SYS_LOCK written with LOCK = 1. -/
def execSysLock (m : Master) (v : Word) (s : State) : Host.Outcome State Fault Refusal :=
  s.regWrite m (fun _ => [(SYS_LOCK.off, withBits v 0x1)])

/-! Reads that do something (R25, R80, R235, R248, R327, R341): by a host port as a whole READ frame of one word, by a
context as RGET does. -/

/-- A read as a command of its own: the word consumed, and kept as the last words driven when a port reads. -/
def State.regRead (s : State) (m : Master) (off : Nat) : Host.Outcome State Fault Refusal :=
  if s.reaches m then
    let r := s.leaveIdle.touch.readWhole m off
    match m with
    | .host p => .next (r.1.setPort p.val { r.1.port p.val with reply := [r.2] })
    | .ctx _ => .next r.1
  else .next s

/-- CVN_NOW_LO_READ (R25). -/
def execCvnNowLoRead (m : Master) (s : State) : Host.Outcome State Fault Refusal := s.regRead m CVN_NOW_LO.off

/-- CHZ_ENERGY_READ (R80). -/
def execChzEnergyRead (m : Master) (s : State) : Host.Outcome State Fault Refusal := s.regRead m CHZ_ENERGY.off

/-- MAXWAIT_READ (R341). -/
def execMaxwaitRead (m : Master) (s : State) : Host.Outcome State Fault Refusal := s.regRead m MEM_ARB_STAT.off

/-- WAKE_LAST_READ (R327). -/
def execWakeLastRead (m : Master) (s : State) : Host.Outcome State Fault Refusal := s.regRead m PWR_WAKE_LAST.off

/-- HPN_STAT_READ (R235): port p reads HPn_STAT of port n. -/
def execHpnStatRead (p n : Fin 4) (s : State) : Host.Outcome State Fault Refusal :=
  s.regRead (.host p) (HPn_STAT.off n.val)

/-- LAST_SUBMIT_READ (R248): port p reads HPn_LAST_SUBMIT of port n. -/
def execLastSubmitRead (p n : Fin 4) (s : State) : Host.Outcome State Fault Refusal :=
  s.regRead (.host p) (HPn_LAST_SUBMIT.off n.val)

end Sys2Proof.Machine
end

