-- ==== Sys2Proof/Machine/EaselSys.lean ====
section
/-! DEFINITION. The event instructions and SYS functions of Easel (R285, R292, R297, R384). -/

namespace Sys2Proof.Machine

/-! Events and signals (R297). -/

/-- CODE of POST and SIG, x[9:2]. -/
def evCode (w : Nat) : Nat := natBits w 9 2

/-- A code that sketches may post. -/
def evCodeOk (w : Nat) : Bool := decide (0x80 ≤ evCode w) && decide (evCode w ≤ 0xFE)

/-- An event record posted by a context, stamped now. -/
def State.postEvent (s : State) (k : Fin 64) (w : Nat) : State :=
  s.post (natBits w 1 0) (evCode w) (s.gd k w % 256) (s.cx k.val).h.toNat (s.ga k w) (s.gb k w % 2 ^ 19) s.stamp

/-- POST. -/
def execOpPost (k : Fin 64) (env : Env) (s : State) : Host.Outcome State Fault Refusal :=
  s.issue k env 0x3C (fun s w => s.coded k (natBits w 13 10 == 0 && evCodeOk w) ((s.next k).postEvent k w))

/-- The encoding of SIG: without x[10] it posts nothing, and the fields of POST are unused. -/
def sigOk (w : Nat) : Bool :=
  natBits w 13 11 == 0 && (if w.testBit 10 then evCodeOk w else natBits w 9 0 == 0 && fd w == 0)

/-- SIG. DEDUCED: Z is 1 when the context is not free. -/
def execOpSig (k : Fin 64) (env : Env) (s : State) : Host.Outcome State Fault Refusal :=
  s.issue k env 0x3E (fun s w => s.coded k (sigOk w) (
    let j := s.ga k w % 64
    let bits := s.gb k w % 2 ^ 16
    let s := s.next k
    let s := if w.testBit 10 then s.postEvent k w else s
    let free := (s.cx j).st == .free
    let s := s.setCx k.val { s.cx k.val with z := !free }
    if free then s else s.signalUser j bits))

/-- WAITE with its mask. -/
def State.waite (s : State) (k : Fin 64) (w mask : Nat) : State :=
  let c := s.cx k.val
  let timeout := if w.testBit 2 then some (c.ts w) else none
  let s := s.next k
  if s.present k.val &&& mask ≠ 0 then s.takeSignals k.val mask (fd w) (fb w)
  else
    match timeout with
    | some t =>
      if t ≤ s.stamp then s.setCx k.val { (s.cx k.val).wr (fd w) 0#32 with c := true }
      else s.park k.val .event (.waite mask (fd w) (fb w) timeout)
    | none => s.park k.val .event (.waite mask (fd w) (fb w) none)

/-- WAITE. -/
def execOpWaite (k : Fin 64) (env : Env) (s : State) : Host.Outcome State Fault Refusal :=
  s.issue k env 0x3D (fun s w => s.coded k (natBits w 13 3 == 0 && (w.testBit 2 || natBits w 1 0 == 0)) (
    let mask := s.ga k w % 2 ^ 20
    s.operand k (mask != 0 || w.testBit 2) (s.waite k w mask)))

/-! SYS (R292). -/

/-- The register that an address names: an implemented offset of the register blocks. -/
def regAt (a : Nat) : Option Nat :=
  if 0x3000000 ≤ a ∧ implemented (a - 0x3000000) then some (a - 0x3000000) else none

/-- RGET and RPUT: the address tested, then `f` with the register's offset. -/
def State.register (s : State) (k : Fin 64) (w : Nat) (f : Nat → State) : State :=
  let a := s.ga k w
  s.operand k (a % 4 == 0) (
    match regAt a with
    | some off => f off
    | none => s.trap k Trap.addr)

/-- RGET. -/
def execOpRget (k : Fin 64) (env : Env) (s : State) : Host.Outcome State Fault Refusal :=
  s.function k env 0x3F sysFns 0x00 (fun s w => s.coded k (natBits w 13 6 == 0 && fb w == 0) (
    s.register k w (fun off =>
      if env.parity == .read || env.parity == .addr then (s.parityErr 6 (s.ga k w)).trap k Trap.parity
      else
        let r := (s.next k).readWhole (.ctx k) off
        r.1.setCx k.val ((r.1.cx k.val).wr (fd w) r.2))))

/-- RPUT. A write whose data meets a parity error is not applied (R407). -/
def execOpRput (k : Fin 64) (env : Env) (s : State) : Host.Outcome State Fault Refusal :=
  s.function k env 0x3F sysFns 0x01 (fun s w => s.coded k (natBits w 13 6 == 0 && fd w == 0) (
    s.register k w (fun off =>
      if env.parity == .data || env.parity == .addr then (s.parityErr 6 (s.ga k w)).next k
      else (s.next k).commit (.ctx k) [(off, (s.cx k.val).rd (fb w))])))

/-- MACQ (R165, R169, R171). -/
def execOpMacq (k : Fin 64) (env : Env) (s : State) : Host.Outcome State Fault Refusal :=
  s.function k env 0x3F sysFns 0x02 (fun s w => s.coded k (natBits w 13 7 == 0 && fb w == 0) (
    let g := s.ga k w
    let s := s.next k
    if w.testBit 6 then
      if s.on MAC_ROLE.SF_EN then s.finish k.val (fd w) Status.badCommand
      else (s.setFld MAC_NETID.SEED (g % 2 ^ 16)).finish k.val (fd w) Status.ok
    else
      let r := s.assign (g % 2 ^ 16) (natBits g 28 16)
      r.1.finish k.val (fd w) (if r.2 then Status.ok else Status.queueFull)))

/-- BUDG: the context's old claim is given up first (R335). -/
def execOpBudg (k : Fin 64) (env : Env) (s : State) : Host.Outcome State Fault Refusal :=
  s.function k env 0x3F sysFns 0x10 (fun s w => s.coded k (natBits w 13 6 == 0 && fb w == 0) (
    let n := s.ga k w
    let c := s.cx k.val
    let s := (s.next k).withdraw (.budg k)
    if n = 0 then s.finish k.val (fd w) Status.ok
    else
      let r := s.place (.budg k) n c.prio c.ticket
      if r.2 then r.1.park k.val .well (.budg (fd w))
      else r.1.finish k.val (fd w) Status.budgetDenied))

/-- The encoding of LOCK and FREE. -/
def semOk (w : Nat) : Bool := natBits w 13 10 == 0 && fd w == 0 && fa w == 0 && fb w == 0

/-- The semaphore that LOCK and FREE name. -/
def semOf (w : Nat) : Nat := natBits w 9 6

/-- LOCK (R285). -/
def execOpLock (k : Fin 64) (env : Env) (s : State) : Host.Outcome State Fault Refusal :=
  s.function k env 0x3F sysFns 0x20 (fun s w => s.coded k (semOk w) (
    let n := semOf w
    let m := s.sem n
    if m.owner = some k.val then s.trap k Trap.sem
    else
      let s := s.next k
      if m.owner.isNone then s.setSem n { m with owner := some k.val }
      else (s.setSem n { m with wait := m.wait ++ [k] }).park k.val .semaphore (.lock n)))

/-- FREE (R279, R285), once every store of the context can become visible. -/
def execOpFree (k : Fin 64) (env : Env) (s : State) : Host.Outcome State Fault Refusal :=
  s.function k env 0x3F sysFns 0x21 (fun s w => s.coded k (semOk w) (
    let n := semOf w
    if (s.sem n).owner ≠ some k.val then s.trap k Trap.sem
    else s.visible k (((s.drain k.val).next k).freeSem n)))

/-- The block of CAS: descriptor word 0 and its ARGC argument words. -/
def State.casWords (s : State) (k a : Nat) : List Word :=
  (List.range (1 + s.ownNum k a 4 % 256)).map (fun i => BitVec.ofNat 32 (s.ownNum k (a + 4 * i) 4))

/-- CAS (R384). -/
def execOpCas (k : Fin 64) (env : Env) (s : State) : Host.Outcome State Fault Refusal :=
  s.function k env 0x3F sysFns 0x30 (fun s w => s.coded k (natBits w 13 6 == 0) (
    let a := s.ga k w
    let b := s.gb k w
    let n := 4 + 4 * (s.ownNum k.val a 4 % 256)
    s.operand k (b.testBit 3 == b.testBit 2 && operandOk a 4 1 && operandOk a n 1) (
      let r := s.access a n env.parity
      if r.2 ≠ 0 then r.1.trap k r.2
      else (r.1.next k).forward k (fd w) (b % 8) (r.1.casWords k.val a))))

end Sys2Proof.Machine
end

