-- ==== Sys2Proof/Machine/Host.lean ====
section
/-! DEFINITION. Host frames (chapters 11 and 12): judging a frame at select rise (Table 11-5), committing a write-type
frame (R233), and what a read frame returns and consumes (R235–R237, R253, R259). A frame is one command, from select fall to
the end of its commit or its release. -/

namespace Sys2Proof

open Machine

/-! The header (Table 11-2) and the place of the select rise. -/

/-- Word `i` that the host drove, header first; zero where it drove none. -/
def HostFrame.word (f : HostFrame) (i : Nat) : Nat := (f.words.getD i 0#32).toNat

/-- OP. -/
def HostFrame.op (f : HostFrame) : Nat := natBits (f.word 0) 31 28

/-- CK. -/
def HostFrame.ck (f : HostFrame) : Bool := (f.word 0).testBit 27

/-- ARG. -/
def HostFrame.arg (f : HostFrame) : Nat := f.word 0 % 2 ^ 24

/-- Edges less wait edges (R228). -/
def HostFrame.pos (f : HostFrame) : Nat := f.edges - f.waits

/-- Words of a read frame clocked out whole. -/
def HostFrame.clocked (f : HostFrame) : Nat := (f.pos - 16) / 8

/-- Words after the header, the check word left out. -/
def HostFrame.count (f : HostFrame) : Nat := f.edges / 8 - 1 - b2n f.ck

/-- The check word of a write-type frame is right (R231). -/
def HostFrame.checkOk (f : HostFrame) : Bool :=
  let n := f.edges / 8 - 1
  f.word n == crc16 (((List.range n).map (fun i => leBytes 4 (f.word i))).flatten)

end Sys2Proof

namespace Sys2Proof.Machine

/-! Ops (Table 11-3). -/

/-- The ops of Table 11-3. -/
def isOp (op : Nat) : Bool := [0x0, 0x2, 0x3, 0x5, 0x6, 0x7, 0x9, 0xA, 0xF].contains op

/-- The read ops (R228). -/
def isRead (op : Nat) : Bool := [0x2, 0x6, 0x7, 0x9].contains op

/-- The write-type ops (R229). -/
def isWrite (op : Nat) : Bool := [0x3, 0x5, 0xA, 0xF].contains op

/-- ARG as Table 11-3 requires. -/
def argOk (op arg : Nat) : Bool :=
  if op = 5 ∨ op = 7 ∨ op = 9 then arg == 0
  else if op = 6 ∨ op = 0xA then decide (arg < 0x10000)
  else if op = 0xF then arg == 0x5A0F0F
  else true

/-! Where a write may go (R236). -/

/-- The register block of an offset: 4 KiB, or a port's 0x400 bytes (R408). -/
def blockBase (off : Nat) : Nat := if off / 0x1000 = 3 then off / 0x400 * 0x400 else off / 0x1000 * 0x1000

/-- The offset of a block's hold point (Table 22-3). -/
def holdPoint (off : Nat) : Nat :=
  if off / 0x1000 = 3 then 0x2C
  else [0x2C, 0x2C, 0x30, 0x2C, 0x7C, 0x2F8, 0x3C, 0x34, 0x3C, 0x17C, 0x2C, 0x24, 0xF4, 0x200, 0x24, 0x24, 0x3C].getD
    (off / 0x1000) 0

/-- The offset from 0x0300_0000 of an address inside the register blocks. -/
def regOffset (a : Nat) : Option Nat := if 0x3000000 ≤ a ∧ a < 0x3011000 then some (a - 0x3000000) else none

/-- A span of `n` words from `a` lies in one bank, or on implemented registers of one block. -/
def writeSpanOk (a n : Nat) : Bool :=
  match regOffset a with
  | some off => (List.range n).all (fun i => implemented (off + 4 * i) && blockBase (off + 4 * i) == blockBase off)
  | none => n == 0 || spanWritable a (4 * n)

/-! Judging (R232, Table 11-5). DEDUCED: of several rows, WAKE and RESET stand first, then the lowest code. -/

/-- CODE of a write-type frame with a good header that ends on a word boundary; 0: whole. -/
def State.writeCode (s : State) (p : Nat) (f : HostFrame) : Nat :=
  let n := f.count
  let short := decide (f.edges / 8 - 1 < b2n f.ck)
  let argc := f.word 1 % 256
  if f.op = 3 ∧ !writeSpanOk (4 * f.arg) n then 5
  else if f.op = 5 ∧ (short ∨ n < 1 ∨ 6 < argc ∨ n ≠ 1 + argc) then 6
  else if (f.op = 0xA ∨ f.op = 0xF) ∧ (short ∨ n ≠ 0) then 6
  else if f.op = 3 ∧ (short ∨ n = 0 ∨ 512 < n) then 7
  else if (if f.ck then !f.checkOk else s.on (HPn_CFG.CK_REQ p)) then 8
  else if f.busy ∧ (s.port p).bufs.length = 2 then 9
  else 0

/-- CODE of Table 11-5 that a frame ends with; 0: whole. -/
def State.frameCode (s : State) (p : Nat) (f : HostFrame) : Nat :=
  if (s.port p).woke then 0xA
  else if f.reset then 0xB
  else if f.edges < 8 then 1
  else if !isOp f.op then 2
  else if f.op = 0 then 0
  else if natBits (f.word 0) 26 24 ≠ 0 ∨ (isRead f.op ∧ f.ck) ∨ !argOk f.op f.arg then 3
  else if isRead f.op then (if 16 < f.pos ∧ (f.pos - 16) % 8 ≠ 0 then 4 else 0)
  else if f.edges % 8 ≠ 0 then 4
  else s.writeCode p f

/-- The frame's commit, from its release on, keeps its write buffer (R234): up to 2 µs for a WRITE, 1 µs for the other ops, and
12 times as long on FBO (R233). The buffers of earlier frames but one have been freed. -/
def State.bufferTake (s : State) (p : Nat) (f : HostFrame) : State :=
  let most := usFine (if f.op = 3 then 2 else 1) * (if s.onFbo then 12 else 1)
  s.setPort p { s.port p with
    bufs := ((s.stamp + Config.commitTime s.free s.stamp % (most + 1)) :: (s.port p).bufs).take 2 }

/-- A void frame recorded (R232). -/
def State.voidFrame (s : State) (p code : Nat) (f : HostFrame) : State :=
  let s := s.raise (HPn_ERR.VOID p) (HPn_ERR.VOID_CNT p)
  ((s.setFld (HPn_ERR.OP p) f.op).setFld (HPn_ERR.EDGES p) (min f.edges 8191)).setFld (HPn_ERR.CODE p) code

/-- A frame on port `p` as the row of op `mine` sees it: another row's frame is left alone; one of an op that Table 11-3
lacks is void whatever its row; ports that are asleep or cascade initiators take no frame (R238, R239). A frame of no
edge leaves no record. -/
def State.hostFrame (s : State) (p : Fin 4) (f : HostFrame) (mine : Nat) (act : State → State) :
    Host.Outcome State Fault Refusal :=
  let x := s.port p.val
  if f.op ≠ mine ∧ isOp f.op then .next s
  else if !x.woke ∧ (!s.serves ∨ x.casc) then .next s
  else
    let s := s.leaveIdle.touch.upset f.env
    let code := s.frameCode p.val f
    let s := s.setPort p.val { s.port p.val with woke := false }
    if f.edges = 0 then .next s
    else if code ≠ 0 then .next (s.voidFrame p.val code f)
    else .next (if isWrite f.op then (act s).bufferTake p.val f else act s)

/-- A parity error in a word of a result block (R237, R346). Table 21-2 gives its record no SRC and INFO: free values. -/
def State.resultParity (s : State) : State :=
  s.draw.draw.parityErr (Config.unmeasured s.free % 256) (Config.unmeasured (s.free + 1))

/-! What a read frame returns. -/

/-- A read frame as it runs: state, words driven, offsets of the registers read whole, ADDR_OVER and RDERR to be set. -/
structure Fetch where
  st    : State
  words : List Word
  used  : List Nat
  overEnd : Bool
  err   : Bool

/-- A word added. -/
def Fetch.add (x : Fetch) (s : State) (w : Word) : Fetch := { x with st := s, words := x.words ++ [w] }

/-- A word past what was asked: zero, ADDR_OVER (R230). -/
def Fetch.past (x : Fetch) : Fetch := { x.add x.st 0#32 with overEnd := true }

/-- A word whose fetch met an error: zero, RDERR (R237). -/
def Fetch.bad (x : Fetch) (s : State) : Fetch := { x.add s 0#32 with err := true }

/-- A memory word fetched. -/
def Fetch.mem (x : Fetch) (a : Nat) (perr : Bool) : Fetch :=
  if perr then x.bad (x.st.readParity a)
  else
    let r := x.st.readSpan a 4
    if r.2 then x.add r.1 (BitVec.ofNat 32 (r.1.num a 4)) else x.bad r.1

/-- A register fetched. -/
def Fetch.reg (x : Fetch) (p : Fin 4) (off : Nat) (perr : Bool) : Fetch :=
  if perr then x.bad (x.st.parityErr 6 (0x3000000 + off))
  else
    let r := x.st.readReg (.host p) off
    { x.add r.1 r.2 with used := x.used ++ [off] }

/-- `n` words of a READ from `a` (R236): word `i` of the frame; the address holds at the end of a block. -/
def Fetch.read (p : Fin 4) (f : HostFrame) : Nat → Nat → Nat → Fetch → Fetch
  | 0, _, _, x => x
  | n + 1, i, a, x =>
    let perr := f.perr.contains i
    match regOffset a with
    | some off =>
      if blockBase off + holdPoint off ≤ off then
        let x := if implemented off then x.reg p off perr else x.past
        if implemented off then (List.range n).foldl (fun x _ => x.past) x else Fetch.read p f n (i + 1) (a + 4) x
      else if implemented off then Fetch.read p f n (i + 1) (a + 4) (x.reg p off perr)
      else Fetch.read p f n (i + 1) (a + 4) x.past
    | none =>
      match regionEnd a with
      | some e =>
        let x := x.mem a perr
        if e ≤ a + 4 then (List.range n).foldl (fun x _ => x.past) x else Fetch.read p f n (i + 1) (a + 4) x
      | none => Fetch.read p f n (i + 1) (a + 4) x.past

/-- The release of a whole read frame (R235): registers consumed, then the frame's own flags set; the words kept. -/
def Fetch.release (x : Fetch) (p : Nat) : State :=
  let s := x.used.foldl State.consume x.st
  let s := if x.overEnd then s.setFld (HPn_STAT.ADDR_OVER p) 1 else s
  let s := if x.err then s.setFld (HPn_STAT.RDERR p) 1 else s
  s.setPort p { s.port p with reply := x.words }

/-- A fetch before its first word. -/
def State.fetch (s : State) : Fetch := ⟨s, [], [], false, false⟩

/-- READ (R236). -/
def execFrameRead (p : Fin 4) (f : HostFrame) (s : State) : Host.Outcome State Fault Refusal :=
  s.hostFrame p f 2 (fun s => (Fetch.read p f f.clocked 0 (4 * f.arg) s.fetch).release p.val)

/-- The words of a result block (Table 12-3) and whether it is READY. -/
def State.resultWords (s : State) (p h : Nat) : List Word × Bool :=
  let x := s.slot p (h % 256)
  let gen := h / 256 % 64
  let one (st status : Nat) : List Word := [BitVec.ofNat 32 (st * 2 ^ 24 + status * 2 ^ 16 + h)]
  if h / 2 ^ 14 ≠ p ∨ gen = 0 ∨ gen ≠ x.gen then (one 0x03 0x03, false)
  else
    match x.st with
    | .queued | .running _ => (one 0x01 0x01, false)
    | .free => (one 0x02 0x02, false)
    | .done =>
      let n := ceilDiv x.data.length 4
      (one 0xA5 x.status ++ [BitVec.ofNat 32 x.data.length] ++
        (List.range n).map (fun i => BitVec.ofNat 32 (leNat ((x.data.drop (4 * i)).take 4))), true)

/-- Words of a list as a read frame returns them, those with a parity error as zero. -/
def Fetch.list (f : HostFrame) (x : Fetch) (ws : List Word) : Fetch :=
  (List.range f.clocked).foldl (fun x i =>
    match ws[i]? with
    | some w => if f.perr.contains i then x.bad x.st.resultParity else x.add x.st w
    | none => x.past) x

/-- A slot freed by the consumption of its result (R253). -/
def State.slotFree (s : State) (p i : Nat) : State :=
  let x := s.slot p i
  let s := { s with order := s.order + 1 }
  s.setSlot p i { Slot.fresh with gen := x.gen, freed := s.order }

/-- RESULT (R253). -/
def execFrameResult (p : Fin 4) (f : HostFrame) (s : State) : Host.Outcome State Fault Refusal :=
  s.hostFrame p f 6 (fun s =>
    let h := f.arg % 2 ^ 16
    let r := s.resultWords p.val h
    let x := Fetch.list f s.fetch r.1
    let t := x.release p.val
    if r.2 ∧ r.1.length ≤ f.clocked ∧ !x.err then t.slotFree p.val (h % 256) else t)

/-- Event records as a read frame returns them: up to `n` words, from offset `t` of the ring of `len` unread words. -/
def Fetch.events (f : HostFrame) (base size : Nat) (len : Nat) : Nat → Nat → Nat → Fetch → Fetch
  | 0, _, _, x => x
  | n + 1, i, t, x =>
    if len ≤ i then Fetch.events f base size len n (i + 1) t x.past
    else Fetch.events f base size len n (i + 1) ((t + 4) % size) (x.mem (base + t) (f.perr.contains i))

/-- EVENTS (R259): TAIL advances by each record whose words were clocked out whole. DEDUCED: it stops before a record that
met an error (R237). -/
def execFrameEvents (p : Fin 4) (f : HostFrame) (s : State) : Host.Outcome State Fault Refusal :=
  s.hostFrame p f 7 (fun s =>
    let n := s.ringLen p.val
    let size := s.fld (HPn_RING_SIZE.SIZE p.val)
    let tail := s.fld (HPn_RING_TAIL.TAIL p.val)
    let base := s.fld (HPn_RING_BASE.BASE p.val)
    let good (i : Nat) : Bool := (List.range 4).all (fun j =>
      !f.perr.contains (4 * i + j) && s.mark ((base + (tail + 16 * i) % size + 4 * j) / 8) != .bad)
    let k := ((List.range (min n (f.clocked / 4))).takeWhile good).length
    let t := (Fetch.events f base size (4 * n) f.clocked 0 tail s.fetch).release p.val
    t.setFld (HPn_RING_TAIL.TAIL p.val) ((tail + 16 * k) % size))

/-- STATUS (R230): S0 is HPn_STAT, S1 is HPn_LAST_SUBMIT, which is not consumed. -/
def execFrameStatus (p : Fin 4) (f : HostFrame) (s : State) : Host.Outcome State Fault Refusal :=
  s.hostFrame p f 9 (fun s =>
    let x := s.fetch
    let x := if 1 ≤ f.clocked then x.reg p (HPn_STAT.off p.val) (f.perr.contains 0) else x
    let x := if 2 ≤ f.clocked then
        { x.reg p (HPn_LAST_SUBMIT.off p.val) (f.perr.contains 1) with used := x.used } else x
    ((List.range (f.clocked - 2)).foldl (fun x _ => x.past) x).release p.val)

/-- NOP (R229): a whole one has no effect. -/
def execFrameNop (p : Fin 4) (f : HostFrame) (s : State) : Host.Outcome State Fault Refusal :=
  s.hostFrame p f 0 (fun s => s)

/-! Write-type frames. -/

/-- Data words put into a bank: bank words whose data met a parity error are marked, and an error on an address is met by the
first access (R346). -/
def State.frameStore (s : State) (a : Nat) (f : HostFrame) : State :=
  let bs := ((List.range f.count).map (fun i => leBytes 4 (f.word (i + 1)))).flatten
  if (f.perr.isEmpty && f.env.parity == .none) || (bankOf a == some .erg && s.ergBusy) then s.masterWrite a bs .none
  else (chunks (bs.length + 1) a bs).foldl (fun s c =>
    let hit := f.perr.any (fun i => decide (c.1 ≤ a + 4 * i) && decide (a + 4 * i < c.1 + c.2.length))
    s.masterWrite c.1 c.2 (if hit then .data else if c.1 = a then f.env.parity else .none)) s

/-- Data words put into registers: one whose data met a parity error is not applied (R407). -/
def State.frameRegs (s : State) (p : Fin 4) (off : Nat) (f : HostFrame) : State :=
  let hit (i : Nat) : Bool := f.perr.contains i
  let l := ((List.range f.count).filter (fun i => !hit i)).map (fun i =>
    (off + 4 * i, BitVec.ofNat 32 (f.word (i + 1))))
  let s := ((List.range f.count).filter hit).foldl (fun s i => s.parityErr 6 (0x3000000 + off + 4 * i)) s
  s.commit (.host p) l

/-- WRITE (R233, R236). -/
def execFrameWrite (p : Fin 4) (f : HostFrame) (s : State) : Host.Outcome State Fault Refusal :=
  s.hostFrame p f 3 (fun s =>
    match regOffset (4 * f.arg) with
    | some off => s.frameRegs p off f
    | none => s.frameStore (4 * f.arg) f)

/-- HPn_LAST_SUBMIT written (R248). -/
def State.lastSubmit (s : State) (p h : Nat) : State :=
  let s := if s.on (HPn_LAST_SUBMIT.VALID p) then s.setFld (HPn_LAST_SUBMIT.OVR p) 1 else s
  (s.setFld (HPn_LAST_SUBMIT.VALID p) 1).setFld (HPn_LAST_SUBMIT.HANDLE p) h

/-- A SUBMIT judged (R244): queued in a slot with a new handle, or refused with a reject code. -/
def State.submit (s : State) (p d : Nat) (args : List Word) : State :=
  let refuse (code : Nat) : State :=
    (s.lastSubmit p (p * 2 ^ 14 + code)).raise (HPn_IRQ_FLAG.REJECT p) (HPn_IRQ_CNT.REJECT_CNT p)
  if !s.namesSketch (natBits d 31 16) || natBits d 10 8 != 0 then refuse Status.badCommand
  else
    match s.freeSlot p with
    | none => refuse Status.queueFull
    | some i =>
      let s := s.takeSlot p i (natBits d 31 16) (natBits d 15 14) (d.testBit 13) (d.testBit 12) (d.testBit 11) args
        (s.ticketNow p)
      s.lastSubmit p (handleOf p (s.slot p i).gen i)

/-- SUBMIT (R244). -/
def execFrameSubmit (p : Fin 4) (f : HostFrame) (s : State) : Host.Outcome State Fault Refusal :=
  s.hostFrame p f 5 (fun s =>
    s.submit p.val (f.word 1) ((List.range (f.word 1 % 256)).map (fun i => BitVec.ofNat 32 (f.word (i + 2)))))

/-- A handle aborted (R255). -/
def State.abortHandle (s : State) (p h : Nat) : State :=
  let x := s.slot p (h % 256)
  let gen := h / 256 % 64
  if h / 2 ^ 14 ≠ p ∨ gen = 0 ∨ gen ≠ x.gen then s
  else
    match x.st with
    | .queued => s.complete p (h % 256) Status.aborted []
    | .running k => s.cmdAbort k
    | .free | .done => s

/-- ABORT (R255). -/
def execFrameAbort (p : Fin 4) (f : HostFrame) (s : State) : Host.Outcome State Fault Refusal :=
  s.hostFrame p f 0xA (fun s => s.abortHandle p.val (f.arg % 2 ^ 16))

/-- PORT_RESET (R235). -/
def execFramePortReset (p : Fin 4) (f : HostFrame) (s : State) : Host.Outcome State Fault Refusal :=
  s.hostFrame p f 0xF (fun s =>
    let n := p.val
    let s := [HPn_CFG.off n, HPn_CASC_CFG.off n, HPn_ERR.off n].foldl (fun s o => s.setReg o (regReset o)) s
    ((s.setFld (HPn_STAT.ADDR_OVER n) 0).setFld (HPn_STAT.RDERR n) 0).cascJudge n)

/-- SELECT_FALL_WAKE (R238, R326): a select fall in Sleep; the frame in which it fell will be void with code WAKE. A
cascade initiator's select is ignored (R391). The stamp recorded is that of the next XO32 edge (Table 16-4). -/
def execSelectFallWake (p : Fin 4) (s : State) : Host.Outcome State Fault Refusal :=
  if (s.fld PWR_WAKE_EN.HOST).testBit p.val ∧ !s.on (HPn_CASC_CFG.EN p.val) ∧ s.pwr.st ≠ .deep then
    let first := !(s.pwr.st == .waking && (s.fld PWR_WAKE_LAST.SOURCES).testBit 3)
    let r := s.wakeEvent 4 (s.tick + 1)
    if r.2 then
      let t := r.1.setFld PWR_WAKE_LAST.PORT (if first then p.val else min p.val (s.fld PWR_WAKE_LAST.PORT))
      .next (t.setPort p.val { t.port p.val with woke := true })
    else .next s
  else .next s

end Sys2Proof.Machine
end

