-- ==== Sys2Proof/Machine/Service.lean ====
section
/-! DEFINITION. The service sketches of the primer ROM (R300, R400, Table 14-10). -/

namespace Sys2Proof.Machine

/-- DMA channel 15 and check engine 7 are free for a service sketch (R300). -/
def State.svcFree (s : State) : Bool := !(s.dmaCh 15).busy && (s.chkEng 7).op.isNone

/-- Service sketch `n` of context `k` does its work: it waits while channel 15 or engine 7 is BUSY, and ends with BAD_COMMAND
when engine 7 is lent (R300). -/
def State.service (s : State) (k : Fin 64) (env : Env) (n : Nat) (f : State → State) : Host.Outcome State Fault Refusal :=
  if s.serves ∧ (s.cx k.val).st = .ready ∧ (s.cx k.val).svc = some n ∧ s.svcFree then
    let s := s.touch.upset env
    .next (if s.lent 7 then s.cmdEnd k Status.badCommand [] else f s)
  else .next s

/-- Argument word `g i` of a service sketch. -/
def State.arg (s : State) (k : Fin 64) (i : Nat) : Nat := ((s.cx k.val).rd i).toNat

/-- Channel 15 programmed for a transfer. What its registers hold for one that takes several starts (2^20 bytes) is free. -/
def State.svcProgram (s : State) (k : Fin 64) (src dst len : Nat) (fill : Bool) : State :=
  let s := s.setFld (DMAn_CFG.CTX 15) k.val
  let s := s.setFld (DMAn_CFG.FILL 15) (b2n fill)
  if len < 2 ^ 20 then
    ((s.setReg (DMAn_SRC.off 15) (BitVec.ofNat 32 src)).setReg (DMAn_DST.off 15) (BitVec.ofNat 32 dst)).setFld (DMAn_LEN.LEN 15) len
  else
    let free (s : State) : Word := BitVec.ofNat 32 (Config.unmeasured s.free)
    let s := if fill then s.setReg (DMAn_SRC.off 15) (BitVec.ofNat 32 src) else s.draw.setReg (DMAn_SRC.off 15) (free s.draw)
    let s := s.draw.setReg (DMAn_DST.off 15) (free s.draw)
    let s := s.draw.setFld (DMAn_LEN.LEN 15) (Config.unmeasured s.draw.free)
    s.draw.setFld (DMAn_STAT.DONE_CNT 15) (Config.unmeasured s.draw.free)

/-- A transfer on channel 15, from start to end, and the end of its command. -/
def State.svcMove (s : State) (k : Fin 64) (src dst len : Nat) (fill : Bool) (parity : ParityHit) : State :=
  let r := (s.svcProgram k src dst len fill).dmaRun ⟨true, src, dst, len, fill, none⟩ parity
  (r.1.dmaEnd 15 r.2).cmdEnd k (dmaStatus r.2) []

/-- IDENT. -/
def execSvcIdent (k : Fin 64) (env : Env) (s : State) : Host.Outcome State Fault Refusal :=
  s.service k env 0 (fun s =>
    s.cmdEnd k Status.ok (leBytes 4 (s.view (.ctx k) SYS_ID.off).toNat ++ leBytes 4 (s.view (.ctx k) SYS_REV.off).toNat ++
      leBytes 4 (s.fld SYS_REV.PRIMER)))

/-- FILL. -/
def execSvcFill (k : Fin 64) (env : Env) (s : State) : Host.Outcome State Fault Refusal :=
  s.service k env 1 (fun s =>
    if spanWritable (s.arg k 1) (s.arg k 2) then s.svcMove k (s.arg k 3 % 256) (s.arg k 1) (s.arg k 2) true env.parity
    else s.cmdEnd k Status.badCommand [])

/-- COPY. -/
def execSvcPrimerCopy (k : Fin 64) (env : Env) (s : State) : Host.Outcome State Fault Refusal :=
  s.service k env 2 (fun s =>
    if spanOk (s.arg k 1) (s.arg k 3) && spanWritable (s.arg k 2) (s.arg k 3) then
      s.svcMove k (s.arg k 1) (s.arg k 2) (s.arg k 3) false env.parity
    else s.cmdEnd k Status.badCommand [])

/-- Engine 7 programmed with the CRC-32 parameters of R148 for context `k`. -/
def State.svcEngine (s : State) (k : Fin 64) : State :=
  (((s.crcLoad 7 0xFFFFFFFF).setReg (CHKn_CFG.off 7) 0x0000031F#32).setFld (CHKn_STAT.CTX 7) k.val)

/-- CRC: the bytes read and run on engine 7, whose final check is the result. -/
def State.svcSum (s : State) (k : Fin 64) (a n : Nat) (parity : ParityHit) : State :=
  let s := s.svcEngine k
  let r := if parity == .ctx then (s.chkParity 7, Status.parity) else s.engRead a n parity
  if r.2 = Status.ok then
    let s := r.1.chkBytes 7 (r.1.bytes a n)
    s.cmdEnd k Status.ok (leBytes 4 (s.chkFinal 7))
  else
    let s := r.1.draw.setReg (CHKn_VALUE.off 7) (BitVec.ofNat 32 (Config.unmeasured r.1.draw.free))
    s.cmdEnd k r.2 []

/-- CRC. -/
def execSvcCrc (k : Fin 64) (env : Env) (s : State) : Host.Outcome State Fault Refusal :=
  s.service k env 3 (fun s =>
    if spanOk (s.arg k 1) (s.arg k 2) then s.svcSum k (s.arg k 1) (s.arg k 2) env.parity
    else s.cmdEnd k Status.badCommand [])

/-- PTCLEAR. -/
def execSvcPtclear (k : Fin 64) (env : Env) (s : State) : Host.Outcome State Fault Refusal :=
  s.service k env 4 (fun s =>
    if s.arg k 1 + s.arg k 2 ≤ 4096 then s.svcMove k 0 (0x80000 + 64 * s.arg k 1) (64 * s.arg k 2) true env.parity
    else s.cmdEnd k Status.badCommand [])

/-! RETURN (R400). -/

/-- The fault records held. -/
def State.faultCount (s : State) : Nat :=
  if s.on SYS_FAULT_LOG.WRAP then 64 else min 64 (s.fld SYS_FAULT_LOG.TOTAL)

/-- Address of the `i`-th newest fault record. -/
def State.faultNewest (s : State) (i : Nat) : Nat := faultAddr ((s.fld SYS_FAULT_LOG.HEAD + 63 - i) % 64)

/-- The newest 12 fault records, newest first, all-zero records where fewer exist; whether every word was usable. -/
def State.faultNewest12 (s : State) : State × Bool × List Byte :=
  (List.range 12).foldl (fun (r : State × Bool × List Byte) i =>
    if i < s.faultCount then
      let q := r.1.readSpan (s.faultNewest i) 16
      (q.1, r.2.1 && q.2, r.2.2 ++ s.bytes (s.faultNewest i) 16)
    else (r.1, r.2.1, r.2.2 ++ List.replicate 16 0#8)) (s, true, [])

/-- The return record up to its CRC (Table 21-4), with the newest fault records. -/
def State.returnHead (s : State) (k : Fin 64) (faults : List Byte) : List Byte :=
  let word (off : Nat) : List Byte := leBytes 4 (s.view (.ctx k) off).toNat
  word SYS_ID.off ++ word SYS_REV.off ++ word SYS_FAULT.off ++ word SYS_FAULT_LOG.off ++ word SYS_PARITY_CNT.off ++
    word SYS_ECC_CNT.off ++ leBytes 8 (stampWord s.stamp) ++ word MEM_ECC_STAT.off ++ word MEM_WALK_STAT.off ++
    word CLK_LOSS_CNT.off ++ word RFA_SY_STAT.off ++ faults ++ word SYS_SOFTRESET.off ++
    (List.range 6).flatMap (fun b => leBytes 1 (bitsOf 8 (fun j => s.brush.used.contains (8 * b + j)))) ++
    List.replicate 2 0#8

/-- The status of a write into a bank that a parity error may have met (R346). -/
def writeStatus (parity : ParityHit) : Nat :=
  if parity == .addr || parity == .data then Status.parity else Status.ok

/-- RETURN: the record packed, its CRC-32 run on engine 7, the record written. -/
def State.svcPack (s : State) (k : Fin 64) (dst : Nat) (parity : ParityHit) : State :=
  let q := s.faultNewest12
  if !q.2.1 then q.1.trap k Trap.ecc
  else
    let bs := s.returnHead k q.2.2
    let s := (q.1.svcEngine k).chkBytes 7 bs
    let sum := leBytes 4 (s.chkFinal 7)
    let s := s.masterWrite dst (bs ++ sum) parity
    if writeStatus parity = Status.ok then s.cmdEnd k Status.ok sum else s.cmdEnd k (writeStatus parity) []

/-- RETURN. -/
def execSvcReturn (k : Fin 64) (env : Env) (s : State) : Host.Outcome State Fault Refusal :=
  s.service k env 5 (fun s =>
    let d := s.arg k 1
    if d % 8 = 0 ∧ 0x200000 ≤ d ∧ d + 256 ≤ 0x300000 then s.svcPack k d env.parity else s.cmdEnd k Status.badCommand [])

end Sys2Proof.Machine
end

