-- ==== Sys2Proof/Machine/Dispatch.lean ====
section
/-! DEFINITION. The dispatch: one arm per command, each one call of its meaning. -/

namespace Sys2Proof.Machine

/-- What each command does (to everything but the queue of waiting commands). -/
def exec (i : Instr) (s : State) : Host.Outcome State Fault Refusal :=
  match i with
  | .registerWrite m addr v => Sys2Proof.Machine.execRegisterWrite m addr v s
  | .cvnNowLoRead m => Sys2Proof.Machine.execCvnNowLoRead m s
  | .arm m n v => Sys2Proof.Machine.execArm m n v s
  | .cancel m n v => Sys2Proof.Machine.execCancel m n v s
  | .launcherOccurrence n => Sys2Proof.Machine.execLauncherOccurrence n s
  | .pinPulseEnd pin => Sys2Proof.Machine.execPinPulseEnd pin s
  | .lateOccurrenceReady n => Sys2Proof.Machine.execLateOccurrenceReady n s
  | .tempSample raw => Sys2Proof.Machine.execTempSample raw s
  | .selfMeasure count => Sys2Proof.Machine.execSelfMeasure count s
  | .tempLogEntry => Sys2Proof.Machine.execTempLogEntry s
  | .xo32Absent => Sys2Proof.Machine.execXo32Absent s
  | .xo32Present => Sys2Proof.Machine.execXo32Present s
  | .tuneStart y => Sys2Proof.Machine.execTuneStart y s
  | .synthLock y band => Sys2Proof.Machine.execSynthLock y band s
  | .lockTimeout y => Sys2Proof.Machine.execLockTimeout y s
  | .synthUnlock y => Sys2Proof.Machine.execSynthUnlock y s
  | .syaVco p => Sys2Proof.Machine.execSyaVco p s
  | .sybVco p => Sys2Proof.Machine.execSybVco p s
  | .sytVco p => Sys2Proof.Machine.execSytVco p s
  | .sytVcoStart => Sys2Proof.Machine.execSytVcoStart s
  | .rxaIq p => Sys2Proof.Machine.execRxaIq p s
  | .rxbIq p => Sys2Proof.Machine.execRxbIq p s
  | .calibrationEnd y band => Sys2Proof.Machine.execCalibrationEnd y band s
  | .tempStart m => Sys2Proof.Machine.execTempStart m s
  | .tempConversionEnd raw => Sys2Proof.Machine.execTempConversionEnd raw s
  | .samplePosition o => Sys2Proof.Machine.execSamplePosition o s
  | .syncSearchTimeout e => Sys2Proof.Machine.execSyncSearchTimeout e s
  | .entryPromoted e => Sys2Proof.Machine.execEntryPromoted e s
  | .entryStarved e => Sys2Proof.Machine.execEntryStarved e s
  | .flush m => Sys2Proof.Machine.execFlush m s
  | .paletteStart c => Sys2Proof.Machine.execPaletteStart c s
  | .paletteStop c => Sys2Proof.Machine.execPaletteStop c s
  | .chzEnergyRead m => Sys2Proof.Machine.execChzEnergyRead m s
  | .laneCatchUp l => Sys2Proof.Machine.execLaneCatchUp l s
  | .laneStarved l => Sys2Proof.Machine.execLaneStarved l s
  | .laneFrameEnd l o => Sys2Proof.Machine.execLaneFrameEnd l o s
  | .recoverySlotStart slot => Sys2Proof.Machine.execRecoverySlotStart slot s
  | .recoveryEntry slot det => Sys2Proof.Machine.execRecoveryEntry slot det s
  | .recoveryRequestDropped r => Sys2Proof.Machine.execRecoveryRequestDropped r s
  | .grpReqSet m g => Sys2Proof.Machine.execGrpReqSet m g s
  | .grpReqClear m g => Sys2Proof.Machine.execGrpReqClear m g s
  | .cntClr m => Sys2Proof.Machine.execCntClr m s
  | .laneRingWrite m base size => Sys2Proof.Machine.execLaneRingWrite m base size s
  | .txReleasePoint id => Sys2Proof.Machine.execTxReleasePoint id s
  | .lbtCovered id => Sys2Proof.Machine.execLbtCovered id s
  | .lbtRetry id => Sys2Proof.Machine.execLbtRetry id s
  | .paGrant id => Sys2Proof.Machine.execPaGrant id s
  | .txEnd id => Sys2Proof.Machine.execTxEnd id s
  | .ackWindowClose id => Sys2Proof.Machine.execAckWindowClose id s
  | .txpAbort m => Sys2Proof.Machine.execTxpAbort m s
  | .bucketExpiry n => Sys2Proof.Machine.execBucketExpiry n s
  | .sglClr m v => Sys2Proof.Machine.execSglClr m v s
  | .secondsChange m n v => Sys2Proof.Machine.execSecondsChange m n v s
  | .callCopyEnd id => Sys2Proof.Machine.execCallCopyEnd id s
  | .keySelect m v => Sys2Proof.Machine.execKeySelect m v s
  | .keyLoad m v => Sys2Proof.Machine.execKeyLoad m v s
  | .keyErase m v => Sys2Proof.Machine.execKeyErase m v s
  | .eraseAll m => Sys2Proof.Machine.execEraseAll m s
  | .aesOperationStart e => Sys2Proof.Machine.execAesOperationStart e s
  | .secHoldExpiry e => Sys2Proof.Machine.execSecHoldExpiry e s
  | .beaconMiss => Sys2Proof.Machine.execBeaconMiss s
  | .scanEnd => Sys2Proof.Machine.execScanEnd s
  | .leaseScan => Sys2Proof.Machine.execLeaseScan s
  | .leaseExpiry => Sys2Proof.Machine.execLeaseExpiry s
  | .assignedSlotEnd slot => Sys2Proof.Machine.execAssignedSlotEnd slot s
  | .nextWrite m v => Sys2Proof.Machine.execNextWrite m v s
  | .wkrEnable m v => Sys2Proof.Machine.execWkrEnable m v s
  | .cal m v => Sys2Proof.Machine.execCal m v s
  | .periodicCalibration => Sys2Proof.Machine.execPeriodicCalibration s
  | .wkrCalibrationEnd cap fine count => Sys2Proof.Machine.execWkrCalibrationEnd cap fine count s
  | .callReceived o => Sys2Proof.Machine.execCallReceived o s
  | .recordExamination env => Sys2Proof.Machine.execRecordExamination s env
  | .messageLayerEnable m => Sys2Proof.Machine.execMessageLayerEnable m s
  | .checkEngineStart e => Sys2Proof.Machine.execCheckEngineStart e s
  | .frameNop p f => Sys2Proof.Machine.execFrameNop p f s
  | .frameRead p f => Sys2Proof.Machine.execFrameRead p f s
  | .frameWrite p f => Sys2Proof.Machine.execFrameWrite p f s
  | .frameSubmit p f => Sys2Proof.Machine.execFrameSubmit p f s
  | .frameResult p f => Sys2Proof.Machine.execFrameResult p f s
  | .frameEvents p f => Sys2Proof.Machine.execFrameEvents p f s
  | .frameStatus p f => Sys2Proof.Machine.execFrameStatus p f s
  | .frameAbort p f => Sys2Proof.Machine.execFrameAbort p f s
  | .framePortReset p f => Sys2Proof.Machine.execFramePortReset p f s
  | .hpnStatRead p n => Sys2Proof.Machine.execHpnStatRead p n s
  | .lastSubmitRead p n => Sys2Proof.Machine.execLastSubmitRead p n s
  | .cascadeEnable m n v => Sys2Proof.Machine.execCascadeEnable m n v s
  | .workerTimeout p o => Sys2Proof.Machine.execWorkerTimeout p o s
  | .dispatch => Sys2Proof.Machine.execDispatch s
  | .commandPromoted p slot => Sys2Proof.Machine.execCommandPromoted p slot s
  | .lostRecord p => Sys2Proof.Machine.execLostRecord p s
  | .ringTailWrite m n v => Sys2Proof.Machine.execRingTailWrite m n v s
  | .eventRingWrite m n base size => Sys2Proof.Machine.execEventRingWrite m n base size s
  | .opAdd k env => Sys2Proof.Machine.execOpAdd k env s
  | .opSub k env => Sys2Proof.Machine.execOpSub k env s
  | .opAnd k env => Sys2Proof.Machine.execOpAnd k env s
  | .opIor k env => Sys2Proof.Machine.execOpIor k env s
  | .opXor k env => Sys2Proof.Machine.execOpXor k env s
  | .opShl k env => Sys2Proof.Machine.execOpShl k env s
  | .opShr k env => Sys2Proof.Machine.execOpShr k env s
  | .opSar k env => Sys2Proof.Machine.execOpSar k env s
  | .opMul k env => Sys2Proof.Machine.execOpMul k env s
  | .opCmp k env => Sys2Proof.Machine.execOpCmp k env s
  | .opMin k env => Sys2Proof.Machine.execOpMin k env s
  | .opMax k env => Sys2Proof.Machine.execOpMax k env s
  | .opSel k env => Sys2Proof.Machine.execOpSel k env s
  | .opBfx k env => Sys2Proof.Machine.execOpBfx k env s
  | .opBfi k env => Sys2Proof.Machine.execOpBfi k env s
  | .opAddi k env => Sys2Proof.Machine.execOpAddi k env s
  | .opAndi k env => Sys2Proof.Machine.execOpAndi k env s
  | .opIori k env => Sys2Proof.Machine.execOpIori k env s
  | .opXori k env => Sys2Proof.Machine.execOpXori k env s
  | .opCmpi k env => Sys2Proof.Machine.execOpCmpi k env s
  | .opMovi k env => Sys2Proof.Machine.execOpMovi k env s
  | .opHigh k env => Sys2Proof.Machine.execOpHigh k env s
  | .opLdb k env => Sys2Proof.Machine.execOpLdb k env s
  | .opLdh k env => Sys2Proof.Machine.execOpLdh k env s
  | .opLdw k env => Sys2Proof.Machine.execOpLdw k env s
  | .opStb k env => Sys2Proof.Machine.execOpStb k env s
  | .opSth k env => Sys2Proof.Machine.execOpSth k env s
  | .opStw k env => Sys2Proof.Machine.execOpStw k env s
  | .opLdp k env => Sys2Proof.Machine.execOpLdp k env s
  | .opStp k env => Sys2Proof.Machine.execOpStp k env s
  | .postedStoreComplete k env => Sys2Proof.Machine.execPostedStoreComplete k env s
  | .opJmp k env => Sys2Proof.Machine.execOpJmp k env s
  | .opCall k env => Sys2Proof.Machine.execOpCall k env s
  | .opRet k env => Sys2Proof.Machine.execOpRet k env s
  | .opYield k env => Sys2Proof.Machine.execOpYield k env s
  | .opHalt k env => Sys2Proof.Machine.execOpHalt k env s
  | .opFail k env => Sys2Proof.Machine.execOpFail k env s
  | .opLoop k env => Sys2Proof.Machine.execOpLoop k env s
  | .requestPromoted r => Sys2Proof.Machine.execRequestPromoted r s
  | .semTake p n => Sys2Proof.Machine.execSemTake p n s
  | .semFree p n => Sys2Proof.Machine.execSemFree p n s
  | .opTnow k env => Sys2Proof.Machine.execOpTnow k env s
  | .opTadd k env => Sys2Proof.Machine.execOpTadd k env s
  | .opTwait k env => Sys2Proof.Machine.execOpTwait k env s
  | .twaitExpiry k => Sys2Proof.Machine.execTwaitExpiry k s
  | .opTat k env => Sys2Proof.Machine.execOpTat k env s
  | .opTguard k env => Sys2Proof.Machine.execOpTguard k env s
  | .opTdrift k env => Sys2Proof.Machine.execOpTdrift k env s
  | .opTlearn k env => Sys2Proof.Machine.execOpTlearn k env s
  | .opTune k env => Sys2Proof.Machine.execOpTune k env s
  | .opRxwin k env => Sys2Proof.Machine.execOpRxwin k env s
  | .rxwinStart w => Sys2Proof.Machine.execRxwinStart w s
  | .rxwinEnd w => Sys2Proof.Machine.execRxwinEnd w s
  | .opTxf k env => Sys2Proof.Machine.execOpTxf k env s
  | .opLbt k env => Sys2Proof.Machine.execOpLbt k env s
  | .opCalltx k env => Sys2Proof.Machine.execOpCalltx k env s
  | .opAckw k env => Sys2Proof.Machine.execOpAckw k env s
  | .opRssi k env => Sys2Proof.Machine.execOpRssi k env s
  | .opGack k env => Sys2Proof.Machine.execOpGack k env s
  | .opRget k env => Sys2Proof.Machine.execOpRget k env s
  | .opRput k env => Sys2Proof.Machine.execOpRput k env s
  | .opMacq k env => Sys2Proof.Machine.execOpMacq k env s
  | .opBudg k env => Sys2Proof.Machine.execOpBudg k env s
  | .opLock k env => Sys2Proof.Machine.execOpLock k env s
  | .opFree k env => Sys2Proof.Machine.execOpFree k env s
  | .opCas k env => Sys2Proof.Machine.execOpCas k env s
  | .opCopy k env => Sys2Proof.Machine.execOpCopy k env s
  | .opFrag k env => Sys2Proof.Machine.execOpFrag k env s
  | .opAbsorb k env => Sys2Proof.Machine.execOpAbsorb k env s
  | .opRelease k env => Sys2Proof.Machine.execOpRelease k env s
  | .opTopen k env => Sys2Proof.Machine.execOpTopen k env s
  | .opFind k env => Sys2Proof.Machine.execOpFind k env s
  | .opSeal k env => Sys2Proof.Machine.execOpSeal k env s
  | .opOpen k env => Sys2Proof.Machine.execOpOpen k env s
  | .opChk k env => Sys2Proof.Machine.execOpChk k env s
  | .engineOperationEnd id env => Sys2Proof.Machine.execEngineOperationEnd id env s
  | .opPost k env => Sys2Proof.Machine.execOpPost k env s
  | .opWaite k env => Sys2Proof.Machine.execOpWaite k env s
  | .waiteTimeout k => Sys2Proof.Machine.execWaiteTimeout k s
  | .opSig k env => Sys2Proof.Machine.execOpSig k env s
  | .dmaStart m n v => Sys2Proof.Machine.execDmaStart m n v s
  | .dmaStop m n v => Sys2Proof.Machine.execDmaStop m n v s
  | .dmaTransferEnd n env => Sys2Proof.Machine.execDmaTransferEnd n env s
  | .svcIdent k env => Sys2Proof.Machine.execSvcIdent k env s
  | .svcFill k env => Sys2Proof.Machine.execSvcFill k env s
  | .svcPrimerCopy k env => Sys2Proof.Machine.execSvcPrimerCopy k env s
  | .svcCrc k env => Sys2Proof.Machine.execSvcCrc k env s
  | .svcPtclear k env => Sys2Proof.Machine.execSvcPtclear k env s
  | .svcReturn k env => Sys2Proof.Machine.execSvcReturn k env s
  | .lockSequenceStart x => Sys2Proof.Machine.execLockSequenceStart x s
  | .lockDeclared x band count => Sys2Proof.Machine.execLockDeclared x band count s
  | .lockAttemptFail x => Sys2Proof.Machine.execLockAttemptFail x s
  | .lossOfLock x => Sys2Proof.Machine.execLossOfLock x s
  | .lossOfReference x => Sys2Proof.Machine.execLossOfReference x s
  | .tcxoPresent => Sys2Proof.Machine.execTcxoPresent s
  | .relockCmc m v => Sys2Proof.Machine.execRelockCmc m v s
  | .relockCmr m v => Sys2Proof.Machine.execRelockCmr m v s
  | .coreByp m v => Sys2Proof.Machine.execCoreByp m v s
  | .cmrEn m v => Sys2Proof.Machine.execCmrEn m v s
  | .tcxoModeWrite m v => Sys2Proof.Machine.execTcxoModeWrite m v s
  | .fboMeasure count => Sys2Proof.Machine.execFboMeasure count s
  | .requestSleep m v => Sys2Proof.Machine.execRequestSleep m v s
  | .requestDeepSleep m v => Sys2Proof.Machine.execRequestDeepSleep m v s
  | .requestOff m v => Sys2Proof.Machine.execRequestOff m v s
  | .requestCancel m v => Sys2Proof.Machine.execRequestCancel m v s
  | .quietPoint => Sys2Proof.Machine.execQuietPoint s
  | .graceExpiry => Sys2Proof.Machine.execGraceExpiry s
  | .wakePin => Sys2Proof.Machine.execWakePin s
  | .selectFallWake p => Sys2Proof.Machine.execSelectFallWake p s
  | .wakeFromOff => Sys2Proof.Machine.execWakeFromOff s
  | .wakeCoreReady => Sys2Proof.Machine.execWakeCoreReady s
  | .clearingEnd b => Sys2Proof.Machine.execClearingEnd b s
  | .idleEntry => Sys2Proof.Machine.execIdleEntry s
  | .claimGrant => Sys2Proof.Machine.execClaimGrant s
  | .budgetWrite m v => Sys2Proof.Machine.execBudgetWrite m v s
  | .claimTabWrite m v => Sys2Proof.Machine.execClaimTabWrite m v s
  | .peakClr m => Sys2Proof.Machine.execPeakClr m s
  | .scrubWriteBack w => Sys2Proof.Machine.execScrubWriteBack w s
  | .inj m v => Sys2Proof.Machine.execInj m v s
  | .brushRegionStart => Sys2Proof.Machine.execBrushRegionStart s
  | .regionTestEnd o => Sys2Proof.Machine.execRegionTestEnd o s
  | .maxwaitRead m => Sys2Proof.Machine.execMaxwaitRead m s
  | .wakeLastRead m => Sys2Proof.Machine.execWakeLastRead m s
  | .resetNLow => Sys2Proof.Machine.execResetNLow s
  | .resetNRelease => Sys2Proof.Machine.execResetNRelease s
  | .primerStartup env => Sys2Proof.Machine.execPrimerStartup s env
  | .softReset m v => Sys2Proof.Machine.execSoftReset m v s
  | .pinWordWrite m n v => Sys2Proof.Machine.execPinWordWrite m n v s
  | .gpInputChange n level => Sys2Proof.Machine.execGpInputChange n level s
  | .inRefresh => Sys2Proof.Machine.execInRefresh s
  | .syncPulse => Sys2Proof.Machine.execSyncPulse s
  | .codeMarker => Sys2Proof.Machine.execCodeMarker s
  | .lineEdge o => Sys2Proof.Machine.execLineEdge o s
  | .timeCode code => Sys2Proof.Machine.execTimeCode code s
  | .holdover => Sys2Proof.Machine.execHoldover s
  | .frameRun m v => Sys2Proof.Machine.execFrameRun m v s
  | .sysLock m v => Sys2Proof.Machine.execSysLock m v s
  | .xo32Edge => Sys2Proof.Machine.execXo32Edge s
  | .ckRadioWaitExpiry => Sys2Proof.Machine.execCkRadioWaitExpiry s
  | .opcodeTrap k env => Sys2Proof.Machine.execOpcodeTrap k env s
  | .cascadeFrameEnd p o => Sys2Proof.Machine.execCascadeFrameEnd p o s

end Sys2Proof.Machine
end

