-- ==== Sys2Proof/Safety.lean ====
section
/-! DEFINITION. What counts as a safe run: a command completes (it answers a next state), and the tables that hold memory
and the registers stay in canonical form, so that equal contents are equal data. -/

namespace Sys2Proof.Machine

/-- Command `c` completes in `s`: it answers a next state, not a fault or a refusal. -/
def Completes (c : Instr) (s : State) : Prop := ∃ t, exec c s = .next t

/-- `t` is what command `c` makes of `s`. -/
def Yields (c : Instr) (s t : State) : Prop := exec c s = .next t

/-- Memory is in its canonical form: addresses strictly rising, no entry equal to an unlisted byte. -/
def State.memOk (s : State) : Prop := Memory.wf s.mem = true

/-- The register file is in its canonical form: offsets strictly rising, no entry equal to its register's reset word. -/
def State.regsOk (s : State) : Prop := Tab.wf regReset s.regs = true

/-- What a write of the word `w` leaves in a field of a register that holds `r`, by the field's access code (R9, R11): an RW
field takes an encoding that is not reserved, a W1C field that is written 1 becomes 0, and every other one keeps its value. -/
def FieldDef.after (f : FieldDef) (w r : Word) : Nat :=
  match f.acc with
  | .rw => if f.takes (getBits w f.hi f.lo) then getBits w f.hi f.lo else getBits r f.hi f.lo
  | .w1c => if getBits w f.hi f.lo = 1 then 0 else getBits r f.hi f.lo
  | .ro | .wo | .w1s | .rc => getBits r f.hi f.lo

/-- The state at the moment a register access or an event takes effect: a device in Idle is back in Run (R320), and the
counter has moved on within its XO32 period (R23). -/
def State.moment (s : State) : State := s.leaveIdle.touch

/-- `t` differs from `u` in the register at `off` at most: every other register and everything else is as in `u`. -/
def State.onlyReg (u t : State) (off : Nat) : Prop :=
  (∀ o, o ≠ off → t.reg o = u.reg o) ∧ { t with regs := u.regs } = u

/-- The invariant of the model: memory and register file in canonical form. -/
def State.Inv (s : State) : Prop := s.memOk ∧ s.regsOk

/-- No bank word that `n` bytes from `a` touch is uncorrectable. -/
def State.usable (s : State) (a n : Nat) : Prop := ∀ x ∈ wordsOf a n, s.mark x ≠ .bad

/-- Every bank word that `n` bytes from `a` touch holds a valid code word. -/
def State.clean (s : State) (a n : Nat) : Prop := ∀ x ∈ wordsOf a n, s.mark x = .good

/-- Context `k` is about to issue the instruction word `w` (R268, R273): the core serves it, it is ready with an instruction
of its own, no promoted request of its core goes first (R271), it may fetch at p, and the word there is free of parity and uncorrectable errors. -/
def State.fetches (s : State) (k : Fin 64) (env : Env) (w : Nat) : Prop :=
  s.issues k = true ∧ (s.cx k.val).badEntry = 0 ∧
    fetchable (s.cx k.val).p.toNat = true ∧ env.parity = .none ∧ s.num (4 * (s.cx k.val).p.toNat) 4 = w ∧
    (s.upset env).usable (4 * (s.cx k.val).p.toNat) 4

/-- The state after that fetch: the counter has moved on, the cells of `env` have flipped, the context's next request is dated
from now (R271), a corrected error of the fetch is counted (R347). -/
def State.fetched (s : State) (k : Fin 64) (env : Env) : State :=
  let u := s.touch.upset env
  ((u.setCx k.val { s.cx k.val with since := u.stamp }).readSpan (4 * (s.cx k.val).p.toNat) 4).1

/-- Context `k`, with the registers `c`, has gone on to its next instruction with the status word `w` in g_d and Z by the
status (R287); a device in Idle is back in Run. -/
def State.answered (u : State) (k : Fin 64) (c : Ctx) (d w : Nat) : State :=
  (u.setCx k.val { c.next.wr d (BitVec.ofNat 32 w) with
    st := .ready, susp := .none, z := decide (w % 256 = 0), since := u.stamp }).leaveIdle

/-- Context `k`, with the registers `c`, is parked after its instruction. -/
def State.parked (u : State) (k : Fin 64) (c : Ctx) (why : Wait) (what : Susp) : State :=
  u.setCx k.val { c.next with st := .parked why, susp := what }

/-- Commands that may reach the key store: accesses to registers (a host frame, RPUT, a write command), the end of an
engine operation (a key slot may fail its parity), and what resets the device or powers it down. -/
def mayTouchKeys : Instr → Bool
  | .registerWrite _ _ _ | .arm _ _ _ | .cancel _ _ _ | .syaVco _ | .sybVco _ | .sytVco _ | .rxaIq _ | .rxbIq _
  | .tempStart _ | .flush _ | .grpReqSet _ _ | .grpReqClear _ _ | .cntClr _ | .laneRingWrite _ _ _ | .txpAbort _
  | .sglClr _ _ | .secondsChange _ _ _ | .keySelect _ _ | .keyLoad _ _ | .keyErase _ _ | .eraseAll _ | .nextWrite _ _
  | .wkrEnable _ _ | .cal _ _ | .cascadeEnable _ _ _ | .ringTailWrite _ _ _ | .eventRingWrite _ _ _ _ | .semTake _ _
  | .semFree _ _ | .dmaStart _ _ _ | .dmaStop _ _ _ | .relockCmc _ _ | .relockCmr _ _ | .coreByp _ _ | .cmrEn _ _
  | .tcxoModeWrite _ _ | .requestSleep _ _ | .requestDeepSleep _ _ | .requestOff _ _ | .requestCancel _ _
  | .budgetWrite _ _ | .claimTabWrite _ _ | .peakClr _ | .inj _ _ | .softReset _ _ | .frameRun _ _ | .sysLock _ _ => true
  | .frameWrite _ _ | .opRput _ _ | .engineOperationEnd _ _ => true
  | .quietPoint | .graceExpiry | .wakeFromOff | .resetNLow | .resetNRelease => true
  | _ => false

end Sys2Proof.Machine
end

