-- ==== Sys2Proof/Certificates/Slice0/Obligations.lean ====
section
/-! DEFINITION. The statements for the provers, one def per obligation. Each docstring says what the statement claims and
which rules of the manual it rests on. -/

open Sys2Proof Sys2Proof.Machine

/-- A step with a command at the front of the queue is that command, carried out with the queue's rest waiting. -/
def Obligations.StepRunsFrontCommand : Prop :=
  ∀ (c : Instr) (rest : List Instr) (s : State), s.pending = c :: rest → step s = exec c { s with pending := rest }

/-- With no command waiting a step leaves the block as it is. The model's choice (log entry 8): the manual's own timers and
engines act through their rows of the opcode table. -/
def Obligations.EmptyQueueIdles : Prop := ∀ s : State, s.pending = [] → step s = .next s

/-- The state after reset: the counter at tick 0, every byte of the banks zero, register words as the register tables give
them, the three dither seeds, no key, no used handle slot, every semaphore free, every launcher disarmed, every context
free, and the balls the device drives low. (The zero contents of the context registers are the model's choice, log entry 2.) -/
def Obligations.ResetLeavesTheTabulatedValues : Prop :=
  State.reset.tick = 0 ∧ (∀ a, inRom a = false → State.reset.byte a = 0#8) ∧
  State.reset.reg CLK_CTRL.off = 0x1#32 ∧ State.reset.reg CLK_TCXO_CFG.off = 0x07D00000#32 ∧
  State.reset.reg PWR_REQ.off = 0xA01#32 ∧ State.reset.reg WELL_BUDGET.off = 0x00420096#32 ∧
  (∀ p : Fin 4, State.reset.reg (HPn_RING_BASE.off p.val) = BitVec.ofNat 32 (0x200000 + 0x1000 * p.val) ∧
    State.reset.reg (HPn_RING_SIZE.off p.val) = 0x1000#32) ∧
  (∀ n : Fin 16, State.reset.reg (SEQ_SEMn.off n.val) = 0x7F#32) ∧
  State.reset.reg CHZ_CTRL.off = 0xC#32 ∧ State.reset.reg LANE_RING_BASE.off = 0x100000#32 ∧
  State.reset.reg TXP_CTRL.off = 0xD20#32 ∧ State.reset.reg SEC_CTRL.off = 0x40A#32 ∧
  State.reset.reg WKR_CFG.off = 0xFFFE2040#32 ∧
  State.reset.sya.seed = 0x15A3C1 ∧ State.reset.syb.seed = 0x6B0E5D ∧ State.reset.syt.seed = 0x3CF192 ∧
  (∀ k, State.reset.key k = Key.empty) ∧ (∀ p i, State.reset.slot p i = Slot.fresh) ∧
  (∀ n, State.reset.sem n = Sem.free) ∧ (∀ n, State.reset.launcher n = Lnch.off) ∧
  (∀ k, (State.reset.cx k).st = .free) ∧ State.reset.pins.paEn = false ∧ State.reset.pins.tcxoEn = false

/-- After reset memory and the register file are in canonical form. -/
def Obligations.ResetMeetsInvariant : Prop := State.reset.Inv

/-- From every state in which memory and the register file are in canonical form (keys strictly rising, no entry equal to
what an unlisted key reads as), whatever command stands in front, the next state is in canonical form too; so equal
contents are equal data after any run. -/
def Obligations.EveryStepKeepsTheInvariant : Prop := ∀ s t : State, s.Inv → step s = .next t → t.Inv

/-- A step takes the front command off the queue and leaves the rest in order: no command's effect puts a command there. -/
def Obligations.StepTakesExactlyOneCommand : Prop :=
  ∀ (c : Instr) (rest : List Instr) (s t : State), s.pending = c :: rest → step s = .next t → t.pending = rest

/-- Whatever a command that is no register access by a host or RPUT, no end of an engine operation, no reset and no
power-down does, every key slot and the key data registers stay as they are: no Easel instruction but RPUT, no frame but
WRITE, no receive, transmit, timer or memory event reaches a key. -/
def Obligations.KeyStoreIsOutOfReach : Prop :=
  ∀ (c : Instr) (s t : State), mayTouchKeys c = false → exec c s = .next t → t.keys = s.keys ∧ t.keyData = s.keyData

/-- No command in no state ends in a fault or a refusal: the manual gives every command an effect, if only that of leaving
the device as it is. -/
def Obligations.EveryCommandCompletes : Prop := ∀ (c : Instr) (s : State), Completes c s

/-- REGISTER_WRITE of a register that sets nothing else going (a port's configuration, interrupt flags and enables, the ECC
registers, the sketch table's base): an RW field takes an encoding that is not reserved and keeps its value otherwise, a
W1C field written 1 becomes 0, every other field keeps its value, and no other register and nothing else changes. A write
to an address where no register lies changes nothing. Completion is said for registerWrite. -/
def Obligations.RegisterWriteFollowsTheAccessCodes : Prop :=
  ∀ (m : Master) (v : Word) (s : State), s.reaches m = true →
    (∀ p : Fin 4, ∀ off ∈ [HPn_CFG.off p.val, HPn_IRQ_FLAG.off p.val, HPn_IRQ_EN.off p.val, MEM_ECC_CFG.off,
        MEM_ECC_STAT.off, SEQ_CTRL.off, SEQ_SKETCH_BASE.off, WKR_CLASS_MASK.off, TXP_STAT.off],
      ∃ t, exec (.registerWrite m (0x3000000 + off) v) s = .next t ∧ s.moment.onlyReg t off ∧
        ∀ d, findReg off = some d → ∀ f ∈ d.fields, getBits (t.reg off) f.hi f.lo = f.after v (s.reg off)) ∧
    (∀ a, (a < 0x3000000 ∨ a % 4 ≠ 0 ∨ implemented (a - 0x3000000) = false) →
      exec (.registerWrite m a v) s = .next s.moment)

/-- KEY_LOAD stores the 16 bytes of SEC_KEY_DATA0-3 (byte 0 in [7:0] of the first), PAIRWISE and CTR_ENTRY into slot SLOT
and KEY_ERASE empties it; both leave SEC_KEY_DATA0-3 zero, every other slot as it was. KEY_SELECT selects SLOT and changes
no key. Only SEC_KEY_SEL changes among the registers, and nothing else. ERASE_ALL empties every slot and changes no
register but SEC_CTRL. Completion is said for keySelect, keyLoad, keyErase and eraseAll. -/
def Obligations.KeyCommandsReachTheSlotTheyName : Prop :=
  ∀ (m : Master) (v : Word) (s : State), s.reaches m = true →
    (∃ t, exec (.keySelect m v) s = .next t ∧ t.fld SEC_KEY_SEL.SLOT = getBits v 5 0 ∧
      s.moment.onlyReg t SEC_KEY_SEL.off) ∧
    (∃ t, exec (.keyLoad m v) s = .next t ∧
      t.key (getBits v 5 0) = ⟨1, bit v 29, getBits v 27 16, s.keyBytes⟩ ∧
      (∀ k, k ≠ getBits v 5 0 → t.key k = s.key k) ∧ t.keyData = [] ∧
      s.moment.onlyReg { t with keys := s.moment.keys, keyData := s.moment.keyData } SEC_KEY_SEL.off) ∧
    (∃ t, exec (.keyErase m v) s = .next t ∧ t.key (getBits v 5 0) = Key.empty ∧
      (∀ k, k ≠ getBits v 5 0 → t.key k = s.key k) ∧ t.keyData = [] ∧
      s.moment.onlyReg { t with keys := s.moment.keys, keyData := s.moment.keyData } SEC_KEY_SEL.off) ∧
    (∃ t, exec (.eraseAll m) s = .next t ∧ (∀ k, t.key k = Key.empty) ∧
      s.moment.onlyReg { t with keys := s.moment.keys } SEC_CTRL.off)

/-- REQUEST_SLEEP, REQUEST_DEEP_SLEEP and REQUEST_OFF (Off only with KEY = 0x0F) without CANCEL place their request over a
pending one; REQUEST_CANCEL with OP = 0b00 withdraws it; a write with CANCEL = 1 and an OP, or Off without its KEY, leaves
the pending request. Only PWR_REQ changes among the registers, and nothing else. Completion is said for requestSleep,
requestDeepSleep, requestOff and requestCancel. -/
def Obligations.PowerRequestsArePlacedAndWithdrawn : Prop :=
  ∀ (m : Master) (v : Word) (s : State), s.reaches m = true →
    (bit v 29 = false → ∃ t, exec (.requestSleep m v) s = .next t ∧
      s.moment.onlyReg { t with pwr := s.moment.pwr } PWR_REQ.off ∧
      t.pwr = { s.moment.pwr with req := 1, reqAt := t.stamp }) ∧
    (bit v 29 = false → ∃ t, exec (.requestDeepSleep m v) s = .next t ∧
      s.moment.onlyReg { t with pwr := s.moment.pwr } PWR_REQ.off ∧
      t.pwr = { s.moment.pwr with req := 2, reqAt := t.stamp }) ∧
    (bit v 29 = false → getBits v 23 16 = 0x0F → ∃ t, exec (.requestOff m v) s = .next t ∧
      s.moment.onlyReg { t with pwr := s.moment.pwr } PWR_REQ.off ∧
      t.pwr = { s.moment.pwr with req := 3, reqAt := t.stamp }) ∧
    (bit v 29 = true → ∃ t, exec (.requestSleep m v) s = .next t ∧ s.moment.onlyReg t PWR_REQ.off) ∧
    (bit v 29 = true → ∃ t, exec (.requestDeepSleep m v) s = .next t ∧ s.moment.onlyReg t PWR_REQ.off) ∧
    (bit v 29 = true → ∃ t, exec (.requestOff m v) s = .next t ∧ s.moment.onlyReg t PWR_REQ.off) ∧
    (getBits v 31 30 = 0 → ∃ t, exec (.requestCancel m v) s = .next t ∧ t.pwr = { s.moment.pwr with req := 0 } ∧
      s.moment.onlyReg { t with pwr := s.moment.pwr } PWR_REQ.off) ∧
    (getBits v 31 30 ≠ 0 → ∃ t, exec (.requestCancel m v) s = .next t ∧ s.moment.onlyReg t PWR_REQ.off) ∧
    (getBits v 23 16 ≠ 0x0F → ∃ t, exec (.requestOff m v) s = .next t ∧ s.moment.onlyReg t PWR_REQ.off)

/-- SEM_TAKE takes the semaphore for the writing port when it is free and no context waits, and has no effect otherwise.
SEM_FREE by the port that owns it frees it when no context waits, and is ignored when the port is not its owner. Nothing
else changes. Completion is said for semTake and semFree. -/
def Obligations.HostSemaphoreAccess : Prop :=
  ∀ (p : Fin 4) (n : Fin 16) (s : State), s.reaches (.host p) = true → s.regsOk →
    (s.sem n.val = Sem.free →
      exec (.semTake p n) s = .next (s.moment.setSem n.val ⟨some (0x40 + p.val), []⟩)) ∧
    ((s.sem n.val).owner ≠ none ∨ (s.sem n.val).wait ≠ [] → exec (.semTake p n) s = .next s.moment) ∧
    ((s.sem n.val) = ⟨some (0x40 + p.val), []⟩ → exec (.semFree p n) s = .next (s.moment.setSem n.val Sem.free)) ∧
    ((s.sem n.val).owner ≠ some (0x40 + p.val) → exec (.semFree p n) s = .next s.moment)

/-- With SYS_LOCK open: RELOCK_CMn of a locked or failed multiplier, CORE_BYP and CMR_EN unchanged, leaves it waiting for its
next lock sequence with ATTEMPT 0 and the bit reading 1. A change of CORE_BYP powers CMC off, or lets it wait for its
reference. A change of CMR_EN to 1 lets an idle CMR wait, one to 0 powers a CMR off that has not failed. With CMR_EN = 1 a
change of MODE to 0 or 1 raises TCXO_EN. Those that touch CMC alone leave everything else but registers alone. Completion is
said for relockCmc, relockCmr, coreByp, cmrEn and tcxoModeWrite. -/
def Obligations.ClockRequestsActOnTheirMultiplier : Prop :=
  ∀ (m : Master) (v : Word) (s : State), s.reaches m = true → s.on SYS_LOCK.LOCK = false → s.pwr.st ≠ .waking →
    (getBits v 4 4 = s.fld CLK_CTRL.CORE_BYP → getBits v 0 0 = s.fld CLK_CTRL.CMR_EN → bit v 3 = false →
      (s.cmc.st = 5 ∨ s.cmc.st = 6) →
      ∃ t, exec (.relockCmc m v) s = .next t ∧ t.cmc.st = 1 ∧ t.on CLK_CTRL.RELOCK_CMC = true ∧
        t.fld (CLK_CMn_STAT.ATTEMPT 0) = 0 ∧ { t with regs := s.regs, cmc := s.cmc } = s.moment) ∧
    (getBits v 4 4 = s.fld CLK_CTRL.CORE_BYP → getBits v 0 0 = s.fld CLK_CTRL.CMR_EN → bit v 2 = false →
      (s.cmr.st = 5 ∨ s.cmr.st = 6) →
      ∃ t, exec (.relockCmr m v) s = .next t ∧ t.cmr.st = 1 ∧ t.on CLK_CTRL.RELOCK_CMR = true ∧
        t.fld (CLK_CMn_STAT.ATTEMPT 1) = 0) ∧
    (getBits v 4 4 ≠ s.fld CLK_CTRL.CORE_BYP → getBits v 0 0 = s.fld CLK_CTRL.CMR_EN → getBits v 3 2 = 0 →
      ∃ t, exec (.coreByp m v) s = .next t ∧ t.on CLK_CTRL.CORE_BYP = bit v 4 ∧ t.cmc.st = (if bit v 4 then 0 else 1) ∧
        t.fld (CLK_CMn_STAT.ATTEMPT 0) = 0 ∧ { t with regs := s.regs, cmc := s.cmc } = s.moment) ∧
    (getBits v 4 4 = s.fld CLK_CTRL.CORE_BYP → getBits v 0 0 ≠ s.fld CLK_CTRL.CMR_EN → getBits v 3 2 = 0 →
      s.fld CLK_TCXO_CFG.MODE ≠ 2 →
      ∃ t, exec (.cmrEn m v) s = .next t ∧ t.on CLK_CTRL.CMR_EN = bit v 0 ∧
        t.cmr.st = (if bit v 0 then (if s.cmr.st = 0 then 1 else s.cmr.st) else if s.cmr.st = 6 then 6 else 0)) ∧
    (s.on CLK_CTRL.CMR_EN = true → getBits v 31 30 ≠ s.fld CLK_TCXO_CFG.MODE → getBits v 31 30 ≤ 1 →
      ∃ t, exec (.tcxoModeWrite m v) s = .next t ∧ t.fld CLK_TCXO_CFG.MODE = getBits v 31 30 ∧ t.pins.tcxoEn = true ∧
        t.cmr.st = (if s.cmr.st = 0 then 1 else s.cmr.st))

/-- BUDGET_WRITE with no claim waiting stores a BUDGET that is not reserved and changes nothing else. CLAIM_TAB_WRITE with
SYS_LOCK open writes VALUE (at most 2046) into the entry INDEX names and no other. PEAK_CLR sets PEAK to WELL_USED.
Completion is said for budgetWrite, claimTabWrite and peakClr. -/
def Obligations.WellRegistersTakeBudgetTableAndPeak : Prop :=
  ∀ (m : Master) (v : Word) (s : State), s.reaches m = true →
    (s.well.queue = [] → ∃ t, exec (.budgetWrite m v) s = .next t ∧ s.moment.onlyReg t WELL_BUDGET.off ∧
      t.fld WELL_BUDGET.BUDGET = (if 16 ≤ getBits v 9 0 then getBits v 9 0 else s.fld WELL_BUDGET.BUDGET)) ∧
    (s.on SYS_LOCK.LOCK = false → getBits v 22 16 ≤ 80 →
      ∃ t, exec (.claimTabWrite m v) s = .next t ∧ t.fld WELL_CLAIM_TAB.INDEX = getBits v 22 16 ∧
        (∀ l, t.paClaim l = if l = getBits v 22 16 ∧ getBits v 11 0 ≤ 2046 then getBits v 11 0 else s.paClaim l) ∧
        s.moment.onlyReg { t with well := { t.well with tab := s.well.tab } } WELL_CLAIM_TAB.off) ∧
    (∃ t, exec (.peakClr m) s = .next t ∧ t.fld WELL_USED.PEAK = s.moment.wellUsed % 2048 ∧
      s.moment.onlyReg t WELL_USED.off)

/-- RING_TAIL_WRITE stores a TAIL on a record boundary within the span from TAIL to HEAD and keeps the present one
otherwise. EVENT_RING_WRITE and LANE_RING_WRITE judge BASE and SIZE together, a register the commit does not write at its
present value: a pair that obeys the rules of its table is stored and the ring is empty afterwards (the frame ring's: when
the pair has changed; with LANE_CTRL.EN = 1 the write is ignored); a refused pair changes nothing. Completion is said for
ringTailWrite, eventRingWrite and laneRingWrite. -/
def Obligations.RingRegistersObeyTheirRules : Prop :=
  ∀ (m : Master) (n : Fin 4) (v : Word) (base size : Option Word) (s : State), s.reaches m = true →
    (s.eventTailOk n.val (getBits v 15 0) = true → ∃ t, exec (.ringTailWrite m n v) s = .next t ∧
      s.moment.onlyReg t (HPn_RING_TAIL.off n.val) ∧ t.fld (HPn_RING_TAIL.TAIL n.val) = getBits v 15 0) ∧
    (s.eventTailOk n.val (getBits v 15 0) = false → ∃ t, exec (.ringTailWrite m n v) s = .next t ∧
      s.moment.onlyReg t (HPn_RING_TAIL.off n.val) ∧
      t.fld (HPn_RING_TAIL.TAIL n.val) = s.fld (HPn_RING_TAIL.TAIL n.val)) ∧
    (base ≠ none ∨ size ≠ none →
      ((base.getD (s.reg (HPn_RING_BASE.off n.val))).toNat % 16 = 0 ∧
        getBits (size.getD (s.reg (HPn_RING_SIZE.off n.val))) 16 0 % 16 = 0 ∧
        0x200000 ≤ (base.getD (s.reg (HPn_RING_BASE.off n.val))).toNat ∧
        256 ≤ getBits (size.getD (s.reg (HPn_RING_SIZE.off n.val))) 16 0 ∧
        getBits (size.getD (s.reg (HPn_RING_SIZE.off n.val))) 16 0 ≤ 0x10000 ∧
        (base.getD (s.reg (HPn_RING_BASE.off n.val))).toNat + getBits (size.getD (s.reg (HPn_RING_SIZE.off n.val))) 16 0
          ≤ 0x300000) →
      ∃ t, exec (.eventRingWrite m n base size) s = .next t ∧
        t.reg (HPn_RING_BASE.off n.val) = base.getD (s.reg (HPn_RING_BASE.off n.val)) ∧
        t.fld (HPn_RING_SIZE.SIZE n.val) = getBits (size.getD (s.reg (HPn_RING_SIZE.off n.val))) 16 0 ∧
        t.fld (HPn_RING_HEAD.HEAD n.val) = 0 ∧ t.fld (HPn_RING_TAIL.TAIL n.val) = 0 ∧ (t.port n.val).lost = 0 ∧
        t.mem = s.mem) ∧
    (s.on LANE_CTRL.EN = false → base ≠ none ∨ size ≠ none →
      ((base.getD (s.reg LANE_RING_BASE.off)).toNat % 64 = 0 ∧
        getBits (size.getD (s.reg LANE_RING_SIZE.off)) 20 0 % 64 = 0 ∧
        0x100000 ≤ (base.getD (s.reg LANE_RING_BASE.off)).toNat ∧
        1024 ≤ getBits (size.getD (s.reg LANE_RING_SIZE.off)) 20 0 ∧
        getBits (size.getD (s.reg LANE_RING_SIZE.off)) 20 0 ≤ 0x100000 ∧
        (base.getD (s.reg LANE_RING_BASE.off)).toNat + getBits (size.getD (s.reg LANE_RING_SIZE.off)) 20 0 ≤ 0x200000) →
      ∃ t, exec (.laneRingWrite m base size) s = .next t ∧
        t.reg LANE_RING_BASE.off = base.getD (s.reg LANE_RING_BASE.off) ∧
        t.fld LANE_RING_SIZE.SIZE = getBits (size.getD (s.reg LANE_RING_SIZE.off)) 20 0 ∧
        (t.reg LANE_RING_BASE.off ≠ s.reg LANE_RING_BASE.off ∨ t.fld LANE_RING_SIZE.SIZE ≠ s.fld LANE_RING_SIZE.SIZE →
          t.fld LANE_RING_HEAD.HEAD = 0 ∧ t.fld LANE_RING_TAIL.TAIL = 0) ∧
        { t with regs := s.regs } = s.moment) ∧
    (s.on LANE_CTRL.EN = true →
      ∃ t, exec (.laneRingWrite m base size) s = .next t ∧ t.fld LANE_RING_BASE.BASE = s.fld LANE_RING_BASE.BASE ∧
        t.fld LANE_RING_SIZE.SIZE = s.fld LANE_RING_SIZE.SIZE ∧ t.fld LANE_RING_HEAD.HEAD = s.fld LANE_RING_HEAD.HEAD ∧
        { t with regs := s.regs } = s.moment)

/-- ARM without CANCEL on a launcher that is not armed with RADIO arms it with the stamp of its TIME registers, the ACTION,
ARG, REPEAT and LATE_POL that the write leaves, late when the stamp has been reached or is less than 16 fine units ahead;
ARMED reads 1, FIRED, MISSED and FIRE_CNT read 0; no other launcher and no other register changes. CANCEL disarms a
launcher that a register write armed; no other launcher changes. Both are said for a launcher with no occurrence due by the
cycle of the write; a one-shot of action NONE that is due is carried out first, so FIRED reads 1. Completion is said for arm
and cancel. -/
def Obligations.LaunchersAreArmedAndCancelledByRegister : Prop :=
  ∀ (m : Master) (n : Fin 32) (v : Word) (s : State), s.reaches m = true →
    (bit v 29 = false → ((s.launcher n.val).armed = false ∨ ((s.launcher n.val).action ≠ 1 ∧
        s.coreCycle s.moment.stamp < s.coreCycle (s.launcher n.val).stamp)) →
      ∃ t, exec (.arm m n v) s = .next t ∧
        t.launcher n.val = ⟨true, wordStamp ((s.reg (CVN_Ln_TIME_HI.off n.val)).toNat * 2 ^ 32 +
          (s.reg (CVN_Ln_TIME_LO.off n.val)).toNat),
          if getBits v 15 12 ≤ 10 ∧ getBits v 15 12 ≠ 1 then getBits v 15 12 else s.fld (CVN_Ln_ACT.ACTION n.val),
          getBits v 7 0, getBits v 11 8,
          if getBits v 25 24 ≤ 2 then getBits v 25 24 else s.fld (CVN_Ln_ACT.LATE_POL n.val), none, none,
          decide (wordStamp ((s.reg (CVN_Ln_TIME_HI.off n.val)).toNat * 2 ^ 32 +
            (s.reg (CVN_Ln_TIME_LO.off n.val)).toNat) < t.stamp + 16), none⟩ ∧
        (∀ i, i ≠ n.val → t.launcher i = s.launcher i) ∧ t.on (CVN_Ln_ACT.ARMED n.val) = true ∧
        t.on (CVN_Ln_ACT.FIRED n.val) = false ∧ t.on (CVN_Ln_ACT.MISSED n.val) = false ∧
        t.fld (CVN_Ln_ACT.FIRE_CNT n.val) = 0 ∧
        s.moment.onlyReg { t with lnch := s.lnch } (CVN_Ln_ACT.off n.val)) ∧
    ((s.launcher n.val).armed = true → (s.launcher n.val).op = none → (s.launcher n.val).owner = none →
      s.coreCycle s.moment.stamp < s.coreCycle (s.launcher n.val).stamp →
      ∃ t, exec (.cancel m n v) s = .next t ∧ t.launcher n.val = Lnch.off ∧ t.on (CVN_Ln_ACT.ARMED n.val) = false ∧
        (∀ i, i ≠ n.val → t.launcher i = s.launcher i) ∧
        s.moment.onlyReg { t with lnch := s.lnch } (CVN_Ln_ACT.off n.val)) ∧
    ((s.launcher n.val).armed = true → (s.launcher n.val).action = 0 → (s.launcher n.val).rep = 0 →
      (s.launcher n.val).late = false → (s.launcher n.val).wait = none → (s.launcher n.val).stamp ≤ s.moment.stamp →
      ∃ t, exec (.cancel m n v) s = .next t ∧ t.launcher n.val = Lnch.off ∧ t.on (CVN_Ln_ACT.FIRED n.val) = true ∧
        t.on (CVN_Ln_ACT.ARMED n.val) = false)

/-- A context that fetches one of these words goes on to the next instruction with g_d and the flags of Table 13-5: ADD and SUB
write the sum and difference with Z, N, C (carry out, no borrow) and V (signed overflow); CMP only sets those of a − b; AND,
IOR, XOR, MIN and MAX (x[0]: 0 signed, 1 unsigned) write Z and N alone; SEL writes a or b by condition x[3:0] and no flag.
g0 stays zero. Nothing else changes but the time from which the context's next request waits. Completion is said for opAdd,
opSub, opCmp, opAnd, opIor, opXor, opMin, opMax and opSel. -/
def Obligations.AluSumsLogicAndChoice : Prop :=
  ∀ (k : Fin 64) (env : Env) (w : Nat) (s : State), s.fetches k env w →
    let c := (s.fetched k env).cx k.val
    let a := c.rd (natBits w 21 18)
    let b := c.rd (natBits w 17 14)
    let d := natBits w 25 22
    let x := natBits w 13 0
    let ran (c : Ctx) : Host.Outcome State Fault Refusal := .next ((s.fetched k env).setCx k.val c)
    let zn (r : Word) : Ctx := { c.next.wr d r with z := decide (r = 0#32), n := r.msb }
    (natBits w 31 26 = 0x00 → x = 0 → exec (.opAdd k env) s =
      ran { zn (a + b) with c := decide (2 ^ 32 ≤ a.toNat + b.toNat), v := decide ((a + b).toInt ≠ a.toInt + b.toInt) }) ∧
    (natBits w 31 26 = 0x01 → x = 0 → exec (.opSub k env) s =
      ran { zn (a - b) with c := decide (b.toNat ≤ a.toNat), v := decide ((a - b).toInt ≠ a.toInt - b.toInt) }) ∧
    (natBits w 31 26 = 0x09 → x = 0 → d = 0 → exec (.opCmp k env) s =
      ran { c.next with z := decide (a = b), n := (a - b).msb, c := decide (b.toNat ≤ a.toNat),
                        v := decide ((a - b).toInt ≠ a.toInt - b.toInt) }) ∧
    (natBits w 31 26 = 0x02 → x = 0 → exec (.opAnd k env) s = ran (zn (a &&& b))) ∧
    (natBits w 31 26 = 0x03 → x = 0 → exec (.opIor k env) s = ran (zn (a ||| b))) ∧
    (natBits w 31 26 = 0x04 → x = 0 → exec (.opXor k env) s = ran (zn (a ^^^ b))) ∧
    (natBits w 31 26 = 0x0A → x = 0 → exec (.opMin k env) s = ran (zn (if a.toInt ≤ b.toInt then a else b))) ∧
    (natBits w 31 26 = 0x0A → x = 1 → exec (.opMin k env) s = ran (zn (if a.toNat ≤ b.toNat then a else b))) ∧
    (natBits w 31 26 = 0x0B → x = 0 → exec (.opMax k env) s = ran (zn (if b.toInt ≤ a.toInt then a else b))) ∧
    (natBits w 31 26 = 0x0B → x = 1 → exec (.opMax k env) s = ran (zn (if b.toNat ≤ a.toNat then a else b))) ∧
    (natBits w 31 26 = 0x0C → x < 16 → exec (.opSel k env) s = ran (c.next.wr d (if c.holds x then a else b)))

/-- SHL, SHR and SAR shift g_a by (g_b[4:0] + x[4:0]) mod 32 and set Z, N and C, the last bit shifted out and 0 for no shift.
MUL writes the low, unsigned high or signed high 32 bits of the product with Z and N. BFX extracts wid bits from pos, zero- or
sign-extended, with Z and N; BFI replaces them and sets no flag: bit i of the result is bit i − pos of b within the field and
bit i of a outside. Nothing else changes. Completion is said for opShl, opShr, opSar, opMul, opBfx and opBfi. -/
def Obligations.ShiftsProductsAndBitFields : Prop :=
  ∀ (k : Fin 64) (env : Env) (w : Nat) (s : State), s.fetches k env w →
    let c := (s.fetched k env).cx k.val
    let a := c.rd (natBits w 21 18)
    let b := c.rd (natBits w 17 14)
    let d := natBits w 25 22
    let x := natBits w 13 0
    let n := (b.toNat % 32 + natBits w 4 0) % 32
    let pos := natBits w 4 0
    let wid := natBits w 9 5 + 1
    let ran (c : Ctx) : Host.Outcome State Fault Refusal := .next ((s.fetched k env).setCx k.val c)
    let zn (r : Word) : Ctx := { c.next.wr d r with z := decide (r = 0#32), n := r.msb }
    (natBits w 31 26 = 0x05 → x < 32 → exec (.opShl k env) s =
      ran { zn (BitVec.ofNat 32 (a.toNat * 2 ^ n)) with c := decide (n ≠ 0 ∧ a.toNat / 2 ^ (32 - n) % 2 = 1) }) ∧
    (natBits w 31 26 = 0x06 → x < 32 → exec (.opShr k env) s =
      ran { zn (BitVec.ofNat 32 (a.toNat / 2 ^ n)) with c := decide (n ≠ 0 ∧ a.toNat / 2 ^ (n - 1) % 2 = 1) }) ∧
    (natBits w 31 26 = 0x07 → x < 32 → exec (.opSar k env) s =
      ran { zn (BitVec.ofInt 32 (a.toInt / 2 ^ n)) with c := decide (n ≠ 0 ∧ a.toNat / 2 ^ (n - 1) % 2 = 1) }) ∧
    (natBits w 31 26 = 0x08 → x = 0 → exec (.opMul k env) s = ran (zn (BitVec.ofNat 32 (a.toNat * b.toNat)))) ∧
    (natBits w 31 26 = 0x08 → x = 1 → exec (.opMul k env) s = ran (zn (BitVec.ofNat 32 (a.toNat * b.toNat / 2 ^ 32)))) ∧
    (natBits w 31 26 = 0x08 → x = 2 → exec (.opMul k env) s = ran (zn (BitVec.ofInt 32 (a.toInt * b.toInt / 2 ^ 32)))) ∧
    (natBits w 31 26 = 0x0D → x < 0x400 → natBits w 17 14 = 0 → pos + wid ≤ 32 → exec (.opBfx k env) s =
      ran (zn (BitVec.ofNat 32 (a.toNat / 2 ^ pos % 2 ^ wid)))) ∧
    (natBits w 31 26 = 0x0D → 0x400 ≤ x → x < 0x800 → natBits w 17 14 = 0 → pos + wid ≤ 32 → exec (.opBfx k env) s =
      ran (zn (BitVec.ofNat 32 (a.toNat / 2 ^ pos % 2 ^ wid + (if a.toNat.testBit (pos + wid - 1) then 2 ^ 32 - 2 ^ wid
        else 0))))) ∧
    (natBits w 31 26 = 0x0E → x < 0x400 → pos + wid ≤ 32 → ∃ r : Word,
      (∀ i, r.getLsbD i = if pos ≤ i ∧ i < pos + wid then b.getLsbD (i - pos) else a.getLsbD i) ∧
      exec (.opBfi k env) s = ran (c.next.wr d r))

/-- With imm sign-extended: ADDI writes g_a + imm and sets Z, N, C and V; ANDI, IORI and XORI write their result with Z and N;
CMPI (d = 0) sets the flags of g_a − imm alone; MOVI (a = 0) writes imm and HIGH imm << 14 with g_a[13:0], with no flag.
Nothing else changes. Completion is said for opAddi, opAndi, opIori, opXori, opCmpi, opMovi and opHigh. -/
def Obligations.ImmediateInstructions : Prop :=
  ∀ (k : Fin 64) (env : Env) (w : Nat) (s : State), s.fetches k env w →
    let c := (s.fetched k env).cx k.val
    let a := c.rd (natBits w 21 18)
    let d := natBits w 25 22
    let imm := natBits w 17 0
    let b := BitVec.ofNat 32 (if imm < 2 ^ 17 then imm else 2 ^ 32 - 2 ^ 18 + imm)
    let ran (c : Ctx) : Host.Outcome State Fault Refusal := .next ((s.fetched k env).setCx k.val c)
    let zn (r : Word) : Ctx := { c.next.wr d r with z := decide (r = 0#32), n := r.msb }
    (natBits w 31 26 = 0x10 → exec (.opAddi k env) s =
      ran { zn (a + b) with c := decide (2 ^ 32 ≤ a.toNat + b.toNat), v := decide ((a + b).toInt ≠ a.toInt + b.toInt) }) ∧
    (natBits w 31 26 = 0x11 → exec (.opAndi k env) s = ran (zn (a &&& b))) ∧
    (natBits w 31 26 = 0x12 → exec (.opIori k env) s = ran (zn (a ||| b))) ∧
    (natBits w 31 26 = 0x13 → exec (.opXori k env) s = ran (zn (a ^^^ b))) ∧
    (natBits w 31 26 = 0x14 → d = 0 → exec (.opCmpi k env) s =
      ran { c.next with z := decide (a = b), n := (a - b).msb, c := decide (b.toNat ≤ a.toNat),
                        v := decide ((a - b).toInt ≠ a.toInt - b.toInt) }) ∧
    (natBits w 31 26 = 0x15 → natBits w 21 18 = 0 → exec (.opMovi k env) s = ran (c.next.wr d b)) ∧
    (natBits w 31 26 = 0x16 → exec (.opHigh k env) s = ran (c.next.wr d (BitVec.ofNat 32 (imm * 2 ^ 14 + a.toNat % 2 ^ 14))))

/-- JMP whose condition holds goes to base + off words (base is p, or g_a ÷ 4 for a ≠ 0); CALL does so too and leaves the byte
address of the instruction after it in g15; RET goes to g_a ÷ 4 (g15 for a = 0); each only advances p when its condition does
not hold. LOOP takes 1 from g_a, and goes back by off when the result is not zero. YIELD only advances p. No flag changes. A
register that gives a code address must hold a multiple of 4; otherwise the instruction traps with cause ALIGN. Completion is
said for opJmp, opCall, opRet, opLoop and opYield. -/
def Obligations.ControlInstructions : Prop :=
  ∀ (k : Fin 64) (env : Env) (w : Nat) (s : State), s.fetches k env w →
    let c := (s.fetched k env).cx k.val
    let op := natBits w 31 26
    let g := natBits w 21 18
    let off : Int := if natBits w 17 0 < 2 ^ 17 then natBits w 17 0 else natBits w 17 0 - 2 ^ 18
    let base : Int := if g = 0 then c.p.toNat else ((c.rd g).toNat / 4 : Nat)
    let h := c.holds (natBits w 25 22)
    let i := if g = 0 then 15 else g
    let ran (c : Ctx) : Host.Outcome State Fault Refusal := .next ((s.fetched k env).setCx k.val c)
    (op = 0x20 → (g ≠ 0 → (c.rd g).toNat % 4 = 0) → exec (.opJmp k env) s =
      ran (if h then { c.next with p := BitVec.ofInt 22 (base + off) } else c.next)) ∧
    (op = 0x21 → (g ≠ 0 → (c.rd g).toNat % 4 = 0) → exec (.opCall k env) s =
      ran (if h then { c.next.wr 15 (BitVec.ofNat 32 (4 * (c.p.toNat + 1))) with p := BitVec.ofInt 22 (base + off) }
        else c.next)) ∧
    (op = 0x22 → natBits w 17 0 = 0 → (c.rd i).toNat % 4 = 0 → exec (.opRet k env) s =
      ran (if h then { c.next with p := BitVec.ofNat 22 ((c.rd i).toNat / 4) } else c.next)) ∧
    (op = 0x26 → natBits w 25 22 = 0 → g ≠ 0 → exec (.opLoop k env) s =
      ran (if c.rd g = 1#32 then c.next.wr g 0#32
        else { c.next.wr g (c.rd g - 1#32) with p := BitVec.ofInt 22 (c.p.toNat + off) })) ∧
    (op = 0x23 → natBits w 25 0 = 0 → exec (.opYield k env) s = ran c.next) ∧
    (op = 0x20 → g ≠ 0 → (c.rd g).toNat % 4 ≠ 0 → exec (.opJmp k env) s = .next ((s.fetched k env).trap k 5)) ∧
    (op = 0x21 → g ≠ 0 → (c.rd g).toNat % 4 ≠ 0 → exec (.opCall k env) s = .next ((s.fetched k env).trap k 5)) ∧
    (op = 0x22 → natBits w 17 0 = 0 → (c.rd i).toNat % 4 ≠ 0 → exec (.opRet k env) s = .next ((s.fetched k env).trap k 5))

/-- LDB, LDH and LDW read 1, 2 or 4 bytes from g_a + off, and LDP 1, 2 or 4 bytes of partner entry g_a: the context's own posted
stores over memory, zero-extended into g_d; the bytes must lie within one region and their words be usable. A split access is
counted and a corrected error recorded; nothing else changes but the context. An address outside a region traps with cause ADDR,
an entry or a field that does not exist with cause PTB. Completion is said for opLdb, opLdh, opLdw and opLdp. -/
def Obligations.LoadsReadWhatTheContextSees : Prop :=
  ∀ (k : Fin 64) (env : Env) (w : Nat) (s : State), s.fetches k env w →
    let u := s.fetched k env
    let c := u.cx k.val
    let d := natBits w 25 22
    let a := (c.rd (natBits w 21 18) + BitVec.ofNat 32 (if natBits w 17 0 < 2 ^ 17 then natBits w 17 0
      else 2 ^ 32 - 2 ^ 18 + natBits w 17 0)).toNat
    let entry := (c.rd (natBits w 21 18)).toNat
    let n := 2 ^ natBits w 7 6
    let b := 0x80000 + 64 * entry + natBits w 5 0
    let ran (a n : Nat) : Host.Outcome State Fault Refusal :=
      let r := ((u.split a n).readSpan a n).1
      .next (r.setCx k.val (c.next.wr d (BitVec.ofNat 32 (leNat ((List.range n).map (fun i => r.ownByte k.val (a + i)))))))
    (natBits w 31 26 = 0x18 → spanOk a 1 = true → u.usable a 1 → exec (.opLdb k env) s = ran a 1) ∧
    (natBits w 31 26 = 0x18 → spanOk a 1 = false → exec (.opLdb k env) s = .next (u.trap k 4)) ∧
    (natBits w 31 26 = 0x19 → spanOk a 2 = true → u.usable a 2 → exec (.opLdh k env) s = ran a 2) ∧
    (natBits w 31 26 = 0x19 → spanOk a 2 = false → exec (.opLdh k env) s = .next (u.trap k 4)) ∧
    (natBits w 31 26 = 0x1A → spanOk a 4 = true → u.usable a 4 → exec (.opLdw k env) s = ran a 4) ∧
    (natBits w 31 26 = 0x1A → spanOk a 4 = false → exec (.opLdw k env) s = .next (u.trap k 4)) ∧
    (natBits w 31 26 = 0x1E → natBits w 7 6 ≠ 3 → natBits w 17 8 = 0 →
      (entry < 4096 → natBits w 5 0 + n ≤ 64 → u.usable b n → exec (.opLdp k env) s = ran b n) ∧
      (4096 ≤ entry ∨ 64 < natBits w 5 0 + n → exec (.opLdp k env) s = .next (u.trap k 6)))

/-- STB, STH and STW post the low 1, 2 or 4 bytes of g_d for g_a + off, STP for partner entry g_a (fewer than eight stores posted):
the context goes on and its list of posted stores grows by this one at its end; nothing else changes, no byte of memory. The bytes
must lie within one region and not in the primer ROM; otherwise ADDR, and PTB for an entry or a field that does not exist. With
eight posted a ninth waits, parked on memory, while the oldest is held, and else lets the oldest become visible first.
POSTED_STORE_COMPLETE takes the oldest posted store off the list, and a context that waits for it issues its instruction again;
where the oldest stores together cover one bank word, either the oldest alone or all of those become visible (whether they are
granted together is a free value). Where the bytes lie within a good bank word outside RET, the ERG bank and the message layer's
area, with no split and no error injection, they are written and no other byte, mark or register changes. Completion is said for
opStb, opSth, opStw, opStp and postedStoreComplete. -/
def Obligations.StoresArePostedAndBecomeVisibleInOrder : Prop :=
  (∀ (k : Fin 64) (env : Env) (w : Nat) (s : State), s.fetches k env w →
    let u := s.fetched k env
    let c := u.cx k.val
    let v := c.rd (natBits w 25 22)
    let a := (c.rd (natBits w 21 18) + BitVec.ofNat 32 (if natBits w 17 0 < 2 ^ 17 then natBits w 17 0
      else 2 ^ 32 - 2 ^ 18 + natBits w 17 0)).toNat
    let entry := (c.rd (natBits w 21 18)).toNat
    let b := 0x80000 + 64 * entry + natBits w 5 0
    let ran (a n : Nat) : Host.Outcome State Fault Refusal :=
      .next (u.setCx k.val { c.next with posted := c.posted ++ [⟨a, leBytes n v.toNat, .none⟩] })
    (∀ x ∈ [(Instr.opStb k env, 0x1B, 1), (.opSth k env, 0x1C, 2), (.opStw k env, 0x1D, 4)], natBits w 31 26 = x.2.1 →
      8 ≤ c.posted.length → spanOk a x.2.2 = true → inRom a = false →
      (s.storeHeld k.val = true → exec x.1 s = .next (u.setCx k.val { c with st := .parked .memory, susp := .retry })) ∧
      (s.storeHeld k.val = false → ∃ t, exec x.1 s = .next t ∧
        (storeMerged (storeRun c.posted) = none →
          (t.cx k.val).posted = c.posted.tail ++ [⟨a, leBytes x.2.2 v.toNat, .none⟩]))) ∧
    (c.posted.length < 8 →
    (natBits w 31 26 = 0x1B → spanOk a 1 = true → inRom a = false → exec (.opStb k env) s = ran a 1) ∧
    (natBits w 31 26 = 0x1B → spanOk a 1 = false ∨ inRom a = true → exec (.opStb k env) s = .next (u.trap k 4)) ∧
    (natBits w 31 26 = 0x1C → spanOk a 2 = true → inRom a = false → exec (.opSth k env) s = ran a 2) ∧
    (natBits w 31 26 = 0x1C → spanOk a 2 = false ∨ inRom a = true → exec (.opSth k env) s = .next (u.trap k 4)) ∧
    (natBits w 31 26 = 0x1D → spanOk a 4 = true → inRom a = false → exec (.opStw k env) s = ran a 4) ∧
    (natBits w 31 26 = 0x1D → spanOk a 4 = false ∨ inRom a = true → exec (.opStw k env) s = .next (u.trap k 4)) ∧
    (natBits w 31 26 = 0x1F → natBits w 7 6 ≠ 3 → natBits w 17 8 = 0 → entry < 4096 →
      natBits w 5 0 + 2 ^ natBits w 7 6 ≤ 64 → exec (.opStp k env) s = ran b (2 ^ natBits w 7 6)) ∧
    (natBits w 31 26 = 0x1F → natBits w 7 6 ≠ 3 → natBits w 17 8 = 0 → 4096 ≤ entry ∨ 64 < natBits w 5 0 + 2 ^ natBits w 7 6 →
      exec (.opStp k env) s = .next (u.trap k 6)))) ∧
  (∀ (k : Fin 64) (s : State) (x : PStore) (rest : List PStore), s.awake = true → (s.cx k.val).posted = x :: rest →
    s.storeLocked x = false → ∃ t y left, exec (.postedStoreComplete k Env.clean) s = .next t ∧
      ((y = x ∧ left = rest) ∨ (storeMerged (storeRun (x :: rest)) = some y ∧
        left = (x :: rest).drop (storeRun (x :: rest)).length)) ∧
      ((s.cx k.val).st ≠ .parked .memory → t.cx k.val = { s.cx k.val with posted := left }) ∧
      ((s.cx k.val).st = .parked .memory → (s.cx k.val).susp = .retry →
        t.cx k.val = { s.cx k.val with posted := left, st := .ready, susp := .none, since := t.stamp }) ∧
      (y.bytes ≠ [] → y.bytes.length ≤ 8 → y.addr % 8 + y.bytes.length ≤ 8 → y.parity = .none →
        ((0x80000 ≤ y.addr ∧ y.addr < 0xC0000) ∨ (0x100000 ≤ y.addr ∧ y.addr < 0x2F0000)) →
        s.mark (y.addr / 8) = .good → s.fld MEM_BANK_CFG.INJ = 0 →
        (∀ i, t.byte i = if y.addr ≤ i ∧ i < y.addr + y.bytes.length then y.bytes.getD (i - y.addr) 0#8 else s.byte i) ∧
        (∀ i, t.mark i = s.mark i) ∧ (∀ off, t.reg off = s.reg off)))

/-- HALT ends the command with OK, FAIL with the code x (any of Table 12-7 from 0x10 up, or 0x70 to 0x7F), and with the g_b
bytes (at most 60) from g_a as its result: the context is free, the command's slot holds status and result, or is free with
NORES. More than 60 bytes trap with cause RESULT, bytes outside a region with cause ADDR. While a store of the context is held
the instruction waits, parked on memory. Completion is said for opHalt and opFail. -/
def Obligations.CommandsEndWithTheirResult : Prop :=
  ∀ (k : Fin 64) (env : Env) (w : Nat) (s : State), s.fetches k env w →
    let u := s.fetched k env
    let c := u.cx k.val
    let x := natBits w 13 0
    let a := (c.rd (natBits w 21 18)).toNat
    let n := (c.rd (natBits w 17 14)).toNat
    let code := x ∈ [0x10, 0x11, 0x12, 0x13, 0x14, 0x15, 0x16, 0x17, 0x20, 0x21, 0x30, 0x31, 0x32, 0x40, 0x41, 0x50, 0x51,
      0x52, 0x60, 0x61, 0x62, 0x63] ∨ 0x70 ≤ x ∧ x < 0x80
    let ended (t : State) (status : Nat) : Prop :=
      (t.cx k.val).st = .free ∧ (t.cx k.val).ring = c.ring ∧ (t.cx k.val).eng = [] ∧
        ∀ p : Fin 4, c.port = some p →
          t.slot p.val c.slot = { s.slot p.val c.slot with
            st := if (s.slot p.val c.slot).nores then .free else .done, status := status, data := u.bytes a n,
            freed := s.order + 1 }
    natBits w 25 22 = 0 →
    (natBits w 31 26 = 0x24 → x = 0 → c.posted = [] → n ≤ 60 → (n ≠ 0 → spanOk a n = true ∧ u.clean a n) →
      ∃ t, exec (.opHalt k env) s = .next t ∧ ended t 0) ∧
    (natBits w 31 26 = 0x25 → code → c.posted = [] → n ≤ 60 → (n ≠ 0 → spanOk a n = true ∧ u.clean a n) →
      ∃ t, exec (.opFail k env) s = .next t ∧ ended t x) ∧
    (∀ y ∈ [(Instr.opHalt k env, 0x24, x = 0), (.opFail k env, 0x25, code)], natBits w 31 26 = y.2.1 → y.2.2 →
      (60 < n → exec y.1 s = .next (u.trap k 7)) ∧
      (0 < n → n ≤ 60 → spanOk a n = false → exec y.1 s = .next (u.trap k 4)) ∧
      (n ≤ 60 → (n ≠ 0 → spanOk a n = true) → s.storesHeld k.val = true →
        exec y.1 s = .next (u.setCx k.val { c with st := .parked .memory, susp := .retry })))

/-- OPCODE_TRAP at one of the four ops that name no instruction: TRAP is set, CTX and CAUSE name the context and cause 1, the
context is free, and its command ends with status TRAP and the eight bytes CAUSE, context number and byte address of the instruction
(a store that a locked access still holds is waited for first). FAIL with a code it may not give does the same with cause 8, an
unused field that is not zero with cause 2 (shown for YIELD and HALT). Completion is said for opcodeTrap, whose effect is the trap.
-/
def Obligations.TrapsNameContextAndCause : Prop :=
  ∀ (k : Fin 64) (env : Env) (w : Nat) (s : State), s.fetches k env w →
    let c := (s.fetched k env).cx k.val
    let op := natBits w 31 26
    let traps (i : Instr) (cause : Nat) : Prop := ∃ t, exec i s = .next t ∧ t.on SEQ_TRAP_INFO.TRAP = true ∧
      t.fld SEQ_TRAP_INFO.CTX = k.val ∧ t.fld SEQ_TRAP_INFO.CAUSE = cause ∧ (t.cx k.val).st = .free ∧
      ∀ p : Fin 4, c.port = some p → (t.slot p.val c.slot).status = 0x62 ∧
        (t.slot p.val c.slot).data = leBytes 8 (cause + k.val * 2 ^ 8 + 4 * c.p.toNat * 2 ^ 32)
    s.storesHeld k.val = false →
    (op = 0x0F ∨ op = 0x17 ∨ op = 0x27 ∨ op = 0x2F → traps (.opcodeTrap k env) 1) ∧
    (op = 0x23 → natBits w 25 0 ≠ 0 → traps (.opYield k env) 2) ∧
    (op = 0x24 → natBits w 25 22 ≠ 0 ∨ natBits w 13 0 ≠ 0 → traps (.opHalt k env) 2) ∧
    (op = 0x25 → natBits w 25 22 = 0 → natBits w 13 0 < 16 → traps (.opFail k env) 8)

/-- TNOW writes the present stamp to t_td with C = QUAL, loads a well-formed stamp from g_g, or posts a store of t_ta there (a
misaligned address or a stamp that is not well-formed traps with cause OPERAND). TADD writes t_ta + (g_g + sext x) ticks or fine
units, normalised, with N when the result lies less than 16 fine units after the present stamp; a sum outside the stamps gives
some stamp (the model's choice: a free value). TGUARD sets Z, N or C as the present stamp is within, before or after t_ta ± g_g
ticks. Nothing else changes. Completion is said for opTnow, opTadd and opTguard. -/
def Obligations.TimeRegisterInstructions : Prop :=
  ∀ (k : Fin 64) (env : Env) (w : Nat) (s : State), s.fetches k env w →
    let u := s.fetched k env
    let c := u.cx k.val
    let td := natBits w 25 24
    let ta := (c.rdT (natBits w 23 22)).toNat
    let g := c.rd (natBits w 21 18)
    let a := g.toNat
    let stamp := fun n : Nat => BitVec.ofNat 64 (n / 6000 * 2 ^ 16 + n % 6000)
    let sum : Int := ((ta / 2 ^ 16 * 6000 + ta % 2 ^ 13 : Nat) : Int) +
      (g.toInt + (if natBits w 15 0 < 2 ^ 15 then (natBits w 15 0 : Int) else natBits w 15 0 - 2 ^ 16)) *
        (if natBits w 17 17 = 1 then 1 else 6000)
    let diff : Int := (u.stamp : Int) - ((ta / 2 ^ 16 * 6000 + ta % 2 ^ 13 : Nat) : Int)
    let ran (u : State) (c : Ctx) : Host.Outcome State Fault Refusal := .next (u.setCx k.val c)
    (natBits w 31 26 = 0x28 → natBits w 17 0 = 0 → natBits w 23 18 = 0 → u.stamp < 6000 * 2 ^ 48 →
      exec (.opTnow k env) s = ran u { c.next.wrT td (stamp u.stamp) with c := u.qual }) ∧
    (natBits w 31 26 = 0x28 → natBits w 17 0 = 0x10000 → natBits w 23 22 = 0 → spanOk a 8 = true → u.clean a 8 →
      (a % 8 = 0 → u.ownNum k.val a 8 % 2 ^ 16 < 6000 →
        exec (.opTnow k env) s = ran u (c.next.wrT td (BitVec.ofNat 64 (u.ownNum k.val a 8)))) ∧
      (a % 8 ≠ 0 ∨ 6000 ≤ u.ownNum k.val a 8 % 2 ^ 16 → exec (.opTnow k env) s = .next (u.trap k 0xA))) ∧
    (natBits w 31 26 = 0x28 → natBits w 17 0 = 0x20000 → td = 0 → a % 8 = 0 → spanOk a 8 = true → inRom a = false →
      c.posted.length < 8 →
      exec (.opTnow k env) s = ran u { c.next with posted := c.posted ++ [⟨a, leBytes 8 ta, .none⟩] }) ∧
    (natBits w 31 26 = 0x29 → natBits w 16 16 = 0 → ∃ n : Nat, ∃ u', n < 6000 * 2 ^ 48 ∧ u' = { u with free := u'.free } ∧
      (0 ≤ sum → sum < 6000 * 2 ^ 48 → (n : Int) = sum ∧ u' = u) ∧
      exec (.opTadd k env) s = ran u' { c.next.wrT td (stamp n) with n := decide (n < u.stamp + 16) }) ∧
    (natBits w 31 26 = 0x2C → td = 0 → natBits w 17 0 = 0 →
      exec (.opTguard k env) s = ran u { c.next with
        z := decide (-(6000 * a : Int) ≤ diff ∧ diff ≤ 6000 * a)
        n := decide (diff < -(6000 * a : Int))
        c := decide ((6000 * a : Int) < diff) })

/-- TWAIT with t_ta already reached goes on with C = 1; else it parks (time) with C = 0, and TWAIT_EXPIRY makes the context ready
once the counter can reach the stamp. TAT arms the launcher x names, or the lowest free one of L4 to L31, with CONTEXT, the stamp
and DISCARD, and parks; a late arming sets C and leaves the launcher disarmed with MISSED; a launcher that another context's
instruction armed, or none free, sets V. No other register or flag of the context changes. Completion is said for opTwait, opTat
and twaitExpiry. -/
def Obligations.WaitingForAStamp : Prop :=
  (∀ (k : Fin 64) (env : Env) (w : Nat) (s : State), s.fetches k env w →
    let u := s.fetched k env
    let c := u.cx k.val
    let ta := (c.rdT (natBits w 23 22)).toNat
    let t0 := ta / 2 ^ 16 * 6000 + ta % 2 ^ 13
    let ran (c : Ctx) : Host.Outcome State Fault Refusal := .next (u.setCx k.val c)
    (natBits w 31 26 = 0x2A → natBits w 25 24 = 0 → natBits w 21 0 = 0 →
      (t0 ≤ u.stamp → exec (.opTwait k env) s = ran { c.next with c := true }) ∧
      (u.stamp < t0 → exec (.opTwait k env) s =
        ran { c.next with c := false, st := .parked .time, susp := .twait t0 })) ∧
    (natBits w 31 26 = 0x2B → natBits w 25 24 = 0 → natBits w 21 18 = 0 → natBits w 17 6 = 0 → ∀ n : Fin 32,
      (natBits w 5 5 = 0 ∧ n.val = natBits w 4 0 ∨ natBits w 5 0 = 0x20 ∧ 4 ≤ n.val ∧
        (∀ i, 4 ≤ i → i < n.val → (s.launcher i).armed = true)) → (s.launcher n.val).armed = false →
      (s.launcher n.val).op = none →
      (u.stamp + 16 ≤ t0 → ∃ t, exec (.opTat k env) s = .next t ∧
        t.cx k.val = { c.next with c := false, v := false, st := .parked .time, susp := .tat n } ∧
        t.launcher n.val = ⟨true, t0, 2, k.val, 0, 1, some k, none, false, none⟩ ∧
        (∀ i, i ≠ n.val → t.launcher i = s.launcher i) ∧ t.on (CVN_Ln_ACT.ARMED n.val) = true ∧
        { t with regs := u.regs, ctx := u.ctx, lnch := u.lnch } = u) ∧
      (t0 < u.stamp + 16 → ∃ t, exec (.opTat k env) s = .next t ∧
        t.cx k.val = { c.next with c := true, v := false } ∧ t.launcher n.val = Lnch.off ∧
        (∀ i, i ≠ n.val → t.launcher i = s.launcher i) ∧ t.on (CVN_Ln_ACT.MISSED n.val) = true ∧
        { t with regs := u.regs, ctx := u.ctx, lnch := u.lnch } = u)) ∧
    (natBits w 31 26 = 0x2B → natBits w 25 24 = 0 → natBits w 21 18 = 0 → natBits w 17 6 = 0 →
      (natBits w 5 5 = 0 ∧ (s.launcher (natBits w 4 0)).armed = true ∧
          (∃ j, (s.launcher (natBits w 4 0)).owner = some j ∧ j ≠ k) ∨
        natBits w 5 0 = 0x20 ∧ ∀ i, 4 ≤ i → i < 32 → (s.launcher i).armed = true) →
      exec (.opTat k env) s = ran { c.next with c := false, v := true })) ∧
  (∀ (k : Fin 64) (n : Nat) (s : State), s.awake = true → s.asleep = false → (s.cx k.val).susp = .twait n →
    s.reach n = true → ∃ t, exec (.twaitExpiry k) s = .next t ∧ n ≤ t.stamp ∧ s.stamp ≤ t.stamp ∧
      t.cx k.val = { s.cx k.val with st := .ready, susp := .none, since := t.stamp } ∧ (∀ j, j ≠ k.val → t.cx j = s.cx j) ∧
      { t with ctx := s.ctx, time := s.time, pwr := s.pwr } = s)

/-- For a valid partner entry and D in interval form: TDRIFT writes the predicted stamp TSYNC + D × (1 − ē), rounded to a fine
unit, to t_td and the guard of at least 2 ticks to g_g, with Z = 0 (the guard four times as long, or V, for an unmodelled
partner); shown for a partner that reports no temperature, in endpoint mode. TLEARN of the first exchange sets DRATE to the
measured rate in ppb, DUNC to the code of 2048 ppb, TSYNC to t_obs, counts the exchange, and changes no byte outside the entry.
For an entry that is not valid both set Z and change no more; an index of 4096 or more, or t that is no interval, traps with
OPERAND. Completion is said for opTdrift and opTlearn. -/
def Obligations.DriftInstructions : Prop :=
  ∀ (k : Fin 64) (env : Env) (w : Nat) (s : State), s.fetches k env w → natBits w 17 0 = 0 →
    let u := s.fetched k env
    let c := u.cx k.val
    let g := (c.rd (natBits w 21 18)).toNat
    let td : Nat := (c.rdT (natBits w 25 24)).toNat
    let ta : Nat := (c.rdT (natBits w 23 22)).toNat
    let i : Nat := natBits g 11 0
    let interval (t : Nat) : Prop := t % 2 ^ 16 = 0 ∧ t < 2 ^ 48
    let valid : Prop := (u.pt i 0x0A 2).testBit 0 = true
    let sync := wordStamp (u.pt i 0x20 8)
    let ran (c : Ctx) : Host.Outcome State Fault Refusal := .next (u.setCx k.val c)
    (g < 4096 → u.clean (partner i) 64 →
    (natBits w 31 26 = 0x2D → interval ta → valid → (u.pt i 0x0A 2).testBit 6 = false → u.on CVN_CFG.TMODE = false →
      let d : Nat := ta / 2 ^ 16
      let m : Nat := (max (2 : Int) (((uncOf (u.pt i 0x2F 1) + uncOf (u.fld CVN_SELF_MODEL.SUNC) +
        ratAbs (u.dtco i) * u.fld CVN_CFG.M2_SPAN + 8 * (d : Rat) / 2831155200) / 1000000000 * (d : Rat) + (65536 / 1000000 : Rat)).ceil)).toNat
      let un := (u.pt i 0x0A 2).testBit 7
      exec (.opTdrift k env) s = ran { (c.next.wrT (natBits w 25 24) (BitVec.ofNat 64 (stampWord
          (ratRound ((sync : Rat) + 6000 * (d : Rat) * (1 - (u.drate i) / 1000000000))).toNat))).wr (natBits w 21 18)
          (BitVec.ofNat 32 (if un = true ∧ u.fld MAC_MISS_CFG.UNMOD = 0 then 4 * m else m)) with
        z := false, v := un && u.on MAC_MISS_CFG.UNMOD }) ∧
    (natBits w 31 26 = 0x2D → interval ta → ¬ valid → exec (.opTdrift k env) s = ran { c.next with z := true, v := false })) ∧
    (natBits w 31 26 = 0x2D → (4096 ≤ g ∨ ¬ interval ta) → exec (.opTdrift k env) s =
      .next (u.trap k 0xA)) ∧
    (natBits w 31 26 = 0x2E → natBits g 15 12 = 0 → natBits g 31 24 = 0 → interval td → u.clean (partner i) 64 →
      (¬ valid → exec (.opTlearn k env) s = ran { c.next with z := true, v := false }) ∧
      (valid → u.pt i 0x33 1 = 0 → (u.pt i 0x0A 2).testBit 6 = false → u.on CVN_CFG.TMODE = false → wordStamp ta ≠ sync →
        ∃ t, exec (.opTlearn k env) s = .next t ∧ t.cx k.val = { c.next with z := false, v := false } ∧
          t.pt i 0x20 8 = stampWord (wordStamp ta) ∧ t.pt i 0x33 1 = 1 ∧ t.pt i 0x2F 1 = 176 ∧
          t.pt i 0x28 4 = twos 32 (clampInt (-2147483648) 2147483647 (ratRound
            ((6000 * ((td / 2 ^ 16 : Nat) : Rat) - ((wordStamp ta : Rat) - sync)) / ((wordStamp ta : Rat) - sync) * 1000000000))) ∧
          (t.pt i 0x0A 2).testBit 7 = false ∧
          (∀ a, (a < partner i ∨ partner i + 64 ≤ a) → t.byte a = u.byte a)))

/-- RGET of a register that a read does not change (shown for four) writes its word to g_d; RPUT leaves in each of its fields
what the access codes say of g_b and changes no other register; both trap with OPERAND at an address that is no multiple of 4,
with ADDR where no register lies. MACQ queues an assignment entry (QUEUE_FULL behind 128) or, with SF_EN = 0, writes the hash
seed (else BAD_COMMAND). BUDG gives the context's old claim up; with 0 it ends OK, with a claim that can never fit BUDGET_DENIED,
else it parks (Well) behind its new claim. Completion is said for opRget, opRput, opMacq and opBudg. -/
def Obligations.RegistersAndClaimsFromAContext : Prop :=
  ∀ (k : Fin 64) (env : Env) (w : Nat) (s : State), s.fetches k env w → natBits w 31 26 = 0x3F →
    let u := s.fetched k env
    let c := u.cx k.val
    let d := natBits w 25 22
    let a := (c.rd (natBits w 21 18)).toNat
    let v := c.rd (natBits w 17 14)
    let x := natBits w 13 0
    (∀ p : Fin 4, ∀ off ∈ [SEQ_CTRL.off, SEQ_SKETCH_BASE.off, MEM_ECC_CFG.off, HPn_CFG.off p.val], a = 0x3000000 + off →
      (x = 0x00 → natBits w 17 14 = 0 → ∃ t, exec (.opRget k env) s = .next t ∧
        t.cx k.val = c.next.wr d (u.reg off) ∧ (∀ j, j ≠ k.val → t.cx j = s.cx j) ∧ (∀ o, t.reg o = u.reg o) ∧
        { t with regs := u.regs, ctx := u.ctx, free := u.free } = u) ∧
      (x = 0x01 → d = 0 → ∃ t, exec (.opRput k env) s = .next t ∧ (u.setCx k.val c.next).onlyReg t off ∧
        ∀ r, findReg off = some r → ∀ f ∈ r.fields, getBits (t.reg off) f.hi f.lo = f.after v (u.reg off))) ∧
    (x = 0x00 → natBits w 17 14 = 0 → (a % 4 ≠ 0 → exec (.opRget k env) s = .next (u.trap k 0xA)) ∧
      (a % 4 = 0 → (a < 0x3000000 ∨ implemented (a - 0x3000000) = false) → exec (.opRget k env) s = .next (u.trap k 4))) ∧
    (x = 0x01 → d = 0 → (a % 4 ≠ 0 → exec (.opRput k env) s = .next (u.trap k 0xA)) ∧
      (a % 4 = 0 → (a < 0x3000000 ∨ implemented (a - 0x3000000) = false) → exec (.opRput k env) s = .next (u.trap k 4))) ∧
    (natBits w 17 14 = 0 →
      (x = 0x02 → s.mac.queue.length < 128 → exec (.opMacq k env) s = .next (State.answered { u with
        mac := { s.mac with queue := s.mac.queue ++ [(a % 2 ^ 16, natBits a 28 16)] } } k c d 0)) ∧
      (x = 0x02 → 128 ≤ s.mac.queue.length → exec (.opMacq k env) s = .next (u.answered k c d 0x63)) ∧
      (x = 0x42 → u.on MAC_ROLE.SF_EN = false →
        exec (.opMacq k env) s = .next ((u.setFld MAC_NETID.SEED (a % 2 ^ 16)).answered k c d 0)) ∧
      (x = 0x42 → u.on MAC_ROLE.SF_EN = true → exec (.opMacq k env) s = .next (u.answered k c d 0x60)) ∧
      (x = 0x10 → a = 0 → exec (.opBudg k env) s = .next ((u.withdraw (.budg k)).answered k c d 0)) ∧
      (x = 0x10 → 0 < a → 2 * u.fld WELL_BUDGET.BUDGET < a + 31 → ∃ t, exec (.opBudg k env) s = .next t ∧
        t.cx k.val = { c.next.wr d 0x15#32 with st := .ready, susp := .none, z := false, since := u.stamp } ∧
        t.on WELL_DENY_CNT.DENY = true ∧ t.well = (u.withdraw (.budg k)).well) ∧
      (x = 0x10 → 0 < a → a + 31 ≤ 2 * u.fld WELL_BUDGET.BUDGET → ∃ t, exec (.opBudg k env) s = .next t ∧
        t.cx k.val = { c.next with st := .parked .well, susp := .budg d } ∧
        t.well.queue = (u.withdraw (.budg k)).well.queue ++ [⟨.budg k, a, c.prio, c.ticket, u.stamp, false⟩] ∧
        t.well.granted = (u.withdraw (.budg k)).well.granted ∧ { t with ctx := u.ctx, well := u.well } = u))

/-- LOCK takes a free semaphore, parks (semaphore) behind another owner, and traps with SEM for its own. FREE by the owner, its
stores visible, passes the semaphore to the waiter with the oldest ticket, which becomes ready, or frees it; by another context it
traps with SEM. CAS queues the words at g_a for a usable worker's port, whose initiator on an idle port runs a SUBMIT frame with its
check word and a READ of the HPn_LAST_SUBMIT of port UPPORT, and parks; for another worker it ends with BAD_COMMAND, and traps with
OPERAND when g_b[3] differs from g_b[2]. Nothing else changes but, for CAS, the select balls. While a locked access holds one of its
stores FREE waits, parked on memory. Completion is said for opLock, opFree and opCas. -/
def Obligations.SemaphoresAndForwards : Prop :=
  ∀ (k : Fin 64) (env : Env) (w : Nat) (s : State), s.fetches k env w → natBits w 31 26 = 0x3F →
    let u := s.fetched k env
    let c := u.cx k.val
    let d := natBits w 25 22
    let n := natBits w 9 6
    let m := s.sem n
    let a := (c.rd (natBits w 21 18)).toNat
    let b := (c.rd (natBits w 17 14)).toNat
    let words := (List.range (1 + u.ownNum k.val a 4 % 256)).map (fun i => BitVec.ofNat 32 (u.ownNum k.val (a + 4 * i) 4))
    (natBits w 25 14 = 0 → natBits w 13 10 = 0 → natBits w 5 0 = 0x20 →
      (m.owner = none → exec (.opLock k env) s =
        .next ((u.setCx k.val c.next).setSem n { m with owner := some k.val })) ∧
      (∀ j, m.owner = some j → j ≠ k.val → exec (.opLock k env) s =
        .next ((u.parked k c .semaphore (.lock n)).setSem n { m with wait := m.wait ++ [k] })) ∧
      (m.owner = some k.val → exec (.opLock k env) s = .next (u.trap k 9))) ∧
    (natBits w 25 14 = 0 → natBits w 13 10 = 0 → natBits w 5 0 = 0x21 → c.posted = [] →
      (m.owner = some k.val → m.wait = [] → ∃ t, exec (.opFree k env) s = .next t ∧ t.sem n = Sem.free ∧
        t.cx k.val = c.next ∧ { t with ctx := u.ctx, sems := u.sems } = u) ∧
      (∀ j ∈ m.wait, m.owner = some k.val → j ≠ k →
        (∀ i ∈ m.wait, i ≠ j → (s.cx j.val).ticket.le (s.cx i.val).ticket = true ∧
          (s.cx i.val).ticket.le (s.cx j.val).ticket = false) →
        ∃ t, exec (.opFree k env) s = .next t ∧ t.sem n = ⟨some j.val, m.wait.erase j⟩ ∧ t.cx k.val = c.next ∧
          t.cx j.val = { s.cx j.val with st := .ready, susp := .none, since := u.stamp } ∧
          (∀ i, i ≠ n → t.sem i = s.sem i)) ∧
      (m.owner ≠ some k.val → exec (.opFree k env) s = .next (u.trap k 9))) ∧
    (natBits w 25 14 = 0 → natBits w 13 10 = 0 → natBits w 5 0 = 0x21 → m.owner = some k.val → s.storesHeld k.val = true →
      exec (.opFree k env) s = .next (u.setCx k.val { c with st := .parked .memory, susp := .retry })) ∧
    (natBits w 13 6 = 0 → natBits w 5 0 = 0x30 →
      ((b.testBit 3 ≠ b.testBit 2) → exec (.opCas k env) s = .next (u.trap k 0xA)) ∧
      (b.testBit 3 = b.testBit 2 → spanOk a (4 * words.length) = true → u.clean a (4 * words.length) →
        (u.workerOk (b % 8) = false → exec (.opCas k env) s = .next (u.answered k c d 0x60)) ∧
        (u.workerOk (b % 8) = true → ∃ t, exec (.opCas k env) s = .next t ∧
          t.cx k.val = { c.next with st := .parked .engine, susp := .cas d } ∧
          (t.casc2, t.casc3) = (if b % 8 ≤ 3 then (s.casc2 ++ [.fwd k d (b % 8) words false c.ticket], s.casc3)
            else (s.casc2, s.casc3 ++ [.fwd k d (b % 8) words false c.ticket])) ∧
          (let p := if b % 8 ≤ 3 then 2 else 3
           s.casc p = [] → ∃ check : Word, t.cascFrames p = [0x58000000#32 :: words ++ [check],
              [BitVec.ofNat 32 (0x20C00C0A + 0x100 * natBits (s.fld CAS_WORKERS.UPPORT) (2 * (b % 8) + 1) (2 * (b % 8)))]] ∧
            check.toNat = crc16 ((0x58000000#32 :: words).flatMap (fun w => leBytes 4 w.toNat))) ∧
          (∀ x, (x < 0x4DE20 ∨ 0x4DE40 ≤ x) → t.byte x = u.byte x) ∧
          { t with ctx := u.ctx, casc2 := s.casc2, casc3 := s.casc3, pins := u.pins, mem := u.mem, marks := u.marks,
                   regs := u.regs, scrub := u.scrub, ports := u.ports, cmrOpen := u.cmrOpen } = u)))

/-- POST (a port with room, none lost, no unread record of its cycle with a higher code) writes the event record of its code,
status, handle and arguments at HEAD. SIG to a context
that is not free adds the signals of g_b to it (a context in WAITE for one of them resumes) and sets Z; to a free one it clears Z.
WAITE takes the signals of its mask that are present into g_d, with the queued value in g_b, and consumes them; a stamp passed
gives g_d = 0 and C; else it parks (event). WAITE_TIMEOUT resumes it at its stamp with g_d = 0 and C. Completion is said for
opPost, opSig, opWaite and waiteTimeout. -/
def Obligations.EventsAndSignals : Prop :=
  (∀ (k : Fin 64) (env : Env) (w : Nat) (s : State), s.fetches k env w →
    let u := s.fetched k env
    let c := u.cx k.val
    let d := natBits w 25 22
    let ga := (c.rd (natBits w 21 18)).toNat
    let gb := (c.rd (natBits w 17 14)).toNat
    let p := natBits w 1 0
    let code := natBits w 9 2
    let j := ga % 64
    (natBits w 31 26 = 0x3C → natBits w 13 10 = 0 → 0x80 ≤ code → code ≤ 0xFE →
      ((u.port p).lost = 0 → 16 ≤ u.ringRoom p → u.ringAfter p code = 0 →
        0x200000 ≤ u.fld (HPn_RING_BASE.BASE p) + u.fld (HPn_RING_HEAD.HEAD p) →
        u.fld (HPn_RING_BASE.BASE p) + u.fld (HPn_RING_HEAD.HEAD p) + 16 ≤ 0x300000 →
        ∃ t, exec (.opPost k env) s = .next t ∧ t.cx k.val = c.next ∧
          t.fld (HPn_RING_HEAD.HEAD p) = (u.fld (HPn_RING_HEAD.HEAD p) + 16) % u.fld (HPn_RING_SIZE.SIZE p) % 2 ^ 16 ∧
          t.on (HPn_IRQ_FLAG.EVENT p) = true ∧
          t.bytes (u.fld (HPn_RING_BASE.BASE p) + u.fld (HPn_RING_HEAD.HEAD p)) 16 =
            leBytes 4 (code * 2 ^ 24 + (c.rd d).toNat % 256 * 2 ^ 16 + c.h.toNat) ++ leBytes 4 (u.stamp / 6000) ++
              leBytes 4 ga ++ leBytes 4 (gb % 2 ^ 19 * 2 ^ 13 + u.stamp % 6000)) ∧
      (u.ringRoom p < 16 → ∃ t, exec (.opPost k env) s = .next t ∧ t.cx k.val = c.next ∧
        (t.port p).lost = satInc 0xFFFFFFFF (u.port p).lost ∧ t.on (HPn_IRQ_FLAG.OVF p) = true ∧ t.mem = u.mem)) ∧
    (natBits w 31 26 = 0x3E → natBits w 13 0 = 0 → d = 0 → j ≠ k.val →
      ((s.cx j).st = .free → exec (.opSig k env) s = .next (u.setCx k.val { c.next with z := false })) ∧
      ((s.cx j).st ≠ .free → (∀ m e f t, (s.cx j).susp ≠ .waite m e f t) → exec (.opSig k env) s = .next
        ((u.setCx k.val { c.next with z := true }).setCx j
          { s.cx j with user := (s.cx j).user ||| gb % 2 ^ 16 })) ∧
      (∀ e f m, (s.cx j).st = .parked .event → (s.cx j).susp = .waite m e f none → m < 2 ^ 16 →
        (s.cx j).user = 0 → gb % 2 ^ 16 &&& m ≠ 0 →
        ∃ t, exec (.opSig k env) s = .next t ∧ (t.cx j).st = .ready ∧ (t.cx j).susp = .none ∧
          (0 < e → (t.cx j).rd e = BitVec.ofNat 32 (gb % 2 ^ 16 &&& m)) ∧ (t.cx j).c = false)) ∧
    (natBits w 31 26 = 0x3E → natBits w 13 10 = 1 → 0x80 ≤ code → code ≤ 0xFE → j ≠ k.val → (s.cx j).st = .ready →
      ∃ t, exec (.opSig k env) s = .next t ∧ (t.cx j).user = (s.cx j).user ||| gb % 2 ^ 16 ∧ (t.cx k.val).z = true ∧
        (t.on (HPn_IRQ_FLAG.EVENT p) = true ∨ t.on (HPn_IRQ_FLAG.OVF p) = true)) ∧
    (natBits w 31 26 = 0x3D → natBits w 13 3 = 0 → (natBits w 2 2 = 1 ∨ natBits w 1 0 = 0 ∧ ga % 2 ^ 20 ≠ 0) →
      (u.present k.val &&& ga % 2 ^ 16 ≠ 0 → ga % 2 ^ 20 < 2 ^ 16 → exec (.opWaite k env) s = .next (u.setCx k.val
        { c.next.wr d (BitVec.ofNat 32 (c.user % 2 ^ 16 &&& ga % 2 ^ 16)) with
          user := c.user &&& (2 ^ 20 - 1 - (c.user % 2 ^ 16 &&& ga % 2 ^ 16)), c := false })) ∧
      (u.present k.val &&& ga % 2 ^ 20 = 0 →
        let t0 := wordStamp (c.rdT (natBits w 1 0)).toNat
        (natBits w 2 2 = 0 → exec (.opWaite k env) s =
          .next (u.parked k c .event (.waite (ga % 2 ^ 20) d (natBits w 17 14) none))) ∧
        (natBits w 2 2 = 1 → u.stamp < t0 → exec (.opWaite k env) s =
          .next (u.parked k c .event (.waite (ga % 2 ^ 20) d (natBits w 17 14) (some t0)))) ∧
        (natBits w 2 2 = 1 → t0 ≤ u.stamp → exec (.opWaite k env) s =
          .next (u.setCx k.val { c.next.wr d 0#32 with c := true }))))) ∧
  (∀ (k : Fin 64) (m d b n : Nat) (s : State), (s.cx k.val).susp = .waite m d b (some n) → s.awake = true →
    s.asleep = false → s.reach n = true → ∃ t, exec (.waiteTimeout k) s = .next t ∧ n ≤ t.stamp ∧
      t.cx k.val = { (s.cx k.val).wr d 0#32 with c := true, st := .ready, susp := .none, since := t.stamp } ∧
      (∀ j, j ≠ k.val → t.cx j = s.cx j) ∧ { t with ctx := s.ctx, time := s.time, pwr := s.pwr } = s)

/-- With the operands good, no posted store, and W = 1 or fewer than four operations with W = 0 outstanding, COPY on an idle
channel, SEAL of a frame with SEC, OPEN of an OK record and CHK on an idle engine that is not lent add their operation under the
next number, with the context's priority, ticket and TAG. W = 1 parks the context (engine; Well while the AES claim it placed
waits); W = 0 gives it OK with Z and counts the operation. COPY runs its channel, CHK takes its engine, loading INIT when x[3] asks
for it. COPY on a busy channel ends with QUEUE_FULL, SEAL without SEC and CHK on a lent engine with BAD_COMMAND; CHK on a busy
engine waits for it; a fifth operation with W = 0 parks without advancing. Completion is said for opCopy, opSeal, opOpen and opChk.
-/
def Obligations.EngineOperationsStart : Prop :=
  ∀ (k : Fin 64) (env : Env) (w : Nat) (s : State), s.fetches k env w → (s.cx k.val).posted = [] →
    let u := s.fetched k env
    let c := u.cx k.val
    let d := natBits w 25 22
    let a := (c.rd (natBits w 21 18)).toNat
    let b := (c.rd (natBits w 17 14)).toNat
    let n := (c.rd d).toNat
    let x := u.desc k.val a
    let id := s.engNext
    let queued (kind : EngKind) : EngOp :=
      EngOp.new kind (some k) d (w.testBit 13) (natBits w 12 10) c.prio c.ticket
    let goesOn (t : State) : Prop := t.engNext = id + 1 ∧ t.cx k.val =
      if w.testBit 13 then { c.next with
        st := .parked (if t.well.queue.length = u.well.queue.length then .engine else .well), susp := .engine id }
      else { c.next.wr d 0#32 with st := .ready, susp := .none, z := true, out := c.out + 1, since := u.stamp }
    (w.testBit 13 = true ∧ natBits w 12 10 = 0 ∨ w.testBit 13 = false ∧ c.out < 4 →
      (natBits w 31 26 = 0x38 → natBits w 5 0 = 0x00 → spanOk a (max n 1) = true → spanOk b (max n 1) = true →
        n < 2 ^ 20 →
        ((s.dmaCh (natBits w 9 6)).busy = false → inRom b = false → ∃ t, exec (.opCopy k env) s = .next t ∧ goesOn t ∧
          t.eng id = some (queued (.copy (natBits w 9 6))) ∧
          t.dmaCh (natBits w 9 6) = ⟨true, a, b, n, false, some id⟩ ∧
          { t with regs := u.regs, ctx := u.ctx, engs := u.engs, engNext := id, dma := u.dma, pwr := u.pwr } = u) ∧
        ((s.dmaCh (natBits w 9 6)).busy = true → exec (.opCopy k env) s = .next (u.answered k c d 0x63))) ∧
      (natBits w 31 26 = 0x39 → natBits w 9 0 = 0 → a % 8 = 0 → spanOk a 32 = true → u.clean a 32 →
        spanOk x.buf (max x.len 1) = true → spanOk b (max (x.len + micOf (u.ownNum k.val x.buf 2)) 1) = true →
        inRom b = false → (x.pidx < 4096 ∨ x.pidx = 0xFFFF) →
        ((u.ownNum k.val x.buf 2).testBit 3 = true → u.neverFits 3 = false → ∃ t, exec (.opSeal k env) s = .next t ∧
          goesOn t ∧ t.eng id = some (queued (.seal x.buf x.len x.pidx x.key b)) ∧
          { t with ctx := u.ctx, engs := u.engs, engNext := id, well := u.well, pwr := u.pwr } = u) ∧
        ((u.ownNum k.val x.buf 2).testBit 3 = false → exec (.opSeal k env) s = .next (u.answered k c d 0x60))) ∧
      (natBits w 31 26 = 0x3A → natBits w 9 5 = 0 → natBits w 3 0 = 0 → a % 8 = 0 → spanOk a 40 = true →
        spanOk a (max (32 + u.recFrameLen a) 1) = true → spanOk b (max (u.openSpan a) 1) = true → inRom b = false →
        u.clean a 32 → u.num (a + 0xC) 1 = 0 → (u.num (a + 0xD) 1).testBit 0 = false → u.num (a + 32) 2 % 8 ≠ 2 →
        u.neverFits 3 = false → ∃ t, exec (.opOpen k env) s = .next t ∧ goesOn t ∧
          t.eng id = some (queued (.opn a b (if w.testBit 4 then n % 4096 else u.num (a + 0xA) 2))) ∧
          { t with ctx := u.ctx, engs := u.engs, engNext := id, well := u.well, pwr := u.pwr } = u) ∧
      (natBits w 31 26 = 0x3B → natBits w 9 5 = 0 → spanOk a (max b 1) = true →
        let e := natBits w 2 0
        (u.on (CHKn_CFG.MSG e) = true → exec (.opChk k env) s = .next (u.setCx k.val { c.next.wr d 0x60#32 with
          st := .ready, susp := .none, z := false, v := true, since := u.stamp }).leaveIdle) ∧
        (u.on (CHKn_CFG.MSG e) = false → (s.chkEng e).op ≠ none → ∃ t, exec (.opChk k env) s = .next t ∧ goesOn t ∧
          t.eng id = some (queued (.chk e a b (w.testBit 3) (w.testBit 4))) ∧ t.chkEng e = s.chkEng e) ∧
        (u.on (CHKn_CFG.MSG e) = false → (s.chkEng e).op = none → u.chkQueue e = [] →
        ∃ t, exec (.opChk k env) s = .next t ∧ goesOn t ∧ t.chkEng e = ⟨some id⟩ ∧
          t.eng id = some { queued (.chk e a b (w.testBit 3) (w.testBit 4)) with started := true } ∧
          (w.testBit 3 = true → t.reg (CHKn_VALUE.off e) = u.reg (CHKn_INIT.off e) ∧ t.fld (CHKn_STAT.BYTES e) = 0) ∧
          (w.testBit 3 = false → t.reg (CHKn_VALUE.off e) = u.reg (CHKn_VALUE.off e)) ∧
          { t with regs := u.regs, ctx := u.ctx, engs := u.engs, engNext := id, chk := u.chk, pwr := u.pwr } = u))) ∧
    (w.testBit 13 = false → 4 ≤ c.out → natBits w 31 26 = 0x3B → natBits w 9 5 = 0 → spanOk a (max b 1) = true →
      exec (.opChk k env) s = .next (u.setCx k.val { c with st := .parked .engine, susp := .retry }))

/-- DMA_TRANSFER_END of a copy between banks (a bank word apart, good words, the destination outside RET, ERG and the message layer's
area) puts the source's bytes at the destination and changes no other byte, leaves the channel idle, sets DONE and counts it.
AES_OPERATION_START gives the oldest waiting seal or open to a granted idle engine; SEC_HOLD_EXPIRY gives the engine's claim back.
ENGINE_OPERATION_END of a context's oldest operation: a copy whose channel has ended reports its status word in g_d (W = 1) or as
an ENG result with its TAG (W = 0); a CHK with W = 1 leaves VALUE after its bytes, writes it or the final check to g_d, with V = 0;
FIND, ABSORB and FRAG report the status word that they have found. Completion is said for dmaTransferEnd, aesOperationStart,
secHoldExpiry and engineOperationEnd. -/
def Obligations.EngineOperationsEnd : Prop :=
  (∀ (n : Fin 16) (s : State) (d : Dma), s.awake = true → s.dmaCh n.val = d → d.busy = true → d.fill = false → d.op = none →
    ((0x80000 ≤ d.dst ∧ d.dst + d.len ≤ 0xC0000) ∨ (0x100000 ≤ d.dst ∧ d.dst + d.len ≤ 0x2F0000)) →
    (d.src + d.len + 8 ≤ d.dst ∨ d.dst + d.len + 8 ≤ d.src) → spanOk d.src d.len = true → s.clean d.src d.len →
    s.clean d.dst d.len → ∃ t, exec (.dmaTransferEnd n Env.clean) s = .next t ∧
      (∀ i, i < d.len → t.byte (d.dst + i) = s.byte (d.src + i)) ∧
      (∀ a, (a < d.dst ∨ d.dst + d.len ≤ a) → t.byte a = s.byte a) ∧
      t.dmaCh n.val = Dma.idle ∧ t.on (DMAn_STAT.DONE n.val) = true ∧
      t.fld (DMAn_STAT.DONE_CNT n.val) = satInc 255 (s.fld (DMAn_STAT.DONE_CNT n.val)) ∧
      { t with regs := s.regs, mem := s.mem, marks := s.marks, scrub := s.scrub, dma := s.dma, pwr := s.pwr,
               time := s.time, free := s.free } = s) ∧
  (∀ (e : Fin 4) (id : Nat) (o : EngOp) (s : State), s.awake = true → e.val < s.fld SEC_CTRL.ENGINES →
    s.holds (.aes e.val) = true → (s.aesEng e.val).busy = none → (id, o) ∈ s.aesQueue →
    (∀ y ∈ s.aesQueue, y ≠ (id, o) → o.ticket.le y.2.ticket = true ∧ y.2.ticket.le o.ticket = false) →
    ∃ t o', exec (.aesOperationStart e) s = .next t ∧ (t.aesEng e.val).busy = some id ∧ t.eng id = some o' ∧
      o' = { o with
        started := true, status := o'.status, reason := o'.reason, out := o'.out, staged := o'.staged
        key := o'.key, ctr := o'.ctr, heard := o'.heard } ∧
      (∀ i, i ≠ id → t.eng i = s.eng i) ∧ t.keys = s.keys ∧
      (∀ j : Fin 64, t.cx j.val = if o.ctx = some j ∧ (s.cx j.val).susp = .engine id then
        { s.cx j.val with st := .parked .engine } else s.cx j.val)) ∧
  (∀ (e : Fin 4) (s : State), s.awake = true → s.holds (.aes e.val) = true → (s.aesEng e.val).busy = none →
    s.aesQueue = [] → s.reach ((s.aesEng e.val).last + msFine (s.fld SEC_CTRL.HOLD)) = true →
    ∃ t, exec (.secHoldExpiry e) s = .next t ∧ t.holds (.aes e.val) = false ∧
      { t with time := s.time, well := s.well } = s) ∧
  (∀ (id : Nat) (k : Fin 64) (o : EngOp) (s : State), s.awake = true → s.eng id = some o → o.ctx = some k →
    (∀ p ∈ s.engs, p.1 < id → ∀ q, p.2 = some q → q.ctx ≠ some k) →
    (∀ ch, o.kind = .copy ch → (s.dmaCh ch).op ≠ some id →
      ∃ t, exec (.engineOperationEnd id Env.clean) s = .next t ∧ t.eng id = none ∧
        (o.wait = true → t.cx k.val = { (s.cx k.val).wr o.d (BitVec.ofNat 32 o.status) with
          st := .ready, susp := .none, z := decide (o.status % 256 = 0), since := t.stamp }) ∧
        (o.wait = false → (s.cx k.val).st = .ready → (s.cx k.val).susp = .none → t.cx k.val = { s.cx k.val with
          out := (s.cx k.val).out - 1, eng := (s.cx k.val).eng ++ [putBits (BitVec.ofNat 32 o.status) 14 12 o.tag] })) ∧
    (∀ e a n load final, o.kind = .chk e a n load final → o.started = true → o.wait = true → s.chkQueue e = [] →
      s.clean a n → ∃ t, exec (.engineOperationEnd id Env.clean) s = .next t ∧ t.eng id = none ∧ t.chkEng e = ⟨none⟩ ∧
        t.fld (CHKn_VALUE.VALUE e) = s.chkRun e (s.bytes a n) % 2 ^ 32 ∧
        t.cx k.val = { ((s.cx k.val).wr 0 0#32).wr o.d (BitVec.ofNat 32
          (if final then t.chkFinal e else t.fld (CHKn_VALUE.VALUE e))) with
          st := .ready, susp := .none, z := true, v := false, since := t.stamp }) ∧
    (∀ r, o.kind = .report r → o.wait = true → ∃ t, exec (.engineOperationEnd id Env.clean) s = .next t ∧
      t.eng id = none ∧ t.cx k.val = { (s.cx k.val).wr o.d (BitVec.ofNat 32 r) with
        st := .ready, susp := .none, z := decide (r % 256 = 0), since := t.stamp }))

/-- FRAG and FIND park (engine) with their operation queued, and so does ABSORB. ENGINE_OPERATION_END of a FRAG of a fragment that
is not the last writes its header and its bytes of the message to the buffer and reports OK and their number. ABSORB of a further
fragment of an assembling record, with its index not held and no earlier absorption under way, stores its bytes at its place, marks
and counts it, and has OK and the record to report; one that must wait stays queued. RELEASE frees a complete or failed record, and
is a BAD_COMMAND for another. TOPEN opens a free transaction record, waiting, with its partner, TID, tries, timeout and due stamp.
FIND has the lowest valid entry with the short address to report, else 0xFFFF. Completion is said for opFrag, opAbsorb, opRelease,
opTopen and opFind. -/
def Obligations.MessageFunctions : Prop :=
  (∀ (k : Fin 64) (env : Env) (w : Nat) (s : State), s.fetches k env w → natBits w 31 26 = 0x38 →
    (s.cx k.val).posted = [] → natBits w 13 6 = 0 →
    let u := s.fetched k env
    let c := u.cx k.val
    let d := natBits w 25 22
    let a := (c.rd (natBits w 21 18)).toNat
    let b := (c.rd (natBits w 17 14)).toNat
    let fn := natBits w 5 0
    let id := s.engNext
    let waits (t : State) (kind : EngKind) (ticket : Ticket) : Prop :=
      t.engNext = id + 1 ∧ t.eng id = some (EngOp.new kind (some k) d true 0 c.prio ticket) ∧
        t.cx k.val = { c.next with st := .parked .engine, susp := .engine id }
    (fn = 0x08 → a % 8 = 0 → spanOk a 16 = true → u.clean a 16 →
      let msg := u.num a 4
      let len := u.num (a + 4) 2
      let fsz := u.num (a + 6) 1
      let i := u.num (a + 9) 1
      let size := (if i = 0 then 5 else 3) + min (16 * fsz) (len + 4 - i * (16 * fsz))
      (u.fragOk len fsz i = true → spanOk msg (max len 1) = true → spanOk b (max size 1) = true → inRom b = false →
        ∃ t, exec (.opFrag k env) s = .next t ∧
          waits t (.frag msg len fsz (u.num (a + 7) 1) (u.num (a + 8) 1 % 4) i b) c.ticket) ∧
      (u.fragOk len fsz i = false → spanOk msg (max len 1) = true → spanOk b 1 = true → inRom b = false →
        ∃ t, exec (.opFrag k env) s = .next t ∧ waits t (.report 0x60) c.ticket)) ∧
    (fn = 0x09 → natBits w 17 14 = 0 → a % 8 = 0 → spanOk a 24 = true → u.clean a 24 →
      let addr := u.num a 4
      let len := u.num (a + 4) 2
      let pidx := u.num (a + 6) 2
      let level := u.num (a + 8) 1
      let tid := u.num (addr + 1) 1
      let i := u.num (addr + 2) 1
      let ticket : Ticket := ⟨wordStamp (u.num (a + 0x10) 8), 6, 0⟩
      spanOk addr (max len 1) = true →
      (u.absorbWaits addr pidx ticket = true → ∃ t, exec (.opAbsorb k env) s = .next t ∧
        waits t (.absorb addr len pidx level none) ticket ∧ t.mem = u.mem) ∧
      (∀ r, u.recOf 1 pidx tid = some r → u.partnerValid pidx = true → u.recLocked pidx tid = false →
      u.absorbsOf pidx = [] → u.msgRuns = true → u.clean addr len → natBits (u.num addr 1) 7 6 = 2 → u.num addr 1 % 16 = 0 →
      u.recFld r 6 1 ≠ 0 → i < u.recFld r 7 1 → len = 3 + 16 * u.recFld r 6 1 → u.mapBit r i = false →
      (u.recFld r 0x18 1).testBit 3 = decide (level ≠ 0) → u.mapBit r (u.recFld r 0x10 2) = false →
      i ≠ u.recFld r 0x10 2 →
      u.clean (msgRec r) 64 → 0x200000 ≤ u.recFld r 8 4 → u.recFld r 8 4 + 256 * (16 * u.recFld r 6 1) ≤ 0x2F0000 →
      u.clean (u.recFld r 8 4 + i * (16 * u.recFld r 6 1)) (16 * u.recFld r 6 1) → u.clean (msgCb 0) 0x40 →
      ∃ t, exec (.opAbsorb k env) s = .next t ∧ waits t (.report (r * 2 ^ 16)) ticket ∧
        t.mapBit r i = true ∧ t.recFld r 0x12 2 = (u.recFld r 0x12 2 + 1) % 2 ^ 16 ∧
        t.bytes (u.recFld r 8 4 + i * (16 * u.recFld r 6 1)) (16 * u.recFld r 6 1) =
          u.bytes (addr + 3) (16 * u.recFld r 6 1) ∧
        t.recFld r 0x14 4 = (u.tick + u.num (msgCb 0x10) 4) % 2 ^ 32)) ∧
    (fn = 0x0A → natBits w 17 14 = 0 →
      (a < 256 → (u.recFld a 3 1 = 2 ∨ u.recFld a 3 1 = 3) → u.clean (msgRec a) 8 → u.clean (msgCb 8) 8 →
        ∃ t, exec (.opRelease k env) s = .next t ∧ t.recFld a 3 1 = 0 ∧
          (∀ r, r ≠ a → r < 256 → t.recFld r 3 1 = u.recFld r 3 1) ∧
          t.cx k.val = { c.next.wr d 0#32 with st := .ready, susp := .none, z := true, since := u.stamp }) ∧
      (256 ≤ a ∨ (u.recFld a 3 1 ≠ 2 ∧ u.recFld a 3 1 ≠ 3) → exec (.opRelease k env) s = .next (u.answered k c d 0x60))) ∧
    (fn = 0x0B → natBits w 17 14 = 0 → a % 8 = 0 → spanOk a 16 = true → u.clean a 16 →
      let pidx := u.num a 2
      let tid := u.num (a + 2) 1
      (u.txnOf 1 pidx tid = none → (∃ x, x < 256 ∧ u.txnFld x 3 1 = 0) → (∀ x, x < 256 → u.clean (msgTxn x) 32) →
        ∃ t x, exec (.opTopen k env) s = .next t ∧ x < 256 ∧ u.txnFld x 3 1 = 0 ∧ t.txnFld x 0 2 = pidx ∧
          t.txnFld x 2 1 = tid ∧ t.txnFld x 3 1 = 1 ∧ t.txnFld x 4 1 = u.num (a + 3) 1 ∧
          t.txnFld x 8 8 = stampWord (u.stamp + u.num (a + 4) 4 * 6000) ∧ t.txnFld x 0x10 4 = u.num (a + 4) 4 ∧
          t.cx k.val = { c.next.wr d (BitVec.ofNat 32 (x * 2 ^ 16)) with
            st := .ready, susp := .none, z := true, since := u.stamp }) ∧
      (u.txnOf 1 pidx tid = none → (∀ x, x < 256 → u.txnFld x 3 1 ≠ 0) →
        exec (.opTopen k env) s = .next (u.answered k c d 0x63)) ∧
      ((∃ x, u.txnOf 1 pidx tid = some x) → exec (.opTopen k env) s = .next (u.answered k c d 0x60))) ∧
    (fn = 0x10 → natBits w 17 14 = 0 →
      (∀ i, i < u.entries → i < 4096 → u.partnerValid i = true → u.pt i 8 2 = a % 2 ^ 16 →
        (∀ j, j < i → u.partnerValid j = true → u.pt j 8 2 ≠ a % 2 ^ 16) →
        ∃ t, exec (.opFind k env) s = .next t ∧ waits t (.report (i * 2 ^ 16)) c.ticket) ∧
      ((∀ j, j < u.entries → u.partnerValid j = true → u.pt j 8 2 ≠ a % 2 ^ 16) →
        ∃ t, exec (.opFind k env) s = .next t ∧ waits t (.report 0xFFFF0000) c.ticket))) ∧
  (∀ (id : Nat) (k : Fin 64) (o : EngOp) (msg len fsz tid rr i b : Nat) (s : State), s.awake = true → s.eng id = some o →
    o.ctx = some k → o.wait = true → o.kind = .frag msg len fsz tid rr i b → s.chkOf id = none →
    (∀ p ∈ s.engs, p.1 < id → ∀ q, p.2 = some q → q.ctx ≠ some k) → 1 ≤ fsz → (i + 1) * (16 * fsz) ≤ len →
    let size := (if i = 0 then 5 else 3) + 16 * fsz
    spanOk msg len = true → s.clean msg len → 0x200000 ≤ b → b + size ≤ 0x2F0000 → s.clean b size →
    ∃ t, exec (.engineOperationEnd id Env.clean) s = .next t ∧ t.bytes b size =
        (leBytes 1 ((if i = 0 then 0x40 else 0x80) + rr % 2 * 32 + rr / 2 % 2 * 16) ++ leBytes 1 tid ++
          (if i = 0 then leBytes 2 (len - 1) ++ leBytes 1 fsz else leBytes 1 i)) ++
          s.bytes (msg + i * (16 * fsz)) (16 * fsz) ∧
      (∀ j, (j < b ∨ b + size ≤ j) → t.byte j = s.byte j) ∧ t.eng id = none ∧
      t.cx k.val = { (s.cx k.val).wr o.d (BitVec.ofNat 32 (size * 2 ^ 16)) with
        st := .ready, susp := .none, z := true, since := t.stamp })

/-- For every 16-byte key, source address, frame counter, security level, header and payload of at most 512 bytes: CCM* opening
with the same nonce of the payload as sealed returns the payload and computes the MIC that sealing attached. -/
def Obligations.OpeningUndoesSealing : Prop :=
  ∀ (key : List Byte) (eui ctr level : Nat) (hdr payload : List Byte), key.length = 16 → payload.length ≤ 512 →
    ccmOpen key eui ctr level hdr (ccmSeal key eui ctr level hdr payload).1 =
      (payload, (ccmSeal key eui ctr level hdr payload).2)

/-- With a good descriptor and CMR not failed: TUNE with AT arms its launcher with RADIO and parks; RXWIN without AT puts its window
into the lowest free place and answers with that place; LBT with AT parks as an operation of its stamp, and without AT, with no
Palette running, ends with CHANNEL_BUSY and 255; RSSI answers with the largest energy of the blocks asked for, 255 where no chain
covers the channel; GACK with AT fixes SF0, arms its launcher with REPEAT = BO + 3, parks and prepares the first beacon; with STOP
no beacon stays armed. LBT ends with RADIO_LOST under a failed CMR, and with BAD_COMMAND for a bad channel. Completion is said for
opTune, opRxwin, opLbt, opRssi and opGack. -/
def Obligations.RadioInstructions : Prop :=
  ∀ (k : Fin 64) (env : Env) (w : Nat) (s : State), s.fetches k env w →
    let u := s.fetched k env
    let c := u.cx k.val
    let d := natBits w 25 22
    let a := (c.rd (natBits w 21 18)).toNat
    let n := (c.rd (natBits w 17 14)).toNat
    let x := u.desc k.val a
    let f := 2 * x.freq
    let id := s.opNext
    let t0 := wordStamp (c.rdT (natBits w 1 0)).toNat
    let waiting : Ctx := { c.next with st := .parked .radio, susp := .radio id }
    let armed (t : State) (rep : Nat) : Prop := ∃ arg, t.launcher x.lnch =
      ⟨true, t0, 1, arg, rep, x.pol, some k, some id, decide (t0 < u.stamp + 16), none⟩
    a % 8 = 0 → spanOk a 32 = true → u.clean a 32 → x.freq < 2 ^ 17 →
    (natBits w 31 26 = 0x30 → natBits w 17 2 = 1 → u.cmr.st ≠ 6 → x.chain < 3 → x.lnch < 32 → x.pol ≠ 3 →
      wordOk (wordOf2 f) = true → (x.chain = 1 → u.single = false ∧ u.diversity = false) →
      u.launcher x.lnch = Lnch.off → ∃ t o, exec (.opTune k env) s = .next t ∧ t.cx k.val = waiting ∧ armed t 0 ∧
        t.op id = some o ∧ o.kind = .tune ∧ o.phase = .release ∧ o.freq = f ∧ o.chain = x.chain ∧ o.t = t0 ∧
        o.ctx = some k ∧ o.d = d ∧ o.lnch.map Fin.val = some x.lnch ∧ t.opNext = id + 1 ∧
        { t with regs := u.regs, ctx := u.ctx, ops := u.ops, opNext := id, lnch := u.lnch, free := u.free } = u) ∧
    (natBits w 31 26 = 0x31 → natBits w 17 5 = 0 → natBits w 3 0 = 0 → u.cmr.st ≠ 6 → x.modeOk = true → x.chain < 2 →
      (x.pidx < 4096 ∨ x.pidx = 0xFFFF) → ∀ i, i < 128 → u.win i = none → (∀ j, j < i → u.win j ≠ none) →
      ∃ t, exec (.opRxwin k env) s = .next t ∧
        t.cx k.val = { c.next.wr d (BitVec.ofNat 32 (u.radioWord 0 false i)) with
          st := .ready, susp := .none, z := true, since := u.stamp } ∧
        t.win i = some ⟨x.pidx, if x.chain = 1 then .b else .a, x.freq, 2 ^ x.width, u.stamp, u.stamp + x.span * 6000,
          w.testBit 4, false⟩ ∧ (∀ j, j ≠ i → t.win j = u.win j) ∧
        { t with ctx := u.ctx, wins := u.wins, pwr := u.pwr } = u) ∧
    (natBits w 31 26 = 0x33 → natBits w 17 3 = 0 → (w.testBit 2 = true ∨ natBits w 1 0 = 0) →
      (x.modeOk = false → exec (.opLbt k env) s = .next (u.answered k c d (u.radioWord 0x60 false 0))) ∧
      (x.modeOk = true → u.cmr.st = 6 → exec (.opLbt k env) s = .next (u.answered k c d (u.radioWord 0x16 false 0))) ∧
      (x.modeOk = true → u.cmr.st ≠ 6 → w.testBit 2 = true → ∃ t o, exec (.opLbt k env) s = .next t ∧
        t.cx k.val = waiting ∧ t.op id = some o ∧ o.kind = .lbt ∧ o.freq = f ∧ o.width = 2 ^ x.width ∧ o.t = t0 ∧
        t.opNext = id + 1 ∧ { t with ctx := u.ctx, ops := u.ops, opNext := id, free := u.free } = u) ∧
      (x.modeOk = true → u.cmr.st ≠ 6 → w.testBit 2 = false → u.palRuns .a = false → u.palRuns .b = false →
        ∃ t, exec (.opLbt k env) s = .next t ∧ t.op id = none ∧ t.regs = u.regs ∧ t.cx k.val =
          { c.next.wr d (BitVec.ofNat 32 (u.radioWord 0x12 false 255)) with
            st := .ready, susp := .none, z := false, since := u.stamp })) ∧
    (natBits w 31 26 = 0x36 → natBits w 13 0 = 0 → x.modeOk = true → x.chain < 2 → 1 ≤ n → n ≤ 128 →
      (∀ b m, u.span x.rx f (2 ^ x.width) = some (b, m) →
        exec (.opRssi k env) s = .next (u.answered k c d (u.radioWord 0 false (u.energyMax x.rx b m n)))) ∧
      (u.span x.rx f (2 ^ x.width) = none →
        exec (.opRssi k env) s = .next (u.answered k c d (u.radioWord 0 false 255)))) ∧
    (natBits w 31 26 = 0x37 → x.modeOk = true → x.optsOk = true → x.levelOk = true → u.on MAC_ROLE.SF_EN = true →
      (natBits w 17 2 = 1 → u.cmr.st ≠ 6 → x.lnch < 32 → wordOk (wordOf2 f) = true → u.on TXP_CTRL.REQ_ACC = false →
        (∀ i, i < 8 → u.acctOn i = false) → u.on RFA_CHAIN_CFG.SYT_ON = true → u.syt.phase = .locked →
        u.syt.word = wordOf2 f → u.fld MAC_ROLE.BLEVEL = 0 → u.ops = [] → u.launcher x.lnch = Lnch.off →
        ∃ t g o, exec (.opGack k env) s = .next t ∧ t.cx k.val = waiting ∧ t.mac.sf0 = some t0 ∧
          armed t (u.fld MAC_SF_CFG.BO + 3) ∧ t.op id = some g ∧ g.kind = .gack ∧ t.op (id + 1) = some o ∧
          o.kind = .beacon ∧ o.phase = .release ∧ o.t = t0 ∧ o.freq = f ∧ t.opNext = id + 2 ∧ t.mem = u.mem) ∧
      (natBits w 17 0 = 8 → c.susp = .none → ∃ t, exec (.opGack k env) s = .next t ∧ t.mac.sf0 = none ∧
        (∀ i o, t.op i = some o → o.kind ≠ .gack) ∧ t.cx k.val =
          { c.next.wr d (BitVec.ofNat 32 (u.radioWord 0 false 0)) with
            st := .ready, susp := .none, z := true, since := u.stamp } ∧
        t.mem = u.mem ∧ t.opNext = id))

/-- With a good descriptor, CMR not failed, no account in force and none required, and SYT locked at the channel's word: TXF of an
unsealed frame of at most 511 bytes with its FCS, without temperature or timestamp field, CALLTX, and ACKW with AT of an OK record
of a data or command frame with ack-request become transmissions waiting for their release point; the context parks on each. TXF
sends the bytes at BUF, CALLTX CWORD, class and target in (PRE_BITS + 64) × 0.5 ms a copy, ACKW the 5-byte acknowledgement with the
record's sequence number and PEND of x[3]. Completion is said for opTxf, opCalltx and opAckw. -/
def Obligations.TransmissionsBegin : Prop :=
  ∀ (k : Fin 64) (env : Env) (w : Nat) (s : State), s.fetches k env w →
    let u := s.fetched k env
    let c := u.cx k.val
    let a := (c.rd (natBits w 21 18)).toNat
    let b := (c.rd (natBits w 17 14)).toNat
    let x := u.desc k.val a
    let f := 2 * x.freq
    let id := s.opNext
    let bs := u.ownBytes k.val x.buf x.len
    let ack := u.ackwOp x k w b
    let ready (freq : Nat) : Prop := wordOk (wordOf2 freq) = true ∧ u.syt.word = wordOf2 freq ∧ u.syt.phase = .locked ∧
      u.on RFA_CHAIN_CFG.SYT_ON = true ∧ u.on TXP_CTRL.REQ_ACC = false ∧ ∀ i, i < 8 → u.acctOn i = false
    let begun (t : State) (o : RadioOp) : Prop := t.op id = some o ∧ o.phase = .release ∧ o.ctx = some k ∧ t.opNext = id + 1 ∧
      t.cx k.val = { c.next with st := .parked .radio, susp := .radio id }
    a % 8 = 0 → spanOk a 32 = true → u.clean a 32 → u.cmr.st ≠ 6 → x.optsOk = true → x.levelOk = true →
    (natBits w 31 26 = 0x32 → natBits w 17 2 = 0 → x.freq < 2 ^ 17 → x.modeOk = true → x.preOk = true → x.pidxOk = true →
      spanOk x.buf (max x.len 1) = true → u.clean x.buf x.len → x.opts.testBit 3 = false → x.len + u.fcsLen (natBits x.mode 7 6) ≤ 511 →
      fcTs (frameCtl bs) = false → fcTemp (frameCtl bs) = false → ready f →
      ∃ t o, exec (.opTxf k env) s = .next t ∧ begun t o ∧ o.kind = .txf ∧ o.frame = bs ∧ o.freq = f ∧
        o.width = 2 ^ x.width ∧ o.pre = (if x.pre = 0 then u.fld TXP_CTRL.PRE_LEN else x.pre) ∧
        o.level = (if x.level = 127 then u.fld RFA_PA_LEVEL.LEVEL else x.level) ∧ o.wantAck = fcAr (frameCtl bs) ∧
        { t with ctx := u.ctx, ops := u.ops, opNext := id, free := u.free } = u) ∧
    (natBits w 31 26 = 0x34 → natBits w 17 0 = 0 → x.freq < 2 ^ 17 → ready f →
      ∃ t o, exec (.opCalltx k env) s = .next t ∧ begun t o ∧ o.kind = .calltx ∧ o.freq = f ∧ o.width = 2 ∧
        o.frame = leBytes 4 x.cword ++ leBytes 1 x.cls ++ leBytes 2 x.target ∧
        o.air = (u.fld TXP_CALL_CFG.PRE_BITS + 64) * 98304 ∧ o.copies = u.fld TXP_CALL_CFG.REPS ∧
        { t with ctx := u.ctx, ops := u.ops, opNext := id, free := u.free } = u) ∧
    (natBits w 31 26 = 0x35 → natBits w 13 4 = 0 → w.testBit 2 = true → x.lnch < 32 → u.launcher x.lnch = Lnch.off →
      b % 8 = 0 → spanOk b 40 = true → u.clean b 40 → u.ackwServes k.val b = true → ready ack.freq →
      let t0 := wordStamp (c.rdT (natBits w 1 0)).toNat
      u.stamp + u.lead ≤ t0 →
      ∃ t o, exec (.opAckw k env) s = .next t ∧ begun t o ∧ o.kind = .ackw ∧ o.freq = ack.freq ∧ o.t = t0 ∧ o.at_ = true ∧
        o.frame = leBytes 2 (if w.testBit 3 then 18 else 2) ++ leBytes 1 (u.ownNum k.val (b + 34) 1) ++
          leBytes 2 (u.fld MAC_NETID.NETID) ∧
        (t.launcher x.lnch).armed = true ∧ (t.launcher x.lnch).stamp = t0 ∧ (t.launcher x.lnch).op = some id ∧ t.mem = u.mem)

/-- With channel 15 and engine 7 idle and engine 7 not lent, a service sketch ends its command with OK: IDENT answers SYS_ID,
SYS_REV and the PRIMER version; FILL leaves the byte of g3 at every address of its span, COPY the source's bytes (the spans a
bank word apart), PTCLEAR zeros in
the partner entries asked for, and with NOEV no other byte changes; CRC answers the CRC-32 of the bytes; RETURN writes 256 bytes,
the last four the CRC-32 of the others, and answers these four. A span that may not be written, entries past 4095, a destination
that is no multiple of 8 or outside the MSG bank, and a lent engine 7 end with BAD_COMMAND. The context is free afterwards.
Completion is said for svcIdent, svcFill, svcPrimerCopy, svcCrc, svcPtclear and svcReturn. -/
def Obligations.ServiceSketches : Prop :=
  ∀ (k : Fin 64) (s : State), s.serves = true → (s.cx k.val).st = .ready → (s.cx k.val).posted = [] →
    (s.dmaCh 15).busy = false → (s.chkEng 7).op = none →
    let c := s.cx k.val
    let g (i : Nat) : Nat := (c.rd i).toNat
    let ended (t : State) (status : Nat) (data : List Byte) : Prop := t.cx k.val = { Ctx.empty with ring := c.ring } ∧
      ∀ p : Fin 4, c.port = some p → t.slot p.val c.slot = { s.slot p.val c.slot with
        st := if (s.slot p.val c.slot).nores then .free else .done, status := status, data := data, freed := s.order + 1 }
    let quiet : Prop := ∀ p : Fin 4, c.port = some p → (s.slot p.val c.slot).noev = true
    let open_ (a n : Nat) : Prop := (0x80000 ≤ a ∧ a + n ≤ 0xC0000) ∨ (0x100000 ≤ a ∧ a + n ≤ 0x2F0000)
    let filled (t : State) (a n : Nat) (b : Byte) : Prop :=
      ∀ x, t.byte x = if a ≤ x ∧ x < a + n then b else s.byte x
    (∀ i ∈ [(Instr.svcIdent k Env.clean, 0), (.svcFill k Env.clean, 1), (.svcPrimerCopy k Env.clean, 2),
        (.svcCrc k Env.clean, 3), (.svcPtclear k Env.clean, 4), (.svcReturn k Env.clean, 5)],
      c.svc = some i.2 → s.lent 7 = true → ∃ t, exec i.1 s = .next t ∧ ended t 0x60 []) ∧
    (s.lent 7 = false →
      (c.svc = some 0 → ∃ t, exec (.svcIdent k Env.clean) s = .next t ∧ ended t 0
        (leBytes 4 (s.reg SYS_ID.off).toNat ++ leBytes 4 (s.reg SYS_REV.off).toNat ++ leBytes 4 (s.fld SYS_REV.PRIMER))) ∧
      (c.svc = some 1 →
        (spanWritable (g 1) (g 2) = false → ∃ t, exec (.svcFill k Env.clean) s = .next t ∧ ended t 0x60 []) ∧
        (spanWritable (g 1) (g 2) = true → open_ (g 1) (g 2) → s.clean (g 1) (g 2) → quiet →
          ∃ t, exec (.svcFill k Env.clean) s = .next t ∧ ended t 0 [] ∧ filled t (g 1) (g 2) (BitVec.ofNat 8 (g 3)))) ∧
      (c.svc = some 2 → spanOk (g 1) (g 3) = true → spanWritable (g 2) (g 3) = true → open_ (g 2) (g 3) →
        (g 1 + g 3 + 8 ≤ g 2 ∨ g 2 + g 3 + 8 ≤ g 1) → s.clean (g 1) (g 3) → s.clean (g 2) (g 3) → quiet →
        ∃ t, exec (.svcPrimerCopy k Env.clean) s = .next t ∧ ended t 0 [] ∧
          ∀ x, t.byte x = if g 2 ≤ x ∧ x < g 2 + g 3 then s.byte (g 1 + (x - g 2)) else s.byte x) ∧
      (c.svc = some 2 → (spanOk (g 1) (g 3) && spanWritable (g 2) (g 3)) = false →
        ∃ t, exec (.svcPrimerCopy k Env.clean) s = .next t ∧ ended t 0x60 []) ∧
      (c.svc = some 3 → spanOk (g 1) (g 2) = false →
        ∃ t, exec (.svcCrc k Env.clean) s = .next t ∧ ended t 0x60 []) ∧
      (c.svc = some 3 → spanOk (g 1) (g 2) = true → s.clean (g 1) (g 2) →
        ∃ t, exec (.svcCrc k Env.clean) s = .next t ∧ ended t 0 (leBytes 4 (crc32 (s.bytes (g 1) (g 2))))) ∧
      (c.svc = some 4 →
        (4096 < g 1 + g 2 → ∃ t, exec (.svcPtclear k Env.clean) s = .next t ∧ ended t 0x60 []) ∧
        (g 1 + g 2 ≤ 4096 → s.clean (0x80000 + 64 * g 1) (64 * g 2) → quiet →
          ∃ t, exec (.svcPtclear k Env.clean) s = .next t ∧ ended t 0 [] ∧ filled t (0x80000 + 64 * g 1) (64 * g 2) 0#8)) ∧
      (c.svc = some 5 →
        (g 1 % 8 ≠ 0 ∨ g 1 < 0x200000 ∨ 0x300000 < g 1 + 256 → ∃ t, exec (.svcReturn k Env.clean) s = .next t ∧ ended t 0x60 []) ∧
        (g 1 % 8 = 0 → 0x200000 ≤ g 1 → g 1 + 256 ≤ 0x2F0000 → s.clean 0x4D800 1024 → quiet →
          ∃ t, exec (.svcReturn k Env.clean) s = .next t ∧ ended t 0 (t.bytes (g 1 + 252) 4) ∧
            t.bytes (g 1 + 252) 4 = leBytes 4 (crc32 (t.bytes (g 1) 252)) ∧
            t.bytes (g 1) 4 = leBytes 4 (s.reg SYS_ID.off).toNat ∧
            ∀ x, (x < g 1 ∨ g 1 + 256 ≤ x) → t.byte x = s.byte x)))

/-- DMA_START on an idle channel, without STOP, starts the transfer that SRC, DST, LEN and FILL describe, with CTX naming the
starter; spans outside one region, or a destination that may not be written, end it with ERR and CAUSE 3; a busy channel ignores
it. DMA_STOP ends a busy channel with ERR and CAUSE 4, and reaches no byte outside its destination; on an idle channel it does
nothing. No other channel changes. Completion is said for dmaStart and dmaStop. -/
def Obligations.DmaChannelsStartAndStop : Prop :=
  ∀ (m : Master) (n : Fin 16) (v : Word) (s : State), s.reaches m = true →
    let src := s.fld (DMAn_SRC.SRC n.val)
    let dst := s.fld (DMAn_DST.DST n.val)
    let len := s.fld (DMAn_LEN.LEN n.val)
    let ok : Prop := (bit v 0 = true ∨ spanOk src len = true) ∧ spanWritable dst len = true
    let who : Nat := match m with | .host _ => 63 | .ctx k => k.val
    (bit v 30 = false → (s.dmaCh n.val).busy = false → ok → ∃ t, exec (.dmaStart m n v) s = .next t ∧
      t.dmaCh n.val = ⟨true, src, dst, len, bit v 0, none⟩ ∧ (∀ j, j ≠ n.val → t.dmaCh j = s.dmaCh j) ∧
      t.fld (DMAn_CFG.CTX n.val) = who ∧ s.moment.onlyReg { t with dma := s.dma } (DMAn_CFG.off n.val)) ∧
    (bit v 30 = false → s.dmaCh n.val = Dma.idle → ¬ ok → ∃ t, exec (.dmaStart m n v) s = .next t ∧
      t.dmaCh n.val = Dma.idle ∧ t.on (DMAn_STAT.ERR n.val) = true ∧ t.fld (DMAn_STAT.CAUSE n.val) = 3 ∧
      t.fld (DMAn_STAT.ERR_CNT n.val) = satInc 255 (s.fld (DMAn_STAT.ERR_CNT n.val)) ∧ t.mem = s.mem) ∧
    (bit v 30 = false → (s.dmaCh n.val).busy = true → ∃ t, exec (.dmaStart m n v) s = .next t ∧
      s.moment.onlyReg t (DMAn_CFG.off n.val)) ∧
    ((s.dmaCh n.val).busy = false → ∃ t, exec (.dmaStop m n v) s = .next t ∧ s.moment.onlyReg t (DMAn_CFG.off n.val)) ∧
    (∀ d, s.dmaCh n.val = d → d.busy = true → d.op = none →
      ((0x80000 ≤ d.dst ∧ d.dst + d.len ≤ 0xC0000) ∨ (0x100000 ≤ d.dst ∧ d.dst + d.len ≤ 0x2F0000)) →
      (d.fill = true ∨ s.clean d.src d.len ∧ (d.src + d.len + 8 ≤ d.dst ∨ d.dst + d.len + 8 ≤ d.src)) → s.clean d.dst d.len →
      ∃ t, exec (.dmaStop m n v) s = .next t ∧ t.dmaCh n.val = Dma.idle ∧ (∀ j, j ≠ n.val → t.dmaCh j = s.dmaCh j) ∧
        t.on (DMAn_STAT.ERR n.val) = true ∧ t.fld (DMAn_STAT.CAUSE n.val) = 4 ∧
        (∀ a, (a < d.dst ∨ d.dst + d.len ≤ a) → t.byte a = s.byte a))

/-- With no lane in use, SYA_VCO and SYB_VCO of a powered chain set their bit and begin a full calibration at the present word,
with a temperature conversion; SYT_VCO does so for a powered SYT that no transmission holds, and waits behind one. RXA_IQ and
RXB_IQ set their bit. A running Palette that gets gap markers sets GAP. All are ignored while the synthesiser is off. TEMP_START
starts a conversion. WKR_ENABLE of a receiver that was off, and CAL of one that is not calibrating, begin a calibration now.
Completion is said for syaVco, sybVco, sytVco, rxaIq, rxbIq, tempStart, wkrEnable and cal. -/
def Obligations.CalibrationsStart : Prop :=
  ∀ (p : Fin 4) (m : Master) (v : Word) (s : State), s.reaches (.host p) = true → s.reaches m = true →
    let settles (x y : Synth) : Prop := y.phase = .settling ∧ y.word = x.word ∧ 1 ≤ y.kase ∧ y.queue = x.queue
    let gap (t : State) (c : Chain) : Prop := s.palRuns c = true → t.on CHZ_ERG_STAT.GAP = true
    (s.lanes = [] →
      (s.synOn .sya = true → ∃ t, exec (.syaVco p) s = .next t ∧ t.on RFA_CAL_CTRL.SYA_VCO = true ∧
        settles s.sya t.sya ∧ t.tempConv = true ∧ gap t .a ∧
        { t with regs := s.regs, sya := s.sya, tempConv := s.tempConv } = s.moment) ∧
      (s.synOn .syb = true → ∃ t, exec (.sybVco p) s = .next t ∧ t.on RFA_CAL_CTRL.SYB_VCO = true ∧
        settles s.syb t.syb ∧ t.tempConv = true ∧ gap t .b ∧
        { t with regs := s.regs, syb := s.syb, tempConv := s.tempConv } = s.moment) ∧
      (s.synOn .sya = true → ∃ t, exec (.rxaIq p) s = .next t ∧ t.on RFA_CAL_CTRL.RXA_IQ = true ∧ gap t .a ∧
        { t with regs := s.regs } = s.moment) ∧
      (s.synOn .syb = true → ∃ t, exec (.rxbIq p) s = .next t ∧ t.on RFA_CAL_CTRL.RXB_IQ = true ∧ gap t .b ∧
        { t with regs := s.regs } = s.moment)) ∧
    (s.synOn .syt = true → s.on TXP_STAT.ACTIVE = false → ∃ t, exec (.sytVco p) s = .next t ∧
      t.on RFA_CAL_CTRL.SYT_VCO = true ∧ settles s.syt t.syt ∧ t.tempConv = true ∧
      { t with regs := s.regs, syt := s.syt, tempConv := s.tempConv } = s.moment) ∧
    (s.synOn .syt = true → s.on TXP_STAT.ACTIVE = true → ∃ t, exec (.sytVco p) s = .next t ∧
      t.on RFA_CAL_CTRL.SYT_VCO = true ∧ t.syt = { s.syt with calWait := true }) ∧
    (∀ c ∈ [(Instr.syaVco p, Syn.sya), (.sybVco p, .syb), (.sytVco p, .syt), (.rxaIq p, .sya), (.rxbIq p, .syb)],
      s.synOn c.2 = false → ∃ t, exec c.1 s = .next t ∧ s.moment.onlyReg t RFA_CAL_CTRL.off) ∧
    (∃ t, exec (.tempStart m) s = .next t ∧ t.on RFA_TEMP.START = true ∧ t.tempConv = true ∧
      t.fld RFA_TEMP.TEMP = s.fld RFA_TEMP.TEMP ∧ s.moment.onlyReg { t with tempConv := s.tempConv } RFA_TEMP.off) ∧
    (s.on WKR_CFG.EN = false → s.wkr.cal = none → ∃ t, exec (.wkrEnable m v) s = .next t ∧ t.on WKR_CFG.EN = true ∧
      t.on WKR_TUNE.CAL = true ∧ t.wkr.cal = some t.tick ∧ t.wkr.ref = t.tick ∧ t.wkr.last = s.wkr.last ∧
      t.fld WKR_CFG.ADDR = getBits v 31 16 ∧ { t with regs := s.regs, wkr := s.wkr } = s.moment) ∧
    (s.wkr.cal = none → ∃ t, exec (.cal m v) s = .next t ∧ t.on WKR_TUNE.CAL = true ∧
      t.wkr = { s.wkr with cal := some t.tick, ref := t.tick } ∧
      s.moment.onlyReg { t with wkr := s.wkr } WKR_TUNE.off) ∧
    (s.wkr.cal ≠ none → ∃ t, exec (.cal m v) s = .next t ∧ s.moment.onlyReg t WKR_TUNE.off)

/-- CNT_CLR zeroes the ten LANE counters. FLUSH removes every entry that waits without a lane, and no other. GRP_REQ_SET queues the
group's claim of 2.5 mA, unless it is held or waits; GRP_REQ_CLEAR gives a group's claim back at once when no lane of the group
holds an entry, else keeps it. SGL_CLR empties the accounts named; SECONDS_CHANGE gathers the sum of its account into one bucket
that expires a full new window later; with LOCK = 1 SGL_CLR does nothing but set DENY. TXP_ABORT ends a transmission on the air
with ABORTED, charged to its accounts (as they stood when it began) for the time on the air, its PA left to ramp down; one that
has not risen is over at once, uncharged, an acknowledgement of its own counting as missed; one ramping down goes on. Completion is
said for cntClr, flush, grpReqSet, grpReqClear, sglClr, secondsChange and txpAbort. -/
def Obligations.LaneAndAccountCommands : Prop :=
  ∀ (m : Master) (g : Fin 16) (n : Fin 8) (v : Word) (s : State), s.reaches m = true →
    let grp (h : Nat) : Bool := (s.fld LANE_ALLOC_CFG.GRP_REQ).testBit h
    (∃ t, exec (.cntClr m) s = .next t ∧
      (∀ f ∈ [LANE_RECOV_STAT.OK_CNT, LANE_RECOV_STAT.FAIL_CNT, LANE_RECOV_STAT.SKIP_CNT, LANE_STARVE_CNT.OCC_CNT,
        LANE_STARVE_CNT.TOTAL, LANE_RING_HEAD.FULL_CNT, LANE_DIV_STAT.PICK_A, LANE_DIV_STAT.PICK_B, LANE_CNT_OK.COUNT,
        LANE_CNT_FCS.COUNT], t.fld f = 0) ∧ t.fld LANE_RING_HEAD.HEAD = s.fld LANE_RING_HEAD.HEAD ∧
      { t with regs := s.regs } = s.moment) ∧
    (Tab.wf (fun _ => none) s.ents = true → ∃ t, exec (.flush m) s = .next t ∧
      (∀ e x, t.ent e = some x ↔ s.ent e = some x ∧ (x.lane ≠ none ∨ x.slot ≠ none)) ∧
      t.reg LANE_STARVE_CNT.off = s.reg LANE_STARVE_CNT.off ∧ t.reg CHZ_PENDING_STAT.off = s.reg CHZ_PENDING_STAT.off) ∧
    (s.holds (.group g) = false → s.waits (.group g) = false → s.neverFits 5 = false →
      (∀ h, h < 16 → h ≠ g.val → if grp h then s.holds (.group h) = true ∨ s.waits (.group h) = true
        else s.holds (.group h) = false ∧ s.waits (.group h) = false) →
      ∃ t, exec (.grpReqSet m g) s = .next t ∧ (t.fld LANE_ALLOC_CFG.GRP_REQ).testBit g.val = true ∧
        t.well = { s.well with queue := s.well.queue ++
          [⟨.group g, 5, s.fld WELL_QUEUE.DEVPRIO, s.moment.masterTicket m, t.stamp, false⟩] } ∧
        s.moment.onlyReg { t with well := s.well } LANE_ALLOC_CFG.off) ∧
    (s.holds (.group g) = true → s.waits (.group g) = false → ∃ t, exec (.grpReqClear m g) s = .next t ∧
      (t.fld LANE_ALLOC_CFG.GRP_REQ).testBit g.val = false ∧
      t.holds (.group g) = s.laneList.any (fun l => l.1 / 8 == g.val)) ∧
    (s.on SYS_LOCK.LOCK = false →
      (∃ t, exec (.sglClr m v) s = .next t ∧ (∀ i, t.acct i = if i < 8 ∧ bit v (8 + i) then [] else s.acct i) ∧
        s.moment.onlyReg { t with accts := s.accts } SGL_STAT.off) ∧
      (1 ≤ getBits v 11 0 → getBits v 11 0 ≤ 3600 → getBits v 11 0 ≠ s.fld (SGL_ACCn_WINDOW.SECONDS n.val) →
        ∃ t, exec (.secondsChange m n v) s = .next t ∧
          t.fld (SGL_ACCn_WINDOW.SECONDS n.val) = getBits v 11 0 ∧ (∀ i, i ≠ n.val → t.acct i = s.acct i) ∧
          t.acct n.val = (if s.moment.used n.val = 0 then [] else
            [⟨(ceilDiv t.stamp (6000 * (512 * getBits v 11 0)) + 64) * (512 * getBits v 11 0), s.moment.used n.val⟩]) ∧
          s.moment.onlyReg { t with accts := s.accts } (SGL_ACCn_WINDOW.off n.val))) ∧
    (s.on SYS_LOCK.LOCK = true → getBits v 15 8 ≠ 0 → ∃ t, exec (.sglClr m v) s = .next t ∧ t.accts = s.accts ∧
      t.on SYS_LOCK.DENY = true ∧ t.fld SYS_LOCK.DENY_CNT = satInc 255 (s.fld SYS_LOCK.DENY_CNT)) ∧
    (s.txNow = none → ∃ t, exec (.txpAbort m) s = .next t ∧ s.moment.onlyReg t TXP_CTRL.off) ∧
    (∀ id o, s.txNow = some id → s.op id = some o → o.kind.sends = true →
      ∃ t, exec (.txpAbort m) s = .next t ∧
        (o.phase = .onAir → t.fld TXP_STAT.LAST = 0x61 ∧ t.pins.paEn = s.pins.paEn ∧
          (∃ x, t.op id = some x ∧ x.phase = .fall ∧ x.aborted = true ∧ x.endAt = t.stamp ∧
            x.fallAt = t.stamp + usFine (min s.rampUs 16 + s.fld RFA_EXT_CTL.PA_LAG)) ∧
          ∀ i, i < 8 → t.acct i = if (s.asOf o).liesIn o.freq o.width i then
            addBucket ((s.asOf o).expiryTick i t.stamp) (max 1 (airUnits (min o.air (t.stamp - o.t)))) (s.acct i)
            else s.acct i) ∧
        (o.phase = .grant → t.op id = none ∧ t.on TXP_STAT.ACTIVE = false ∧ t.accts = s.accts ∧
          (if o.kind = .ack then t.on TXP_ACK_CFG.MISS = true else t.fld TXP_STAT.LAST = 0x61)) ∧
        (o.tailing = true → s.moment.onlyReg t TXP_CTRL.off))

/-- SYS_LOCK with its key sets LOCK, without it nothing. SYS_SOFTRESET with its key does nothing
when less than 20 µs have passed since a soft reset whose start-up has not ended; else it empties contexts, operations, launchers,
semaphores, keys and claims, frees every handle slot with its generation advanced, counts SR_CNT, returns the HOST, CHZ, LANE, MAC
and SEC registers to reset and leaves SYS, PWR and the accounts' registers, the counter and, where no ball served as a cascade
select, memory but the message layer's EN. INJ arms check bits for the next full write of its bank. NEXT makes an announcement,
withdraws one (1), or is ignored (0, 2 to AREP + 1, or once begun). EN takes effect on an idle cascade port. FRAME_RUN queues the
frame of its image on an idle manager and drives the worker's select low. Completion is said for sysLock, softReset, inj, nextWrite,
cascadeEnable and frameRun. -/
def Obligations.SystemWritesAct : Prop :=
  ∀ (m : Master) (n : Fin 4) (v : Word) (s : State), s.reaches m = true →
    let next := getBits v 31 16
    let begun : Prop := ∃ a b, s.mac.ann = some a ∧ a.first = some b
    (next = 0x3C3C → ∃ t, exec (.sysLock m v) s = .next t ∧ t.on SYS_LOCK.LOCK = true ∧
      s.moment.onlyReg t SYS_LOCK.off) ∧
    (next ≠ 0x3C3C → ∃ t, exec (.sysLock m v) s = .next t ∧ t.on SYS_LOCK.LOCK = s.on SYS_LOCK.LOCK ∧
      s.moment.onlyReg t SYS_LOCK.off) ∧
    (next ≠ 0x5AA5 → ∃ t, exec (.softReset m v) s = .next t ∧ s.moment.onlyReg t SYS_SOFTRESET.off) ∧
    (next = 0x5AA5 → s.pwr.primed = false → s.moment.stamp < s.pwr.wakeAt + usFine 20 →
      ∃ t, exec (.softReset m v) s = .next t ∧ s.moment.onlyReg t SYS_SOFTRESET.off) ∧
    (next = 0x5AA5 → s.pwr.primed = true ∨ s.pwr.wakeAt + usFine 20 ≤ s.stamp →
      ∃ t, exec (.softReset m v) s = .next t ∧ (∀ k, t.cx k = Ctx.empty) ∧ (∀ i, t.op i = none) ∧
      (∀ i, t.launcher i = Lnch.off) ∧ (∀ i, t.sem i = Sem.free) ∧ (∀ k, t.key k = Key.empty) ∧
      t.well.granted = [] ∧ t.well.queue = [] ∧ t.well.tab = s.well.tab ∧ t.seqno = s.seqno ∧
      (∀ p : Fin 4, ∀ i : Fin 256, (t.slot p.val i.val).st = .free ∧ (t.slot p.val i.val).gen =
        if (s.slot p.val i.val).gen = 63 then 1 else (s.slot p.val i.val).gen + 1) ∧
      t.fld SYS_SOFTRESET.SR_CNT = (s.fld SYS_SOFTRESET.SR_CNT + 1) % 256 ∧
      (∀ off, ((0x3000 ≤ off ∧ off < 0x4000) ∨ (0x7000 ≤ off ∧ off < 0x9000) ∨ (0xA000 ≤ off ∧ off < 0xC000)) →
        t.reg off = regReset off) ∧
      ((∀ i, s.gpSelect i = false) →
        (∀ off, ((off < 0x1000 ∧ off ≠ SYS_SOFTRESET.off) ∨ (0x2000 ≤ off ∧ off < 0x3000) ∨
          (0x9100 ≤ off ∧ off < 0x9180)) → t.reg off = s.reg off) ∧
        (∀ a, a ≠ 0x2F6018 → t.byte a = s.byte a)) ∧ t.time = s.moment.time) ∧
    (∃ t, exec (.inj m v) s = .next t ∧ s.moment.onlyReg t MEM_BANK_CFG.off ∧
      (getBits v 31 29 ≤ 5 → getBits v 1 0 ≤ 2 → ∀ b : Bank, t.fullMark b =
        if getBits v 31 29 ≠ b.code ∨ getBits v 1 0 = 0 then .good else if getBits v 1 0 = 1 then .single else .bad)) ∧
    (∃ t, exec (.nextWrite m v) s = .next t ∧ s.moment.onlyReg { t with mac := s.mac } MAC_SF_CFG.off ∧
      ((next = 0 ∨ (2 ≤ next ∧ next < s.fld MAC_MISS_CFG.AREP + 2) ∨ begun) →
        t.fld MAC_SF_CFG.NEXT = s.fld MAC_SF_CFG.NEXT ∧ t.mac = s.mac) ∧
      (¬ begun → next = 1 → t.fld MAC_SF_CFG.NEXT = 1 ∧ t.mac = { s.mac with ann := none }) ∧
      (¬ begun → s.fld MAC_MISS_CFG.AREP + 2 ≤ next → t.fld MAC_SF_CFG.NEXT = next ∧
        t.mac = { s.mac with ann := some ⟨next, s.fld MAC_MISS_CFG.AREP, none⟩ })) ∧
    (∃ t, exec (.cascadeEnable m n v) s = .next t ∧ (∀ q, q ≠ n.val → (t.port q).casc = (s.port q).casc) ∧
      (s.casc n.val = [] → (t.port n.val).casc = (decide (2 ≤ n.val) && bit v 31)) ∧
      (s.casc n.val ≠ [] → (t.port n.val).casc = (s.port n.val).casc)) ∧
    (let w := getBits v 30 28
     let buf := getBits v 15 0
     let img := 0x200000 + 16 * buf
     (s.cascBusy = true → ∃ t, exec (.frameRun m v) s = .next t ∧ s.moment.onlyReg t CAS_CFG.off) ∧
     (s.casc2 = [] → s.casc3 = [] → s.workerOk w = true → 1 ≤ getBits v 25 16 → getBits v 25 16 ≤ 514 →
        s.clean img (0x300000 - img) → s.clean (pinAddr 8) 32 →
        ∃ t, exec (.frameRun m v) s = .next t ∧
        (let r := Casc.run w ((List.range (getBits v 25 16)).map (fun i => s.imageWord img (i + 1)))
           (s.num img 4 % 1024) buf (s.moment.masterTicket m)
         (t.casc2, t.casc3) = if w ≤ 3 then ([r], []) else ([], [r])) ∧
        (s.gpSelect (8 + w) = true → Tab.get (fun _ => false) t.pins.gpDrv (8 + w) = true ∧
          Tab.get (fun _ => false) t.pins.gpOut (8 + w) = false) ∧
        { t.pins with gpDrv := s.pins.gpDrv, gpOut := s.pins.gpOut } = s.pins ∧ (∀ x, t.mark x = s.mark x) ∧
        (∀ a, (a < pinAddr 8 ∨ pinAddr 8 + 32 ≤ a) → t.byte a = s.byte a) ∧
        s.moment.onlyReg { t with
          casc2 := [], casc3 := [], pins := s.pins, mem := s.mem, marks := s.marks, scrub := s.scrub } CAS_CFG.off))

/-- A read of CVN_NOW_LO gives the tick count and captures the whole stamp for its master alone. Reads of CHZ_ENERGY, the bank
arbiters' MAXWAIT, PWR_WAKE_LAST, HPn_STAT and HPn_LAST_SUBMIT give the word shown, and the last four clear their RC fields
(MAXWAIT; VALID and OVR; ADDR_OVER and RDERR; VALID and OVR). A host port keeps the word it drove; no other field, register or
other state changes. Completion is said for cvnNowLoRead, chzEnergyRead, maxwaitRead, wakeLastRead, hpnStatRead and
lastSubmitRead. -/
def Obligations.ReadsCaptureAndConsume : Prop :=
  ∀ (m : Master) (p n : Fin 4) (s : State),
    let u := s.moment
    let got (t : State) (m : Master) (w : Word) : Prop := ∀ q, m = .host q → (t.port q.val).reply = [w]
    let frame (t : State) (off : Nat) : Prop := { t with regs := u.regs, ports := u.ports, free := u.free } = u ∧
      ∀ o, o ≠ off → t.reg o = s.reg o
    (s.reaches m = true →
      (∃ t, exec (.cvnNowLoRead m) s = .next t ∧ got t m (BitVec.ofNat 32 u.tick) ∧ t.capOf m = u.cap ∧
        (∀ q, capIx q ≠ capIx m → t.capOf q = s.capOf q) ∧ (∀ o, t.reg o = s.reg o) ∧
        { t with regs := u.regs, ports := u.ports, caps := u.caps, free := u.free } = u) ∧
      (∃ t w, exec (.chzEnergyRead m) s = .next t ∧ got t m w ∧ getBits w 7 0 = u.emax % 256 ∧
        getBits w 31 8 = getBits (s.reg CHZ_ENERGY.off) 31 8 ∧ (∀ o, t.reg o = s.reg o) ∧ frame t CHZ_ENERGY.off) ∧
      (∃ t, exec (.maxwaitRead m) s = .next t ∧ got t m (s.reg MEM_ARB_STAT.off) ∧ t.fld MEM_ARB_STAT.MAXWAIT = 0 ∧
        getBits (t.reg MEM_ARB_STAT.off) 31 16 = getBits (s.reg MEM_ARB_STAT.off) 31 16 ∧ frame t MEM_ARB_STAT.off) ∧
      (∃ t, exec (.wakeLastRead m) s = .next t ∧ got t m (s.reg PWR_WAKE_LAST.off) ∧
        getBits (t.reg PWR_WAKE_LAST.off) 31 30 = 0 ∧
        getBits (t.reg PWR_WAKE_LAST.off) 29 0 = getBits (s.reg PWR_WAKE_LAST.off) 29 0 ∧ frame t PWR_WAKE_LAST.off)) ∧
    (s.reaches (.host p) = true →
      (∃ t, exec (.hpnStatRead p n) s = .next t ∧ (t.port p.val).reply = [u.view (.host p) (HPn_STAT.off n.val)] ∧
        getBits (t.reg (HPn_STAT.off n.val)) 31 30 = 0 ∧
        getBits (t.reg (HPn_STAT.off n.val)) 29 0 = getBits (s.reg (HPn_STAT.off n.val)) 29 0 ∧
        frame t (HPn_STAT.off n.val)) ∧
      (∃ t, exec (.lastSubmitRead p n) s = .next t ∧ (t.port p.val).reply = [s.reg (HPn_LAST_SUBMIT.off n.val)] ∧
        getBits (t.reg (HPn_LAST_SUBMIT.off n.val)) 31 30 = 0 ∧
        t.fld (HPn_LAST_SUBMIT.HANDLE n.val) = s.fld (HPn_LAST_SUBMIT.HANDLE n.val) ∧
        frame t (HPn_LAST_SUBMIT.off n.val)))

/-- A whole NOP does nothing. READ of a bank span drives its words; of an address where nothing lies, zero with ADDR_OVER. STATUS
drives HPn_STAT and HPn_LAST_SUBMIT, clears ADDR_OVER and RDERR and keeps the submit word. RESULT of a finished command drives its
status, length and data and frees the slot once all were clocked out; unfinished, free and unknown handles have their one word.
EVENTS drives the oldest records and moves TAIL past them. A frame that meets a row of Table 11-5 (shown: WAKE, RESET, too short,
reserved header bits, a broken word) has no effect but VOID, VOID_CNT, OP, EDGES and its CODE. Completion is said for frameNop,
frameRead, frameStatus, frameResult and frameEvents. -/
def Obligations.HostReadFrames : Prop :=
  ∀ (p : Fin 4) (f : HostFrame) (s : State), s.serves = true → (s.port p.val).casc = false → f.env = Env.clean →
    let u := s.moment
    let driven (t : State) (ws : List Word) : Prop := (t.port p.val).reply = ws
    let frame (t : State) (off : Nat) : Prop := { t with regs := u.regs, ports := u.ports, free := u.free } = u ∧
      (∀ o, o ≠ off → t.reg o = s.reg o) ∧ ∀ q, q ≠ p.val → t.port q = s.port q
    let whole (op : Nat) : Prop := f.word 0 = op * 2 ^ 28 + f.arg ∧ 16 + 8 * f.clocked = f.edges - f.waits ∧
      (s.port p.val).woke = false ∧ f.reset = false ∧ f.perr = []
    let read (a n : Nat) : List Word := (List.range n).map (fun i => BitVec.ofNat 32 (u.num (a + 4 * i) 4))
    (f.op = 0 → 8 ≤ f.edges → (s.port p.val).woke = false → f.reset = false → ∃ t, exec (.frameNop p f) s = .next t ∧
      (∀ q, t.port q = s.port q) ∧ { t with ports := u.ports } = u) ∧
    (whole 2 → spanOk (4 * f.arg) (4 * f.clocked) = true → u.clean (4 * f.arg) (4 * f.clocked) →
      ∃ t, exec (.frameRead p f) s = .next t ∧ driven t (read (4 * f.arg) f.clocked) ∧ { t with ports := u.ports } = u) ∧
    (whole 2 → f.clocked = 1 → regionEnd (4 * f.arg) = none → regOffset (4 * f.arg) = none →
      ∃ t, exec (.frameRead p f) s = .next t ∧ driven t [0#32] ∧ t.on (HPn_STAT.ADDR_OVER p.val) = true ∧
        frame t (HPn_STAT.off p.val)) ∧
    (whole 9 → f.arg = 0 → f.clocked = 2 → ∃ t, exec (.frameStatus p f) s = .next t ∧
      driven t [u.view (.host p) (HPn_STAT.off p.val), s.reg (HPn_LAST_SUBMIT.off p.val)] ∧
      t.on (HPn_STAT.ADDR_OVER p.val) = false ∧ t.on (HPn_STAT.RDERR p.val) = false ∧ frame t (HPn_STAT.off p.val)) ∧
    (whole 6 → f.arg < 2 ^ 16 →
      let x := s.slot p.val (f.arg % 256)
      let mine : Prop := f.arg / 2 ^ 14 = p.val ∧ natBits f.arg 13 8 ≠ 0 ∧ natBits f.arg 13 8 = x.gen
      let one (a b : Nat) : Word := BitVec.ofNat 32 (a * 2 ^ 24 + b * 2 ^ 16 + f.arg)
      (mine → x.st = .done → f.clocked = 2 + ceilDiv x.data.length 4 → ∃ t, exec (.frameResult p f) s = .next t ∧
        driven t ([one 0xA5 x.status, BitVec.ofNat 32 x.data.length] ++ (List.range (ceilDiv x.data.length 4)).map
          (fun i => BitVec.ofNat 32 (leNat ((x.data.drop (4 * i)).take 4)))) ∧
        t.slot p.val (f.arg % 256) = { Slot.fresh with gen := x.gen, freed := s.order + 1 } ∧ t.order = s.order + 1 ∧
        ∀ q i, q < 4 → i < 256 → (q, i) ≠ (p.val, f.arg % 256) → t.slot q i = s.slot q i) ∧
      (mine → x.st = .done → f.clocked = 1 → ∃ t, exec (.frameResult p f) s = .next t ∧ driven t [one 0xA5 x.status] ∧
        { t with ports := u.ports } = u) ∧
      (f.clocked = 1 → ∀ c, ((¬ mine ∧ c = 3) ∨ (mine ∧ (x.st = .queued ∨ ∃ k, x.st = .running k) ∧ c = 1) ∨
        (mine ∧ x.st = .free ∧ c = 2)) → ∃ t, exec (.frameResult p f) s = .next t ∧ driven t [one c c] ∧
        { t with ports := u.ports } = u)) ∧
    (whole 7 → f.arg = 0 →
      let base := s.fld (HPn_RING_BASE.BASE p.val)
      let size := s.fld (HPn_RING_SIZE.SIZE p.val)
      let tail := s.fld (HPn_RING_TAIL.TAIL p.val)
      ∀ k, f.clocked = 4 * k → k ≤ s.ringLen p.val → 0 < size → size % 16 = 0 → tail % 16 = 0 → tail < size →
        (∀ i, i < 4 * k → u.clean (base + (tail + 4 * i) % size) 4) → base % 8 = 0 →
        ∃ t, exec (.frameEvents p f) s = .next t ∧
          driven t ((List.range (4 * k)).map (fun i => BitVec.ofNat 32 (u.num (base + (tail + 4 * i) % size) 4))) ∧
          t.fld (HPn_RING_TAIL.TAIL p.val) = (tail + 16 * k) % size % 2 ^ 16 ∧ frame t (HPn_RING_TAIL.off p.val)) ∧
    (∀ i ∈ [(Instr.frameNop p f, 0), (.frameRead p f, 2), (.frameWrite p f, 3), (.frameSubmit p f, 5), (.frameResult p f, 6),
        (.frameEvents p f, 7), (.frameStatus p f, 9), (.frameAbort p f, 0xA), (.framePortReset p f, 0xF)], f.op = i.2 →
      0 < f.edges → ∀ c,
        (((s.port p.val).woke = true ∧ c = 0xA) ∨ ((s.port p.val).woke = false ∧ f.reset = true ∧ c = 0xB) ∨
        ((s.port p.val).woke = false ∧ f.reset = false ∧ ((f.edges < 8 ∧ c = 1) ∨
          (8 ≤ f.edges ∧ i.2 ≠ 0 ∧ natBits (f.word 0) 26 24 ≠ 0 ∧ c = 3) ∨
          (8 ≤ f.edges ∧ i.2 = 0xA ∧ natBits (f.word 0) 26 16 = 0 ∧ f.edges % 8 ≠ 0 ∧ c = 4)))) →
        ∃ t, exec i.1 s = .next t ∧ t.on (HPn_ERR.VOID p.val) = true ∧ t.fld (HPn_ERR.CODE p.val) = c ∧
          t.fld (HPn_ERR.OP p.val) = i.2 ∧ t.fld (HPn_ERR.EDGES p.val) = min f.edges 8191 ∧
          t.fld (HPn_ERR.VOID_CNT p.val) = satInc 255 (s.fld (HPn_ERR.VOID_CNT p.val)) ∧ (t.port p.val).woke = false ∧
          frame t (HPn_ERR.off p.val))

/-- A whole WRITE to a bank puts its words there and changes no other byte; to a register (shown where it sets nothing else going)
it leaves in each field what the access codes say. SUBMIT of a sketch that exists takes the free slot that has been free longest,
with its generation advanced, the descriptor's fields and the arguments, and gives its handle in HPn_LAST_SUBMIT; otherwise the
reject code stands there and REJECT is set. ABORT ends a queued or running command with ABORTED; any other handle it leaves alone.
PORT_RESET returns HPn_CFG, HPn_CASC_CFG and HPn_ERR to reset and clears ADDR_OVER and RDERR. A write frame keeps one of its
port's two write buffers. Completion is said for frameWrite, frameSubmit, frameAbort and framePortReset. -/
def Obligations.HostWriteFrames : Prop :=
  ∀ (p : Fin 4) (f : HostFrame) (s : State), s.serves = true → (s.port p.val).casc = false → f.env = Env.clean →
    let u := s.moment
    let n := f.edges / 8 - 1
    let whole (op : Nat) : Prop := f.word 0 = op * 2 ^ 28 + f.arg ∧ f.edges = 8 * (1 + n) ∧
      (f.busy = false ∨ (s.port p.val).bufs.length ≠ 2) ∧
      (s.port p.val).woke = false ∧ f.reset = false ∧ f.perr = [] ∧ s.on (HPn_CFG.CK_REQ p.val) = false
    let frame (t : State) : Prop := ∀ q, q ≠ p.val → t.port q = s.port q
    (whole 3 → 1 ≤ n → n ≤ 512 →
      let a := 4 * f.arg
      (((0x80000 ≤ a ∧ a + 4 * n ≤ 0xC0000) ∨ (0x100000 ≤ a ∧ a + 4 * n ≤ 0x200000) ∨
          (0x200000 ≤ a ∧ a + 4 * n ≤ 0x2F0000)) → u.clean a (4 * n) → ∃ t, exec (.frameWrite p f) s = .next t ∧
        (∀ x, t.byte x = if a ≤ x ∧ x < a + 4 * n then
          BitVec.ofNat 8 (f.word (1 + (x - a) / 4) / 2 ^ (8 * ((x - a) % 4))) else s.byte x) ∧ t.ctx = s.ctx ∧ frame t ∧
        ∃ e, (t.port p.val).bufs = e :: (s.port p.val).bufs.take 1 ∧ u.stamp ≤ e) ∧
      (∀ off ∈ [HPn_IRQ_EN.off p.val, HPn_IRQ_FLAG.off p.val, MEM_ECC_CFG.off, SEQ_SKETCH_BASE.off, WKR_CLASS_MASK.off],
        n = 1 → a = 0x3000000 + off → ∃ t, exec (.frameWrite p f) s = .next t ∧
          u.onlyReg { t with ports := u.ports } off ∧ ∀ d, findReg off = some d → ∀ x ∈ d.fields,
            getBits (t.reg off) x.hi x.lo = x.after (BitVec.ofNat 32 (f.word 1)) (s.reg off))) ∧
    (whole 5 → f.arg = 0 → f.word 1 % 256 ≤ 6 → n = 1 + f.word 1 % 256 →
      let d := f.word 1
      let good : Prop := u.namesSketch (natBits d 31 16) = true ∧ natBits d 10 8 = 0
      (good → ∀ i : Fin 256, (s.slot p.val i.val).st = .free →
        (∀ j : Fin 256, j ≠ i → (s.slot p.val j.val).st = .free →
          (s.slot p.val i.val).freed < (s.slot p.val j.val).freed ∨
            ((s.slot p.val i.val).freed = (s.slot p.val j.val).freed ∧ i < j)) →
        let g := if (s.slot p.val i.val).gen = 63 then 1 else (s.slot p.val i.val).gen + 1
        ∃ t, exec (.frameSubmit p f) s = .next t ∧
          t.slot p.val i.val = ⟨.queued, g, natBits d 31 16, natBits d 15 14, d.testBit 13, d.testBit 12, d.testBit 11,
            (List.range (d % 256)).map (fun j => BitVec.ofNat 32 (f.word (j + 2))), ⟨u.stamp, p.val, 0⟩, false, 0, [], 0⟩ ∧
          (∀ q : Fin 4, ∀ j : Fin 256, (q, j) ≠ (p, i) → t.slot q.val j.val = s.slot q.val j.val) ∧
          t.on (HPn_LAST_SUBMIT.VALID p.val) = true ∧
          t.fld (HPn_LAST_SUBMIT.HANDLE p.val) = p.val * 2 ^ 14 + g % 64 * 2 ^ 8 + i.val ∧ t.mem = s.mem ∧ frame t) ∧
      (∀ c, ((¬ good ∧ c = 0x60) ∨ (good ∧ (∀ i : Fin 256, (s.slot p.val i.val).st ≠ .free) ∧ c = 0x63)) →
        ∃ t, exec (.frameSubmit p f) s = .next t ∧ t.slots = s.slots ∧ t.on (HPn_LAST_SUBMIT.VALID p.val) = true ∧
          t.fld (HPn_LAST_SUBMIT.HANDLE p.val) = p.val * 2 ^ 14 + c ∧ t.on (HPn_IRQ_FLAG.REJECT p.val) = true ∧
          t.fld (HPn_IRQ_CNT.REJECT_CNT p.val) = satInc 255 (s.fld (HPn_IRQ_CNT.REJECT_CNT p.val)) ∧ t.mem = s.mem)) ∧
    (whole 0xA → f.arg < 2 ^ 16 → n = 0 →
      let i := f.arg % 256
      let x := s.slot p.val i
      let mine : Prop := f.arg / 2 ^ 14 = p.val ∧ natBits f.arg 13 8 ≠ 0 ∧ natBits f.arg 13 8 = x.gen
      (mine → x.st = .queued → ∃ t, exec (.frameAbort p f) s = .next t ∧ t.slot p.val i =
        { x with st := if x.nores then .free else .done, status := 0x61, data := [], freed := s.order + 1 } ∧
        (∀ k, t.cx k = s.cx k)) ∧
      (∀ k : Fin 64, mine → x.st = .running k → (s.cx k.val).port = some p → (s.cx k.val).slot = i →
        (s.cx k.val).posted = [] → ∃ t, exec (.frameAbort p f) s = .next t ∧
        t.cx k.val = { Ctx.empty with ring := (s.cx k.val).ring } ∧ t.slot p.val i =
        { x with st := if x.nores then .free else .done, status := 0x61, data := [], freed := s.order + 1 }) ∧
      (¬ mine ∨ x.st = .free ∨ x.st = .done → ∃ t, exec (.frameAbort p f) s = .next t ∧
        frame t ∧ { t with ports := u.ports } = u)) ∧
    (whole 0xF → f.arg = 0x5A0F0F → n = 0 → ∃ t, exec (.framePortReset p f) s = .next t ∧
      (∀ off ∈ [HPn_CFG.off p.val, HPn_CASC_CFG.off p.val, HPn_ERR.off p.val], t.reg off = regReset off) ∧
      t.on (HPn_STAT.ADDR_OVER p.val) = false ∧ t.on (HPn_STAT.RDERR p.val) = false ∧
      (∀ off, off ∉ [HPn_CFG.off p.val, HPn_CASC_CFG.off p.val, HPn_ERR.off p.val, HPn_STAT.off p.val] →
        t.reg off = s.reg off) ∧ { t with regs := u.regs, ports := u.ports } = u ∧ frame t)

/-- DISPATCH starts the one queued command on the lowest free context of the least used core of its mask: ready, g1 up holding the
arguments, t0 the ticket's stamp, p the sketch's entry, or a first instruction that traps with FETCH; HOLD = 1 or too few free
contexts for its priority start none. A command, a Well claim or an issue request past its age limit is promoted; a bank port's
wait raises MAXWAIT and PROMO. LOST_RECORD writes the LOST record once room for two has come. CLAIM_GRANT grants the first-ranked
waiting claim when it fits, keeps PEAK, resumes a BUDG, powers up the chain of a TUNE, sends a context that waits for an AES engine
from the Well to the engine; a claim that does not fit waits on. Completion is said for dispatch, commandPromoted,
requestPromoted, lostRecord and claimGrant. -/
def Obligations.DispatchPromotionAndGrants : Prop :=
  (∀ (p : Fin 4) (i : Fin 256) (k : Fin 64) (x : Slot) (s : State), s.serves = true → s.pwr.primed = true →
    s.queued = [(256 * p.val + i.val, x)] → s.slot p.val i.val = x → x.order = false → x.prio < 4 → x.sketch < 1024 →
    let mask := s.fld (maskFld x.prio)
    let freeCx (j : Nat) : Prop := j < 63 ∧ (s.cx j).st = .free
    let a := if x.sketch < s.fld SEQ_SKETCH_BASE.RETN then 0x40000 + 4 * x.sketch else 4 * x.sketch
    let e := s.num a 4
    (s.on SEQ_CTRL.HOLD = true ∨ (x.prio ≠ 0 ∧ s.freeCtx ≤ s.fld SEQ_DISPATCH_CFG.RESERVE) → exec .dispatch s = .next s) ∧
    (s.on SEQ_CTRL.HOLD = false → (x.prio = 0 ∨ s.fld SEQ_DISPATCH_CFG.RESERVE < s.freeCtx) → freeCx k.val →
      (∀ j, j < k.val → j / 16 = k.val / 16 → ¬ freeCx j) → mask.testBit (k.val / 16) = true →
      (∀ c, c < 4 → c ≠ k.val / 16 → mask.testBit c = true → (∃ j, freeCx j ∧ j / 16 = c) →
        s.usedOn (k.val / 16) < s.usedOn c ∨ (s.usedOn (k.val / 16) = s.usedOn c ∧ k.val / 16 < c)) → s.clean a 4 →
      ∃ t, exec .dispatch s = .next t ∧ t.slot p.val i.val = { x with st := .running k } ∧ (t.cx k.val).st = .ready ∧
        (∀ j, j < x.args.length → x.args.length < 16 → (t.cx k.val).rd (j + 1) = x.args.getD j 0#32) ∧
        (t.cx k.val).rdT 0 = BitVec.ofNat 64 (stampWord x.ticket.stamp) ∧
        (t.cx k.val).h = BitVec.ofNat 16 (p.val * 2 ^ 14 + x.gen % 64 * 2 ^ 8 + i.val) ∧ (t.cx k.val).port = some p ∧
        (t.cx k.val).slot = i.val ∧ (t.cx k.val).prio = x.prio ∧ (t.cx k.val).ticket = x.ticket ∧
        (e < 2 ^ 22 → fetchable e = true → (t.cx k.val).p.toNat = e ∧ (t.cx k.val).badEntry = 0) ∧
        (2 ^ 22 ≤ e ∨ fetchable (e % 2 ^ 22) = false → (t.cx k.val).badEntry = 3) ∧
        (∀ j, j ≠ k.val → t.cx j = s.cx j) ∧ t.mem = s.mem)) ∧
  (∀ (p : Fin 4) (i : Fin 256) (s : State), s.awake = true → (s.slot p.val i.val).st = .queued →
    (s.slot p.val i.val).promoted = false → s.fld SEQ_AGE_LIMIT.LIMIT ≠ 0 →
    s.reach ((s.slot p.val i.val).ticket.stamp + s.fld SEQ_AGE_LIMIT.LIMIT * 6000 + 1) = true →
    ∃ t, exec (.commandPromoted p i) s = .next t ∧ t.slot p.val i.val = { s.slot p.val i.val with promoted := true } ∧
      { t with slots := s.slots, time := s.time } = s) ∧
  (∀ (k : Fin 64) (s : State), s.awake = true → (s.cx k.val).st = .ready → s.fld SEQ_AGE_LIMIT.LIMIT ≠ 0 →
    let past := (s.cx k.val).since + s.fld SEQ_AGE_LIMIT.LIMIT * 6000 + 1
    (s.reach past = true →
      exec (.requestPromoted (.issue k)) s = .next ((s.moveTo past).setCx k.val { s.cx k.val with promoted := true })) ∧
    (s.reach past = false → exec (.requestPromoted (.issue k)) s = .next s)) ∧
  (∀ (i : Nat) (c : Claim) (s : State), s.awake = true → s.well.queue[i]? = some c → c.promoted = false →
    s.fld WELL_BUDGET.AGE_LIMIT ≠ 0 → s.reach (c.since + s.fld WELL_BUDGET.AGE_LIMIT * 6000 + 1) = true →
    ∃ t, exec (.requestPromoted (.well i)) s = .next t ∧
      t.well = { s.well with queue := s.well.queue.set i { c with promoted := true } } ∧
      { t with well := s.well, time := s.time } = s) ∧
  (∀ (b : Bank) (n : Nat) (s : State), s.awake = true → n ≤ 65535 → ∃ t, exec (.requestPromoted (.port b n)) s = .next t ∧
    t.fld MEM_ARB_STAT.MAXWAIT = max n (s.fld MEM_ARB_STAT.MAXWAIT) ∧
    (s.fld MEM_ARB_CFG.AGE_LIMIT ≠ 0 → s.fld MEM_ARB_CFG.AGE_LIMIT < n → t.on MEM_ARB_STAT.PROMO = true) ∧
    s.touch.onlyReg t MEM_ARB_STAT.off) ∧
  (∀ (p : Fin 4) (s : State), s.awake = true →
    let at_ := s.fld (HPn_RING_BASE.BASE p.val) + s.fld (HPn_RING_HEAD.HEAD p.val)
    ((s.port p.val).lost ≠ 0 → 32 ≤ s.ringRoom p.val → 0x200000 ≤ at_ → at_ + 16 ≤ 0x300000 →
      ∃ t, exec (.lostRecord p) s = .next t ∧ (t.port p.val).lost = 0 ∧ t.on (HPn_IRQ_FLAG.EVENT p.val) = true ∧
        t.bytes at_ 16 = leBytes 4 0xFF000000 ++ leBytes 4 (t.stamp / 6000) ++ leBytes 4 (s.port p.val).lost ++
          leBytes 4 (t.stamp % 6000) ∧ (∀ a, (a < at_ ∨ at_ + 16 ≤ a) → t.byte a = s.byte a)) ∧
    ((s.port p.val).lost = 0 ∨ s.ringRoom p.val < 32 → exec (.lostRecord p) s = .next s.touch)) ∧
  (∀ (c : Claim) (s : State), s.awake = true → c ∈ s.well.queue →
    (∀ y ∈ s.well.queue, y ≠ c → if c.promoted ≠ y.promoted then c.promoted = true
      else if c.promoted = false ∧ c.prio ≠ y.prio then c.prio < y.prio else c.ticket.stamp < y.ticket.stamp) →
    let fits : Prop := s.wellUsed + c.amt ≤ 2 * s.fld WELL_BUDGET.BUDGET
    let granted (t : State) : Prop :=
      t.well = { s.well with queue := s.well.queue.erase c, granted := s.well.granted ++ [c] } ∧
        t.fld WELL_USED.PEAK = max (s.fld WELL_USED.PEAK) (s.wellUsed + c.amt) % 2048
    (¬ fits → exec .claimGrant s = .next s) ∧
    (fits → ((∃ h, c.who = .chzr h) ∨ c.who = .erg ∨ ∃ g, c.who = .group g) →
      ∃ t, exec .claimGrant s = .next t ∧ granted t ∧ { t with regs := s.regs, well := s.well } = s.touch) ∧
    (∀ e, fits → c.who = .aes e → ∃ t, exec .claimGrant s = .next t ∧ granted t ∧
      { t with regs := s.regs, well := s.well, ctx := s.ctx } = s.touch ∧ ∀ j, t.cx j = s.cx j ∨
        ((s.cx j).st = .parked .well ∧ t.cx j = { s.cx j with st := .parked .engine })) ∧
    (∀ k d, fits → c.who = .budg k → (s.cx k.val).susp = .budg d → ∃ t, exec .claimGrant s = .next t ∧ granted t ∧
      t.cx k.val = { (s.cx k.val).wr d 0#32 with st := .ready, susp := .none, z := true, since := t.stamp } ∧
      ∀ j, j ≠ k.val → t.cx j = s.cx j) ∧
    (∀ id o, fits → c.who = .txBase → s.ops = [(id, some o)] → o.kind = .tune → o.chain = 2 → o.phase = .claim →
      s.synOn .syt = false → s.on TXP_STAT.ACTIVE = false → s.syt.queue = [] → 0 < wordOf2 o.freq →
      s.palEnabled .a = false → s.palEnabled .b = false → s.palRuns .a = false → s.palRuns .b = false →
      ∃ t, exec .claimGrant s = .next t ∧ c ∈ t.well.granted ∧ t.synOn .syt = true ∧ t.syt.phase = .settling ∧
        t.syt.word = wordOf2 o.freq))

/-- XO32_EDGE takes the counter to the end of its period and begins the next: 6000 fine units corrected by TRIM where the trim is
on (the rest carried), less a slew step of at most 64; one tick on the substitute clock. TEMP_SAMPLE at its tick takes TEMP with
OFFSET, counts SEQ, adds to the log's sums and, with SELF_EN, sets TRIM from the self model. SELF_MEASURE, 2^19 edges counted, learns
SRATE, SK, SUNC (not below SFLOOR, within 64 to 250). TEMP_LOG_ENTRY stores the sums and changes no other byte. The ticks of the
samples and entries (multiples of 2^21 and 2^22) and the mean temperature are the model's choices (log entries 167, 168), the guard
sum its reading (log entry 29). XO32_ABSENT sets and counts ABSENT, clears XO32_OK, writes a fault record, ends CMC's lock on XO32
with a record of its own, and wakes a sleeping device with source 5; XO32_PRESENT takes it back. Completion is said for xo32Edge,
tempSample, selfMeasure, tempLogEntry, xo32Absent and xo32Present. -/
def Obligations.CounterTemperatureAndSelfTrim : Prop :=
  (∀ s : State, s.pwr.st ≠ .inReset → s.pwr.st ≠ .off →
    let m := s.time
    let c := min m.hold (m.edge + m.adv - m.now)
    let raw : Int := 6000000000 + m.frac + if s.trimOn then 6 * signed 32 (s.fld CVN_RATE_TRIM.TRIM) else 0
    ∃ t, exec .xo32Edge s = .next t ∧ { t with time := m } = s ∧ t.time.now = m.edge + m.adv - c ∧
      t.time.edge = t.time.now ∧ t.time.hold = m.hold - c ∧ t.time.sampled = m.sampled ∧ t.time.logSum = m.logSum ∧
      t.time.selfEdges = (if s.on CVN_CFG.SELF_EN && s.qual && s.on CLK_STAT.REF_OK && !m.absent then m.selfEdges + 1
        else 0) ∧
      (m.absent = true → t.time.adv = 6000 ∧ t.time.frac = m.frac) ∧
      (m.absent = false → m.slewLeft = 0 → 0 ≤ raw →
        (1000000 * t.time.adv + t.time.frac : Int) = raw ∧ 0 ≤ t.time.frac ∧ t.time.frac < 1000000) ∧
      (m.absent = false → m.slewLeft ≠ 0 → 64000000 ≤ raw → ∃ d : Int, -64 ≤ d ∧ d ≤ 64 ∧
        (1000000 * (t.time.adv + d) + t.time.frac : Int) = raw ∧ t.time.slew = m.slew - d ∧
        t.time.slewLeft = m.slewLeft - 1 ∧ (m.slewLeft = 1 → m.slew.natAbs ≤ 64 → t.time.slew = 0))) ∧
  (∀ (raw : Int) (s : State), (s.on CVN_CFG.SELF_EN = true ∨ s.on CVN_CFG.TLOG_EN = true) → s.pwr.st ≠ .inReset →
    s.pwr.st ≠ .off → ∀ k, s.multipleNow 21 = some k → k ≠ s.time.sampled →
    ∃ t, exec (.tempSample raw) s = .next t ∧ 6000 * k ≤ t.stamp ∧ k % 2 ^ 21 = 0 ∧ t.time.sampled = k ∧
      t.temp = clampInt (-2048) 2047 (raw + signed 8 (s.fld RFA_TEMP.OFFSET)) ∧
      t.fld RFA_TEMP.SEQ = (s.fld RFA_TEMP.SEQ + 1) % 256 ∧
      t.time.logSum = twos 32 (s.time.logSum + roundDiv t.temp 8) ∧
      t.time.logSq = (s.time.logSq + (roundDiv t.temp 8).natAbs ^ 2) % 2 ^ 32 ∧
      (s.on CVN_CFG.SELF_EN = true → s.lineOwns = false → t.fld CVN_RATE_TRIM.TRIM =
        twos 32 (clampInt (-500000) 500000 (ratRound (-(s.selfErr ((t.temp : Rat) / 16)))))) ∧
      (s.on CVN_CFG.SELF_EN = false ∨ s.lineOwns = true → t.reg CVN_RATE_TRIM.off = s.reg CVN_RATE_TRIM.off) ∧
      { t with regs := s.regs, time := s.time } = s) ∧
  (∀ (count : Nat) (s : State), s.on CVN_CFG.SELF_EN = true → s.qual = true → s.on CLK_STAT.REF_OK = true →
    s.time.absent = false → count ≠ 0 → 2 ^ 19 ≤ s.time.selfEdges →
    let k : Rat := (signed 12 (s.fld CVN_CFG.SK) : Rat) / 16
    let m2 := (s.tempC - signed 8 (s.fld CVN_CFG.STURN)) ^ 2
    let un := uncOf (s.fld CVN_SELF_MODEL.SUNC)
    let l := learn (2 * (signed 16 (s.fld CVN_SELF_MODEL.SRATE) : Rat)) k m2
      (((2457600000 : Rat) / count - 1) * 1000000000)
      (2 * un + ratAbs k * s.fld CVN_CFG.M2_SPAN + 8 * (524288 / 2831155200)) un (1 / 16) true
    ∃ t, exec (.selfMeasure count) s = .next t ∧
      signed 16 (t.fld CVN_SELF_MODEL.SRATE) = clampInt (-32767) 32767 (ratRound (l.rate / 2)) ∧
      t.fld CVN_CFG.SK = twos 12 (ratRound (16 * l.curve)) ∧
      t.fld CVN_SELF_MODEL.SFLOOR = s.fld CVN_SELF_MODEL.SFLOOR ∧
      t.fld CVN_SELF_MODEL.SUNC = max (codeOf l.unc) (min 250 (max 64 (s.fld CVN_SELF_MODEL.SFLOOR))) ∧
      64 ≤ t.fld CVN_SELF_MODEL.SUNC ∧ t.fld CVN_SELF_MODEL.SUNC ≤ 250 ∧
      (s.fld CVN_SELF_MODEL.SFLOOR ≤ 250 → s.fld CVN_SELF_MODEL.SFLOOR ≤ t.fld CVN_SELF_MODEL.SUNC) ∧
      (s.lineOwns = false → t.fld CVN_RATE_TRIM.TRIM =
        twos 32 (clampInt (-500000) 500000 (ratRound (-(t.selfErr t.tempC))))) ∧
      { t with regs := s.regs } =
        ({ s with time := { s.time with selfEdges := s.time.selfEdges - 2 ^ 19 } } : State).touch) ∧
  (∀ s : State, s.on CVN_CFG.TLOG_EN = true → s.pwr.st ≠ .inReset → s.pwr.st ≠ .off →
    ∀ k, s.multipleNow 22 = some k →
    let a := 0x4E000 + 8 * (k / 2 ^ 22 % 1024)
    ∃ t, exec .tempLogEntry s = .next t ∧ 6000 * k ≤ t.stamp ∧
      t.num a 4 = s.time.logSum % 2 ^ 32 ∧ t.num (a + 4) 4 = s.time.logSq % 2 ^ 32 ∧
      (∀ x, (x < a ∨ a + 8 ≤ x) → t.byte x = s.byte x) ∧ (∀ o, o ≠ MEM_BANK_CFG.off → t.reg o = s.reg o) ∧
      { t with regs := s.regs, mem := s.mem, marks := s.marks, scrub := s.scrub, time := s.time } = s) ∧
  (∀ s : State, s.pwr.st ≠ .inReset → s.pwr.st ≠ .off → s.time.absent = false → ∃ t, exec .xo32Absent s = .next t ∧
    t.time.absent = true ∧ t.on CLK_XO32_CFG.ABSENT = true ∧ t.on CLK_STAT.XO32_OK = false ∧
    t.fld CLK_XO32_CFG.ABSENT_CNT = satInc 255 (s.fld CLK_XO32_CFG.ABSENT_CNT) ∧
    (s.faultAny = false → s.fld SYS_FAULT.EV = 0 →
      let lost : Prop := s.cmc.st = 5 ∧ (s.on CLK_STAT.CMC_SUBST = true → s.cmr.st ≠ 5)
      t.on SYS_FAULT.FAULT = true ∧ t.num (faultAddr (s.fld SYS_FAULT_LOG.HEAD) + 8) 1 = 1 ∧
      (¬ lost → t.fld SYS_FAULT.LAST_KIND = 1 ∧ t.fld SYS_FAULT_LOG.HEAD = (s.fld SYS_FAULT_LOG.HEAD + 1) % 64) ∧
      (lost → t.fld SYS_FAULT.LAST_KIND = 3 ∧ t.fld SYS_FAULT_LOG.HEAD = (s.fld SYS_FAULT_LOG.HEAD + 2) % 64 ∧
        t.cmc.st = 1)) ∧
    ((s.pwr.st = .sleep ∨ s.pwr.st = .deep) → t.pwr.st = .waking ∧ t.pwr.wakeAt = s.stamp ∧
      t.fld PWR_WAKE_LAST.FIRST = 5 ∧ t.fld PWR_WAKE_LAST.SOURCES = 16 ∧ t.on PWR_WAKE_LAST.VALID = true ∧
      t.fld PWR_WAKE_LAST.FROM = (if s.pwr.st = .deep then 3 else 2) ∧
      t.fld PWR_WAKE_TIME_LO.TICKS_LO = s.tick % 2 ^ 32) ∧
    (s.pwr.st = .run ∨ s.pwr.st = .idle → t.pwr = s.pwr)) ∧
  (∀ s : State, s.pwr.st ≠ .inReset → s.pwr.st ≠ .off → s.on CLK_STAT.XO32_OK = false →
    ∃ t, exec .xo32Present s = .next t ∧ t.on CLK_STAT.XO32_OK = true ∧
      t.time = { s.touch.time with absent := false } ∧
      s.touch.onlyReg { t with time := s.touch.time } CLK_STAT.off)

/-- An armed launcher at its stamp, in Run: NONE does nothing more, CONTEXT makes a context parked in TWAIT or TAT ready, DMA starts
its channel, PIN_HIGH, PIN_LOW, PIN_TOGGLE and PIN_PULSE drive an output pin, EVENT posts code 2 with the launcher's number, WAKE
leaves Idle, WAKE_SKETCH queues its sketch on port 0. It sets FIRED, counts FIRE_CNT and disarms, or goes on a period later. A
CONTEXT whose context is not parked is lost with MISSED. A late one acts under ACT_LATE with MISSED; DISCARD disarms, SKIP goes on,
neither counts. Stamps passed are one late occurrence, of the latest. A launcher waits for lower ones of its cycle. A master's write
of a pin word stands over an action of its cycle. A transmission on the air and an RXWIN count and disarm theirs. In Sleep NONE is
the occurrence, WAKE and WAKE_SKETCH wake as source 3 with LNCH, another action waits to be ready in Run. LATE_OCCURRENCE_READY
carries it out then. Completion is said for launcherOccurrence and lateOccurrenceReady. -/
def Obligations.LauncherOccurrences : Prop :=
  ∀ (n : Fin 32) (s : State) (x : Lnch), s.launcher n.val = x → x.armed = true →
    let counted (t : State) : Prop := t.on (CVN_Ln_ACT.FIRED n.val) = true ∧
      t.fld (CVN_Ln_ACT.FIRE_CNT n.val) = satInc 255 (s.fld (CVN_Ln_ACT.FIRE_CNT n.val))
    let goesOn (t : State) (st : Nat) : Prop :=
      (x.rep = 0 → t.launcher n.val = Lnch.off ∧ t.on (CVN_Ln_ACT.ARMED n.val) = false) ∧
      (x.rep ≠ 0 → t.launcher n.val = { x with stamp := st + 2 ^ (x.rep + 7) * 6000, late := false, wait := none })
    let pin := x.arg % 16
    let k := x.arg % 64
    let chn := x.arg % 16
    let src := s.fld (DMAn_SRC.SRC chn)
    let dst := s.fld (DMAn_DST.DST chn)
    let len := s.fld (DMAn_LEN.LEN chn)
    let fill := s.on (DMAn_CFG.FILL chn)
    let w := s.num (pinAddr pin) 1
    let level : Bool := if x.action = 5 then false else if x.action = 6 then !w.testBit 1 else true
    let ring := s.fld (HPn_RING_BASE.BASE (x.arg % 4)) + s.fld (HPn_RING_HEAD.HEAD (x.arg % 4))
    let acts (u t : State) (st : Nat) : Prop :=
      (x.action = 0 → { t with regs := s.regs, lnch := s.lnch } = u) ∧
      (x.action = 2 → s.ctxWaits k = true → (t.cx k).st = .ready ∧ (t.cx k).susp = .none ∧
        { t with regs := s.regs, lnch := s.lnch, ctx := s.ctx } = u) ∧
      (x.action = 3 → (fill = true ∨ spanOk src len = true) → spanWritable dst len = true →
        t.dmaCh chn = ⟨true, src, dst, len, fill, none⟩ ∧
        { t with regs := s.regs, lnch := s.lnch, dma := s.dma } = u) ∧
      (4 ≤ x.action → x.action ≤ 7 → w.testBit 0 = true → w.testBit 4 = false → natBits w 6 5 ≠ 3 →
        s.gpSelect pin = false → s.clean (pinAddr pin) 4 → u.pinWritten pin = false →
        t.ball pin = level ∧ (t.num (pinAddr pin) 1).testBit 1 = level ∧
        (x.action = 7 →
          Tab.get (fun _ => 0) t.pins.pulses pin = st + (x.arg / 16 % 16 + 1) * 6000 + 1) ∧
        (∀ a, (a < pinAddr pin ∨ pinAddr pin + 4 ≤ a) → t.byte a = s.byte a)) ∧
      (4 ≤ x.action → x.action ≤ 7 → w.testBit 0 = false → { t with regs := s.regs, lnch := s.lnch } = u) ∧
      (x.action = 8 → (s.port (x.arg % 4)).lost = 0 → 16 ≤ s.ringRoom (x.arg % 4) → u.ringAfter (x.arg % 4) 2 = 0 →
        0x200000 ≤ ring → ring + 16 ≤ 0x300000 → t.bytes ring 16 = eventBytes 2 0 0 n.val 0 st ∧
        t.on (HPn_IRQ_FLAG.EVENT (x.arg % 4)) = true ∧
        (∀ a, (a < ring ∨ ring + 16 ≤ a) → t.byte a = s.byte a)) ∧
      (x.action = 9 → t.pwr.st = .run ∧ { t with regs := s.regs, lnch := s.lnch, pwr := s.pwr } = u) ∧
      (∀ i, x.action = 10 → s.namesSketch x.arg = true → s.freeSlot 0 = some i → t.pwr.st = .run ∧
        (t.slot 0 i).st = .queued ∧ (t.slot 0 i).sketch = x.arg ∧ (t.slot 0 i).prio = 0 ∧ (t.slot 0 i).args = [] ∧
        (t.slot 0 i).ticket = ⟨st, 4, 0⟩)
    let go : Prop := x.action ≠ 1 ∧ x.action ≤ 10 ∧ (x.action = 2 → s.ctxWaits k = true) ∧
      (x.action = 3 → (s.dmaCh chn).busy = false)
    let now := { s with time := { s.time with now := x.stamp } }
    (s.awake = true → s.pwr.st = .run → s.lnBehind n.val = true → exec (.launcherOccurrence n) s = .next s) ∧
    (s.awake = true → s.pwr.st = .run → x.wait = none → x.action = 0 → x.pol = 0 → x.stamp ≤ s.time.now →
      ∃ t, exec (.launcherOccurrence n) s = .next t ∧ counted t ∧ goesOn t (x.latest x.stamp s.time.now) ∧
        { t with regs := s.regs, lnch := s.lnch } = s) ∧
    (s.awake = true → (s.pwr.st = .run ∨ s.pwr.st = .idle ∧ (x.action = 9 ∨ x.action = 10)) → x.wait = none →
      s.lnBehind n.val = false → s.time.now ≤ x.stamp → s.reach x.stamp = true →
      (go → x.late = false ∨ x.pol = 0 → ∃ t, exec (.launcherOccurrence n) s = .next t ∧ counted t ∧
        goesOn t x.stamp ∧ acts now t x.stamp ∧
        t.on (CVN_Ln_ACT.MISSED n.val) = (x.late || s.on (CVN_Ln_ACT.MISSED n.val))) ∧
      (go → x.late = true → x.pol = 1 ∨ x.pol = 2 → ∃ t, exec (.launcherOccurrence n) s = .next t ∧
        t.on (CVN_Ln_ACT.MISSED n.val) = true ∧
        t.fld (CVN_Ln_ACT.FIRE_CNT n.val) = s.fld (CVN_Ln_ACT.FIRE_CNT n.val) ∧
        (x.pol = 1 → t.launcher n.val = Lnch.off) ∧ (x.pol = 2 → goesOn t x.stamp) ∧
        { t with regs := s.regs, lnch := s.lnch } = now) ∧
      (x.action = 2 → s.ctxWaits k = false → ∃ t, exec (.launcherOccurrence n) s = .next t ∧
        t.on (CVN_Ln_ACT.MISSED n.val) = true ∧
        t.fld (CVN_Ln_ACT.FIRE_CNT n.val) = s.fld (CVN_Ln_ACT.FIRE_CNT n.val) ∧ goesOn t x.stamp ∧
        { t with regs := s.regs, lnch := s.lnch } = now) ∧
      (∀ id o, x.action = 1 → x.op = some id → s.op id = some o → x.rep = 0 →
        ((o.kind = .txf ∨ o.kind = .lbt) → o.phase = .onAir → s.reach o.t = true →
          ∃ t, exec (.launcherOccurrence n) s = .next t ∧ counted t ∧ t.launcher n.val = Lnch.off ∧
            t.fld (CVN_Ln_ACT.ACTION n.val) = 0 ∧ { t with regs := s.regs, lnch := s.lnch, time := s.time } = s) ∧
        (o.kind = .rxwin → x.late = false → o.phase = .window → ∃ t, exec (.launcherOccurrence n) s = .next t ∧ counted t ∧
          t.launcher n.val = Lnch.off ∧ t.op id = some { o with lnch := none, late := false } ∧
          { t with regs := s.regs, lnch := s.lnch, ops := s.ops } = now))) ∧
    ((s.pwr.st = .sleep ∨ s.pwr.st = .deep) → x.wait = none → x.rep = 0 → s.lnBehind n.val = false →
      x.stamp / 6000 ≤ s.tick →
      (x.action = 0 → ∃ t, exec (.launcherOccurrence n) s = .next t ∧ counted t ∧ t.launcher n.val = Lnch.off ∧
        { t with regs := s.regs, lnch := s.lnch } = s) ∧
      (x.action = 9 ∨ x.action = 10 → ∃ t, exec (.launcherOccurrence n) s = .next t ∧ counted t ∧
        t.launcher n.val = Lnch.off ∧ t.pwr.st = .waking ∧ t.fld PWR_WAKE_LAST.FIRST = 3 ∧
        t.fld PWR_WAKE_LAST.LNCH = n.val ∧ t.pwr.boot = s.pwr.boot ++ (if x.action = 10 then [(x.arg, [])] else [])) ∧
      ((2 ≤ x.action ∧ x.action ≤ 8 ∧ x.pol = 0) ∨ x.action = 1 → ∃ t, exec (.launcherOccurrence n) s = .next t ∧
        t.launcher n.val = { x with wait := some x.stamp } ∧ t.on (CVN_Ln_ACT.MISSED n.val) = true ∧
        t.pwr.st = .waking ∧ t.fld PWR_WAKE_LAST.FIRST = 3)) ∧
    (s.awake = true → s.pwr.st = .run → x.wait = some x.stamp → x.rep = 0 → x.pol = 0 → go →
      ∃ t, exec (.lateOccurrenceReady n) s = .next t ∧ counted t ∧ t.launcher n.val = Lnch.off ∧
        t.on (CVN_Ln_ACT.MISSED n.val) = true ∧ acts s.touch t x.stamp)

/-- A master's write of a pin word drives an output with LEVEL, or leaves an input to the level from outside; DRIVE = 3 is ignored
and drives nothing. In Run and Idle IN then shows the ball. No byte outside the word changes. GP_INPUT_CHANGE takes the new level of
one ball, shown in IN; IN_REFRESH, at the multiples of 32 ticks (the model's choice, log entry 103), rewrites IN of all sixteen
words and nothing else. PIN_PULSE_END at its stamp ends the pulse and takes an output low, unless a master wrote its word in that
cycle. Completion is said for pinWordWrite, gpInputChange, inRefresh and pinPulseEnd. -/
def Obligations.PinWordsAndBalls : Prop :=
  (∀ (m : Master) (n : Fin 16) (v : Word) (s : State), s.awake = true → s.pwr.st = .run ∨ s.pwr.st = .idle →
    let a := pinAddr n.val
    let x := v.toNat
    s.clean a 4 → ∃ t, exec (.pinWordWrite m n v) s = .next t ∧ t.num a 2 = x % 2 ^ 16 ∧
      t.num (a + 3) 1 = x / 2 ^ 24 ∧ (∀ b, (b < a ∨ a + 4 ≤ b) → t.byte b = s.byte b) ∧ t.regs = s.regs ∧
      t.pinWritten n.val = true ∧
      (natBits x 6 5 = 3 → s.gpSelect n.val = false → { t.pins with wrote := s.pins.wrote } = s.pins) ∧
      (natBits x 6 5 ≠ 3 → s.gpSelect n.val = false → (t.num a 4).testBit 16 = t.ball n.val ∧
        (x.testBit 0 = true → x.testBit 4 = false → t.ball n.val = x.testBit 1) ∧
        (x.testBit 0 = true → x.testBit 4 = true → x.testBit 1 = true →
          t.ball n.val = Tab.get (fun _ => false) s.pins.gpIn n.val) ∧
        (x.testBit 0 = false → t.ball n.val = Tab.get (fun _ => false) s.pins.gpIn n.val) ∧
        ∀ j, j ≠ n.val → t.ball j = s.ball j)) ∧
  (∀ (n : Fin 16) (level : Bool) (s : State), s.clean (pinAddr n.val) 4 →
    ∃ t, exec (.gpInputChange n level) s = .next t ∧ Tab.get (fun _ => false) t.pins.gpIn n.val = level ∧
      (∀ j, j ≠ n.val → Tab.get (fun _ => false) t.pins.gpIn j = Tab.get (fun _ => false) s.pins.gpIn j) ∧
      (∀ j, j ≠ n.val → t.ball j = s.ball j) ∧
      (s.awake = true → s.pwr.st = .run ∨ s.pwr.st = .idle → (t.num (pinAddr n.val) 4).testBit 16 = t.ball n.val) ∧
      (∀ b, b ≠ pinAddr n.val + 2 → t.byte b = s.byte b) ∧
      { t with mem := s.mem, marks := s.marks, scrub := s.scrub, pins := s.pins } = s.touch) ∧
  (∀ s : State, s.awake = true → s.pwr.st = .run ∨ s.pwr.st = .idle → s.clean (pinAddr 0) 64 →
    ∀ k, s.multipleNow 5 = some k → ∃ t, exec .inRefresh s = .next t ∧ (∀ n, n < 16 → t.num (pinAddr n + 2) 1 = b2n (s.ball n)) ∧
      (∀ b, (∀ n, n < 16 → b ≠ pinAddr n + 2) → t.byte b = s.byte b) ∧
      { t with mem := s.mem, marks := s.marks, scrub := s.scrub } = s.moveTo (6000 * k)) ∧
  (∀ (n : Fin 16) (s : State), s.awake = true → s.pwr.st = .run ∨ s.pwr.st = .idle →
    let e := Tab.get (fun _ => 0) s.pins.pulses n.val
    let w := s.num (pinAddr n.val) 1
    e ≠ 0 → s.reach (e - 1) = true → ∃ t, exec (.pinPulseEnd n) s = .next t ∧ e - 1 ≤ t.stamp ∧
      Tab.get (fun _ => 0) t.pins.pulses n.val = 0 ∧
      (w.testBit 0 = true → s.clean (pinAddr n.val) 4 → natBits w 6 5 ≠ 3 → s.gpSelect n.val = false →
        (s.moveTo (e - 1)).pinWritten n.val = false → t.ball n.val = false ∧ (t.num (pinAddr n.val) 1).testBit 1 = false) ∧
      ((s.moveTo (e - 1)).pinWritten n.val = true → t.mem = s.mem) ∧
      (w.testBit 0 = false → { t with pins := s.pins, time := s.time } = s) ∧
      (s.clean (pinAddr n.val) 4 → t.regs = s.regs ∧
        ∀ b, (b < pinAddr n.val ∨ pinAddr n.val + 4 ≤ b) → t.byte b = s.byte b))

/-- TUNE_START begins the waiting tune of a free synthesiser: the word and window taken, the dither reloaded, LOCK off, GAP on a
running Palette, in diversity SYB with SYA; a waiting power-off turns the synthesiser off and gives its claim back. SYNTH_LOCK sets
LOCK, keeps the calibration's word, temperature and band, and ends the TUNE with OK and its case. The first LOCK_TIMEOUT begins one
calibration more; the second sets CAL_FAIL, ends the TUNE with LOCK_TIMEOUT and turns the synthesiser off. SYNTH_UNLOCK sets and
counts UNLK and calibrates at once. SYT_VCO_START and CALIBRATION_END carry RFA_CAL_CTRL out; TEMP_CONVERSION_END gives TEMP. A
timeout comes 400 µs after the tune or its calibration began. Completion is said for tuneStart, synthLock, lockTimeout,
synthUnlock, sytVcoStart, calibrationEnd and tempConversionEnd. -/
def Obligations.SynthesisersTuneLockAndCalibrate : Prop :=
  (∀ (y : Syn) (band : Nat) (s : State) (x : Synth), s.awake = true → s.syn y = x → s.lanes = [] →
    let u := s.touch
    let others (t : State) : Prop := ∀ z, z ≠ y → t.syn z = s.syn z
    let only (t : State) : Prop :=
      { t with regs := s.regs, sya := s.sya, syb := s.syb, syt := s.syt, tempConv := s.tempConv } = u
    (∀ q, x.queue = [q] → q.word ≠ 0 → q.word < 2 ^ 28 → x.phase ≠ .settling →
      (y = .syt → s.on TXP_STAT.ACTIVE = false) →
      (y = .sya → s.diversity = true → s.syb.phase ≠ .settling) → ∃ t, exec (.tuneStart y) s = .next t ∧
        t.syn y = { x with phase := .settling, cur := some q, kase := s.tuneCase y q.word, second := false, queue := [],
                           word := q.word, lfsr := x.seed, since := u.stamp,
                           wide := x.wide || (y == .sya && s.diversity) } ∧
        t.fld (RFA_SYn_FREQ.WORD (synIx y)) = q.word ∧ t.on (synLockFld y) = false ∧
        (∀ c f, synChain y = some c → q.freq = some f → f < 2 ^ 17 → t.fld (CHZ_WINn.CENTRE (chainIx c)) = f) ∧
        (∀ c, synChain y = some c → s.palRuns c = true → t.on CHZ_ERG_STAT.GAP = true) ∧
        (s.tuneCase y q.word ≠ 0 → t.tempConv = true) ∧
        (y = .sya → s.diversity = true → t.syb.phase = .settling ∧ t.syb.word = q.word ∧ t.syt = s.syt) ∧
        (y ≠ .sya ∨ s.diversity = false → others t) ∧ only t) ∧
    (∀ f tk, x.queue = [⟨0, none, f, none, tk⟩] → x.cur = none → s.diversity = false →
      (y = .syt → s.on TXP_STAT.ACTIVE = false) → ∃ t, exec (.tuneStart y) s = .next t ∧ t.synOn y = false ∧
        (t.syn y).phase = .off ∧ (t.syn y).queue = [] ∧ t.on (synLockFld y) = false ∧ t.holds (synHolder y) = false ∧
        others t) ∧
    (x.phase = .settling → s.on CLK_STAT.REF_OK = true →
      let locked (t : State) : Prop := (t.syn y).phase = .locked ∧ (t.syn y).word = x.word ∧
        (t.syn y).calWord = (if x.kase = 0 then x.calWord else some x.word) ∧
        (t.syn y).calTemp = (if x.kase = 0 then x.calTemp else s.temp) ∧ (t.syn y).queue = x.queue ∧
        (t.syn y).lockAt = u.stamp ∧ t.on (synLockFld y) = true ∧
        (x.kase ≠ 0 → t.fld (synBandFld y) = band % 64)
      (s.on (synVcoFld y) = false → (y = .syt ∨ s.diversity = false) →
        (s.ops = [] → ∃ t, exec (.synthLock y band) s = .next t ∧ locked t ∧ (t.syn y).cur = none ∧ others t ∧ only t) ∧
        (∀ q id o k, x.cur = some q → q.op = some id → s.ops = [(id, some o)] → o.kind = .tune → o.phase = .lock →
          o.lnch = none → o.ctx = some k → o.d ≠ 0 → (s.cx k.val).susp = .radio id →
          ∃ t, exec (.synthLock y band) s = .next t ∧ locked t ∧ others t ∧ t.ops = [] ∧
            t.cx k.val = { (s.cx k.val).wr o.d (BitVec.ofNat 32 (s.radioWord 0 (o.late && o.acted) x.kase)) with
                           st := .ready, susp := .none, z := true, since := t.stamp } ∧
            ∀ j, j ≠ k.val → t.cx j = s.cx j)) ∧
      (s.on (synVcoFld y) = true → s.ops = [] → (y = .syt ∨ s.diversity = false) →
        ∃ t, exec (.calibrationEnd (match y with | .sya => .syaVco | .syb => .sybVco | .syt => .sytVco) band) s = .next t ∧
          locked t ∧ t.on (synVcoFld y) = false ∧ others t ∧ only t) ∧
      (s.reach (x.since + usFine 400) = false → exec (.lockTimeout y) s = .next s) ∧
      (x.second = false → s.reach (x.since + usFine 400) = true → ∃ t, exec (.lockTimeout y) s = .next t ∧
        t.syn y = { x with second := true, kase := max 1 x.kase, since := t.stamp } ∧ t.tempConv = true ∧
        t.regs = s.regs ∧ others t ∧
        { t with sya := s.sya, syb := s.syb, syt := s.syt, tempConv := s.tempConv } =
          s.moveTo (x.since + usFine 400)) ∧
      (∀ q id o k, x.second = true → s.reach (x.since + usFine 400) = true → s.diversity = false → x.cur = some q → q.op = some id → x.queue = [] →
        s.ops = [(id, some o)] → o.kind = .tune → o.phase = .lock → o.lnch = none → o.ctx = some k → o.d ≠ 0 →
        (s.cx k.val).susp = .radio id → s.faultAny = false → s.fld SYS_FAULT.EV = 0 →
        ∃ t, exec (.lockTimeout y) s = .next t ∧ t.on RFA_CAL_STAT.CAL_FAIL = true ∧
          t.fld RFA_CAL_STAT.CAL_FAIL_CNT = satInc 255 (s.fld RFA_CAL_STAT.CAL_FAIL_CNT) ∧
          t.fld SYS_FAULT.LAST_KIND = 9 ∧ t.synOn y = false ∧ (t.syn y).phase = .off ∧ others t ∧
          (t.cx k.val).st = .ready ∧ ((t.cx k.val).rd o.d).toNat % 256 = 0x11)) ∧
    (x.phase = .locked → s.ops = [] → ∃ t, exec (.synthUnlock y) s = .next t ∧ t.on (synUnlkFld y).1 = true ∧
      t.fld (synUnlkFld y).2 = satInc 255 (s.fld (synUnlkFld y).2) ∧ (t.syn y).phase = .settling ∧
      (t.syn y).word = x.word ∧ (t.syn y).kase = 1 ∧ (t.syn y).second = false ∧ t.on (synLockFld y) = false ∧
      t.tempConv = true ∧ others t ∧
      (∀ c, synChain y = some c → s.palRuns c = true → t.on CHZ_ERG_STAT.GAP = true)) ∧
    (y = .syt → x.calWait = true → s.on TXP_STAT.ACTIVE = false → ∃ t, exec .sytVcoStart s = .next t ∧
      t.syt.calWait = false ∧ t.syt.phase = .settling ∧ 1 ≤ t.syt.kase ∧ t.syt.word = x.word ∧
      t.on (synVcoFld y) = s.on (synVcoFld y) ∧ t.tempConv = true ∧ others t ∧ only t)) ∧
  (∀ (band : Nat) (s : State), s.awake = true →
    (s.on RFA_CAL_CTRL.RXA_IQ = true → ∃ t, exec (.calibrationEnd .rxaIq band) s = .next t ∧
      t.on RFA_CAL_CTRL.RXA_IQ = false ∧ t.on RFA_CAL_CTRL.RXB_IQ = s.on RFA_CAL_CTRL.RXB_IQ ∧
      s.touch.onlyReg t RFA_CAL_CTRL.off) ∧
    (s.on RFA_CAL_CTRL.RXB_IQ = true → ∃ t, exec (.calibrationEnd .rxbIq band) s = .next t ∧
      t.on RFA_CAL_CTRL.RXB_IQ = false ∧ t.on RFA_CAL_CTRL.RXA_IQ = s.on RFA_CAL_CTRL.RXA_IQ ∧
      s.touch.onlyReg t RFA_CAL_CTRL.off)) ∧
  (∀ (raw : Int) (s : State), s.tempConv = true → ∃ t, exec (.tempConversionEnd raw) s = .next t ∧ t.tempConv = false ∧
    t.temp = clampInt (-2048) 2047 (raw + signed 8 (s.fld RFA_TEMP.OFFSET)) ∧ t.on RFA_TEMP.START = false ∧
    t.fld RFA_TEMP.SEQ = (s.fld RFA_TEMP.SEQ + 1) % 256 ∧ t.fld RFA_TEMP.OFFSET = s.fld RFA_TEMP.OFFSET ∧
    s.touch.onlyReg { t with tempConv := true } RFA_TEMP.off)

/-- PALETTE_START sets RUN, marks the first sample as a gap, places the Erg claim of a writing Palette and ends a waiting RXWIN with
OK. SAMPLE_POSITION counts the position in WPOS, each new run of clipped samples in CLIP_CNT, completes (while the Erg claim is
held) a bank word with the companded sample or gap marker of its bin, and a block of 16 with its gap and self marks; a candidate
that passes the detector becomes an entry and takes the lowest free lane. SYNC_SEARCH_TIMEOUT removes an entry without sync and
counts it; ENTRY_PROMOTED marks one; ENTRY_STARVED removes one and counts it, with a LANE_STARVED record where asked. PALETTE_STOP
clears RUN, keeps the blocks and gives the claims back. Completion is said for paletteStart, samplePosition, syncSearchTimeout,
entryPromoted, entryStarved and paletteStop. -/
def Obligations.PaletteSamplesAndPendingList : Prop :=
  (∀ (c : Chain) (s : State), s.awake = true → s.palEnabled c = true → s.chainOn c = true → s.holds (.chzr c) = true →
    s.palRuns c = false →
    let u := s.touch
    let d := otherChain c
    let starts (t : State) : Prop := t.palRuns c = true ∧ (t.pal c).start = u.stamp ∧ (t.pal c).gapAt = u.stamp ∧
      (t.pal c).marker = true ∧ (t.pal c).blocks = (s.pal c).blocks ∧ (t.pal c).written = (s.pal c).written ∧
      t.on CHZ_ERG_STAT.GAP = true ∧ t.palRuns d = s.palRuns d ∧ t.pal d = s.pal d ∧
      (s.writesErg c = true → s.neverFits 4 = false → t.holds .erg = true ∨ t.waits .erg = true)
    (s.ops = [] → ∃ t, exec (.paletteStart c) s = .next t ∧ starts t ∧
      { t with regs := s.regs, palA := s.palA, palB := s.palB, well := s.well } = u) ∧
    (∀ id o k, s.ops = [(id, some o)] → o.kind = .rxwin → o.phase = .window → o.chain = chainIx c → o.lnch = none →
      o.ctx = some k → (s.cx k.val).susp = .radio id → ∃ t, exec (.paletteStart c) s = .next t ∧ starts t ∧ t.ops = [] ∧
        t.cx k.val = { (s.cx k.val).wr o.d (BitVec.ofNat 32 (s.radioWord 0 (o.late && o.acted) o.seq)) with
                       st := .ready, susp := .none, z := true, since := t.stamp })) ∧
  (∀ (o : SampleObs) (s : State), s.cmr.st = 5 → s.awake = true → s.ents = [] → s.rslots = [] →
    let u := s.touch
    ∃ v, exec (.samplePosition { o with cands := [], syncs := [] }) s = .next v ∧ v.pos = s.pos + 1 ∧
      v.fld CHZ_ERG_STAT.WPOS = (s.pos + 1) % s.horizon ∧ v.ents = [] ∧ v.ctx = s.ctx ∧ v.lanes = s.lanes ∧
      (∀ c, s.chainOn c = true →
        let l := (match c with | .a => o.a | .b => o.b).clip
        let n := clipRuns (s.pal c).clip l
        (0 < n → v.on (RFA_RXn_CFG.CLIP (chainIx c)) = true) ∧ (v.pal c).clip = l.getLastD false ∧
        v.fld (RFA_RXn_CFG.CLIP_CNT (chainIx c)) = min 255 (s.fld (RFA_RXn_CFG.CLIP_CNT (chainIx c)) + n)) ∧
      (∀ c, s.palRuns c = true →
        let gap := s.gapNow c || (s.pal c).marker
        (v.pal c).marker = false ∧ (gap = true → (v.pal c).gapAt = u.stamp) ∧
        (s.pos % 16 = 15 → (s.pal c).cur.n = 15 → ∃ k, (v.pal c).blocks = (k :: (s.pal c).blocks).take 128 ∧
          k.n = 16 ∧ k.start = (s.pal c).cur.start ∧ k.stop = u.stamp ∧ k.gap = ((s.pal c).cur.gap || gap) ∧
          k.self = ((s.pal c).cur.self || s.pins.paEn)) ∧
        (s.ergWrites c = true → (v.pal c).written = (s.pal c).written + 1) ∧
        (s.ergWrites c = false → (v.pal c).written = (s.pal c).written ∧ (v.pal c).part = (s.pal c).part) ∧
        (∀ i w, i < 512 → s.single = false → s.ergWrites c = true → s.pos % 4 = 3 →
          Tab.get (fun _ => []) (s.pal c).part i = w → w.length = 6 →
          let z := obsAt (match c with | .a => o.a | .b => o.b) i
          v.bytes (s.ergAddr c i s.pos) 8 = w ++ if gap then [0x80#8, 0x80#8] else [compByte z.1, compByte z.2])) ∧
      (∀ d, v.detects d = false →
        exec (.samplePosition { o with cands := [d], syncs := [] }) s = .next v) ∧
      (∀ d, v.detects d = true → ∃ t, exec (.samplePosition { o with cands := [d], syncs := [] }) s = .next t ∧
        let x := v.entryOf d none
        x.start = d.start ∧ x.strength = energyCode (v.candPower d) 1 ∧ x.bin = s.chanBin d.chain d.chan ∧
        x.det = v.detStamp d ∧
        (∀ l, v.freeLane = some l → v.servable x = true → t.ent 0 = some { x with lane := some l, fresh := false } ∧
          t.lane l = some ⟨0, v.laneChain x, true, none, false, none⟩) ∧
        (v.freeLane = none → t.ent 0 = some { x with fresh := false }) ∧
        { t with ents := v.ents, lanes := v.lanes } = v)) ∧
  (∀ (e : Nat) (x : Entry) (s : State), s.ent e = some x → x.lane = none → x.slot = none →
    let u := s.touch
    let gone (t : State) : Prop := t.ent e = none ∧ ∀ i, i ≠ e → t.ent i = s.ent i
    (s.held = [] → x.sync = none → x.start + 88 * symFine (s.detRate (if x.chA then .a else .b)) ≤ s.stamp →
      ∃ t, exec (.syncSearchTimeout e) s = .next t ∧ gone t ∧
        t.fld CHZ_PENDING_STAT.FALSE_CNT = satInc 255 (s.fld CHZ_PENDING_STAT.FALSE_CNT) ∧
        { t with regs := s.regs, ents := s.ents, held := s.held } = u ∧ (s.stronger e = [] → t.held = [])) ∧
    (s.fld CHZ_PENDING_POLICY.AGE_LIMIT ≠ 0 → s.fld CHZ_PENDING_POLICY.AGE_LIMIT * 6291456 ≤ 25 * (s.stamp - x.det) →
      ∃ t, exec (.entryPromoted e) s = .next t ∧ t.ent e = some { x with promoted := true } ∧
        (∀ i, i ≠ e → t.ent i = s.ent i) ∧ { t with ents := s.ents } = u) ∧
    (s.held = [] → s.cmr.st = 5 → s.agedOut x = true ∨ (s.hasHistory x = false ∧ x.fresh = false) →
      ∃ t, exec (.entryStarved e) s = .next t ∧ gone t ∧ t.on LANE_STARVE_CNT.STARVED = true ∧
        t.fld LANE_STARVE_CNT.OCC_CNT = satInc 255 (s.fld LANE_STARVE_CNT.OCC_CNT) ∧
        (s.on LANE_CTRL.STARVE_REC = false →
          { t with regs := s.regs, ents := s.ents, held := s.held, free := u.free } = u) ∧
        (let base := s.fld LANE_RING_BASE.BASE
         let size := s.fld LANE_RING_SIZE.SIZE
         let head := s.fld LANE_RING_HEAD.HEAD
         s.on LANE_CTRL.STARVE_REC = true → 64 ≤ size → head + 32 ≤ size →
           32 ≤ (s.fld LANE_RING_TAIL.TAIL + 2 * size - head - 8) % size → 0x100000 ≤ base → base + size ≤ 0x200000 →
           t.num (base + head + 12) 1 = 0x30 ∧ t.fld LANE_RING_HEAD.HEAD = (head + 32) % size ∧
           t.seqno = (s.seqno + 1) % 65536 ∧
           ∀ a, (a < base + head ∨ base + head + 32 ≤ a) → t.byte a = s.byte a))) ∧
  (∀ (c : Chain) (s : State), s.palRuns c = true →
    s.palEnabled c = false ∨ s.chainOn c = false ∨ s.holds (.chzr c) = false → (s.pal c).part = [] →
    let d := otherChain c
    ∃ t, exec (.paletteStop c) s = .next t ∧ t.palRuns c = false ∧ t.holds (.chzr c) = false ∧
      (t.pal c).blocks = (s.pal c).blocks ∧ (t.pal c).marker = false ∧ t.palRuns d = s.palRuns d ∧
      t.pal d = s.pal d ∧ (s.palRuns d = false → t.holds .erg = false) ∧
      { t with regs := s.regs, palA := s.palA, palB := s.palB, well := s.well } = s.touch)

/-- LANE_CATCH_UP makes a lane with good history read live bins; LANE_STARVED ends one whose read position has aged out, counted.
LANE_FRAME_END of a frame with sync, a good header and a good FCS counts it in LANE_CNT_OK and writes its record (stamp, length,
partner, status, the frame without FCS) at HEAD, with LRSSI and the count of the partner where PT_UPD asks; a bad FCS counts in
LANE_CNT_FCS and is recorded with KEEP_BAD only; no sync word counts FALSE_CNT. The lane and its entry are freed. RECOVERY_SLOT_START
copies the oldest request's span into its buffer, RECOVERY_ENTRY hands the residual on, RECOVERY_REQUEST_DROPPED counts SKIP_CNT and
writes the fallback record. A body with FEC is the one that the Viterbi decoder gives. Completion is said for laneCatchUp,
laneStarved, laneFrameEnd, recoverySlotStart, recoveryEntry and recoveryRequestDropped. -/
def Obligations.LanesAndRecoverySlots : Prop :=
  ∀ s : State, s.awake = true →
    let u := s.touch
    let base := s.fld LANE_RING_BASE.BASE
    let size := s.fld LANE_RING_SIZE.SIZE
    let head := s.fld LANE_RING_HEAD.HEAD
    let room (n : Nat) : Prop := head + n ≤ size ∧ n ≤ (s.fld LANE_RING_TAIL.TAIL + 2 * size - head - 8) % size ∧
      0x100000 ≤ base ∧ base + size ≤ 0x200000
    let wrote (t : State) (stamp pidx status : Nat) (data : List Byte) : Prop :=
      let n := 32 + 8 * ceilDiv data.length 8
      t.bytes (base + head) 8 = leBytes 8 (stampWord stamp) ∧ t.num (base + head + 8) 2 = data.length % 65536 ∧
      t.num (base + head + 10) 2 = pidx % 65536 ∧ t.num (base + head + 12) 1 = status % 256 ∧
      t.bytes (base + head + 32) data.length = data ∧ t.fld LANE_RING_HEAD.HEAD = (head + n) % size ∧
      t.seqno = (s.seqno + 1) % 65536
    (∀ l ln x, s.lane l = some ln → s.ent ln.entry = some x →
      let freed (t : State) : Prop := t.lane l = none ∧ t.ent ln.entry = none ∧ (∀ i, i ≠ l → t.lane i = s.lane i) ∧
        ∀ i, i ≠ ln.entry → t.ent i = s.ent i
      (s.cmr.st = 5 → ln.behind = true → s.marks = [] → ∃ t, exec (.laneCatchUp l) s = .next t ∧
        t.lane l = some { ln with behind := false } ∧ (∀ i, i ≠ l → t.lane i = s.lane i) ∧ { t with lanes := s.lanes } = u) ∧
      (s.held = [] → x.slot = none → s.stronger ln.entry = [] → ln.behind = true → s.horizon - 16 < s.entAge x →
        ∃ t, exec (.laneStarved l) s = .next t ∧ freed t ∧ t.on LANE_STARVE_CNT.STARVED = true ∧
          t.fld LANE_STARVE_CNT.OCC_CNT = satInc 255 (s.fld LANE_STARVE_CNT.OCC_CNT) ∧
          (s.ops = [] → s.on LANE_CTRL.STARVE_REC = false →
            { t with regs := s.regs, ents := s.ents, lanes := s.lanes, well := s.well, pwr := s.pwr, free := u.free } = u)) ∧
      (∀ o : FrameObs, s.cmr.st = 5 → s.held = [] → s.ops = [] → x.slot = none → x.coll = none → s.stronger ln.entry = [] →
        ln.behind = false → s.diversity = false → o.cut = none → s.on MAC_ROLE.SF_EN = false →
        s.on MAC_ROLE.MB_EN = false → s.on TXP_ACK_CFG.EN = false → s.on LANE_RECOV_CFG.EN = false →
        (s.confirmSync x ln.chain o = none → ∃ t, exec (.laneFrameEnd l o) s = .next t ∧ freed t ∧ t.mem = s.mem ∧
          t.fld CHZ_PENDING_STAT.FALSE_CNT = satInc 255 (s.fld CHZ_PENDING_STAT.FALSE_CNT)) ∧
        (∀ set errs stamp, s.confirmSync x ln.chain o = some (set, errs, stamp) → s.hdrOk ln.chain o.hdr (s.fcsLen set) = true →
          let len := natBits o.hdr 15 7
          let cut := len - s.fcsLen set
          let body := (u.bodyOf o).1
          let mac := body.take cut
          body.length = len →
          (body.drop cut = s.fcsBytes set mac → s.on LANE_CTRL.KEEP_FCS = false → room (32 + 8 * ceilDiv cut 8) →
            (x.pidx < 4096 → s.clean (partner x.pidx + 0x30) 8) → ∃ t, exec (.laneFrameEnd l o) s = .next t ∧ freed t ∧
              wrote t stamp x.pidx 0 mac ∧ t.fld LANE_CNT_OK.COUNT = (s.fld LANE_CNT_OK.COUNT + 1) % 2 ^ 32 ∧
              (s.on LANE_CTRL.PT_UPD = true → s.partnerValid x.pidx = true →
                t.num (partner x.pidx + 0x31) 1 = minusDbm (s.toBall ln.chain o.power) ∧
                t.num (partner x.pidx + 0x34) 2 = (s.num (partner x.pidx + 0x34) 2 + 1) % 65536) ∧
              ∀ a, (a < base + head ∨ base + head + 32 + 8 * ceilDiv cut 8 ≤ a) →
                (s.on LANE_CTRL.PT_UPD = false ∨ s.partnerValid x.pidx = false ∨ a < partner x.pidx + 0x31 ∨
                  partner x.pidx + 0x38 ≤ a) →
                t.byte a = s.byte a) ∧
          (body.drop cut ≠ s.fcsBytes set mac → s.on LANE_CTRL.PT_UPD = false →
            (s.on LANE_CTRL.KEEP_BAD = false → ∃ t, exec (.laneFrameEnd l o) s = .next t ∧ freed t ∧ t.mem = s.mem ∧
              t.fld LANE_CNT_FCS.COUNT = (s.fld LANE_CNT_FCS.COUNT + 1) % 2 ^ 32) ∧
            (s.on LANE_CTRL.KEEP_BAD = true → room (32 + 8 * ceilDiv len 8) → ∃ t, exec (.laneFrameEnd l o) s = .next t ∧
              freed t ∧ wrote t stamp x.pidx 0x31 body))))) ∧
    (∀ (slot : Nat) (q : Recov), s.cmr.st = 5 →
      let b := s.fld LANE_RECOV_CFG.RBASE * 0x8000 + 0x8000 * slot
      let outside (t : State) : Prop := s.marks = [] → ∀ a, (a < b ∨ b + 0x8000 ≤ a) → t.byte a = s.byte a
      (slot < 8 → s.rslot slot = none → s.slotsUsed < s.fld LANE_RECOV_CFG.SLOTS → s.reqs = [q] → s.reqAged q = false →
        ∃ t, exec (.recoverySlotStart slot) s = .next t ∧ t.rslot slot = some q ∧ t.reqs = [] ∧ outside t ∧
          (0x100000 ≤ b → b + 0x8000 ≤ 0x200000 → s.marks = [] → ∀ p i, q.start ≤ p → p < min s.pos q.full →
            p / 4 ≠ s.pos / 4 → i < q.width → q.bin + i < 456 → p - q.start < 0x4000 →
            t.bytes (s.residualAddr slot q p + 2 * i) 2 =
              s.bytes (s.ergAddr q.chain (q.bin + 56 + i) p + 2 * (p % 4)) 2)) ∧
      (s.rslot slot = some q → q.copied = false →
        (∀ w det, q.weak = some w → ∃ t, exec (.recoveryEntry slot det) s = .next t ∧ outside t ∧
          t.rslot slot = some { q with copied := true } ∧
          t.ent s.freeEnt = some { w with lane := none, slot := some slot, fresh := false } ∧
          ∀ i, i ≠ s.freeEnt → t.ent i = s.ent i) ∧
        (∀ d, q.weak = none → s.scanFinds q d = true → ∃ t x, exec (.recoveryEntry slot (some d)) s = .next t ∧ outside t ∧
            t.rslot slot = some { q with copied := true } ∧ t.ent s.freeEnt = some x ∧ x.slot = some slot ∧
            x.lane = none ∧ x.sync.isSome = true ∧ x.start = d.start ∧ x.chan = q.chan) ∧
        (∀ det, q.weak = none → (∀ d, det = some d → s.scanFinds q d = false) →
          ∃ t, exec (.recoveryEntry slot det) s = .next t ∧ outside t ∧ t.rslot slot = none ∧
          t.fld LANE_RECOV_STAT.FAIL_CNT = satInc 255 (s.fld LANE_RECOV_STAT.FAIL_CNT) ∧ t.ents = s.ents))) ∧
    (∀ (r : Nat) (q : Recov), s.reqs[r]? = some q → s.reqAged q = true →
      (q.fallback = none → ∃ t, exec (.recoveryRequestDropped r) s = .next t ∧ t.reqs = s.reqs.eraseIdx r ∧
        t.fld LANE_RECOV_STAT.SKIP_CNT = satInc 255 (s.fld LANE_RECOV_STAT.SKIP_CNT) ∧
        { t with regs := s.regs, reqs := s.reqs } = u) ∧
      (∀ f, q.fallback = some f → room f.size → ∃ t,
        exec (.recoveryRequestDropped r) s = .next t ∧ t.reqs = s.reqs.eraseIdx r ∧
        t.fld LANE_RECOV_STAT.SKIP_CNT = satInc 255 (s.fld LANE_RECOV_STAT.SKIP_CNT) ∧
        wrote t f.stamp f.pidx f.status f.data))

/-- TX_RELEASE_POINT, LBT_COVERED and LBT_RETRY of a TXF that is ready make the test of step 5: clear (or no listening needed),
fitting its slot and its accounts, it moves the switches, holds SYT and fixes T at the release point plus the lead; a slot it does
not fit ends it with LATE, an account without room with DUTY_EXHAUSTED and EXH. No covering chain, or an uncovered interval in
IMMEDIATE mode, ends it with CHANNEL_BUSY; an uncovered one else waits; a busy one is retried with T moved by a backoff of 0.1 ms to
2^BEXP ms, at most RETRY times. Accounts count as they stood when the transmission began. One not ready at its stamp is late: it
waits under ACT_LATE, else ends with LATE. The LBT instruction reports OK or CHANNEL_BUSY with the largest code. Completion is said
for txReleasePoint, lbtCovered and lbtRetry. -/
def Obligations.ReleasePointAndListenBeforeTalk : Prop :=
  ∀ (id : Nat) (o : RadioOp) (k : Fin 64) (s : State), s.awake = true → s.ops = [(id, some o)] → o.ctx = some k →
    o.lnch = none → o.d ≠ 0 → (s.cx k.val).susp = .radio id →
    let ended (c : Instr) (v : State) (status : Nat) : Prop := ∃ t, exec c s = .next t ∧ t.ops = [] ∧ (t.cx k.val).st = .ready ∧
      ((t.cx k.val).rd o.d).toNat % 256 = status ∧ t.fld TXP_STAT.LAST = status ∧ t.pins = s.pins ∧ t.accts = s.accts ∧
      (status = 0x10 → t.on TXP_STAT.LATE = true) ∧ (status = 0x12 → t.on TXP_STAT.CBUSY = true) ∧
      (status = 0x13 → ∀ n ∈ (s.asOf o).acctsOf o.freq o.width,
        (v.asOf o).hasRoom (o.units + airUnits o.air * (o.copies + 1)) n = false → t.on (SGL_ACCn_USED.EXH n) = true)
    let goes (t v : State) (tr : Nat) : Prop := t.op id = some { o with phase := .grant, t := tr + s.lead } ∧
      t.on TXP_STAT.ACTIVE = true ∧ t.fld TXP_STAT.ANT = o.ant % 2 ∧
      t.pins = { s.pins with txrx := true, ant0 := o.ant == 0, ant1 := o.ant != 0 } ∧
      { t with regs := s.regs, pins := s.pins, ops := s.ops } = v
    let go (v : State) (tr : Nat) : Prop := (v.lbtNeeded o = false ∨ ((v.lbtTest o tr).nocov = false ∧
      (v.lbtTest o tr).covered = true ∧ (v.lbtTest o tr).clear = true)) ∧ v.slotFits o (tr + s.lead) = true ∧
      v.allRoom o (o.units + airUnits o.air * (o.copies + 1)) = true
    let step5 (c : Instr) (v : State) (tr : Nat) : Prop :=
      let r := v.lbtTest o tr
      let clear : Prop := v.lbtNeeded o = false ∨ (r.nocov = false ∧ r.covered = true ∧ r.clear = true)
      let busy : Prop := v.lbtNeeded o = true ∧ r.nocov = false ∧ r.covered = true ∧ r.clear = false
      let room := v.allRoom o (o.units + airUnits o.air * (o.copies + 1))
      (clear → v.slotFits o (tr + s.lead) = false → ended c v 0x10) ∧
      (clear → v.slotFits o (tr + s.lead) = true → room = false → ended c v 0x13) ∧
      (v.lbtNeeded o = true → r.nocov = true → ended c v 0x12) ∧
      (v.lbtNeeded o = true → r.nocov = false → r.covered = false → s.fld TXP_LBT_CFG.MODE = 2 → ended c v 0x12) ∧
      (v.lbtNeeded o = true → r.nocov = false → r.covered = false → s.fld TXP_LBT_CFG.MODE ≠ 2 → o.at_ = true →
        o.late = false → o.pol ≠ 0 → ended c v 0x10) ∧
      (v.lbtNeeded o = true → r.nocov = false → r.covered = false → s.fld TXP_LBT_CFG.MODE ≠ 2 →
        o.at_ = false ∨ o.late = true → exec c s = .next (v.setOp id { o with phase := .cover })) ∧
      (busy → o.tries < s.fld TXP_LBT_CFG.RETRY → o.neverLate = false → ∃ t x, exec c s = .next t ∧ t.op id = some x ∧
        x = { o with phase := .backoff, tries := o.tries + 1, t := x.t, listen := x.listen } ∧ tr + s.lead < x.t ∧
        x.t ≤ tr + s.lead + ceilDiv (10 * 2 ^ s.fld TXP_LBT_CFG.BEXP * 196608) 10 ∧
        { t with ops := s.ops, free := s.free } = { v with free := s.free }) ∧
      (busy → s.fld TXP_LBT_CFG.RETRY ≤ o.tries → ended c v 0x12)
    (o.kind = .txf → o.phase = .release → o.at_ = true → o.late = false → s.reach (s.release o) = true →
      s.time.edge ≤ s.release o →
      let v := s.moveTo (s.release o)
      (s.txReady o = true → go v (s.release o) →
        ∃ t, exec (.txReleasePoint id) s = .next t ∧ goes t v (s.release o)) ∧
      (s.txReady o = true → step5 (.txReleasePoint id) v (s.release o)) ∧
      (s.txReady o = false → o.pol ≠ 0 → ended (.txReleasePoint id) v 0x10) ∧
      (s.txReady o = false → o.pol = 0 → o.neverLate = false →
        exec (.txReleasePoint id) s = .next (v.setOp id { o with late := true, phase := .release }))) ∧
    (o.kind = .txf → o.phase = .release → o.at_ = false → s.txReady o = true →
      (go s.touch s.touch.stamp → ∃ t, exec (.txReleasePoint id) s = .next t ∧ goes t s.touch s.touch.stamp) ∧
      step5 (.txReleasePoint id) s.touch s.touch.stamp) ∧
    (o.kind = .txf → o.phase = .cover → s.txReady o = true → (s.touch.lbtTest o s.touch.stamp).covered = true →
      (go s.touch s.touch.stamp → ∃ t, exec (.lbtCovered id) s = .next t ∧ goes t s.touch s.touch.stamp) ∧
      step5 (.lbtCovered id) s.touch s.touch.stamp) ∧
    (o.kind = .txf → o.phase = .backoff → s.reach (s.release o) = true → s.txReady o = true →
      let v := s.moveTo (s.release o)
      (go v (s.release o) → ∃ t, exec (.lbtRetry id) s = .next t ∧ goes t v (s.release o)) ∧
      step5 (.lbtRetry id) v (s.release o)) ∧
    (o.kind = .txf → o.phase = .backoff → s.reach (s.release o) = true → s.txReady o = false → o.at_ = false →
      exec (.lbtRetry id) s = .next ((s.moveTo (s.release o)).setOp id { o with phase := .release })) ∧
    (∀ c v tr, o.kind = .lbt →
      (c = Instr.txReleasePoint id ∧ o.phase = .release ∧
        ((o.at_ = true ∧ s.reach o.t = true ∧ v = s.moveTo o.t ∧ tr = o.t) ∨
          (o.at_ = false ∧ v = s.touch ∧ tr = s.touch.stamp))) ∨
      (c = Instr.lbtCovered id ∧ o.phase = .cover ∧ v = s.touch ∧ tr = s.touch.stamp ∧
        (s.touch.lbtTest o s.touch.stamp).covered = true) →
      let r := v.lbtTest o tr
      (r.nocov = false → r.covered = true → ∃ t, exec c s = .next t ∧ t.ops = [] ∧ (t.cx k.val).st = .ready ∧
        ((t.cx k.val).rd o.d).toNat % 256 = (if r.clear then 0 else 0x12) ∧
        (r.worst < 65536 → ((t.cx k.val).rd o.d).toNat / 65536 = r.worst) ∧ t.pins = s.pins) ∧
      (r.nocov = true → ∃ t, exec c s = .next t ∧ t.ops = [] ∧ ((t.cx k.val).rd o.d).toNat % 256 = 0x12 ∧
        ((t.cx k.val).rd o.d).toNat / 65536 = 255))

/-- PA_GRANT at the rise of PA_EN places the claim: granted when it fits, PA_EN high and the operation on the air; one that can
never be granted ends it with BUDGET_DENIED; one that does not fit frees SYT and the switches, and waits late at the Well under
ACT_LATE, else ends with LATE. A late grant moves the switches again with LATE set. TX_END takes one step of Table 3-7 at a time:
the ramp over, every account of the channel charged and the packet sent; PA_EN low, its claim given back, the wake receiver blind
for 1 ms more; SYT and the switches free, and the end with OK or LATE_SENT and t_ts the launch instant, or the wait for the
acknowledgement, which ACK_WINDOW_CLOSE ends with NO_ACK. CALL_COPY_END charges a copy and begins the next GAP ms later.
BUCKET_EXPIRY drops the buckets whose tick has come. Completion is said for paGrant, txEnd, ackWindowClose, callCopyEnd and
bucketExpiry. -/
def Obligations.TransmissionsOnTheAir : Prop :=
  (∀ (id : Nat) (o : RadioOp) (k : Fin 64) (s : State), s.ops = [(id, some o)] → o.ctx = some k → o.lnch = none →
    o.d ≠ 0 → (s.cx k.val).susp = .radio id →
    let off (t : State) : Prop := t.on TXP_STAT.ACTIVE = false ∧ t.pins.txrx = false ∧ t.pins.ant0 = false ∧
      t.pins.ant1 = false
    let ended (t : State) (status : Nat) : Prop := t.ops = [] ∧ (t.cx k.val).st = .ready ∧ t.holds (.pa id) = false ∧
      ((t.cx k.val).rd o.d).toNat % 256 = status ∧ t.fld TXP_STAT.LAST = status
    let charged (t : State) (at_ : Nat) : Prop := ∀ n, t.acct n =
      if n ∈ (s.asOf o).acctsOf o.freq o.width then addBucket ((s.asOf o).expiryTick n at_) (airUnits o.air) (s.acct n)
      else s.acct n
    let amt := s.paClaim ((s.asOf o).clampLevel o.freq o.width o.level)
    let e := o.t + o.air
    let ramped (t : State) : Prop := charged t (e + usFine s.rampUs) ∧ t.op id = some { o with
        phase := .fall, units := o.units + airUnits o.air, endAt := e, fallAt := e + s.fallLag, backAt := e + s.tail } ∧
      t.pins = { s.pins with paCtl := none } ∧ (∃ x, t.sent = some x ∧ x.start = o.t ∧ x.ant = o.ant ∧
        x.level = (s.asOf o).clampLevel o.freq o.width o.level ∧
        (o.kind = .txf → x.dev = (s.packetDev o).take (o.air / symFine o.rate)) ∧
        (o.kind = .calltx → x.chips = (s.callChips o).take (o.air / 49152))) ∧
      { t with accts := s.accts, ops := s.ops, pins := s.pins, sent := s.sent, time := s.time } = s
    (o.kind = .txf → s.awake = true → o.phase = .grant → s.reach (o.t - s.riseLead) = true → s.holds (.pa id) = false →
      s.well.queue = [] →
      (s.neverFits amt = false → s.wellUsed + amt ≤ 2 * s.fld WELL_BUDGET.BUDGET →
        ∃ t, exec (.paGrant id) s = .next t ∧ t.op id = some { o with phase := .onAir } ∧
          t.pins = { s.pins with paEn := true, paCtl := if s.on RFA_EXT_CTL.PACTL_EN then some (o.t - usFine s.rampUs)
            else none } ∧ t.holds (.pa id) = true ∧ t.wellUsed = s.wellUsed + amt ∧
          t.palA.cur.self = true ∧ t.palB.cur.self = true ∧ { t with
            regs := s.regs, ops := s.ops, well := s.well, pins := s.pins, time := s.time, palA := s.palA, palB := s.palB } =
            s) ∧
      (s.neverFits amt = true → ∃ t, exec (.paGrant id) s = .next t ∧ ended t 0x15 ∧ off t ∧
        t.pins.paEn = s.pins.paEn ∧ t.on WELL_DENY_CNT.DENY = true) ∧
      (s.neverFits amt = false → 2 * s.fld WELL_BUDGET.BUDGET < s.wellUsed + amt → o.pol ≠ 0 →
        ∃ t, exec (.paGrant id) s = .next t ∧ ended t 0x10 ∧ off t ∧ t.waits (.pa id) = false ∧
          t.pins.paEn = s.pins.paEn) ∧
      (s.neverFits amt = false → 2 * s.fld WELL_BUDGET.BUDGET < s.wellUsed + amt → o.pol = 0 → o.neverLate = false →
        ∃ t, exec (.paGrant id) s = .next t ∧ t.op id = some { o with phase := .lateGrant, late := true } ∧ off t ∧
          t.waits (.pa id) = true ∧ t.pins.paEn = s.pins.paEn ∧ (t.cx k.val).st = .parked .well)) ∧
    (∀ c, o.kind = .txf → s.awake = true → o.phase = .lateGrant → s.txReady o = true → s.well.queue = [c] →
      c.who = .pa id → s.wellUsed + c.amt ≤ 2 * s.fld WELL_BUDGET.BUDGET → s.lbtNeeded o = false →
      s.slotFits o (s.touch.stamp + s.lead) = true → ∃ t x, exec (.paGrant id) s = .next t ∧ t.op id = some x ∧
        x = { o with phase := .grant, late := true, t := s.touch.stamp + s.lead, listen := x.listen } ∧
        t.holds (.pa id) = true ∧ t.on TXP_STAT.ACTIVE = true ∧ t.pins.txrx = true ∧
        (t.cx k.val).st = .parked .radio) ∧
    (o.kind = .txf → o.phase = .onAir → o.copies = 0 → s.reach (e + usFine s.rampUs) = true →
      ∃ t, exec (.txEnd id) s = .next t ∧ ramped t) ∧
    (o.kind = .txf → o.phase = .fall → s.reach o.fallAt = true → ∃ t, exec (.txEnd id) s = .next t ∧
      t.op id = some { o with phase := .swap } ∧ t.pins = { s.pins with paEn := false, paCtl := none } ∧
      t.holds (.pa id) = false ∧ t.wkr = { s.wkr with blind := ceilDiv (o.fallAt + msFine 1) 6000 } ∧ t.ctx = s.ctx) ∧
    (o.kind = .txf → o.phase = .swap → s.reach o.backAt = true → s.holds (.pa id) = false →
      (o.aborted = true → ∃ t, exec (.txEnd id) s = .next t ∧ t.op id = none ∧ off t ∧ t.ctx = s.ctx) ∧
      (o.aborted = false → s.inOwnCell o = false →
        (o.wantAck = false → ∃ t, exec (.txEnd id) s = .next t ∧ ended t (if o.late then 0x17 else 0) ∧ off t ∧
          ((t.cx k.val).rdT o.ts).toNat = stampWord o.t % 2 ^ 64 ∧ t.accts = s.accts ∧
          (o.units < 65536 → ((t.cx k.val).rd o.d).toNat / 65536 = o.units)) ∧
        (o.wantAck = true → s.hears o.freq o.width = true → ∃ t, exec (.txEnd id) s = .next t ∧
          t.op id = some { o with phase := .ackWait } ∧ off t ∧ t.accts = s.accts ∧ t.ctx = s.ctx) ∧
        (o.wantAck = true → s.hears o.freq o.width = false → ∃ t, exec (.txEnd id) s = .next t ∧ ended t 0x14 ∧ off t ∧
          t.on TXP_STAT.NOCOV = true ∧ t.accts = s.accts))) ∧
    (o.kind = .txf → o.phase = .ackWait → s.reach (s.ackWindow o).2 = true →
      (s.ackDecoding o = false → ∃ t, exec (.ackWindowClose id) s = .next t ∧ ended t 0x14 ∧
        t.on TXP_STAT.NOCOV = false ∧ ((t.cx k.val).rd o.d).toNat.testBit 8 = o.late ∧ t.accts = s.accts ∧
        t.pins = s.pins) ∧
      (s.ackDecoding o = true → exec (.ackWindowClose id) s =
        .next ((s.moveTo (s.ackWindow o).2).setOp id { o with phase := .ackDecode }))) ∧
    (o.kind = .calltx → o.phase = .onAir →
      (o.copies ≠ 0 → s.reach e = true → ∃ t, exec (.callCopyEnd id) s = .next t ∧ charged t e ∧
        t.op id = some { o with t := e + msFine (s.fld TXP_CALL_CFG.GAP), copies := o.copies - 1,
                                units := o.units + airUnits o.air } ∧ t.pins = s.pins ∧
        (∃ x, t.sent = some x ∧ x.chips = (s.callChips o).take (o.air / 49152)) ∧
        { t with accts := s.accts, ops := s.ops, sent := s.sent, time := s.time } = s) ∧
      (o.copies = 0 → s.reach (e + usFine s.rampUs) = true →
        ∃ t, exec (.callCopyEnd id) s = .next t ∧ ramped t))) ∧
  (∀ (n : Fin 8) (k : Nat) (s : State), ((s.acct n.val).map (·.tick)).min? = some k → s.reach (6000 * k) = true →
    ∃ t, exec (.bucketExpiry n) s = .next t ∧ k ≤ t.tick ∧
      t.acct n.val = (s.acct n.val).filter (fun b => decide (t.tick < b.tick)) ∧ (∀ b ∈ t.acct n.val, k < b.tick) ∧
      t.used n.val = ((t.acct n.val).map (·.units)).foldl (· + ·) 0 ∧ (∀ j, j ≠ n.val → t.acct j = s.acct j) ∧
      { t with accts := s.accts, time := s.time } = s)

/-- RXWIN_START opens a window; with POWER it sets EN of its chain, whose claim is placed, or ends the waiting instruction with OK
where the Palette runs. RXWIN_END removes it, ends an instruction that still waits with LATE and, with POWER, clears EN and stops the
Palette. BEACON_MISS counts MISS and predicts the next beacon; the third sets and counts LOST, posts event 0x10, unmodels the
coordinator and begins a scan; SCAN_END ends that. LEASE_SCAN takes cell, membership and lease of an entry run out, queues its release
and posts 0x11; LEASE_EXPIRY gives up the own address. ASSIGNED_SLOT_END clears or counts the misses of a slot's member; the third
takes its cell and posts 0x12. A record of one cycle stands before those of a higher CODE (R258): the event clauses speak of a cycle
that has posted none. Completion is said for rxwinStart, rxwinEnd, beaconMiss, scanEnd, leaseScan, leaseExpiry and
assignedSlotEnd. -/
def Obligations.WindowsBeaconLossAndLeases : Prop :=
  ∀ s : State, s.awake = true →
    let p := s.macPort
    let ring := s.fld (HPn_RING_BASE.BASE p) + s.fld (HPn_RING_HEAD.HEAD p)
    let posted (t : State) (mv code status a1 a2 st : Nat) : Prop :=
      16 ≤ s.ringRoom p → (s.moveTo mv).ringAfter p code = 0 → t.bytes ring 16 = eventBytes code status 0 a1 a2 st
    let ringOk : Prop := (s.port p).lost = 0 ∧ 0x200000 ≤ ring ∧ ring + 16 ≤ 0x300000
    let unmodelled (t : State) (i : Nat) : Prop := (t.pt i 0x0A 2).testBit 7 = true ∧ t.pt i 0x2F 1 = 250 ∧ t.pt i 0x33 1 = 0
    let u := s.fld MAC_ROLE.UPIDX
    (∀ w x, s.win w = some x → x.isOpen = false → s.reach x.start = true →
      let opened (t : State) : Prop := t.win w = some { x with isOpen := true } ∧ ∀ j, j ≠ w → t.win j = s.win j
      (x.power = false → ∃ t, exec (.rxwinStart w) s = .next t ∧ opened t ∧ { t with wins := s.wins, time := s.time } = s) ∧
      (x.power = true → s.palRuns x.chain = false → ∃ t, exec (.rxwinStart w) s = .next t ∧ opened t ∧
        t.on (enFld x.chain) = true ∧
        (s.diversity = false → s.on (enFld x.chain) = false → s.chainOn x.chain = true → s.holds (.chzr x.chain) = false →
          s.neverFits 18 = false → t.waits (.chzr x.chain) = true)) ∧
      (∀ id o k, x.power = true → s.palRuns x.chain = true → s.diversity = false → s.on (enFld x.chain) = true →
        s.chainOn x.chain = true → s.ops = [(id, some o)] → o.kind = .rxwin → o.phase = .window →
        o.chain = chainIx x.chain → o.lnch = none → o.ctx = some k → (s.cx k.val).susp = .radio id →
        ∃ t, exec (.rxwinStart w) s = .next t ∧ opened t ∧ t.ops = [] ∧ (t.cx k.val).st = .ready ∧
          (o.d ≠ 0 → ((t.cx k.val).rd o.d).toNat % 256 = 0))) ∧
    (∀ w x, s.wins = [(w, some x)] → x.isOpen = true → s.reach x.stop = true →
      (x.power = false → s.ops = [] → ∃ t, exec (.rxwinEnd w) s = .next t ∧ t.wins = [] ∧
        { t with wins := s.wins, time := s.time } = s) ∧
      (x.power = true → s.ops = [] → s.diversity = false → ∃ t, exec (.rxwinEnd w) s = .next t ∧ t.wins = [] ∧
        t.on (enFld x.chain) = false ∧ t.palRuns x.chain = false ∧ t.holds (.chzr x.chain) = false) ∧
      (∀ id o k, s.ops = [(id, some o)] → o.kind = .rxwin → o.seq = w → o.phase = .window → o.lnch = none →
        o.ctx = some k → o.d ≠ 0 → (s.cx k.val).susp = .radio id → ∃ t, exec (.rxwinEnd w) s = .next t ∧ t.wins = [] ∧
          t.ops = [] ∧ (t.cx k.val).st = .ready ∧ ((t.cx k.val).rd o.d).toNat % 256 = 0x10)) ∧
    (s.upSync = true → s.reach s.upWindow.2 = true → s.beaconPending = false →
      (s.fld MAC_BEACON_STAT.MISS < 2 → ∃ t, exec .beaconMiss s = .next t ∧
        t.fld MAC_BEACON_STAT.MISS = s.fld MAC_BEACON_STAT.MISS + 1 ∧ t.mac = { s.mac with nextN := s.mac.nextN + 1 } ∧
        (s.upKnown = true → t.up 0x18 8 = stampWord (t.predict u t.upTicks)) ∧
        (s.upKnown = false → t.up 0x18 8 = stampWord (wordStamp (s.up 0x18 8) + biFine s.upBo)) ∧ t.on MAC_BEACON_STAT.SYNC = true ∧
        (∀ a, (a < 0x4DF18 ∨ 0x4DF20 ≤ a) → t.byte a = s.byte a)) ∧
      (s.fld MAC_BEACON_STAT.MISS = 2 → s.ops = [] → ringOk → ∃ t, exec .beaconMiss s = .next t ∧
        t.fld MAC_BEACON_STAT.MISS = 3 ∧ t.on MAC_BEACON_STAT.LOST = true ∧
        t.fld MAC_BEACON_STAT.LOST_CNT = satInc 255 (s.fld MAC_BEACON_STAT.LOST_CNT) ∧
        t.on MAC_BEACON_STAT.SYNC = false ∧ t.on MAC_BEACON_STAT.SCAN = true ∧
        t.mac.scanEnd = some (t.stamp + s.fld MAC_MISS_CFG.SCAN * biFine s.upBo) ∧
        posted t s.upWindow.2 0x10 0x50 u 0 t.stamp ∧ (s.partnerValid u = true → s.clean (partner u) 64 → unmodelled t u))) ∧
    (∀ e, s.mac.scanEnd = some e → s.on MAC_BEACON_STAT.SCAN = true → s.reach e = true →
      ∃ t, exec .scanEnd s = .next t ∧ t.on MAC_BEACON_STAT.SCAN = false ∧
        t.on MAC_BEACON_STAT.SYNC = s.on MAC_BEACON_STAT.SYNC ∧ t.mac = { s.mac with scanEnd := none } ∧
        (∀ o, o ≠ MAC_BEACON_STAT.SCAN.off → t.reg o = s.reg o) ∧
        { t with regs := s.regs, mac := s.mac, time := s.time } = s) ∧
    (s.on MAC_ROLE.SF_EN = true → s.reach (6000 * s.mac.leaseAt) = true →
      let v := s.moveTo (6000 * s.mac.leaseAt)
      let n := if s.fld MAC_PTAB_BASE.ENTRIES = 0 then 4096 else s.fld MAC_PTAB_BASE.ENTRIES
      let due := (List.range n).filter (fun i => s.partnerValid i && (s.pt i 0x0A 2).testBit 9 &&
        decide (wordStamp (s.pt i 0x20 8) + s.fld MAC_LEASE.LEASE * minuteTicks * 6000 < v.stamp))
      let next (t : State) : Prop := t.tick < t.mac.leaseAt ∧ t.mac.leaseAt % minuteTicks = 0
      (due = [] → ∃ t, exec .leaseScan s = .next t ∧ next t ∧ { t with mac := s.mac } = v) ∧
      (∀ i, due = [i] → s.clean (partner i) 64 → ringOk → ∃ t, exec .leaseScan s = .next t ∧ next t ∧ t.pt i 0x1C 1 = 0xFF ∧
        (t.pt i 0x0A 2).testBit 9 = false ∧ (t.pt i 0x0A 2).testBit 2 = false ∧ (t.pt i 0x0A 2).testBit 0 = true ∧
        (s.mac.queue.length < 128 → ∃ c, t.mac.queue = s.mac.queue ++ [(s.pt i 8 2, c)] ∧ c.testBit 12 = true) ∧
        posted t (6000 * s.mac.leaseAt) 0x11 0x51 i 0 v.stamp)) ∧
    (∀ e, s.ownLease = some e → s.reach e = true → s.clean (upRec + 0x10) 8 → ringOk → ∃ t, exec .leaseExpiry s = .next t ∧
      t.fld MAC_SADDR.SADDR = 0xFFFE ∧ t.up 0x10 2 = 0xFFFF ∧ t.on MAC_BEACON_STAT.REL = true ∧
      t.fld MAC_BEACON_STAT.REL_CNT = satInc 255 (s.fld MAC_BEACON_STAT.REL_CNT) ∧ posted t e 0x11 0x51 0xFFFF 0 e) ∧
    (∀ z j, s.ownSf = some z → (assigned s.cont.1 s.cont.2).contains j = true → s.reach (s.slotDue z j).2 = true →
      let d := s.slotDue z j
      let done (t : State) : Prop := t.mac.done = 32 * d.1 + j + 1
      let here := s.members.filter (fun i => match s.cellOf i with | some (x, _, _) => x == j | none => false)
      (s.skipped d.1 = true ∨ here = [] → ∃ t, exec (.assignedSlotEnd j) s = .next t ∧ done t ∧
        { t with mac := s.mac, time := s.time } = s) ∧
      (∀ i, s.skipped d.1 = false → here = [i] → s.clean (partner i) 64 → ringOk →
        ∃ t, exec (.assignedSlotEnd j) s = .next t ∧ done t ∧
          (s.mac.heard.contains (i, d.1) = true → t.pt i 0x0F 1 = 0 ∧ t.mac.queue = s.mac.queue) ∧
          (s.mac.heard.contains (i, d.1) = false → unmodelled t i ∧ t.pt i 0x0F 1 = min 3 (s.pt i 0x0F 1 + 1) ∧
            (s.pt i 0x0F 1 < 2 → t.pt i 0x1C 1 = s.pt i 0x1C 1) ∧
            (2 ≤ s.pt i 0x0F 1 → t.pt i 0x1C 1 = 0xFF ∧ (t.pt i 0x0A 2).testBit 8 = true ∧
              posted t d.2 0x12 0x14 i j d.2))))

/-- PERIODIC_CALIBRATION begins one when CALINT is over; WKR_CALIBRATION_END 1536 ticks after the start gives CAP, FINE and COUNT,
with CALFAIL where COUNT is off TARGET by more than 2. CALL_RECEIVED counts a matching word, then a bad CRC or a foreign call, or
accepts it: ACC, WKR_LAST, an event 0x03 in Run, a wake with source 2 in a sleeping state, one more source in the tick of a wake
under way; a duplicate is ignored. MESSAGE_LAYER_ENABLE sets EN, and from 0 frees every record and zeroes the pointers and counters.
RECORD_EXAMINATION, at a multiple of 32 ticks (the phase is the model's choice, log entry 103), fails a record past DUE with NO_ACK,
retries or ends a transaction, and ends one of an invalid partner with ADDRESS_RELEASED. CHECK_ENGINE_START gives the waiting CRC
run to a lent engine, with the CRC-32 parameters. Completion is said for periodicCalibration, wkrCalibrationEnd, callReceived,
messageLayerEnable, recordExamination and checkEngineStart. -/
def Obligations.WakeReceiverAndMessageUpkeep : Prop :=
  (∀ s : State, s.wkrListens = true → s.fld WKR_CFG.CALINT ≠ 0 →
    s.reach ((s.wkr.ref + s.fld WKR_CFG.CALINT * 2 ^ 21) * 6000) = true →
    ∃ t, exec .periodicCalibration s = .next t ∧ t.on WKR_TUNE.CAL = true ∧
      s.wkr.ref + s.fld WKR_CFG.CALINT * 2 ^ 21 ≤ t.tick ∧ t.wkr = { s.wkr with cal := some t.tick, ref := t.tick } ∧
      s.onlyReg { t with wkr := s.wkr, time := s.time } WKR_TUNE.CAL.off) ∧
  (∀ (cap fine count t0 : Nat) (s : State), s.wkr.cal = some t0 → s.reach ((t0 + 1536) * 6000) = true → count < 4096 →
    ∃ t, exec (.wkrCalibrationEnd cap fine count) s = .next t ∧ t0 + 1536 ≤ t.tick ∧ t.on WKR_TUNE.CAL = false ∧
      t.fld WKR_TUNE.CAP = cap % 64 ∧ t.fld WKR_TUNE.FINE = fine % 64 ∧ t.fld WKR_STAT.COUNT = count ∧
      t.fld WKR_TUNE.TARGET = s.fld WKR_TUNE.TARGET ∧ t.wkr = { s.wkr with cal := none, blind := max s.wkr.blind t.tick } ∧
      (2 < ((count : Int) - s.fld WKR_TUNE.TARGET).natAbs → t.on WKR_STAT.CALFAIL = true ∧
        t.fld WKR_STAT.CALFAIL_CNT = satInc 255 (s.fld WKR_STAT.CALFAIL_CNT)) ∧
      (((count : Int) - s.fld WKR_TUNE.TARGET).natAbs ≤ 2 → t.on WKR_STAT.CALFAIL = s.on WKR_STAT.CALFAIL) ∧
      { t with regs := s.regs, wkr := s.wkr, time := s.time } = s) ∧
  (∀ (o : CallObs) (s : State), s.touch.callHeard o.tick = true →
    o.tick ≤ s.touch.tick + 2 → s.touch.tick ≤ o.tick + 2 →
    let w := o.rest.toNat
    let c := natBits w 31 24
    let a := natBits w 23 8
    let good : Prop := crc8 (beBytes 4 o.word.toNat ++ beBytes 3 (w / 256)) = w % 256
    let p := s.fld WKR_CFG.EVPORT
    let ring := s.fld (HPn_RING_BASE.BASE p) + s.fld (HPn_RING_HEAD.HEAD p)
    (s.callWord o.word = none → exec (.callReceived o) s = .next s.touch) ∧
    (∀ n, s.callWord o.word = some n → n < 4 ∧ ∃ t, exec (.callReceived o) s = .next t ∧
      t.fld WKR_FALSE_CNT.WORD_CNT = (s.fld WKR_FALSE_CNT.WORD_CNT + 1) % 65536 ∧
      (¬ good → t.fld WKR_FALSE_CNT.CRC_CNT = (s.fld WKR_FALSE_CNT.CRC_CNT + 1) % 256 ∧
        t.wkr = { s.wkr with judged := o.tick } ∧ t.pwr = s.pwr) ∧
      (good → (s.fld WKR_CLASS_MASK.CLASSES).testBit (c / 32) = false ∨ s.callTarget a = none →
        t.fld WKR_FALSE_CNT.FOREIGN_CNT = (s.fld WKR_FALSE_CNT.FOREIGN_CNT + 1) % 256 ∧
        t.wkr = { s.wkr with judged := o.tick } ∧ t.pwr = s.pwr) ∧
      (∀ m, good → (s.fld WKR_CLASS_MASK.CLASSES).testBit (c / 32) = true → s.callTarget a = some m →
        (s.callDup n c a o.tick = true → t.wkr = { s.wkr with judged := o.tick } ∧ t.pwr = s.pwr ∧
          t.fld WKR_STAT.ACC_CNT = s.fld WKR_STAT.ACC_CNT) ∧
        (s.callDup n c a o.tick = false → t.wkr = { s.wkr with judged := o.tick, last := some (n, c, a, o.tick) } ∧
          t.on WKR_STAT.ACC = true ∧ t.fld WKR_STAT.ACC_CNT = satInc 255 (s.fld WKR_STAT.ACC_CNT) ∧
          t.fld WKR_LAST.CLASS = c ∧ t.fld WKR_LAST.WORD = n ∧ t.fld WKR_LAST.MATCH = m ∧ t.fld WKR_LAST.TARGET = a ∧
          (s.pwr.st = .run ∨ s.pwr.st = .idle → (s.port p).lost = 0 → 16 ≤ s.ringRoom p →
            s.touch.ringAfter p 3 = 0 → 0x200000 ≤ ring → ring + 16 ≤ 0x300000 → t.num (ring + 3) 1 = 3 ∧ t.num (ring + 4) 4 = o.tick % 2 ^ 32 ∧
            t.num (ring + 8) 4 = (t.reg WKR_LAST.off).toNat) ∧
          (s.pwr.st = .sleep ∨ s.pwr.st = .deep → s.on PWR_WAKE_EN.WKR = true → t.pwr.st = .waking ∧
            t.fld PWR_WAKE_LAST.FIRST = 2 ∧ t.pwr.boot = s.pwr.boot ++ (if s.on WKR_CFG.SK_EN then
              [(s.fld WKR_CLASS_MASK.SKETCH, [t.reg WKR_LAST.off, BitVec.ofNat 32 o.tick])] else [])) ∧
          (s.pwr.st = .sleep ∨ s.pwr.st = .deep → s.on PWR_WAKE_EN.WKR = false → t.pwr = s.pwr) ∧
          (s.touch.joinsWake o.tick = true → s.on PWR_WAKE_EN.WKR = true →
            t.fld PWR_WAKE_LAST.SOURCES = s.fld PWR_WAKE_LAST.SOURCES ||| 2 ∧
            t.fld PWR_WAKE_LAST.FIRST = min 2 (s.fld PWR_WAKE_LAST.FIRST)))))) ∧
  (∀ (m : Master) (s : State), s.awake = true → s.clean 0x2F0000 0x6040 → ∃ t, exec (.messageLayerEnable m) s = .next t ∧
    t.msgOn = true ∧ t.msgEn = true ∧ t.ctx = s.ctx ∧ t.engs = s.engs ∧
    (s.msgEn = true → ∀ a, a ≠ msgCb 0x18 → t.byte a = s.byte a) ∧
    (s.msgEn = false → (∀ r, r < 256 → t.recFld r 3 1 = 0 ∧ t.txnFld r 3 1 = 0) ∧ t.num (msgCb 0x08) 8 = 0 ∧
      t.num (msgCb 0x20) 14 = 0 ∧ t.bytes (msgCb 0) 8 = s.bytes (msgCb 0) 8)) ∧
  (∀ (k : Nat) (s : State), s.multipleNow 5 = some k → s.pwr.primed = true → s.msgRuns = true → s.msgOn = true →
    s.clean 0x2F0000 0x6040 →
    let p := natBits (s.num (msgCb 0x18) 1) 2 1
    let ring := s.fld (HPn_RING_BASE.BASE p) + s.fld (HPn_RING_HEAD.HEAD p)
    let v := s.moveTo (6000 * k)
    (∀ r, r < 256 → (∀ i, i < 256 → i ≠ r → s.recFld i 3 1 ≠ 1) → (∀ i, i < 256 → s.txnFld i 3 1 = 0) →
      s.recFld r 3 1 = 1 → s.recLocked (s.recFld r 0 2) (s.recFld r 2 1) = false → (s.port p).lost = 0 →
      0x200000 ≤ ring → ring + 16 ≤ 0x2F0000 →
      (v.tick + 2 ^ 32 - s.recFld r 0x14 4) % 2 ^ 32 < 2 ^ 31 → ∃ t, exec (.recordExamination Env.clean) s = .next t ∧
        t.recFld r 3 1 = 3 ∧ t.recFld r 0x19 1 = 0x14 ∧ t.recFld r 0x1C 4 = v.tick % 2 ^ 32 ∧
        t.num (msgCb 0x2A) 2 = (s.num (msgCb 0x2A) 2 + 1) % 65536 ∧
        (16 ≤ s.ringRoom p → v.ringAfter p 0x20 = 0 → t.bytes ring 16 =
          eventBytes 0x20 0x14 0 r (s.recFld r 0 2) v.stamp) ∧
        (∀ i, i < 256 → i ≠ r → t.recFld i 3 1 = s.recFld i 3 1)) ∧
    (∀ x, x < 256 → (∀ i, i < 256 → s.recFld i 3 1 ≠ 1) → (∀ i, i < 256 → i ≠ x → s.txnFld i 3 1 = 0) →
      s.txnFld x 3 1 = 1 → s.responseRuns (s.txnFld x 0 2) (s.txnFld x 2 1) = false →
      (wordStamp (s.txnFld x 8 8) ≤ v.stamp → s.txnFld x 4 1 = 0 → ∃ t, exec (.recordExamination Env.clean) s = .next t ∧ t.txnFld x 3 1 = 3 ∧ t.txnFld x 0x14 1 = 0x14 ∧
        t.num (msgCb 0x2A) 2 = (s.num (msgCb 0x2A) 2 + 1) % 65536 ∧
        (s.txnFld x 5 1 < 64 → (s.cx (s.txnFld x 5 1)).st = .ready →
          (t.cx (s.txnFld x 5 1)).notices =
            (s.cx (s.txnFld x 5 1)).notices ++ [BitVec.ofNat 32 (x * 2 ^ 16 + 0x14)])) ∧
      (s.partnerValid (s.txnFld x 0 2) = false → v.stamp < wordStamp (s.txnFld x 8 8) ∨ s.txnFld x 4 1 ≠ 0 →
        ∃ t, exec (.recordExamination Env.clean) s = .next t ∧ t.txnFld x 3 1 = 3 ∧ t.txnFld x 0x14 1 = 0x51) ∧
      (wordStamp (s.txnFld x 8 8) ≤ v.stamp → s.txnFld x 4 1 ≠ 0 → s.partnerValid (s.txnFld x 0 2) = true → ∃ t, exec (.recordExamination Env.clean) s = .next t ∧ t.txnFld x 3 1 = 1 ∧
        t.txnFld x 4 1 = s.txnFld x 4 1 - 1 ∧
        t.txnFld x 8 8 = (s.txnFld x 8 8 + s.txnFld x 0x10 4 * 2 ^ 16) % 2 ^ 64))) ∧
  (∀ (e : Fin 8) (id : Nat) (o : EngOp) (s : State), s.msgRuns = true → s.lent e.val = true →
    (s.chkEng e.val).op = none → s.crcQueue = [(id, o)] → ∃ t, exec (.checkEngineStart e) s = .next t ∧
      t.chkEng e.val = ⟨some id⟩ ∧ t.eng id = some { o with started := true } ∧ (∀ i, i ≠ id → t.eng i = s.eng i) ∧
      (∀ j, j ≠ e.val → t.chkEng j = s.chkEng j) ∧ t.reg (CHKn_CFG.off e.val) = 0x8000031F#32 ∧
      t.reg (CHKn_POLY.off e.val) = 0x04C11DB7#32 ∧ t.fld (CHKn_STAT.BYTES e.val) = 0 ∧
      t.reg (CHKn_VALUE.off e.val) = (match o.kind with
        | .absorb _ _ _ _ (some r) => BitVec.ofNat 32 (s.recFld r 0x0C 4)
        | _ => 0xFFFFFFFF#32) ∧
      { t with regs := s.regs, engs := s.engs, chk := s.chk, pwr := s.pwr } = s.touch)

/-- LOCK_SEQUENCE_START of a multiplier that may run with its reference takes N and SETTLE; CMC takes the substitute without XO32.
LOCK_DECLARED after the search and SETTLE, within the 64 periods of step 4 and with the reference there, locks it with BAND, COUNT
and an error within 1, clears ATTEMPT and RELOCK; with both clocks there a waking device is in Run. LOCK_ATTEMPT_FAIL counts FAIL;
the second failure is the failed state, with a fault record. LOSS_OF_LOCK sets LOL with an error beyond 2, a record, and mutes it;
with CMR a transmission on the air ends with RADIO_CLOCK_LOST, charged, PA_EN and the switches following; CMC on the substitute
loses its reference with CMR. LOSS_OF_REFERENCE sets REFLOSS; REF_OK falls and a locked synthesiser loses lock. TCXO_PRESENT sets
REF_OK; FBO_MEASURE, at a multiple of 64 ticks (the model's choice, log entry 192), gives MEAS. Completion is said for
lockSequenceStart, lockDeclared, lockAttemptFail, lossOfLock, lossOfReference, tcxoPresent and fboMeasure. -/
def Obligations.ClockMultipliersLockAndLose : Prop :=
  ∀ (x : Mult) (s : State),
    let m := s.mult x
    let i := multIx x
    let u := s.touch
    let y : Mult := match x with | .cmc => .cmr | .cmr => .cmc
    let other (t : State) : Prop := t.mult y = s.mult y
    let logs (t : State) (kind : Nat) : Prop := s.faultAny = false → s.fld SYS_FAULT.EV = 0 →
      t.on SYS_FAULT.FAULT = true ∧ t.fld SYS_FAULT.LAST_KIND = kind ∧
      t.num (faultAddr (s.fld SYS_FAULT_LOG.HEAD) + 8) 1 = kind
    let kept : Prop := x = .cmc ∨ (s.cmc.st ≠ 5 ∧ s.cmc.st ≠ 2) ∨
      (s.on CLK_STAT.CMC_SUBST = false ∧ s.on CLK_STAT.XO32_OK = true)
    let substLost (t : State) : Prop := s.on CLK_STAT.CMC_SUBST = true → s.cmc.st = 5 ∨ s.cmc.st = 2 →
      t.cmc.st = 1 ∧ t.on CLK_STAT.CMC_SUBST = false ∧ t.on (CLK_CMn_STAT.REFLOSS 0) = true ∧
      t.fld CLK_LOSS_CNT.CMC_REF_CNT = satInc 255 (s.fld CLK_LOSS_CNT.CMC_REF_CNT)
    let idle : Prop := s.lanes = [] ∧ s.rslots = [] ∧ s.reqs = []
    (s.powered = true → m.st ≤ 1 → s.multOn x = true → s.refHere x = true → ∃ t, exec (.lockSequenceStart x) s = .next t ∧
      t.mult x = { m with st := 2, n := multN x (s.fld (CLK_CMn_CFG.REFMODE i)), start := u.stamp,
                          settle := s.fld (CLK_CMn_CFG.SETTLE i), res := (t.mult x).res } ∧
      (t.mult x).res.1 < 64 ∧
      8 * (((t.mult x).res.2 : Int) - 4 * multN x (s.fld (CLK_CMn_CFG.REFMODE i))).natAbs ≤
        multN x (s.fld (CLK_CMn_CFG.REFMODE i)) ∧ other t ∧
      (x = .cmc → t.on CLK_STAT.CMC_SUBST = !s.on CLK_STAT.XO32_OK) ∧
      { t with regs := s.regs, cmc := s.cmc, cmr := s.cmr, free := u.free } = u) ∧
    (∀ band count : Nat, m.st = 2 → s.reach (m.start + pfdFine x m.n (40 + m.settle)) = true →
      s.refGone x = false → s.stamp ≤ m.start + pfdFine x m.n (88 + m.settle) → band < 64 →
      8 * ((count : Int) - 4 * m.n).natAbs ≤ m.n → count < 2 ^ 16 → m.stop = none →
      ∃ t, exec (.lockDeclared x band count) s = .next t ∧ m.start + pfdFine x m.n (40 + m.settle) ≤ t.stamp + 5999 ∧
        t.mult x = { m with st := 5, stop := none } ∧ t.fld (CLK_BAND_CMn.BAND i) = band ∧
        t.fld (CLK_BAND_CMn.COUNT i) = count ∧ t.fld (CLK_CMn_STAT.ATTEMPT i) = 0 ∧ t.on (relockFld x) = false ∧
        (signed 8 (t.fld (CLK_CMn_STAT.ERR i))).natAbs ≤ 1 ∧ (s.upSync = false → other t) ∧
        (s.pwr.st = .waking → s.pwr.core = true → (s.mult y).st = 5 → t.pwr.st = .run) ∧
        (s.pwr.st ≠ .waking → t.pwr = s.pwr)) ∧
    (m.st = 2 → s.reach (m.start + pfdFine x m.n 24) = true → s.pwr.st ≠ .waking → ∃ t,
      exec (.lockAttemptFail x) s = .next t ∧ other t ∧ t.on (CLK_CMn_STAT.FAIL i) = true ∧
      t.fld (CLK_BAND_CMn.FAIL_CNT i) = satInc 255 (s.fld (CLK_BAND_CMn.FAIL_CNT i)) ∧
      (s.fld (CLK_CMn_STAT.ATTEMPT i) = 0 → t.mult x = { m with st := 1 } ∧ t.fld (CLK_CMn_STAT.ATTEMPT i) = 1) ∧
      (s.fld (CLK_CMn_STAT.ATTEMPT i) = 1 → t.mult x = { m with st := 6 } ∧ t.fld (CLK_CMn_STAT.ATTEMPT i) = 2 ∧
        logs t (match x with | .cmc => 4 | .cmr => 7))) ∧
    (m.st = 5 → idle → s.ops = [] → ∃ t, exec (.lossOfLock x) s = .next t ∧ (kept → other t) ∧ (x = .cmr → substLost t) ∧
      t.mult x = { m with st := 1, stop := some u.stamp } ∧ t.on (CLK_CMn_STAT.LOL i) = true ∧
      t.fld (lossFld x).1 = satInc 255 (s.fld (lossFld x).1) ∧
      2 < (signed 8 (t.fld (CLK_CMn_STAT.ERR i))).natAbs ∧ (x = .cmc → t.on CLK_STAT.CMC_SUBST = false) ∧
      (kept → logs t (match x with | .cmc => 2 | .cmr => 5))) ∧
    (∀ id o k, x = .cmr → m.st = 5 → idle → s.ops = [(id, some o)] → o.kind = .txf → o.phase = .onAir → o.lnch = none →
      o.ctx = some k → o.d ≠ 0 → (s.cx k.val).susp = .radio id → ∃ t, exec (.lossOfLock x) s = .next t ∧
        (t.mult x).st = 1 ∧ (t.cx k.val).st = .ready ∧ ((t.cx k.val).rd o.d).toNat % 256 = 0x16 ∧
        (∃ y, t.op id = some y ∧ y.phase = .fall ∧ y.endAt = u.stamp ∧
          y.fallAt = u.stamp + usFine (min s.rampUs 16 + s.fld RFA_EXT_CTL.PA_LAG) ∧
          y.backAt = y.fallAt + usFine (s.fld RFA_EXT_CTL.SW_LAG)) ∧
        t.pins.paEn = s.pins.paEn ∧ t.fld TXP_STAT.LAST = 0x16 ∧
        ∀ n, t.acct n = if n ∈ (s.asOf o).acctsOf o.freq o.width then
          addBucket ((s.asOf o).expiryTick n u.stamp) (max 1 (airUnits (min o.air (u.stamp - o.t)))) (s.acct n) else s.acct n) ∧
    (x = .cmc → m.st = 5 ∨ m.st = 2 → s.refGone .cmc = true → ∃ t, exec (.lossOfReference x) s = .next t ∧ other t ∧
      (t.mult x).st = 1 ∧ t.on (CLK_CMn_STAT.REFLOSS i) = true ∧ t.on CLK_STAT.CMC_SUBST = false ∧
      t.fld (lossFld x).2 = satInc 255 (s.fld (lossFld x).2) ∧ (m.st = 5 → logs t 3) ∧
      (m.st = 2 → t.mem = s.mem)) ∧
    (x = .cmr → s.on CLK_STAT.REF_OK = true → idle → s.ops = [] → ∃ t, exec (.lossOfReference x) s = .next t ∧
      (kept → other t) ∧ (m.st = 5 ∨ m.st = 2 → substLost t) ∧
      t.on CLK_STAT.REF_OK = false ∧ (∀ z, (s.syn z).phase = .locked → (t.syn z).phase = .settling ∧
        t.on (synUnlkFld z).1 = true ∧ t.on (synLockFld z) = false) ∧
      (∀ z, (s.syn z).phase ≠ .locked → t.syn z = s.syn z) ∧
      (m.st = 5 ∨ m.st = 2 → (t.mult x).st = 1 ∧ t.on (CLK_CMn_STAT.REFLOSS i) = true ∧
        t.fld (lossFld x).2 = satInc 255 (s.fld (lossFld x).2)) ∧
      (m.st ≠ 5 → m.st ≠ 2 → t.mult x = m)) ∧
    (s.powered = true → s.pins.tcxoEn = true → s.on CLK_STAT.REF_OK = false →
      s.reach (s.pwr.tcxoAt + usFine (s.fld CLK_TCXO_CFG.STARTUP) * 96 / 100) = true →
      ∃ t, exec .tcxoPresent s = .next t ∧ t.on CLK_STAT.REF_OK = true ∧
        s.pwr.tcxoAt + usFine (s.fld CLK_TCXO_CFG.STARTUP) * 96 / 100 ≤ t.time.now ∧
        (∀ z, t.syn z = if (s.syn z).phase = .settling then { s.syn z with since := t.stamp } else s.syn z) ∧
        s.onlyReg { t with time := s.time, free := s.free, sya := s.sya, syb := s.syb, syt := s.syt } CLK_STAT.REF_OK.off) ∧
    (∀ count, s.powered = true → s.on CLK_STAT.XO32_OK = true → s.tick % 64 = 0 → count < 2 ^ 16 →
      ∃ t, exec (.fboMeasure count) s = .next t ∧ t.fld CLK_FBO_TRIM.MEAS = count ∧
        t.fld CLK_FBO_TRIM.TRIM = s.fld CLK_FBO_TRIM.TRIM ∧ u.onlyReg t CLK_FBO_TRIM.MEAS.off)

/-- At the QUIET_POINT a pending request is carried out: Off leaves nothing but the outside levels; Sleep ends claims, synthesisers
and multipliers, clears the banks it loses, keeps contexts, launchers and RET; Deep sleep ends the contexts and every launcher but a
kept one of L0 to L3. GRACE_EXPIRY drops a request with REFUSED, or enters Off. WAKE_PIN and SELECT_FALL_WAKE record source, tick
and origin of a wake; WAKE_FROM_OFF is a start-up with FROM = 1. WAKE_CORE_READY runs the core with CLR set for the lost banks and
empty rings; CLEARING_END clears one bit; CK_RADIO_WAIT_EXPIRY stops waiting for CK_RADIO; IDLE_ENTRY enters Idle. Completion is
said for quietPoint, graceExpiry, wakePin, selectFallWake, wakeFromOff, wakeCoreReady, clearingEnd, ckRadioWaitExpiry and idleEntry.
-/
def Obligations.PowerStatesAndWaking : Prop :=
  ∀ s : State,
    let off (t : State) : Prop := t.pwr.st = .off ∧ t.pwr.core = false ∧ t.regs = [] ∧ t.mem = [] ∧ t.ctx = [] ∧
      t.slots = [] ∧ t.ops = [] ∧ t.keys = [] ∧ t.lnch = [] ∧ t.time = State.reset.time ∧ t.pins.gpIn = s.pins.gpIn ∧
      t.pins.paEn = false ∧ t.pins.tcxoEn = false
    let kept (t : State) (a : Nat) : Prop := t.byte a = s.byte a
    let sleeps (t : State) : Prop := t.pwr.core = false ∧ t.pwr.req = 0 ∧ t.well.granted = [] ∧ t.cmc.st = 0 ∧
      t.cmr.st = 0 ∧ t.on CLK_STAT.REF_OK = false ∧ (∀ y, t.synOn y = false) ∧ t.pins.paEn = false ∧ t.keys = s.keys ∧
      (∀ a, ((0x100000 ≤ a ∧ a < 0x300000) ∨ (0x400000 ≤ a ∧ a < 0x800000)) → t.byte a = 0#8) ∧
      (∀ a, 0x40000 ≤ a → a < 0x50000 → kept t a)
    let wakes (t : State) (code tick : Nat) : Prop := t.pwr.st = .waking ∧ t.pwr.wakeAt = s.stamp ∧
      t.fld PWR_WAKE_LAST.FIRST = code ∧ t.fld PWR_WAKE_LAST.SOURCES = 2 ^ (code - 1) ∧
      t.fld PWR_WAKE_LAST.FROM = (if s.pwr.st = .deep then 3 else 2) ∧ t.on PWR_WAKE_LAST.VALID = true ∧
      t.on PWR_WAKE_LAST.OVR = (s.on PWR_WAKE_LAST.VALID || s.on PWR_WAKE_LAST.OVR) ∧
      t.fld PWR_WAKE_LAST.WAKE_CNT = (s.fld PWR_WAKE_LAST.WAKE_CNT + 1) % 256 ∧
      t.fld PWR_WAKE_TIME_LO.TICKS_LO = tick % 2 ^ 32 ∧ t.mem = s.mem ∧ t.ctx = s.ctx
    let asleep : Prop := s.pwr.st = .sleep ∨ s.pwr.st = .deep
    (s.serves = true → s.quiet = true → s.ops = [] →
      (s.pwr.req = 3 → ∃ t, exec .quietPoint s = .next t ∧ off t) ∧
      (s.pwr.req = 1 → ∃ t, exec .quietPoint s = .next t ∧ t.pwr.st = .sleep ∧ sleeps t ∧ t.ctx = s.ctx ∧ t.lnch = s.lnch ∧
        t.slots = s.slots ∧ (s.on PWR_RET_CFG.PGM_RET = true → ∀ a, a < 0x40000 → kept t a) ∧
        (s.on PWR_RET_CFG.PTB_RET = true → ∀ a, 0x80000 ≤ a → a < 0xC0000 → kept t a) ∧
        (s.on PWR_RET_CFG.PGM_RET = false → ∀ a, a < 0x40000 → t.byte a = 0#8)) ∧
      (s.pwr.req = 2 → ∃ t, exec .quietPoint s = .next t ∧ t.pwr.st = .deep ∧ sleeps t ∧ t.ctx = [] ∧ t.engs = [] ∧
        (∀ a, a < 0x40000 → t.byte a = 0#8) ∧ t.pins.tcxoEn = false ∧
        (∀ n, n < 32 → (t.launcher n).armed = true → n < 4 ∧ s.on (CVN_Ln_ACT.KEEP n) = true ∧
          t.launcher n = s.launcher n) ∧
        (∀ n, n < 4 → s.on (CVN_Ln_ACT.KEEP n) = true → t.launcher n = s.launcher n))) ∧
    (s.serves = true → s.quiet = false → s.reach (s.pwr.reqAt + msFine (s.fld PWR_REQ.GRACE)) = true →
      (s.pwr.req = 1 ∨ s.pwr.req = 2 → ∃ t, exec .graceExpiry s = .next t ∧ t.pwr = { s.pwr with req := 0 } ∧
        t.on PWR_STATE.REFUSED = true ∧ t.fld PWR_STATE.REFUSED_CNT = satInc 255 (s.fld PWR_STATE.REFUSED_CNT) ∧
        s.onlyReg { t with pwr := s.pwr, time := s.time } PWR_STATE.REFUSED.off) ∧
      (s.pwr.req = 3 → ∃ t, exec .graceExpiry s = .next t ∧ off t)) ∧
    (s.on PWR_WAKE_EN.PIN = true → asleep → ∃ t, exec .wakePin s = .next t ∧ wakes t 1 s.tick) ∧
    (s.on PWR_WAKE_EN.PIN = true → s.pwr.st = .run → exec .wakePin s = .next s) ∧
    (s.on PWR_WAKE_EN.PIN = true → s.joinsWake s.tick = true → ∃ t, exec .wakePin s = .next t ∧
      t.fld PWR_WAKE_LAST.SOURCES = s.fld PWR_WAKE_LAST.SOURCES ||| 1 ∧
      t.fld PWR_WAKE_LAST.FIRST = min 1 (s.fld PWR_WAKE_LAST.FIRST) ∧ s.onlyReg t PWR_WAKE_LAST.SOURCES.off) ∧
    (∀ p : Fin 4, (s.fld PWR_WAKE_EN.HOST).testBit p.val = true → s.on (HPn_CASC_CFG.EN p.val) = false →
      s.pwr.st = .sleep → ∃ t, exec (.selectFallWake p) s = .next t ∧ wakes t 4 (s.tick + 1) ∧
        t.fld PWR_WAKE_LAST.PORT = p.val ∧ (t.port p.val).woke = true) ∧
    (s.pwr.st = .off → ∃ t, exec .wakeFromOff s = .next t ∧ t.pwr.st = .starting ∧ t.time = State.reset.time ∧
      t.fld PWR_WAKE_LAST.FROM = 1 ∧ t.fld PWR_WAKE_LAST.FIRST = 1 ∧ t.fld PWR_WAKE_LAST.SOURCES = 1 ∧
      t.on PWR_WAKE_LAST.VALID = true ∧ t.on PWR_WAKE_LAST.OVR = false ∧ t.fld PWR_WAKE_LAST.WAKE_CNT = 1 ∧ t.mem = [] ∧
      ∀ o, o ≠ PWR_WAKE_LAST.VALID.off → t.reg o = regReset o) ∧
    (s.pwr.core = false → s.reach (s.pwr.wakeAt + usFine 200) = true →
      (s.pwr.st = .waking → s.pwr.boot = [] → s.upSync = false → s.msgOn = false →
        let rings (t : State) : Prop := ∀ p, p < 4 → t.fld (HPn_RING_HEAD.HEAD p) = 0 ∧ t.fld (HPn_RING_TAIL.TAIL p) = 0 ∧
          (t.port p).lost = 0
        let clr (t : State) (pgm ptb : Bool) : Prop := t.fld PWR_STATE.CLR = 56 + b2n pgm + 4 * b2n ptb
        ∃ t, exec .wakeCoreReady s = .next t ∧ t.pwr.core = true ∧ t.awake = true ∧ rings t ∧ t.mem = s.mem ∧
          t.ctx = s.ctx ∧
          (s.fld PWR_WAKE_LAST.FROM = 2 → t.slots = s.slots ∧
            clr t (!s.on PWR_RET_CFG.PGM_RET) (!s.on PWR_RET_CFG.PTB_RET)) ∧
          (s.fld PWR_WAKE_LAST.FROM = 3 → clr t true true ∧
            ∀ p i, p < 4 → i < 256 → (t.slot p i).st = .free ∧
              (t.slot p i).gen = if (s.slot p i).gen = 63 then 1 else (s.slot p i).gen + 1)) ∧
      (s.pwr.st = .starting → ∃ t, exec .wakeCoreReady s = .next t ∧ t.pwr.st = .run ∧ t.pwr.core = true ∧
        t.fld PWR_STATE.CLR = 63 ∧ t.pwr.primed = s.pwr.primed ∧ t.mem = s.mem)) ∧
    (∀ b : Bank, s.awake = true → (s.fld PWR_STATE.CLR).testBit b.code = true → ∃ t, exec (.clearingEnd b) s = .next t ∧
      t.fld PWR_STATE.CLR + 2 ^ b.code = s.fld PWR_STATE.CLR ∧ (t.fld PWR_STATE.CLR).testBit b.code = false ∧
      s.touch.onlyReg t PWR_STATE.REFUSED.off) ∧
    (s.pwr.st = .waking → s.cmr.st = 1 → s.on CLK_STAT.REF_OK = false → s.upSync = false → s.msgOn = false →
      s.reach (s.pwr.tcxoAt + usFine (s.fld CLK_TCXO_CFG.STARTUP + 100)) = true →
      ∃ t, exec .ckRadioWaitExpiry s = .next t ∧ t.pwr.noRadio = true ∧
        (s.pwr.core = true → s.cmc.st = 5 → t.pwr.st = .run) ∧ (s.pwr.core = false → t.pwr.st = .waking) ∧
        { t with pwr := s.pwr, mac := s.mac, time := s.time } = s) ∧
    (s.pwr.st = .run → s.pwr.core = true → s.idleNow = true → exec .idleEntry s =
      .next { s.touch with pwr := { s.touch.pwr with st := .idle } })

/-- RESET_N_LOW leaves every register at its reset value, every bank zero, no key and no context, the levels driven from outside as
they are; RESET_N_RELEASE starts the start-up from tick 0. PRIMER_STARTUP checks the primer ROM: a mismatch is recorded with kind
0x21 and the CRC found, and start-up goes on. SCRUB_WRITE_BACK makes a corrected word valid again. BRUSH_REGION_START takes the next
region due of a walked bank, corrects its words and advances POS; REGION_TEST_END gives it back with its content and fresh check
bits, a word that could not be corrected staying marked: a failing one gets the lowest good spare with REPAIR, or NOSPARE, each with
a fault record, and the last walked one counts PASSES. Completion is said for resetNLow, resetNRelease, primerStartup,
scrubWriteBack, brushRegionStart and regionTestEnd. -/
def Obligations.ResetStartupAndBrush : Prop :=
  ∀ s : State,
    let fresh (t : State) : Prop := (∀ o, t.reg o = regReset o) ∧ (∀ a, a < 0xF00000 → t.byte a = 0#8) ∧ t.time.now = 0 ∧
      t.keys = [] ∧ t.ctx = [] ∧ t.slots = [] ∧ t.engs = [] ∧ t.ops = [] ∧ t.well = ⟨[], [], []⟩ ∧ t.pwr.core = false ∧
      t.pwr.primed = false ∧ t.pins.gpIn = s.pins.gpIn ∧ t.pins.tcxoEn = false ∧ t.pins.paEn = false ∧
      t.pending = s.pending
    let logs (t : State) (kind info : Nat) : Prop := s.faultAny = false → s.fld SYS_FAULT.EV = 0 →
      t.fld SYS_FAULT.LAST_KIND = kind ∧ t.num (faultAddr (s.fld SYS_FAULT_LOG.HEAD) + 8) 1 = kind ∧
      t.num (faultAddr (s.fld SYS_FAULT_LOG.HEAD) + 12) 4 = info
    let banks (t : State) : Prop := s.fld SYS_FAULT.EV = 0 → ∀ a, (a < 0x4D800 ∨ 0x4DC00 ≤ a) → t.byte a = s.byte a
    (∃ t, exec .resetNLow s = .next t ∧ fresh t ∧ t.pwr.st = .inReset) ∧
    (s.pwr.st = .inReset → ∃ t, exec .resetNRelease s = .next t ∧ fresh t ∧ t.pwr.st = .starting ∧
      t = { State.reset with pins := t.pins, free := s.free, pending := s.pending }) ∧
    (s.awake = true → s.pwr.primed = false → (∀ env, ∃ t, exec (.primerStartup env) s = .next t ∧ t.pwr.primed = true) ∧
      let c := crc32 (s.bytes 0xF00000 8188)
      (c = s.num (0xF00000 + 8188) 4 → exec (.primerStartup Env.clean) s =
        .next { s.touch with pwr := { s.touch.pwr with primed := true } }) ∧
      (c ≠ s.num (0xF00000 + 8188) 4 → ∃ t, exec (.primerStartup Env.clean) s = .next t ∧ t.pwr.primed = true ∧ logs t 0x21 c)) ∧
    (∀ w, s.awake = true → s.scrub.contains w = true → ∃ t, exec (.scrubWriteBack w) s = .next t ∧ t.mark w = .good ∧
      t.scrub.contains w = false ∧ (∀ x, x ≠ w → t.mark x = s.mark x ∧ t.scrub.contains x = s.scrub.contains x) ∧
      { t with marks := s.marks, scrub := s.scrub } = s.touch) ∧
    (∀ r, s.msgRuns = true → s.on MEM_WALK_CFG.EN = true → s.brush.busy = none → s.pwr.req = 0 →
      s.reach (s.brush.at_ + usFine (s.fld MEM_WALK_CFG.INTERVAL)) = true →
      s.regionFrom (s.fld MEM_WALK_POS.REGION) = some r → s.walks (regionBank r) = true ∧
      (s.usable (regionAddr r) 64 → ∃ t, exec .brushRegionStart s = .next t ∧ t.brush.busy = some r ∧
        t.brush.at_ = t.stamp ∧ s.brush.at_ + usFine (s.fld MEM_WALK_CFG.INTERVAL) ≤ t.stamp ∧ t.pwr.st = .run ∧
        (s.fld MEM_BANK_CFG.INJ = 0 → ∀ w ∈ wordsOf (regionAddr r) 64, t.mark w = .good) ∧ banks t ∧
        (s.clean (regionAddr r) 64 → t.mem = s.mem) ∧
        (s.lastWalked r = false → t.fld MEM_WALK_POS.REGION = (r + 1) % 107520) ∧
        ({ t.brush with busy := none, at_ := s.brush.at_ } = s.brush))) ∧
    (∀ (r : Nat) (o : RegionObs), s.brush.busy = some r → s.awake = true →
      let b := regionBank r
      let passes (t : State) : Prop := t.fld MEM_WALK_STAT.PASSES =
        if s.lastWalked r then (s.fld MEM_WALK_STAT.PASSES + 1) % 4096 else s.fld MEM_WALK_STAT.PASSES
      let restored (t : State) : Prop := s.fld MEM_BANK_CFG.INJ = 0 → r < 107520 → ∀ w, t.mark w =
        if w ∈ wordsOf (regionAddr r) 64 ∧ s.mark w ≠ .bad then .good else s.mark w
      (o.fails = false → ∃ t, exec (.regionTestEnd o) s = .next t ∧ t.brush = { s.brush with busy := none } ∧ passes t ∧
        restored t ∧ { t with regs := s.regs, brush := s.brush, marks := s.marks, scrub := s.scrub } = s.touch) ∧
      (∀ k, o.fails = true → s.on MEM_WALK_CFG.SPARE_EN = true → k < 8 → s.brush.used = [] → s.brush.bad = [] →
        s.brush.map = [] → o.badSpares = List.range k → ∃ t, exec (.regionTestEnd o) s = .next t ∧ t.brush.busy = none ∧
          t.brush.used = [8 * b.code + k] ∧ t.brush.bad = (List.range k).map (8 * b.code + ·) ∧
          Tab.get (fun _ => 0) t.brush.map r = 8 * b.code + k + 1 ∧ t.on MEM_WALK_STAT.REPAIR = true ∧
          t.fld MEM_WALK_STAT.REPAIR_CNT = satInc 255 (s.fld MEM_WALK_STAT.REPAIR_CNT) ∧ passes t ∧ banks t ∧
          (r < 107520 → logs t 0x14 (r + k * 2 ^ 24))) ∧
      (o.fails = true → s.on MEM_WALK_CFG.SPARE_EN = false → ∃ t, exec (.regionTestEnd o) s = .next t ∧
        t.brush = { s.brush with busy := none } ∧ t.on MEM_WALK_STAT.NOSPARE = true ∧
        t.fld MEM_WALK_STAT.NOSPARE_CNT = satInc 255 (s.fld MEM_WALK_STAT.NOSPARE_CNT) ∧ passes t ∧ banks t ∧
        (r < 107520 → logs t 0x15 r)))

/-- The root's line code (which goes on after its soft reset until CAS_ROLE or CVN_LINE_CFG is written: log entry 194) comes at each
multiple of 32 ticks, a marker with its time code (tick, quality bits, CRC-8) at each multiple of 1024. A worker takes the line
error of each edge; in Acquiring two good edges after the time was set lock, a bad one waits for a new code; in Locked the error is
slewed out over 32 ticks and an eighth of it trims the rate, unless it exceeds 1000 fine units or the fourth edge in a row lies
outside LOCKWIN. A time code with a bad CRC counts CODEERR; a good one sets the time in Acquiring (a step forward that makes the
launchers passed late, or a standstill), must match in Locked (the second mismatch in a row starts over), and ends Holdover.
HOLDOVER keeps the trim, sets HOLD and records kind 0x22. Completion is said for syncPulse, codeMarker, lineEdge, timeCode and
holdover. -/
def Obligations.LineCodeAndWorkerLoop : Prop :=
  ∀ s : State,
    let state : Nat := s.fld CVN_LINE_STAT.STATE
    let delay : Int := s.lineDelay
    let win : Nat := s.fld CVN_LINE_CFG.LOCKWIN
    let at_ (T : Nat) : Prop := s.time.now ≤ T ∧ s.reach T = true
    let lineRegs (t : State) : Prop := ∀ o, o ≠ CVN_LINE_STAT.off → t.reg o = s.reg o
    let quality (t : State) (w : Nat) : Prop := t.on CVN_LINE_STAT.RQUAL = w.testBit 8 ∧ t.on CVN_LINE_STAT.RSUB = w.testBit 9
    let codeErr (t : State) : Prop := t.on CVN_LINE_STAT.CODEERR = true ∧
      t.fld CVN_LINE_STAT.CODE_CNT = satInc 255 (s.fld CVN_LINE_STAT.CODE_CNT)
    (∀ n, s.lineDrives = true → at_ (192000 * n) →
      192000 * n < s.time.now + 192000 → s.pins.cvn ≠ 32 * n →
      let u : State := { s with time := { s.time with now := 192000 * n }, pins := { s.pins with cvn := 32 * n } }
      (n % 32 ≠ 0 → exec .syncPulse s = .next u ∧ exec .codeMarker s = .next s) ∧
      (n % 32 = 0 → exec .syncPulse s = .next s ∧ ∃ c, c < 2 ^ 64 ∧
        exec .codeMarker s = .next { u with pins := { u.pins with code := c } } ∧ c / 2 ^ 16 = 32 * n % 2 ^ 48 ∧
        natBits c 15 10 = 0 ∧ c.testBit 9 = s.time.absent ∧ c.testBit 8 = s.qual ∧ c % 256 = crc8 (beBytes 7 (c / 256)))) ∧
    (∀ o : LineObs, s.awake = true → s.lineOwns = true → at_ o.arrive →
      let e : Int := (o.arrive : Int) - (6000 * (o.tick : Int) + delay)
      let near : Bool := decide (e.natAbs ≤ win)
      let miss : Nat := if near then 0 else s.line.miss + 1
      let lost : Bool := decide (1000 < e.natAbs) || decide (miss = 4)
      2 * (15625 * delay - 1536 * (s.fld CVN_DELAY.DELAY : Int)).natAbs ≤ 15625 ∧
      ∃ t, exec (.lineEdge o) s = .next t ∧ t.time.now = o.arrive ∧ t.line.last = o.arrive ∧ t.line.err = e ∧
        t.line.marker = (if o.marker then some o.arrive else s.line.marker) ∧
        t.fld CVN_LINE_STAT.ERR = twos 10 (clampInt (-511) 511 e) ∧
        (∀ x, x ≠ CVN_LINE_STAT.off → x ≠ CVN_RATE_TRIM.off → t.reg x = s.reg x) ∧
        { t with regs := s.regs, line := s.line, time := s.time } = s ∧
        { t.time with now := s.time.now, slew := s.time.slew, slewLeft := s.time.slewLeft } = s.time ∧
        (state ≠ 2 → t.time.slew = s.time.slew ∧ t.reg CVN_RATE_TRIM.off = s.reg CVN_RATE_TRIM.off) ∧
        (state = 0 ∨ state = 3 ∨ (state = 1 ∧ s.line.timed = false) → t.fld CVN_LINE_STAT.STATE = state) ∧
        (state = 1 → s.line.timed = true →
          (near = true → s.line.good = 1 → t.fld CVN_LINE_STAT.STATE = 2) ∧
          (near = true → s.line.good ≠ 1 → t.fld CVN_LINE_STAT.STATE = 1 ∧ t.line.good = s.line.good + 1 ∧ t.line.timed = true) ∧
          (near = false → t.fld CVN_LINE_STAT.STATE = 1 ∧ t.line.good = 0 ∧ t.line.timed = false)) ∧
        (state = 2 → lost = true → t.fld CVN_LINE_STAT.STATE = 1 ∧ t.line.timed = false ∧ t.line.miss = 0) ∧
        (state = 2 → lost = false → t.fld CVN_LINE_STAT.STATE = 2 ∧ t.line.miss = miss ∧ t.time.slew = e ∧ t.time.slewLeft = 32 ∧
          signed 32 (t.fld CVN_RATE_TRIM.TRIM) =
            clampInt (-500000) 500000 (signed 32 (s.fld CVN_RATE_TRIM.TRIM) + roundDiv e 8))) ∧
    (∀ (code : BitVec 64) (m : Nat), s.line.marker = some m → s.awake = true → s.lineOwns = true → at_ (m + usFine 660) →
      let w := code.toNat
      let T := m + usFine 660
      let d : Int := 6000 * ((w / 2 ^ 16 : Nat) : Int) + delay - (m : Int)
      let good : Prop := crc8 (beBytes 7 (w / 256)) = w % 256
      let own : Int := ((m : Int) - delay + 3000) / 6000
      ∃ t, exec (.timeCode code) s = .next t ∧ t.line.marker = none ∧ lineRegs t ∧
        { t with regs := s.regs, line := s.line, time := s.time, lnch := s.lnch } = s ∧
        (¬ (good ∧ state = 1) → t.time = { s.time with now := T } ∧ t.lnch = s.lnch) ∧
        (¬ good → codeErr t ∧ t.fld CVN_LINE_STAT.STATE = state ∧ t.line = { s.line with marker := none }) ∧
        (good → state = 1 → quality t w ∧ t.fld CVN_LINE_STAT.STATE = 1 ∧ t.line.timed = true ∧ t.line.good = 0 ∧
          t.time.slewLeft = 0 ∧
          (0 ≤ d → (t.time.now : Int) = T + d ∧ (t.time.edge : Int) = s.time.edge + d ∧ t.time.hold = s.time.hold ∧
            ∀ n, n < 32 → t.launcher n = if (s.launcher n).armed ∧ T < (s.launcher n).stamp ∧
              ((s.launcher n).stamp : Int) < T + d then { s.launcher n with late := true } else s.launcher n) ∧
          (d < 0 → t.time.now = T ∧ (t.time.hold : Int) = -d ∧ t.lnch = s.lnch)) ∧
        (good → state = 2 → own = ((w / 2 ^ 16 : Nat) : Int) → quality t w ∧ t.fld CVN_LINE_STAT.STATE = 2 ∧ t.line.bad = 0 ∧
          t.on CVN_LINE_STAT.CODEERR = s.on CVN_LINE_STAT.CODEERR) ∧
        (good → state = 2 → own ≠ ((w / 2 ^ 16 : Nat) : Int) → codeErr t ∧
          (s.line.bad = 1 → t.fld CVN_LINE_STAT.STATE = 1 ∧ t.line.timed = false ∧ t.line.bad = 0) ∧
          (s.line.bad ≠ 1 → t.fld CVN_LINE_STAT.STATE = 2 ∧ t.line.bad = s.line.bad + 1)) ∧
        (good → state = 3 → quality t w ∧ t.fld CVN_LINE_STAT.STATE = 1 ∧ t.line.timed = false)) ∧
    (let T := s.line.last + s.fld CVN_LINE_CFG.LOSS * 192000
     s.awake = true → s.lineOwns = true → (state = 1 ∨ state = 2) → at_ T → ∃ t, exec .holdover s = .next t ∧
      t.time = { s.time with now := T } ∧ t.fld CVN_LINE_STAT.STATE = 3 ∧ t.on CVN_LINE_STAT.HOLD = true ∧
      t.fld CVN_LINE_STAT.HOLD_CNT = satInc 255 (s.fld CVN_LINE_STAT.HOLD_CNT) ∧
      t.reg CVN_RATE_TRIM.off = s.reg CVN_RATE_TRIM.off ∧
      (s.faultAny = false → s.fld SYS_FAULT.EV = 0 → t.fld SYS_FAULT.LAST_KIND = 0x22 ∧
        t.num (faultAddr (s.fld SYS_FAULT_LOG.HEAD) + 8) 1 = 0x22 ∧
        ∀ a, (a < 0x4D800 ∨ 0x4DC00 ≤ a) → t.byte a = s.byte a))

/-- When the frame of a run ends, the words read stand after the image, NGOT shows how many, DONE is set and counted (TMO after a
worker timeout) and no other byte of memory changes; the round trip of a read is noted. A forward whose READ shows VALID ends with
the worker's handle, or with its reject code where GEN = 0; without VALID the submit goes once more, and then, or after a worker
timeout, it ends with NO_ACK. The waiting frame with the oldest ticket runs next, its worker's select low and the port's others
high; the other port's list stays. Completion is said for cascadeFrameEnd and workerTimeout. -/
def Obligations.CascadeFramesEnd : Prop :=
  ∀ (s : State) (p : Fin 4) (o : CascObs) (l : List Casc),
    s.awake = true → (s.port p.val).casc = true → s.on (HPn_CASC_CFG.EN p.val) = true →
    let next (t : State) : Prop := (t.casc p.val = [] ↔ l = []) ∧ (t.casc p.val).length = l.length ∧
      (∀ x ∈ l, x ∈ t.casc p.val) ∧
      (∀ c, (t.casc p.val).head? = some c → c ∈ l ∧ ∀ x ∈ l, c.ticket.le x.ticket = true)
    let selects (t : State) : Prop := ∀ j, j < 4 → s.gpSelect (8 + 4 * (p.val - 2) + j) = true →
      Tab.get (fun _ => false) t.pins.gpDrv (8 + 4 * (p.val - 2) + j) = true ∧
      Tab.get (fun _ => false) t.pins.gpOut (8 + 4 * (p.val - 2) + j) = (t.cascWorker p.val != some (4 * (p.val - 2) + j))
    let others (t : State) : Prop := ∀ q, q ≠ p.val → t.casc q = s.casc q
    (∀ (w nin buf : Nat) (out : List Word) (tk : Ticket), s.casc p.val = .run w out nin buf tk :: l → w < 8 → nin < 1024 →
      let n := min o.words.length nin
      let a := 0x200000 + 16 * buf + 4 * (1 + out.length)
      a + 4 * n ≤ 0x2F6018 → s.clean a (4 * n) →
      let ran (t : State) : Prop :=
        (∀ (i : Nat) (h : i < o.words.length), i < nin → t.num (a + 4 * i) 4 = (o.words[i]).toNat) ∧
        (∀ x, (x < a ∨ a + 4 * n ≤ x) → t.byte x = s.byte x) ∧ t.fld CAS_STAT.NGOT = n ∧ next t ∧ others t ∧
        (∀ x, x ≠ CAS_STAT.off → x ≠ (CAS_LINE_DELAYn.VALID w).off → x ≠ MEM_BANK_CFG.off → t.reg x = s.reg x) ∧
        { t with regs := s.regs, mem := s.mem, marks := s.marks, scrub := s.scrub, casc2 := s.casc2, casc3 := s.casc3,
                 pins := s.pins } = s.touch ∧ selects t
      (∃ t, exec (.cascadeFrameEnd p o) s = .next t ∧ ran t ∧ t.on CAS_STAT.DONE = true ∧
        t.fld CAS_STAT.DONE_CNT = satInc 255 (s.fld CAS_STAT.DONE_CNT) ∧ t.fld CAS_STAT.TMO_CNT = s.fld CAS_STAT.TMO_CNT ∧
        (nin ≠ 0 → o.words ≠ [] → t.on (CAS_LINE_DELAYn.VALID w) = true ∧
          t.fld (CAS_LINE_DELAYn.RTT w) = min o.rtt 65535)) ∧
      (∃ t, exec (.workerTimeout p o) s = .next t ∧ ran t ∧ t.on CAS_STAT.TMO = true ∧
        t.fld CAS_STAT.TMO_CNT = satInc 255 (s.fld CAS_STAT.TMO_CNT) ∧ t.fld CAS_STAT.DONE_CNT = s.fld CAS_STAT.DONE_CNT)) ∧
    (∀ (k : Fin 64) (d w : Nat) (ws : List Word) (again : Bool) (tk : Ticket),
      s.casc p.val = .fwd k d w ws again tk :: l → (s.cx k.val).susp = .cas d →
      let v : Nat := (o.words.headD 0#32).toNat
      let h := v % 2 ^ 16
      let keeps (t : State) : Prop := others t ∧ t.pwr = s.leaveIdle.pwr ∧ (∀ j, j ≠ k.val → t.cx j = s.cx j) ∧
        { t with regs := s.regs, ctx := s.ctx, casc2 := s.casc2, casc3 := s.casc3, pwr := s.pwr,
                 pins := s.pins } = s.touch ∧ selects t
      let ends (t : State) (status : Nat) : Prop := keeps t ∧ next t ∧
        t.cx k.val = { (s.cx k.val).wr d (BitVec.ofNat 32 status) with
          st := .ready, susp := .none, z := decide (status % 256 = 0), since := t.stamp }
      let noted (t : State) : Prop := t.on (CAS_LINE_DELAYn.VALID w) = true ∧ t.fld (CAS_LINE_DELAYn.RTT w) = min o.rtt 65535 ∧
        ∀ x, x ≠ (CAS_LINE_DELAYn.VALID w).off → t.reg x = s.reg x
      (w < 8 → v.testBit 31 = true → natBits v 13 8 ≠ 0 → ∃ t, exec (.cascadeFrameEnd p o) s = .next t ∧ noted t ∧
        ends t (h * 2 ^ 16)) ∧
      (w < 8 → v.testBit 31 = true → natBits v 13 8 = 0 → ∃ t, exec (.cascadeFrameEnd p o) s = .next t ∧ noted t ∧
        ends t (h * 2 ^ 16 + v % 256)) ∧
      (w < 8 → v.testBit 31 = false → again = true → ∃ t, exec (.cascadeFrameEnd p o) s = .next t ∧ noted t ∧
        ends t Status.noAck) ∧
      (w < 8 → v.testBit 31 = false → again = false → ∃ t, exec (.cascadeFrameEnd p o) s = .next t ∧ noted t ∧
        others t ∧ t.casc p.val = .fwd k d w ws true tk :: l ∧
        { t with regs := s.regs, casc2 := s.casc2, casc3 := s.casc3 } = s.touch) ∧
      (∃ t, exec (.workerTimeout p o) s = .next t ∧ ends t Status.noAck ∧ ∀ x, t.reg x = s.reg x))
end

