-- ==== Sys2Proof/Laws/Bits.lean ====
section
/-! SUPPORT. The laws of bit fields: what a field reads after it, or a field apart from it, has been written. -/

namespace Sys2Proof.Machine

/-- The number a word holds after bits [hi:lo] are replaced. -/
theorem putBits_toNat (w : Word) (hi lo v : Nat) (hl : lo ≤ hi) (hh : hi < 32) :
    (putBits w hi lo v).toNat =
      2 ^ lo * (2 ^ (hi + 1 - lo) * (w.toNat >>> (hi + 1)) + v % 2 ^ (hi + 1 - lo)) + w.toNat % 2 ^ lo := by
  have hw : w.toNat < 2 ^ 32 := w.isLt
  have e1 : 2 ^ lo * (2 ^ (hi + 1 - lo) * (w.toNat >>> (hi + 1)) + v % 2 ^ (hi + 1 - lo)) + w.toNat % 2 ^ lo =
      w.toNat % 2 ^ lo + v % 2 ^ (hi + 1 - lo) * 2 ^ lo + w.toNat >>> (hi + 1) * 2 ^ (hi + 1) := by
    have : 2 ^ (hi + 1) = 2 ^ lo * 2 ^ (hi + 1 - lo) := by rw [← pow_add]; congr 1; omega
    rw [this]
    ring
  rw [e1]
  unfold putBits
  rw [BitVec.toNat_ofNat, Nat.mod_eq_of_lt]
  have a1 : w.toNat % 2 ^ lo < 2 ^ lo := Nat.mod_lt _ (by positivity)
  have a2 : v % 2 ^ (hi + 1 - lo) < 2 ^ (hi + 1 - lo) := Nat.mod_lt _ (by positivity)
  have a3 : w.toNat >>> (hi + 1) < 2 ^ (31 - hi) := by
    rw [Nat.shiftRight_eq_div_pow, Nat.div_lt_iff_lt_mul (by positivity), ← pow_add]
    have : 31 - hi + (hi + 1) = 32 := by omega
    rw [this]
    exact hw
  have b1 : v % 2 ^ (hi + 1 - lo) * 2 ^ lo + 2 ^ lo ≤ 2 ^ (hi + 1) := by
    have : 2 ^ (hi + 1) = 2 ^ (hi + 1 - lo) * 2 ^ lo := by rw [← pow_add]; congr 1; omega
    rw [this]
    have := Nat.mul_le_mul_right (2 ^ lo) (Nat.succ_le_of_lt a2)
    rw [Nat.succ_mul] at this
    exact this
  have b2 : w.toNat >>> (hi + 1) * 2 ^ (hi + 1) + 2 ^ (hi + 1) ≤ 2 ^ 32 := by
    have e : 2 ^ 32 = 2 ^ (31 - hi) * 2 ^ (hi + 1) := by rw [← pow_add]; congr 1; omega
    have := Nat.mul_le_mul_right (2 ^ (hi + 1)) (Nat.succ_le_of_lt a3)
    rw [Nat.succ_mul] at this
    omega
  omega

/-- Each bit of a word after bits [hi:lo] are replaced. -/
theorem putBits_testBit (w : Word) (hi lo v i : Nat) (hl : lo ≤ hi) (hh : hi < 32) :
    (putBits w hi lo v).toNat.testBit i =
      if lo ≤ i ∧ i ≤ hi then v.testBit (i - lo) else w.toNat.testBit i := by
  rw [putBits_toNat w hi lo v hl hh, Nat.testBit_two_pow_mul_add _ (Nat.mod_lt _ (by positivity))]
  by_cases h1 : i < lo
  · have : ¬ (lo ≤ i ∧ i ≤ hi) := by omega
    simp [h1, this, Nat.testBit_mod_two_pow]
  · rw [if_neg h1, Nat.testBit_two_pow_mul_add _ (Nat.mod_lt _ (by positivity))]
    by_cases h2 : i ≤ hi
    · have a : i - lo < hi + 1 - lo := by omega
      have b : lo ≤ i ∧ i ≤ hi := by omega
      simp [a, b, Nat.testBit_mod_two_pow]
    · have a : ¬ (i - lo < hi + 1 - lo) := by omega
      have b : ¬ (lo ≤ i ∧ i ≤ hi) := by omega
      rw [if_neg a, if_neg b, Nat.testBit_shiftRight]
      congr 1
      omega

/-- Each bit of a field. -/
theorem getBits_testBit (w : Word) (hi lo i : Nat) :
    (getBits w hi lo).testBit i = (decide (i < hi + 1 - lo) && w.toNat.testBit (lo + i)) := by
  unfold getBits
  rw [Nat.testBit_mod_two_pow, Nat.testBit_shiftRight]

/-- A field that has been written reads what was written, to its width. -/
theorem getBits_putBits (w : Word) (hi lo v : Nat) (hl : lo ≤ hi) (hh : hi < 32) :
    getBits (putBits w hi lo v) hi lo = v % 2 ^ (hi + 1 - lo) := by
  apply Nat.eq_of_testBit_eq
  intro i
  rw [getBits_testBit, putBits_testBit w hi lo v _ hl hh, Nat.testBit_mod_two_pow]
  by_cases h : i < hi + 1 - lo
  · have : lo ≤ lo + i ∧ lo + i ≤ hi := by omega
    simp [h, this]
  · simp [h]

/-- A field apart from the one written reads what it read. -/
theorem getBits_putBits_apart (w : Word) (hi lo hi' lo' v : Nat) (hl : lo ≤ hi) (hh : hi < 32)
    (h : hi' < lo ∨ hi < lo') : getBits (putBits w hi lo v) hi' lo' = getBits w hi' lo' := by
  apply Nat.eq_of_testBit_eq
  intro i
  rw [getBits_testBit, getBits_testBit, putBits_testBit w hi lo v _ hl hh]
  by_cases h1 : i < hi' + 1 - lo'
  · have : ¬ (lo ≤ lo' + i ∧ lo' + i ≤ hi) := by omega
    simp [h1, this]
  · simp [h1]

/-- A field is less than 2 to its width. -/
theorem getBits_lt (w : Word) (hi lo : Nat) : getBits w hi lo < 2 ^ (hi + 1 - lo) := Nat.mod_lt _ (by positivity)

@[simp] theorem leBytes_length (n v : Nat) : (leBytes n v).length = n := by
  induction n generalizing v with
  | zero => rfl
  | succ n ih => simp [leBytes, ih]

/-- Little-endian bytes read back as the number, to their width (R5). -/
theorem leNat_leBytes (n v : Nat) : leNat (leBytes n v) = v % 256 ^ n := by
  induction n generalizing v with
  | zero => simp [leBytes, leNat, Nat.mod_one]
  | succ n ih =>
    simp only [leBytes, leNat, ih, BitVec.toNat_ofNat]
    have e : (256 : Nat) ^ (n + 1) = 256 * 256 ^ n := by rw [Nat.pow_succ, Nat.mul_comm]
    rw [e, Nat.mod_mul]

end Sys2Proof.Machine
end

