-- ==== Sys2Proof/Laws/State.lean ====
section
/-! SUPPORT. One lemma per field per update: the fields that a primitive update of the state leaves as they are, so that no
proof unfolds a record update. -/

namespace Sys2Proof.Machine

/-! State.setReg. -/

@[simp] theorem State.setReg_mem (s : State) (off : Nat) (w : Word) : (s.setReg off w).mem = s.mem := (rfl)
@[simp] theorem State.setReg_marks (s : State) (off : Nat) (w : Word) : (s.setReg off w).marks = s.marks := (rfl)
@[simp] theorem State.setReg_scrub (s : State) (off : Nat) (w : Word) : (s.setReg off w).scrub = s.scrub := (rfl)
@[simp] theorem State.setReg_time (s : State) (off : Nat) (w : Word) : (s.setReg off w).time = s.time := (rfl)
@[simp] theorem State.setReg_caps (s : State) (off : Nat) (w : Word) : (s.setReg off w).caps = s.caps := (rfl)
@[simp] theorem State.setReg_lnch (s : State) (off : Nat) (w : Word) : (s.setReg off w).lnch = s.lnch := (rfl)
@[simp] theorem State.setReg_ctx (s : State) (off : Nat) (w : Word) : (s.setReg off w).ctx = s.ctx := (rfl)
@[simp] theorem State.setReg_sems (s : State) (off : Nat) (w : Word) : (s.setReg off w).sems = s.sems := (rfl)
@[simp] theorem State.setReg_slots (s : State) (off : Nat) (w : Word) : (s.setReg off w).slots = s.slots := (rfl)
@[simp] theorem State.setReg_ports (s : State) (off : Nat) (w : Word) : (s.setReg off w).ports = s.ports := (rfl)
@[simp] theorem State.setReg_sya (s : State) (off : Nat) (w : Word) : (s.setReg off w).sya = s.sya := (rfl)
@[simp] theorem State.setReg_syb (s : State) (off : Nat) (w : Word) : (s.setReg off w).syb = s.syb := (rfl)
@[simp] theorem State.setReg_syt (s : State) (off : Nat) (w : Word) : (s.setReg off w).syt = s.syt := (rfl)
@[simp] theorem State.setReg_tempConv (s : State) (off : Nat) (w : Word) : (s.setReg off w).tempConv = s.tempConv := (rfl)
@[simp] theorem State.setReg_pos (s : State) (off : Nat) (w : Word) : (s.setReg off w).pos = s.pos := (rfl)
@[simp] theorem State.setReg_palA (s : State) (off : Nat) (w : Word) : (s.setReg off w).palA = s.palA := (rfl)
@[simp] theorem State.setReg_palB (s : State) (off : Nat) (w : Word) : (s.setReg off w).palB = s.palB := (rfl)
@[simp] theorem State.setReg_ents (s : State) (off : Nat) (w : Word) : (s.setReg off w).ents = s.ents := (rfl)
@[simp] theorem State.setReg_lanes (s : State) (off : Nat) (w : Word) : (s.setReg off w).lanes = s.lanes := (rfl)
@[simp] theorem State.setReg_held (s : State) (off : Nat) (w : Word) : (s.setReg off w).held = s.held := (rfl)
@[simp] theorem State.setReg_reqs (s : State) (off : Nat) (w : Word) : (s.setReg off w).reqs = s.reqs := (rfl)
@[simp] theorem State.setReg_rslots (s : State) (off : Nat) (w : Word) : (s.setReg off w).rslots = s.rslots := (rfl)
@[simp] theorem State.setReg_seqno (s : State) (off : Nat) (w : Word) : (s.setReg off w).seqno = s.seqno := (rfl)
@[simp] theorem State.setReg_wins (s : State) (off : Nat) (w : Word) : (s.setReg off w).wins = s.wins := (rfl)
@[simp] theorem State.setReg_ops (s : State) (off : Nat) (w : Word) : (s.setReg off w).ops = s.ops := (rfl)
@[simp] theorem State.setReg_opNext (s : State) (off : Nat) (w : Word) : (s.setReg off w).opNext = s.opNext := (rfl)
@[simp] theorem State.setReg_sent (s : State) (off : Nat) (w : Word) : (s.setReg off w).sent = s.sent := (rfl)
@[simp] theorem State.setReg_accts (s : State) (off : Nat) (w : Word) : (s.setReg off w).accts = s.accts := (rfl)
@[simp] theorem State.setReg_keys (s : State) (off : Nat) (w : Word) : (s.setReg off w).keys = s.keys := (rfl)
@[simp] theorem State.setReg_keyData (s : State) (off : Nat) (w : Word) : (s.setReg off w).keyData = s.keyData := (rfl)
@[simp] theorem State.setReg_aes (s : State) (off : Nat) (w : Word) : (s.setReg off w).aes = s.aes := (rfl)
@[simp] theorem State.setReg_engs (s : State) (off : Nat) (w : Word) : (s.setReg off w).engs = s.engs := (rfl)
@[simp] theorem State.setReg_engNext (s : State) (off : Nat) (w : Word) : (s.setReg off w).engNext = s.engNext := (rfl)
@[simp] theorem State.setReg_mac (s : State) (off : Nat) (w : Word) : (s.setReg off w).mac = s.mac := (rfl)
@[simp] theorem State.setReg_wkr (s : State) (off : Nat) (w : Word) : (s.setReg off w).wkr = s.wkr := (rfl)
@[simp] theorem State.setReg_msgQ (s : State) (off : Nat) (w : Word) : (s.setReg off w).msgQ = s.msgQ := (rfl)
@[simp] theorem State.setReg_msgEn (s : State) (off : Nat) (w : Word) : (s.setReg off w).msgEn = s.msgEn := (rfl)
@[simp] theorem State.setReg_dma (s : State) (off : Nat) (w : Word) : (s.setReg off w).dma = s.dma := (rfl)
@[simp] theorem State.setReg_chk (s : State) (off : Nat) (w : Word) : (s.setReg off w).chk = s.chk := (rfl)
@[simp] theorem State.setReg_cmc (s : State) (off : Nat) (w : Word) : (s.setReg off w).cmc = s.cmc := (rfl)
@[simp] theorem State.setReg_cmr (s : State) (off : Nat) (w : Word) : (s.setReg off w).cmr = s.cmr := (rfl)
@[simp] theorem State.setReg_cmrOpen (s : State) (off : Nat) (w : Word) : (s.setReg off w).cmrOpen = s.cmrOpen := (rfl)
@[simp] theorem State.setReg_pwr (s : State) (off : Nat) (w : Word) : (s.setReg off w).pwr = s.pwr := (rfl)
@[simp] theorem State.setReg_well (s : State) (off : Nat) (w : Word) : (s.setReg off w).well = s.well := (rfl)
@[simp] theorem State.setReg_brush (s : State) (off : Nat) (w : Word) : (s.setReg off w).brush = s.brush := (rfl)
@[simp] theorem State.setReg_pins (s : State) (off : Nat) (w : Word) : (s.setReg off w).pins = s.pins := (rfl)
@[simp] theorem State.setReg_line (s : State) (off : Nat) (w : Word) : (s.setReg off w).line = s.line := (rfl)
@[simp] theorem State.setReg_casc2 (s : State) (off : Nat) (w : Word) : (s.setReg off w).casc2 = s.casc2 := (rfl)
@[simp] theorem State.setReg_casc3 (s : State) (off : Nat) (w : Word) : (s.setReg off w).casc3 = s.casc3 := (rfl)
@[simp] theorem State.setReg_order (s : State) (off : Nat) (w : Word) : (s.setReg off w).order = s.order := (rfl)
@[simp] theorem State.setReg_free (s : State) (off : Nat) (w : Word) : (s.setReg off w).free = s.free := (rfl)
@[simp] theorem State.setReg_pending (s : State) (off : Nat) (w : Word) : (s.setReg off w).pending = s.pending := (rfl)

/-! State.setFld. -/

@[simp] theorem State.setFld_mem (s : State) (f : Fld) (v : Nat) : (s.setFld f v).mem = s.mem := (rfl)
@[simp] theorem State.setFld_marks (s : State) (f : Fld) (v : Nat) : (s.setFld f v).marks = s.marks := (rfl)
@[simp] theorem State.setFld_scrub (s : State) (f : Fld) (v : Nat) : (s.setFld f v).scrub = s.scrub := (rfl)
@[simp] theorem State.setFld_time (s : State) (f : Fld) (v : Nat) : (s.setFld f v).time = s.time := (rfl)
@[simp] theorem State.setFld_caps (s : State) (f : Fld) (v : Nat) : (s.setFld f v).caps = s.caps := (rfl)
@[simp] theorem State.setFld_lnch (s : State) (f : Fld) (v : Nat) : (s.setFld f v).lnch = s.lnch := (rfl)
@[simp] theorem State.setFld_ctx (s : State) (f : Fld) (v : Nat) : (s.setFld f v).ctx = s.ctx := (rfl)
@[simp] theorem State.setFld_sems (s : State) (f : Fld) (v : Nat) : (s.setFld f v).sems = s.sems := (rfl)
@[simp] theorem State.setFld_slots (s : State) (f : Fld) (v : Nat) : (s.setFld f v).slots = s.slots := (rfl)
@[simp] theorem State.setFld_ports (s : State) (f : Fld) (v : Nat) : (s.setFld f v).ports = s.ports := (rfl)
@[simp] theorem State.setFld_sya (s : State) (f : Fld) (v : Nat) : (s.setFld f v).sya = s.sya := (rfl)
@[simp] theorem State.setFld_syb (s : State) (f : Fld) (v : Nat) : (s.setFld f v).syb = s.syb := (rfl)
@[simp] theorem State.setFld_syt (s : State) (f : Fld) (v : Nat) : (s.setFld f v).syt = s.syt := (rfl)
@[simp] theorem State.setFld_tempConv (s : State) (f : Fld) (v : Nat) : (s.setFld f v).tempConv = s.tempConv := (rfl)
@[simp] theorem State.setFld_pos (s : State) (f : Fld) (v : Nat) : (s.setFld f v).pos = s.pos := (rfl)
@[simp] theorem State.setFld_palA (s : State) (f : Fld) (v : Nat) : (s.setFld f v).palA = s.palA := (rfl)
@[simp] theorem State.setFld_palB (s : State) (f : Fld) (v : Nat) : (s.setFld f v).palB = s.palB := (rfl)
@[simp] theorem State.setFld_ents (s : State) (f : Fld) (v : Nat) : (s.setFld f v).ents = s.ents := (rfl)
@[simp] theorem State.setFld_lanes (s : State) (f : Fld) (v : Nat) : (s.setFld f v).lanes = s.lanes := (rfl)
@[simp] theorem State.setFld_held (s : State) (f : Fld) (v : Nat) : (s.setFld f v).held = s.held := (rfl)
@[simp] theorem State.setFld_reqs (s : State) (f : Fld) (v : Nat) : (s.setFld f v).reqs = s.reqs := (rfl)
@[simp] theorem State.setFld_rslots (s : State) (f : Fld) (v : Nat) : (s.setFld f v).rslots = s.rslots := (rfl)
@[simp] theorem State.setFld_seqno (s : State) (f : Fld) (v : Nat) : (s.setFld f v).seqno = s.seqno := (rfl)
@[simp] theorem State.setFld_wins (s : State) (f : Fld) (v : Nat) : (s.setFld f v).wins = s.wins := (rfl)
@[simp] theorem State.setFld_ops (s : State) (f : Fld) (v : Nat) : (s.setFld f v).ops = s.ops := (rfl)
@[simp] theorem State.setFld_opNext (s : State) (f : Fld) (v : Nat) : (s.setFld f v).opNext = s.opNext := (rfl)
@[simp] theorem State.setFld_sent (s : State) (f : Fld) (v : Nat) : (s.setFld f v).sent = s.sent := (rfl)
@[simp] theorem State.setFld_accts (s : State) (f : Fld) (v : Nat) : (s.setFld f v).accts = s.accts := (rfl)
@[simp] theorem State.setFld_keys (s : State) (f : Fld) (v : Nat) : (s.setFld f v).keys = s.keys := (rfl)
@[simp] theorem State.setFld_keyData (s : State) (f : Fld) (v : Nat) : (s.setFld f v).keyData = s.keyData := (rfl)
@[simp] theorem State.setFld_aes (s : State) (f : Fld) (v : Nat) : (s.setFld f v).aes = s.aes := (rfl)
@[simp] theorem State.setFld_engs (s : State) (f : Fld) (v : Nat) : (s.setFld f v).engs = s.engs := (rfl)
@[simp] theorem State.setFld_engNext (s : State) (f : Fld) (v : Nat) : (s.setFld f v).engNext = s.engNext := (rfl)
@[simp] theorem State.setFld_mac (s : State) (f : Fld) (v : Nat) : (s.setFld f v).mac = s.mac := (rfl)
@[simp] theorem State.setFld_wkr (s : State) (f : Fld) (v : Nat) : (s.setFld f v).wkr = s.wkr := (rfl)
@[simp] theorem State.setFld_msgQ (s : State) (f : Fld) (v : Nat) : (s.setFld f v).msgQ = s.msgQ := (rfl)
@[simp] theorem State.setFld_msgEn (s : State) (f : Fld) (v : Nat) : (s.setFld f v).msgEn = s.msgEn := (rfl)
@[simp] theorem State.setFld_dma (s : State) (f : Fld) (v : Nat) : (s.setFld f v).dma = s.dma := (rfl)
@[simp] theorem State.setFld_chk (s : State) (f : Fld) (v : Nat) : (s.setFld f v).chk = s.chk := (rfl)
@[simp] theorem State.setFld_cmc (s : State) (f : Fld) (v : Nat) : (s.setFld f v).cmc = s.cmc := (rfl)
@[simp] theorem State.setFld_cmr (s : State) (f : Fld) (v : Nat) : (s.setFld f v).cmr = s.cmr := (rfl)
@[simp] theorem State.setFld_cmrOpen (s : State) (f : Fld) (v : Nat) : (s.setFld f v).cmrOpen = s.cmrOpen := (rfl)
@[simp] theorem State.setFld_pwr (s : State) (f : Fld) (v : Nat) : (s.setFld f v).pwr = s.pwr := (rfl)
@[simp] theorem State.setFld_well (s : State) (f : Fld) (v : Nat) : (s.setFld f v).well = s.well := (rfl)
@[simp] theorem State.setFld_brush (s : State) (f : Fld) (v : Nat) : (s.setFld f v).brush = s.brush := (rfl)
@[simp] theorem State.setFld_pins (s : State) (f : Fld) (v : Nat) : (s.setFld f v).pins = s.pins := (rfl)
@[simp] theorem State.setFld_line (s : State) (f : Fld) (v : Nat) : (s.setFld f v).line = s.line := (rfl)
@[simp] theorem State.setFld_casc2 (s : State) (f : Fld) (v : Nat) : (s.setFld f v).casc2 = s.casc2 := (rfl)
@[simp] theorem State.setFld_casc3 (s : State) (f : Fld) (v : Nat) : (s.setFld f v).casc3 = s.casc3 := (rfl)
@[simp] theorem State.setFld_order (s : State) (f : Fld) (v : Nat) : (s.setFld f v).order = s.order := (rfl)
@[simp] theorem State.setFld_free (s : State) (f : Fld) (v : Nat) : (s.setFld f v).free = s.free := (rfl)
@[simp] theorem State.setFld_pending (s : State) (f : Fld) (v : Nat) : (s.setFld f v).pending = s.pending := (rfl)

/-! State.incSat. -/

@[simp] theorem State.incSat_mem (s : State) (f : Fld) : (s.incSat f).mem = s.mem := (rfl)
@[simp] theorem State.incSat_marks (s : State) (f : Fld) : (s.incSat f).marks = s.marks := (rfl)
@[simp] theorem State.incSat_scrub (s : State) (f : Fld) : (s.incSat f).scrub = s.scrub := (rfl)
@[simp] theorem State.incSat_time (s : State) (f : Fld) : (s.incSat f).time = s.time := (rfl)
@[simp] theorem State.incSat_caps (s : State) (f : Fld) : (s.incSat f).caps = s.caps := (rfl)
@[simp] theorem State.incSat_lnch (s : State) (f : Fld) : (s.incSat f).lnch = s.lnch := (rfl)
@[simp] theorem State.incSat_ctx (s : State) (f : Fld) : (s.incSat f).ctx = s.ctx := (rfl)
@[simp] theorem State.incSat_sems (s : State) (f : Fld) : (s.incSat f).sems = s.sems := (rfl)
@[simp] theorem State.incSat_slots (s : State) (f : Fld) : (s.incSat f).slots = s.slots := (rfl)
@[simp] theorem State.incSat_ports (s : State) (f : Fld) : (s.incSat f).ports = s.ports := (rfl)
@[simp] theorem State.incSat_sya (s : State) (f : Fld) : (s.incSat f).sya = s.sya := (rfl)
@[simp] theorem State.incSat_syb (s : State) (f : Fld) : (s.incSat f).syb = s.syb := (rfl)
@[simp] theorem State.incSat_syt (s : State) (f : Fld) : (s.incSat f).syt = s.syt := (rfl)
@[simp] theorem State.incSat_tempConv (s : State) (f : Fld) : (s.incSat f).tempConv = s.tempConv := (rfl)
@[simp] theorem State.incSat_pos (s : State) (f : Fld) : (s.incSat f).pos = s.pos := (rfl)
@[simp] theorem State.incSat_palA (s : State) (f : Fld) : (s.incSat f).palA = s.palA := (rfl)
@[simp] theorem State.incSat_palB (s : State) (f : Fld) : (s.incSat f).palB = s.palB := (rfl)
@[simp] theorem State.incSat_ents (s : State) (f : Fld) : (s.incSat f).ents = s.ents := (rfl)
@[simp] theorem State.incSat_lanes (s : State) (f : Fld) : (s.incSat f).lanes = s.lanes := (rfl)
@[simp] theorem State.incSat_held (s : State) (f : Fld) : (s.incSat f).held = s.held := (rfl)
@[simp] theorem State.incSat_reqs (s : State) (f : Fld) : (s.incSat f).reqs = s.reqs := (rfl)
@[simp] theorem State.incSat_rslots (s : State) (f : Fld) : (s.incSat f).rslots = s.rslots := (rfl)
@[simp] theorem State.incSat_seqno (s : State) (f : Fld) : (s.incSat f).seqno = s.seqno := (rfl)
@[simp] theorem State.incSat_wins (s : State) (f : Fld) : (s.incSat f).wins = s.wins := (rfl)
@[simp] theorem State.incSat_ops (s : State) (f : Fld) : (s.incSat f).ops = s.ops := (rfl)
@[simp] theorem State.incSat_opNext (s : State) (f : Fld) : (s.incSat f).opNext = s.opNext := (rfl)
@[simp] theorem State.incSat_sent (s : State) (f : Fld) : (s.incSat f).sent = s.sent := (rfl)
@[simp] theorem State.incSat_accts (s : State) (f : Fld) : (s.incSat f).accts = s.accts := (rfl)
@[simp] theorem State.incSat_keys (s : State) (f : Fld) : (s.incSat f).keys = s.keys := (rfl)
@[simp] theorem State.incSat_keyData (s : State) (f : Fld) : (s.incSat f).keyData = s.keyData := (rfl)
@[simp] theorem State.incSat_aes (s : State) (f : Fld) : (s.incSat f).aes = s.aes := (rfl)
@[simp] theorem State.incSat_engs (s : State) (f : Fld) : (s.incSat f).engs = s.engs := (rfl)
@[simp] theorem State.incSat_engNext (s : State) (f : Fld) : (s.incSat f).engNext = s.engNext := (rfl)
@[simp] theorem State.incSat_mac (s : State) (f : Fld) : (s.incSat f).mac = s.mac := (rfl)
@[simp] theorem State.incSat_wkr (s : State) (f : Fld) : (s.incSat f).wkr = s.wkr := (rfl)
@[simp] theorem State.incSat_msgQ (s : State) (f : Fld) : (s.incSat f).msgQ = s.msgQ := (rfl)
@[simp] theorem State.incSat_msgEn (s : State) (f : Fld) : (s.incSat f).msgEn = s.msgEn := (rfl)
@[simp] theorem State.incSat_dma (s : State) (f : Fld) : (s.incSat f).dma = s.dma := (rfl)
@[simp] theorem State.incSat_chk (s : State) (f : Fld) : (s.incSat f).chk = s.chk := (rfl)
@[simp] theorem State.incSat_cmc (s : State) (f : Fld) : (s.incSat f).cmc = s.cmc := (rfl)
@[simp] theorem State.incSat_cmr (s : State) (f : Fld) : (s.incSat f).cmr = s.cmr := (rfl)
@[simp] theorem State.incSat_cmrOpen (s : State) (f : Fld) : (s.incSat f).cmrOpen = s.cmrOpen := (rfl)
@[simp] theorem State.incSat_pwr (s : State) (f : Fld) : (s.incSat f).pwr = s.pwr := (rfl)
@[simp] theorem State.incSat_well (s : State) (f : Fld) : (s.incSat f).well = s.well := (rfl)
@[simp] theorem State.incSat_brush (s : State) (f : Fld) : (s.incSat f).brush = s.brush := (rfl)
@[simp] theorem State.incSat_pins (s : State) (f : Fld) : (s.incSat f).pins = s.pins := (rfl)
@[simp] theorem State.incSat_line (s : State) (f : Fld) : (s.incSat f).line = s.line := (rfl)
@[simp] theorem State.incSat_casc2 (s : State) (f : Fld) : (s.incSat f).casc2 = s.casc2 := (rfl)
@[simp] theorem State.incSat_casc3 (s : State) (f : Fld) : (s.incSat f).casc3 = s.casc3 := (rfl)
@[simp] theorem State.incSat_order (s : State) (f : Fld) : (s.incSat f).order = s.order := (rfl)
@[simp] theorem State.incSat_free (s : State) (f : Fld) : (s.incSat f).free = s.free := (rfl)
@[simp] theorem State.incSat_pending (s : State) (f : Fld) : (s.incSat f).pending = s.pending := (rfl)

/-! State.incMod. -/

@[simp] theorem State.incMod_mem (s : State) (f : Fld) : (s.incMod f).mem = s.mem := (rfl)
@[simp] theorem State.incMod_marks (s : State) (f : Fld) : (s.incMod f).marks = s.marks := (rfl)
@[simp] theorem State.incMod_scrub (s : State) (f : Fld) : (s.incMod f).scrub = s.scrub := (rfl)
@[simp] theorem State.incMod_time (s : State) (f : Fld) : (s.incMod f).time = s.time := (rfl)
@[simp] theorem State.incMod_caps (s : State) (f : Fld) : (s.incMod f).caps = s.caps := (rfl)
@[simp] theorem State.incMod_lnch (s : State) (f : Fld) : (s.incMod f).lnch = s.lnch := (rfl)
@[simp] theorem State.incMod_ctx (s : State) (f : Fld) : (s.incMod f).ctx = s.ctx := (rfl)
@[simp] theorem State.incMod_sems (s : State) (f : Fld) : (s.incMod f).sems = s.sems := (rfl)
@[simp] theorem State.incMod_slots (s : State) (f : Fld) : (s.incMod f).slots = s.slots := (rfl)
@[simp] theorem State.incMod_ports (s : State) (f : Fld) : (s.incMod f).ports = s.ports := (rfl)
@[simp] theorem State.incMod_sya (s : State) (f : Fld) : (s.incMod f).sya = s.sya := (rfl)
@[simp] theorem State.incMod_syb (s : State) (f : Fld) : (s.incMod f).syb = s.syb := (rfl)
@[simp] theorem State.incMod_syt (s : State) (f : Fld) : (s.incMod f).syt = s.syt := (rfl)
@[simp] theorem State.incMod_tempConv (s : State) (f : Fld) : (s.incMod f).tempConv = s.tempConv := (rfl)
@[simp] theorem State.incMod_pos (s : State) (f : Fld) : (s.incMod f).pos = s.pos := (rfl)
@[simp] theorem State.incMod_palA (s : State) (f : Fld) : (s.incMod f).palA = s.palA := (rfl)
@[simp] theorem State.incMod_palB (s : State) (f : Fld) : (s.incMod f).palB = s.palB := (rfl)
@[simp] theorem State.incMod_ents (s : State) (f : Fld) : (s.incMod f).ents = s.ents := (rfl)
@[simp] theorem State.incMod_lanes (s : State) (f : Fld) : (s.incMod f).lanes = s.lanes := (rfl)
@[simp] theorem State.incMod_held (s : State) (f : Fld) : (s.incMod f).held = s.held := (rfl)
@[simp] theorem State.incMod_reqs (s : State) (f : Fld) : (s.incMod f).reqs = s.reqs := (rfl)
@[simp] theorem State.incMod_rslots (s : State) (f : Fld) : (s.incMod f).rslots = s.rslots := (rfl)
@[simp] theorem State.incMod_seqno (s : State) (f : Fld) : (s.incMod f).seqno = s.seqno := (rfl)
@[simp] theorem State.incMod_wins (s : State) (f : Fld) : (s.incMod f).wins = s.wins := (rfl)
@[simp] theorem State.incMod_ops (s : State) (f : Fld) : (s.incMod f).ops = s.ops := (rfl)
@[simp] theorem State.incMod_opNext (s : State) (f : Fld) : (s.incMod f).opNext = s.opNext := (rfl)
@[simp] theorem State.incMod_sent (s : State) (f : Fld) : (s.incMod f).sent = s.sent := (rfl)
@[simp] theorem State.incMod_accts (s : State) (f : Fld) : (s.incMod f).accts = s.accts := (rfl)
@[simp] theorem State.incMod_keys (s : State) (f : Fld) : (s.incMod f).keys = s.keys := (rfl)
@[simp] theorem State.incMod_keyData (s : State) (f : Fld) : (s.incMod f).keyData = s.keyData := (rfl)
@[simp] theorem State.incMod_aes (s : State) (f : Fld) : (s.incMod f).aes = s.aes := (rfl)
@[simp] theorem State.incMod_engs (s : State) (f : Fld) : (s.incMod f).engs = s.engs := (rfl)
@[simp] theorem State.incMod_engNext (s : State) (f : Fld) : (s.incMod f).engNext = s.engNext := (rfl)
@[simp] theorem State.incMod_mac (s : State) (f : Fld) : (s.incMod f).mac = s.mac := (rfl)
@[simp] theorem State.incMod_wkr (s : State) (f : Fld) : (s.incMod f).wkr = s.wkr := (rfl)
@[simp] theorem State.incMod_msgQ (s : State) (f : Fld) : (s.incMod f).msgQ = s.msgQ := (rfl)
@[simp] theorem State.incMod_msgEn (s : State) (f : Fld) : (s.incMod f).msgEn = s.msgEn := (rfl)
@[simp] theorem State.incMod_dma (s : State) (f : Fld) : (s.incMod f).dma = s.dma := (rfl)
@[simp] theorem State.incMod_chk (s : State) (f : Fld) : (s.incMod f).chk = s.chk := (rfl)
@[simp] theorem State.incMod_cmc (s : State) (f : Fld) : (s.incMod f).cmc = s.cmc := (rfl)
@[simp] theorem State.incMod_cmr (s : State) (f : Fld) : (s.incMod f).cmr = s.cmr := (rfl)
@[simp] theorem State.incMod_cmrOpen (s : State) (f : Fld) : (s.incMod f).cmrOpen = s.cmrOpen := (rfl)
@[simp] theorem State.incMod_pwr (s : State) (f : Fld) : (s.incMod f).pwr = s.pwr := (rfl)
@[simp] theorem State.incMod_well (s : State) (f : Fld) : (s.incMod f).well = s.well := (rfl)
@[simp] theorem State.incMod_brush (s : State) (f : Fld) : (s.incMod f).brush = s.brush := (rfl)
@[simp] theorem State.incMod_pins (s : State) (f : Fld) : (s.incMod f).pins = s.pins := (rfl)
@[simp] theorem State.incMod_line (s : State) (f : Fld) : (s.incMod f).line = s.line := (rfl)
@[simp] theorem State.incMod_casc2 (s : State) (f : Fld) : (s.incMod f).casc2 = s.casc2 := (rfl)
@[simp] theorem State.incMod_casc3 (s : State) (f : Fld) : (s.incMod f).casc3 = s.casc3 := (rfl)
@[simp] theorem State.incMod_order (s : State) (f : Fld) : (s.incMod f).order = s.order := (rfl)
@[simp] theorem State.incMod_free (s : State) (f : Fld) : (s.incMod f).free = s.free := (rfl)
@[simp] theorem State.incMod_pending (s : State) (f : Fld) : (s.incMod f).pending = s.pending := (rfl)

/-! State.raise. -/

@[simp] theorem State.raise_mem (s : State) (flag cnt : Fld) : (s.raise flag cnt).mem = s.mem := (rfl)
@[simp] theorem State.raise_marks (s : State) (flag cnt : Fld) : (s.raise flag cnt).marks = s.marks := (rfl)
@[simp] theorem State.raise_scrub (s : State) (flag cnt : Fld) : (s.raise flag cnt).scrub = s.scrub := (rfl)
@[simp] theorem State.raise_time (s : State) (flag cnt : Fld) : (s.raise flag cnt).time = s.time := (rfl)
@[simp] theorem State.raise_caps (s : State) (flag cnt : Fld) : (s.raise flag cnt).caps = s.caps := (rfl)
@[simp] theorem State.raise_lnch (s : State) (flag cnt : Fld) : (s.raise flag cnt).lnch = s.lnch := (rfl)
@[simp] theorem State.raise_ctx (s : State) (flag cnt : Fld) : (s.raise flag cnt).ctx = s.ctx := (rfl)
@[simp] theorem State.raise_sems (s : State) (flag cnt : Fld) : (s.raise flag cnt).sems = s.sems := (rfl)
@[simp] theorem State.raise_slots (s : State) (flag cnt : Fld) : (s.raise flag cnt).slots = s.slots := (rfl)
@[simp] theorem State.raise_ports (s : State) (flag cnt : Fld) : (s.raise flag cnt).ports = s.ports := (rfl)
@[simp] theorem State.raise_sya (s : State) (flag cnt : Fld) : (s.raise flag cnt).sya = s.sya := (rfl)
@[simp] theorem State.raise_syb (s : State) (flag cnt : Fld) : (s.raise flag cnt).syb = s.syb := (rfl)
@[simp] theorem State.raise_syt (s : State) (flag cnt : Fld) : (s.raise flag cnt).syt = s.syt := (rfl)
@[simp] theorem State.raise_tempConv (s : State) (flag cnt : Fld) : (s.raise flag cnt).tempConv = s.tempConv := (rfl)
@[simp] theorem State.raise_pos (s : State) (flag cnt : Fld) : (s.raise flag cnt).pos = s.pos := (rfl)
@[simp] theorem State.raise_palA (s : State) (flag cnt : Fld) : (s.raise flag cnt).palA = s.palA := (rfl)
@[simp] theorem State.raise_palB (s : State) (flag cnt : Fld) : (s.raise flag cnt).palB = s.palB := (rfl)
@[simp] theorem State.raise_ents (s : State) (flag cnt : Fld) : (s.raise flag cnt).ents = s.ents := (rfl)
@[simp] theorem State.raise_lanes (s : State) (flag cnt : Fld) : (s.raise flag cnt).lanes = s.lanes := (rfl)
@[simp] theorem State.raise_held (s : State) (flag cnt : Fld) : (s.raise flag cnt).held = s.held := (rfl)
@[simp] theorem State.raise_reqs (s : State) (flag cnt : Fld) : (s.raise flag cnt).reqs = s.reqs := (rfl)
@[simp] theorem State.raise_rslots (s : State) (flag cnt : Fld) : (s.raise flag cnt).rslots = s.rslots := (rfl)
@[simp] theorem State.raise_seqno (s : State) (flag cnt : Fld) : (s.raise flag cnt).seqno = s.seqno := (rfl)
@[simp] theorem State.raise_wins (s : State) (flag cnt : Fld) : (s.raise flag cnt).wins = s.wins := (rfl)
@[simp] theorem State.raise_ops (s : State) (flag cnt : Fld) : (s.raise flag cnt).ops = s.ops := (rfl)
@[simp] theorem State.raise_opNext (s : State) (flag cnt : Fld) : (s.raise flag cnt).opNext = s.opNext := (rfl)
@[simp] theorem State.raise_sent (s : State) (flag cnt : Fld) : (s.raise flag cnt).sent = s.sent := (rfl)
@[simp] theorem State.raise_accts (s : State) (flag cnt : Fld) : (s.raise flag cnt).accts = s.accts := (rfl)
@[simp] theorem State.raise_keys (s : State) (flag cnt : Fld) : (s.raise flag cnt).keys = s.keys := (rfl)
@[simp] theorem State.raise_keyData (s : State) (flag cnt : Fld) : (s.raise flag cnt).keyData = s.keyData := (rfl)
@[simp] theorem State.raise_aes (s : State) (flag cnt : Fld) : (s.raise flag cnt).aes = s.aes := (rfl)
@[simp] theorem State.raise_engs (s : State) (flag cnt : Fld) : (s.raise flag cnt).engs = s.engs := (rfl)
@[simp] theorem State.raise_engNext (s : State) (flag cnt : Fld) : (s.raise flag cnt).engNext = s.engNext := (rfl)
@[simp] theorem State.raise_mac (s : State) (flag cnt : Fld) : (s.raise flag cnt).mac = s.mac := (rfl)
@[simp] theorem State.raise_wkr (s : State) (flag cnt : Fld) : (s.raise flag cnt).wkr = s.wkr := (rfl)
@[simp] theorem State.raise_msgQ (s : State) (flag cnt : Fld) : (s.raise flag cnt).msgQ = s.msgQ := (rfl)
@[simp] theorem State.raise_msgEn (s : State) (flag cnt : Fld) : (s.raise flag cnt).msgEn = s.msgEn := (rfl)
@[simp] theorem State.raise_dma (s : State) (flag cnt : Fld) : (s.raise flag cnt).dma = s.dma := (rfl)
@[simp] theorem State.raise_chk (s : State) (flag cnt : Fld) : (s.raise flag cnt).chk = s.chk := (rfl)
@[simp] theorem State.raise_cmc (s : State) (flag cnt : Fld) : (s.raise flag cnt).cmc = s.cmc := (rfl)
@[simp] theorem State.raise_cmr (s : State) (flag cnt : Fld) : (s.raise flag cnt).cmr = s.cmr := (rfl)
@[simp] theorem State.raise_cmrOpen (s : State) (flag cnt : Fld) : (s.raise flag cnt).cmrOpen = s.cmrOpen := (rfl)
@[simp] theorem State.raise_pwr (s : State) (flag cnt : Fld) : (s.raise flag cnt).pwr = s.pwr := (rfl)
@[simp] theorem State.raise_well (s : State) (flag cnt : Fld) : (s.raise flag cnt).well = s.well := (rfl)
@[simp] theorem State.raise_brush (s : State) (flag cnt : Fld) : (s.raise flag cnt).brush = s.brush := (rfl)
@[simp] theorem State.raise_pins (s : State) (flag cnt : Fld) : (s.raise flag cnt).pins = s.pins := (rfl)
@[simp] theorem State.raise_line (s : State) (flag cnt : Fld) : (s.raise flag cnt).line = s.line := (rfl)
@[simp] theorem State.raise_casc2 (s : State) (flag cnt : Fld) : (s.raise flag cnt).casc2 = s.casc2 := (rfl)
@[simp] theorem State.raise_casc3 (s : State) (flag cnt : Fld) : (s.raise flag cnt).casc3 = s.casc3 := (rfl)
@[simp] theorem State.raise_order (s : State) (flag cnt : Fld) : (s.raise flag cnt).order = s.order := (rfl)
@[simp] theorem State.raise_free (s : State) (flag cnt : Fld) : (s.raise flag cnt).free = s.free := (rfl)
@[simp] theorem State.raise_pending (s : State) (flag cnt : Fld) : (s.raise flag cnt).pending = s.pending := (rfl)

/-! State.moveTo. -/

@[simp] theorem State.moveTo_regs (s : State) (t : Nat) : (s.moveTo t).regs = s.regs := (rfl)
@[simp] theorem State.moveTo_mem (s : State) (t : Nat) : (s.moveTo t).mem = s.mem := (rfl)
@[simp] theorem State.moveTo_marks (s : State) (t : Nat) : (s.moveTo t).marks = s.marks := (rfl)
@[simp] theorem State.moveTo_scrub (s : State) (t : Nat) : (s.moveTo t).scrub = s.scrub := (rfl)
@[simp] theorem State.moveTo_caps (s : State) (t : Nat) : (s.moveTo t).caps = s.caps := (rfl)
@[simp] theorem State.moveTo_lnch (s : State) (t : Nat) : (s.moveTo t).lnch = s.lnch := (rfl)
@[simp] theorem State.moveTo_ctx (s : State) (t : Nat) : (s.moveTo t).ctx = s.ctx := (rfl)
@[simp] theorem State.moveTo_sems (s : State) (t : Nat) : (s.moveTo t).sems = s.sems := (rfl)
@[simp] theorem State.moveTo_slots (s : State) (t : Nat) : (s.moveTo t).slots = s.slots := (rfl)
@[simp] theorem State.moveTo_ports (s : State) (t : Nat) : (s.moveTo t).ports = s.ports := (rfl)
@[simp] theorem State.moveTo_sya (s : State) (t : Nat) : (s.moveTo t).sya = s.sya := (rfl)
@[simp] theorem State.moveTo_syb (s : State) (t : Nat) : (s.moveTo t).syb = s.syb := (rfl)
@[simp] theorem State.moveTo_syt (s : State) (t : Nat) : (s.moveTo t).syt = s.syt := (rfl)
@[simp] theorem State.moveTo_tempConv (s : State) (t : Nat) : (s.moveTo t).tempConv = s.tempConv := (rfl)
@[simp] theorem State.moveTo_pos (s : State) (t : Nat) : (s.moveTo t).pos = s.pos := (rfl)
@[simp] theorem State.moveTo_palA (s : State) (t : Nat) : (s.moveTo t).palA = s.palA := (rfl)
@[simp] theorem State.moveTo_palB (s : State) (t : Nat) : (s.moveTo t).palB = s.palB := (rfl)
@[simp] theorem State.moveTo_ents (s : State) (t : Nat) : (s.moveTo t).ents = s.ents := (rfl)
@[simp] theorem State.moveTo_lanes (s : State) (t : Nat) : (s.moveTo t).lanes = s.lanes := (rfl)
@[simp] theorem State.moveTo_held (s : State) (t : Nat) : (s.moveTo t).held = s.held := (rfl)
@[simp] theorem State.moveTo_reqs (s : State) (t : Nat) : (s.moveTo t).reqs = s.reqs := (rfl)
@[simp] theorem State.moveTo_rslots (s : State) (t : Nat) : (s.moveTo t).rslots = s.rslots := (rfl)
@[simp] theorem State.moveTo_seqno (s : State) (t : Nat) : (s.moveTo t).seqno = s.seqno := (rfl)
@[simp] theorem State.moveTo_wins (s : State) (t : Nat) : (s.moveTo t).wins = s.wins := (rfl)
@[simp] theorem State.moveTo_ops (s : State) (t : Nat) : (s.moveTo t).ops = s.ops := (rfl)
@[simp] theorem State.moveTo_opNext (s : State) (t : Nat) : (s.moveTo t).opNext = s.opNext := (rfl)
@[simp] theorem State.moveTo_sent (s : State) (t : Nat) : (s.moveTo t).sent = s.sent := (rfl)
@[simp] theorem State.moveTo_accts (s : State) (t : Nat) : (s.moveTo t).accts = s.accts := (rfl)
@[simp] theorem State.moveTo_keys (s : State) (t : Nat) : (s.moveTo t).keys = s.keys := (rfl)
@[simp] theorem State.moveTo_keyData (s : State) (t : Nat) : (s.moveTo t).keyData = s.keyData := (rfl)
@[simp] theorem State.moveTo_aes (s : State) (t : Nat) : (s.moveTo t).aes = s.aes := (rfl)
@[simp] theorem State.moveTo_engs (s : State) (t : Nat) : (s.moveTo t).engs = s.engs := (rfl)
@[simp] theorem State.moveTo_engNext (s : State) (t : Nat) : (s.moveTo t).engNext = s.engNext := (rfl)
@[simp] theorem State.moveTo_mac (s : State) (t : Nat) : (s.moveTo t).mac = s.mac := (rfl)
@[simp] theorem State.moveTo_wkr (s : State) (t : Nat) : (s.moveTo t).wkr = s.wkr := (rfl)
@[simp] theorem State.moveTo_msgQ (s : State) (t : Nat) : (s.moveTo t).msgQ = s.msgQ := (rfl)
@[simp] theorem State.moveTo_msgEn (s : State) (t : Nat) : (s.moveTo t).msgEn = s.msgEn := (rfl)
@[simp] theorem State.moveTo_dma (s : State) (t : Nat) : (s.moveTo t).dma = s.dma := (rfl)
@[simp] theorem State.moveTo_chk (s : State) (t : Nat) : (s.moveTo t).chk = s.chk := (rfl)
@[simp] theorem State.moveTo_cmc (s : State) (t : Nat) : (s.moveTo t).cmc = s.cmc := (rfl)
@[simp] theorem State.moveTo_cmr (s : State) (t : Nat) : (s.moveTo t).cmr = s.cmr := (rfl)
@[simp] theorem State.moveTo_cmrOpen (s : State) (t : Nat) : (s.moveTo t).cmrOpen = s.cmrOpen := (rfl)
@[simp] theorem State.moveTo_pwr (s : State) (t : Nat) : (s.moveTo t).pwr = s.pwr := (rfl)
@[simp] theorem State.moveTo_well (s : State) (t : Nat) : (s.moveTo t).well = s.well := (rfl)
@[simp] theorem State.moveTo_brush (s : State) (t : Nat) : (s.moveTo t).brush = s.brush := (rfl)
@[simp] theorem State.moveTo_pins (s : State) (t : Nat) : (s.moveTo t).pins = s.pins := (rfl)
@[simp] theorem State.moveTo_line (s : State) (t : Nat) : (s.moveTo t).line = s.line := (rfl)
@[simp] theorem State.moveTo_casc2 (s : State) (t : Nat) : (s.moveTo t).casc2 = s.casc2 := (rfl)
@[simp] theorem State.moveTo_casc3 (s : State) (t : Nat) : (s.moveTo t).casc3 = s.casc3 := (rfl)
@[simp] theorem State.moveTo_order (s : State) (t : Nat) : (s.moveTo t).order = s.order := (rfl)
@[simp] theorem State.moveTo_free (s : State) (t : Nat) : (s.moveTo t).free = s.free := (rfl)
@[simp] theorem State.moveTo_pending (s : State) (t : Nat) : (s.moveTo t).pending = s.pending := (rfl)

/-! State.draw. -/

@[simp] theorem State.draw_regs (s : State) : (s.draw).regs = s.regs := (rfl)
@[simp] theorem State.draw_mem (s : State) : (s.draw).mem = s.mem := (rfl)
@[simp] theorem State.draw_marks (s : State) : (s.draw).marks = s.marks := (rfl)
@[simp] theorem State.draw_scrub (s : State) : (s.draw).scrub = s.scrub := (rfl)
@[simp] theorem State.draw_time (s : State) : (s.draw).time = s.time := (rfl)
@[simp] theorem State.draw_caps (s : State) : (s.draw).caps = s.caps := (rfl)
@[simp] theorem State.draw_lnch (s : State) : (s.draw).lnch = s.lnch := (rfl)
@[simp] theorem State.draw_ctx (s : State) : (s.draw).ctx = s.ctx := (rfl)
@[simp] theorem State.draw_sems (s : State) : (s.draw).sems = s.sems := (rfl)
@[simp] theorem State.draw_slots (s : State) : (s.draw).slots = s.slots := (rfl)
@[simp] theorem State.draw_ports (s : State) : (s.draw).ports = s.ports := (rfl)
@[simp] theorem State.draw_sya (s : State) : (s.draw).sya = s.sya := (rfl)
@[simp] theorem State.draw_syb (s : State) : (s.draw).syb = s.syb := (rfl)
@[simp] theorem State.draw_syt (s : State) : (s.draw).syt = s.syt := (rfl)
@[simp] theorem State.draw_tempConv (s : State) : (s.draw).tempConv = s.tempConv := (rfl)
@[simp] theorem State.draw_pos (s : State) : (s.draw).pos = s.pos := (rfl)
@[simp] theorem State.draw_palA (s : State) : (s.draw).palA = s.palA := (rfl)
@[simp] theorem State.draw_palB (s : State) : (s.draw).palB = s.palB := (rfl)
@[simp] theorem State.draw_ents (s : State) : (s.draw).ents = s.ents := (rfl)
@[simp] theorem State.draw_lanes (s : State) : (s.draw).lanes = s.lanes := (rfl)
@[simp] theorem State.draw_held (s : State) : (s.draw).held = s.held := (rfl)
@[simp] theorem State.draw_reqs (s : State) : (s.draw).reqs = s.reqs := (rfl)
@[simp] theorem State.draw_rslots (s : State) : (s.draw).rslots = s.rslots := (rfl)
@[simp] theorem State.draw_seqno (s : State) : (s.draw).seqno = s.seqno := (rfl)
@[simp] theorem State.draw_wins (s : State) : (s.draw).wins = s.wins := (rfl)
@[simp] theorem State.draw_ops (s : State) : (s.draw).ops = s.ops := (rfl)
@[simp] theorem State.draw_opNext (s : State) : (s.draw).opNext = s.opNext := (rfl)
@[simp] theorem State.draw_sent (s : State) : (s.draw).sent = s.sent := (rfl)
@[simp] theorem State.draw_accts (s : State) : (s.draw).accts = s.accts := (rfl)
@[simp] theorem State.draw_keys (s : State) : (s.draw).keys = s.keys := (rfl)
@[simp] theorem State.draw_keyData (s : State) : (s.draw).keyData = s.keyData := (rfl)
@[simp] theorem State.draw_aes (s : State) : (s.draw).aes = s.aes := (rfl)
@[simp] theorem State.draw_engs (s : State) : (s.draw).engs = s.engs := (rfl)
@[simp] theorem State.draw_engNext (s : State) : (s.draw).engNext = s.engNext := (rfl)
@[simp] theorem State.draw_mac (s : State) : (s.draw).mac = s.mac := (rfl)
@[simp] theorem State.draw_wkr (s : State) : (s.draw).wkr = s.wkr := (rfl)
@[simp] theorem State.draw_msgQ (s : State) : (s.draw).msgQ = s.msgQ := (rfl)
@[simp] theorem State.draw_msgEn (s : State) : (s.draw).msgEn = s.msgEn := (rfl)
@[simp] theorem State.draw_dma (s : State) : (s.draw).dma = s.dma := (rfl)
@[simp] theorem State.draw_chk (s : State) : (s.draw).chk = s.chk := (rfl)
@[simp] theorem State.draw_cmc (s : State) : (s.draw).cmc = s.cmc := (rfl)
@[simp] theorem State.draw_cmr (s : State) : (s.draw).cmr = s.cmr := (rfl)
@[simp] theorem State.draw_cmrOpen (s : State) : (s.draw).cmrOpen = s.cmrOpen := (rfl)
@[simp] theorem State.draw_pwr (s : State) : (s.draw).pwr = s.pwr := (rfl)
@[simp] theorem State.draw_well (s : State) : (s.draw).well = s.well := (rfl)
@[simp] theorem State.draw_brush (s : State) : (s.draw).brush = s.brush := (rfl)
@[simp] theorem State.draw_pins (s : State) : (s.draw).pins = s.pins := (rfl)
@[simp] theorem State.draw_line (s : State) : (s.draw).line = s.line := (rfl)
@[simp] theorem State.draw_casc2 (s : State) : (s.draw).casc2 = s.casc2 := (rfl)
@[simp] theorem State.draw_casc3 (s : State) : (s.draw).casc3 = s.casc3 := (rfl)
@[simp] theorem State.draw_order (s : State) : (s.draw).order = s.order := (rfl)
@[simp] theorem State.draw_pending (s : State) : (s.draw).pending = s.pending := (rfl)

/-! State.putByte. -/

@[simp] theorem State.putByte_regs (s : State) (a : Nat) (b : Byte) : (s.putByte a b).regs = s.regs := (rfl)
@[simp] theorem State.putByte_marks (s : State) (a : Nat) (b : Byte) : (s.putByte a b).marks = s.marks := (rfl)
@[simp] theorem State.putByte_scrub (s : State) (a : Nat) (b : Byte) : (s.putByte a b).scrub = s.scrub := (rfl)
@[simp] theorem State.putByte_time (s : State) (a : Nat) (b : Byte) : (s.putByte a b).time = s.time := (rfl)
@[simp] theorem State.putByte_caps (s : State) (a : Nat) (b : Byte) : (s.putByte a b).caps = s.caps := (rfl)
@[simp] theorem State.putByte_lnch (s : State) (a : Nat) (b : Byte) : (s.putByte a b).lnch = s.lnch := (rfl)
@[simp] theorem State.putByte_ctx (s : State) (a : Nat) (b : Byte) : (s.putByte a b).ctx = s.ctx := (rfl)
@[simp] theorem State.putByte_sems (s : State) (a : Nat) (b : Byte) : (s.putByte a b).sems = s.sems := (rfl)
@[simp] theorem State.putByte_slots (s : State) (a : Nat) (b : Byte) : (s.putByte a b).slots = s.slots := (rfl)
@[simp] theorem State.putByte_ports (s : State) (a : Nat) (b : Byte) : (s.putByte a b).ports = s.ports := (rfl)
@[simp] theorem State.putByte_sya (s : State) (a : Nat) (b : Byte) : (s.putByte a b).sya = s.sya := (rfl)
@[simp] theorem State.putByte_syb (s : State) (a : Nat) (b : Byte) : (s.putByte a b).syb = s.syb := (rfl)
@[simp] theorem State.putByte_syt (s : State) (a : Nat) (b : Byte) : (s.putByte a b).syt = s.syt := (rfl)
@[simp] theorem State.putByte_tempConv (s : State) (a : Nat) (b : Byte) : (s.putByte a b).tempConv = s.tempConv := (rfl)
@[simp] theorem State.putByte_pos (s : State) (a : Nat) (b : Byte) : (s.putByte a b).pos = s.pos := (rfl)
@[simp] theorem State.putByte_palA (s : State) (a : Nat) (b : Byte) : (s.putByte a b).palA = s.palA := (rfl)
@[simp] theorem State.putByte_palB (s : State) (a : Nat) (b : Byte) : (s.putByte a b).palB = s.palB := (rfl)
@[simp] theorem State.putByte_ents (s : State) (a : Nat) (b : Byte) : (s.putByte a b).ents = s.ents := (rfl)
@[simp] theorem State.putByte_lanes (s : State) (a : Nat) (b : Byte) : (s.putByte a b).lanes = s.lanes := (rfl)
@[simp] theorem State.putByte_held (s : State) (a : Nat) (b : Byte) : (s.putByte a b).held = s.held := (rfl)
@[simp] theorem State.putByte_reqs (s : State) (a : Nat) (b : Byte) : (s.putByte a b).reqs = s.reqs := (rfl)
@[simp] theorem State.putByte_rslots (s : State) (a : Nat) (b : Byte) : (s.putByte a b).rslots = s.rslots := (rfl)
@[simp] theorem State.putByte_seqno (s : State) (a : Nat) (b : Byte) : (s.putByte a b).seqno = s.seqno := (rfl)
@[simp] theorem State.putByte_wins (s : State) (a : Nat) (b : Byte) : (s.putByte a b).wins = s.wins := (rfl)
@[simp] theorem State.putByte_ops (s : State) (a : Nat) (b : Byte) : (s.putByte a b).ops = s.ops := (rfl)
@[simp] theorem State.putByte_opNext (s : State) (a : Nat) (b : Byte) : (s.putByte a b).opNext = s.opNext := (rfl)
@[simp] theorem State.putByte_sent (s : State) (a : Nat) (b : Byte) : (s.putByte a b).sent = s.sent := (rfl)
@[simp] theorem State.putByte_accts (s : State) (a : Nat) (b : Byte) : (s.putByte a b).accts = s.accts := (rfl)
@[simp] theorem State.putByte_keys (s : State) (a : Nat) (b : Byte) : (s.putByte a b).keys = s.keys := (rfl)
@[simp] theorem State.putByte_keyData (s : State) (a : Nat) (b : Byte) : (s.putByte a b).keyData = s.keyData := (rfl)
@[simp] theorem State.putByte_aes (s : State) (a : Nat) (b : Byte) : (s.putByte a b).aes = s.aes := (rfl)
@[simp] theorem State.putByte_engs (s : State) (a : Nat) (b : Byte) : (s.putByte a b).engs = s.engs := (rfl)
@[simp] theorem State.putByte_engNext (s : State) (a : Nat) (b : Byte) : (s.putByte a b).engNext = s.engNext := (rfl)
@[simp] theorem State.putByte_mac (s : State) (a : Nat) (b : Byte) : (s.putByte a b).mac = s.mac := (rfl)
@[simp] theorem State.putByte_wkr (s : State) (a : Nat) (b : Byte) : (s.putByte a b).wkr = s.wkr := (rfl)
@[simp] theorem State.putByte_msgQ (s : State) (a : Nat) (b : Byte) : (s.putByte a b).msgQ = s.msgQ := (rfl)
@[simp] theorem State.putByte_msgEn (s : State) (a : Nat) (b : Byte) : (s.putByte a b).msgEn = s.msgEn := (rfl)
@[simp] theorem State.putByte_dma (s : State) (a : Nat) (b : Byte) : (s.putByte a b).dma = s.dma := (rfl)
@[simp] theorem State.putByte_chk (s : State) (a : Nat) (b : Byte) : (s.putByte a b).chk = s.chk := (rfl)
@[simp] theorem State.putByte_cmc (s : State) (a : Nat) (b : Byte) : (s.putByte a b).cmc = s.cmc := (rfl)
@[simp] theorem State.putByte_cmr (s : State) (a : Nat) (b : Byte) : (s.putByte a b).cmr = s.cmr := (rfl)
@[simp] theorem State.putByte_cmrOpen (s : State) (a : Nat) (b : Byte) : (s.putByte a b).cmrOpen = s.cmrOpen := (rfl)
@[simp] theorem State.putByte_pwr (s : State) (a : Nat) (b : Byte) : (s.putByte a b).pwr = s.pwr := (rfl)
@[simp] theorem State.putByte_well (s : State) (a : Nat) (b : Byte) : (s.putByte a b).well = s.well := (rfl)
@[simp] theorem State.putByte_brush (s : State) (a : Nat) (b : Byte) : (s.putByte a b).brush = s.brush := (rfl)
@[simp] theorem State.putByte_pins (s : State) (a : Nat) (b : Byte) : (s.putByte a b).pins = s.pins := (rfl)
@[simp] theorem State.putByte_line (s : State) (a : Nat) (b : Byte) : (s.putByte a b).line = s.line := (rfl)
@[simp] theorem State.putByte_casc2 (s : State) (a : Nat) (b : Byte) : (s.putByte a b).casc2 = s.casc2 := (rfl)
@[simp] theorem State.putByte_casc3 (s : State) (a : Nat) (b : Byte) : (s.putByte a b).casc3 = s.casc3 := (rfl)
@[simp] theorem State.putByte_order (s : State) (a : Nat) (b : Byte) : (s.putByte a b).order = s.order := (rfl)
@[simp] theorem State.putByte_free (s : State) (a : Nat) (b : Byte) : (s.putByte a b).free = s.free := (rfl)
@[simp] theorem State.putByte_pending (s : State) (a : Nat) (b : Byte) : (s.putByte a b).pending = s.pending := (rfl)

/-! State.setMark. -/

@[simp] theorem State.setMark_regs (s : State) (w : Nat) (m : Mark) : (s.setMark w m).regs = s.regs := (rfl)
@[simp] theorem State.setMark_mem (s : State) (w : Nat) (m : Mark) : (s.setMark w m).mem = s.mem := (rfl)
@[simp] theorem State.setMark_time (s : State) (w : Nat) (m : Mark) : (s.setMark w m).time = s.time := (rfl)
@[simp] theorem State.setMark_caps (s : State) (w : Nat) (m : Mark) : (s.setMark w m).caps = s.caps := (rfl)
@[simp] theorem State.setMark_lnch (s : State) (w : Nat) (m : Mark) : (s.setMark w m).lnch = s.lnch := (rfl)
@[simp] theorem State.setMark_ctx (s : State) (w : Nat) (m : Mark) : (s.setMark w m).ctx = s.ctx := (rfl)
@[simp] theorem State.setMark_sems (s : State) (w : Nat) (m : Mark) : (s.setMark w m).sems = s.sems := (rfl)
@[simp] theorem State.setMark_slots (s : State) (w : Nat) (m : Mark) : (s.setMark w m).slots = s.slots := (rfl)
@[simp] theorem State.setMark_ports (s : State) (w : Nat) (m : Mark) : (s.setMark w m).ports = s.ports := (rfl)
@[simp] theorem State.setMark_sya (s : State) (w : Nat) (m : Mark) : (s.setMark w m).sya = s.sya := (rfl)
@[simp] theorem State.setMark_syb (s : State) (w : Nat) (m : Mark) : (s.setMark w m).syb = s.syb := (rfl)
@[simp] theorem State.setMark_syt (s : State) (w : Nat) (m : Mark) : (s.setMark w m).syt = s.syt := (rfl)
@[simp] theorem State.setMark_tempConv (s : State) (w : Nat) (m : Mark) : (s.setMark w m).tempConv = s.tempConv := (rfl)
@[simp] theorem State.setMark_pos (s : State) (w : Nat) (m : Mark) : (s.setMark w m).pos = s.pos := (rfl)
@[simp] theorem State.setMark_palA (s : State) (w : Nat) (m : Mark) : (s.setMark w m).palA = s.palA := (rfl)
@[simp] theorem State.setMark_palB (s : State) (w : Nat) (m : Mark) : (s.setMark w m).palB = s.palB := (rfl)
@[simp] theorem State.setMark_ents (s : State) (w : Nat) (m : Mark) : (s.setMark w m).ents = s.ents := (rfl)
@[simp] theorem State.setMark_lanes (s : State) (w : Nat) (m : Mark) : (s.setMark w m).lanes = s.lanes := (rfl)
@[simp] theorem State.setMark_held (s : State) (w : Nat) (m : Mark) : (s.setMark w m).held = s.held := (rfl)
@[simp] theorem State.setMark_reqs (s : State) (w : Nat) (m : Mark) : (s.setMark w m).reqs = s.reqs := (rfl)
@[simp] theorem State.setMark_rslots (s : State) (w : Nat) (m : Mark) : (s.setMark w m).rslots = s.rslots := (rfl)
@[simp] theorem State.setMark_seqno (s : State) (w : Nat) (m : Mark) : (s.setMark w m).seqno = s.seqno := (rfl)
@[simp] theorem State.setMark_wins (s : State) (w : Nat) (m : Mark) : (s.setMark w m).wins = s.wins := (rfl)
@[simp] theorem State.setMark_ops (s : State) (w : Nat) (m : Mark) : (s.setMark w m).ops = s.ops := (rfl)
@[simp] theorem State.setMark_opNext (s : State) (w : Nat) (m : Mark) : (s.setMark w m).opNext = s.opNext := (rfl)
@[simp] theorem State.setMark_sent (s : State) (w : Nat) (m : Mark) : (s.setMark w m).sent = s.sent := (rfl)
@[simp] theorem State.setMark_accts (s : State) (w : Nat) (m : Mark) : (s.setMark w m).accts = s.accts := (rfl)
@[simp] theorem State.setMark_keys (s : State) (w : Nat) (m : Mark) : (s.setMark w m).keys = s.keys := (rfl)
@[simp] theorem State.setMark_keyData (s : State) (w : Nat) (m : Mark) : (s.setMark w m).keyData = s.keyData := (rfl)
@[simp] theorem State.setMark_aes (s : State) (w : Nat) (m : Mark) : (s.setMark w m).aes = s.aes := (rfl)
@[simp] theorem State.setMark_engs (s : State) (w : Nat) (m : Mark) : (s.setMark w m).engs = s.engs := (rfl)
@[simp] theorem State.setMark_engNext (s : State) (w : Nat) (m : Mark) : (s.setMark w m).engNext = s.engNext := (rfl)
@[simp] theorem State.setMark_mac (s : State) (w : Nat) (m : Mark) : (s.setMark w m).mac = s.mac := (rfl)
@[simp] theorem State.setMark_wkr (s : State) (w : Nat) (m : Mark) : (s.setMark w m).wkr = s.wkr := (rfl)
@[simp] theorem State.setMark_msgQ (s : State) (w : Nat) (m : Mark) : (s.setMark w m).msgQ = s.msgQ := (rfl)
@[simp] theorem State.setMark_msgEn (s : State) (w : Nat) (m : Mark) : (s.setMark w m).msgEn = s.msgEn := (rfl)
@[simp] theorem State.setMark_dma (s : State) (w : Nat) (m : Mark) : (s.setMark w m).dma = s.dma := (rfl)
@[simp] theorem State.setMark_chk (s : State) (w : Nat) (m : Mark) : (s.setMark w m).chk = s.chk := (rfl)
@[simp] theorem State.setMark_cmc (s : State) (w : Nat) (m : Mark) : (s.setMark w m).cmc = s.cmc := (rfl)
@[simp] theorem State.setMark_cmr (s : State) (w : Nat) (m : Mark) : (s.setMark w m).cmr = s.cmr := (rfl)
@[simp] theorem State.setMark_cmrOpen (s : State) (w : Nat) (m : Mark) : (s.setMark w m).cmrOpen = s.cmrOpen := (rfl)
@[simp] theorem State.setMark_pwr (s : State) (w : Nat) (m : Mark) : (s.setMark w m).pwr = s.pwr := (rfl)
@[simp] theorem State.setMark_well (s : State) (w : Nat) (m : Mark) : (s.setMark w m).well = s.well := (rfl)
@[simp] theorem State.setMark_brush (s : State) (w : Nat) (m : Mark) : (s.setMark w m).brush = s.brush := (rfl)
@[simp] theorem State.setMark_pins (s : State) (w : Nat) (m : Mark) : (s.setMark w m).pins = s.pins := (rfl)
@[simp] theorem State.setMark_line (s : State) (w : Nat) (m : Mark) : (s.setMark w m).line = s.line := (rfl)
@[simp] theorem State.setMark_casc2 (s : State) (w : Nat) (m : Mark) : (s.setMark w m).casc2 = s.casc2 := (rfl)
@[simp] theorem State.setMark_casc3 (s : State) (w : Nat) (m : Mark) : (s.setMark w m).casc3 = s.casc3 := (rfl)
@[simp] theorem State.setMark_order (s : State) (w : Nat) (m : Mark) : (s.setMark w m).order = s.order := (rfl)
@[simp] theorem State.setMark_free (s : State) (w : Nat) (m : Mark) : (s.setMark w m).free = s.free := (rfl)
@[simp] theorem State.setMark_pending (s : State) (w : Nat) (m : Mark) : (s.setMark w m).pending = s.pending := (rfl)

/-! State.setPort. -/

@[simp] theorem State.setPort_regs (s : State) (p : Nat) (x : Port) : (s.setPort p x).regs = s.regs := (rfl)
@[simp] theorem State.setPort_mem (s : State) (p : Nat) (x : Port) : (s.setPort p x).mem = s.mem := (rfl)
@[simp] theorem State.setPort_marks (s : State) (p : Nat) (x : Port) : (s.setPort p x).marks = s.marks := (rfl)
@[simp] theorem State.setPort_scrub (s : State) (p : Nat) (x : Port) : (s.setPort p x).scrub = s.scrub := (rfl)
@[simp] theorem State.setPort_time (s : State) (p : Nat) (x : Port) : (s.setPort p x).time = s.time := (rfl)
@[simp] theorem State.setPort_caps (s : State) (p : Nat) (x : Port) : (s.setPort p x).caps = s.caps := (rfl)
@[simp] theorem State.setPort_lnch (s : State) (p : Nat) (x : Port) : (s.setPort p x).lnch = s.lnch := (rfl)
@[simp] theorem State.setPort_ctx (s : State) (p : Nat) (x : Port) : (s.setPort p x).ctx = s.ctx := (rfl)
@[simp] theorem State.setPort_sems (s : State) (p : Nat) (x : Port) : (s.setPort p x).sems = s.sems := (rfl)
@[simp] theorem State.setPort_slots (s : State) (p : Nat) (x : Port) : (s.setPort p x).slots = s.slots := (rfl)
@[simp] theorem State.setPort_sya (s : State) (p : Nat) (x : Port) : (s.setPort p x).sya = s.sya := (rfl)
@[simp] theorem State.setPort_syb (s : State) (p : Nat) (x : Port) : (s.setPort p x).syb = s.syb := (rfl)
@[simp] theorem State.setPort_syt (s : State) (p : Nat) (x : Port) : (s.setPort p x).syt = s.syt := (rfl)
@[simp] theorem State.setPort_tempConv (s : State) (p : Nat) (x : Port) : (s.setPort p x).tempConv = s.tempConv := (rfl)
@[simp] theorem State.setPort_pos (s : State) (p : Nat) (x : Port) : (s.setPort p x).pos = s.pos := (rfl)
@[simp] theorem State.setPort_palA (s : State) (p : Nat) (x : Port) : (s.setPort p x).palA = s.palA := (rfl)
@[simp] theorem State.setPort_palB (s : State) (p : Nat) (x : Port) : (s.setPort p x).palB = s.palB := (rfl)
@[simp] theorem State.setPort_ents (s : State) (p : Nat) (x : Port) : (s.setPort p x).ents = s.ents := (rfl)
@[simp] theorem State.setPort_lanes (s : State) (p : Nat) (x : Port) : (s.setPort p x).lanes = s.lanes := (rfl)
@[simp] theorem State.setPort_held (s : State) (p : Nat) (x : Port) : (s.setPort p x).held = s.held := (rfl)
@[simp] theorem State.setPort_reqs (s : State) (p : Nat) (x : Port) : (s.setPort p x).reqs = s.reqs := (rfl)
@[simp] theorem State.setPort_rslots (s : State) (p : Nat) (x : Port) : (s.setPort p x).rslots = s.rslots := (rfl)
@[simp] theorem State.setPort_seqno (s : State) (p : Nat) (x : Port) : (s.setPort p x).seqno = s.seqno := (rfl)
@[simp] theorem State.setPort_wins (s : State) (p : Nat) (x : Port) : (s.setPort p x).wins = s.wins := (rfl)
@[simp] theorem State.setPort_ops (s : State) (p : Nat) (x : Port) : (s.setPort p x).ops = s.ops := (rfl)
@[simp] theorem State.setPort_opNext (s : State) (p : Nat) (x : Port) : (s.setPort p x).opNext = s.opNext := (rfl)
@[simp] theorem State.setPort_sent (s : State) (p : Nat) (x : Port) : (s.setPort p x).sent = s.sent := (rfl)
@[simp] theorem State.setPort_accts (s : State) (p : Nat) (x : Port) : (s.setPort p x).accts = s.accts := (rfl)
@[simp] theorem State.setPort_keys (s : State) (p : Nat) (x : Port) : (s.setPort p x).keys = s.keys := (rfl)
@[simp] theorem State.setPort_keyData (s : State) (p : Nat) (x : Port) : (s.setPort p x).keyData = s.keyData := (rfl)
@[simp] theorem State.setPort_aes (s : State) (p : Nat) (x : Port) : (s.setPort p x).aes = s.aes := (rfl)
@[simp] theorem State.setPort_engs (s : State) (p : Nat) (x : Port) : (s.setPort p x).engs = s.engs := (rfl)
@[simp] theorem State.setPort_engNext (s : State) (p : Nat) (x : Port) : (s.setPort p x).engNext = s.engNext := (rfl)
@[simp] theorem State.setPort_mac (s : State) (p : Nat) (x : Port) : (s.setPort p x).mac = s.mac := (rfl)
@[simp] theorem State.setPort_wkr (s : State) (p : Nat) (x : Port) : (s.setPort p x).wkr = s.wkr := (rfl)
@[simp] theorem State.setPort_msgQ (s : State) (p : Nat) (x : Port) : (s.setPort p x).msgQ = s.msgQ := (rfl)
@[simp] theorem State.setPort_msgEn (s : State) (p : Nat) (x : Port) : (s.setPort p x).msgEn = s.msgEn := (rfl)
@[simp] theorem State.setPort_dma (s : State) (p : Nat) (x : Port) : (s.setPort p x).dma = s.dma := (rfl)
@[simp] theorem State.setPort_chk (s : State) (p : Nat) (x : Port) : (s.setPort p x).chk = s.chk := (rfl)
@[simp] theorem State.setPort_cmc (s : State) (p : Nat) (x : Port) : (s.setPort p x).cmc = s.cmc := (rfl)
@[simp] theorem State.setPort_cmr (s : State) (p : Nat) (x : Port) : (s.setPort p x).cmr = s.cmr := (rfl)
@[simp] theorem State.setPort_cmrOpen (s : State) (p : Nat) (x : Port) : (s.setPort p x).cmrOpen = s.cmrOpen := (rfl)
@[simp] theorem State.setPort_pwr (s : State) (p : Nat) (x : Port) : (s.setPort p x).pwr = s.pwr := (rfl)
@[simp] theorem State.setPort_well (s : State) (p : Nat) (x : Port) : (s.setPort p x).well = s.well := (rfl)
@[simp] theorem State.setPort_brush (s : State) (p : Nat) (x : Port) : (s.setPort p x).brush = s.brush := (rfl)
@[simp] theorem State.setPort_pins (s : State) (p : Nat) (x : Port) : (s.setPort p x).pins = s.pins := (rfl)
@[simp] theorem State.setPort_line (s : State) (p : Nat) (x : Port) : (s.setPort p x).line = s.line := (rfl)
@[simp] theorem State.setPort_casc2 (s : State) (p : Nat) (x : Port) : (s.setPort p x).casc2 = s.casc2 := (rfl)
@[simp] theorem State.setPort_casc3 (s : State) (p : Nat) (x : Port) : (s.setPort p x).casc3 = s.casc3 := (rfl)
@[simp] theorem State.setPort_order (s : State) (p : Nat) (x : Port) : (s.setPort p x).order = s.order := (rfl)
@[simp] theorem State.setPort_free (s : State) (p : Nat) (x : Port) : (s.setPort p x).free = s.free := (rfl)
@[simp] theorem State.setPort_pending (s : State) (p : Nat) (x : Port) : (s.setPort p x).pending = s.pending := (rfl)

/-! State.setCx. -/

@[simp] theorem State.setCx_regs (s : State) (k : Nat) (c : Ctx) : (s.setCx k c).regs = s.regs := (rfl)
@[simp] theorem State.setCx_mem (s : State) (k : Nat) (c : Ctx) : (s.setCx k c).mem = s.mem := (rfl)
@[simp] theorem State.setCx_marks (s : State) (k : Nat) (c : Ctx) : (s.setCx k c).marks = s.marks := (rfl)
@[simp] theorem State.setCx_scrub (s : State) (k : Nat) (c : Ctx) : (s.setCx k c).scrub = s.scrub := (rfl)
@[simp] theorem State.setCx_time (s : State) (k : Nat) (c : Ctx) : (s.setCx k c).time = s.time := (rfl)
@[simp] theorem State.setCx_caps (s : State) (k : Nat) (c : Ctx) : (s.setCx k c).caps = s.caps := (rfl)
@[simp] theorem State.setCx_lnch (s : State) (k : Nat) (c : Ctx) : (s.setCx k c).lnch = s.lnch := (rfl)
@[simp] theorem State.setCx_sems (s : State) (k : Nat) (c : Ctx) : (s.setCx k c).sems = s.sems := (rfl)
@[simp] theorem State.setCx_slots (s : State) (k : Nat) (c : Ctx) : (s.setCx k c).slots = s.slots := (rfl)
@[simp] theorem State.setCx_ports (s : State) (k : Nat) (c : Ctx) : (s.setCx k c).ports = s.ports := (rfl)
@[simp] theorem State.setCx_sya (s : State) (k : Nat) (c : Ctx) : (s.setCx k c).sya = s.sya := (rfl)
@[simp] theorem State.setCx_syb (s : State) (k : Nat) (c : Ctx) : (s.setCx k c).syb = s.syb := (rfl)
@[simp] theorem State.setCx_syt (s : State) (k : Nat) (c : Ctx) : (s.setCx k c).syt = s.syt := (rfl)
@[simp] theorem State.setCx_tempConv (s : State) (k : Nat) (c : Ctx) : (s.setCx k c).tempConv = s.tempConv := (rfl)
@[simp] theorem State.setCx_pos (s : State) (k : Nat) (c : Ctx) : (s.setCx k c).pos = s.pos := (rfl)
@[simp] theorem State.setCx_palA (s : State) (k : Nat) (c : Ctx) : (s.setCx k c).palA = s.palA := (rfl)
@[simp] theorem State.setCx_palB (s : State) (k : Nat) (c : Ctx) : (s.setCx k c).palB = s.palB := (rfl)
@[simp] theorem State.setCx_ents (s : State) (k : Nat) (c : Ctx) : (s.setCx k c).ents = s.ents := (rfl)
@[simp] theorem State.setCx_lanes (s : State) (k : Nat) (c : Ctx) : (s.setCx k c).lanes = s.lanes := (rfl)
@[simp] theorem State.setCx_held (s : State) (k : Nat) (c : Ctx) : (s.setCx k c).held = s.held := (rfl)
@[simp] theorem State.setCx_reqs (s : State) (k : Nat) (c : Ctx) : (s.setCx k c).reqs = s.reqs := (rfl)
@[simp] theorem State.setCx_rslots (s : State) (k : Nat) (c : Ctx) : (s.setCx k c).rslots = s.rslots := (rfl)
@[simp] theorem State.setCx_seqno (s : State) (k : Nat) (c : Ctx) : (s.setCx k c).seqno = s.seqno := (rfl)
@[simp] theorem State.setCx_wins (s : State) (k : Nat) (c : Ctx) : (s.setCx k c).wins = s.wins := (rfl)
@[simp] theorem State.setCx_ops (s : State) (k : Nat) (c : Ctx) : (s.setCx k c).ops = s.ops := (rfl)
@[simp] theorem State.setCx_opNext (s : State) (k : Nat) (c : Ctx) : (s.setCx k c).opNext = s.opNext := (rfl)
@[simp] theorem State.setCx_sent (s : State) (k : Nat) (c : Ctx) : (s.setCx k c).sent = s.sent := (rfl)
@[simp] theorem State.setCx_accts (s : State) (k : Nat) (c : Ctx) : (s.setCx k c).accts = s.accts := (rfl)
@[simp] theorem State.setCx_keys (s : State) (k : Nat) (c : Ctx) : (s.setCx k c).keys = s.keys := (rfl)
@[simp] theorem State.setCx_keyData (s : State) (k : Nat) (c : Ctx) : (s.setCx k c).keyData = s.keyData := (rfl)
@[simp] theorem State.setCx_aes (s : State) (k : Nat) (c : Ctx) : (s.setCx k c).aes = s.aes := (rfl)
@[simp] theorem State.setCx_engs (s : State) (k : Nat) (c : Ctx) : (s.setCx k c).engs = s.engs := (rfl)
@[simp] theorem State.setCx_engNext (s : State) (k : Nat) (c : Ctx) : (s.setCx k c).engNext = s.engNext := (rfl)
@[simp] theorem State.setCx_mac (s : State) (k : Nat) (c : Ctx) : (s.setCx k c).mac = s.mac := (rfl)
@[simp] theorem State.setCx_wkr (s : State) (k : Nat) (c : Ctx) : (s.setCx k c).wkr = s.wkr := (rfl)
@[simp] theorem State.setCx_msgQ (s : State) (k : Nat) (c : Ctx) : (s.setCx k c).msgQ = s.msgQ := (rfl)
@[simp] theorem State.setCx_msgEn (s : State) (k : Nat) (c : Ctx) : (s.setCx k c).msgEn = s.msgEn := (rfl)
@[simp] theorem State.setCx_dma (s : State) (k : Nat) (c : Ctx) : (s.setCx k c).dma = s.dma := (rfl)
@[simp] theorem State.setCx_chk (s : State) (k : Nat) (c : Ctx) : (s.setCx k c).chk = s.chk := (rfl)
@[simp] theorem State.setCx_cmc (s : State) (k : Nat) (c : Ctx) : (s.setCx k c).cmc = s.cmc := (rfl)
@[simp] theorem State.setCx_cmr (s : State) (k : Nat) (c : Ctx) : (s.setCx k c).cmr = s.cmr := (rfl)
@[simp] theorem State.setCx_cmrOpen (s : State) (k : Nat) (c : Ctx) : (s.setCx k c).cmrOpen = s.cmrOpen := (rfl)
@[simp] theorem State.setCx_pwr (s : State) (k : Nat) (c : Ctx) : (s.setCx k c).pwr = s.pwr := (rfl)
@[simp] theorem State.setCx_well (s : State) (k : Nat) (c : Ctx) : (s.setCx k c).well = s.well := (rfl)
@[simp] theorem State.setCx_brush (s : State) (k : Nat) (c : Ctx) : (s.setCx k c).brush = s.brush := (rfl)
@[simp] theorem State.setCx_pins (s : State) (k : Nat) (c : Ctx) : (s.setCx k c).pins = s.pins := (rfl)
@[simp] theorem State.setCx_line (s : State) (k : Nat) (c : Ctx) : (s.setCx k c).line = s.line := (rfl)
@[simp] theorem State.setCx_casc2 (s : State) (k : Nat) (c : Ctx) : (s.setCx k c).casc2 = s.casc2 := (rfl)
@[simp] theorem State.setCx_casc3 (s : State) (k : Nat) (c : Ctx) : (s.setCx k c).casc3 = s.casc3 := (rfl)
@[simp] theorem State.setCx_order (s : State) (k : Nat) (c : Ctx) : (s.setCx k c).order = s.order := (rfl)
@[simp] theorem State.setCx_free (s : State) (k : Nat) (c : Ctx) : (s.setCx k c).free = s.free := (rfl)
@[simp] theorem State.setCx_pending (s : State) (k : Nat) (c : Ctx) : (s.setCx k c).pending = s.pending := (rfl)

/-! State.setSlot. -/

@[simp] theorem State.setSlot_regs (s : State) (p i : Nat) (x : Slot) : (s.setSlot p i x).regs = s.regs := (rfl)
@[simp] theorem State.setSlot_mem (s : State) (p i : Nat) (x : Slot) : (s.setSlot p i x).mem = s.mem := (rfl)
@[simp] theorem State.setSlot_marks (s : State) (p i : Nat) (x : Slot) : (s.setSlot p i x).marks = s.marks := (rfl)
@[simp] theorem State.setSlot_scrub (s : State) (p i : Nat) (x : Slot) : (s.setSlot p i x).scrub = s.scrub := (rfl)
@[simp] theorem State.setSlot_time (s : State) (p i : Nat) (x : Slot) : (s.setSlot p i x).time = s.time := (rfl)
@[simp] theorem State.setSlot_caps (s : State) (p i : Nat) (x : Slot) : (s.setSlot p i x).caps = s.caps := (rfl)
@[simp] theorem State.setSlot_lnch (s : State) (p i : Nat) (x : Slot) : (s.setSlot p i x).lnch = s.lnch := (rfl)
@[simp] theorem State.setSlot_ctx (s : State) (p i : Nat) (x : Slot) : (s.setSlot p i x).ctx = s.ctx := (rfl)
@[simp] theorem State.setSlot_sems (s : State) (p i : Nat) (x : Slot) : (s.setSlot p i x).sems = s.sems := (rfl)
@[simp] theorem State.setSlot_ports (s : State) (p i : Nat) (x : Slot) : (s.setSlot p i x).ports = s.ports := (rfl)
@[simp] theorem State.setSlot_sya (s : State) (p i : Nat) (x : Slot) : (s.setSlot p i x).sya = s.sya := (rfl)
@[simp] theorem State.setSlot_syb (s : State) (p i : Nat) (x : Slot) : (s.setSlot p i x).syb = s.syb := (rfl)
@[simp] theorem State.setSlot_syt (s : State) (p i : Nat) (x : Slot) : (s.setSlot p i x).syt = s.syt := (rfl)
@[simp] theorem State.setSlot_tempConv (s : State) (p i : Nat) (x : Slot) : (s.setSlot p i x).tempConv = s.tempConv := (rfl)
@[simp] theorem State.setSlot_pos (s : State) (p i : Nat) (x : Slot) : (s.setSlot p i x).pos = s.pos := (rfl)
@[simp] theorem State.setSlot_palA (s : State) (p i : Nat) (x : Slot) : (s.setSlot p i x).palA = s.palA := (rfl)
@[simp] theorem State.setSlot_palB (s : State) (p i : Nat) (x : Slot) : (s.setSlot p i x).palB = s.palB := (rfl)
@[simp] theorem State.setSlot_ents (s : State) (p i : Nat) (x : Slot) : (s.setSlot p i x).ents = s.ents := (rfl)
@[simp] theorem State.setSlot_lanes (s : State) (p i : Nat) (x : Slot) : (s.setSlot p i x).lanes = s.lanes := (rfl)
@[simp] theorem State.setSlot_held (s : State) (p i : Nat) (x : Slot) : (s.setSlot p i x).held = s.held := (rfl)
@[simp] theorem State.setSlot_reqs (s : State) (p i : Nat) (x : Slot) : (s.setSlot p i x).reqs = s.reqs := (rfl)
@[simp] theorem State.setSlot_rslots (s : State) (p i : Nat) (x : Slot) : (s.setSlot p i x).rslots = s.rslots := (rfl)
@[simp] theorem State.setSlot_seqno (s : State) (p i : Nat) (x : Slot) : (s.setSlot p i x).seqno = s.seqno := (rfl)
@[simp] theorem State.setSlot_wins (s : State) (p i : Nat) (x : Slot) : (s.setSlot p i x).wins = s.wins := (rfl)
@[simp] theorem State.setSlot_ops (s : State) (p i : Nat) (x : Slot) : (s.setSlot p i x).ops = s.ops := (rfl)
@[simp] theorem State.setSlot_opNext (s : State) (p i : Nat) (x : Slot) : (s.setSlot p i x).opNext = s.opNext := (rfl)
@[simp] theorem State.setSlot_sent (s : State) (p i : Nat) (x : Slot) : (s.setSlot p i x).sent = s.sent := (rfl)
@[simp] theorem State.setSlot_accts (s : State) (p i : Nat) (x : Slot) : (s.setSlot p i x).accts = s.accts := (rfl)
@[simp] theorem State.setSlot_keys (s : State) (p i : Nat) (x : Slot) : (s.setSlot p i x).keys = s.keys := (rfl)
@[simp] theorem State.setSlot_keyData (s : State) (p i : Nat) (x : Slot) : (s.setSlot p i x).keyData = s.keyData := (rfl)
@[simp] theorem State.setSlot_aes (s : State) (p i : Nat) (x : Slot) : (s.setSlot p i x).aes = s.aes := (rfl)
@[simp] theorem State.setSlot_engs (s : State) (p i : Nat) (x : Slot) : (s.setSlot p i x).engs = s.engs := (rfl)
@[simp] theorem State.setSlot_engNext (s : State) (p i : Nat) (x : Slot) : (s.setSlot p i x).engNext = s.engNext := (rfl)
@[simp] theorem State.setSlot_mac (s : State) (p i : Nat) (x : Slot) : (s.setSlot p i x).mac = s.mac := (rfl)
@[simp] theorem State.setSlot_wkr (s : State) (p i : Nat) (x : Slot) : (s.setSlot p i x).wkr = s.wkr := (rfl)
@[simp] theorem State.setSlot_msgQ (s : State) (p i : Nat) (x : Slot) : (s.setSlot p i x).msgQ = s.msgQ := (rfl)
@[simp] theorem State.setSlot_msgEn (s : State) (p i : Nat) (x : Slot) : (s.setSlot p i x).msgEn = s.msgEn := (rfl)
@[simp] theorem State.setSlot_dma (s : State) (p i : Nat) (x : Slot) : (s.setSlot p i x).dma = s.dma := (rfl)
@[simp] theorem State.setSlot_chk (s : State) (p i : Nat) (x : Slot) : (s.setSlot p i x).chk = s.chk := (rfl)
@[simp] theorem State.setSlot_cmc (s : State) (p i : Nat) (x : Slot) : (s.setSlot p i x).cmc = s.cmc := (rfl)
@[simp] theorem State.setSlot_cmr (s : State) (p i : Nat) (x : Slot) : (s.setSlot p i x).cmr = s.cmr := (rfl)
@[simp] theorem State.setSlot_cmrOpen (s : State) (p i : Nat) (x : Slot) : (s.setSlot p i x).cmrOpen = s.cmrOpen := (rfl)
@[simp] theorem State.setSlot_pwr (s : State) (p i : Nat) (x : Slot) : (s.setSlot p i x).pwr = s.pwr := (rfl)
@[simp] theorem State.setSlot_well (s : State) (p i : Nat) (x : Slot) : (s.setSlot p i x).well = s.well := (rfl)
@[simp] theorem State.setSlot_brush (s : State) (p i : Nat) (x : Slot) : (s.setSlot p i x).brush = s.brush := (rfl)
@[simp] theorem State.setSlot_pins (s : State) (p i : Nat) (x : Slot) : (s.setSlot p i x).pins = s.pins := (rfl)
@[simp] theorem State.setSlot_line (s : State) (p i : Nat) (x : Slot) : (s.setSlot p i x).line = s.line := (rfl)
@[simp] theorem State.setSlot_casc2 (s : State) (p i : Nat) (x : Slot) : (s.setSlot p i x).casc2 = s.casc2 := (rfl)
@[simp] theorem State.setSlot_casc3 (s : State) (p i : Nat) (x : Slot) : (s.setSlot p i x).casc3 = s.casc3 := (rfl)
@[simp] theorem State.setSlot_order (s : State) (p i : Nat) (x : Slot) : (s.setSlot p i x).order = s.order := (rfl)
@[simp] theorem State.setSlot_free (s : State) (p i : Nat) (x : Slot) : (s.setSlot p i x).free = s.free := (rfl)
@[simp] theorem State.setSlot_pending (s : State) (p i : Nat) (x : Slot) : (s.setSlot p i x).pending = s.pending := (rfl)

/-! State.setSem. -/

@[simp] theorem State.setSem_regs (s : State) (n : Nat) (x : Sem) : (s.setSem n x).regs = s.regs := (rfl)
@[simp] theorem State.setSem_mem (s : State) (n : Nat) (x : Sem) : (s.setSem n x).mem = s.mem := (rfl)
@[simp] theorem State.setSem_marks (s : State) (n : Nat) (x : Sem) : (s.setSem n x).marks = s.marks := (rfl)
@[simp] theorem State.setSem_scrub (s : State) (n : Nat) (x : Sem) : (s.setSem n x).scrub = s.scrub := (rfl)
@[simp] theorem State.setSem_time (s : State) (n : Nat) (x : Sem) : (s.setSem n x).time = s.time := (rfl)
@[simp] theorem State.setSem_caps (s : State) (n : Nat) (x : Sem) : (s.setSem n x).caps = s.caps := (rfl)
@[simp] theorem State.setSem_lnch (s : State) (n : Nat) (x : Sem) : (s.setSem n x).lnch = s.lnch := (rfl)
@[simp] theorem State.setSem_ctx (s : State) (n : Nat) (x : Sem) : (s.setSem n x).ctx = s.ctx := (rfl)
@[simp] theorem State.setSem_slots (s : State) (n : Nat) (x : Sem) : (s.setSem n x).slots = s.slots := (rfl)
@[simp] theorem State.setSem_ports (s : State) (n : Nat) (x : Sem) : (s.setSem n x).ports = s.ports := (rfl)
@[simp] theorem State.setSem_sya (s : State) (n : Nat) (x : Sem) : (s.setSem n x).sya = s.sya := (rfl)
@[simp] theorem State.setSem_syb (s : State) (n : Nat) (x : Sem) : (s.setSem n x).syb = s.syb := (rfl)
@[simp] theorem State.setSem_syt (s : State) (n : Nat) (x : Sem) : (s.setSem n x).syt = s.syt := (rfl)
@[simp] theorem State.setSem_tempConv (s : State) (n : Nat) (x : Sem) : (s.setSem n x).tempConv = s.tempConv := (rfl)
@[simp] theorem State.setSem_pos (s : State) (n : Nat) (x : Sem) : (s.setSem n x).pos = s.pos := (rfl)
@[simp] theorem State.setSem_palA (s : State) (n : Nat) (x : Sem) : (s.setSem n x).palA = s.palA := (rfl)
@[simp] theorem State.setSem_palB (s : State) (n : Nat) (x : Sem) : (s.setSem n x).palB = s.palB := (rfl)
@[simp] theorem State.setSem_ents (s : State) (n : Nat) (x : Sem) : (s.setSem n x).ents = s.ents := (rfl)
@[simp] theorem State.setSem_lanes (s : State) (n : Nat) (x : Sem) : (s.setSem n x).lanes = s.lanes := (rfl)
@[simp] theorem State.setSem_held (s : State) (n : Nat) (x : Sem) : (s.setSem n x).held = s.held := (rfl)
@[simp] theorem State.setSem_reqs (s : State) (n : Nat) (x : Sem) : (s.setSem n x).reqs = s.reqs := (rfl)
@[simp] theorem State.setSem_rslots (s : State) (n : Nat) (x : Sem) : (s.setSem n x).rslots = s.rslots := (rfl)
@[simp] theorem State.setSem_seqno (s : State) (n : Nat) (x : Sem) : (s.setSem n x).seqno = s.seqno := (rfl)
@[simp] theorem State.setSem_wins (s : State) (n : Nat) (x : Sem) : (s.setSem n x).wins = s.wins := (rfl)
@[simp] theorem State.setSem_ops (s : State) (n : Nat) (x : Sem) : (s.setSem n x).ops = s.ops := (rfl)
@[simp] theorem State.setSem_opNext (s : State) (n : Nat) (x : Sem) : (s.setSem n x).opNext = s.opNext := (rfl)
@[simp] theorem State.setSem_sent (s : State) (n : Nat) (x : Sem) : (s.setSem n x).sent = s.sent := (rfl)
@[simp] theorem State.setSem_accts (s : State) (n : Nat) (x : Sem) : (s.setSem n x).accts = s.accts := (rfl)
@[simp] theorem State.setSem_keys (s : State) (n : Nat) (x : Sem) : (s.setSem n x).keys = s.keys := (rfl)
@[simp] theorem State.setSem_keyData (s : State) (n : Nat) (x : Sem) : (s.setSem n x).keyData = s.keyData := (rfl)
@[simp] theorem State.setSem_aes (s : State) (n : Nat) (x : Sem) : (s.setSem n x).aes = s.aes := (rfl)
@[simp] theorem State.setSem_engs (s : State) (n : Nat) (x : Sem) : (s.setSem n x).engs = s.engs := (rfl)
@[simp] theorem State.setSem_engNext (s : State) (n : Nat) (x : Sem) : (s.setSem n x).engNext = s.engNext := (rfl)
@[simp] theorem State.setSem_mac (s : State) (n : Nat) (x : Sem) : (s.setSem n x).mac = s.mac := (rfl)
@[simp] theorem State.setSem_wkr (s : State) (n : Nat) (x : Sem) : (s.setSem n x).wkr = s.wkr := (rfl)
@[simp] theorem State.setSem_msgQ (s : State) (n : Nat) (x : Sem) : (s.setSem n x).msgQ = s.msgQ := (rfl)
@[simp] theorem State.setSem_msgEn (s : State) (n : Nat) (x : Sem) : (s.setSem n x).msgEn = s.msgEn := (rfl)
@[simp] theorem State.setSem_dma (s : State) (n : Nat) (x : Sem) : (s.setSem n x).dma = s.dma := (rfl)
@[simp] theorem State.setSem_chk (s : State) (n : Nat) (x : Sem) : (s.setSem n x).chk = s.chk := (rfl)
@[simp] theorem State.setSem_cmc (s : State) (n : Nat) (x : Sem) : (s.setSem n x).cmc = s.cmc := (rfl)
@[simp] theorem State.setSem_cmr (s : State) (n : Nat) (x : Sem) : (s.setSem n x).cmr = s.cmr := (rfl)
@[simp] theorem State.setSem_cmrOpen (s : State) (n : Nat) (x : Sem) : (s.setSem n x).cmrOpen = s.cmrOpen := (rfl)
@[simp] theorem State.setSem_pwr (s : State) (n : Nat) (x : Sem) : (s.setSem n x).pwr = s.pwr := (rfl)
@[simp] theorem State.setSem_well (s : State) (n : Nat) (x : Sem) : (s.setSem n x).well = s.well := (rfl)
@[simp] theorem State.setSem_brush (s : State) (n : Nat) (x : Sem) : (s.setSem n x).brush = s.brush := (rfl)
@[simp] theorem State.setSem_pins (s : State) (n : Nat) (x : Sem) : (s.setSem n x).pins = s.pins := (rfl)
@[simp] theorem State.setSem_line (s : State) (n : Nat) (x : Sem) : (s.setSem n x).line = s.line := (rfl)
@[simp] theorem State.setSem_casc2 (s : State) (n : Nat) (x : Sem) : (s.setSem n x).casc2 = s.casc2 := (rfl)
@[simp] theorem State.setSem_casc3 (s : State) (n : Nat) (x : Sem) : (s.setSem n x).casc3 = s.casc3 := (rfl)
@[simp] theorem State.setSem_order (s : State) (n : Nat) (x : Sem) : (s.setSem n x).order = s.order := (rfl)
@[simp] theorem State.setSem_free (s : State) (n : Nat) (x : Sem) : (s.setSem n x).free = s.free := (rfl)
@[simp] theorem State.setSem_pending (s : State) (n : Nat) (x : Sem) : (s.setSem n x).pending = s.pending := (rfl)

/-! State.setOp. -/

@[simp] theorem State.setOp_regs (s : State) (id : Nat) (o : RadioOp) : (s.setOp id o).regs = s.regs := (rfl)
@[simp] theorem State.setOp_mem (s : State) (id : Nat) (o : RadioOp) : (s.setOp id o).mem = s.mem := (rfl)
@[simp] theorem State.setOp_marks (s : State) (id : Nat) (o : RadioOp) : (s.setOp id o).marks = s.marks := (rfl)
@[simp] theorem State.setOp_scrub (s : State) (id : Nat) (o : RadioOp) : (s.setOp id o).scrub = s.scrub := (rfl)
@[simp] theorem State.setOp_time (s : State) (id : Nat) (o : RadioOp) : (s.setOp id o).time = s.time := (rfl)
@[simp] theorem State.setOp_caps (s : State) (id : Nat) (o : RadioOp) : (s.setOp id o).caps = s.caps := (rfl)
@[simp] theorem State.setOp_lnch (s : State) (id : Nat) (o : RadioOp) : (s.setOp id o).lnch = s.lnch := (rfl)
@[simp] theorem State.setOp_ctx (s : State) (id : Nat) (o : RadioOp) : (s.setOp id o).ctx = s.ctx := (rfl)
@[simp] theorem State.setOp_sems (s : State) (id : Nat) (o : RadioOp) : (s.setOp id o).sems = s.sems := (rfl)
@[simp] theorem State.setOp_slots (s : State) (id : Nat) (o : RadioOp) : (s.setOp id o).slots = s.slots := (rfl)
@[simp] theorem State.setOp_ports (s : State) (id : Nat) (o : RadioOp) : (s.setOp id o).ports = s.ports := (rfl)
@[simp] theorem State.setOp_sya (s : State) (id : Nat) (o : RadioOp) : (s.setOp id o).sya = s.sya := (rfl)
@[simp] theorem State.setOp_syb (s : State) (id : Nat) (o : RadioOp) : (s.setOp id o).syb = s.syb := (rfl)
@[simp] theorem State.setOp_syt (s : State) (id : Nat) (o : RadioOp) : (s.setOp id o).syt = s.syt := (rfl)
@[simp] theorem State.setOp_tempConv (s : State) (id : Nat) (o : RadioOp) : (s.setOp id o).tempConv = s.tempConv := (rfl)
@[simp] theorem State.setOp_pos (s : State) (id : Nat) (o : RadioOp) : (s.setOp id o).pos = s.pos := (rfl)
@[simp] theorem State.setOp_palA (s : State) (id : Nat) (o : RadioOp) : (s.setOp id o).palA = s.palA := (rfl)
@[simp] theorem State.setOp_palB (s : State) (id : Nat) (o : RadioOp) : (s.setOp id o).palB = s.palB := (rfl)
@[simp] theorem State.setOp_ents (s : State) (id : Nat) (o : RadioOp) : (s.setOp id o).ents = s.ents := (rfl)
@[simp] theorem State.setOp_lanes (s : State) (id : Nat) (o : RadioOp) : (s.setOp id o).lanes = s.lanes := (rfl)
@[simp] theorem State.setOp_held (s : State) (id : Nat) (o : RadioOp) : (s.setOp id o).held = s.held := (rfl)
@[simp] theorem State.setOp_reqs (s : State) (id : Nat) (o : RadioOp) : (s.setOp id o).reqs = s.reqs := (rfl)
@[simp] theorem State.setOp_rslots (s : State) (id : Nat) (o : RadioOp) : (s.setOp id o).rslots = s.rslots := (rfl)
@[simp] theorem State.setOp_seqno (s : State) (id : Nat) (o : RadioOp) : (s.setOp id o).seqno = s.seqno := (rfl)
@[simp] theorem State.setOp_wins (s : State) (id : Nat) (o : RadioOp) : (s.setOp id o).wins = s.wins := (rfl)
@[simp] theorem State.setOp_opNext (s : State) (id : Nat) (o : RadioOp) : (s.setOp id o).opNext = s.opNext := (rfl)
@[simp] theorem State.setOp_sent (s : State) (id : Nat) (o : RadioOp) : (s.setOp id o).sent = s.sent := (rfl)
@[simp] theorem State.setOp_accts (s : State) (id : Nat) (o : RadioOp) : (s.setOp id o).accts = s.accts := (rfl)
@[simp] theorem State.setOp_keys (s : State) (id : Nat) (o : RadioOp) : (s.setOp id o).keys = s.keys := (rfl)
@[simp] theorem State.setOp_keyData (s : State) (id : Nat) (o : RadioOp) : (s.setOp id o).keyData = s.keyData := (rfl)
@[simp] theorem State.setOp_aes (s : State) (id : Nat) (o : RadioOp) : (s.setOp id o).aes = s.aes := (rfl)
@[simp] theorem State.setOp_engs (s : State) (id : Nat) (o : RadioOp) : (s.setOp id o).engs = s.engs := (rfl)
@[simp] theorem State.setOp_engNext (s : State) (id : Nat) (o : RadioOp) : (s.setOp id o).engNext = s.engNext := (rfl)
@[simp] theorem State.setOp_mac (s : State) (id : Nat) (o : RadioOp) : (s.setOp id o).mac = s.mac := (rfl)
@[simp] theorem State.setOp_wkr (s : State) (id : Nat) (o : RadioOp) : (s.setOp id o).wkr = s.wkr := (rfl)
@[simp] theorem State.setOp_msgQ (s : State) (id : Nat) (o : RadioOp) : (s.setOp id o).msgQ = s.msgQ := (rfl)
@[simp] theorem State.setOp_msgEn (s : State) (id : Nat) (o : RadioOp) : (s.setOp id o).msgEn = s.msgEn := (rfl)
@[simp] theorem State.setOp_dma (s : State) (id : Nat) (o : RadioOp) : (s.setOp id o).dma = s.dma := (rfl)
@[simp] theorem State.setOp_chk (s : State) (id : Nat) (o : RadioOp) : (s.setOp id o).chk = s.chk := (rfl)
@[simp] theorem State.setOp_cmc (s : State) (id : Nat) (o : RadioOp) : (s.setOp id o).cmc = s.cmc := (rfl)
@[simp] theorem State.setOp_cmr (s : State) (id : Nat) (o : RadioOp) : (s.setOp id o).cmr = s.cmr := (rfl)
@[simp] theorem State.setOp_cmrOpen (s : State) (id : Nat) (o : RadioOp) : (s.setOp id o).cmrOpen = s.cmrOpen := (rfl)
@[simp] theorem State.setOp_pwr (s : State) (id : Nat) (o : RadioOp) : (s.setOp id o).pwr = s.pwr := (rfl)
@[simp] theorem State.setOp_well (s : State) (id : Nat) (o : RadioOp) : (s.setOp id o).well = s.well := (rfl)
@[simp] theorem State.setOp_brush (s : State) (id : Nat) (o : RadioOp) : (s.setOp id o).brush = s.brush := (rfl)
@[simp] theorem State.setOp_pins (s : State) (id : Nat) (o : RadioOp) : (s.setOp id o).pins = s.pins := (rfl)
@[simp] theorem State.setOp_line (s : State) (id : Nat) (o : RadioOp) : (s.setOp id o).line = s.line := (rfl)
@[simp] theorem State.setOp_casc2 (s : State) (id : Nat) (o : RadioOp) : (s.setOp id o).casc2 = s.casc2 := (rfl)
@[simp] theorem State.setOp_casc3 (s : State) (id : Nat) (o : RadioOp) : (s.setOp id o).casc3 = s.casc3 := (rfl)
@[simp] theorem State.setOp_order (s : State) (id : Nat) (o : RadioOp) : (s.setOp id o).order = s.order := (rfl)
@[simp] theorem State.setOp_free (s : State) (id : Nat) (o : RadioOp) : (s.setOp id o).free = s.free := (rfl)
@[simp] theorem State.setOp_pending (s : State) (id : Nat) (o : RadioOp) : (s.setOp id o).pending = s.pending := (rfl)

/-! State.dropOp. -/

@[simp] theorem State.dropOp_regs (s : State) (id : Nat) : (s.dropOp id).regs = s.regs := (rfl)
@[simp] theorem State.dropOp_mem (s : State) (id : Nat) : (s.dropOp id).mem = s.mem := (rfl)
@[simp] theorem State.dropOp_marks (s : State) (id : Nat) : (s.dropOp id).marks = s.marks := (rfl)
@[simp] theorem State.dropOp_scrub (s : State) (id : Nat) : (s.dropOp id).scrub = s.scrub := (rfl)
@[simp] theorem State.dropOp_time (s : State) (id : Nat) : (s.dropOp id).time = s.time := (rfl)
@[simp] theorem State.dropOp_caps (s : State) (id : Nat) : (s.dropOp id).caps = s.caps := (rfl)
@[simp] theorem State.dropOp_lnch (s : State) (id : Nat) : (s.dropOp id).lnch = s.lnch := (rfl)
@[simp] theorem State.dropOp_ctx (s : State) (id : Nat) : (s.dropOp id).ctx = s.ctx := (rfl)
@[simp] theorem State.dropOp_sems (s : State) (id : Nat) : (s.dropOp id).sems = s.sems := (rfl)
@[simp] theorem State.dropOp_slots (s : State) (id : Nat) : (s.dropOp id).slots = s.slots := (rfl)
@[simp] theorem State.dropOp_ports (s : State) (id : Nat) : (s.dropOp id).ports = s.ports := (rfl)
@[simp] theorem State.dropOp_sya (s : State) (id : Nat) : (s.dropOp id).sya = s.sya := (rfl)
@[simp] theorem State.dropOp_syb (s : State) (id : Nat) : (s.dropOp id).syb = s.syb := (rfl)
@[simp] theorem State.dropOp_syt (s : State) (id : Nat) : (s.dropOp id).syt = s.syt := (rfl)
@[simp] theorem State.dropOp_tempConv (s : State) (id : Nat) : (s.dropOp id).tempConv = s.tempConv := (rfl)
@[simp] theorem State.dropOp_pos (s : State) (id : Nat) : (s.dropOp id).pos = s.pos := (rfl)
@[simp] theorem State.dropOp_palA (s : State) (id : Nat) : (s.dropOp id).palA = s.palA := (rfl)
@[simp] theorem State.dropOp_palB (s : State) (id : Nat) : (s.dropOp id).palB = s.palB := (rfl)
@[simp] theorem State.dropOp_ents (s : State) (id : Nat) : (s.dropOp id).ents = s.ents := (rfl)
@[simp] theorem State.dropOp_lanes (s : State) (id : Nat) : (s.dropOp id).lanes = s.lanes := (rfl)
@[simp] theorem State.dropOp_held (s : State) (id : Nat) : (s.dropOp id).held = s.held := (rfl)
@[simp] theorem State.dropOp_reqs (s : State) (id : Nat) : (s.dropOp id).reqs = s.reqs := (rfl)
@[simp] theorem State.dropOp_rslots (s : State) (id : Nat) : (s.dropOp id).rslots = s.rslots := (rfl)
@[simp] theorem State.dropOp_seqno (s : State) (id : Nat) : (s.dropOp id).seqno = s.seqno := (rfl)
@[simp] theorem State.dropOp_wins (s : State) (id : Nat) : (s.dropOp id).wins = s.wins := (rfl)
@[simp] theorem State.dropOp_opNext (s : State) (id : Nat) : (s.dropOp id).opNext = s.opNext := (rfl)
@[simp] theorem State.dropOp_sent (s : State) (id : Nat) : (s.dropOp id).sent = s.sent := (rfl)
@[simp] theorem State.dropOp_accts (s : State) (id : Nat) : (s.dropOp id).accts = s.accts := (rfl)
@[simp] theorem State.dropOp_keys (s : State) (id : Nat) : (s.dropOp id).keys = s.keys := (rfl)
@[simp] theorem State.dropOp_keyData (s : State) (id : Nat) : (s.dropOp id).keyData = s.keyData := (rfl)
@[simp] theorem State.dropOp_aes (s : State) (id : Nat) : (s.dropOp id).aes = s.aes := (rfl)
@[simp] theorem State.dropOp_engs (s : State) (id : Nat) : (s.dropOp id).engs = s.engs := (rfl)
@[simp] theorem State.dropOp_engNext (s : State) (id : Nat) : (s.dropOp id).engNext = s.engNext := (rfl)
@[simp] theorem State.dropOp_mac (s : State) (id : Nat) : (s.dropOp id).mac = s.mac := (rfl)
@[simp] theorem State.dropOp_wkr (s : State) (id : Nat) : (s.dropOp id).wkr = s.wkr := (rfl)
@[simp] theorem State.dropOp_msgQ (s : State) (id : Nat) : (s.dropOp id).msgQ = s.msgQ := (rfl)
@[simp] theorem State.dropOp_msgEn (s : State) (id : Nat) : (s.dropOp id).msgEn = s.msgEn := (rfl)
@[simp] theorem State.dropOp_dma (s : State) (id : Nat) : (s.dropOp id).dma = s.dma := (rfl)
@[simp] theorem State.dropOp_chk (s : State) (id : Nat) : (s.dropOp id).chk = s.chk := (rfl)
@[simp] theorem State.dropOp_cmc (s : State) (id : Nat) : (s.dropOp id).cmc = s.cmc := (rfl)
@[simp] theorem State.dropOp_cmr (s : State) (id : Nat) : (s.dropOp id).cmr = s.cmr := (rfl)
@[simp] theorem State.dropOp_cmrOpen (s : State) (id : Nat) : (s.dropOp id).cmrOpen = s.cmrOpen := (rfl)
@[simp] theorem State.dropOp_pwr (s : State) (id : Nat) : (s.dropOp id).pwr = s.pwr := (rfl)
@[simp] theorem State.dropOp_well (s : State) (id : Nat) : (s.dropOp id).well = s.well := (rfl)
@[simp] theorem State.dropOp_brush (s : State) (id : Nat) : (s.dropOp id).brush = s.brush := (rfl)
@[simp] theorem State.dropOp_pins (s : State) (id : Nat) : (s.dropOp id).pins = s.pins := (rfl)
@[simp] theorem State.dropOp_line (s : State) (id : Nat) : (s.dropOp id).line = s.line := (rfl)
@[simp] theorem State.dropOp_casc2 (s : State) (id : Nat) : (s.dropOp id).casc2 = s.casc2 := (rfl)
@[simp] theorem State.dropOp_casc3 (s : State) (id : Nat) : (s.dropOp id).casc3 = s.casc3 := (rfl)
@[simp] theorem State.dropOp_order (s : State) (id : Nat) : (s.dropOp id).order = s.order := (rfl)
@[simp] theorem State.dropOp_free (s : State) (id : Nat) : (s.dropOp id).free = s.free := (rfl)
@[simp] theorem State.dropOp_pending (s : State) (id : Nat) : (s.dropOp id).pending = s.pending := (rfl)

/-! State.setLauncher. -/

@[simp] theorem State.setLauncher_regs (s : State) (n : Nat) (x : Lnch) : (s.setLauncher n x).regs = s.regs := (rfl)
@[simp] theorem State.setLauncher_mem (s : State) (n : Nat) (x : Lnch) : (s.setLauncher n x).mem = s.mem := (rfl)
@[simp] theorem State.setLauncher_marks (s : State) (n : Nat) (x : Lnch) : (s.setLauncher n x).marks = s.marks := (rfl)
@[simp] theorem State.setLauncher_scrub (s : State) (n : Nat) (x : Lnch) : (s.setLauncher n x).scrub = s.scrub := (rfl)
@[simp] theorem State.setLauncher_time (s : State) (n : Nat) (x : Lnch) : (s.setLauncher n x).time = s.time := (rfl)
@[simp] theorem State.setLauncher_caps (s : State) (n : Nat) (x : Lnch) : (s.setLauncher n x).caps = s.caps := (rfl)
@[simp] theorem State.setLauncher_ctx (s : State) (n : Nat) (x : Lnch) : (s.setLauncher n x).ctx = s.ctx := (rfl)
@[simp] theorem State.setLauncher_sems (s : State) (n : Nat) (x : Lnch) : (s.setLauncher n x).sems = s.sems := (rfl)
@[simp] theorem State.setLauncher_slots (s : State) (n : Nat) (x : Lnch) : (s.setLauncher n x).slots = s.slots := (rfl)
@[simp] theorem State.setLauncher_ports (s : State) (n : Nat) (x : Lnch) : (s.setLauncher n x).ports = s.ports := (rfl)
@[simp] theorem State.setLauncher_sya (s : State) (n : Nat) (x : Lnch) : (s.setLauncher n x).sya = s.sya := (rfl)
@[simp] theorem State.setLauncher_syb (s : State) (n : Nat) (x : Lnch) : (s.setLauncher n x).syb = s.syb := (rfl)
@[simp] theorem State.setLauncher_syt (s : State) (n : Nat) (x : Lnch) : (s.setLauncher n x).syt = s.syt := (rfl)
@[simp] theorem State.setLauncher_tempConv (s : State) (n : Nat) (x : Lnch) : (s.setLauncher n x).tempConv = s.tempConv := (rfl)
@[simp] theorem State.setLauncher_pos (s : State) (n : Nat) (x : Lnch) : (s.setLauncher n x).pos = s.pos := (rfl)
@[simp] theorem State.setLauncher_palA (s : State) (n : Nat) (x : Lnch) : (s.setLauncher n x).palA = s.palA := (rfl)
@[simp] theorem State.setLauncher_palB (s : State) (n : Nat) (x : Lnch) : (s.setLauncher n x).palB = s.palB := (rfl)
@[simp] theorem State.setLauncher_ents (s : State) (n : Nat) (x : Lnch) : (s.setLauncher n x).ents = s.ents := (rfl)
@[simp] theorem State.setLauncher_lanes (s : State) (n : Nat) (x : Lnch) : (s.setLauncher n x).lanes = s.lanes := (rfl)
@[simp] theorem State.setLauncher_held (s : State) (n : Nat) (x : Lnch) : (s.setLauncher n x).held = s.held := (rfl)
@[simp] theorem State.setLauncher_reqs (s : State) (n : Nat) (x : Lnch) : (s.setLauncher n x).reqs = s.reqs := (rfl)
@[simp] theorem State.setLauncher_rslots (s : State) (n : Nat) (x : Lnch) : (s.setLauncher n x).rslots = s.rslots := (rfl)
@[simp] theorem State.setLauncher_seqno (s : State) (n : Nat) (x : Lnch) : (s.setLauncher n x).seqno = s.seqno := (rfl)
@[simp] theorem State.setLauncher_wins (s : State) (n : Nat) (x : Lnch) : (s.setLauncher n x).wins = s.wins := (rfl)
@[simp] theorem State.setLauncher_ops (s : State) (n : Nat) (x : Lnch) : (s.setLauncher n x).ops = s.ops := (rfl)
@[simp] theorem State.setLauncher_opNext (s : State) (n : Nat) (x : Lnch) : (s.setLauncher n x).opNext = s.opNext := (rfl)
@[simp] theorem State.setLauncher_sent (s : State) (n : Nat) (x : Lnch) : (s.setLauncher n x).sent = s.sent := (rfl)
@[simp] theorem State.setLauncher_accts (s : State) (n : Nat) (x : Lnch) : (s.setLauncher n x).accts = s.accts := (rfl)
@[simp] theorem State.setLauncher_keys (s : State) (n : Nat) (x : Lnch) : (s.setLauncher n x).keys = s.keys := (rfl)
@[simp] theorem State.setLauncher_keyData (s : State) (n : Nat) (x : Lnch) : (s.setLauncher n x).keyData = s.keyData := (rfl)
@[simp] theorem State.setLauncher_aes (s : State) (n : Nat) (x : Lnch) : (s.setLauncher n x).aes = s.aes := (rfl)
@[simp] theorem State.setLauncher_engs (s : State) (n : Nat) (x : Lnch) : (s.setLauncher n x).engs = s.engs := (rfl)
@[simp] theorem State.setLauncher_engNext (s : State) (n : Nat) (x : Lnch) : (s.setLauncher n x).engNext = s.engNext := (rfl)
@[simp] theorem State.setLauncher_mac (s : State) (n : Nat) (x : Lnch) : (s.setLauncher n x).mac = s.mac := (rfl)
@[simp] theorem State.setLauncher_wkr (s : State) (n : Nat) (x : Lnch) : (s.setLauncher n x).wkr = s.wkr := (rfl)
@[simp] theorem State.setLauncher_msgQ (s : State) (n : Nat) (x : Lnch) : (s.setLauncher n x).msgQ = s.msgQ := (rfl)
@[simp] theorem State.setLauncher_msgEn (s : State) (n : Nat) (x : Lnch) : (s.setLauncher n x).msgEn = s.msgEn := (rfl)
@[simp] theorem State.setLauncher_dma (s : State) (n : Nat) (x : Lnch) : (s.setLauncher n x).dma = s.dma := (rfl)
@[simp] theorem State.setLauncher_chk (s : State) (n : Nat) (x : Lnch) : (s.setLauncher n x).chk = s.chk := (rfl)
@[simp] theorem State.setLauncher_cmc (s : State) (n : Nat) (x : Lnch) : (s.setLauncher n x).cmc = s.cmc := (rfl)
@[simp] theorem State.setLauncher_cmr (s : State) (n : Nat) (x : Lnch) : (s.setLauncher n x).cmr = s.cmr := (rfl)
@[simp] theorem State.setLauncher_cmrOpen (s : State) (n : Nat) (x : Lnch) : (s.setLauncher n x).cmrOpen = s.cmrOpen := (rfl)
@[simp] theorem State.setLauncher_pwr (s : State) (n : Nat) (x : Lnch) : (s.setLauncher n x).pwr = s.pwr := (rfl)
@[simp] theorem State.setLauncher_well (s : State) (n : Nat) (x : Lnch) : (s.setLauncher n x).well = s.well := (rfl)
@[simp] theorem State.setLauncher_brush (s : State) (n : Nat) (x : Lnch) : (s.setLauncher n x).brush = s.brush := (rfl)
@[simp] theorem State.setLauncher_pins (s : State) (n : Nat) (x : Lnch) : (s.setLauncher n x).pins = s.pins := (rfl)
@[simp] theorem State.setLauncher_line (s : State) (n : Nat) (x : Lnch) : (s.setLauncher n x).line = s.line := (rfl)
@[simp] theorem State.setLauncher_casc2 (s : State) (n : Nat) (x : Lnch) : (s.setLauncher n x).casc2 = s.casc2 := (rfl)
@[simp] theorem State.setLauncher_casc3 (s : State) (n : Nat) (x : Lnch) : (s.setLauncher n x).casc3 = s.casc3 := (rfl)
@[simp] theorem State.setLauncher_order (s : State) (n : Nat) (x : Lnch) : (s.setLauncher n x).order = s.order := (rfl)
@[simp] theorem State.setLauncher_free (s : State) (n : Nat) (x : Lnch) : (s.setLauncher n x).free = s.free := (rfl)
@[simp] theorem State.setLauncher_pending (s : State) (n : Nat) (x : Lnch) : (s.setLauncher n x).pending = s.pending := (rfl)

/-! State.setEng. -/

@[simp] theorem State.setEng_regs (s : State) (id : Nat) (o : EngOp) : (s.setEng id o).regs = s.regs := (rfl)
@[simp] theorem State.setEng_mem (s : State) (id : Nat) (o : EngOp) : (s.setEng id o).mem = s.mem := (rfl)
@[simp] theorem State.setEng_marks (s : State) (id : Nat) (o : EngOp) : (s.setEng id o).marks = s.marks := (rfl)
@[simp] theorem State.setEng_scrub (s : State) (id : Nat) (o : EngOp) : (s.setEng id o).scrub = s.scrub := (rfl)
@[simp] theorem State.setEng_time (s : State) (id : Nat) (o : EngOp) : (s.setEng id o).time = s.time := (rfl)
@[simp] theorem State.setEng_caps (s : State) (id : Nat) (o : EngOp) : (s.setEng id o).caps = s.caps := (rfl)
@[simp] theorem State.setEng_lnch (s : State) (id : Nat) (o : EngOp) : (s.setEng id o).lnch = s.lnch := (rfl)
@[simp] theorem State.setEng_ctx (s : State) (id : Nat) (o : EngOp) : (s.setEng id o).ctx = s.ctx := (rfl)
@[simp] theorem State.setEng_sems (s : State) (id : Nat) (o : EngOp) : (s.setEng id o).sems = s.sems := (rfl)
@[simp] theorem State.setEng_slots (s : State) (id : Nat) (o : EngOp) : (s.setEng id o).slots = s.slots := (rfl)
@[simp] theorem State.setEng_ports (s : State) (id : Nat) (o : EngOp) : (s.setEng id o).ports = s.ports := (rfl)
@[simp] theorem State.setEng_sya (s : State) (id : Nat) (o : EngOp) : (s.setEng id o).sya = s.sya := (rfl)
@[simp] theorem State.setEng_syb (s : State) (id : Nat) (o : EngOp) : (s.setEng id o).syb = s.syb := (rfl)
@[simp] theorem State.setEng_syt (s : State) (id : Nat) (o : EngOp) : (s.setEng id o).syt = s.syt := (rfl)
@[simp] theorem State.setEng_tempConv (s : State) (id : Nat) (o : EngOp) : (s.setEng id o).tempConv = s.tempConv := (rfl)
@[simp] theorem State.setEng_pos (s : State) (id : Nat) (o : EngOp) : (s.setEng id o).pos = s.pos := (rfl)
@[simp] theorem State.setEng_palA (s : State) (id : Nat) (o : EngOp) : (s.setEng id o).palA = s.palA := (rfl)
@[simp] theorem State.setEng_palB (s : State) (id : Nat) (o : EngOp) : (s.setEng id o).palB = s.palB := (rfl)
@[simp] theorem State.setEng_ents (s : State) (id : Nat) (o : EngOp) : (s.setEng id o).ents = s.ents := (rfl)
@[simp] theorem State.setEng_lanes (s : State) (id : Nat) (o : EngOp) : (s.setEng id o).lanes = s.lanes := (rfl)
@[simp] theorem State.setEng_held (s : State) (id : Nat) (o : EngOp) : (s.setEng id o).held = s.held := (rfl)
@[simp] theorem State.setEng_reqs (s : State) (id : Nat) (o : EngOp) : (s.setEng id o).reqs = s.reqs := (rfl)
@[simp] theorem State.setEng_rslots (s : State) (id : Nat) (o : EngOp) : (s.setEng id o).rslots = s.rslots := (rfl)
@[simp] theorem State.setEng_seqno (s : State) (id : Nat) (o : EngOp) : (s.setEng id o).seqno = s.seqno := (rfl)
@[simp] theorem State.setEng_wins (s : State) (id : Nat) (o : EngOp) : (s.setEng id o).wins = s.wins := (rfl)
@[simp] theorem State.setEng_ops (s : State) (id : Nat) (o : EngOp) : (s.setEng id o).ops = s.ops := (rfl)
@[simp] theorem State.setEng_opNext (s : State) (id : Nat) (o : EngOp) : (s.setEng id o).opNext = s.opNext := (rfl)
@[simp] theorem State.setEng_sent (s : State) (id : Nat) (o : EngOp) : (s.setEng id o).sent = s.sent := (rfl)
@[simp] theorem State.setEng_accts (s : State) (id : Nat) (o : EngOp) : (s.setEng id o).accts = s.accts := (rfl)
@[simp] theorem State.setEng_keys (s : State) (id : Nat) (o : EngOp) : (s.setEng id o).keys = s.keys := (rfl)
@[simp] theorem State.setEng_keyData (s : State) (id : Nat) (o : EngOp) : (s.setEng id o).keyData = s.keyData := (rfl)
@[simp] theorem State.setEng_aes (s : State) (id : Nat) (o : EngOp) : (s.setEng id o).aes = s.aes := (rfl)
@[simp] theorem State.setEng_engNext (s : State) (id : Nat) (o : EngOp) : (s.setEng id o).engNext = s.engNext := (rfl)
@[simp] theorem State.setEng_mac (s : State) (id : Nat) (o : EngOp) : (s.setEng id o).mac = s.mac := (rfl)
@[simp] theorem State.setEng_wkr (s : State) (id : Nat) (o : EngOp) : (s.setEng id o).wkr = s.wkr := (rfl)
@[simp] theorem State.setEng_msgQ (s : State) (id : Nat) (o : EngOp) : (s.setEng id o).msgQ = s.msgQ := (rfl)
@[simp] theorem State.setEng_msgEn (s : State) (id : Nat) (o : EngOp) : (s.setEng id o).msgEn = s.msgEn := (rfl)
@[simp] theorem State.setEng_dma (s : State) (id : Nat) (o : EngOp) : (s.setEng id o).dma = s.dma := (rfl)
@[simp] theorem State.setEng_chk (s : State) (id : Nat) (o : EngOp) : (s.setEng id o).chk = s.chk := (rfl)
@[simp] theorem State.setEng_cmc (s : State) (id : Nat) (o : EngOp) : (s.setEng id o).cmc = s.cmc := (rfl)
@[simp] theorem State.setEng_cmr (s : State) (id : Nat) (o : EngOp) : (s.setEng id o).cmr = s.cmr := (rfl)
@[simp] theorem State.setEng_cmrOpen (s : State) (id : Nat) (o : EngOp) : (s.setEng id o).cmrOpen = s.cmrOpen := (rfl)
@[simp] theorem State.setEng_pwr (s : State) (id : Nat) (o : EngOp) : (s.setEng id o).pwr = s.pwr := (rfl)
@[simp] theorem State.setEng_well (s : State) (id : Nat) (o : EngOp) : (s.setEng id o).well = s.well := (rfl)
@[simp] theorem State.setEng_brush (s : State) (id : Nat) (o : EngOp) : (s.setEng id o).brush = s.brush := (rfl)
@[simp] theorem State.setEng_pins (s : State) (id : Nat) (o : EngOp) : (s.setEng id o).pins = s.pins := (rfl)
@[simp] theorem State.setEng_line (s : State) (id : Nat) (o : EngOp) : (s.setEng id o).line = s.line := (rfl)
@[simp] theorem State.setEng_casc2 (s : State) (id : Nat) (o : EngOp) : (s.setEng id o).casc2 = s.casc2 := (rfl)
@[simp] theorem State.setEng_casc3 (s : State) (id : Nat) (o : EngOp) : (s.setEng id o).casc3 = s.casc3 := (rfl)
@[simp] theorem State.setEng_order (s : State) (id : Nat) (o : EngOp) : (s.setEng id o).order = s.order := (rfl)
@[simp] theorem State.setEng_free (s : State) (id : Nat) (o : EngOp) : (s.setEng id o).free = s.free := (rfl)
@[simp] theorem State.setEng_pending (s : State) (id : Nat) (o : EngOp) : (s.setEng id o).pending = s.pending := (rfl)

/-! State.dropEng. -/

@[simp] theorem State.dropEng_regs (s : State) (id : Nat) : (s.dropEng id).regs = s.regs := (rfl)
@[simp] theorem State.dropEng_mem (s : State) (id : Nat) : (s.dropEng id).mem = s.mem := (rfl)
@[simp] theorem State.dropEng_marks (s : State) (id : Nat) : (s.dropEng id).marks = s.marks := (rfl)
@[simp] theorem State.dropEng_scrub (s : State) (id : Nat) : (s.dropEng id).scrub = s.scrub := (rfl)
@[simp] theorem State.dropEng_time (s : State) (id : Nat) : (s.dropEng id).time = s.time := (rfl)
@[simp] theorem State.dropEng_caps (s : State) (id : Nat) : (s.dropEng id).caps = s.caps := (rfl)
@[simp] theorem State.dropEng_lnch (s : State) (id : Nat) : (s.dropEng id).lnch = s.lnch := (rfl)
@[simp] theorem State.dropEng_ctx (s : State) (id : Nat) : (s.dropEng id).ctx = s.ctx := (rfl)
@[simp] theorem State.dropEng_sems (s : State) (id : Nat) : (s.dropEng id).sems = s.sems := (rfl)
@[simp] theorem State.dropEng_slots (s : State) (id : Nat) : (s.dropEng id).slots = s.slots := (rfl)
@[simp] theorem State.dropEng_ports (s : State) (id : Nat) : (s.dropEng id).ports = s.ports := (rfl)
@[simp] theorem State.dropEng_sya (s : State) (id : Nat) : (s.dropEng id).sya = s.sya := (rfl)
@[simp] theorem State.dropEng_syb (s : State) (id : Nat) : (s.dropEng id).syb = s.syb := (rfl)
@[simp] theorem State.dropEng_syt (s : State) (id : Nat) : (s.dropEng id).syt = s.syt := (rfl)
@[simp] theorem State.dropEng_tempConv (s : State) (id : Nat) : (s.dropEng id).tempConv = s.tempConv := (rfl)
@[simp] theorem State.dropEng_pos (s : State) (id : Nat) : (s.dropEng id).pos = s.pos := (rfl)
@[simp] theorem State.dropEng_palA (s : State) (id : Nat) : (s.dropEng id).palA = s.palA := (rfl)
@[simp] theorem State.dropEng_palB (s : State) (id : Nat) : (s.dropEng id).palB = s.palB := (rfl)
@[simp] theorem State.dropEng_ents (s : State) (id : Nat) : (s.dropEng id).ents = s.ents := (rfl)
@[simp] theorem State.dropEng_lanes (s : State) (id : Nat) : (s.dropEng id).lanes = s.lanes := (rfl)
@[simp] theorem State.dropEng_held (s : State) (id : Nat) : (s.dropEng id).held = s.held := (rfl)
@[simp] theorem State.dropEng_reqs (s : State) (id : Nat) : (s.dropEng id).reqs = s.reqs := (rfl)
@[simp] theorem State.dropEng_rslots (s : State) (id : Nat) : (s.dropEng id).rslots = s.rslots := (rfl)
@[simp] theorem State.dropEng_seqno (s : State) (id : Nat) : (s.dropEng id).seqno = s.seqno := (rfl)
@[simp] theorem State.dropEng_wins (s : State) (id : Nat) : (s.dropEng id).wins = s.wins := (rfl)
@[simp] theorem State.dropEng_ops (s : State) (id : Nat) : (s.dropEng id).ops = s.ops := (rfl)
@[simp] theorem State.dropEng_opNext (s : State) (id : Nat) : (s.dropEng id).opNext = s.opNext := (rfl)
@[simp] theorem State.dropEng_sent (s : State) (id : Nat) : (s.dropEng id).sent = s.sent := (rfl)
@[simp] theorem State.dropEng_accts (s : State) (id : Nat) : (s.dropEng id).accts = s.accts := (rfl)
@[simp] theorem State.dropEng_keys (s : State) (id : Nat) : (s.dropEng id).keys = s.keys := (rfl)
@[simp] theorem State.dropEng_keyData (s : State) (id : Nat) : (s.dropEng id).keyData = s.keyData := (rfl)
@[simp] theorem State.dropEng_aes (s : State) (id : Nat) : (s.dropEng id).aes = s.aes := (rfl)
@[simp] theorem State.dropEng_engNext (s : State) (id : Nat) : (s.dropEng id).engNext = s.engNext := (rfl)
@[simp] theorem State.dropEng_mac (s : State) (id : Nat) : (s.dropEng id).mac = s.mac := (rfl)
@[simp] theorem State.dropEng_wkr (s : State) (id : Nat) : (s.dropEng id).wkr = s.wkr := (rfl)
@[simp] theorem State.dropEng_msgQ (s : State) (id : Nat) : (s.dropEng id).msgQ = s.msgQ := (rfl)
@[simp] theorem State.dropEng_msgEn (s : State) (id : Nat) : (s.dropEng id).msgEn = s.msgEn := (rfl)
@[simp] theorem State.dropEng_dma (s : State) (id : Nat) : (s.dropEng id).dma = s.dma := (rfl)
@[simp] theorem State.dropEng_chk (s : State) (id : Nat) : (s.dropEng id).chk = s.chk := (rfl)
@[simp] theorem State.dropEng_cmc (s : State) (id : Nat) : (s.dropEng id).cmc = s.cmc := (rfl)
@[simp] theorem State.dropEng_cmr (s : State) (id : Nat) : (s.dropEng id).cmr = s.cmr := (rfl)
@[simp] theorem State.dropEng_cmrOpen (s : State) (id : Nat) : (s.dropEng id).cmrOpen = s.cmrOpen := (rfl)
@[simp] theorem State.dropEng_pwr (s : State) (id : Nat) : (s.dropEng id).pwr = s.pwr := (rfl)
@[simp] theorem State.dropEng_well (s : State) (id : Nat) : (s.dropEng id).well = s.well := (rfl)
@[simp] theorem State.dropEng_brush (s : State) (id : Nat) : (s.dropEng id).brush = s.brush := (rfl)
@[simp] theorem State.dropEng_pins (s : State) (id : Nat) : (s.dropEng id).pins = s.pins := (rfl)
@[simp] theorem State.dropEng_line (s : State) (id : Nat) : (s.dropEng id).line = s.line := (rfl)
@[simp] theorem State.dropEng_casc2 (s : State) (id : Nat) : (s.dropEng id).casc2 = s.casc2 := (rfl)
@[simp] theorem State.dropEng_casc3 (s : State) (id : Nat) : (s.dropEng id).casc3 = s.casc3 := (rfl)
@[simp] theorem State.dropEng_order (s : State) (id : Nat) : (s.dropEng id).order = s.order := (rfl)
@[simp] theorem State.dropEng_free (s : State) (id : Nat) : (s.dropEng id).free = s.free := (rfl)
@[simp] theorem State.dropEng_pending (s : State) (id : Nat) : (s.dropEng id).pending = s.pending := (rfl)

/-! State.setEnt. -/

@[simp] theorem State.setEnt_regs (s : State) (e : Nat) (x : Entry) : (s.setEnt e x).regs = s.regs := (rfl)
@[simp] theorem State.setEnt_mem (s : State) (e : Nat) (x : Entry) : (s.setEnt e x).mem = s.mem := (rfl)
@[simp] theorem State.setEnt_marks (s : State) (e : Nat) (x : Entry) : (s.setEnt e x).marks = s.marks := (rfl)
@[simp] theorem State.setEnt_scrub (s : State) (e : Nat) (x : Entry) : (s.setEnt e x).scrub = s.scrub := (rfl)
@[simp] theorem State.setEnt_time (s : State) (e : Nat) (x : Entry) : (s.setEnt e x).time = s.time := (rfl)
@[simp] theorem State.setEnt_caps (s : State) (e : Nat) (x : Entry) : (s.setEnt e x).caps = s.caps := (rfl)
@[simp] theorem State.setEnt_lnch (s : State) (e : Nat) (x : Entry) : (s.setEnt e x).lnch = s.lnch := (rfl)
@[simp] theorem State.setEnt_ctx (s : State) (e : Nat) (x : Entry) : (s.setEnt e x).ctx = s.ctx := (rfl)
@[simp] theorem State.setEnt_sems (s : State) (e : Nat) (x : Entry) : (s.setEnt e x).sems = s.sems := (rfl)
@[simp] theorem State.setEnt_slots (s : State) (e : Nat) (x : Entry) : (s.setEnt e x).slots = s.slots := (rfl)
@[simp] theorem State.setEnt_ports (s : State) (e : Nat) (x : Entry) : (s.setEnt e x).ports = s.ports := (rfl)
@[simp] theorem State.setEnt_sya (s : State) (e : Nat) (x : Entry) : (s.setEnt e x).sya = s.sya := (rfl)
@[simp] theorem State.setEnt_syb (s : State) (e : Nat) (x : Entry) : (s.setEnt e x).syb = s.syb := (rfl)
@[simp] theorem State.setEnt_syt (s : State) (e : Nat) (x : Entry) : (s.setEnt e x).syt = s.syt := (rfl)
@[simp] theorem State.setEnt_tempConv (s : State) (e : Nat) (x : Entry) : (s.setEnt e x).tempConv = s.tempConv := (rfl)
@[simp] theorem State.setEnt_pos (s : State) (e : Nat) (x : Entry) : (s.setEnt e x).pos = s.pos := (rfl)
@[simp] theorem State.setEnt_palA (s : State) (e : Nat) (x : Entry) : (s.setEnt e x).palA = s.palA := (rfl)
@[simp] theorem State.setEnt_palB (s : State) (e : Nat) (x : Entry) : (s.setEnt e x).palB = s.palB := (rfl)
@[simp] theorem State.setEnt_lanes (s : State) (e : Nat) (x : Entry) : (s.setEnt e x).lanes = s.lanes := (rfl)
@[simp] theorem State.setEnt_held (s : State) (e : Nat) (x : Entry) : (s.setEnt e x).held = s.held := (rfl)
@[simp] theorem State.setEnt_reqs (s : State) (e : Nat) (x : Entry) : (s.setEnt e x).reqs = s.reqs := (rfl)
@[simp] theorem State.setEnt_rslots (s : State) (e : Nat) (x : Entry) : (s.setEnt e x).rslots = s.rslots := (rfl)
@[simp] theorem State.setEnt_seqno (s : State) (e : Nat) (x : Entry) : (s.setEnt e x).seqno = s.seqno := (rfl)
@[simp] theorem State.setEnt_wins (s : State) (e : Nat) (x : Entry) : (s.setEnt e x).wins = s.wins := (rfl)
@[simp] theorem State.setEnt_ops (s : State) (e : Nat) (x : Entry) : (s.setEnt e x).ops = s.ops := (rfl)
@[simp] theorem State.setEnt_opNext (s : State) (e : Nat) (x : Entry) : (s.setEnt e x).opNext = s.opNext := (rfl)
@[simp] theorem State.setEnt_sent (s : State) (e : Nat) (x : Entry) : (s.setEnt e x).sent = s.sent := (rfl)
@[simp] theorem State.setEnt_accts (s : State) (e : Nat) (x : Entry) : (s.setEnt e x).accts = s.accts := (rfl)
@[simp] theorem State.setEnt_keys (s : State) (e : Nat) (x : Entry) : (s.setEnt e x).keys = s.keys := (rfl)
@[simp] theorem State.setEnt_keyData (s : State) (e : Nat) (x : Entry) : (s.setEnt e x).keyData = s.keyData := (rfl)
@[simp] theorem State.setEnt_aes (s : State) (e : Nat) (x : Entry) : (s.setEnt e x).aes = s.aes := (rfl)
@[simp] theorem State.setEnt_engs (s : State) (e : Nat) (x : Entry) : (s.setEnt e x).engs = s.engs := (rfl)
@[simp] theorem State.setEnt_engNext (s : State) (e : Nat) (x : Entry) : (s.setEnt e x).engNext = s.engNext := (rfl)
@[simp] theorem State.setEnt_mac (s : State) (e : Nat) (x : Entry) : (s.setEnt e x).mac = s.mac := (rfl)
@[simp] theorem State.setEnt_wkr (s : State) (e : Nat) (x : Entry) : (s.setEnt e x).wkr = s.wkr := (rfl)
@[simp] theorem State.setEnt_msgQ (s : State) (e : Nat) (x : Entry) : (s.setEnt e x).msgQ = s.msgQ := (rfl)
@[simp] theorem State.setEnt_msgEn (s : State) (e : Nat) (x : Entry) : (s.setEnt e x).msgEn = s.msgEn := (rfl)
@[simp] theorem State.setEnt_dma (s : State) (e : Nat) (x : Entry) : (s.setEnt e x).dma = s.dma := (rfl)
@[simp] theorem State.setEnt_chk (s : State) (e : Nat) (x : Entry) : (s.setEnt e x).chk = s.chk := (rfl)
@[simp] theorem State.setEnt_cmc (s : State) (e : Nat) (x : Entry) : (s.setEnt e x).cmc = s.cmc := (rfl)
@[simp] theorem State.setEnt_cmr (s : State) (e : Nat) (x : Entry) : (s.setEnt e x).cmr = s.cmr := (rfl)
@[simp] theorem State.setEnt_cmrOpen (s : State) (e : Nat) (x : Entry) : (s.setEnt e x).cmrOpen = s.cmrOpen := (rfl)
@[simp] theorem State.setEnt_pwr (s : State) (e : Nat) (x : Entry) : (s.setEnt e x).pwr = s.pwr := (rfl)
@[simp] theorem State.setEnt_well (s : State) (e : Nat) (x : Entry) : (s.setEnt e x).well = s.well := (rfl)
@[simp] theorem State.setEnt_brush (s : State) (e : Nat) (x : Entry) : (s.setEnt e x).brush = s.brush := (rfl)
@[simp] theorem State.setEnt_pins (s : State) (e : Nat) (x : Entry) : (s.setEnt e x).pins = s.pins := (rfl)
@[simp] theorem State.setEnt_line (s : State) (e : Nat) (x : Entry) : (s.setEnt e x).line = s.line := (rfl)
@[simp] theorem State.setEnt_casc2 (s : State) (e : Nat) (x : Entry) : (s.setEnt e x).casc2 = s.casc2 := (rfl)
@[simp] theorem State.setEnt_casc3 (s : State) (e : Nat) (x : Entry) : (s.setEnt e x).casc3 = s.casc3 := (rfl)
@[simp] theorem State.setEnt_order (s : State) (e : Nat) (x : Entry) : (s.setEnt e x).order = s.order := (rfl)
@[simp] theorem State.setEnt_free (s : State) (e : Nat) (x : Entry) : (s.setEnt e x).free = s.free := (rfl)
@[simp] theorem State.setEnt_pending (s : State) (e : Nat) (x : Entry) : (s.setEnt e x).pending = s.pending := (rfl)

/-! State.dropEnt. -/

@[simp] theorem State.dropEnt_regs (s : State) (e : Nat) : (s.dropEnt e).regs = s.regs := (rfl)
@[simp] theorem State.dropEnt_mem (s : State) (e : Nat) : (s.dropEnt e).mem = s.mem := (rfl)
@[simp] theorem State.dropEnt_marks (s : State) (e : Nat) : (s.dropEnt e).marks = s.marks := (rfl)
@[simp] theorem State.dropEnt_scrub (s : State) (e : Nat) : (s.dropEnt e).scrub = s.scrub := (rfl)
@[simp] theorem State.dropEnt_time (s : State) (e : Nat) : (s.dropEnt e).time = s.time := (rfl)
@[simp] theorem State.dropEnt_caps (s : State) (e : Nat) : (s.dropEnt e).caps = s.caps := (rfl)
@[simp] theorem State.dropEnt_lnch (s : State) (e : Nat) : (s.dropEnt e).lnch = s.lnch := (rfl)
@[simp] theorem State.dropEnt_ctx (s : State) (e : Nat) : (s.dropEnt e).ctx = s.ctx := (rfl)
@[simp] theorem State.dropEnt_sems (s : State) (e : Nat) : (s.dropEnt e).sems = s.sems := (rfl)
@[simp] theorem State.dropEnt_slots (s : State) (e : Nat) : (s.dropEnt e).slots = s.slots := (rfl)
@[simp] theorem State.dropEnt_ports (s : State) (e : Nat) : (s.dropEnt e).ports = s.ports := (rfl)
@[simp] theorem State.dropEnt_sya (s : State) (e : Nat) : (s.dropEnt e).sya = s.sya := (rfl)
@[simp] theorem State.dropEnt_syb (s : State) (e : Nat) : (s.dropEnt e).syb = s.syb := (rfl)
@[simp] theorem State.dropEnt_syt (s : State) (e : Nat) : (s.dropEnt e).syt = s.syt := (rfl)
@[simp] theorem State.dropEnt_tempConv (s : State) (e : Nat) : (s.dropEnt e).tempConv = s.tempConv := (rfl)
@[simp] theorem State.dropEnt_pos (s : State) (e : Nat) : (s.dropEnt e).pos = s.pos := (rfl)
@[simp] theorem State.dropEnt_palA (s : State) (e : Nat) : (s.dropEnt e).palA = s.palA := (rfl)
@[simp] theorem State.dropEnt_palB (s : State) (e : Nat) : (s.dropEnt e).palB = s.palB := (rfl)
@[simp] theorem State.dropEnt_lanes (s : State) (e : Nat) : (s.dropEnt e).lanes = s.lanes := (rfl)
@[simp] theorem State.dropEnt_held (s : State) (e : Nat) : (s.dropEnt e).held = s.held := (rfl)
@[simp] theorem State.dropEnt_reqs (s : State) (e : Nat) : (s.dropEnt e).reqs = s.reqs := (rfl)
@[simp] theorem State.dropEnt_rslots (s : State) (e : Nat) : (s.dropEnt e).rslots = s.rslots := (rfl)
@[simp] theorem State.dropEnt_seqno (s : State) (e : Nat) : (s.dropEnt e).seqno = s.seqno := (rfl)
@[simp] theorem State.dropEnt_wins (s : State) (e : Nat) : (s.dropEnt e).wins = s.wins := (rfl)
@[simp] theorem State.dropEnt_ops (s : State) (e : Nat) : (s.dropEnt e).ops = s.ops := (rfl)
@[simp] theorem State.dropEnt_opNext (s : State) (e : Nat) : (s.dropEnt e).opNext = s.opNext := (rfl)
@[simp] theorem State.dropEnt_sent (s : State) (e : Nat) : (s.dropEnt e).sent = s.sent := (rfl)
@[simp] theorem State.dropEnt_accts (s : State) (e : Nat) : (s.dropEnt e).accts = s.accts := (rfl)
@[simp] theorem State.dropEnt_keys (s : State) (e : Nat) : (s.dropEnt e).keys = s.keys := (rfl)
@[simp] theorem State.dropEnt_keyData (s : State) (e : Nat) : (s.dropEnt e).keyData = s.keyData := (rfl)
@[simp] theorem State.dropEnt_aes (s : State) (e : Nat) : (s.dropEnt e).aes = s.aes := (rfl)
@[simp] theorem State.dropEnt_engs (s : State) (e : Nat) : (s.dropEnt e).engs = s.engs := (rfl)
@[simp] theorem State.dropEnt_engNext (s : State) (e : Nat) : (s.dropEnt e).engNext = s.engNext := (rfl)
@[simp] theorem State.dropEnt_mac (s : State) (e : Nat) : (s.dropEnt e).mac = s.mac := (rfl)
@[simp] theorem State.dropEnt_wkr (s : State) (e : Nat) : (s.dropEnt e).wkr = s.wkr := (rfl)
@[simp] theorem State.dropEnt_msgQ (s : State) (e : Nat) : (s.dropEnt e).msgQ = s.msgQ := (rfl)
@[simp] theorem State.dropEnt_msgEn (s : State) (e : Nat) : (s.dropEnt e).msgEn = s.msgEn := (rfl)
@[simp] theorem State.dropEnt_dma (s : State) (e : Nat) : (s.dropEnt e).dma = s.dma := (rfl)
@[simp] theorem State.dropEnt_chk (s : State) (e : Nat) : (s.dropEnt e).chk = s.chk := (rfl)
@[simp] theorem State.dropEnt_cmc (s : State) (e : Nat) : (s.dropEnt e).cmc = s.cmc := (rfl)
@[simp] theorem State.dropEnt_cmr (s : State) (e : Nat) : (s.dropEnt e).cmr = s.cmr := (rfl)
@[simp] theorem State.dropEnt_cmrOpen (s : State) (e : Nat) : (s.dropEnt e).cmrOpen = s.cmrOpen := (rfl)
@[simp] theorem State.dropEnt_pwr (s : State) (e : Nat) : (s.dropEnt e).pwr = s.pwr := (rfl)
@[simp] theorem State.dropEnt_well (s : State) (e : Nat) : (s.dropEnt e).well = s.well := (rfl)
@[simp] theorem State.dropEnt_brush (s : State) (e : Nat) : (s.dropEnt e).brush = s.brush := (rfl)
@[simp] theorem State.dropEnt_pins (s : State) (e : Nat) : (s.dropEnt e).pins = s.pins := (rfl)
@[simp] theorem State.dropEnt_line (s : State) (e : Nat) : (s.dropEnt e).line = s.line := (rfl)
@[simp] theorem State.dropEnt_casc2 (s : State) (e : Nat) : (s.dropEnt e).casc2 = s.casc2 := (rfl)
@[simp] theorem State.dropEnt_casc3 (s : State) (e : Nat) : (s.dropEnt e).casc3 = s.casc3 := (rfl)
@[simp] theorem State.dropEnt_order (s : State) (e : Nat) : (s.dropEnt e).order = s.order := (rfl)
@[simp] theorem State.dropEnt_free (s : State) (e : Nat) : (s.dropEnt e).free = s.free := (rfl)
@[simp] theorem State.dropEnt_pending (s : State) (e : Nat) : (s.dropEnt e).pending = s.pending := (rfl)

/-! State.setLane. -/

@[simp] theorem State.setLane_regs (s : State) (l : Nat) (x : Lane) : (s.setLane l x).regs = s.regs := (rfl)
@[simp] theorem State.setLane_mem (s : State) (l : Nat) (x : Lane) : (s.setLane l x).mem = s.mem := (rfl)
@[simp] theorem State.setLane_marks (s : State) (l : Nat) (x : Lane) : (s.setLane l x).marks = s.marks := (rfl)
@[simp] theorem State.setLane_scrub (s : State) (l : Nat) (x : Lane) : (s.setLane l x).scrub = s.scrub := (rfl)
@[simp] theorem State.setLane_time (s : State) (l : Nat) (x : Lane) : (s.setLane l x).time = s.time := (rfl)
@[simp] theorem State.setLane_caps (s : State) (l : Nat) (x : Lane) : (s.setLane l x).caps = s.caps := (rfl)
@[simp] theorem State.setLane_lnch (s : State) (l : Nat) (x : Lane) : (s.setLane l x).lnch = s.lnch := (rfl)
@[simp] theorem State.setLane_ctx (s : State) (l : Nat) (x : Lane) : (s.setLane l x).ctx = s.ctx := (rfl)
@[simp] theorem State.setLane_sems (s : State) (l : Nat) (x : Lane) : (s.setLane l x).sems = s.sems := (rfl)
@[simp] theorem State.setLane_slots (s : State) (l : Nat) (x : Lane) : (s.setLane l x).slots = s.slots := (rfl)
@[simp] theorem State.setLane_ports (s : State) (l : Nat) (x : Lane) : (s.setLane l x).ports = s.ports := (rfl)
@[simp] theorem State.setLane_sya (s : State) (l : Nat) (x : Lane) : (s.setLane l x).sya = s.sya := (rfl)
@[simp] theorem State.setLane_syb (s : State) (l : Nat) (x : Lane) : (s.setLane l x).syb = s.syb := (rfl)
@[simp] theorem State.setLane_syt (s : State) (l : Nat) (x : Lane) : (s.setLane l x).syt = s.syt := (rfl)
@[simp] theorem State.setLane_tempConv (s : State) (l : Nat) (x : Lane) : (s.setLane l x).tempConv = s.tempConv := (rfl)
@[simp] theorem State.setLane_pos (s : State) (l : Nat) (x : Lane) : (s.setLane l x).pos = s.pos := (rfl)
@[simp] theorem State.setLane_palA (s : State) (l : Nat) (x : Lane) : (s.setLane l x).palA = s.palA := (rfl)
@[simp] theorem State.setLane_palB (s : State) (l : Nat) (x : Lane) : (s.setLane l x).palB = s.palB := (rfl)
@[simp] theorem State.setLane_ents (s : State) (l : Nat) (x : Lane) : (s.setLane l x).ents = s.ents := (rfl)
@[simp] theorem State.setLane_held (s : State) (l : Nat) (x : Lane) : (s.setLane l x).held = s.held := (rfl)
@[simp] theorem State.setLane_reqs (s : State) (l : Nat) (x : Lane) : (s.setLane l x).reqs = s.reqs := (rfl)
@[simp] theorem State.setLane_rslots (s : State) (l : Nat) (x : Lane) : (s.setLane l x).rslots = s.rslots := (rfl)
@[simp] theorem State.setLane_seqno (s : State) (l : Nat) (x : Lane) : (s.setLane l x).seqno = s.seqno := (rfl)
@[simp] theorem State.setLane_wins (s : State) (l : Nat) (x : Lane) : (s.setLane l x).wins = s.wins := (rfl)
@[simp] theorem State.setLane_ops (s : State) (l : Nat) (x : Lane) : (s.setLane l x).ops = s.ops := (rfl)
@[simp] theorem State.setLane_opNext (s : State) (l : Nat) (x : Lane) : (s.setLane l x).opNext = s.opNext := (rfl)
@[simp] theorem State.setLane_sent (s : State) (l : Nat) (x : Lane) : (s.setLane l x).sent = s.sent := (rfl)
@[simp] theorem State.setLane_accts (s : State) (l : Nat) (x : Lane) : (s.setLane l x).accts = s.accts := (rfl)
@[simp] theorem State.setLane_keys (s : State) (l : Nat) (x : Lane) : (s.setLane l x).keys = s.keys := (rfl)
@[simp] theorem State.setLane_keyData (s : State) (l : Nat) (x : Lane) : (s.setLane l x).keyData = s.keyData := (rfl)
@[simp] theorem State.setLane_aes (s : State) (l : Nat) (x : Lane) : (s.setLane l x).aes = s.aes := (rfl)
@[simp] theorem State.setLane_engs (s : State) (l : Nat) (x : Lane) : (s.setLane l x).engs = s.engs := (rfl)
@[simp] theorem State.setLane_engNext (s : State) (l : Nat) (x : Lane) : (s.setLane l x).engNext = s.engNext := (rfl)
@[simp] theorem State.setLane_mac (s : State) (l : Nat) (x : Lane) : (s.setLane l x).mac = s.mac := (rfl)
@[simp] theorem State.setLane_wkr (s : State) (l : Nat) (x : Lane) : (s.setLane l x).wkr = s.wkr := (rfl)
@[simp] theorem State.setLane_msgQ (s : State) (l : Nat) (x : Lane) : (s.setLane l x).msgQ = s.msgQ := (rfl)
@[simp] theorem State.setLane_msgEn (s : State) (l : Nat) (x : Lane) : (s.setLane l x).msgEn = s.msgEn := (rfl)
@[simp] theorem State.setLane_dma (s : State) (l : Nat) (x : Lane) : (s.setLane l x).dma = s.dma := (rfl)
@[simp] theorem State.setLane_chk (s : State) (l : Nat) (x : Lane) : (s.setLane l x).chk = s.chk := (rfl)
@[simp] theorem State.setLane_cmc (s : State) (l : Nat) (x : Lane) : (s.setLane l x).cmc = s.cmc := (rfl)
@[simp] theorem State.setLane_cmr (s : State) (l : Nat) (x : Lane) : (s.setLane l x).cmr = s.cmr := (rfl)
@[simp] theorem State.setLane_cmrOpen (s : State) (l : Nat) (x : Lane) : (s.setLane l x).cmrOpen = s.cmrOpen := (rfl)
@[simp] theorem State.setLane_pwr (s : State) (l : Nat) (x : Lane) : (s.setLane l x).pwr = s.pwr := (rfl)
@[simp] theorem State.setLane_well (s : State) (l : Nat) (x : Lane) : (s.setLane l x).well = s.well := (rfl)
@[simp] theorem State.setLane_brush (s : State) (l : Nat) (x : Lane) : (s.setLane l x).brush = s.brush := (rfl)
@[simp] theorem State.setLane_pins (s : State) (l : Nat) (x : Lane) : (s.setLane l x).pins = s.pins := (rfl)
@[simp] theorem State.setLane_line (s : State) (l : Nat) (x : Lane) : (s.setLane l x).line = s.line := (rfl)
@[simp] theorem State.setLane_casc2 (s : State) (l : Nat) (x : Lane) : (s.setLane l x).casc2 = s.casc2 := (rfl)
@[simp] theorem State.setLane_casc3 (s : State) (l : Nat) (x : Lane) : (s.setLane l x).casc3 = s.casc3 := (rfl)
@[simp] theorem State.setLane_order (s : State) (l : Nat) (x : Lane) : (s.setLane l x).order = s.order := (rfl)
@[simp] theorem State.setLane_free (s : State) (l : Nat) (x : Lane) : (s.setLane l x).free = s.free := (rfl)
@[simp] theorem State.setLane_pending (s : State) (l : Nat) (x : Lane) : (s.setLane l x).pending = s.pending := (rfl)

/-! State.dropLane. -/

@[simp] theorem State.dropLane_regs (s : State) (l : Nat) : (s.dropLane l).regs = s.regs := (rfl)
@[simp] theorem State.dropLane_mem (s : State) (l : Nat) : (s.dropLane l).mem = s.mem := (rfl)
@[simp] theorem State.dropLane_marks (s : State) (l : Nat) : (s.dropLane l).marks = s.marks := (rfl)
@[simp] theorem State.dropLane_scrub (s : State) (l : Nat) : (s.dropLane l).scrub = s.scrub := (rfl)
@[simp] theorem State.dropLane_time (s : State) (l : Nat) : (s.dropLane l).time = s.time := (rfl)
@[simp] theorem State.dropLane_caps (s : State) (l : Nat) : (s.dropLane l).caps = s.caps := (rfl)
@[simp] theorem State.dropLane_lnch (s : State) (l : Nat) : (s.dropLane l).lnch = s.lnch := (rfl)
@[simp] theorem State.dropLane_ctx (s : State) (l : Nat) : (s.dropLane l).ctx = s.ctx := (rfl)
@[simp] theorem State.dropLane_sems (s : State) (l : Nat) : (s.dropLane l).sems = s.sems := (rfl)
@[simp] theorem State.dropLane_slots (s : State) (l : Nat) : (s.dropLane l).slots = s.slots := (rfl)
@[simp] theorem State.dropLane_ports (s : State) (l : Nat) : (s.dropLane l).ports = s.ports := (rfl)
@[simp] theorem State.dropLane_sya (s : State) (l : Nat) : (s.dropLane l).sya = s.sya := (rfl)
@[simp] theorem State.dropLane_syb (s : State) (l : Nat) : (s.dropLane l).syb = s.syb := (rfl)
@[simp] theorem State.dropLane_syt (s : State) (l : Nat) : (s.dropLane l).syt = s.syt := (rfl)
@[simp] theorem State.dropLane_tempConv (s : State) (l : Nat) : (s.dropLane l).tempConv = s.tempConv := (rfl)
@[simp] theorem State.dropLane_pos (s : State) (l : Nat) : (s.dropLane l).pos = s.pos := (rfl)
@[simp] theorem State.dropLane_palA (s : State) (l : Nat) : (s.dropLane l).palA = s.palA := (rfl)
@[simp] theorem State.dropLane_palB (s : State) (l : Nat) : (s.dropLane l).palB = s.palB := (rfl)
@[simp] theorem State.dropLane_ents (s : State) (l : Nat) : (s.dropLane l).ents = s.ents := (rfl)
@[simp] theorem State.dropLane_held (s : State) (l : Nat) : (s.dropLane l).held = s.held := (rfl)
@[simp] theorem State.dropLane_reqs (s : State) (l : Nat) : (s.dropLane l).reqs = s.reqs := (rfl)
@[simp] theorem State.dropLane_rslots (s : State) (l : Nat) : (s.dropLane l).rslots = s.rslots := (rfl)
@[simp] theorem State.dropLane_seqno (s : State) (l : Nat) : (s.dropLane l).seqno = s.seqno := (rfl)
@[simp] theorem State.dropLane_wins (s : State) (l : Nat) : (s.dropLane l).wins = s.wins := (rfl)
@[simp] theorem State.dropLane_ops (s : State) (l : Nat) : (s.dropLane l).ops = s.ops := (rfl)
@[simp] theorem State.dropLane_opNext (s : State) (l : Nat) : (s.dropLane l).opNext = s.opNext := (rfl)
@[simp] theorem State.dropLane_sent (s : State) (l : Nat) : (s.dropLane l).sent = s.sent := (rfl)
@[simp] theorem State.dropLane_accts (s : State) (l : Nat) : (s.dropLane l).accts = s.accts := (rfl)
@[simp] theorem State.dropLane_keys (s : State) (l : Nat) : (s.dropLane l).keys = s.keys := (rfl)
@[simp] theorem State.dropLane_keyData (s : State) (l : Nat) : (s.dropLane l).keyData = s.keyData := (rfl)
@[simp] theorem State.dropLane_aes (s : State) (l : Nat) : (s.dropLane l).aes = s.aes := (rfl)
@[simp] theorem State.dropLane_engs (s : State) (l : Nat) : (s.dropLane l).engs = s.engs := (rfl)
@[simp] theorem State.dropLane_engNext (s : State) (l : Nat) : (s.dropLane l).engNext = s.engNext := (rfl)
@[simp] theorem State.dropLane_mac (s : State) (l : Nat) : (s.dropLane l).mac = s.mac := (rfl)
@[simp] theorem State.dropLane_wkr (s : State) (l : Nat) : (s.dropLane l).wkr = s.wkr := (rfl)
@[simp] theorem State.dropLane_msgQ (s : State) (l : Nat) : (s.dropLane l).msgQ = s.msgQ := (rfl)
@[simp] theorem State.dropLane_msgEn (s : State) (l : Nat) : (s.dropLane l).msgEn = s.msgEn := (rfl)
@[simp] theorem State.dropLane_dma (s : State) (l : Nat) : (s.dropLane l).dma = s.dma := (rfl)
@[simp] theorem State.dropLane_chk (s : State) (l : Nat) : (s.dropLane l).chk = s.chk := (rfl)
@[simp] theorem State.dropLane_cmc (s : State) (l : Nat) : (s.dropLane l).cmc = s.cmc := (rfl)
@[simp] theorem State.dropLane_cmr (s : State) (l : Nat) : (s.dropLane l).cmr = s.cmr := (rfl)
@[simp] theorem State.dropLane_cmrOpen (s : State) (l : Nat) : (s.dropLane l).cmrOpen = s.cmrOpen := (rfl)
@[simp] theorem State.dropLane_pwr (s : State) (l : Nat) : (s.dropLane l).pwr = s.pwr := (rfl)
@[simp] theorem State.dropLane_well (s : State) (l : Nat) : (s.dropLane l).well = s.well := (rfl)
@[simp] theorem State.dropLane_brush (s : State) (l : Nat) : (s.dropLane l).brush = s.brush := (rfl)
@[simp] theorem State.dropLane_pins (s : State) (l : Nat) : (s.dropLane l).pins = s.pins := (rfl)
@[simp] theorem State.dropLane_line (s : State) (l : Nat) : (s.dropLane l).line = s.line := (rfl)
@[simp] theorem State.dropLane_casc2 (s : State) (l : Nat) : (s.dropLane l).casc2 = s.casc2 := (rfl)
@[simp] theorem State.dropLane_casc3 (s : State) (l : Nat) : (s.dropLane l).casc3 = s.casc3 := (rfl)
@[simp] theorem State.dropLane_order (s : State) (l : Nat) : (s.dropLane l).order = s.order := (rfl)
@[simp] theorem State.dropLane_free (s : State) (l : Nat) : (s.dropLane l).free = s.free := (rfl)
@[simp] theorem State.dropLane_pending (s : State) (l : Nat) : (s.dropLane l).pending = s.pending := (rfl)

/-! State.setRslot. -/

@[simp] theorem State.setRslot_regs (s : State) (n : Nat) (x : Recov) : (s.setRslot n x).regs = s.regs := (rfl)
@[simp] theorem State.setRslot_mem (s : State) (n : Nat) (x : Recov) : (s.setRslot n x).mem = s.mem := (rfl)
@[simp] theorem State.setRslot_marks (s : State) (n : Nat) (x : Recov) : (s.setRslot n x).marks = s.marks := (rfl)
@[simp] theorem State.setRslot_scrub (s : State) (n : Nat) (x : Recov) : (s.setRslot n x).scrub = s.scrub := (rfl)
@[simp] theorem State.setRslot_time (s : State) (n : Nat) (x : Recov) : (s.setRslot n x).time = s.time := (rfl)
@[simp] theorem State.setRslot_caps (s : State) (n : Nat) (x : Recov) : (s.setRslot n x).caps = s.caps := (rfl)
@[simp] theorem State.setRslot_lnch (s : State) (n : Nat) (x : Recov) : (s.setRslot n x).lnch = s.lnch := (rfl)
@[simp] theorem State.setRslot_ctx (s : State) (n : Nat) (x : Recov) : (s.setRslot n x).ctx = s.ctx := (rfl)
@[simp] theorem State.setRslot_sems (s : State) (n : Nat) (x : Recov) : (s.setRslot n x).sems = s.sems := (rfl)
@[simp] theorem State.setRslot_slots (s : State) (n : Nat) (x : Recov) : (s.setRslot n x).slots = s.slots := (rfl)
@[simp] theorem State.setRslot_ports (s : State) (n : Nat) (x : Recov) : (s.setRslot n x).ports = s.ports := (rfl)
@[simp] theorem State.setRslot_sya (s : State) (n : Nat) (x : Recov) : (s.setRslot n x).sya = s.sya := (rfl)
@[simp] theorem State.setRslot_syb (s : State) (n : Nat) (x : Recov) : (s.setRslot n x).syb = s.syb := (rfl)
@[simp] theorem State.setRslot_syt (s : State) (n : Nat) (x : Recov) : (s.setRslot n x).syt = s.syt := (rfl)
@[simp] theorem State.setRslot_tempConv (s : State) (n : Nat) (x : Recov) : (s.setRslot n x).tempConv = s.tempConv := (rfl)
@[simp] theorem State.setRslot_pos (s : State) (n : Nat) (x : Recov) : (s.setRslot n x).pos = s.pos := (rfl)
@[simp] theorem State.setRslot_palA (s : State) (n : Nat) (x : Recov) : (s.setRslot n x).palA = s.palA := (rfl)
@[simp] theorem State.setRslot_palB (s : State) (n : Nat) (x : Recov) : (s.setRslot n x).palB = s.palB := (rfl)
@[simp] theorem State.setRslot_ents (s : State) (n : Nat) (x : Recov) : (s.setRslot n x).ents = s.ents := (rfl)
@[simp] theorem State.setRslot_lanes (s : State) (n : Nat) (x : Recov) : (s.setRslot n x).lanes = s.lanes := (rfl)
@[simp] theorem State.setRslot_held (s : State) (n : Nat) (x : Recov) : (s.setRslot n x).held = s.held := (rfl)
@[simp] theorem State.setRslot_reqs (s : State) (n : Nat) (x : Recov) : (s.setRslot n x).reqs = s.reqs := (rfl)
@[simp] theorem State.setRslot_seqno (s : State) (n : Nat) (x : Recov) : (s.setRslot n x).seqno = s.seqno := (rfl)
@[simp] theorem State.setRslot_wins (s : State) (n : Nat) (x : Recov) : (s.setRslot n x).wins = s.wins := (rfl)
@[simp] theorem State.setRslot_ops (s : State) (n : Nat) (x : Recov) : (s.setRslot n x).ops = s.ops := (rfl)
@[simp] theorem State.setRslot_opNext (s : State) (n : Nat) (x : Recov) : (s.setRslot n x).opNext = s.opNext := (rfl)
@[simp] theorem State.setRslot_sent (s : State) (n : Nat) (x : Recov) : (s.setRslot n x).sent = s.sent := (rfl)
@[simp] theorem State.setRslot_accts (s : State) (n : Nat) (x : Recov) : (s.setRslot n x).accts = s.accts := (rfl)
@[simp] theorem State.setRslot_keys (s : State) (n : Nat) (x : Recov) : (s.setRslot n x).keys = s.keys := (rfl)
@[simp] theorem State.setRslot_keyData (s : State) (n : Nat) (x : Recov) : (s.setRslot n x).keyData = s.keyData := (rfl)
@[simp] theorem State.setRslot_aes (s : State) (n : Nat) (x : Recov) : (s.setRslot n x).aes = s.aes := (rfl)
@[simp] theorem State.setRslot_engs (s : State) (n : Nat) (x : Recov) : (s.setRslot n x).engs = s.engs := (rfl)
@[simp] theorem State.setRslot_engNext (s : State) (n : Nat) (x : Recov) : (s.setRslot n x).engNext = s.engNext := (rfl)
@[simp] theorem State.setRslot_mac (s : State) (n : Nat) (x : Recov) : (s.setRslot n x).mac = s.mac := (rfl)
@[simp] theorem State.setRslot_wkr (s : State) (n : Nat) (x : Recov) : (s.setRslot n x).wkr = s.wkr := (rfl)
@[simp] theorem State.setRslot_msgQ (s : State) (n : Nat) (x : Recov) : (s.setRslot n x).msgQ = s.msgQ := (rfl)
@[simp] theorem State.setRslot_msgEn (s : State) (n : Nat) (x : Recov) : (s.setRslot n x).msgEn = s.msgEn := (rfl)
@[simp] theorem State.setRslot_dma (s : State) (n : Nat) (x : Recov) : (s.setRslot n x).dma = s.dma := (rfl)
@[simp] theorem State.setRslot_chk (s : State) (n : Nat) (x : Recov) : (s.setRslot n x).chk = s.chk := (rfl)
@[simp] theorem State.setRslot_cmc (s : State) (n : Nat) (x : Recov) : (s.setRslot n x).cmc = s.cmc := (rfl)
@[simp] theorem State.setRslot_cmr (s : State) (n : Nat) (x : Recov) : (s.setRslot n x).cmr = s.cmr := (rfl)
@[simp] theorem State.setRslot_cmrOpen (s : State) (n : Nat) (x : Recov) : (s.setRslot n x).cmrOpen = s.cmrOpen := (rfl)
@[simp] theorem State.setRslot_pwr (s : State) (n : Nat) (x : Recov) : (s.setRslot n x).pwr = s.pwr := (rfl)
@[simp] theorem State.setRslot_well (s : State) (n : Nat) (x : Recov) : (s.setRslot n x).well = s.well := (rfl)
@[simp] theorem State.setRslot_brush (s : State) (n : Nat) (x : Recov) : (s.setRslot n x).brush = s.brush := (rfl)
@[simp] theorem State.setRslot_pins (s : State) (n : Nat) (x : Recov) : (s.setRslot n x).pins = s.pins := (rfl)
@[simp] theorem State.setRslot_line (s : State) (n : Nat) (x : Recov) : (s.setRslot n x).line = s.line := (rfl)
@[simp] theorem State.setRslot_casc2 (s : State) (n : Nat) (x : Recov) : (s.setRslot n x).casc2 = s.casc2 := (rfl)
@[simp] theorem State.setRslot_casc3 (s : State) (n : Nat) (x : Recov) : (s.setRslot n x).casc3 = s.casc3 := (rfl)
@[simp] theorem State.setRslot_order (s : State) (n : Nat) (x : Recov) : (s.setRslot n x).order = s.order := (rfl)
@[simp] theorem State.setRslot_free (s : State) (n : Nat) (x : Recov) : (s.setRslot n x).free = s.free := (rfl)
@[simp] theorem State.setRslot_pending (s : State) (n : Nat) (x : Recov) : (s.setRslot n x).pending = s.pending := (rfl)

/-! State.dropRslot. -/

@[simp] theorem State.dropRslot_regs (s : State) (n : Nat) : (s.dropRslot n).regs = s.regs := (rfl)
@[simp] theorem State.dropRslot_mem (s : State) (n : Nat) : (s.dropRslot n).mem = s.mem := (rfl)
@[simp] theorem State.dropRslot_marks (s : State) (n : Nat) : (s.dropRslot n).marks = s.marks := (rfl)
@[simp] theorem State.dropRslot_scrub (s : State) (n : Nat) : (s.dropRslot n).scrub = s.scrub := (rfl)
@[simp] theorem State.dropRslot_time (s : State) (n : Nat) : (s.dropRslot n).time = s.time := (rfl)
@[simp] theorem State.dropRslot_caps (s : State) (n : Nat) : (s.dropRslot n).caps = s.caps := (rfl)
@[simp] theorem State.dropRslot_lnch (s : State) (n : Nat) : (s.dropRslot n).lnch = s.lnch := (rfl)
@[simp] theorem State.dropRslot_ctx (s : State) (n : Nat) : (s.dropRslot n).ctx = s.ctx := (rfl)
@[simp] theorem State.dropRslot_sems (s : State) (n : Nat) : (s.dropRslot n).sems = s.sems := (rfl)
@[simp] theorem State.dropRslot_slots (s : State) (n : Nat) : (s.dropRslot n).slots = s.slots := (rfl)
@[simp] theorem State.dropRslot_ports (s : State) (n : Nat) : (s.dropRslot n).ports = s.ports := (rfl)
@[simp] theorem State.dropRslot_sya (s : State) (n : Nat) : (s.dropRslot n).sya = s.sya := (rfl)
@[simp] theorem State.dropRslot_syb (s : State) (n : Nat) : (s.dropRslot n).syb = s.syb := (rfl)
@[simp] theorem State.dropRslot_syt (s : State) (n : Nat) : (s.dropRslot n).syt = s.syt := (rfl)
@[simp] theorem State.dropRslot_tempConv (s : State) (n : Nat) : (s.dropRslot n).tempConv = s.tempConv := (rfl)
@[simp] theorem State.dropRslot_pos (s : State) (n : Nat) : (s.dropRslot n).pos = s.pos := (rfl)
@[simp] theorem State.dropRslot_palA (s : State) (n : Nat) : (s.dropRslot n).palA = s.palA := (rfl)
@[simp] theorem State.dropRslot_palB (s : State) (n : Nat) : (s.dropRslot n).palB = s.palB := (rfl)
@[simp] theorem State.dropRslot_ents (s : State) (n : Nat) : (s.dropRslot n).ents = s.ents := (rfl)
@[simp] theorem State.dropRslot_lanes (s : State) (n : Nat) : (s.dropRslot n).lanes = s.lanes := (rfl)
@[simp] theorem State.dropRslot_held (s : State) (n : Nat) : (s.dropRslot n).held = s.held := (rfl)
@[simp] theorem State.dropRslot_reqs (s : State) (n : Nat) : (s.dropRslot n).reqs = s.reqs := (rfl)
@[simp] theorem State.dropRslot_seqno (s : State) (n : Nat) : (s.dropRslot n).seqno = s.seqno := (rfl)
@[simp] theorem State.dropRslot_wins (s : State) (n : Nat) : (s.dropRslot n).wins = s.wins := (rfl)
@[simp] theorem State.dropRslot_ops (s : State) (n : Nat) : (s.dropRslot n).ops = s.ops := (rfl)
@[simp] theorem State.dropRslot_opNext (s : State) (n : Nat) : (s.dropRslot n).opNext = s.opNext := (rfl)
@[simp] theorem State.dropRslot_sent (s : State) (n : Nat) : (s.dropRslot n).sent = s.sent := (rfl)
@[simp] theorem State.dropRslot_accts (s : State) (n : Nat) : (s.dropRslot n).accts = s.accts := (rfl)
@[simp] theorem State.dropRslot_keys (s : State) (n : Nat) : (s.dropRslot n).keys = s.keys := (rfl)
@[simp] theorem State.dropRslot_keyData (s : State) (n : Nat) : (s.dropRslot n).keyData = s.keyData := (rfl)
@[simp] theorem State.dropRslot_aes (s : State) (n : Nat) : (s.dropRslot n).aes = s.aes := (rfl)
@[simp] theorem State.dropRslot_engs (s : State) (n : Nat) : (s.dropRslot n).engs = s.engs := (rfl)
@[simp] theorem State.dropRslot_engNext (s : State) (n : Nat) : (s.dropRslot n).engNext = s.engNext := (rfl)
@[simp] theorem State.dropRslot_mac (s : State) (n : Nat) : (s.dropRslot n).mac = s.mac := (rfl)
@[simp] theorem State.dropRslot_wkr (s : State) (n : Nat) : (s.dropRslot n).wkr = s.wkr := (rfl)
@[simp] theorem State.dropRslot_msgQ (s : State) (n : Nat) : (s.dropRslot n).msgQ = s.msgQ := (rfl)
@[simp] theorem State.dropRslot_msgEn (s : State) (n : Nat) : (s.dropRslot n).msgEn = s.msgEn := (rfl)
@[simp] theorem State.dropRslot_dma (s : State) (n : Nat) : (s.dropRslot n).dma = s.dma := (rfl)
@[simp] theorem State.dropRslot_chk (s : State) (n : Nat) : (s.dropRslot n).chk = s.chk := (rfl)
@[simp] theorem State.dropRslot_cmc (s : State) (n : Nat) : (s.dropRslot n).cmc = s.cmc := (rfl)
@[simp] theorem State.dropRslot_cmr (s : State) (n : Nat) : (s.dropRslot n).cmr = s.cmr := (rfl)
@[simp] theorem State.dropRslot_cmrOpen (s : State) (n : Nat) : (s.dropRslot n).cmrOpen = s.cmrOpen := (rfl)
@[simp] theorem State.dropRslot_pwr (s : State) (n : Nat) : (s.dropRslot n).pwr = s.pwr := (rfl)
@[simp] theorem State.dropRslot_well (s : State) (n : Nat) : (s.dropRslot n).well = s.well := (rfl)
@[simp] theorem State.dropRslot_brush (s : State) (n : Nat) : (s.dropRslot n).brush = s.brush := (rfl)
@[simp] theorem State.dropRslot_pins (s : State) (n : Nat) : (s.dropRslot n).pins = s.pins := (rfl)
@[simp] theorem State.dropRslot_line (s : State) (n : Nat) : (s.dropRslot n).line = s.line := (rfl)
@[simp] theorem State.dropRslot_casc2 (s : State) (n : Nat) : (s.dropRslot n).casc2 = s.casc2 := (rfl)
@[simp] theorem State.dropRslot_casc3 (s : State) (n : Nat) : (s.dropRslot n).casc3 = s.casc3 := (rfl)
@[simp] theorem State.dropRslot_order (s : State) (n : Nat) : (s.dropRslot n).order = s.order := (rfl)
@[simp] theorem State.dropRslot_free (s : State) (n : Nat) : (s.dropRslot n).free = s.free := (rfl)
@[simp] theorem State.dropRslot_pending (s : State) (n : Nat) : (s.dropRslot n).pending = s.pending := (rfl)

/-! State.setKey. -/

@[simp] theorem State.setKey_regs (s : State) (k : Nat) (x : Key) : (s.setKey k x).regs = s.regs := (rfl)
@[simp] theorem State.setKey_mem (s : State) (k : Nat) (x : Key) : (s.setKey k x).mem = s.mem := (rfl)
@[simp] theorem State.setKey_marks (s : State) (k : Nat) (x : Key) : (s.setKey k x).marks = s.marks := (rfl)
@[simp] theorem State.setKey_scrub (s : State) (k : Nat) (x : Key) : (s.setKey k x).scrub = s.scrub := (rfl)
@[simp] theorem State.setKey_time (s : State) (k : Nat) (x : Key) : (s.setKey k x).time = s.time := (rfl)
@[simp] theorem State.setKey_caps (s : State) (k : Nat) (x : Key) : (s.setKey k x).caps = s.caps := (rfl)
@[simp] theorem State.setKey_lnch (s : State) (k : Nat) (x : Key) : (s.setKey k x).lnch = s.lnch := (rfl)
@[simp] theorem State.setKey_ctx (s : State) (k : Nat) (x : Key) : (s.setKey k x).ctx = s.ctx := (rfl)
@[simp] theorem State.setKey_sems (s : State) (k : Nat) (x : Key) : (s.setKey k x).sems = s.sems := (rfl)
@[simp] theorem State.setKey_slots (s : State) (k : Nat) (x : Key) : (s.setKey k x).slots = s.slots := (rfl)
@[simp] theorem State.setKey_ports (s : State) (k : Nat) (x : Key) : (s.setKey k x).ports = s.ports := (rfl)
@[simp] theorem State.setKey_sya (s : State) (k : Nat) (x : Key) : (s.setKey k x).sya = s.sya := (rfl)
@[simp] theorem State.setKey_syb (s : State) (k : Nat) (x : Key) : (s.setKey k x).syb = s.syb := (rfl)
@[simp] theorem State.setKey_syt (s : State) (k : Nat) (x : Key) : (s.setKey k x).syt = s.syt := (rfl)
@[simp] theorem State.setKey_tempConv (s : State) (k : Nat) (x : Key) : (s.setKey k x).tempConv = s.tempConv := (rfl)
@[simp] theorem State.setKey_pos (s : State) (k : Nat) (x : Key) : (s.setKey k x).pos = s.pos := (rfl)
@[simp] theorem State.setKey_palA (s : State) (k : Nat) (x : Key) : (s.setKey k x).palA = s.palA := (rfl)
@[simp] theorem State.setKey_palB (s : State) (k : Nat) (x : Key) : (s.setKey k x).palB = s.palB := (rfl)
@[simp] theorem State.setKey_ents (s : State) (k : Nat) (x : Key) : (s.setKey k x).ents = s.ents := (rfl)
@[simp] theorem State.setKey_lanes (s : State) (k : Nat) (x : Key) : (s.setKey k x).lanes = s.lanes := (rfl)
@[simp] theorem State.setKey_held (s : State) (k : Nat) (x : Key) : (s.setKey k x).held = s.held := (rfl)
@[simp] theorem State.setKey_reqs (s : State) (k : Nat) (x : Key) : (s.setKey k x).reqs = s.reqs := (rfl)
@[simp] theorem State.setKey_rslots (s : State) (k : Nat) (x : Key) : (s.setKey k x).rslots = s.rslots := (rfl)
@[simp] theorem State.setKey_seqno (s : State) (k : Nat) (x : Key) : (s.setKey k x).seqno = s.seqno := (rfl)
@[simp] theorem State.setKey_wins (s : State) (k : Nat) (x : Key) : (s.setKey k x).wins = s.wins := (rfl)
@[simp] theorem State.setKey_ops (s : State) (k : Nat) (x : Key) : (s.setKey k x).ops = s.ops := (rfl)
@[simp] theorem State.setKey_opNext (s : State) (k : Nat) (x : Key) : (s.setKey k x).opNext = s.opNext := (rfl)
@[simp] theorem State.setKey_sent (s : State) (k : Nat) (x : Key) : (s.setKey k x).sent = s.sent := (rfl)
@[simp] theorem State.setKey_accts (s : State) (k : Nat) (x : Key) : (s.setKey k x).accts = s.accts := (rfl)
@[simp] theorem State.setKey_keyData (s : State) (k : Nat) (x : Key) : (s.setKey k x).keyData = s.keyData := (rfl)
@[simp] theorem State.setKey_aes (s : State) (k : Nat) (x : Key) : (s.setKey k x).aes = s.aes := (rfl)
@[simp] theorem State.setKey_engs (s : State) (k : Nat) (x : Key) : (s.setKey k x).engs = s.engs := (rfl)
@[simp] theorem State.setKey_engNext (s : State) (k : Nat) (x : Key) : (s.setKey k x).engNext = s.engNext := (rfl)
@[simp] theorem State.setKey_mac (s : State) (k : Nat) (x : Key) : (s.setKey k x).mac = s.mac := (rfl)
@[simp] theorem State.setKey_wkr (s : State) (k : Nat) (x : Key) : (s.setKey k x).wkr = s.wkr := (rfl)
@[simp] theorem State.setKey_msgQ (s : State) (k : Nat) (x : Key) : (s.setKey k x).msgQ = s.msgQ := (rfl)
@[simp] theorem State.setKey_msgEn (s : State) (k : Nat) (x : Key) : (s.setKey k x).msgEn = s.msgEn := (rfl)
@[simp] theorem State.setKey_dma (s : State) (k : Nat) (x : Key) : (s.setKey k x).dma = s.dma := (rfl)
@[simp] theorem State.setKey_chk (s : State) (k : Nat) (x : Key) : (s.setKey k x).chk = s.chk := (rfl)
@[simp] theorem State.setKey_cmc (s : State) (k : Nat) (x : Key) : (s.setKey k x).cmc = s.cmc := (rfl)
@[simp] theorem State.setKey_cmr (s : State) (k : Nat) (x : Key) : (s.setKey k x).cmr = s.cmr := (rfl)
@[simp] theorem State.setKey_cmrOpen (s : State) (k : Nat) (x : Key) : (s.setKey k x).cmrOpen = s.cmrOpen := (rfl)
@[simp] theorem State.setKey_pwr (s : State) (k : Nat) (x : Key) : (s.setKey k x).pwr = s.pwr := (rfl)
@[simp] theorem State.setKey_well (s : State) (k : Nat) (x : Key) : (s.setKey k x).well = s.well := (rfl)
@[simp] theorem State.setKey_brush (s : State) (k : Nat) (x : Key) : (s.setKey k x).brush = s.brush := (rfl)
@[simp] theorem State.setKey_pins (s : State) (k : Nat) (x : Key) : (s.setKey k x).pins = s.pins := (rfl)
@[simp] theorem State.setKey_line (s : State) (k : Nat) (x : Key) : (s.setKey k x).line = s.line := (rfl)
@[simp] theorem State.setKey_casc2 (s : State) (k : Nat) (x : Key) : (s.setKey k x).casc2 = s.casc2 := (rfl)
@[simp] theorem State.setKey_casc3 (s : State) (k : Nat) (x : Key) : (s.setKey k x).casc3 = s.casc3 := (rfl)
@[simp] theorem State.setKey_order (s : State) (k : Nat) (x : Key) : (s.setKey k x).order = s.order := (rfl)
@[simp] theorem State.setKey_free (s : State) (k : Nat) (x : Key) : (s.setKey k x).free = s.free := (rfl)
@[simp] theorem State.setKey_pending (s : State) (k : Nat) (x : Key) : (s.setKey k x).pending = s.pending := (rfl)

/-! State.setAes. -/

@[simp] theorem State.setAes_regs (s : State) (e : Nat) (x : Aes) : (s.setAes e x).regs = s.regs := (rfl)
@[simp] theorem State.setAes_mem (s : State) (e : Nat) (x : Aes) : (s.setAes e x).mem = s.mem := (rfl)
@[simp] theorem State.setAes_marks (s : State) (e : Nat) (x : Aes) : (s.setAes e x).marks = s.marks := (rfl)
@[simp] theorem State.setAes_scrub (s : State) (e : Nat) (x : Aes) : (s.setAes e x).scrub = s.scrub := (rfl)
@[simp] theorem State.setAes_time (s : State) (e : Nat) (x : Aes) : (s.setAes e x).time = s.time := (rfl)
@[simp] theorem State.setAes_caps (s : State) (e : Nat) (x : Aes) : (s.setAes e x).caps = s.caps := (rfl)
@[simp] theorem State.setAes_lnch (s : State) (e : Nat) (x : Aes) : (s.setAes e x).lnch = s.lnch := (rfl)
@[simp] theorem State.setAes_ctx (s : State) (e : Nat) (x : Aes) : (s.setAes e x).ctx = s.ctx := (rfl)
@[simp] theorem State.setAes_sems (s : State) (e : Nat) (x : Aes) : (s.setAes e x).sems = s.sems := (rfl)
@[simp] theorem State.setAes_slots (s : State) (e : Nat) (x : Aes) : (s.setAes e x).slots = s.slots := (rfl)
@[simp] theorem State.setAes_ports (s : State) (e : Nat) (x : Aes) : (s.setAes e x).ports = s.ports := (rfl)
@[simp] theorem State.setAes_sya (s : State) (e : Nat) (x : Aes) : (s.setAes e x).sya = s.sya := (rfl)
@[simp] theorem State.setAes_syb (s : State) (e : Nat) (x : Aes) : (s.setAes e x).syb = s.syb := (rfl)
@[simp] theorem State.setAes_syt (s : State) (e : Nat) (x : Aes) : (s.setAes e x).syt = s.syt := (rfl)
@[simp] theorem State.setAes_tempConv (s : State) (e : Nat) (x : Aes) : (s.setAes e x).tempConv = s.tempConv := (rfl)
@[simp] theorem State.setAes_pos (s : State) (e : Nat) (x : Aes) : (s.setAes e x).pos = s.pos := (rfl)
@[simp] theorem State.setAes_palA (s : State) (e : Nat) (x : Aes) : (s.setAes e x).palA = s.palA := (rfl)
@[simp] theorem State.setAes_palB (s : State) (e : Nat) (x : Aes) : (s.setAes e x).palB = s.palB := (rfl)
@[simp] theorem State.setAes_ents (s : State) (e : Nat) (x : Aes) : (s.setAes e x).ents = s.ents := (rfl)
@[simp] theorem State.setAes_lanes (s : State) (e : Nat) (x : Aes) : (s.setAes e x).lanes = s.lanes := (rfl)
@[simp] theorem State.setAes_held (s : State) (e : Nat) (x : Aes) : (s.setAes e x).held = s.held := (rfl)
@[simp] theorem State.setAes_reqs (s : State) (e : Nat) (x : Aes) : (s.setAes e x).reqs = s.reqs := (rfl)
@[simp] theorem State.setAes_rslots (s : State) (e : Nat) (x : Aes) : (s.setAes e x).rslots = s.rslots := (rfl)
@[simp] theorem State.setAes_seqno (s : State) (e : Nat) (x : Aes) : (s.setAes e x).seqno = s.seqno := (rfl)
@[simp] theorem State.setAes_wins (s : State) (e : Nat) (x : Aes) : (s.setAes e x).wins = s.wins := (rfl)
@[simp] theorem State.setAes_ops (s : State) (e : Nat) (x : Aes) : (s.setAes e x).ops = s.ops := (rfl)
@[simp] theorem State.setAes_opNext (s : State) (e : Nat) (x : Aes) : (s.setAes e x).opNext = s.opNext := (rfl)
@[simp] theorem State.setAes_sent (s : State) (e : Nat) (x : Aes) : (s.setAes e x).sent = s.sent := (rfl)
@[simp] theorem State.setAes_accts (s : State) (e : Nat) (x : Aes) : (s.setAes e x).accts = s.accts := (rfl)
@[simp] theorem State.setAes_keys (s : State) (e : Nat) (x : Aes) : (s.setAes e x).keys = s.keys := (rfl)
@[simp] theorem State.setAes_keyData (s : State) (e : Nat) (x : Aes) : (s.setAes e x).keyData = s.keyData := (rfl)
@[simp] theorem State.setAes_engs (s : State) (e : Nat) (x : Aes) : (s.setAes e x).engs = s.engs := (rfl)
@[simp] theorem State.setAes_engNext (s : State) (e : Nat) (x : Aes) : (s.setAes e x).engNext = s.engNext := (rfl)
@[simp] theorem State.setAes_mac (s : State) (e : Nat) (x : Aes) : (s.setAes e x).mac = s.mac := (rfl)
@[simp] theorem State.setAes_wkr (s : State) (e : Nat) (x : Aes) : (s.setAes e x).wkr = s.wkr := (rfl)
@[simp] theorem State.setAes_msgQ (s : State) (e : Nat) (x : Aes) : (s.setAes e x).msgQ = s.msgQ := (rfl)
@[simp] theorem State.setAes_msgEn (s : State) (e : Nat) (x : Aes) : (s.setAes e x).msgEn = s.msgEn := (rfl)
@[simp] theorem State.setAes_dma (s : State) (e : Nat) (x : Aes) : (s.setAes e x).dma = s.dma := (rfl)
@[simp] theorem State.setAes_chk (s : State) (e : Nat) (x : Aes) : (s.setAes e x).chk = s.chk := (rfl)
@[simp] theorem State.setAes_cmc (s : State) (e : Nat) (x : Aes) : (s.setAes e x).cmc = s.cmc := (rfl)
@[simp] theorem State.setAes_cmr (s : State) (e : Nat) (x : Aes) : (s.setAes e x).cmr = s.cmr := (rfl)
@[simp] theorem State.setAes_cmrOpen (s : State) (e : Nat) (x : Aes) : (s.setAes e x).cmrOpen = s.cmrOpen := (rfl)
@[simp] theorem State.setAes_pwr (s : State) (e : Nat) (x : Aes) : (s.setAes e x).pwr = s.pwr := (rfl)
@[simp] theorem State.setAes_well (s : State) (e : Nat) (x : Aes) : (s.setAes e x).well = s.well := (rfl)
@[simp] theorem State.setAes_brush (s : State) (e : Nat) (x : Aes) : (s.setAes e x).brush = s.brush := (rfl)
@[simp] theorem State.setAes_pins (s : State) (e : Nat) (x : Aes) : (s.setAes e x).pins = s.pins := (rfl)
@[simp] theorem State.setAes_line (s : State) (e : Nat) (x : Aes) : (s.setAes e x).line = s.line := (rfl)
@[simp] theorem State.setAes_casc2 (s : State) (e : Nat) (x : Aes) : (s.setAes e x).casc2 = s.casc2 := (rfl)
@[simp] theorem State.setAes_casc3 (s : State) (e : Nat) (x : Aes) : (s.setAes e x).casc3 = s.casc3 := (rfl)
@[simp] theorem State.setAes_order (s : State) (e : Nat) (x : Aes) : (s.setAes e x).order = s.order := (rfl)
@[simp] theorem State.setAes_free (s : State) (e : Nat) (x : Aes) : (s.setAes e x).free = s.free := (rfl)
@[simp] theorem State.setAes_pending (s : State) (e : Nat) (x : Aes) : (s.setAes e x).pending = s.pending := (rfl)

/-! State.setAcct. -/

@[simp] theorem State.setAcct_regs (s : State) (n : Nat) (b : List Bucket) : (s.setAcct n b).regs = s.regs := (rfl)
@[simp] theorem State.setAcct_mem (s : State) (n : Nat) (b : List Bucket) : (s.setAcct n b).mem = s.mem := (rfl)
@[simp] theorem State.setAcct_marks (s : State) (n : Nat) (b : List Bucket) : (s.setAcct n b).marks = s.marks := (rfl)
@[simp] theorem State.setAcct_scrub (s : State) (n : Nat) (b : List Bucket) : (s.setAcct n b).scrub = s.scrub := (rfl)
@[simp] theorem State.setAcct_time (s : State) (n : Nat) (b : List Bucket) : (s.setAcct n b).time = s.time := (rfl)
@[simp] theorem State.setAcct_caps (s : State) (n : Nat) (b : List Bucket) : (s.setAcct n b).caps = s.caps := (rfl)
@[simp] theorem State.setAcct_lnch (s : State) (n : Nat) (b : List Bucket) : (s.setAcct n b).lnch = s.lnch := (rfl)
@[simp] theorem State.setAcct_ctx (s : State) (n : Nat) (b : List Bucket) : (s.setAcct n b).ctx = s.ctx := (rfl)
@[simp] theorem State.setAcct_sems (s : State) (n : Nat) (b : List Bucket) : (s.setAcct n b).sems = s.sems := (rfl)
@[simp] theorem State.setAcct_slots (s : State) (n : Nat) (b : List Bucket) : (s.setAcct n b).slots = s.slots := (rfl)
@[simp] theorem State.setAcct_ports (s : State) (n : Nat) (b : List Bucket) : (s.setAcct n b).ports = s.ports := (rfl)
@[simp] theorem State.setAcct_sya (s : State) (n : Nat) (b : List Bucket) : (s.setAcct n b).sya = s.sya := (rfl)
@[simp] theorem State.setAcct_syb (s : State) (n : Nat) (b : List Bucket) : (s.setAcct n b).syb = s.syb := (rfl)
@[simp] theorem State.setAcct_syt (s : State) (n : Nat) (b : List Bucket) : (s.setAcct n b).syt = s.syt := (rfl)
@[simp] theorem State.setAcct_tempConv (s : State) (n : Nat) (b : List Bucket) : (s.setAcct n b).tempConv = s.tempConv := (rfl)
@[simp] theorem State.setAcct_pos (s : State) (n : Nat) (b : List Bucket) : (s.setAcct n b).pos = s.pos := (rfl)
@[simp] theorem State.setAcct_palA (s : State) (n : Nat) (b : List Bucket) : (s.setAcct n b).palA = s.palA := (rfl)
@[simp] theorem State.setAcct_palB (s : State) (n : Nat) (b : List Bucket) : (s.setAcct n b).palB = s.palB := (rfl)
@[simp] theorem State.setAcct_ents (s : State) (n : Nat) (b : List Bucket) : (s.setAcct n b).ents = s.ents := (rfl)
@[simp] theorem State.setAcct_lanes (s : State) (n : Nat) (b : List Bucket) : (s.setAcct n b).lanes = s.lanes := (rfl)
@[simp] theorem State.setAcct_held (s : State) (n : Nat) (b : List Bucket) : (s.setAcct n b).held = s.held := (rfl)
@[simp] theorem State.setAcct_reqs (s : State) (n : Nat) (b : List Bucket) : (s.setAcct n b).reqs = s.reqs := (rfl)
@[simp] theorem State.setAcct_rslots (s : State) (n : Nat) (b : List Bucket) : (s.setAcct n b).rslots = s.rslots := (rfl)
@[simp] theorem State.setAcct_seqno (s : State) (n : Nat) (b : List Bucket) : (s.setAcct n b).seqno = s.seqno := (rfl)
@[simp] theorem State.setAcct_wins (s : State) (n : Nat) (b : List Bucket) : (s.setAcct n b).wins = s.wins := (rfl)
@[simp] theorem State.setAcct_ops (s : State) (n : Nat) (b : List Bucket) : (s.setAcct n b).ops = s.ops := (rfl)
@[simp] theorem State.setAcct_opNext (s : State) (n : Nat) (b : List Bucket) : (s.setAcct n b).opNext = s.opNext := (rfl)
@[simp] theorem State.setAcct_sent (s : State) (n : Nat) (b : List Bucket) : (s.setAcct n b).sent = s.sent := (rfl)
@[simp] theorem State.setAcct_keys (s : State) (n : Nat) (b : List Bucket) : (s.setAcct n b).keys = s.keys := (rfl)
@[simp] theorem State.setAcct_keyData (s : State) (n : Nat) (b : List Bucket) : (s.setAcct n b).keyData = s.keyData := (rfl)
@[simp] theorem State.setAcct_aes (s : State) (n : Nat) (b : List Bucket) : (s.setAcct n b).aes = s.aes := (rfl)
@[simp] theorem State.setAcct_engs (s : State) (n : Nat) (b : List Bucket) : (s.setAcct n b).engs = s.engs := (rfl)
@[simp] theorem State.setAcct_engNext (s : State) (n : Nat) (b : List Bucket) : (s.setAcct n b).engNext = s.engNext := (rfl)
@[simp] theorem State.setAcct_mac (s : State) (n : Nat) (b : List Bucket) : (s.setAcct n b).mac = s.mac := (rfl)
@[simp] theorem State.setAcct_wkr (s : State) (n : Nat) (b : List Bucket) : (s.setAcct n b).wkr = s.wkr := (rfl)
@[simp] theorem State.setAcct_msgQ (s : State) (n : Nat) (b : List Bucket) : (s.setAcct n b).msgQ = s.msgQ := (rfl)
@[simp] theorem State.setAcct_msgEn (s : State) (n : Nat) (b : List Bucket) : (s.setAcct n b).msgEn = s.msgEn := (rfl)
@[simp] theorem State.setAcct_dma (s : State) (n : Nat) (b : List Bucket) : (s.setAcct n b).dma = s.dma := (rfl)
@[simp] theorem State.setAcct_chk (s : State) (n : Nat) (b : List Bucket) : (s.setAcct n b).chk = s.chk := (rfl)
@[simp] theorem State.setAcct_cmc (s : State) (n : Nat) (b : List Bucket) : (s.setAcct n b).cmc = s.cmc := (rfl)
@[simp] theorem State.setAcct_cmr (s : State) (n : Nat) (b : List Bucket) : (s.setAcct n b).cmr = s.cmr := (rfl)
@[simp] theorem State.setAcct_cmrOpen (s : State) (n : Nat) (b : List Bucket) : (s.setAcct n b).cmrOpen = s.cmrOpen := (rfl)
@[simp] theorem State.setAcct_pwr (s : State) (n : Nat) (b : List Bucket) : (s.setAcct n b).pwr = s.pwr := (rfl)
@[simp] theorem State.setAcct_well (s : State) (n : Nat) (b : List Bucket) : (s.setAcct n b).well = s.well := (rfl)
@[simp] theorem State.setAcct_brush (s : State) (n : Nat) (b : List Bucket) : (s.setAcct n b).brush = s.brush := (rfl)
@[simp] theorem State.setAcct_pins (s : State) (n : Nat) (b : List Bucket) : (s.setAcct n b).pins = s.pins := (rfl)
@[simp] theorem State.setAcct_line (s : State) (n : Nat) (b : List Bucket) : (s.setAcct n b).line = s.line := (rfl)
@[simp] theorem State.setAcct_casc2 (s : State) (n : Nat) (b : List Bucket) : (s.setAcct n b).casc2 = s.casc2 := (rfl)
@[simp] theorem State.setAcct_casc3 (s : State) (n : Nat) (b : List Bucket) : (s.setAcct n b).casc3 = s.casc3 := (rfl)
@[simp] theorem State.setAcct_order (s : State) (n : Nat) (b : List Bucket) : (s.setAcct n b).order = s.order := (rfl)
@[simp] theorem State.setAcct_free (s : State) (n : Nat) (b : List Bucket) : (s.setAcct n b).free = s.free := (rfl)
@[simp] theorem State.setAcct_pending (s : State) (n : Nat) (b : List Bucket) : (s.setAcct n b).pending = s.pending := (rfl)

/-! State.setDma. -/

@[simp] theorem State.setDma_regs (s : State) (n : Nat) (x : Dma) : (s.setDma n x).regs = s.regs := (rfl)
@[simp] theorem State.setDma_mem (s : State) (n : Nat) (x : Dma) : (s.setDma n x).mem = s.mem := (rfl)
@[simp] theorem State.setDma_marks (s : State) (n : Nat) (x : Dma) : (s.setDma n x).marks = s.marks := (rfl)
@[simp] theorem State.setDma_scrub (s : State) (n : Nat) (x : Dma) : (s.setDma n x).scrub = s.scrub := (rfl)
@[simp] theorem State.setDma_time (s : State) (n : Nat) (x : Dma) : (s.setDma n x).time = s.time := (rfl)
@[simp] theorem State.setDma_caps (s : State) (n : Nat) (x : Dma) : (s.setDma n x).caps = s.caps := (rfl)
@[simp] theorem State.setDma_lnch (s : State) (n : Nat) (x : Dma) : (s.setDma n x).lnch = s.lnch := (rfl)
@[simp] theorem State.setDma_ctx (s : State) (n : Nat) (x : Dma) : (s.setDma n x).ctx = s.ctx := (rfl)
@[simp] theorem State.setDma_sems (s : State) (n : Nat) (x : Dma) : (s.setDma n x).sems = s.sems := (rfl)
@[simp] theorem State.setDma_slots (s : State) (n : Nat) (x : Dma) : (s.setDma n x).slots = s.slots := (rfl)
@[simp] theorem State.setDma_ports (s : State) (n : Nat) (x : Dma) : (s.setDma n x).ports = s.ports := (rfl)
@[simp] theorem State.setDma_sya (s : State) (n : Nat) (x : Dma) : (s.setDma n x).sya = s.sya := (rfl)
@[simp] theorem State.setDma_syb (s : State) (n : Nat) (x : Dma) : (s.setDma n x).syb = s.syb := (rfl)
@[simp] theorem State.setDma_syt (s : State) (n : Nat) (x : Dma) : (s.setDma n x).syt = s.syt := (rfl)
@[simp] theorem State.setDma_tempConv (s : State) (n : Nat) (x : Dma) : (s.setDma n x).tempConv = s.tempConv := (rfl)
@[simp] theorem State.setDma_pos (s : State) (n : Nat) (x : Dma) : (s.setDma n x).pos = s.pos := (rfl)
@[simp] theorem State.setDma_palA (s : State) (n : Nat) (x : Dma) : (s.setDma n x).palA = s.palA := (rfl)
@[simp] theorem State.setDma_palB (s : State) (n : Nat) (x : Dma) : (s.setDma n x).palB = s.palB := (rfl)
@[simp] theorem State.setDma_ents (s : State) (n : Nat) (x : Dma) : (s.setDma n x).ents = s.ents := (rfl)
@[simp] theorem State.setDma_lanes (s : State) (n : Nat) (x : Dma) : (s.setDma n x).lanes = s.lanes := (rfl)
@[simp] theorem State.setDma_held (s : State) (n : Nat) (x : Dma) : (s.setDma n x).held = s.held := (rfl)
@[simp] theorem State.setDma_reqs (s : State) (n : Nat) (x : Dma) : (s.setDma n x).reqs = s.reqs := (rfl)
@[simp] theorem State.setDma_rslots (s : State) (n : Nat) (x : Dma) : (s.setDma n x).rslots = s.rslots := (rfl)
@[simp] theorem State.setDma_seqno (s : State) (n : Nat) (x : Dma) : (s.setDma n x).seqno = s.seqno := (rfl)
@[simp] theorem State.setDma_wins (s : State) (n : Nat) (x : Dma) : (s.setDma n x).wins = s.wins := (rfl)
@[simp] theorem State.setDma_ops (s : State) (n : Nat) (x : Dma) : (s.setDma n x).ops = s.ops := (rfl)
@[simp] theorem State.setDma_opNext (s : State) (n : Nat) (x : Dma) : (s.setDma n x).opNext = s.opNext := (rfl)
@[simp] theorem State.setDma_sent (s : State) (n : Nat) (x : Dma) : (s.setDma n x).sent = s.sent := (rfl)
@[simp] theorem State.setDma_accts (s : State) (n : Nat) (x : Dma) : (s.setDma n x).accts = s.accts := (rfl)
@[simp] theorem State.setDma_keys (s : State) (n : Nat) (x : Dma) : (s.setDma n x).keys = s.keys := (rfl)
@[simp] theorem State.setDma_keyData (s : State) (n : Nat) (x : Dma) : (s.setDma n x).keyData = s.keyData := (rfl)
@[simp] theorem State.setDma_aes (s : State) (n : Nat) (x : Dma) : (s.setDma n x).aes = s.aes := (rfl)
@[simp] theorem State.setDma_engs (s : State) (n : Nat) (x : Dma) : (s.setDma n x).engs = s.engs := (rfl)
@[simp] theorem State.setDma_engNext (s : State) (n : Nat) (x : Dma) : (s.setDma n x).engNext = s.engNext := (rfl)
@[simp] theorem State.setDma_mac (s : State) (n : Nat) (x : Dma) : (s.setDma n x).mac = s.mac := (rfl)
@[simp] theorem State.setDma_wkr (s : State) (n : Nat) (x : Dma) : (s.setDma n x).wkr = s.wkr := (rfl)
@[simp] theorem State.setDma_msgQ (s : State) (n : Nat) (x : Dma) : (s.setDma n x).msgQ = s.msgQ := (rfl)
@[simp] theorem State.setDma_msgEn (s : State) (n : Nat) (x : Dma) : (s.setDma n x).msgEn = s.msgEn := (rfl)
@[simp] theorem State.setDma_chk (s : State) (n : Nat) (x : Dma) : (s.setDma n x).chk = s.chk := (rfl)
@[simp] theorem State.setDma_cmc (s : State) (n : Nat) (x : Dma) : (s.setDma n x).cmc = s.cmc := (rfl)
@[simp] theorem State.setDma_cmr (s : State) (n : Nat) (x : Dma) : (s.setDma n x).cmr = s.cmr := (rfl)
@[simp] theorem State.setDma_cmrOpen (s : State) (n : Nat) (x : Dma) : (s.setDma n x).cmrOpen = s.cmrOpen := (rfl)
@[simp] theorem State.setDma_pwr (s : State) (n : Nat) (x : Dma) : (s.setDma n x).pwr = s.pwr := (rfl)
@[simp] theorem State.setDma_well (s : State) (n : Nat) (x : Dma) : (s.setDma n x).well = s.well := (rfl)
@[simp] theorem State.setDma_brush (s : State) (n : Nat) (x : Dma) : (s.setDma n x).brush = s.brush := (rfl)
@[simp] theorem State.setDma_pins (s : State) (n : Nat) (x : Dma) : (s.setDma n x).pins = s.pins := (rfl)
@[simp] theorem State.setDma_line (s : State) (n : Nat) (x : Dma) : (s.setDma n x).line = s.line := (rfl)
@[simp] theorem State.setDma_casc2 (s : State) (n : Nat) (x : Dma) : (s.setDma n x).casc2 = s.casc2 := (rfl)
@[simp] theorem State.setDma_casc3 (s : State) (n : Nat) (x : Dma) : (s.setDma n x).casc3 = s.casc3 := (rfl)
@[simp] theorem State.setDma_order (s : State) (n : Nat) (x : Dma) : (s.setDma n x).order = s.order := (rfl)
@[simp] theorem State.setDma_free (s : State) (n : Nat) (x : Dma) : (s.setDma n x).free = s.free := (rfl)
@[simp] theorem State.setDma_pending (s : State) (n : Nat) (x : Dma) : (s.setDma n x).pending = s.pending := (rfl)

/-! State.setChk. -/

@[simp] theorem State.setChk_regs (s : State) (e : Nat) (x : Chk) : (s.setChk e x).regs = s.regs := (rfl)
@[simp] theorem State.setChk_mem (s : State) (e : Nat) (x : Chk) : (s.setChk e x).mem = s.mem := (rfl)
@[simp] theorem State.setChk_marks (s : State) (e : Nat) (x : Chk) : (s.setChk e x).marks = s.marks := (rfl)
@[simp] theorem State.setChk_scrub (s : State) (e : Nat) (x : Chk) : (s.setChk e x).scrub = s.scrub := (rfl)
@[simp] theorem State.setChk_time (s : State) (e : Nat) (x : Chk) : (s.setChk e x).time = s.time := (rfl)
@[simp] theorem State.setChk_caps (s : State) (e : Nat) (x : Chk) : (s.setChk e x).caps = s.caps := (rfl)
@[simp] theorem State.setChk_lnch (s : State) (e : Nat) (x : Chk) : (s.setChk e x).lnch = s.lnch := (rfl)
@[simp] theorem State.setChk_ctx (s : State) (e : Nat) (x : Chk) : (s.setChk e x).ctx = s.ctx := (rfl)
@[simp] theorem State.setChk_sems (s : State) (e : Nat) (x : Chk) : (s.setChk e x).sems = s.sems := (rfl)
@[simp] theorem State.setChk_slots (s : State) (e : Nat) (x : Chk) : (s.setChk e x).slots = s.slots := (rfl)
@[simp] theorem State.setChk_ports (s : State) (e : Nat) (x : Chk) : (s.setChk e x).ports = s.ports := (rfl)
@[simp] theorem State.setChk_sya (s : State) (e : Nat) (x : Chk) : (s.setChk e x).sya = s.sya := (rfl)
@[simp] theorem State.setChk_syb (s : State) (e : Nat) (x : Chk) : (s.setChk e x).syb = s.syb := (rfl)
@[simp] theorem State.setChk_syt (s : State) (e : Nat) (x : Chk) : (s.setChk e x).syt = s.syt := (rfl)
@[simp] theorem State.setChk_tempConv (s : State) (e : Nat) (x : Chk) : (s.setChk e x).tempConv = s.tempConv := (rfl)
@[simp] theorem State.setChk_pos (s : State) (e : Nat) (x : Chk) : (s.setChk e x).pos = s.pos := (rfl)
@[simp] theorem State.setChk_palA (s : State) (e : Nat) (x : Chk) : (s.setChk e x).palA = s.palA := (rfl)
@[simp] theorem State.setChk_palB (s : State) (e : Nat) (x : Chk) : (s.setChk e x).palB = s.palB := (rfl)
@[simp] theorem State.setChk_ents (s : State) (e : Nat) (x : Chk) : (s.setChk e x).ents = s.ents := (rfl)
@[simp] theorem State.setChk_lanes (s : State) (e : Nat) (x : Chk) : (s.setChk e x).lanes = s.lanes := (rfl)
@[simp] theorem State.setChk_held (s : State) (e : Nat) (x : Chk) : (s.setChk e x).held = s.held := (rfl)
@[simp] theorem State.setChk_reqs (s : State) (e : Nat) (x : Chk) : (s.setChk e x).reqs = s.reqs := (rfl)
@[simp] theorem State.setChk_rslots (s : State) (e : Nat) (x : Chk) : (s.setChk e x).rslots = s.rslots := (rfl)
@[simp] theorem State.setChk_seqno (s : State) (e : Nat) (x : Chk) : (s.setChk e x).seqno = s.seqno := (rfl)
@[simp] theorem State.setChk_wins (s : State) (e : Nat) (x : Chk) : (s.setChk e x).wins = s.wins := (rfl)
@[simp] theorem State.setChk_ops (s : State) (e : Nat) (x : Chk) : (s.setChk e x).ops = s.ops := (rfl)
@[simp] theorem State.setChk_opNext (s : State) (e : Nat) (x : Chk) : (s.setChk e x).opNext = s.opNext := (rfl)
@[simp] theorem State.setChk_sent (s : State) (e : Nat) (x : Chk) : (s.setChk e x).sent = s.sent := (rfl)
@[simp] theorem State.setChk_accts (s : State) (e : Nat) (x : Chk) : (s.setChk e x).accts = s.accts := (rfl)
@[simp] theorem State.setChk_keys (s : State) (e : Nat) (x : Chk) : (s.setChk e x).keys = s.keys := (rfl)
@[simp] theorem State.setChk_keyData (s : State) (e : Nat) (x : Chk) : (s.setChk e x).keyData = s.keyData := (rfl)
@[simp] theorem State.setChk_aes (s : State) (e : Nat) (x : Chk) : (s.setChk e x).aes = s.aes := (rfl)
@[simp] theorem State.setChk_engs (s : State) (e : Nat) (x : Chk) : (s.setChk e x).engs = s.engs := (rfl)
@[simp] theorem State.setChk_engNext (s : State) (e : Nat) (x : Chk) : (s.setChk e x).engNext = s.engNext := (rfl)
@[simp] theorem State.setChk_mac (s : State) (e : Nat) (x : Chk) : (s.setChk e x).mac = s.mac := (rfl)
@[simp] theorem State.setChk_wkr (s : State) (e : Nat) (x : Chk) : (s.setChk e x).wkr = s.wkr := (rfl)
@[simp] theorem State.setChk_msgQ (s : State) (e : Nat) (x : Chk) : (s.setChk e x).msgQ = s.msgQ := (rfl)
@[simp] theorem State.setChk_msgEn (s : State) (e : Nat) (x : Chk) : (s.setChk e x).msgEn = s.msgEn := (rfl)
@[simp] theorem State.setChk_dma (s : State) (e : Nat) (x : Chk) : (s.setChk e x).dma = s.dma := (rfl)
@[simp] theorem State.setChk_cmc (s : State) (e : Nat) (x : Chk) : (s.setChk e x).cmc = s.cmc := (rfl)
@[simp] theorem State.setChk_cmr (s : State) (e : Nat) (x : Chk) : (s.setChk e x).cmr = s.cmr := (rfl)
@[simp] theorem State.setChk_cmrOpen (s : State) (e : Nat) (x : Chk) : (s.setChk e x).cmrOpen = s.cmrOpen := (rfl)
@[simp] theorem State.setChk_pwr (s : State) (e : Nat) (x : Chk) : (s.setChk e x).pwr = s.pwr := (rfl)
@[simp] theorem State.setChk_well (s : State) (e : Nat) (x : Chk) : (s.setChk e x).well = s.well := (rfl)
@[simp] theorem State.setChk_brush (s : State) (e : Nat) (x : Chk) : (s.setChk e x).brush = s.brush := (rfl)
@[simp] theorem State.setChk_pins (s : State) (e : Nat) (x : Chk) : (s.setChk e x).pins = s.pins := (rfl)
@[simp] theorem State.setChk_line (s : State) (e : Nat) (x : Chk) : (s.setChk e x).line = s.line := (rfl)
@[simp] theorem State.setChk_casc2 (s : State) (e : Nat) (x : Chk) : (s.setChk e x).casc2 = s.casc2 := (rfl)
@[simp] theorem State.setChk_casc3 (s : State) (e : Nat) (x : Chk) : (s.setChk e x).casc3 = s.casc3 := (rfl)
@[simp] theorem State.setChk_order (s : State) (e : Nat) (x : Chk) : (s.setChk e x).order = s.order := (rfl)
@[simp] theorem State.setChk_free (s : State) (e : Nat) (x : Chk) : (s.setChk e x).free = s.free := (rfl)
@[simp] theorem State.setChk_pending (s : State) (e : Nat) (x : Chk) : (s.setChk e x).pending = s.pending := (rfl)

/-! State.withdraw. -/

@[simp] theorem State.withdraw_regs (s : State) (h : Holder) : (s.withdraw h).regs = s.regs := (rfl)
@[simp] theorem State.withdraw_mem (s : State) (h : Holder) : (s.withdraw h).mem = s.mem := (rfl)
@[simp] theorem State.withdraw_marks (s : State) (h : Holder) : (s.withdraw h).marks = s.marks := (rfl)
@[simp] theorem State.withdraw_scrub (s : State) (h : Holder) : (s.withdraw h).scrub = s.scrub := (rfl)
@[simp] theorem State.withdraw_time (s : State) (h : Holder) : (s.withdraw h).time = s.time := (rfl)
@[simp] theorem State.withdraw_caps (s : State) (h : Holder) : (s.withdraw h).caps = s.caps := (rfl)
@[simp] theorem State.withdraw_lnch (s : State) (h : Holder) : (s.withdraw h).lnch = s.lnch := (rfl)
@[simp] theorem State.withdraw_ctx (s : State) (h : Holder) : (s.withdraw h).ctx = s.ctx := (rfl)
@[simp] theorem State.withdraw_sems (s : State) (h : Holder) : (s.withdraw h).sems = s.sems := (rfl)
@[simp] theorem State.withdraw_slots (s : State) (h : Holder) : (s.withdraw h).slots = s.slots := (rfl)
@[simp] theorem State.withdraw_ports (s : State) (h : Holder) : (s.withdraw h).ports = s.ports := (rfl)
@[simp] theorem State.withdraw_sya (s : State) (h : Holder) : (s.withdraw h).sya = s.sya := (rfl)
@[simp] theorem State.withdraw_syb (s : State) (h : Holder) : (s.withdraw h).syb = s.syb := (rfl)
@[simp] theorem State.withdraw_syt (s : State) (h : Holder) : (s.withdraw h).syt = s.syt := (rfl)
@[simp] theorem State.withdraw_tempConv (s : State) (h : Holder) : (s.withdraw h).tempConv = s.tempConv := (rfl)
@[simp] theorem State.withdraw_pos (s : State) (h : Holder) : (s.withdraw h).pos = s.pos := (rfl)
@[simp] theorem State.withdraw_palA (s : State) (h : Holder) : (s.withdraw h).palA = s.palA := (rfl)
@[simp] theorem State.withdraw_palB (s : State) (h : Holder) : (s.withdraw h).palB = s.palB := (rfl)
@[simp] theorem State.withdraw_ents (s : State) (h : Holder) : (s.withdraw h).ents = s.ents := (rfl)
@[simp] theorem State.withdraw_lanes (s : State) (h : Holder) : (s.withdraw h).lanes = s.lanes := (rfl)
@[simp] theorem State.withdraw_held (s : State) (h : Holder) : (s.withdraw h).held = s.held := (rfl)
@[simp] theorem State.withdraw_reqs (s : State) (h : Holder) : (s.withdraw h).reqs = s.reqs := (rfl)
@[simp] theorem State.withdraw_rslots (s : State) (h : Holder) : (s.withdraw h).rslots = s.rslots := (rfl)
@[simp] theorem State.withdraw_seqno (s : State) (h : Holder) : (s.withdraw h).seqno = s.seqno := (rfl)
@[simp] theorem State.withdraw_wins (s : State) (h : Holder) : (s.withdraw h).wins = s.wins := (rfl)
@[simp] theorem State.withdraw_ops (s : State) (h : Holder) : (s.withdraw h).ops = s.ops := (rfl)
@[simp] theorem State.withdraw_opNext (s : State) (h : Holder) : (s.withdraw h).opNext = s.opNext := (rfl)
@[simp] theorem State.withdraw_sent (s : State) (h : Holder) : (s.withdraw h).sent = s.sent := (rfl)
@[simp] theorem State.withdraw_accts (s : State) (h : Holder) : (s.withdraw h).accts = s.accts := (rfl)
@[simp] theorem State.withdraw_keys (s : State) (h : Holder) : (s.withdraw h).keys = s.keys := (rfl)
@[simp] theorem State.withdraw_keyData (s : State) (h : Holder) : (s.withdraw h).keyData = s.keyData := (rfl)
@[simp] theorem State.withdraw_aes (s : State) (h : Holder) : (s.withdraw h).aes = s.aes := (rfl)
@[simp] theorem State.withdraw_engs (s : State) (h : Holder) : (s.withdraw h).engs = s.engs := (rfl)
@[simp] theorem State.withdraw_engNext (s : State) (h : Holder) : (s.withdraw h).engNext = s.engNext := (rfl)
@[simp] theorem State.withdraw_mac (s : State) (h : Holder) : (s.withdraw h).mac = s.mac := (rfl)
@[simp] theorem State.withdraw_wkr (s : State) (h : Holder) : (s.withdraw h).wkr = s.wkr := (rfl)
@[simp] theorem State.withdraw_msgQ (s : State) (h : Holder) : (s.withdraw h).msgQ = s.msgQ := (rfl)
@[simp] theorem State.withdraw_msgEn (s : State) (h : Holder) : (s.withdraw h).msgEn = s.msgEn := (rfl)
@[simp] theorem State.withdraw_dma (s : State) (h : Holder) : (s.withdraw h).dma = s.dma := (rfl)
@[simp] theorem State.withdraw_chk (s : State) (h : Holder) : (s.withdraw h).chk = s.chk := (rfl)
@[simp] theorem State.withdraw_cmc (s : State) (h : Holder) : (s.withdraw h).cmc = s.cmc := (rfl)
@[simp] theorem State.withdraw_cmr (s : State) (h : Holder) : (s.withdraw h).cmr = s.cmr := (rfl)
@[simp] theorem State.withdraw_cmrOpen (s : State) (h : Holder) : (s.withdraw h).cmrOpen = s.cmrOpen := (rfl)
@[simp] theorem State.withdraw_pwr (s : State) (h : Holder) : (s.withdraw h).pwr = s.pwr := (rfl)
@[simp] theorem State.withdraw_brush (s : State) (h : Holder) : (s.withdraw h).brush = s.brush := (rfl)
@[simp] theorem State.withdraw_pins (s : State) (h : Holder) : (s.withdraw h).pins = s.pins := (rfl)
@[simp] theorem State.withdraw_line (s : State) (h : Holder) : (s.withdraw h).line = s.line := (rfl)
@[simp] theorem State.withdraw_casc2 (s : State) (h : Holder) : (s.withdraw h).casc2 = s.casc2 := (rfl)
@[simp] theorem State.withdraw_casc3 (s : State) (h : Holder) : (s.withdraw h).casc3 = s.casc3 := (rfl)
@[simp] theorem State.withdraw_order (s : State) (h : Holder) : (s.withdraw h).order = s.order := (rfl)
@[simp] theorem State.withdraw_free (s : State) (h : Holder) : (s.withdraw h).free = s.free := (rfl)
@[simp] theorem State.withdraw_pending (s : State) (h : Holder) : (s.withdraw h).pending = s.pending := (rfl)

/-! State.touch. -/

@[simp] theorem State.touch_regs (s : State) : (s.touch).regs = s.regs := by unfold State.touch; split <;> rfl
@[simp] theorem State.touch_mem (s : State) : (s.touch).mem = s.mem := by unfold State.touch; split <;> rfl
@[simp] theorem State.touch_marks (s : State) : (s.touch).marks = s.marks := by unfold State.touch; split <;> rfl
@[simp] theorem State.touch_scrub (s : State) : (s.touch).scrub = s.scrub := by unfold State.touch; split <;> rfl
@[simp] theorem State.touch_caps (s : State) : (s.touch).caps = s.caps := by unfold State.touch; split <;> rfl
@[simp] theorem State.touch_lnch (s : State) : (s.touch).lnch = s.lnch := by unfold State.touch; split <;> rfl
@[simp] theorem State.touch_ctx (s : State) : (s.touch).ctx = s.ctx := by unfold State.touch; split <;> rfl
@[simp] theorem State.touch_sems (s : State) : (s.touch).sems = s.sems := by unfold State.touch; split <;> rfl
@[simp] theorem State.touch_slots (s : State) : (s.touch).slots = s.slots := by unfold State.touch; split <;> rfl
@[simp] theorem State.touch_ports (s : State) : (s.touch).ports = s.ports := by unfold State.touch; split <;> rfl
@[simp] theorem State.touch_sya (s : State) : (s.touch).sya = s.sya := by unfold State.touch; split <;> rfl
@[simp] theorem State.touch_syb (s : State) : (s.touch).syb = s.syb := by unfold State.touch; split <;> rfl
@[simp] theorem State.touch_syt (s : State) : (s.touch).syt = s.syt := by unfold State.touch; split <;> rfl
@[simp] theorem State.touch_tempConv (s : State) : (s.touch).tempConv = s.tempConv := by unfold State.touch; split <;> rfl
@[simp] theorem State.touch_pos (s : State) : (s.touch).pos = s.pos := by unfold State.touch; split <;> rfl
@[simp] theorem State.touch_palA (s : State) : (s.touch).palA = s.palA := by unfold State.touch; split <;> rfl
@[simp] theorem State.touch_palB (s : State) : (s.touch).palB = s.palB := by unfold State.touch; split <;> rfl
@[simp] theorem State.touch_ents (s : State) : (s.touch).ents = s.ents := by unfold State.touch; split <;> rfl
@[simp] theorem State.touch_lanes (s : State) : (s.touch).lanes = s.lanes := by unfold State.touch; split <;> rfl
@[simp] theorem State.touch_held (s : State) : (s.touch).held = s.held := by unfold State.touch; split <;> rfl
@[simp] theorem State.touch_reqs (s : State) : (s.touch).reqs = s.reqs := by unfold State.touch; split <;> rfl
@[simp] theorem State.touch_rslots (s : State) : (s.touch).rslots = s.rslots := by unfold State.touch; split <;> rfl
@[simp] theorem State.touch_seqno (s : State) : (s.touch).seqno = s.seqno := by unfold State.touch; split <;> rfl
@[simp] theorem State.touch_wins (s : State) : (s.touch).wins = s.wins := by unfold State.touch; split <;> rfl
@[simp] theorem State.touch_ops (s : State) : (s.touch).ops = s.ops := by unfold State.touch; split <;> rfl
@[simp] theorem State.touch_opNext (s : State) : (s.touch).opNext = s.opNext := by unfold State.touch; split <;> rfl
@[simp] theorem State.touch_sent (s : State) : (s.touch).sent = s.sent := by unfold State.touch; split <;> rfl
@[simp] theorem State.touch_accts (s : State) : (s.touch).accts = s.accts := by unfold State.touch; split <;> rfl
@[simp] theorem State.touch_keys (s : State) : (s.touch).keys = s.keys := by unfold State.touch; split <;> rfl
@[simp] theorem State.touch_keyData (s : State) : (s.touch).keyData = s.keyData := by unfold State.touch; split <;> rfl
@[simp] theorem State.touch_aes (s : State) : (s.touch).aes = s.aes := by unfold State.touch; split <;> rfl
@[simp] theorem State.touch_engs (s : State) : (s.touch).engs = s.engs := by unfold State.touch; split <;> rfl
@[simp] theorem State.touch_engNext (s : State) : (s.touch).engNext = s.engNext := by unfold State.touch; split <;> rfl
@[simp] theorem State.touch_mac (s : State) : (s.touch).mac = s.mac := by unfold State.touch; split <;> rfl
@[simp] theorem State.touch_wkr (s : State) : (s.touch).wkr = s.wkr := by unfold State.touch; split <;> rfl
@[simp] theorem State.touch_msgQ (s : State) : (s.touch).msgQ = s.msgQ := by unfold State.touch; split <;> rfl
@[simp] theorem State.touch_msgEn (s : State) : (s.touch).msgEn = s.msgEn := by unfold State.touch; split <;> rfl
@[simp] theorem State.touch_dma (s : State) : (s.touch).dma = s.dma := by unfold State.touch; split <;> rfl
@[simp] theorem State.touch_chk (s : State) : (s.touch).chk = s.chk := by unfold State.touch; split <;> rfl
@[simp] theorem State.touch_cmc (s : State) : (s.touch).cmc = s.cmc := by unfold State.touch; split <;> rfl
@[simp] theorem State.touch_cmr (s : State) : (s.touch).cmr = s.cmr := by unfold State.touch; split <;> rfl
@[simp] theorem State.touch_cmrOpen (s : State) : (s.touch).cmrOpen = s.cmrOpen := by unfold State.touch; split <;> rfl
@[simp] theorem State.touch_pwr (s : State) : (s.touch).pwr = s.pwr := by unfold State.touch; split <;> rfl
@[simp] theorem State.touch_well (s : State) : (s.touch).well = s.well := by unfold State.touch; split <;> rfl
@[simp] theorem State.touch_brush (s : State) : (s.touch).brush = s.brush := by unfold State.touch; split <;> rfl
@[simp] theorem State.touch_pins (s : State) : (s.touch).pins = s.pins := by unfold State.touch; split <;> rfl
@[simp] theorem State.touch_line (s : State) : (s.touch).line = s.line := by unfold State.touch; split <;> rfl
@[simp] theorem State.touch_casc2 (s : State) : (s.touch).casc2 = s.casc2 := by unfold State.touch; split <;> rfl
@[simp] theorem State.touch_casc3 (s : State) : (s.touch).casc3 = s.casc3 := by unfold State.touch; split <;> rfl
@[simp] theorem State.touch_order (s : State) : (s.touch).order = s.order := by unfold State.touch; split <;> rfl
@[simp] theorem State.touch_pending (s : State) : (s.touch).pending = s.pending := by unfold State.touch; split <;> rfl

/-! State.setSyn. -/

@[simp] theorem State.setSyn_regs (s : State) (y : Syn) (x : Synth) : (s.setSyn y x).regs = s.regs := by cases y <;> rfl
@[simp] theorem State.setSyn_mem (s : State) (y : Syn) (x : Synth) : (s.setSyn y x).mem = s.mem := by cases y <;> rfl
@[simp] theorem State.setSyn_marks (s : State) (y : Syn) (x : Synth) : (s.setSyn y x).marks = s.marks := by cases y <;> rfl
@[simp] theorem State.setSyn_scrub (s : State) (y : Syn) (x : Synth) : (s.setSyn y x).scrub = s.scrub := by cases y <;> rfl
@[simp] theorem State.setSyn_time (s : State) (y : Syn) (x : Synth) : (s.setSyn y x).time = s.time := by cases y <;> rfl
@[simp] theorem State.setSyn_caps (s : State) (y : Syn) (x : Synth) : (s.setSyn y x).caps = s.caps := by cases y <;> rfl
@[simp] theorem State.setSyn_lnch (s : State) (y : Syn) (x : Synth) : (s.setSyn y x).lnch = s.lnch := by cases y <;> rfl
@[simp] theorem State.setSyn_ctx (s : State) (y : Syn) (x : Synth) : (s.setSyn y x).ctx = s.ctx := by cases y <;> rfl
@[simp] theorem State.setSyn_sems (s : State) (y : Syn) (x : Synth) : (s.setSyn y x).sems = s.sems := by cases y <;> rfl
@[simp] theorem State.setSyn_slots (s : State) (y : Syn) (x : Synth) : (s.setSyn y x).slots = s.slots := by cases y <;> rfl
@[simp] theorem State.setSyn_ports (s : State) (y : Syn) (x : Synth) : (s.setSyn y x).ports = s.ports := by cases y <;> rfl
@[simp] theorem State.setSyn_tempConv (s : State) (y : Syn) (x : Synth) : (s.setSyn y x).tempConv = s.tempConv := by cases y <;> rfl
@[simp] theorem State.setSyn_pos (s : State) (y : Syn) (x : Synth) : (s.setSyn y x).pos = s.pos := by cases y <;> rfl
@[simp] theorem State.setSyn_palA (s : State) (y : Syn) (x : Synth) : (s.setSyn y x).palA = s.palA := by cases y <;> rfl
@[simp] theorem State.setSyn_palB (s : State) (y : Syn) (x : Synth) : (s.setSyn y x).palB = s.palB := by cases y <;> rfl
@[simp] theorem State.setSyn_ents (s : State) (y : Syn) (x : Synth) : (s.setSyn y x).ents = s.ents := by cases y <;> rfl
@[simp] theorem State.setSyn_lanes (s : State) (y : Syn) (x : Synth) : (s.setSyn y x).lanes = s.lanes := by cases y <;> rfl
@[simp] theorem State.setSyn_held (s : State) (y : Syn) (x : Synth) : (s.setSyn y x).held = s.held := by cases y <;> rfl
@[simp] theorem State.setSyn_reqs (s : State) (y : Syn) (x : Synth) : (s.setSyn y x).reqs = s.reqs := by cases y <;> rfl
@[simp] theorem State.setSyn_rslots (s : State) (y : Syn) (x : Synth) : (s.setSyn y x).rslots = s.rslots := by cases y <;> rfl
@[simp] theorem State.setSyn_seqno (s : State) (y : Syn) (x : Synth) : (s.setSyn y x).seqno = s.seqno := by cases y <;> rfl
@[simp] theorem State.setSyn_wins (s : State) (y : Syn) (x : Synth) : (s.setSyn y x).wins = s.wins := by cases y <;> rfl
@[simp] theorem State.setSyn_ops (s : State) (y : Syn) (x : Synth) : (s.setSyn y x).ops = s.ops := by cases y <;> rfl
@[simp] theorem State.setSyn_opNext (s : State) (y : Syn) (x : Synth) : (s.setSyn y x).opNext = s.opNext := by cases y <;> rfl
@[simp] theorem State.setSyn_sent (s : State) (y : Syn) (x : Synth) : (s.setSyn y x).sent = s.sent := by cases y <;> rfl
@[simp] theorem State.setSyn_accts (s : State) (y : Syn) (x : Synth) : (s.setSyn y x).accts = s.accts := by cases y <;> rfl
@[simp] theorem State.setSyn_keys (s : State) (y : Syn) (x : Synth) : (s.setSyn y x).keys = s.keys := by cases y <;> rfl
@[simp] theorem State.setSyn_keyData (s : State) (y : Syn) (x : Synth) : (s.setSyn y x).keyData = s.keyData := by cases y <;> rfl
@[simp] theorem State.setSyn_aes (s : State) (y : Syn) (x : Synth) : (s.setSyn y x).aes = s.aes := by cases y <;> rfl
@[simp] theorem State.setSyn_engs (s : State) (y : Syn) (x : Synth) : (s.setSyn y x).engs = s.engs := by cases y <;> rfl
@[simp] theorem State.setSyn_engNext (s : State) (y : Syn) (x : Synth) : (s.setSyn y x).engNext = s.engNext := by cases y <;> rfl
@[simp] theorem State.setSyn_mac (s : State) (y : Syn) (x : Synth) : (s.setSyn y x).mac = s.mac := by cases y <;> rfl
@[simp] theorem State.setSyn_wkr (s : State) (y : Syn) (x : Synth) : (s.setSyn y x).wkr = s.wkr := by cases y <;> rfl
@[simp] theorem State.setSyn_msgQ (s : State) (y : Syn) (x : Synth) : (s.setSyn y x).msgQ = s.msgQ := by cases y <;> rfl
@[simp] theorem State.setSyn_msgEn (s : State) (y : Syn) (x : Synth) : (s.setSyn y x).msgEn = s.msgEn := by cases y <;> rfl
@[simp] theorem State.setSyn_dma (s : State) (y : Syn) (x : Synth) : (s.setSyn y x).dma = s.dma := by cases y <;> rfl
@[simp] theorem State.setSyn_chk (s : State) (y : Syn) (x : Synth) : (s.setSyn y x).chk = s.chk := by cases y <;> rfl
@[simp] theorem State.setSyn_cmc (s : State) (y : Syn) (x : Synth) : (s.setSyn y x).cmc = s.cmc := by cases y <;> rfl
@[simp] theorem State.setSyn_cmr (s : State) (y : Syn) (x : Synth) : (s.setSyn y x).cmr = s.cmr := by cases y <;> rfl
@[simp] theorem State.setSyn_cmrOpen (s : State) (y : Syn) (x : Synth) : (s.setSyn y x).cmrOpen = s.cmrOpen := by cases y <;> rfl
@[simp] theorem State.setSyn_pwr (s : State) (y : Syn) (x : Synth) : (s.setSyn y x).pwr = s.pwr := by cases y <;> rfl
@[simp] theorem State.setSyn_well (s : State) (y : Syn) (x : Synth) : (s.setSyn y x).well = s.well := by cases y <;> rfl
@[simp] theorem State.setSyn_brush (s : State) (y : Syn) (x : Synth) : (s.setSyn y x).brush = s.brush := by cases y <;> rfl
@[simp] theorem State.setSyn_pins (s : State) (y : Syn) (x : Synth) : (s.setSyn y x).pins = s.pins := by cases y <;> rfl
@[simp] theorem State.setSyn_line (s : State) (y : Syn) (x : Synth) : (s.setSyn y x).line = s.line := by cases y <;> rfl
@[simp] theorem State.setSyn_casc2 (s : State) (y : Syn) (x : Synth) : (s.setSyn y x).casc2 = s.casc2 := by cases y <;> rfl
@[simp] theorem State.setSyn_casc3 (s : State) (y : Syn) (x : Synth) : (s.setSyn y x).casc3 = s.casc3 := by cases y <;> rfl
@[simp] theorem State.setSyn_order (s : State) (y : Syn) (x : Synth) : (s.setSyn y x).order = s.order := by cases y <;> rfl
@[simp] theorem State.setSyn_free (s : State) (y : Syn) (x : Synth) : (s.setSyn y x).free = s.free := by cases y <;> rfl
@[simp] theorem State.setSyn_pending (s : State) (y : Syn) (x : Synth) : (s.setSyn y x).pending = s.pending := by cases y <;> rfl

/-! State.setPal. -/

@[simp] theorem State.setPal_regs (s : State) (c : Chain) (x : Palette) : (s.setPal c x).regs = s.regs := by cases c <;> rfl
@[simp] theorem State.setPal_mem (s : State) (c : Chain) (x : Palette) : (s.setPal c x).mem = s.mem := by cases c <;> rfl
@[simp] theorem State.setPal_marks (s : State) (c : Chain) (x : Palette) : (s.setPal c x).marks = s.marks := by cases c <;> rfl
@[simp] theorem State.setPal_scrub (s : State) (c : Chain) (x : Palette) : (s.setPal c x).scrub = s.scrub := by cases c <;> rfl
@[simp] theorem State.setPal_time (s : State) (c : Chain) (x : Palette) : (s.setPal c x).time = s.time := by cases c <;> rfl
@[simp] theorem State.setPal_caps (s : State) (c : Chain) (x : Palette) : (s.setPal c x).caps = s.caps := by cases c <;> rfl
@[simp] theorem State.setPal_lnch (s : State) (c : Chain) (x : Palette) : (s.setPal c x).lnch = s.lnch := by cases c <;> rfl
@[simp] theorem State.setPal_ctx (s : State) (c : Chain) (x : Palette) : (s.setPal c x).ctx = s.ctx := by cases c <;> rfl
@[simp] theorem State.setPal_sems (s : State) (c : Chain) (x : Palette) : (s.setPal c x).sems = s.sems := by cases c <;> rfl
@[simp] theorem State.setPal_slots (s : State) (c : Chain) (x : Palette) : (s.setPal c x).slots = s.slots := by cases c <;> rfl
@[simp] theorem State.setPal_ports (s : State) (c : Chain) (x : Palette) : (s.setPal c x).ports = s.ports := by cases c <;> rfl
@[simp] theorem State.setPal_sya (s : State) (c : Chain) (x : Palette) : (s.setPal c x).sya = s.sya := by cases c <;> rfl
@[simp] theorem State.setPal_syb (s : State) (c : Chain) (x : Palette) : (s.setPal c x).syb = s.syb := by cases c <;> rfl
@[simp] theorem State.setPal_syt (s : State) (c : Chain) (x : Palette) : (s.setPal c x).syt = s.syt := by cases c <;> rfl
@[simp] theorem State.setPal_tempConv (s : State) (c : Chain) (x : Palette) : (s.setPal c x).tempConv = s.tempConv := by cases c <;> rfl
@[simp] theorem State.setPal_pos (s : State) (c : Chain) (x : Palette) : (s.setPal c x).pos = s.pos := by cases c <;> rfl
@[simp] theorem State.setPal_ents (s : State) (c : Chain) (x : Palette) : (s.setPal c x).ents = s.ents := by cases c <;> rfl
@[simp] theorem State.setPal_lanes (s : State) (c : Chain) (x : Palette) : (s.setPal c x).lanes = s.lanes := by cases c <;> rfl
@[simp] theorem State.setPal_held (s : State) (c : Chain) (x : Palette) : (s.setPal c x).held = s.held := by cases c <;> rfl
@[simp] theorem State.setPal_reqs (s : State) (c : Chain) (x : Palette) : (s.setPal c x).reqs = s.reqs := by cases c <;> rfl
@[simp] theorem State.setPal_rslots (s : State) (c : Chain) (x : Palette) : (s.setPal c x).rslots = s.rslots := by cases c <;> rfl
@[simp] theorem State.setPal_seqno (s : State) (c : Chain) (x : Palette) : (s.setPal c x).seqno = s.seqno := by cases c <;> rfl
@[simp] theorem State.setPal_wins (s : State) (c : Chain) (x : Palette) : (s.setPal c x).wins = s.wins := by cases c <;> rfl
@[simp] theorem State.setPal_ops (s : State) (c : Chain) (x : Palette) : (s.setPal c x).ops = s.ops := by cases c <;> rfl
@[simp] theorem State.setPal_opNext (s : State) (c : Chain) (x : Palette) : (s.setPal c x).opNext = s.opNext := by cases c <;> rfl
@[simp] theorem State.setPal_sent (s : State) (c : Chain) (x : Palette) : (s.setPal c x).sent = s.sent := by cases c <;> rfl
@[simp] theorem State.setPal_accts (s : State) (c : Chain) (x : Palette) : (s.setPal c x).accts = s.accts := by cases c <;> rfl
@[simp] theorem State.setPal_keys (s : State) (c : Chain) (x : Palette) : (s.setPal c x).keys = s.keys := by cases c <;> rfl
@[simp] theorem State.setPal_keyData (s : State) (c : Chain) (x : Palette) : (s.setPal c x).keyData = s.keyData := by cases c <;> rfl
@[simp] theorem State.setPal_aes (s : State) (c : Chain) (x : Palette) : (s.setPal c x).aes = s.aes := by cases c <;> rfl
@[simp] theorem State.setPal_engs (s : State) (c : Chain) (x : Palette) : (s.setPal c x).engs = s.engs := by cases c <;> rfl
@[simp] theorem State.setPal_engNext (s : State) (c : Chain) (x : Palette) : (s.setPal c x).engNext = s.engNext := by cases c <;> rfl
@[simp] theorem State.setPal_mac (s : State) (c : Chain) (x : Palette) : (s.setPal c x).mac = s.mac := by cases c <;> rfl
@[simp] theorem State.setPal_wkr (s : State) (c : Chain) (x : Palette) : (s.setPal c x).wkr = s.wkr := by cases c <;> rfl
@[simp] theorem State.setPal_msgQ (s : State) (c : Chain) (x : Palette) : (s.setPal c x).msgQ = s.msgQ := by cases c <;> rfl
@[simp] theorem State.setPal_msgEn (s : State) (c : Chain) (x : Palette) : (s.setPal c x).msgEn = s.msgEn := by cases c <;> rfl
@[simp] theorem State.setPal_dma (s : State) (c : Chain) (x : Palette) : (s.setPal c x).dma = s.dma := by cases c <;> rfl
@[simp] theorem State.setPal_chk (s : State) (c : Chain) (x : Palette) : (s.setPal c x).chk = s.chk := by cases c <;> rfl
@[simp] theorem State.setPal_cmc (s : State) (c : Chain) (x : Palette) : (s.setPal c x).cmc = s.cmc := by cases c <;> rfl
@[simp] theorem State.setPal_cmr (s : State) (c : Chain) (x : Palette) : (s.setPal c x).cmr = s.cmr := by cases c <;> rfl
@[simp] theorem State.setPal_cmrOpen (s : State) (c : Chain) (x : Palette) : (s.setPal c x).cmrOpen = s.cmrOpen := by cases c <;> rfl
@[simp] theorem State.setPal_pwr (s : State) (c : Chain) (x : Palette) : (s.setPal c x).pwr = s.pwr := by cases c <;> rfl
@[simp] theorem State.setPal_well (s : State) (c : Chain) (x : Palette) : (s.setPal c x).well = s.well := by cases c <;> rfl
@[simp] theorem State.setPal_brush (s : State) (c : Chain) (x : Palette) : (s.setPal c x).brush = s.brush := by cases c <;> rfl
@[simp] theorem State.setPal_pins (s : State) (c : Chain) (x : Palette) : (s.setPal c x).pins = s.pins := by cases c <;> rfl
@[simp] theorem State.setPal_line (s : State) (c : Chain) (x : Palette) : (s.setPal c x).line = s.line := by cases c <;> rfl
@[simp] theorem State.setPal_casc2 (s : State) (c : Chain) (x : Palette) : (s.setPal c x).casc2 = s.casc2 := by cases c <;> rfl
@[simp] theorem State.setPal_casc3 (s : State) (c : Chain) (x : Palette) : (s.setPal c x).casc3 = s.casc3 := by cases c <;> rfl
@[simp] theorem State.setPal_order (s : State) (c : Chain) (x : Palette) : (s.setPal c x).order = s.order := by cases c <;> rfl
@[simp] theorem State.setPal_free (s : State) (c : Chain) (x : Palette) : (s.setPal c x).free = s.free := by cases c <;> rfl
@[simp] theorem State.setPal_pending (s : State) (c : Chain) (x : Palette) : (s.setPal c x).pending = s.pending := by cases c <;> rfl

end Sys2Proof.Machine
end

