-- ==== Sys2Proof/Laws/Tab.lean ====
section
/-! SUPPORT. The laws of sparse tables: what a key holds after a write or a removal, and that the canonical form is kept. -/

namespace Sys2Proof.Machine

variable {α : Type}

@[simp] theorem Tab.get_nil (d : Nat → α) (k : Nat) : Tab.get d [] k = d k := rfl

theorem Tab.get_drop_self (d : Nat → α) (t : Tab α) (k : Nat) : Tab.get d (Tab.drop k t) k = d k := by
  induction t with
  | nil => rfl
  | cons e t ih =>
    obtain ⟨j, v⟩ := e
    by_cases h : k = j
    · simpa [Tab.drop, h] using ih
    · simp [Tab.drop, Tab.get, h, ih]

theorem Tab.get_drop_ne (d : Nat → α) (t : Tab α) (k i : Nat) (h : i ≠ k) :
    Tab.get d (Tab.drop k t) i = Tab.get d t i := by
  induction t with
  | nil => rfl
  | cons e t ih =>
    obtain ⟨j, v⟩ := e
    by_cases hk : k = j
    · subst hk
      simp [Tab.drop, Tab.get, h, ih]
    · by_cases hi : i = j
      · simp [Tab.drop, Tab.get, hk, hi]
      · simp [Tab.drop, Tab.get, hk, hi, ih]

theorem Tab.get_put_self (d : Nat → α) (t : Tab α) (k : Nat) (v : α) : Tab.get d (Tab.put k v t) k = v := by
  induction t with
  | nil => simp [Tab.put, Tab.get]
  | cons e t ih =>
    obtain ⟨j, w⟩ := e
    by_cases h1 : k < j
    · simp [Tab.put, Tab.get, h1]
    · by_cases h2 : k = j
      · subst h2
        simp [Tab.put, Tab.get]
      · simp [Tab.put, Tab.get, h1, h2, ih]

theorem Tab.get_put_ne (d : Nat → α) (t : Tab α) (k i : Nat) (v : α) (h : i ≠ k) :
    Tab.get d (Tab.put k v t) i = Tab.get d t i := by
  induction t with
  | nil => simp [Tab.put, Tab.get, h]
  | cons e t ih =>
    obtain ⟨j, w⟩ := e
    by_cases h1 : k < j
    · simp [Tab.put, Tab.get, h1, h]
    · by_cases h2 : k = j
      · subst h2
        simp [Tab.put, Tab.get, h]
      · by_cases hi : i = j
        · simp [Tab.put, Tab.get, h1, h2, hi]
        · simp [Tab.put, Tab.get, h1, h2, hi, ih]

/-- A key that has been set holds the value set. -/
@[simp] theorem Tab.get_set_self [DecidableEq α] (d : Nat → α) (t : Tab α) (k : Nat) (v : α) :
    Tab.get d (Tab.set d t k v) k = v := by
  unfold Tab.set
  split
  · rw [Tab.get_drop_self]
    exact (by assumption : v = d k).symm
  · exact Tab.get_put_self d t k v

/-- Every other key holds what it held. -/
theorem Tab.get_set_ne [DecidableEq α] (d : Nat → α) (t : Tab α) (k i : Nat) (v : α) (h : i ≠ k) :
    Tab.get d (Tab.set d t k v) i = Tab.get d t i := by
  unfold Tab.set
  split
  · exact Tab.get_drop_ne d t k i h
  · exact Tab.get_put_ne d t k i v h

/-- What a key holds after a write at `k`. -/
theorem Tab.get_set [DecidableEq α] (d : Nat → α) (t : Tab α) (k i : Nat) (v : α) :
    Tab.get d (Tab.set d t k v) i = if i = k then v else Tab.get d t i := by
  by_cases h : i = k
  · subst h
    simp
  · rw [Tab.get_set_ne d t k i v h, if_neg h]

theorem Tab.above_drop (t : Tab α) (a k : Nat) (h : Tab.above a t = true) : Tab.above a (Tab.drop k t) = true := by
  induction t with
  | nil => rfl
  | cons e t ih =>
    obtain ⟨j, v⟩ := e
    simp only [Tab.above, Bool.and_eq_true, decide_eq_true_eq] at h
    by_cases hk : k = j
    · simpa [Tab.drop, hk] using ih h.2
    · simp [Tab.drop, hk, Tab.above, h.1, ih h.2]

theorem Tab.above_put (t : Tab α) (a k : Nat) (v : α) (h : Tab.above a t = true) (hk : a < k) :
    Tab.above a (Tab.put k v t) = true := by
  induction t with
  | nil => simp [Tab.put, Tab.above, hk]
  | cons e t ih =>
    obtain ⟨j, w⟩ := e
    have h' := h
    simp only [Tab.above, Bool.and_eq_true, decide_eq_true_eq] at h
    by_cases h1 : k < j
    · simp [Tab.put, h1, Tab.above, hk, h.1, h.2]
    · by_cases h2 : k = j
      · subst h2
        simp [Tab.put, Tab.above, hk, h.2]
      · simp [Tab.put, h1, h2, Tab.above, h.1, ih h.2]

theorem Tab.above_le (t : Tab α) (a b : Nat) (h : Tab.above b t = true) (hab : a ≤ b) : Tab.above a t = true := by
  induction t with
  | nil => rfl
  | cons e t ih =>
    obtain ⟨j, v⟩ := e
    simp only [Tab.above, Bool.and_eq_true, decide_eq_true_eq] at h ⊢
    exact ⟨by omega, ih h.2⟩

theorem Tab.wf_drop [DecidableEq α] (d : Nat → α) (t : Tab α) (k : Nat) (h : Tab.wf d t = true) :
    Tab.wf d (Tab.drop k t) = true := by
  induction t with
  | nil => rfl
  | cons e t ih =>
    obtain ⟨j, v⟩ := e
    simp only [Tab.wf, Bool.and_eq_true] at h
    by_cases hk : k = j
    · simpa [Tab.drop, hk] using ih h.2
    · simp only [Tab.drop, hk, if_false, Tab.wf, Bool.and_eq_true]
      exact ⟨⟨h.1.1, Tab.above_drop t j k h.1.2⟩, ih h.2⟩

theorem Tab.wf_put [DecidableEq α] (d : Nat → α) (t : Tab α) (k : Nat) (v : α) (hv : v ≠ d k)
    (h : Tab.wf d t = true) : Tab.wf d (Tab.put k v t) = true := by
  induction t with
  | nil => simp [Tab.put, Tab.wf, Tab.above, hv]
  | cons e t ih =>
    obtain ⟨j, w⟩ := e
    have h' := h
    simp only [Tab.wf, Bool.and_eq_true] at h
    by_cases h1 : k < j
    · simp only [Tab.put, h1, if_true]
      rw [Tab.wf, Bool.and_eq_true, Bool.and_eq_true]
      refine ⟨⟨by simp [hv], ?_⟩, h'⟩
      simp only [Tab.above, Bool.and_eq_true, decide_eq_true_eq]
      exact ⟨h1, Tab.above_le t k j h.1.2 (by omega)⟩
    · by_cases h2 : k = j
      · subst h2
        simp only [Tab.put, Nat.lt_irrefl, if_false, if_true, Tab.wf, Bool.and_eq_true]
        exact ⟨⟨by simp [hv], h.1.2⟩, h.2⟩
      · simp only [Tab.put, h1, h2, if_false, Tab.wf, Bool.and_eq_true]
        exact ⟨⟨h.1.1, Tab.above_put t j k v h.1.2 (by omega)⟩, ih h.2⟩

/-- A write keeps the canonical form. -/
theorem Tab.wf_set [DecidableEq α] (d : Nat → α) (t : Tab α) (k : Nat) (v : α) (h : Tab.wf d t = true) :
    Tab.wf d (Tab.set d t k v) = true := by
  unfold Tab.set
  split
  · exact Tab.wf_drop d t k h
  · exact Tab.wf_put d t k v (by assumption) h

theorem Tab.above_filter (t : Tab α) (a : Nat) (p : Nat × α → Bool) (h : Tab.above a t = true) :
    Tab.above a (t.filter p) = true := by
  induction t with
  | nil => rfl
  | cons e t ih =>
    obtain ⟨j, v⟩ := e
    simp only [Tab.above, Bool.and_eq_true, decide_eq_true_eq] at h
    by_cases hp : p (j, v) = true
    · simp [List.filter, hp, Tab.above, h.1, ih h.2]
    · simpa [List.filter, hp] using ih h.2

/-- A table with some entries taken away keeps the canonical form. -/
theorem Tab.wf_filter [DecidableEq α] (d : Nat → α) (t : Tab α) (p : Nat × α → Bool) (h : Tab.wf d t = true) :
    Tab.wf d (t.filter p) = true := by
  induction t with
  | nil => rfl
  | cons e t ih =>
    obtain ⟨j, v⟩ := e
    simp only [Tab.wf, Bool.and_eq_true] at h
    by_cases hp : p (j, v) = true
    · simp only [List.filter, hp, Tab.wf, Bool.and_eq_true]
      exact ⟨⟨h.1.1, Tab.above_filter t j p h.1.2⟩, ih h.2⟩
    · simpa [List.filter, hp] using ih h.2

theorem Tab.get_of_above (d : Nat → α) (t : Tab α) (a k : Nat) (h : Tab.above a t = true) (hk : k ≤ a) :
    Tab.get d t k = d k := by
  induction t with
  | nil => rfl
  | cons e t ih =>
    obtain ⟨j, v⟩ := e
    simp only [Tab.above, Bool.and_eq_true, decide_eq_true_eq] at h
    have hne : k ≠ j := by omega
    simpa [Tab.get, hne] using ih h.2

/-- Equal contents, equal tables: two tables in canonical form that hold the same at every key are the same list. -/
theorem Tab.ext [DecidableEq α] (d : Nat → α) (t u : Tab α) (ht : Tab.wf d t = true) (hu : Tab.wf d u = true)
    (h : ∀ k, Tab.get d t k = Tab.get d u k) : t = u := by
  induction t generalizing u with
  | nil =>
    cases u with
    | nil => rfl
    | cons e u =>
      obtain ⟨j, v⟩ := e
      simp only [Tab.wf, Bool.and_eq_true, decide_eq_true_eq] at hu
      have := h j
      simp only [Tab.get, if_true] at this
      exact absurd this.symm hu.1.1
  | cons e t ih =>
    obtain ⟨i, w⟩ := e
    simp only [Tab.wf, Bool.and_eq_true, decide_eq_true_eq] at ht
    cases u with
    | nil =>
      have := h i
      simp only [Tab.get, if_true] at this
      exact absurd this ht.1.1
    | cons e u =>
      obtain ⟨j, v⟩ := e
      simp only [Tab.wf, Bool.and_eq_true, decide_eq_true_eq] at hu
      have key : i = j := by
        rcases Nat.lt_trichotomy i j with hlt | heq | hgt
        · have := h i
          have hne : i ≠ j := by omega
          simp only [Tab.get, if_true, hne, if_false] at this
          rw [Tab.get_of_above d u j i hu.1.2 (by omega)] at this
          exact absurd this ht.1.1
        · exact heq
        · have := h j
          have hne : j ≠ i := by omega
          simp only [Tab.get, if_true, hne, if_false] at this
          rw [Tab.get_of_above d t i j ht.1.2 (by omega)] at this
          exact absurd this.symm hu.1.1
      subst key
      have hv : w = v := by
        have := h i
        simpa [Tab.get] using this
      subst hv
      congr 1
      refine ih u ht.2 hu.2 (fun k => ?_)
      by_cases hk : k = i
      · subst hk
        rw [Tab.get_of_above d t k k ht.1.2 (Nat.le_refl k), Tab.get_of_above d u k k hu.1.2 (Nat.le_refl k)]
      · have := h k
        simpa [Tab.get, hk] using this

end Sys2Proof.Machine
end

