-- ==== Sys2Proof/Laws/Ops.lean ====
section
/-! SUPPORT. What reading back gives after an update of the same table, and what a command takes from the state at the
moment it takes effect. -/

namespace Sys2Proof.Machine

/-! Registers and fields. -/

theorem State.reg_setReg (s : State) (o i : Nat) (w : Word) : (s.setReg o w).reg i = if i = o then w else s.reg i := by
  unfold State.reg State.setReg
  rw [Tab.get_set]

@[simp] theorem State.reg_setReg_self (s : State) (o : Nat) (w : Word) : (s.setReg o w).reg o = w := by
  rw [State.reg_setReg, if_pos rfl]

theorem State.reg_setReg_ne (s : State) (o i : Nat) (w : Word) (h : i ≠ o) : (s.setReg o w).reg i = s.reg i := by
  rw [State.reg_setReg, if_neg h]

theorem State.setReg_reg (s : State) (o : Nat) (h : Tab.wf regReset s.regs = true) : s.setReg o (s.reg o) = s := by
  have e : Tab.set regReset s.regs o (s.reg o) = s.regs := by
    apply Tab.ext regReset _ _ (Tab.wf_set _ _ _ _ h) h
    intro k
    rw [Tab.get_set]
    split
    · subst k; rfl
    · rfl
  unfold State.setReg
  rw [e]

theorem State.reg_setFld_ne (s : State) (f : Fld) (v i : Nat) (h : i ≠ f.off) : (s.setFld f v).reg i = s.reg i :=
  State.reg_setReg_ne _ _ _ _ h

@[simp] theorem State.reg_setFld_self (s : State) (f : Fld) (v : Nat) :
    (s.setFld f v).reg f.off = putBits (s.reg f.off) f.hi f.lo v := State.reg_setReg_self _ _ _

theorem State.fld_setFld (s : State) (f : Fld) (v : Nat) (h : f.lo ≤ f.hi ∧ f.hi < 32) :
    (s.setFld f v).fld f = v % 2 ^ (f.hi + 1 - f.lo) := by
  unfold State.fld
  rw [State.reg_setFld_self]
  exact getBits_putBits _ _ _ _ h.1 h.2

theorem State.fld_setFld_ne (s : State) (f g : Fld) (v : Nat) (h : g.off ≠ f.off) : (s.setFld f v).fld g = s.fld g := by
  unfold State.fld
  rw [State.reg_setFld_ne _ _ _ _ h]

theorem State.fld_setFld_apart (s : State) (f g : Fld) (v : Nat) (h : f.lo ≤ f.hi ∧ f.hi < 32)
    (a : g.hi < f.lo ∨ f.hi < g.lo) : (s.setFld f v).fld g = s.fld g := by
  by_cases e : g.off = f.off
  · unfold State.fld
    rw [e, State.reg_setFld_self]
    exact getBits_putBits_apart _ _ _ _ _ _ h.1 h.2 (by omega)
  · exact State.fld_setFld_ne _ _ _ _ e

theorem State.fld_setReg_ne (s : State) (g : Fld) (o : Nat) (w : Word) (h : g.off ≠ o) : (s.setReg o w).fld g = s.fld g := by
  unfold State.fld
  rw [State.reg_setReg_ne _ _ _ _ h]

theorem State.fld_of_regs {s t : State} (h : t.regs = s.regs) (f : Fld) : t.fld f = s.fld f := by
  unfold State.fld State.reg
  rw [h]

theorem State.on_of_regs {s t : State} (h : t.regs = s.regs) (f : Fld) : t.on f = s.on f := by
  unfold State.on
  rw [State.fld_of_regs h]

theorem State.reg_of_regs {s t : State} (h : t.regs = s.regs) (o : Nat) : t.reg o = s.reg o := by
  unfold State.reg
  rw [h]

/-! Memory. -/

theorem State.byte_putByte (s : State) (a i : Nat) (b : Byte) (h : inRom a = false) :
    (s.putByte a b).byte i = if i = a then b else s.byte i := by
  unfold State.byte State.putByte
  by_cases e : i = a
  · subst e
    simp [h]
  · simp only [e, if_false]
    rw [Tab.get_set_ne _ _ _ _ _ e]

theorem State.byte_of_mem {s t : State} (h : t.mem = s.mem) (a : Nat) : t.byte a = s.byte a := by
  unfold State.byte
  rw [h]

/-! Tables. -/

theorem State.cx_setCx (s : State) (k j : Nat) (c : Ctx) :
    (s.setCx k c).cx j = if j = k then c else s.cx j := by
  unfold State.cx State.setCx
  rw [Tab.get_set]

@[simp] theorem State.cx_setCx_self (s : State) (k : Nat) (c : Ctx) : (s.setCx k c).cx k = c := by
  rw [State.cx_setCx, if_pos rfl]

theorem State.cx_setCx_ne (s : State) (k j : Nat) (c : Ctx) (h : j ≠ k) : (s.setCx k c).cx j = s.cx j := by
  rw [State.cx_setCx, if_neg h]

theorem State.port_setPort (s : State) (p q : Nat) (x : Port) :
    (s.setPort p x).port q = if q = p then x else s.port q := by
  unfold State.port State.setPort
  rw [Tab.get_set]

@[simp] theorem State.port_setPort_self (s : State) (p : Nat) (x : Port) : (s.setPort p x).port p = x := by
  rw [State.port_setPort, if_pos rfl]

theorem State.port_setPort_ne (s : State) (p q : Nat) (x : Port) (h : q ≠ p) : (s.setPort p x).port q = s.port q := by
  rw [State.port_setPort, if_neg h]

theorem State.sem_setSem (s : State) (n m : Nat) (x : Sem) :
    (s.setSem n x).sem m = if m = n then x else s.sem m := by
  unfold State.sem State.setSem
  rw [Tab.get_set]

@[simp] theorem State.sem_setSem_self (s : State) (n : Nat) (x : Sem) : (s.setSem n x).sem n = x := by
  rw [State.sem_setSem, if_pos rfl]

theorem State.sem_setSem_ne (s : State) (n m : Nat) (x : Sem) (h : m ≠ n) : (s.setSem n x).sem m = s.sem m := by
  rw [State.sem_setSem, if_neg h]

theorem State.launcher_setLauncher (s : State) (n m : Nat) (x : Lnch) :
    (s.setLauncher n x).launcher m = if m = n then x else s.launcher m := by
  unfold State.launcher State.setLauncher
  rw [Tab.get_set]

@[simp] theorem State.launcher_setLauncher_self (s : State) (n : Nat) (x : Lnch) : (s.setLauncher n x).launcher n = x := by
  rw [State.launcher_setLauncher, if_pos rfl]

theorem State.launcher_setLauncher_ne (s : State) (n m : Nat) (x : Lnch) (h : m ≠ n) : (s.setLauncher n x).launcher m = s.launcher m := by
  rw [State.launcher_setLauncher, if_neg h]

theorem State.key_setKey (s : State) (k j : Nat) (x : Key) :
    (s.setKey k x).key j = if j = k then x else s.key j := by
  unfold State.key State.setKey
  rw [Tab.get_set]

@[simp] theorem State.key_setKey_self (s : State) (k : Nat) (x : Key) : (s.setKey k x).key k = x := by
  rw [State.key_setKey, if_pos rfl]

theorem State.key_setKey_ne (s : State) (k j : Nat) (x : Key) (h : j ≠ k) : (s.setKey k x).key j = s.key j := by
  rw [State.key_setKey, if_neg h]

theorem State.aesEng_setAes (s : State) (e i : Nat) (x : Aes) :
    (s.setAes e x).aesEng i = if i = e then x else s.aesEng i := by
  unfold State.aesEng State.setAes
  rw [Tab.get_set]

@[simp] theorem State.aesEng_setAes_self (s : State) (e : Nat) (x : Aes) : (s.setAes e x).aesEng e = x := by
  rw [State.aesEng_setAes, if_pos rfl]

theorem State.aesEng_setAes_ne (s : State) (e i : Nat) (x : Aes) (h : i ≠ e) : (s.setAes e x).aesEng i = s.aesEng i := by
  rw [State.aesEng_setAes, if_neg h]

theorem State.dmaCh_setDma (s : State) (n m : Nat) (x : Dma) :
    (s.setDma n x).dmaCh m = if m = n then x else s.dmaCh m := by
  unfold State.dmaCh State.setDma
  rw [Tab.get_set]

@[simp] theorem State.dmaCh_setDma_self (s : State) (n : Nat) (x : Dma) : (s.setDma n x).dmaCh n = x := by
  rw [State.dmaCh_setDma, if_pos rfl]

theorem State.dmaCh_setDma_ne (s : State) (n m : Nat) (x : Dma) (h : m ≠ n) : (s.setDma n x).dmaCh m = s.dmaCh m := by
  rw [State.dmaCh_setDma, if_neg h]

theorem State.chkEng_setChk (s : State) (e i : Nat) (x : Chk) :
    (s.setChk e x).chkEng i = if i = e then x else s.chkEng i := by
  unfold State.chkEng State.setChk
  rw [Tab.get_set]

@[simp] theorem State.chkEng_setChk_self (s : State) (e : Nat) (x : Chk) : (s.setChk e x).chkEng e = x := by
  rw [State.chkEng_setChk, if_pos rfl]

theorem State.chkEng_setChk_ne (s : State) (e i : Nat) (x : Chk) (h : i ≠ e) : (s.setChk e x).chkEng i = s.chkEng i := by
  rw [State.chkEng_setChk, if_neg h]

theorem State.acct_setAcct (s : State) (n m : Nat) (b : List Bucket) :
    (s.setAcct n b).acct m = if m = n then b else s.acct m := by
  unfold State.acct State.setAcct
  rw [Tab.get_set]

@[simp] theorem State.acct_setAcct_self (s : State) (n : Nat) (b : List Bucket) : (s.setAcct n b).acct n = b := by
  rw [State.acct_setAcct, if_pos rfl]

theorem State.acct_setAcct_ne (s : State) (n m : Nat) (b : List Bucket) (h : m ≠ n) : (s.setAcct n b).acct m = s.acct m := by
  rw [State.acct_setAcct, if_neg h]

theorem State.op_setOp (s : State) (k i : Nat) (x : RadioOp) :
    (s.setOp k x).op i = if i = k then some x else s.op i := by
  unfold State.op State.setOp
  rw [Tab.get_set]

@[simp] theorem State.op_setOp_self (s : State) (k : Nat) (x : RadioOp) : (s.setOp k x).op k = some x := by
  rw [State.op_setOp, if_pos rfl]

theorem State.op_setOp_ne (s : State) (k i : Nat) (x : RadioOp) (h : i ≠ k) : (s.setOp k x).op i = s.op i := by
  rw [State.op_setOp, if_neg h]

@[simp] theorem State.op_dropOp_self (s : State) (k : Nat) : (s.dropOp k).op k = none :=
  Tab.get_drop_self (fun _ => (none : Option RadioOp)) _ _

theorem State.op_dropOp_ne (s : State) (k i : Nat) (h : i ≠ k) : (s.dropOp k).op i = s.op i :=
  Tab.get_drop_ne (fun _ => (none : Option RadioOp)) _ _ _ h

theorem State.eng_setEng (s : State) (k i : Nat) (x : EngOp) :
    (s.setEng k x).eng i = if i = k then some x else s.eng i := by
  unfold State.eng State.setEng
  rw [Tab.get_set]

@[simp] theorem State.eng_setEng_self (s : State) (k : Nat) (x : EngOp) : (s.setEng k x).eng k = some x := by
  rw [State.eng_setEng, if_pos rfl]

theorem State.eng_setEng_ne (s : State) (k i : Nat) (x : EngOp) (h : i ≠ k) : (s.setEng k x).eng i = s.eng i := by
  rw [State.eng_setEng, if_neg h]

@[simp] theorem State.eng_dropEng_self (s : State) (k : Nat) : (s.dropEng k).eng k = none :=
  Tab.get_drop_self (fun _ => (none : Option EngOp)) _ _

theorem State.eng_dropEng_ne (s : State) (k i : Nat) (h : i ≠ k) : (s.dropEng k).eng i = s.eng i :=
  Tab.get_drop_ne (fun _ => (none : Option EngOp)) _ _ _ h

theorem State.ent_setEnt (s : State) (k i : Nat) (x : Entry) :
    (s.setEnt k x).ent i = if i = k then some x else s.ent i := by
  unfold State.ent State.setEnt
  rw [Tab.get_set]

@[simp] theorem State.ent_setEnt_self (s : State) (k : Nat) (x : Entry) : (s.setEnt k x).ent k = some x := by
  rw [State.ent_setEnt, if_pos rfl]

theorem State.ent_setEnt_ne (s : State) (k i : Nat) (x : Entry) (h : i ≠ k) : (s.setEnt k x).ent i = s.ent i := by
  rw [State.ent_setEnt, if_neg h]

@[simp] theorem State.ent_dropEnt_self (s : State) (k : Nat) : (s.dropEnt k).ent k = none :=
  Tab.get_drop_self (fun _ => (none : Option Entry)) _ _

theorem State.ent_dropEnt_ne (s : State) (k i : Nat) (h : i ≠ k) : (s.dropEnt k).ent i = s.ent i :=
  Tab.get_drop_ne (fun _ => (none : Option Entry)) _ _ _ h

theorem State.lane_setLane (s : State) (k i : Nat) (x : Lane) :
    (s.setLane k x).lane i = if i = k then some x else s.lane i := by
  unfold State.lane State.setLane
  rw [Tab.get_set]

@[simp] theorem State.lane_setLane_self (s : State) (k : Nat) (x : Lane) : (s.setLane k x).lane k = some x := by
  rw [State.lane_setLane, if_pos rfl]

theorem State.lane_setLane_ne (s : State) (k i : Nat) (x : Lane) (h : i ≠ k) : (s.setLane k x).lane i = s.lane i := by
  rw [State.lane_setLane, if_neg h]

@[simp] theorem State.lane_dropLane_self (s : State) (k : Nat) : (s.dropLane k).lane k = none :=
  Tab.get_drop_self (fun _ => (none : Option Lane)) _ _

theorem State.lane_dropLane_ne (s : State) (k i : Nat) (h : i ≠ k) : (s.dropLane k).lane i = s.lane i :=
  Tab.get_drop_ne (fun _ => (none : Option Lane)) _ _ _ h

theorem State.rslot_setRslot (s : State) (k i : Nat) (x : Recov) :
    (s.setRslot k x).rslot i = if i = k then some x else s.rslot i := by
  unfold State.rslot State.setRslot
  rw [Tab.get_set]

@[simp] theorem State.rslot_setRslot_self (s : State) (k : Nat) (x : Recov) : (s.setRslot k x).rslot k = some x := by
  rw [State.rslot_setRslot, if_pos rfl]

theorem State.rslot_setRslot_ne (s : State) (k i : Nat) (x : Recov) (h : i ≠ k) : (s.setRslot k x).rslot i = s.rslot i := by
  rw [State.rslot_setRslot, if_neg h]

@[simp] theorem State.rslot_dropRslot_self (s : State) (k : Nat) : (s.dropRslot k).rslot k = none :=
  Tab.get_drop_self (fun _ => (none : Option Recov)) _ _

theorem State.rslot_dropRslot_ne (s : State) (k i : Nat) (h : i ≠ k) : (s.dropRslot k).rslot i = s.rslot i :=
  Tab.get_drop_ne (fun _ => (none : Option Recov)) _ _ _ h

theorem State.slot_setSlot (s : State) (p i q j : Nat) (x : Slot) :
    (s.setSlot p i x).slot q j = if 256 * q + j = 256 * p + i then x else s.slot q j := by
  unfold State.slot State.setSlot
  rw [Tab.get_set]

@[simp] theorem State.slot_setSlot_self (s : State) (p i : Nat) (x : Slot) : (s.setSlot p i x).slot p i = x := by
  rw [State.slot_setSlot, if_pos rfl]

theorem State.mark_setMark (s : State) (w i : Nat) (m : Mark) : (s.setMark w m).mark i = if i = w then m else s.mark i := by
  unfold State.mark State.setMark
  rw [Tab.get_set]

@[simp] theorem State.syn_setSyn_self (s : State) (y : Syn) (x : Synth) : (s.setSyn y x).syn y = x := by cases y <;> rfl

theorem State.syn_setSyn_ne (s : State) (y z : Syn) (x : Synth) (h : z ≠ y) : (s.setSyn y x).syn z = s.syn z := by
  cases y <;> cases z <;> first | rfl | exact absurd rfl h

@[simp] theorem State.pal_setPal_self (s : State) (c : Chain) (x : Palette) : (s.setPal c x).pal c = x := by cases c <;> rfl

theorem State.pal_setPal_ne (s : State) (c d : Chain) (x : Palette) (h : d ≠ c) : (s.setPal c x).pal d = s.pal d := by
  cases c <;> cases d <;> first | rfl | exact absurd rfl h

/-! Context registers. -/

@[simp] theorem Ctx.rd_zero (c : Ctx) : c.rd 0 = 0#32 := rfl

theorem Ctx.rd_wr (c : Ctx) (i j : Nat) (w : Word) : (c.wr i w).rd j = if j = i ∧ j ≠ 0 then w else c.rd j := by
  unfold Ctx.wr Ctx.rd
  by_cases hj : j = 0
  · simp [hj]
  · by_cases hi : i = 0
    · simp [hi, hj]
    · simp only [hi, hj, if_false]
      rw [Tab.get_set]
      simp [hj]

theorem Ctx.rdT_wrT (c : Ctx) (i j : Nat) (w : BitVec 64) : (c.wrT i w).rdT j = if j = i then w else c.rdT j :=
  Tab.get_set _ _ _ _ _

/-! The moment at which a command takes effect. -/

@[simp] theorem State.leaveIdle_touch_regs (s : State) : s.leaveIdle.touch.regs = s.regs := by
  rw [State.touch_regs]; unfold State.leaveIdle; split <;> rfl

@[simp] theorem State.leaveIdle_mem (s : State) : s.leaveIdle.mem = s.mem := by unfold State.leaveIdle; split <;> rfl
@[simp] theorem State.leaveIdle_marks (s : State) : s.leaveIdle.marks = s.marks := by unfold State.leaveIdle; split <;> rfl
@[simp] theorem State.leaveIdle_scrub (s : State) : s.leaveIdle.scrub = s.scrub := by unfold State.leaveIdle; split <;> rfl
@[simp] theorem State.leaveIdle_caps (s : State) : s.leaveIdle.caps = s.caps := by unfold State.leaveIdle; split <;> rfl
@[simp] theorem State.leaveIdle_lnch (s : State) : s.leaveIdle.lnch = s.lnch := by unfold State.leaveIdle; split <;> rfl
@[simp] theorem State.leaveIdle_ctx (s : State) : s.leaveIdle.ctx = s.ctx := by unfold State.leaveIdle; split <;> rfl
@[simp] theorem State.leaveIdle_sems (s : State) : s.leaveIdle.sems = s.sems := by unfold State.leaveIdle; split <;> rfl
@[simp] theorem State.leaveIdle_slots (s : State) : s.leaveIdle.slots = s.slots := by unfold State.leaveIdle; split <;> rfl
@[simp] theorem State.leaveIdle_ports (s : State) : s.leaveIdle.ports = s.ports := by unfold State.leaveIdle; split <;> rfl
@[simp] theorem State.leaveIdle_sya (s : State) : s.leaveIdle.sya = s.sya := by unfold State.leaveIdle; split <;> rfl
@[simp] theorem State.leaveIdle_syb (s : State) : s.leaveIdle.syb = s.syb := by unfold State.leaveIdle; split <;> rfl
@[simp] theorem State.leaveIdle_syt (s : State) : s.leaveIdle.syt = s.syt := by unfold State.leaveIdle; split <;> rfl
@[simp] theorem State.leaveIdle_tempConv (s : State) : s.leaveIdle.tempConv = s.tempConv := by unfold State.leaveIdle; split <;> rfl
@[simp] theorem State.leaveIdle_pos (s : State) : s.leaveIdle.pos = s.pos := by unfold State.leaveIdle; split <;> rfl
@[simp] theorem State.leaveIdle_palA (s : State) : s.leaveIdle.palA = s.palA := by unfold State.leaveIdle; split <;> rfl
@[simp] theorem State.leaveIdle_palB (s : State) : s.leaveIdle.palB = s.palB := by unfold State.leaveIdle; split <;> rfl
@[simp] theorem State.leaveIdle_ents (s : State) : s.leaveIdle.ents = s.ents := by unfold State.leaveIdle; split <;> rfl
@[simp] theorem State.leaveIdle_lanes (s : State) : s.leaveIdle.lanes = s.lanes := by unfold State.leaveIdle; split <;> rfl
@[simp] theorem State.leaveIdle_held (s : State) : s.leaveIdle.held = s.held := by unfold State.leaveIdle; split <;> rfl
@[simp] theorem State.leaveIdle_reqs (s : State) : s.leaveIdle.reqs = s.reqs := by unfold State.leaveIdle; split <;> rfl
@[simp] theorem State.leaveIdle_rslots (s : State) : s.leaveIdle.rslots = s.rslots := by unfold State.leaveIdle; split <;> rfl
@[simp] theorem State.leaveIdle_seqno (s : State) : s.leaveIdle.seqno = s.seqno := by unfold State.leaveIdle; split <;> rfl
@[simp] theorem State.leaveIdle_wins (s : State) : s.leaveIdle.wins = s.wins := by unfold State.leaveIdle; split <;> rfl
@[simp] theorem State.leaveIdle_ops (s : State) : s.leaveIdle.ops = s.ops := by unfold State.leaveIdle; split <;> rfl
@[simp] theorem State.leaveIdle_opNext (s : State) : s.leaveIdle.opNext = s.opNext := by unfold State.leaveIdle; split <;> rfl
@[simp] theorem State.leaveIdle_accts (s : State) : s.leaveIdle.accts = s.accts := by unfold State.leaveIdle; split <;> rfl
@[simp] theorem State.leaveIdle_keys (s : State) : s.leaveIdle.keys = s.keys := by unfold State.leaveIdle; split <;> rfl
@[simp] theorem State.leaveIdle_keyData (s : State) : s.leaveIdle.keyData = s.keyData := by unfold State.leaveIdle; split <;> rfl
@[simp] theorem State.leaveIdle_aes (s : State) : s.leaveIdle.aes = s.aes := by unfold State.leaveIdle; split <;> rfl
@[simp] theorem State.leaveIdle_engs (s : State) : s.leaveIdle.engs = s.engs := by unfold State.leaveIdle; split <;> rfl
@[simp] theorem State.leaveIdle_engNext (s : State) : s.leaveIdle.engNext = s.engNext := by unfold State.leaveIdle; split <;> rfl
@[simp] theorem State.leaveIdle_mac (s : State) : s.leaveIdle.mac = s.mac := by unfold State.leaveIdle; split <;> rfl
@[simp] theorem State.leaveIdle_wkr (s : State) : s.leaveIdle.wkr = s.wkr := by unfold State.leaveIdle; split <;> rfl
@[simp] theorem State.leaveIdle_msgQ (s : State) : s.leaveIdle.msgQ = s.msgQ := by unfold State.leaveIdle; split <;> rfl
@[simp] theorem State.leaveIdle_msgEn (s : State) : s.leaveIdle.msgEn = s.msgEn := by unfold State.leaveIdle; split <;> rfl
@[simp] theorem State.leaveIdle_dma (s : State) : s.leaveIdle.dma = s.dma := by unfold State.leaveIdle; split <;> rfl
@[simp] theorem State.leaveIdle_chk (s : State) : s.leaveIdle.chk = s.chk := by unfold State.leaveIdle; split <;> rfl
@[simp] theorem State.leaveIdle_cmc (s : State) : s.leaveIdle.cmc = s.cmc := by unfold State.leaveIdle; split <;> rfl
@[simp] theorem State.leaveIdle_cmr (s : State) : s.leaveIdle.cmr = s.cmr := by unfold State.leaveIdle; split <;> rfl
@[simp] theorem State.leaveIdle_cmrOpen (s : State) : s.leaveIdle.cmrOpen = s.cmrOpen := by unfold State.leaveIdle; split <;> rfl
@[simp] theorem State.leaveIdle_well (s : State) : s.leaveIdle.well = s.well := by unfold State.leaveIdle; split <;> rfl
@[simp] theorem State.leaveIdle_brush (s : State) : s.leaveIdle.brush = s.brush := by unfold State.leaveIdle; split <;> rfl
@[simp] theorem State.leaveIdle_pins (s : State) : s.leaveIdle.pins = s.pins := by unfold State.leaveIdle; split <;> rfl
@[simp] theorem State.leaveIdle_line (s : State) : s.leaveIdle.line = s.line := by unfold State.leaveIdle; split <;> rfl
@[simp] theorem State.leaveIdle_casc2 (s : State) : s.leaveIdle.casc2 = s.casc2 := by unfold State.leaveIdle; split <;> rfl
@[simp] theorem State.leaveIdle_casc3 (s : State) : s.leaveIdle.casc3 = s.casc3 := by unfold State.leaveIdle; split <;> rfl
@[simp] theorem State.leaveIdle_order (s : State) : s.leaveIdle.order = s.order := by unfold State.leaveIdle; split <;> rfl
@[simp] theorem State.leaveIdle_pending (s : State) : s.leaveIdle.pending = s.pending := by unfold State.leaveIdle; split <;> rfl
@[simp] theorem State.leaveIdle_regs (s : State) : s.leaveIdle.regs = s.regs := by unfold State.leaveIdle; split <;> rfl
@[simp] theorem State.leaveIdle_time (s : State) : s.leaveIdle.time = s.time := by unfold State.leaveIdle; split <;> rfl

end Sys2Proof.Machine
end

