-- ==== Sys2Proof/Laws/Easel.lean ====
section
/-! SUPPORT. What the error books of memory may change (registers, banks, check bits, event rings), and what the fetch of an
Easel instruction leaves: the lemmas from which every instruction's statement starts. -/

namespace Sys2Proof.Machine

/-- `t` differs from `s` only in what a fault record, an error counter, an event or a store can change. -/
def State.Books (s t : State) : Prop :=
  { t with regs := s.regs, mem := s.mem, marks := s.marks, scrub := s.scrub, ports := s.ports, cmrOpen := s.cmrOpen } = s

theorem State.Books.refl (s : State) : s.Books s := rfl

theorem State.Books.trans {a b c : State} (h : a.Books b) (g : b.Books c) : a.Books c := by
  unfold State.Books at *
  rw [← h]
  conv_rhs => rw [← g]

theorem Books.foldl {a : State} {β : Type} {f : State → β → State} {s : State} {l : List β}
    (hf : ∀ s x, a.Books s → a.Books (f s x)) (h : a.Books s) : a.Books (l.foldl f s) := by
  induction l generalizing s with
  | nil => exact h
  | cons x l ih => exact ih (hf s x h)

theorem State.Books.setFld {a s : State} (f : Fld) (v : Nat) (h : a.Books s) : a.Books (s.setFld f v) := h.trans rfl
theorem State.Books.setReg {a s : State} (o : Nat) (w : Word) (h : a.Books s) : a.Books (s.setReg o w) := h.trans rfl
theorem State.Books.incMod {a s : State} (f : Fld) (h : a.Books s) : a.Books (s.incMod f) := h.trans rfl
theorem State.Books.raise {a s : State} (f c : Fld) (h : a.Books s) : a.Books (s.raise f c) := h.trans rfl
theorem State.Books.setPort {a s : State} (p : Nat) (x : Port) (h : a.Books s) : a.Books (s.setPort p x) := h.trans rfl
theorem State.Books.setMark {a s : State} (w : Nat) (m : Mark) (h : a.Books s) : a.Books (s.setMark w m) := h.trans rfl
theorem State.Books.putByte {a s : State} (p : Nat) (b : Byte) (h : a.Books s) : a.Books (s.putByte p b) := h.trans rfl

theorem State.Books.putBytes {a s : State} (p : Nat) (bs : List Byte) (h : a.Books s) : a.Books (s.putBytes p bs) := by
  induction bs generalizing s p with
  | nil => exact h
  | cons b bs ih => exact ih _ (h.putByte p b)

theorem State.Books.useInj {a s : State} (b : Bank) (h : a.Books s) : a.Books (s.useInj b) := by
  unfold State.useInj; split
  · exact h.setFld _ _
  · exact h

theorem State.Books.markFull {a s : State} (w : Nat) (h : a.Books s) : a.Books (s.markFull w) := by
  unfold State.markFull; split
  · split
    · exact h.setMark _ _
    · exact (h.setMark _ _).useInj _
  · exact h

theorem State.Books.devWrite {a s : State} (p : Nat) (bs : List Byte) (h : a.Books s) : a.Books (s.devWrite p bs) := by
  unfold State.devWrite
  exact Books.foldl (fun _ _ h => h.markFull _) (h.putBytes _ _)

theorem State.Books.ringPut {a s : State} (p m : Nat) (bs : List Byte) (h : a.Books s) : a.Books (s.ringPut p m bs) := by
  unfold State.ringPut
  exact ((Books.foldl (fun _ _ h => h.devWrite _ _) (h.devWrite _ _)).setFld _ _).raise _ _

theorem State.Books.lostRecord {a s : State} (p : Nat) (h : a.Books s) : a.Books (s.lostRecord p) := by
  unfold State.lostRecord; split
  · exact (h.ringPut _ _ _).setPort _ _
  · exact h

theorem State.Books.postBefore {a s : State} (m p c st hd a1 a2 tm : Nat) (h : a.Books s) :
    a.Books (s.postBefore m p c st hd a1 a2 tm) := by
  unfold State.postBefore; dsimp only; split
  · exact (h.lostRecord p).ringPut _ _ _
  · exact ((h.lostRecord p).setPort _ _).raise _ _

theorem State.Books.faultEvents {a s : State} (f : FaultRec) (m k : Nat) (h : a.Books s) :
    a.Books (s.faultEvents f m k) := by
  unfold State.faultEvents; split
  · refine Books.foldl (fun s x h => ?_) h
    split
    · unfold State.faultPost
      exact (Books.foldl (fun _ _ h => h.putBytes _ _) h).postBefore _ _ _ _ _ _ _ _
    · exact h
  · exact h

theorem State.Books.faultPut {a s : State} (m : Nat) (f : FaultRec) (h : a.Books s) : a.Books (s.faultPut m f) := by
  unfold State.faultPut
  exact Books.foldl (fun _ _ h => h.devWrite _ _) (State.Books.devWrite _ _ (h.trans rfl))

theorem State.Books.fault {a s : State} (f : FaultRec) (h : a.Books s) : a.Books (s.fault f) := by
  unfold State.fault; dsimp only; split
  · exact h.putByte _ _
  · apply State.Books.faultEvents
    have h1 := (h.faultPut (s.faultAfter f) f).setFld SYS_FAULT_LOG.HEAD
      (((s.faultPut (s.faultAfter f) f).fld SYS_FAULT_LOG.HEAD + 1) % 64)
    split <;> split
    · exact (((h1.setFld _ _).incMod _).raise _ _).setFld _ _
    · exact ((h1.incMod _).raise _ _).setFld _ _
    · exact ((h1.setFld _ _).incMod _).raise _ _
    · exact (h1.incMod _).raise _ _

theorem State.Books.parityErr {a s : State} (x i : Nat) (h : a.Books s) : a.Books (s.parityErr x i) := by
  unfold State.parityErr
  exact ((h.raise _ _).incMod _).fault _

theorem State.Books.errAddr {a s : State} (b : Bank) (w k r : Nat) (h : a.Books s) : a.Books (s.errAddr b w k r) := by
  unfold State.errAddr
  exact (h.setReg _ _).setFld _ _

theorem State.Books.correctable {a s : State} (b : Bank) (w r : Nat) (h : a.Books s) : a.Books (s.correctable b w r) := by
  unfold State.correctable; dsimp only
  split <;> split
  · exact ((h.raise _ _).incMod _).fault _
  · exact (h.raise _ _).incMod _
  · exact (((h.errAddr _ _ _ _).raise _ _).incMod _).fault _
  · exact ((h.errAddr _ _ _ _).raise _ _).incMod _

theorem State.Books.uncorrectable {a s : State} (b : Bank) (w r : Nat) (h : a.Books s) :
    a.Books (s.uncorrectable b w r) := by
  unfold State.uncorrectable
  exact (((h.errAddr _ _ _ _).raise _ _).incMod _).fault _

theorem State.Books.scrub {a s : State} (l : List Nat) (h : a.Books s) : a.Books { s with scrub := l } := h.trans rfl

theorem State.Books.readWord {a s : State} (w r : Nat) (h : a.Books s) : a.Books (s.readWord w r).1 := by
  unfold State.readWord
  generalize s.mark w = m
  cases bankOf (w * 8) with
  | none => exact h
  | some b =>
    cases m with
    | good => exact h
    | bad => exact h.uncorrectable b w r
    | single =>
      have h1 := h.correctable b w r
      dsimp only
      generalize s.correctable b w r = u at *
      split
      · exact h1.scrub _
      · exact h1

theorem State.Books.readSpan {a s : State} (p n : Nat) (h : a.Books s) : a.Books (s.readSpan p n).1 := by
  unfold State.readSpan
  generalize wordsOf p n = l
  suffices H : ∀ (r : State × Bool), a.Books r.1 →
      a.Books (l.foldl (fun (r : State × Bool) w => let q := r.1.readWord w 0; (q.1, r.2 && q.2)) r).1 from H (s, true) h
  induction l with
  | nil => exact fun _ h => h
  | cons w l ih => exact fun r h => ih _ (h.readWord _ _)

theorem State.Books.split {a s : State} (p n : Nat) (h : a.Books s) : a.Books (s.split p n) := by
  unfold State.split; split
  · exact h.incMod _
  · exact h

theorem State.Books.upset {a s : State} (e : Env) (h : a.Books s) : a.Books (s.upset e) :=
  Books.foldl (fun _ _ h => h.setMark _ _) h

/-- The books leave every context as it is. -/
theorem State.Books.cx {s t : State} (h : s.Books t) (k : Nat) : t.cx k = s.cx k := by
  have e := congrArg (fun u : State => u.cx k) h
  exact e

theorem State.upset_mem (s : State) (e : Env) : (s.upset e).mem = s.mem := by
  unfold State.upset
  generalize e.upsets = l
  induction l generalizing s with
  | nil => rfl
  | cons x l ih => exact ih _
theorem State.upset_marks {s t : State} (e : Env) (h : t.marks = s.marks) : (t.upset e).marks = (s.upset e).marks := by
  unfold State.upset
  generalize e.upsets = l
  induction l generalizing s t with
  | nil => exact h
  | cons x l ih =>
    refine ih ?_
    unfold State.setMark
    exact congrArg (fun m => Tab.set (fun _ => Mark.good) m x.1 x.2) h

/-- A read of words none of which is uncorrectable finds them usable. -/
theorem State.readWord_usable (s : State) (w r : Nat) (h : s.mark w ≠ .bad) : (s.readWord w r).2 = true := by
  unfold State.readWord
  split
  · rfl
  · next hb => exact absurd hb h
  · rfl

/-- The bank words that an aligned word touches are one word. -/
theorem wordsOf_aligned (p : Nat) : wordsOf (4 * p) 4 = [4 * p / 8] := by
  unfold wordsOf
  have e : (4 * p + 4 - 1) / 8 - 4 * p / 8 + 1 = 1 := by omega
  rw [if_neg (by decide), e]
  rfl

theorem State.readSpan_aligned (s : State) (p : Nat) (h : s.usable (4 * p) 4) : (s.readSpan (4 * p) 4).2 = true := by
  unfold State.usable at h
  unfold State.readSpan
  rw [wordsOf_aligned] at *
  exact s.readWord_usable _ _ (h _ (List.mem_singleton.2 rfl))

/-- What a fetch leaves of its context: its next request is dated from now, its registers stay. -/
theorem State.fetched_cx (s : State) (k : Fin 64) (env : Env) (j : Nat) :
    (s.fetched k env).cx j = if j = k.val then { s.cx k.val with since := (s.touch.upset env).stamp } else s.cx j := by
  unfold State.fetched
  dsimp only
  rw [((State.Books.refl _).readSpan _ _).cx, State.cx_setCx]
  split
  · rfl
  · rw [((State.Books.refl s.touch).upset env).cx]
    unfold State.cx
    rw [s.touch_ctx]

theorem State.fetched_cx_self (s : State) (k : Fin 64) (env : Env) :
    (s.fetched k env).cx k.val = { s.cx k.val with since := (s.touch.upset env).stamp } := by
  rw [State.fetched_cx, if_pos rfl]

/-- The fetch of a context that is about to issue `w` finds `w`. -/
theorem State.instrFetch_fetches {s : State} {k : Fin 64} {env : Env} {w : Nat} (h : s.fetches k env w) :
    (s.touch.upset env).instrFetch k env.parity = (s.fetched k env, 0, w) := by
  obtain ⟨-, h4, h5, h6, h7, h8⟩ := h
  have hc : (s.touch.upset env).cx k.val = s.cx k.val := by
    rw [((State.Books.refl s.touch).upset env).cx]; unfold State.cx; rw [s.touch_ctx]
  have hm : ((s.touch.upset env).setCx k.val { s.cx k.val with since := (s.touch.upset env).stamp }).num
      (4 * (s.cx k.val).p.toNat) 4 = w := by
    rw [← h7]
    unfold State.num State.bytes State.byte
    rw [State.setCx_mem, State.upset_mem, State.touch_mem]
  have hu : ((s.touch.upset env).setCx k.val { s.cx k.val with since := (s.touch.upset env).stamp }).usable
      (4 * (s.cx k.val).p.toNat) 4 := by
    unfold State.usable State.mark at *
    rw [State.setCx_marks]
    rwa [State.upset_marks env s.touch_marks]
  unfold State.instrFetch
  dsimp only
  rw [hc, if_neg (by simpa using h4), if_neg (by simp [h5]), h6]
  rw [if_neg (by decide), if_neg (by decide), State.readSpan_aligned _ _ hu, if_pos rfl, hm]
  rfl

theorem State.fetches_issues {s : State} {k : Fin 64} {env : Env} {w : Nat} (h : s.fetches k env w) : s.issues k = true :=
  h.1

/-- An instruction whose word is fetched has its effect. -/
theorem State.issue_fetches {s : State} {k : Fin 64} {env : Env} {w op : Nat} {f : State → Nat → State}
    (h : s.fetches k env w) (ho : opOf w = op) : s.issue k env op f = .next (f (s.fetched k env) w) := by
  unfold State.issue
  rw [if_pos (State.fetches_issues h), State.instrFetch_fetches h]
  simp [ho]

/-- As `issue_fetches`, for the rows told apart by a function in x. -/
theorem State.issueFn_fetches {s : State} {k : Fin 64} {env : Env} {w op : Nat} {sel : Nat → Bool} {f : State → Nat → State}
    (h : s.fetches k env w) (ho : opOf w = op) (hs : sel w = true) :
    s.issueFn k env op sel f = .next (f (s.fetched k env) w) := by
  unfold State.issueFn
  rw [if_pos (State.fetches_issues h), State.instrFetch_fetches h]
  simp [ho, hs]

end Sys2Proof.Machine
end

