-- ==== Sys2Proof/Laws/Keeps.lean ====
section
/-! SUPPORT. What every operation of the model keeps: the queue of waiting commands, and the canonical form of memory and of
the register file. One lemma per operation, so that no later proof unfolds one. -/

namespace Sys2Proof.Machine

/-- What no operation changes on the way from `a` to `s`: the waiting commands, that memory and registers are in canonical
form, and, with `kf`, the key store. -/
structure State.Keeps (a : State) (kf : Bool) (s : State) : Prop where
  pending : s.pending = a.pending
  mem     : a.memOk → s.memOk
  regs    : a.regsOk → s.regsOk
  keys    : kf = true → s.keys = a.keys ∧ s.keyData = a.keyData

/-- The same of an outcome: of its next state, where it has one. -/
def State.Stays (a : State) (kf : Bool) : Host.Outcome State Fault Refusal → Prop
  | .next t => a.Keeps kf t
  | _ => True

theorem State.Keeps.refl (kf : Bool) (s : State) : s.Keeps kf s := ⟨rfl, id, id, fun _ => ⟨rfl, rfl⟩⟩

theorem State.Keeps.trans {a b c : State} {kf : Bool} (h : a.Keeps kf b) (g : b.Keeps kf c) : a.Keeps kf c :=
  ⟨g.pending.trans h.pending, fun x => g.mem (h.mem x), fun x => g.regs (h.regs x),
    fun x => ⟨(g.keys x).1.trans (h.keys x).1, (g.keys x).2.trans (h.keys x).2⟩⟩

theorem Keeps.next {a s : State} {kf : Bool} (h : a.Keeps kf s) : a.Stays kf (.next s) := h

theorem Keeps.foldl {a : State} {kf : Bool} {β : Type} {f : State → β → State} {s : State} {l : List β}
    (hf : ∀ s x, a.Keeps kf s → a.Keeps kf (f s x)) (h : a.Keeps kf s) : a.Keeps kf (l.foldl f s) := by
  induction l generalizing s with
  | nil => exact h
  | cons x l ih => exact ih (hf s x h)

theorem Keeps.foldl_fst {a : State} {kf : Bool} {β γ : Type} {f : State × γ → β → State × γ} {r : State × γ}
    {l : List β} (hf : ∀ r x, a.Keeps kf r.1 → a.Keeps kf (f r x).1) (h : a.Keeps kf r.1) : a.Keeps kf (l.foldl f r).1 := by
  induction l generalizing r with
  | nil => exact h
  | cons x l ih => exact ih (hf r x h)

/-- A record update of other fields. -/
theorem Keeps.upd {a u : State} {kf : Bool}
    {v2 : Tab Mark} {v3 : List Nat} {v4 : TimeBase} {v5 : Tab Cap} {v6 : Tab Lnch} {v7 : Tab Ctx} {v8 : Tab Sem} {v9
    : Tab Slot} {v10 : Tab Port} {v11 : Synth} {v12 : Synth} {v13 : Synth} {v14 : Bool} {v15 : Nat} {v16 : Palette}
    {v17 : Palette} {v18 : Tab (Option Entry)} {v19 : Tab (Option Lane)} {v20 : List Held} {v21 : List Recov} {v22 :
    Tab (Option Recov)} {v23 : Nat} {v24 : Tab (Option RxWin)} {v25 : Tab (Option RadioOp)} {v26 : Nat} {v27 :
    Option Emission} {v28 : Tab (List Bucket)} {v31 : Tab Aes} {v32 : Tab (Option EngOp)} {v33 : Nat} {v34 : Mac}
    {v35 : Wkr} {v36 : List Nat} {v37 : Bool} {v38 : Tab Dma} {v39 : Tab Chk} {v40 : MultSt} {v41 : MultSt} {v42 :
    Option (Nat × Nat)} {v43 : Power} {v44 : Well} {v45 : Brush} {v46 : Pins} {v47 : Line} {v48 : List Casc} {v49 :
    List Casc} {v50 : Nat} {v51 : Nat}
    (h : a.Keeps kf u) :
    a.Keeps kf (State.mk u.regs u.mem v2 v3 v4 v5 v6 v7 v8 v9 v10 v11 v12 v13 v14 v15 v16 v17 v18 v19 v20 v21
      v22 v23 v24 v25 v26 v27 v28 u.keys u.keyData v31 v32 v33 v34 v35 v36 v37 v38 v39 v40 v41 v42 v43 v44 v45
      v46 v47 v48 v49 v50 v51 u.pending) :=
  ⟨h.pending, h.mem, h.regs, h.keys⟩

/-- A record update that may reach the key store. -/
theorem Keeps.updKeys {a u : State}
    {v2 : Tab Mark} {v3 : List Nat} {v4 : TimeBase} {v5 : Tab Cap} {v6 : Tab Lnch} {v7 : Tab Ctx} {v8 : Tab Sem} {v9
    : Tab Slot} {v10 : Tab Port} {v11 : Synth} {v12 : Synth} {v13 : Synth} {v14 : Bool} {v15 : Nat} {v16 : Palette}
    {v17 : Palette} {v18 : Tab (Option Entry)} {v19 : Tab (Option Lane)} {v20 : List Held} {v21 : List Recov} {v22 :
    Tab (Option Recov)} {v23 : Nat} {v24 : Tab (Option RxWin)} {v25 : Tab (Option RadioOp)} {v26 : Nat} {v27 :
    Option Emission} {v28 : Tab (List Bucket)} {v29 : Tab Key} {v30 : Tab Word} {v31 : Tab Aes} {v32 : Tab (Option
    EngOp)} {v33 : Nat} {v34 : Mac} {v35 : Wkr} {v36 : List Nat} {v37 : Bool} {v38 : Tab Dma} {v39 : Tab Chk} {v40 :
    MultSt} {v41 : MultSt} {v42 : Option (Nat × Nat)} {v43 : Power} {v44 : Well} {v45 : Brush} {v46 : Pins} {v47 :
    Line} {v48 : List Casc} {v49 : List Casc} {v50 : Nat} {v51 : Nat}
    (h : a.Keeps false u) :
    a.Keeps false (State.mk u.regs u.mem v2 v3 v4 v5 v6 v7 v8 v9 v10 v11 v12 v13 v14 v15 v16 v17 v18 v19 v20 v21
      v22 v23 v24 v25 v26 v27 v28 v29 v30 v31 v32 v33 v34 v35 v36 v37 v38 v39 v40 v41 v42 v43 v44 v45 v46 v47
      v48 v49 v50 v51 u.pending) :=
  ⟨h.pending, h.mem, h.regs, nofun⟩

theorem State.setReg_keeps {a : State} {kf : Bool} (s : State) (off : Nat) (w : Word) (hs : a.Keeps kf s) : a.Keeps kf (s.setReg off w) :=
  ⟨hs.pending, hs.mem, fun h => Tab.wf_set _ _ _ _ (hs.regs h), hs.keys⟩

theorem State.putByte_keeps {a : State} {kf : Bool} (s : State) (p : Nat) (b : Byte) (hs : a.Keeps kf s) : a.Keeps kf (s.putByte p b) :=
  ⟨hs.pending, fun h => Tab.wf_set _ _ _ _ (hs.mem h), hs.regs, hs.keys⟩

theorem State.putBytes_keeps {a : State} {kf : Bool} (s : State) (p : Nat) (bs : List Byte) (hs : a.Keeps kf s) :
    a.Keeps kf (s.putBytes p bs) := by
  induction bs generalizing s p with
  | nil => exact hs
  | cons b bs ih => exact ih _ _ (State.putByte_keeps _ _ _ hs)

theorem State.setSyn_keeps {a : State} {kf : Bool} (s : State) (y : Syn) (x : Synth) (hs : a.Keeps kf s) : a.Keeps kf (s.setSyn y x) := by
  cases y <;> exact ⟨hs.pending, hs.mem, hs.regs, hs.keys⟩

theorem State.setPal_keeps {a : State} {kf : Bool} (s : State) (c : Chain) (x : Palette) (hs : a.Keeps kf s) :
    a.Keeps kf (s.setPal c x) := by
  cases c <;> exact ⟨hs.pending, hs.mem, hs.regs, hs.keys⟩

theorem State.setMult_keeps {a : State} {kf : Bool} (s : State) (m : Mult) (x : MultSt) (hs : a.Keeps kf s) :
    a.Keeps kf (s.setMult m x) := by
  cases m <;> exact ⟨hs.pending, hs.mem, hs.regs, hs.keys⟩

theorem State.clearBank_keeps {a : State} {kf : Bool} (s : State) (b : Bank) (hs : a.Keeps kf s) : a.Keeps kf (s.clearBank b) :=
  ⟨hs.pending, fun h => Tab.wf_filter _ _ _ (hs.mem h), hs.regs, hs.keys⟩


theorem State.setFld_keeps {z : State} {kf : Bool} (s : State) (f : Fld) (v : Nat) (hs : z.Keeps kf s) :
    z.Keeps kf (s.setFld f v) := by
  unfold State.setFld
  repeat' with_reducible first
    | (exact hs) | (assumption) | (apply State.setReg_keeps) | (intro) | (dsimp only) | (split)

theorem State.incSat_keeps {z : State} {kf : Bool} (s : State) (f : Fld) (hs : z.Keeps kf s) :
    z.Keeps kf (s.incSat f) := by
  unfold State.incSat
  repeat' with_reducible first
    | (exact hs) | (assumption) | (apply State.setFld_keeps) | (intro) | (dsimp only) | (split)

theorem State.incMod_keeps {z : State} {kf : Bool} (s : State) (f : Fld) (hs : z.Keeps kf s) :
    z.Keeps kf (s.incMod f) := by
  unfold State.incMod
  repeat' with_reducible first
    | (exact hs) | (assumption) | (apply State.setFld_keeps) | (intro) | (dsimp only) | (split)

theorem State.raise_keeps {z : State} {kf : Bool} (s : State) (flag : Fld) (cnt : Fld) (hs : z.Keeps kf s) :
    z.Keeps kf (s.raise flag cnt) := by
  unfold State.raise
  repeat' with_reducible first
    | (exact hs) | (assumption) | (apply State.incSat_keeps) | (apply State.setFld_keeps) | (intro) | (dsimp only)
    | (split)

theorem State.touch_keeps {z : State} {kf : Bool} (s : State) (hs : z.Keeps kf s) :
    z.Keeps kf (s.touch) := by
  unfold State.touch
  repeat' with_reducible first
    | (exact hs) | (assumption) | (exact ⟨hs.pending, hs.mem, hs.regs, hs.keys⟩) | (intro) | (dsimp only) | (split)
    | (refine Keeps.upd ?_)

theorem State.moveTo_keeps {z : State} {kf : Bool} (s : State) (t : Nat) (hs : z.Keeps kf s) :
    z.Keeps kf (s.moveTo t) := by
  unfold State.moveTo
  repeat' with_reducible first
    | (exact hs) | (assumption) | (exact ⟨hs.pending, hs.mem, hs.regs, hs.keys⟩) | (intro) | (dsimp only) | (split)
    | (refine Keeps.upd ?_)

theorem State.draw_keeps {z : State} {kf : Bool} (s : State) (hs : z.Keeps kf s) :
    z.Keeps kf (s.draw) := by
  unfold State.draw
  repeat' with_reducible first
    | (exact hs) | (assumption) | (exact ⟨hs.pending, hs.mem, hs.regs, hs.keys⟩) | (intro) | (dsimp only) | (split)
    | (refine Keeps.upd ?_)

theorem State.setMark_keeps {z : State} {kf : Bool} (s : State) (w : Nat) (m : Mark) (hs : z.Keeps kf s) :
    z.Keeps kf (s.setMark w m) := by
  unfold State.setMark
  repeat' with_reducible first
    | (exact hs) | (assumption) | (exact ⟨hs.pending, hs.mem, hs.regs, hs.keys⟩) | (intro) | (dsimp only) | (split)
    | (refine Keeps.upd ?_)

theorem State.useInj_keeps {z : State} {kf : Bool} (s : State) (b : Bank) (hs : z.Keeps kf s) :
    z.Keeps kf (s.useInj b) := by
  unfold State.useInj
  repeat' with_reducible first
    | (exact hs) | (assumption) | (apply State.setFld_keeps) | (intro) | (dsimp only) | (split)

theorem State.markFull_keeps {z : State} {kf : Bool} (s : State) (w : Nat) (hs : z.Keeps kf s) :
    z.Keeps kf (s.markFull w) := by
  unfold State.markFull
  repeat' with_reducible first
    | (exact hs) | (assumption) | (apply State.setMark_keeps) | (apply State.useInj_keeps) | (intro) | (dsimp only)
    | (split)

theorem State.devWrite_keeps {z : State} {kf : Bool} (s : State) (a : Nat) (bs : List Byte) (hs : z.Keeps kf s) :
    z.Keeps kf (s.devWrite a bs) := by
  unfold State.devWrite
  repeat' with_reducible first
    | (exact hs) | (assumption) | (apply State.markFull_keeps) | (apply State.putBytes_keeps) | (apply Keeps.foldl)
    | (apply Keeps.foldl_fst) | (intro) | (dsimp only) | (split)

theorem State.devNum_keeps {z : State} {kf : Bool} (s : State) (a : Nat) (n : Nat) (v : Nat) (hs : z.Keeps kf s) :
    z.Keeps kf (s.devNum a n v) := by
  unfold State.devNum
  repeat' with_reducible first
    | (exact hs) | (assumption) | (apply State.devWrite_keeps) | (intro) | (dsimp only) | (split)

theorem State.setPort_keeps {z : State} {kf : Bool} (s : State) (p : Nat) (x : Port) (hs : z.Keeps kf s) :
    z.Keeps kf (s.setPort p x) := by
  unfold State.setPort
  repeat' with_reducible first
    | (exact hs) | (assumption) | (exact ⟨hs.pending, hs.mem, hs.regs, hs.keys⟩) | (intro) | (dsimp only) | (split)
    | (refine Keeps.upd ?_)

theorem State.ringPut_keeps {z : State} {kf : Bool} (s : State) (p : Nat) (m : Nat) (bs : List Byte) (hs : z.Keeps kf s) :
    z.Keeps kf (s.ringPut p m bs) := by
  unfold State.ringPut
  repeat' with_reducible first
    | (exact hs) | (assumption) | (apply State.devWrite_keeps) | (apply State.raise_keeps)
    | (apply State.setFld_keeps) | (apply Keeps.foldl) | (apply Keeps.foldl_fst) | (intro) | (dsimp only) | (split)

theorem State.lostRecord_keeps {z : State} {kf : Bool} (s : State) (p : Nat) (hs : z.Keeps kf s) :
    z.Keeps kf (s.lostRecord p) := by
  unfold State.lostRecord
  repeat' with_reducible first
    | (exact hs) | (assumption) | (apply State.ringPut_keeps) | (apply State.setPort_keeps)
    | (exact ⟨hs.pending, hs.mem, hs.regs, hs.keys⟩) | (intro) | (dsimp only) | (split) | (refine Keeps.upd ?_)

theorem State.postBefore_keeps {z : State} {kf : Bool} (s : State) (m : Nat) (p : Nat) (code : Nat) (status : Nat) (handle : Nat) (a1 : Nat) (a2 : Nat) (st : Nat) (hs : z.Keeps kf s) :
    z.Keeps kf (s.postBefore m p code status handle a1 a2 st) := by
  unfold State.postBefore
  repeat' with_reducible first
    | (exact hs) | (assumption) | (apply State.lostRecord_keeps) | (apply State.raise_keeps)
    | (apply State.ringPut_keeps) | (apply State.setPort_keeps) | (apply State.status_keeps)
    | (exact ⟨hs.pending, hs.mem, hs.regs, hs.keys⟩) | (intro) | (dsimp only) | (split) | (refine Keeps.upd ?_)

theorem State.post_keeps {z : State} {kf : Bool} (s : State) (p : Nat) (code : Nat) (status : Nat) (handle : Nat) (a1 : Nat) (a2 : Nat) (st : Nat) (hs : z.Keeps kf s) :
    z.Keeps kf (s.post p code status handle a1 a2 st) := by
  unfold State.post
  repeat' with_reducible first
    | (exact hs) | (assumption) | (apply State.postBefore_keeps) | (apply State.status_keeps) | (intro) | (dsimp only)
    | (split)

theorem State.ringReset_keeps {z : State} {kf : Bool} (s : State) (p : Nat) (hs : z.Keeps kf s) :
    z.Keeps kf (s.ringReset p) := by
  unfold State.ringReset
  repeat' with_reducible first
    | (exact hs) | (assumption) | (apply State.setFld_keeps) | (apply State.setPort_keeps)
    | (exact ⟨hs.pending, hs.mem, hs.regs, hs.keys⟩) | (intro) | (dsimp only) | (split) | (refine Keeps.upd ?_)

theorem State.faultPost_keeps {z : State} {kf : Bool} (s : State) (p : Nat) (m : Nat) (k : Nat) (f : FaultRec) (hs : z.Keeps kf s) :
    z.Keeps kf (s.faultPost p m k f) := by
  unfold State.faultPost
  repeat' with_reducible first
    | (exact hs) | (assumption) | (apply State.postBefore_keeps) | (apply State.putBytes_keeps)
    | (apply State.status_keeps) | (apply Keeps.foldl) | (apply Keeps.foldl_fst) | (intro) | (dsimp only) | (split)

theorem State.faultEvents_keeps {z : State} {kf : Bool} (s : State) (f : FaultRec) (m : Nat) (k : Nat) (hs : z.Keeps kf s) :
    z.Keeps kf (s.faultEvents f m k) := by
  unfold State.faultEvents
  repeat' with_reducible first
    | (exact hs) | (assumption) | (apply State.faultPost_keeps) | (apply Keeps.foldl) | (apply Keeps.foldl_fst)
    | (intro) | (dsimp only) | (split)

theorem State.faultPut_keeps {z : State} {kf : Bool} (s : State) (m : Nat) (f : FaultRec) (hs : z.Keeps kf s) :
    z.Keeps kf (s.faultPut m f) := by
  unfold State.faultPut
  repeat' with_reducible first
    | (exact hs) | (assumption) | (apply State.devWrite_keeps) | (apply State.status_keeps)
    | (exact ⟨hs.pending, hs.mem, hs.regs, hs.keys⟩) | (apply Keeps.foldl) | (apply Keeps.foldl_fst) | (intro)
    | (dsimp only) | (split) | (refine Keeps.upd ?_)

theorem State.fault_keeps {z : State} {kf : Bool} (s : State) (f : FaultRec) (hs : z.Keeps kf s) :
    z.Keeps kf (s.fault f) := by
  unfold State.fault
  repeat' with_reducible first
    | (exact hs) | (assumption) | (apply State.faultEvents_keeps) | (apply State.faultPut_keeps)
    | (apply State.incMod_keeps) | (apply State.putByte_keeps) | (apply State.raise_keeps)
    | (apply State.setFld_keeps) | (intro) | (dsimp only) | (split)

theorem State.parityErr_keeps {z : State} {kf : Bool} (s : State) (src : Nat) (info : Nat) (hs : z.Keeps kf s) :
    z.Keeps kf (s.parityErr src info) := by
  unfold State.parityErr
  repeat' with_reducible first
    | (exact hs) | (assumption) | (apply State.fault_keeps) | (apply State.incMod_keeps) | (apply State.raise_keeps)
    | (intro) | (dsimp only) | (split)

theorem State.readParity_keeps {z : State} {kf : Bool} (s : State) (a : Nat) (hs : z.Keeps kf s) :
    z.Keeps kf (s.readParity a) := by
  unfold State.readParity
  repeat' with_reducible first
    | (exact hs) | (assumption) | (apply State.draw_keeps) | (apply State.parityErr_keeps) | (intro) | (dsimp only)
    | (split)

theorem State.errAddr_keeps {z : State} {kf : Bool} (s : State) (b : Bank) (w : Nat) (kind : Nat) (src : Nat) (hs : z.Keeps kf s) :
    z.Keeps kf (s.errAddr b w kind src) := by
  unfold State.errAddr
  repeat' with_reducible first
    | (exact hs) | (assumption) | (apply State.setFld_keeps) | (apply State.setReg_keeps) | (intro) | (dsimp only)
    | (split)

theorem State.correctable_keeps {z : State} {kf : Bool} (s : State) (b : Bank) (w : Nat) (src : Nat) (hs : z.Keeps kf s) :
    z.Keeps kf (s.correctable b w src) := by
  unfold State.correctable
  repeat' with_reducible first
    | (exact hs) | (assumption) | (apply State.errAddr_keeps) | (apply State.fault_keeps) | (apply State.incMod_keeps)
    | (apply State.raise_keeps) | (intro) | (dsimp only) | (split)

theorem State.uncorrectable_keeps {z : State} {kf : Bool} (s : State) (b : Bank) (w : Nat) (src : Nat) (hs : z.Keeps kf s) :
    z.Keeps kf (s.uncorrectable b w src) := by
  unfold State.uncorrectable
  repeat' with_reducible first
    | (exact hs) | (assumption) | (apply State.errAddr_keeps) | (apply State.fault_keeps) | (apply State.incMod_keeps)
    | (apply State.raise_keeps) | (intro) | (dsimp only) | (split)

theorem State.readWord_keeps {z : State} {kf : Bool} (s : State) (w : Nat) (src : Nat) (hs : z.Keeps kf s) :
    z.Keeps kf (s.readWord w src).1 := by
  unfold State.readWord
  repeat' with_reducible first
    | (exact hs) | (assumption) | (apply State.correctable_keeps) | (apply State.uncorrectable_keeps)
    | (exact ⟨hs.pending, hs.mem, hs.regs, hs.keys⟩) | (intro) | (dsimp only) | (split) | (refine Keeps.upd ?_)

theorem State.readSpan_keeps {z : State} {kf : Bool} (s : State) (a : Nat) (n : Nat) (hs : z.Keeps kf s) :
    z.Keeps kf (s.readSpan a n).1 := by
  unfold State.readSpan
  repeat' with_reducible first
    | (exact hs) | (assumption) | (apply State.readWord_keeps) | (apply Keeps.foldl) | (apply Keeps.foldl_fst)
    | (intro) | (dsimp only) | (split)

theorem State.split_keeps {z : State} {kf : Bool} (s : State) (a : Nat) (n : Nat) (hs : z.Keeps kf s) :
    z.Keeps kf (s.split a n) := by
  unfold State.split
  repeat' with_reducible first
    | (exact hs) | (assumption) | (apply State.incMod_keeps) | (intro) | (dsimp only) | (split)

theorem State.portWrite_keeps {z : State} {kf : Bool} (s : State) (b : Bank) (a : Nat) (bs : List Byte) (parity : ParityHit) (hs : z.Keeps kf s) :
    z.Keeps kf (s.portWrite b a bs parity) := by
  unfold State.portWrite
  repeat' with_reducible first
    | (exact hs) | (assumption) | (apply State.markFull_keeps) | (apply State.parityErr_keeps)
    | (apply State.putBytes_keeps) | (apply State.raise_keeps) | (apply State.readWord_keeps)
    | (apply State.setMark_keeps) | (intro) | (dsimp only) | (split)

theorem State.store_keeps {z : State} {kf : Bool} (s : State) (a : Nat) (bs : List Byte) (hs : z.Keeps kf s) :
    z.Keeps kf (s.store a bs) := by
  unfold State.store
  repeat' with_reducible first
    | (exact hs) | (assumption) | (apply State.portWrite_keeps) | (apply Keeps.foldl) | (apply Keeps.foldl_fst)
    | (intro) | (dsimp only) | (split)

theorem State.storeNum_keeps {z : State} {kf : Bool} (s : State) (a : Nat) (n : Nat) (v : Nat) (hs : z.Keeps kf s) :
    z.Keeps kf (s.storeNum a n v) := by
  unfold State.storeNum
  repeat' with_reducible first
    | (exact hs) | (assumption) | (apply State.store_keeps) | (intro) | (dsimp only) | (split)

theorem State.inWrite_keeps {z : State} {kf : Bool} (s : State) (n : Nat) (hs : z.Keeps kf s) :
    z.Keeps kf (s.inWrite n) := by
  unfold State.inWrite
  repeat' with_reducible first
    | (exact hs) | (assumption) | (apply State.store_keeps) | (intro) | (dsimp only) | (split)

theorem State.inSync_keeps {z : State} {kf : Bool} (s : State) (n : Nat) (hs : z.Keeps kf s) :
    z.Keeps kf (s.inSync n) := by
  unfold State.inSync
  repeat' with_reducible first
    | (exact hs) | (assumption) | (apply State.inWrite_keeps) | (intro) | (dsimp only) | (split)

theorem State.applyPin_keeps {z : State} {kf : Bool} (s : State) (n : Nat) (hs : z.Keeps kf s) :
    z.Keeps kf (s.applyPin n) := by
  unfold State.applyPin
  repeat' with_reducible first
    | (exact hs) | (assumption) | (apply State.inSync_keeps) | (exact ⟨hs.pending, hs.mem, hs.regs, hs.keys⟩)
    | (intro) | (dsimp only) | (split) | (refine Keeps.upd ?_)

theorem State.applyPins_keeps {z : State} {kf : Bool} (s : State) (a : Nat) (n : Nat) (hs : z.Keeps kf s) :
    z.Keeps kf (s.applyPins a n) := by
  unfold State.applyPins
  repeat' with_reducible first
    | (exact hs) | (assumption) | (apply State.applyPin_keeps) | (apply Keeps.foldl) | (apply Keeps.foldl_fst)
    | (intro) | (dsimp only) | (split)

theorem State.pinNote_keeps {z : State} {kf : Bool} (s : State) (a : Nat) (n : Nat) (hs : z.Keeps kf s) :
    z.Keeps kf (s.pinNote a n) := by
  unfold State.pinNote
  repeat' with_reducible first
    | (exact hs) | (assumption) | (exact ⟨hs.pending, hs.mem, hs.regs, hs.keys⟩) | (apply Keeps.foldl)
    | (apply Keeps.foldl_fst) | (intro) | (dsimp only) | (split) | (refine Keeps.upd ?_)

theorem State.msgJudge_keeps {z : State} {kf : Bool} (s : State) (hs : z.Keeps kf s) :
    z.Keeps kf (s.msgJudge) := by
  unfold State.msgJudge
  repeat' with_reducible first
    | (exact hs) | (assumption) | (apply State.storeNum_keeps) | (exact ⟨hs.pending, hs.mem, hs.regs, hs.keys⟩)
    | (apply Keeps.foldl) | (apply Keeps.foldl_fst) | (intro) | (dsimp only) | (split) | (refine Keeps.upd ?_)

theorem State.masterWrite_keeps {z : State} {kf : Bool} (s : State) (a : Nat) (bs : List Byte) (parity : ParityHit) (hs : z.Keeps kf s) :
    z.Keeps kf (s.masterWrite a bs parity) := by
  unfold State.masterWrite
  repeat' with_reducible first
    | (exact hs) | (assumption) | (apply State.applyPins_keeps) | (apply State.msgJudge_keeps)
    | (apply State.pinNote_keeps) | (apply State.portWrite_keeps) | (apply State.raise_keeps) | (apply Keeps.foldl)
    | (apply Keeps.foldl_fst) | (intro) | (dsimp only) | (split)

theorem State.upset_keeps {z : State} {kf : Bool} (s : State) (e : Env) (hs : z.Keeps kf s) :
    z.Keeps kf (s.upset e) := by
  unfold State.upset
  repeat' with_reducible first
    | (exact hs) | (assumption) | (apply State.setMark_keeps) | (apply Keeps.foldl) | (apply Keeps.foldl_fst)
    | (intro) | (dsimp only) | (split)

theorem State.leaveIdle_keeps {z : State} {kf : Bool} (s : State) (hs : z.Keeps kf s) :
    z.Keeps kf (s.leaveIdle) := by
  unfold State.leaveIdle
  repeat' with_reducible first
    | (exact hs) | (assumption) | (exact ⟨hs.pending, hs.mem, hs.regs, hs.keys⟩) | (intro) | (dsimp only) | (split)
    | (refine Keeps.upd ?_)

theorem State.setCx_keeps {z : State} {kf : Bool} (s : State) (k : Nat) (c : Ctx) (hs : z.Keeps kf s) :
    z.Keeps kf (s.setCx k c) := by
  unfold State.setCx
  repeat' with_reducible first
    | (exact hs) | (assumption) | (exact ⟨hs.pending, hs.mem, hs.regs, hs.keys⟩) | (intro) | (dsimp only) | (split)
    | (refine Keeps.upd ?_)

theorem State.finish_keeps {z : State} {kf : Bool} (s : State) (k : Nat) (d : Nat) (w : Nat) (hs : z.Keeps kf s) :
    z.Keeps kf (s.finish k d w) := by
  unfold State.finish
  repeat' with_reducible first
    | (exact hs) | (assumption) | (apply State.leaveIdle_keeps) | (apply State.setCx_keeps)
    | (exact ⟨hs.pending, hs.mem, hs.regs, hs.keys⟩) | (intro) | (dsimp only) | (split) | (refine Keeps.upd ?_)

theorem State.wake_keeps {z : State} {kf : Bool} (s : State) (k : Nat) (hs : z.Keeps kf s) :
    z.Keeps kf (s.wake k) := by
  unfold State.wake
  repeat' with_reducible first
    | (exact hs) | (assumption) | (apply State.leaveIdle_keeps) | (apply State.setCx_keeps)
    | (exact ⟨hs.pending, hs.mem, hs.regs, hs.keys⟩) | (intro) | (dsimp only) | (split) | (refine Keeps.upd ?_)

theorem State.park_keeps {z : State} {kf : Bool} (s : State) (k : Nat) (w : Wait) (u : Susp) (hs : z.Keeps kf s) :
    z.Keeps kf (s.park k w u) := by
  unfold State.park
  repeat' with_reducible first
    | (exact hs) | (assumption) | (apply State.setCx_keeps) | (exact ⟨hs.pending, hs.mem, hs.regs, hs.keys⟩) | (intro)
    | (dsimp only) | (split) | (refine Keeps.upd ?_)

theorem State.deny_keeps {z : State} {kf : Bool} (s : State) (hs : z.Keeps kf s) :
    z.Keeps kf (s.deny) := by
  unfold State.deny
  repeat' with_reducible first
    | (exact hs) | (assumption) | (apply State.incMod_keeps) | (apply State.raise_keeps) | (intro) | (dsimp only)
    | (split)

theorem State.place_keeps {z : State} {kf : Bool} (s : State) (h : Holder) (amt : Nat) (prio : Nat) (t : Ticket) (hs : z.Keeps kf s) :
    z.Keeps kf (s.place h amt prio t).1 := by
  unfold State.place
  repeat' with_reducible first
    | (exact hs) | (assumption) | (apply State.deny_keeps) | (exact ⟨hs.pending, hs.mem, hs.regs, hs.keys⟩) | (intro)
    | (dsimp only) | (split) | (refine Keeps.upd ?_)

theorem State.withdraw_keeps {z : State} {kf : Bool} (s : State) (h : Holder) (hs : z.Keeps kf s) :
    z.Keeps kf (s.withdraw h) := by
  unfold State.withdraw
  repeat' with_reducible first
    | (exact hs) | (assumption) | (apply State.granted_keeps) | (exact ⟨hs.pending, hs.mem, hs.regs, hs.keys⟩)
    | (intro) | (dsimp only) | (split) | (refine Keeps.upd ?_)

theorem State.grantClaim_keeps {z : State} {kf : Bool} (s : State) (c : Claim) (hs : z.Keeps kf s) :
    z.Keeps kf (s.grantClaim c) := by
  unfold State.grantClaim
  repeat' with_reducible first
    | (exact hs) | (assumption) | (apply State.granted_keeps) | (apply State.setFld_keeps)
    | (exact ⟨hs.pending, hs.mem, hs.regs, hs.keys⟩) | (intro) | (dsimp only) | (split) | (refine Keeps.upd ?_)

theorem State.placeDev_keeps {z : State} {kf : Bool} (s : State) (h : Holder) (amt : Nat) (t : Ticket) (hs : z.Keeps kf s) :
    z.Keeps kf (s.placeDev h amt t).1 := by
  unfold State.placeDev
  repeat' with_reducible first
    | (exact hs) | (assumption) | (apply State.place_keeps) | (intro) | (dsimp only) | (split)

theorem State.setSlot_keeps {z : State} {kf : Bool} (s : State) (p : Nat) (i : Nat) (x : Slot) (hs : z.Keeps kf s) :
    z.Keeps kf (s.setSlot p i x) := by
  unfold State.setSlot
  repeat' with_reducible first
    | (exact hs) | (assumption) | (exact ⟨hs.pending, hs.mem, hs.regs, hs.keys⟩) | (intro) | (dsimp only) | (split)
    | (refine Keeps.upd ?_)

theorem State.complete_keeps {z : State} {kf : Bool} (s : State) (p : Nat) (i : Nat) (status : Nat) (data : List Byte) (hs : z.Keeps kf s) :
    z.Keeps kf (s.complete p i status data) := by
  unfold State.complete
  repeat' with_reducible first
    | (exact hs) | (assumption) | (apply State.post_keeps) | (apply State.raise_keeps) | (apply State.setSlot_keeps)
    | (apply State.status_keeps) | (exact ⟨hs.pending, hs.mem, hs.regs, hs.keys⟩) | (intro) | (dsimp only) | (split)
    | (refine Keeps.upd ?_)

theorem State.takeSlot_keeps {z : State} {kf : Bool} (s : State) (p : Nat) (i : Nat) (sketch : Nat) (prio : Nat) (nores : Bool) (noev : Bool) (order : Bool) (args : List Word) (t : Ticket) (hs : z.Keeps kf s) :
    z.Keeps kf (s.takeSlot p i sketch prio nores noev order args t) := by
  unfold State.takeSlot
  repeat' with_reducible first
    | (exact hs) | (assumption) | (apply State.setSlot_keeps) | (intro) | (dsimp only) | (split)

theorem State.submitInternal_keeps {z : State} {kf : Bool} (s : State) (sketch : Nat) (args : List Word) (t : Ticket) (hs : z.Keeps kf s) :
    z.Keeps kf (s.submitInternal sketch args t) := by
  unfold State.submitInternal
  repeat' with_reducible first
    | (exact hs) | (assumption) | (apply State.post_keeps) | (apply State.takeSlot_keeps) | (intro) | (dsimp only)
    | (split)

theorem State.setSem_keeps {z : State} {kf : Bool} (s : State) (n : Nat) (x : Sem) (hs : z.Keeps kf s) :
    z.Keeps kf (s.setSem n x) := by
  unfold State.setSem
  repeat' with_reducible first
    | (exact hs) | (assumption) | (exact ⟨hs.pending, hs.mem, hs.regs, hs.keys⟩) | (intro) | (dsimp only) | (split)
    | (refine Keeps.upd ?_)

theorem State.freeSem_keeps {z : State} {kf : Bool} (s : State) (n : Nat) (hs : z.Keeps kf s) :
    z.Keeps kf (s.freeSem n) := by
  unfold State.freeSem
  repeat' with_reducible first
    | (exact hs) | (assumption) | (apply State.setSem_keeps) | (apply State.wake_keeps) | (intro) | (dsimp only)
    | (split)

theorem State.setOp_keeps {z : State} {kf : Bool} (s : State) (id : Nat) (o : RadioOp) (hs : z.Keeps kf s) :
    z.Keeps kf (s.setOp id o) := by
  unfold State.setOp
  repeat' with_reducible first
    | (exact hs) | (assumption) | (exact ⟨hs.pending, hs.mem, hs.regs, hs.keys⟩) | (intro) | (dsimp only) | (split)
    | (refine Keeps.upd ?_)

theorem State.dropOp_keeps {z : State} {kf : Bool} (s : State) (id : Nat) (hs : z.Keeps kf s) :
    z.Keeps kf (s.dropOp id) := by
  unfold State.dropOp
  repeat' with_reducible first
    | (exact hs) | (assumption) | (exact ⟨hs.pending, hs.mem, hs.regs, hs.keys⟩) | (intro) | (dsimp only) | (split)
    | (refine Keeps.upd ?_)

theorem State.addOp_keeps {z : State} {kf : Bool} (s : State) (o : RadioOp) (hs : z.Keeps kf s) :
    z.Keeps kf (s.addOp o) := by
  unfold State.addOp
  repeat' with_reducible first
    | (exact hs) | (assumption) | (apply State.setOp_keeps) | (exact ⟨hs.pending, hs.mem, hs.regs, hs.keys⟩) | (intro)
    | (dsimp only) | (split) | (refine Keeps.upd ?_)

theorem State.setLauncher_keeps {z : State} {kf : Bool} (s : State) (n : Nat) (x : Lnch) (hs : z.Keeps kf s) :
    z.Keeps kf (s.setLauncher n x) := by
  unfold State.setLauncher
  repeat' with_reducible first
    | (exact hs) | (assumption) | (exact ⟨hs.pending, hs.mem, hs.regs, hs.keys⟩) | (intro) | (dsimp only) | (split)
    | (refine Keeps.upd ?_)

theorem State.setEng_keeps {z : State} {kf : Bool} (s : State) (id : Nat) (o : EngOp) (hs : z.Keeps kf s) :
    z.Keeps kf (s.setEng id o) := by
  unfold State.setEng
  repeat' with_reducible first
    | (exact hs) | (assumption) | (exact ⟨hs.pending, hs.mem, hs.regs, hs.keys⟩) | (intro) | (dsimp only) | (split)
    | (refine Keeps.upd ?_)

theorem State.addEng_keeps {z : State} {kf : Bool} (s : State) (o : EngOp) (hs : z.Keeps kf s) :
    z.Keeps kf (s.addEng o) := by
  unfold State.addEng
  repeat' with_reducible first
    | (exact hs) | (assumption) | (apply State.setEng_keeps) | (exact ⟨hs.pending, hs.mem, hs.regs, hs.keys⟩)
    | (intro) | (dsimp only) | (split) | (refine Keeps.upd ?_)

theorem State.dropEng_keeps {z : State} {kf : Bool} (s : State) (id : Nat) (hs : z.Keeps kf s) :
    z.Keeps kf (s.dropEng id) := by
  unfold State.dropEng
  repeat' with_reducible first
    | (exact hs) | (assumption) | (exact ⟨hs.pending, hs.mem, hs.regs, hs.keys⟩) | (intro) | (dsimp only) | (split)
    | (refine Keeps.upd ?_)

theorem State.trimNow_keeps {z : State} {kf : Bool} (s : State) (hs : z.Keeps kf s) :
    z.Keeps kf (s.trimNow) := by
  unfold State.trimNow
  repeat' with_reducible first
    | (exact hs) | (assumption) | (apply State.setFld_keeps) | (intro) | (dsimp only) | (split)

theorem State.selfLearn_keeps {z : State} {kf : Bool} (s : State) (count : Nat) (hs : z.Keeps kf s) :
    z.Keeps kf (s.selfLearn count) := by
  unfold State.selfLearn
  repeat' with_reducible first
    | (exact hs) | (assumption) | (apply State.setFld_keeps) | (apply State.trimNow_keeps) | (intro) | (dsimp only)
    | (split)

theorem State.ptSet_keeps {z : State} {kf : Bool} (s : State) (i : Nat) (o : Nat) (n : Nat) (v : Nat) (hs : z.Keeps kf s) :
    z.Keeps kf (s.ptSet i o n v) := by
  unfold State.ptSet
  repeat' with_reducible first
    | (exact hs) | (assumption) | (apply State.storeNum_keeps) | (intro) | (dsimp only) | (split)

theorem State.tlearn_keeps {z : State} {kf : Bool} (s : State) (i : Nat) (tObs : Nat) (d : Nat) (temp : Nat) (hs : z.Keeps kf s) :
    z.Keeps kf (s.tlearn i tObs d temp).1 := by
  unfold State.tlearn
  repeat' with_reducible first
    | (exact hs) | (assumption) | (apply State.draw_keeps) | (apply State.ptSet_keeps) | (apply State.reset_keeps)
    | (intro) | (dsimp only) | (split)

theorem State.beaconSent_keeps {z : State} {kf : Bool} (s : State) (o : RadioOp) (hs : z.Keeps kf s) :
    z.Keeps kf (s.beaconSent o) := by
  unfold State.beaconSent
  repeat' with_reducible first
    | (exact hs) | (assumption) | (apply State.setFld_keeps) | (exact ⟨hs.pending, hs.mem, hs.regs, hs.keys⟩)
    | (intro) | (dsimp only) | (split) | (refine Keeps.upd ?_)

theorem State.upSet_keeps {z : State} {kf : Bool} (s : State) (o : Nat) (n : Nat) (v : Nat) (hs : z.Keeps kf s) :
    z.Keeps kf (s.upSet o n v) := by
  unfold State.upSet
  repeat' with_reducible first
    | (exact hs) | (assumption) | (apply State.storeNum_keeps) | (intro) | (dsimp only) | (split)

theorem State.takeSignals_keeps {z : State} {kf : Bool} (s : State) (k : Nat) (mask : Nat) (d : Nat) (b : Nat) (hs : z.Keeps kf s) :
    z.Keeps kf (s.takeSignals k mask d b) := by
  unfold State.takeSignals
  repeat' with_reducible first
    | (exact hs) | (assumption) | (apply State.setCx_keeps) | (exact ⟨hs.pending, hs.mem, hs.regs, hs.keys⟩) | (intro)
    | (dsimp only) | (split) | (refine Keeps.upd ?_)

theorem State.deliver_keeps {z : State} {kf : Bool} (s : State) (k : Nat) (hs : z.Keeps kf s) :
    z.Keeps kf (s.deliver k) := by
  unfold State.deliver
  repeat' with_reducible first
    | (exact hs) | (assumption) | (apply State.takeSignals_keeps) | (apply State.waite_keeps)
    | (apply State.wake_keeps) | (intro) | (dsimp only) | (split)

theorem State.deliverMsg_keeps {z : State} {kf : Bool} (n : Nat) (s : State) (hs : z.Keeps kf s) : z.Keeps kf (State.deliverMsg n s) := by
  induction n generalizing s with
  | zero => exact hs
  | succ n ih =>
    unfold State.deliverMsg
    dsimp only
    split
    · exact ih _ (State.deliver_keeps _ _ hs)
    · exact hs

theorem State.signalMsg_keeps {z : State} {kf : Bool} (s : State) (r : Nat) (hs : z.Keeps kf s) :
    z.Keeps kf (s.signalMsg r) := by
  unfold State.signalMsg
  repeat' with_reducible first
    | (exact hs) | (assumption) | (apply State.deliverMsg_keeps) | (exact ⟨hs.pending, hs.mem, hs.regs, hs.keys⟩)
    | (intro) | (dsimp only) | (split) | (refine Keeps.upd ?_)

theorem State.signalRing_keeps {z : State} {kf : Bool} (s : State) (hs : z.Keeps kf s) :
    z.Keeps kf (s.signalRing) := by
  unfold State.signalRing
  repeat' with_reducible first
    | (exact hs) | (assumption) | (apply State.deliver_keeps) | (apply State.setCx_keeps)
    | (exact ⟨hs.pending, hs.mem, hs.regs, hs.keys⟩) | (apply Keeps.foldl) | (apply Keeps.foldl_fst) | (intro)
    | (dsimp only) | (split) | (refine Keeps.upd ?_)

theorem State.signalUser_keeps {z : State} {kf : Bool} (s : State) (k : Nat) (bits : Nat) (hs : z.Keeps kf s) :
    z.Keeps kf (s.signalUser k bits) := by
  unfold State.signalUser
  repeat' with_reducible first
    | (exact hs) | (assumption) | (apply State.deliver_keeps) | (apply State.setCx_keeps)
    | (exact ⟨hs.pending, hs.mem, hs.regs, hs.keys⟩) | (intro) | (dsimp only) | (split) | (refine Keeps.upd ?_)

theorem State.signalEng_keeps {z : State} {kf : Bool} (s : State) (k : Nat) (tag : Nat) (w : Nat) (hs : z.Keeps kf s) :
    z.Keeps kf (s.signalEng k tag w) := by
  unfold State.signalEng
  repeat' with_reducible first
    | (exact hs) | (assumption) | (apply State.deliver_keeps) | (apply State.setCx_keeps)
    | (exact ⟨hs.pending, hs.mem, hs.regs, hs.keys⟩) | (intro) | (dsimp only) | (split) | (refine Keeps.upd ?_)

theorem State.signalTxn_keeps {z : State} {kf : Bool} (s : State) (k : Nat) (status : Nat) (retry : Nat) (record : Nat) (hs : z.Keeps kf s) :
    z.Keeps kf (s.signalTxn k status retry record) := by
  unfold State.signalTxn
  repeat' with_reducible first
    | (exact hs) | (assumption) | (apply State.deliver_keeps) | (apply State.setCx_keeps) | (apply State.status_keeps)
    | (exact ⟨hs.pending, hs.mem, hs.regs, hs.keys⟩) | (intro) | (dsimp only) | (split) | (refine Keeps.upd ?_)

theorem State.lnHit_keeps {z : State} {kf : Bool} (s : State) (n : Nat) (late : Bool) (hs : z.Keeps kf s) :
    z.Keeps kf (s.lnHit n late) := by
  unfold State.lnHit
  repeat' with_reducible first
    | (exact hs) | (assumption) | (apply State.incSat_keeps) | (apply State.setFld_keeps) | (intro) | (dsimp only)
    | (split)

theorem State.lnOff_keeps {z : State} {kf : Bool} (s : State) (n : Nat) (hs : z.Keeps kf s) :
    z.Keeps kf (s.lnOff n) := by
  unfold State.lnOff
  repeat' with_reducible first
    | (exact hs) | (assumption) | (apply State.radio_keeps) | (apply State.setFld_keeps)
    | (apply State.setLauncher_keeps) | (intro) | (dsimp only) | (split)

theorem State.lnArm_keeps {z : State} {kf : Bool} (s : State) (n : Nat) (x : Lnch) (hs : z.Keeps kf s) :
    z.Keeps kf (s.lnArm n x) := by
  unfold State.lnArm
  repeat' with_reducible first
    | (exact hs) | (assumption) | (apply State.setFld_keeps) | (apply State.setLauncher_keeps) | (intro)
    | (dsimp only) | (split)

theorem State.lnArmInstr_keeps {z : State} {kf : Bool} (s : State) (n : Nat) (stamp : Nat) (action : Nat) (arg : Nat) (rep : Nat) (pol : Nat) (k : Fin 64) (op : Option Nat) (hs : z.Keeps kf s) :
    z.Keeps kf (s.lnArmInstr n stamp action arg rep pol k op) := by
  unfold State.lnArmInstr
  repeat' with_reducible first
    | (exact hs) | (assumption) | (apply State.lnArm_keeps) | (apply State.setFld_keeps) | (apply State.setReg_keeps)
    | (intro) | (dsimp only) | (split)

theorem State.txpEnd_keeps {z : State} {kf : Bool} (s : State) (status : Nat) (hs : z.Keeps kf s) :
    z.Keeps kf (s.txpEnd status) := by
  unfold State.txpEnd
  repeat' with_reducible first
    | (exact hs) | (assumption) | (apply State.raise_keeps) | (apply State.setFld_keeps) | (apply State.status_keeps)
    | (intro) | (dsimp only) | (split)

theorem State.opReport_keeps {z : State} {kf : Bool} (s : State) (id : Nat) (o : RadioOp) (status : Nat) (extra : Nat) (hs : z.Keeps kf s) :
    z.Keeps kf (s.opReport id o status extra) := by
  unfold State.opReport
  repeat' with_reducible first
    | (exact hs) | (assumption) | (apply State.finish_keeps) | (apply State.radio_keeps) | (apply State.setCx_keeps)
    | (apply State.status_keeps) | (intro) | (dsimp only) | (split)

theorem State.claimLapse_keeps {z : State} {kf : Bool} (s : State) (id : Nat) (o : RadioOp) (hs : z.Keeps kf s) :
    z.Keeps kf (s.claimLapse id o) := by
  unfold State.claimLapse
  repeat' with_reducible first
    | (exact hs) | (assumption) | (apply State.withdraw_keeps) | (apply Keeps.foldl) | (apply Keeps.foldl_fst)
    | (intro) | (dsimp only) | (split)

theorem State.opClose_keeps {z : State} {kf : Bool} (s : State) (id : Nat) (o : RadioOp) (status : Nat) (extra : Nat) (hs : z.Keeps kf s) :
    z.Keeps kf (s.opClose id o status extra) := by
  unfold State.opClose
  repeat' with_reducible first
    | (exact hs) | (assumption) | (apply State.claimLapse_keeps) | (apply State.dropOp_keeps)
    | (apply State.lnOff_keeps) | (apply State.opReport_keeps) | (apply State.status_keeps)
    | (apply State.txpEnd_keeps) | (intro) | (dsimp only) | (split)

theorem State.opEnd_keeps {z : State} {kf : Bool} (s : State) (id : Nat) (status : Nat) (extra : Nat) (hs : z.Keeps kf s) :
    z.Keeps kf (s.opEnd id status extra) := by
  unfold State.opEnd
  repeat' with_reducible first
    | (exact hs) | (assumption) | (apply State.opClose_keeps) | (apply State.status_keeps)
    | (apply State.withdraw_keeps) | (intro) | (dsimp only) | (split)

theorem State.setNocov_keeps {z : State} {kf : Bool} (s : State) (b : Bool) (hs : z.Keeps kf s) :
    z.Keeps kf (s.setNocov b) := by
  unfold State.setNocov
  repeat' with_reducible first
    | (exact hs) | (assumption) | (apply State.setFld_keeps) | (intro) | (dsimp only) | (split)

theorem State.setEnt_keeps {z : State} {kf : Bool} (s : State) (e : Nat) (x : Entry) (hs : z.Keeps kf s) :
    z.Keeps kf (s.setEnt e x) := by
  unfold State.setEnt
  repeat' with_reducible first
    | (exact hs) | (assumption) | (exact ⟨hs.pending, hs.mem, hs.regs, hs.keys⟩) | (intro) | (dsimp only) | (split)
    | (refine Keeps.upd ?_)

theorem State.dropEnt_keeps {z : State} {kf : Bool} (s : State) (e : Nat) (hs : z.Keeps kf s) :
    z.Keeps kf (s.dropEnt e) := by
  unfold State.dropEnt
  repeat' with_reducible first
    | (exact hs) | (assumption) | (exact ⟨hs.pending, hs.mem, hs.regs, hs.keys⟩) | (intro) | (dsimp only) | (split)
    | (refine Keeps.upd ?_)

theorem State.setLane_keeps {z : State} {kf : Bool} (s : State) (l : Nat) (x : Lane) (hs : z.Keeps kf s) :
    z.Keeps kf (s.setLane l x) := by
  unfold State.setLane
  repeat' with_reducible first
    | (exact hs) | (assumption) | (exact ⟨hs.pending, hs.mem, hs.regs, hs.keys⟩) | (intro) | (dsimp only) | (split)
    | (refine Keeps.upd ?_)

theorem State.dropLane_keeps {z : State} {kf : Bool} (s : State) (l : Nat) (hs : z.Keeps kf s) :
    z.Keeps kf (s.dropLane l) := by
  unfold State.dropLane
  repeat' with_reducible first
    | (exact hs) | (assumption) | (exact ⟨hs.pending, hs.mem, hs.regs, hs.keys⟩) | (intro) | (dsimp only) | (split)
    | (refine Keeps.upd ?_)

theorem State.setRslot_keeps {z : State} {kf : Bool} (s : State) (n : Nat) (x : Recov) (hs : z.Keeps kf s) :
    z.Keeps kf (s.setRslot n x) := by
  unfold State.setRslot
  repeat' with_reducible first
    | (exact hs) | (assumption) | (exact ⟨hs.pending, hs.mem, hs.regs, hs.keys⟩) | (intro) | (dsimp only) | (split)
    | (refine Keeps.upd ?_)

theorem State.dropRslot_keeps {z : State} {kf : Bool} (s : State) (n : Nat) (hs : z.Keeps kf s) :
    z.Keeps kf (s.dropRslot n) := by
  unfold State.dropRslot
  repeat' with_reducible first
    | (exact hs) | (assumption) | (exact ⟨hs.pending, hs.mem, hs.regs, hs.keys⟩) | (intro) | (dsimp only) | (split)
    | (refine Keeps.upd ?_)

theorem State.ackAwait_keeps {z : State} {kf : Bool} (s : State) (hs : z.Keeps kf s) :
    z.Keeps kf (s.ackAwait) := by
  unfold State.ackAwait
  repeat' with_reducible first
    | (exact hs) | (assumption) | (apply State.opEnd_keeps) | (apply State.setNocov_keeps) | (apply Keeps.foldl)
    | (apply Keeps.foldl_fst) | (intro) | (dsimp only) | (split)

theorem State.writeRecord_keeps {z : State} {kf : Bool} (s : State) (r : Rec) (hs : z.Keeps kf s) :
    z.Keeps kf (s.writeRecord r).1 := by
  unfold State.writeRecord
  repeat' with_reducible first
    | (exact hs) | (assumption) | (apply State.devWrite_keeps) | (apply State.raise_keeps)
    | (apply State.setFld_keeps) | (apply State.signalRing_keeps) | (exact ⟨hs.pending, hs.mem, hs.regs, hs.keys⟩)
    | (intro) | (dsimp only) | (split) | (refine Keeps.upd ?_)

theorem State.emit_keeps {z : State} {kf : Bool} (s : State) (r : Rec) (hs : z.Keeps kf s) :
    z.Keeps kf (s.emit r) := by
  unfold State.emit
  repeat' with_reducible first
    | (exact hs) | (assumption) | (apply State.writeRecord_keeps) | (intro) | (dsimp only) | (split)

theorem State.countFrame_keeps {z : State} {kf : Bool} (s : State) (status : Nat) (hs : z.Keeps kf s) :
    z.Keeps kf (s.countFrame status) := by
  unfold State.countFrame
  repeat' with_reducible first
    | (exact hs) | (assumption) | (apply State.incMod_keeps) | (apply State.status_keeps) | (intro) | (dsimp only)
    | (split)

theorem State.countStarved_keeps {z : State} {kf : Bool} (s : State) (hs : z.Keeps kf s) :
    z.Keeps kf (s.countStarved) := by
  unfold State.countStarved
  repeat' with_reducible first
    | (exact hs) | (assumption) | (apply State.incMod_keeps) | (apply State.raise_keeps) | (intro) | (dsimp only)
    | (split)

theorem State.releaseFrom_keeps {z : State} {kf : Bool} (n : Nat) (s : State) (e : Nat) (hs : z.Keeps kf s) :
    z.Keeps kf (State.releaseFrom n s e) := by
  induction n generalizing s e with
  | zero => exact hs
  | succ n ih =>
    unfold State.releaseFrom
    refine Keeps.foldl (fun t h ht => ih _ _ ?_) ⟨hs.pending, hs.mem, hs.regs, hs.keys⟩
    split
    · exact State.writeRecord_keeps _ _ ht
    · exact ht

theorem State.releaseHeld_keeps {z : State} {kf : Bool} (s : State) (e : Nat) (hs : z.Keeps kf s) :
    z.Keeps kf (s.releaseHeld e) := by
  unfold State.releaseHeld
  repeat' with_reducible first
    | (exact hs) | (assumption) | (apply State.releaseFrom_keeps) | (intro) | (dsimp only) | (split)

theorem State.emitSeq_keeps {z : State} {kf : Bool} (s : State) (r : Rec) (hs : z.Keeps kf s) :
    z.Keeps kf (s.emitSeq r).1 := by
  unfold State.emitSeq
  repeat' with_reducible first
    | (exact hs) | (assumption) | (apply State.writeRecord_keeps) | (intro) | (dsimp only) | (split)

theorem State.outcome_keeps {z : State} {kf : Bool} (s : State) (e : Nat) (x : Entry) (r : Rec) (hs : z.Keeps kf s) :
    z.Keeps kf (s.outcome e x r).1 := by
  unfold State.outcome
  repeat' with_reducible first
    | (exact hs) | (assumption) | (apply State.emitSeq_keeps) | (apply State.status_keeps)
    | (exact ⟨hs.pending, hs.mem, hs.regs, hs.keys⟩) | (intro) | (dsimp only) | (split) | (refine Keeps.upd ?_)

theorem State.recovDone_keeps {z : State} {kf : Bool} (s : State) (slot : Nat) (status : Nat) (hs : z.Keeps kf s) :
    z.Keeps kf (s.recovDone slot status) := by
  unfold State.recovDone
  repeat' with_reducible first
    | (exact hs) | (assumption) | (apply State.dropRslot_keeps) | (apply State.incSat_keeps)
    | (apply State.status_keeps) | (intro) | (dsimp only) | (split)

theorem State.fallback_keeps {z : State} {kf : Bool} (s : State) (q : Recov) (hs : z.Keeps kf s) :
    z.Keeps kf (s.fallback q) := by
  unfold State.fallback
  repeat' with_reducible first
    | (exact hs) | (assumption) | (apply State.writeRecord_keeps) | (intro) | (dsimp only) | (split)

theorem State.groupRelease_keeps {z : State} {kf : Bool} (s : State) (g : Nat) (hs : z.Keeps kf s) :
    z.Keeps kf (s.groupRelease g) := by
  unfold State.groupRelease
  repeat' with_reducible first
    | (exact hs) | (assumption) | (apply State.withdraw_keeps) | (intro) | (dsimp only) | (split)

theorem State.laneFree_keeps {z : State} {kf : Bool} (s : State) (l : Nat) (e : Nat) (status : Nat) (hs : z.Keeps kf s) :
    z.Keeps kf (s.laneFree l e status) := by
  unfold State.laneFree
  repeat' with_reducible first
    | (exact hs) | (assumption) | (apply State.dropEnt_keeps) | (apply State.dropLane_keeps)
    | (apply State.groupRelease_keeps) | (apply State.leaveIdle_keeps) | (apply State.recovDone_keeps)
    | (apply State.status_keeps) | (intro) | (dsimp only) | (split)

theorem State.laneCut_keeps {z : State} {kf : Bool} (s : State) (l : Nat) (status : Nat) (hs : z.Keeps kf s) :
    z.Keeps kf (s.laneCut l status) := by
  unfold State.laneCut
  repeat' with_reducible first
    | (exact hs) | (assumption) | (apply State.ackAwait_keeps) | (apply State.countStarved_keeps)
    | (apply State.draw_keeps) | (apply State.dropLane_keeps) | (apply State.laneFree_keeps)
    | (apply State.outcome_keeps) | (apply State.releaseHeld_keeps) | (apply State.status_keeps) | (intro)
    | (dsimp only) | (split)

theorem State.starve_keeps {z : State} {kf : Bool} (s : State) (x : Entry) (hs : z.Keeps kf s) :
    z.Keeps kf (s.starve x) := by
  unfold State.starve
  repeat' with_reducible first
    | (exact hs) | (assumption) | (apply State.countStarved_keeps) | (apply State.draw_keeps)
    | (apply State.emit_keeps) | (apply State.status_keeps) | (exact ⟨hs.pending, hs.mem, hs.regs, hs.keys⟩) | (intro)
    | (dsimp only) | (split) | (refine Keeps.upd ?_)

theorem State.remember_keeps {z : State} {kf : Bool} (s : State) (e : Nat) (hs : z.Keeps kf s) :
    z.Keeps kf (s.remember e) := by
  unfold State.remember
  repeat' with_reducible first
    | (exact hs) | (assumption) | (exact ⟨hs.pending, hs.mem, hs.regs, hs.keys⟩) | (intro) | (dsimp only) | (split)
    | (refine Keeps.upd ?_)

theorem State.removeEnt_keeps {z : State} {kf : Bool} (s : State) (e : Nat) (hs : z.Keeps kf s) :
    z.Keeps kf (s.removeEnt e) := by
  unfold State.removeEnt
  repeat' with_reducible first
    | (exact hs) | (assumption) | (apply State.dropEnt_keeps) | (apply State.releaseHeld_keeps)
    | (apply State.remember_keeps) | (intro) | (dsimp only) | (split)

theorem State.gapCase_keeps {z : State} {kf : Bool} (s : State) (cs : List Chain) (hs : z.Keeps kf s) :
    z.Keeps kf (s.gapCase cs) := by
  unfold State.gapCase
  repeat' with_reducible first
    | (exact hs) | (assumption) | (apply State.raise_keeps) | (intro) | (dsimp only) | (split)

theorem State.ergSample_keeps {z : State} {kf : Bool} (s : State) (c : Chain) (i : Nat) (p : Nat) (bs : List Byte) (hs : z.Keeps kf s) :
    z.Keeps kf (s.ergSample c i p bs) := by
  unfold State.ergSample
  repeat' with_reducible first
    | (exact hs) | (assumption) | (apply State.devWrite_keeps) | (apply State.setPal_keeps)
    | (exact ⟨hs.pending, hs.mem, hs.regs, hs.keys⟩) | (intro) | (dsimp only) | (split) | (refine Keeps.upd ?_)

theorem State.ergFlush_keeps {z : State} {kf : Bool} (s : State) (c : Chain) (hs : z.Keeps kf s) :
    z.Keeps kf (s.ergFlush c) := by
  unfold State.ergFlush
  repeat' with_reducible first
    | (exact hs) | (assumption) | (apply State.devWrite_keeps) | (apply State.setPal_keeps)
    | (exact ⟨hs.pending, hs.mem, hs.regs, hs.keys⟩) | (apply Keeps.foldl) | (apply Keeps.foldl_fst) | (intro)
    | (dsimp only) | (split) | (refine Keeps.upd ?_)

theorem State.ergWrite_keeps {z : State} {kf : Bool} (s : State) (c : Chain) (gap : Bool) (o : ChainObs) (hs : z.Keeps kf s) :
    z.Keeps kf (s.ergWrite c gap o) := by
  unfold State.ergWrite
  repeat' with_reducible first
    | (exact hs) | (assumption) | (apply State.ergSample_keeps) | (apply Keeps.foldl) | (apply Keeps.foldl_fst)
    | (intro) | (dsimp only) | (split)

theorem State.selfMark_keeps {z : State} {kf : Bool} (s : State) (hs : z.Keeps kf s) :
    z.Keeps kf (s.selfMark) := by
  unfold State.selfMark
  repeat' with_reducible first
    | (exact hs) | (assumption) | (apply State.setPal_keeps) | (exact ⟨hs.pending, hs.mem, hs.regs, hs.keys⟩)
    | (apply Keeps.foldl) | (apply Keeps.foldl_fst) | (intro) | (dsimp only) | (split) | (refine Keeps.upd ?_)

theorem State.appendLive_keeps {z : State} {kf : Bool} (s : State) (c : Chain) (gap : Bool) (o : ChainObs) (hs : z.Keeps kf s) :
    z.Keeps kf (s.appendLive c gap o) := by
  unfold State.appendLive
  repeat' with_reducible first
    | (exact hs) | (assumption) | (apply State.setRslot_keeps) | (apply State.store_keeps)
    | (exact ⟨hs.pending, hs.mem, hs.regs, hs.keys⟩) | (apply Keeps.foldl) | (apply Keeps.foldl_fst) | (intro)
    | (dsimp only) | (split) | (refine Keeps.upd ?_)

theorem State.clipSample_keeps {z : State} {kf : Bool} (s : State) (c : Chain) (l : List Bool) (hs : z.Keeps kf s) :
    z.Keeps kf (s.clipSample c l) := by
  unfold State.clipSample
  repeat' with_reducible first
    | (exact hs) | (assumption) | (apply State.raise_keeps) | (apply State.setPal_keeps)
    | (exact ⟨hs.pending, hs.mem, hs.regs, hs.keys⟩) | (apply Keeps.foldl) | (apply Keeps.foldl_fst) | (intro)
    | (dsimp only) | (split) | (refine Keeps.upd ?_)

theorem State.chainSample_keeps {z : State} {kf : Bool} (s : State) (c : Chain) (o : ChainObs) (hs : z.Keeps kf s) :
    z.Keeps kf (s.chainSample c o) := by
  unfold State.chainSample
  repeat' with_reducible first
    | (exact hs) | (assumption) | (apply State.appendLive_keeps) | (apply State.clipSample_keeps)
    | (apply State.ergWrite_keeps) | (apply State.setPal_keeps) | (exact ⟨hs.pending, hs.mem, hs.regs, hs.keys⟩)
    | (intro) | (dsimp only) | (split) | (refine Keeps.upd ?_)

theorem State.skipPositions_keeps {z : State} {kf : Bool} (s : State) (n : Nat) (hs : z.Keeps kf s) :
    z.Keeps kf (s.skipPositions n) := by
  unfold State.skipPositions
  repeat' with_reducible first
    | (exact hs) | (assumption) | (apply State.ergWrite_keeps) | (apply State.setPal_keeps)
    | (exact ⟨hs.pending, hs.mem, hs.regs, hs.keys⟩) | (apply Keeps.foldl) | (apply Keeps.foldl_fst) | (intro)
    | (dsimp only) | (split) | (refine Keeps.upd ?_)

theorem State.postEntry_keeps {z : State} {kf : Bool} (s : State) (x : Entry) (hs : z.Keeps kf s) :
    z.Keeps kf (s.postEntry x) := by
  unfold State.postEntry
  repeat' with_reducible first
    | (exact hs) | (assumption) | (apply State.raise_keeps) | (apply State.removeEnt_keeps)
    | (apply State.setEnt_keeps) | (apply State.starve_keeps) | (intro) | (dsimp only) | (split)

theorem State.candidate_keeps {z : State} {kf : Bool} (s : State) (d : Cand) (hs : z.Keeps kf s) :
    z.Keeps kf (s.candidate d) := by
  unfold State.candidate
  repeat' with_reducible first
    | (exact hs) | (assumption) | (apply State.postEntry_keeps) | (apply State.setEnt_keeps)
    | (exact ⟨hs.pending, hs.mem, hs.regs, hs.keys⟩) | (intro) | (dsimp only) | (split) | (refine Keeps.upd ?_)

theorem State.syncMatch_keeps {z : State} {kf : Bool} (s : State) (m : Nat × Nat × Nat) (hs : z.Keeps kf s) :
    z.Keeps kf (s.syncMatch m) := by
  unfold State.syncMatch
  repeat' with_reducible first
    | (exact hs) | (assumption) | (apply State.setEnt_keeps) | (exact ⟨hs.pending, hs.mem, hs.regs, hs.keys⟩)
    | (intro) | (dsimp only) | (split) | (refine Keeps.upd ?_)

theorem State.grantLanes_keeps {z : State} {kf : Bool} (n : Nat) (s : State) (hs : z.Keeps kf s) : z.Keeps kf (State.grantLanes n s) := by
  induction n generalizing s with
  | zero => exact hs
  | succ n ih =>
    unfold State.grantLanes
    split
    · exact ih _ (State.setLane_keeps _ _ _ (State.setEnt_keeps _ _ _ hs))
    · exact hs

theorem State.round_keeps {z : State} {kf : Bool} (s : State) (hs : z.Keeps kf s) :
    z.Keeps kf (s.round) := by
  unfold State.round
  repeat' with_reducible first
    | (exact hs) | (assumption) | (apply State.grantLanes_keeps) | (apply State.setEnt_keeps)
    | (exact ⟨hs.pending, hs.mem, hs.regs, hs.keys⟩) | (apply Keeps.foldl) | (apply Keeps.foldl_fst) | (intro)
    | (dsimp only) | (split) | (refine Keeps.upd ?_)

theorem State.countPick_keeps {z : State} {kf : Bool} (s : State) (c : Chain) (picked : Bool) (hs : z.Keeps kf s) :
    z.Keeps kf (s.countPick c picked) := by
  unfold State.countPick
  repeat' with_reducible first
    | (exact hs) | (assumption) | (apply State.incMod_keeps) | (intro) | (dsimp only) | (split)

theorem State.lanePick_keeps {z : State} {kf : Bool} (s : State) (ln : Lane) (x : Entry) (pa : Nat) (pb : Nat) (hs : z.Keeps kf s) :
    z.Keeps kf (s.lanePick ln x pa pb).1 := by
  unfold State.lanePick
  repeat' with_reducible first
    | (exact hs) | (assumption) | (apply State.countPick_keeps) | (exact ⟨hs.pending, hs.mem, hs.regs, hs.keys⟩)
    | (intro) | (dsimp only) | (split) | (refine Keeps.upd ?_)

theorem State.laneStage_keeps {z : State} {kf : Bool} (s : State) (m : LaneObs) (hs : z.Keeps kf s) :
    z.Keeps kf (s.laneStage m) := by
  unfold State.laneStage
  repeat' with_reducible first
    | (exact hs) | (assumption) | (apply State.lanePick_keeps) | (apply State.setEnt_keeps)
    | (apply State.setLane_keeps) | (exact ⟨hs.pending, hs.mem, hs.regs, hs.keys⟩) | (intro) | (dsimp only) | (split)
    | (refine Keeps.upd ?_)

theorem execSamplePosition_stays {z : State} {kf : Bool} (o : SampleObs) (s : State) (hs : z.Keeps kf s) :
    z.Stays kf (execSamplePosition o s) := by
  unfold execSamplePosition
  repeat' with_reducible first
    | (exact hs) | (assumption) | (apply State.candidate_keeps) | (apply State.chainSample_keeps)
    | (apply State.laneStage_keeps) | (apply State.next_keeps) | (apply State.round_keeps)
    | (apply State.setFld_keeps) | (apply State.syncMatch_keeps) | (apply State.touch_keeps) | (exact trivial)
    | (apply Keeps.next) | (exact ⟨hs.pending, hs.mem, hs.regs, hs.keys⟩) | (apply Keeps.foldl)
    | (apply Keeps.foldl_fst) | (intro) | (dsimp only) | (split) | (refine Keeps.upd ?_)

theorem execSyncSearchTimeout_stays {z : State} {kf : Bool} (e : Nat) (s : State) (hs : z.Keeps kf s) :
    z.Stays kf (execSyncSearchTimeout e s) := by
  unfold execSyncSearchTimeout
  repeat' with_reducible first
    | (exact hs) | (assumption) | (apply State.incSat_keeps) | (apply State.next_keeps)
    | (apply State.removeEnt_keeps) | (apply State.touch_keeps) | (exact trivial) | (apply Keeps.next) | (intro)
    | (dsimp only) | (split)

theorem execEntryPromoted_stays {z : State} {kf : Bool} (e : Nat) (s : State) (hs : z.Keeps kf s) :
    z.Stays kf (execEntryPromoted e s) := by
  unfold execEntryPromoted
  repeat' with_reducible first
    | (exact hs) | (assumption) | (apply State.next_keeps) | (apply State.setEnt_keeps) | (apply State.touch_keeps)
    | (exact trivial) | (apply Keeps.next) | (exact ⟨hs.pending, hs.mem, hs.regs, hs.keys⟩) | (intro) | (dsimp only)
    | (split) | (refine Keeps.upd ?_)

theorem execEntryStarved_stays {z : State} {kf : Bool} (e : Nat) (s : State) (hs : z.Keeps kf s) :
    z.Stays kf (execEntryStarved e s) := by
  unfold execEntryStarved
  repeat' with_reducible first
    | (exact hs) | (assumption) | (apply State.next_keeps) | (apply State.removeEnt_keeps)
    | (apply State.starve_keeps) | (apply State.touch_keeps) | (exact trivial) | (apply Keeps.next) | (intro)
    | (dsimp only) | (split)

theorem State.flushPending_keeps {z : State} {kf : Bool} (s : State) (hs : z.Keeps kf s) :
    z.Keeps kf (s.flushPending) := by
  unfold State.flushPending
  repeat' with_reducible first
    | (exact hs) | (assumption) | (apply State.removeEnt_keeps) | (apply Keeps.foldl) | (apply Keeps.foldl_fst)
    | (intro) | (dsimp only) | (split)

theorem State.palStart_keeps {z : State} {kf : Bool} (s : State) (c : Chain) (hs : z.Keeps kf s) :
    z.Keeps kf (s.palStart c) := by
  unfold State.palStart
  repeat' with_reducible first
    | (exact hs) | (assumption) | (apply State.raise_keeps) | (apply State.setFld_keeps) | (apply State.setPal_keeps)
    | (exact ⟨hs.pending, hs.mem, hs.regs, hs.keys⟩) | (intro) | (dsimp only) | (split) | (refine Keeps.upd ?_)

theorem State.palStop_keeps {z : State} {kf : Bool} (s : State) (c : Chain) (hs : z.Keeps kf s) :
    z.Keeps kf (s.palStop c) := by
  unfold State.palStop
  repeat' with_reducible first
    | (exact hs) | (assumption) | (apply State.ergFlush_keeps) | (apply State.setFld_keeps)
    | (apply State.setPal_keeps) | (apply State.withdraw_keeps) | (exact ⟨hs.pending, hs.mem, hs.regs, hs.keys⟩)
    | (intro) | (dsimp only) | (split) | (refine Keeps.upd ?_)

theorem State.palJudge_keeps {z : State} {kf : Bool} (s : State) (old : State) (t : Ticket) (hs : z.Keeps kf s) :
    z.Keeps kf (s.palJudge old t) := by
  unfold State.palJudge
  repeat' with_reducible first
    | (exact hs) | (assumption) | (apply State.palStop_keeps) | (apply State.placeDev_keeps)
    | (apply State.withdraw_keeps) | (apply Keeps.foldl) | (apply Keeps.foldl_fst) | (intro) | (dsimp only) | (split)

theorem State.ergClaim_keeps {z : State} {kf : Bool} (s : State) (t : Ticket) (hs : z.Keeps kf s) :
    z.Keeps kf (s.ergClaim t) := by
  unfold State.ergClaim
  repeat' with_reducible first
    | (exact hs) | (assumption) | (apply State.placeDev_keeps) | (apply State.withdraw_keeps) | (intro) | (dsimp only)
    | (split)

theorem State.windowsOk_keeps {z : State} {kf : Bool} (s : State) (c : Chain) (hs : z.Keeps kf s) :
    z.Keeps kf (s.windowsOk c) := by
  unfold State.windowsOk
  repeat' with_reducible first
    | (exact hs) | (assumption) | (apply State.opEnd_keeps) | (apply Keeps.foldl) | (apply Keeps.foldl_fst) | (intro)
    | (dsimp only) | (split)

theorem execPaletteStart_stays {z : State} {kf : Bool} (c : Chain) (s : State) (hs : z.Keeps kf s) :
    z.Stays kf (execPaletteStart c s) := by
  unfold execPaletteStart
  repeat' with_reducible first
    | (exact hs) | (assumption) | (apply State.ergClaim_keeps) | (apply State.granted_keeps)
    | (apply State.next_keeps) | (apply State.palStart_keeps) | (apply State.touch_keeps)
    | (apply State.windowsOk_keeps) | (exact trivial) | (apply Keeps.next) | (intro) | (dsimp only) | (split)

theorem execPaletteStop_stays {z : State} {kf : Bool} (c : Chain) (s : State) (hs : z.Keeps kf s) :
    z.Stays kf (execPaletteStop c s) := by
  unfold execPaletteStop
  repeat' with_reducible first
    | (exact hs) | (assumption) | (apply State.next_keeps) | (apply State.palStop_keeps) | (apply State.touch_keeps)
    | (apply State.withdraw_keeps) | (exact trivial) | (apply Keeps.next) | (intro) | (dsimp only) | (split)

theorem State.tempTake_keeps {z : State} {kf : Bool} (s : State) (raw : Int) (hs : z.Keeps kf s) :
    z.Keeps kf (s.tempTake raw) := by
  unfold State.tempTake
  repeat' with_reducible first
    | (exact hs) | (assumption) | (apply State.incMod_keeps) | (apply State.setFld_keeps) | (intro) | (dsimp only)
    | (split)

theorem State.tcxoJudge_keeps {z : State} {kf : Bool} (s : State) (hs : z.Keeps kf s) :
    z.Keeps kf (s.tcxoJudge) := by
  unfold State.tcxoJudge
  repeat' with_reducible first
    | (exact hs) | (assumption) | (apply State.setFld_keeps) | (exact ⟨hs.pending, hs.mem, hs.regs, hs.keys⟩)
    | (intro) | (dsimp only) | (split) | (refine Keeps.upd ?_)

theorem State.gapLanes_keeps {z : State} {kf : Bool} (s : State) (cs : List Chain) (status : Nat) (hs : z.Keeps kf s) :
    z.Keeps kf (s.gapLanes cs status) := by
  unfold State.gapLanes
  repeat' with_reducible first
    | (exact hs) | (assumption) | (apply State.laneCut_keeps) | (apply State.setLane_keeps)
    | (apply State.status_keeps) | (exact ⟨hs.pending, hs.mem, hs.regs, hs.keys⟩) | (apply Keeps.foldl)
    | (apply Keeps.foldl_fst) | (intro) | (dsimp only) | (split) | (refine Keeps.upd ?_)

theorem State.settle_keeps {z : State} {kf : Bool} (s : State) (y : Syn) (t : Tune) (k : Nat) (hs : z.Keeps kf s) :
    z.Keeps kf (s.settle y t k) := by
  unfold State.settle
  repeat' with_reducible first
    | (exact hs) | (assumption) | (apply State.setFld_keeps) | (apply State.setSyn_keeps)
    | (exact ⟨hs.pending, hs.mem, hs.regs, hs.keys⟩) | (intro) | (dsimp only) | (split) | (refine Keeps.upd ?_)

theorem State.reseed_keeps {z : State} {kf : Bool} (s : State) (y : Syn) (hs : z.Keeps kf s) :
    z.Keeps kf (s.reseed y) := by
  unfold State.reseed
  repeat' with_reducible first
    | (exact hs) | (assumption) | (apply State.setSyn_keeps) | (exact ⟨hs.pending, hs.mem, hs.regs, hs.keys⟩)
    | (intro) | (dsimp only) | (split) | (refine Keeps.upd ?_)

theorem State.tuneBegin_keeps {z : State} {kf : Bool} (s : State) (y : Syn) (t : Tune) (hs : z.Keeps kf s) :
    z.Keeps kf (s.tuneBegin y t) := by
  unfold State.tuneBegin
  repeat' with_reducible first
    | (exact hs) | (assumption) | (apply State.gapCase_keeps) | (apply State.gapLanes_keeps)
    | (apply State.reseed_keeps) | (apply State.settle_keeps) | (exact ⟨hs.pending, hs.mem, hs.regs, hs.keys⟩)
    | (intro) | (dsimp only) | (split) | (refine Keeps.upd ?_)

theorem State.tunesEnd_keeps {z : State} {kf : Bool} (s : State) (y : Syn) (keep : Option Nat) (hs : z.Keeps kf s) :
    z.Keeps kf (s.tunesEnd y keep) := by
  unfold State.tunesEnd
  repeat' with_reducible first
    | (exact hs) | (assumption) | (apply State.opEnd_keeps) | (apply State.setSyn_keeps)
    | (exact ⟨hs.pending, hs.mem, hs.regs, hs.keys⟩) | (apply Keeps.foldl) | (apply Keeps.foldl_fst) | (intro)
    | (dsimp only) | (split) | (refine Keeps.upd ?_)

theorem State.synOff_keeps {z : State} {kf : Bool} (s : State) (y : Syn) (keep : Option Nat) (hs : z.Keeps kf s) :
    z.Keeps kf (s.synOff y keep) := by
  unfold State.synOff
  repeat' with_reducible first
    | (exact hs) | (assumption) | (apply State.palJudge_keeps) | (apply State.setFld_keeps)
    | (apply State.setSyn_keeps) | (apply State.tcxoJudge_keeps) | (apply State.tunesEnd_keeps)
    | (apply State.withdraw_keeps) | (exact ⟨hs.pending, hs.mem, hs.regs, hs.keys⟩) | (intro) | (dsimp only) | (split)
    | (refine Keeps.upd ?_)

theorem State.powerOff_keeps {z : State} {kf : Bool} (s : State) (y : Syn) (op : Option Nat) (hs : z.Keeps kf s) :
    z.Keeps kf (s.powerOff y op) := by
  unfold State.powerOff
  repeat' with_reducible first
    | (exact hs) | (assumption) | (apply State.laneCut_keeps) | (apply State.opEnd_keeps) | (apply State.synOff_keeps)
    | (apply Keeps.foldl) | (apply Keeps.foldl_fst) | (intro) | (dsimp only) | (split)

theorem State.tuneTry_keeps {z : State} {kf : Bool} (s : State) (y : Syn) (hs : z.Keeps kf s) :
    z.Keeps kf (s.tuneTry y) := by
  unfold State.tuneTry
  repeat' with_reducible first
    | (exact hs) | (assumption) | (apply State.powerOff_keeps) | (apply State.setSyn_keeps)
    | (apply State.tuneBegin_keeps) | (exact ⟨hs.pending, hs.mem, hs.regs, hs.keys⟩) | (intro) | (dsimp only)
    | (split) | (refine Keeps.upd ?_)

theorem State.tuneAdd_keeps {z : State} {kf : Bool} (s : State) (y : Syn) (t : Tune) (hs : z.Keeps kf s) :
    z.Keeps kf (s.tuneAdd y t) := by
  unfold State.tuneAdd
  repeat' with_reducible first
    | (exact hs) | (assumption) | (apply State.setSyn_keeps) | (apply State.tuneTry_keeps)
    | (exact ⟨hs.pending, hs.mem, hs.regs, hs.keys⟩) | (intro) | (dsimp only) | (split) | (refine Keeps.upd ?_)

theorem State.powerUp_keeps {z : State} {kf : Bool} (s : State) (y : Syn) (t : Ticket) (hs : z.Keeps kf s) :
    z.Keeps kf (s.powerUp y t) := by
  unfold State.powerUp
  repeat' with_reducible first
    | (exact hs) | (assumption) | (apply State.palJudge_keeps) | (apply State.setFld_keeps)
    | (apply State.setSyn_keeps) | (apply State.tcxoJudge_keeps) | (exact ⟨hs.pending, hs.mem, hs.regs, hs.keys⟩)
    | (intro) | (dsimp only) | (split) | (refine Keeps.upd ?_)

theorem State.powerClaim_keeps {z : State} {kf : Bool} (s : State) (y : Syn) (prio : Nat) (t : Ticket) (hs : z.Keeps kf s) :
    z.Keeps kf (s.powerClaim y prio t).1 := by
  unfold State.powerClaim
  repeat' with_reducible first
    | (exact hs) | (assumption) | (apply State.place_keeps) | (apply Keeps.foldl) | (apply Keeps.foldl_fst) | (intro)
    | (dsimp only) | (split)

theorem State.lockNow_keeps {z : State} {kf : Bool} (s : State) (y : Syn) (band : Nat) (hs : z.Keeps kf s) :
    z.Keeps kf (s.lockNow y band) := by
  unfold State.lockNow
  repeat' with_reducible first
    | (exact hs) | (assumption) | (apply State.setFld_keeps) | (apply State.setSyn_keeps)
    | (exact ⟨hs.pending, hs.mem, hs.regs, hs.keys⟩) | (intro) | (dsimp only) | (split) | (refine Keeps.upd ?_)

theorem State.clearTune_keeps {z : State} {kf : Bool} (s : State) (y : Syn) (hs : z.Keeps kf s) :
    z.Keeps kf (s.clearTune y) := by
  unfold State.clearTune
  repeat' with_reducible first
    | (exact hs) | (assumption) | (apply State.setSyn_keeps) | (exact ⟨hs.pending, hs.mem, hs.regs, hs.keys⟩)
    | (intro) | (dsimp only) | (split) | (refine Keeps.upd ?_)

theorem State.calBegin_keeps {z : State} {kf : Bool} (s : State) (y : Syn) (hs : z.Keeps kf s) :
    z.Keeps kf (s.calBegin y) := by
  unfold State.calBegin
  repeat' with_reducible first
    | (exact hs) | (assumption) | (apply State.setSyn_keeps) | (apply State.settle_keeps)
    | (exact ⟨hs.pending, hs.mem, hs.regs, hs.keys⟩) | (intro) | (dsimp only) | (split) | (refine Keeps.upd ?_)

theorem State.synRef_keeps {z : State} {kf : Bool} (s : State) (hs : z.Keeps kf s) :
    z.Keeps kf (s.synRef) := by
  unfold State.synRef
  repeat' with_reducible first
    | (exact hs) | (assumption) | (apply State.setSyn_keeps) | (exact ⟨hs.pending, hs.mem, hs.regs, hs.keys⟩)
    | (apply Keeps.foldl) | (apply Keeps.foldl_fst) | (intro) | (dsimp only) | (split) | (refine Keeps.upd ?_)

theorem State.calRequest_keeps {z : State} {kf : Bool} (s : State) (k : CalKind) (hs : z.Keeps kf s) :
    z.Keeps kf (s.calRequest k) := by
  unfold State.calRequest
  repeat' with_reducible first
    | (exact hs) | (assumption) | (apply State.calBegin_keeps) | (apply State.gapCase_keeps)
    | (apply State.gapLanes_keeps) | (apply State.setFld_keeps) | (exact ⟨hs.pending, hs.mem, hs.regs, hs.keys⟩)
    | (intro) | (dsimp only) | (split) | (refine Keeps.upd ?_)

theorem State.setKey_keeps {z : State} (s : State) (k : Nat) (x : Key) (hs : z.Keeps false s) :
    z.Keeps false (s.setKey k x) := by
  unfold State.setKey
  repeat' with_reducible first
    | (exact hs) | (assumption) | (exact ⟨hs.pending, hs.mem, hs.regs, nofun⟩) | (intro) | (dsimp only) | (split)
    | (refine Keeps.updKeys ?_)

theorem State.loadKey_keeps {z : State} (s : State) (k : Nat) (pair : Bool) (ctr : Nat) (hs : z.Keeps false s) :
    z.Keeps false (s.loadKey k pair ctr) := by
  unfold State.loadKey
  repeat' with_reducible first
    | (exact hs) | (assumption) | (apply State.setKey_keeps) | (exact ⟨hs.pending, hs.mem, hs.regs, nofun⟩) | (intro)
    | (dsimp only) | (split) | (refine Keeps.updKeys ?_)

theorem State.eraseKey_keeps {z : State} (s : State) (k : Nat) (hs : z.Keeps false s) :
    z.Keeps false (s.eraseKey k) := by
  unfold State.eraseKey
  repeat' with_reducible first
    | (exact hs) | (assumption) | (apply State.setKey_keeps) | (exact ⟨hs.pending, hs.mem, hs.regs, nofun⟩) | (intro)
    | (dsimp only) | (split) | (refine Keeps.updKeys ?_)

theorem State.eraseKeys_keeps {z : State} (s : State) (hs : z.Keeps false s) :
    z.Keeps false (s.eraseKeys) := by
  unfold State.eraseKeys
  repeat' with_reducible first
    | (exact hs) | (assumption) | (exact ⟨hs.pending, hs.mem, hs.regs, nofun⟩) | (intro) | (dsimp only) | (split)
    | (refine Keeps.updKeys ?_)

theorem State.keyBad_keeps {z : State} (s : State) (k : Nat) (hs : z.Keeps false s) :
    z.Keeps false (s.keyBad k) := by
  unfold State.keyBad
  repeat' with_reducible first
    | (exact hs) | (assumption) | (apply State.fault_keeps) | (apply State.raise_keeps) | (apply State.setKey_keeps)
    | (exact ⟨hs.pending, hs.mem, hs.regs, nofun⟩) | (intro) | (dsimp only) | (split) | (refine Keeps.updKeys ?_)

theorem State.secCount_keeps {z : State} {kf : Bool} (s : State) (status : Nat) (reason : Nat) (hs : z.Keeps kf s) :
    z.Keeps kf (s.secCount status reason) := by
  unfold State.secCount
  repeat' with_reducible first
    | (exact hs) | (assumption) | (apply State.incMod_keeps) | (apply State.incSat_keeps) | (apply State.setFld_keeps)
    | (apply State.status_keeps) | (intro) | (dsimp only) | (split)

theorem State.readEntry_keeps {z : State} {kf : Bool} (s : State) (i : Nat) (hs : z.Keeps kf s) :
    z.Keeps kf (s.readEntry i).1 := by
  unfold State.readEntry
  repeat' with_reducible first
    | (exact hs) | (assumption) | (apply State.readSpan_keeps) | (intro) | (dsimp only) | (split)

theorem State.sealTake_keeps {z : State} {kf : Bool} (s : State) (f : List Byte) (pidx : Nat) (key : Nat) (hs : z.Keeps kf s) :
    z.Keeps kf (s.sealTake f pidx key).1 := by
  unfold State.sealTake
  repeat' with_reducible first
    | (exact hs) | (assumption) | (apply State.readEntry_keeps) | (apply State.storeNum_keeps) | (intro)
    | (dsimp only) | (split)

theorem State.replayTake_keeps {z : State} {kf : Bool} (s : State) (f : List Byte) (pidx : Nat) (hs : z.Keeps kf s) :
    z.Keeps kf (s.replayTake f pidx) := by
  unfold State.replayTake
  repeat' with_reducible first
    | (exact hs) | (assumption) | (apply State.storeNum_keeps) | (intro) | (dsimp only) | (split)

theorem State.setAes_keeps {z : State} {kf : Bool} (s : State) (e : Nat) (x : Aes) (hs : z.Keeps kf s) :
    z.Keeps kf (s.setAes e x) := by
  unfold State.setAes
  repeat' with_reducible first
    | (exact hs) | (assumption) | (exact ⟨hs.pending, hs.mem, hs.regs, hs.keys⟩) | (intro) | (dsimp only) | (split)
    | (refine Keeps.upd ?_)

theorem State.aesClaim_keeps {z : State} {kf : Bool} (s : State) (prio : Nat) (t : Ticket) (hs : z.Keeps kf s) :
    z.Keeps kf (s.aesClaim prio t).1 := by
  unfold State.aesClaim
  repeat' with_reducible first
    | (exact hs) | (assumption) | (apply State.place_keeps) | (intro) | (dsimp only) | (split)

theorem State.setAcct_keeps {z : State} {kf : Bool} (s : State) (n : Nat) (b : List Bucket) (hs : z.Keeps kf s) :
    z.Keeps kf (s.setAcct n b) := by
  unfold State.setAcct
  repeat' with_reducible first
    | (exact hs) | (assumption) | (exact ⟨hs.pending, hs.mem, hs.regs, hs.keys⟩) | (intro) | (dsimp only) | (split)
    | (refine Keeps.upd ?_)

theorem State.charge_keeps {z : State} {kf : Bool} (s : State) (o : RadioOp) (units : Nat) (t : Nat) (hs : z.Keeps kf s) :
    z.Keeps kf (s.charge o units t) := by
  unfold State.charge
  repeat' with_reducible first
    | (exact hs) | (assumption) | (apply State.setAcct_keeps) | (apply Keeps.foldl) | (apply Keeps.foldl_fst)
    | (intro) | (dsimp only) | (split)

theorem State.exhaust_keeps {z : State} {kf : Bool} (s : State) (o : RadioOp) (units : Nat) (hs : z.Keeps kf s) :
    z.Keeps kf (s.exhaust o units) := by
  unfold State.exhaust
  repeat' with_reducible first
    | (exact hs) | (assumption) | (apply State.raise_keeps) | (apply Keeps.foldl) | (apply Keeps.foldl_fst) | (intro)
    | (dsimp only) | (split)

theorem State.drawListen_keeps {z : State} {kf : Bool} (s : State) (o : RadioOp) (hs : z.Keeps kf s) :
    z.Keeps kf (s.drawListen o).1 := by
  unfold State.drawListen
  repeat' with_reducible first
    | (exact hs) | (assumption) | (apply State.draw_keeps) | (exact ⟨hs.pending, hs.mem, hs.regs, hs.keys⟩) | (intro)
    | (dsimp only) | (split) | (refine Keeps.upd ?_)

theorem State.drawBackoff_keeps {z : State} {kf : Bool} (s : State) (hs : z.Keeps kf s) :
    z.Keeps kf (s.drawBackoff).1 := by
  unfold State.drawBackoff
  repeat' with_reducible first
    | (exact hs) | (assumption) | (apply State.draw_keeps) | (intro) | (dsimp only) | (split)

theorem State.switchTx_keeps {z : State} {kf : Bool} (s : State) (ant : Nat) (hs : z.Keeps kf s) :
    z.Keeps kf (s.switchTx ant) := by
  unfold State.switchTx
  repeat' with_reducible first
    | (exact hs) | (assumption) | (apply State.setFld_keeps) | (exact ⟨hs.pending, hs.mem, hs.regs, hs.keys⟩)
    | (intro) | (dsimp only) | (split) | (refine Keeps.upd ?_)

theorem State.switchRx_keeps {z : State} {kf : Bool} (s : State) (hs : z.Keeps kf s) :
    z.Keeps kf (s.switchRx) := by
  unfold State.switchRx
  repeat' with_reducible first
    | (exact hs) | (assumption) | (exact ⟨hs.pending, hs.mem, hs.regs, hs.keys⟩) | (intro) | (dsimp only) | (split)
    | (refine Keeps.upd ?_)

theorem State.paFall_keeps {z : State} {kf : Bool} (s : State) (id : Nat) (t : Nat) (hs : z.Keeps kf s) :
    z.Keeps kf (s.paFall id t) := by
  unfold State.paFall
  repeat' with_reducible first
    | (exact hs) | (assumption) | (apply State.selfMark_keeps) | (apply State.withdraw_keeps)
    | (exact ⟨hs.pending, hs.mem, hs.regs, hs.keys⟩) | (intro) | (dsimp only) | (split) | (refine Keeps.upd ?_)

theorem State.txFree_keeps {z : State} {kf : Bool} (s : State) (hs : z.Keeps kf s) :
    z.Keeps kf (s.txFree) := by
  unfold State.txFree
  repeat' with_reducible first
    | (exact hs) | (assumption) | (apply State.leaveIdle_keeps) | (apply State.setFld_keeps)
    | (apply State.switchRx_keeps) | (intro) | (dsimp only) | (split)

theorem State.emission_keeps {z : State} {kf : Bool} (s : State) (o : RadioOp) (e : Nat) (hs : z.Keeps kf s) :
    z.Keeps kf (s.emission o e) := by
  unfold State.emission
  repeat' with_reducible first
    | (exact hs) | (assumption) | (exact ⟨hs.pending, hs.mem, hs.regs, hs.keys⟩) | (intro) | (dsimp only) | (split)
    | (refine Keeps.upd ?_)

theorem State.txTail_keeps {z : State} {kf : Bool} (s : State) (id : Nat) (o : RadioOp) (hs : z.Keeps kf s) :
    z.Keeps kf (s.txTail id o) := by
  unfold State.txTail
  repeat' with_reducible first
    | (exact hs) | (assumption) | (apply State.setOp_keeps) | (exact ⟨hs.pending, hs.mem, hs.regs, hs.keys⟩) | (intro)
    | (dsimp only) | (split) | (refine Keeps.upd ?_)

theorem State.txEnd_keeps {z : State} {kf : Bool} (s : State) (id : Nat) (status : Nat) (extra : Nat) (hs : z.Keeps kf s) :
    z.Keeps kf (s.txEnd id status extra) := by
  unfold State.txEnd
  repeat' with_reducible first
    | (exact hs) | (assumption) | (apply State.claimLapse_keeps) | (apply State.dropOp_keeps)
    | (apply State.opClose_keeps) | (apply State.opEnd_keeps) | (apply State.raise_keeps) | (apply State.status_keeps)
    | (apply State.txFree_keeps) | (apply State.txTail_keeps) | (apply State.withdraw_keeps) | (intro) | (dsimp only)
    | (split)

theorem State.txCut_keeps {z : State} {kf : Bool} (s : State) (id : Nat) (status : Nat) (hs : z.Keeps kf s) :
    z.Keeps kf (s.txCut id status) := by
  unfold State.txCut
  repeat' with_reducible first
    | (exact hs) | (assumption) | (apply State.charge_keeps) | (apply State.emission_keeps)
    | (apply State.opClose_keeps) | (apply State.status_keeps) | (apply State.txEnd_keeps)
    | (apply State.txTail_keeps) | (exact ⟨hs.pending, hs.mem, hs.regs, hs.keys⟩) | (intro) | (dsimp only) | (split)
    | (refine Keeps.upd ?_)

theorem State.txLate_keeps {z : State} {kf : Bool} (s : State) (id : Nat) (phase : OpPhase) (hs : z.Keeps kf s) :
    z.Keeps kf (s.txLate id phase) := by
  unfold State.txLate
  repeat' with_reducible first
    | (exact hs) | (assumption) | (apply State.setFld_keeps) | (apply State.setLauncher_keeps)
    | (apply State.setOp_keeps) | (apply State.txEnd_keeps) | (exact ⟨hs.pending, hs.mem, hs.regs, hs.keys⟩) | (intro)
    | (dsimp only) | (split) | (refine Keeps.upd ?_)

theorem State.txGo_keeps {z : State} {kf : Bool} (s : State) (id : Nat) (o : RadioOp) (tr : Nat) (hs : z.Keeps kf s) :
    z.Keeps kf (s.txGo id o tr) := by
  unfold State.txGo
  repeat' with_reducible first
    | (exact hs) | (assumption) | (apply State.setOp_keeps) | (apply State.switchTx_keeps)
    | (exact ⟨hs.pending, hs.mem, hs.regs, hs.keys⟩) | (intro) | (dsimp only) | (split) | (refine Keeps.upd ?_)

theorem State.txRoom_keeps {z : State} {kf : Bool} (s : State) (id : Nat) (o : RadioOp) (tr : Nat) (hs : z.Keeps kf s) :
    z.Keeps kf (s.txRoom id o tr) := by
  unfold State.txRoom
  repeat' with_reducible first
    | (exact hs) | (assumption) | (apply State.exhaust_keeps) | (apply State.txEnd_keeps) | (apply State.txGo_keeps)
    | (intro) | (dsimp only) | (split)

theorem State.txBusy_keeps {z : State} {kf : Bool} (s : State) (id : Nat) (o : RadioOp) (tr : Nat) (hs : z.Keeps kf s) :
    z.Keeps kf (s.txBusy id o tr) := by
  unfold State.txBusy
  repeat' with_reducible first
    | (exact hs) | (assumption) | (apply State.drawBackoff_keeps) | (apply State.drawListen_keeps)
    | (apply State.setLauncher_keeps) | (apply State.setNocov_keeps) | (apply State.setOp_keeps)
    | (apply State.txEnd_keeps) | (exact ⟨hs.pending, hs.mem, hs.regs, hs.keys⟩) | (intro) | (dsimp only) | (split)
    | (refine Keeps.upd ?_)

theorem State.txStep5_keeps {z : State} {kf : Bool} (s : State) (id : Nat) (o : RadioOp) (tr : Nat) (hs : z.Keeps kf s) :
    z.Keeps kf (s.txStep5 id o tr) := by
  unfold State.txStep5
  repeat' with_reducible first
    | (exact hs) | (assumption) | (apply State.setNocov_keeps) | (apply State.setOp_keeps)
    | (apply State.txBusy_keeps) | (apply State.txEnd_keeps) | (apply State.txLate_keeps) | (apply State.txRoom_keeps)
    | (exact ⟨hs.pending, hs.mem, hs.regs, hs.keys⟩) | (intro) | (dsimp only) | (split) | (refine Keeps.upd ?_)

theorem State.lbtDecide_keeps {z : State} {kf : Bool} (s : State) (id : Nat) (o : RadioOp) (tr : Nat) (hs : z.Keeps kf s) :
    z.Keeps kf (s.lbtDecide id o tr) := by
  unfold State.lbtDecide
  repeat' with_reducible first
    | (exact hs) | (assumption) | (apply State.opEnd_keeps) | (apply State.setOp_keeps)
    | (exact ⟨hs.pending, hs.mem, hs.regs, hs.keys⟩) | (intro) | (dsimp only) | (split) | (refine Keeps.upd ?_)

theorem State.txSealAdd_keeps {z : State} {kf : Bool} (s : State) (id : Nat) (o : RadioOp) (hs : z.Keeps kf s) :
    z.Keeps kf (s.txSealAdd id o) := by
  unfold State.txSealAdd
  repeat' with_reducible first
    | (exact hs) | (assumption) | (apply State.addEng_keeps) | (apply State.aesClaim_keeps)
    | (apply State.dropEng_keeps) | (apply State.txEnd_keeps) | (intro) | (dsimp only) | (split)

theorem State.txLocked_keeps {z : State} {kf : Bool} (s : State) (id : Nat) (hs : z.Keeps kf s) :
    z.Keeps kf (s.txLocked id) := by
  unfold State.txLocked
  repeat' with_reducible first
    | (exact hs) | (assumption) | (apply Fetch.release_keeps) | (apply State.drawListen_keeps)
    | (apply State.setOp_keeps) | (apply State.txSealAdd_keeps) | (exact ⟨hs.pending, hs.mem, hs.regs, hs.keys⟩)
    | (intro) | (dsimp only) | (split) | (refine Keeps.upd ?_)

theorem State.txTune_keeps {z : State} {kf : Bool} (s : State) (id : Nat) (hs : z.Keeps kf s) :
    z.Keeps kf (s.txTune id) := by
  unfold State.txTune
  repeat' with_reducible first
    | (exact hs) | (assumption) | (apply State.park_keeps) | (apply State.radio_keeps) | (apply State.setOp_keeps)
    | (apply State.tuneAdd_keeps) | (apply State.txLocked_keeps) | (exact ⟨hs.pending, hs.mem, hs.regs, hs.keys⟩)
    | (intro) | (dsimp only) | (split) | (refine Keeps.upd ?_)

theorem State.txBegin_keeps {z : State} {kf : Bool} (s : State) (id : Nat) (hs : z.Keeps kf s) :
    z.Keeps kf (s.txBegin id) := by
  unfold State.txBegin
  repeat' with_reducible first
    | (exact hs) | (assumption) | (apply State.exhaust_keeps) | (apply State.park_keeps)
    | (apply State.powerClaim_keeps) | (apply State.radio_keeps) | (apply State.setOp_keeps)
    | (apply State.txEnd_keeps) | (apply State.txTune_keeps) | (exact ⟨hs.pending, hs.mem, hs.regs, hs.keys⟩)
    | (intro) | (dsimp only) | (split) | (refine Keeps.upd ?_)

theorem State.paUp_keeps {z : State} {kf : Bool} (s : State) (id : Nat) (o : RadioOp) (hs : z.Keeps kf s) :
    z.Keeps kf (s.paUp id o) := by
  unfold State.paUp
  repeat' with_reducible first
    | (exact hs) | (assumption) | (apply State.selfMark_keeps) | (apply State.setOp_keeps)
    | (exact ⟨hs.pending, hs.mem, hs.regs, hs.keys⟩) | (intro) | (dsimp only) | (split) | (refine Keeps.upd ?_)

theorem State.opWaits_keeps {z : State} {kf : Bool} (s : State) (id : Nat) (o : RadioOp) (w : Wait) (hs : z.Keeps kf s) :
    z.Keeps kf (s.opWaits id o w) := by
  unfold State.opWaits
  repeat' with_reducible first
    | (exact hs) | (assumption) | (apply State.park_keeps) | (apply State.radio_keeps) | (intro) | (dsimp only)
    | (split)

theorem State.paRise_keeps {z : State} {kf : Bool} (s : State) (id : Nat) (o : RadioOp) (hs : z.Keeps kf s) :
    z.Keeps kf (s.paRise id o) := by
  unfold State.paRise
  repeat' with_reducible first
    | (exact hs) | (assumption) | (apply State.grantClaim_keeps) | (apply State.opWaits_keeps)
    | (apply State.paUp_keeps) | (apply State.place_keeps) | (apply State.setOp_keeps) | (apply State.txEnd_keeps)
    | (apply State.txFree_keeps) | (apply State.txLate_keeps) | (apply State.withdraw_keeps)
    | (exact ⟨hs.pending, hs.mem, hs.regs, hs.keys⟩) | (intro) | (dsimp only) | (split) | (refine Keeps.upd ?_)

theorem State.paLate_keeps {z : State} {kf : Bool} (s : State) (id : Nat) (o : RadioOp) (c : Claim) (hs : z.Keeps kf s) :
    z.Keeps kf (s.paLate id o c) := by
  unfold State.paLate
  repeat' with_reducible first
    | (exact hs) | (assumption) | (apply State.drawListen_keeps) | (apply State.grantClaim_keeps)
    | (apply State.lnHit_keeps) | (apply State.lnOff_keeps) | (apply State.opWaits_keeps) | (apply State.radio_keeps)
    | (apply State.setNocov_keeps) | (apply State.setOp_keeps) | (apply State.switchTx_keeps)
    | (apply State.txEnd_keeps) | (apply State.withdraw_keeps) | (exact ⟨hs.pending, hs.mem, hs.regs, hs.keys⟩)
    | (intro) | (dsimp only) | (split) | (refine Keeps.upd ?_)

theorem State.txRamped_keeps {z : State} {kf : Bool} (s : State) (id : Nat) (o : RadioOp) (hs : z.Keeps kf s) :
    z.Keeps kf (s.txRamped id o) := by
  unfold State.txRamped
  repeat' with_reducible first
    | (exact hs) | (assumption) | (apply State.charge_keeps) | (apply State.emission_keeps)
    | (apply State.setOp_keeps) | (exact ⟨hs.pending, hs.mem, hs.regs, hs.keys⟩) | (intro) | (dsimp only) | (split)
    | (refine Keeps.upd ?_)

theorem State.txFall_keeps {z : State} {kf : Bool} (s : State) (id : Nat) (o : RadioOp) (hs : z.Keeps kf s) :
    z.Keeps kf (s.txFall id o) := by
  unfold State.txFall
  repeat' with_reducible first
    | (exact hs) | (assumption) | (apply State.paFall_keeps) | (apply State.setOp_keeps)
    | (exact ⟨hs.pending, hs.mem, hs.regs, hs.keys⟩) | (intro) | (dsimp only) | (split) | (refine Keeps.upd ?_)

theorem State.txDone_keeps {z : State} {kf : Bool} (s : State) (id : Nat) (o : RadioOp) (hs : z.Keeps kf s) :
    z.Keeps kf (s.txDone id o) := by
  unfold State.txDone
  repeat' with_reducible first
    | (exact hs) | (assumption) | (apply State.beaconSent_keeps) | (apply State.dropOp_keeps)
    | (apply State.opEnd_keeps) | (apply State.setNocov_keeps) | (apply State.setOp_keeps)
    | (apply State.txFree_keeps) | (apply State.upSet_keeps) | (exact ⟨hs.pending, hs.mem, hs.regs, hs.keys⟩)
    | (intro) | (dsimp only) | (split) | (refine Keeps.upd ?_)

theorem State.assign_keeps {z : State} {kf : Bool} (s : State) (saddr : Nat) (cell : Nat) (hs : z.Keeps kf s) :
    z.Keeps kf (s.assign saddr cell).1 := by
  unfold State.assign
  repeat' with_reducible first
    | (exact hs) | (assumption) | (exact ⟨hs.pending, hs.mem, hs.regs, hs.keys⟩) | (intro) | (dsimp only) | (split)
    | (refine Keeps.upd ?_)

theorem State.releaseCell_keeps {z : State} {kf : Bool} (s : State) (i : Nat) (hs : z.Keeps kf s) :
    z.Keeps kf (s.releaseCell i) := by
  unfold State.releaseCell
  repeat' with_reducible first
    | (exact hs) | (assumption) | (apply State.assign_keeps) | (apply State.ptSet_keeps) | (intro) | (dsimp only)
    | (split)

theorem State.annStep_keeps {z : State} {kf : Bool} (s : State) (k : Nat) (hs : z.Keeps kf s) :
    z.Keeps kf (s.annStep k) := by
  unfold State.annStep
  repeat' with_reducible first
    | (exact hs) | (assumption) | (exact ⟨hs.pending, hs.mem, hs.regs, hs.keys⟩) | (intro) | (dsimp only) | (split)
    | (refine Keeps.upd ?_)

theorem State.buildBeacon_keeps {z : State} {kf : Bool} (s : State) (o : RadioOp) (hs : z.Keeps kf s) :
    z.Keeps kf (s.buildBeacon o).1 := by
  unfold State.buildBeacon
  repeat' with_reducible first
    | (exact hs) | (assumption) | (apply State.annStep_keeps) | (apply State.heard_keeps) | (apply Keeps.next)
    | (exact ⟨hs.pending, hs.mem, hs.regs, hs.keys⟩) | (apply Keeps.foldl) | (apply Keeps.foldl_fst) | (intro)
    | (dsimp only) | (split) | (refine Keeps.upd ?_)

theorem State.beaconFill_keeps {z : State} {kf : Bool} (s : State) (id : Nat) (o : RadioOp) (hs : z.Keeps kf s) :
    z.Keeps kf (s.beaconFill id o).1 := by
  unfold State.beaconFill
  repeat' with_reducible first
    | (exact hs) | (assumption) | (apply State.buildBeacon_keeps) | (apply State.setOp_keeps)
    | (exact ⟨hs.pending, hs.mem, hs.regs, hs.keys⟩) | (intro) | (dsimp only) | (split) | (refine Keeps.upd ?_)

theorem State.beaconNew_keeps {z : State} {kf : Bool} (s : State) (gid : Nat) (n : Fin 32) (t : Nat) (hs : z.Keeps kf s) :
    z.Keeps kf (s.beaconNew gid n t) := by
  unfold State.beaconNew
  repeat' with_reducible first
    | (exact hs) | (assumption) | (apply Fetch.release_keeps) | (apply State.addOp_keeps)
    | (apply State.txBegin_keeps) | (exact ⟨hs.pending, hs.mem, hs.regs, hs.keys⟩) | (intro) | (dsimp only) | (split)
    | (refine Keeps.upd ?_)

theorem State.gackStop_keeps {z : State} {kf : Bool} (s : State) (hs : z.Keeps kf s) :
    z.Keeps kf (s.gackStop) := by
  unfold State.gackStop
  repeat' with_reducible first
    | (exact hs) | (assumption) | (apply State.dropOp_keeps) | (apply State.heard_keeps) | (apply State.lnOff_keeps)
    | (apply State.opReport_keeps) | (apply State.txEnd_keeps) | (exact ⟨hs.pending, hs.mem, hs.regs, hs.keys⟩)
    | (apply Keeps.foldl) | (apply Keeps.foldl_fst) | (intro) | (dsimp only) | (split) | (refine Keeps.upd ?_)

theorem State.macHear_keeps {z : State} {kf : Bool} (s : State) (f : List Byte) (c : Chain) (t : Nat) (hs : z.Keeps kf s) :
    z.Keeps kf (s.macHear f c t) := by
  unfold State.macHear
  repeat' with_reducible first
    | (exact hs) | (assumption) | (apply State.heard_keeps) | (exact ⟨hs.pending, hs.mem, hs.regs, hs.keys⟩)
    | (apply Keeps.foldl) | (apply Keeps.foldl_fst) | (intro) | (dsimp only) | (split) | (refine Keeps.upd ?_)

theorem State.macOpened_keeps {z : State} {kf : Bool} (s : State) (i : Nat) (t : Nat) (hs : z.Keeps kf s) :
    z.Keeps kf (s.macOpened i t) := by
  unfold State.macOpened
  repeat' with_reducible first
    | (exact hs) | (assumption) | (exact ⟨hs.pending, hs.mem, hs.regs, hs.keys⟩) | (intro) | (dsimp only) | (split)
    | (refine Keeps.upd ?_)

theorem State.unmodel_keeps {z : State} {kf : Bool} (s : State) (i : Nat) (hs : z.Keeps kf s) :
    z.Keeps kf (s.unmodel i) := by
  unfold State.unmodel
  repeat' with_reducible first
    | (exact hs) | (assumption) | (apply State.ptSet_keeps) | (intro) | (dsimp only) | (split)

theorem State.missMember_keeps {z : State} {kf : Bool} (s : State) (i : Nat) (j : Nat) (k : Nat) (t : Nat) (hs : z.Keeps kf s) :
    z.Keeps kf (s.missMember i j k t) := by
  unfold State.missMember
  repeat' with_reducible first
    | (exact hs) | (assumption) | (apply State.heard_keeps) | (apply State.post_keeps) | (apply State.ptSet_keeps)
    | (apply State.releaseCell_keeps) | (apply State.unmodel_keeps) | (intro) | (dsimp only) | (split)

theorem execAssignedSlotEnd_stays {z : State} {kf : Bool} (slot : Nat) (s : State) (hs : z.Keeps kf s) :
    z.Stays kf (execAssignedSlotEnd slot s) := by
  unfold execAssignedSlotEnd
  repeat' with_reducible first
    | (exact hs) | (assumption) | (apply State.missMember_keeps) | (apply State.moveTo_keeps)
    | (apply State.next_keeps) | (exact trivial) | (apply Keeps.next) | (exact ⟨hs.pending, hs.mem, hs.regs, hs.keys⟩)
    | (apply Keeps.foldl) | (apply Keeps.foldl_fst) | (intro) | (dsimp only) | (split) | (refine Keeps.upd ?_)

theorem State.leaseEnd_keeps {z : State} {kf : Bool} (s : State) (i : Nat) (hs : z.Keeps kf s) :
    z.Keeps kf (s.leaseEnd i) := by
  unfold State.leaseEnd
  repeat' with_reducible first
    | (exact hs) | (assumption) | (apply State.post_keeps) | (apply State.ptSet_keeps)
    | (apply State.releaseCell_keeps) | (intro) | (dsimp only) | (split)

theorem execLeaseScan_stays {z : State} {kf : Bool} (s : State) (hs : z.Keeps kf s) :
    z.Stays kf (execLeaseScan s) := by
  unfold execLeaseScan
  repeat' with_reducible first
    | (exact hs) | (assumption) | (apply State.leaseEnd_keeps) | (apply State.moveTo_keeps) | (apply State.next_keeps)
    | (exact trivial) | (apply Keeps.next) | (exact ⟨hs.pending, hs.mem, hs.regs, hs.keys⟩) | (apply Keeps.foldl)
    | (apply Keeps.foldl_fst) | (intro) | (dsimp only) | (split) | (refine Keeps.upd ?_)

theorem execLeaseExpiry_stays {z : State} {kf : Bool} (s : State) (hs : z.Keeps kf s) :
    z.Stays kf (execLeaseExpiry s) := by
  unfold execLeaseExpiry
  repeat' with_reducible first
    | (exact hs) | (assumption) | (apply State.moveTo_keeps) | (apply State.next_keeps) | (apply State.post_keeps)
    | (apply State.raise_keeps) | (apply State.setFld_keeps) | (apply State.upSet_keeps) | (exact trivial)
    | (apply Keeps.next) | (intro) | (dsimp only) | (split)

theorem State.upPredict_keeps {z : State} {kf : Bool} (s : State) (n : Nat) (hs : z.Keeps kf s) :
    z.Keeps kf (s.upPredict n) := by
  unfold State.upPredict
  repeat' with_reducible first
    | (exact hs) | (assumption) | (apply State.upSet_keeps) | (intro) | (dsimp only) | (split)

theorem State.scanBegin_keeps {z : State} {kf : Bool} (s : State) (hs : z.Keeps kf s) :
    z.Keeps kf (s.scanBegin) := by
  unfold State.scanBegin
  repeat' with_reducible first
    | (exact hs) | (assumption) | (apply State.setFld_keeps) | (exact ⟨hs.pending, hs.mem, hs.regs, hs.keys⟩)
    | (intro) | (dsimp only) | (split) | (refine Keeps.upd ?_)

theorem State.beaconLost_keeps {z : State} {kf : Bool} (s : State) (hs : z.Keeps kf s) :
    z.Keeps kf (s.beaconLost) := by
  unfold State.beaconLost
  repeat' with_reducible first
    | (exact hs) | (assumption) | (apply State.post_keeps) | (apply State.raise_keeps) | (apply State.scanBegin_keeps)
    | (apply State.txEnd_keeps) | (apply State.unmodel_keeps) | (apply Keeps.foldl) | (apply Keeps.foldl_fst)
    | (intro) | (dsimp only) | (split)

theorem State.missed_keeps {z : State} {kf : Bool} (s : State) (n : Nat) (hs : z.Keeps kf s) :
    z.Keeps kf (s.missed n) := by
  unfold State.missed
  repeat' with_reducible first
    | (exact hs) | (assumption) | (apply State.beaconLost_keeps) | (apply State.setFld_keeps)
    | (apply State.upPredict_keeps) | (apply Keeps.next) | (exact ⟨hs.pending, hs.mem, hs.regs, hs.keys⟩) | (intro)
    | (dsimp only) | (split) | (refine Keeps.upd ?_)

theorem execBeaconMiss_stays {z : State} {kf : Bool} (s : State) (hs : z.Keeps kf s) :
    z.Stays kf (execBeaconMiss s) := by
  unfold execBeaconMiss
  repeat' with_reducible first
    | (exact hs) | (assumption) | (apply State.missed_keeps) | (apply State.moveTo_keeps) | (apply State.next_keeps)
    | (exact trivial) | (apply Keeps.next) | (intro) | (dsimp only) | (split)

theorem execScanEnd_stays {z : State} {kf : Bool} (s : State) (hs : z.Keeps kf s) :
    z.Stays kf (execScanEnd s) := by
  unfold execScanEnd
  repeat' with_reducible first
    | (exact hs) | (assumption) | (apply State.moveTo_keeps) | (apply State.next_keeps) | (apply State.setFld_keeps)
    | (exact trivial) | (apply Keeps.next) | (exact ⟨hs.pending, hs.mem, hs.regs, hs.keys⟩) | (intro) | (dsimp only)
    | (split) | (refine Keeps.upd ?_)

theorem State.upTake_keeps {z : State} {kf : Bool} (s : State) (p : List Byte) (hs : z.Keeps kf s) :
    z.Keeps kf (s.upTake p) := by
  unfold State.upTake
  repeat' with_reducible first
    | (exact hs) | (assumption) | (apply State.store_keeps) | (apply State.upSet_keeps)
    | (exact ⟨hs.pending, hs.mem, hs.regs, hs.keys⟩) | (intro) | (dsimp only) | (split) | (refine Keeps.upd ?_)

theorem State.beaconHear_keeps {z : State} {kf : Bool} (s : State) (f : List Byte) (len : Nat) (fcs : Nat) (c : Chain) (t : Nat) (rate : Nat) (freq : Nat) (hist : Bool) (prio : Nat) (ticket : Ticket) (hs : z.Keeps kf s) :
    z.Keeps kf (s.beaconHear f len fcs c t rate freq hist prio ticket) := by
  unfold State.beaconHear
  repeat' with_reducible first
    | (exact hs) | (assumption) | (apply State.addEng_keeps) | (apply State.aesClaim_keeps)
    | (apply State.dropEng_keeps) | (exact ⟨hs.pending, hs.mem, hs.regs, hs.keys⟩) | (intro) | (dsimp only) | (split)
    | (refine Keeps.upd ?_)

theorem State.beaconTake_keeps {z : State} {kf : Bool} (s : State) (payload : List Byte) (t : Nat) (rate : Nat) (freq : Nat) (hs : z.Keeps kf s) :
    z.Keeps kf (s.beaconTake payload t rate freq) := by
  unfold State.beaconTake
  repeat' with_reducible first
    | (exact hs) | (assumption) | (apply State.setFld_keeps) | (apply State.tlearn_keeps)
    | (apply State.upPredict_keeps) | (apply State.upSet_keeps) | (apply State.upTake_keeps)
    | (exact ⟨hs.pending, hs.mem, hs.regs, hs.keys⟩) | (intro) | (dsimp only) | (split) | (refine Keeps.upd ?_)

theorem State.memberStart_keeps {z : State} {kf : Bool} (s : State) (hs : z.Keeps kf s) :
    z.Keeps kf (s.memberStart) := by
  unfold State.memberStart
  repeat' with_reducible first
    | (exact hs) | (assumption) | (apply State.scanBegin_keeps) | (apply State.setFld_keeps)
    | (exact ⟨hs.pending, hs.mem, hs.regs, hs.keys⟩) | (intro) | (dsimp only) | (split) | (refine Keeps.upd ?_)

theorem State.memberStop_keeps {z : State} {kf : Bool} (s : State) (hs : z.Keeps kf s) :
    z.Keeps kf (s.memberStop) := by
  unfold State.memberStop
  repeat' with_reducible first
    | (exact hs) | (assumption) | (apply State.setFld_keeps) | (exact ⟨hs.pending, hs.mem, hs.regs, hs.keys⟩)
    | (intro) | (dsimp only) | (split) | (refine Keeps.upd ?_)

theorem State.macWake_keeps {z : State} {kf : Bool} (s : State) (hs : z.Keeps kf s) :
    z.Keeps kf (s.macWake) := by
  unfold State.macWake
  repeat' with_reducible first
    | (exact hs) | (assumption) | (apply State.missed_keeps) | (exact ⟨hs.pending, hs.mem, hs.regs, hs.keys⟩)
    | (intro) | (dsimp only) | (split) | (refine Keeps.upd ?_)

theorem State.nextWrite_keeps {z : State} {kf : Bool} (s : State) (n : Nat) (hs : z.Keeps kf s) :
    z.Keeps kf (s.nextWrite n) := by
  unfold State.nextWrite
  repeat' with_reducible first
    | (exact hs) | (assumption) | (apply State.setFld_keeps) | (exact ⟨hs.pending, hs.mem, hs.regs, hs.keys⟩)
    | (intro) | (dsimp only) | (split) | (refine Keeps.upd ?_)

theorem State.tuneEnd_keeps {z : State} {kf : Bool} (s : State) (id : Nat) (status : Nat) (kase : Nat) (hs : z.Keeps kf s) :
    z.Keeps kf (s.tuneEnd id status kase) := by
  unfold State.tuneEnd
  repeat' with_reducible first
    | (exact hs) | (assumption) | (apply State.opEnd_keeps) | (apply State.status_keeps) | (intro) | (dsimp only)
    | (split)

theorem State.lockReached_keeps {z : State} {kf : Bool} (s : State) (y : Syn) (band : Nat) (hs : z.Keeps kf s) :
    z.Keeps kf (s.lockReached y band) := by
  unfold State.lockReached
  repeat' with_reducible first
    | (exact hs) | (assumption) | (apply State.clearTune_keeps) | (apply State.lockNow_keeps)
    | (apply State.tuneEnd_keeps) | (apply State.txLocked_keeps) | (apply Keeps.foldl) | (apply Keeps.foldl_fst)
    | (intro) | (dsimp only) | (split)

theorem execTuneStart_stays {z : State} {kf : Bool} (y : Syn) (s : State) (hs : z.Keeps kf s) :
    z.Stays kf (execTuneStart y s) := by
  unfold execTuneStart
  repeat' with_reducible first
    | (exact hs) | (assumption) | (apply State.next_keeps) | (apply State.touch_keeps) | (apply State.tuneTry_keeps)
    | (exact trivial) | (apply Keeps.next) | (intro) | (dsimp only) | (split)

theorem execSynthLock_stays {z : State} {kf : Bool} (y : Syn) (band : Nat) (s : State) (hs : z.Keeps kf s) :
    z.Stays kf (execSynthLock y band s) := by
  unfold execSynthLock
  repeat' with_reducible first
    | (exact hs) | (assumption) | (apply State.lockReached_keeps) | (apply State.next_keeps)
    | (apply State.touch_keeps) | (exact trivial) | (apply Keeps.next) | (intro) | (dsimp only) | (split)

theorem State.tuneAgain_keeps {z : State} {kf : Bool} (s : State) (t : Tune) (hs : z.Keeps kf s) :
    z.Keeps kf (s.tuneAgain t) := by
  unfold State.tuneAgain
  repeat' with_reducible first
    | (exact hs) | (assumption) | (apply State.opEnd_keeps) | (apply State.park_keeps)
    | (apply State.powerClaim_keeps) | (apply State.radio_keeps) | (apply State.setOp_keeps)
    | (exact ⟨hs.pending, hs.mem, hs.regs, hs.keys⟩) | (intro) | (dsimp only) | (split) | (refine Keeps.upd ?_)

theorem State.lockFail_keeps {z : State} {kf : Bool} (s : State) (y : Syn) (hs : z.Keeps kf s) :
    z.Keeps kf (s.lockFail y) := by
  unfold State.lockFail
  repeat' with_reducible first
    | (exact hs) | (assumption) | (apply State.fault_keeps) | (apply State.raise_keeps) | (apply State.setSyn_keeps)
    | (apply State.synOff_keeps) | (apply State.tuneAgain_keeps) | (apply State.tuneEnd_keeps)
    | (apply State.txEnd_keeps) | (exact ⟨hs.pending, hs.mem, hs.regs, hs.keys⟩) | (apply Keeps.foldl)
    | (apply Keeps.foldl_fst) | (intro) | (dsimp only) | (split) | (refine Keeps.upd ?_)

theorem execLockTimeout_stays {z : State} {kf : Bool} (y : Syn) (s : State) (hs : z.Keeps kf s) :
    z.Stays kf (execLockTimeout y s) := by
  unfold execLockTimeout
  repeat' with_reducible first
    | (exact hs) | (assumption) | (apply State.lockFail_keeps) | (apply State.moveTo_keeps) | (apply State.next_keeps)
    | (apply State.setSyn_keeps) | (exact trivial) | (apply Keeps.next)
    | (exact ⟨hs.pending, hs.mem, hs.regs, hs.keys⟩) | (intro) | (dsimp only) | (split) | (refine Keeps.upd ?_)

theorem State.synUnlock_keeps {z : State} {kf : Bool} (s : State) (y : Syn) (hs : z.Keeps kf s) :
    z.Keeps kf (s.synUnlock y) := by
  unfold State.synUnlock
  repeat' with_reducible first
    | (exact hs) | (assumption) | (apply State.calBegin_keeps) | (apply State.fault_keeps)
    | (apply State.gapCase_keeps) | (apply State.gapLanes_keeps) | (apply State.raise_keeps)
    | (apply State.txCut_keeps) | (exact ⟨hs.pending, hs.mem, hs.regs, hs.keys⟩) | (intro) | (dsimp only) | (split)
    | (refine Keeps.upd ?_)

theorem execSynthUnlock_stays {z : State} {kf : Bool} (y : Syn) (s : State) (hs : z.Keeps kf s) :
    z.Stays kf (execSynthUnlock y s) := by
  unfold execSynthUnlock
  repeat' with_reducible first
    | (exact hs) | (assumption) | (apply State.next_keeps) | (apply State.synUnlock_keeps) | (apply State.touch_keeps)
    | (exact trivial) | (apply Keeps.next) | (intro) | (dsimp only) | (split)

theorem execSytVcoStart_stays {z : State} {kf : Bool} (s : State) (hs : z.Keeps kf s) :
    z.Stays kf (execSytVcoStart s) := by
  unfold execSytVcoStart
  repeat' with_reducible first
    | (exact hs) | (assumption) | (apply State.calBegin_keeps) | (apply State.next_keeps) | (apply State.touch_keeps)
    | (exact trivial) | (apply Keeps.next) | (exact ⟨hs.pending, hs.mem, hs.regs, hs.keys⟩) | (intro) | (dsimp only)
    | (split) | (refine Keeps.upd ?_)

theorem execCalibrationEnd_stays {z : State} {kf : Bool} (y : CalKind) (band : Nat) (s : State) (hs : z.Keeps kf s) :
    z.Stays kf (execCalibrationEnd y band s) := by
  unfold execCalibrationEnd
  repeat' with_reducible first
    | (exact hs) | (assumption) | (apply State.lockReached_keeps) | (apply State.next_keeps)
    | (apply State.setFld_keeps) | (apply State.touch_keeps) | (exact trivial) | (apply Keeps.next) | (intro)
    | (dsimp only) | (split)

theorem execTempConversionEnd_stays {z : State} {kf : Bool} (raw : Int) (s : State) (hs : z.Keeps kf s) :
    z.Stays kf (execTempConversionEnd raw s) := by
  unfold execTempConversionEnd
  repeat' with_reducible first
    | (exact hs) | (assumption) | (apply State.next_keeps) | (apply State.setFld_keeps) | (apply State.tempTake_keeps)
    | (apply State.touch_keeps) | (exact trivial) | (apply Keeps.next)
    | (exact ⟨hs.pending, hs.mem, hs.regs, hs.keys⟩) | (intro) | (dsimp only) | (split) | (refine Keeps.upd ?_)

theorem State.beaconReady_keeps {z : State} {kf : Bool} (s : State) (id : Nat) (o : RadioOp) (hs : z.Keeps kf s) :
    z.Keeps kf (s.beaconReady id o).1 := by
  unfold State.beaconReady
  repeat' with_reducible first
    | (exact hs) | (assumption) | (apply State.beaconFill_keeps) | (intro) | (dsimp only) | (split)

theorem State.releaseAt_keeps {z : State} {kf : Bool} (s : State) (id : Nat) (o : RadioOp) (hs : z.Keeps kf s) :
    z.Keeps kf (s.releaseAt id o) := by
  unfold State.releaseAt
  repeat' with_reducible first
    | (exact hs) | (assumption) | (apply Fetch.release_keeps) | (apply State.beaconReady_keeps)
    | (apply State.moveTo_keeps) | (apply State.txEnd_keeps) | (apply State.txLate_keeps)
    | (apply State.txStep5_keeps) | (intro) | (dsimp only) | (split)

theorem execTxReleasePoint_stays {z : State} {kf : Bool} (id : Nat) (s : State) (hs : z.Keeps kf s) :
    z.Stays kf (execTxReleasePoint id s) := by
  unfold execTxReleasePoint
  repeat' with_reducible first
    | (exact hs) | (assumption) | (apply Fetch.release_keeps) | (apply State.lbtDecide_keeps)
    | (apply State.moveTo_keeps) | (apply State.next_keeps) | (apply State.releaseAt_keeps)
    | (apply State.touch_keeps) | (apply State.txSealAdd_keeps) | (apply State.txStep5_keeps) | (exact trivial)
    | (apply Keeps.next) | (intro) | (dsimp only) | (split)

theorem execLbtCovered_stays {z : State} {kf : Bool} (id : Nat) (s : State) (hs : z.Keeps kf s) :
    z.Stays kf (execLbtCovered id s) := by
  unfold execLbtCovered
  repeat' with_reducible first
    | (exact hs) | (assumption) | (apply State.lbtDecide_keeps) | (apply State.next_keeps) | (apply State.touch_keeps)
    | (apply State.txStep5_keeps) | (exact trivial) | (apply Keeps.next) | (intro) | (dsimp only) | (split)

theorem execLbtRetry_stays {z : State} {kf : Bool} (id : Nat) (s : State) (hs : z.Keeps kf s) :
    z.Stays kf (execLbtRetry id s) := by
  unfold execLbtRetry
  repeat' with_reducible first
    | (exact hs) | (assumption) | (apply Fetch.release_keeps) | (apply State.moveTo_keeps) | (apply State.next_keeps)
    | (apply State.setOp_keeps) | (apply State.txLate_keeps) | (apply State.txStep5_keeps) | (exact trivial)
    | (apply Keeps.next) | (exact ⟨hs.pending, hs.mem, hs.regs, hs.keys⟩) | (intro) | (dsimp only) | (split)
    | (refine Keeps.upd ?_)

theorem State.paGrantLate_keeps {z : State} {kf : Bool} (s : State) (id : Nat) (o : RadioOp) (hs : z.Keeps kf s) :
    z.Keeps kf (s.paGrantLate id o) := by
  unfold State.paGrantLate
  repeat' with_reducible first
    | (exact hs) | (assumption) | (apply State.paLate_keeps) | (apply State.touch_keeps) | (intro) | (dsimp only)
    | (split)

theorem execPaGrant_stays {z : State} {kf : Bool} (id : Nat) (s : State) (hs : z.Keeps kf s) :
    z.Stays kf (execPaGrant id s) := by
  unfold execPaGrant
  repeat' with_reducible first
    | (exact hs) | (assumption) | (apply State.moveTo_keeps) | (apply State.next_keeps)
    | (apply State.paGrantLate_keeps) | (apply State.paRise_keeps) | (exact trivial) | (apply Keeps.next) | (intro)
    | (dsimp only) | (split)

theorem State.txAfter_keeps {z : State} {kf : Bool} (s : State) (id : Nat) (o : RadioOp) (hs : z.Keeps kf s) :
    z.Keeps kf (s.txAfter id o) := by
  unfold State.txAfter
  repeat' with_reducible first
    | (exact hs) | (assumption) | (apply State.moveTo_keeps) | (apply State.txDone_keeps) | (apply State.txFall_keeps)
    | (apply State.txRamped_keeps) | (intro) | (dsimp only) | (split)

theorem execTxEnd_stays {z : State} {kf : Bool} (id : Nat) (s : State) (hs : z.Keeps kf s) :
    z.Stays kf (execTxEnd id s) := by
  unfold execTxEnd
  repeat' with_reducible first
    | (exact hs) | (assumption) | (apply State.next_keeps) | (apply State.txAfter_keeps) | (exact trivial)
    | (apply Keeps.next) | (intro) | (dsimp only) | (split)

theorem execAckWindowClose_stays {z : State} {kf : Bool} (id : Nat) (s : State) (hs : z.Keeps kf s) :
    z.Stays kf (execAckWindowClose id s) := by
  unfold execAckWindowClose
  repeat' with_reducible first
    | (exact hs) | (assumption) | (apply State.moveTo_keeps) | (apply State.next_keeps) | (apply State.opEnd_keeps)
    | (apply State.setNocov_keeps) | (apply State.setOp_keeps) | (exact trivial) | (apply Keeps.next)
    | (exact ⟨hs.pending, hs.mem, hs.regs, hs.keys⟩) | (intro) | (dsimp only) | (split) | (refine Keeps.upd ?_)

theorem execBucketExpiry_stays {z : State} {kf : Bool} (n : Fin 8) (s : State) (hs : z.Keeps kf s) :
    z.Stays kf (execBucketExpiry n s) := by
  unfold execBucketExpiry
  repeat' with_reducible first
    | (exact hs) | (assumption) | (apply State.moveTo_keeps) | (apply State.next_keeps) | (apply State.setAcct_keeps)
    | (exact trivial) | (apply Keeps.next) | (intro) | (dsimp only) | (split)

theorem execCallCopyEnd_stays {z : State} {kf : Bool} (id : Nat) (s : State) (hs : z.Keeps kf s) :
    z.Stays kf (execCallCopyEnd id s) := by
  unfold execCallCopyEnd
  repeat' with_reducible first
    | (exact hs) | (assumption) | (apply State.charge_keeps) | (apply State.emission_keeps)
    | (apply State.moveTo_keeps) | (apply State.next_keeps) | (apply State.setOp_keeps) | (apply State.txAfter_keeps)
    | (exact trivial) | (apply Keeps.next) | (exact ⟨hs.pending, hs.mem, hs.regs, hs.keys⟩) | (intro) | (dsimp only)
    | (split) | (refine Keeps.upd ?_)

theorem State.readBad_keeps {z : State} {kf : Bool} (s : State) (ws : List Nat) (hs : z.Keeps kf s) :
    z.Keeps kf (s.readBad ws).1 := by
  unfold State.readBad
  repeat' with_reducible first
    | (exact hs) | (assumption) | (apply State.readWord_keeps) | (apply Keeps.foldl) | (apply Keeps.foldl_fst)
    | (intro) | (dsimp only) | (split)

theorem State.walkStep_keeps {z : State} {kf : Bool} (s : State) (v : Walk) (both : Bool) (a : List (Nat × Nat)) (b : List (Nat × Nat)) (g : Nat) (hs : z.Keeps kf s) :
    z.Keeps kf (s.walkStep v both a b g).1 := by
  unfold State.walkStep
  repeat' with_reducible first
    | (exact hs) | (assumption) | (apply State.readBad_keeps) | (exact ⟨hs.pending, hs.mem, hs.regs, hs.keys⟩)
    | (intro) | (dsimp only) | (split) | (refine Keeps.upd ?_)

theorem State.laneHistory_keeps {z : State} {kf : Bool} (s : State) (x : Entry) (c : Chain) (p0 : Nat) (p1 : Nat) (hs : z.Keeps kf s) :
    z.Keeps kf (s.laneHistory x c p0 p1).1 := by
  unfold State.laneHistory
  repeat' with_reducible first
    | (exact hs) | (assumption) | (apply State.walkStep_keeps) | (apply Keeps.foldl) | (apply Keeps.foldl_fst)
    | (intro) | (dsimp only) | (split)

theorem execLaneCatchUp_stays {z : State} {kf : Bool} (l : Nat) (s : State) (hs : z.Keeps kf s) :
    z.Stays kf (execLaneCatchUp l s) := by
  unfold execLaneCatchUp
  repeat' with_reducible first
    | (exact hs) | (assumption) | (apply State.laneHistory_keeps) | (apply State.next_keeps)
    | (apply State.setLane_keeps) | (apply State.touch_keeps) | (exact trivial) | (apply Keeps.next)
    | (exact ⟨hs.pending, hs.mem, hs.regs, hs.keys⟩) | (intro) | (dsimp only) | (split) | (refine Keeps.upd ?_)

theorem execLaneStarved_stays {z : State} {kf : Bool} (l : Nat) (s : State) (hs : z.Keeps kf s) :
    z.Stays kf (execLaneStarved l s) := by
  unfold execLaneStarved
  repeat' with_reducible first
    | (exact hs) | (assumption) | (apply State.laneCut_keeps) | (apply State.next_keeps) | (apply State.touch_keeps)
    | (exact trivial) | (apply Keeps.next) | (intro) | (dsimp only) | (split)

theorem State.partnerUpdate_keeps {z : State} {kf : Bool} (s : State) (r : Rec) (hs : z.Keeps kf s) :
    z.Keeps kf (s.partnerUpdate r) := by
  unfold State.partnerUpdate
  repeat' with_reducible first
    | (exact hs) | (assumption) | (apply State.ptSet_keeps) | (apply State.status_keeps) | (intro) | (dsimp only)
    | (split)

theorem State.autoAck_keeps {z : State} {kf : Bool} (s : State) (x : Entry) (c : Chain) (f : List Byte) (hdr : Nat) (set : Nat) (endAt : Nat) (hs : z.Keeps kf s) :
    z.Keeps kf (s.autoAck x c f hdr set endAt) := by
  unfold State.autoAck
  repeat' with_reducible first
    | (exact hs) | (assumption) | (apply State.addOp_keeps) | (apply State.drawListen_keeps)
    | (apply State.raise_keeps) | (exact ⟨hs.pending, hs.mem, hs.regs, hs.keys⟩) | (intro) | (dsimp only) | (split)
    | (refine Keeps.upd ?_)

theorem State.ackMatch_keeps {z : State} {kf : Bool} (s : State) (x : Entry) (t : Nat) (ok : Bool) (f : List Byte) (hs : z.Keeps kf s) :
    z.Keeps kf (s.ackMatch x t ok f) := by
  unfold State.ackMatch
  repeat' with_reducible first
    | (exact hs) | (assumption) | (apply State.ackAwait_keeps) | (apply State.opEnd_keeps) | (apply Keeps.foldl)
    | (apply Keeps.foldl_fst) | (intro) | (dsimp only) | (split)

theorem State.takeWeak_keeps {z : State} {kf : Bool} (s : State) (e : Nat) (hs : z.Keeps kf s) :
    z.Keeps kf (s.takeWeak e) := by
  unfold State.takeWeak
  repeat' with_reducible first
    | (exact hs) | (assumption) | (apply State.ackAwait_keeps) | (apply State.dropEnt_keeps)
    | (apply State.dropLane_keeps) | (apply State.groupRelease_keeps) | (apply State.releaseFrom_keeps)
    | (exact ⟨hs.pending, hs.mem, hs.regs, hs.keys⟩) | (intro) | (dsimp only) | (split) | (refine Keeps.upd ?_)

theorem State.request_keeps {z : State} {kf : Bool} (s : State) (e : Nat) (x : Entry) (c : Chain) (weak : Option (Entry × Option Rec)) (stop : Nat) (seqno : Nat) (hs : z.Keeps kf s) :
    z.Keeps kf (s.request e x c weak stop seqno) := by
  unfold State.request
  repeat' with_reducible first
    | (exact hs) | (assumption) | (apply State.draw_keeps) | (apply State.incSat_keeps)
    | (apply State.releaseHeld_keeps) | (apply State.takeWeak_keeps) | (exact ⟨hs.pending, hs.mem, hs.regs, hs.keys⟩)
    | (intro) | (dsimp only) | (split) | (refine Keeps.upd ?_)

theorem State.raiseRequest_keeps {z : State} {kf : Bool} (s : State) (e : Nat) (x : Entry) (c : Chain) (o : FrameObs) (status : Nat) (seqno : Nat) (hs : z.Keeps kf s) :
    z.Keeps kf (s.raiseRequest e x c o status seqno) := by
  unfold State.raiseRequest
  repeat' with_reducible first
    | (exact hs) | (assumption) | (apply State.releaseHeld_keeps) | (apply State.request_keeps)
    | (apply State.status_keeps) | (intro) | (dsimp only) | (split)

theorem State.heard_keeps {z : State} {kf : Bool} (s : State) (x : Entry) (c : Chain) (ln : Lane) (o : FrameObs) (set : Nat) (t : Nat) (f : List Byte) (hs : z.Keeps kf s) :
    z.Keeps kf (s.heard x c ln o set t f) := by
  unfold State.heard
  repeat' with_reducible first
    | (exact hs) | (assumption) | (apply State.autoAck_keeps) | (apply State.beaconHear_keeps)
    | (apply State.macHear_keeps) | (intro) | (dsimp only) | (split)

theorem State.frameEnd_keeps {z : State} {kf : Bool} (s : State) (l : Nat) (ln : Lane) (x : Entry) (o : FrameObs) (set : Nat) (t : Nat) (d : Decoded) (hs : z.Keeps kf s) :
    z.Keeps kf (s.frameEnd l ln x o set t d) := by
  unfold State.frameEnd
  repeat' with_reducible first
    | (exact hs) | (assumption) | (apply State.ackMatch_keeps) | (apply State.countFrame_keeps)
    | (apply State.draw_keeps) | (apply State.heard_keeps) | (apply State.laneFree_keeps)
    | (apply State.outcome_keeps) | (apply State.partnerUpdate_keeps) | (apply State.raiseRequest_keeps)
    | (apply State.status_keeps) | (intro) | (dsimp only) | (split)

theorem State.laneAtEnd_keeps {z : State} {kf : Bool} (s : State) (ln : Lane) (x : Entry) (o : FrameObs) (hs : z.Keeps kf s) :
    z.Keeps kf (s.laneAtEnd ln x o).1 := by
  unfold State.laneAtEnd
  repeat' with_reducible first
    | (exact hs) | (assumption) | (apply State.laneHistory_keeps) | (apply State.lanePick_keeps)
    | (exact ⟨hs.pending, hs.mem, hs.regs, hs.keys⟩) | (intro) | (dsimp only) | (split) | (refine Keeps.upd ?_)

theorem execLaneFrameEnd_stays {z : State} {kf : Bool} (l : Nat) (o : FrameObs) (s : State) (hs : z.Keeps kf s) :
    z.Stays kf (execLaneFrameEnd l o s) := by
  unfold execLaneFrameEnd
  repeat' with_reducible first
    | (exact hs) | (assumption) | (apply State.ackAwait_keeps) | (apply State.draw_keeps)
    | (apply State.frameEnd_keeps) | (apply State.incSat_keeps) | (apply State.laneAtEnd_keeps)
    | (apply State.laneFree_keeps) | (apply State.next_keeps) | (apply State.releaseHeld_keeps)
    | (apply State.touch_keeps) | (exact trivial) | (apply Keeps.next) | (intro) | (dsimp only) | (split)

theorem State.copyHistory_keeps {z : State} {kf : Bool} (s : State) (n : Nat) (q : Recov) (hs : z.Keeps kf s) :
    z.Keeps kf (s.copyHistory n q) := by
  unfold State.copyHistory
  repeat' with_reducible first
    | (exact hs) | (assumption) | (apply State.readBad_keeps) | (apply State.store_keeps) | (apply Keeps.foldl)
    | (apply Keeps.foldl_fst) | (intro) | (dsimp only) | (split)

theorem execRecoverySlotStart_stays {z : State} {kf : Bool} (slot : Nat) (s : State) (hs : z.Keeps kf s) :
    z.Stays kf (execRecoverySlotStart slot s) := by
  unfold execRecoverySlotStart
  repeat' with_reducible first
    | (exact hs) | (assumption) | (apply State.copyHistory_keeps) | (apply State.next_keeps)
    | (apply State.setRslot_keeps) | (apply State.touch_keeps) | (exact trivial) | (apply Keeps.next)
    | (exact ⟨hs.pending, hs.mem, hs.regs, hs.keys⟩) | (intro) | (dsimp only) | (split) | (refine Keeps.upd ?_)

theorem State.residual_keeps {z : State} {kf : Bool} (s : State) (n : Nat) (q : Recov) (hs : z.Keeps kf s) :
    z.Keeps kf (s.residual n q) := by
  unfold State.residual
  repeat' with_reducible first
    | (exact hs) | (assumption) | (apply State.draw_keeps) | (apply State.store_keeps) | (intro) | (dsimp only)
    | (split)

theorem execRecoveryEntry_stays {z : State} {kf : Bool} (slot : Nat) (det : Option Cand) (s : State) (hs : z.Keeps kf s) :
    z.Stays kf (execRecoveryEntry slot det s) := by
  unfold execRecoveryEntry
  repeat' with_reducible first
    | (exact hs) | (assumption) | (apply State.next_keeps) | (apply State.recovDone_keeps)
    | (apply State.residual_keeps) | (apply State.setEnt_keeps) | (apply State.setRslot_keeps)
    | (apply State.touch_keeps) | (exact trivial) | (apply Keeps.next)
    | (exact ⟨hs.pending, hs.mem, hs.regs, hs.keys⟩) | (intro) | (dsimp only) | (split) | (refine Keeps.upd ?_)

theorem execRecoveryRequestDropped_stays {z : State} {kf : Bool} (r : Nat) (s : State) (hs : z.Keeps kf s) :
    z.Stays kf (execRecoveryRequestDropped r s) := by
  unfold execRecoveryRequestDropped
  repeat' with_reducible first
    | (exact hs) | (assumption) | (apply State.fallback_keeps) | (apply State.incSat_keeps) | (apply State.next_keeps)
    | (apply State.touch_keeps) | (exact trivial) | (apply Keeps.next)
    | (exact ⟨hs.pending, hs.mem, hs.regs, hs.keys⟩) | (intro) | (dsimp only) | (split) | (refine Keeps.upd ?_)

theorem State.setRec_keeps {z : State} {kf : Bool} (s : State) (r : Nat) (o : Nat) (n : Nat) (v : Nat) (hs : z.Keeps kf s) :
    z.Keeps kf (s.setRec r o n v) := by
  unfold State.setRec
  repeat' with_reducible first
    | (exact hs) | (assumption) | (apply State.storeNum_keeps) | (intro) | (dsimp only) | (split)

theorem State.setTxn_keeps {z : State} {kf : Bool} (s : State) (x : Nat) (o : Nat) (n : Nat) (v : Nat) (hs : z.Keeps kf s) :
    z.Keeps kf (s.setTxn x o n v) := by
  unfold State.setTxn
  repeat' with_reducible first
    | (exact hs) | (assumption) | (apply State.storeNum_keeps) | (intro) | (dsimp only) | (split)

theorem State.msgCount_keeps {z : State} {kf : Bool} (s : State) (o : Nat) (hs : z.Keeps kf s) :
    z.Keeps kf (s.msgCount o) := by
  unfold State.msgCount
  repeat' with_reducible first
    | (exact hs) | (assumption) | (apply State.storeNum_keeps) | (intro) | (dsimp only) | (split)

theorem State.notify_keeps {z : State} {kf : Bool} (s : State) (x : Nat) (status : Nat) (retry : Nat) (hs : z.Keeps kf s) :
    z.Keeps kf (s.notify x status retry) := by
  unfold State.notify
  repeat' with_reducible first
    | (exact hs) | (assumption) | (apply State.signalTxn_keeps) | (apply State.status_keeps) | (intro) | (dsimp only)
    | (split)

theorem State.txnEnd_keeps {z : State} {kf : Bool} (s : State) (x : Nat) (status : Nat) (hs : z.Keeps kf s) :
    z.Keeps kf (s.txnEnd x status) := by
  unfold State.txnEnd
  repeat' with_reducible first
    | (exact hs) | (assumption) | (apply State.notify_keeps) | (apply State.setTxn_keeps) | (apply State.status_keeps)
    | (intro) | (dsimp only) | (split)

theorem State.deliverRec_keeps {z : State} {kf : Bool} (s : State) (r : Nat) (st : Nat) (status : Nat) (hs : z.Keeps kf s) :
    z.Keeps kf (s.deliverRec r st status) := by
  unfold State.deliverRec
  repeat' with_reducible first
    | (exact hs) | (assumption) | (apply State.post_keeps) | (apply State.setRec_keeps)
    | (apply State.signalMsg_keeps) | (apply State.status_keeps) | (intro) | (dsimp only) | (split)

theorem State.recFail_keeps {z : State} {kf : Bool} (s : State) (r : Nat) (status : Nat) (hs : z.Keeps kf s) :
    z.Keeps kf (s.recFail r status) := by
  unfold State.recFail
  repeat' with_reducible first
    | (exact hs) | (assumption) | (apply State.deliverRec_keeps) | (apply State.status_keeps) | (intro) | (dsimp only)
    | (split)

theorem State.examineRec_keeps {z : State} {kf : Bool} (s : State) (r : Nat) (hs : z.Keeps kf s) :
    z.Keeps kf (s.examineRec r) := by
  unfold State.examineRec
  repeat' with_reducible first
    | (exact hs) | (assumption) | (apply State.msgCount_keeps) | (apply State.recFail_keeps) | (intro) | (dsimp only)
    | (split)

theorem State.examineWait_keeps {z : State} {kf : Bool} (s : State) (x : Nat) (hs : z.Keeps kf s) :
    z.Keeps kf (s.examineWait x) := by
  unfold State.examineWait
  repeat' with_reducible first
    | (exact hs) | (assumption) | (apply State.draw_keeps) | (apply State.msgCount_keeps) | (apply State.notify_keeps)
    | (apply State.setTxn_keeps) | (apply State.txnEnd_keeps) | (intro) | (dsimp only) | (split)

theorem State.examineTxn_keeps {z : State} {kf : Bool} (s : State) (x : Nat) (hs : z.Keeps kf s) :
    z.Keeps kf (s.examineTxn x) := by
  unfold State.examineTxn
  repeat' with_reducible first
    | (exact hs) | (assumption) | (apply State.examineWait_keeps) | (apply State.setTxn_keeps) | (intro)
    | (dsimp only) | (split)

theorem State.houseTrap_keeps {z : State} {kf : Bool} (s : State) (cause : Nat) (hs : z.Keeps kf s) :
    z.Keeps kf (s.houseTrap cause) := by
  unfold State.houseTrap
  repeat' with_reducible first
    | (exact hs) | (assumption) | (apply State.draw_keeps) | (apply State.fault_keeps) | (apply State.raise_keeps)
    | (apply State.setFld_keeps) | (apply State.trap_keeps) | (intro) | (dsimp only) | (split)

theorem State.houseParity_keeps {z : State} {kf : Bool} (s : State) (a : Nat) (parity : ParityHit) (hs : z.Keeps kf s) :
    z.Keeps kf (s.houseParity a parity) := by
  unfold State.houseParity
  repeat' with_reducible first
    | (exact hs) | (assumption) | (apply State.houseTrap_keeps) | (apply State.parityErr_keeps)
    | (apply State.readParity_keeps) | (intro) | (dsimp only) | (split)

theorem State.examineOne_keeps {z : State} {kf : Bool} (s : State) (i : Nat) (hs : z.Keeps kf s) :
    z.Keeps kf (s.examineOne i).1 := by
  unfold State.examineOne
  repeat' with_reducible first
    | (exact hs) | (assumption) | (apply State.examineRec_keeps) | (apply State.examineTxn_keeps)
    | (apply State.houseTrap_keeps) | (apply State.readSpan_keeps) | (intro) | (dsimp only) | (split)

theorem State.examineAll_keeps {z : State} {kf : Bool} (s : State) (parity : ParityHit) (hs : z.Keeps kf s) :
    z.Keeps kf (s.examineAll parity) := by
  unfold State.examineAll
  repeat' with_reducible first
    | (exact hs) | (assumption) | (apply State.draw_keeps) | (apply State.examineOne_keeps)
    | (apply State.houseParity_keeps) | (apply Keeps.foldl) | (apply Keeps.foldl_fst) | (intro) | (dsimp only)
    | (split)

theorem State.wakeJudge_keeps {z : State} {kf : Bool} (s : State) (hs : z.Keeps kf s) :
    z.Keeps kf (s.wakeJudge) := by
  unfold State.wakeJudge
  repeat' with_reducible first
    | (exact hs) | (assumption) | (apply State.examineAll_keeps) | (apply State.macWake_keeps)
    | (exact ⟨hs.pending, hs.mem, hs.regs, hs.keys⟩) | (intro) | (dsimp only) | (split) | (refine Keeps.upd ?_)

theorem State.slotLost_keeps {z : State} {kf : Bool} (s : State) (n : Nat) (q : Recov) (hs : z.Keeps kf s) :
    z.Keeps kf (s.slotLost n q) := by
  unfold State.slotLost
  repeat' with_reducible first
    | (exact hs) | (assumption) | (apply State.dropEnt_keeps) | (apply State.fallback_keeps)
    | (apply State.radioLost_keeps) | (apply State.recovDone_keeps) | (apply Keeps.foldl) | (apply Keeps.foldl_fst)
    | (intro) | (dsimp only) | (split)

theorem State.reqLost_keeps {z : State} {kf : Bool} (s : State) (q : Recov) (hs : z.Keeps kf s) :
    z.Keeps kf (s.reqLost q) := by
  unfold State.reqLost
  repeat' with_reducible first
    | (exact hs) | (assumption) | (apply State.fallback_keeps) | (apply State.incSat_keeps) | (intro) | (dsimp only)
    | (split)

theorem State.opsLost_keeps {z : State} {kf : Bool} (s : State) (hs : z.Keeps kf s) :
    z.Keeps kf (s.opsLost) := by
  unfold State.opsLost
  repeat' with_reducible first
    | (exact hs) | (assumption) | (apply State.radioLost_keeps) | (apply State.txCut_keeps) | (apply Keeps.foldl)
    | (apply Keeps.foldl_fst) | (intro) | (dsimp only) | (split)

theorem State.radioLost_keeps {z : State} {kf : Bool} (s : State) (hs : z.Keeps kf s) :
    z.Keeps kf (s.radioLost) := by
  unfold State.radioLost
  repeat' with_reducible first
    | (exact hs) | (assumption) | (apply State.laneCut_keeps) | (apply State.opsLost_keeps)
    | (apply State.reqLost_keeps) | (apply State.slotLost_keeps) | (exact ⟨hs.pending, hs.mem, hs.regs, hs.keys⟩)
    | (apply Keeps.foldl) | (apply Keeps.foldl_fst) | (intro) | (dsimp only) | (split) | (refine Keeps.upd ?_)

theorem State.keepSearch_keeps {z : State} {kf : Bool} (s : State) (x : Mult) (hs : z.Keeps kf s) :
    z.Keeps kf (s.keepSearch x) := by
  unfold State.keepSearch
  repeat' with_reducible first
    | (exact hs) | (assumption) | (apply State.setFld_keeps) | (intro) | (dsimp only) | (split)

theorem State.muteOne_keeps {z : State} {kf : Bool} (s : State) (x : Mult) (hs : z.Keeps kf s) :
    z.Keeps kf (s.muteOne x) := by
  unfold State.muteOne
  repeat' with_reducible first
    | (exact hs) | (assumption) | (apply State.keepSearch_keeps) | (apply State.radioLost_keeps)
    | (apply State.setMult_keeps) | (exact ⟨hs.pending, hs.mem, hs.regs, hs.keys⟩) | (intro) | (dsimp only) | (split)
    | (refine Keeps.upd ?_)

theorem State.noSubst_keeps {z : State} {kf : Bool} (s : State) (x : Mult) (hs : z.Keeps kf s) :
    z.Keeps kf (s.noSubst x) := by
  unfold State.noSubst
  repeat' with_reducible first
    | (exact hs) | (assumption) | (apply State.setFld_keeps) | (intro) | (dsimp only) | (split)

theorem State.cmrFault_keeps {z : State} {kf : Bool} (s : State) (kind : Nat) (n : Nat) (hs : z.Keeps kf s) :
    z.Keeps kf (s.cmrFault kind n) := by
  unfold State.cmrFault
  repeat' with_reducible first
    | (exact hs) | (assumption) | (apply State.fault_keeps) | (apply State.radioLost_keeps)
    | (exact ⟨hs.pending, hs.mem, hs.regs, hs.keys⟩) | (intro) | (dsimp only) | (split) | (refine Keeps.upd ?_)

theorem State.lossOne_keeps {z : State} {kf : Bool} (s : State) (x : Mult) (hs : z.Keeps kf s) :
    z.Keeps kf (s.lossOne x) := by
  unfold State.lossOne
  repeat' with_reducible first
    | (exact hs) | (assumption) | (apply State.cmrFault_keeps) | (apply State.fault_keeps)
    | (apply State.muteOne_keeps) | (apply State.noSubst_keeps) | (apply State.raise_keeps) | (intro) | (dsimp only)
    | (split)

theorem State.cmcFollows_keeps {z : State} {kf : Bool} (s : State) (hs : z.Keeps kf s) :
    z.Keeps kf (s.cmcFollows) := by
  unfold State.cmcFollows
  repeat' with_reducible first
    | (exact hs) | (assumption) | (apply State.lossOne_keeps) | (intro) | (dsimp only) | (split)

theorem State.mute_keeps {z : State} {kf : Bool} (s : State) (x : Mult) (hs : z.Keeps kf s) :
    z.Keeps kf (s.mute x) := by
  unfold State.mute
  repeat' with_reducible first
    | (exact hs) | (assumption) | (apply State.cmcFollows_keeps) | (apply State.muteOne_keeps) | (intro)
    | (dsimp only) | (split)

theorem State.refLoss_keeps {z : State} {kf : Bool} (s : State) (x : Mult) (hs : z.Keeps kf s) :
    z.Keeps kf (s.refLoss x) := by
  unfold State.refLoss
  repeat' with_reducible first
    | (exact hs) | (assumption) | (apply State.cmcFollows_keeps) | (apply State.lossOne_keeps) | (intro)
    | (dsimp only) | (split)

theorem State.multOff_keeps {z : State} {kf : Bool} (s : State) (x : Mult) (hs : z.Keeps kf s) :
    z.Keeps kf (s.multOff x) := by
  unfold State.multOff
  repeat' with_reducible first
    | (exact hs) | (assumption) | (apply State.mute_keeps) | (apply State.noSubst_keeps) | (apply State.setFld_keeps)
    | (apply State.setMult_keeps) | (exact ⟨hs.pending, hs.mem, hs.regs, hs.keys⟩) | (intro) | (dsimp only) | (split)
    | (refine Keeps.upd ?_)

theorem State.cmrComplete_keeps {z : State} {kf : Bool} (s : State) (hs : z.Keeps kf s) :
    z.Keeps kf (s.cmrComplete) := by
  unfold State.cmrComplete
  repeat' with_reducible first
    | (exact hs) | (assumption) | (apply State.storeNum_keeps) | (exact ⟨hs.pending, hs.mem, hs.regs, hs.keys⟩)
    | (intro) | (dsimp only) | (split) | (refine Keeps.upd ?_)

theorem execLockSequenceStart_stays {z : State} {kf : Bool} (x : Mult) (s : State) (hs : z.Keeps kf s) :
    z.Stays kf (execLockSequenceStart x s) := by
  unfold execLockSequenceStart
  repeat' with_reducible first
    | (exact hs) | (assumption) | (apply State.draw_keeps) | (apply State.next_keeps) | (apply State.setFld_keeps)
    | (apply State.setMult_keeps) | (apply State.settle_keeps) | (apply State.touch_keeps) | (exact trivial)
    | (apply Keeps.next) | (exact ⟨hs.pending, hs.mem, hs.regs, hs.keys⟩) | (intro) | (dsimp only) | (split)
    | (refine Keeps.upd ?_)

theorem State.lockNowMult_keeps {z : State} {kf : Bool} (s : State) (x : Mult) (hs : z.Keeps kf s) :
    z.Keeps kf (s.lockNowMult x) := by
  unfold State.lockNowMult
  repeat' with_reducible first
    | (exact hs) | (assumption) | (apply State.cmrComplete_keeps) | (apply State.gapCase_keeps)
    | (apply State.setFld_keeps) | (apply State.setMult_keeps) | (apply State.skipPositions_keeps)
    | (apply State.wakeJudge_keeps) | (exact ⟨hs.pending, hs.mem, hs.regs, hs.keys⟩) | (intro) | (dsimp only)
    | (split) | (refine Keeps.upd ?_)

theorem execLockDeclared_stays {z : State} {kf : Bool} (x : Mult) (band : Nat) (count : Nat) (s : State) (hs : z.Keeps kf s) :
    z.Stays kf (execLockDeclared x band count s) := by
  unfold execLockDeclared
  repeat' with_reducible first
    | (exact hs) | (assumption) | (apply State.draw_keeps) | (apply State.lockNowMult_keeps)
    | (apply State.moveTo_keeps) | (apply State.next_keeps) | (apply State.setFld_keeps) | (apply State.settle_keeps)
    | (exact trivial) | (apply Keeps.next) | (intro) | (dsimp only) | (split)

theorem State.attemptFail_keeps {z : State} {kf : Bool} (s : State) (x : Mult) (hs : z.Keeps kf s) :
    z.Keeps kf (s.attemptFail x) := by
  unfold State.attemptFail
  repeat' with_reducible first
    | (exact hs) | (assumption) | (apply State.draw_keeps) | (apply State.fault_keeps) | (apply State.radioLost_keeps)
    | (apply State.raise_keeps) | (apply State.setFld_keeps) | (apply State.setMult_keeps)
    | (apply State.wakeJudge_keeps) | (exact ⟨hs.pending, hs.mem, hs.regs, hs.keys⟩) | (intro) | (dsimp only)
    | (split) | (refine Keeps.upd ?_)

theorem execLockAttemptFail_stays {z : State} {kf : Bool} (x : Mult) (s : State) (hs : z.Keeps kf s) :
    z.Stays kf (execLockAttemptFail x s) := by
  unfold execLockAttemptFail
  repeat' with_reducible first
    | (exact hs) | (assumption) | (apply State.attemptFail_keeps) | (apply State.moveTo_keeps)
    | (apply State.next_keeps) | (apply State.touch_keeps) | (exact trivial) | (apply Keeps.next) | (intro)
    | (dsimp only) | (split)

theorem execLossOfLock_stays {z : State} {kf : Bool} (x : Mult) (s : State) (hs : z.Keeps kf s) :
    z.Stays kf (execLossOfLock x s) := by
  unfold execLossOfLock
  repeat' with_reducible first
    | (exact hs) | (assumption) | (apply State.cmrFault_keeps) | (apply State.draw_keeps) | (apply State.fault_keeps)
    | (apply State.mute_keeps) | (apply State.next_keeps) | (apply State.noSubst_keeps) | (apply State.raise_keeps)
    | (apply State.setFld_keeps) | (apply State.touch_keeps) | (exact trivial) | (apply Keeps.next) | (intro)
    | (dsimp only) | (split)

theorem execLossOfReference_stays {z : State} {kf : Bool} (x : Mult) (s : State) (hs : z.Keeps kf s) :
    z.Stays kf (execLossOfReference x s) := by
  unfold execLossOfReference
  repeat' with_reducible first
    | (exact hs) | (assumption) | (apply State.next_keeps) | (apply State.refLoss_keeps) | (apply State.setFld_keeps)
    | (apply State.synUnlock_keeps) | (apply State.touch_keeps) | (exact trivial) | (apply Keeps.next)
    | (apply Keeps.foldl) | (apply Keeps.foldl_fst) | (intro) | (dsimp only) | (split)

theorem execTcxoPresent_stays {z : State} {kf : Bool} (s : State) (hs : z.Keeps kf s) :
    z.Stays kf (execTcxoPresent s) := by
  unfold execTcxoPresent
  repeat' with_reducible first
    | (exact hs) | (assumption) | (apply State.moveTo_keeps) | (apply State.next_keeps) | (apply State.setFld_keeps)
    | (apply State.synRef_keeps) | (apply State.touch_keeps) | (exact trivial) | (apply Keeps.next) | (intro)
    | (dsimp only) | (split)

theorem execXo32Present_stays {z : State} {kf : Bool} (s : State) (hs : z.Keeps kf s) :
    z.Stays kf (execXo32Present s) := by
  unfold execXo32Present
  repeat' with_reducible first
    | (exact hs) | (assumption) | (apply State.next_keeps) | (apply State.setFld_keeps) | (apply State.touch_keeps)
    | (exact trivial) | (apply Keeps.next) | (exact ⟨hs.pending, hs.mem, hs.regs, hs.keys⟩) | (intro) | (dsimp only)
    | (split) | (refine Keeps.upd ?_)

theorem execFboMeasure_stays {z : State} {kf : Bool} (count : Nat) (s : State) (hs : z.Keeps kf s) :
    z.Stays kf (execFboMeasure count s) := by
  unfold execFboMeasure
  repeat' with_reducible first
    | (exact hs) | (assumption) | (apply State.next_keeps) | (apply State.setFld_keeps) | (apply State.touch_keeps)
    | (exact trivial) | (apply Keeps.next) | (intro) | (dsimp only) | (split)

theorem State.relock_keeps {z : State} {kf : Bool} (s : State) (x : Mult) (hs : z.Keeps kf s) :
    z.Keeps kf (s.relock x) := by
  unfold State.relock
  repeat' with_reducible first
    | (exact hs) | (assumption) | (apply State.mute_keeps) | (apply State.noSubst_keeps) | (apply State.setFld_keeps)
    | (apply State.setMult_keeps) | (exact ⟨hs.pending, hs.mem, hs.regs, hs.keys⟩) | (intro) | (dsimp only) | (split)
    | (refine Keeps.upd ?_)

theorem State.coreBypChanged_keeps {z : State} {kf : Bool} (s : State) (hs : z.Keeps kf s) :
    z.Keeps kf (s.coreBypChanged) := by
  unfold State.coreBypChanged
  repeat' with_reducible first
    | (exact hs) | (assumption) | (apply State.keepSearch_keeps) | (apply State.noSubst_keeps)
    | (apply State.setFld_keeps) | (apply State.wakeJudge_keeps) | (exact ⟨hs.pending, hs.mem, hs.regs, hs.keys⟩)
    | (intro) | (dsimp only) | (split) | (refine Keeps.upd ?_)

theorem State.cmrJudge_keeps {z : State} {kf : Bool} (s : State) (hs : z.Keeps kf s) :
    z.Keeps kf (s.cmrJudge) := by
  unfold State.cmrJudge
  repeat' with_reducible first
    | (exact hs) | (assumption) | (apply State.multOff_keeps) | (apply State.synOff_keeps)
    | (apply State.tcxoJudge_keeps) | (apply State.wakeJudge_keeps) | (exact ⟨hs.pending, hs.mem, hs.regs, hs.keys⟩)
    | (apply Keeps.foldl) | (apply Keeps.foldl_fst) | (intro) | (dsimp only) | (split) | (refine Keeps.upd ?_)

theorem State.regsReset_keeps {z : State} {kf : Bool} (s : State) (keep : Nat → Bool) (hs : z.Keeps kf s) :
    z.Keeps kf (s.regsReset keep) := by
  unfold State.regsReset
  refine Keeps.foldl (fun r f hr => ?_) ⟨hs.pending, hs.mem, fun h => Tab.wf_filter _ _ _ (hs.regs h), hs.keys⟩
  split
  · exact hr
  · exact State.setFld_keeps _ _ _ hr

theorem State.slotsReset_keeps {z : State} {kf : Bool} (s : State) (hs : z.Keeps kf s) :
    z.Keeps kf (s.slotsReset) := by
  unfold State.slotsReset
  repeat' with_reducible first
    | (exact hs) | (assumption) | (exact ⟨hs.pending, hs.mem, hs.regs, hs.keys⟩) | (intro) | (dsimp only) | (split)
    | (refine Keeps.upd ?_)

theorem State.cutAll_keeps {z : State} {kf : Bool} (s : State) (hs : z.Keeps kf s) :
    z.Keeps kf (s.cutAll) := by
  unfold State.cutAll
  repeat' with_reducible first
    | (exact hs) | (assumption) | (apply State.txCut_keeps) | (apply Keeps.foldl) | (apply Keeps.foldl_fst) | (intro)
    | (dsimp only) | (split)

theorem State.workReset_keeps {z : State} (s : State) (keep : Nat → Bool) (hs : z.Keeps false s) :
    z.Keeps false (s.workReset keep) := by
  unfold State.workReset
  repeat' with_reducible first
    | (exact hs) | (assumption) | (exact ⟨hs.pending, hs.mem, hs.regs, nofun⟩) | (intro) | (dsimp only) | (split)
    | (refine Keeps.updKeys ?_)

theorem State.claimsReset_keeps {z : State} {kf : Bool} (s : State) (hs : z.Keeps kf s) :
    z.Keeps kf (s.claimsReset) := by
  unfold State.claimsReset
  repeat' with_reducible first
    | (exact hs) | (assumption) | (apply State.granted_keeps) | (exact ⟨hs.pending, hs.mem, hs.regs, hs.keys⟩)
    | (intro) | (dsimp only) | (split) | (refine Keeps.upd ?_)

theorem State.msgOff_keeps {z : State} {kf : Bool} (s : State) (hs : z.Keeps kf s) :
    z.Keeps kf (s.msgOff) := by
  unfold State.msgOff
  repeat' with_reducible first
    | (exact hs) | (assumption) | (apply State.storeNum_keeps) | (intro) | (dsimp only) | (split)

theorem State.multRestart_keeps {z : State} {kf : Bool} (s : State) (x : Mult) (hs : z.Keeps kf s) :
    z.Keeps kf (s.multRestart x) := by
  unfold State.multRestart
  repeat' with_reducible first
    | (exact hs) | (assumption) | (apply State.setFld_keeps) | (apply State.setMult_keeps)
    | (exact ⟨hs.pending, hs.mem, hs.regs, hs.keys⟩) | (intro) | (dsimp only) | (split) | (refine Keeps.upd ?_)

theorem State.selectsBack_keeps {z : State} {kf : Bool} (s : State) (old : State) (hs : z.Keeps kf s) :
    z.Keeps kf (s.selectsBack old) := by
  unfold State.selectsBack
  repeat' with_reducible first
    | (exact hs) | (assumption) | (apply State.applyPin_keeps) | (apply Keeps.foldl) | (apply Keeps.foldl_fst)
    | (intro) | (dsimp only) | (split)

theorem State.lineJudge_keeps {z : State} {kf : Bool} (s : State) (hs : z.Keeps kf s) :
    z.Keeps kf (s.lineJudge) := by
  unfold State.lineJudge
  repeat' with_reducible first
    | (exact hs) | (assumption) | (apply State.setFld_keeps) | (exact ⟨hs.pending, hs.mem, hs.regs, hs.keys⟩)
    | (intro) | (dsimp only) | (split) | (refine Keeps.upd ?_)

theorem State.softReset_keeps {z : State} (s : State) (hs : z.Keeps false s) :
    z.Keeps false (s.softReset) := by
  unfold State.softReset
  repeat' with_reducible first
    | (exact hs) | (assumption) | (apply State.claimsReset_keeps) | (apply State.cutAll_keeps)
    | (apply State.incMod_keeps) | (apply State.leaveIdle_keeps) | (apply State.lineJudge_keeps)
    | (apply State.msgOff_keeps) | (apply State.multRestart_keeps) | (apply State.regsReset_keeps)
    | (apply State.selectsBack_keeps) | (apply State.slotsReset_keeps) | (apply State.tcxoJudge_keeps)
    | (apply State.workReset_keeps) | (exact ⟨hs.pending, hs.mem, hs.regs, nofun⟩) | (intro) | (dsimp only) | (split)
    | (refine Keeps.updKeys ?_)

theorem execIdleEntry_stays {z : State} {kf : Bool} (s : State) (hs : z.Keeps kf s) :
    z.Stays kf (execIdleEntry s) := by
  unfold execIdleEntry
  repeat' with_reducible first
    | (exact hs) | (assumption) | (apply State.next_keeps) | (apply State.touch_keeps) | (exact trivial)
    | (apply Keeps.next) | (exact ⟨hs.pending, hs.mem, hs.regs, hs.keys⟩) | (intro) | (dsimp only) | (split)
    | (refine Keeps.upd ?_)

theorem State.radioSleep_keeps {z : State} {kf : Bool} (s : State) (deep : Bool) (hs : z.Keeps kf s) :
    z.Keeps kf (s.radioSleep deep) := by
  unfold State.radioSleep
  repeat' with_reducible first
    | (exact hs) | (assumption) | (apply State.granted_keeps) | (apply State.multOff_keeps)
    | (apply State.setFld_keeps) | (apply State.synOff_keeps) | (apply State.tcxoJudge_keeps)
    | (exact ⟨hs.pending, hs.mem, hs.regs, hs.keys⟩) | (apply Keeps.foldl) | (apply Keeps.foldl_fst) | (intro)
    | (dsimp only) | (split) | (refine Keeps.upd ?_)

theorem State.launchersDeep_keeps {z : State} {kf : Bool} (s : State) (hs : z.Keeps kf s) :
    z.Keeps kf (s.launchersDeep) := by
  unfold State.launchersDeep
  repeat' with_reducible first
    | (exact hs) | (assumption) | (apply State.lnOff_keeps) | (apply Keeps.foldl) | (apply Keeps.foldl_fst) | (intro)
    | (dsimp only) | (split)

theorem State.gpSleep_keeps {z : State} {kf : Bool} (s : State) (deep : Bool) (hs : z.Keeps kf s) :
    z.Keeps kf (s.gpSleep deep) := by
  unfold State.gpSleep
  repeat' with_reducible first
    | (exact hs) | (assumption) | (exact ⟨hs.pending, hs.mem, hs.regs, hs.keys⟩) | (intro) | (dsimp only) | (split)
    | (refine Keeps.upd ?_)

theorem State.enterSleep_keeps {z : State} (s : State) (deep : Bool) (hs : z.Keeps false s) :
    z.Keeps false (s.enterSleep deep) := by
  unfold State.enterSleep
  repeat' with_reducible first
    | (exact hs) | (assumption) | (apply State.clearBank_keeps) | (apply State.gpSleep_keeps)
    | (apply State.heard_keeps) | (apply State.launchersDeep_keeps) | (apply State.radioSleep_keeps)
    | (apply State.workReset_keeps) | (exact ⟨hs.pending, hs.mem, hs.regs, nofun⟩) | (apply Keeps.foldl)
    | (apply Keeps.foldl_fst) | (intro) | (dsimp only) | (split) | (refine Keeps.updKeys ?_)

theorem State.cold_keeps {z : State} (s : State) (st : PwrSt) (hs : z.Keeps false s) : z.Keeps false (s.cold st) :=
  ⟨hs.pending, fun _ => rfl, fun _ => rfl, nofun⟩

theorem State.enter_keeps {z : State} (s : State) (req : Nat) (hs : z.Keeps false s) :
    z.Keeps false (s.enter req) := by
  unfold State.enter
  repeat' with_reducible first
    | (exact hs) | (assumption) | (apply State.cold_keeps) | (apply State.enterSleep_keeps) | (intro) | (dsimp only)
    | (split)

theorem execQuietPoint_stays {z : State} (s : State) (hs : z.Keeps false s) :
    z.Stays false (execQuietPoint s) := by
  unfold execQuietPoint
  repeat' with_reducible first
    | (exact hs) | (assumption) | (apply State.enter_keeps) | (apply State.next_keeps) | (apply State.touch_keeps)
    | (exact trivial) | (apply Keeps.next) | (intro) | (dsimp only) | (split)

theorem execGraceExpiry_stays {z : State} (s : State) (hs : z.Keeps false s) :
    z.Stays false (execGraceExpiry s) := by
  unfold execGraceExpiry
  repeat' with_reducible first
    | (exact hs) | (assumption) | (apply State.cold_keeps) | (apply State.moveTo_keeps) | (apply State.next_keeps)
    | (apply State.raise_keeps) | (exact trivial) | (apply Keeps.next) | (exact ⟨hs.pending, hs.mem, hs.regs, nofun⟩)
    | (intro) | (dsimp only) | (split) | (refine Keeps.updKeys ?_)

theorem State.wakeRecord_keeps {z : State} {kf : Bool} (s : State) (code : Nat) (tick : Nat) (hs : z.Keeps kf s) :
    z.Keeps kf (s.wakeRecord code tick) := by
  unfold State.wakeRecord
  repeat' with_reducible first
    | (exact hs) | (assumption) | (apply State.incMod_keeps) | (apply State.setFld_keeps) | (intro) | (dsimp only)
    | (split)

theorem State.wakeAlso_keeps {z : State} {kf : Bool} (s : State) (code : Nat) (hs : z.Keeps kf s) :
    z.Keeps kf (s.wakeAlso code) := by
  unfold State.wakeAlso
  repeat' with_reducible first
    | (exact hs) | (assumption) | (apply State.setFld_keeps) | (intro) | (dsimp only) | (split)

theorem State.wakeStart_keeps {z : State} {kf : Bool} (s : State) (hs : z.Keeps kf s) :
    z.Keeps kf (s.wakeStart) := by
  unfold State.wakeStart
  repeat' with_reducible first
    | (exact hs) | (assumption) | (apply State.setFld_keeps) | (apply State.tcxoJudge_keeps)
    | (exact ⟨hs.pending, hs.mem, hs.regs, hs.keys⟩) | (intro) | (dsimp only) | (split) | (refine Keeps.upd ?_)

theorem State.wakeEvent_keeps {z : State} {kf : Bool} (s : State) (code : Nat) (tick : Nat) (hs : z.Keeps kf s) :
    z.Keeps kf (s.wakeEvent code tick).1 := by
  unfold State.wakeEvent
  repeat' with_reducible first
    | (exact hs) | (assumption) | (apply State.wakeAlso_keeps) | (apply State.wakeRecord_keeps)
    | (apply State.wakeStart_keeps) | (intro) | (dsimp only) | (split)

theorem State.wakeByLauncher_keeps {z : State} {kf : Bool} (s : State) (n : Nat) (tick : Nat) (hs : z.Keeps kf s) :
    z.Keeps kf (s.wakeByLauncher n tick) := by
  unfold State.wakeByLauncher
  repeat' with_reducible first
    | (exact hs) | (assumption) | (apply State.setFld_keeps) | (apply State.wakeEvent_keeps) | (intro) | (dsimp only)
    | (split)

theorem execWakePin_stays {z : State} {kf : Bool} (s : State) (hs : z.Keeps kf s) :
    z.Stays kf (execWakePin s) := by
  unfold execWakePin
  repeat' with_reducible first
    | (exact hs) | (assumption) | (apply State.next_keeps) | (apply State.wakeEvent_keeps) | (exact trivial)
    | (apply Keeps.next) | (intro) | (dsimp only) | (split)

theorem execXo32Absent_stays {z : State} {kf : Bool} (s : State) (hs : z.Keeps kf s) :
    z.Stays kf (execXo32Absent s) := by
  unfold execXo32Absent
  repeat' with_reducible first
    | (exact hs) | (assumption) | (apply State.cmcFollows_keeps) | (apply State.fault_keeps)
    | (apply State.next_keeps) | (apply State.raise_keeps) | (apply State.setFld_keeps) | (apply State.touch_keeps)
    | (apply State.wakeEvent_keeps) | (exact trivial) | (apply Keeps.next)
    | (exact ⟨hs.pending, hs.mem, hs.regs, hs.keys⟩) | (intro) | (dsimp only) | (split) | (refine Keeps.upd ?_)

theorem State.ringsReset_keeps {z : State} {kf : Bool} (s : State) (hs : z.Keeps kf s) :
    z.Keeps kf (s.ringsReset) := by
  unfold State.ringsReset
  repeat' with_reducible first
    | (exact hs) | (assumption) | (apply State.ringReset_keeps) | (apply Keeps.foldl) | (apply Keeps.foldl_fst)
    | (intro) | (dsimp only) | (split)

theorem State.setClr_keeps {z : State} {kf : Bool} (s : State) (bs : List Bank) (hs : z.Keeps kf s) :
    z.Keeps kf (s.setClr bs) := by
  unfold State.setClr
  repeat' with_reducible first
    | (exact hs) | (assumption) | (apply State.setFld_keeps) | (apply Keeps.foldl) | (apply Keeps.foldl_fst) | (intro)
    | (dsimp only) | (split)

theorem State.pinsWake_keeps {z : State} {kf : Bool} (s : State) (hs : z.Keeps kf s) :
    z.Keeps kf (s.pinsWake) := by
  unfold State.pinsWake
  repeat' with_reducible first
    | (exact hs) | (assumption) | (apply State.applyPins_keeps) | (exact ⟨hs.pending, hs.mem, hs.regs, hs.keys⟩)
    | (intro) | (dsimp only) | (split) | (refine Keeps.upd ?_)

theorem State.coreReady_keeps {z : State} {kf : Bool} (s : State) (hs : z.Keeps kf s) :
    z.Keeps kf (s.coreReady) := by
  unfold State.coreReady
  repeat' with_reducible first
    | (exact hs) | (assumption) | (apply State.lineJudge_keeps) | (apply State.pinsWake_keeps)
    | (apply State.regsReset_keeps) | (apply State.ringsReset_keeps) | (apply State.setClr_keeps)
    | (apply State.slotsReset_keeps) | (apply State.submitInternal_keeps) | (apply State.wakeJudge_keeps)
    | (exact ⟨hs.pending, hs.mem, hs.regs, hs.keys⟩) | (apply Keeps.foldl) | (apply Keeps.foldl_fst) | (intro)
    | (dsimp only) | (split) | (refine Keeps.upd ?_)

theorem State.coreStart_keeps {z : State} {kf : Bool} (s : State) (hs : z.Keeps kf s) :
    z.Keeps kf (s.coreStart) := by
  unfold State.coreStart
  repeat' with_reducible first
    | (exact hs) | (assumption) | (apply State.setClr_keeps) | (apply State.tcxoJudge_keeps)
    | (exact ⟨hs.pending, hs.mem, hs.regs, hs.keys⟩) | (intro) | (dsimp only) | (split) | (refine Keeps.upd ?_)

theorem execWakeCoreReady_stays {z : State} {kf : Bool} (s : State) (hs : z.Keeps kf s) :
    z.Stays kf (execWakeCoreReady s) := by
  unfold execWakeCoreReady
  repeat' with_reducible first
    | (exact hs) | (assumption) | (apply State.coreReady_keeps) | (apply State.coreStart_keeps)
    | (apply State.moveTo_keeps) | (apply State.next_keeps) | (exact trivial) | (apply Keeps.next) | (intro)
    | (dsimp only) | (split)

theorem execClearingEnd_stays {z : State} {kf : Bool} (b : Bank) (s : State) (hs : z.Keeps kf s) :
    z.Stays kf (execClearingEnd b s) := by
  unfold execClearingEnd
  repeat' with_reducible first
    | (exact hs) | (assumption) | (apply State.next_keeps) | (apply State.setFld_keeps) | (apply State.touch_keeps)
    | (exact trivial) | (apply Keeps.next) | (intro) | (dsimp only) | (split)

theorem execCkRadioWaitExpiry_stays {z : State} {kf : Bool} (s : State) (hs : z.Keeps kf s) :
    z.Stays kf (execCkRadioWaitExpiry s) := by
  unfold execCkRadioWaitExpiry
  repeat' with_reducible first
    | (exact hs) | (assumption) | (apply State.moveTo_keeps) | (apply State.next_keeps)
    | (apply State.wakeJudge_keeps) | (exact trivial) | (apply Keeps.next)
    | (exact ⟨hs.pending, hs.mem, hs.regs, hs.keys⟩) | (intro) | (dsimp only) | (split) | (refine Keeps.upd ?_)

theorem execWakeFromOff_stays {z : State} (s : State) (hs : z.Keeps false s) :
    z.Stays false (execWakeFromOff s) := by
  unfold execWakeFromOff
  repeat' with_reducible first
    | (exact hs) | (assumption) | (apply State.cold_keeps) | (apply State.next_keeps) | (apply State.setFld_keeps)
    | (exact trivial) | (apply Keeps.next) | (intro) | (dsimp only) | (split)

theorem execResetNLow_stays {z : State} (s : State) (hs : z.Keeps false s) :
    z.Stays false (execResetNLow s) := by
  unfold execResetNLow
  repeat' with_reducible first
    | (exact hs) | (assumption) | (apply State.cold_keeps) | (apply State.next_keeps) | (exact trivial)
    | (apply Keeps.next) | (intro) | (dsimp only) | (split)

theorem execResetNRelease_stays {z : State} (s : State) (hs : z.Keeps false s) :
    z.Stays false (execResetNRelease s) := by
  unfold execResetNRelease
  repeat' with_reducible first
    | (exact hs) | (assumption) | (apply State.cold_keeps) | (apply State.next_keeps) | (exact trivial)
    | (apply Keeps.next) | (intro) | (dsimp only) | (split)

theorem execPrimerStartup_stays {z : State} {kf : Bool} (env : Env) (s : State) (hs : z.Keeps kf s) :
    z.Stays kf (execPrimerStartup s env) := by
  unfold execPrimerStartup
  repeat' with_reducible first
    | (exact hs) | (assumption) | (apply State.fault_keeps) | (apply State.houseParity_keeps)
    | (apply State.next_keeps) | (apply State.touch_keeps) | (apply State.upset_keeps) | (exact trivial)
    | (apply Keeps.next) | (exact ⟨hs.pending, hs.mem, hs.regs, hs.keys⟩) | (intro) | (dsimp only) | (split)
    | (refine Keeps.upd ?_)

theorem State.tuneGo_keeps {z : State} {kf : Bool} (s : State) (id : Nat) (o : RadioOp) (hs : z.Keeps kf s) :
    z.Keeps kf (s.tuneGo id o) := by
  unfold State.tuneGo
  repeat' with_reducible first
    | (exact hs) | (assumption) | (apply State.park_keeps) | (apply State.powerUp_keeps) | (apply State.radio_keeps)
    | (apply State.setOp_keeps) | (apply State.tuneAdd_keeps) | (exact ⟨hs.pending, hs.mem, hs.regs, hs.keys⟩)
    | (apply Keeps.foldl) | (apply Keeps.foldl_fst) | (intro) | (dsimp only) | (split) | (refine Keeps.upd ?_)

theorem State.txGoOn_keeps {z : State} {kf : Bool} (s : State) (id : Nat) (o : RadioOp) (hs : z.Keeps kf s) :
    z.Keeps kf (s.txGoOn id o) := by
  unfold State.txGoOn
  repeat' with_reducible first
    | (exact hs) | (assumption) | (apply State.powerUp_keeps) | (apply State.txTune_keeps) | (intro) | (dsimp only)
    | (split)

theorem State.claimsGo_keeps {z : State} {kf : Bool} (s : State) (hs : z.Keeps kf s) :
    z.Keeps kf (s.claimsGo) := by
  unfold State.claimsGo
  repeat' with_reducible first
    | (exact hs) | (assumption) | (apply State.tuneGo_keeps) | (apply State.txGoOn_keeps) | (apply Keeps.foldl)
    | (apply Keeps.foldl_fst) | (intro) | (dsimp only) | (split)

theorem State.aesGranted_keeps {z : State} {kf : Bool} (s : State) (hs : z.Keeps kf s) :
    z.Keeps kf (s.aesGranted) := by
  unfold State.aesGranted
  repeat' with_reducible first
    | (exact hs) | (assumption) | (apply State.park_keeps) | (intro) | (dsimp only) | (split)

theorem State.granted_keeps {z : State} {kf : Bool} (s : State) (h : Holder) (hs : z.Keeps kf s) :
    z.Keeps kf (s.granted h) := by
  unfold State.granted
  repeat' with_reducible first
    | (exact hs) | (assumption) | (apply State.aesGranted_keeps) | (apply State.claimsGo_keeps)
    | (apply State.finish_keeps) | (intro) | (dsimp only) | (split)

theorem execClaimGrant_stays {z : State} {kf : Bool} (s : State) (hs : z.Keeps kf s) :
    z.Stays kf (execClaimGrant s) := by
  unfold execClaimGrant
  repeat' with_reducible first
    | (exact hs) | (assumption) | (apply State.grantClaim_keeps) | (apply State.granted_keeps)
    | (apply State.next_keeps) | (apply State.paGrantLate_keeps) | (apply State.touch_keeps)
    | (apply State.withdraw_keeps) | (exact trivial) | (apply Keeps.next) | (intro) | (dsimp only) | (split)

theorem State.wkrCal_keeps {z : State} {kf : Bool} (s : State) (hs : z.Keeps kf s) :
    z.Keeps kf (s.wkrCal) := by
  unfold State.wkrCal
  repeat' with_reducible first
    | (exact hs) | (assumption) | (apply State.setFld_keeps) | (exact ⟨hs.pending, hs.mem, hs.regs, hs.keys⟩)
    | (intro) | (dsimp only) | (split) | (refine Keeps.upd ?_)

theorem State.wkrDeaf_keeps {z : State} {kf : Bool} (s : State) (hs : z.Keeps kf s) :
    z.Keeps kf (s.wkrDeaf) := by
  unfold State.wkrDeaf
  repeat' with_reducible first
    | (exact hs) | (assumption) | (exact ⟨hs.pending, hs.mem, hs.regs, hs.keys⟩) | (intro) | (dsimp only) | (split)
    | (refine Keeps.upd ?_)

theorem State.wkrCfg_keeps {z : State} {kf : Bool} (s : State) (old : State) (hs : z.Keeps kf s) :
    z.Keeps kf (s.wkrCfg old) := by
  unfold State.wkrCfg
  repeat' with_reducible first
    | (exact hs) | (assumption) | (apply State.wkrCal_keeps) | (apply State.wkrDeaf_keeps) | (intro) | (dsimp only)
    | (split)

theorem execPeriodicCalibration_stays {z : State} {kf : Bool} (s : State) (hs : z.Keeps kf s) :
    z.Stays kf (execPeriodicCalibration s) := by
  unfold execPeriodicCalibration
  repeat' with_reducible first
    | (exact hs) | (assumption) | (apply State.moveTo_keeps) | (apply State.next_keeps) | (apply State.wkrCal_keeps)
    | (exact trivial) | (apply Keeps.next) | (intro) | (dsimp only) | (split)

theorem execWkrCalibrationEnd_stays {z : State} {kf : Bool} (cap : Nat) (fine : Nat) (count : Nat) (s : State) (hs : z.Keeps kf s) :
    z.Stays kf (execWkrCalibrationEnd cap fine count s) := by
  unfold execWkrCalibrationEnd
  repeat' with_reducible first
    | (exact hs) | (assumption) | (apply State.moveTo_keeps) | (apply State.next_keeps) | (apply State.raise_keeps)
    | (apply State.setFld_keeps) | (apply State.wkrDeaf_keeps) | (exact trivial) | (apply Keeps.next)
    | (exact ⟨hs.pending, hs.mem, hs.regs, hs.keys⟩) | (intro) | (dsimp only) | (split) | (refine Keeps.upd ?_)

theorem State.callActs_keeps {z : State} {kf : Bool} (s : State) (tick : Nat) (hs : z.Keeps kf s) :
    z.Keeps kf (s.callActs tick) := by
  unfold State.callActs
  repeat' with_reducible first
    | (exact hs) | (assumption) | (apply State.draw_keeps) | (apply State.post_keeps) | (apply State.wakeEvent_keeps)
    | (exact ⟨hs.pending, hs.mem, hs.regs, hs.keys⟩) | (intro) | (dsimp only) | (split) | (refine Keeps.upd ?_)

theorem State.callAccept_keeps {z : State} {kf : Bool} (s : State) (n : Nat) (c : Nat) (t : Nat) (m : Nat) (tick : Nat) (hs : z.Keeps kf s) :
    z.Keeps kf (s.callAccept n c t m tick) := by
  unfold State.callAccept
  repeat' with_reducible first
    | (exact hs) | (assumption) | (apply State.callActs_keeps) | (apply State.raise_keeps)
    | (apply State.setFld_keeps) | (exact ⟨hs.pending, hs.mem, hs.regs, hs.keys⟩) | (intro) | (dsimp only) | (split)
    | (refine Keeps.upd ?_)

theorem State.callJudge_keeps {z : State} {kf : Bool} (s : State) (n : Nat) (o : CallObs) (hs : z.Keeps kf s) :
    z.Keeps kf (s.callJudge n o) := by
  unfold State.callJudge
  repeat' with_reducible first
    | (exact hs) | (assumption) | (apply State.callAccept_keeps) | (apply State.incMod_keeps) | (intro) | (dsimp only)
    | (split)

theorem execCallReceived_stays {z : State} {kf : Bool} (o : CallObs) (s : State) (hs : z.Keeps kf s) :
    z.Stays kf (execCallReceived o s) := by
  unfold execCallReceived
  repeat' with_reducible first
    | (exact hs) | (assumption) | (apply State.callJudge_keeps) | (apply State.incMod_keeps)
    | (apply State.next_keeps) | (apply State.touch_keeps) | (exact trivial) | (apply Keeps.next)
    | (exact ⟨hs.pending, hs.mem, hs.regs, hs.keys⟩) | (intro) | (dsimp only) | (split) | (refine Keeps.upd ?_)

theorem State.setDma_keeps {z : State} {kf : Bool} (s : State) (n : Nat) (x : Dma) (hs : z.Keeps kf s) :
    z.Keeps kf (s.setDma n x) := by
  unfold State.setDma
  repeat' with_reducible first
    | (exact hs) | (assumption) | (exact ⟨hs.pending, hs.mem, hs.regs, hs.keys⟩) | (intro) | (dsimp only) | (split)
    | (refine Keeps.upd ?_)

theorem State.dmaEnd_keeps {z : State} {kf : Bool} (s : State) (n : Nat) (cause : Nat) (hs : z.Keeps kf s) :
    z.Keeps kf (s.dmaEnd n cause) := by
  unfold State.dmaEnd
  repeat' with_reducible first
    | (exact hs) | (assumption) | (apply State.leaveIdle_keeps) | (apply State.raise_keeps)
    | (apply State.setDma_keeps) | (apply State.setEng_keeps) | (apply State.setFld_keeps)
    | (apply State.status_keeps) | (exact ⟨hs.pending, hs.mem, hs.regs, hs.keys⟩) | (intro) | (dsimp only) | (split)
    | (refine Keeps.upd ?_)

theorem State.dmaStart_keeps {z : State} {kf : Bool} (s : State) (n : Nat) (ctx : Nat) (op : Option Nat) (hs : z.Keeps kf s) :
    z.Keeps kf (s.dmaStart n ctx op) := by
  unfold State.dmaStart
  repeat' with_reducible first
    | (exact hs) | (assumption) | (apply State.dmaEnd_keeps) | (apply State.leaveIdle_keeps)
    | (apply State.setDma_keeps) | (apply State.setFld_keeps) | (intro) | (dsimp only) | (split)

theorem State.dmaPiece_keeps {z : State} {kf : Bool} (s : State) (d : Dma) (p : Nat × Nat) (parity : ParityHit) (hs : z.Keeps kf s) :
    z.Keeps kf (s.dmaPiece d p parity).1 := by
  unfold State.dmaPiece
  repeat' with_reducible first
    | (exact hs) | (assumption) | (apply State.masterWrite_keeps) | (apply State.readSpan_keeps) | (intro)
    | (dsimp only) | (split)

theorem State.dmaMove_keeps {z : State} {kf : Bool} (d : Dma) (l : List (Nat × Nat)) (s : State) (hs : z.Keeps kf s) :
    z.Keeps kf (State.dmaMove d l s).1 := by
  induction l generalizing s with
  | nil => exact hs
  | cons p t ih =>
    unfold State.dmaMove
    dsimp only
    split
    · exact ih _ (State.dmaPiece_keeps _ _ _ _ hs)
    · exact State.dmaPiece_keeps _ _ _ _ hs

theorem State.dmaHit_keeps {z : State} {kf : Bool} (s : State) (d : Dma) (p : Nat × Nat) (parity : ParityHit) (hs : z.Keeps kf s) :
    z.Keeps kf (s.dmaHit d p parity).1 := by
  unfold State.dmaHit
  repeat' with_reducible first
    | (exact hs) | (assumption) | (apply State.dmaPiece_keeps) | (apply State.readParity_keeps) | (intro)
    | (dsimp only) | (split)

theorem State.dmaRun_keeps {z : State} {kf : Bool} (s : State) (d : Dma) (parity : ParityHit) (hs : z.Keeps kf s) :
    z.Keeps kf (s.dmaRun d parity).1 := by
  unfold State.dmaRun
  repeat' with_reducible first
    | (exact hs) | (assumption) | (apply State.dmaHit_keeps) | (apply State.dmaMove_keeps) | (apply State.draw_keeps)
    | (intro) | (dsimp only) | (split)

theorem execDmaTransferEnd_stays {z : State} {kf : Bool} (n : Fin 16) (env : Env) (s : State) (hs : z.Keeps kf s) :
    z.Stays kf (execDmaTransferEnd n env s) := by
  unfold execDmaTransferEnd
  repeat' with_reducible first
    | (exact hs) | (assumption) | (apply State.dmaEnd_keeps) | (apply State.dmaRun_keeps) | (apply State.next_keeps)
    | (apply State.touch_keeps) | (apply State.upset_keeps) | (exact trivial) | (apply Keeps.next) | (intro)
    | (dsimp only) | (split)

theorem State.dmaStop_keeps {z : State} {kf : Bool} (s : State) (n : Nat) (hs : z.Keeps kf s) :
    z.Keeps kf (s.dmaStop n) := by
  unfold State.dmaStop
  repeat' with_reducible first
    | (exact hs) | (assumption) | (apply State.dmaEnd_keeps) | (apply State.dmaMove_keeps) | (apply State.draw_keeps)
    | (intro) | (dsimp only) | (split)

theorem State.engReport_keeps {z : State} {kf : Bool} (s : State) (o : EngOp) (w : Nat) (hs : z.Keeps kf s) :
    z.Keeps kf (s.engReport o w) := by
  unfold State.engReport
  repeat' with_reducible first
    | (exact hs) | (assumption) | (apply State.finish_keeps) | (apply State.setCx_keeps)
    | (apply State.signalEng_keeps) | (apply State.wake_keeps) | (exact ⟨hs.pending, hs.mem, hs.regs, hs.keys⟩)
    | (intro) | (dsimp only) | (split) | (refine Keeps.upd ?_)

theorem State.engEnd_keeps {z : State} {kf : Bool} (s : State) (id : Nat) (o : EngOp) (w : Nat) (hs : z.Keeps kf s) :
    z.Keeps kf (s.engEnd id o w) := by
  unfold State.engEnd
  repeat' with_reducible first
    | (exact hs) | (assumption) | (apply State.dropEng_keeps) | (apply State.engReport_keeps) | (intro) | (dsimp only)
    | (split)

theorem State.setChk_keeps {z : State} {kf : Bool} (s : State) (e : Nat) (x : Chk) (hs : z.Keeps kf s) :
    z.Keeps kf (s.setChk e x) := by
  unfold State.setChk
  repeat' with_reducible first
    | (exact hs) | (assumption) | (exact ⟨hs.pending, hs.mem, hs.regs, hs.keys⟩) | (intro) | (dsimp only) | (split)
    | (refine Keeps.upd ?_)

theorem State.chkTake_keeps {z : State} {kf : Bool} (s : State) (e : Nat) (hs : z.Keeps kf s) :
    z.Keeps kf (s.chkTake e) := by
  unfold State.chkTake
  repeat' with_reducible first
    | (exact hs) | (assumption) | (apply State.setChk_keeps) | (apply State.setEng_keeps) | (apply State.setFld_keeps)
    | (apply State.setReg_keeps) | (exact ⟨hs.pending, hs.mem, hs.regs, hs.keys⟩) | (intro) | (dsimp only) | (split)
    | (refine Keeps.upd ?_)

theorem State.chkBytes_keeps {z : State} {kf : Bool} (s : State) (e : Nat) (bs : List Byte) (hs : z.Keeps kf s) :
    z.Keeps kf (s.chkBytes e bs) := by
  unfold State.chkBytes
  repeat' with_reducible first
    | (exact hs) | (assumption) | (apply State.setFld_keeps) | (apply State.setReg_keeps) | (intro) | (dsimp only)
    | (split)

theorem State.engRead_keeps {z : State} {kf : Bool} (s : State) (a : Nat) (n : Nat) (parity : ParityHit) (hs : z.Keeps kf s) :
    z.Keeps kf (s.engRead a n parity).1 := by
  unfold State.engRead
  repeat' with_reducible first
    | (exact hs) | (assumption) | (apply State.readParity_keeps) | (apply State.readSpan_keeps) | (intro)
    | (dsimp only) | (split)

theorem State.chkParity_keeps {z : State} {kf : Bool} (s : State) (e : Nat) (hs : z.Keeps kf s) :
    z.Keeps kf (s.chkParity e) := by
  unfold State.chkParity
  repeat' with_reducible first
    | (exact hs) | (assumption) | (apply State.parityErr_keeps) | (apply State.raise_keeps) | (intro) | (dsimp only)
    | (split)

theorem State.chkDone_keeps {z : State} {kf : Bool} (s : State) (id : Nat) (o : EngOp) (e : Nat) (a : Nat) (n : Nat) (final : Bool) (parity : ParityHit) (hs : z.Keeps kf s) :
    z.Keeps kf (s.chkDone id o e a n final parity) := by
  unfold State.chkDone
  repeat' with_reducible first
    | (exact hs) | (assumption) | (apply State.chkBytes_keeps) | (apply State.chkParity_keeps)
    | (apply State.draw_keeps) | (apply State.dropEng_keeps) | (apply State.engEnd_keeps)
    | (apply State.engRead_keeps) | (apply State.finish_keeps) | (apply State.setChk_keeps)
    | (apply State.setCx_keeps) | (apply State.setReg_keeps) | (exact ⟨hs.pending, hs.mem, hs.regs, hs.keys⟩)
    | (intro) | (dsimp only) | (split) | (refine Keeps.upd ?_)

theorem State.openWork_keeps {z : State} {kf : Bool} (s : State) (o : EngOp) (f : List Byte) (len : Nat) (fcs : Nat) (pidx : Nat) (hs : z.Keeps kf s) :
    z.Keeps kf (s.openWork o f len fcs pidx).1 := by
  unfold State.openWork
  repeat' with_reducible first
    | (exact hs) | (assumption) | (apply State.readEntry_keeps) | (apply State.status_keeps)
    | (exact ⟨hs.pending, hs.mem, hs.regs, hs.keys⟩) | (intro) | (dsimp only) | (split) | (refine Keeps.upd ?_)

theorem State.sealWork_keeps {z : State} {kf : Bool} (s : State) (o : EngOp) (f : List Byte) (pidx : Nat) (key : Nat) (hs : z.Keeps kf s) :
    z.Keeps kf (s.sealWork o f pidx key).1 := by
  unfold State.sealWork
  repeat' with_reducible first
    | (exact hs) | (assumption) | (apply State.sealTake_keeps) | (apply State.status_keeps)
    | (exact ⟨hs.pending, hs.mem, hs.regs, hs.keys⟩) | (intro) | (dsimp only) | (split) | (refine Keeps.upd ?_)

theorem State.aesWork_keeps {z : State} {kf : Bool} (s : State) (o : EngOp) (hs : z.Keeps kf s) :
    z.Keeps kf (s.aesWork o).1 := by
  unfold State.aesWork
  repeat' with_reducible first
    | (exact hs) | (assumption) | (apply State.beaconFill_keeps) | (apply State.engRead_keeps)
    | (apply State.heard_keeps) | (apply State.openWork_keeps) | (apply State.sealWork_keeps)
    | (apply State.status_keeps) | (exact ⟨hs.pending, hs.mem, hs.regs, hs.keys⟩) | (intro) | (dsimp only) | (split)
    | (refine Keeps.upd ?_)

theorem execAesOperationStart_stays {z : State} {kf : Bool} (e : Fin 4) (s : State) (hs : z.Keeps kf s) :
    z.Stays kf (execAesOperationStart e s) := by
  unfold execAesOperationStart
  repeat' with_reducible first
    | (exact hs) | (assumption) | (apply State.aesWork_keeps) | (apply State.next_keeps) | (apply State.park_keeps)
    | (apply State.setAes_keeps) | (apply State.setEng_keeps) | (apply State.touch_keeps) | (exact trivial)
    | (apply Keeps.next) | (exact ⟨hs.pending, hs.mem, hs.regs, hs.keys⟩) | (intro) | (dsimp only) | (split)
    | (refine Keeps.upd ?_)

theorem State.aesDone_keeps {z : State} {kf : Bool} (s : State) (id : Nat) (hs : z.Keeps kf s) :
    z.Keeps kf (s.aesDone id) := by
  unfold State.aesDone
  repeat' with_reducible first
    | (exact hs) | (assumption) | (apply State.setAes_keeps) | (apply Keeps.foldl) | (apply Keeps.foldl_fst) | (intro)
    | (dsimp only) | (split)

theorem execSecHoldExpiry_stays {z : State} {kf : Bool} (e : Fin 4) (s : State) (hs : z.Keeps kf s) :
    z.Stays kf (execSecHoldExpiry e s) := by
  unfold execSecHoldExpiry
  repeat' with_reducible first
    | (exact hs) | (assumption) | (apply State.moveTo_keeps) | (apply State.next_keeps) | (apply State.withdraw_keeps)
    | (exact trivial) | (apply Keeps.next) | (intro) | (dsimp only) | (split)

theorem State.aesParity_keeps {z : State} (s : State) (o : EngOp) (a : Nat) (parity : ParityHit) (hs : z.Keeps false s) :
    z.Keeps false (s.aesParity o a parity).1 := by
  unfold State.aesParity
  repeat' with_reducible first
    | (exact hs) | (assumption) | (apply State.keyBad_keeps) | (apply State.parityErr_keeps)
    | (apply State.status_keeps) | (exact ⟨hs.pending, hs.mem, hs.regs, nofun⟩) | (intro) | (dsimp only) | (split)
    | (refine Keeps.updKeys ?_)

theorem State.sealDone_keeps {z : State} (s : State) (id : Nat) (o : EngOp) (buf : Nat) (dst : Nat) (parity : ParityHit) (hs : z.Keeps false s) :
    z.Keeps false (s.sealDone id o buf dst parity) := by
  unfold State.sealDone
  repeat' with_reducible first
    | (exact hs) | (assumption) | (apply State.aesDone_keeps) | (apply State.aesParity_keeps)
    | (apply State.engEnd_keeps) | (apply State.masterWrite_keeps) | (apply State.secCount_keeps)
    | (apply State.status_keeps) | (intro) | (dsimp only) | (split)

theorem State.txSealDone_keeps {z : State} (s : State) (id : Nat) (o : EngOp) (op : Nat) (parity : ParityHit) (hs : z.Keeps false s) :
    z.Keeps false (s.txSealDone id o op parity) := by
  unfold State.txSealDone
  repeat' with_reducible first
    | (exact hs) | (assumption) | (apply State.aesDone_keeps) | (apply State.aesParity_keeps)
    | (apply State.dropEng_keeps) | (apply State.secCount_keeps) | (apply State.setOp_keeps)
    | (apply State.status_keeps) | (apply State.txEnd_keeps) | (exact ⟨hs.pending, hs.mem, hs.regs, nofun⟩) | (intro)
    | (dsimp only) | (split) | (refine Keeps.updKeys ?_)

theorem State.openAccess_keeps {z : State} {kf : Bool} (s : State) (o : EngOp) (pidx : Nat) (hs : z.Keeps kf s) :
    z.Keeps kf (s.openAccess o pidx).1 := by
  unfold State.openAccess
  repeat' with_reducible first
    | (exact hs) | (assumption) | (apply State.replayTake_keeps) | (apply State.secCount_keeps)
    | (apply State.status_keeps) | (intro) | (dsimp only) | (split)

theorem State.openDone_keeps {z : State} (s : State) (id : Nat) (o : EngOp) (record : Nat) (dst : Nat) (pidx : Nat) (parity : ParityHit) (hs : z.Keeps false s) :
    z.Keeps false (s.openDone id o record dst pidx parity) := by
  unfold State.openDone
  repeat' with_reducible first
    | (exact hs) | (assumption) | (apply State.aesDone_keeps) | (apply State.aesParity_keeps)
    | (apply State.engEnd_keeps) | (apply State.heard_keeps) | (apply State.macOpened_keeps)
    | (apply State.masterWrite_keeps) | (apply State.openAccess_keeps) | (intro) | (dsimp only) | (split)

theorem State.beaconOpened_keeps {z : State} (s : State) (id : Nat) (o : EngOp) (t : Nat) (rate : Nat) (freq : Nat) (parity : ParityHit) (hs : z.Keeps false s) :
    z.Keeps false (s.beaconOpened id o t rate freq parity) := by
  unfold State.beaconOpened
  repeat' with_reducible first
    | (exact hs) | (assumption) | (apply State.aesDone_keeps) | (apply State.aesParity_keeps)
    | (apply State.beaconTake_keeps) | (apply State.dropEng_keeps) | (apply State.openAccess_keeps) | (intro)
    | (dsimp only) | (split)

theorem State.engAbort_keeps {z : State} {kf : Bool} (s : State) (id : Nat) (o : EngOp) (hs : z.Keeps kf s) :
    z.Keeps kf (s.engAbort id o) := by
  unfold State.engAbort
  repeat' with_reducible first
    | (exact hs) | (assumption) | (apply State.aesDone_keeps) | (apply State.copy_keeps) | (apply State.dmaStop_keeps)
    | (apply State.dropEng_keeps) | (apply State.setChk_keeps) | (apply Keeps.foldl) | (apply Keeps.foldl_fst)
    | (intro) | (dsimp only) | (split)

theorem State.setTail_keeps {z : State} {kf : Bool} (s : State) (hs : z.Keeps kf s) :
    z.Keeps kf (s.setTail) := by
  unfold State.setTail
  repeat' with_reducible first
    | (exact hs) | (assumption) | (apply State.storeNum_keeps) | (intro) | (dsimp only) | (split)

theorem State.msgResponse_keeps {z : State} {kf : Bool} (s : State) (r : Nat) (pidx : Nat) (tid : Nat) (hs : z.Keeps kf s) :
    z.Keeps kf (s.msgResponse r pidx tid) := by
  unfold State.msgResponse
  repeat' with_reducible first
    | (exact hs) | (assumption) | (apply State.setRec_keeps) | (apply State.setTxn_keeps) | (apply State.txnEnd_keeps)
    | (intro) | (dsimp only) | (split)

theorem State.msgRequest_keeps {z : State} {kf : Bool} (s : State) (r : Nat) (pidx : Nat) (tid : Nat) (hs : z.Keeps kf s) :
    z.Keeps kf (s.msgRequest r pidx tid) := by
  unfold State.msgRequest
  repeat' with_reducible first
    | (exact hs) | (assumption) | (apply State.draw_keeps) | (apply State.msgCount_keeps) | (apply State.setRec_keeps)
    | (apply State.store_keeps) | (intro) | (dsimp only) | (split)

theorem State.recDone_keeps {z : State} {kf : Bool} (s : State) (r : Nat) (hs : z.Keeps kf s) :
    z.Keeps kf (s.recDone r) := by
  unfold State.recDone
  repeat' with_reducible first
    | (exact hs) | (assumption) | (apply State.deliverRec_keeps) | (apply State.msgRequest_keeps)
    | (apply State.msgResponse_keeps) | (intro) | (dsimp only) | (split)

theorem State.refuse_keeps {z : State} {kf : Bool} (s : State) (status : Nat) (cnt : Nat) (hs : z.Keeps kf s) :
    z.Keeps kf (s.refuse status cnt).1 := by
  unfold State.refuse
  repeat' with_reducible first
    | (exact hs) | (assumption) | (apply State.msgCount_keeps) | (apply State.status_keeps) | (intro) | (dsimp only)
    | (split)

theorem State.msgHold_keeps {z : State} {kf : Bool} (s : State) (r : Nat) (f : MsgFrag) (hs : z.Keeps kf s) :
    z.Keeps kf (s.msgHold r f).1 := by
  unfold State.msgHold
  repeat' with_reducible first
    | (exact hs) | (assumption) | (apply State.recDone_keeps) | (apply State.setRec_keeps) | (apply State.store_keeps)
    | (intro) | (dsimp only) | (split)

theorem State.addTo_keeps {z : State} {kf : Bool} (s : State) (r : Nat) (f : MsgFrag) (sec : Bool) (hs : z.Keeps kf s) :
    z.Keeps kf (s.addTo r f sec).1 := by
  unfold State.addTo
  repeat' with_reducible first
    | (exact hs) | (assumption) | (apply State.msgHold_keeps) | (apply State.refuse_keeps)
    | (exact ⟨hs.pending, hs.mem, hs.regs, hs.keys⟩) | (intro) | (dsimp only) | (split) | (refine Keeps.upd ?_)

theorem State.openRec_keeps {z : State} {kf : Bool} (s : State) (old : Option Nat) (f : MsgFrag) (pidx : Nat) (sec : Bool) (hs : z.Keeps kf s) :
    z.Keeps kf (s.openRec old f pidx sec).1 := by
  unfold State.openRec
  repeat' with_reducible first
    | (exact hs) | (assumption) | (apply State.draw_keeps) | (apply State.msgHold_keeps) | (apply State.recFail_keeps)
    | (apply State.refuse_keeps) | (apply State.setTail_keeps) | (apply State.store_keeps)
    | (apply State.storeNum_keeps) | (intro) | (dsimp only) | (split)

theorem State.absorbFrag_keeps {z : State} {kf : Bool} (s : State) (f : MsgFrag) (pidx : Nat) (level : Nat) (hs : z.Keeps kf s) :
    z.Keeps kf (s.absorbFrag f pidx level).1 := by
  unfold State.absorbFrag
  repeat' with_reducible first
    | (exact hs) | (assumption) | (apply State.addTo_keeps) | (apply State.openRec_keeps) | (apply State.orphan_keeps)
    | (apply State.refuse_keeps) | (intro) | (dsimp only) | (split)

theorem State.absorbAt_keeps {z : State} {kf : Bool} (s : State) (addr : Nat) (len : Nat) (pidx : Nat) (level : Nat) (parity : ParityHit) (hs : z.Keeps kf s) :
    z.Keeps kf (s.absorbAt addr len pidx level parity).1 := by
  unfold State.absorbAt
  repeat' with_reducible first
    | (exact hs) | (assumption) | (apply State.absorbFrag_keeps) | (apply State.engRead_keeps)
    | (apply State.refuse_keeps) | (intro) | (dsimp only) | (split)

theorem State.parkEng_keeps {z : State} {kf : Bool} (s : State) (k : Fin 64) (d : Nat) (kind : EngKind) (t : Ticket) (hs : z.Keeps kf s) :
    z.Keeps kf (s.parkEng k d kind t) := by
  unfold State.parkEng
  repeat' with_reducible first
    | (exact hs) | (assumption) | (apply State.addEng_keeps) | (apply State.park_keeps) | (intro) | (dsimp only)
    | (split)

theorem State.absorbPass_keeps {z : State} {kf : Bool} (s : State) (id : Nat) (o : EngOp) (parity : ParityHit) (hs : z.Keeps kf s) :
    z.Keeps kf (s.absorbPass id o parity) := by
  unfold State.absorbPass
  repeat' with_reducible first
    | (exact hs) | (assumption) | (apply State.absorbAt_keeps) | (apply State.setEng_keeps)
    | (exact ⟨hs.pending, hs.mem, hs.regs, hs.keys⟩) | (intro) | (dsimp only) | (split) | (refine Keeps.upd ?_)

theorem State.absorbNext_keeps {z : State} {kf : Bool} (pidx n : Nat) (s : State) (hs : z.Keeps kf s) :
    z.Keeps kf (State.absorbNext pidx n s) := by
  induction n generalizing s with
  | zero => exact hs
  | succ n ih =>
    unfold State.absorbNext
    dsimp only
    split
    · exact hs
    · exact ih _ (State.absorbPass_keeps _ _ _ _ hs)

theorem State.absorbFree_keeps {z : State} {kf : Bool} (s : State) (pidx : Nat) (hs : z.Keeps kf s) :
    z.Keeps kf (s.absorbFree pidx) := by
  unfold State.absorbFree
  repeat' with_reducible first
    | (exact hs) | (assumption) | (apply State.absorbNext_keeps) | (intro) | (dsimp only) | (split)

theorem State.absorbIssue_keeps {z : State} {kf : Bool} (s : State) (k : Fin 64) (d : Nat) (addr : Nat) (len : Nat) (pidx : Nat) (level : Nat) (t : Ticket) (parity : ParityHit) (hs : z.Keeps kf s) :
    z.Keeps kf (s.absorbIssue k d addr len pidx level t parity) := by
  unfold State.absorbIssue
  repeat' with_reducible first
    | (exact hs) | (assumption) | (apply State.absorbPass_keeps) | (apply State.parkEng_keeps) | (intro)
    | (dsimp only) | (split)

theorem State.engCancel_keeps {z : State} {kf : Bool} (s : State) (id : Nat) (o : EngOp) (hs : z.Keeps kf s) :
    z.Keeps kf (s.engCancel id o) := by
  unfold State.engCancel
  repeat' with_reducible first
    | (exact hs) | (assumption) | (apply State.absorbFree_keeps) | (apply State.engAbort_keeps) | (intro)
    | (dsimp only) | (split)

theorem State.fragBuild_keeps {z : State} {kf : Bool} (s : State) (msg : Nat) (len : Nat) (fsz : Nat) (tid : Nat) (rr : Nat) (k : Nat) (dst : Nat) (parity : ParityHit) (hs : z.Keeps kf s) :
    z.Keeps kf (s.fragBuild msg len fsz tid rr k dst parity).1 := by
  unfold State.fragBuild
  repeat' with_reducible first
    | (exact hs) | (assumption) | (apply State.engRead_keeps) | (apply State.masterWrite_keeps) | (intro)
    | (dsimp only) | (split)

theorem State.fragIssue_keeps {z : State} {kf : Bool} (s : State) (k : Fin 64) (d : Nat) (msg : Nat) (len : Nat) (fsz : Nat) (tid : Nat) (rr : Nat) (i : Nat) (dst : Nat) (hs : z.Keeps kf s) :
    z.Keeps kf (s.fragIssue k d msg len fsz tid rr i dst) := by
  unfold State.fragIssue
  repeat' with_reducible first
    | (exact hs) | (assumption) | (apply State.parkEng_keeps) | (intro) | (dsimp only) | (split)

theorem State.msgRelease_keeps {z : State} {kf : Bool} (s : State) (r : Nat) (hs : z.Keeps kf s) :
    z.Keeps kf (s.msgRelease r).1 := by
  unfold State.msgRelease
  repeat' with_reducible first
    | (exact hs) | (assumption) | (apply State.setRec_keeps) | (apply State.setTail_keeps) | (intro) | (dsimp only)
    | (split)

theorem State.txnOpen_keeps {z : State} {kf : Bool} (s : State) (pidx : Nat) (tid : Nat) (tries : Nat) (tout : Nat) (ctx : Nat) (hs : z.Keeps kf s) :
    z.Keeps kf (s.txnOpen pidx tid tries tout ctx).1 := by
  unfold State.txnOpen
  repeat' with_reducible first
    | (exact hs) | (assumption) | (apply State.draw_keeps) | (apply State.store_keeps) | (intro) | (dsimp only)
    | (split)

theorem State.txnAbort_keeps {z : State} {kf : Bool} (s : State) (k : Nat) (hs : z.Keeps kf s) :
    z.Keeps kf (s.txnAbort k) := by
  unfold State.txnAbort
  repeat' with_reducible first
    | (exact hs) | (assumption) | (apply State.setTxn_keeps) | (apply Keeps.foldl) | (apply Keeps.foldl_fst) | (intro)
    | (dsimp only) | (split)

theorem execMessageLayerEnable_stays {z : State} {kf : Bool} (_m : Master) (s : State) (hs : z.Keeps kf s) :
    z.Stays kf (execMessageLayerEnable _m s) := by
  unfold execMessageLayerEnable
  repeat' with_reducible first
    | (exact hs) | (assumption) | (apply State.masterWrite_keeps) | (apply State.next_keeps)
    | (apply State.touch_keeps) | (exact trivial) | (apply Keeps.next) | (intro) | (dsimp only) | (split)

theorem execRecordExamination_stays {z : State} {kf : Bool} (env : Env) (s : State) (hs : z.Keeps kf s) :
    z.Stays kf (execRecordExamination s env) := by
  unfold execRecordExamination
  repeat' with_reducible first
    | (exact hs) | (assumption) | (apply State.examineAll_keeps) | (apply State.moveTo_keeps)
    | (apply State.next_keeps) | (apply State.upset_keeps) | (exact trivial) | (apply Keeps.next) | (intro)
    | (dsimp only) | (split)

theorem State.crcLoad_keeps {z : State} {kf : Bool} (s : State) (e : Nat) (run : Nat) (hs : z.Keeps kf s) :
    z.Keeps kf (s.crcLoad e run) := by
  unfold State.crcLoad
  repeat' with_reducible first
    | (exact hs) | (assumption) | (apply State.setFld_keeps) | (apply State.setReg_keeps) | (intro) | (dsimp only)
    | (split)

theorem execCheckEngineStart_stays {z : State} {kf : Bool} (e : Fin 8) (s : State) (hs : z.Keeps kf s) :
    z.Stays kf (execCheckEngineStart e s) := by
  unfold execCheckEngineStart
  repeat' with_reducible first
    | (exact hs) | (assumption) | (apply State.crcLoad_keeps) | (apply State.leaveIdle_keeps)
    | (apply State.next_keeps) | (apply State.setChk_keeps) | (apply State.setEng_keeps) | (apply State.touch_keeps)
    | (exact trivial) | (apply Keeps.next) | (exact ⟨hs.pending, hs.mem, hs.regs, hs.keys⟩) | (intro) | (dsimp only)
    | (split) | (refine Keeps.upd ?_)

theorem State.crcRunEnd_keeps {z : State} {kf : Bool} (s : State) (e : Nat) (r : Nat) (parity : ParityHit) (hs : z.Keeps kf s) :
    z.Keeps kf (s.crcRunEnd e r parity).1 := by
  unfold State.crcRunEnd
  repeat' with_reducible first
    | (exact hs) | (assumption) | (apply State.chkBytes_keeps) | (apply State.chkParity_keeps)
    | (apply State.engRead_keeps) | (apply State.msgCount_keeps) | (apply State.recDone_keeps)
    | (apply State.recFail_keeps) | (apply State.setRec_keeps) | (intro) | (dsimp only) | (split)

theorem State.absorbDone_keeps {z : State} {kf : Bool} (s : State) (id : Nat) (o : EngOp) (e : Nat) (r : Nat) (pidx : Nat) (parity : ParityHit) (hs : z.Keeps kf s) :
    z.Keeps kf (s.absorbDone id o e r pidx parity) := by
  unfold State.absorbDone
  repeat' with_reducible first
    | (exact hs) | (assumption) | (apply State.absorbFree_keeps) | (apply State.crcRunEnd_keeps)
    | (apply State.engEnd_keeps) | (apply State.setChk_keeps) | (intro) | (dsimp only) | (split)

theorem State.fragDone_keeps {z : State} {kf : Bool} (s : State) (id : Nat) (o : EngOp) (e : Option Nat) (msg : Nat) (len : Nat) (fsz : Nat) (tid : Nat) (rr : Nat) (k : Nat) (dst : Nat) (parity : ParityHit) (hs : z.Keeps kf s) :
    z.Keeps kf (s.fragDone id o e msg len fsz tid rr k dst parity) := by
  unfold State.fragDone
  repeat' with_reducible first
    | (exact hs) | (assumption) | (apply State.chkBytes_keeps) | (apply State.chkParity_keeps)
    | (apply State.engEnd_keeps) | (apply State.fragBuild_keeps) | (apply State.setChk_keeps) | (intro) | (dsimp only)
    | (split)

theorem State.engDone_keeps {z : State} (s : State) (id : Nat) (o : EngOp) (parity : ParityHit) (hs : z.Keeps false s) :
    z.Keeps false (s.engDone id o parity) := by
  unfold State.engDone
  repeat' with_reducible first
    | (exact hs) | (assumption) | (apply State.absorbDone_keeps) | (apply State.absorbFree_keeps)
    | (apply State.beaconOpened_keeps) | (apply State.chkDone_keeps) | (apply State.chkTake_keeps)
    | (apply State.copy_keeps) | (apply State.engEnd_keeps) | (apply State.fragDone_keeps)
    | (apply State.openDone_keeps) | (apply State.sealDone_keeps) | (apply State.status_keeps)
    | (apply State.txSealDone_keeps) | (intro) | (dsimp only) | (split)

theorem execEngineOperationEnd_stays {z : State} (id : Nat) (env : Env) (s : State) (hs : z.Keeps false s) :
    z.Stays false (execEngineOperationEnd id env s) := by
  unfold execEngineOperationEnd
  repeat' with_reducible first
    | (exact hs) | (assumption) | (apply State.engDone_keeps) | (apply State.next_keeps) | (apply State.touch_keeps)
    | (apply State.upset_keeps) | (exact trivial) | (apply Keeps.next) | (intro) | (dsimp only) | (split)

theorem State.storeOut_keeps {z : State} {kf : Bool} (s : State) (x : PStore) (hs : z.Keeps kf s) :
    z.Keeps kf (s.storeOut x) := by
  unfold State.storeOut
  repeat' with_reducible first
    | (exact hs) | (assumption) | (apply State.masterWrite_keeps) | (apply State.split_keeps) | (intro) | (dsimp only)
    | (split)

theorem State.storeNext_keeps {z : State} {kf : Bool} (s : State) (k : Nat) (hs : z.Keeps kf s) :
    z.Keeps kf (s.storeNext k) := by
  unfold State.storeNext
  repeat' with_reducible first
    | (exact hs) | (assumption) | (apply State.setCx_keeps) | (apply State.storeOut_keeps) | (apply State.draw_keeps)
    | (exact ⟨hs.pending, hs.mem, hs.regs, hs.keys⟩) | (intro) | (dsimp only) | (split) | (refine Keeps.upd ?_)

theorem State.postStore_keeps {z : State} {kf : Bool} (s : State) (k : Nat) (x : PStore) (hs : z.Keeps kf s) :
    z.Keeps kf (s.postStore k x) := by
  unfold State.postStore
  repeat' with_reducible first
    | (exact hs) | (assumption) | (apply State.setCx_keeps) | (apply State.storeNext_keeps)
    | (exact ⟨hs.pending, hs.mem, hs.regs, hs.keys⟩) | (intro) | (dsimp only) | (split) | (refine Keeps.upd ?_)

theorem State.drain_keeps {z : State} {kf : Bool} (s : State) (k : Nat) (hs : z.Keeps kf s) :
    z.Keeps kf (s.drain k) := by
  unfold State.drain
  repeat' with_reducible first
    | (exact hs) | (assumption) | (apply State.storeNext_keeps) | (apply Keeps.foldl) | (apply Keeps.foldl_fst)
    | (intro) | (dsimp only) | (split)

theorem State.opAbort_keeps {z : State} {kf : Bool} (s : State) (id : Nat) (o : RadioOp) (hs : z.Keeps kf s) :
    z.Keeps kf (s.opAbort id o) := by
  unfold State.opAbort
  repeat' with_reducible first
    | (exact hs) | (assumption) | (apply State.gackStop_keeps) | (apply State.opEnd_keeps) | (apply State.txCut_keeps)
    | (exact ⟨hs.pending, hs.mem, hs.regs, hs.keys⟩) | (apply Keeps.foldl) | (apply Keeps.foldl_fst) | (intro)
    | (dsimp only) | (split) | (refine Keeps.upd ?_)

theorem State.setCasc_keeps {z : State} {kf : Bool} (s : State) (p : Nat) (l : List Casc) (hs : z.Keeps kf s) :
    z.Keeps kf (s.setCasc p l) := by
  unfold State.setCasc
  repeat' with_reducible first
    | (exact hs) | (assumption) | (exact ⟨hs.pending, hs.mem, hs.regs, hs.keys⟩) | (intro) | (dsimp only) | (split)
    | (refine Keeps.upd ?_)

theorem State.fwdEnd_keeps {z : State} {kf : Bool} (s : State) (k : Fin 64) (d : Nat) (w : Nat) (hs : z.Keeps kf s) :
    z.Keeps kf (s.fwdEnd k d w) := by
  unfold State.fwdEnd
  repeat' with_reducible first
    | (exact hs) | (assumption) | (apply State.finish_keeps) | (intro) | (dsimp only) | (split)

theorem State.cascDrop_keeps {z : State} {kf : Bool} (s : State) (p : Nat) (hs : z.Keeps kf s) :
    z.Keeps kf (s.cascDrop p) := by
  unfold State.cascDrop
  repeat' with_reducible first
    | (exact hs) | (assumption) | (apply State.fwdEnd_keeps) | (apply State.raise_keeps) | (apply State.setCasc_keeps)
    | (apply State.setFld_keeps) | (apply Keeps.foldl) | (apply Keeps.foldl_fst) | (intro) | (dsimp only) | (split)

theorem State.selectPins_keeps {z : State} {kf : Bool} (s : State) (p : Nat) (hs : z.Keeps kf s) :
    z.Keeps kf (s.selectPins p) := by
  unfold State.selectPins
  repeat' with_reducible first
    | (exact hs) | (assumption) | (apply State.applyPin_keeps) | (apply Keeps.foldl) | (apply Keeps.foldl_fst)
    | (intro) | (dsimp only) | (split)

theorem State.cascJudge_keeps {z : State} {kf : Bool} (s : State) (p : Nat) (hs : z.Keeps kf s) :
    z.Keeps kf (s.cascJudge p) := by
  unfold State.cascJudge
  repeat' with_reducible first
    | (exact hs) | (assumption) | (apply State.selectPins_keeps) | (apply State.setPort_keeps)
    | (exact ⟨hs.pending, hs.mem, hs.regs, hs.keys⟩) | (intro) | (dsimp only) | (split) | (refine Keeps.upd ?_)

theorem State.cascNext_keeps {z : State} {kf : Bool} (s : State) (p : Nat) (hs : z.Keeps kf s) :
    z.Keeps kf (s.cascNext p) := by
  unfold State.cascNext
  repeat' with_reducible first
    | (exact hs) | (assumption) | (apply State.cascDrop_keeps) | (apply State.cascJudge_keeps)
    | (apply State.selectPins_keeps) | (apply State.setCasc_keeps) | (intro) | (dsimp only) | (split)

theorem State.cascAdd_keeps {z : State} {kf : Bool} (s : State) (p : Nat) (c : Casc) (hs : z.Keeps kf s) :
    z.Keeps kf (s.cascAdd p c) := by
  unfold State.cascAdd
  repeat' with_reducible first
    | (exact hs) | (assumption) | (apply State.selectPins_keeps) | (apply State.setCasc_keeps) | (intro)
    | (dsimp only) | (split)

theorem State.cascAbort_keeps {z : State} {kf : Bool} (s : State) (k : Fin 64) (p : Nat) (hs : z.Keeps kf s) :
    z.Keeps kf (s.cascAbort k p) := by
  unfold State.cascAbort
  repeat' with_reducible first
    | (exact hs) | (assumption) | (apply State.cascNext_keeps) | (apply State.setCasc_keeps) | (intro) | (dsimp only)
    | (split)

theorem State.workAbort_keeps {z : State} {kf : Bool} (s : State) (k : Fin 64) (hs : z.Keeps kf s) :
    z.Keeps kf (s.workAbort k) := by
  unfold State.workAbort
  repeat' with_reducible first
    | (exact hs) | (assumption) | (apply State.cascAbort_keeps) | (apply State.engCancel_keeps)
    | (apply State.lnOff_keeps) | (apply State.opAbort_keeps) | (apply State.radio_keeps)
    | (apply State.txnAbort_keeps) | (apply Keeps.foldl) | (apply Keeps.foldl_fst) | (intro) | (dsimp only) | (split)

theorem State.letGo_keeps {z : State} {kf : Bool} (s : State) (k : Fin 64) (hs : z.Keeps kf s) :
    z.Keeps kf (s.letGo k) := by
  unfold State.letGo
  repeat' with_reducible first
    | (exact hs) | (assumption) | (apply State.freeSem_keeps) | (apply State.setSem_keeps)
    | (apply State.withdraw_keeps) | (exact ⟨hs.pending, hs.mem, hs.regs, hs.keys⟩) | (apply Keeps.foldl)
    | (apply Keeps.foldl_fst) | (intro) | (dsimp only) | (split) | (refine Keeps.upd ?_)

theorem State.orphan_keeps {z : State} {kf : Bool} (s : State) (k : Fin 64) (hs : z.Keeps kf s) :
    z.Keeps kf (s.orphan k) := by
  unfold State.orphan
  repeat' with_reducible first
    | (exact hs) | (assumption) | (exact ⟨hs.pending, hs.mem, hs.regs, hs.keys⟩) | (intro) | (dsimp only) | (split)
    | (refine Keeps.upd ?_)

theorem State.ctxEnd_keeps {z : State} {kf : Bool} (s : State) (k : Fin 64) (status : Nat) (data : List Byte) (hs : z.Keeps kf s) :
    z.Keeps kf (s.ctxEnd k status data) := by
  unfold State.ctxEnd
  repeat' with_reducible first
    | (exact hs) | (assumption) | (apply State.complete_keeps) | (apply State.setCx_keeps)
    | (apply State.status_keeps) | (exact ⟨hs.pending, hs.mem, hs.regs, hs.keys⟩) | (intro) | (dsimp only) | (split)
    | (refine Keeps.upd ?_)

theorem State.cmdEnd_keeps {z : State} {kf : Bool} (s : State) (k : Fin 64) (status : Nat) (data : List Byte) (hs : z.Keeps kf s) :
    z.Keeps kf (s.cmdEnd k status data) := by
  unfold State.cmdEnd
  repeat' with_reducible first
    | (exact hs) | (assumption) | (apply State.ctxEnd_keeps) | (apply State.drain_keeps) | (apply State.letGo_keeps)
    | (apply State.orphan_keeps) | (apply State.status_keeps) | (intro) | (dsimp only) | (split)

theorem State.cmdAbort_keeps {z : State} {kf : Bool} (s : State) (k : Fin 64) (hs : z.Keeps kf s) :
    z.Keeps kf (s.cmdAbort k) := by
  unfold State.cmdAbort
  repeat' with_reducible first
    | (exact hs) | (assumption) | (apply State.ctxEnd_keeps) | (apply State.drain_keeps) | (apply State.letGo_keeps)
    | (apply State.workAbort_keeps) | (intro) | (dsimp only) | (split)

theorem State.trapNow_keeps {z : State} {kf : Bool} (s : State) (k : Fin 64) (cause : Nat) (hs : z.Keeps kf s) :
    z.Keeps kf (s.trapNow k cause) := by
  unfold State.trapNow
  repeat' with_reducible first
    | (exact hs) | (assumption) | (apply State.ctxEnd_keeps) | (apply State.drain_keeps) | (apply State.fault_keeps)
    | (apply State.letGo_keeps) | (apply State.raise_keeps) | (apply State.setFld_keeps) | (apply State.trap_keeps)
    | (apply State.workAbort_keeps) | (intro) | (dsimp only) | (split)

theorem State.trap_keeps {z : State} {kf : Bool} (s : State) (k : Fin 64) (cause : Nat) (hs : z.Keeps kf s) :
    z.Keeps kf (s.trap k cause) := by
  unfold State.trap
  repeat' with_reducible first
    | (exact hs) | (assumption) | (apply State.park_keeps) | (apply State.trapNow_keeps) | (intro) | (dsimp only)
    | (split)

theorem State.memoryGo_keeps {z : State} {kf : Bool} (s : State) (k : Fin 64) (hs : z.Keeps kf s) :
    z.Keeps kf (s.memoryGo k) := by
  unfold State.memoryGo
  repeat' with_reducible first
    | (exact hs) | (assumption) | (apply State.trap_keeps) | (apply State.trapNow_keeps) | (apply State.wake_keeps)
    | (intro) | (dsimp only) | (split)

theorem execPostedStoreComplete_stays {z : State} {kf : Bool} (k : Fin 64) (env : Env) (s : State) (hs : z.Keeps kf s) :
    z.Stays kf (execPostedStoreComplete k env s) := by
  unfold execPostedStoreComplete
  repeat' with_reducible first
    | (exact hs) | (assumption) | (apply State.memoryGo_keeps) | (apply State.next_keeps)
    | (apply State.storeNext_keeps) | (apply State.touch_keeps) | (apply State.upset_keeps) | (exact trivial)
    | (apply Keeps.next) | (intro) | (dsimp only) | (split)

theorem State.entryRead_keeps {z : State} {kf : Bool} (s : State) (n : Nat) (hs : z.Keeps kf s) :
    z.Keeps kf (s.entryRead n).1 := by
  unfold State.entryRead
  repeat' with_reducible first
    | (exact hs) | (assumption) | (apply State.readSpan_keeps) | (intro) | (dsimp only) | (split)

theorem State.ctxStart_keeps {z : State} {kf : Bool} (s : State) (key : Nat) (x : Slot) (k : Fin 64) (hs : z.Keeps kf s) :
    z.Keeps kf (s.ctxStart key x k) := by
  unfold State.ctxStart
  repeat' with_reducible first
    | (exact hs) | (assumption) | (apply State.draw_keeps) | (apply State.entryRead_keeps)
    | (apply State.leaveIdle_keeps) | (apply State.setCx_keeps) | (exact ⟨hs.pending, hs.mem, hs.regs, hs.keys⟩)
    | (intro) | (dsimp only) | (split) | (refine Keeps.upd ?_)

theorem execDispatch_stays {z : State} {kf : Bool} (s : State) (hs : z.Keeps kf s) :
    z.Stays kf (execDispatch s) := by
  unfold execDispatch
  repeat' with_reducible first
    | (exact hs) | (assumption) | (apply State.ctxStart_keeps) | (apply State.next_keeps) | (apply State.touch_keeps)
    | (exact trivial) | (apply Keeps.next) | (intro) | (dsimp only) | (split)

theorem execCommandPromoted_stays {z : State} {kf : Bool} (p : Fin 4) (slot : Fin 256) (s : State) (hs : z.Keeps kf s) :
    z.Stays kf (execCommandPromoted p slot s) := by
  unfold execCommandPromoted
  repeat' with_reducible first
    | (exact hs) | (assumption) | (apply State.moveTo_keeps) | (apply State.next_keeps) | (apply State.setSlot_keeps)
    | (exact trivial) | (apply Keeps.next) | (exact ⟨hs.pending, hs.mem, hs.regs, hs.keys⟩) | (intro) | (dsimp only)
    | (split) | (refine Keeps.upd ?_)

theorem execLostRecord_stays {z : State} {kf : Bool} (p : Fin 4) (s : State) (hs : z.Keeps kf s) :
    z.Stays kf (execLostRecord p s) := by
  unfold execLostRecord
  repeat' with_reducible first
    | (exact hs) | (assumption) | (apply State.lostRecord_keeps) | (apply State.next_keeps)
    | (apply State.touch_keeps) | (exact trivial) | (apply Keeps.next) | (intro) | (dsimp only) | (split)

theorem execScrubWriteBack_stays {z : State} {kf : Bool} (w : Nat) (s : State) (hs : z.Keeps kf s) :
    z.Stays kf (execScrubWriteBack w s) := by
  unfold execScrubWriteBack
  repeat' with_reducible first
    | (exact hs) | (assumption) | (apply State.next_keeps) | (apply State.setMark_keeps) | (apply State.touch_keeps)
    | (exact trivial) | (apply Keeps.next) | (intro) | (dsimp only) | (split)

theorem State.brushRead_keeps {z : State} {kf : Bool} (s : State) (r : Nat) (hs : z.Keeps kf s) :
    z.Keeps kf (s.brushRead r) := by
  unfold State.brushRead
  repeat' with_reducible first
    | (exact hs) | (assumption) | (apply State.readWord_keeps) | (apply State.setMark_keeps)
    | (exact ⟨hs.pending, hs.mem, hs.regs, hs.keys⟩) | (apply Keeps.foldl) | (apply Keeps.foldl_fst) | (intro)
    | (dsimp only) | (split) | (refine Keeps.upd ?_)

theorem execBrushRegionStart_stays {z : State} {kf : Bool} (s : State) (hs : z.Keeps kf s) :
    z.Stays kf (execBrushRegionStart s) := by
  unfold execBrushRegionStart
  repeat' with_reducible first
    | (exact hs) | (assumption) | (apply State.brushRead_keeps) | (apply State.leaveIdle_keeps)
    | (apply State.moveTo_keeps) | (apply State.next_keeps) | (apply State.setFld_keeps) | (exact trivial)
    | (apply Keeps.next) | (exact ⟨hs.pending, hs.mem, hs.regs, hs.keys⟩) | (intro) | (dsimp only) | (split)
    | (refine Keeps.upd ?_)

theorem State.brushFail_keeps {z : State} {kf : Bool} (s : State) (r : Nat) (bad : List Nat) (hs : z.Keeps kf s) :
    z.Keeps kf (s.brushFail r bad) := by
  unfold State.brushFail
  repeat' with_reducible first
    | (exact hs) | (assumption) | (apply State.fault_keeps) | (apply State.raise_keeps)
    | (exact ⟨hs.pending, hs.mem, hs.regs, hs.keys⟩) | (intro) | (dsimp only) | (split) | (refine Keeps.upd ?_)

theorem State.brushRestore_keeps {z : State} {kf : Bool} (s : State) (r : Nat) (hs : z.Keeps kf s) :
    z.Keeps kf (s.brushRestore r) := by
  unfold State.brushRestore
  repeat' with_reducible first
    | (exact hs) | (assumption) | (apply State.markFull_keeps) | (exact ⟨hs.pending, hs.mem, hs.regs, hs.keys⟩)
    | (apply Keeps.foldl) | (apply Keeps.foldl_fst) | (intro) | (dsimp only) | (split) | (refine Keeps.upd ?_)

theorem execRegionTestEnd_stays {z : State} {kf : Bool} (o : RegionObs) (s : State) (hs : z.Keeps kf s) :
    z.Stays kf (execRegionTestEnd o s) := by
  unfold execRegionTestEnd
  repeat' with_reducible first
    | (exact hs) | (assumption) | (apply State.brushFail_keeps) | (apply State.brushRestore_keeps)
    | (apply State.incMod_keeps) | (apply State.next_keeps) | (apply State.touch_keeps) | (exact trivial)
    | (apply Keeps.next) | (intro) | (dsimp only) | (split)

theorem State.portWait_keeps {z : State} {kf : Bool} (s : State) (b : Bank) (waited : Nat) (hs : z.Keeps kf s) :
    z.Keeps kf (s.portWait b waited) := by
  unfold State.portWait
  repeat' with_reducible first
    | (exact hs) | (assumption) | (apply State.raise_keeps) | (apply State.setFld_keeps) | (intro) | (dsimp only)
    | (split)

theorem execRequestPromoted_stays {z : State} {kf : Bool} (r : ReqId) (s : State) (hs : z.Keeps kf s) :
    z.Stays kf (execRequestPromoted r s) := by
  unfold execRequestPromoted
  repeat' with_reducible first
    | (exact hs) | (assumption) | (apply State.issue_stays) | (apply State.moveTo_keeps) | (apply State.next_keeps)
    | (apply State.portWait_keeps) | (apply State.setCx_keeps) | (apply State.touch_keeps) | (exact trivial)
    | (apply Keeps.next) | (exact ⟨hs.pending, hs.mem, hs.regs, hs.keys⟩) | (intro) | (dsimp only) | (split)
    | (refine Keeps.upd ?_)

theorem State.lineEnd_keeps {z : State} {kf : Bool} (s : State) (hs : z.Keeps kf s) :
    z.Keeps kf (s.lineEnd) := by
  unfold State.lineEnd
  repeat' with_reducible first
    | (exact hs) | (assumption) | (exact ⟨hs.pending, hs.mem, hs.regs, hs.keys⟩) | (intro) | (dsimp only) | (split)
    | (refine Keeps.upd ?_)

theorem execSyncPulse_stays {z : State} {kf : Bool} (s : State) (hs : z.Keeps kf s) :
    z.Stays kf (execSyncPulse s) := by
  unfold execSyncPulse
  repeat' with_reducible first
    | (exact hs) | (assumption) | (apply State.moveTo_keeps) | (apply State.next_keeps) | (exact trivial)
    | (apply Keeps.next) | (exact ⟨hs.pending, hs.mem, hs.regs, hs.keys⟩) | (intro) | (dsimp only) | (split)
    | (refine Keeps.upd ?_)

theorem execCodeMarker_stays {z : State} {kf : Bool} (s : State) (hs : z.Keeps kf s) :
    z.Stays kf (execCodeMarker s) := by
  unfold execCodeMarker
  repeat' with_reducible first
    | (exact hs) | (assumption) | (apply State.moveTo_keeps) | (apply State.next_keeps) | (exact trivial)
    | (apply Keeps.next) | (exact ⟨hs.pending, hs.mem, hs.regs, hs.keys⟩) | (intro) | (dsimp only) | (split)
    | (refine Keeps.upd ?_)

theorem State.lineAcquire_keeps {z : State} {kf : Bool} (s : State) (hs : z.Keeps kf s) :
    z.Keeps kf (s.lineAcquire) := by
  unfold State.lineAcquire
  repeat' with_reducible first
    | (exact hs) | (assumption) | (apply State.setFld_keeps) | (exact ⟨hs.pending, hs.mem, hs.regs, hs.keys⟩)
    | (intro) | (dsimp only) | (split) | (refine Keeps.upd ?_)

theorem State.trimAdd_keeps {z : State} {kf : Bool} (s : State) (d : Int) (hs : z.Keeps kf s) :
    z.Keeps kf (s.trimAdd d) := by
  unfold State.trimAdd
  repeat' with_reducible first
    | (exact hs) | (assumption) | (apply State.setFld_keeps) | (intro) | (dsimp only) | (split)

theorem State.edgeAcquiring_keeps {z : State} {kf : Bool} (s : State) (e : Int) (hs : z.Keeps kf s) :
    z.Keeps kf (s.edgeAcquiring e) := by
  unfold State.edgeAcquiring
  repeat' with_reducible first
    | (exact hs) | (assumption) | (apply State.setFld_keeps) | (exact ⟨hs.pending, hs.mem, hs.regs, hs.keys⟩)
    | (intro) | (dsimp only) | (split) | (refine Keeps.upd ?_)

theorem State.edgeLocked_keeps {z : State} {kf : Bool} (s : State) (e : Int) (hs : z.Keeps kf s) :
    z.Keeps kf (s.edgeLocked e) := by
  unfold State.edgeLocked
  repeat' with_reducible first
    | (exact hs) | (assumption) | (apply State.lineAcquire_keeps) | (apply State.trimAdd_keeps)
    | (exact ⟨hs.pending, hs.mem, hs.regs, hs.keys⟩) | (intro) | (dsimp only) | (split) | (refine Keeps.upd ?_)

theorem execLineEdge_stays {z : State} {kf : Bool} (o : LineObs) (s : State) (hs : z.Keeps kf s) :
    z.Stays kf (execLineEdge o s) := by
  unfold execLineEdge
  repeat' with_reducible first
    | (exact hs) | (assumption) | (apply State.edgeAcquiring_keeps) | (apply State.edgeLocked_keeps)
    | (apply State.moveTo_keeps) | (apply State.next_keeps) | (apply State.setFld_keeps) | (exact trivial)
    | (apply Keeps.next) | (exact ⟨hs.pending, hs.mem, hs.regs, hs.keys⟩) | (intro) | (dsimp only) | (split)
    | (refine Keeps.upd ?_)

theorem State.launchersPassed_keeps {z : State} {kf : Bool} (s : State) (t0 : Nat) (t1 : Nat) (hs : z.Keeps kf s) :
    z.Keeps kf (s.launchersPassed t0 t1) := by
  unfold State.launchersPassed
  repeat' with_reducible first
    | (exact hs) | (assumption) | (apply State.setLauncher_keeps) | (exact ⟨hs.pending, hs.mem, hs.regs, hs.keys⟩)
    | (apply Keeps.foldl) | (apply Keeps.foldl_fst) | (intro) | (dsimp only) | (split) | (refine Keeps.upd ?_)

theorem State.timeSet_keeps {z : State} {kf : Bool} (s : State) (m : Nat) (t : Int) (hs : z.Keeps kf s) :
    z.Keeps kf (s.timeSet m t) := by
  unfold State.timeSet
  repeat' with_reducible first
    | (exact hs) | (assumption) | (apply State.launchersPassed_keeps) | (exact ⟨hs.pending, hs.mem, hs.regs, hs.keys⟩)
    | (intro) | (dsimp only) | (split) | (refine Keeps.upd ?_)

theorem State.codeErr_keeps {z : State} {kf : Bool} (s : State) (hs : z.Keeps kf s) :
    z.Keeps kf (s.codeErr) := by
  unfold State.codeErr
  repeat' with_reducible first
    | (exact hs) | (assumption) | (apply State.raise_keeps) | (intro) | (dsimp only) | (split)

theorem State.codeTake_keeps {z : State} {kf : Bool} (s : State) (w : Nat) (hs : z.Keeps kf s) :
    z.Keeps kf (s.codeTake w) := by
  unfold State.codeTake
  repeat' with_reducible first
    | (exact hs) | (assumption) | (apply State.setFld_keeps) | (intro) | (dsimp only) | (split)

theorem State.codeGood_keeps {z : State} {kf : Bool} (s : State) (w : Nat) (m : Nat) (hs : z.Keeps kf s) :
    z.Keeps kf (s.codeGood w m) := by
  unfold State.codeGood
  repeat' with_reducible first
    | (exact hs) | (assumption) | (apply State.codeErr_keeps) | (apply State.codeTake_keeps)
    | (apply State.lineAcquire_keeps) | (apply State.timeSet_keeps) | (exact ⟨hs.pending, hs.mem, hs.regs, hs.keys⟩)
    | (intro) | (dsimp only) | (split) | (refine Keeps.upd ?_)

theorem execTimeCode_stays {z : State} {kf : Bool} (code : BitVec 64) (s : State) (hs : z.Keeps kf s) :
    z.Stays kf (execTimeCode code s) := by
  unfold execTimeCode
  repeat' with_reducible first
    | (exact hs) | (assumption) | (apply State.codeErr_keeps) | (apply State.codeGood_keeps)
    | (apply State.moveTo_keeps) | (apply State.next_keeps) | (exact trivial) | (apply Keeps.next)
    | (exact ⟨hs.pending, hs.mem, hs.regs, hs.keys⟩) | (intro) | (dsimp only) | (split) | (refine Keeps.upd ?_)

theorem execHoldover_stays {z : State} {kf : Bool} (s : State) (hs : z.Keeps kf s) :
    z.Stays kf (execHoldover s) := by
  unfold execHoldover
  repeat' with_reducible first
    | (exact hs) | (assumption) | (apply State.fault_keeps) | (apply State.moveTo_keeps) | (apply State.next_keeps)
    | (apply State.raise_keeps) | (apply State.setFld_keeps) | (exact trivial) | (apply Keeps.next) | (intro)
    | (dsimp only) | (split)

theorem State.cascStore_keeps {z : State} {kf : Bool} (s : State) (nout : Nat) (nin : Nat) (buf : Nat) (words : List Word) (hs : z.Keeps kf s) :
    z.Keeps kf (s.cascStore nout nin buf words) := by
  unfold State.cascStore
  repeat' with_reducible first
    | (exact hs) | (assumption) | (apply State.masterWrite_keeps) | (apply State.setFld_keeps) | (intro)
    | (dsimp only) | (split)

theorem State.rttNote_keeps {z : State} {kf : Bool} (s : State) (w : Nat) (rtt : Nat) (hs : z.Keeps kf s) :
    z.Keeps kf (s.rttNote w rtt) := by
  unfold State.rttNote
  repeat' with_reducible first
    | (exact hs) | (assumption) | (apply State.setFld_keeps) | (intro) | (dsimp only) | (split)

theorem State.fwdRead_keeps {z : State} {kf : Bool} (s : State) (p : Nat) (k : Fin 64) (d : Nat) (w : Nat) (words : List Word) (again : Bool) (t : Ticket) (v : Word) (hs : z.Keeps kf s) :
    z.Keeps kf (s.fwdRead p k d w words again t v) := by
  unfold State.fwdRead
  repeat' with_reducible first
    | (exact hs) | (assumption) | (apply State.cascNext_keeps) | (apply State.fwdEnd_keeps)
    | (apply State.setCasc_keeps) | (intro) | (dsimp only) | (split)

theorem execCascadeFrameEnd_stays {z : State} {kf : Bool} (p : Fin 4) (o : CascObs) (s : State) (hs : z.Keeps kf s) :
    z.Stays kf (execCascadeFrameEnd p o s) := by
  unfold execCascadeFrameEnd
  repeat' with_reducible first
    | (exact hs) | (assumption) | (apply State.cascNext_keeps) | (apply State.cascStore_keeps)
    | (apply State.fwdRead_keeps) | (apply State.next_keeps) | (apply State.raise_keeps) | (apply State.rttNote_keeps)
    | (apply State.touch_keeps) | (exact trivial) | (apply Keeps.next) | (intro) | (dsimp only) | (split)

theorem execWorkerTimeout_stays {z : State} {kf : Bool} (p : Fin 4) (o : CascObs) (s : State) (hs : z.Keeps kf s) :
    z.Stays kf (execWorkerTimeout p o s) := by
  unfold execWorkerTimeout
  repeat' with_reducible first
    | (exact hs) | (assumption) | (apply State.cascNext_keeps) | (apply State.cascStore_keeps)
    | (apply State.fwdEnd_keeps) | (apply State.next_keeps) | (apply State.raise_keeps) | (apply State.touch_keeps)
    | (exact trivial) | (apply Keeps.next) | (intro) | (dsimp only) | (split)

theorem State.frameGo_keeps {z : State} {kf : Bool} (s : State) (t : Ticket) (hs : z.Keeps kf s) :
    z.Keeps kf (s.frameGo t) := by
  unfold State.frameGo
  repeat' with_reducible first
    | (exact hs) | (assumption) | (apply State.cascAdd_keeps) | (apply State.readSpan_keeps) | (intro) | (dsimp only)
    | (split)

theorem State.forward_keeps {z : State} {kf : Bool} (s : State) (k : Fin 64) (d : Nat) (w : Nat) (words : List Word) (hs : z.Keeps kf s) :
    z.Keeps kf (s.forward k d w words) := by
  unfold State.forward
  repeat' with_reducible first
    | (exact hs) | (assumption) | (apply State.cascAdd_keeps) | (apply State.finish_keeps) | (apply State.park_keeps)
    | (intro) | (dsimp only) | (split)

theorem execXo32Edge_stays {z : State} {kf : Bool} (s : State) (hs : z.Keeps kf s) :
    z.Stays kf (execXo32Edge s) := by
  unfold execXo32Edge
  repeat' with_reducible first
    | (exact hs) | (assumption) | (apply State.next_keeps) | (exact trivial) | (apply Keeps.next)
    | (exact ⟨hs.pending, hs.mem, hs.regs, hs.keys⟩) | (intro) | (dsimp only) | (split) | (refine Keeps.upd ?_)

theorem State.pinDrive_keeps {z : State} {kf : Bool} (s : State) (n : Nat) (level : Bool) (hs : z.Keeps kf s) :
    z.Keeps kf (s.pinDrive n level) := by
  unfold State.pinDrive
  repeat' with_reducible first
    | (exact hs) | (assumption) | (apply State.applyPin_keeps) | (apply State.store_keeps) | (intro) | (dsimp only)
    | (split)

theorem execPinPulseEnd_stays {z : State} {kf : Bool} (pin : Fin 16) (s : State) (hs : z.Keeps kf s) :
    z.Stays kf (execPinPulseEnd pin s) := by
  unfold execPinPulseEnd
  repeat' with_reducible first
    | (exact hs) | (assumption) | (apply State.moveTo_keeps) | (apply State.next_keeps) | (apply State.pinDrive_keeps)
    | (exact trivial) | (apply Keeps.next) | (exact ⟨hs.pending, hs.mem, hs.regs, hs.keys⟩) | (intro) | (dsimp only)
    | (split) | (refine Keeps.upd ?_)

theorem execPinWordWrite_stays {z : State} {kf : Bool} (_m : Master) (n : Fin 16) (v : Word) (s : State) (hs : z.Keeps kf s) :
    z.Stays kf (execPinWordWrite _m n v s) := by
  unfold execPinWordWrite
  repeat' with_reducible first
    | (exact hs) | (assumption) | (apply State.masterWrite_keeps) | (apply State.next_keeps)
    | (apply State.touch_keeps) | (exact trivial) | (apply Keeps.next) | (intro) | (dsimp only) | (split)

theorem execGpInputChange_stays {z : State} {kf : Bool} (n : Fin 16) (level : Bool) (s : State) (hs : z.Keeps kf s) :
    z.Stays kf (execGpInputChange n level s) := by
  unfold execGpInputChange
  repeat' with_reducible first
    | (exact hs) | (assumption) | (apply State.inSync_keeps) | (apply State.next_keeps) | (apply State.touch_keeps)
    | (exact trivial) | (apply Keeps.next) | (exact ⟨hs.pending, hs.mem, hs.regs, hs.keys⟩) | (intro) | (dsimp only)
    | (split) | (refine Keeps.upd ?_)

theorem execInRefresh_stays {z : State} {kf : Bool} (s : State) (hs : z.Keeps kf s) :
    z.Stays kf (execInRefresh s) := by
  unfold execInRefresh
  repeat' with_reducible first
    | (exact hs) | (assumption) | (apply State.inWrite_keeps) | (apply State.moveTo_keeps) | (apply State.next_keeps)
    | (exact trivial) | (apply Keeps.next) | (apply Keeps.foldl) | (apply Keeps.foldl_fst) | (intro) | (dsimp only)
    | (split)

theorem State.lnNext_keeps {z : State} {kf : Bool} (s : State) (n : Nat) (st : Nat) (hs : z.Keeps kf s) :
    z.Keeps kf (s.lnNext n st) := by
  unfold State.lnNext
  repeat' with_reducible first
    | (exact hs) | (assumption) | (apply State.lnOff_keeps) | (apply State.setLauncher_keeps)
    | (exact ⟨hs.pending, hs.mem, hs.regs, hs.keys⟩) | (intro) | (dsimp only) | (split) | (refine Keeps.upd ?_)

theorem State.lnDrop_keeps {z : State} {kf : Bool} (s : State) (n : Nat) (st : Nat) (hs : z.Keeps kf s) :
    z.Keeps kf (s.lnDrop n st) := by
  unfold State.lnDrop
  repeat' with_reducible first
    | (exact hs) | (assumption) | (apply State.lnNext_keeps) | (apply State.lnOff_keeps) | (apply State.setFld_keeps)
    | (intro) | (dsimp only) | (split)

theorem State.pinAct_keeps {z : State} {kf : Bool} (s : State) (action : Nat) (arg : Nat) (st : Nat) (hs : z.Keeps kf s) :
    z.Keeps kf (s.pinAct action arg st) := by
  unfold State.pinAct
  repeat' with_reducible first
    | (exact hs) | (assumption) | (apply State.pinDrive_keeps) | (exact ⟨hs.pending, hs.mem, hs.regs, hs.keys⟩)
    | (intro) | (dsimp only) | (split) | (refine Keeps.upd ?_)

theorem State.lnAct_keeps {z : State} {kf : Bool} (s : State) (n : Nat) (x : Lnch) (st : Nat) (hs : z.Keeps kf s) :
    z.Keeps kf (s.lnAct n x st) := by
  unfold State.lnAct
  repeat' with_reducible first
    | (exact hs) | (assumption) | (apply State.dmaStart_keeps) | (apply State.leaveIdle_keeps)
    | (apply State.pinAct_keeps) | (apply State.post_keeps) | (apply State.submitInternal_keeps)
    | (apply State.wake_keeps) | (intro) | (dsimp only) | (split)

theorem State.lnOccur_keeps {z : State} {kf : Bool} (s : State) (n : Nat) (x : Lnch) (st : Nat) (late : Bool) (hs : z.Keeps kf s) :
    z.Keeps kf (s.lnOccur n x st late) := by
  unfold State.lnOccur
  repeat' with_reducible first
    | (exact hs) | (assumption) | (apply State.lnAct_keeps) | (apply State.lnDrop_keeps) | (apply State.lnHit_keeps)
    | (apply State.lnNext_keeps) | (apply State.setFld_keeps) | (apply State.setLauncher_keeps)
    | (exact ⟨hs.pending, hs.mem, hs.regs, hs.keys⟩) | (intro) | (dsimp only) | (split) | (refine Keeps.upd ?_)

theorem State.txOccur_keeps {z : State} {kf : Bool} (s : State) (n : Nat) (o : RadioOp) (hs : z.Keeps kf s) :
    z.Keeps kf (s.txOccur n o) := by
  unfold State.txOccur
  repeat' with_reducible first
    | (exact hs) | (assumption) | (apply State.lnHit_keeps) | (apply State.lnOff_keeps) | (apply State.moveTo_keeps)
    | (intro) | (dsimp only) | (split)

theorem State.tuneOccur_keeps {z : State} {kf : Bool} (s : State) (n : Nat) (x : Lnch) (id : Nat) (o : RadioOp) (hs : z.Keeps kf s) :
    z.Keeps kf (s.tuneOccur n x id o) := by
  unfold State.tuneOccur
  repeat' with_reducible first
    | (exact hs) | (assumption) | (apply Fetch.release_keeps) | (apply State.lnHit_keeps) | (apply State.lnOff_keeps)
    | (apply State.moveTo_keeps) | (apply State.opEnd_keeps) | (apply State.park_keeps)
    | (apply State.powerClaim_keeps) | (apply State.radio_keeps) | (apply State.setFld_keeps)
    | (apply State.setOp_keeps) | (apply State.tuneAdd_keeps) | (apply State.tuneGo_keeps)
    | (exact ⟨hs.pending, hs.mem, hs.regs, hs.keys⟩) | (intro) | (dsimp only) | (split) | (refine Keeps.upd ?_)

theorem State.winOccur_keeps {z : State} {kf : Bool} (s : State) (n : Nat) (x : Lnch) (id : Nat) (o : RadioOp) (hs : z.Keeps kf s) :
    z.Keeps kf (s.winOccur n x id o) := by
  unfold State.winOccur
  repeat' with_reducible first
    | (exact hs) | (assumption) | (apply State.dropOp_keeps) | (apply State.lnHit_keeps) | (apply State.lnOff_keeps)
    | (apply State.moveTo_keeps) | (apply State.opEnd_keeps) | (apply State.setFld_keeps) | (apply State.setOp_keeps)
    | (exact ⟨hs.pending, hs.mem, hs.regs, hs.keys⟩) | (intro) | (dsimp only) | (split) | (refine Keeps.upd ?_)

theorem State.beaconsLate_keeps {z : State} {kf : Bool} (s : State) (gid : Nat) (st : Nat) (hs : z.Keeps kf s) :
    z.Keeps kf (s.beaconsLate gid st) := by
  unfold State.beaconsLate
  repeat' with_reducible first
    | (exact hs) | (assumption) | (apply State.txLate_keeps) | (apply Keeps.foldl) | (apply Keeps.foldl_fst) | (intro)
    | (dsimp only) | (split)

theorem State.beaconOccur_keeps {z : State} {kf : Bool} (s : State) (n : Fin 32) (x : Lnch) (gid : Nat) (hs : z.Keeps kf s) :
    z.Keeps kf (s.beaconOccur n x gid) := by
  unfold State.beaconOccur
  repeat' with_reducible first
    | (exact hs) | (assumption) | (apply State.beaconNew_keeps) | (apply State.beaconsLate_keeps)
    | (apply State.gackStop_keeps) | (apply State.lnHit_keeps) | (apply State.moveTo_keeps)
    | (apply State.setLauncher_keeps) | (exact ⟨hs.pending, hs.mem, hs.regs, hs.keys⟩) | (intro) | (dsimp only)
    | (split) | (refine Keeps.upd ?_)

theorem State.radioOccur_keeps {z : State} {kf : Bool} (s : State) (n : Fin 32) (x : Lnch) (hs : z.Keeps kf s) :
    z.Keeps kf (s.radioOccur n x) := by
  unfold State.radioOccur
  repeat' with_reducible first
    | (exact hs) | (assumption) | (apply State.beaconOccur_keeps) | (apply State.tuneOccur_keeps)
    | (apply State.txOccur_keeps) | (apply State.winOccur_keeps) | (intro) | (dsimp only) | (split)

theorem State.sleepOccur_keeps {z : State} {kf : Bool} (s : State) (n : Nat) (x : Lnch) (hs : z.Keeps kf s) :
    z.Keeps kf (s.sleepOccur n x) := by
  unfold State.sleepOccur
  repeat' with_reducible first
    | (exact hs) | (assumption) | (apply State.lnDrop_keeps) | (apply State.lnHit_keeps) | (apply State.lnNext_keeps)
    | (apply State.setFld_keeps) | (apply State.setLauncher_keeps) | (apply State.wakeByLauncher_keeps)
    | (exact ⟨hs.pending, hs.mem, hs.regs, hs.keys⟩) | (intro) | (dsimp only) | (split) | (refine Keeps.upd ?_)

theorem State.occur_keeps {z : State} {kf : Bool} (s : State) (n : Fin 32) (hs : z.Keeps kf s) :
    z.Keeps kf (s.occur n) := by
  unfold State.occur
  repeat' with_reducible first
    | (exact hs) | (assumption) | (apply State.lnOccur_keeps) | (apply State.moveTo_keeps)
    | (apply State.radioOccur_keeps) | (apply State.sleepOccur_keeps) | (intro) | (dsimp only) | (split)

theorem execLauncherOccurrence_stays {z : State} {kf : Bool} (n : Fin 32) (s : State) (hs : z.Keeps kf s) :
    z.Stays kf (execLauncherOccurrence n s) := by
  unfold execLauncherOccurrence
  repeat' with_reducible first
    | (exact hs) | (assumption) | (apply State.next_keeps) | (apply State.occur_keeps) | (exact trivial)
    | (apply Keeps.next) | (intro) | (dsimp only) | (split)

theorem State.occurDue_keeps {z : State} {kf : Bool} (s : State) (n : Fin 32) (hs : z.Keeps kf s) :
    z.Keeps kf (s.occurDue n) := by
  unfold State.occurDue
  repeat' with_reducible first
    | (exact hs) | (assumption) | (apply State.occur_keeps) | (intro) | (dsimp only) | (split)

theorem execLateOccurrenceReady_stays {z : State} {kf : Bool} (n : Fin 32) (s : State) (hs : z.Keeps kf s) :
    z.Stays kf (execLateOccurrenceReady n s) := by
  unfold execLateOccurrenceReady
  repeat' with_reducible first
    | (exact hs) | (assumption) | (apply State.lnOccur_keeps) | (apply State.next_keeps)
    | (apply State.radioOccur_keeps) | (apply State.setLauncher_keeps) | (apply State.touch_keeps) | (exact trivial)
    | (apply Keeps.next) | (exact ⟨hs.pending, hs.mem, hs.regs, hs.keys⟩) | (intro) | (dsimp only) | (split)
    | (refine Keeps.upd ?_)

theorem execTempSample_stays {z : State} {kf : Bool} (raw : Int) (s : State) (hs : z.Keeps kf s) :
    z.Stays kf (execTempSample raw s) := by
  unfold execTempSample
  repeat' with_reducible first
    | (exact hs) | (assumption) | (apply State.moveTo_keeps) | (apply State.next_keeps) | (apply State.tempTake_keeps)
    | (apply State.trimNow_keeps) | (exact trivial) | (apply Keeps.next)
    | (exact ⟨hs.pending, hs.mem, hs.regs, hs.keys⟩) | (intro) | (dsimp only) | (split) | (refine Keeps.upd ?_)

theorem execSelfMeasure_stays {z : State} {kf : Bool} (count : Nat) (s : State) (hs : z.Keeps kf s) :
    z.Stays kf (execSelfMeasure count s) := by
  unfold execSelfMeasure
  repeat' with_reducible first
    | (exact hs) | (assumption) | (apply State.next_keeps) | (apply State.selfLearn_keeps) | (apply State.touch_keeps)
    | (exact trivial) | (apply Keeps.next) | (exact ⟨hs.pending, hs.mem, hs.regs, hs.keys⟩) | (intro) | (dsimp only)
    | (split) | (refine Keeps.upd ?_)

theorem execTempLogEntry_stays {z : State} {kf : Bool} (s : State) (hs : z.Keeps kf s) :
    z.Stays kf (execTempLogEntry s) := by
  unfold execTempLogEntry
  repeat' with_reducible first
    | (exact hs) | (assumption) | (apply State.moveTo_keeps) | (apply State.next_keeps) | (apply State.store_keeps)
    | (exact trivial) | (apply Keeps.next) | (intro) | (dsimp only) | (split)

theorem execTwaitExpiry_stays {z : State} {kf : Bool} (k : Fin 64) (s : State) (hs : z.Keeps kf s) :
    z.Stays kf (execTwaitExpiry k s) := by
  unfold execTwaitExpiry
  repeat' with_reducible first
    | (exact hs) | (assumption) | (apply State.moveTo_keeps) | (apply State.next_keeps) | (apply State.wake_keeps)
    | (exact trivial) | (apply Keeps.next) | (intro) | (dsimp only) | (split)

theorem execWaiteTimeout_stays {z : State} {kf : Bool} (k : Fin 64) (s : State) (hs : z.Keeps kf s) :
    z.Stays kf (execWaiteTimeout k s) := by
  unfold execWaiteTimeout
  repeat' with_reducible first
    | (exact hs) | (assumption) | (apply State.moveTo_keeps) | (apply State.next_keeps) | (apply State.setCx_keeps)
    | (apply State.waite_keeps) | (apply State.wake_keeps) | (exact trivial) | (apply Keeps.next)
    | (exact ⟨hs.pending, hs.mem, hs.regs, hs.keys⟩) | (intro) | (dsimp only) | (split) | (refine Keeps.upd ?_)

theorem execRxwinStart_stays {z : State} {kf : Bool} (w : Nat) (s : State) (hs : z.Keeps kf s) :
    z.Stays kf (execRxwinStart w s) := by
  unfold execRxwinStart
  repeat' with_reducible first
    | (exact hs) | (assumption) | (apply State.moveTo_keeps) | (apply State.next_keeps) | (apply State.palJudge_keeps)
    | (apply State.setFld_keeps) | (apply State.windowsOk_keeps) | (exact trivial) | (apply Keeps.next)
    | (exact ⟨hs.pending, hs.mem, hs.regs, hs.keys⟩) | (intro) | (dsimp only) | (split) | (refine Keeps.upd ?_)

theorem execRxwinEnd_stays {z : State} {kf : Bool} (w : Nat) (s : State) (hs : z.Keeps kf s) :
    z.Stays kf (execRxwinEnd w s) := by
  unfold execRxwinEnd
  repeat' with_reducible first
    | (exact hs) | (assumption) | (apply State.moveTo_keeps) | (apply State.next_keeps) | (apply State.opEnd_keeps)
    | (apply State.palJudge_keeps) | (apply State.setFld_keeps) | (exact trivial) | (apply Keeps.next)
    | (exact ⟨hs.pending, hs.mem, hs.regs, hs.keys⟩) | (apply Keeps.foldl) | (apply Keeps.foldl_fst) | (intro)
    | (dsimp only) | (split) | (refine Keeps.upd ?_)

theorem State.readReg_keeps {z : State} {kf : Bool} (s : State) (m : Master) (off : Nat) (hs : z.Keeps kf s) :
    z.Keeps kf (s.readReg m off).1 := by
  unfold State.readReg
  repeat' with_reducible first
    | (exact hs) | (assumption) | (apply State.draw_keeps) | (exact ⟨hs.pending, hs.mem, hs.regs, hs.keys⟩) | (intro)
    | (dsimp only) | (split) | (refine Keeps.upd ?_)

theorem State.consume_keeps {z : State} {kf : Bool} (s : State) (off : Nat) (hs : z.Keeps kf s) :
    z.Keeps kf (s.consume off) := by
  unfold State.consume
  repeat' with_reducible first
    | (exact hs) | (assumption) | (apply State.setReg_keeps) | (apply Keeps.foldl) | (apply Keeps.foldl_fst) | (intro)
    | (dsimp only) | (split)

theorem State.readWhole_keeps {z : State} {kf : Bool} (s : State) (m : Master) (off : Nat) (hs : z.Keeps kf s) :
    z.Keeps kf (s.readWhole m off).1 := by
  unfold State.readWhole
  repeat' with_reducible first
    | (exact hs) | (assumption) | (apply State.consume_keeps) | (apply State.readReg_keeps) | (intro) | (dsimp only)
    | (split)

theorem State.effSys_keeps {z : State} (s : State) (off : Nat) (w : Word) (hs : z.Keeps false s) :
    z.Keeps false (s.effSys off w) := by
  unfold State.effSys
  repeat' with_reducible first
    | (exact hs) | (assumption) | (apply State.setFld_keeps) | (apply State.softReset_keeps) | (intro) | (dsimp only)
    | (split)

theorem State.effClk_keeps {z : State} {kf : Bool} (s : State) (old : State) (off : Nat) (w : Word) (hs : z.Keeps kf s) :
    z.Keeps kf (s.effClk old off w) := by
  unfold State.effClk
  repeat' with_reducible first
    | (exact hs) | (assumption) | (apply State.cmrJudge_keeps) | (apply State.coreBypChanged_keeps)
    | (apply State.relock_keeps) | (intro) | (dsimp only) | (split)

theorem State.powerRequest_keeps {z : State} {kf : Bool} (s : State) (w : Word) (hs : z.Keeps kf s) :
    z.Keeps kf (s.powerRequest w) := by
  unfold State.powerRequest
  repeat' with_reducible first
    | (exact hs) | (assumption) | (exact ⟨hs.pending, hs.mem, hs.regs, hs.keys⟩) | (intro) | (dsimp only) | (split)
    | (refine Keeps.upd ?_)

theorem State.denyClaim_keeps {z : State} {kf : Bool} (s : State) (c : Claim) (hs : z.Keeps kf s) :
    z.Keeps kf (s.denyClaim c) := by
  unfold State.denyClaim
  repeat' with_reducible first
    | (exact hs) | (assumption) | (apply State.deny_keeps) | (apply State.dropEng_keeps) | (apply State.engEnd_keeps)
    | (apply State.finish_keeps) | (apply State.opEnd_keeps) | (apply State.txEnd_keeps)
    | (exact ⟨hs.pending, hs.mem, hs.regs, hs.keys⟩) | (apply Keeps.foldl) | (apply Keeps.foldl_fst) | (intro)
    | (dsimp only) | (split) | (refine Keeps.upd ?_)

theorem State.budgetJudge_keeps {z : State} {kf : Bool} (s : State) (hs : z.Keeps kf s) :
    z.Keeps kf (s.budgetJudge) := by
  unfold State.budgetJudge
  repeat' with_reducible first
    | (exact hs) | (assumption) | (apply State.denyClaim_keeps) | (apply Keeps.foldl) | (apply Keeps.foldl_fst)
    | (intro) | (dsimp only) | (split)

theorem State.effPwr_keeps {z : State} {kf : Bool} (s : State) (off : Nat) (w : Word) (hs : z.Keeps kf s) :
    z.Keeps kf (s.effPwr off w) := by
  unfold State.effPwr
  repeat' with_reducible first
    | (exact hs) | (assumption) | (apply State.budgetJudge_keeps) | (apply State.leaveIdle_keeps)
    | (apply State.powerRequest_keeps) | (apply State.setFld_keeps) | (exact ⟨hs.pending, hs.mem, hs.regs, hs.keys⟩)
    | (intro) | (dsimp only) | (split) | (refine Keeps.upd ?_)

theorem State.effHost_keeps {z : State} {kf : Bool} (s : State) (old : State) (l : List (Nat × Word)) (off : Nat) (hs : z.Keeps kf s) :
    z.Keeps kf (s.effHost old l off) := by
  unfold State.effHost
  repeat' with_reducible first
    | (exact hs) | (assumption) | (apply State.applyPin_keeps) | (apply State.cascJudge_keeps)
    | (apply State.ringReset_keeps) | (apply Keeps.foldl) | (apply Keeps.foldl_fst) | (intro) | (dsimp only) | (split)

theorem State.effSeq_keeps {z : State} {kf : Bool} (s : State) (m : Master) (off : Nat) (w : Word) (hs : z.Keeps kf s) :
    z.Keeps kf (s.effSeq m off w) := by
  unfold State.effSeq
  repeat' with_reducible first
    | (exact hs) | (assumption) | (apply State.freeSem_keeps) | (apply State.setSem_keeps) | (intro) | (dsimp only)
    | (split)

theorem State.lnWrite_keeps {z : State} {kf : Bool} (s : State) (n : Nat) (hs : z.Keeps kf s) :
    z.Keeps kf (s.lnWrite n) := by
  unfold State.lnWrite
  repeat' with_reducible first
    | (exact hs) | (assumption) | (apply State.lnArm_keeps) | (intro) | (dsimp only) | (split)

theorem State.tatCancel_keeps {z : State} {kf : Bool} (s : State) (n : Nat) (owner : Option (Fin 64)) (hs : z.Keeps kf s) :
    z.Keeps kf (s.tatCancel n owner) := by
  unfold State.tatCancel
  repeat' with_reducible first
    | (exact hs) | (assumption) | (apply State.setCx_keeps) | (apply State.wake_keeps)
    | (exact ⟨hs.pending, hs.mem, hs.regs, hs.keys⟩) | (intro) | (dsimp only) | (split) | (refine Keeps.upd ?_)

theorem State.lnCancel_keeps {z : State} {kf : Bool} (s : State) (n : Nat) (hs : z.Keeps kf s) :
    z.Keeps kf (s.lnCancel n) := by
  unfold State.lnCancel
  repeat' with_reducible first
    | (exact hs) | (assumption) | (apply State.lnOff_keeps) | (apply State.opAbort_keeps)
    | (apply State.tatCancel_keeps) | (intro) | (dsimp only) | (split)

theorem State.effCvn_keeps {z : State} {kf : Bool} (s : State) (old : State) (off : Nat) (w : Word) (hs : z.Keeps kf s) :
    z.Keeps kf (s.effCvn old off w) := by
  unfold State.effCvn
  repeat' with_reducible first
    | (exact hs) | (assumption) | (apply State.devNum_keeps) | (apply State.lineEnd_keeps)
    | (apply State.lineJudge_keeps) | (apply State.lnCancel_keeps) | (apply State.lnWrite_keeps)
    | (exact ⟨hs.pending, hs.mem, hs.regs, hs.keys⟩) | (intro) | (dsimp only) | (split) | (refine Keeps.upd ?_)

theorem State.seedWrite_keeps {z : State} {kf : Bool} (s : State) (w : Word) (hs : z.Keeps kf s) :
    z.Keeps kf (s.seedWrite w) := by
  unfold State.seedWrite
  repeat' with_reducible first
    | (exact hs) | (assumption) | (apply State.setSyn_keeps) | (exact ⟨hs.pending, hs.mem, hs.regs, hs.keys⟩)
    | (intro) | (dsimp only) | (split) | (refine Keeps.upd ?_)

theorem State.effRfa_keeps {z : State} {kf : Bool} (s : State) (old : State) (t : Ticket) (off : Nat) (w : Word) (hs : z.Keeps kf s) :
    z.Keeps kf (s.effRfa old t off w) := by
  unfold State.effRfa
  repeat' with_reducible first
    | (exact hs) | (assumption) | (apply State.calRequest_keeps) | (apply State.palJudge_keeps)
    | (apply State.seedWrite_keeps) | (apply State.setFld_keeps) | (apply State.setReg_keeps)
    | (exact ⟨hs.pending, hs.mem, hs.regs, hs.keys⟩) | (apply Keeps.foldl) | (apply Keeps.foldl_fst) | (intro)
    | (dsimp only) | (split) | (refine Keeps.upd ?_)

theorem State.effChz_keeps {z : State} {kf : Bool} (s : State) (old : State) (t : Ticket) (off : Nat) (w : Word) (hs : z.Keeps kf s) :
    z.Keeps kf (s.effChz old t off w) := by
  unfold State.effChz
  repeat' with_reducible first
    | (exact hs) | (assumption) | (apply State.ergClaim_keeps) | (apply State.ergFlush_keeps)
    | (apply State.flushPending_keeps) | (apply State.palJudge_keeps) | (apply State.setPal_keeps)
    | (apply State.setReg_keeps) | (exact ⟨hs.pending, hs.mem, hs.regs, hs.keys⟩) | (apply Keeps.foldl)
    | (apply Keeps.foldl_fst) | (intro) | (dsimp only) | (split) | (refine Keeps.upd ?_)

theorem State.laneClear_keeps {z : State} {kf : Bool} (s : State) (hs : z.Keeps kf s) :
    z.Keeps kf (s.laneClear) := by
  unfold State.laneClear
  repeat' with_reducible first
    | (exact hs) | (assumption) | (apply State.setFld_keeps) | (apply Keeps.foldl) | (apply Keeps.foldl_fst) | (intro)
    | (dsimp only) | (split)

theorem State.groupWrite_keeps {z : State} {kf : Bool} (s : State) (t : Ticket) (hs : z.Keeps kf s) :
    z.Keeps kf (s.groupWrite t) := by
  unfold State.groupWrite
  repeat' with_reducible first
    | (exact hs) | (assumption) | (apply State.groupRelease_keeps) | (apply State.placeDev_keeps)
    | (apply State.withdraw_keeps) | (apply Keeps.foldl) | (apply Keeps.foldl_fst) | (intro) | (dsimp only) | (split)

theorem State.effLane_keeps {z : State} {kf : Bool} (s : State) (old : State) (t : Ticket) (off : Nat) (w : Word) (hs : z.Keeps kf s) :
    z.Keeps kf (s.effLane old t off w) := by
  unfold State.effLane
  repeat' with_reducible first
    | (exact hs) | (assumption) | (apply State.groupWrite_keeps) | (apply State.laneClear_keeps)
    | (apply State.setFld_keeps) | (intro) | (dsimp only) | (split)

theorem State.moveBuckets_keeps {z : State} {kf : Bool} (s : State) (n : Nat) (used : Nat) (hs : z.Keeps kf s) :
    z.Keeps kf (s.moveBuckets n used) := by
  unfold State.moveBuckets
  repeat' with_reducible first
    | (exact hs) | (assumption) | (apply State.setAcct_keeps) | (intro) | (dsimp only) | (split)

theorem State.effTxp_keeps {z : State} {kf : Bool} (s : State) (old : State) (off : Nat) (w : Word) (hs : z.Keeps kf s) :
    z.Keeps kf (s.effTxp old off w) := by
  unfold State.effTxp
  repeat' with_reducible first
    | (exact hs) | (assumption) | (apply State.moveBuckets_keeps) | (apply State.setAcct_keeps)
    | (apply State.txCut_keeps) | (apply Keeps.foldl) | (apply Keeps.foldl_fst) | (intro) | (dsimp only) | (split)

theorem State.effSec_keeps {z : State} (s : State) (off : Nat) (w : Word) (hs : z.Keeps false s) :
    z.Keeps false (s.effSec off w) := by
  unfold State.effSec
  repeat' with_reducible first
    | (exact hs) | (assumption) | (apply State.eraseKey_keeps) | (apply State.eraseKeys_keeps)
    | (apply State.loadKey_keeps) | (exact ⟨hs.pending, hs.mem, hs.regs, nofun⟩) | (intro) | (dsimp only) | (split)
    | (refine Keeps.updKeys ?_)

theorem State.effMac_keeps {z : State} {kf : Bool} (s : State) (old : State) (off : Nat) (w : Word) (hs : z.Keeps kf s) :
    z.Keeps kf (s.effMac old off w) := by
  unfold State.effMac
  repeat' with_reducible first
    | (exact hs) | (assumption) | (apply State.gackStop_keeps) | (apply State.memberStart_keeps)
    | (apply State.memberStop_keeps) | (apply State.nextWrite_keeps) | (apply Keeps.next) | (intro) | (dsimp only)
    | (split)

theorem State.effWkr_keeps {z : State} {kf : Bool} (s : State) (old : State) (off : Nat) (w : Word) (hs : z.Keeps kf s) :
    z.Keeps kf (s.effWkr old off w) := by
  unfold State.effWkr
  repeat' with_reducible first
    | (exact hs) | (assumption) | (apply State.wkrCal_keeps) | (apply State.wkrCfg_keeps) | (intro) | (dsimp only)
    | (split)

theorem State.effEng_keeps {z : State} {kf : Bool} (s : State) (old : State) (m : Master) (t : Ticket) (off : Nat) (w : Word) (hs : z.Keeps kf s) :
    z.Keeps kf (s.effEng old m t off w) := by
  unfold State.effEng
  repeat' with_reducible first
    | (exact hs) | (assumption) | (apply State.dmaStart_keeps) | (apply State.dmaStop_keeps)
    | (apply State.frameGo_keeps) | (apply State.lineEnd_keeps) | (apply State.lineJudge_keeps)
    | (apply State.setFld_keeps) | (exact ⟨hs.pending, hs.mem, hs.regs, hs.keys⟩) | (intro) | (dsimp only) | (split)
    | (refine Keeps.upd ?_)

theorem State.effect_keeps {z : State} (s : State) (old : State) (m : Master) (t : Ticket) (l : List (Nat × Word)) (off : Nat) (w : Word) (hs : z.Keeps false s) :
    z.Keeps false (s.effect old m t l off w) := by
  unfold State.effect
  repeat' with_reducible first
    | (exact hs) | (assumption) | (apply State.effChz_keeps) | (apply State.effClk_keeps) | (apply State.effCvn_keeps)
    | (apply State.effEng_keeps) | (apply State.effHost_keeps) | (apply State.effLane_keeps)
    | (apply State.effMac_keeps) | (apply State.effPwr_keeps) | (apply State.effRfa_keeps)
    | (apply State.effSec_keeps) | (apply State.effSeq_keeps) | (apply State.effSys_keeps)
    | (apply State.effTxp_keeps) | (apply State.effWkr_keeps) | (intro) | (dsimp only) | (split)

theorem State.actFirst_keeps {z : State} {kf : Bool} (s : State) (off : Nat) (hs : z.Keeps kf s) :
    z.Keeps kf (s.actFirst off) := by
  unfold State.actFirst
  repeat' with_reducible first
    | (exact hs) | (assumption) | (apply State.occurDue_keeps) | (intro) | (dsimp only) | (split)

theorem State.commit_keeps {z : State} (s : State) (m : Master) (l : List (Nat × Word)) (hs : z.Keeps false s) :
    z.Keeps false (s.commit m l) := by
  unfold State.commit
  repeat' with_reducible first
    | (exact hs) | (assumption) | (apply State.actFirst_keeps) | (apply State.effect_keeps)
    | (apply State.raise_keeps) | (apply State.setReg_keeps) | (apply Keeps.foldl) | (apply Keeps.foldl_fst) | (intro)
    | (dsimp only) | (split)

theorem State.regWrite_stays {z : State} (s : State) (m : Master) (f : State → List (Nat × Word)) (hs : z.Keeps false s) :
    z.Stays false (s.regWrite m f) := by
  unfold State.regWrite
  repeat' with_reducible first
    | (exact hs) | (assumption) | (apply State.commit_keeps) | (apply State.leaveIdle_keeps)
    | (apply State.next_keeps) | (apply State.touch_keeps) | (exact trivial) | (apply Keeps.next) | (intro)
    | (dsimp only) | (split)

theorem execRegisterWrite_stays {z : State} (m : Master) (addr : Nat) (v : Word) (s : State) (hs : z.Keeps false s) :
    z.Stays false (execRegisterWrite m addr v s) := by
  unfold execRegisterWrite
  repeat' with_reducible first
    | (exact hs) | (assumption) | (apply State.regWrite_stays) | (exact trivial) | (intro) | (dsimp only) | (split)

theorem execArm_stays {z : State} (m : Master) (n : Fin 32) (v : Word) (s : State) (hs : z.Keeps false s) :
    z.Stays false (execArm m n v s) := by
  unfold execArm
  repeat' with_reducible first
    | (exact hs) | (assumption) | (apply State.regWrite_stays) | (exact trivial) | (intro) | (dsimp only) | (split)

theorem execCancel_stays {z : State} (m : Master) (n : Fin 32) (v : Word) (s : State) (hs : z.Keeps false s) :
    z.Stays false (execCancel m n v s) := by
  unfold execCancel
  repeat' with_reducible first
    | (exact hs) | (assumption) | (apply State.regWrite_stays) | (exact trivial) | (intro) | (dsimp only) | (split)

theorem execSyaVco_stays {z : State} (p : Fin 4) (s : State) (hs : z.Keeps false s) :
    z.Stays false (execSyaVco p s) := by
  unfold execSyaVco
  repeat' with_reducible first
    | (exact hs) | (assumption) | (apply State.regWrite_stays) | (exact trivial) | (intro) | (dsimp only) | (split)

theorem execSybVco_stays {z : State} (p : Fin 4) (s : State) (hs : z.Keeps false s) :
    z.Stays false (execSybVco p s) := by
  unfold execSybVco
  repeat' with_reducible first
    | (exact hs) | (assumption) | (apply State.regWrite_stays) | (exact trivial) | (intro) | (dsimp only) | (split)

theorem execSytVco_stays {z : State} (p : Fin 4) (s : State) (hs : z.Keeps false s) :
    z.Stays false (execSytVco p s) := by
  unfold execSytVco
  repeat' with_reducible first
    | (exact hs) | (assumption) | (apply State.regWrite_stays) | (exact trivial) | (intro) | (dsimp only) | (split)

theorem execRxaIq_stays {z : State} (p : Fin 4) (s : State) (hs : z.Keeps false s) :
    z.Stays false (execRxaIq p s) := by
  unfold execRxaIq
  repeat' with_reducible first
    | (exact hs) | (assumption) | (apply State.regWrite_stays) | (exact trivial) | (intro) | (dsimp only) | (split)

theorem execRxbIq_stays {z : State} (p : Fin 4) (s : State) (hs : z.Keeps false s) :
    z.Stays false (execRxbIq p s) := by
  unfold execRxbIq
  repeat' with_reducible first
    | (exact hs) | (assumption) | (apply State.regWrite_stays) | (exact trivial) | (intro) | (dsimp only) | (split)

theorem execTempStart_stays {z : State} (m : Master) (s : State) (hs : z.Keeps false s) :
    z.Stays false (execTempStart m s) := by
  unfold execTempStart
  repeat' with_reducible first
    | (exact hs) | (assumption) | (apply State.regWrite_stays) | (exact trivial) | (intro) | (dsimp only) | (split)

theorem execFlush_stays {z : State} (m : Master) (s : State) (hs : z.Keeps false s) :
    z.Stays false (execFlush m s) := by
  unfold execFlush
  repeat' with_reducible first
    | (exact hs) | (assumption) | (apply State.regWrite_stays) | (exact trivial) | (intro) | (dsimp only) | (split)

theorem execGrpReqSet_stays {z : State} (m : Master) (g : Fin 16) (s : State) (hs : z.Keeps false s) :
    z.Stays false (execGrpReqSet m g s) := by
  unfold execGrpReqSet
  repeat' with_reducible first
    | (exact hs) | (assumption) | (apply State.regWrite_stays) | (exact trivial) | (intro) | (dsimp only) | (split)

theorem execGrpReqClear_stays {z : State} (m : Master) (g : Fin 16) (s : State) (hs : z.Keeps false s) :
    z.Stays false (execGrpReqClear m g s) := by
  unfold execGrpReqClear
  repeat' with_reducible first
    | (exact hs) | (assumption) | (apply State.regWrite_stays) | (exact trivial) | (intro) | (dsimp only) | (split)

theorem execCntClr_stays {z : State} (m : Master) (s : State) (hs : z.Keeps false s) :
    z.Stays false (execCntClr m s) := by
  unfold execCntClr
  repeat' with_reducible first
    | (exact hs) | (assumption) | (apply State.regWrite_stays) | (exact trivial) | (intro) | (dsimp only) | (split)

theorem execLaneRingWrite_stays {z : State} (m : Master) (base : Option Word) (size : Option Word) (s : State) (hs : z.Keeps false s) :
    z.Stays false (execLaneRingWrite m base size s) := by
  unfold execLaneRingWrite
  repeat' with_reducible first
    | (exact hs) | (assumption) | (apply State.regWrite_stays) | (exact trivial) | (intro) | (dsimp only) | (split)

theorem execTxpAbort_stays {z : State} (m : Master) (s : State) (hs : z.Keeps false s) :
    z.Stays false (execTxpAbort m s) := by
  unfold execTxpAbort
  repeat' with_reducible first
    | (exact hs) | (assumption) | (apply State.regWrite_stays) | (exact trivial) | (intro) | (dsimp only) | (split)

theorem execSglClr_stays {z : State} (m : Master) (v : Word) (s : State) (hs : z.Keeps false s) :
    z.Stays false (execSglClr m v s) := by
  unfold execSglClr
  repeat' with_reducible first
    | (exact hs) | (assumption) | (apply State.regWrite_stays) | (exact trivial) | (intro) | (dsimp only) | (split)

theorem execSecondsChange_stays {z : State} (m : Master) (n : Fin 8) (v : Word) (s : State) (hs : z.Keeps false s) :
    z.Stays false (execSecondsChange m n v s) := by
  unfold execSecondsChange
  repeat' with_reducible first
    | (exact hs) | (assumption) | (apply State.regWrite_stays) | (exact trivial) | (intro) | (dsimp only) | (split)

theorem execKeySelect_stays {z : State} (m : Master) (v : Word) (s : State) (hs : z.Keeps false s) :
    z.Stays false (execKeySelect m v s) := by
  unfold execKeySelect
  repeat' with_reducible first
    | (exact hs) | (assumption) | (apply State.regWrite_stays) | (exact trivial) | (intro) | (dsimp only) | (split)

theorem execKeyLoad_stays {z : State} (m : Master) (v : Word) (s : State) (hs : z.Keeps false s) :
    z.Stays false (execKeyLoad m v s) := by
  unfold execKeyLoad
  repeat' with_reducible first
    | (exact hs) | (assumption) | (apply State.regWrite_stays) | (exact trivial) | (intro) | (dsimp only) | (split)

theorem execKeyErase_stays {z : State} (m : Master) (v : Word) (s : State) (hs : z.Keeps false s) :
    z.Stays false (execKeyErase m v s) := by
  unfold execKeyErase
  repeat' with_reducible first
    | (exact hs) | (assumption) | (apply State.regWrite_stays) | (exact trivial) | (intro) | (dsimp only) | (split)

theorem execEraseAll_stays {z : State} (m : Master) (s : State) (hs : z.Keeps false s) :
    z.Stays false (execEraseAll m s) := by
  unfold execEraseAll
  repeat' with_reducible first
    | (exact hs) | (assumption) | (apply State.regWrite_stays) | (exact trivial) | (intro) | (dsimp only) | (split)

theorem execNextWrite_stays {z : State} (m : Master) (v : Word) (s : State) (hs : z.Keeps false s) :
    z.Stays false (execNextWrite m v s) := by
  unfold execNextWrite
  repeat' with_reducible first
    | (exact hs) | (assumption) | (apply State.regWrite_stays) | (exact trivial) | (intro) | (dsimp only) | (split)

theorem execWkrEnable_stays {z : State} (m : Master) (v : Word) (s : State) (hs : z.Keeps false s) :
    z.Stays false (execWkrEnable m v s) := by
  unfold execWkrEnable
  repeat' with_reducible first
    | (exact hs) | (assumption) | (apply State.regWrite_stays) | (exact trivial) | (intro) | (dsimp only) | (split)

theorem execCal_stays {z : State} (m : Master) (v : Word) (s : State) (hs : z.Keeps false s) :
    z.Stays false (execCal m v s) := by
  unfold execCal
  repeat' with_reducible first
    | (exact hs) | (assumption) | (apply State.regWrite_stays) | (exact trivial) | (intro) | (dsimp only) | (split)

theorem execCascadeEnable_stays {z : State} (m : Master) (n : Fin 4) (v : Word) (s : State) (hs : z.Keeps false s) :
    z.Stays false (execCascadeEnable m n v s) := by
  unfold execCascadeEnable
  repeat' with_reducible first
    | (exact hs) | (assumption) | (apply State.regWrite_stays) | (exact trivial) | (intro) | (dsimp only) | (split)

theorem execRingTailWrite_stays {z : State} (m : Master) (n : Fin 4) (v : Word) (s : State) (hs : z.Keeps false s) :
    z.Stays false (execRingTailWrite m n v s) := by
  unfold execRingTailWrite
  repeat' with_reducible first
    | (exact hs) | (assumption) | (apply State.regWrite_stays) | (exact trivial) | (intro) | (dsimp only) | (split)

theorem execEventRingWrite_stays {z : State} (m : Master) (n : Fin 4) (base : Option Word) (size : Option Word) (s : State) (hs : z.Keeps false s) :
    z.Stays false (execEventRingWrite m n base size s) := by
  unfold execEventRingWrite
  repeat' with_reducible first
    | (exact hs) | (assumption) | (apply State.regWrite_stays) | (exact trivial) | (intro) | (dsimp only) | (split)

theorem execSemTake_stays {z : State} (p : Fin 4) (n : Fin 16) (s : State) (hs : z.Keeps false s) :
    z.Stays false (execSemTake p n s) := by
  unfold execSemTake
  repeat' with_reducible first
    | (exact hs) | (assumption) | (apply State.regWrite_stays) | (exact trivial) | (intro) | (dsimp only) | (split)

theorem execSemFree_stays {z : State} (p : Fin 4) (n : Fin 16) (s : State) (hs : z.Keeps false s) :
    z.Stays false (execSemFree p n s) := by
  unfold execSemFree
  repeat' with_reducible first
    | (exact hs) | (assumption) | (apply State.regWrite_stays) | (exact trivial) | (intro) | (dsimp only) | (split)

theorem execDmaStart_stays {z : State} (m : Master) (n : Fin 16) (v : Word) (s : State) (hs : z.Keeps false s) :
    z.Stays false (execDmaStart m n v s) := by
  unfold execDmaStart
  repeat' with_reducible first
    | (exact hs) | (assumption) | (apply State.regWrite_stays) | (exact trivial) | (intro) | (dsimp only) | (split)

theorem execDmaStop_stays {z : State} (m : Master) (n : Fin 16) (v : Word) (s : State) (hs : z.Keeps false s) :
    z.Stays false (execDmaStop m n v s) := by
  unfold execDmaStop
  repeat' with_reducible first
    | (exact hs) | (assumption) | (apply State.regWrite_stays) | (exact trivial) | (intro) | (dsimp only) | (split)

theorem execRelockCmc_stays {z : State} (m : Master) (v : Word) (s : State) (hs : z.Keeps false s) :
    z.Stays false (execRelockCmc m v s) := by
  unfold execRelockCmc
  repeat' with_reducible first
    | (exact hs) | (assumption) | (apply State.regWrite_stays) | (exact trivial) | (intro) | (dsimp only) | (split)

theorem execRelockCmr_stays {z : State} (m : Master) (v : Word) (s : State) (hs : z.Keeps false s) :
    z.Stays false (execRelockCmr m v s) := by
  unfold execRelockCmr
  repeat' with_reducible first
    | (exact hs) | (assumption) | (apply State.regWrite_stays) | (exact trivial) | (intro) | (dsimp only) | (split)

theorem execCoreByp_stays {z : State} (m : Master) (v : Word) (s : State) (hs : z.Keeps false s) :
    z.Stays false (execCoreByp m v s) := by
  unfold execCoreByp
  repeat' with_reducible first
    | (exact hs) | (assumption) | (apply State.regWrite_stays) | (exact trivial) | (intro) | (dsimp only) | (split)

theorem execCmrEn_stays {z : State} (m : Master) (v : Word) (s : State) (hs : z.Keeps false s) :
    z.Stays false (execCmrEn m v s) := by
  unfold execCmrEn
  repeat' with_reducible first
    | (exact hs) | (assumption) | (apply State.regWrite_stays) | (exact trivial) | (intro) | (dsimp only) | (split)

theorem execTcxoModeWrite_stays {z : State} (m : Master) (v : Word) (s : State) (hs : z.Keeps false s) :
    z.Stays false (execTcxoModeWrite m v s) := by
  unfold execTcxoModeWrite
  repeat' with_reducible first
    | (exact hs) | (assumption) | (apply State.regWrite_stays) | (exact trivial) | (intro) | (dsimp only) | (split)

theorem execRequestSleep_stays {z : State} (m : Master) (v : Word) (s : State) (hs : z.Keeps false s) :
    z.Stays false (execRequestSleep m v s) := by
  unfold execRequestSleep
  repeat' with_reducible first
    | (exact hs) | (assumption) | (apply State.regWrite_stays) | (exact trivial) | (intro) | (dsimp only) | (split)

theorem execRequestDeepSleep_stays {z : State} (m : Master) (v : Word) (s : State) (hs : z.Keeps false s) :
    z.Stays false (execRequestDeepSleep m v s) := by
  unfold execRequestDeepSleep
  repeat' with_reducible first
    | (exact hs) | (assumption) | (apply State.regWrite_stays) | (exact trivial) | (intro) | (dsimp only) | (split)

theorem execRequestOff_stays {z : State} (m : Master) (v : Word) (s : State) (hs : z.Keeps false s) :
    z.Stays false (execRequestOff m v s) := by
  unfold execRequestOff
  repeat' with_reducible first
    | (exact hs) | (assumption) | (apply State.regWrite_stays) | (exact trivial) | (intro) | (dsimp only) | (split)

theorem execRequestCancel_stays {z : State} (m : Master) (v : Word) (s : State) (hs : z.Keeps false s) :
    z.Stays false (execRequestCancel m v s) := by
  unfold execRequestCancel
  repeat' with_reducible first
    | (exact hs) | (assumption) | (apply State.regWrite_stays) | (exact trivial) | (intro) | (dsimp only) | (split)

theorem execBudgetWrite_stays {z : State} (m : Master) (v : Word) (s : State) (hs : z.Keeps false s) :
    z.Stays false (execBudgetWrite m v s) := by
  unfold execBudgetWrite
  repeat' with_reducible first
    | (exact hs) | (assumption) | (apply State.regWrite_stays) | (exact trivial) | (intro) | (dsimp only) | (split)

theorem execClaimTabWrite_stays {z : State} (m : Master) (v : Word) (s : State) (hs : z.Keeps false s) :
    z.Stays false (execClaimTabWrite m v s) := by
  unfold execClaimTabWrite
  repeat' with_reducible first
    | (exact hs) | (assumption) | (apply State.regWrite_stays) | (exact trivial) | (intro) | (dsimp only) | (split)

theorem execPeakClr_stays {z : State} (m : Master) (s : State) (hs : z.Keeps false s) :
    z.Stays false (execPeakClr m s) := by
  unfold execPeakClr
  repeat' with_reducible first
    | (exact hs) | (assumption) | (apply State.regWrite_stays) | (exact trivial) | (intro) | (dsimp only) | (split)

theorem execInj_stays {z : State} (m : Master) (v : Word) (s : State) (hs : z.Keeps false s) :
    z.Stays false (execInj m v s) := by
  unfold execInj
  repeat' with_reducible first
    | (exact hs) | (assumption) | (apply State.regWrite_stays) | (exact trivial) | (intro) | (dsimp only) | (split)

theorem execSoftReset_stays {z : State} (m : Master) (v : Word) (s : State) (hs : z.Keeps false s) :
    z.Stays false (execSoftReset m v s) := by
  unfold execSoftReset
  repeat' with_reducible first
    | (exact hs) | (assumption) | (apply State.regWrite_stays) | (exact trivial) | (intro) | (dsimp only) | (split)

theorem execFrameRun_stays {z : State} (m : Master) (v : Word) (s : State) (hs : z.Keeps false s) :
    z.Stays false (execFrameRun m v s) := by
  unfold execFrameRun
  repeat' with_reducible first
    | (exact hs) | (assumption) | (apply State.regWrite_stays) | (exact trivial) | (intro) | (dsimp only) | (split)

theorem execSysLock_stays {z : State} (m : Master) (v : Word) (s : State) (hs : z.Keeps false s) :
    z.Stays false (execSysLock m v s) := by
  unfold execSysLock
  repeat' with_reducible first
    | (exact hs) | (assumption) | (apply State.regWrite_stays) | (exact trivial) | (intro) | (dsimp only) | (split)

theorem State.regRead_stays {z : State} {kf : Bool} (s : State) (m : Master) (off : Nat) (hs : z.Keeps kf s) :
    z.Stays kf (s.regRead m off) := by
  unfold State.regRead
  repeat' with_reducible first
    | (exact hs) | (assumption) | (apply State.leaveIdle_keeps) | (apply State.next_keeps)
    | (apply State.readWhole_keeps) | (apply State.setPort_keeps) | (apply State.touch_keeps) | (exact trivial)
    | (apply Keeps.next) | (exact ⟨hs.pending, hs.mem, hs.regs, hs.keys⟩) | (intro) | (dsimp only) | (split)
    | (refine Keeps.upd ?_)

theorem execCvnNowLoRead_stays {z : State} {kf : Bool} (m : Master) (s : State) (hs : z.Keeps kf s) :
    z.Stays kf (execCvnNowLoRead m s) := by
  unfold execCvnNowLoRead
  repeat' with_reducible first
    | (exact hs) | (assumption) | (apply State.regRead_stays) | (exact trivial) | (intro) | (dsimp only) | (split)

theorem execChzEnergyRead_stays {z : State} {kf : Bool} (m : Master) (s : State) (hs : z.Keeps kf s) :
    z.Stays kf (execChzEnergyRead m s) := by
  unfold execChzEnergyRead
  repeat' with_reducible first
    | (exact hs) | (assumption) | (apply State.regRead_stays) | (exact trivial) | (intro) | (dsimp only) | (split)

theorem execMaxwaitRead_stays {z : State} {kf : Bool} (m : Master) (s : State) (hs : z.Keeps kf s) :
    z.Stays kf (execMaxwaitRead m s) := by
  unfold execMaxwaitRead
  repeat' with_reducible first
    | (exact hs) | (assumption) | (apply State.regRead_stays) | (exact trivial) | (intro) | (dsimp only) | (split)

theorem execWakeLastRead_stays {z : State} {kf : Bool} (m : Master) (s : State) (hs : z.Keeps kf s) :
    z.Stays kf (execWakeLastRead m s) := by
  unfold execWakeLastRead
  repeat' with_reducible first
    | (exact hs) | (assumption) | (apply State.regRead_stays) | (exact trivial) | (intro) | (dsimp only) | (split)

theorem execHpnStatRead_stays {z : State} {kf : Bool} (p : Fin 4) (n : Fin 4) (s : State) (hs : z.Keeps kf s) :
    z.Stays kf (execHpnStatRead p n s) := by
  unfold execHpnStatRead
  repeat' with_reducible first
    | (exact hs) | (assumption) | (apply State.regRead_stays) | (exact trivial) | (intro) | (dsimp only) | (split)

theorem execLastSubmitRead_stays {z : State} {kf : Bool} (p : Fin 4) (n : Fin 4) (s : State) (hs : z.Keeps kf s) :
    z.Stays kf (execLastSubmitRead p n s) := by
  unfold execLastSubmitRead
  repeat' with_reducible first
    | (exact hs) | (assumption) | (apply State.regRead_stays) | (exact trivial) | (intro) | (dsimp only) | (split)

theorem State.bufferTake_keeps {z : State} {kf : Bool} (s : State) (p : Nat) (f : HostFrame) (hs : z.Keeps kf s) :
    z.Keeps kf (s.bufferTake p f) := by
  unfold State.bufferTake
  repeat' with_reducible first
    | (exact hs) | (assumption) | (apply State.setPort_keeps) | (exact ⟨hs.pending, hs.mem, hs.regs, hs.keys⟩)
    | (intro) | (dsimp only) | (split) | (refine Keeps.upd ?_)

theorem State.voidFrame_keeps {z : State} {kf : Bool} (s : State) (p : Nat) (code : Nat) (f : HostFrame) (hs : z.Keeps kf s) :
    z.Keeps kf (s.voidFrame p code f) := by
  unfold State.voidFrame
  repeat' with_reducible first
    | (exact hs) | (assumption) | (apply State.raise_keeps) | (apply State.setFld_keeps) | (intro) | (dsimp only)
    | (split)

theorem State.hostFrame_stays {z : State} {kf : Bool} (s : State) (p : Fin 4) (f : HostFrame) (mine : Nat) (act : State → State) (hs : z.Keeps kf s) (hact : ∀ (x0 : State), z.Keeps kf x0 → z.Keeps kf (act x0)) :
    z.Stays kf (s.hostFrame p f mine act) := by
  unfold State.hostFrame
  repeat' with_reducible first
    | (exact hs) | (assumption) | (apply hact) | (apply State.bufferTake_keeps) | (apply State.leaveIdle_keeps)
    | (apply State.next_keeps) | (apply State.setPort_keeps) | (apply State.touch_keeps) | (apply State.upset_keeps)
    | (apply State.voidFrame_keeps) | (exact trivial) | (apply Keeps.next)
    | (exact ⟨hs.pending, hs.mem, hs.regs, hs.keys⟩) | (intro) | (dsimp only) | (split) | (refine Keeps.upd ?_)

theorem State.resultParity_keeps {z : State} {kf : Bool} (s : State) (hs : z.Keeps kf s) :
    z.Keeps kf (s.resultParity) := by
  unfold State.resultParity
  repeat' with_reducible first
    | (exact hs) | (assumption) | (apply State.draw_keeps) | (apply State.parityErr_keeps) | (intro) | (dsimp only)
    | (split)

theorem Fetch.past_st (l : List Nat) (x : Fetch) : (l.foldl (fun x _ => x.past) x).st = x.st := by
  induction l generalizing x with
  | nil => rfl
  | cons _ _ ih => exact ih x.past

theorem Fetch.mem_keeps {z : State} {kf : Bool} (x : Fetch) (p : Nat) (b : Bool) (hx : z.Keeps kf x.st) : z.Keeps kf (x.mem p b).st := by
  unfold Fetch.mem
  split
  · exact State.readParity_keeps _ _ hx
  · dsimp only
    split
    · exact State.readSpan_keeps _ _ _ hx
    · exact State.readSpan_keeps _ _ _ hx

theorem Fetch.reg_keeps {z : State} {kf : Bool} (x : Fetch) (p : Fin 4) (off : Nat) (b : Bool) (hx : z.Keeps kf x.st) :
    z.Keeps kf (x.reg p off b).st := by
  unfold Fetch.reg
  split
  · exact State.parityErr_keeps _ _ _ hx
  · exact State.readReg_keeps _ _ _ hx

theorem Fetch.read_keeps {z : State} {kf : Bool} (p : Fin 4) (f : HostFrame) (n i w : Nat) (x : Fetch) (hx : z.Keeps kf x.st) :
    z.Keeps kf (Fetch.read p f n i w x).st := by
  induction n generalizing i w x with
  | zero => exact hx
  | succ n ih =>
    unfold Fetch.read
    dsimp only
    split
    · split
      · split
        · rw [Fetch.past_st]
          exact Fetch.reg_keeps _ _ _ _ hx
        · exact ih _ _ _ hx
      · split
        · exact ih _ _ _ (Fetch.reg_keeps _ _ _ _ hx)
        · exact ih _ _ _ hx
    · split
      · split
        · rw [Fetch.past_st]
          exact Fetch.mem_keeps _ _ _ hx
        · exact ih _ _ _ (Fetch.mem_keeps _ _ _ hx)
      · exact ih _ _ _ hx

theorem Fetch.list_keeps {z : State} {kf : Bool} (f : HostFrame) (x : Fetch) (ws : List Word) (hx : z.Keeps kf x.st) :
    z.Keeps kf (Fetch.list f x ws).st := by
  have h : ∀ (l : List Nat) (y : Fetch), z.Keeps kf y.st → z.Keeps kf (l.foldl (fun x i =>
      match ws[i]? with
      | some w => if f.perr.contains i then x.bad x.st.resultParity else x.add x.st w
      | none => x.past) y).st := by
    intro l
    induction l with
    | nil => exact fun _ h => h
    | cons i l ih =>
      intro y hy
      apply ih
      dsimp only
      split
      · split
        · exact State.resultParity_keeps _ hy
        · exact hy
      · exact hy
  exact h _ _ hx

theorem Fetch.events_keeps {z : State} {kf : Bool} (f : HostFrame) (base size len n i t : Nat) (x : Fetch) (hx : z.Keeps kf x.st) :
    z.Keeps kf (Fetch.events f base size len n i t x).st := by
  induction n generalizing i t x with
  | zero => exact hx
  | succ n ih =>
    unfold Fetch.events
    split
    · exact ih _ _ _ hx
    · exact ih _ _ _ (Fetch.mem_keeps _ _ _ hx)

theorem Fetch.release_keeps {z : State} {kf : Bool} (x : Fetch) (p : Nat) (hx : z.Keeps kf x.st) : z.Keeps kf (x.release p) := by
  unfold Fetch.release
  dsimp only
  apply State.setPort_keeps
  have h : z.Keeps kf (x.used.foldl State.consume x.st) := Keeps.foldl (fun s o hs => State.consume_keeps s o hs) hx
  split
  · apply State.setFld_keeps
    split
    · exact State.setFld_keeps _ _ _ h
    · exact h
  · split
    · exact State.setFld_keeps _ _ _ h
    · exact h

theorem execFrameRead_stays {z : State} {kf : Bool} (p : Fin 4) (f : HostFrame) (s : State) (hs : z.Keeps kf s) :
    z.Stays kf (execFrameRead p f s) :=
  State.hostFrame_stays _ _ _ _ _ hs (fun _ ht => Fetch.release_keeps _ _ (Fetch.read_keeps _ _ _ _ _ _ ht))

theorem State.slotFree_keeps {z : State} {kf : Bool} (s : State) (p : Nat) (i : Nat) (hs : z.Keeps kf s) :
    z.Keeps kf (s.slotFree p i) := by
  unfold State.slotFree
  repeat' with_reducible first
    | (exact hs) | (assumption) | (apply State.setSlot_keeps) | (exact ⟨hs.pending, hs.mem, hs.regs, hs.keys⟩)
    | (intro) | (dsimp only) | (split) | (refine Keeps.upd ?_)

theorem execFrameResult_stays {z : State} {kf : Bool} (p : Fin 4) (f : HostFrame) (s : State) (hs : z.Keeps kf s) :
    z.Stays kf (execFrameResult p f s) := by
  refine State.hostFrame_stays _ _ _ _ _ hs (fun t ht => ?_)
  have h := Fetch.release_keeps _ p.val (Fetch.list_keeps f t.fetch (t.resultWords p.val (f.arg % 2 ^ 16)).1 ht)
  dsimp only
  split
  · exact State.slotFree_keeps _ _ _ h
  · exact h

theorem execFrameEvents_stays {z : State} {kf : Bool} (p : Fin 4) (f : HostFrame) (s : State) (hs : z.Keeps kf s) :
    z.Stays kf (execFrameEvents p f s) :=
  State.hostFrame_stays _ _ _ _ _ hs (fun _ ht =>
    State.setFld_keeps _ _ _ (Fetch.release_keeps _ _ (Fetch.events_keeps _ _ _ _ _ _ _ _ ht)))

theorem execFrameStatus_stays {z : State} {kf : Bool} (p : Fin 4) (f : HostFrame) (s : State) (hs : z.Keeps kf s) :
    z.Stays kf (execFrameStatus p f s) := by
  refine State.hostFrame_stays _ _ _ _ _ hs (fun t ht => Fetch.release_keeps _ _ ?_)
  dsimp only
  rw [Fetch.past_st]
  split
  · apply Fetch.reg_keeps
    split
    · exact Fetch.reg_keeps _ _ _ _ ht
    · exact ht
  · split
    · exact Fetch.reg_keeps _ _ _ _ ht
    · exact ht

theorem execFrameNop_stays {z : State} {kf : Bool} (p : Fin 4) (f : HostFrame) (s : State) (hs : z.Keeps kf s) :
    z.Stays kf (execFrameNop p f s) := by
  unfold execFrameNop
  repeat' with_reducible first
    | (exact hs) | (assumption) | (apply State.hostFrame_stays) | (exact trivial) | (intro) | (dsimp only) | (split)

theorem State.frameStore_keeps {z : State} {kf : Bool} (s : State) (a : Nat) (f : HostFrame) (hs : z.Keeps kf s) :
    z.Keeps kf (s.frameStore a f) := by
  unfold State.frameStore
  repeat' with_reducible first
    | (exact hs) | (assumption) | (apply State.masterWrite_keeps) | (apply Keeps.foldl) | (apply Keeps.foldl_fst)
    | (intro) | (dsimp only) | (split)

theorem State.frameRegs_keeps {z : State} (s : State) (p : Fin 4) (off : Nat) (f : HostFrame) (hs : z.Keeps false s) :
    z.Keeps false (s.frameRegs p off f) := by
  unfold State.frameRegs
  repeat' with_reducible first
    | (exact hs) | (assumption) | (apply State.commit_keeps) | (apply State.parityErr_keeps) | (apply Keeps.foldl)
    | (apply Keeps.foldl_fst) | (intro) | (dsimp only) | (split)

theorem execFrameWrite_stays {z : State} (p : Fin 4) (f : HostFrame) (s : State) (hs : z.Keeps false s) :
    z.Stays false (execFrameWrite p f s) := by
  unfold execFrameWrite
  repeat' with_reducible first
    | (exact hs) | (assumption) | (apply State.frameRegs_keeps) | (apply State.frameStore_keeps)
    | (apply State.hostFrame_stays) | (exact trivial) | (intro) | (dsimp only) | (split)

theorem State.lastSubmit_keeps {z : State} {kf : Bool} (s : State) (p : Nat) (h : Nat) (hs : z.Keeps kf s) :
    z.Keeps kf (s.lastSubmit p h) := by
  unfold State.lastSubmit
  repeat' with_reducible first
    | (exact hs) | (assumption) | (apply State.setFld_keeps) | (intro) | (dsimp only) | (split)

theorem State.submit_keeps {z : State} {kf : Bool} (s : State) (p : Nat) (d : Nat) (args : List Word) (hs : z.Keeps kf s) :
    z.Keeps kf (s.submit p d args) := by
  unfold State.submit
  repeat' with_reducible first
    | (exact hs) | (assumption) | (apply State.lastSubmit_keeps) | (apply State.raise_keeps)
    | (apply State.refuse_keeps) | (apply State.takeSlot_keeps) | (intro) | (dsimp only) | (split)

theorem execFrameSubmit_stays {z : State} {kf : Bool} (p : Fin 4) (f : HostFrame) (s : State) (hs : z.Keeps kf s) :
    z.Stays kf (execFrameSubmit p f s) := by
  unfold execFrameSubmit
  repeat' with_reducible first
    | (exact hs) | (assumption) | (apply State.hostFrame_stays) | (apply State.submit_keeps) | (exact trivial)
    | (intro) | (dsimp only) | (split)

theorem State.abortHandle_keeps {z : State} {kf : Bool} (s : State) (p : Nat) (h : Nat) (hs : z.Keeps kf s) :
    z.Keeps kf (s.abortHandle p h) := by
  unfold State.abortHandle
  repeat' with_reducible first
    | (exact hs) | (assumption) | (apply State.cmdAbort_keeps) | (apply State.complete_keeps) | (intro) | (dsimp only)
    | (split)

theorem execFrameAbort_stays {z : State} {kf : Bool} (p : Fin 4) (f : HostFrame) (s : State) (hs : z.Keeps kf s) :
    z.Stays kf (execFrameAbort p f s) := by
  unfold execFrameAbort
  repeat' with_reducible first
    | (exact hs) | (assumption) | (apply State.abortHandle_keeps) | (apply State.hostFrame_stays) | (exact trivial)
    | (intro) | (dsimp only) | (split)

theorem execFramePortReset_stays {z : State} {kf : Bool} (p : Fin 4) (f : HostFrame) (s : State) (hs : z.Keeps kf s) :
    z.Stays kf (execFramePortReset p f s) := by
  unfold execFramePortReset
  repeat' with_reducible first
    | (exact hs) | (assumption) | (apply State.cascJudge_keeps) | (apply State.hostFrame_stays)
    | (apply State.setFld_keeps) | (apply State.setReg_keeps) | (exact trivial) | (apply Keeps.foldl)
    | (apply Keeps.foldl_fst) | (intro) | (dsimp only) | (split)

theorem execSelectFallWake_stays {z : State} {kf : Bool} (p : Fin 4) (s : State) (hs : z.Keeps kf s) :
    z.Stays kf (execSelectFallWake p s) := by
  unfold execSelectFallWake
  repeat' with_reducible first
    | (exact hs) | (assumption) | (apply State.next_keeps) | (apply State.setFld_keeps) | (apply State.setPort_keeps)
    | (apply State.wakeEvent_keeps) | (exact trivial) | (apply Keeps.next)
    | (exact ⟨hs.pending, hs.mem, hs.regs, hs.keys⟩) | (intro) | (dsimp only) | (split) | (refine Keeps.upd ?_)

theorem State.next_keeps {z : State} {kf : Bool} (s : State) (k : Fin 64) (hs : z.Keeps kf s) :
    z.Keeps kf (s.next k) := by
  unfold State.next
  repeat' with_reducible first
    | (exact hs) | (assumption) | (apply State.setCx_keeps) | (apply Keeps.next) | (intro) | (dsimp only) | (split)

theorem State.onCtx_keeps {z : State} {kf : Bool} (s : State) (k : Fin 64) (f : Ctx → Ctx) (hs : z.Keeps kf s) :
    z.Keeps kf (s.onCtx k f) := by
  unfold State.onCtx
  repeat' with_reducible first
    | (exact hs) | (assumption) | (apply State.next_keeps) | (apply State.setCx_keeps) | (apply Keeps.next) | (intro)
    | (dsimp only) | (split)

theorem State.instrFetch_keeps {z : State} {kf : Bool} (s : State) (k : Fin 64) (parity : ParityHit) (hs : z.Keeps kf s) :
    z.Keeps kf (s.instrFetch k parity).1 := by
  unfold State.instrFetch
  repeat' with_reducible first
    | (exact hs) | (assumption) | (apply State.parityErr_keeps) | (apply State.readParity_keeps)
    | (apply State.readSpan_keeps) | (apply State.setCx_keeps) | (exact ⟨hs.pending, hs.mem, hs.regs, hs.keys⟩)
    | (intro) | (dsimp only) | (split) | (refine Keeps.upd ?_)

theorem State.issue_stays {z : State} {kf : Bool} (s : State) (k : Fin 64) (env : Env) (op : Nat) (f : State → Nat → State) (hs : z.Keeps kf s) (hf : ∀ (x0 : State) (x1 : Nat), z.Keeps kf x0 → z.Keeps kf (f x0 x1)) :
    z.Stays kf (s.issue k env op f) := by
  unfold State.issue
  repeat' with_reducible first
    | (exact hs) | (assumption) | (apply hf) | (apply State.instrFetch_keeps) | (apply State.next_keeps)
    | (apply State.touch_keeps) | (apply State.trap_keeps) | (apply State.upset_keeps) | (exact trivial)
    | (apply Keeps.next) | (intro) | (dsimp only) | (split)

theorem State.issueFn_stays {z : State} {kf : Bool} (s : State) (k : Fin 64) (env : Env) (op : Nat) (sel : Nat → Bool) (f : State → Nat → State) (hs : z.Keeps kf s) (hf : ∀ (x0 : State) (x1 : Nat), z.Keeps kf x0 → z.Keeps kf (f x0 x1)) :
    z.Stays kf (s.issueFn k env op sel f) := by
  unfold State.issueFn
  repeat' with_reducible first
    | (exact hs) | (assumption) | (apply hf) | (apply State.instrFetch_keeps) | (apply State.next_keeps)
    | (apply State.touch_keeps) | (apply State.trap_keeps) | (apply State.upset_keeps) | (exact trivial)
    | (apply Keeps.next) | (intro) | (dsimp only) | (split)

theorem State.coded_keeps {z : State} {kf : Bool} (s : State) (k : Fin 64) (ok : Bool) (t : State) (hs : z.Keeps kf s) (ht : z.Keeps kf t) :
    z.Keeps kf (s.coded k ok t) := by
  unfold State.coded
  repeat' with_reducible first
    | (exact hs) | (exact ht) | (assumption) | (apply State.trap_keeps) | (intro) | (dsimp only) | (split)

theorem State.access_keeps {z : State} {kf : Bool} (s : State) (a : Nat) (n : Nat) (parity : ParityHit) (hs : z.Keeps kf s) :
    z.Keeps kf (s.access a n parity).1 := by
  unfold State.access
  repeat' with_reducible first
    | (exact hs) | (assumption) | (apply State.readParity_keeps) | (apply State.readSpan_keeps) | (intro)
    | (dsimp only) | (split)

theorem State.load_keeps {z : State} {kf : Bool} (s : State) (k : Fin 64) (d : Nat) (a : Nat) (n : Nat) (parity : ParityHit) (hs : z.Keeps kf s) :
    z.Keeps kf (s.load k d a n parity) := by
  unfold State.load
  repeat' with_reducible first
    | (exact hs) | (assumption) | (apply State.access_keeps) | (apply State.onCtx_keeps) | (apply State.split_keeps)
    | (apply State.trap_keeps) | (intro) | (dsimp only) | (split)

theorem State.parkMemory_keeps {z : State} {kf : Bool} (s : State) (k : Fin 64) (hs : z.Keeps kf s) :
    z.Keeps kf (s.parkMemory k) := by
  unfold State.parkMemory
  repeat' with_reducible first
    | (exact hs) | (assumption) | (apply State.park_keeps) | (intro) | (dsimp only) | (split)

theorem State.visible_keeps {z : State} {kf : Bool} (s : State) (k : Fin 64) (t : State) (hs : z.Keeps kf s) (ht : z.Keeps kf t) :
    z.Keeps kf (s.visible k t) := by
  unfold State.visible
  repeat' with_reducible first
    | (exact hs) | (exact ht) | (assumption) | (apply State.parkMemory_keeps) | (intro) | (dsimp only) | (split)

theorem State.postBytes_keeps {z : State} {kf : Bool} (s : State) (k : Fin 64) (a : Nat) (bs : List Byte) (parity : ParityHit) (hs : z.Keeps kf s) :
    z.Keeps kf (s.postBytes k a bs parity) := by
  unfold State.postBytes
  repeat' with_reducible first
    | (exact hs) | (assumption) | (apply State.next_keeps) | (apply State.postStore_keeps) | (apply Keeps.next)
    | (intro) | (dsimp only) | (split)

theorem State.storeReg_keeps {z : State} {kf : Bool} (s : State) (k : Fin 64) (d : Nat) (a : Nat) (n : Nat) (parity : ParityHit) (hs : z.Keeps kf s) :
    z.Keeps kf (s.storeReg k d a n parity) := by
  unfold State.storeReg
  repeat' with_reducible first
    | (exact hs) | (assumption) | (apply State.parkMemory_keeps) | (apply State.postBytes_keeps)
    | (apply State.trap_keeps) | (intro) | (dsimp only) | (split)

theorem State.block_keeps {z : State} {kf : Bool} (s : State) (a : Nat) (n : Nat) (parity : ParityHit) (hs : z.Keeps kf s) :
    z.Keeps kf (s.block a n parity).1 := by
  unfold State.block
  repeat' with_reducible first
    | (exact hs) | (assumption) | (apply State.access_keeps) | (apply State.operand_keeps) | (intro) | (dsimp only)
    | (split)

theorem State.status_keeps {z : State} {kf : Bool} (s : State) (k : Fin 64) (d : Nat) (w : Nat) (hs : z.Keeps kf s) :
    z.Keeps kf (s.status k d w) := by
  unfold State.status
  repeat' with_reducible first
    | (exact hs) | (assumption) | (apply State.finish_keeps) | (intro) | (dsimp only) | (split)

theorem State.passed_keeps {z : State} {kf : Bool} (s : State) (k : Fin 64) (cause : Nat) (f : State → State) (hs : z.Keeps kf s) (hf : ∀ (x0 : State), z.Keeps kf x0 → z.Keeps kf (f x0)) :
    z.Keeps kf (s.passed k cause f) := by
  unfold State.passed
  repeat' with_reducible first
    | (exact hs) | (assumption) | (apply hf) | (apply State.next_keeps) | (apply State.trap_keeps)
    | (apply Keeps.next) | (intro) | (dsimp only) | (split)

theorem State.alu_keeps {z : State} {kf : Bool} (s : State) (k : Fin 64) (w : Nat) (ok : Bool) (f : Ctx → Word → Word → Ctx) (hs : z.Keeps kf s) :
    z.Keeps kf (s.alu k w ok f) := by
  unfold State.alu
  repeat' with_reducible first
    | (exact hs) | (assumption) | (apply State.coded_keeps) | (apply State.onCtx_keeps) | (intro) | (dsimp only)
    | (split)

theorem execOpAdd_stays {z : State} {kf : Bool} (k : Fin 64) (env : Env) (s : State) (hs : z.Keeps kf s) :
    z.Stays kf (execOpAdd k env s) := by
  unfold execOpAdd
  repeat' with_reducible first
    | (exact hs) | (assumption) | (apply State.alu_keeps) | (apply State.issue_stays) | (exact trivial) | (intro)
    | (dsimp only) | (split)

theorem execOpSub_stays {z : State} {kf : Bool} (k : Fin 64) (env : Env) (s : State) (hs : z.Keeps kf s) :
    z.Stays kf (execOpSub k env s) := by
  unfold execOpSub
  repeat' with_reducible first
    | (exact hs) | (assumption) | (apply State.alu_keeps) | (apply State.issue_stays) | (exact trivial) | (intro)
    | (dsimp only) | (split)

theorem execOpAnd_stays {z : State} {kf : Bool} (k : Fin 64) (env : Env) (s : State) (hs : z.Keeps kf s) :
    z.Stays kf (execOpAnd k env s) := by
  unfold execOpAnd
  repeat' with_reducible first
    | (exact hs) | (assumption) | (apply State.alu_keeps) | (apply State.issue_stays) | (exact trivial) | (intro)
    | (dsimp only) | (split)

theorem execOpIor_stays {z : State} {kf : Bool} (k : Fin 64) (env : Env) (s : State) (hs : z.Keeps kf s) :
    z.Stays kf (execOpIor k env s) := by
  unfold execOpIor
  repeat' with_reducible first
    | (exact hs) | (assumption) | (apply State.alu_keeps) | (apply State.issue_stays) | (exact trivial) | (intro)
    | (dsimp only) | (split)

theorem execOpXor_stays {z : State} {kf : Bool} (k : Fin 64) (env : Env) (s : State) (hs : z.Keeps kf s) :
    z.Stays kf (execOpXor k env s) := by
  unfold execOpXor
  repeat' with_reducible first
    | (exact hs) | (assumption) | (apply State.alu_keeps) | (apply State.issue_stays) | (exact trivial) | (intro)
    | (dsimp only) | (split)

theorem execOpShl_stays {z : State} {kf : Bool} (k : Fin 64) (env : Env) (s : State) (hs : z.Keeps kf s) :
    z.Stays kf (execOpShl k env s) := by
  unfold execOpShl
  repeat' with_reducible first
    | (exact hs) | (assumption) | (apply State.alu_keeps) | (apply State.issue_stays) | (exact trivial) | (intro)
    | (dsimp only) | (split)

theorem execOpShr_stays {z : State} {kf : Bool} (k : Fin 64) (env : Env) (s : State) (hs : z.Keeps kf s) :
    z.Stays kf (execOpShr k env s) := by
  unfold execOpShr
  repeat' with_reducible first
    | (exact hs) | (assumption) | (apply State.alu_keeps) | (apply State.issue_stays) | (exact trivial) | (intro)
    | (dsimp only) | (split)

theorem execOpSar_stays {z : State} {kf : Bool} (k : Fin 64) (env : Env) (s : State) (hs : z.Keeps kf s) :
    z.Stays kf (execOpSar k env s) := by
  unfold execOpSar
  repeat' with_reducible first
    | (exact hs) | (assumption) | (apply State.alu_keeps) | (apply State.issue_stays) | (exact trivial) | (intro)
    | (dsimp only) | (split)

theorem execOpMul_stays {z : State} {kf : Bool} (k : Fin 64) (env : Env) (s : State) (hs : z.Keeps kf s) :
    z.Stays kf (execOpMul k env s) := by
  unfold execOpMul
  repeat' with_reducible first
    | (exact hs) | (assumption) | (apply State.alu_keeps) | (apply State.issue_stays) | (exact trivial) | (intro)
    | (dsimp only) | (split)

theorem execOpCmp_stays {z : State} {kf : Bool} (k : Fin 64) (env : Env) (s : State) (hs : z.Keeps kf s) :
    z.Stays kf (execOpCmp k env s) := by
  unfold execOpCmp
  repeat' with_reducible first
    | (exact hs) | (assumption) | (apply State.alu_keeps) | (apply State.issue_stays) | (exact trivial) | (intro)
    | (dsimp only) | (split)

theorem execOpMin_stays {z : State} {kf : Bool} (k : Fin 64) (env : Env) (s : State) (hs : z.Keeps kf s) :
    z.Stays kf (execOpMin k env s) := by
  unfold execOpMin
  repeat' with_reducible first
    | (exact hs) | (assumption) | (apply State.alu_keeps) | (apply State.issue_stays) | (exact trivial) | (intro)
    | (dsimp only) | (split)

theorem execOpMax_stays {z : State} {kf : Bool} (k : Fin 64) (env : Env) (s : State) (hs : z.Keeps kf s) :
    z.Stays kf (execOpMax k env s) := by
  unfold execOpMax
  repeat' with_reducible first
    | (exact hs) | (assumption) | (apply State.alu_keeps) | (apply State.issue_stays) | (exact trivial) | (intro)
    | (dsimp only) | (split)

theorem execOpSel_stays {z : State} {kf : Bool} (k : Fin 64) (env : Env) (s : State) (hs : z.Keeps kf s) :
    z.Stays kf (execOpSel k env s) := by
  unfold execOpSel
  repeat' with_reducible first
    | (exact hs) | (assumption) | (apply State.alu_keeps) | (apply State.issue_stays) | (exact trivial) | (intro)
    | (dsimp only) | (split)

theorem execOpBfx_stays {z : State} {kf : Bool} (k : Fin 64) (env : Env) (s : State) (hs : z.Keeps kf s) :
    z.Stays kf (execOpBfx k env s) := by
  unfold execOpBfx
  repeat' with_reducible first
    | (exact hs) | (assumption) | (apply State.alu_keeps) | (apply State.issue_stays) | (exact trivial) | (intro)
    | (dsimp only) | (split)

theorem execOpBfi_stays {z : State} {kf : Bool} (k : Fin 64) (env : Env) (s : State) (hs : z.Keeps kf s) :
    z.Stays kf (execOpBfi k env s) := by
  unfold execOpBfi
  repeat' with_reducible first
    | (exact hs) | (assumption) | (apply State.alu_keeps) | (apply State.issue_stays) | (exact trivial) | (intro)
    | (dsimp only) | (split)

theorem State.aluImm_keeps {z : State} {kf : Bool} (s : State) (k : Fin 64) (w : Nat) (ok : Bool) (f : Ctx → Word → Word → Ctx) (hs : z.Keeps kf s) :
    z.Keeps kf (s.aluImm k w ok f) := by
  unfold State.aluImm
  repeat' with_reducible first
    | (exact hs) | (assumption) | (apply State.coded_keeps) | (apply State.onCtx_keeps) | (intro) | (dsimp only)
    | (split)

theorem execOpAddi_stays {z : State} {kf : Bool} (k : Fin 64) (env : Env) (s : State) (hs : z.Keeps kf s) :
    z.Stays kf (execOpAddi k env s) := by
  unfold execOpAddi
  repeat' with_reducible first
    | (exact hs) | (assumption) | (apply State.aluImm_keeps) | (apply State.issue_stays) | (exact trivial) | (intro)
    | (dsimp only) | (split)

theorem execOpAndi_stays {z : State} {kf : Bool} (k : Fin 64) (env : Env) (s : State) (hs : z.Keeps kf s) :
    z.Stays kf (execOpAndi k env s) := by
  unfold execOpAndi
  repeat' with_reducible first
    | (exact hs) | (assumption) | (apply State.aluImm_keeps) | (apply State.issue_stays) | (exact trivial) | (intro)
    | (dsimp only) | (split)

theorem execOpIori_stays {z : State} {kf : Bool} (k : Fin 64) (env : Env) (s : State) (hs : z.Keeps kf s) :
    z.Stays kf (execOpIori k env s) := by
  unfold execOpIori
  repeat' with_reducible first
    | (exact hs) | (assumption) | (apply State.aluImm_keeps) | (apply State.issue_stays) | (exact trivial) | (intro)
    | (dsimp only) | (split)

theorem execOpXori_stays {z : State} {kf : Bool} (k : Fin 64) (env : Env) (s : State) (hs : z.Keeps kf s) :
    z.Stays kf (execOpXori k env s) := by
  unfold execOpXori
  repeat' with_reducible first
    | (exact hs) | (assumption) | (apply State.aluImm_keeps) | (apply State.issue_stays) | (exact trivial) | (intro)
    | (dsimp only) | (split)

theorem execOpCmpi_stays {z : State} {kf : Bool} (k : Fin 64) (env : Env) (s : State) (hs : z.Keeps kf s) :
    z.Stays kf (execOpCmpi k env s) := by
  unfold execOpCmpi
  repeat' with_reducible first
    | (exact hs) | (assumption) | (apply State.aluImm_keeps) | (apply State.issue_stays) | (exact trivial) | (intro)
    | (dsimp only) | (split)

theorem execOpMovi_stays {z : State} {kf : Bool} (k : Fin 64) (env : Env) (s : State) (hs : z.Keeps kf s) :
    z.Stays kf (execOpMovi k env s) := by
  unfold execOpMovi
  repeat' with_reducible first
    | (exact hs) | (assumption) | (apply State.aluImm_keeps) | (apply State.issue_stays) | (exact trivial) | (intro)
    | (dsimp only) | (split)

theorem execOpHigh_stays {z : State} {kf : Bool} (k : Fin 64) (env : Env) (s : State) (hs : z.Keeps kf s) :
    z.Stays kf (execOpHigh k env s) := by
  unfold execOpHigh
  repeat' with_reducible first
    | (exact hs) | (assumption) | (apply State.aluImm_keeps) | (apply State.issue_stays) | (exact trivial) | (intro)
    | (dsimp only) | (split)

theorem execOpLdb_stays {z : State} {kf : Bool} (k : Fin 64) (env : Env) (s : State) (hs : z.Keeps kf s) :
    z.Stays kf (execOpLdb k env s) := by
  unfold execOpLdb
  repeat' with_reducible first
    | (exact hs) | (assumption) | (apply State.issue_stays) | (apply State.load_keeps) | (exact trivial) | (intro)
    | (dsimp only) | (split)

theorem execOpLdh_stays {z : State} {kf : Bool} (k : Fin 64) (env : Env) (s : State) (hs : z.Keeps kf s) :
    z.Stays kf (execOpLdh k env s) := by
  unfold execOpLdh
  repeat' with_reducible first
    | (exact hs) | (assumption) | (apply State.issue_stays) | (apply State.load_keeps) | (exact trivial) | (intro)
    | (dsimp only) | (split)

theorem execOpLdw_stays {z : State} {kf : Bool} (k : Fin 64) (env : Env) (s : State) (hs : z.Keeps kf s) :
    z.Stays kf (execOpLdw k env s) := by
  unfold execOpLdw
  repeat' with_reducible first
    | (exact hs) | (assumption) | (apply State.issue_stays) | (apply State.load_keeps) | (exact trivial) | (intro)
    | (dsimp only) | (split)

theorem execOpStb_stays {z : State} {kf : Bool} (k : Fin 64) (env : Env) (s : State) (hs : z.Keeps kf s) :
    z.Stays kf (execOpStb k env s) := by
  unfold execOpStb
  repeat' with_reducible first
    | (exact hs) | (assumption) | (apply State.issue_stays) | (apply State.storeReg_keeps) | (exact trivial) | (intro)
    | (dsimp only) | (split)

theorem execOpSth_stays {z : State} {kf : Bool} (k : Fin 64) (env : Env) (s : State) (hs : z.Keeps kf s) :
    z.Stays kf (execOpSth k env s) := by
  unfold execOpSth
  repeat' with_reducible first
    | (exact hs) | (assumption) | (apply State.issue_stays) | (apply State.storeReg_keeps) | (exact trivial) | (intro)
    | (dsimp only) | (split)

theorem execOpStw_stays {z : State} {kf : Bool} (k : Fin 64) (env : Env) (s : State) (hs : z.Keeps kf s) :
    z.Stays kf (execOpStw k env s) := by
  unfold execOpStw
  repeat' with_reducible first
    | (exact hs) | (assumption) | (apply State.issue_stays) | (apply State.storeReg_keeps) | (exact trivial) | (intro)
    | (dsimp only) | (split)

theorem State.ptb_keeps {z : State} {kf : Bool} (s : State) (k : Fin 64) (w : Nat) (t : Nat → State) (hs : z.Keeps kf s) (ht : ∀ (x0 : Nat), z.Keeps kf (t x0)) :
    z.Keeps kf (s.ptb k w t) := by
  unfold State.ptb
  repeat' with_reducible first
    | (exact hs) | (assumption) | (apply ht) | (apply State.coded_keeps) | (apply State.trap_keeps) | (intro)
    | (dsimp only) | (split)

theorem execOpLdp_stays {z : State} {kf : Bool} (k : Fin 64) (env : Env) (s : State) (hs : z.Keeps kf s) :
    z.Stays kf (execOpLdp k env s) := by
  unfold execOpLdp
  repeat' with_reducible first
    | (exact hs) | (assumption) | (apply State.issue_stays) | (apply State.load_keeps) | (apply State.ptb_keeps)
    | (exact trivial) | (intro) | (dsimp only) | (split)

theorem execOpStp_stays {z : State} {kf : Bool} (k : Fin 64) (env : Env) (s : State) (hs : z.Keeps kf s) :
    z.Stays kf (execOpStp k env s) := by
  unfold execOpStp
  repeat' with_reducible first
    | (exact hs) | (assumption) | (apply State.issue_stays) | (apply State.ptb_keeps) | (apply State.storeReg_keeps)
    | (exact trivial) | (intro) | (dsimp only) | (split)

theorem execOpJmp_stays {z : State} {kf : Bool} (k : Fin 64) (env : Env) (s : State) (hs : z.Keeps kf s) :
    z.Stays kf (execOpJmp k env s) := by
  unfold execOpJmp
  repeat' with_reducible first
    | (exact hs) | (assumption) | (apply State.issue_stays) | (apply State.onCtx_keeps) | (apply State.trap_keeps)
    | (exact trivial) | (exact ⟨hs.pending, hs.mem, hs.regs, hs.keys⟩) | (intro) | (dsimp only) | (split)
    | (refine Keeps.upd ?_)

theorem execOpCall_stays {z : State} {kf : Bool} (k : Fin 64) (env : Env) (s : State) (hs : z.Keeps kf s) :
    z.Stays kf (execOpCall k env s) := by
  unfold execOpCall
  repeat' with_reducible first
    | (exact hs) | (assumption) | (apply State.issue_stays) | (apply State.onCtx_keeps) | (apply State.trap_keeps)
    | (exact trivial) | (exact ⟨hs.pending, hs.mem, hs.regs, hs.keys⟩) | (intro) | (dsimp only) | (split)
    | (refine Keeps.upd ?_)

theorem execOpRet_stays {z : State} {kf : Bool} (k : Fin 64) (env : Env) (s : State) (hs : z.Keeps kf s) :
    z.Stays kf (execOpRet k env s) := by
  unfold execOpRet
  repeat' with_reducible first
    | (exact hs) | (assumption) | (apply State.coded_keeps) | (apply State.issue_stays) | (apply State.onCtx_keeps)
    | (apply State.trap_keeps) | (exact trivial) | (exact ⟨hs.pending, hs.mem, hs.regs, hs.keys⟩) | (intro)
    | (dsimp only) | (split) | (refine Keeps.upd ?_)

theorem execOpYield_stays {z : State} {kf : Bool} (k : Fin 64) (env : Env) (s : State) (hs : z.Keeps kf s) :
    z.Stays kf (execOpYield k env s) := by
  unfold execOpYield
  repeat' with_reducible first
    | (exact hs) | (assumption) | (apply State.coded_keeps) | (apply State.issue_stays) | (apply State.next_keeps)
    | (exact trivial) | (apply Keeps.next) | (intro) | (dsimp only) | (split)

theorem State.halt_keeps {z : State} {kf : Bool} (s : State) (k : Fin 64) (w : Nat) (status : Nat) (parity : ParityHit) (hs : z.Keeps kf s) :
    z.Keeps kf (s.halt k w status parity) := by
  unfold State.halt
  repeat' with_reducible first
    | (exact hs) | (assumption) | (apply State.access_keeps) | (apply State.cmdEnd_keeps) | (apply State.drain_keeps)
    | (apply State.status_keeps) | (apply State.trap_keeps) | (apply State.visible_keeps) | (intro) | (dsimp only)
    | (split)

theorem execOpHalt_stays {z : State} {kf : Bool} (k : Fin 64) (env : Env) (s : State) (hs : z.Keeps kf s) :
    z.Stays kf (execOpHalt k env s) := by
  unfold execOpHalt
  repeat' with_reducible first
    | (exact hs) | (assumption) | (apply State.coded_keeps) | (apply State.halt_keeps) | (apply State.issue_stays)
    | (exact trivial) | (intro) | (dsimp only) | (split)

theorem execOpFail_stays {z : State} {kf : Bool} (k : Fin 64) (env : Env) (s : State) (hs : z.Keeps kf s) :
    z.Stays kf (execOpFail k env s) := by
  unfold execOpFail
  repeat' with_reducible first
    | (exact hs) | (assumption) | (apply State.coded_keeps) | (apply State.halt_keeps) | (apply State.issue_stays)
    | (apply State.status_keeps) | (apply State.trap_keeps) | (exact trivial) | (intro) | (dsimp only) | (split)

theorem execOpLoop_stays {z : State} {kf : Bool} (k : Fin 64) (env : Env) (s : State) (hs : z.Keeps kf s) :
    z.Stays kf (execOpLoop k env s) := by
  unfold execOpLoop
  repeat' with_reducible first
    | (exact hs) | (assumption) | (apply State.coded_keeps) | (apply State.issue_stays) | (apply State.onCtx_keeps)
    | (exact trivial) | (exact ⟨hs.pending, hs.mem, hs.regs, hs.keys⟩) | (intro) | (dsimp only) | (split)
    | (refine Keeps.upd ?_)

theorem execOpcodeTrap_stays {z : State} {kf : Bool} (k : Fin 64) (env : Env) (s : State) (hs : z.Keeps kf s) :
    z.Stays kf (execOpcodeTrap k env s) := by
  unfold execOpcodeTrap
  repeat' with_reducible first
    | (exact hs) | (assumption) | (apply State.instrFetch_keeps) | (apply State.next_keeps)
    | (apply State.touch_keeps) | (apply State.trap_keeps) | (apply State.upset_keeps) | (exact trivial)
    | (apply Keeps.next) | (intro) | (dsimp only) | (split)

theorem State.tnowLoad_keeps {z : State} {kf : Bool} (s : State) (k : Fin 64) (w : Nat) (parity : ParityHit) (hs : z.Keeps kf s) :
    z.Keeps kf (s.tnowLoad k w parity) := by
  unfold State.tnowLoad
  repeat' with_reducible first
    | (exact hs) | (assumption) | (apply State.access_keeps) | (apply State.onCtx_keeps) | (apply State.operand_keeps)
    | (apply State.trap_keeps) | (intro) | (dsimp only) | (split)

theorem State.tnowStore_keeps {z : State} {kf : Bool} (s : State) (k : Fin 64) (w : Nat) (parity : ParityHit) (hs : z.Keeps kf s) :
    z.Keeps kf (s.tnowStore k w parity) := by
  unfold State.tnowStore
  repeat' with_reducible first
    | (exact hs) | (assumption) | (apply State.operand_keeps) | (apply State.parkMemory_keeps)
    | (apply State.postBytes_keeps) | (apply State.trap_keeps) | (intro) | (dsimp only) | (split)

theorem execOpTnow_stays {z : State} {kf : Bool} (k : Fin 64) (env : Env) (s : State) (hs : z.Keeps kf s) :
    z.Stays kf (execOpTnow k env s) := by
  unfold execOpTnow
  repeat' with_reducible first
    | (exact hs) | (assumption) | (apply State.coded_keeps) | (apply State.issue_stays) | (apply State.onCtx_keeps)
    | (apply State.tnowLoad_keeps) | (apply State.tnowStore_keeps) | (exact trivial)
    | (exact ⟨hs.pending, hs.mem, hs.regs, hs.keys⟩) | (intro) | (dsimp only) | (split) | (refine Keeps.upd ?_)

theorem State.tadd_keeps {z : State} {kf : Bool} (s : State) (c : Ctx) (w : Nat) (hs : z.Keeps kf s) :
    z.Keeps kf (s.tadd c w).1 := by
  unfold State.tadd
  repeat' with_reducible first
    | (exact hs) | (assumption) | (apply State.draw_keeps) | (intro) | (dsimp only) | (split)

theorem execOpTadd_stays {z : State} {kf : Bool} (k : Fin 64) (env : Env) (s : State) (hs : z.Keeps kf s) :
    z.Stays kf (execOpTadd k env s) := by
  unfold execOpTadd
  repeat' with_reducible first
    | (exact hs) | (assumption) | (apply State.coded_keeps) | (apply State.issue_stays) | (apply State.onCtx_keeps)
    | (apply State.tadd_keeps) | (exact trivial) | (exact ⟨hs.pending, hs.mem, hs.regs, hs.keys⟩) | (intro)
    | (dsimp only) | (split) | (refine Keeps.upd ?_)

theorem execOpTwait_stays {z : State} {kf : Bool} (k : Fin 64) (env : Env) (s : State) (hs : z.Keeps kf s) :
    z.Stays kf (execOpTwait k env s) := by
  unfold execOpTwait
  repeat' with_reducible first
    | (exact hs) | (assumption) | (apply State.coded_keeps) | (apply State.issue_stays) | (apply State.onCtx_keeps)
    | (apply State.park_keeps) | (exact trivial) | (exact ⟨hs.pending, hs.mem, hs.regs, hs.keys⟩) | (intro)
    | (dsimp only) | (split) | (refine Keeps.upd ?_)

theorem State.lnFree_keeps {z : State} {kf : Bool} (s : State) (n : Nat) (hs : z.Keeps kf s) :
    z.Keeps kf (s.lnFree n) := by
  unfold State.lnFree
  repeat' with_reducible first
    | (exact hs) | (assumption) | (apply State.dropOp_keeps) | (intro) | (dsimp only) | (split)

theorem execOpTat_stays {z : State} {kf : Bool} (k : Fin 64) (env : Env) (s : State) (hs : z.Keeps kf s) :
    z.Stays kf (execOpTat k env s) := by
  unfold execOpTat
  repeat' with_reducible first
    | (exact hs) | (assumption) | (apply State.coded_keeps) | (apply State.issue_stays)
    | (apply State.lnArmInstr_keeps) | (apply State.lnFree_keeps) | (apply State.lnOff_keeps)
    | (apply State.onCtx_keeps) | (apply State.park_keeps) | (apply State.setFld_keeps) | (exact trivial)
    | (exact ⟨hs.pending, hs.mem, hs.regs, hs.keys⟩) | (intro) | (dsimp only) | (split) | (refine Keeps.upd ?_)

theorem execOpTguard_stays {z : State} {kf : Bool} (k : Fin 64) (env : Env) (s : State) (hs : z.Keeps kf s) :
    z.Stays kf (execOpTguard k env s) := by
  unfold execOpTguard
  repeat' with_reducible first
    | (exact hs) | (assumption) | (apply State.coded_keeps) | (apply State.issue_stays) | (apply State.onCtx_keeps)
    | (exact trivial) | (exact ⟨hs.pending, hs.mem, hs.regs, hs.keys⟩) | (intro) | (dsimp only) | (split)
    | (refine Keeps.upd ?_)

theorem State.modelRead_keeps {z : State} {kf : Bool} (s : State) (i : Nat) (parity : ParityHit) (hs : z.Keeps kf s) :
    z.Keeps kf (s.modelRead i parity).1 := by
  unfold State.modelRead
  repeat' with_reducible first
    | (exact hs) | (assumption) | (apply State.access_keeps) | (intro) | (dsimp only) | (split)

theorem execOpTdrift_stays {z : State} {kf : Bool} (k : Fin 64) (env : Env) (s : State) (hs : z.Keeps kf s) :
    z.Stays kf (execOpTdrift k env s) := by
  unfold execOpTdrift
  repeat' with_reducible first
    | (exact hs) | (assumption) | (apply State.coded_keeps) | (apply State.issue_stays)
    | (apply State.modelRead_keeps) | (apply State.onCtx_keeps) | (apply State.operand_keeps)
    | (apply State.trap_keeps) | (exact trivial) | (exact ⟨hs.pending, hs.mem, hs.regs, hs.keys⟩) | (intro)
    | (dsimp only) | (split) | (refine Keeps.upd ?_)

theorem execOpTlearn_stays {z : State} {kf : Bool} (k : Fin 64) (env : Env) (s : State) (hs : z.Keeps kf s) :
    z.Stays kf (execOpTlearn k env s) := by
  unfold execOpTlearn
  repeat' with_reducible first
    | (exact hs) | (assumption) | (apply State.coded_keeps) | (apply State.issue_stays)
    | (apply State.modelRead_keeps) | (apply State.onCtx_keeps) | (apply State.operand_keeps)
    | (apply State.tlearn_keeps) | (apply State.trap_keeps) | (exact trivial)
    | (exact ⟨hs.pending, hs.mem, hs.regs, hs.keys⟩) | (intro) | (dsimp only) | (split) | (refine Keeps.upd ?_)

theorem State.radioNow_keeps {z : State} {kf : Bool} (s : State) (k : Fin 64) (d : Nat) (status : Nat) (extra : Nat) (hs : z.Keeps kf s) :
    z.Keeps kf (s.radioNow k d status extra) := by
  unfold State.radioNow
  repeat' with_reducible first
    | (exact hs) | (assumption) | (apply State.finish_keeps) | (apply State.status_keeps) | (intro) | (dsimp only)
    | (split)

theorem State.radio_keeps {z : State} {kf : Bool} (s : State) (k : Fin 64) (w : Nat) (parity : ParityHit) (f : State → Desc → State) (hs : z.Keeps kf s) (hf : ∀ (x0 : State) (x1 : Desc), z.Keeps kf x0 → z.Keeps kf (f x0 x1)) :
    z.Keeps kf (s.radio k w parity f) := by
  unfold State.radio
  repeat' with_reducible first
    | (exact hs) | (assumption) | (apply hf) | (apply State.block_keeps) | (apply State.trap_keeps) | (intro)
    | (dsimp only) | (split)

theorem State.radioGo_keeps {z : State} {kf : Bool} (s : State) (k : Fin 64) (d : Nat) (ok : Bool) (f : State → State) (hs : z.Keeps kf s) (hf : ∀ (x0 : State), z.Keeps kf x0 → z.Keeps kf (f x0)) :
    z.Keeps kf (s.radioGo k d ok f) := by
  unfold State.radioGo
  repeat' with_reducible first
    | (exact hs) | (assumption) | (apply hf) | (apply State.next_keeps) | (apply State.radioLost_keeps)
    | (apply State.radioNow_keeps) | (apply Keeps.next) | (intro) | (dsimp only) | (split)

theorem State.withLnch_keeps {z : State} {kf : Bool} (s : State) (k : Fin 64) (d : Nat) (at_ : Bool) (x : Desc) (f : Option (Fin 32) → State) (hs : z.Keeps kf s) (hf : ∀ (x0 : Option (Fin 32)), z.Keeps kf (f x0)) :
    z.Keeps kf (s.withLnch k d at_ x f) := by
  unfold State.withLnch
  repeat' with_reducible first
    | (exact hs) | (assumption) | (apply hf) | (apply State.radioNow_keeps) | (intro) | (dsimp only) | (split)

theorem State.armRadio_keeps {z : State} {kf : Bool} (s : State) (n : Fin 32) (t : Nat) (rep : Nat) (pol : Nat) (k : Fin 64) (id : Nat) (late : Bool) (hs : z.Keeps kf s) :
    z.Keeps kf (s.armRadio n t rep pol k id late) := by
  unfold State.armRadio
  repeat' with_reducible first
    | (exact hs) | (assumption) | (apply State.draw_keeps) | (apply State.lnArmInstr_keeps)
    | (apply State.lnFree_keeps) | (apply State.setLauncher_keeps) | (exact ⟨hs.pending, hs.mem, hs.regs, hs.keys⟩)
    | (intro) | (dsimp only) | (split) | (refine Keeps.upd ?_)

theorem State.armOpt_keeps {z : State} {kf : Bool} (s : State) (n : Option (Fin 32)) (t : Nat) (pol : Nat) (k : Fin 64) (id : Nat) (late : Bool) (hs : z.Keeps kf s) :
    z.Keeps kf (s.armOpt n t pol k id late) := by
  unfold State.armOpt
  repeat' with_reducible first
    | (exact hs) | (assumption) | (apply State.armRadio_keeps) | (intro) | (dsimp only) | (split)

theorem State.tuneNow_keeps {z : State} {kf : Bool} (s : State) (k : Fin 64) (o : RadioOp) (hs : z.Keeps kf s) :
    z.Keeps kf (s.tuneNow k o) := by
  unfold State.tuneNow
  repeat' with_reducible first
    | (exact hs) | (assumption) | (apply State.addOp_keeps) | (apply State.opEnd_keeps) | (apply State.park_keeps)
    | (apply State.powerClaim_keeps) | (apply State.radio_keeps) | (apply State.tuneAdd_keeps)
    | (apply State.tuneGo_keeps) | (exact ⟨hs.pending, hs.mem, hs.regs, hs.keys⟩) | (intro) | (dsimp only) | (split)
    | (refine Keeps.upd ?_)

theorem State.tuneAt_keeps {z : State} {kf : Bool} (s : State) (k : Fin 64) (o : RadioOp) (n : Fin 32) (t : Nat) (hs : z.Keeps kf s) :
    z.Keeps kf (s.tuneAt k o n t) := by
  unfold State.tuneAt
  repeat' with_reducible first
    | (exact hs) | (assumption) | (apply Fetch.release_keeps) | (apply State.addOp_keeps)
    | (apply State.armRadio_keeps) | (apply State.park_keeps) | (apply State.radio_keeps)
    | (exact ⟨hs.pending, hs.mem, hs.regs, hs.keys⟩) | (intro) | (dsimp only) | (split) | (refine Keeps.upd ?_)

theorem execOpTune_stays {z : State} {kf : Bool} (k : Fin 64) (env : Env) (s : State) (hs : z.Keeps kf s) :
    z.Stays kf (execOpTune k env s) := by
  unfold execOpTune
  repeat' with_reducible first
    | (exact hs) | (assumption) | (apply State.coded_keeps) | (apply State.issue_stays) | (apply State.radio_keeps)
    | (apply State.radioGo_keeps) | (apply State.tuneAt_keeps) | (apply State.tuneNow_keeps)
    | (apply State.withLnch_keeps) | (exact trivial) | (exact ⟨hs.pending, hs.mem, hs.regs, hs.keys⟩) | (intro)
    | (dsimp only) | (split) | (refine Keeps.upd ?_)

theorem State.winDrop_keeps {z : State} {kf : Bool} (s : State) (i : Nat) (hs : z.Keeps kf s) :
    z.Keeps kf (s.winDrop i) := by
  unfold State.winDrop
  repeat' with_reducible first
    | (exact hs) | (assumption) | (apply State.lnOff_keeps) | (apply State.opEnd_keeps)
    | (exact ⟨hs.pending, hs.mem, hs.regs, hs.keys⟩) | (apply Keeps.foldl) | (apply Keeps.foldl_fst) | (intro)
    | (dsimp only) | (split) | (refine Keeps.upd ?_)

theorem State.winCancel_keeps {z : State} {kf : Bool} (s : State) (pidx : Nat) (hs : z.Keeps kf s) :
    z.Keeps kf (s.winCancel pidx) := by
  unfold State.winCancel
  repeat' with_reducible first
    | (exact hs) | (assumption) | (apply State.palJudge_keeps) | (apply State.setFld_keeps)
    | (apply State.winDrop_keeps) | (apply Keeps.foldl) | (apply Keeps.foldl_fst) | (intro) | (dsimp only) | (split)

theorem State.winAdd_keeps {z : State} {kf : Bool} (s : State) (k : Fin 64) (d : Nat) (x : Desc) (o : RadioOp) (power : Bool) (n : Option (Fin 32)) (t : Nat) (hs : z.Keeps kf s) :
    z.Keeps kf (s.winAdd k d x o power n t) := by
  unfold State.winAdd
  repeat' with_reducible first
    | (exact hs) | (assumption) | (apply Fetch.release_keeps) | (apply State.addOp_keeps)
    | (apply State.armRadio_keeps) | (apply State.park_keeps) | (apply State.radio_keeps)
    | (apply State.radioNow_keeps) | (exact ⟨hs.pending, hs.mem, hs.regs, hs.keys⟩) | (intro) | (dsimp only) | (split)
    | (refine Keeps.upd ?_)

theorem execOpRxwin_stays {z : State} {kf : Bool} (k : Fin 64) (env : Env) (s : State) (hs : z.Keeps kf s) :
    z.Stays kf (execOpRxwin k env s) := by
  unfold execOpRxwin
  repeat' with_reducible first
    | (exact hs) | (assumption) | (apply State.coded_keeps) | (apply State.issue_stays) | (apply State.next_keeps)
    | (apply State.radio_keeps) | (apply State.radioGo_keeps) | (apply State.radioNow_keeps)
    | (apply State.winAdd_keeps) | (apply State.winCancel_keeps) | (apply State.withLnch_keeps) | (exact trivial)
    | (apply Keeps.next) | (intro) | (dsimp only) | (split)

theorem State.txStart_keeps {z : State} {kf : Bool} (s : State) (k : Fin 64) (o : RadioOp) (n : Option (Fin 32)) (hs : z.Keeps kf s) :
    z.Keeps kf (s.txStart k o n) := by
  unfold State.txStart
  repeat' with_reducible first
    | (exact hs) | (assumption) | (apply State.addOp_keeps) | (apply State.armOpt_keeps) | (apply State.opEnd_keeps)
    | (apply State.park_keeps) | (apply State.radio_keeps) | (apply State.txBegin_keeps) | (apply State.txLate_keeps)
    | (exact ⟨hs.pending, hs.mem, hs.regs, hs.keys⟩) | (intro) | (dsimp only) | (split) | (refine Keeps.upd ?_)

theorem execOpTxf_stays {z : State} {kf : Bool} (k : Fin 64) (env : Env) (s : State) (hs : z.Keeps kf s) :
    z.Stays kf (execOpTxf k env s) := by
  unfold execOpTxf
  repeat' with_reducible first
    | (exact hs) | (assumption) | (apply State.addOp_keeps) | (apply State.coded_keeps) | (apply State.engRead_keeps)
    | (apply State.issue_stays) | (apply State.opEnd_keeps) | (apply State.operand_keeps) | (apply State.park_keeps)
    | (apply State.radio_keeps) | (apply State.radioGo_keeps) | (apply State.radioNow_keeps)
    | (apply State.trap_keeps) | (apply State.txStart_keeps) | (apply State.withLnch_keeps) | (exact trivial)
    | (intro) | (dsimp only) | (split)

theorem execOpLbt_stays {z : State} {kf : Bool} (k : Fin 64) (env : Env) (s : State) (hs : z.Keeps kf s) :
    z.Stays kf (execOpLbt k env s) := by
  unfold execOpLbt
  repeat' with_reducible first
    | (exact hs) | (assumption) | (apply State.addOp_keeps) | (apply State.coded_keeps)
    | (apply State.drawListen_keeps) | (apply State.issue_stays) | (apply State.lbtDecide_keeps)
    | (apply State.park_keeps) | (apply State.radio_keeps) | (apply State.radioGo_keeps) | (exact trivial)
    | (exact ⟨hs.pending, hs.mem, hs.regs, hs.keys⟩) | (intro) | (dsimp only) | (split) | (refine Keeps.upd ?_)

theorem execOpCalltx_stays {z : State} {kf : Bool} (k : Fin 64) (env : Env) (s : State) (hs : z.Keeps kf s) :
    z.Stays kf (execOpCalltx k env s) := by
  unfold execOpCalltx
  repeat' with_reducible first
    | (exact hs) | (assumption) | (apply State.coded_keeps) | (apply State.issue_stays) | (apply State.radio_keeps)
    | (apply State.radioGo_keeps) | (apply State.txStart_keeps) | (apply State.withLnch_keeps) | (exact trivial)
    | (exact ⟨hs.pending, hs.mem, hs.regs, hs.keys⟩) | (intro) | (dsimp only) | (split) | (refine Keeps.upd ?_)

theorem execOpAckw_stays {z : State} {kf : Bool} (k : Fin 64) (env : Env) (s : State) (hs : z.Keeps kf s) :
    z.Stays kf (execOpAckw k env s) := by
  unfold execOpAckw
  repeat' with_reducible first
    | (exact hs) | (assumption) | (apply State.access_keeps) | (apply State.coded_keeps) | (apply State.issue_stays)
    | (apply State.operand_keeps) | (apply State.radio_keeps) | (apply State.radioGo_keeps) | (apply State.trap_keeps)
    | (apply State.txStart_keeps) | (apply State.withLnch_keeps) | (exact trivial) | (intro) | (dsimp only) | (split)

theorem execOpRssi_stays {z : State} {kf : Bool} (k : Fin 64) (env : Env) (s : State) (hs : z.Keeps kf s) :
    z.Stays kf (execOpRssi k env s) := by
  unfold execOpRssi
  repeat' with_reducible first
    | (exact hs) | (assumption) | (apply State.coded_keeps) | (apply State.issue_stays) | (apply State.next_keeps)
    | (apply State.radio_keeps) | (apply State.radioNow_keeps) | (exact trivial) | (apply Keeps.next) | (intro)
    | (dsimp only) | (split)

theorem State.gackStart_keeps {z : State} {kf : Bool} (s : State) (k : Fin 64) (o : RadioOp) (n : Fin 32) (t : Nat) (hs : z.Keeps kf s) :
    z.Keeps kf (s.gackStart k o n t) := by
  unfold State.gackStart
  repeat' with_reducible first
    | (exact hs) | (assumption) | (apply State.addOp_keeps) | (apply State.armRadio_keeps)
    | (apply State.beaconNew_keeps) | (apply State.gackStop_keeps) | (apply State.park_keeps)
    | (apply State.radio_keeps) | (exact ⟨hs.pending, hs.mem, hs.regs, hs.keys⟩) | (intro) | (dsimp only) | (split)
    | (refine Keeps.upd ?_)

theorem execOpGack_stays {z : State} {kf : Bool} (k : Fin 64) (env : Env) (s : State) (hs : z.Keeps kf s) :
    z.Stays kf (execOpGack k env s) := by
  unfold execOpGack
  repeat' with_reducible first
    | (exact hs) | (assumption) | (apply State.coded_keeps) | (apply State.gackStart_keeps)
    | (apply State.gackStop_keeps) | (apply State.issue_stays) | (apply State.next_keeps) | (apply State.radio_keeps)
    | (apply State.radioGo_keeps) | (apply State.radioNow_keeps) | (apply State.withLnch_keeps) | (exact trivial)
    | (apply Keeps.next) | (exact ⟨hs.pending, hs.mem, hs.regs, hs.keys⟩) | (intro) | (dsimp only) | (split)
    | (refine Keeps.upd ?_)

theorem State.function_stays {z : State} {kf : Bool} (s : State) (k : Fin 64) (env : Env) (op : Nat) (fns : List Nat) (fn : Nat) (f : State → Nat → State) (hs : z.Keeps kf s) (hf : ∀ (x0 : State) (x1 : Nat), z.Keeps kf x0 → z.Keeps kf (f x0 x1)) :
    z.Stays kf (s.function k env op fns fn f) := by
  unfold State.function
  repeat' with_reducible first
    | (exact hs) | (assumption) | (apply hf) | (apply State.coded_keeps) | (apply State.issueFn_stays)
    | (exact trivial) | (intro) | (dsimp only) | (split)

theorem State.operand_keeps {z : State} {kf : Bool} (s : State) (k : Fin 64) (ok : Bool) (t : State) (hs : z.Keeps kf s) (ht : z.Keeps kf t) :
    z.Keeps kf (s.operand k ok t) := by
  unfold State.operand
  repeat' with_reducible first
    | (exact hs) | (exact ht) | (assumption) | (apply State.trap_keeps) | (intro) | (dsimp only) | (split)

theorem State.param_keeps {z : State} {kf : Bool} (s : State) (k : Fin 64) (w : Nat) (n : Nat) (parity : ParityHit) (f : State → Nat → State) (hs : z.Keeps kf s) (hf : ∀ (x0 : State) (x1 : Nat), z.Keeps kf x0 → z.Keeps kf (f x0 x1)) :
    z.Keeps kf (s.param k w n parity f) := by
  unfold State.param
  repeat' with_reducible first
    | (exact hs) | (assumption) | (apply hf) | (apply State.block_keeps) | (apply State.trap_keeps) | (intro)
    | (dsimp only) | (split)

theorem State.room_keeps {z : State} {kf : Bool} (s : State) (k : Fin 64) (w : Nat) (f : State → State) (hs : z.Keeps kf s) (hf : ∀ (x0 : State), z.Keeps kf x0 → z.Keeps kf (f x0)) :
    z.Keeps kf (s.room k w f) := by
  unfold State.room
  repeat' with_reducible first
    | (exact hs) | (assumption) | (apply hf) | (apply State.next_keeps) | (apply State.park_keeps)
    | (apply Keeps.next) | (intro) | (dsimp only) | (split)

theorem State.engStart_keeps {z : State} {kf : Bool} (s : State) (k : Fin 64) (w : Nat) (kind : EngKind) (hs : z.Keeps kf s) :
    z.Keeps kf (s.engStart k w kind) := by
  unfold State.engStart
  repeat' with_reducible first
    | (exact hs) | (assumption) | (apply State.addEng_keeps) | (apply State.finish_keeps) | (apply State.park_keeps)
    | (apply State.setCx_keeps) | (exact ⟨hs.pending, hs.mem, hs.regs, hs.keys⟩) | (intro) | (dsimp only) | (split)
    | (refine Keeps.upd ?_)

theorem State.aesStart_keeps {z : State} {kf : Bool} (s : State) (k : Fin 64) (w : Nat) (kind : EngKind) (hs : z.Keeps kf s) :
    z.Keeps kf (s.aesStart k w kind) := by
  unfold State.aesStart
  repeat' with_reducible first
    | (exact hs) | (assumption) | (apply State.aesClaim_keeps) | (apply State.dropEng_keeps)
    | (apply State.engStart_keeps) | (apply State.finish_keeps) | (apply State.park_keeps) | (apply State.setCx_keeps)
    | (exact ⟨hs.pending, hs.mem, hs.regs, hs.keys⟩) | (intro) | (dsimp only) | (split) | (refine Keeps.upd ?_)

theorem State.copy_keeps {z : State} {kf : Bool} (s : State) (k : Fin 64) (w : Nat) (hs : z.Keeps kf s) :
    z.Keeps kf (s.copy k w) := by
  unfold State.copy
  repeat' with_reducible first
    | (exact hs) | (assumption) | (apply State.dmaStart_keeps) | (apply State.drain_keeps)
    | (apply State.engStart_keeps) | (apply State.finish_keeps) | (apply State.operand_keeps)
    | (apply State.room_keeps) | (apply State.setFld_keeps) | (apply State.setReg_keeps) | (apply State.visible_keeps)
    | (intro) | (dsimp only) | (split)

theorem execOpCopy_stays {z : State} {kf : Bool} (k : Fin 64) (env : Env) (s : State) (hs : z.Keeps kf s) :
    z.Stays kf (execOpCopy k env s) := by
  unfold execOpCopy
  repeat' with_reducible first
    | (exact hs) | (assumption) | (apply State.coded_keeps) | (apply State.copy_keeps) | (apply State.function_stays)
    | (exact trivial) | (intro) | (dsimp only) | (split)

theorem State.fragOp_keeps {z : State} {kf : Bool} (s : State) (k : Fin 64) (w : Nat) (parity : ParityHit) (hs : z.Keeps kf s) :
    z.Keeps kf (s.fragOp k w parity) := by
  unfold State.fragOp
  repeat' with_reducible first
    | (exact hs) | (assumption) | (apply State.drain_keeps) | (apply State.fragIssue_keeps) | (apply State.next_keeps)
    | (apply State.operand_keeps) | (apply State.param_keeps) | (apply State.visible_keeps) | (apply Keeps.next)
    | (intro) | (dsimp only) | (split)

theorem execOpFrag_stays {z : State} {kf : Bool} (k : Fin 64) (env : Env) (s : State) (hs : z.Keeps kf s) :
    z.Stays kf (execOpFrag k env s) := by
  unfold execOpFrag
  repeat' with_reducible first
    | (exact hs) | (assumption) | (apply State.coded_keeps) | (apply State.fragOp_keeps)
    | (apply State.function_stays) | (exact trivial) | (intro) | (dsimp only) | (split)

theorem execOpAbsorb_stays {z : State} {kf : Bool} (k : Fin 64) (env : Env) (s : State) (hs : z.Keeps kf s) :
    z.Stays kf (execOpAbsorb k env s) := by
  unfold execOpAbsorb
  repeat' with_reducible first
    | (exact hs) | (assumption) | (apply State.absorbIssue_keeps) | (apply State.coded_keeps)
    | (apply State.drain_keeps) | (apply State.function_stays) | (apply State.next_keeps)
    | (apply State.operand_keeps) | (apply State.param_keeps) | (apply State.visible_keeps) | (exact trivial)
    | (apply Keeps.next) | (intro) | (dsimp only) | (split)

theorem execOpRelease_stays {z : State} {kf : Bool} (k : Fin 64) (env : Env) (s : State) (hs : z.Keeps kf s) :
    z.Stays kf (execOpRelease k env s) := by
  unfold execOpRelease
  repeat' with_reducible first
    | (exact hs) | (assumption) | (apply State.coded_keeps) | (apply State.finish_keeps)
    | (apply State.function_stays) | (apply State.msgRelease_keeps) | (apply State.next_keeps) | (exact trivial)
    | (apply Keeps.next) | (intro) | (dsimp only) | (split)

theorem execOpTopen_stays {z : State} {kf : Bool} (k : Fin 64) (env : Env) (s : State) (hs : z.Keeps kf s) :
    z.Stays kf (execOpTopen k env s) := by
  unfold execOpTopen
  repeat' with_reducible first
    | (exact hs) | (assumption) | (apply State.coded_keeps) | (apply State.finish_keeps)
    | (apply State.function_stays) | (apply State.next_keeps) | (apply State.param_keeps)
    | (apply State.txnOpen_keeps) | (exact trivial) | (apply Keeps.next) | (intro) | (dsimp only) | (split)

theorem State.findPark_keeps {z : State} {kf : Bool} (s : State) (k : Fin 64) (d : Nat) (i : Nat) (hs : z.Keeps kf s) :
    z.Keeps kf (s.findPark k d i) := by
  unfold State.findPark
  repeat' with_reducible first
    | (exact hs) | (assumption) | (apply State.next_keeps) | (apply State.parkEng_keeps) | (apply Keeps.next)
    | (intro) | (dsimp only) | (split)

theorem execOpFind_stays {z : State} {kf : Bool} (k : Fin 64) (env : Env) (s : State) (hs : z.Keeps kf s) :
    z.Stays kf (execOpFind k env s) := by
  unfold execOpFind
  repeat' with_reducible first
    | (exact hs) | (assumption) | (apply State.access_keeps) | (apply State.coded_keeps)
    | (apply State.findPark_keeps) | (apply State.function_stays) | (apply State.operand_keeps)
    | (apply State.trap_keeps) | (exact trivial) | (intro) | (dsimp only) | (split)

theorem State.sealOp_keeps {z : State} {kf : Bool} (s : State) (k : Fin 64) (w : Nat) (parity : ParityHit) (hs : z.Keeps kf s) :
    z.Keeps kf (s.sealOp k w parity) := by
  unfold State.sealOp
  repeat' with_reducible first
    | (exact hs) | (assumption) | (apply State.aesStart_keeps) | (apply State.drain_keeps)
    | (apply State.finish_keeps) | (apply State.next_keeps) | (apply State.operand_keeps) | (apply State.radio_keeps)
    | (apply State.room_keeps) | (apply State.visible_keeps) | (apply Keeps.next) | (intro) | (dsimp only) | (split)

theorem execOpSeal_stays {z : State} {kf : Bool} (k : Fin 64) (env : Env) (s : State) (hs : z.Keeps kf s) :
    z.Stays kf (execOpSeal k env s) := by
  unfold execOpSeal
  repeat' with_reducible first
    | (exact hs) | (assumption) | (apply State.coded_keeps) | (apply State.issue_stays) | (apply State.sealOp_keeps)
    | (exact trivial) | (intro) | (dsimp only) | (split)

theorem State.openOp_keeps {z : State} {kf : Bool} (s : State) (k : Fin 64) (w : Nat) (parity : ParityHit) (hs : z.Keeps kf s) :
    z.Keeps kf (s.openOp k w parity) := by
  unfold State.openOp
  repeat' with_reducible first
    | (exact hs) | (assumption) | (apply State.access_keeps) | (apply State.aesStart_keeps)
    | (apply State.drain_keeps) | (apply State.finish_keeps) | (apply State.next_keeps) | (apply State.operand_keeps)
    | (apply State.room_keeps) | (apply State.trap_keeps) | (apply State.visible_keeps) | (apply Keeps.next) | (intro)
    | (dsimp only) | (split)

theorem execOpOpen_stays {z : State} {kf : Bool} (k : Fin 64) (env : Env) (s : State) (hs : z.Keeps kf s) :
    z.Stays kf (execOpOpen k env s) := by
  unfold execOpOpen
  repeat' with_reducible first
    | (exact hs) | (assumption) | (apply State.coded_keeps) | (apply State.issue_stays) | (apply State.openOp_keeps)
    | (exact trivial) | (intro) | (dsimp only) | (split)

theorem State.chkOp_keeps {z : State} {kf : Bool} (s : State) (k : Fin 64) (w : Nat) (hs : z.Keeps kf s) :
    z.Keeps kf (s.chkOp k w) := by
  unfold State.chkOp
  repeat' with_reducible first
    | (exact hs) | (assumption) | (apply State.chkTake_keeps) | (apply State.drain_keeps)
    | (apply State.engStart_keeps) | (apply State.finish_keeps) | (apply State.operand_keeps)
    | (apply State.room_keeps) | (apply State.setCx_keeps) | (apply State.visible_keeps)
    | (exact ⟨hs.pending, hs.mem, hs.regs, hs.keys⟩) | (intro) | (dsimp only) | (split) | (refine Keeps.upd ?_)

theorem execOpChk_stays {z : State} {kf : Bool} (k : Fin 64) (env : Env) (s : State) (hs : z.Keeps kf s) :
    z.Stays kf (execOpChk k env s) := by
  unfold execOpChk
  repeat' with_reducible first
    | (exact hs) | (assumption) | (apply State.chkOp_keeps) | (apply State.coded_keeps) | (apply State.issue_stays)
    | (exact trivial) | (intro) | (dsimp only) | (split)

theorem State.postEvent_keeps {z : State} {kf : Bool} (s : State) (k : Fin 64) (w : Nat) (hs : z.Keeps kf s) :
    z.Keeps kf (s.postEvent k w) := by
  unfold State.postEvent
  repeat' with_reducible first
    | (exact hs) | (assumption) | (apply State.post_keeps) | (intro) | (dsimp only) | (split)

theorem execOpPost_stays {z : State} {kf : Bool} (k : Fin 64) (env : Env) (s : State) (hs : z.Keeps kf s) :
    z.Stays kf (execOpPost k env s) := by
  unfold execOpPost
  repeat' with_reducible first
    | (exact hs) | (assumption) | (apply State.coded_keeps) | (apply State.issue_stays) | (apply State.next_keeps)
    | (apply State.postEvent_keeps) | (exact trivial) | (apply Keeps.next) | (intro) | (dsimp only) | (split)

theorem execOpSig_stays {z : State} {kf : Bool} (k : Fin 64) (env : Env) (s : State) (hs : z.Keeps kf s) :
    z.Stays kf (execOpSig k env s) := by
  unfold execOpSig
  repeat' with_reducible first
    | (exact hs) | (assumption) | (apply State.coded_keeps) | (apply State.issue_stays) | (apply State.next_keeps)
    | (apply State.postEvent_keeps) | (apply State.setCx_keeps) | (apply State.signalUser_keeps) | (exact trivial)
    | (apply Keeps.next) | (exact ⟨hs.pending, hs.mem, hs.regs, hs.keys⟩) | (intro) | (dsimp only) | (split)
    | (refine Keeps.upd ?_)

theorem State.waite_keeps {z : State} {kf : Bool} (s : State) (k : Fin 64) (w : Nat) (mask : Nat) (hs : z.Keeps kf s) :
    z.Keeps kf (s.waite k w mask) := by
  unfold State.waite
  repeat' with_reducible first
    | (exact hs) | (assumption) | (apply State.next_keeps) | (apply State.park_keeps) | (apply State.setCx_keeps)
    | (apply State.takeSignals_keeps) | (apply Keeps.next) | (exact ⟨hs.pending, hs.mem, hs.regs, hs.keys⟩) | (intro)
    | (dsimp only) | (split) | (refine Keeps.upd ?_)

theorem execOpWaite_stays {z : State} {kf : Bool} (k : Fin 64) (env : Env) (s : State) (hs : z.Keeps kf s) :
    z.Stays kf (execOpWaite k env s) := by
  unfold execOpWaite
  repeat' with_reducible first
    | (exact hs) | (assumption) | (apply State.coded_keeps) | (apply State.issue_stays) | (apply State.operand_keeps)
    | (apply State.waite_keeps) | (exact trivial) | (intro) | (dsimp only) | (split)

theorem State.register_keeps {z : State} {kf : Bool} (s : State) (k : Fin 64) (w : Nat) (f : Nat → State) (hs : z.Keeps kf s) (hf : ∀ (x0 : Nat), z.Keeps kf (f x0)) :
    z.Keeps kf (s.register k w f) := by
  unfold State.register
  repeat' with_reducible first
    | (exact hs) | (assumption) | (apply hf) | (apply State.operand_keeps) | (apply State.trap_keeps) | (intro)
    | (dsimp only) | (split)

theorem execOpRget_stays {z : State} {kf : Bool} (k : Fin 64) (env : Env) (s : State) (hs : z.Keeps kf s) :
    z.Stays kf (execOpRget k env s) := by
  unfold execOpRget
  repeat' with_reducible first
    | (exact hs) | (assumption) | (apply State.coded_keeps) | (apply State.function_stays) | (apply State.next_keeps)
    | (apply State.parityErr_keeps) | (apply State.readWhole_keeps) | (apply State.register_keeps)
    | (apply State.setCx_keeps) | (apply State.trap_keeps) | (exact trivial) | (apply Keeps.next) | (intro)
    | (dsimp only) | (split)

theorem execOpRput_stays {z : State} (k : Fin 64) (env : Env) (s : State) (hs : z.Keeps false s) :
    z.Stays false (execOpRput k env s) := by
  unfold execOpRput
  repeat' with_reducible first
    | (exact hs) | (assumption) | (apply State.coded_keeps) | (apply State.commit_keeps)
    | (apply State.function_stays) | (apply State.next_keeps) | (apply State.parityErr_keeps)
    | (apply State.register_keeps) | (exact trivial) | (apply Keeps.next) | (intro) | (dsimp only) | (split)

theorem execOpMacq_stays {z : State} {kf : Bool} (k : Fin 64) (env : Env) (s : State) (hs : z.Keeps kf s) :
    z.Stays kf (execOpMacq k env s) := by
  unfold execOpMacq
  repeat' with_reducible first
    | (exact hs) | (assumption) | (apply State.assign_keeps) | (apply State.coded_keeps) | (apply State.finish_keeps)
    | (apply State.function_stays) | (apply State.next_keeps) | (apply State.setFld_keeps) | (exact trivial)
    | (apply Keeps.next) | (intro) | (dsimp only) | (split)

theorem execOpBudg_stays {z : State} {kf : Bool} (k : Fin 64) (env : Env) (s : State) (hs : z.Keeps kf s) :
    z.Stays kf (execOpBudg k env s) := by
  unfold execOpBudg
  repeat' with_reducible first
    | (exact hs) | (assumption) | (apply State.coded_keeps) | (apply State.finish_keeps)
    | (apply State.function_stays) | (apply State.next_keeps) | (apply State.park_keeps) | (apply State.place_keeps)
    | (apply State.withdraw_keeps) | (exact trivial) | (apply Keeps.next) | (intro) | (dsimp only) | (split)

theorem execOpLock_stays {z : State} {kf : Bool} (k : Fin 64) (env : Env) (s : State) (hs : z.Keeps kf s) :
    z.Stays kf (execOpLock k env s) := by
  unfold execOpLock
  repeat' with_reducible first
    | (exact hs) | (assumption) | (apply State.coded_keeps) | (apply State.function_stays) | (apply State.next_keeps)
    | (apply State.park_keeps) | (apply State.setSem_keeps) | (apply State.trap_keeps) | (exact trivial)
    | (apply Keeps.next) | (exact ⟨hs.pending, hs.mem, hs.regs, hs.keys⟩) | (intro) | (dsimp only) | (split)
    | (refine Keeps.upd ?_)

theorem execOpFree_stays {z : State} {kf : Bool} (k : Fin 64) (env : Env) (s : State) (hs : z.Keeps kf s) :
    z.Stays kf (execOpFree k env s) := by
  unfold execOpFree
  repeat' with_reducible first
    | (exact hs) | (assumption) | (apply State.coded_keeps) | (apply State.drain_keeps) | (apply State.freeSem_keeps)
    | (apply State.function_stays) | (apply State.next_keeps) | (apply State.trap_keeps) | (apply State.visible_keeps)
    | (exact trivial) | (apply Keeps.next) | (intro) | (dsimp only) | (split)

theorem execOpCas_stays {z : State} {kf : Bool} (k : Fin 64) (env : Env) (s : State) (hs : z.Keeps kf s) :
    z.Stays kf (execOpCas k env s) := by
  unfold execOpCas
  repeat' with_reducible first
    | (exact hs) | (assumption) | (apply State.access_keeps) | (apply State.coded_keeps) | (apply State.forward_keeps)
    | (apply State.function_stays) | (apply State.next_keeps) | (apply State.operand_keeps) | (apply State.trap_keeps)
    | (exact trivial) | (apply Keeps.next) | (intro) | (dsimp only) | (split)

theorem State.service_stays {z : State} {kf : Bool} (s : State) (k : Fin 64) (env : Env) (n : Nat) (f : State → State) (hs : z.Keeps kf s) (hf : ∀ (x0 : State), z.Keeps kf x0 → z.Keeps kf (f x0)) :
    z.Stays kf (s.service k env n f) := by
  unfold State.service
  repeat' with_reducible first
    | (exact hs) | (assumption) | (apply hf) | (apply State.cmdEnd_keeps) | (apply State.next_keeps)
    | (apply State.touch_keeps) | (apply State.upset_keeps) | (exact trivial) | (apply Keeps.next) | (intro)
    | (dsimp only) | (split)

theorem State.svcProgram_keeps {z : State} {kf : Bool} (s : State) (k : Fin 64) (src : Nat) (dst : Nat) (len : Nat) (fill : Bool) (hs : z.Keeps kf s) :
    z.Keeps kf (s.svcProgram k src dst len fill) := by
  unfold State.svcProgram
  repeat' with_reducible first
    | (exact hs) | (assumption) | (apply State.draw_keeps) | (apply State.setFld_keeps) | (apply State.setReg_keeps)
    | (intro) | (dsimp only) | (split)

theorem State.svcMove_keeps {z : State} {kf : Bool} (s : State) (k : Fin 64) (src : Nat) (dst : Nat) (len : Nat) (fill : Bool) (parity : ParityHit) (hs : z.Keeps kf s) :
    z.Keeps kf (s.svcMove k src dst len fill parity) := by
  unfold State.svcMove
  repeat' with_reducible first
    | (exact hs) | (assumption) | (apply State.cmdEnd_keeps) | (apply State.dmaEnd_keeps) | (apply State.dmaRun_keeps)
    | (apply State.svcProgram_keeps) | (intro) | (dsimp only) | (split)

theorem execSvcIdent_stays {z : State} {kf : Bool} (k : Fin 64) (env : Env) (s : State) (hs : z.Keeps kf s) :
    z.Stays kf (execSvcIdent k env s) := by
  unfold execSvcIdent
  repeat' with_reducible first
    | (exact hs) | (assumption) | (apply State.cmdEnd_keeps) | (apply State.service_stays) | (exact trivial) | (intro)
    | (dsimp only) | (split)

theorem execSvcFill_stays {z : State} {kf : Bool} (k : Fin 64) (env : Env) (s : State) (hs : z.Keeps kf s) :
    z.Stays kf (execSvcFill k env s) := by
  unfold execSvcFill
  repeat' with_reducible first
    | (exact hs) | (assumption) | (apply State.cmdEnd_keeps) | (apply State.service_stays)
    | (apply State.svcMove_keeps) | (exact trivial) | (intro) | (dsimp only) | (split)

theorem execSvcPrimerCopy_stays {z : State} {kf : Bool} (k : Fin 64) (env : Env) (s : State) (hs : z.Keeps kf s) :
    z.Stays kf (execSvcPrimerCopy k env s) := by
  unfold execSvcPrimerCopy
  repeat' with_reducible first
    | (exact hs) | (assumption) | (apply State.cmdEnd_keeps) | (apply State.service_stays)
    | (apply State.svcMove_keeps) | (exact trivial) | (intro) | (dsimp only) | (split)

theorem State.svcEngine_keeps {z : State} {kf : Bool} (s : State) (k : Fin 64) (hs : z.Keeps kf s) :
    z.Keeps kf (s.svcEngine k) := by
  unfold State.svcEngine
  repeat' with_reducible first
    | (exact hs) | (assumption) | (apply State.crcLoad_keeps) | (apply State.setFld_keeps)
    | (apply State.setReg_keeps) | (intro) | (dsimp only) | (split)

theorem State.svcSum_keeps {z : State} {kf : Bool} (s : State) (k : Fin 64) (a : Nat) (n : Nat) (parity : ParityHit) (hs : z.Keeps kf s) :
    z.Keeps kf (s.svcSum k a n parity) := by
  unfold State.svcSum
  repeat' with_reducible first
    | (exact hs) | (assumption) | (apply State.chkBytes_keeps) | (apply State.chkParity_keeps)
    | (apply State.cmdEnd_keeps) | (apply State.draw_keeps) | (apply State.engRead_keeps) | (apply State.setReg_keeps)
    | (apply State.svcEngine_keeps) | (intro) | (dsimp only) | (split)

theorem execSvcCrc_stays {z : State} {kf : Bool} (k : Fin 64) (env : Env) (s : State) (hs : z.Keeps kf s) :
    z.Stays kf (execSvcCrc k env s) := by
  unfold execSvcCrc
  repeat' with_reducible first
    | (exact hs) | (assumption) | (apply State.cmdEnd_keeps) | (apply State.service_stays)
    | (apply State.svcSum_keeps) | (exact trivial) | (intro) | (dsimp only) | (split)

theorem execSvcPtclear_stays {z : State} {kf : Bool} (k : Fin 64) (env : Env) (s : State) (hs : z.Keeps kf s) :
    z.Stays kf (execSvcPtclear k env s) := by
  unfold execSvcPtclear
  repeat' with_reducible first
    | (exact hs) | (assumption) | (apply State.cmdEnd_keeps) | (apply State.service_stays)
    | (apply State.svcMove_keeps) | (exact trivial) | (intro) | (dsimp only) | (split)

theorem State.faultNewest12_keeps {z : State} {kf : Bool} (s : State) (hs : z.Keeps kf s) :
    z.Keeps kf (s.faultNewest12).1 := by
  unfold State.faultNewest12
  repeat' with_reducible first
    | (exact hs) | (assumption) | (apply State.readSpan_keeps) | (apply Keeps.foldl) | (apply Keeps.foldl_fst)
    | (intro) | (dsimp only) | (split)

theorem State.svcPack_keeps {z : State} {kf : Bool} (s : State) (k : Fin 64) (dst : Nat) (parity : ParityHit) (hs : z.Keeps kf s) :
    z.Keeps kf (s.svcPack k dst parity) := by
  unfold State.svcPack
  repeat' with_reducible first
    | (exact hs) | (assumption) | (apply State.chkBytes_keeps) | (apply State.cmdEnd_keeps)
    | (apply State.faultNewest12_keeps) | (apply State.masterWrite_keeps) | (apply State.svcEngine_keeps)
    | (apply State.trap_keeps) | (intro) | (dsimp only) | (split)

theorem execSvcReturn_stays {z : State} {kf : Bool} (k : Fin 64) (env : Env) (s : State) (hs : z.Keeps kf s) :
    z.Stays kf (execSvcReturn k env s) := by
  unfold execSvcReturn
  repeat' with_reducible first
    | (exact hs) | (assumption) | (apply State.cmdEnd_keeps) | (apply State.service_stays)
    | (apply State.svcPack_keeps) | (exact trivial) | (intro) | (dsimp only) | (split)

end Sys2Proof.Machine
end

