-- ==== Sys2Proof/Laws/Regs.lean ====
section
/-! SUPPORT. What a register access does when it brings one word: the word judged, stored and acted on, said once for every
row of the opcode table that writes one register; and the fields that the access codes leave. -/

namespace Sys2Proof.Machine

/-- A word that no rule of SYS_LOCK protects is neither shielded nor denied. -/
theorem State.shield_open (s : State) (off : Nat) (w : Word) (h : s.on SYS_LOCK.LOCK = false ∨ protectedFields off w = []) :
    s.shield off w = w ∧ s.denied off w = false := by
  unfold State.shield State.denied
  rcases h with h | h
  · simp [h]
  · simp [h]

/-- Only a write to a CVN_Ln_ACT has an occurrence carried out before it (R31). -/
theorem State.actFirst_other (s : State) (off : Nat) (h : ¬(0x5108 ≤ off ∧ off < 0x5300 ∧ off % 16 = 8)) :
    s.actFirst off = s := if_neg h

/-- One word that SYS_LOCK leaves alone, committed. -/
theorem State.commit_one (s : State) (m : Master) (off : Nat) (w : Word)
    (h : s.on SYS_LOCK.LOCK = false ∨ protectedFields off w = [])
    (ha : ¬(0x5108 ≤ off ∧ off < 0x5300 ∧ off % 16 = 8)) :
    s.commit m [(off, w)] =
      (s.setReg off (s.stored [(off, w)] off w)).effect s m (s.masterTicket m) [(off, w)] off w := by
  obtain ⟨h1, h2⟩ := s.shield_open off w h
  simp [State.commit, State.actFirst_other s off ha, h1, h2]

/-- A register write that reaches an implemented register. -/
theorem State.regWrite_one (s : State) (m : Master) (f : State → List (Nat × Word)) (off : Nat) (w : Word)
    (hr : s.reaches m = true) (hf : f s.leaveIdle.touch = [(off, w)]) (hi : implemented off = true) :
    s.regWrite m f = .next (s.leaveIdle.touch.commit m [(off, w)]) := by
  simp [State.regWrite, hr, hf, hi]

/-- At the moment of the access a device that serves is not in Idle. -/
theorem State.leaveIdle_run (s : State) : (s.leaveIdle.pwr.st == .idle) = false := by
  unfold State.leaveIdle
  split
  · rfl
  · simp_all

/-- A row that writes one register which SYS_LOCK leaves alone: the word stored at the moment of the access, and what the
write sets going. -/
theorem State.regWrite_sets (s : State) (m : Master) (f : State → List (Nat × Word)) (off : Nat) (w : Word)
    (hr : s.reaches m = true) (hf : f s.moment = [(off, w)]) (hi : implemented off = true)
    (hp : s.moment.on SYS_LOCK.LOCK = false ∨ protectedFields off w = [])
    (ha : ¬(0x5108 ≤ off ∧ off < 0x5300 ∧ off % 16 = 8) := by decide) :
    s.regWrite m f = .next ((s.moment.setReg off (s.moment.stored [(off, w)] off w)).effect s.moment m
      (s.moment.masterTicket m) [(off, w)] off w) := by
  rw [State.regWrite_one s m f off w hr hf hi]
  exact congrArg Host.Outcome.next (State.commit_one _ _ _ _ hp ha)

@[simp] theorem State.moment_mem (s : State) : s.moment.mem = s.mem := by simp [State.moment]
@[simp] theorem State.moment_marks (s : State) : s.moment.marks = s.marks := by simp [State.moment]
@[simp] theorem State.moment_scrub (s : State) : s.moment.scrub = s.scrub := by simp [State.moment]
@[simp] theorem State.moment_caps (s : State) : s.moment.caps = s.caps := by simp [State.moment]
@[simp] theorem State.moment_lnch (s : State) : s.moment.lnch = s.lnch := by simp [State.moment]
@[simp] theorem State.moment_ctx (s : State) : s.moment.ctx = s.ctx := by simp [State.moment]
@[simp] theorem State.moment_sems (s : State) : s.moment.sems = s.sems := by simp [State.moment]
@[simp] theorem State.moment_slots (s : State) : s.moment.slots = s.slots := by simp [State.moment]
@[simp] theorem State.moment_ports (s : State) : s.moment.ports = s.ports := by simp [State.moment]
@[simp] theorem State.moment_sya (s : State) : s.moment.sya = s.sya := by simp [State.moment]
@[simp] theorem State.moment_syb (s : State) : s.moment.syb = s.syb := by simp [State.moment]
@[simp] theorem State.moment_syt (s : State) : s.moment.syt = s.syt := by simp [State.moment]
@[simp] theorem State.moment_tempConv (s : State) : s.moment.tempConv = s.tempConv := by simp [State.moment]
@[simp] theorem State.moment_pos (s : State) : s.moment.pos = s.pos := by simp [State.moment]
@[simp] theorem State.moment_palA (s : State) : s.moment.palA = s.palA := by simp [State.moment]
@[simp] theorem State.moment_palB (s : State) : s.moment.palB = s.palB := by simp [State.moment]
@[simp] theorem State.moment_ents (s : State) : s.moment.ents = s.ents := by simp [State.moment]
@[simp] theorem State.moment_lanes (s : State) : s.moment.lanes = s.lanes := by simp [State.moment]
@[simp] theorem State.moment_held (s : State) : s.moment.held = s.held := by simp [State.moment]
@[simp] theorem State.moment_reqs (s : State) : s.moment.reqs = s.reqs := by simp [State.moment]
@[simp] theorem State.moment_rslots (s : State) : s.moment.rslots = s.rslots := by simp [State.moment]
@[simp] theorem State.moment_seqno (s : State) : s.moment.seqno = s.seqno := by simp [State.moment]
@[simp] theorem State.moment_wins (s : State) : s.moment.wins = s.wins := by simp [State.moment]
@[simp] theorem State.moment_ops (s : State) : s.moment.ops = s.ops := by simp [State.moment]
@[simp] theorem State.moment_opNext (s : State) : s.moment.opNext = s.opNext := by simp [State.moment]
@[simp] theorem State.moment_accts (s : State) : s.moment.accts = s.accts := by simp [State.moment]
@[simp] theorem State.moment_keys (s : State) : s.moment.keys = s.keys := by simp [State.moment]
@[simp] theorem State.moment_keyData (s : State) : s.moment.keyData = s.keyData := by simp [State.moment]
@[simp] theorem State.moment_aes (s : State) : s.moment.aes = s.aes := by simp [State.moment]
@[simp] theorem State.moment_engs (s : State) : s.moment.engs = s.engs := by simp [State.moment]
@[simp] theorem State.moment_engNext (s : State) : s.moment.engNext = s.engNext := by simp [State.moment]
@[simp] theorem State.moment_mac (s : State) : s.moment.mac = s.mac := by simp [State.moment]
@[simp] theorem State.moment_wkr (s : State) : s.moment.wkr = s.wkr := by simp [State.moment]
@[simp] theorem State.moment_msgQ (s : State) : s.moment.msgQ = s.msgQ := by simp [State.moment]
@[simp] theorem State.moment_msgEn (s : State) : s.moment.msgEn = s.msgEn := by simp [State.moment]
@[simp] theorem State.moment_dma (s : State) : s.moment.dma = s.dma := by simp [State.moment]
@[simp] theorem State.moment_chk (s : State) : s.moment.chk = s.chk := by simp [State.moment]
@[simp] theorem State.moment_cmc (s : State) : s.moment.cmc = s.cmc := by simp [State.moment]
@[simp] theorem State.moment_cmr (s : State) : s.moment.cmr = s.cmr := by simp [State.moment]
@[simp] theorem State.moment_cmrOpen (s : State) : s.moment.cmrOpen = s.cmrOpen := by simp [State.moment]
@[simp] theorem State.moment_well (s : State) : s.moment.well = s.well := by simp [State.moment]
@[simp] theorem State.moment_brush (s : State) : s.moment.brush = s.brush := by simp [State.moment]
@[simp] theorem State.moment_pins (s : State) : s.moment.pins = s.pins := by simp [State.moment]
@[simp] theorem State.moment_line (s : State) : s.moment.line = s.line := by simp [State.moment]
@[simp] theorem State.moment_casc2 (s : State) : s.moment.casc2 = s.casc2 := by simp [State.moment]
@[simp] theorem State.moment_casc3 (s : State) : s.moment.casc3 = s.casc3 := by simp [State.moment]
@[simp] theorem State.moment_order (s : State) : s.moment.order = s.order := by simp [State.moment]
@[simp] theorem State.moment_pending (s : State) : s.moment.pending = s.pending := by simp [State.moment]
@[simp] theorem State.moment_regs (s : State) : s.moment.regs = s.regs := State.leaveIdle_touch_regs s

theorem State.reg_moment (s : State) (o : Nat) : s.moment.reg o = s.reg o := State.reg_of_regs s.moment_regs o

theorem State.fld_moment (s : State) (f : Fld) : s.moment.fld f = s.fld f := State.fld_of_regs s.moment_regs f

theorem State.on_moment (s : State) (f : Fld) : s.moment.on f = s.on f := State.on_of_regs s.moment_regs f

theorem State.onlyReg_setReg (u : State) (off : Nat) (w : Word) : u.onlyReg (u.setReg off w) off :=
  ⟨fun _ h => State.reg_setReg_ne _ _ _ _ h, rfl⟩

theorem State.moment_notIdle (s : State) : (s.moment.pwr.st == .idle) = false := by
  unfold State.moment
  rw [State.touch_pwr]
  exact s.leaveIdle_run

theorem State.moment_leaveIdle (s : State) : s.moment.leaveIdle = s.moment := by
  unfold State.leaveIdle
  rw [s.moment_notIdle]
  rfl

/-- A register write that reaches nothing. -/
theorem State.regWrite_unreached (s : State) (m : Master) (f : State → List (Nat × Word)) (hr : s.reaches m = false) :
    s.regWrite m f = .next s := by
  simp [State.regWrite, hr]

@[simp] theorem State.leaveIdle_idem (s : State) : s.leaveIdle.leaveIdle = s.leaveIdle := by
  have h := s.leaveIdle_run
  rw [State.leaveIdle.eq_1 s.leaveIdle, h]
  rfl

/-- A field is untouched by the write of a field apart from it. -/
theorem FieldDef.write_apart (f : FieldDef) (w r : Word) (hi lo : Nat) (h : f.lo ≤ f.hi ∧ f.hi < 32)
    (a : hi < f.lo ∨ f.hi < lo) : getBits (f.write w r) hi lo = getBits r hi lo := by
  unfold FieldDef.write
  split <;> dsimp only
  · split
    · exact getBits_putBits_apart _ _ _ _ _ _ h.1 h.2 a
    · rfl
  · split
    · exact getBits_putBits_apart _ _ _ _ _ _ h.1 h.2 a
    · rfl

theorem FieldDef.write_self (f : FieldDef) (w r : Word) (h : f.lo ≤ f.hi ∧ f.hi < 32) :
    getBits (f.write w r) f.hi f.lo = f.after w r := by
  unfold FieldDef.write FieldDef.after
  cases f.acc <;> simp only
  · split
    · rw [getBits_putBits _ _ _ _ h.1 h.2]
      exact Nat.mod_eq_of_lt (getBits_lt w f.hi f.lo)
    · rfl
  · split
    · rw [getBits_putBits _ _ _ _ h.1 h.2]
      simp
    · rfl

/-- The fields of a register lie in its word and do not overlap. -/
def RegDef.tidy (d : RegDef) : Bool :=
  d.fields.all (fun f => decide (f.lo ≤ f.hi) && decide (f.hi < 32)) &&
    decide (d.fields.Pairwise (fun f g => g.hi < f.lo ∨ f.hi < g.lo))

theorem fields_apart (l : List FieldDef) (w r : Word) (hi lo : Nat) (h : ∀ f ∈ l, f.lo ≤ f.hi ∧ f.hi < 32)
    (a : ∀ f ∈ l, hi < f.lo ∨ f.hi < lo) :
    getBits (l.foldl (fun r f => f.write w r) r) hi lo = getBits r hi lo := by
  induction l generalizing r with
  | nil => rfl
  | cons f l ih =>
    rw [List.foldl_cons, ih _ (fun g hg => h g (List.mem_cons_of_mem _ hg)) (fun g hg => a g (List.mem_cons_of_mem _ hg))]
    exact f.write_apart w r hi lo (h f List.mem_cons_self) (a f List.mem_cons_self)

theorem FieldDef.after_congr (f : FieldDef) (w r r' : Word) (h : getBits r f.hi f.lo = getBits r' f.hi f.lo) :
    f.after w r = f.after w r' := by
  unfold FieldDef.after
  rw [h]

/-- Every field of a tidy register holds after a write what its access code says. -/
theorem fields_after (l : List FieldDef) (w r : Word) (h : ∀ f ∈ l, f.lo ≤ f.hi ∧ f.hi < 32)
    (p : l.Pairwise (fun f g => g.hi < f.lo ∨ f.hi < g.lo)) (f : FieldDef) (hf : f ∈ l) :
    getBits (l.foldl (fun r f => f.write w r) r) f.hi f.lo = f.after w r := by
  induction l generalizing r with
  | nil => exact absurd hf List.not_mem_nil
  | cons g l ih =>
    rw [List.pairwise_cons] at p
    rw [List.foldl_cons]
    have hl : ∀ f ∈ l, f.lo ≤ f.hi ∧ f.hi < 32 := fun x hx => h x (List.mem_cons_of_mem _ hx)
    rcases List.mem_cons.mp hf with e | e
    · subst e
      rw [fields_apart l w _ _ _ hl (fun x hx => (p.1 x hx).symm), f.write_self w r (h f List.mem_cons_self)]
    · rw [ih _ hl p.2 e]
      apply FieldDef.after_congr
      exact g.write_apart w r _ _ (h g List.mem_cons_self) (p.1 f e)

theorem RegDef.tidy_after (d : RegDef) (w r : Word) (h : d.tidy = true) (f : FieldDef) (hf : f ∈ d.fields) :
    getBits (d.fields.foldl (fun r f => f.write w r) r) f.hi f.lo = f.after w r := by
  unfold RegDef.tidy at h
  simp only [Bool.and_eq_true, List.all_eq_true, decide_eq_true_eq] at h
  exact fields_after _ _ _ h.1 h.2 f hf

/-! Which block a write sets going. -/

/-- No rule of SYS_LOCK reaches a register outside those R403 lists. -/
theorem protectedFields_none (off : Nat) (w : Word)
    (h : off / 0x1000 ≠ 1 ∧ off ≠ RFA_PA_LEVEL.off ∧ off / 0x1000 ≠ 9 ∧ (off ≠ WELL_CLAIM_TAB.off ∨ bit w 31 = false)) :
    protectedFields off w = [] := by
  obtain ⟨h1, h2, h3, h4⟩ := h
  unfold protectedFields
  have a : ¬ (0x9100 ≤ off ∧ off < 0x9180 ∧ off % 16 ≠ 12) := by omega
  have b : off ≠ SGL_STAT.off := by
    intro e
    rw [e] at h3
    exact h3 (by decide)
  have c : ¬ (off = WELL_CLAIM_TAB.off ∧ bit w 31 = true) := by
    rintro ⟨c1, c2⟩
    rcases h4 with h | h
    · exact h c1
    · rw [h] at c2
      exact absurd c2 (by decide)
  simp only [h1, h2, a, b, c, if_false]

theorem State.effect_block0 (s old : State) (m : Master) (t : Ticket) (l : List (Nat × Word)) (off : Nat) (w : Word)
    (h : off / 0x1000 = 0x0) : s.effect old m t l off w = s.effSys off w := by
  unfold State.effect
  rw [h]
  rfl

theorem State.effect_block1 (s old : State) (m : Master) (t : Ticket) (l : List (Nat × Word)) (off : Nat) (w : Word)
    (h : off / 0x1000 = 0x1) : s.effect old m t l off w = s.effClk old off w := by
  unfold State.effect
  rw [h]
  rfl

theorem State.effect_block2 (s old : State) (m : Master) (t : Ticket) (l : List (Nat × Word)) (off : Nat) (w : Word)
    (h : off / 0x1000 = 0x2) : s.effect old m t l off w = s.effPwr off w := by
  unfold State.effect
  rw [h]
  rfl

theorem State.effect_block3 (s old : State) (m : Master) (t : Ticket) (l : List (Nat × Word)) (off : Nat) (w : Word)
    (h : off / 0x1000 = 0x3) : s.effect old m t l off w = s.effHost old l off := by
  unfold State.effect
  rw [h]
  rfl

theorem State.effect_block4 (s old : State) (m : Master) (t : Ticket) (l : List (Nat × Word)) (off : Nat) (w : Word)
    (h : off / 0x1000 = 0x4) : s.effect old m t l off w = s.effSeq m off w := by
  unfold State.effect
  rw [h]
  rfl

theorem State.effect_block5 (s old : State) (m : Master) (t : Ticket) (l : List (Nat × Word)) (off : Nat) (w : Word)
    (h : off / 0x1000 = 0x5) : s.effect old m t l off w = s.effCvn old off w := by
  unfold State.effect
  rw [h]
  rfl

theorem State.effect_block6 (s old : State) (m : Master) (t : Ticket) (l : List (Nat × Word)) (off : Nat) (w : Word)
    (h : off / 0x1000 = 0x6) : s.effect old m t l off w = s.effRfa old t off w := by
  unfold State.effect
  rw [h]
  rfl

theorem State.effect_block7 (s old : State) (m : Master) (t : Ticket) (l : List (Nat × Word)) (off : Nat) (w : Word)
    (h : off / 0x1000 = 0x7) : s.effect old m t l off w = s.effChz old t off w := by
  unfold State.effect
  rw [h]
  rfl

theorem State.effect_block8 (s old : State) (m : Master) (t : Ticket) (l : List (Nat × Word)) (off : Nat) (w : Word)
    (h : off / 0x1000 = 0x8) : s.effect old m t l off w = s.effLane old t off w := by
  unfold State.effect
  rw [h]
  rfl

theorem State.effect_block9 (s old : State) (m : Master) (t : Ticket) (l : List (Nat × Word)) (off : Nat) (w : Word)
    (h : off / 0x1000 = 0x9) : s.effect old m t l off w = s.effTxp old off w := by
  unfold State.effect
  rw [h]
  rfl

theorem State.effect_blockA (s old : State) (m : Master) (t : Ticket) (l : List (Nat × Word)) (off : Nat) (w : Word)
    (h : off / 0x1000 = 0xA) : s.effect old m t l off w = s.effMac old off w := by
  unfold State.effect
  rw [h]
  rfl

theorem State.effect_blockB (s old : State) (m : Master) (t : Ticket) (l : List (Nat × Word)) (off : Nat) (w : Word)
    (h : off / 0x1000 = 0xB) : s.effect old m t l off w = s.effSec off w := by
  unfold State.effect
  rw [h]
  rfl

theorem State.effect_blockF (s old : State) (m : Master) (t : Ticket) (l : List (Nat × Word)) (off : Nat) (w : Word)
    (h : off / 0x1000 = 0xF) : s.effect old m t l off w = s.effWkr old off w := by
  unfold State.effect
  rw [h]
  rfl

theorem State.effect_blockC (s old : State) (m : Master) (t : Ticket) (l : List (Nat × Word)) (off : Nat) (w : Word)
    (h : off / 0x1000 = 0xC) : s.effect old m t l off w = s.effEng old m t off w := by
  unfold State.effect
  rw [h]
  rfl

theorem State.effect_blockD (s old : State) (m : Master) (t : Ticket) (l : List (Nat × Word)) (off : Nat) (w : Word)
    (h : off / 0x1000 = 0xD) : s.effect old m t l off w = s.effEng old m t off w := by
  unfold State.effect
  rw [h]
  rfl

theorem State.effect_blockE (s old : State) (m : Master) (t : Ticket) (l : List (Nat × Word)) (off : Nat) (w : Word)
    (h : off / 0x1000 = 0xE) : s.effect old m t l off w = s.effEng old m t off w := by
  unfold State.effect
  rw [h]
  rfl

theorem State.effect_block10 (s old : State) (m : Master) (t : Ticket) (l : List (Nat × Word)) (off : Nat) (w : Word)
    (h : off / 0x1000 = 0x10) : s.effect old m t l off w = s.effEng old m t off w := by
  unfold State.effect
  rw [h]
  rfl

theorem State.gate_block3 (s : State) (l : List (Nat × Word)) (off : Nat) (w : Word) (h : off / 0x1000 = 0x3) :
    s.gate l off w = s.gateHost l off w := by
  unfold State.gate
  rw [h]
  rfl

theorem State.gate_block5 (s : State) (l : List (Nat × Word)) (off : Nat) (w : Word) (h : off / 0x1000 = 0x5) :
    s.gate l off w = s.gateCvn off w := by
  unfold State.gate
  rw [h]
  rfl

theorem State.gate_block6 (s : State) (l : List (Nat × Word)) (off : Nat) (w : Word) (h : off / 0x1000 = 0x6) :
    s.gate l off w = s.gateRfa off w := by
  unfold State.gate
  rw [h]
  rfl

theorem State.gate_block7 (s : State) (l : List (Nat × Word)) (off : Nat) (w : Word) (h : off / 0x1000 = 0x7) :
    s.gate l off w = s.gateChz off w := by
  unfold State.gate
  rw [h]
  rfl

theorem State.gate_block8 (s : State) (l : List (Nat × Word)) (off : Nat) (w : Word) (h : off / 0x1000 = 0x8) :
    s.gate l off w = s.gateLane l off w := by
  unfold State.gate
  rw [h]
  rfl

theorem State.gate_blockA (s : State) (l : List (Nat × Word)) (off : Nat) (w : Word) (h : off / 0x1000 = 0xA) :
    s.gate l off w = s.gateMac off w := by
  unfold State.gate
  rw [h]
  rfl

theorem State.gate_block0 (s : State) (l : List (Nat × Word)) (off : Nat) (w : Word) (h : off / 0x1000 = 0x0) :
    s.gate l off w = s.gateEng l off w := by
  unfold State.gate
  rw [h]
  rfl

theorem State.gate_block1 (s : State) (l : List (Nat × Word)) (off : Nat) (w : Word) (h : off / 0x1000 = 0x1) :
    s.gate l off w = s.gateEng l off w := by
  unfold State.gate
  rw [h]
  rfl

theorem State.gate_block2 (s : State) (l : List (Nat × Word)) (off : Nat) (w : Word) (h : off / 0x1000 = 0x2) :
    s.gate l off w = s.gateEng l off w := by
  unfold State.gate
  rw [h]
  rfl

theorem State.gate_block4 (s : State) (l : List (Nat × Word)) (off : Nat) (w : Word) (h : off / 0x1000 = 0x4) :
    s.gate l off w = s.gateEng l off w := by
  unfold State.gate
  rw [h]
  rfl

theorem State.gate_block9 (s : State) (l : List (Nat × Word)) (off : Nat) (w : Word) (h : off / 0x1000 = 0x9) :
    s.gate l off w = s.gateEng l off w := by
  unfold State.gate
  rw [h]
  rfl

theorem State.gate_blockB (s : State) (l : List (Nat × Word)) (off : Nat) (w : Word) (h : off / 0x1000 = 0xB) :
    s.gate l off w = s.gateEng l off w := by
  unfold State.gate
  rw [h]
  rfl

theorem State.gate_blockC (s : State) (l : List (Nat × Word)) (off : Nat) (w : Word) (h : off / 0x1000 = 0xC) :
    s.gate l off w = s.gateEng l off w := by
  unfold State.gate
  rw [h]
  rfl

theorem State.gate_blockD (s : State) (l : List (Nat × Word)) (off : Nat) (w : Word) (h : off / 0x1000 = 0xD) :
    s.gate l off w = s.gateEng l off w := by
  unfold State.gate
  rw [h]
  rfl

theorem State.gate_blockE (s : State) (l : List (Nat × Word)) (off : Nat) (w : Word) (h : off / 0x1000 = 0xE) :
    s.gate l off w = s.gateEng l off w := by
  unfold State.gate
  rw [h]
  rfl

theorem State.gate_blockF (s : State) (l : List (Nat × Word)) (off : Nat) (w : Word) (h : off / 0x1000 = 0xF) :
    s.gate l off w = s.gateEng l off w := by
  unfold State.gate
  rw [h]
  rfl

theorem State.gate_block10 (s : State) (l : List (Nat × Word)) (off : Nat) (w : Word) (h : off / 0x1000 = 0x10) :
    s.gate l off w = s.gateEng l off w := by
  unfold State.gate
  rw [h]
  rfl

/-- A field of an RW kind holds after a write what the gated word brings, where its encoding is not reserved. -/
theorem State.stored_field (s : State) (l : List (Nat × Word)) (off : Nat) (w : Word) (d : RegDef) (f : FieldDef)
    (hd : findReg off = some d) (ht : d.tidy = true) (hf : f ∈ d.fields) :
    getBits (s.stored l off w) f.hi f.lo = f.after (s.gate l off w) (s.reg off) := by
  unfold State.stored
  rw [hd]
  exact RegDef.tidy_after d _ _ ht f hf

/-- A field read back after its register's write. -/
theorem State.fld_stored (s : State) (l : List (Nat × Word)) (w : Word) (f : Fld) (d : RegDef) (a : Acc)
    (ok : List (Nat × Nat)) (hd : findReg f.off = some d) (ht : d.tidy = true) (hm : ⟨f.hi, f.lo, a, ok⟩ ∈ d.fields) :
    (s.setReg f.off (s.stored l f.off w)).fld f = (⟨f.hi, f.lo, a, ok⟩ : FieldDef).after (s.gate l f.off w) (s.reg f.off) := by
  unfold State.fld
  rw [State.reg_setReg_self]
  exact s.stored_field l f.off w d _ hd ht hm

/-! Bits added to a word by a row that writes a start bit. -/

theorem bit_withBits (w : Word) (n i : Nat) (hi : i < 32) (h : n.testBit i = true) : bit (withBits w n) i = true := by
  unfold bit withBits
  rw [BitVec.toNat_or, Nat.testBit_or, BitVec.toNat_ofNat, Nat.testBit_mod_two_pow]
  simp [h, hi]

theorem bit_withBits_other (w : Word) (n i : Nat) (h : n.testBit i = false) : bit (withBits w n) i = bit w i := by
  unfold bit withBits
  rw [BitVec.toNat_or, Nat.testBit_or, BitVec.toNat_ofNat, Nat.testBit_mod_two_pow]
  simp [h]

theorem getBits_withBits (w : Word) (n hi lo : Nat) (h : ∀ i, lo ≤ i → i ≤ hi → n.testBit i = false) :
    getBits (withBits w n) hi lo = getBits w hi lo := by
  apply Nat.eq_of_testBit_eq
  intro i
  rw [getBits_testBit, getBits_testBit]
  by_cases g : i < hi + 1 - lo
  · have e : (withBits w n).toNat.testBit (lo + i) = w.toNat.testBit (lo + i) :=
      bit_withBits_other w n (lo + i) (h _ (by omega) (by omega))
    simp [g, e]
  · simp [g]

/-- A one-bit field is its bit. -/
theorem getBits_bit (w : Word) (i : Nat) : getBits w i i = b2n (bit w i) := by
  unfold getBits bit b2n
  have : i + 1 - i = 1 := by omega
  rw [this, pow_one, Nat.shiftRight_eq_div_pow, Nat.testBit_eq_decide_div_mod_eq]
  rcases Nat.mod_two_eq_zero_or_one (w.toNat / 2 ^ i) with h | h <;> simp [h]

end Sys2Proof.Machine
end

