-- ==== Sys2Proof/WellFormed.lean ====
section
/-! DEFINITION. Well-formed commands: the operands that the outside world can put into a command. The meanings are total, so
nothing rests on it but what a statement says; each check has an ill-formed term in the tests that it refuses. -/

namespace Sys2Proof

/-- A bank word of the six banks of Table 17-1: its address over 8. -/
def bankWordOk (w : Nat) : Bool :=
  decide (8 * w < 0x50000) || (decide (0x80000 ≤ 8 * w) && decide (8 * w < 0xC0000)) ||
    (decide (0x100000 ≤ 8 * w) && decide (8 * w < 0x300000)) || (decide (0x400000 ≤ 8 * w) && decide (8 * w < 0x800000))

/-- Cells flip in bank words only. -/
def Env.wf (e : Env) : Bool := e.upsets.all (fun u => bankWordOk u.1)

/-- A host frame: it starts with the select fall, so no more words are driven than its edges clock in; wait edges are
among its edges. -/
def HostFrame.wf (f : HostFrame) : Bool := decide (f.words.length ≤ f.edges / 8 + 1) && decide (f.waits ≤ f.edges) && f.env.wf

/-- One chain's sample: 12-bit I and Q (R74). -/
def ChainObs.wf (c : ChainObs) : Bool :=
  c.iq.all (fun e => decide (-2048 ≤ e.2.1) && decide (e.2.1 ≤ 2047) && decide (-2048 ≤ e.2.2) && decide (e.2.2 ≤ 2047))

/-- The 24 bits compared with the sync words (Table 7-1). -/
def syncBitsOk (w : Nat) : Bool := decide (w < 2 ^ 24)

/-- A candidate's correlation is normalised: at most 1, in units of 1/256 (R81); its sync bits are 24. -/
def Cand.wf (c : Cand) : Bool := decide (c.corr ≤ 256) && c.sync.all (fun y => syncBitsOk y.1)

/-- A lane's step: one of 128 lanes, a 16-bit header. -/
def LaneObs.wf (o : LaneObs) : Bool := decide (o.lane < 128) && o.hdr.all (fun h => decide (h.1 < 65536))

/-- A sample position. -/
def SampleObs.wf (o : SampleObs) : Bool :=
  o.a.wf && o.b.wf && o.cands.all Cand.wf && o.syncs.all (fun x => syncBitsOk x.2.1) && o.lanes.all LaneObs.wf

/-- What a lane finds: 24 sync bits, a 16-bit header, at most 511 bytes of body (R139), 3-bit soft decisions. -/
def FrameObs.wf (o : FrameObs) : Bool :=
  o.sync.all (fun y => syncBitsOk y.1) && decide (o.hdr < 65536) && decide (o.body.length ≤ 511) && o.soft.all (fun d => decide (d < 8))

/-- A register write to a word address of the register blocks (R4, R405). -/
def regAddrOk (a : Nat) : Bool := decide (0x3000000 ≤ a) && decide (a < 0x3011000) && decide (a % 4 = 0)

/-- A well-formed command. -/
def Instr.wf : Instr → Bool
  | .registerWrite _ a _ => regAddrOk a
  | .samplePosition o => o.wf
  | .laneCatchUp l | .laneStarved l => decide (l < 128)
  | .laneFrameEnd l o => decide (l < 128) && o.wf
  | .recoverySlotStart n => decide (n < 8)
  | .recoveryEntry n d => decide (n < 8) && (match d with
    | some c => c.wf
    | none => true)
  | .assignedSlotEnd n => decide (n < 32)
  | .frameNop _ f | .frameRead _ f | .frameWrite _ f | .frameSubmit _ f | .frameResult _ f | .frameEvents _ f
  | .frameStatus _ f | .frameAbort _ f | .framePortReset _ f => f.wf
  | .lockDeclared _ band _ => decide (band < 64)
  | .scrubWriteBack w => bankWordOk w
  | .engineOperationEnd _ e | .dmaTransferEnd _ e | .postedStoreComplete _ e | .opcodeTrap _ e => e.wf
  | .opAdd _ e | .opSub _ e | .opAnd _ e | .opIor _ e | .opXor _ e | .opShl _ e | .opShr _ e | .opSar _ e | .opMul _ e
  | .opCmp _ e | .opMin _ e | .opMax _ e | .opSel _ e | .opBfx _ e | .opBfi _ e | .opAddi _ e | .opAndi _ e | .opIori _ e
  | .opXori _ e | .opCmpi _ e | .opMovi _ e | .opHigh _ e | .opLdb _ e | .opLdh _ e | .opLdw _ e | .opStb _ e | .opSth _ e
  | .opStw _ e | .opLdp _ e | .opStp _ e | .opJmp _ e | .opCall _ e | .opRet _ e | .opYield _ e | .opHalt _ e | .opFail _ e
  | .opLoop _ e | .opTnow _ e | .opTadd _ e | .opTwait _ e | .opTat _ e | .opTguard _ e | .opTdrift _ e | .opTlearn _ e
  | .opTune _ e | .opRxwin _ e | .opTxf _ e | .opLbt _ e | .opCalltx _ e | .opAckw _ e | .opRssi _ e | .opGack _ e
  | .opRget _ e | .opRput _ e | .opMacq _ e | .opBudg _ e | .opLock _ e | .opFree _ e | .opCas _ e | .opCopy _ e
  | .opFrag _ e | .opAbsorb _ e | .opRelease _ e | .opTopen _ e | .opFind _ e | .opSeal _ e | .opOpen _ e | .opChk _ e
  | .opPost _ e | .opWaite _ e | .opSig _ e | .svcIdent _ e | .svcFill _ e | .svcPrimerCopy _ e | .svcCrc _ e
  | .svcPtclear _ e | .svcReturn _ e | .recordExamination e | .primerStartup e => e.wf
  | .cvnNowLoRead _ | .arm _ _ _ | .cancel _ _ _ | .launcherOccurrence _ | .pinPulseEnd _ | .lateOccurrenceReady _
  | .tempSample _ | .selfMeasure _ | .tempLogEntry | .xo32Absent | .xo32Present | .tuneStart _ | .synthLock _ _
  | .lockTimeout _ | .synthUnlock _ | .syaVco _ | .sybVco _ | .sytVco _ | .sytVcoStart | .rxaIq _ | .rxbIq _
  | .calibrationEnd _ _ | .tempStart _ | .tempConversionEnd _ | .syncSearchTimeout _ | .entryPromoted _
  | .entryStarved _ | .flush _ | .paletteStart _ | .paletteStop _ | .chzEnergyRead _ | .recoveryRequestDropped _
  | .grpReqSet _ _ | .grpReqClear _ _ | .cntClr _ | .laneRingWrite _ _ _ | .txReleasePoint _ | .lbtCovered _
  | .lbtRetry _ | .paGrant _ | .txEnd _ | .ackWindowClose _ | .txpAbort _ | .bucketExpiry _ | .sglClr _ _
  | .secondsChange _ _ _ | .callCopyEnd _ | .keySelect _ _ | .keyLoad _ _ | .keyErase _ _ | .eraseAll _
  | .aesOperationStart _ | .secHoldExpiry _ | .beaconMiss | .scanEnd | .leaseScan | .leaseExpiry | .nextWrite _ _
  | .wkrEnable _ _ | .cal _ _ | .periodicCalibration | .wkrCalibrationEnd _ _ _ | .callReceived _
  | .messageLayerEnable _ | .checkEngineStart _ | .hpnStatRead _ _ | .lastSubmitRead _ _ | .cascadeEnable _ _ _
  | .workerTimeout _ _ | .dispatch | .commandPromoted _ _ | .lostRecord _ | .ringTailWrite _ _ _
  | .eventRingWrite _ _ _ _ | .requestPromoted _ | .semTake _ _ | .semFree _ _ | .twaitExpiry _ | .rxwinStart _
  | .rxwinEnd _ | .waiteTimeout _ | .dmaStart _ _ _ | .dmaStop _ _ _ | .lockSequenceStart _ | .lockAttemptFail _
  | .lossOfLock _ | .lossOfReference _ | .tcxoPresent | .relockCmc _ _ | .relockCmr _ _ | .coreByp _ _ | .cmrEn _ _
  | .tcxoModeWrite _ _ | .fboMeasure _ | .requestSleep _ _ | .requestDeepSleep _ _ | .requestOff _ _
  | .requestCancel _ _ | .quietPoint | .graceExpiry | .wakePin | .selectFallWake _ | .wakeFromOff | .wakeCoreReady
  | .clearingEnd _ | .idleEntry | .claimGrant | .budgetWrite _ _ | .claimTabWrite _ _ | .peakClr _ | .inj _ _
  | .brushRegionStart | .regionTestEnd _ | .maxwaitRead _ | .wakeLastRead _ | .resetNLow | .resetNRelease
  | .softReset _ _ | .pinWordWrite _ _ _ | .gpInputChange _ _ | .inRefresh | .syncPulse | .codeMarker
  | .lineEdge _ | .timeCode _ | .holdover | .frameRun _ _ | .sysLock _ _ | .xo32Edge | .ckRadioWaitExpiry
  | .cascadeFrameEnd _ _ => true

end Sys2Proof
end

