-- ==== Sys2Proof/Tests/Slice0.lean ====
section
/-! SUPPORT. The package's own tests: ill-formed commands that WellFormed refuses, and for each obligation states and
operands that meet its hypotheses, with the decidable part of what it concludes. -/

open Sys2Proof Sys2Proof.Machine
namespace Sys2Proof.Tests
set_option Elab.async false

/-- A running device: the core runs, the counter stands at `now` and may move to `lim` within its XO32 period. -/
def dev (now lim : Nat) : State :=
  { State.reset with
    pwr := { State.reset.pwr with st := .run, core := true, noRadio := true, primed := true }
    time := { State.reset.time with now := now, edge := lim + 1, adv := 0 } }

/-- A device at stamp 600000 whose counter stands still: commands draw no instant. -/
def dev0 : State := dev 600000 0

/-- The state after command `c`. -/
def after (c : Instr) (s : State) : State :=
  match exec c s with
  | .next t => t
  | _ => s

/-- Registers set in sequence. -/
def withRegs (s : State) (l : List (Nat × Nat)) : State := l.foldl (fun s e => s.setReg e.1 (BitVec.ofNat 32 e.2)) s

/-! Well-formedness: each check has a term it refuses. -/

/-- A frame of `ws` whose edges clock in every word, and nothing unusual. -/
def frame (ws : List Word) (edges : Nat) : HostFrame := ⟨ws, edges, 0, false, false, [], .clean⟩

theorem wf_refuses_register_address : Instr.wf (.registerWrite (.host 0) 0x3000002 0#32) = false := by decide
theorem wf_refuses_register_space : Instr.wf (.registerWrite (.host 0) 0x3011000 0#32) = false := by decide
theorem wf_refuses_scrub_word : Instr.wf (.scrubWriteBack (0x50000 / 8)) = false := by decide
theorem wf_refuses_lane : Instr.wf (.laneCatchUp 128) = false := by decide
theorem wf_refuses_recovery_slot : Instr.wf (.recoverySlotStart 8) = false := by decide
theorem wf_refuses_candidate : Instr.wf (.recoveryEntry 0 (some ⟨.a, 0, 257, 0, 0, 0, none⟩)) = false := by decide
theorem wf_refuses_assigned_slot : Instr.wf (.assignedSlotEnd 32) = false := by decide
theorem wf_refuses_band : Instr.wf (.lockDeclared .cmc 64 0) = false := by decide
theorem wf_refuses_frame_words : Instr.wf (.frameNop 0 (frame [0#32, 0#32] 7)) = false := by decide
theorem wf_refuses_frame_waits : Instr.wf (.frameNop 0 { frame [0#32] 8 with waits := 9 }) = false := by decide
theorem wf_refuses_upset : Instr.wf (.opAdd 0 ⟨[(0xC0000 / 8, .bad)], .none⟩) = false := by decide
/-- A sample position at which nothing is heard. -/
def sample0 : SampleObs := ⟨⟨[], [], []⟩, ⟨[], [], []⟩, [], [], []⟩

/-- A frame of which a lane has found nothing. -/
def found0 : FrameObs := ⟨none, 0, [], [], 0, 0, 0, 0, 0, 0, none, true, false, 0, 0⟩

theorem wf_refuses_sample : Instr.wf (.samplePosition { sample0 with a := ⟨[], [(0, 2048, 0)], []⟩ }) = false := by decide
theorem wf_refuses_sync_bits : Instr.wf (.samplePosition { sample0 with syncs := [(0, 2 ^ 24, 0)] }) = false := by decide
theorem wf_refuses_lane_step : Instr.wf (.samplePosition { sample0 with lanes := [⟨128, none, none⟩] }) = false := by decide
theorem wf_refuses_header : FrameObs.wf { found0 with hdr := 65536 } = false := by decide
theorem wf_refuses_soft : FrameObs.wf { found0 with soft := [8] } = false := by decide
theorem wf_refuses_found_sync : FrameObs.wf { found0 with sync := some (2 ^ 24, 0) } = false := by decide
theorem wf_refuses_body : FrameObs.wf { found0 with body := List.replicate 512 0#8 } = false := by decide +kernel
theorem wf_refuses_service_cells : Instr.wf (.recordExamination ⟨[(0xC0000 / 8, .bad)], .none⟩) = false := by decide
theorem wf_accepts : Instr.wf (.registerWrite (.host 0) 0x3000000 0#32) = true := by decide

/-! The queue (StepRunsFrontCommand, EmptyQueueIdles, StepTakesExactlyOneCommand). -/

theorem test_step_runs_the_front :
    ({ dev0 with pending := [.wakePin, .brushRegionStart] } : State).pending = [.wakePin, .brushRegionStart] ∧
      (match step { dev0 with pending := [.peakClr (.host 0), .wakePin] } with
        | .next t => decide (t.pending = [.wakePin]) | _ => false) = true := by decide +kernel
theorem test_empty_queue_idles :
    dev0.pending = [] ∧ (match step dev0 with | .next t => decide (t = dev0) | _ => false) = true := by decide +kernel

/-! The invariant and the key store (EveryStepKeepsTheInvariant, KeyStoreIsOutOfReach). -/

theorem witness_invariant : Memory.wf dev0.mem = true ∧ Tab.wf regReset dev0.regs = true := by decide +kernel
theorem witness_key_out_of_reach : mayTouchKeys (.opAdd 3 .clean) = false ∧
    (after (.opAdd 3 .clean) dev0).keys = [] := by decide +kernel

/-! Register writes (RegisterWriteFollowsTheAccessCodes): an interrupt flag written 1 clears; a reserved drive strength is
not taken; an address between registers reaches nothing. -/

theorem witness_registerWrite_w1c :
    let s := withRegs dev0 [(HPn_IRQ_FLAG.off 3, 0xF)]
    s.reaches (.ctx 63) = true ∧ (after (.registerWrite (.ctx 63) (0x3000000 + HPn_IRQ_FLAG.off 3) 5#32) s).reg
      (HPn_IRQ_FLAG.off 3) = 0xA#32 := by decide +kernel
theorem witness_registerWrite_reserved :
    dev0.reaches (.host 0) = true ∧ (after (.registerWrite (.host 0) (0x3000000 + HPn_CFG.off 0) 0xF0000000#32) dev0).reg
      (HPn_CFG.off 0) = 0xD0000000#32 := by decide +kernel
theorem witness_registerWrite_elsewhere :
    (0x2FFFFFC < 0x3000000 ∧ 0x3000006 % 4 ≠ 0 ∧ implemented 0xFFC = false) ∧
      ∀ a ∈ [0x2FFFFFC, 0x3000006, 0x3000FFC], after (.registerWrite (.host 0) a 1#32) dev0 = dev0 := by decide +kernel

/-! Keys (KeyCommandsReachTheSlotTheyName). -/

/-- A device with key 3 loaded and key data of ones. -/
def keyed : State :=
  { dev0 with keys := [(3, ⟨1, false, 7, leBytes 16 5⟩)], keyData := [(0, 0x11111111#32), (3, 0x22222222#32)] }

theorem test_keyLoad : keyed.reaches (.host 0) = true ∧ let t := after (.keyLoad (.host 0) 0x6055003F#32) keyed
    t.key 63 = ⟨1, true, 0x55, leBytes 16 0x22222222000000000000000011111111⟩ ∧ t.key 3 = keyed.key 3 ∧ t.keyData = [] := by
  decide +kernel
theorem test_keySelect : let t := after (.keySelect (.host 0) 0x3F#32) keyed
    t.fld SEC_KEY_SEL.SLOT = 63 ∧ t.keys = keyed.keys ∧ t.keyData = keyed.keyData := by decide +kernel
theorem test_keyErase : let t := after (.keyErase (.host 0) 0x80000003#32) keyed
    t.key 3 = Key.empty ∧ t.keyData = [] := by decide +kernel
theorem test_eraseAll : let t := after (.eraseAll (.host 0)) keyed
    t.key 3 = Key.empty ∧ t.keyData = keyed.keyData := by decide +kernel

/-! Power requests (PowerRequestsArePlacedAndWithdrawn). -/

theorem test_requestSleep : bit 0x40000000#32 29 = false ∧
    (after (.requestSleep (.host 0) 0x40000000#32) dev0).pwr = { dev0.pwr with req := 1, reqAt := 600000 } := by decide +kernel
theorem test_requestDeepSleep : bit 0x80000000#32 29 = false ∧
    (after (.requestDeepSleep (.host 0) 0x80000000#32) dev0).pwr.req = 2 := by decide +kernel
theorem test_requestOff : getBits 0xC00F0000#32 23 16 = 0x0F ∧
    (after (.requestOff (.host 0) 0xC00F0000#32) dev0).pwr.req = 3 := by decide +kernel
theorem test_requestOff_without_key : getBits 0xC00E0000#32 23 16 ≠ 0x0F ∧
    (after (.requestOff (.host 0) 0xC00E0000#32) dev0).pwr.req = 0 := by decide +kernel
theorem test_requestCancel : let s : State := { dev0 with pwr := { dev0.pwr with req := 2 } }
    (getBits 0x20000000#32 31 30 = 0 ∧ (after (.requestCancel (.host 0) 0x20000000#32) s).pwr.req = 0) ∧
      getBits 0x60000000#32 31 30 ≠ 0 ∧ (after (.requestCancel (.host 0) 0x60000000#32) s).pwr.req = 2 := by decide +kernel

/-! Semaphores of host ports (HostSemaphoreAccess). -/

/-- Semaphore 0 owned by port 1, semaphore 1 by context 5 with context 6 waiting. -/
def semDev : State := { dev0 with sems := [(0, ⟨some 0x41, []⟩), (1, ⟨some 5, [6]⟩)] }

theorem test_semTake : (Tab.wf regReset semDev.regs = true ∧ semDev.reaches (.host 1) = true ∧ semDev.sem 15 = Sem.free ∧
      (after (.semTake 1 15) semDev).sem 15 = ⟨some 0x41, []⟩) ∧
    (semDev.sem 1).owner ≠ none ∧ after (.semTake 1 1) semDev = semDev := by decide +kernel
theorem test_semFree : (semDev.sem 0 = ⟨some (0x40 + 1), []⟩ ∧ (after (.semFree 1 0) semDev).sem 0 = Sem.free) ∧
    (semDev.sem 1).owner ≠ some (0x40 + 1) ∧ after (.semFree 1 1) semDev = semDev := by decide +kernel

/-! Clock requests (ClockRequestsActOnTheirMultiplier). -/

/-- Both multipliers locked, XO32 there. -/
def clocked : State := { withRegs dev0 [(CLK_STAT.off, 0x20000000)] with cmc := ⟨5, 6000, 0, 0, none, (0, 0)⟩, cmr := ⟨5, 32, 0, 0, none, (0, 0)⟩ }

theorem test_relockCmc : clocked.on SYS_LOCK.LOCK = false ∧ getBits 5#32 4 4 = clocked.fld CLK_CTRL.CORE_BYP ∧
    getBits 5#32 0 0 = clocked.fld CLK_CTRL.CMR_EN ∧ bit 5#32 3 = false ∧ let t := after (.relockCmc (.host 0) 5#32) clocked
    t.cmc.st = 1 ∧ t.on CLK_CTRL.RELOCK_CMC = true ∧ t.cmr = clocked.cmr := by decide +kernel
theorem test_relockCmr : bit 9#32 2 = false ∧ let t := after (.relockCmr (.host 0) 9#32) clocked
    t.cmr.st = 1 ∧ t.on CLK_CTRL.RELOCK_CMR = true ∧ t.cmc = clocked.cmc := by decide +kernel
theorem test_coreByp : getBits 0x11#32 4 4 ≠ clocked.fld CLK_CTRL.CORE_BYP ∧ getBits 0x11#32 3 2 = 0 ∧
    let t := after (.coreByp (.host 0) 0x11#32) clocked
    t.cmc.st = 0 ∧ (after (.coreByp (.host 0) 0x01#32) t).cmc.st = 1 := by decide +kernel
theorem test_cmrEn : let s : State := { dev0 with cmr := ⟨6, 32, 0, 0, none, (0, 0)⟩ }
    getBits 0#32 0 0 ≠ s.fld CLK_CTRL.CMR_EN ∧ s.fld CLK_TCXO_CFG.MODE ≠ 2 ∧ (after (.cmrEn (.host 0) 0#32) s).cmr.st = 6 ∧
      (after (.cmrEn (.host 0) 0#32) { dev0 with cmr := ⟨1, 32, 0, 0, none, (0, 0)⟩ }).cmr.st = 0 ∧
      (after (.cmrEn (.host 0) 1#32) (withRegs dev0 [(CLK_CTRL.off, 0)])).cmr.st = 1 := by decide +kernel
theorem test_tcxoMode : dev0.on CLK_CTRL.CMR_EN = true ∧ getBits 0x47D00000#32 31 30 ≠ dev0.fld CLK_TCXO_CFG.MODE ∧
    let t := after (.tcxoModeWrite (.host 0) 0x47D00000#32) dev0
    t.fld CLK_TCXO_CFG.MODE = 1 ∧ t.pins.tcxoEn = true ∧ t.cmr.st = 1 := by decide +kernel

/-! The Well's registers (WellRegistersTakeBudgetTableAndPeak). -/

theorem test_budgetWrite : dev0.well.queue = [] ∧ (after (.budgetWrite (.host 0) 16#32) dev0).fld WELL_BUDGET.BUDGET = 16 ∧
    (after (.budgetWrite (.host 0) 15#32) dev0).fld WELL_BUDGET.BUDGET = 150 := by decide +kernel
theorem test_claimTabWrite : getBits 0x805007FE#32 22 16 = 80 ∧
    let t := after (.claimTabWrite (.host 0) 0x805007FE#32) dev0
    t.paClaim 80 = 2046 ∧ t.paClaim 79 = dev0.paClaim 79 ∧
      (after (.claimTabWrite (.host 0) 0x805007FF#32) dev0).paClaim 80 = dev0.paClaim 80 := by decide +kernel
theorem test_peakClr : let s := withRegs dev0 [(WELL_USED.off, 200 * 2 ^ 20)]
    s.fld WELL_USED.PEAK = 200 ∧ (after (.peakClr (.host 0)) s).fld WELL_USED.PEAK = 31 := by decide +kernel

/-! Ring registers (RingRegistersObeyTheirRules). -/

theorem test_ringTailWrite : let s := withRegs dev0 [(HPn_RING_HEAD.off 0, 32)]
    (s.eventTailOk 0 16 = true ∧ (after (.ringTailWrite (.host 0) 0 16#32) s).fld (HPn_RING_TAIL.TAIL 0) = 16) ∧
      s.eventTailOk 0 48 = false ∧ (after (.ringTailWrite (.host 0) 0 48#32) s).fld (HPn_RING_TAIL.TAIL 0) = 0 := by
  decide +kernel
theorem test_eventRingWrite : let s := withRegs dev0 [(HPn_RING_HEAD.off 3, 32)]
    let t := after (.eventRingWrite (.host 0) 3 (some 0x2FFF00#32) (some 256#32)) s
    t.reg (HPn_RING_BASE.off 3) = 0x2FFF00#32 ∧ t.fld (HPn_RING_SIZE.SIZE 3) = 256 ∧ t.fld (HPn_RING_HEAD.HEAD 3) = 0 := by
  decide +kernel
theorem test_laneRingWrite : let s := withRegs dev0 [(LANE_RING_HEAD.off, 64)]
    let t := after (.laneRingWrite (.host 0) (some 0x1FFC00#32) (some 1024#32)) s
    (s.on LANE_CTRL.EN = false ∧ t.reg LANE_RING_BASE.off = 0x1FFC00#32 ∧ t.fld LANE_RING_HEAD.HEAD = 0) ∧
      let u := withRegs s [(LANE_CTRL.off, 0x80000000)]
      u.on LANE_CTRL.EN = true ∧ after (.laneRingWrite (.host 0) (some 0x1FFC00#32) none) u = u := by decide +kernel

/-! Launchers through their registers (LaunchersAreArmedAndCancelledByRegister). -/

theorem test_arm : let s := withRegs dev0 [(CVN_Ln_TIME_HI.off 31, 0), (CVN_Ln_TIME_LO.off 31, 100 * 65536 + 16)]
    bit 0x02004A37#32 29 = false ∧ (s.launcher 31).armed = false ∧ let t := after (.arm (.host 0) 31 0x42004A37#32) s
    t.launcher 31 = ⟨true, 600016, 4, 0x37, 10, 2, none, none, false, none⟩ ∧ t.on (CVN_Ln_ACT.ARMED 31) = true := by
  decide +kernel
theorem test_arm_late : let s := withRegs dev0 [(CVN_Ln_TIME_HI.off 0, 0), (CVN_Ln_TIME_LO.off 0, 100 * 65536 + 15)]
    ((after (.arm (.host 0) 0 0x4200BA37#32) s).launcher 0).late = true ∧
      ((after (.arm (.host 0) 0 0x4200BA37#32) s).launcher 0).action = 0 := by decide +kernel
theorem test_cancel : let s : State := { dev0 with lnch := [(5, ⟨true, 700000, 3, 0, 0, 0, none, none, false, none⟩)] }
    (s.launcher 5).armed = true ∧ (s.launcher 5).op = none ∧ (s.launcher 5).owner = none ∧
      (after (.cancel (.host 0) 5 0x20000000#32) s).launcher 5 = Lnch.off := by decide +kernel

/-! Easel: context 1 of command slot 9 of port 0 runs the word at 0x1000. -/

/-- Context 1 ready at 0x1000, where the word `w` lies, with registers `g` and stamps `t`. -/
def easelOn (s : State) (w : Nat) (g : Tab Word) (t : Tab (BitVec 64)) : State :=
  { s.putBytes 0x1000 (leBytes 4 w) with
    ctx := [(1, { Ctx.empty with st := .ready, p := 0x400#22, g := g, t := t, port := some 0, slot := 9 })]
    slots := [(9, { Slot.fresh with st := .running 1, gen := 5 })] }

/-- The same on the device whose counter stands still. -/
def easel (w : Nat) (g : Tab Word) : State := easelOn dev0 w g []

/-- A format-R word (R273). -/
def fr (op d a b x : Nat) : Nat := op * 2 ^ 26 + d * 2 ^ 22 + a * 2 ^ 18 + b * 2 ^ 14 + x

/-- A format-I word. -/
def fi (op d a imm : Nat) : Nat := op * 2 ^ 26 + d * 2 ^ 22 + a * 2 ^ 18 + imm

/-- What `State.fetches` asks, as it is decided with no upset and no parity error. -/
def fetchesB (s : State) (k : Fin 64) (w : Nat) : Bool :=
  s.issues k && decide ((s.cx k.val).badEntry = 0) &&
    fetchable (s.cx k.val).p.toNat && decide (s.num (4 * (s.cx k.val).p.toNat) 4 = w) &&
    (wordsOf (4 * (s.cx k.val).p.toNat) 4).all (fun x => decide (s.mark x ≠ .bad))

theorem fetches_of_fetchesB {s : State} {k : Fin 64} {w : Nat} (h : fetchesB s k w = true) :
    s.fetches k Env.clean w := by
  simp only [fetchesB, Bool.and_eq_true, decide_eq_true_eq, List.all_eq_true] at h
  obtain ⟨⟨⟨⟨h1, h2⟩, h3⟩, h4⟩, h5⟩ := h
  exact ⟨h1, h2, h3, rfl, h4, h5⟩

/-- Context 1's registers, p and flags Z N C V after a command. -/
def ran (c : Instr) (s : State) (d : Nat) : Word × Nat × Bool × Bool × Bool × Bool :=
  let x := (after c s).cx 1
  (x.rd d, x.p.toNat, x.z, x.n, x.c, x.v)

/-- Context 1 has done what `ran` shows, and nothing else has changed. -/
def only (c : Instr) (s : State) : Bool := decide ({ after c s with ctx := s.ctx } = s)

/-! ALU (AluSumsLogicAndChoice, ShiftsProductsAndBitFields). -/

/-- g1 = 0x80000000, g2 = 0xFFFFFFFF, g3 = 1. -/
def regs3 : Tab Word := [(1, 0x80000000#32), (2, 0xFFFFFFFF#32), (3, 1#32)]

theorem test_add : fetchesB (easel (fr 0 4 1 2 0) regs3) 1 (fr 0 4 1 2 0) = true ∧
    ran (.opAdd 1 .clean) (easel (fr 0 4 1 2 0) regs3) 4 = (0x7FFFFFFF#32, 0x401, false, false, true, true) := by
  decide +kernel
theorem test_add_g0 : ran (.opAdd 1 .clean) (easel (fr 0 0 2 3 0) regs3) 0 = (0#32, 0x401, true, false, true, false) ∧
    only (.opAdd 1 .clean) (easel (fr 0 0 2 3 0) regs3) = true := by decide +kernel
theorem test_sub : fetchesB (easel (fr 1 4 1 3 0) regs3) 1 (fr 1 4 1 3 0) = true ∧
    ran (.opSub 1 .clean) (easel (fr 1 4 1 3 0) regs3) 4 = (0x7FFFFFFF#32, 0x401, false, false, true, true) := by
  decide +kernel
theorem test_sub_borrow : ran (.opSub 1 .clean) (easel (fr 1 4 3 2 0) regs3) 4 = (2#32, 0x401, false, false, false, false) := by
  decide +kernel
theorem test_cmp : fetchesB (easel (fr 9 0 2 2 0) regs3) 1 (fr 9 0 2 2 0) = true ∧
    ran (.opCmp 1 .clean) (easel (fr 9 0 2 2 0) regs3) 2 = (0xFFFFFFFF#32, 0x401, true, false, true, false) := by decide +kernel
theorem test_and : fetchesB (easel (fr 2 4 1 2 0) regs3) 1 (fr 2 4 1 2 0) = true ∧
    ran (.opAnd 1 .clean) (easel (fr 2 4 1 2 0) regs3) 4 = (0x80000000#32, 0x401, false, true, false, false) := by decide +kernel
theorem test_ior : fetchesB (easel (fr 3 4 1 3 0) regs3) 1 (fr 3 4 1 3 0) = true ∧
    ran (.opIor 1 .clean) (easel (fr 3 4 1 3 0) regs3) 4 = (0x80000001#32, 0x401, false, true, false, false) := by decide +kernel
theorem test_xor : fetchesB (easel (fr 4 4 2 2 0) regs3) 1 (fr 4 4 2 2 0) = true ∧
    ran (.opXor 1 .clean) (easel (fr 4 4 2 2 0) regs3) 4 = (0#32, 0x401, true, false, false, false) := by decide +kernel
theorem test_min : fetchesB (easel (fr 10 4 1 3 0) regs3) 1 (fr 10 4 1 3 0) = true ∧
    (ran (.opMin 1 .clean) (easel (fr 10 4 1 3 0) regs3) 4).1 = 0x80000000#32 ∧
    fetchesB (easel (fr 10 4 1 3 1) regs3) 1 (fr 10 4 1 3 1) = true ∧
    (ran (.opMin 1 .clean) (easel (fr 10 4 1 3 1) regs3) 4).1 = 1#32 := by decide +kernel
theorem test_max : fetchesB (easel (fr 11 4 1 3 0) regs3) 1 (fr 11 4 1 3 0) = true ∧
    (ran (.opMax 1 .clean) (easel (fr 11 4 1 3 0) regs3) 4).1 = 1#32 ∧
    fetchesB (easel (fr 11 4 1 3 1) regs3) 1 (fr 11 4 1 3 1) = true ∧
    (ran (.opMax 1 .clean) (easel (fr 11 4 1 3 1) regs3) 4).1 = 0x80000000#32 := by decide +kernel
theorem test_sel : fetchesB (easel (fr 12 4 1 3 15) regs3) 1 (fr 12 4 1 3 15) = true ∧
    (ran (.opSel 1 .clean) (easel (fr 12 4 1 3 0) regs3) 4).1 = 0x80000000#32 ∧
    (ran (.opSel 1 .clean) (easel (fr 12 4 1 3 1) regs3) 4).1 = 1#32 := by decide +kernel
theorem test_shl : fetchesB (easel (fr 5 4 2 3 30) regs3) 1 (fr 5 4 2 3 30) = true ∧
    ran (.opShl 1 .clean) (easel (fr 5 4 2 3 30) regs3) 4 = (0x80000000#32, 0x401, false, true, true, false) ∧
    ran (.opShl 1 .clean) (easel (fr 5 4 2 3 31) regs3) 4 = (0xFFFFFFFF#32, 0x401, false, true, false, false) := by
  decide +kernel
theorem test_shr : fetchesB (easel (fr 6 4 1 0 31) regs3) 1 (fr 6 4 1 0 31) = true ∧
    ran (.opShr 1 .clean) (easel (fr 6 4 1 0 31) regs3) 4 = (1#32, 0x401, false, false, false, false) := by decide +kernel
theorem test_sar : fetchesB (easel (fr 7 4 1 0 31) regs3) 1 (fr 7 4 1 0 31) = true ∧
    ran (.opSar 1 .clean) (easel (fr 7 4 1 0 31) regs3) 4 = (0xFFFFFFFF#32, 0x401, false, true, false, false) := by
  decide +kernel
theorem test_mul : fetchesB (easel (fr 8 4 1 2 0) regs3) 1 (fr 8 4 1 2 0) = true ∧
    (ran (.opMul 1 .clean) (easel (fr 8 4 1 2 0) regs3) 4).1 = 0x80000000#32 ∧
    (ran (.opMul 1 .clean) (easel (fr 8 4 1 2 1) regs3) 4).1 = 0x7FFFFFFF#32 ∧
    (ran (.opMul 1 .clean) (easel (fr 8 4 1 2 2) regs3) 4).1 = 0#32 := by decide +kernel
theorem test_bfx : fetchesB (easel (fr 13 4 1 0 31) regs3) 1 (fr 13 4 1 0 31) = true ∧
    (ran (.opBfx 1 .clean) (easel (fr 13 4 1 0 31) regs3) 4).1 = 1#32 ∧
    (ran (.opBfx 1 .clean) (easel (fr 13 4 1 0 (0x400 + 31)) regs3) 4).1 = 0xFFFFFFFF#32 := by decide +kernel
theorem test_bfi : fetchesB (easel (fr 14 4 1 2 (3 * 32 + 28)) regs3) 1 (fr 14 4 1 2 (3 * 32 + 28)) = true ∧
    (ran (.opBfi 1 .clean) (easel (fr 14 4 3 2 (3 * 32 + 28)) regs3) 4).1 = 0xF0000001#32 := by decide +kernel

/-! Immediates (ImmediateInstructions). -/

theorem test_addi : fetchesB (easel (fi 16 4 3 0x3FFFF) regs3) 1 (fi 16 4 3 0x3FFFF) = true ∧
    ran (.opAddi 1 .clean) (easel (fi 16 4 3 0x3FFFF) regs3) 4 = (0#32, 0x401, true, false, true, false) := by decide +kernel
theorem test_andi : fetchesB (easel (fi 17 4 2 0x20000) regs3) 1 (fi 17 4 2 0x20000) = true ∧
    (ran (.opAndi 1 .clean) (easel (fi 17 4 2 0x20000) regs3) 4).1 = 0xFFFE0000#32 := by decide +kernel
theorem test_iori : fetchesB (easel (fi 18 4 3 0x1FFFE) regs3) 1 (fi 18 4 3 0x1FFFE) = true ∧
    (ran (.opIori 1 .clean) (easel (fi 18 4 3 0x1FFFE) regs3) 4).1 = 0x1FFFF#32 := by decide +kernel
theorem test_xori : fetchesB (easel (fi 19 4 2 0x3FFFF) regs3) 1 (fi 19 4 2 0x3FFFF) = true ∧
    ran (.opXori 1 .clean) (easel (fi 19 4 2 0x3FFFF) regs3) 4 = (0#32, 0x401, true, false, false, false) := by decide +kernel
theorem test_cmpi : fetchesB (easel (fi 20 0 1 1) regs3) 1 (fi 20 0 1 1) = true ∧
    ran (.opCmpi 1 .clean) (easel (fi 20 0 1 1) regs3) 1 = (0x80000000#32, 0x401, false, false, true, true) := by decide +kernel
theorem test_movi : fetchesB (easel (fi 21 4 0 0x20000) regs3) 1 (fi 21 4 0 0x20000) = true ∧
    (ran (.opMovi 1 .clean) (easel (fi 21 4 0 0x20000) regs3) 4).1 = 0xFFFE0000#32 := by decide +kernel
theorem test_high : fetchesB (easel (fi 22 4 2 1) regs3) 1 (fi 22 4 2 1) = true ∧
    (ran (.opHigh 1 .clean) (easel (fi 22 4 2 1) regs3) 4).1 = 0x7FFF#32 := by decide +kernel

/-! Control (ControlInstructions, CommandsEndWithTheirResult, TrapsNameContextAndCause). -/

theorem test_jmp : fetchesB (easel (fi 32 0 0 0x3FFFF) regs3) 1 (fi 32 0 0 0x3FFFF) = true ∧
    (ran (.opJmp 1 .clean) (easel (fi 32 0 0 0x3FFFF) regs3) 0).2.1 = 0x3FF ∧
    (ran (.opJmp 1 .clean) (easel (fi 32 1 0 0x3FFFF) regs3) 0).2.1 = 0x401 := by decide +kernel
theorem test_jmp_align : (regs3.length = 3 ∧ 0xFFFFFFFF % 4 ≠ 0) ∧
    (after (.opJmp 1 .clean) (easel (fi 32 0 2 0) regs3)).fld SEQ_TRAP_INFO.CAUSE = 5 := by decide +kernel
theorem test_call : fetchesB (easel (fi 33 0 1 2) regs3) 1 (fi 33 0 1 2) = true ∧
    ran (.opCall 1 .clean) (easel (fi 33 0 1 2) [(1, 0x2000#32)]) 15 = (0x1004#32, 0x802, false, false, false, false) := by
  decide +kernel
theorem test_ret : fetchesB (easel (fi 34 0 0 0) [(15, 0x2000#32)]) 1 (fi 34 0 0 0) = true ∧
    (ran (.opRet 1 .clean) (easel (fi 34 0 0 0) [(15, 0x2000#32)]) 15).2.1 = 0x800 := by decide +kernel
theorem test_loop : fetchesB (easel (fi 38 0 3 0x3FFF0) regs3) 1 (fi 38 0 3 0x3FFF0) = true ∧
    ran (.opLoop 1 .clean) (easel (fi 38 0 3 0x3FFF0) regs3) 3 = (0#32, 0x401, false, false, false, false) ∧
    ran (.opLoop 1 .clean) (easel (fi 38 0 2 0x3FFF0) regs3) 2 = (0xFFFFFFFE#32, 0x3F0, false, false, false, false) := by
  decide +kernel
theorem test_yield : fetchesB (easel (fi 35 0 0 0) regs3) 1 (fi 35 0 0 0) = true ∧
    (ran (.opYield 1 .clean) (easel (fi 35 0 0 0) regs3) 0).2.1 = 0x401 ∧ only (.opYield 1 .clean) (easel (fi 35 0 0 0) regs3) = true := by
  decide +kernel
theorem test_halt : let s := easel (fr 36 0 1 2 0) [(1, 0x1000#32), (2, 4#32)]
    fetchesB s 1 (fr 36 0 1 2 0) = true ∧ spanOk 0x1000 4 = true ∧ let t := after (.opHalt 1 .clean) s
    (t.cx 1).st = .free ∧ (t.slot 0 9).st = .done ∧ (t.slot 0 9).data = leBytes 4 (fr 36 0 1 2 0) ∧ (t.slot 0 9).status = 0 := by
  decide +kernel
theorem test_halt_result : let s := easel (fr 36 0 1 2 0) [(1, 0x1000#32), (2, 61#32)]
    (after (.opHalt 1 .clean) s).fld SEQ_TRAP_INFO.CAUSE = 7 ∧
    (after (.opHalt 1 .clean) (easel (fr 36 0 1 2 0) [(1, 0x50000#32), (2, 1#32)])).fld SEQ_TRAP_INFO.CAUSE = 4 ∧
    (after (.opHalt 1 .clean) (easel (fr 36 1 1 2 0) [])).fld SEQ_TRAP_INFO.CAUSE = 2 := by decide +kernel
theorem test_fail : let s := easel (fr 37 0 0 0 0x7F) []
    fetchesB s 1 (fr 37 0 0 0 0x7F) = true ∧ ((after (.opFail 1 .clean) s).slot 0 9).status = 0x7F ∧
      ((after (.opFail 1 .clean) (easel (fr 37 0 0 0 0x10) [])).slot 0 9).status = 0x10 := by decide +kernel
theorem test_fail_code : let s := easel (fr 37 0 0 0 0xF) []
    fetchesB s 1 (fr 37 0 0 0 0xF) = true ∧ (after (.opFail 1 .clean) s).fld SEQ_TRAP_INFO.CAUSE = 8 := by decide +kernel
theorem test_opcodeTrap : let s := easel (fi 0x2F 0 0 0) []
    fetchesB s 1 (fi 0x2F 0 0 0) = true ∧ let t := after (.opcodeTrap 1 .clean) s
    t.fld SEQ_TRAP_INFO.CTX = 1 ∧ t.fld SEQ_TRAP_INFO.CAUSE = 1 ∧ (t.slot 0 9).status = 0x62 ∧
      (t.slot 0 9).data = leBytes 8 (1 + 2 ^ 8 + 0x1000 * 2 ^ 32) := by decide +kernel
theorem test_yield_field : (after (.opYield 1 .clean) (easel (fi 35 0 0 1) [])).fld SEQ_TRAP_INFO.CAUSE = 2 := by
  decide +kernel

/-! Memory (LoadsReadWhatTheContextSees, StoresArePostedAndBecomeVisibleInOrder). -/

theorem test_ldb : fetchesB (easel (fi 24 4 1 1) [(1, 0x1000#32)]) 1 (fi 24 4 1 1) = true ∧
    (ran (.opLdb 1 .clean) (easel (fi 24 4 1 3) [(1, 0x1000#32)]) 4).1 = 0x61#32 := by decide +kernel
theorem test_ldh : spanOk 0x3FFFE 2 = true ∧
    (ran (.opLdh 1 .clean) (easel (fi 25 4 1 0x3FFFE) [(1, 0x1004#32)]) 4).1 = 0x6507#32 := by decide +kernel
theorem test_ldw : fetchesB (easel (fi 26 4 1 0) [(1, 0x1000#32)]) 1 (fi 26 4 1 0) = true ∧
    (ran (.opLdw 1 .clean) (easel (fi 26 4 1 0) [(1, 0x1000#32)]) 4).1 = BitVec.ofNat 32 (fi 26 4 1 0) := by decide +kernel
theorem test_ldw_region : spanOk 0x3FFFD 4 = false ∧
    (after (.opLdw 1 .clean) (easel (fi 26 4 1 0) [(1, 0x3FFFD#32)])).fld SEQ_TRAP_INFO.CAUSE = 4 := by decide +kernel
theorem test_ldp : let s := (easel (fi 30 4 1 (0xC0 - 0x80 + 62)) [(1, 4095#32)]).putBytes 0xBFFFE [0x34#8, 0x12#8]
    fetchesB s 1 (fi 30 4 1 (0x40 + 62)) = true ∧ (ran (.opLdp 1 .clean) s 4).1 = 0x1234#32 := by decide +kernel
theorem test_ldp_entry : (after (.opLdp 1 .clean) (easel (fi 30 4 1 0) [(1, 4096#32)])).fld SEQ_TRAP_INFO.CAUSE = 6 ∧
    (after (.opLdp 1 .clean) (easel (fi 30 4 1 (0x40 + 63)) [(1, 0#32)])).fld SEQ_TRAP_INFO.CAUSE = 6 := by decide +kernel
theorem test_stb : let s := easel (fi 27 2 1 0) [(1, 0x3FFFF#32), (2, 0xABCD#32)]
    fetchesB s 1 (fi 27 2 1 0) = true ∧ ((after (.opStb 1 .clean) s).cx 1).posted = [⟨0x3FFFF, [0xCD#8], .none⟩] ∧
      (after (.opStb 1 .clean) s).mem = s.mem := by decide +kernel
theorem test_sth : let s := easel (fi 28 2 1 0) [(1, 0x100FFF#32), (2, 0xABCD#32)]
    fetchesB s 1 (fi 28 2 1 0) = true ∧ ((after (.opSth 1 .clean) s).cx 1).posted = [⟨0x100FFF, [0xCD#8, 0xAB#8], .none⟩] := by
  decide +kernel
theorem test_stw : let s := easel (fi 29 2 1 0) [(1, 0xF00000#32)]
    (inRom 0xF00000 = true ∧ (after (.opStw 1 .clean) s).fld SEQ_TRAP_INFO.CAUSE = 4) ∧
      ((after (.opStw 1 .clean) (easel (fi 29 2 1 0) [(1, 0#32)])).cx 1).posted = [⟨0, [0#8, 0#8, 0#8, 0#8], .none⟩] := by
  decide +kernel
theorem test_stp : let s := easel (fi 31 2 1 (0x80 + 60)) [(1, 4095#32), (2, 7#32)]
    fetchesB s 1 (fi 31 2 1 (0x80 + 60)) = true ∧ ((after (.opStp 1 .clean) s).cx 1).posted = [⟨0xBFFFC, leBytes 4 7, .none⟩] := by
  decide +kernel
theorem test_postedStoreComplete : let s : State := { dev0 with
      ctx := [(63, { Ctx.empty with posted := [⟨0x80007, [0x5A#8], .none⟩, ⟨0, [1#8], .none⟩] })] }
    s.awake = true ∧ s.storeLocked ⟨0x80007, [0x5A#8], .none⟩ = false ∧ s.mark (0x80007 / 8) = .good ∧
      let t := after (.postedStoreComplete 63 .clean) s
      t.byte 0x80007 = 0x5A#8 ∧ t.byte 0 = 0#8 ∧ (t.cx 63).posted = [⟨0, [1#8], .none⟩] := by decide +kernel

/-! Time instructions (TimeRegisterInstructions, WaitingForAStamp, DriftInstructions). -/

/-- A format-T word. -/
def ft (op td ta g x : Nat) : Nat := op * 2 ^ 26 + td * 2 ^ 24 + ta * 2 ^ 22 + g * 2 ^ 18 + x

/-- The stamp of a tick and a fine count as a stamp word. -/
def stw (tick fine : Nat) : BitVec 64 := BitVec.ofNat 64 (tick * 2 ^ 16 + fine)

theorem test_tnow : fetchesB (easel (ft 40 3 0 0 0) []) 1 (ft 40 3 0 0 0) = true ∧ dev0.stamp < 6000 * 2 ^ 48 ∧
    ((after (.opTnow 1 .clean) (easel (ft 40 3 0 0 0) [])).cx 1).rdT 3 = stw 100 0 := by decide +kernel
theorem test_tnow_memory : let s := (easel (ft 40 3 0 1 0x10000) [(1, 0x80000#32)]).putBytes 0x80000 (leBytes 8 (7 * 65536 + 5999))
    (fetchesB s 1 (ft 40 3 0 1 0x10000) = true ∧ s.ownNum 1 0x80000 8 % 2 ^ 16 < 6000 ∧
      ((after (.opTnow 1 .clean) s).cx 1).rdT 3 = stw 7 5999) ∧
    (after (.opTnow 1 .clean) (s.putBytes 0x80000 (leBytes 8 6000))).fld SEQ_TRAP_INFO.CAUSE = 10 ∧
    (after (.opTnow 1 .clean) (easel (ft 40 3 0 1 0x10000) [(1, 0x80004#32)])).fld SEQ_TRAP_INFO.CAUSE = 10 ∧
    let u := easelOn dev0 (ft 40 0 2 1 0x20000) [(1, 0x80000#32)] [(2, stw 9 1)]
    ((after (.opTnow 1 .clean) u).cx 1).posted = [⟨0x80000, leBytes 8 (9 * 65536 + 1), .none⟩] := by decide +kernel
theorem test_tadd : let s := easelOn dev0 (ft 41 3 2 1 (0x20000 + 0xFFFF)) [(1, 2#32)] [(2, stw 99 5999)]
    (fetchesB s 1 (ft 41 3 2 1 (0x20000 + 0xFFFF)) = true ∧ let c := (after (.opTadd 1 .clean) s).cx 1
      c.rdT 3 = stw 100 0 ∧ c.n = true) ∧
    let c := (after (.opTadd 1 .clean) (easelOn dev0 (ft 41 3 2 1 0) [(1, 1#32)] [(2, stw 99 16)])).cx 1
    c.rdT 3 = stw 100 16 ∧ c.n = false := by decide +kernel
theorem test_tadd_before_zero : let s := easelOn dev0 (ft 41 3 2 1 0xFFFF) [(1, 0#32)] [(2, stw 0 5)]
    fetchesB s 1 (ft 41 3 2 1 0xFFFF) = true ∧ (after (.opTadd 1 .clean) s).free = 1 := by decide +kernel
theorem test_tguard : let g (t : Nat) := (after (.opTguard 1 .clean) (easelOn dev0 (ft 44 0 2 1 0) [(1, 2#32)] [(2, stw t 0)])).cx 1
    fetchesB (easelOn dev0 (ft 44 0 2 1 0) [(1, 2#32)] [(2, stw 98 0)]) 1 (ft 44 0 2 1 0) = true ∧
    ((g 98).z, (g 98).n, (g 98).c) = (true, false, false) ∧ ((g 102).z, (g 102).n, (g 102).c) = (true, false, false) ∧
    ((g 97).z, (g 97).n, (g 97).c) = (false, false, true) ∧ ((g 103).z, (g 103).n, (g 103).c) = (false, true, false) := by
  decide +kernel
theorem test_twait : let s := easelOn dev0 (ft 42 0 2 0 0) [] [(2, stw 100 1)]
    (fetchesB s 1 (ft 42 0 2 0 0) = true ∧ let c := (after (.opTwait 1 .clean) s).cx 1
      c.st = .parked .time ∧ c.susp = .twait 600001 ∧ c.c = false) ∧
    let c := (after (.opTwait 1 .clean) (easelOn dev0 (ft 42 0 2 0 0) [] [(2, stw 100 0)])).cx 1
    c.st = .ready ∧ c.c = true := by decide +kernel
theorem test_twaitExpiry : let s : State := { dev 600000 600001 with ctx := [(63, { Ctx.empty with st := .parked .time, susp := .twait 600001 })] }
    s.awake = true ∧ s.asleep = false ∧ s.reach 600001 = true ∧ let t := after (.twaitExpiry 63) s
    t.stamp = 600001 ∧ (t.cx 63).st = .ready := by decide +kernel
theorem test_tat : let s := easelOn dev0 (ft 43 0 2 0 0x20) [] [(2, stw 100 16)]
    (fetchesB s 1 (ft 43 0 2 0 0x20) = true ∧ (s.launcher 4).armed = false ∧ (s.launcher 4).op = none ∧
      let t := after (.opTat 1 .clean) s
      t.launcher 4 = ⟨true, 600016, 2, 1, 0, 1, some 1, none, false, none⟩ ∧ (t.cx 1).susp = .tat 4) ∧
    let t := after (.opTat 1 .clean) (easelOn dev0 (ft 43 0 2 0 31) [] [(2, stw 100 15)])
    t.launcher 31 = Lnch.off ∧ (t.cx 1).c = true ∧ t.on (CVN_Ln_ACT.MISSED 31) = true := by decide +kernel
theorem test_tat_taken : let s : State := { easelOn dev0 (ft 43 0 2 0 5) [] [(2, stw 100 16)] with
      lnch := [(5, ⟨true, 700000, 2, 9, 0, 1, some 9, none, false, none⟩)] }
    fetchesB s 1 (ft 43 0 2 0 5) = true ∧ (s.launcher 5).armed = true ∧ (s.launcher 5).owner = some 9 ∧
      ((after (.opTat 1 .clean) s).cx 1).v = true := by decide +kernel

/-- Partner entry 4095 valid, its last exchange at tick 10. -/
def partnered (w : Nat) (g : Tab Word) (t : Tab (BitVec 64)) : State :=
  ((easelOn dev0 w g t).putBytes (partner 4095 + 0x0A) [1#8]).putBytes (partner 4095 + 0x20) (leBytes 8 (10 * 65536))

theorem test_tdrift : let s := partnered (ft 45 3 2 1 0) [(1, 4095#32)] [(2, stw 1000 0)]
    (fetchesB s 1 (ft 45 3 2 1 0) = true ∧ (s.pt 4095 0x0A 2).testBit 0 = true ∧ (s.pt 4095 0x0A 2).testBit 6 = false ∧
      s.on CVN_CFG.TMODE = false) ∧ let c := (after (.opTdrift 1 .clean) s).cx 1
    c.rdT 3 = stw 1010 0 ∧ c.rd 1 = 2#32 ∧ c.z = false ∧ c.v = false := by decide +kernel
theorem test_tdrift_invalid : let s := easelOn dev0 (ft 45 3 2 1 0) [(1, 0#32)] [(2, stw 1000 0)]
    ((after (.opTdrift 1 .clean) s).cx 1).z = true ∧
    (after (.opTdrift 1 .clean) (easelOn dev0 (ft 45 3 2 1 0) [(1, 4096#32)] [])).fld SEQ_TRAP_INFO.CAUSE = 10 ∧
    (after (.opTdrift 1 .clean) (easelOn dev0 (ft 45 3 2 1 0) [] [(2, stw 0 1)])).fld SEQ_TRAP_INFO.CAUSE = 10 := by decide +kernel
theorem test_tlearn : let s := partnered (ft 46 3 2 1 0) [(1, 4095#32)] [(2, stw 1010 6), (3, stw 1000 0)]
    (fetchesB s 1 (ft 46 3 2 1 0) = true ∧ s.pt 4095 0x33 1 = 0 ∧ wordStamp (stw 1010 6).toNat ≠ wordStamp (s.pt 4095 0x20 8)) ∧
      let t := after (.opTlearn 1 .clean) s
      t.pt 4095 0x20 8 = 1010 * 65536 + 6 ∧ t.pt 4095 0x33 1 = 1 ∧ t.pt 4095 0x2F 1 = 176 ∧
        signed 32 (t.pt 4095 0x28 4) = -1000 ∧ (t.cx 1).z = false := by decide +kernel
theorem test_tlearn_invalid :
    ((after (.opTlearn 1 .clean) (easelOn dev0 (ft 46 3 2 1 0) [] [])).cx 1).z = true := by decide +kernel

/-! System functions (RegistersAndClaimsFromAContext, SemaphoresAndForwards). -/

theorem test_rget : let s := easel (fr 63 4 1 0 0) [(1, BitVec.ofNat 32 (0x3000000 + HPn_CFG.off 3))]
    fetchesB s 1 (fr 63 4 1 0 0) = true ∧ (ran (.opRget 1 .clean) s 4).1 = 0x10000000#32 := by decide +kernel
theorem test_rget_traps : (after (.opRget 1 .clean) (easel (fr 63 4 1 0 0) [(1, 0x3000002#32)])).fld SEQ_TRAP_INFO.CAUSE = 10 ∧
    implemented 0xFFC = false ∧
    (after (.opRget 1 .clean) (easel (fr 63 4 1 0 0) [(1, 0x3000FFC#32)])).fld SEQ_TRAP_INFO.CAUSE = 4 := by decide +kernel
theorem test_rput : let s := easel (fr 63 0 1 2 1) [(1, BitVec.ofNat 32 (0x3000000 + HPn_CFG.off 3)), (2, 0x80000000#32)]
    fetchesB s 1 (fr 63 0 1 2 1) = true ∧ (after (.opRput 1 .clean) s).reg (HPn_CFG.off 3) = 0x80000000#32 := by decide +kernel
theorem test_rput_traps : (after (.opRput 1 .clean) (easel (fr 63 0 1 2 1) [(1, 0x3000001#32)])).fld SEQ_TRAP_INFO.CAUSE = 10 ∧
    (after (.opRput 1 .clean) (easel (fr 63 0 1 2 1) [(1, 0x2FFFFFC#32)])).fld SEQ_TRAP_INFO.CAUSE = 4 := by decide +kernel
theorem test_macq : let s := easel (fr 63 4 1 0 2) [(1, 0x1FFF1234#32)]
    (fetchesB s 1 (fr 63 4 1 0 2) = true ∧ (after (.opMacq 1 .clean) s).mac.queue = [(0x1234, 0x1FFF)]) ∧
    let u : State := { s with mac := { s.mac with queue := List.replicate 128 (0, 0) } }
    u.mac.queue.length = 128 ∧ (ran (.opMacq 1 .clean) u 4).1 = 0x63#32 := by decide +kernel
theorem test_macq_seed : let s := easel (fr 63 4 1 0 0x42) [(1, 0xFFFF#32)]
    (fetchesB s 1 (fr 63 4 1 0 0x42) = true ∧ s.on MAC_ROLE.SF_EN = false ∧
      (after (.opMacq 1 .clean) s).fld MAC_NETID.SEED = 0xFFFF) ∧
    (ran (.opMacq 1 .clean) (withRegs s [(MAC_ROLE.off, 0x80000000)]) 4).1 = 0x60#32 := by decide +kernel
theorem test_budg : let s (v : Word) : State := { easel (fr 63 4 1 0 0x10) [(1, v)] with
      well := ⟨[⟨.budg 1, 5, 0, ⟨0, 0, 0⟩, 0, false⟩], [], []⟩ }
    fetchesB (s 269#32) 1 (fr 63 4 1 0 0x10) = true ∧ (s 269#32).fld WELL_BUDGET.BUDGET = 150 ∧
    (let t := after (.opBudg 1 .clean) (s 0#32)
     t.well.granted = [] ∧ (t.cx 1).rd 4 = 0#32) ∧
    (let t := after (.opBudg 1 .clean) (s 269#32)
     t.well.queue.map (·.amt) = [269] ∧ (t.cx 1).st = .parked .well) ∧
    let t := after (.opBudg 1 .clean) (s 270#32)
    (t.cx 1).rd 4 = 0x15#32 ∧ t.well.queue = [] := by decide +kernel
theorem test_lock : let s (m : Sem) : State := { easel (fr 63 0 0 0 (15 * 64 + 0x20)) [] with sems := [(15, m)] }
    fetchesB (s ⟨none, []⟩) 1 (fr 63 0 0 0 (15 * 64 + 0x20)) = true ∧
    (after (.opLock 1 .clean) (s ⟨none, []⟩)).sem 15 = ⟨some 1, []⟩ ∧
    ((after (.opLock 1 .clean) (s ⟨some 0x43, []⟩)).sem 15 = ⟨some 0x43, [1]⟩ ∧
      ((after (.opLock 1 .clean) (s ⟨some 0x43, []⟩)).cx 1).st = .parked .semaphore) ∧
    (after (.opLock 1 .clean) (s ⟨some 1, []⟩)).fld SEQ_TRAP_INFO.CAUSE = 9 := by decide +kernel
theorem test_free : let s (m : Sem) : State := { easel (fr 63 0 0 0 (15 * 64 + 0x21)) [] with sems := [(15, m)] }
    fetchesB (s ⟨some 1, []⟩) 1 (fr 63 0 0 0 (15 * 64 + 0x21)) = true ∧
    (after (.opFree 1 .clean) (s ⟨some 1, []⟩)).sem 15 = Sem.free ∧
    (after (.opFree 1 .clean) (s ⟨some 2, []⟩)).fld SEQ_TRAP_INFO.CAUSE = 9 := by decide +kernel
theorem test_free_oldest : let s : State := { easel (fr 63 0 0 0 0x21) [] with
      sems := [(0, ⟨some 1, [3, 2]⟩)]
      ctx := (easel (fr 63 0 0 0 0x21) []).ctx ++
        [(2, { Ctx.empty with ticket := ⟨5, 1, 0⟩ }), (3, { Ctx.empty with ticket := ⟨5, 2, 0⟩ })] }
    fetchesB s 1 (fr 63 0 0 0 0x21) = true ∧ (s.cx 2).ticket.le (s.cx 3).ticket = true ∧
      (s.cx 3).ticket.le (s.cx 2).ticket = false ∧ (after (.opFree 1 .clean) s).sem 0 = ⟨some 2, [3]⟩ ∧
      ((after (.opFree 1 .clean) s).cx 2).st = .ready := by decide +kernel
theorem test_cas : let s := (easel (fr 63 4 1 2 0x30) [(1, 0x80000#32), (2, 0xF#32)]).putBytes 0x80000 [0#8, 0#8, 0x34#8, 0x12#8]
    let u : State := withRegs { s with ports := [(3, ⟨0, [], true, false, []⟩)] }
      [(CAS_WORKERS.off, 0x80000000), (HPn_CASC_CFG.off 3, 0x8810A002)]
    (fetchesB s 1 (fr 63 4 1 2 0x30) = true ∧ s.workerOk 7 = false ∧ (ran (.opCas 1 .clean) s 4).1 = 0x60#32) ∧
      (u.workerOk 7 = true ∧ u.casc 3 = [] ∧ (after (.opCas 1 .clean) u).casc3.length = 1 ∧
        ((after (.opCas 1 .clean) u).cascFrames 3).map List.length = [3, 1] ∧
        ((after (.opCas 1 .clean) u).cx 1).susp = .cas 4) ∧
      (after (.opCas 1 .clean) (easel (fr 63 4 1 2 0x30) [(1, 0#32), (2, 8#32)])).fld SEQ_TRAP_INFO.CAUSE = 10 := by
  decide +kernel

/-! Events and signals (EventsAndSignals). -/

theorem test_post :
    let s := withRegs (easel (fr 60 4 1 2 (0xFE * 4 + 3)) [(1, 11#32), (2, 0x7FFFF#32), (4, 0x1AB#32)])
      [(HPn_RING_HEAD.off 3, 0xFF0), (HPn_RING_TAIL.off 3, 0x10)]
    fetchesB s 1 (fr 60 4 1 2 (0xFE * 4 + 3)) = true ∧ (s.port 3).lost = 0 ∧ s.ringRoom 3 = 16 ∧
      let t := after (.opPost 1 .clean) s
      t.fld (HPn_RING_HEAD.HEAD 3) = 0 ∧ t.bytes 0x203FF0 16 =
        leBytes 4 0xFEAB0000 ++ leBytes 4 100 ++ leBytes 4 11 ++ leBytes 4 0xFFFFE000 := by decide +kernel
theorem test_post_full : let s := withRegs (easel (fr 60 4 1 2 (0x80 * 4 + 3)) []) [(HPn_RING_HEAD.off 3, 0xFF0)]
    fetchesB s 1 (fr 60 4 1 2 (0x80 * 4 + 3)) = true ∧ s.ringRoom 3 < 16 ∧ let t := after (.opPost 1 .clean) s
    (t.port 3).lost = 1 ∧ t.on (HPn_IRQ_FLAG.OVF 3) = true ∧ t.mem = s.mem := by decide +kernel

/-- Context 1 runs `w`; context 63 is as given. -/
def two (w : Nat) (g : Tab Word) (c : Ctx) : State :=
  { easel w g with ctx := (easel w g).ctx ++ [(63, c)] }

theorem test_sig : let s (c : Ctx) := two (fr 62 0 1 2 0) [(1, 63#32), (2, 0x18001#32)] c
    fetchesB (s .empty) 1 (fr 62 0 1 2 0) = true ∧ ((after (.opSig 1 .clean) (s .empty)).cx 1).z = false ∧
    (let t := after (.opSig 1 .clean) (s { Ctx.empty with st := .ready, user := 2 })
     (t.cx 63).user = 0x8003 ∧ (t.cx 1).z = true) ∧
    let t := after (.opSig 1 .clean) (s { Ctx.empty with st := .parked .event, susp := .waite 0x8000 5 0 none, c := true })
    (t.cx 63).st = .ready ∧ (t.cx 63).rd 5 = 0x8000#32 ∧ (t.cx 63).c = false := by decide +kernel
theorem test_waite : let s (u : Nat) : State := { easel (fr 61 4 1 5 4) [(1, 0x8001#32)] with
      ctx := [(1, { (easel (fr 61 4 1 5 4) [(1, 0x8001#32)]).cx 1 with user := u, t := [(0, stw 100 1)] })] }
    fetchesB (s 3) 1 (fr 61 4 1 5 4) = true ∧ (s 3).present 1 &&& 0x8001 ≠ 0 ∧
    (let c := (after (.opWaite 1 .clean) (s 3)).cx 1
     c.rd 4 = 1#32 ∧ c.user = 2 ∧ c.st = .ready) ∧
    (let c := (after (.opWaite 1 .clean) (s 2)).cx 1
     c.st = .parked .event ∧ c.susp = .waite 0x8001 4 5 (some 600001)) := by decide +kernel
theorem test_waite_passed : let s := easel (fr 61 4 1 5 4) [(1, 0xFFFFF#32)]
    (let c := (after (.opWaite 1 .clean) s).cx 1
     c.st = .ready ∧ c.c = true ∧ c.rd 4 = 0#32) ∧
    ((after (.opWaite 1 .clean) (easel (fr 61 4 1 5 0) [(1, 0xFFFFF#32)])).cx 1).susp = .waite 0xFFFFF 4 5 none := by
  decide +kernel
theorem test_waiteTimeout : let s : State := { dev 600000 600001 with
      ctx := [(0, { Ctx.empty with st := .parked .event, susp := .waite 1 4 5 (some 600001), g := [(4, 9#32)] })] }
    s.awake = true ∧ s.asleep = false ∧ s.reach 600001 = true ∧ let t := after (.waiteTimeout 0) s
    (t.cx 0).rd 4 = 0#32 ∧ (t.cx 0).c = true ∧ (t.cx 0).st = .ready := by decide +kernel

/-! Ciphers and checks: the known answers of FIPS 197 (appendix C.1) and of the CRC catalogues for "123456789". -/

theorem test_aes_fips197 : aesBlock (beBytes 16 0x000102030405060708090A0B0C0D0E0F) (beBytes 16 0x00112233445566778899AABBCCDDEEFF) =
    beBytes 16 0x69C4E0D86A7B0430D8CDB78070B4C55A := by decide +kernel
theorem test_crc_check_values : crc32 (beBytes 9 0x313233343536373839) = 0xCBF43926 ∧
    crc8 (beBytes 9 0x313233343536373839) = 0xF4 := by decide +kernel

/-! Engine operations (EngineOperationsStart, EngineOperationsEnd, OpeningUndoesSealing). -/

theorem test_copy : let w := fr 56 3 1 2 (2 * 1024 + 15 * 64)
    let s := easel w [(1, 0xF00000#32), (2, 0x100000#32), (3, 0x2000#32)]
    (fetchesB s 1 w = true ∧ spanOk 0xF00000 0x2000 = true ∧ spanOk 0x100000 0x2000 = true ∧ (s.dmaCh 15).busy = false) ∧
      (let t := after (.opCopy 1 .clean) s
       t.dmaCh 15 = ⟨true, 0xF00000, 0x100000, 0x2000, false, some 0⟩ ∧ (t.cx 1).out = 1 ∧
         (t.eng 0).map (·.kind) = some (.copy 15) ∧ (t.eng 0).map (·.tag) = some 2) ∧
      (ran (.opCopy 1 .clean) { s with dma := [(15, ⟨true, 0, 0, 1, true, none⟩)] } 3).1 = 0x63#32 := by decide +kernel
theorem test_seal : let w := fr 57 3 1 2 0x1C00
    let s := ((easel w [(1, 0x80000#32), (2, 0x300000#32 - 34#32)]).putBytes 0x80008 (leBytes 4 0x100000 ++ leBytes 2 30 ++ leBytes 2 4095
      ++ leBytes 1 5)).putBytes 0x100000 (leBytes 2 0x5208)
    (fetchesB s 1 w = true ∧ (s.cx 1).out < 4 ∧ spanOk (0x300000 - 34) (30 + micOf 0x5208) = true ∧ s.neverFits 3 = false) ∧
      (let t := after (.opSeal 1 .clean) s
       (t.eng 0).map (·.kind) = some (.seal 0x100000 30 4095 5 (0x300000 - 34)) ∧ (t.cx 1).out = 1 ∧ (t.cx 1).z = true) ∧
      (ran (.opSeal 1 .clean) (s.putBytes 0x100000 [0#8]) 3).1 = 0x60#32 := by decide +kernel
theorem test_open : let w := fr 58 3 1 2 0x2010
    let s := ((easel w [(1, 0x100000#32), (2, 0x80000#32), (3, 0xFFFFF00A#32)]).putBytes 0x100018 (leBytes 2 (40 * 128))).putBytes
      0x100020 (leBytes 2 0x5208)
    (fetchesB s 1 w = true ∧ s.num (0x100000 + 0xC) 1 = 0 ∧ s.num (0x100000 + 32) 2 % 8 ≠ 2 ∧
      spanOk 0x80000 (max (s.openSpan 0x100000) 1) = true ∧ s.recFrameLen 0x100000 = 38) ∧
    ((after (.opOpen 1 .clean) s).eng 0).map (·.kind) = some (.opn 0x100000 0x80000 10) := by decide +kernel
theorem test_chk : let w := fr 59 3 1 2 0x200F
    let s := withRegs (easel w [(1, 0x100000#32), (2, 9#32)]) [(CHKn_INIT.off 7, 0x1234)]
    (fetchesB s 1 w = true ∧ s.on (CHKn_CFG.MSG 7) = false ∧ (s.chkEng 7).op = none ∧ s.chkQueue 7 = []) ∧
      let t := after (.opChk 1 .clean) s
      t.chkEng 7 = ⟨some 0⟩ ∧ t.reg (CHKn_VALUE.off 7) = 0x1234#32 ∧ (t.cx 1).st = .parked .engine := by decide +kernel
theorem test_chk_fifth : let w := fr 59 3 1 2 0
    let s := easel w [(1, 0x100000#32), (2, 9#32)]
    let u : State := { s with ctx := [(1, { s.cx 1 with out := 4 })] }
    fetchesB u 1 w = true ∧ (u.cx 1).out = 4 ∧ let t := after (.opChk 1 .clean) u
    (t.cx 1).susp = .retry ∧ (t.cx 1).p = 0x400#22 := by decide +kernel
theorem test_dmaTransferEnd : let s : State := { (dev0.putBytes 0xF0FFF [1#8, 2#8]).putBytes 0x40000 [7#8, 8#8, 9#8] with
      dma := [(15, ⟨true, 0x40000, 0x2EFFFD, 3, false, none⟩)] }
    ((s.dmaCh 15).busy = true ∧ spanOk 0x40000 3 = true ∧ s.marks = []) ∧
      let t := after (.dmaTransferEnd 15 .clean) s
      t.bytes 0x2EFFFD 3 = [7#8, 8#8, 9#8] ∧ t.byte 0xF0FFF = 1#8 ∧ t.dmaCh 15 = Dma.idle ∧ t.fld (DMAn_STAT.DONE_CNT 15) = 1 := by
  decide +kernel

/-- A waiting seal of context 1. -/
def sealOp : EngOp := ⟨.seal 0x100000 30 5 5 0x200000, some 1, 3, true, 0, false, 0, ⟨7, 0, 0⟩, 0, 0, [], [], none, 0, 0⟩

theorem test_aesOperationStart : let s : State := { dev0 with
      engs := [(4, some { sealOp with ticket := ⟨9, 0, 0⟩ }), (5, some sealOp)]
      well := ⟨[⟨.aes 3, 3, 0, ⟨0, 0, 0⟩, 0, false⟩], [], []⟩ }
    let u := withRegs s [(SEC_CTRL.off, 0x40A)]
    (3 < u.fld SEC_CTRL.ENGINES ∧ u.holds (.aes 3) = true ∧ u.aesQueue.length = 2) ∧
      let t := after (.aesOperationStart 3) u
      (t.aesEng 3).busy = some 5 ∧ (t.eng 5).map (·.started) = some true ∧ t.eng 4 = u.eng 4 := by decide +kernel
theorem test_secHoldExpiry : let s : State := { dev 600000 (600000 + msFine 10) with
      aes := [(0, ⟨none, 600000⟩)]
      well := ⟨[⟨.aes 0, 3, 0, ⟨0, 0, 0⟩, 0, false⟩], [], []⟩ }
    s.holds (.aes 0) = true ∧ s.aesQueue = [] ∧ s.reach (600000 + msFine (s.fld SEC_CTRL.HOLD)) = true ∧
      (after (.secHoldExpiry 0) s).holds (.aes 0) = false := by decide +kernel
theorem test_engineOperationEnd_copy : let o : EngOp := ⟨.copy 0, some 1, 3, true, 0, true, 0, ⟨7, 0, 0⟩, 0x41, 0, [], [], none, 0, 0⟩
    let s : State := { dev0 with
      engs := [(9, some o)], ctx := [(1, { Ctx.empty with st := .parked .engine, susp := .engine 9 })] }
    ((s.dmaCh 0).op ≠ some 9 ∧ s.eng 9 = some o) ∧
      (let t := after (.engineOperationEnd 9 .clean) s
       (t.cx 1).rd 3 = 0x41#32 ∧ (t.cx 1).z = false ∧ t.eng 9 = none) ∧
      let u : State := { s with engs := [(9, some { o with wait := false, tag := 5 })], ctx := [(1, { Ctx.empty with st := .ready, out := 4 })] }
      let t := after (.engineOperationEnd 9 .clean) u
      (t.cx 1).eng = [0x5041#32] ∧ (t.cx 1).out = 3 := by decide +kernel
theorem test_engineOperationEnd_chk : let o : EngOp := ⟨.chk 7 0x100000 9 true true, some 1, 3, true, 0, true, 0, ⟨7, 0, 0⟩, 0, 0, [], [], none, 0, 0⟩
    let s : State := { withRegs (dev0.putBytes 0x100000 (beBytes 9 0x313233343536373839))
        [(CHKn_CFG.off 7, 0x31F), (CHKn_VALUE.off 7, 0xFFFFFFFF), (CHKn_POLY.off 7, 0x04C11DB7), (CHKn_XOROUT.off 7, 0xFFFFFFFF)] with
      engs := [(9, some o)], chk := [(7, ⟨some 9⟩)], ctx := [(1, { Ctx.empty with st := .parked .engine, susp := .engine 9 })] }
    s.chkQueue 7 = [] ∧ s.eng 9 = some o ∧ let t := after (.engineOperationEnd 9 .clean) s
      (t.cx 1).rd 3 = 0xCBF43926#32 ∧ t.chkEng 7 = ⟨none⟩ ∧ (t.cx 1).v = false := by decide +kernel

/-- A 16-byte key for the witness of OpeningUndoesSealing. -/
theorem witness_opening : (leBytes 16 5).length = 16 ∧ [1#8, 2#8].length ≤ 512 ∧
    (ccmSeal (leBytes 16 5) 9 1 5 [3#8] [1#8, 2#8]).1 ≠ [1#8, 2#8] ∧
    ccmOpen (leBytes 16 5) 9 1 5 [3#8] (ccmSeal (leBytes 16 5) 9 1 5 [3#8] [1#8, 2#8]).1 =
      ([1#8, 2#8], (ccmSeal (leBytes 16 5) 9 1 5 [3#8] [1#8, 2#8]).2) := by decide +kernel

/-! The message layer's functions (MessageFunctions). -/

theorem test_frag : let w := fr 56 3 1 2 0x08
    let s := withRegs ((easel w [(1, 0x80000#32), (2, 0x2F0000#32 - 67#32)]).putBytes 0x80000 (leBytes 4 0x100000 ++
      leBytes 2 128 ++ [4#8, 0x77#8, 3#8, 1#8])) [(CHKn_CFG.off 0, 0x8000031F)]
    (fetchesB s 1 w = true ∧ s.fragOk 128 4 1 = true ∧ spanOk 0x100000 128 = true ∧ inRom (0x2F0000 - 67) = false) ∧
      (let t := after (.opFrag 1 .clean) s
       (t.eng 0).map (·.kind) = some (.frag 0x100000 128 4 0x77 3 1 (0x2F0000 - 67)) ∧ (t.cx 1).susp = .engine 0 ∧ t.engNext = 1) ∧
      let u := s.putBytes 0x80006 [0#8]
      u.fragOk 128 0 1 = false ∧ ((after (.opFrag 1 .clean) u).eng 0).map (·.kind) = some (.report 0x60) := by
  decide +kernel
theorem test_frag_end : let o : EngOp := .new (.frag 0x100000 128 4 0x77 3 1 (0x2F0000 - 67)) (some 1) 3 true 0 0 ⟨0, 0, 0⟩
    let s : State := { (dev0.putBytes 0x100040 [0xAA#8]).putBytes 0x10007F [0xBB#8] with
      engs := [(9, some o)], ctx := [(1, { Ctx.empty with st := .parked .engine, susp := .engine 9 })] }
    (s.eng 9 = some o ∧ s.chkOf 9 = none ∧ s.marks = []) ∧ let t := after (.engineOperationEnd 9 .clean) s
    t.bytes (0x2F0000 - 67) 4 = [0xB0#8, 0x77#8, 1#8, 0xAA#8] ∧ t.byte 0x2EFFFF = 0xBB#8 ∧ (t.cx 1).rd 3 = 0x430000#32 := by
  decide +kernel
theorem test_absorb : let w := fr 56 3 1 0 0x09
    let s := easel w [(1, 0x80000#32)]
    let s := s.putBytes 0x80000 (leBytes 4 0x100000 ++ leBytes 2 67 ++ leBytes 2 5)
    let s := s.putBytes 0x100000 (0x80#8 :: 0x77#8 :: 1#8 :: List.replicate 64 0x5A#8)
    let s := s.putBytes (msgRec 255) (leBytes 2 5 ++ [0x77#8, 1#8, 0#8, 0#8, 4#8, 3#8] ++ leBytes 4 0x210000 ++ leBytes 4 128 ++
      leBytes 2 2 ++ leBytes 2 1)
    let s := (s.putBytes (msgRec 255 + 0x20) [1#8]).putBytes (partner 5 + 0x0A) [1#8]
    let s := s.putBytes (msgCb 0x10) (leBytes 4 1000)
    (fetchesB s 1 w = true ∧ s.recOf 1 5 0x77 = some 255 ∧ s.partnerValid 5 = true ∧ s.recLocked 5 0x77 = false ∧
      s.mapBit 255 1 = false ∧ s.mapBit 255 2 = false ∧ s.absorbsOf 5 = [] ∧ s.msgRuns = true ∧
      s.absorbWaits 0x100000 5 ⟨0, 6, 0⟩ = false) ∧ let t := after (.opAbsorb 1 .clean) s
    t.mapBit 255 1 = true ∧ t.recFld 255 0x12 2 = 2 ∧ t.bytes 0x210040 64 = List.replicate 64 0x5A#8 ∧
      t.recFld 255 0x14 4 = 1100 ∧ (t.cx 1).susp = .engine 0 ∧ (t.eng 0).map (·.kind) = some (.report 0xFF0000) := by
  decide +kernel
theorem test_absorb_waits : let w := fr 56 3 1 0 0x09
    let o : EngOp := .new (.absorb 0x110000 67 5 0 none) (some 2) 3 true 0 0 ⟨0, 6, 0⟩
    let s : State := { easel w [(1, 0x80000#32)] with engs := [(0, some o)], engNext := 1 }
    let s := s.putBytes 0x80000 (leBytes 4 0x100000 ++ leBytes 2 67 ++ leBytes 2 5 ++ leBytes 8 0 ++ leBytes 8 (stampWord 6000))
    fetchesB s 1 w = true ∧ s.absorbWaits 0x100000 5 ⟨6000, 6, 0⟩ = true ∧ let t := after (.opAbsorb 1 .clean) s
    (t.eng 1).map (·.kind) = some (.absorb 0x100000 67 5 0 none) ∧ t.mem = s.mem := by decide +kernel
theorem test_release : let w := fr 56 3 1 0 0x0A
    let s := (easel w [(1, 255#32)]).putBytes (msgRec 255 + 3) [3#8]
    (fetchesB s 1 w = true ∧ s.recFld 255 3 1 = 3 ∧ (after (.opRelease 1 .clean) s).recFld 255 3 1 = 0) ∧
      (ran (.opRelease 1 .clean) (easel w [(1, 256#32)]) 3).1 = 0x60#32 ∧
      (ran (.opRelease 1 .clean) ((easel w [(1, 255#32)]).putBytes (msgRec 255 + 3) [1#8]) 3).1 = 0x60#32 := by decide +kernel
theorem test_topen : let w := fr 56 3 1 0 0x0B
    let s := (easel w [(1, 0x80000#32)]).putBytes 0x80000 (leBytes 2 5 ++ [0x77#8, 9#8] ++ leBytes 4 1000)
    (fetchesB s 1 w = true ∧ s.txnFld 0 3 1 = 0) ∧
      (ran (.opTopen 1 .clean) (s.putBytes (msgTxn 255) [5#8, 0#8, 0x77#8, 1#8]) 3).1 = 0x60#32 := by decide +kernel
theorem test_find : let w := fr 56 3 1 0 0x10
    let s := withRegs ((easel w [(1, 0xABCD1234#32)]).putBytes (partner 3 + 8) [0x34#8, 0x12#8, 1#8]) [(MAC_PTAB_BASE.off, 4 * 2 ^ 20)]
    (fetchesB s 1 w = true ∧ s.partnerValid 3 = true ∧ s.pt 3 8 2 = 0x1234) ∧
      ((after (.opFind 1 .clean) s).eng 0).map (·.kind) = some (.report 0x30000) ∧
      ((after (.opFind 1 .clean) (withRegs s [(MAC_PTAB_BASE.off, 3 * 2 ^ 20)])).eng 0).map (·.kind) =
        some (.report 0xFFFF0000) := by decide +kernel

/-! Radio instructions (RadioInstructions, TransmissionsBegin). -/

/-- The descriptor at 0x80000: channel 868.3 MHz, 25 kHz wide, with the given options, launcher, chain and span. -/
def descBytes (opts lnch chain span : Nat) : List Byte :=
  leBytes 4 69464 ++ leBytes 4 (0x20 + opts * 2 ^ 8 + 10 * 2 ^ 16) ++ leBytes 4 0x100000 ++ leBytes 2 5 ++ leBytes 2 4095 ++
    leBytes 4 (lnch * 2 ^ 8 + chain * 2 ^ 16) ++ leBytes 4 span ++ leBytes 4 0x12345678 ++ leBytes 4 (9 + 0xFFFE * 2 ^ 16)

/-- SYT powered and locked at that channel. -/
def sytLocked (s : State) : State :=
  { withRegs s [(RFA_CHAIN_CFG.off, (s.reg RFA_CHAIN_CFG.off).toNat ||| 2 ^ RFA_CHAIN_CFG.SYT_ON.lo)] with
    syt := { s.syt with phase := .locked, word := wordOf2 138928 } }

/-- The instruction with its descriptor and the stamp 100 ticks and 16 fine units in t3. -/
def radio (w : Nat) (opts lnch chain span : Nat) (g : Tab Word) : State :=
  sytLocked ((easelOn dev0 w ((1, 0x80000#32) :: g) [(3, stw 600 16)]).putBytes 0x80000 (descBytes opts lnch chain span))

theorem test_tune : let w := fr 48 4 1 0 7
    let s := radio w 0x20 31 0 9 []
    (fetchesB s 1 w = true ∧ (s.desc 1 0x80000).pol = 2 ∧ wordOk (wordOf2 138928) = true ∧ s.launcher 31 = Lnch.off ∧
      s.cmr.st ≠ 6) ∧ let t := after (.opTune 1 .clean) s
    (t.op 0).map (·.kind) = some .tune ∧ (t.op 0).map (·.t) = some 3600016 ∧ (t.launcher 31).stamp = 3600016 ∧
      (t.launcher 31).pol = 2 ∧ (t.cx 1).susp = .radio 0 := by decide +kernel
theorem test_rxwin : let w := fr 49 4 1 0 16
    let s : State := { radio w 0 0 0 9 [] with wins := (List.range 127).map (fun i => (i, some ⟨0, .a, 0, 2, 0, 1, false, false⟩)) }
    (fetchesB s 1 w = true ∧ (s.desc 1 0x80000).modeOk = true ∧ s.win 127 = none ∧ s.win 126 ≠ none) ∧
      let t := after (.opRxwin 1 .clean) s
      t.win 127 = some ⟨4095, .a, 69464, 4, 600000, 654000, true, false⟩ ∧ (t.cx 1).z = true := by decide +kernel
theorem test_lbt : let w (x : Nat) := fr 51 4 1 0 x
    (fetchesB (radio (w 7) 0 0 0 9 []) 1 (w 7) = true ∧ (let t := after (.opLbt 1 .clean) (radio (w 7) 0 0 0 9 [])
      (t.op 0).map (·.kind) = some .lbt ∧ (t.op 0).map (·.width) = some 4)) ∧
      ((radio (w 0) 0 0 0 9 []).palRuns .a = false ∧
        (ran (.opLbt 1 .clean) (radio (w 0) 0 0 0 9 []) 4).1 = BitVec.ofNat 32 (dev0.radioWord 0x12 false 255)) := by
  decide +kernel
theorem test_lbt_refused : let s := radio (fr 51 4 1 0 0) 0 0 0 9 []
    let u := s.putBytes 0x80004 [0xC0#8]
    ((u.desc 1 0x80000).modeOk = false ∧ (ran (.opLbt 1 .clean) u 4).1 = BitVec.ofNat 32 (u.radioWord 0x60 false 0)) ∧
      (ran (.opLbt 1 .clean) { s with cmr := ⟨6, 32, 0, 0, none, (0, 0)⟩ } 4).1 = BitVec.ofNat 32 (s.radioWord 0x16 false 0) := by
  decide +kernel

/-- One block of the energy store whose bins 100 to 107 hold `p` each. -/
def energyBlock (p : Nat) : Block :=
  { Block.zero with pow := (List.range 8).map (fun i => (156 + i, p)), n := 64, start := 0, stop := 10 }

theorem test_rssi : let w := fr 54 4 1 2 0
    let s := radio w 0 0 0 9 [(2, 128#32)]
    let u := withRegs { s with palA := { s.palA with blocks := [energyBlock 64000000, energyBlock 640000000] } }
      [(RFA_CHAIN_CFG.off, 0x50), (CHZ_WINn.off 0, 69464)]
    (fetchesB u 1 w = true ∧ (u.span .a 138928 4).isSome = true) ∧
      (u.span .a 138928 4).map (fun b => decide ((ran (.opRssi 1 .clean) u 4).1 =
        BitVec.ofNat 32 (u.radioWord 0 false (u.energyMax .a b.1 b.2 128)))) = some true ∧
      (ran (.opRssi 1 .clean) (withRegs s [(CHZ_WINn.off 0, 67200)]) 4).1 = BitVec.ofNat 32 (s.radioWord 0 false 255) := by
  decide +kernel
theorem witness_gack : let w := fr 55 4 1 0 7
    let s := withRegs (radio w 0 31 0 9 []) [(MAC_ROLE.off, 0x80000000), (TXP_CTRL.off, 0x20)]
    fetchesB s 1 w = true ∧ s.on MAC_ROLE.SF_EN = true ∧ s.on TXP_CTRL.REQ_ACC = false ∧
      (List.range 8).all (fun i => !s.acctOn i) = true ∧ s.ops = [] ∧ s.launcher 31 = Lnch.off ∧
      (s.desc 1 0x80000).modeOk = true ∧ (s.desc 1 0x80000).optsOk = true ∧ (s.desc 1 0x80000).levelOk = true := by
  decide +kernel
theorem test_gack_stop : let w := fr 55 4 1 0 8
    let s : State := { withRegs (radio w 0 31 0 9 []) [(MAC_ROLE.off, 0x80000000)] with
      mac := { Mac.zero with sf0 := some 5 }, ops := [(3, some { RadioOp.new .gack (some 7) 4 0 ⟨0, 0, 0⟩ with lnch := some 2 })] }
    fetchesB s 1 w = true ∧ (s.cx 1).susp = .none ∧ let t := after (.opGack 1 .clean) s
      t.mac.sf0 = none ∧ t.op 3 = none ∧ (t.cx 1).z = true := by decide +kernel
theorem test_txf : let w := fr 50 4 1 0 0
    let s := withRegs (radio w 0 0 0 9 []) [(TXP_CTRL.off, 0x10)]
    (fetchesB s 1 w = true ∧ s.on TXP_CTRL.REQ_ACC = false ∧ (s.desc 1 0x80000).preOk = true ∧ s.acctOn 0 = false) ∧
      let t := after (.opTxf 1 .clean) s
      (t.op 0).map (·.phase) = some .release ∧ (t.op 0).map (·.frame) = some [0#8, 0#8, 0#8, 0#8, 0#8] ∧
        (t.op 0).map (·.pre) = some 16 ∧ (t.op 0).map (·.level) = some 10 := by decide +kernel
theorem test_calltx : let w := fr 52 4 1 0 0
    let s := withRegs (radio w 0 0 0 9 []) [(TXP_CTRL.off, 0x20)]
    fetchesB s 1 w = true ∧ let t := after (.opCalltx 1 .clean) s
      (t.op 0).map (·.frame) = some [0x78#8, 0x56#8, 0x34#8, 0x12#8, 9#8, 0xFE#8, 0xFF#8] ∧
        (t.op 0).map (·.air) = some ((16 + 64) * 98304) ∧ (t.op 0).map (·.copies) = some 0 := by decide +kernel
theorem witness_ackw : let w := fr 53 4 1 2 15
    let s := ((radio w 0 31 0 9 [(2, 0x100000#32)]).putBytes 0x10000A [0xFF#8, 0xFF#8, 0#8, 0#8, 0#8, 0#8, 100#8]).putBytes
      0x100020 [0x21#8, 0#8, 0x7F#8]
    let f := (s.ackwOp (s.desc 1 0x80000) 1 w 0x100000).freq
    let s : State := withRegs { s with syt := { s.syt with word := wordOf2 f } } [(TXP_CTRL.off, 0x20)]
    fetchesB s 1 w = true ∧ s.ackwServes 1 0x100000 = true ∧ wordOk (wordOf2 f) = true ∧ s.stamp + s.lead ≤ 3600016 := by
  decide +kernel

/-! Service sketches (ServiceSketches). -/

/-- Context 1 runs service sketch `n` for slot 9 of port 0 with NOEV. -/
def svc (n : Nat) (g : Tab Word) : State :=
  { dev0 with
    ctx := [(1, { Ctx.empty with st := .ready, svc := some n, g := g, port := some 0, slot := 9 })]
    slots := [(9, { Slot.fresh with st := .running 1, gen := 5, noev := true })] }

/-- The result of the command of slot 9. -/
def answered (c : Instr) (s : State) : Nat × List Byte := let t := after c s; ((t.slot 0 9).status, (t.slot 0 9).data)

theorem test_svcIdent : (svc 0 []).serves = true ∧ (svc 0 []).lent 7 = false ∧ ((svc 0 []).chkEng 7).op = none ∧
    answered (.svcIdent 1 .clean) (svc 0 []) =
      (0, leBytes 4 (dev0.reg SYS_ID.off).toNat ++ leBytes 4 (dev0.reg SYS_REV.off).toNat ++ leBytes 4 (dev0.fld SYS_REV.PRIMER)) ∧
    (let s := withRegs (svc 0 []) [(CHKn_CFG.off 7, 0x80000000)]
     s.lent 7 = true ∧ (answered (.svcIdent 1 .clean) s).1 = 0x60) := by decide +kernel
theorem test_svcFill : let s := svc 1 [(1, 0x2EFFFD#32), (2, 3#32), (3, 0x15A#32)]
    (s.cx 1).svc = some 1 ∧ spanWritable 0x2EFFFD 3 = true ∧ (let t := after (.svcFill 1 .clean) s
      t.bytes 0x2EFFFC 5 = [0#8, 0x5A#8, 0x5A#8, 0x5A#8, 0#8] ∧ (t.slot 0 9).st = .done ∧ (t.cx 1).st = .free) ∧
    spanWritable 0x2FFFFF 2 = false ∧ (answered (.svcFill 1 .clean) (svc 1 [(1, 0x2FFFFF#32), (2, 2#32)])).1 = 0x60 := by
  decide +kernel
theorem test_svcCopy : let s := (svc 2 [(1, 0x40000#32), (2, 0x80000#32), (3, 3#32)]).putBytes 0x40000 [7#8, 8#8, 9#8]
    spanOk 0x40000 3 = true ∧ (after (.svcPrimerCopy 1 .clean) s).bytes 0x80000 4 = [7#8, 8#8, 9#8, 0#8] ∧
      (answered (.svcPrimerCopy 1 .clean) s).1 = 0 := by decide +kernel
theorem test_svcCrc : let s := (svc 3 [(1, 0x3FFF7#32), (2, 9#32)]).putBytes 0x3FFF7 (beBytes 9 0x313233343536373839)
    spanOk 0x3FFF7 9 = true ∧ answered (.svcCrc 1 .clean) s = (0, leBytes 4 0xCBF43926) := by decide +kernel
theorem test_svcPtclear : let s := (svc 4 [(1, 4095#32), (2, 1#32)]).putBytes (partner 4095) [1#8, 2#8]
    (answered (.svcPtclear 1 .clean) s = (0, []) ∧ (after (.svcPtclear 1 .clean) s).bytes (partner 4095) 2 = [0#8, 0#8]) ∧
      4096 < 4095 + 2 ∧ (answered (.svcPtclear 1 .clean) (svc 4 [(1, 4095#32), (2, 2#32)])).1 = 0x60 := by decide +kernel
theorem test_svcReturn : ((svc 5 [(1, 0x2EFF00#32)]).cx 1).svc = some 5 ∧ (svc 5 []).serves = true ∧
    (answered (.svcReturn 1 .clean) (svc 5 [(1, 0x2EFF04#32)])).1 = 0x60 := by decide +kernel

/-! DMA channels through their registers (DmaChannelsStartAndStop). -/

theorem test_dmaStart : let s := withRegs dev0 [(DMAn_SRC.off 15, 0xF00000), (DMAn_DST.off 15, 0x7FFFFF), (DMAn_LEN.off 15, 1)]
    ((s.dmaCh 15).busy = false ∧ spanWritable 0x7FFFFF 1 = true) ∧ (let t := after (.dmaStart (.ctx 5) 15 0x80000000#32) s
     t.dmaCh 15 = ⟨true, 0xF00000, 0x7FFFFF, 1, false, none⟩ ∧ t.fld (DMAn_CFG.CTX 15) = 5) ∧
    (let u := withRegs s [(DMAn_LEN.off 15, 2)]
     let t := after (.dmaStart (.host 0) 15 0x80000000#32) u
     spanWritable 0x7FFFFF 2 = false ∧ t.dmaCh 15 = Dma.idle ∧ t.fld (DMAn_STAT.CAUSE 15) = 3 ∧ t.fld (DMAn_STAT.ERR_CNT 15) = 1) ∧
    (let u : State := { s with dma := [(15, ⟨true, 0, 0, 4, true, none⟩)] }
     (after (.dmaStart (.host 0) 15 0x80000000#32) u).dma = u.dma) := by decide +kernel
theorem test_dmaStop : let s : State := { dev0 with dma := [(0, ⟨true, 0, 0x80000, 0, true, none⟩)] }
    s.reaches (.host 0) = true ∧ (s.dmaCh 0).busy = true ∧ (s.dmaCh 0).op = none ∧
      (after (.dmaStop (.host 0) 1 0x40000000#32) s).dma = s.dma := by decide +kernel

/-! Calibrations on request (CalibrationsStart). -/

/-- Both chains and SYT powered. -/
def synsOn : State :=
  { withRegs dev0 [(RFA_CHAIN_CFG.off, 0x71)] with
    sya := { dev0.sya with phase := .locked }, syb := { dev0.syb with phase := .locked }
    syt := { dev0.syt with phase := .locked }, tempConv := false }

theorem test_syaVco : synsOn.lanes = [] ∧ synsOn.synOn .sya = true ∧ let t := after (.syaVco 0) synsOn
    t.on RFA_CAL_CTRL.SYA_VCO = true ∧ t.sya.phase = .settling ∧ 1 ≤ t.sya.kase ∧ t.tempConv = true := by decide +kernel
theorem test_sybVco : synsOn.synOn .syb = true ∧ let t := after (.sybVco 0) synsOn
    t.on RFA_CAL_CTRL.SYB_VCO = true ∧ t.syb.phase = .settling ∧ t.sya = synsOn.sya := by decide +kernel
theorem test_sytVco : synsOn.synOn .syt = true ∧ (let t := after (.sytVco 0) synsOn
     t.syt.phase = .settling ∧ t.tempConv = true) ∧
    let s := withRegs synsOn [(TXP_STAT.off, 0x80000000)]
    s.on TXP_STAT.ACTIVE = true ∧ (after (.sytVco 0) s).syt = { s.syt with calWait := true } := by decide +kernel
theorem test_rxaIq : let s := withRegs synsOn [(CHZ_CTRL.off, 0x1000C)]
    s.palRuns .a = true ∧ let t := after (.rxaIq 0) s
    t.on RFA_CAL_CTRL.RXA_IQ = true ∧ t.on CHZ_ERG_STAT.GAP = true := by decide +kernel
theorem test_rxbIq : synsOn.synOn .syb = true ∧ (after (.rxbIq 3) synsOn).on RFA_CAL_CTRL.RXB_IQ = true := by decide +kernel
theorem test_calibration_off : dev0.synOn .sya = false ∧ (after (.syaVco 0) dev0).sya = dev0.sya ∧
    (after (.rxaIq 0) dev0).on RFA_CAL_CTRL.RXA_IQ = false := by decide +kernel
theorem test_tempStart : let s : State := { dev0 with tempConv := false }
    (after (.tempStart (.host 0)) s).tempConv = true ∧ (after (.tempStart (.host 0)) s).on RFA_TEMP.START = true := by
  decide +kernel
theorem test_wkrEnable : dev0.on WKR_CFG.EN = false ∧ dev0.wkr.cal = none ∧ let t := after (.wkrEnable (.host 0) 0x1234A040#32) dev0
    t.wkr.cal = some 100 ∧ t.wkr.ref = 100 ∧ t.fld WKR_CFG.ADDR = 0x1234 ∧ t.on WKR_TUNE.CAL = true := by decide +kernel
theorem test_cal : (after (.cal (.host 0) 0x80000000#32) dev0).wkr = { dev0.wkr with cal := some 100, ref := 100 } ∧
    let s : State := { dev0 with wkr := { dev0.wkr with cal := some 99 } }
    (after (.cal (.host 0) 0x80000000#32) s).wkr = s.wkr := by decide +kernel

/-! Lane and account commands (LaneAndAccountCommands). -/

theorem test_cntClr : let s := withRegs dev0 [(LANE_RING_HEAD.off, 0xFF800040), (LANE_CNT_OK.off, 7)]
    let t := after (.cntClr (.host 0)) s
    t.fld LANE_RING_HEAD.FULL_CNT = 0 ∧ t.fld LANE_RING_HEAD.HEAD = 0x40 ∧ t.fld LANE_CNT_OK.COUNT = 0 := by decide +kernel

/-- A waiting entry of chain A on channel 3, 50 kHz wide. -/
def entry : Entry := ⟨true, false, 3, 100, 8, 590000, 500000, 0, 0, 0, 0, 60, none, none, 0, 0xFFFF, false, true, none, none, none⟩

theorem test_flush : let s : State := { dev0 with ents := [(0, some entry), (7, some { entry with lane := some 127 })] }
    Tab.wf (fun _ => none) s.ents = true ∧ let t := after (.flush (.host 0)) s
    t.ent 0 = none ∧ t.ent 7 = s.ent 7 := by decide +kernel
theorem test_grpReqSet : dev0.holds (.group 15) = false ∧ dev0.neverFits 5 = false ∧
    let t := after (.grpReqSet (.host 2) 15) dev0
    t.well.queue = [⟨.group 15, 5, 1, ⟨600000, 2, 0⟩, 600000, false⟩] ∧ (t.fld LANE_ALLOC_CFG.GRP_REQ).testBit 15 = true := by
  decide +kernel
theorem test_grpReqClear : let s : State := { withRegs dev0 [(LANE_ALLOC_CFG.off, 0x8001)] with
      lanes := [(127, some ⟨3, .a, false, none, false, none⟩)]
      well := ⟨[⟨.group 0, 5, 0, ⟨0, 0, 0⟩, 0, false⟩, ⟨.group 15, 5, 0, ⟨0, 0, 0⟩, 0, false⟩], [], []⟩ }
    s.holds (.group 0) = true ∧ s.holds (.group 15) = true ∧ (after (.grpReqClear (.host 0) 0) s).holds (.group 0) = false ∧
      (after (.grpReqClear (.host 0) 15) s).holds (.group 15) = true := by decide +kernel
theorem test_sglClr : let s : State := { dev0 with accts := [(0, [⟨200, 5⟩]), (7, [⟨300, 6⟩])] }
    (s.on SYS_LOCK.LOCK = false ∧ (after (.sglClr (.host 0) 0x8000#32) s).accts = [(0, [⟨200, 5⟩])]) ∧
    let u := withRegs s [(SYS_LOCK.off, 1)]
    u.on SYS_LOCK.LOCK = true ∧ getBits 0x8000#32 15 8 ≠ 0 ∧ let t := after (.sglClr (.host 0) 0x8000#32) u
    t.accts = s.accts ∧ t.on SYS_LOCK.DENY = true ∧ t.fld SYS_LOCK.DENY_CNT = 1 := by decide +kernel
theorem test_secondsChange : let s : State := { dev0 with accts := [(7, [⟨100, 5⟩, ⟨101, 6⟩, ⟨300, 7⟩])] }
    getBits 1#32 11 0 ≠ s.fld (SGL_ACCn_WINDOW.SECONDS 7) ∧ s.used 7 = 13 ∧
      (after (.secondsChange (.host 0) 7 1#32) s).acct 7 = [⟨65 * 512, 13⟩] := by decide +kernel

/-- A transmission on the air since stamp 599000. -/
def onAirOp : RadioOp :=
  { RadioOp.new .txf none 0 0 ⟨0, 0, 0⟩ with
    phase := .onAir, t := 403392, air := 1000000, freq := 138928, width := 4, frame := [0#8, 0#8, 0#8, 0#8, 0#8], len := 5 }

theorem test_txpAbort : let s : State := { withRegs dev0 [(TXP_STAT.off, 0x80000000), (SGL_ACCn_WINDOW.off 7, 0x80500001),
        (SGL_ACCn_BAND.LOW 7 |>.off, 0xFFFF0000)] with
      pins := { dev0.pins with paEn := true } }
    let s : State := { s with ops := [(3, some { onAirOp with cfg := s.regs })] }
    s.txNow = some 3 ∧ s.liesIn 138928 4 7 = true ∧ let t := after (.txpAbort (.host 0)) s
    (t.op 3).map (·.phase) = some .fall ∧ (t.op 3).map (·.fallAt) = some (600000 + usFine (min s.rampUs 16 + s.fld RFA_EXT_CTL.PA_LAG)) ∧
      t.pins.paEn = true ∧ t.fld TXP_STAT.LAST = 0x61 ∧ t.acct 7 = [⟨65 * 512, 10⟩] := by decide +kernel
theorem test_txpAbort_none : dev0.txNow = none ∧ (after (.txpAbort (.host 0)) dev0).ops = [] := by decide +kernel

/-! System writes (SystemWritesAct). -/

theorem test_sysLock : (after (.sysLock (.host 0) 0x3C3C0001#32) dev0).on SYS_LOCK.LOCK = true ∧
    (after (.sysLock (.host 0) 0x3C3D0001#32) dev0).on SYS_LOCK.LOCK = false := by decide +kernel
theorem test_softReset : let s : State := { withRegs keyed [(SYS_SOFTRESET.off, 0xFF00), (LANE_CTRL.off, 0x8000000E), (WELL_BUDGET.off, 99)] with
      slots := [(1023, { Slot.fresh with st := .done, gen := 63 })], seqno := 9 }
    (getBits 0x5AA50001#32 31 16 = 0x5AA5 ∧ let t := after (.softReset (.host 0) 0x5AA50001#32) s
      t.key 3 = Key.empty ∧ t.fld SYS_SOFTRESET.SR_CNT = 0 ∧ (t.slot 3 255).gen = 1 ∧ (t.slot 3 255).st = .free ∧
        t.reg LANE_CTRL.off = regReset LANE_CTRL.off ∧ t.fld WELL_BUDGET.BUDGET = 99 ∧ t.seqno = 9) ∧
    (after (.softReset (.host 0) 0x5AA40001#32) s).keys = s.keys := by decide +kernel
theorem test_inj : getBits 0xA0000002#32 31 29 = 5 ∧ let t := after (.inj (.host 0) 0xA0000002#32) dev0
    t.fullMark .erg = .bad ∧ t.fullMark .pgm = .good := by decide +kernel
theorem test_nextWrite : let s := withRegs dev0 [(MAC_MISS_CFG.off, 0x10700000)]
    (after (.nextWrite (.host 0) 0x90000#32) s).mac.ann = some ⟨9, 7, none⟩ ∧
      (after (.nextWrite (.host 0) 0x80000#32) s).mac = s.mac ∧
      (after (.nextWrite (.host 0) 0x10000#32) { s with mac := { s.mac with ann := some ⟨9, 7, none⟩ } }).mac.ann = none ∧
      (let u : State := { s with mac := { s.mac with ann := some ⟨9, 7, some 3⟩ } }
       (after (.nextWrite (.host 0) 0x10000#32) u).mac = u.mac) := by decide +kernel
theorem test_cascadeEnable : (after (.cascadeEnable (.host 0) 3 0x8010A002#32) dev0).port 3 = ⟨0, [], true, false, []⟩ ∧
    ((after (.cascadeEnable (.host 0) 1 0x8010A002#32) dev0).port 1).casc = false ∧
    let s : State := { dev0 with casc2 := [.run 0 [0#32] 0 0 ⟨0, 0, 0⟩], ports := [(2, ⟨0, [], true, false, []⟩)] }
    s.casc 2 ≠ [] ∧ ((after (.cascadeEnable (.host 0) 2 0x0010A002#32) s).port 2).casc = true := by decide +kernel

/-- A manager of worker 7. -/
def manager : State :=
  withRegs { dev0 with ports := [(3, ⟨0, [], true, false, []⟩)] } [(CAS_WORKERS.off, 0x80000000), (HPn_CASC_CFG.off 3, 0x8810A002)]

theorem test_frameRun : let s := manager.putBytes 0x2FFFF0 [0xFF#8, 0x07#8]
    (s.workerOk 7 = true ∧ s.cascBusy = false ∧
      (after (.frameRun (.host 1) 0xF001FFFF#32) s).casc3 = [.run 7 [0#32] 0x3FF 0xFFFF ⟨600000, 1, 0⟩]) ∧
    let u : State := { s with casc2 := [.run 0 [0#32] 0 0 ⟨0, 0, 0⟩] }
    u.cascBusy = true ∧ (after (.frameRun (.host 1) 0xF001FFFF#32) u).casc3 = [] := by decide +kernel

/-! Reads (ReadsCaptureAndConsume). -/

theorem test_cvnNowLoRead : let t := after (.cvnNowLoRead (.host 3)) dev0
    dev0.reaches (.host 3) = true ∧ (t.port 3).reply = [100#32] ∧ (t.capOf (.host 3)).stamp = 600000 ∧
      t.capOf (.host 0) = Cap.zero ∧ ((after (.cvnNowLoRead (.ctx 9)) dev0).capOf (.ctx 9)).stamp = 600000 := by decide +kernel
theorem test_chzEnergyRead : ((after (.chzEnergyRead (.host 0)) dev0).port 0).reply = [0x20FF#32] := by decide +kernel
theorem test_maxwaitRead : let s := withRegs dev0 [(MEM_ARB_STAT.off, 0x80201234)]
    let t := after (.maxwaitRead (.host 0)) s
    (t.port 0).reply = [0x80201234#32] ∧ t.reg MEM_ARB_STAT.off = 0x80200000#32 := by decide +kernel
theorem test_wakeLastRead : let s := withRegs dev0 [(PWR_WAKE_LAST.off, 0xC8000005)]
    let t := after (.wakeLastRead (.host 0)) s
    (t.port 0).reply = [0xC8000005#32] ∧ t.reg PWR_WAKE_LAST.off = 0x08000005#32 := by decide +kernel
theorem test_hpnStatRead : let s := withRegs dev0 [(HPn_STAT.off 3, 0xC8000000)]
    let t := after (.hpnStatRead 0 3) s
    ((t.port 0).reply.map (fun w => getBits w 31 30)) = [3] ∧ getBits (t.reg (HPn_STAT.off 3)) 31 30 = 0 := by decide +kernel
theorem test_lastSubmitRead : let s := withRegs dev0 [(HPn_LAST_SUBMIT.off 3, 0xC000C123)]
    let t := after (.lastSubmitRead 0 3) s
    (t.port 0).reply = [0xC000C123#32] ∧ t.reg (HPn_LAST_SUBMIT.off 3) = 0xC123#32 := by decide +kernel

/-! Host frames that read (HostReadFrames). -/

/-- A read frame of header `w` that clocks out `n` words. -/
def reads (w n : Nat) : HostFrame := frame [BitVec.ofNat 32 w] (16 + 8 * n)

/-- What a port drove in its frame. -/
def drove (c : Instr) (s : State) (p : Nat) : List Word := ((after c s).port p).reply

theorem test_frameNop : dev0.serves = true ∧ (dev0.port 3).casc = false ∧ 8 ≤ (frame [0#32] 8).edges ∧
    after (.frameNop 3 (frame [0#32] 8)) dev0 = dev0 := by decide +kernel
theorem test_frameRead : let s := dev0.putBytes 0x3FFF8 (leBytes 8 0x1122334455667788)
    let f := reads (2 * 2 ^ 28 + 0xFFFE) 2
    (f.word 0 = 2 * 2 ^ 28 + f.arg ∧ 16 + 8 * f.clocked = f.edges - f.waits ∧ spanOk (4 * f.arg) (4 * f.clocked) = true) ∧
      drove (.frameRead 0 f) s 0 = [0x55667788#32, 0x11223344#32] := by decide +kernel
theorem test_frameRead_nowhere : let f := reads (2 * 2 ^ 28 + 0x14000) 1
    regionEnd (4 * f.arg) = none ∧ regOffset (4 * f.arg) = none ∧ drove (.frameRead 0 f) dev0 0 = [0#32] ∧
      (after (.frameRead 0 f) dev0).on (HPn_STAT.ADDR_OVER 0) = true := by decide +kernel
theorem test_frameStatus : let s := withRegs dev0 [(HPn_STAT.off 2, 0xC8000000), (HPn_LAST_SUBMIT.off 2, 0x80008123)]
    let t := after (.frameStatus 2 (reads (9 * 2 ^ 28) 2)) s
    (reads (9 * 2 ^ 28) 2).clocked = 2 ∧ (t.port 2).reply = [s.view (.host 2) (HPn_STAT.off 2), 0x80008123#32] ∧
      t.on (HPn_STAT.ADDR_OVER 2) = false ∧ t.reg (HPn_LAST_SUBMIT.off 2) = 0x80008123#32 := by decide +kernel

/-- Slot 255 of port 3 finished with two words, slot 0 queued, slot 1 running. -/
def slotted : State := { dev0 with
  order := 5
  slots := [(768, { Slot.fresh with st := .queued, gen := 63 }), (769, { Slot.fresh with st := .running 2, gen := 7 }),
    (1023, { Slot.fresh with st := .done, gen := 63, status := 0x31, data := leBytes 5 0x1122334455 })] }

theorem test_frameResult : let f := reads (6 * 2 ^ 28 + 0xFFFF) 4
    (f.arg / 2 ^ 14 = 3 ∧ natBits f.arg 13 8 = 63 ∧ f.clocked = 2 + ceilDiv 5 4) ∧ let t := after (.frameResult 3 f) slotted
    (t.port 3).reply = [0xA531FFFF#32, 5#32, 0x22334455#32, 0x11#32] ∧ (t.slot 3 255).st = .free ∧ (t.slot 3 255).gen = 63 := by
  decide +kernel
theorem test_frameResult_words : let one (p : Fin 4) (h : Nat) := drove (.frameResult p (reads (6 * 2 ^ 28 + h) 1)) slotted p.val
    one 3 0xFFFF = [0xA531FFFF#32] ∧ (after (.frameResult 3 (reads (6 * 2 ^ 28 + 0xFFFF) 1)) slotted).slots = slotted.slots ∧
      one 3 0xFEFF = [0x0303FEFF#32] ∧ one 3 0xFF00 = [0x0101FF00#32] ∧ one 3 0xC701 = [0x0101C701#32] ∧
      drove (.frameResult 0 (reads (6 * 2 ^ 28 + 0x0105) 1)) { dev0 with slots := [(5, { Slot.fresh with gen := 1 })] } 0 =
        [0x02020105#32] := by decide +kernel
theorem test_frameEvents :
    let s := withRegs (dev0.putBytes 0x200FF0 (leBytes 16 0xAABBCCDD00000000000000001122334401000000))
      [(HPn_RING_TAIL.off 0, 0xFF0), (HPn_RING_HEAD.off 0, 0x10)]
    let f := reads (7 * 2 ^ 28) 4
    (f.clocked = 4 * 1 ∧ 1 ≤ s.ringLen 0) ∧ let t := after (.frameEvents 0 f) s
    (t.port 0).reply = [0x01000000#32, 0x11223344#32, 0#32, 0#32] ∧ t.fld (HPn_RING_TAIL.TAIL 0) = 0 := by decide +kernel
theorem test_void_frames : let code (f : HostFrame) (s : State) := let t := after (.frameAbort 1 f) s; (t.on (HPn_ERR.VOID 1),
      t.fld (HPn_ERR.CODE 1), t.fld (HPn_ERR.VOID_CNT 1), t.fld (HPn_ERR.EDGES 1))
    (frame [0xA0000000#32] 7).op = 10 ∧
    code (frame [0xA0000000#32] 7) dev0 = (true, 1, 1, 7) ∧ code (frame [0xA1000000#32] 8) dev0 = (true, 3, 1, 8) ∧
      code (frame [0xA0000000#32] 15) dev0 = (true, 4, 1, 15) ∧
      code { frame [0xA0000000#32] 8 with reset := true } dev0 = (true, 0xB, 1, 8) ∧
      code (frame [0xA0000000#32] 8) { dev0 with ports := [(1, ⟨0, [], false, true, []⟩)] } = (true, 0xA, 1, 8) := by decide +kernel

/-! Host frames that write (HostWriteFrames). -/

theorem test_frameWrite : let f := frame [BitVec.ofNat 32 (3 * 2 ^ 28 + 0xBBFFF), 0x11223344#32] 16
    (f.word 0 = 3 * 2 ^ 28 + f.arg ∧ 4 * f.arg + 4 = 0x2F0000 ∧ dev0.on (HPn_CFG.CK_REQ 0) = false) ∧
      (after (.frameWrite 0 f) dev0).bytes 0x2EFFFC 4 = [0x44#8, 0x33#8, 0x22#8, 0x11#8] := by decide +kernel
theorem test_frameWrite_register : let off := SEQ_SKETCH_BASE.off
    let f := frame [BitVec.ofNat 32 (3 * 2 ^ 28 + (0x3000000 + off) / 4), 0x100#32] 16
    4 * f.arg = 0x3000000 + off ∧ (after (.frameWrite 3 f) dev0).fld SEQ_SKETCH_BASE.RETN = 256 := by decide +kernel

/-- Sketch 1 exists. -/
def sketched : State := dev0.putBytes 4 [0#8, 4#8]

theorem test_frameSubmit : let f := frame [0x50000000#32, BitVec.ofNat 32 (1 * 2 ^ 16 + 3 * 2 ^ 14 + 2 ^ 13 + 2), 7#32, 8#32] 32
    let s : State := { sketched with slots := [(0, { Slot.fresh with freed := 9 }), (1, { Slot.fresh with gen := 63 }), (2, { Slot.fresh with st := .done })] }
    let s : State := { s with slots := s.slots ++ (List.range 253).map (fun i => (i + 3, { Slot.fresh with freed := 1 })) }
    (f.edges = 8 * (1 + 3) ∧ s.namesSketch 1 = true ∧ (s.slot 0 1).st = .free) ∧ let t := after (.frameSubmit 0 f) s
    t.slot 0 1 = ⟨.queued, 1, 1, 3, true, false, false, [7#32, 8#32], ⟨600000, 0, 0⟩, false, 0, [], 0⟩ ∧
      t.fld (HPn_LAST_SUBMIT.HANDLE 0) = 0x101 := by decide +kernel
theorem test_frameSubmit_rejected : let f (w : Nat) := frame [0x50000000#32, BitVec.ofNat 32 w] 16
    (dev0.namesSketch 1023 = false ∧ (after (.frameSubmit 3 (f (1023 * 2 ^ 16))) dev0).fld (HPn_LAST_SUBMIT.HANDLE 3) = 0xC060 ∧
      (after (.frameSubmit 3 (f (1023 * 2 ^ 16))) dev0).on (HPn_IRQ_FLAG.REJECT 3) = true) ∧
    let s : State := { sketched with slots := (List.range 256).map (fun i => (i + 768, { Slot.fresh with st := .done })) }
    (after (.frameSubmit 3 (f (1 * 2 ^ 16))) s).fld (HPn_LAST_SUBMIT.HANDLE 3) = 0xC063 := by decide +kernel
theorem test_frameAbort : let f (h : Nat) := frame [BitVec.ofNat 32 (0xA * 2 ^ 28 + h)] 8
    ((f 0xFF00).arg / 2 ^ 14 = 3 ∧ ((after (.frameAbort 3 (f 0xFF00)) slotted).slot 3 0).status = 0x61) ∧
      (let s : State := { slotted with ctx := [(2, { Ctx.empty with st := .parked .time, susp := .twait 5, port := some 3, slot := 1 })] }
       let t := after (.frameAbort 3 (f 0xC701)) s
       (t.cx 2).st = .free ∧ (t.slot 3 1).st = .done ∧ (t.slot 3 1).status = 0x61) ∧
      (after (.frameAbort 3 (f 0xFFFF)) slotted).slots = slotted.slots := by decide +kernel
theorem test_framePortReset : let s := withRegs dev0 [(HPn_CFG.off 1, 0x80000000), (HPn_STAT.off 1, 0xC8000000), (HPn_ERR.off 1, 0x80800001)]
    let f := frame [0xF05A0F0F#32] 8
    (s.on (HPn_CFG.CK_REQ 1) = true ∧ f.arg = 0x5A0F0F) ∧ let t := after (.framePortReset 1 f) (withRegs s [(HPn_CFG.off 1, 0x20000000)])
    t.reg (HPn_CFG.off 1) = regReset (HPn_CFG.off 1) ∧ t.reg (HPn_ERR.off 1) = 0#32 ∧ t.on (HPn_STAT.RDERR 1) = false := by
  decide +kernel

/-! Dispatch, promotion and grants (DispatchPromotionAndGrants). -/

/-- Slot 255 of port 3 queued with priority 3 and sketch 1023, whose entry lies at the end of PGM. -/
def queuedDev : State :=
  { (dev0.putBytes (4 * 1023) (leBytes 4 0xFFFF)) with
    slots := [(1023, { Slot.fresh with st := .queued, gen := 63, sketch := 1023, prio := 3, args := [5#32, 6#32], ticket := ⟨595000, 3, 0⟩ })] }

theorem test_dispatch : let s : State := { queuedDev with ctx := [(0, { Ctx.empty with st := .ready })] }
    (s.queued.length = 1 ∧ s.freeCtx = 62 ∧ s.usedOn 0 = 1 ∧ s.usedOn 1 = 0 ∧ (s.fld (maskFld 3)).testBit 1 = true) ∧
      let t := after .dispatch s
      (t.slot 3 255).st = .running 16 ∧ (t.cx 16).st = .ready ∧ (t.cx 16).rd 2 = 6#32 ∧ (t.cx 16).rdT 0 = stw 99 1000 ∧
        (t.cx 16).p = 0xFFFF#22 ∧ (t.cx 16).h = 0xFFFF#16 ∧ (t.cx 16).badEntry = 0 := by decide +kernel
theorem test_dispatch_entry : ((after .dispatch (queuedDev.putBytes (4 * 1023) (leBytes 4 0x10000))).cx 0).badEntry = 0 ∧
    fetchable 0x14000 = false ∧ ((after .dispatch (queuedDev.putBytes (4 * 1023) (leBytes 4 0x14000))).cx 0).badEntry = 3 ∧
    ((after .dispatch (queuedDev.putBytes (4 * 1023) (leBytes 4 0x400000))).cx 0).badEntry = 3 := by decide +kernel
theorem test_dispatch_hold : let s := withRegs queuedDev [(SEQ_CTRL.off, 0x80000000)]
    s.on SEQ_CTRL.HOLD = true ∧ (after .dispatch s).ctx = [] ∧
      let u : State := withRegs { queuedDev with ctx := (List.range 48).map (fun k => (k, { Ctx.empty with st := .ready })) }
        [(SEQ_DISPATCH_CFG.off, 0xFFFFF)]
      u.freeCtx = 15 ∧ (after .dispatch u).ctx = u.ctx := by decide +kernel
theorem test_commandPromoted : let s := withRegs queuedDev [(SEQ_AGE_LIMIT.off, 0)]
    let u := { withRegs queuedDev [(SEQ_AGE_LIMIT.off, 1)] with time := { queuedDev.time with now := 601001 } }
    u.reach (595000 + 1 * 6000 + 1) = true ∧ ((after (.commandPromoted 3 255) u).slot 3 255).promoted = true ∧
      ((after (.commandPromoted 3 255) s).slot 3 255).promoted = false := by decide +kernel
theorem test_requestPromoted :
    let s : State := withRegs { dev 600000 606001 with
      ctx := [(63, { Ctx.empty with st := .ready, since := 593999 })]
      well := ⟨[], [⟨.erg, 9, 1, ⟨0, 0, 0⟩, 600000, false⟩, ⟨.txBase, 9, 1, ⟨0, 0, 0⟩, 600000, false⟩], []⟩ }
        [(WELL_BUDGET.off, 0x10096), (SEQ_AGE_LIMIT.off, 1)]
    s.reach (600000 + 6000 + 1) = true ∧
      (after (.requestPromoted (.well 1)) s).well.queue.map (·.promoted) = [false, true] ∧
      let u : State := { s with time := { s.time with edge := 0 } }
      (s.fld SEQ_AGE_LIMIT.LIMIT = 1 ∧ ((after (.requestPromoted (.issue 63)) u).cx 63).promoted = true) ∧
        (let t := after (.requestPromoted (.port .erg 65)) u
         t.fld MEM_ARB_STAT.MAXWAIT = 65 ∧ t.on MEM_ARB_STAT.PROMO = true) ∧
        (after (.requestPromoted (.port .erg 64)) u).on MEM_ARB_STAT.PROMO = false := by decide +kernel
theorem test_lostRecord : let s := withRegs { dev0 with ports := [(0, ⟨7, [], false, false, []⟩)] } [(HPn_RING_TAIL.off 0, 0x30)]
    (s.ringRoom 0 = 32 ∧ let t := after (.lostRecord 0) s
      t.bytes 0x200000 16 = leBytes 4 0xFF000000 ++ leBytes 4 100 ++ leBytes 4 7 ++ leBytes 4 0 ∧ (t.port 0).lost = 0) ∧
    let u := withRegs s [(HPn_RING_TAIL.off 0, 0x20)]
    u.ringRoom 0 < 32 ∧ after (.lostRecord 0) u = u := by decide +kernel

/-- A claim of `amt` by `h`. -/
def claim (h : Holder) (amt prio stamp : Nat) (promoted : Bool) : Claim := ⟨h, amt, prio, ⟨stamp, 0, 0⟩, 0, promoted⟩

theorem test_claimGrant : let s : State := { dev0 with
      well := ⟨[], [claim .erg 9 0 5 false, claim (.group 3) 269 3 9 true, claim (.aes 1) 3 0 4 false], []⟩ }
    (s.wellUsed + 269 ≤ 2 * s.fld WELL_BUDGET.BUDGET ∧ (let t := after .claimGrant s
      t.well.granted.map (·.who) = [.group 3] ∧ t.fld WELL_USED.PEAK = 300)) ∧
    let u : State := { s with well := { s.well with granted := [claim .txBase 1 0 0 false] } }
    ¬ (u.wellUsed + 269 ≤ 2 * u.fld WELL_BUDGET.BUDGET) ∧ (after .claimGrant u).well = u.well := by decide +kernel
theorem test_claimGrant_budg : let s : State := { dev0 with
      ctx := [(63, { Ctx.empty with st := .parked .well, susp := .budg 4, g := [(4, 9#32)] })]
      well := ⟨[], [claim (.budg 63) 9 0 5 false], []⟩ }
    (s.cx 63).susp = .budg 4 ∧ let t := after .claimGrant s
    (t.cx 63).st = .ready ∧ (t.cx 63).rd 4 = 0#32 ∧ (t.cx 63).z = true := by decide +kernel
theorem test_claimGrant_tune : let s : State := { dev0 with
      ops := [(3, some { RadioOp.new .tune (some 1) 4 0 ⟨0, 0, 0⟩ with chain := 2, phase := .claim, freq := 138928 })]
      well := ⟨[], [claim .txBase 24 0 5 false], []⟩ }
    (s.synOn .syt = false ∧ s.palEnabled .a = false ∧ s.palRuns .b = false) ∧ let t := after .claimGrant s
    t.synOn .syt = true ∧ t.syt.phase = .settling ∧ t.syt.word = wordOf2 138928 := by decide +kernel

/-! The counter, self-trim and XO32 (CounterTemperatureAndSelfTrim). -/

/-- The counter in mid-period at stamp 600000, the edge at 606000. -/
def midPeriod : State := { dev 600000 605999 with time := { (dev 600000 605999).time with edge := 600000, adv := 6000 } }

theorem test_xo32Edge : let s : State := { withRegs midPeriod [(CVN_CFG.off, 0x80000000), (CVN_RATE_TRIM.off, 500000)] with
      time := { midPeriod.time with frac := 999999 } }
    (s.trimOn = true ∧ s.on CVN_CFG.SELF_EN = true) ∧ let t := after .xo32Edge s
    t.time.now = 606000 ∧ t.time.edge = 606000 ∧ t.time.adv = 6003 ∧ t.time.frac = 999999 := by decide +kernel
theorem test_xo32Edge_slew : let s : State := { midPeriod with time := { midPeriod.time with slew := 40, slewLeft := 1, hold := 7 } }
    let t := after .xo32Edge s
    t.time.now = 605993 ∧ t.time.hold = 0 ∧ t.time.adv = 5960 ∧ t.time.slew = 0 ∧ t.time.slewLeft = 0 := by decide +kernel
theorem test_xo32Edge_absent : let s : State := { midPeriod with time := { midPeriod.time with absent := true, adv := 6001 } }
    (after .xo32Edge s).time.adv = 6000 ∧ (after .xo32Edge s).time.now = 606001 := by decide +kernel
theorem test_tempSample :
    let s : State := withRegs { dev (6000 * 2 ^ 21) (6000 * 2 ^ 21) with tempConv := false } [(CVN_CFG.off, 0x80000000),
      (RFA_TEMP.off, 0xFF * 2 ^ 20 + 0x80 * 2 ^ 12)]
    (s.on CVN_CFG.SELF_EN = true ∧ ceilDiv s.stamp (6000 * 2 ^ 21) * 2 ^ 21 = 2 ^ 21 ∧ s.time.sampled = 0 ∧
      s.reach (6000 * 2 ^ 21) = true) ∧ let t := after (.tempSample 148) s
    t.temp = 20 ∧ t.fld RFA_TEMP.SEQ = 0 ∧ t.time.logSum = 3 ∧ t.time.logSq = 9 ∧ t.time.sampled = 2 ^ 21 := by decide +kernel
theorem test_selfMeasure :
    let s : State := withRegs { dev0 with cmr := ⟨5, 32, 0, 0, none, (0, 0)⟩, time := { dev0.time with selfEdges := 2 ^ 19 } }
      [(CVN_CFG.off, 0x80000000), (CLK_STAT.off, (dev0.reg CLK_STAT.off).toNat ||| 2 ^ CLK_STAT.REF_OK.lo)]
    (s.on CVN_CFG.SELF_EN = true ∧ s.qual = true ∧ s.on CLK_STAT.REF_OK = true ∧ s.time.absent = false) ∧
      let t := after (.selfMeasure 2457600000) s
      t.fld CVN_SELF_MODEL.SFLOOR ≤ t.fld CVN_SELF_MODEL.SUNC ∧ signed 32 (t.fld CVN_RATE_TRIM.TRIM) ≤ 500000 := by
  decide +kernel
theorem test_tempLogEntry :
    let s : State := withRegs { dev (6000 * 2 ^ 22) 0 with
      time := { (dev (6000 * 2 ^ 22) 0).time with logSum := 0x11223344, logSq := 5 } } [(CVN_CFG.off, 2 ^ CVN_CFG.TLOG_EN.lo)]
    (s.on CVN_CFG.TLOG_EN = true ∧ s.reach (6000 * 2 ^ 22) = true) ∧ let t := after .tempLogEntry s
    t.num 0x4E008 4 = 0x11223344 ∧ t.num 0x4E00C 4 = 5 ∧ t.num 0x4E010 4 = 0 := by decide +kernel
theorem test_xo32Absent : let s : State := { dev0 with pwr := { dev0.pwr with st := .deep, core := false } }
    s.time.absent = false ∧ let t := after .xo32Absent s
    t.time.absent = true ∧ t.fld SYS_FAULT.LAST_KIND = 1 ∧ t.fld SYS_FAULT_LOG.HEAD = 1 ∧ t.pwr.st = .waking ∧
      t.fld PWR_WAKE_LAST.FIRST = 5 ∧ t.fld PWR_WAKE_LAST.FROM = 3 ∧ t.fld CLK_XO32_CFG.ABSENT_CNT = 1 := by decide +kernel
theorem test_xo32Present : let s : State := withRegs { dev0 with time := { dev0.time with absent := true } } [(CLK_STAT.off, 0)]
    s.on CLK_STAT.XO32_OK = false ∧ (after .xo32Present s).time.absent = false ∧ (after .xo32Present s).on CLK_STAT.XO32_OK = true := by
  decide +kernel

/-! Launcher occurrences (LauncherOccurrences). -/

/-- Launcher 31 armed for stamp 600000. -/
def armed (action arg rep pol : Nat) : Lnch := ⟨true, 600000, action, arg, rep, pol, none, none, false, none⟩

/-- A device with that launcher, in which context 9 waits for its stamp. -/
def launch (x : Lnch) : State :=
  { (dev0.putBytes (pinAddr 15) [1#8]).putBytes 4 [0#8, 4#8] with
    lnch := [(31, x)], ctx := [(9, { Ctx.empty with st := .parked .time, susp := .tat 31 })] }

/-- What the occurrence leaves. -/
def occurred (x : Lnch) : State := after (.launcherOccurrence 31) (launch x)

theorem test_launcher_none : ((launch (armed 0 0 0 0)).reach 600000 = true ∧ (launch (armed 0 0 0 0)).launcher 31 = armed 0 0 0 0) ∧
    let t := occurred (armed 0 0 15 0)
    t.on (CVN_Ln_ACT.FIRED 31) = true ∧ t.fld (CVN_Ln_ACT.FIRE_CNT 31) = 1 ∧
      t.launcher 31 = { armed 0 0 15 0 with stamp := 600000 + 2 ^ 22 * 6000 } ∧ (occurred (armed 0 0 0 0)).lnch = [] := by
  decide +kernel
theorem test_launcher_context : ((launch (armed 2 9 0 0)).ctxWaits 9 = true ∧ ((occurred (armed 2 9 0 0)).cx 9).st = .ready) ∧
    (launch (armed 2 8 0 0)).ctxWaits 8 = false ∧ let t := occurred (armed 2 8 0 0)
    t.on (CVN_Ln_ACT.MISSED 31) = true ∧ t.fld (CVN_Ln_ACT.FIRE_CNT 31) = 0 := by decide +kernel
theorem test_launcher_dma : let s := withRegs (launch (armed 3 15 0 0)) [(DMAn_SRC.off 15, 0x40000), (DMAn_DST.off 15, 0x100000), (DMAn_LEN.off 15, 9)]
    spanOk 0x40000 9 = true ∧ (after (.launcherOccurrence 31) s).dmaCh 15 = ⟨true, 0x40000, 0x100000, 9, false, none⟩ := by
  decide +kernel
theorem test_launcher_pins : (occurred (armed 4 15 0 0)).ball 15 = true ∧ (occurred (armed 5 15 0 0)).ball 15 = false ∧
    (occurred (armed 6 15 0 0)).ball 15 = true ∧ Tab.get (fun _ => 0) (occurred (armed 7 0xFF 0 0)).pins.pulses 15 = 600000 + 16 * 6000 + 1 ∧
    (occurred (armed 4 14 0 0)).pins = (launch (armed 4 14 0 0)).pins := by decide +kernel
theorem test_launcher_event : (occurred (armed 8 3 0 0)).bytes 0x203000 16 = eventBytes 2 0 0 31 0 600000 ∧
    (occurred (armed 8 3 0 0)).on (HPn_IRQ_FLAG.EVENT 3) = true := by decide +kernel
theorem test_launcher_wake : let s : State := { launch (armed 9 0 0 0) with pwr := { dev0.pwr with st := .idle } }
    (after (.launcherOccurrence 31) s).pwr.st = .run ∧ let u := launch (armed 10 1 0 0)
    (u.namesSketch 1 = true ∧ u.freeSlot 0 = some 0) ∧ let x := (after (.launcherOccurrence 31) u).slot 0 0
    x.st = .queued ∧ x.sketch = 1 ∧ x.ticket = ⟨600000, 4, 0⟩ := by decide +kernel
theorem test_launcher_late : let x (pol rep : Nat) := { armed 8 3 rep pol with late := true }
    ((occurred (x 0 0)).on (CVN_Ln_ACT.MISSED 31) = true ∧ (occurred (x 0 0)).on (HPn_IRQ_FLAG.EVENT 3) = true) ∧
      ((occurred (x 1 5)).launcher 31 = Lnch.off ∧ (occurred (x 1 5)).on (HPn_IRQ_FLAG.EVENT 3) = false) ∧
      ((occurred (x 2 1)).launcher 31).stamp = 600000 + 256 * 6000 ∧ ((occurred (x 2 1)).fld (CVN_Ln_ACT.FIRE_CNT 31)) = 0 := by
  decide +kernel
theorem test_launcher_radio : let s (o : RadioOp) : State := { launch { armed 1 0 0 0 with op := some 3 } with ops := [(3, some o)] }
    (let t := after (.launcherOccurrence 31) (s { onAirOp with lnch := some 31 })
     t.launcher 31 = Lnch.off ∧ t.on (CVN_Ln_ACT.FIRED 31) = true) ∧
    let o : RadioOp := { RadioOp.new .rxwin (some 9) 4 0 ⟨0, 0, 0⟩ with phase := .window, lnch := some 31, t := 600000 }
    let t := after (.launcherOccurrence 31) (s o)
    t.launcher 31 = Lnch.off ∧ t.op 3 = some { o with lnch := none, late := false } := by decide +kernel
theorem test_launcher_asleep : let s (x : Lnch) : State := { launch x with pwr := { dev0.pwr with st := .sleep, core := false } }
    ((s (armed 0 0 0 0)).awake = false ∧ (after (.launcherOccurrence 31) (s (armed 0 0 0 0))).fld (CVN_Ln_ACT.FIRE_CNT 31) = 1) ∧
    (let t := after (.launcherOccurrence 31) (s (armed 10 1 0 0))
     t.pwr.st = .waking ∧ t.fld PWR_WAKE_LAST.FIRST = 3 ∧ t.fld PWR_WAKE_LAST.LNCH = 31 ∧ t.pwr.boot = [(1, [])]) ∧
    let t := after (.launcherOccurrence 31) (s (armed 8 3 0 0))
    (t.launcher 31).wait = some 600000 ∧ t.on (CVN_Ln_ACT.MISSED 31) = true ∧ t.pwr.st = .waking := by decide +kernel
theorem test_lateOccurrenceReady : let s := launch { armed 8 3 0 0 with wait := some 600000, late := true }
    (s.launcher 31).wait = some 600000 ∧ let t := after (.lateOccurrenceReady 31) s
    t.launcher 31 = Lnch.off ∧ t.bytes 0x203000 16 = eventBytes 2 0 0 31 0 600000 := by decide +kernel

/-! Pins (PinWordsAndBalls). -/

theorem test_pinWordWrite : (let t := after (.pinWordWrite (.host 0) 15 0xFF000003#32) dev0
     t.ball 15 = true ∧ t.num (pinAddr 15) 4 = 0xFF010003) ∧
    (let s : State := { dev0 with pins := { dev0.pins with gpIn := [(15, true)] } }
     (after (.pinWordWrite (.host 0) 15 0x13#32) s).ball 15 = true ∧ (after (.pinWordWrite (.host 0) 15 0x2#32) s).ball 15 = true ∧
       (after (.pinWordWrite (.host 0) 15 0x63#32) s).pins = { s.pins with wrote := [(15, 600001)] }) := by decide +kernel
theorem test_gpInputChange : let t := after (.gpInputChange 15 true) dev0
    t.ball 15 = true ∧ (t.num (pinAddr 15) 4).testBit 16 = true ∧ t.ball 14 = false := by decide +kernel
theorem test_inRefresh : let s : State := { dev 576000 0 with pins := { dev0.pins with gpIn := [(0, true), (15, true)] } }
    (s.multipleNow 5 = some 96 ∧ dev0.multipleNow 5 = none ∧ after .inRefresh dev0 = dev0) ∧ let t := after .inRefresh s
    t.num (pinAddr 0 + 2) 1 = 1 ∧ t.num (pinAddr 7 + 2) 1 = 0 ∧ t.num (pinAddr 15 + 2) 1 = 1 := by decide +kernel
theorem test_pinPulseEnd : let s : State := { dev0.putBytes (pinAddr 15) [3#8] with
      pins := { dev0.pins with gpOut := [(15, true)], gpDrv := [(15, true)], pulses := [(15, 600001)] } }
    (s.reach 600000 = true ∧ s.ball 15 = true ∧ (s.num (pinAddr 15) 1).testBit 0 = true) ∧ let t := after (.pinPulseEnd 15) s
    t.ball 15 = false ∧ Tab.get (fun _ => 0) t.pins.pulses 15 = 0 ∧ (t.num (pinAddr 15) 1).testBit 1 = false := by decide +kernel

/-! Synthesisers (SynthesisersTuneLockAndCalibrate). -/

/-- Both chains apart, all three synthesisers locked. -/
def twoSyns : State := withRegs synsOn [(RFA_CHAIN_CFG.off, 0x72)]

/-- A tune of the word for 863.5 MHz; the channel centre goes with it. -/
def tuneTo (w : Nat) (op : Option Nat) : Tune := ⟨w, some 0x1FFFF, false, op, ⟨0, 0, 0⟩⟩

/-- A context that waits for operation 3, with register `d` for its result. -/
def waits3 (s : State) (o : RadioOp) : State :=
  { s with ops := [(3, some o)], ctx := [(9, { s.cx 9 with st := .parked .radio, susp := .radio 3 })] }

/-- A TUNE of context 9 that waits for lock, result in register 15. -/
def tuneOp : RadioOp := { RadioOp.new .tune (some 9) 15 0 ⟨0, 0, 0⟩ with phase := .lock, late := true }

theorem test_tuneStart : let s : State := { withRegs twoSyns [(CHZ_CTRL.off, 0x1000C)] with
      sya := { twoSyns.sya with queue := [tuneTo 0x0FFFFFFF none], seed := 0x1F } }
    (s.awake = true ∧ s.lanes = [] ∧ s.palRuns .a = true ∧ s.diversity = false ∧ s.tuneCase .sya 0x0FFFFFFF = 2) ∧
    let t := after (.tuneStart .sya) s
    t.sya = { s.sya with phase := .settling, cur := some (tuneTo 0x0FFFFFFF none), kase := 2, queue := [],
                         word := 0x0FFFFFFF, lfsr := 0x1F, since := 600000 } ∧
      t.fld (RFA_SYn_FREQ.WORD 0) = 0x0FFFFFFF ∧ t.fld (CHZ_WINn.CENTRE 0) = 0x1FFFF ∧ t.on CHZ_ERG_STAT.GAP = true ∧
      t.tempConv = true ∧ t.syb = s.syb := by decide +kernel
theorem test_tuneStart_diversity : let s : State := { synsOn with sya := { synsOn.sya with queue := [tuneTo 1 none] } }
    (s.diversity = true ∧ s.syb.phase ≠ .settling) ∧ let t := after (.tuneStart .sya) s
    t.syb.phase = .settling ∧ t.syb.word = 1 ∧ t.syt = s.syt := by decide +kernel
theorem test_tuneStart_syt : let s : State := { twoSyns with syt := { twoSyns.syt with queue := [tuneTo 0x0AF00000 none] } }
    s.on TXP_STAT.ACTIVE = false ∧ (after (.tuneStart .syt) s).syt.word = 0x0AF00000 := by decide +kernel
theorem test_tuneStart_off : let s (y : Syn) : State := twoSyns.setSyn y { twoSyns.syn y with queue := [⟨0, none, false, none, ⟨0, 0, 0⟩⟩] }
    ((s .sya).diversity = false ∧ (s .syt).on TXP_STAT.ACTIVE = false) ∧
    (let t := after (.tuneStart .sya) (s .sya)
     t.synOn .sya = false ∧ t.sya.phase = .off ∧ t.syb = twoSyns.syb ∧ t.syt = twoSyns.syt) ∧
    (after (.tuneStart .syb) (s .syb)).syb.phase = .off ∧ (after (.tuneStart .syt) (s .syt)).syt.phase = .off := by decide +kernel

/-- SYT settling for operation 3. -/
def settling : State :=
  { withRegs twoSyns [(CLK_STAT.off, 0x10000000), (RFA_TEMP.off, 0x190)] with
    syt := { twoSyns.syt with phase := .settling, cur := some (tuneTo 0x0B000000 (some 3)), kase := 1, word := 0x0B000000 } }

theorem test_synthLock : (settling.on CLK_STAT.REF_OK = true ∧ settling.on (synVcoFld .syt) = false) ∧
    (let t := after (.synthLock .syt 0xFF) { settling with syt := { settling.syt with cur := none } }
     t.syt.phase = .locked ∧ t.syt.calWord = some 0x0B000000 ∧ t.syt.calTemp = 400 ∧ t.on (synLockFld .syt) = true ∧
       t.fld (synBandFld .syt) = 63) ∧
    let t := after (.synthLock .syt 5) (waits3 settling tuneOp)
    t.ops = [] ∧ (t.cx 9).st = .ready ∧ (t.cx 9).rd 15 = BitVec.ofNat 32 (settling.radioWord 0 true 1) ∧ (t.cx 9).z = true := by
  decide +kernel
theorem test_synthLock_hop : let s : State := { settling with syt := { settling.syt with kase := 0, calWord := some 7, cur := none } }
    let t := after (.synthLock .syt 5) s
    t.syt.calWord = some 7 ∧ t.fld (synBandFld .syt) = s.fld (synBandFld .syt) ∧ t.on (synLockFld .syt) = true := by decide +kernel
theorem test_synthLock_vco : let s : State := { withRegs settling [(RFA_CAL_CTRL.off, 4)] with syt := { settling.syt with cur := none } }
    s.on (synVcoFld .syt) = true ∧ let t := after (.calibrationEnd .sytVco 5) s
    t.syt.phase = .locked ∧ t.on (synVcoFld .syt) = false ∧ t.fld (synBandFld .syt) = 5 := by decide +kernel
theorem test_lockTimeout : (let t := after (.lockTimeout .syt) settling
     t.syt = { settling.syt with second := true, since := 600000 } ∧ t.tempConv = true ∧ t.regs = settling.regs) ∧
    let s := waits3 { withRegs settling [(SYS_FAULT.off, 0)] with syt := { settling.syt with second := true } } tuneOp
    (s.faultAny = false ∧ s.fld SYS_FAULT.EV = 0) ∧ let t := after (.lockTimeout .syt) s
    t.on RFA_CAL_STAT.CAL_FAIL = true ∧ t.fld RFA_CAL_STAT.CAL_FAIL_CNT = 1 ∧ t.fld SYS_FAULT.LAST_KIND = 9 ∧
      t.synOn .syt = false ∧ t.syt.phase = .off ∧ ((t.cx 9).rd 15).toNat % 256 = 0x11 := by decide +kernel
theorem test_synthUnlock : let s := withRegs twoSyns [(CHZ_CTRL.off, 0x1000C), (RFA_SY_STAT.off, 0xFFFFFF03)]
    (s.sya.phase = .locked ∧ s.ops = [] ∧ s.palRuns .a = true) ∧ let t := after (.synthUnlock .sya) s
    t.on (synUnlkFld .sya).1 = true ∧ t.fld (synUnlkFld .sya).2 = satInc 255 (s.fld (synUnlkFld .sya).2) ∧
      t.sya.phase = .settling ∧ t.sya.kase = 1 ∧ t.on (synLockFld .sya) = false ∧ t.on CHZ_ERG_STAT.GAP = true ∧
      t.syb = s.syb := by decide +kernel
theorem test_sytVcoStart : let s : State := { twoSyns with syt := { twoSyns.syt with calWait := true, word := 9 } }
    let t := after .sytVcoStart s
    t.syt.calWait = false ∧ t.syt.phase = .settling ∧ t.syt.kase = 1 ∧ t.syt.word = 9 ∧ t.sya = s.sya := by decide +kernel
theorem test_calibrationEnd_iq : let s := withRegs twoSyns [(RFA_CAL_CTRL.off, 0x67)]
    (s.on RFA_CAL_CTRL.RXA_IQ = true ∧ s.on RFA_CAL_CTRL.RXB_IQ = true) ∧
    (let t := after (.calibrationEnd .rxaIq 0) s
     t.on RFA_CAL_CTRL.RXA_IQ = false ∧ t.on RFA_CAL_CTRL.RXB_IQ = true) ∧
    let t := after (.calibrationEnd .rxbIq 0) s
    t.on RFA_CAL_CTRL.RXB_IQ = false ∧ t.on RFA_CAL_CTRL.RXA_IQ = true := by decide +kernel
theorem test_tempConversionEnd : let s : State := { withRegs dev0 [(RFA_TEMP.off, 0x80FF07FF)] with tempConv := true }
    let t := after (.tempConversionEnd 3000) s
    t.tempConv = false ∧ t.temp = 2047 ∧ (after (.tempConversionEnd (-3000)) s).temp = -2048 ∧ t.on RFA_TEMP.START = false ∧
      t.fld RFA_TEMP.SEQ = (s.fld RFA_TEMP.SEQ + 1) % 256 := by decide +kernel

/-! The Palette (PaletteSamplesAndPendingList). -/

/-- Chain A in dual arrangement, powered, with the Palette's claim held; EN_A and DET_A set. -/
def palOn (run : Nat) : State :=
  { withRegs dev0 [(RFA_CHAIN_CFG.off, 0x12), (CHZ_CTRL.off, 0x5 + run * 0x10000), (CHZ_ERG_CFG.off, 3), (SYS_FAULT.off, 0)] with
    sya := { dev0.sya with phase := .locked }, cmr := { dev0.cmr with st := 5 }
    well := ⟨[⟨.chzr .a, 18, 0, ⟨1, 0, 0⟩, 1, false⟩], [], []⟩ }

theorem test_paletteStart : let s := palOn 0
    ((s.awake = true ∧ s.palEnabled .a = true ∧ s.chainOn .a = true ∧ s.holds (.chzr .a) = true) ∧
      s.palRuns .a = false ∧ s.writesErg .a = true ∧ s.neverFits 4 = false) ∧
    (let t := after (.paletteStart .a) s
     t.palRuns .a = true ∧ t.palA.start = 600000 ∧ t.palA.marker = true ∧ t.on CHZ_ERG_STAT.GAP = true ∧ t.waits .erg = true) ∧
    let o : RadioOp := { tuneOp with kind := .rxwin, phase := .window, chain := 0 }
    let t := after (.paletteStart .a) (waits3 s o)
    t.palRuns .a = true ∧ t.ops = [] ∧ (t.cx 9).st = .ready ∧ (t.cx 9).rd 15 = BitVec.ofNat 32 (s.radioWord 0 true o.seq) := by
  decide +kernel

/-- One position: bin 0 of chain A holds 2047 − 31j; no samples elsewhere. -/
def one (clip : List Bool) : SampleObs := { sample0 with a := ⟨clip, [(56, (2047, -31))], [(56, 1000)]⟩ }

/-- Fifteen quiet positions behind it, one quiet block finished. -/
def quiet : State :=
  { palOn 1 with
    pos := 2047
    palA := { Palette.zero with blocks := [⟨0, 1, [], 16, false, false⟩], cur := ⟨500, 599000, [], 15, false, false⟩
                                part := [(56, [1#8, 2#8, 3#8, 4#8, 5#8, 6#8])] } }

/-- The same with no writes to the Erg. -/
def unwritten : State := withRegs quiet [(CHZ_ERG_CFG.off, 0)]

theorem test_samplePosition : (quiet.cmr.st = 5 ∧ quiet.ents = [] ∧ quiet.rslots = [] ∧ quiet.palRuns .a = true ∧ quiet.single = false) ∧
    quiet.writesErg .a = true ∧ let t := after (.samplePosition (one [true, true, false, true])) unwritten
    t.pos = 2048 ∧ t.fld CHZ_ERG_STAT.WPOS = 0 ∧ t.on (RFA_RXn_CFG.CLIP 0) = true ∧ t.fld (RFA_RXn_CFG.CLIP_CNT 0) = 2 ∧ t.palA.clip = true ∧
      t.palA.blocks = [⟨500, 600000, [(56, 1000)], 16, false, false⟩, ⟨0, 1, [], 16, false, false⟩] := by decide +kernel
theorem test_samplePosition_marker : let s : State := { unwritten with palA := { quiet.palA with marker := true } }
    let t := after (.samplePosition (one [])) s
    t.palA.marker = false ∧ t.palA.gapAt = 600000 ∧ (t.palA.blocks.map (·.gap)) = [true, false] := by decide +kernel
theorem test_ergSample : Tab.get (fun _ => []) quiet.palA.part 56 = [1#8, 2#8, 3#8, 4#8, 5#8, 6#8] ∧
    (quiet.ergSample .a 56 2047 [compByte 2047, compByte (-31)]).bytes (quiet.ergAddr .a 56 2047) 8 =
      [1#8, 2#8, 3#8, 4#8, 5#8, 6#8, 0x7F#8, 0x9F#8] := by decide +kernel

theorem witness_samplePosition_writes : let s : State := { quiet with
      well := { quiet.well with granted := quiet.well.granted ++ [⟨.erg, 4, 0, ⟨1, 0, 0⟩, 1, false⟩] } }
    s.ergWrites .a = true ∧ s.single = false ∧ s.pos % 4 = 3 ∧ s.pos % 16 = 15 ∧ s.palA.cur.n = 15 ∧
      (Tab.get (fun _ => []) s.palA.part 56).length = 6 ∧ (after (.samplePosition sample0) { quiet with palA := s.palA }).pos = 2048 := by
  decide +kernel

/-- A strong preamble on channel 0 of chain A. -/
def cand : Cand := ⟨.a, 0, 0xFF, 10 ^ 12, 580000, 2000, none⟩

theorem test_samplePosition_detects :
    (let v := after (.samplePosition (one [])) unwritten
     v.detects cand = true ∧ v.freeLane = none ∧ v.detects { cand with corr := 0xA5 } = false ∧
       (v.entryOf cand none).strength = 220 ∧ (v.entryOf cand none).bin = 0) ∧
    let t := after (.samplePosition { one [] with cands := [cand] })
      { withRegs quiet [(CHZ_ERG_CFG.off, 0), (LANE_ALLOC_CFG.off, 0x8000), (LANE_CTRL.off, 0x8000000E)] with
        well := ⟨[⟨.group 15, 5, 0, ⟨0, 0, 0⟩, 0, false⟩], [], []⟩ }
    (t.ent 0).map (·.lane) = some (some 120) ∧ t.lane 120 = some ⟨0, .a, true, none, false, none⟩ := by decide +kernel

theorem test_syncSearchTimeout : let s : State := { dev 1802240 0 with ents := [(3, some { entry with start := 0 })] }
    (88 * symFine 3 = 1802240 ∧ s.held = [] ∧ s.detRate .a = 3) ∧ let t := after (.syncSearchTimeout 3) s
    t.ents = [] ∧ t.fld CHZ_PENDING_STAT.FALSE_CNT = 1 := by decide +kernel
theorem test_entryPromoted : let s : State := { withRegs dev0 [(CHZ_PENDING_POLICY.off, 0x012C0000)] with
      ents := [(3, some { entry with det := 600000 - 251659 })] }
    (s.fld CHZ_PENDING_POLICY.AGE_LIMIT * 6291456 ≤ 25 * (s.stamp - 348341)) ∧
      ((after (.entryPromoted 3) s).ent 3) = some { entry with det := 348341, promoted := true } := by decide +kernel
theorem test_entryStarved : let s : State := { palOn 0 with ents := [(3, some { entry with age0 := 2048 })] }
    (s.agedOut { entry with age0 := 2048 } = true ∧ s.on LANE_CTRL.STARVE_REC = true) ∧ let t := after (.entryStarved 3) s
    t.ent 3 = none ∧ t.on LANE_STARVE_CNT.STARVED = true ∧ t.fld LANE_STARVE_CNT.OCC_CNT = 1 ∧
      t.fld LANE_RING_HEAD.HEAD = 32 := by decide +kernel
theorem test_entryStarved_full_room : let s : State := { withRegs (palOn 0) [(LANE_RING_SIZE.off, 64), (LANE_RING_HEAD.off, 32),
        (LANE_RING_BASE.off, 0x1FFFC0)] with ents := [(3, some { entry with age0 := 2048 })] }
    (32 + 32 ≤ s.fld LANE_RING_SIZE.SIZE) ∧ 32 ≤ (s.fld LANE_RING_TAIL.TAIL + 2 * 64 - 32 - 8) % 64 ∨
      (after (.entryStarved 3) s).on LANE_RING_HEAD.FULL = true := by decide +kernel
theorem test_paletteStop : let s : State := { withRegs (palOn 1) [(CHZ_CTRL.off, 0x10004)] with
      well := ⟨[⟨.chzr .a, 18, 0, ⟨1, 0, 0⟩, 1, false⟩, ⟨.erg, 4, 0, ⟨1, 0, 0⟩, 1, false⟩], [], []⟩ }
    (s.palRuns .a = true ∧ s.palEnabled .a = false ∧ s.palA.part = []) ∧ let t := after (.paletteStop .a) s
    t.palRuns .a = false ∧ t.holds (.chzr .a) = false ∧ t.holds .erg = false := by decide +kernel

/-! Lanes and recovery slots (LanesAndRecoverySlots). -/

/-- Lane 127 decodes entry 7, which stands for the partner given. -/
def decoding (behind : Bool) (pidx : Nat) : State :=
  { withRegs (palOn 1) [(LANE_RECOV_CFG.off, 0x1C480C)] with
    ents := [(7, some { entry with lane := some 127, pidx := pidx })]
    lanes := [(127, some ⟨7, .a, behind, none, false, none⟩)] }

/-- A frame of whitened body `b`, with the header's length and check bits set for it. -/
def frameOf (b : List Byte) (sync : Option (Nat × Nat)) : FrameObs :=
  let h := b.length * 128 + 32
  ⟨sync, h + hchk h, whiten b, [], 0, 10 ^ 6, 0, 0, 0, 0, none, true, false, 599000, 0⟩

/-- The shortest MAC frame and its FCS of two bytes. -/
def macOk : List Byte := let m := [1#8, 2#8, 3#8]; m ++ dev0.fcsBytes 0 m

theorem test_laneCatchUp : let s := decoding true 0xFFFF
    (s.cmr.st = 5 ∧ s.awake = true ∧ s.marks = []) ∧ (after (.laneCatchUp 127) s).lane 127 = some ⟨7, .a, false, none, false, none⟩ := by
  decide +kernel
theorem test_laneStarved : let s : State := { decoding true 0xFFFF with palA := { dev0.palA with written := 2033 } }
    (s.horizon - 16 < s.entAge { entry with lane := some 127 } ∧ s.stronger 7 = [] ∧ s.held = []) ∧
    let t := after (.laneStarved 127) s
    t.lane 127 = none ∧ t.ent 7 = none ∧ t.on LANE_STARVE_CNT.STARVED = true ∧ t.fld LANE_STARVE_CNT.OCC_CNT = 1 := by
  decide +kernel
theorem test_laneFrameEnd_noSync : let s := decoding false 0xFFFF
    ((s.ops = [] ∧ s.diversity = false ∧ s.on MAC_ROLE.SF_EN = false ∧ s.on MAC_ROLE.MB_EN = false) ∧
      s.on TXP_ACK_CFG.EN = false ∧ s.on LANE_RECOV_CFG.EN = false) ∧ let t := after (.laneFrameEnd 127 (frameOf macOk none)) s
    t.lane 127 = none ∧ t.ent 7 = none ∧ t.fld CHZ_PENDING_STAT.FALSE_CNT = 1 := by decide +kernel
theorem test_laneFrameEnd : let s := (decoding false 4095).putBytes (partner 4095 + 0x0A) [1#8]
    let o := frameOf macOk (some (0x9E3A2D, 591000))
    (s.confirmSync { entry with lane := some 127, pidx := 4095 } .a o = some (0, 0, 591000) ∧ s.hdrOk .a o.hdr 2 = true ∧
      natBits o.hdr 15 7 = 5 ∧ s.partnerValid 4095 = true ∧ (s.bodyOf o).1 = macOk ∧ s.marks = []) ∧
    let t := after (.laneFrameEnd 127 o) s
    t.fld LANE_CNT_OK.COUNT = 1 ∧ t.bytes 0x100000 8 = leBytes 8 (stampWord 591000) ∧ t.num 0x100008 2 = 3 ∧
      t.num 0x10000A 2 = 4095 ∧ t.bytes 0x100020 3 = [1#8, 2#8, 3#8] ∧ t.fld LANE_RING_HEAD.HEAD = 40 ∧ t.seqno = 1 ∧
      t.num (partner 4095 + 0x31) 1 = minusDbm (s.toBall .a (10 ^ 6)) ∧ t.num (partner 4095 + 0x34) 2 = 1 := by decide +kernel
theorem test_laneFrameEnd_badFcs : let o := frameOf [1#8, 2#8, 3#8, 4#8, 5#8] (some (0x9E3A2D, 591000))
    (let s := withRegs (decoding false 0xFFFF) [(LANE_CTRL.off, 0x80000008)]
     s.on LANE_CTRL.PT_UPD = false ∧ let t := after (.laneFrameEnd 127 o) s
     t.num 0x10000C 1 = 0x31 ∧ t.bytes 0x100020 5 = [1#8, 2#8, 3#8, 4#8, 5#8]) ∧
    let t := after (.laneFrameEnd 127 o) (withRegs (decoding false 0xFFFF) [(LANE_CTRL.off, 0x80000000)])
    t.mem = dev0.mem ∧ t.fld LANE_CNT_FCS.COUNT = 1 := by decide +kernel

/-- A scan's request on chain A, bins 100 to 107, its span begun at position 2040. -/
def recov : Recov := ⟨.a, 3, 100, 8, 2040, 2041, 5, none, none, ⟨0, 0, 0⟩, false, none, 0, 0⟩

theorem test_recoverySlotStart : let s : State := { (withRegs (palOn 1) [(LANE_RECOV_CFG.off, 0x1C680C)]).putBytes 0x49CFF0 [9#8, 8#8] with
      reqs := [recov], pos := 2044 }
    ((s.rslot 7 = none ∧ s.slotsUsed < s.fld LANE_RECOV_CFG.SLOTS ∧ s.reqAged recov = false) ∧
      s.ergAddr .a 156 2040 + 2 * (2040 % 4) = 0x49CFF0 ∧ s.marks = []) ∧
    let t := after (.recoverySlotStart 7) s
    t.rslot 7 = some recov ∧ t.reqs = [] ∧ t.bytes (s.residualAddr 7 recov 2040) 2 = [9#8, 8#8] := by decide +kernel
theorem test_recoveryEntry : let s (q : Recov) : State := { palOn 1 with rslots := [(7, some q)], pos := 2044 }
    (after (.recoveryEntry 7 none) (s { recov with weak := some entry })).ent 0 =
        some { entry with lane := none, slot := some 7, fresh := false } ∧
      (let t := after (.recoveryEntry 7 none) (s recov)
       t.rslot 7 = none ∧ t.fld LANE_RECOV_STAT.FAIL_CNT = 1) ∧
      let d : Cand := ⟨.a, 3, 0xFF, 10 ^ 12, 580000, 2040, some (0x9E3A2D, 591000)⟩
      let u : State := { s recov with palA := { Palette.zero with blocks := [⟨0, 1, [], 16, false, false⟩] } }
      let t := after (.recoveryEntry 7 (some d)) u
      u.scanFinds recov d = true ∧ (t.ent 0).map (fun x => (x.slot, x.sync, x.chan)) = some (some 7, some (0, 591000), 3) := by
  decide +kernel
theorem test_recoveryRequestDropped : let f : Rec := ⟨591000, 9, 0, 0, 0, 1, 0, 0, 0, 0, 0, 0, 0, 0, [7#8]⟩
    let s (w : Option Rec) : State := { palOn 1 with reqs := [{ recov with fallback := w }], palA := { Palette.zero with written := 2033 } }
    ((s none).reqAged recov = true ∧ (s none).wanted f = true) ∧
    (let t := after (.recoveryRequestDropped 0) (s none)
     t.reqs = [] ∧ t.fld LANE_RECOV_STAT.SKIP_CNT = 1) ∧
    let t := after (.recoveryRequestDropped 0) (s (some f))
    t.fld LANE_RECOV_STAT.SKIP_CNT = 1 ∧ t.fld LANE_RING_HEAD.HEAD = 40 ∧ t.num 0x10000A 2 = 9 ∧ t.bytes 0x100020 1 = [7#8] := by
  decide +kernel

/-! The release point (ReleasePointAndListenBeforeTalk). -/

/-- A TXF of context 9 on 868.3 MHz with its launch instant at 600000, result in register 15. -/
def txOp : RadioOp :=
  { RadioOp.new .txf (some 9) 15 0 ⟨0, 0, 0⟩ with
    t := 600000, at_ := true, freq := 138928, width := 4, frame := [0#8, 0#8, 0#8, 0#8, 0#8], len := 5, air := 1000000
    listen := 1, ts := 6 }

/-- The device that sends it: SYT locked on the channel, chain A's Palette with a covering block of the power given. -/
def sending (o : RadioOp) (pow : Nat) : State :=
  let s := palOn 1
  waits3 { withRegs s [(CHZ_CTRL.off, 0x10005), (RFA_CHAIN_CFG.off, 0x52)] with
    syt := { s.syt with phase := .locked, word := wordOf2 138928 }
    palA := { s.palA with blocks := [⟨400000, 600000, (List.range 24).map (fun i => (388 + i, pow)), 16, false, false⟩] } } o

theorem test_txRelease_hyps : let s := sending txOp 1
    (s.awake = true ∧ s.reach (s.release txOp) = true ∧ s.time.edge ≤ s.release txOp ∧ s.txReady txOp = true) ∧
      s.lbtNeeded txOp = false ∧ s.slotFits txOp 600000 = true ∧ s.allRoom txOp (airUnits txOp.air) = true := by
  decide +kernel
theorem test_txRelease : let t := after (.txReleasePoint 3) (sending txOp 1)
    t.op 3 = some { txOp with phase := .grant } ∧ t.on TXP_STAT.ACTIVE = true ∧ t.pins.txrx = true ∧ t.pins.ant0 = true ∧
      t.pins.ant1 = false := by decide +kernel
theorem test_txRelease_account : let s := withRegs (sending txOp 1) [(SGL_ACCn_WINDOW.off 7, 0x80500001), (SGL_ACCn_BAND.off 7, 0xFFFF0000)]
    let o := { txOp with cfg := s.regs }
    let s := waits3 s o
    ((s.asOf o).acctsOf 138928 4 = [7] ∧ s.allRoom o (airUnits o.air) = false ∧ s.allRoom txOp (airUnits o.air) = true) ∧
    let t := after (.txReleasePoint 3) s
    t.ops = [] ∧ ((t.cx 9).rd 15).toNat % 256 = 0x13 ∧ t.on (SGL_ACCn_USED.EXH 7) = true ∧ t.fld TXP_STAT.LAST = 0x13 := by
  decide +kernel
theorem test_txRelease_lbt : let o := { txOp with lbt := true }
    ((sending o 1).lbtTest o 597000 = ⟨false, true, true, (sending o 1).lbtTest o 597000 |>.worst⟩ ∧
      ((after (.txReleasePoint 3) (sending o 1)).op 3).map (·.phase) = some .grant) ∧
    (let r := (sending o (10 ^ 15)).lbtTest o 597000
     (r.nocov = false ∧ r.covered = true ∧ r.clear = false) ∧ let t := after (.txReleasePoint 3) (sending o (10 ^ 15))
     t.fld TXP_STAT.LAST = 0x12 ∧ t.on TXP_STAT.CBUSY = true ∧ t.ops = []) ∧
    let s := withRegs (sending o (10 ^ 15)) [(TXP_LBT_CFG.off, 0x320013)]
    o.tries < s.fld TXP_LBT_CFG.RETRY ∧ o.neverLate = false := by decide +kernel
theorem test_txRelease_uncovered : let o := { txOp with lbt := true, listen := 500 }
    ((sending o 1).lbtTest o 600000).covered = false ∧
    (let s := withRegs (sending o 1) [(TXP_LBT_CFG.off, 0x80320003)]
     (after (.txReleasePoint 3) s).fld TXP_STAT.LAST = 0x12) ∧
    (after (.txReleasePoint 3) (sending { o with pol := 1 } 1)).fld TXP_STAT.LAST = 0x10 ∧
    ((after (.txReleasePoint 3) (sending { o with at_ := false } 1)).op 3) = some { o with at_ := false, phase := .cover } ∧
    let s := withRegs (sending o 1) [(CHZ_CTRL.off, 5)]
    (s.lbtTest o 600000).nocov = true ∧ (after (.txReleasePoint 3) s).fld TXP_STAT.LAST = 0x12 := by decide +kernel
theorem test_txRelease_notReady : let s (o : RadioOp) : State := { sending o 1 with cmr := { dev0.cmr with st := 4 } }
    ((s txOp).txReady txOp = false ∧ (after (.txReleasePoint 3) (s txOp)).op 3 = some { txOp with late := true }) ∧
      let t := after (.txReleasePoint 3) (s { txOp with pol := 2 })
      t.ops = [] ∧ ((t.cx 9).rd 15).toNat % 256 = 0x10 ∧ t.on TXP_STAT.LATE = true := by decide +kernel
theorem test_txRelease_now : let o := { txOp with at_ := false, t := 0 }
    (sending o 1).txReady o = true ∧ let t := after (.txReleasePoint 3) (sending o 1)
    t.op 3 = some { o with phase := .grant, t := 600000 + (sending o 1).lead } := by decide +kernel
theorem test_lbtCovered : let o := { txOp with lbt := true, phase := .cover, late := true }
    ((sending o 1).lbtTest o 600000).covered = true ∧
      ((after (.lbtCovered 3) (sending o 1)).op 3).map (·.phase) = some .grant := by decide +kernel
theorem test_lbtRetry : let o := { txOp with phase := .backoff, tries := 1 }
    ((after (.lbtRetry 3) (sending o 1)).op 3).map (·.phase) = some .grant ∧
    let s : State := { sending { o with at_ := false } 1 with cmr := { dev0.cmr with st := 4 } }
    (after (.lbtRetry 3) s).op 3 = some { o with at_ := false, phase := .release } := by decide +kernel
theorem test_lbt_instruction : let o := { txOp with kind := .lbt, at_ := false }
    let t := after (.txReleasePoint 3) (sending o 1)
    (t.ops = [] ∧ ((t.cx 9).rd 15).toNat % 256 = 0 ∧ ((t.cx 9).rd 15).toNat / 65536 = ((sending o 1).lbtTest o 600000).worst) ∧
    ((after (.txReleasePoint 3) (sending { o with at_ := true } 1)).ops = []) ∧
    ((after (.lbtCovered 3) (sending { o with phase := .cover } 1)).ops = []) ∧
    let s := withRegs (sending o 1) [(CHZ_CTRL.off, 5)]
    let v := (((after (.txReleasePoint 3) s).cx 9).rd 15).toNat
    v % 256 = 0x12 ∧ v / 65536 = 255 := by decide +kernel

/-! On the air (TransmissionsOnTheAir). -/

/-- The PA claim's operation in phase `p`, level 80. -/
def paOp (p : OpPhase) : RadioOp := { txOp with phase := p, level := 80 }

/-- The sending device with its claims gone and the budget given. -/
def paS (o : RadioOp) (budget : Nat) : State :=
  { withRegs (sending o 1) [(TXP_STAT.off, 0x80000000), (WELL_BUDGET.off, 0x420000 + budget)] with well := ⟨[], [], []⟩ }

theorem test_paGrant : let s := paS (paOp .grant) 1023
    ((s.reach (600000 - s.riseLead) = true ∧ s.holds (.pa 3) = false ∧ s.well.queue = []) ∧
      s.paClaim (s.clampLevel 138928 4 80) = 166 ∧ s.neverFits 166 = false ∧ 166 ≤ 2 * s.fld WELL_BUDGET.BUDGET) ∧
    let t := after (.paGrant 3) s
    t.op 3 = some (paOp .onAir) ∧ t.pins.paEn = true ∧ t.holds (.pa 3) = true ∧ t.wellUsed = s.wellUsed + 166 := by decide +kernel
theorem test_paGrant_denied : let s := paS (paOp .grant) 82
    s.neverFits 166 = true ∧ let t := after (.paGrant 3) s
    t.ops = [] ∧ ((t.cx 9).rd 15).toNat % 256 = 0x15 ∧ t.on TXP_STAT.ACTIVE = false ∧ t.on WELL_DENY_CNT.DENY = true := by
  decide +kernel
theorem test_paGrant_late : let s (o : RadioOp) : State := { paS o 100 with well := ⟨[⟨.group 0, 5, 0, ⟨0, 0, 0⟩, 0, false⟩], [], []⟩ }
    ((s (paOp .grant)).neverFits 166 = false ∧ 2 * 100 < (s (paOp .grant)).wellUsed + 166) ∧
    (let t := after (.paGrant 3) (s { paOp .grant with pol := 1 })
     t.ops = [] ∧ t.fld TXP_STAT.LAST = 0x10 ∧ t.waits (.pa 3) = false) ∧
    let t := after (.paGrant 3) (s (paOp .grant))
    t.op 3 = some { paOp .lateGrant with late := true } ∧ t.waits (.pa 3) = true ∧ t.on TXP_STAT.ACTIVE = false := by
  decide +kernel
theorem test_paGrant_lateGranted : let c : Claim := ⟨.pa 3, 166, 0, ⟨0, 0, 0⟩, 0, false⟩
    let s : State := { withRegs (paS (paOp .lateGrant) 99) [(TXP_STAT.off, 0)] with well := ⟨[], [c], []⟩ }
    (s.txReady (paOp .lateGrant) = true ∧ s.well.queue = [c] ∧ s.wellUsed + c.amt ≤ 2 * s.fld WELL_BUDGET.BUDGET ∧
      s.lbtNeeded (paOp .lateGrant) = false) ∧ let t := after (.paGrant 3) s
    (t.op 3).map (fun x => (x.phase, x.late, x.t)) = some (.grant, true, 600000 + s.lead) ∧ t.holds (.pa 3) = true ∧
      t.on TXP_STAT.ACTIVE = true := by decide +kernel

/-- A transmission whose last symbol ended at 597000. -/
def ending (o : RadioOp) : RadioOp := { o with phase := .onAir, t := 403392, air := 193608, wantAck := o.wantAck }

theorem test_txEnd_ramp : let s : State := withRegs (paS txOp 100) [(SGL_ACCn_WINDOW.off 7, 0x80500001), (SGL_ACCn_BAND.off 7, 0xFFFF0000)]
    let o := { ending txOp with cfg := s.regs }
    let s := waits3 { s with pins := { s.pins with paEn := true, paCtl := some 5 } } o
    (s.reach (597000 + usFine s.rampUs) = true ∧ airUnits 193608 = 10) ∧ let t := after (.txEnd 3) s
    t.op 3 = some { o with phase := .fall, units := 10, endAt := 597000, fallAt := 597000 + s.fallLag, backAt := 597000 + s.tail } ∧
      t.pins.paEn = true ∧ t.pins.paCtl = none ∧ t.acct 7 = [⟨65 * 512, 10⟩] ∧ (t.sent.map (·.start)) = some 403392 := by decide +kernel
theorem test_txEnd_fall : let o := { ending txOp with phase := .fall, fallAt := 598000, backAt := 599000 }
    let s := paS o 100
    let s : State := { s with pins := { s.pins with paEn := true } }
    s.reach o.fallAt = true ∧ let t := after (.txEnd 3) s
    t.pins.paEn = false ∧ t.op 3 = some { o with phase := .swap } ∧ t.wkr.blind = ceilDiv (598000 + msFine 1) 6000 := by decide +kernel

/-- The same with the switches to return: ten units charged. -/
def swapping (o : RadioOp) : RadioOp := { ending o with phase := .swap, units := 10, endAt := 597000, fallAt := 598000, backAt := 599000 }

theorem test_txEnd : let s := paS (swapping txOp) 100
    (s.reach 599000 = true ∧ s.inOwnCell (swapping txOp) = false ∧ s.holds (.pa 3) = false) ∧ let t := after (.txEnd 3) s
    t.ops = [] ∧ t.fld TXP_STAT.LAST = 0 ∧ t.on TXP_STAT.ACTIVE = false ∧ t.accts = s.accts ∧
      ((t.cx 9).rdT 6).toNat = 67 * 2 ^ 16 + 1392 ∧ ((t.cx 9).rd 15).toNat / 65536 = 10 ∧
      ((after (.txEnd 3) (paS { swapping txOp with late := true } 100)).fld TXP_STAT.LAST = 0x17) ∧
      (let t := after (.txEnd 3) (paS { swapping txOp with aborted := true } 100)
       t.op 3 = none ∧ t.ctx = s.ctx) := by decide +kernel
theorem test_txEnd_ack : let o := { swapping txOp with wantAck := true }
    let s := paS o 100
    (s.hears 138928 4 = true ∧ (after (.txEnd 3) s).op 3 = some { o with phase := .ackWait }) ∧
    let s := withRegs s [(CHZ_CTRL.off, 5)]
    s.hears 138928 4 = false ∧ let t := after (.txEnd 3) s
    t.fld TXP_STAT.LAST = 0x14 ∧ t.on TXP_STAT.NOCOV = true ∧ t.ops = [] := by decide +kernel
theorem test_ackWindowClose : let o := { txOp with phase := .ackWait, endAt := 0, rate := 7, late := true }
    let s := paS o 100
    (s.reach (s.ackWindow o).2 = true ∧ s.ackDecoding o = false) ∧ (let t := after (.ackWindowClose 3) s
     t.fld TXP_STAT.LAST = 0x14 ∧ ((t.cx 9).rd 15).toNat.testBit 8 = true) ∧
    let u : State := { withRegs s [(CHZ_WINn.off 0, 0x80010EC8)] with
      ents := [(7, some { entry with bin := 342, width := 4, sync := some (0, (s.ackWindow o).1), lane := some 0 })]
      lanes := [(0, some ⟨7, .a, false, none, false, none⟩)] }
    u.ackDecoding o = true ∧ (after (.ackWindowClose 3) u).op 3 = some { o with phase := .ackDecode } := by decide +kernel
theorem test_callCopyEnd : let o := { ending txOp with kind := .calltx, copies := 1 }
    (let t := after (.callCopyEnd 3) (paS o 100)
     t.op 3 = some { o with t := 597000 + msFine ((paS o 100).fld TXP_CALL_CFG.GAP), copies := 0, units := 10 } ∧ t.accts = []) ∧
    let t := after (.callCopyEnd 3) (paS { o with copies := 0 } 100)
    (t.op 3).map (fun x => (x.phase, x.endAt, x.units)) = some (.fall, 597000, 10) := by decide +kernel
theorem test_bucketExpiry : let s : State := { dev0 with accts := [(7, [⟨100, 5⟩, ⟨101, 6⟩])] }
    (((s.acct 7).map (·.tick)).min? = some 100 ∧ s.reach 600000 = true) ∧ let t := after (.bucketExpiry 7) s
    t.acct 7 = [⟨101, 6⟩] ∧ t.used 7 = 6 := by decide +kernel

/-! Windows, beacon loss, leases and slots (WindowsBeaconLossAndLeases). -/

/-- The RXWIN of context 9 that waits for window 63. -/
def winOp : RadioOp := { tuneOp with kind := .rxwin, phase := .window, chain := 0, seq := 63 }

/-- A window of chain A. -/
def winA (power isOpen : Bool) : RxWin := ⟨4095, .a, 69464, 4, 600000, 600000, power, isOpen⟩

theorem test_rxwinStart : (let s : State := { dev0 with wins := [(63, some (winA false false))] }
     (s.awake = true ∧ s.reach 600000 = true) ∧ (after (.rxwinStart 63) s).win 63 = some (winA false true)) ∧
    (let s : State := { palOn 0 with wins := [(63, some (winA true false))], well := ⟨[], [], []⟩ }
     let s := withRegs s [(CHZ_CTRL.off, 4)]
     (s.on (enFld .a) = false ∧ s.chainOn .a = true ∧ s.palRuns .a = false ∧ s.neverFits 18 = false) ∧
       let t := after (.rxwinStart 63) s
       t.on (enFld .a) = true ∧ t.waits (.chzr .a) = true) ∧
    let s : State := { waits3 (palOn 1) winOp with wins := [(63, some (winA true false))] }
    (s.palRuns .a = true ∧ s.on (enFld .a) = true) ∧ let t := after (.rxwinStart 63) s
    t.ops = [] ∧ ((t.cx 9).rd 15).toNat % 256 = 0 ∧ (t.cx 9).st = .ready := by decide +kernel
theorem test_rxwinEnd : (after (.rxwinEnd 63) { dev0 with wins := [(63, some (winA false true))] }).wins = [] ∧
    (let t := after (.rxwinEnd 63) { palOn 1 with wins := [(63, some (winA true true))] }
     t.on (enFld .a) = false ∧ t.palRuns .a = false ∧ t.holds (.chzr .a) = false) ∧
    let t := after (.rxwinEnd 63) { waits3 (palOn 1) winOp with wins := [(63, some (winA true true))] }
    t.wins = [] ∧ t.ops = [] ∧ ((t.cx 9).rd 15).toNat % 256 = 0x10 := by decide +kernel

/-- A synchronised member of coordinator 4095 after the beacon of tick 10; `n` beacons missed. -/
def memberOf (n : Nat) : State :=
  withRegs (((dev 12000000 0).putBytes (partner 4095 + 0x0A) [1#8]).putBytes (partner 4095 + 0x20) (leBytes 8 (10 * 65536)))
    [(MAC_ROLE.off, 0x40FFF000), (MAC_BEACON_STAT.off, 0x2000 + 0x400 * n)]

theorem test_beaconMiss : ((memberOf 1).upSync = true ∧ (memberOf 1).reach (memberOf 1).upWindow.2 = true ∧
      (memberOf 1).fld MAC_BEACON_STAT.MISS = 1) ∧ let t := after .beaconMiss (memberOf 1)
    t.fld MAC_BEACON_STAT.MISS = 2 ∧ t.mac.nextN = 2 ∧ t.up 0x18 8 = stampWord (t.predict 4095 t.upTicks) ∧
      t.on MAC_BEACON_STAT.SYNC = true := by decide +kernel
theorem test_beaconMiss_lost : let s := memberOf 2
    (s.fld MAC_BEACON_STAT.MISS = 2 ∧ s.ops = [] ∧ (s.port s.macPort).lost = 0 ∧ 16 ≤ s.ringRoom s.macPort) ∧ let t := after .beaconMiss s
    t.fld MAC_BEACON_STAT.MISS = 3 ∧ t.on MAC_BEACON_STAT.LOST = true ∧ t.on MAC_BEACON_STAT.SCAN = true ∧
      t.mac.scanEnd = some (t.stamp + 16 * biFine 0) ∧ t.bytes 0x200000 16 = eventBytes 0x10 0x50 0 4095 0 t.stamp ∧
      (t.pt 4095 0x0A 2).testBit 7 = true ∧ t.pt 4095 0x2F 1 = 250 := by decide +kernel
theorem test_scanEnd : let s : State := { withRegs dev0 [(MAC_BEACON_STAT.off, 0x1C00)] with mac := { Mac.zero with scanEnd := some 600000 } }
    s.on MAC_BEACON_STAT.SCAN = true ∧ let t := after .scanEnd s
    t.on MAC_BEACON_STAT.SCAN = false ∧ t.mac.scanEnd = none ∧ t.fld MAC_BEACON_STAT.MISS = 3 := by decide +kernel

/-- A coordinator at tick `k` with `n` entries; partner `n − 1`, short address 7, is a member with cell byte 4 and a lease from
tick 0. -/
def coordinator (k n : Nat) : State :=
  withRegs (((dev (6000 * k) 0).putBytes (partner (n - 1) + 0x08) [7#8, 0#8, 0x05#8, 0x02#8]).putBytes (partner (n - 1) + 0x1C) [4#8])
    [(MAC_PTAB_BASE.off, 0x80000 + n * 0x100000), (MAC_ROLE.off, 0x83000000), (MAC_LEASE.off, 1), (MAC_SF_CFG.off, 0x14610)]

theorem test_leaseScan : let s := coordinator (2 * 1966080) 1
    (s.on MAC_ROLE.SF_EN = true ∧ s.partnerValid 0 = true ∧ (s.pt 0 0x0A 2).testBit 9 = true ∧ s.mac.leaseAt = 1966080) ∧
    let t := after .leaseScan s
    t.pt 0 0x1C 1 = 0xFF ∧ (t.pt 0 0x0A 2).testBit 9 = false ∧ (t.pt 0 0x0A 2).testBit 2 = false ∧
      (t.pt 0 0x0A 2).testBit 0 = true ∧ t.mac.queue = [(7, 4096)] ∧ t.mac.leaseAt = 3 * 1966080 ∧
      t.bytes 0x203000 16 = eventBytes 0x11 0x51 0 0 0 (6000 * 2 * 1966080) := by decide +kernel
theorem test_leaseScan_none : let s := coordinator 1966080 1
    let t := after .leaseScan s
    t.mac.leaseAt = 2 * 1966080 ∧ t.pt 0 0x1C 1 = 4 ∧ t.mac.queue = [] := by decide +kernel
theorem test_leaseExpiry : let s : State := { withRegs ((dev (6000 * 1966080) 0).putBytes (upRec + 0x14) [1#8])
        [(MAC_ROLE.off, 0x43000000), (MAC_SADDR.off, 7)] with mac := { Mac.zero with lastAcc := some 0 } }
    (s.ownLease = some (6000 * 1966080)) ∧ let t := after .leaseExpiry s
    t.fld MAC_SADDR.SADDR = 0xFFFE ∧ t.up 0x10 2 = 0xFFFF ∧ t.on MAC_BEACON_STAT.REL = true ∧
      t.bytes 0x203000 16 = eventBytes 0x11 0x51 0 0xFFFF 0 (6000 * 1966080) := by decide +kernel

/-- The coordinator's superframe from stamp 0, slot 4 about to end; `n` misses counted. -/
def slotEnds (n : Nat) (heard : List (Nat × Nat)) : State :=
  { (coordinator 160 4096).putBytes (partner 4095 + 0x0F) [BitVec.ofNat 8 n] with mac := { Mac.zero with sf0 := some 0, heard := heard } }

theorem test_assignedSlotEnd_hyps : let s := slotEnds 2 []
    s.ownSf = some 0 ∧ (assigned s.cont.1 s.cont.2).contains 4 = true ∧ s.slotDue 0 4 = (0, 960000) ∧ s.reach 960000 = true ∧
      s.isMember 4095 = true ∧ s.cellOf 4095 = some (4, 0, 0) := by decide +kernel
theorem test_assignedSlotEnd : let t := after (.assignedSlotEnd 4) (slotEnds 2 [])
    t.mac.done = 5 ∧ t.pt 4095 0x0F 1 = 3 ∧ t.pt 4095 0x1C 1 = 0xFF ∧ (t.pt 4095 0x0A 2).testBit 8 = true ∧
      t.bytes 0x203000 16 = eventBytes 0x12 0x14 0 4095 4 960000 := by decide +kernel
theorem test_missMember : ((slotEnds 2 [(4095, 0)]).missMember 4095 4 0 960000).pt 4095 0x0F 1 = 0 ∧
    let t := (slotEnds 0 []).missMember 4095 4 0 960000
    t.pt 4095 0x0F 1 = 1 ∧ t.pt 4095 0x1C 1 = 4 ∧ (t.pt 4095 0x0A 2).testBit 7 = true := by decide +kernel

/-! The wake receiver and the message layer's upkeep (WakeReceiverAndMessageUpkeep). -/

/-- The wake receiver on in Run, call word 3 enabled, address 0x1234, periodic calibration each 2^21 ticks, events to port 3. -/
def wkrDev (k : Nat) : State :=
  withRegs (dev (6000 * k) 0) [(WKR_CFG.off, 0x1234F831), (WKR_WORDn.off 3, 0xA5A5A5A5)]

theorem test_periodicCalibration : let s := wkrDev (2 ^ 21)
    (s.wkrListens = true ∧ s.fld WKR_CFG.CALINT = 1 ∧ s.reach (2 ^ 21 * 6000) = true) ∧ let t := after .periodicCalibration s
    t.on WKR_TUNE.CAL = true ∧ t.wkr = { s.wkr with cal := some (2 ^ 21), ref := 2 ^ 21 } := by decide +kernel
theorem test_wkrCalibrationEnd : let s : State := { withRegs (dev (6000 * 1536) 0) [(WKR_TUNE.off, 0xA0820CF0)] with wkr := { dev0.wkr with cal := some 0 } }
    (let t := after (.wkrCalibrationEnd 63 1 3315) s
     t.fld WKR_TUNE.CAP = 63 ∧ t.fld WKR_TUNE.FINE = 1 ∧ t.fld WKR_STAT.COUNT = 3315 ∧ t.on WKR_STAT.CALFAIL = true ∧
       t.fld WKR_STAT.CALFAIL_CNT = 1 ∧ t.fld WKR_TUNE.TARGET = 3312 ∧ t.on WKR_TUNE.CAL = false ∧
       t.wkr = { s.wkr with cal := none, blind := 1536 }) ∧
    (after (.wkrCalibrationEnd 0 0 3314) s).on WKR_STAT.CALFAIL = false := by decide +kernel

/-- A call of word `w`, class and target as given, with its CRC; its end at tick `k`. -/
def call (w : Word) (c a k : Nat) : CallObs :=
  let x := c * 2 ^ 16 + a
  ⟨w, BitVec.ofNat 32 (x * 256 + crc8 (beBytes 4 w.toNat ++ beBytes 3 x)), k⟩

theorem test_callReceived_none : let s := wkrDev 2000
    (s.touch.callHeard 2000 = true ∧ s.wkrListens = true ∧ s.callWord 0xA5A5A5A4#32 = none) ∧
      after (.callReceived (call 0xA5A5A5A4#32 5 0x1234 2000)) s = s := by decide +kernel
theorem test_callReceived_refused : let s := wkrDev 2000
    (let t := after (.callReceived { call 0xA5A5A5A5#32 5 0x1234 2000 with rest := 0#32 }) s
     t.fld WKR_FALSE_CNT.WORD_CNT = 1 ∧ t.fld WKR_FALSE_CNT.CRC_CNT = 1 ∧ t.wkr = { s.wkr with judged := 2000 }) ∧
    let t := after (.callReceived (call 0xA5A5A5A5#32 5 0x1235 2000)) s
    t.fld WKR_FALSE_CNT.FOREIGN_CNT = 1 ∧ t.wkr = { s.wkr with judged := 2000 } := by decide +kernel
theorem test_callReceived_judged : let s : State := { wkrDev 2000 with wkr := { dev0.wkr with judged := 1487 } }
    s.callHeard 2000 = false ∧ ({ s with wkr := { dev0.wkr with judged := 1486 } } : State).callHeard 2000 = true ∧
      after (.callReceived (call 0xA5A5A5A5#32 5 0x1234 2000)) s = s := by decide +kernel
theorem test_callReceived : (wkrDev 2000).touch.ringAfter 3 3 = 0 ∧ let t := after (.callReceived (call 0xA5A5A5A5#32 0xE0 0x1234 2002)) (wkrDev 2000)
    t.wkr.last = some (3, 0xE0, 0x1234, 2002) ∧ t.on WKR_STAT.ACC = true ∧ t.fld WKR_LAST.CLASS = 0xE0 ∧
      t.fld WKR_LAST.WORD = 3 ∧ t.fld WKR_LAST.MATCH = 0 ∧ t.fld WKR_LAST.TARGET = 0x1234 := by decide +kernel
theorem test_callReceived_dup : let s : State := { wkrDev 2000 with wkr := { dev0.wkr with last := some (3, 5, 0x1234, 1990) } }
    s.callDup 3 5 0x1234 2000 = true ∧ let t := after (.callReceived (call 0xA5A5A5A5#32 5 0x1234 2000)) s
    t.wkr = { s.wkr with judged := 2000 } ∧ t.fld WKR_STAT.ACC_CNT = 0 := by decide +kernel
theorem test_callReceived_asleep : let s (en : Nat) : State := { withRegs (wkrDev 2000) [(PWR_WAKE_EN.off, en)] with pwr := { dev0.pwr with st := .deep, core := false } }
    ((s 2).wkrListens = true ∧ (s 2).on PWR_WAKE_EN.WKR = true) ∧
    (let t := after (.callReceived (call 0xA5A5A5A5#32 5 0x1234 2000)) (s 2)
     t.pwr.st = .waking ∧ t.fld PWR_WAKE_LAST.FIRST = 2 ∧ t.pwr.boot = [(0, [t.reg WKR_LAST.off, 2000#32])]) ∧
    (after (.callReceived (call 0xA5A5A5A5#32 5 0x1234 2000)) (s 1)).pwr = (s 1).pwr := by decide +kernel

/-- The message layer runs, its events to port 3. -/
def msgDev : State := dev0.putBytes (msgCb 0x18) [7#8]

theorem test_messageLayerEnable_again : let s : State := { msgDev with msgEn := true }
    (s.awake = true) ∧ let t := after (.messageLayerEnable (.ctx 9)) s
    t.msgOn = true ∧ t.msgEn = true ∧ t.byte (msgCb 0x18) = 7#8 := by decide +kernel
theorem test_examineRec : let s := (msgDev.putBytes (msgRec 255) [0xFF#8, 0x0F#8, 9#8, 1#8]).putBytes (msgRec 255 + 0x14) [100#8]
    (s.recFld 255 3 1 = 1 ∧ s.recLocked 4095 9 = false ∧ s.msgRuns = true ∧ s.msgOn = true) ∧ let t := s.examineRec 255
    t.recFld 255 3 1 = 3 ∧ t.recFld 255 0x19 1 = 0x14 ∧ t.num (msgCb 0x2A) 2 = 1 ∧ t.recFld 255 0x1C 4 = 100 ∧
      t.bytes 0x203000 16 = eventBytes 0x20 0x14 0 255 4095 600000 := by decide +kernel
theorem test_examineTxn :
    let x (n : Nat) := ((msgDev.putBytes (partner 4095 + 0x0A) [BitVec.ofNat 8 n]).putBytes (msgTxn 255) [0xFF#8, 0x0F#8, 9#8, 1#8, BitVec.ofNat 8 n, 63#8]).putBytes
      (msgTxn 255 + 8) (leBytes 8 (100 * 65536) ++ [5#8])
    let s (n : Nat) : State := { x n with ctx := [(63, { Ctx.empty with st := .ready })] }
    ((s 0).responseRuns 4095 9 = false ∧ wordStamp ((s 0).txnFld 255 8 8) ≤ 600000) ∧ (let t := (s 0).examineTxn 255
     t.txnFld 255 3 1 = 3 ∧ t.txnFld 255 0x14 1 = 0x14 ∧ (t.cx 63).notices = [0xFF0014#32]) ∧
    let t := (s 1).examineTxn 255
    (s 1).partnerValid 4095 = true ∧ t.txnFld 255 3 1 = 1 ∧ t.txnFld 255 4 1 = 0 ∧ t.txnFld 255 8 8 = 105 * 65536 ∧
      (((s 1).putBytes (partner 4095 + 0x0A) [0#8]).examineTxn 255).txnFld 255 0x14 1 = 0x51 := by decide +kernel
theorem test_recordExamination_hyps : let s : State := { msgDev with time := (dev 576000 0).time }
    (s.multipleNow 5 = some 96 ∧ s.pwr.primed = true ∧ (s.moveTo 576000).ringAfter 3 0x20 = 0) ∧ msgDev.msgRuns = true ∧ msgDev.msgOn = true ∧ msgDev.marks = [] ∧
    msgDev.fld (HPn_RING_BASE.BASE (natBits (msgDev.num (msgCb 0x18) 1) 2 1)) = 0x203000 ∧ 16 ≤ msgDev.ringRoom 3 := by
  decide +kernel
theorem test_checkEngineStart : let o : EngOp := ⟨.absorb 0 9 4095 0 (some 255), some 9, 15, true, 0, false, 0, ⟨0, 0, 0⟩, 0, 0, [], [], none, 0, 0⟩
    let s : State := { withRegs (msgDev.putBytes (msgRec 255 + 0x0C) (leBytes 4 0x12345678)) [(CHKn_CFG.off 7, 0x8000031F)] with
      engs := [(5, some o)] }
    (s.lent 7 = true ∧ (s.chkEng 7).op = none ∧ s.crcQueue = [(5, o)]) ∧ let t := after (.checkEngineStart 7) s
    t.chkEng 7 = ⟨some 5⟩ ∧ t.eng 5 = some { o with started := true } ∧ t.reg (CHKn_POLY.off 7) = 0x04C11DB7#32 ∧
      t.reg (CHKn_VALUE.off 7) = 0x12345678#32 := by decide +kernel

/-! The clock multipliers (ClockMultipliersLockAndLose). -/

/-- Both references present, both multipliers with the state given. -/
def clocks (cmc cmr : Nat) : State :=
  { withRegs dev0 [(CLK_STAT.off, 0x70000000), (SYS_FAULT.off, 0)] with
    cmc := { dev0.cmc with st := cmc }, cmr := { dev0.cmr with st := cmr } }

theorem test_lockSequenceStart : let s := clocks 1 0
    (s.powered = true ∧ s.multOn .cmc = true ∧ s.refHere .cmc = true ∧ s.multOn .cmr = true ∧ s.refHere .cmr = true) ∧
    (let t := after (.lockSequenceStart .cmc) s
     (t.cmc.st, t.cmc.n, t.cmc.start, t.cmc.settle) = (2, 6000, 600000, 13) ∧ t.cmr = s.cmr ∧ t.on CLK_STAT.CMC_SUBST = false) ∧
    let t := after (.lockSequenceStart .cmr) s
    (t.cmr.st, t.cmr.n, t.cmr.start, t.cmr.settle) = (2, 32, 600000, 1344) := by decide +kernel
theorem test_lockSequenceStart_subst : let s := withRegs (clocks 1 5) [(CLK_STAT.off, 0x10000000)]
    s.refHere .cmc = true ∧ (after (.lockSequenceStart .cmc) s).on CLK_STAT.CMC_SUBST = true := by decide +kernel

/-- A lock sequence of `x` from stamp 0 whose count is due. -/
def locking (x : Mult) (other attempt : Nat) : State :=
  let m : MultSt := { dev0.cmc with st := 2, n := multN x 0, start := 0, settle := 0, stop := none }
  let s := withRegs (clocks other other) [(CLK_CMn_STAT.off (multIx x), 0x1770 + attempt * 2 ^ 26), (CLK_CTRL.off, 0xD)]
  s.setMult x m

theorem test_lockDeclared_hyps : let s : State := { locking .cmc 5 1 with pwr := { dev0.pwr with st := .waking } }
    (s.cmc.st = 2 ∧ s.cmr.st = 5 ∧ s.pwr.core = true ∧ s.reach (0 + pfdFine .cmc 6000 40) = true ∧
      8 * ((24750 : Int) - 4 * 6000).natAbs ≤ 6000) ∧
    (locking .cmr 5 0).reach (0 + pfdFine .cmr 32 40) = true ∧ 8 * ((132 : Int) - 4 * 32).natAbs ≤ 32 := by decide +kernel
theorem test_lockDeclared_early : after (.lockDeclared .cmr 0 133) (locking .cmr 5 0) = locking .cmr 5 0 := by decide +kernel
theorem test_lockAttemptFail_hyps : let s (n : Nat) := locking .cmr 5 n
    (s 0).cmr.st = 2 ∧ (s 0).reach (0 + pfdFine .cmr 32 24) = true ∧ (s 0).fld (CLK_CMn_STAT.ATTEMPT 1) = 0 ∧
      (s 1).fld (CLK_CMn_STAT.ATTEMPT 1) = 1 ∧ (s 1).pwr.st ≠ .waking := by decide +kernel
theorem test_lossOfLock_hyps : let s := clocks 5 5
    s.cmc.st = 5 ∧ s.lanes = [] ∧ s.rslots = [] ∧ s.reqs = [] ∧ s.ops = [] ∧ s.faultAny = false ∧ s.fld SYS_FAULT.EV = 0 := by
  decide +kernel
theorem test_lossOfLock_onAir_hyps : let o := { onAirOp with ctx := some 9, d := 15 }
    let s := waits3 (clocks 5 5) o
    s.cmr.st = 5 ∧ s.ops = [(3, some o)] ∧ o.kind = .txf ∧ o.phase = .onAir ∧ (s.cx 9).susp = .radio 3 := by decide +kernel
theorem test_lossOfReference_cmc : let s := withRegs (clocks 5 5) [(CLK_STAT.off, 0x50000000)]
    (s.refGone .cmc = true) ∧ (let t := after (.lossOfReference .cmc) s
     t.cmc.st = 1 ∧ t.on (CLK_CMn_STAT.REFLOSS 0) = true ∧ t.fld (lossFld .cmc).2 = 1 ∧ t.fld SYS_FAULT.LAST_KIND = 3) ∧
    let u : State := { s with cmc := { s.cmc with st := 2 } }
    (after (.lossOfReference .cmc) u).cmc.st = 1 ∧ (after (.lossOfReference .cmc) u).mem = u.mem := by decide +kernel
theorem test_lossOfReference_cmr : let s : State := { withRegs (clocks 5 5) [(RFA_CHAIN_CFG.off, 0x72)] with
      syb := { dev0.syb with phase := .locked }, sya := { dev0.sya with phase := .settling } }
    s.on CLK_STAT.REF_OK = true ∧ let t := after (.lossOfReference .cmr) s
    t.on CLK_STAT.REF_OK = false ∧ t.syb.phase = .settling ∧ t.on (synUnlkFld .syb).1 = true ∧ t.sya = s.sya ∧ t.syt = s.syt ∧
      t.cmr.st = 1 ∧ t.on (CLK_CMn_STAT.REFLOSS 1) = true ∧
      (after (.lossOfReference .cmr) { s with cmr := { s.cmr with st := 6 } }).cmr.st = 6 := by decide +kernel
theorem test_tcxoPresent : let s : State := { withRegs dev0 [(CLK_STAT.off, 0x40000000)] with pins := { dev0.pins with tcxoEn := true } }
    (s.powered = true ∧ s.reach (s.pwr.tcxoAt + usFine (s.fld CLK_TCXO_CFG.STARTUP) * 96 / 100) = true) ∧
      (after .tcxoPresent s).on CLK_STAT.REF_OK = true := by decide +kernel
theorem test_fboMeasure : let s : State := { clocks 5 5 with time := (dev 384000 0).time }
    s.tick % 64 = 0 ∧ (after (.fboMeasure 0xFFFF) s).fld CLK_FBO_TRIM.MEAS = 0xFFFF ∧
      after (.fboMeasure 0xFFFF) (clocks 5 5) = clocks 5 5 := by decide +kernel

/-! Power states and waking (PowerStatesAndWaking). -/

/-- A quiet device with a pending request, a byte in each of PGM, DATA and PTB, a parked context and launchers 3 and 4 armed, 3
kept. -/
def asking (req : Nat) : State :=
  let s := ((dev0.putBytes 0x3FFFF [1#8]).putBytes 0x4FFFF [2#8]).putBytes 0xBFFFF [3#8]
  { withRegs s [(CVN_Ln_ACT.off 3, 0x04000000), (PWR_RET_CFG.off, 2)] with
    pwr := { s.pwr with req := req }
    ctx := [(63, { Ctx.empty with st := .parked .time, susp := .twait 700000 })]
    lnch := [(3, { Lnch.off with armed := true }), (4, { Lnch.off with armed := true })]
    cmc := { s.cmc with st := 5 }, cmr := { s.cmr with st := 6 } }

theorem test_quietPoint_sleep : let s := asking 1
    (s.serves = true ∧ s.quiet = true ∧ s.ops = []) ∧ let t := after .quietPoint s
    t.pwr.st = .sleep ∧ t.pwr.req = 0 ∧ t.pwr.core = false ∧ t.cmc.st = 0 ∧ t.cmr.st = 0 ∧ t.ctx = s.ctx ∧ t.lnch = s.lnch ∧
      t.byte 0x3FFFF = 0#8 ∧ t.byte 0x4FFFF = 2#8 ∧ t.byte 0xBFFFF = 3#8 := by decide +kernel
theorem test_quietPoint_deep : let s := asking 2
    let t := after .quietPoint s
    t.pwr.st = .deep ∧ t.ctx = [] ∧ t.byte 0x3FFFF = 0#8 ∧ t.byte 0x4FFFF = 2#8 ∧ t.launcher 3 = s.launcher 3 ∧
      (t.launcher 4).armed = false := by decide +kernel
theorem test_quietPoint_off : let t := after .quietPoint (asking 3)
    t.pwr.st = .off ∧ t.mem = [] ∧ t.ctx = [] ∧ t.regs = [] ∧ t.lnch = [] := by decide +kernel
theorem test_graceExpiry : let s (r : Nat) : State := { dev (msFine 10) 0 with
      pwr := { dev0.pwr with req := r }, ctx := [(0, { Ctx.empty with st := .ready })] }
    ((s 2).serves = true ∧ (s 2).quiet = false ∧ (s 2).fld PWR_REQ.GRACE = 10 ∧ (s 2).reach (msFine 10) = true) ∧
    (let t := after .graceExpiry (s 2)
     t.pwr.req = 0 ∧ t.pwr.st = .run ∧ t.on PWR_STATE.REFUSED = true ∧ t.fld PWR_STATE.REFUSED_CNT = 1) ∧
    (after .graceExpiry (s 3)).pwr.st = .off := by decide +kernel
theorem test_wakePin : let s : State := { withRegs dev0 [(PWR_WAKE_LAST.off, 0x800000FF)] with pwr := { dev0.pwr with st := .deep, core := false } }
    (s.on PWR_WAKE_EN.PIN = true) ∧ (let t := after .wakePin s
     t.pwr.st = .waking ∧ t.fld PWR_WAKE_LAST.FIRST = 1 ∧ t.fld PWR_WAKE_LAST.SOURCES = 1 ∧ t.fld PWR_WAKE_LAST.FROM = 3 ∧
       t.on PWR_WAKE_LAST.OVR = true ∧ t.fld PWR_WAKE_LAST.WAKE_CNT = 0 ∧ t.fld PWR_WAKE_TIME_LO.TICKS_LO = 100) ∧
    after .wakePin dev0 = dev0 := by decide +kernel
theorem test_selectFallWake : let s : State := { withRegs dev0 [(PWR_WAKE_EN.off, 0x20)] with pwr := { dev0.pwr with st := .sleep, core := false } }
    (s.on (HPn_CASC_CFG.EN 3) = false) ∧ let t := after (.selectFallWake 3) s
    t.pwr.st = .waking ∧ t.fld PWR_WAKE_LAST.FIRST = 4 ∧ t.fld PWR_WAKE_LAST.PORT = 3 ∧
      t.fld PWR_WAKE_TIME_LO.TICKS_LO = 101 ∧ (t.port 3).woke = true := by decide +kernel
theorem test_wakeFromOff : let t := after .wakeFromOff { dev0 with pwr := { dev0.pwr with st := .off } }
    t.pwr.st = .starting ∧ t.fld PWR_WAKE_LAST.FROM = 1 ∧ t.fld PWR_WAKE_LAST.WAKE_CNT = 1 ∧ t.mem = [] := by decide +kernel
theorem test_wakeCoreReady : let s (from_ : Nat) : State := { withRegs dev0 [(PWR_WAKE_LAST.off, from_ * 2 ^ 27), (PWR_RET_CFG.off, 2), (HPn_RING_HEAD.off 3, 16)] with
      pwr := { dev0.pwr with st := .waking, core := false }, slots := [(768, { Slot.fresh with st := .done, gen := 63 })] }
    ((s 2).reach (usFine 200) = true ∧ (s 2).upSync = false) ∧ (let t := after .wakeCoreReady (s 2)
     t.pwr.core = true ∧ t.fld PWR_STATE.CLR = 57 ∧ t.fld (HPn_RING_HEAD.HEAD 3) = 0 ∧ t.slots = (s 2).slots) ∧
    let t := after .wakeCoreReady (s 3)
    t.fld PWR_STATE.CLR = 61 ∧ (t.slot 3 0).st = .free ∧ (t.slot 3 0).gen = 1 ∧ (t.slot 3 255).gen = (s 3 |>.slot 3 255).gen + 1 := by
  decide +kernel
theorem test_wakeCoreReady_start : let t := after .wakeCoreReady { dev0 with pwr := { State.reset.pwr with st := .starting } }
    t.pwr.st = .run ∧ t.pwr.core = true ∧ t.fld PWR_STATE.CLR = 63 := by decide +kernel
theorem test_clearingEnd : let t := after (.clearingEnd .erg) (withRegs dev0 [(PWR_STATE.off, 0x3F00)])
    t.fld PWR_STATE.CLR + 2 ^ Bank.erg.code = 63 := by decide +kernel
theorem test_ckRadioWaitExpiry : let s (core : Bool) : State := { dev0 with
      pwr := { dev0.pwr with st := .waking, core := core, noRadio := false }, cmr := { dev0.cmr with st := 1 }, cmc := { dev0.cmc with st := 5 } }
    (s true).reach ((s true).pwr.tcxoAt + usFine 2100) = true ∧ (after .ckRadioWaitExpiry (s true)).pwr.st = .run ∧
      (after .ckRadioWaitExpiry (s false)).pwr.st = .waking ∧ (after .ckRadioWaitExpiry (s false)).pwr.noRadio = true := by
  decide +kernel
theorem test_idleEntry : let s := withRegs dev0 [(PWR_REQ.off, 0xA01)]
    s.idleNow = true ∧ (after .idleEntry s).pwr.st = .idle := by decide +kernel

/-! Reset, start-up and the Brush (ResetStartupAndBrush). -/

theorem test_resetNLow : let s : State := { asking 1 with pins := { dev0.pins with gpIn := [(15, true)], paEn := true } }
    let t := after .resetNLow s
    t.regs = [] ∧ t.mem = [] ∧ t.keys = [] ∧ t.ctx = [] ∧ t.pwr.st = .inReset ∧ t.pins.gpIn = [(15, true)] ∧ t.pins.paEn = false ∧
      t.time.now = 0 := by decide +kernel
theorem test_resetNRelease : let s : State := { dev0 with pwr := { dev0.pwr with st := .inReset } }
    let t := after .resetNRelease s
    t = { State.reset with pins := t.pins, pwr := t.pwr } ∧ t.pwr.st = .starting := by decide +kernel
theorem test_primerStartup_hyps : let s : State := { dev0 with pwr := { dev0.pwr with primed := false } }
    s.awake = true ∧ s.pwr.primed = false ∧
      (crc32 (s.bytes 0xF00000 8188) = s.num (0xF00000 + 8188) 4 ∨ crc32 (s.bytes 0xF00000 8188) ≠ s.num (0xF00000 + 8188) 4) :=
  ⟨by decide +kernel, by decide +kernel, em _⟩
theorem test_scrubWriteBack : let s : State := { dev0 with marks := [(0x20000, .single), (0x40000, .bad)], scrub := [0x20000] }
    (s.scrub.contains 0x20000 = true) ∧ let t := after (.scrubWriteBack 0x20000) s
    t.marks = [(0x40000, .bad)] ∧ t.scrub = [] := by decide +kernel

/-- The Brush on, the last region of the Erg due, banks MSG and Erg walked; word 0xFFFFF has a single error. -/
def brushing : State :=
  { withRegs dev0 [(MEM_WALK_CFG.off, 0xF0000001), (MEM_WALK_POS.off, 107519), (SYS_FAULT.off, 0)] with
    marks := [(0xFFFFF, .single)] }

theorem test_brushRegionStart : let s := brushing
    (s.msgRuns = true ∧ s.brush.busy = none ∧ s.reach (s.brush.at_ + usFine (s.fld MEM_WALK_CFG.INTERVAL)) = true ∧
      s.regionFrom 107519 = some 107519 ∧ regionAddr 107519 = 0x7FFFC0 ∧ (0xFFFFF ∈ wordsOf 0x7FFFC0 64)) ∧
    let t := after .brushRegionStart s
    t.brush.busy = some 107519 ∧ t.brush.at_ = 600000 ∧ t.marks = [] ∧ t.fld MEM_WALK_POS.REGION = 25600 ∧ t.mem = s.mem := by
  decide +kernel
theorem test_brushRegionStart_skips : let s := withRegs brushing [(MEM_WALK_POS.off, 5)]
    s.regionFrom 5 = some 25600 ∧ s.lastWalked 25600 = false ∧ let t := after .brushRegionStart s
    t.brush.busy = some 25600 ∧ t.fld MEM_WALK_POS.REGION = 25601 := by decide +kernel
theorem test_regionTestEnd : let s : State := { brushing with brush := { dev0.brush with busy := some 107519 } }
    (s.lastWalked 107519 = true ∧ s.on MEM_WALK_CFG.SPARE_EN = true) ∧ (let t := after (.regionTestEnd ⟨false, []⟩) s
     t.brush.busy = none ∧ t.fld MEM_WALK_STAT.PASSES = 1) ∧
    (let t := after (.regionTestEnd ⟨true, [0, 1, 2, 3, 4, 5, 6]⟩) s
     t.brush.used = [47] ∧ t.brush.bad = [40, 41, 42, 43, 44, 45, 46] ∧ Tab.get (fun _ => 0) t.brush.map 107519 = 48 ∧
       t.on MEM_WALK_STAT.REPAIR = true ∧ t.fld SYS_FAULT.LAST_KIND = 0x14 ∧
       t.num (faultAddr (s.fld SYS_FAULT_LOG.HEAD) + 12) 4 = 107519 + 7 * 2 ^ 24) ∧
    let t := after (.regionTestEnd ⟨true, []⟩) (withRegs s [(MEM_WALK_CFG.off, 0xB0000001)])
    t.on MEM_WALK_STAT.NOSPARE = true ∧ t.fld MEM_WALK_STAT.NOSPARE_CNT = 1 ∧ t.fld SYS_FAULT.LAST_KIND = 0x15 := by decide +kernel

/-! The CVN line (LineCodeAndWorkerLoop). -/

/-- A root whose counter stands at stamp `now`. -/
def root (now : Nat) : State := withRegs (dev now 0) [(CVN_LINE_CFG.off, 0x80001430), (CAS_ROLE.off, 0x40000000)]

theorem test_syncPulse : let s := root (192000 * 33)
    (s.msgRuns = true ∧ s.on CVN_LINE_CFG.EN = true ∧ s.fld CAS_ROLE.ROLE = 1 ∧ s.pins.cvn ≠ 32 * 33) ∧
      after .syncPulse s = { s with pins := { s.pins with cvn := 1056 } } ∧ after .codeMarker s = s := by decide +kernel
theorem test_codeMarker : let s := root (192000 * 32)
    let t := after .codeMarker s
    after .syncPulse s = s ∧ t.pins.cvn = 1024 ∧ t.pins.code / 2 ^ 16 = 1024 ∧ t.pins.code.testBit 9 = false ∧
      t.pins.code % 256 = crc8 (beBytes 7 (t.pins.code / 256)) := by decide +kernel

/-- A worker in line state `st` at stamp `now`; LOCKWIN 20 and LOSS 3. -/
def worker (now st : Nat) (l : Line) : State :=
  { withRegs (dev now 0) [(CVN_LINE_CFG.off, 0x80001430), (CAS_ROLE.off, 0x80000000), (CVN_LINE_STAT.off, st * 4096),
      (CVN_DELAY.off, 102), (SYS_FAULT.off, 0)] with line := l }

/-- A line that saw its last edge at 0. -/
def noEdge : Line := ⟨0, none, 0, 0, 0, true, 0, false⟩

theorem test_lineEdge_acquiring : let s := worker 192030 1 { noEdge with good := 1 }
    (s.awake = true ∧ s.lineOwns = true ∧ s.lineDelay = 10 ∧ s.reach 192030 = true) ∧
    (let t := after (.lineEdge ⟨192030, 32, true⟩) s
     t.fld CVN_LINE_STAT.STATE = 2 ∧ t.line.err = 20 ∧ t.line.marker = some 192030) ∧
    (let t := after (.lineEdge ⟨192030, 32, false⟩) { s with line := noEdge }
     t.fld CVN_LINE_STAT.STATE = 1 ∧ t.line.good = 1) ∧
    let t := after (.lineEdge ⟨192031, 32, false⟩) (worker 192031 1 { noEdge with good := 1 })
    t.fld CVN_LINE_STAT.STATE = 1 ∧ t.line.good = 0 ∧ t.line.timed = false := by decide +kernel
theorem test_lineEdge_locked : let s := worker 191990 2 { noEdge with miss := 2 }
    (let t := after (.lineEdge ⟨191990, 32, false⟩) s
     t.line.err = -20 ∧ t.line.miss = 0 ∧ t.time.slew = -20 ∧ t.time.slewLeft = 32 ∧
       signed 32 (t.fld CVN_RATE_TRIM.TRIM) = roundDiv (-20) 8 ∧ t.fld CVN_LINE_STAT.ERR = 1004) ∧
    (let t := after (.lineEdge ⟨191989, 32, false⟩) { worker 191989 2 { noEdge with miss := 2 } with lnch := [] }
     t.fld CVN_LINE_STAT.STATE = 2 ∧ t.line.miss = 3) ∧
    (let t := after (.lineEdge ⟨191989, 32, false⟩) (worker 191989 2 { noEdge with miss := 3 })
     t.fld CVN_LINE_STAT.STATE = 1 ∧ t.line.timed = false ∧ t.line.miss = 0) ∧
    let t := after (.lineEdge ⟨193011, 32, false⟩) (worker 193011 2 noEdge)
    t.fld CVN_LINE_STAT.STATE = 1 ∧ t.time.slewLeft = 0 := by decide +kernel
theorem test_lineEdge_other : (after (.lineEdge ⟨192030, 32, false⟩) (worker 192030 3 noEdge)).fld CVN_LINE_STAT.STATE = 3 := by
  decide +kernel

/-- The time code of a tick with its CRC, RSUB set. -/
def codeOf (tick : Nat) : BitVec 64 :=
  let x := tick * 2 ^ 8 + 2
  BitVec.ofNat 64 (x * 256 + crc8 (beBytes 7 x))

/-- A worker whose marker came at 6144010, its 64 cells ended. -/
def coded (st bad : Nat) : State := worker (6144010 + usFine 660) st { noEdge with marker := some 6144010, bad := bad }

theorem test_timeCode_bad : let s := coded 1 0
    (s.reach (6144010 + usFine 660) = true) ∧ let t := after (.timeCode (codeOf 1024 ^^^ 1#64)) s
    t.on CVN_LINE_STAT.CODEERR = true ∧ t.fld CVN_LINE_STAT.CODE_CNT = 1 ∧ t.line = { s.line with marker := none } := by
  decide +kernel
theorem test_timeCode_sets : let x (n : Nat) : Lnch := { Lnch.off with armed := true, stamp := 6144010 + usFine 660 + n }
    let s : State := { coded 1 0 with lnch := [(0, x 5999), (31, x 6000)] }
    (let t := after (.timeCode (codeOf 1025)) s
     t.time.now = s.time.now + 6000 ∧ (t.launcher 0).late = true ∧ (t.launcher 31).late = false ∧ t.on CVN_LINE_STAT.RSUB = true ∧
       t.line.timed = true) ∧
    let t := after (.timeCode (codeOf 1023)) s
    t.time.now = s.time.now ∧ t.time.hold = 6000 ∧ t.lnch = s.lnch := by decide +kernel
theorem test_timeCode_locked : (let t := after (.timeCode (codeOf 1024)) (coded 2 1)
     t.fld CVN_LINE_STAT.STATE = 2 ∧ t.line.bad = 0 ∧ t.on CVN_LINE_STAT.CODEERR = false) ∧
    (let t := after (.timeCode (codeOf 1025)) (coded 2 0)
     t.fld CVN_LINE_STAT.STATE = 2 ∧ t.line.bad = 1 ∧ t.on CVN_LINE_STAT.CODEERR = true) ∧
    (let t := after (.timeCode (codeOf 1025)) (coded 2 1)
     t.fld CVN_LINE_STAT.STATE = 1 ∧ t.line.bad = 0 ∧ t.line.timed = false) ∧
    let t := after (.timeCode (codeOf 1024)) (coded 3 0)
    t.fld CVN_LINE_STAT.STATE = 1 ∧ t.line.timed = false ∧ t.on CVN_LINE_STAT.RSUB = true := by decide +kernel
theorem test_holdover : let s := worker 576000 1 noEdge
    (s.lineOwns = true ∧ s.fld CVN_LINE_CFG.LOSS = 3 ∧ s.reach 576000 = true) ∧ let t := after .holdover s
    t.fld CVN_LINE_STAT.STATE = 3 ∧ t.on CVN_LINE_STAT.HOLD = true ∧ t.fld CVN_LINE_STAT.HOLD_CNT = 1 ∧
      t.fld SYS_FAULT.LAST_KIND = 0x22 := by decide +kernel

/-! Cascade frames (CascadeFramesEnd). -/

/-- Port 3 a cascade port with the frames given. -/
def casc3Of (l : List Casc) : State := { manager with casc3 := l, ctx := [(9, { Ctx.empty with st := .parked .engine, susp := .cas 15 })] }

/-- The run of two words to worker 7, image at 0x2F0000, one word sent. -/
def run7 : Casc := .run 7 [0#32] 2 0xF000 ⟨5, 0, 0⟩

/-- A forward of context 9, submitted for the first time or again. -/
def fwd7 (again : Bool) (stamp : Nat) : Casc := .fwd 9 15 7 [] again ⟨stamp, 0, 0⟩

theorem test_cascadeFrameEnd_run : let s := casc3Of [run7, fwd7 false 8, fwd7 true 7]
    (s.awake = true ∧ (s.port 3).casc = true ∧ s.on (HPn_CASC_CFG.EN 3) = true ∧ s.marks = []) ∧
    (let t := after (.cascadeFrameEnd 3 ⟨[1#32, 0x80000002#32, 3#32], 70000⟩) s
     t.num 0x2F0008 4 = 1 ∧ t.num 0x2F000C 4 = 0x80000002 ∧ t.num 0x2F0010 4 = 0 ∧ t.fld CAS_STAT.NGOT = 2 ∧
       t.on CAS_STAT.DONE = true ∧ t.fld (CAS_LINE_DELAYn.RTT 7) = 65535 ∧ t.casc3 = [fwd7 true 7, fwd7 false 8]) ∧
    let t := after (.workerTimeout 3 ⟨[], 0⟩) s
    t.fld CAS_STAT.NGOT = 0 ∧ t.on CAS_STAT.TMO = true ∧ t.fld CAS_STAT.DONE_CNT = 0 := by decide +kernel
theorem test_cascadeFrameEnd_fwd : let s (again : Bool) := casc3Of [fwd7 again 5, run7]
    ((s true).cx 9).susp = .cas 15 ∧
    (let t := after (.cascadeFrameEnd 3 ⟨[0x80008123#32], 40⟩) (s false)
     (t.cx 9).rd 15 = 0x81230000#32 ∧ (t.cx 9).st = .ready ∧ (t.cx 9).z = true ∧ t.casc3 = [run7]) ∧
    (let t := after (.cascadeFrameEnd 3 ⟨[0x8000C060#32], 40⟩) (s false)
     (t.cx 9).rd 15 = 0xC0600060#32 ∧ (t.cx 9).z = false) ∧
    (let t := after (.cascadeFrameEnd 3 ⟨[0x8123#32], 40⟩) (s true)
     (t.cx 9).rd 15 = 0x14#32) ∧
    (let t := after (.cascadeFrameEnd 3 ⟨[0x8123#32], 40⟩) (s false)
     t.casc3 = [fwd7 true 5, run7] ∧ t.ctx = (s false).ctx ∧ t.on (CAS_LINE_DELAYn.VALID 7) = true) ∧
    ((after (.workerTimeout 3 ⟨[], 0⟩) (s false)).cx 9).rd 15 = 0x14#32 := by decide +kernel

/-! Clauses of statements above at a boundary of their own hypotheses: stores that wait, occurrences due, claims, clocks, wakes. -/

theorem test_arm_not_due : let s : State := { dev0 with lnch := [(31, { Lnch.off with armed := true, action := 2, stamp := 6000000 })] }
    ((s.launcher 31).action ≠ 1 ∧ s.coreCycle s.moment.stamp < s.coreCycle (s.launcher 31).stamp) ∧
      let t := after (.cancel (.host 0) 31 0x20000000#32) s
      t.launcher 31 = Lnch.off ∧ t.on (CVN_Ln_ACT.FIRED 31) = false := by decide +kernel
theorem test_cancel_due : let s : State := { dev0 with lnch := [(31, armed 0 0 0 0)] }
    ((s.launcher 31).late = false ∧ (s.launcher 31).wait = none ∧ (s.launcher 31).stamp ≤ s.moment.stamp) ∧
      let t := after (.cancel (.host 0) 31 0x20000000#32) s
      t.launcher 31 = Lnch.off ∧ t.on (CVN_Ln_ACT.FIRED 31) = true := by decide +kernel

/-- Context 1 runs `w` with `n` posted stores of a byte at `a`; message record 255 is under a locked access. -/
def posting (w : Nat) (g : Tab Word) (a n : Nat) : State :=
  let s := easel w g
  { s with
    ctx := [(1, { s.cx 1 with posted := List.replicate n ⟨a, [7#8], .none⟩ })]
    engs := [(0, some (.new (.absorb 0x100000 67 5 0 (some 255)) (some 2) 3 true 0 0 ⟨0, 0, 0⟩))] }

theorem test_store_ninth : let w := fi 27 2 1 0
    let g : Tab Word := [(1, 0x80000#32), (2, 0xCD#32)]
    let held := posting w g (msgRec 255 + 63) 8
    let free := posting w g 0x90000 8
    (fetchesB held 1 w = true ∧ held.storeHeld 1 = true ∧ let c := (after (.opStb 1 .clean) held).cx 1
      c.st = .parked .memory ∧ c.susp = .retry ∧ c.p = 0x400#22) ∧
    (free.storeHeld 1 = false ∧ let c := (after (.opStb 1 .clean) free).cx 1
      c.st = .ready ∧ c.posted.length = 8 ∧ c.posted.getLast? = some ⟨0x80000, [0xCD#8], .none⟩) := by decide +kernel
theorem test_postedStoreComplete_resumes : let s : State := { dev0 with
      ctx := [(63, { Ctx.empty with st := .parked .memory, susp := .retry, posted := [⟨0x80007, [0x5A#8], .none⟩] })] }
    (s.cx 63).st = .parked .memory ∧ let c := (after (.postedStoreComplete 63 .clean) s).cx 63
      c.st = .ready ∧ c.susp = .none ∧ c.posted = [] ∧ c.since = 600000 := by decide +kernel
theorem test_halt_held : let s := posting (fr 36 0 0 0 0) [] (msgRec 255) 1
    (fetchesB s 1 (fr 36 0 0 0 0) = true ∧ s.storesHeld 1 = true ∧ ((after (.opHalt 1 .clean) s).cx 1).st = .parked .memory) ∧
    ((after (.opFail 1 .clean) (posting (fr 37 0 0 0 0x10) [] (msgRec 255) 1)).cx 1).st = .parked .memory ∧
    let u := posting (fr 36 0 0 0 0) [] 0x90000 1
    u.storesHeld 1 = false ∧ ((after (.opHalt 1 .clean) u).cx 1).st = .free ∧ (after (.opHalt 1 .clean) u).byte 0x90000 = 7#8 := by
  decide +kernel
theorem test_free_held : let w := fr 63 0 0 0 0x21
    let s : State := { posting w [] (msgRec 255) 1 with sems := [(0, ⟨some 1, []⟩)] }
    s.storesHeld 1 = true ∧ (after (.opFree 1 .clean) s).sem 0 = ⟨some 1, []⟩ ∧
      ((after (.opFree 1 .clean) s).cx 1).st = .parked .memory := by decide +kernel
theorem test_trap_held : let s := posting (fi 0x2F 0 0 0) [] (msgRec 255) 1
    s.storesHeld 1 = true ∧ ((after (.opcodeTrap 1 .clean) s).slot 0 9).st = .running 1 ∧
      (easel (fi 0x2F 0 0 0) []).storesHeld 1 = false := by decide +kernel
theorem test_sig_event : let w := fr 62 0 1 2 (0x400 + 0x80 * 4 + 3)
    let s := two w [(1, 63#32), (2, 0x18001#32)] { Ctx.empty with st := .ready }
    fetchesB s 1 w = true ∧ (s.port 3).lost = 0 ∧ s.ringAfter 3 0x80 = 0 ∧ let t := after (.opSig 1 .clean) s
      (t.cx 63).user = 0x8001 ∧ (t.cx 1).z = true ∧ t.on (HPn_IRQ_FLAG.EVENT 3) = true := by decide +kernel
theorem test_chk_busy : let w := fr 59 3 1 2 0x200F
    let s : State := { easel w [(1, 0x100000#32), (2, 9#32)] with chk := [(7, ⟨some 40⟩)], engNext := 41 }
    (fetchesB s 1 w = true ∧ s.on (CHKn_CFG.MSG 7) = false ∧ (s.chkEng 7).op ≠ none) ∧
      (let t := after (.opChk 1 .clean) s
       (t.eng 41).map (·.kind) = some (.chk 7 0x100000 9 true false) ∧ t.chkEng 7 = ⟨some 40⟩) ∧
      (let u := withRegs s [(CHKn_CFG.off 7, 0x80000000)]
       u.on (CHKn_CFG.MSG 7) = true ∧ ((after (.opChk 1 .clean) u).cx 1).rd 3 = 0x60#32) := by decide +kernel
theorem test_engineOperationEnd_report : let o : EngOp := .new (.report 0xFFFF0000) (some 1) 3 true 0 0 ⟨0, 0, 0⟩
    let s : State := { dev0 with engs := [(9, some o)], ctx := [(1, { Ctx.empty with st := .parked .engine, susp := .engine 9 })] }
    s.eng 9 = some o ∧ let t := after (.engineOperationEnd 9 .clean) s
      t.eng 9 = none ∧ (t.cx 1).rd 3 = 0xFFFF0000#32 ∧ (t.cx 1).z = true := by decide +kernel
theorem test_requestPromoted_early : let s : State := withRegs { dev 600000 606000 with
      ctx := [(63, { Ctx.empty with st := .ready, since := 600000 })] } [(SEQ_AGE_LIMIT.off, 1)]
    s.reach (600000 + 6000 + 1) = false ∧ after (.requestPromoted (.issue 63)) s = s := by decide +kernel
theorem test_claimGrant_aes : let s : State := { dev0 with
      engs := [(3, some { sealOp with ctx := some 7 })]
      ctx := [(7, { Ctx.empty with st := .parked .well, susp := .engine 3 })]
      well := ⟨[], [claim (.aes 2) 3 0 5 false], []⟩ }
    (s.wellUsed + 3 ≤ 2 * s.fld WELL_BUDGET.BUDGET) ∧ let t := after .claimGrant s
    t.holds (.aes 2) = true ∧ (t.cx 7).st = .parked .engine := by decide +kernel
theorem test_multiples : (dev (6000 * 2 ^ 21) 0).multipleNow 21 = some (2 ^ 21) ∧ (dev 0 0).multipleNow 21 = some 0 ∧
    (dev (6000 * 2 ^ 22) 0).multipleNow 22 = some (2 ^ 22) ∧ (dev (6000 * 2 ^ 21 + 1) 0).multipleNow 21 = none := by decide +kernel
theorem test_selfMeasure_learns :
    let s : State := withRegs { dev0 with
        cmr := ⟨5, 32, 0, 0, none, (0, 0)⟩, time := { dev0.time with selfEdges := 2 ^ 19 + 3 } }
      [(CVN_CFG.off, 0x80000000), (CLK_STAT.off, (dev0.reg CLK_STAT.off).toNat ||| 2 ^ CLK_STAT.REF_OK.lo)]
    (s.on CVN_CFG.SELF_EN = true ∧ s.qual = true ∧ s.on CLK_STAT.REF_OK = true ∧ 2 ^ 19 ≤ s.time.selfEdges) ∧
      let t := after (.selfMeasure 2457600000) s
      t.time.selfEdges = 3 ∧ 64 ≤ t.fld CVN_SELF_MODEL.SUNC ∧ t.fld CVN_SELF_MODEL.SUNC ≤ 250 := by decide +kernel
theorem test_xo32Absent_cmc : let s : State := { withRegs dev0 [(SYS_FAULT.off, 0)] with cmc := { dev0.cmc with st := 5 } }
    (s.on CLK_STAT.CMC_SUBST = false) ∧ let t := after .xo32Absent s
    t.cmc.st = 1 ∧ t.fld SYS_FAULT.LAST_KIND = 3 ∧ t.fld SYS_FAULT_LOG.HEAD = (s.fld SYS_FAULT_LOG.HEAD + 2) % 64 := by
  decide +kernel
theorem test_launcher_behind : let s : State := { launch (armed 2 9 0 0) with lnch := [(30, armed 8 3 0 0), (31, armed 2 9 0 0)] }
    s.lnBehind 31 = true ∧ after (.launcherOccurrence 31) s = s ∧ s.lnBehind 30 = false := by decide +kernel
theorem test_launcher_passed : let s := launch { armed 0 0 1 0 with stamp := 0 }
    ((s.launcher 31).stamp ≤ s.time.now ∧ (s.launcher 31).pol = 0) ∧ let t := after (.launcherOccurrence 31) s
    (t.launcher 31).stamp = ({ armed 0 0 1 0 with stamp := 0 } : Lnch).latest 0 600000 + 256 * 6000 ∧
      t.fld (CVN_Ln_ACT.FIRE_CNT 31) = 1 := by decide +kernel
theorem test_pinPulseEnd_written : let s : State := { dev0.putBytes (pinAddr 15) [3#8] with
      pins := { dev0.pins with gpOut := [(15, true)], gpDrv := [(15, true)], pulses := [(15, 600001)], wrote := [(15, 600001)] } }
    s.pinWritten 15 = true ∧ (after (.pinPulseEnd 15) s).mem = s.mem := by decide +kernel
theorem test_lockTimeout_early : let s : State := { settling with syt := { settling.syt with since := 600000 } }
    s.reach (600000 + usFine 400) = false ∧ after (.lockTimeout .syt) s = s := by decide +kernel
theorem test_frameWrite_buffers : let f := frame [BitVec.ofNat 32 (3 * 2 ^ 28 + 0xBBFFF), 0x11223344#32] 16
    ((dev0.port 0).bufs.length ≠ 2 ∧ f.edges = 8 * (1 + 1)) ∧
      ((after (.frameWrite 0 { f with busy := true }) dev0).port 0).bufs.length = 1 := by decide +kernel
theorem test_frameRun_select : (manager.gpSelect 15 = true ∧ manager.gpSelect 7 = false) ∧
    let t := after (.frameRun (.host 1) 0xF001FFFF#32) (manager.putBytes 0x2FFFF0 [0xFF#8, 0x07#8])
    Tab.get (fun _ => false) t.pins.gpDrv 15 = true ∧ Tab.get (fun _ => false) t.pins.gpOut 15 = false := by decide +kernel
theorem test_softReset_no_select : (List.range 16).all (fun i => !keyed.gpSelect i) = true := by decide +kernel
theorem test_beaconMiss_hyps : ((memberOf 1).beaconPending = false ∧ (memberOf 1).upKnown = true) ∧
    let s := (memberOf 1).putBytes (partner 4095 + 0x0A) [0#8]
    s.upKnown = false ∧ s.upSync = true := by decide +kernel
theorem test_joinsWake : let s : State := { withRegs (wkrDev 2000) [(PWR_WAKE_EN.off, 3), (PWR_WAKE_LAST.off, 0x80000404), (PWR_WAKE_TIME_LO.off, 2000)] with
      pwr := { dev0.pwr with st := .waking, core := false, wakeAt := 6000 * 2000 } }
    (s.joinsWake 2000 = true ∧ s.on PWR_WAKE_EN.WKR = true ∧ s.on PWR_WAKE_EN.PIN = true) ∧
      (let t := after (.callReceived (call 0xA5A5A5A5#32 5 0x1234 2000)) s
       t.fld PWR_WAKE_LAST.SOURCES = s.fld PWR_WAKE_LAST.SOURCES ||| 2 ∧
         t.fld PWR_WAKE_LAST.FIRST = min 2 (s.fld PWR_WAKE_LAST.FIRST)) ∧
      (after .wakePin s).fld PWR_WAKE_LAST.SOURCES = s.fld PWR_WAKE_LAST.SOURCES ||| 1 := by decide +kernel
theorem test_lossOfLock_subst : let s := withRegs (clocks 5 5) [(CLK_STAT.off, 0x18000000)]
    (s.on CLK_STAT.CMC_SUBST = true ∧ s.cmc.st = 5 ∧ s.cmr.st = 5) ∧
    (clocks 5 5).on CLK_STAT.CMC_SUBST = false ∧ (clocks 5 5).on CLK_STAT.XO32_OK = true := by decide +kernel
theorem test_lockDeclared_bound : let s (x : Mult) (start : Nat) : State := (locking x 5 1).setMult x { (locking x 5 1).mult x with start := start }
    ((s .cmc 200000).refGone .cmc = false ∧ (s .cmc 200000).stamp ≤ 200000 + pfdFine .cmc 6000 88 ∧
      (s .cmc 200000).reach (200000 + pfdFine .cmc 6000 40) = true ∧ ((s .cmc 200000).mult .cmc).n = 6000) ∧
    ((s .cmr 599700).refGone .cmr = false ∧ (s .cmr 599700).stamp ≤ 599700 + pfdFine .cmr 32 88 ∧
      (s .cmr 599700).reach (599700 + pfdFine .cmr 32 40) = true ∧ ((s .cmr 599700).mult .cmr).n = 32) := by decide +kernel
theorem test_brush_restored : brushing.fld MEM_BANK_CFG.INJ = 0 ∧
    let s : State := { brushing with brush := { dev0.brush with busy := some 107519 }, marks := [(0xFFFF8, .bad), (0xFFFFF, .single)] }
    0xFFFFF ∈ wordsOf (regionAddr 107519) 64 ∧ (after (.regionTestEnd ⟨false, []⟩) s).mark 0xFFFFF = .good ∧
      (after (.regionTestEnd ⟨false, []⟩) s).mark 0xFFFF8 = .bad := by decide +kernel
theorem test_lineDrives : (root 0).lineDrives = true ∧ (worker 0 2 noEdge).lineDrives = false := by decide +kernel
theorem test_claims_parked : let s := paS (paOp .grant) 100
    let s : State := { s with well := ⟨[⟨.group 0, 5, 0, ⟨0, 0, 0⟩, 0, false⟩], [], []⟩ }
    (s.cx 9).st = .parked .radio ∧ ((after (.paGrant 3) s).cx 9).st = .parked .well := by decide +kernel

theorem test_softReset_again : let s : State := { keyed with pwr := { keyed.pwr with primed := false, wakeAt := 600000 } }
    (s.pwr.primed = false ∧ s.moment.stamp < s.pwr.wakeAt + usFine 20 ∧
      (after (.softReset (.host 0) 0x5AA50001#32) s).keys = s.keys ∧ s.keys ≠ []) ∧
    let u : State := { keyed with pwr := { keyed.pwr with primed := false, wakeAt := 600000 - usFine 20 } }
    u.pwr.wakeAt + usFine 20 ≤ u.stamp ∧ (after (.softReset (.host 0) 0x5AA50001#32) u).keys = [] := by decide +kernel
theorem test_storeMerged : let l : List PStore := [⟨0x80004, leBytes 4 0x44332211, .none⟩, ⟨0x80000, leBytes 4 0x88776655, .none⟩,
      ⟨0x80007, [0xAA#8], .none⟩, ⟨0x80008, [1#8], .none⟩]
    storeMerged (storeRun l) = some ⟨0x80000, leBytes 4 0x88776655 ++ leBytes 3 0x332211 ++ [0xAA#8], .none⟩ ∧
      (storeRun l).length = 3 ∧ storeMerged (storeRun (l.drop 1)) = none ∧
      storeMerged (storeRun [⟨0x80000, leBytes 8 0, .none⟩]) = none := by decide +kernel
theorem test_cascFrames : (readLastSubmit 2 = [0x20C00E0A#32] ∧ submitFrame [0x12340000#32] =
      [0x58000000#32, 0x12340000#32, BitVec.ofNat 32 (crc16 [0#8, 0#8, 0#8, 0x58#8, 0#8, 0#8, 0x34#8, 0x12#8])]) ∧
    let s := withRegs dev0 [(CAS_WORKERS.off, 0xC000)]
    ({ s with casc3 := [.fwd 0 0 7 [] false ⟨0, 0, 0⟩] } : State).cascFrames 3 = [submitFrame [], readLastSubmit 3] := by decide +kernel

end Sys2Proof.Tests
end

/-! The state after reset (R12, R366, R367). -/

namespace Sys2Proof.Machine

/-- A register of the state after reset holds its reset word (R12). -/
theorem State.reset_reg (o : Nat) : State.reset.reg o = regReset o := rfl

/-- A byte of a bank is zero after reset (R367). -/
theorem State.reset_byte (a : Nat) (h : inRom a = false) : State.reset.byte a = 0#8 := by
  unfold State.byte
  rw [h]
  rfl

/-- The reset words of an event ring: 4 KiB for each port, one after the other from the start of MSG. -/
theorem regReset_eventRing : ∀ p : Fin 4,
    regReset (HPn_RING_BASE.off p.val) = BitVec.ofNat 32 (0x200000 + 0x1000 * p.val) ∧
      regReset (HPn_RING_SIZE.off p.val) = 0x1000#32 := by
  decide

/-- The reset word of a semaphore register names no owner (R285). -/
theorem regReset_sem : ∀ n : Fin 16, regReset (SEQ_SEMn.off n.val) = 0x7F#32 := by
  decide

/-- Settles O3: every table of the state after reset is empty, so each entry is its default, and each register the reset word
of its row. -/
theorem resetLeavesTheTabulatedValues : Obligations.ResetLeavesTheTabulatedValues := by
  unfold Obligations.ResetLeavesTheTabulatedValues
  simp only [State.reset_reg]
  refine ⟨rfl, State.reset_byte, by decide, by decide, by decide, by decide, regReset_eventRing, regReset_sem, by decide,
    by decide, by decide, by decide, by decide, rfl, rfl, rfl, ?_⟩
  exact ⟨fun _ => rfl, fun _ _ => rfl, fun _ => rfl, fun _ => rfl, fun _ => rfl, rfl, rfl⟩

/-- Settles O4: memory and register file are empty after reset, and the empty table is canonical. -/
theorem resetMeetsInvariant : Obligations.ResetMeetsInvariant :=
  ⟨rfl, rfl⟩

end Sys2Proof.Machine

/-! Register writes that set nothing else going (R9, R11, R19). -/

namespace Sys2Proof.Machine

/-- The register at `off` is written under its access codes alone: its fields lie apart in its word, SYS_LOCK protects none of
them, no owner shuts a field out, and its write sets nothing going. -/
structure PlainReg (off : Nat) : Prop where
  tidy : ∃ d, findReg off = some d ∧ d.tidy = true
  unlocked : ∀ w, protectedFields off w = []
  ungated : ∀ (s : State) l w, s.gate l off w = w
  inert : ∀ (s old : State) m t l w, s.effect old m t l off w = s
  noLauncher : ¬(0x5108 ≤ off ∧ off < 0x5300 ∧ off % 16 = 8)

/-- REGISTER_WRITE is a write of one word at a word address of the register blocks, and of none elsewhere. -/
theorem exec_registerWrite (m : Master) (a : Nat) (v : Word) (s : State) : exec (.registerWrite m a v) s =
    s.regWrite m (fun _ => if 0x3000000 ≤ a ∧ a % 4 = 0 then [(a - 0x3000000, v)] else []) := rfl

/-- A REGISTER_WRITE of such a register leaves in each field what its access code says, and changes nothing else. -/
theorem PlainReg.registerWrite {off : Nat} (h : PlainReg off) (m : Master) (v : Word) (s : State) (hr : s.reaches m = true)
    (ha : off % 4 = 0) :
    ∃ t, exec (.registerWrite m (0x3000000 + off) v) s = .next t ∧ s.moment.onlyReg t off ∧
      ∀ d, findReg off = some d → ∀ f ∈ d.fields, getBits (t.reg off) f.hi f.lo = f.after v (s.reg off) := by
  obtain ⟨e, he, ht⟩ := h.tidy
  have hi : implemented off = true := by unfold implemented; rw [he]; rfl
  have hw : exec (.registerWrite m (0x3000000 + off) v) s =
      .next (s.moment.setReg off (s.moment.stored [(off, v)] off v)) := by
    have hc : 0x3000000 ≤ 0x3000000 + off ∧ (0x3000000 + off) % 4 = 0 := by omega
    rw [exec_registerWrite, if_pos hc, Nat.add_sub_cancel_left,
      State.regWrite_sets s m _ off v hr rfl hi (.inr (h.unlocked v)) h.noLauncher, h.inert]
  refine ⟨_, hw, State.onlyReg_setReg _ _ _, fun d hd f hf => ?_⟩
  have htd : d.tidy = true := by
    rw [he] at hd
    exact Option.some.inj hd ▸ ht
  rw [State.reg_setReg_self, State.stored_field _ _ _ _ d f hd htd hf, h.ungated, State.reg_moment]

/-- A HOST register that is none of CASC_CFG, RING_BASE, RING_SIZE and RING_TAIL of its port is plain. -/
theorem PlainReg.host {off : Nat} (hb : off / 0x1000 = 3)
    (ho : (off - 0x3000) % 0x400 ∉ [0x14, 0x18, 0x20, 0x2C]) (ht : ∃ d, findReg off = some d ∧ d.tidy = true) :
    PlainReg off := by
  simp only [List.mem_cons, List.not_mem_nil, or_false, not_or] at ho
  obtain ⟨hbase, hsize, htail, hcasc⟩ := ho
  have nCasc : off ≠ HPn_CASC_CFG.off ((off - 0x3000) / 0x400) := by unfold HPn_CASC_CFG.off; omega
  have nRing : ¬(off = HPn_RING_BASE.off ((off - 0x3000) / 0x400) ∨ off = HPn_RING_SIZE.off ((off - 0x3000) / 0x400)) := by
    unfold HPn_RING_BASE.off HPn_RING_SIZE.off; omega
  have nTail : off ≠ HPn_RING_TAIL.off ((off - 0x3000) / 0x400) := by unfold HPn_RING_TAIL.off; omega
  refine ⟨ht, fun w => protectedFields_none off w ?_, fun s l w => ?_, fun s old m t l w => ?_, by omega⟩
  · unfold RFA_PA_LEVEL.off WELL_CLAIM_TAB.off; omega
  · rw [State.gate_block3 _ _ _ _ hb]
    unfold State.gateHost
    rw [if_neg nCasc, if_neg nRing, if_neg nTail]
  · rw [State.effect_block3 _ _ _ _ _ _ _ hb]
    unfold State.effHost
    rw [if_neg nCasc, if_neg nRing]

theorem PlainReg.hpnCfg (p : Fin 4) : PlainReg (HPn_CFG.off p.val) :=
  .host (by unfold HPn_CFG.off; omega) (by revert p; decide) (by revert p; decide)

theorem PlainReg.hpnIrqFlag (p : Fin 4) : PlainReg (HPn_IRQ_FLAG.off p.val) :=
  .host (by unfold HPn_IRQ_FLAG.off; omega) (by revert p; decide) (by revert p; decide)

theorem PlainReg.hpnIrqEn (p : Fin 4) : PlainReg (HPn_IRQ_EN.off p.val) :=
  .host (by unfold HPn_IRQ_EN.off; omega) (by revert p; decide) (by revert p; decide)

/-- Outside the CHK and DMA blocks only the PA claim table and the key select shut a field out. -/
theorem State.gateEng_open (s : State) (l : List (Nat × Word)) (off : Nat) (w : Word)
    (h : off / 0x1000 ≠ 0xC ∧ off / 0x1000 ≠ 0xD ∧ off ≠ WELL_CLAIM_TAB.off ∧ off ≠ SEC_KEY_SEL.off) :
    s.gateEng l off w = w := by
  obtain ⟨hchk, hdma, htab, hkey⟩ := h
  unfold State.gateEng
  rw [if_neg htab, if_neg hkey, if_neg hchk, if_neg hdma]

/-- Of the MEM block only the Brush's configuration sets something going. -/
theorem State.effEng_mem (s old : State) (m : Master) (t : Ticket) (off : Nat) (w : Word) (hb : off / 0x1000 = 0xE)
    (ho : off ≠ MEM_WALK_CFG.off) : s.effEng old m t off w = s := by
  have nRole : off ≠ CAS_ROLE.off := by unfold CAS_ROLE.off; omega
  have nRun : ¬(off = CAS_CFG.off ∧ bit w 31 = true) := by unfold CAS_CFG.off; omega
  unfold State.effEng
  rw [if_neg (by omega), if_neg (by omega), if_neg ho, if_neg nRole, if_neg nRun]

/-- A MEM register that is not the Brush's configuration is plain. -/
theorem PlainReg.mem {off : Nat} (hb : off / 0x1000 = 0xE) (ho : off ≠ MEM_WALK_CFG.off)
    (ht : ∃ d, findReg off = some d ∧ d.tidy = true) : PlainReg off := by
  refine ⟨ht, fun w => protectedFields_none off w ?_, fun s l w => ?_, fun s old m t l w => ?_, by omega⟩
  · unfold RFA_PA_LEVEL.off WELL_CLAIM_TAB.off; omega
  · rw [State.gate_blockE _ _ _ _ hb]
    exact s.gateEng_open l off w (by unfold WELL_CLAIM_TAB.off SEC_KEY_SEL.off; omega)
  · rw [State.effect_blockE _ _ _ _ _ _ _ hb, State.effEng_mem _ _ _ _ _ _ hb ho]

/-- A SEQ register below the semaphores is plain. -/
theorem PlainReg.seq {off : Nat} (hb : off / 0x1000 = 4) (ho : off < SEQ_SEMn.off 0)
    (ht : ∃ d, findReg off = some d ∧ d.tidy = true) : PlainReg off := by
  refine ⟨ht, fun w => protectedFields_none off w ?_, fun s l w => ?_, fun s old m t l w => ?_, by omega⟩
  · unfold RFA_PA_LEVEL.off WELL_CLAIM_TAB.off; omega
  · rw [State.gate_block4 _ _ _ _ hb]
    exact s.gateEng_open l off w (by unfold WELL_CLAIM_TAB.off SEC_KEY_SEL.off; omega)
  · rw [State.effect_block4 _ _ _ _ _ _ _ hb]
    unfold State.effSeq
    rw [if_neg (Nat.not_le.mpr ho)]

theorem PlainReg.wkrClassMask : PlainReg WKR_CLASS_MASK.off := by
  refine ⟨by decide, fun w => protectedFields_none _ w ⟨by decide, by decide, by decide, .inl (by decide)⟩, fun s l w => ?_,
    fun s old m t l w => ?_, by decide⟩
  · rw [State.gate_blockF _ _ _ _ (by decide)]
    exact s.gateEng_open l _ w (by decide)
  · rw [State.effect_blockF _ _ _ _ _ _ _ (by decide)]
    have nTune : ¬(WKR_CLASS_MASK.off = WKR_TUNE.off ∧ bit w 31 = true) := fun h => absurd h.1 (by decide)
    unfold State.effWkr
    rw [if_neg (by decide), if_neg nTune]

/-- TXP_STAT lies in the block of the accounts, of which SYS_LOCK protects fields, but is none of theirs. -/
theorem PlainReg.txpStat : PlainReg TXP_STAT.off := by
  refine ⟨by decide, fun w => ?_, fun s l w => ?_, fun s old m t l w => ?_, by decide⟩
  · have nTab : ¬(TXP_STAT.off = WELL_CLAIM_TAB.off ∧ bit w 31 = true) := fun h => absurd h.1 (by decide)
    unfold protectedFields
    rw [if_neg (by decide), if_neg (by decide), if_neg (by decide), if_neg (by decide), if_neg nTab]
  · rw [State.gate_block9 _ _ _ _ (by decide)]
    exact s.gateEng_open l _ w (by decide)
  · rw [State.effect_block9 _ _ _ _ _ _ _ (by decide)]
    have nAbort : ¬(TXP_STAT.off = TXP_CTRL.off ∧ bit w 31 = true) := fun h => absurd h.1 (by decide)
    unfold State.effTxp
    rw [if_neg nAbort, if_neg (by decide), if_neg (by decide)]

/-- A write none of whose words lies on a register only takes the moment of its commit. -/
theorem State.regWrite_nowhere (s : State) (m : Master) (f : State → List (Nat × Word)) (hr : s.reaches m = true)
    (hf : ∀ p ∈ f s.moment, implemented p.1 = false) : s.regWrite m f = .next s.moment := by
  have none_left : (f s.leaveIdle.touch).filter (fun p => implemented p.1) = [] :=
    List.filter_eq_nil_iff.mpr fun p hp => by simp [hf p hp]
  unfold State.regWrite
  dsimp only
  rw [if_pos hr, none_left]
  rfl

/-- A REGISTER_WRITE to an address where no register lies only takes the moment of its commit. -/
theorem registerWrite_elsewhere (m : Master) (a : Nat) (v : Word) (s : State) (hr : s.reaches m = true)
    (h : a < 0x3000000 ∨ a % 4 ≠ 0 ∨ implemented (a - 0x3000000) = false) :
    exec (.registerWrite m a v) s = .next s.moment := by
  rw [exec_registerWrite]
  refine s.regWrite_nowhere m _ hr fun p hp => ?_
  split at hp
  · next hc =>
    rw [List.mem_singleton.mp hp]
    exact (h.resolve_left (by omega)).resolve_left (by omega)
  · exact absurd hp List.not_mem_nil

/-- Settles O9: each register listed is plain, and a plain register's write follows its access codes. That a write where no
register lies reaches nothing is the model's reading (log 113). -/
theorem registerWriteFollowsTheAccessCodes : Obligations.RegisterWriteFollowsTheAccessCodes := by
  unfold Obligations.RegisterWriteFollowsTheAccessCodes
  intro m v s hr
  refine ⟨fun p off hoff => ?_, fun a ha => registerWrite_elsewhere m a v s hr ha⟩
  suffices h : PlainReg off ∧ off % 4 = 0 from h.1.registerWrite m v s hr h.2
  simp only [List.mem_cons, List.not_mem_nil, or_false] at hoff
  obtain rfl | rfl | rfl | rfl | rfl | rfl | rfl | rfl | rfl := hoff
  · exact ⟨.hpnCfg p, by unfold HPn_CFG.off; omega⟩
  · exact ⟨.hpnIrqFlag p, by unfold HPn_IRQ_FLAG.off; omega⟩
  · exact ⟨.hpnIrqEn p, by unfold HPn_IRQ_EN.off; omega⟩
  · exact ⟨.mem (by decide) (by decide) (by decide), by decide⟩
  · exact ⟨.mem (by decide) (by decide) (by decide), by decide⟩
  · exact ⟨.seq (by decide) (by decide) (by decide), by decide⟩
  · exact ⟨.seq (by decide) (by decide) (by decide), by decide⟩
  · exact ⟨.wkrClassMask, by decide⟩
  · exact ⟨.txpStat, by decide⟩

end Sys2Proof.Machine

/-! Reads that capture or consume (R9, R25, R235). -/

namespace Sys2Proof.Machine

/-- The word that a whole read of the register at `off` leaves there: its RC fields cleared (R9). -/
def consumed (off : Nat) (w : Word) : Word :=
  match findReg off with
  | some d => d.fields.foldl (fun w f => if f.acc == .rc then putBits w f.hi f.lo 0 else w) w
  | none => w

/-- Consuming a register changes that register alone. -/
theorem State.consume_onlyReg (s : State) (off : Nat) : s.onlyReg (s.consume off) off := by
  unfold State.consume
  split
  · exact ⟨fun _ _ => rfl, rfl⟩
  · exact State.onlyReg_setReg _ _ _

theorem State.reg_consume_self (s : State) (off : Nat) : (s.consume off).reg off = consumed off (s.reg off) := by
  unfold State.consume consumed
  cases findReg off with
  | none => rfl
  | some d => exact State.reg_setReg_self _ _ _

/-- What the master that reads captures: the whole stamp with CVN_NOW_LO (R25), nothing else. -/
def State.capsAfter (s : State) (m : Master) (off : Nat) : Tab Cap :=
  if off = CVN_NOW_LO.off then Tab.set (fun _ => Cap.zero) s.caps (capIx m) s.cap else s.caps

/-- A whole read changes the register by consuming it, the captured stamps, and the draw counter. -/
theorem State.readWhole_frame (s : State) (m : Master) (off : Nat) :
    (∀ o, o ≠ off → (s.readWhole m off).1.reg o = s.reg o) ∧
    (s.readWhole m off).1.reg off = consumed off (s.reg off) ∧
    (s.readWhole m off).1.caps = s.capsAfter m off ∧
    { (s.readWhole m off).1 with regs := s.regs, caps := s.caps, free := s.free } = s := by
  have hr : (s.readReg m off).1 = { s with caps := s.capsAfter m off, free := s.free + 1 } := by
    unfold State.readReg State.capsAfter
    dsimp only
    split <;> rfl
  have hw : (s.readWhole m off).1 = (s.readReg m off).1.consume off := rfl
  obtain ⟨hreg, hframe⟩ := State.consume_onlyReg (s.readReg m off).1 off
  have hself := State.reg_consume_self (s.readReg m off).1 off
  rw [← hw, hr] at hreg hframe hself
  exact ⟨hreg, hself, congrArg State.caps hframe,
    congrArg (fun u : State => { u with caps := s.caps, free := s.free }) hframe⟩

/-- What a read command of master `m` leaves: a host port the word it drove, the register what was not consumed, the master's
captured stamp; nothing else changes (R9, R25, R235). -/
structure State.Read (u : State) (m : Master) (off : Nat) (t : State) : Prop where
  reply : ∀ q, m = .host q → (t.port q.val).reply = [u.view m off]
  regs : ∀ o, o ≠ off → t.reg o = u.reg o
  self : t.reg off = consumed off (u.reg off)
  caps : t.caps = u.capsAfter m off
  frame : { t with regs := u.regs, ports := u.ports, caps := u.caps, free := u.free } = u

theorem State.regRead_reads (s : State) (m : Master) (off : Nat) (hr : s.reaches m = true) :
    ∃ t, s.regRead m off = .next t ∧ s.moment.Read m off t := by
  obtain ⟨hregs, hself, hcaps, hframe⟩ := s.moment.readWhole_frame m off
  unfold State.regRead
  rw [if_pos hr]
  cases m with
  | host p =>
    refine ⟨_, rfl, ⟨?_, hregs, hself, hcaps, ?_⟩⟩
    · rintro q ⟨⟩
      rw [State.port_setPort_self]
      rfl
    · exact congrArg (fun x : State => { x with ports := s.moment.ports }) hframe
  | ctx k =>
    refine ⟨_, rfl, ⟨?_, hregs, hself, hcaps, ?_⟩⟩
    · rintro q ⟨⟩
    · exact congrArg (fun x : State => { x with ports := s.moment.ports }) hframe

/-- A read of any register but CVN_NOW_LO captures nothing. -/
theorem State.Read.frame_other {u t : State} {m : Master} {off : Nat} (h : u.Read m off t) (ho : off ≠ CVN_NOW_LO.off) :
    { t with regs := u.regs, ports := u.ports, free := u.free } = u := by
  have hc : t.caps = u.caps := h.caps.trans (if_neg ho)
  have hf := h.frame
  rw [← hc] at hf
  exact hf

/-- A register without RC fields keeps its word when it is read. -/
theorem State.Read.reg_eq {u t : State} {m : Master} {off : Nat} (h : u.Read m off t)
    (hc : ∀ w, consumed off w = w) (o : Nat) : t.reg o = u.reg o := by
  by_cases e : o = off
  · rw [e, h.self, hc]
  · exact h.regs o e

/-- A word with bits 31 and 30 cleared holds nothing there and keeps the rest. -/
theorem getBits_clear_31_30 (w : Word) : getBits (putBits (putBits w 31 31 0) 30 30 0) 31 30 = 0 ∧
    ∀ hi lo, hi < 30 → getBits (putBits (putBits w 31 31 0) 30 30 0) hi lo = getBits w hi lo := by
  constructor
  · apply Nat.eq_of_testBit_eq
    intro i
    rw [getBits_testBit, putBits_testBit _ _ _ _ _ (by decide) (by decide),
      putBits_testBit _ _ _ _ _ (by decide) (by decide)]
    by_cases h0 : i = 0
    · simp [h0]
    · by_cases h1 : i = 1
      · simp [h1]
      · simp [show ¬ i < 2 by omega]
  · intro hi lo h
    rw [getBits_putBits_apart _ _ _ _ _ _ (by decide) (by decide) (by omega),
      getBits_putBits_apart _ _ _ _ _ _ (by decide) (by decide) (by omega)]

theorem consumed_nowLo (w : Word) : consumed CVN_NOW_LO.off w = w := rfl
theorem consumed_energy (w : Word) : consumed CHZ_ENERGY.off w = w := rfl
theorem consumed_arbStat (w : Word) : consumed MEM_ARB_STAT.off w = putBits w 15 0 0 := rfl
theorem consumed_wakeLast (w : Word) : consumed PWR_WAKE_LAST.off w = putBits (putBits w 31 31 0) 30 30 0 := rfl

theorem consumed_hpnStat (n : Fin 4) (w : Word) :
    consumed (HPn_STAT.off n.val) w = putBits (putBits w 31 31 0) 30 30 0 := by
  fin_cases n <;> rfl

theorem consumed_lastSubmit (n : Fin 4) (w : Word) :
    consumed (HPn_LAST_SUBMIT.off n.val) w = putBits (putBits w 31 31 0) 30 30 0 := by
  fin_cases n <;> rfl

theorem State.view_nowLo (s : State) (m : Master) : s.view m CVN_NOW_LO.off = BitVec.ofNat 32 s.tick := rfl
theorem State.view_energy (s : State) (m : Master) :
    s.view m CHZ_ENERGY.off = putBits (s.reg CHZ_ENERGY.off) 7 0 s.emax := rfl
theorem State.view_arbStat (s : State) (m : Master) : s.view m MEM_ARB_STAT.off = s.reg MEM_ARB_STAT.off := rfl
theorem State.view_wakeLast (s : State) (m : Master) : s.view m PWR_WAKE_LAST.off = s.reg PWR_WAKE_LAST.off := rfl

theorem State.view_lastSubmit (s : State) (m : Master) (n : Fin 4) :
    s.view m (HPn_LAST_SUBMIT.off n.val) = s.reg (HPn_LAST_SUBMIT.off n.val) := by
  fin_cases n <;> rfl

/-- What a read leaves of everything but the register read, told from the state before the command. -/
theorem State.Read.elsewhere {s t : State} {m : Master} {off : Nat} (h : s.moment.Read m off t) (ho : off ≠ CVN_NOW_LO.off) :
    { t with regs := s.moment.regs, ports := s.moment.ports, free := s.moment.free } = s.moment ∧
      ∀ o, o ≠ off → t.reg o = s.reg o :=
  ⟨h.frame_other ho, fun o e => (h.regs o e).trans (s.reg_moment o)⟩

/-- A register whose RC fields are bits 31 and 30 reads zero there after a read, and keeps its other fields. -/
theorem State.Read.cleared {s t : State} {m : Master} {off : Nat} (h : s.moment.Read m off t)
    (hc : ∀ w, consumed off w = putBits (putBits w 31 31 0) 30 30 0) :
    getBits (t.reg off) 31 30 = 0 ∧
      ∀ hi lo, hi < 30 → getBits (t.reg off) hi lo = getBits (s.reg off) hi lo := by
  rw [h.self, hc, State.reg_moment]
  exact getBits_clear_31_30 _

/-- The captured stamps after a read of CVN_NOW_LO: the reader's is the present one, every other stands. -/
theorem State.Read.captured {s t : State} {m : Master} (h : s.moment.Read m CVN_NOW_LO.off t) :
    t.capOf m = s.moment.cap ∧ ∀ q, capIx q ≠ capIx m → t.capOf q = s.capOf q := by
  have hc : t.caps = Tab.set (fun _ => Cap.zero) s.moment.caps (capIx m) s.moment.cap := h.caps.trans (if_pos rfl)
  unfold State.capOf
  rw [hc, State.moment_caps]
  exact ⟨Tab.get_set_self _ _ _ _, fun q hq => Tab.get_set_ne _ _ _ _ _ hq⟩

/-- Settles O42: each row is a whole read of its register, so it follows from what a read leaves and the register's RC
fields. -/
theorem readsCaptureAndConsume : Obligations.ReadsCaptureAndConsume := by
  unfold Obligations.ReadsCaptureAndConsume
  intro m p n s
  dsimp only
  refine ⟨fun hr => ⟨?_, ?_, ?_, ?_⟩, fun hr => ⟨?_, ?_⟩⟩
  · obtain ⟨t, ht, h⟩ := s.regRead_reads m CVN_NOW_LO.off hr
    obtain ⟨hcap, hothers⟩ := h.captured
    exact ⟨t, ht, State.view_nowLo _ m ▸ h.reply, hcap, hothers,
      fun o => (h.reg_eq consumed_nowLo o).trans (s.reg_moment o), h.frame⟩
  · obtain ⟨t, ht, h⟩ := s.regRead_reads m CHZ_ENERGY.off hr
    refine ⟨t, _, ht, h.reply, ?_, ?_, fun o => (h.reg_eq consumed_energy o).trans (s.reg_moment o),
      h.elsewhere (by decide)⟩
    · rw [State.view_energy]
      exact getBits_putBits _ _ _ _ (by decide) (by decide)
    · rw [State.view_energy, State.reg_moment]
      exact getBits_putBits_apart _ _ _ _ _ _ (by decide) (by decide) (by decide)
  · obtain ⟨t, ht, h⟩ := s.regRead_reads m MEM_ARB_STAT.off hr
    have hreg : t.reg MEM_ARB_STAT.off = putBits (s.reg MEM_ARB_STAT.off) 15 0 0 := by
      rw [h.self, consumed_arbStat, State.reg_moment]
    refine ⟨t, ht, ?_, ?_, ?_, h.elsewhere (by decide)⟩
    · rw [← State.reg_moment, ← State.view_arbStat _ m]
      exact h.reply
    · unfold State.fld
      exact (congrArg (getBits · 15 0) hreg).trans (getBits_putBits _ _ _ _ (by decide) (by decide))
    · rw [hreg]
      exact getBits_putBits_apart _ _ _ _ _ _ (by decide) (by decide) (by decide)
  · obtain ⟨t, ht, h⟩ := s.regRead_reads m PWR_WAKE_LAST.off hr
    obtain ⟨hzero, hkept⟩ := h.cleared consumed_wakeLast
    refine ⟨t, ht, ?_, hzero, hkept 29 0 (by decide), h.elsewhere (by decide)⟩
    rw [← State.reg_moment, ← State.view_wakeLast _ m]
    exact h.reply
  · obtain ⟨t, ht, h⟩ := s.regRead_reads (.host p) (HPn_STAT.off n.val) hr
    obtain ⟨hzero, hkept⟩ := h.cleared (consumed_hpnStat n)
    exact ⟨t, ht, h.reply p rfl, hzero, hkept 29 0 (by decide),
      h.elsewhere (by unfold HPn_STAT.off CVN_NOW_LO.off; omega)⟩
  · obtain ⟨t, ht, h⟩ := s.regRead_reads (.host p) (HPn_LAST_SUBMIT.off n.val) hr
    obtain ⟨hzero, hkept⟩ := h.cleared (consumed_lastSubmit n)
    refine ⟨t, ht, ?_, hzero, hkept 15 0 (by decide),
      h.elsewhere (by unfold HPn_LAST_SUBMIT.off CVN_NOW_LO.off; omega)⟩
    rw [h.reply p rfl, State.view_lastSubmit, State.reg_moment]

end Sys2Proof.Machine

/-! The time instructions TNOW, TADD and TGUARD (R287, R288). -/

namespace Sys2Proof.Machine

/-! Fields of an instruction word. -/

theorem natBits_eq_div_mod (n hi lo : Nat) : natBits n hi lo = n / 2 ^ lo % 2 ^ (hi + 1 - lo) := by
  unfold natBits
  rw [Nat.shiftRight_eq_div_pow]

/-- A one-bit field of a number is its bit. -/
theorem testBit_eq_natBits (n i : Nat) : n.testBit i = decide (natBits n i i = 1) := by
  rw [natBits_eq_div_mod, Nat.testBit_eq_decide_div_mod_eq, Nat.add_sub_cancel_left, pow_one]

/-! Stamps. -/

/-- A stamp before tick 2^48 is written with its ticks and its fine count (R8). -/
theorem stampWord_of_lt {n : Nat} (h : n < 6000 * 2 ^ 48) : stampWord n = n / 6000 * 2 ^ 16 + n % 6000 := by
  unfold stampWord
  rw [Nat.mod_eq_of_lt (Nat.div_lt_of_lt_mul h)]

/-! Memory without errors. -/

/-- A read of words that all hold a valid code word changes nothing and finds them usable. -/
theorem State.readSpan_clean (s : State) (a n : Nat) (h : s.clean a n) : s.readSpan a n = (s, true) := by
  have word : ∀ w, s.mark w = .good → s.readWord w 0 = (s, true) := by
    intro w hw
    unfold State.readWord
    rw [hw]
    cases bankOf (w * 8) <;> rfl
  unfold State.clean at h
  unfold State.readSpan
  generalize wordsOf a n = l at h
  induction l with
  | nil => rfl
  | cons w l ih =>
    rw [List.foldl_cons, word w (h w List.mem_cons_self)]
    exact ih fun x hx => h x (List.mem_cons_of_mem _ hx)

/-- A load from clean memory without a parity error meets no error. -/
theorem State.access_clean (s : State) (a n : Nat) (h : s.clean a n) : s.access a n .none = (s, 0) := by
  unfold State.access
  rw [State.readSpan_clean s a n h]
  rfl

theorem State.fetches_parity {s : State} {k : Fin 64} {env : Env} {w : Nat} (h : s.fetches k env w) : env.parity = .none := by
  obtain ⟨-, -, -, hp, -, -⟩ := h
  exact hp

theorem State.coded_ok (s t : State) (k : Fin 64) {ok : Bool} (h : ok = true) : s.coded k ok t = t := if_pos h

/-! TNOW. -/

/-- The x of a TNOW that names form `f` and holds zero besides. -/
theorem natBits_form {w f : Nat} (hf : f < 4) (h : natBits w 17 0 = f * 2 ^ 16) :
    natBits w 15 0 = 0 ∧ natBits w 17 16 = f := by
  simp only [natBits_eq_div_mod] at h ⊢
  omega

theorem tnowOk_now {w : Nat} (h : natBits w 17 0 = 0) (hz : natBits w 23 18 = 0) :
    tnowOk w = true ∧ natBits w 17 16 = 0 := by
  obtain ⟨hlow, hform⟩ := natBits_form (f := 0) (by decide) h
  have hta : fta w = 0 := by unfold fta; simp only [natBits_eq_div_mod] at hz ⊢; omega
  have hg : fa w = 0 := by unfold fa; simp only [natBits_eq_div_mod] at hz ⊢; omega
  exact ⟨by simp [tnowOk, hlow, hform, hta, hg], hform⟩

theorem tnowOk_load {w : Nat} (h : natBits w 17 0 = 0x10000) (hz : natBits w 23 22 = 0) :
    tnowOk w = true ∧ natBits w 17 16 = 1 := by
  obtain ⟨hlow, hform⟩ := natBits_form (f := 1) (by decide) h
  exact ⟨by simp [tnowOk, hlow, hform, fta, hz], hform⟩

theorem tnowOk_store {w : Nat} (h : natBits w 17 0 = 0x20000) (hz : natBits w 25 24 = 0) :
    tnowOk w = true ∧ natBits w 17 16 = 2 := by
  obtain ⟨hlow, hform⟩ := natBits_form (f := 2) (by decide) h
  exact ⟨by simp [tnowOk, hlow, hform, ftd, hz], hform⟩

/-- TNOW of the present stamp. -/
theorem execOpTnow_now {s : State} {k : Fin 64} {env : Env} {w : Nat} (h : s.fetches k env w) (ho : opOf w = 0x28)
    (hok : tnowOk w = true) (hx : natBits w 17 16 = 0) : execOpTnow k env s = .next ((s.fetched k env).onCtx k (fun c =>
      { c.wrT (ftd w) (BitVec.ofNat 64 (stampWord (s.fetched k env).stamp)) with c := (s.fetched k env).qual })) := by
  unfold execOpTnow
  rw [State.issue_fetches h ho, State.coded_ok _ _ _ hok, hx]
  rfl

/-- TNOW of a stamp in memory. -/
theorem execOpTnow_load {s : State} {k : Fin 64} {env : Env} {w : Nat} (h : s.fetches k env w) (ho : opOf w = 0x28)
    (hok : tnowOk w = true) (hx : natBits w 17 16 = 1) :
    execOpTnow k env s = .next ((s.fetched k env).tnowLoad k w .none) := by
  unfold execOpTnow
  rw [State.issue_fetches h ho, State.coded_ok _ _ _ hok, hx, State.fetches_parity h]
  rfl

/-- TNOW of a stamp to memory. -/
theorem execOpTnow_store {s : State} {k : Fin 64} {env : Env} {w : Nat} (h : s.fetches k env w) (ho : opOf w = 0x28)
    (hok : tnowOk w = true) (hx : natBits w 17 16 = 2) :
    execOpTnow k env s = .next ((s.fetched k env).tnowStore k w .none) := by
  unfold execOpTnow
  rw [State.issue_fetches h ho, State.coded_ok _ _ _ hok, hx, State.fetches_parity h]
  rfl

/-- TNOW loads an aligned, well-formed stamp from clean memory. -/
theorem State.tnowLoad_wellFormed (u : State) (k : Fin 64) (w : Nat) {a : Nat} (ha : ((u.cx k.val).rd (fa w)).toNat = a)
    (hs : spanOk a 8 = true) (hc : u.clean a 8) (h8 : a % 8 = 0) (hv : u.ownNum k.val a 8 % 2 ^ 16 < 6000) :
    u.tnowLoad k w .none = u.onCtx k (fun c => c.wrT (ftd w) (BitVec.ofNat 64 (u.ownNum k.val a 8))) := by
  have hok : wordStampOk (u.ownNum k.val a 8) = true := decide_eq_true hv
  unfold State.tnowLoad
  simp [ha, hs, h8, State.access_clean u a 8 hc, hok]

/-- TNOW's load traps where the address is misaligned or the stamp is not well formed (R288). -/
theorem State.tnowLoad_traps (u : State) (k : Fin 64) (w : Nat) {a : Nat} (ha : ((u.cx k.val).rd (fa w)).toNat = a)
    (hs : spanOk a 8 = true) (hc : u.clean a 8) (h : a % 8 ≠ 0 ∨ 6000 ≤ u.ownNum k.val a 8 % 2 ^ 16) :
    u.tnowLoad k w .none = u.trap k Trap.operand := by
  unfold State.tnowLoad
  by_cases h8 : a % 8 = 0
  · have hbad : wordStampOk (u.ownNum k.val a 8) = false :=
      decide_eq_false (Nat.not_lt.mpr (h.resolve_left (not_not.mpr h8)))
    simp [ha, hs, h8, State.access_clean u a 8 hc, hbad]
  · simp [ha, h8]

/-! Writing a context twice. -/

theorem Tab.drop_put {α : Type} (t : Tab α) (k : Nat) (v : α) : Tab.drop k (Tab.put k v t) = Tab.drop k t := by
  induction t with
  | nil => simp [Tab.put, Tab.drop]
  | cons e t ih =>
    obtain ⟨j, w⟩ := e
    by_cases hlt : k < j
    · simp [Tab.put, Tab.drop, hlt]
    · by_cases heq : k = j
      · simp [Tab.put, Tab.drop, heq]
      · simp [Tab.put, Tab.drop, hlt, heq, ih]

theorem Tab.put_put {α : Type} (t : Tab α) (k : Nat) (v v' : α) : Tab.put k v' (Tab.put k v t) = Tab.put k v' t := by
  induction t with
  | nil => simp [Tab.put]
  | cons e t ih =>
    obtain ⟨j, w⟩ := e
    by_cases hlt : k < j
    · simp [Tab.put, hlt]
    · by_cases heq : k = j
      · simp [Tab.put, heq]
      · simp [Tab.put, hlt, heq, ih]

/-- Of two writes at one key the second stands alone, where the first lists the key. -/
theorem Tab.set_set {α : Type} [DecidableEq α] (d : Nat → α) (t : Tab α) (k : Nat) (v v' : α) (hv : v ≠ d k) :
    Tab.set d (Tab.set d t k v) k v' = Tab.set d t k v' := by
  unfold Tab.set
  rw [if_neg hv, Tab.drop_put, Tab.put_put]

theorem State.setCx_setCx (s : State) (k : Nat) (c c' : Ctx) (h : c.st ≠ .free) :
    (s.setCx k c).setCx k c' = s.setCx k c' := by
  have hc : c ≠ Ctx.empty := fun e => h (congrArg Ctx.st e)
  exact congrArg (fun t : Tab Ctx => { s with ctx := t }) (Tab.set_set (fun _ => Ctx.empty) s.ctx k c c' hc)

/-- A context that has fetched is ready. -/
theorem State.fetched_ready {s : State} {k : Fin 64} {env : Env} {w : Nat} (h : s.fetches k env w) :
    ((s.fetched k env).cx k.val).st = .ready := by
  have hi := State.fetches_issues h
  unfold State.issues at hi
  simp only [Bool.and_eq_true, beq_iff_eq] at hi
  obtain ⟨⟨⟨-, hst⟩, -⟩, -⟩ := hi
  rw [State.fetched_cx_self]
  exact hst

/-- A store that is the context's eighth or less is posted behind its others (R279). -/
theorem State.postBytes_room (u : State) (k : Fin 64) (a : Nat) (bs : List Byte) (hst : (u.cx k.val).st = .ready)
    (h : (u.cx k.val).posted.length < 8) : u.postBytes k a bs .none =
      u.onCtx k (fun c => { c with posted := c.posted ++ [⟨a, bs, .none⟩] }) := by
  have hc : (u.next k).cx k.val = (u.cx k.val).next := State.cx_setCx_self _ _ _
  have hroom : ((u.next k).cx k.val).posted.length < 8 := by rw [hc]; exact h
  have hbusy : (u.cx k.val).next.st ≠ .free := by
    intro e
    exact absurd (hst.symm.trans e) (by decide)
  unfold State.postBytes State.postStore
  dsimp only
  rw [if_pos hroom, hc]
  exact State.setCx_setCx _ _ _ _ hbusy

/-- TNOW posts a store of its stamp to an aligned place in a bank. -/
theorem State.tnowStore_posts (u : State) (k : Fin 64) (w : Nat) {a : Nat} (ha : ((u.cx k.val).rd (fa w)).toNat = a)
    (hst : (u.cx k.val).st = .ready) (h8 : a % 8 = 0) (hs : spanOk a 8 = true) (hrom : inRom a = false)
    (h : (u.cx k.val).posted.length < 8) : u.tnowStore k w .none = u.onCtx k (fun c =>
      { c with posted := c.posted ++ [⟨a, leBytes 8 ((u.cx k.val).rdT (fta w)).toNat, .none⟩] }) := by
  have hstall : u.stalls k.val = false := by
    unfold State.stalls
    rw [decide_eq_false (Nat.not_le.mpr h), Bool.false_and]
  have hw : spanWritable a 8 = true := by unfold spanWritable; rw [hs, hrom]; rfl
  unfold State.tnowStore
  dsimp only
  rw [ha, if_neg (not_not.mpr h8), hw, hstall]
  exact State.postBytes_room u k a _ hst h

/-! TADD. -/

/-- The result of TADD is a stamp; a sum among the stamps is the result, and takes no draw. -/
theorem State.tadd_spec (u : State) (c : Ctx) (w : Nat) :
    (u.tadd c w).2 < stampEnd ∧ (u.tadd c w).1 = { u with free := (u.tadd c w).1.free } ∧
      (0 ≤ c.tsum w → c.tsum w < (stampEnd : Int) → ((u.tadd c w).2 : Int) = c.tsum w ∧ (u.tadd c w).1 = u) := by
  unfold State.tadd
  dsimp only
  split
  · next h => exact ⟨by omega, rfl, fun h0 _ => ⟨Int.toNat_of_nonneg h0, rfl⟩⟩
  · next h => exact ⟨Nat.mod_lt _ (by decide), rfl, fun h0 h1 => absurd ⟨h0, h1⟩ h⟩

/-- The sum of TADD, its terms taken from the instruction word. -/
theorem Ctx.tsum_eq (c : Ctx) (w : Nat) : c.tsum w =
    (((c.rdT (fta w)).toNat / 2 ^ 16 * 6000 + (c.rdT (fta w)).toNat % 2 ^ 13 : Nat) : Int) +
      ((c.rd (fa w)).toInt + (if natBits w 15 0 < 2 ^ 15 then (natBits w 15 0 : Int) else natBits w 15 0 - 2 ^ 16)) *
        (if natBits w 17 17 = 1 then 1 else 6000) := by
  have hlt : natBits w 15 0 < 2 ^ 16 := Nat.mod_lt _ (by decide)
  have hx : signed 16 (natBits w 15 0) =
      if natBits w 15 0 < 2 ^ 15 then (natBits w 15 0 : Int) else natBits w 15 0 - 2 ^ 16 := by
    unfold signed
    rw [Nat.mod_eq_of_lt hlt]
    rfl
  unfold Ctx.tsum Ctx.stampOf wordStamp
  rw [hx, testBit_eq_natBits]
  simp only [decide_eq_true_eq]

/-- An encoded TADD. -/
theorem execOpTadd_ran {s : State} {k : Fin 64} {env : Env} {w : Nat} (h : s.fetches k env w) (ho : opOf w = 0x29)
    (hx : natBits w 16 16 = 0) :
    let r := (s.fetched k env).tadd ((s.fetched k env).cx k.val) w
    execOpTadd k env s = .next (r.1.onCtx k (fun c =>
      { c.wrT (ftd w) (BitVec.ofNat 64 (stampWord r.2)) with n := decide (r.2 < (s.fetched k env).stamp + 16) })) := by
  have hok : (!w.testBit 16) = true := by rw [testBit_eq_natBits, hx]; rfl
  unfold execOpTadd
  rw [State.issue_fetches h ho, State.coded_ok _ _ _ hok]

/-! TGUARD. -/

/-- An encoded TGUARD. -/
theorem execOpTguard_ran {s : State} {k : Fin 64} {env : Env} {w : Nat} (h : s.fetches k env w) (ho : opOf w = 0x2C)
    (hd : ftd w = 0) (hx : fi w = 0) :
    let c := (s.fetched k env).cx k.val
    let diff : Int := ((s.fetched k env).stamp : Int) - c.stampOf (fta w)
    let g : Int := 6000 * (c.rd (fa w)).toNat
    execOpTguard k env s = .next ((s.fetched k env).onCtx k (fun x =>
      { x with z := decide (-g ≤ diff ∧ diff ≤ g), n := decide (diff < -g), c := decide (g < diff) })) := by
  intro c diff g
  have hz : (diff.natAbs ≤ g) = (-g ≤ diff ∧ diff ≤ g) := propext (by omega)
  unfold execOpTguard
  rw [State.issue_fetches h ho, State.coded_ok _ _ _ (by rw [hd, hx]; rfl)]
  simp only [← hz]
  rfl

/-- Settles O25: after the fetch each well-encoded form has its one effect. That g_g of TADD is signed (log 36) and that a sum
outside the stamps gives a free one (log 14) are the model's readings. -/
theorem timeRegisterInstructions : Obligations.TimeRegisterInstructions := by
  unfold Obligations.TimeRegisterInstructions
  intro k env w s h
  dsimp only
  refine ⟨fun ho hx hz hlt => ?_, fun ho hx hz hs hc => ⟨fun h8 hv => ?_, fun hbad => ?_⟩,
    fun ho hx hz h8 hs hrom hroom => ?_, fun ho hx => ?_, fun ho hd hx => ?_⟩
  · obtain ⟨hok, hform⟩ := tnowOk_now hx hz
    refine (execOpTnow_now h ho hok hform).trans ?_
    rw [stampWord_of_lt hlt]
    rfl
  · obtain ⟨hok, hform⟩ := tnowOk_load hx hz
    refine (execOpTnow_load h ho hok hform).trans ?_
    rw [State.tnowLoad_wellFormed _ k w rfl hs hc h8 hv]
    rfl
  · obtain ⟨hok, hform⟩ := tnowOk_load hx hz
    refine (execOpTnow_load h ho hok hform).trans ?_
    rw [State.tnowLoad_traps _ k w rfl hs hc hbad]
    rfl
  · obtain ⟨hok, hform⟩ := tnowOk_store hx hz
    refine (execOpTnow_store h ho hok hform).trans ?_
    rw [State.tnowStore_posts _ k w rfl (State.fetched_ready h) h8 hs hrom hroom]
    rfl
  · obtain ⟨hlt, hfree, hsum⟩ := (s.fetched k env).tadd_spec ((s.fetched k env).cx k.val) w
    rw [Ctx.tsum_eq] at hsum
    refine ⟨_, _, hlt, hfree, hsum, (execOpTadd_ran h ho hx).trans ?_⟩
    have hcx := congrArg (fun u : State => u.cx k.val) hfree
    unfold State.onCtx
    rw [stampWord_of_lt hlt, hcx]
    rfl
  · exact execOpTguard_ran h ho hd hx

end Sys2Proof.Machine

/-! One step: the front command, and what every command keeps (R19). -/

namespace Sys2Proof.Machine

/-- A step with a command in front is that command, carried out on the queue's rest. -/
theorem step_of_pending_cons {s : State} {c : Instr} {rest : List Instr} (h : s.pending = c :: rest) :
    step s = exec c { s with pending := rest } := by
  unfold step
  rw [h]

/-- Settles O1: it is the equation of `step` for a queue that is not empty. -/
theorem stepRunsFrontCommand : Obligations.StepRunsFrontCommand := by
  unfold Obligations.StepRunsFrontCommand
  exact fun c rest s => step_of_pending_cons

/-- An outcome that stays but for the key store stays where nothing is said of the key store. -/
theorem State.Stays.of_kf_false {a : State} {kf : Bool} {r : Host.Outcome State Fault Refusal} (hk : kf = false)
    (h : a.Stays false r) : a.Stays kf r := by
  rw [hk]
  exact h

/-- What every command keeps: the queue of waiting commands, the canonical form of memory and register file, and the key
store unless the command is one that may reach it. One law per command. -/
theorem exec_stays (c : Instr) (s : State) (kf : Bool) (h : mayTouchKeys c = true → kf = false) :
    s.Stays kf (exec c s) := by
  have hs : s.Keeps kf s := .refl kf s
  have hr : s.Keeps false s := .refl false s
  cases c with
  | registerWrite m addr v => exact .of_kf_false (h rfl) (execRegisterWrite_stays m addr v s hr)
  | cvnNowLoRead m => exact execCvnNowLoRead_stays m s hs
  | arm m n v => exact .of_kf_false (h rfl) (execArm_stays m n v s hr)
  | cancel m n v => exact .of_kf_false (h rfl) (execCancel_stays m n v s hr)
  | launcherOccurrence n => exact execLauncherOccurrence_stays n s hs
  | pinPulseEnd pin => exact execPinPulseEnd_stays pin s hs
  | lateOccurrenceReady n => exact execLateOccurrenceReady_stays n s hs
  | tempSample raw => exact execTempSample_stays raw s hs
  | selfMeasure count => exact execSelfMeasure_stays count s hs
  | tempLogEntry => exact execTempLogEntry_stays s hs
  | xo32Absent => exact execXo32Absent_stays s hs
  | xo32Present => exact execXo32Present_stays s hs
  | tuneStart y => exact execTuneStart_stays y s hs
  | synthLock y band => exact execSynthLock_stays y band s hs
  | lockTimeout y => exact execLockTimeout_stays y s hs
  | synthUnlock y => exact execSynthUnlock_stays y s hs
  | syaVco p => exact .of_kf_false (h rfl) (execSyaVco_stays p s hr)
  | sybVco p => exact .of_kf_false (h rfl) (execSybVco_stays p s hr)
  | sytVco p => exact .of_kf_false (h rfl) (execSytVco_stays p s hr)
  | sytVcoStart => exact execSytVcoStart_stays s hs
  | rxaIq p => exact .of_kf_false (h rfl) (execRxaIq_stays p s hr)
  | rxbIq p => exact .of_kf_false (h rfl) (execRxbIq_stays p s hr)
  | calibrationEnd y band => exact execCalibrationEnd_stays y band s hs
  | tempStart m => exact .of_kf_false (h rfl) (execTempStart_stays m s hr)
  | tempConversionEnd raw => exact execTempConversionEnd_stays raw s hs
  | samplePosition o => exact execSamplePosition_stays o s hs
  | syncSearchTimeout e => exact execSyncSearchTimeout_stays e s hs
  | entryPromoted e => exact execEntryPromoted_stays e s hs
  | entryStarved e => exact execEntryStarved_stays e s hs
  | flush m => exact .of_kf_false (h rfl) (execFlush_stays m s hr)
  | paletteStart c => exact execPaletteStart_stays c s hs
  | paletteStop c => exact execPaletteStop_stays c s hs
  | chzEnergyRead m => exact execChzEnergyRead_stays m s hs
  | laneCatchUp l => exact execLaneCatchUp_stays l s hs
  | laneStarved l => exact execLaneStarved_stays l s hs
  | laneFrameEnd l o => exact execLaneFrameEnd_stays l o s hs
  | recoverySlotStart slot => exact execRecoverySlotStart_stays slot s hs
  | recoveryEntry slot det => exact execRecoveryEntry_stays slot det s hs
  | recoveryRequestDropped r => exact execRecoveryRequestDropped_stays r s hs
  | grpReqSet m g => exact .of_kf_false (h rfl) (execGrpReqSet_stays m g s hr)
  | grpReqClear m g => exact .of_kf_false (h rfl) (execGrpReqClear_stays m g s hr)
  | cntClr m => exact .of_kf_false (h rfl) (execCntClr_stays m s hr)
  | laneRingWrite m base size => exact .of_kf_false (h rfl) (execLaneRingWrite_stays m base size s hr)
  | txReleasePoint id => exact execTxReleasePoint_stays id s hs
  | lbtCovered id => exact execLbtCovered_stays id s hs
  | lbtRetry id => exact execLbtRetry_stays id s hs
  | paGrant id => exact execPaGrant_stays id s hs
  | txEnd id => exact execTxEnd_stays id s hs
  | ackWindowClose id => exact execAckWindowClose_stays id s hs
  | txpAbort m => exact .of_kf_false (h rfl) (execTxpAbort_stays m s hr)
  | bucketExpiry n => exact execBucketExpiry_stays n s hs
  | sglClr m v => exact .of_kf_false (h rfl) (execSglClr_stays m v s hr)
  | secondsChange m n v => exact .of_kf_false (h rfl) (execSecondsChange_stays m n v s hr)
  | callCopyEnd id => exact execCallCopyEnd_stays id s hs
  | keySelect m v => exact .of_kf_false (h rfl) (execKeySelect_stays m v s hr)
  | keyLoad m v => exact .of_kf_false (h rfl) (execKeyLoad_stays m v s hr)
  | keyErase m v => exact .of_kf_false (h rfl) (execKeyErase_stays m v s hr)
  | eraseAll m => exact .of_kf_false (h rfl) (execEraseAll_stays m s hr)
  | aesOperationStart e => exact execAesOperationStart_stays e s hs
  | secHoldExpiry e => exact execSecHoldExpiry_stays e s hs
  | beaconMiss => exact execBeaconMiss_stays s hs
  | scanEnd => exact execScanEnd_stays s hs
  | leaseScan => exact execLeaseScan_stays s hs
  | leaseExpiry => exact execLeaseExpiry_stays s hs
  | assignedSlotEnd slot => exact execAssignedSlotEnd_stays slot s hs
  | nextWrite m v => exact .of_kf_false (h rfl) (execNextWrite_stays m v s hr)
  | wkrEnable m v => exact .of_kf_false (h rfl) (execWkrEnable_stays m v s hr)
  | cal m v => exact .of_kf_false (h rfl) (execCal_stays m v s hr)
  | periodicCalibration => exact execPeriodicCalibration_stays s hs
  | wkrCalibrationEnd cap fine count => exact execWkrCalibrationEnd_stays cap fine count s hs
  | callReceived o => exact execCallReceived_stays o s hs
  | recordExamination env => exact execRecordExamination_stays env s hs
  | messageLayerEnable m => exact execMessageLayerEnable_stays m s hs
  | checkEngineStart e => exact execCheckEngineStart_stays e s hs
  | frameNop p f => exact execFrameNop_stays p f s hs
  | frameRead p f => exact execFrameRead_stays p f s hs
  | frameWrite p f => exact .of_kf_false (h rfl) (execFrameWrite_stays p f s hr)
  | frameSubmit p f => exact execFrameSubmit_stays p f s hs
  | frameResult p f => exact execFrameResult_stays p f s hs
  | frameEvents p f => exact execFrameEvents_stays p f s hs
  | frameStatus p f => exact execFrameStatus_stays p f s hs
  | frameAbort p f => exact execFrameAbort_stays p f s hs
  | framePortReset p f => exact execFramePortReset_stays p f s hs
  | hpnStatRead p n => exact execHpnStatRead_stays p n s hs
  | lastSubmitRead p n => exact execLastSubmitRead_stays p n s hs
  | cascadeEnable m n v => exact .of_kf_false (h rfl) (execCascadeEnable_stays m n v s hr)
  | workerTimeout p o => exact execWorkerTimeout_stays p o s hs
  | dispatch => exact execDispatch_stays s hs
  | commandPromoted p slot => exact execCommandPromoted_stays p slot s hs
  | lostRecord p => exact execLostRecord_stays p s hs
  | ringTailWrite m n v => exact .of_kf_false (h rfl) (execRingTailWrite_stays m n v s hr)
  | eventRingWrite m n base size => exact .of_kf_false (h rfl) (execEventRingWrite_stays m n base size s hr)
  | opAdd k env => exact execOpAdd_stays k env s hs
  | opSub k env => exact execOpSub_stays k env s hs
  | opAnd k env => exact execOpAnd_stays k env s hs
  | opIor k env => exact execOpIor_stays k env s hs
  | opXor k env => exact execOpXor_stays k env s hs
  | opShl k env => exact execOpShl_stays k env s hs
  | opShr k env => exact execOpShr_stays k env s hs
  | opSar k env => exact execOpSar_stays k env s hs
  | opMul k env => exact execOpMul_stays k env s hs
  | opCmp k env => exact execOpCmp_stays k env s hs
  | opMin k env => exact execOpMin_stays k env s hs
  | opMax k env => exact execOpMax_stays k env s hs
  | opSel k env => exact execOpSel_stays k env s hs
  | opBfx k env => exact execOpBfx_stays k env s hs
  | opBfi k env => exact execOpBfi_stays k env s hs
  | opAddi k env => exact execOpAddi_stays k env s hs
  | opAndi k env => exact execOpAndi_stays k env s hs
  | opIori k env => exact execOpIori_stays k env s hs
  | opXori k env => exact execOpXori_stays k env s hs
  | opCmpi k env => exact execOpCmpi_stays k env s hs
  | opMovi k env => exact execOpMovi_stays k env s hs
  | opHigh k env => exact execOpHigh_stays k env s hs
  | opLdb k env => exact execOpLdb_stays k env s hs
  | opLdh k env => exact execOpLdh_stays k env s hs
  | opLdw k env => exact execOpLdw_stays k env s hs
  | opStb k env => exact execOpStb_stays k env s hs
  | opSth k env => exact execOpSth_stays k env s hs
  | opStw k env => exact execOpStw_stays k env s hs
  | opLdp k env => exact execOpLdp_stays k env s hs
  | opStp k env => exact execOpStp_stays k env s hs
  | postedStoreComplete k env => exact execPostedStoreComplete_stays k env s hs
  | opJmp k env => exact execOpJmp_stays k env s hs
  | opCall k env => exact execOpCall_stays k env s hs
  | opRet k env => exact execOpRet_stays k env s hs
  | opYield k env => exact execOpYield_stays k env s hs
  | opHalt k env => exact execOpHalt_stays k env s hs
  | opFail k env => exact execOpFail_stays k env s hs
  | opLoop k env => exact execOpLoop_stays k env s hs
  | requestPromoted r => exact execRequestPromoted_stays r s hs
  | semTake p n => exact .of_kf_false (h rfl) (execSemTake_stays p n s hr)
  | semFree p n => exact .of_kf_false (h rfl) (execSemFree_stays p n s hr)
  | opTnow k env => exact execOpTnow_stays k env s hs
  | opTadd k env => exact execOpTadd_stays k env s hs
  | opTwait k env => exact execOpTwait_stays k env s hs
  | twaitExpiry k => exact execTwaitExpiry_stays k s hs
  | opTat k env => exact execOpTat_stays k env s hs
  | opTguard k env => exact execOpTguard_stays k env s hs
  | opTdrift k env => exact execOpTdrift_stays k env s hs
  | opTlearn k env => exact execOpTlearn_stays k env s hs
  | opTune k env => exact execOpTune_stays k env s hs
  | opRxwin k env => exact execOpRxwin_stays k env s hs
  | rxwinStart w => exact execRxwinStart_stays w s hs
  | rxwinEnd w => exact execRxwinEnd_stays w s hs
  | opTxf k env => exact execOpTxf_stays k env s hs
  | opLbt k env => exact execOpLbt_stays k env s hs
  | opCalltx k env => exact execOpCalltx_stays k env s hs
  | opAckw k env => exact execOpAckw_stays k env s hs
  | opRssi k env => exact execOpRssi_stays k env s hs
  | opGack k env => exact execOpGack_stays k env s hs
  | opRget k env => exact execOpRget_stays k env s hs
  | opRput k env => exact .of_kf_false (h rfl) (execOpRput_stays k env s hr)
  | opMacq k env => exact execOpMacq_stays k env s hs
  | opBudg k env => exact execOpBudg_stays k env s hs
  | opLock k env => exact execOpLock_stays k env s hs
  | opFree k env => exact execOpFree_stays k env s hs
  | opCas k env => exact execOpCas_stays k env s hs
  | opCopy k env => exact execOpCopy_stays k env s hs
  | opFrag k env => exact execOpFrag_stays k env s hs
  | opAbsorb k env => exact execOpAbsorb_stays k env s hs
  | opRelease k env => exact execOpRelease_stays k env s hs
  | opTopen k env => exact execOpTopen_stays k env s hs
  | opFind k env => exact execOpFind_stays k env s hs
  | opSeal k env => exact execOpSeal_stays k env s hs
  | opOpen k env => exact execOpOpen_stays k env s hs
  | opChk k env => exact execOpChk_stays k env s hs
  | engineOperationEnd id env => exact .of_kf_false (h rfl) (execEngineOperationEnd_stays id env s hr)
  | opPost k env => exact execOpPost_stays k env s hs
  | opWaite k env => exact execOpWaite_stays k env s hs
  | waiteTimeout k => exact execWaiteTimeout_stays k s hs
  | opSig k env => exact execOpSig_stays k env s hs
  | dmaStart m n v => exact .of_kf_false (h rfl) (execDmaStart_stays m n v s hr)
  | dmaStop m n v => exact .of_kf_false (h rfl) (execDmaStop_stays m n v s hr)
  | dmaTransferEnd n env => exact execDmaTransferEnd_stays n env s hs
  | svcIdent k env => exact execSvcIdent_stays k env s hs
  | svcFill k env => exact execSvcFill_stays k env s hs
  | svcPrimerCopy k env => exact execSvcPrimerCopy_stays k env s hs
  | svcCrc k env => exact execSvcCrc_stays k env s hs
  | svcPtclear k env => exact execSvcPtclear_stays k env s hs
  | svcReturn k env => exact execSvcReturn_stays k env s hs
  | lockSequenceStart x => exact execLockSequenceStart_stays x s hs
  | lockDeclared x band count => exact execLockDeclared_stays x band count s hs
  | lockAttemptFail x => exact execLockAttemptFail_stays x s hs
  | lossOfLock x => exact execLossOfLock_stays x s hs
  | lossOfReference x => exact execLossOfReference_stays x s hs
  | tcxoPresent => exact execTcxoPresent_stays s hs
  | relockCmc m v => exact .of_kf_false (h rfl) (execRelockCmc_stays m v s hr)
  | relockCmr m v => exact .of_kf_false (h rfl) (execRelockCmr_stays m v s hr)
  | coreByp m v => exact .of_kf_false (h rfl) (execCoreByp_stays m v s hr)
  | cmrEn m v => exact .of_kf_false (h rfl) (execCmrEn_stays m v s hr)
  | tcxoModeWrite m v => exact .of_kf_false (h rfl) (execTcxoModeWrite_stays m v s hr)
  | fboMeasure count => exact execFboMeasure_stays count s hs
  | requestSleep m v => exact .of_kf_false (h rfl) (execRequestSleep_stays m v s hr)
  | requestDeepSleep m v => exact .of_kf_false (h rfl) (execRequestDeepSleep_stays m v s hr)
  | requestOff m v => exact .of_kf_false (h rfl) (execRequestOff_stays m v s hr)
  | requestCancel m v => exact .of_kf_false (h rfl) (execRequestCancel_stays m v s hr)
  | quietPoint => exact .of_kf_false (h rfl) (execQuietPoint_stays s hr)
  | graceExpiry => exact .of_kf_false (h rfl) (execGraceExpiry_stays s hr)
  | wakePin => exact execWakePin_stays s hs
  | selectFallWake p => exact execSelectFallWake_stays p s hs
  | wakeFromOff => exact .of_kf_false (h rfl) (execWakeFromOff_stays s hr)
  | wakeCoreReady => exact execWakeCoreReady_stays s hs
  | clearingEnd b => exact execClearingEnd_stays b s hs
  | idleEntry => exact execIdleEntry_stays s hs
  | claimGrant => exact execClaimGrant_stays s hs
  | budgetWrite m v => exact .of_kf_false (h rfl) (execBudgetWrite_stays m v s hr)
  | claimTabWrite m v => exact .of_kf_false (h rfl) (execClaimTabWrite_stays m v s hr)
  | peakClr m => exact .of_kf_false (h rfl) (execPeakClr_stays m s hr)
  | scrubWriteBack w => exact execScrubWriteBack_stays w s hs
  | inj m v => exact .of_kf_false (h rfl) (execInj_stays m v s hr)
  | brushRegionStart => exact execBrushRegionStart_stays s hs
  | regionTestEnd o => exact execRegionTestEnd_stays o s hs
  | maxwaitRead m => exact execMaxwaitRead_stays m s hs
  | wakeLastRead m => exact execWakeLastRead_stays m s hs
  | resetNLow => exact .of_kf_false (h rfl) (execResetNLow_stays s hr)
  | resetNRelease => exact .of_kf_false (h rfl) (execResetNRelease_stays s hr)
  | primerStartup env => exact execPrimerStartup_stays env s hs
  | softReset m v => exact .of_kf_false (h rfl) (execSoftReset_stays m v s hr)
  | pinWordWrite m n v => exact execPinWordWrite_stays m n v s hs
  | gpInputChange n level => exact execGpInputChange_stays n level s hs
  | inRefresh => exact execInRefresh_stays s hs
  | syncPulse => exact execSyncPulse_stays s hs
  | codeMarker => exact execCodeMarker_stays s hs
  | lineEdge o => exact execLineEdge_stays o s hs
  | timeCode code => exact execTimeCode_stays code s hs
  | holdover => exact execHoldover_stays s hs
  | frameRun m v => exact .of_kf_false (h rfl) (execFrameRun_stays m v s hr)
  | sysLock m v => exact .of_kf_false (h rfl) (execSysLock_stays m v s hr)
  | xo32Edge => exact execXo32Edge_stays s hs
  | ckRadioWaitExpiry => exact execCkRadioWaitExpiry_stays s hs
  | opcodeTrap k env => exact execOpcodeTrap_stays k env s hs
  | cascadeFrameEnd p o => exact execCascadeFrameEnd_stays p o s hs

/-- The state that a command answers with keeps what `exec_stays` says. -/
theorem exec_keeps {c : Instr} {s t : State} (he : exec c s = .next t) (kf : Bool)
    (h : mayTouchKeys c = true → kf = false) : s.Keeps kf t := by
  have hstays := exec_stays c s kf h
  rw [he] at hstays
  exact hstays

/-- Settles O6: `exec` sees the queue's rest alone, and no command changes the queue that it sees. -/
theorem stepTakesExactlyOneCommand : Obligations.StepTakesExactlyOneCommand := by
  unfold Obligations.StepTakesExactlyOneCommand
  intro c rest s t hp ht
  rw [step_of_pending_cons hp] at ht
  exact (exec_keeps ht false fun _ => rfl).pending

end Sys2Proof.Machine

/-! RGET, RPUT, MACQ and BUDG (R292): what the fetch leaves, how an instruction ends, the Well and the registers. -/

namespace Sys2Proof.Machine

/-! The fetch, and the two ways in which an instruction that is carried out ends. -/

/-- A SYS or MOVE instruction whose word is fetched has its function's effect. -/
theorem State.function_fetches {s : State} {k : Fin 64} {env : Env} {w op fn : Nat} {fns : List Nat}
    {f : State → Nat → State} (h : s.fetches k env w) (ho : opOf w = op) (hf : fnOf w = fn) :
    s.function k env op fns fn f = .next (f (s.fetched k env) w) := by
  unfold State.function
  rw [State.issueFn_fetches h ho (by simp [hf]), State.coded_ok _ _ _ (by simp [hf])]

theorem State.fetched_mac (s : State) (k : Fin 64) (env : Env) : (s.fetched k env).mac = s.mac := by
  have hspan := (State.Books.refl ((s.touch.upset env).setCx k.val
    { s.cx k.val with since := (s.touch.upset env).stamp })).readSpan (4 * (s.cx k.val).p.toNat) 4
  have hupset := (State.Books.refl s.touch).upset env
  have hm : (s.touch.upset env).mac = s.mac := (congrArg State.mac hupset).trans s.touch_mac
  exact (congrArg State.mac hspan).trans hm

theorem State.fetched_cx_ne (s : State) (k : Fin 64) (env : Env) {j : Nat} (h : j ≠ k.val) :
    (s.fetched k env).cx j = s.cx j := by
  rw [State.fetched_cx, if_neg h]

/-- An instruction that ends after its advance with a status word has answered. -/
theorem State.finish_next (u : State) (k : Fin 64) (d w : Nat) {c : Ctx} (hc : u.cx k.val = c) (h : c.st = .ready) :
    (u.next k).finish k.val d w = u.answered k c d w := by
  have hbusy : c.next.st ≠ .free := fun e => absurd (h.symm.trans e) (by decide)
  unfold State.finish State.answered State.next
  dsimp only
  rw [State.cx_setCx_self, hc, State.setCx_setCx _ _ _ _ hbusy]
  rfl

/-- An instruction that parks after its advance. -/
theorem State.park_next (u : State) (k : Fin 64) (why : Wait) (what : Susp) {c : Ctx} (hc : u.cx k.val = c)
    (h : c.st = .ready) : (u.next k).park k.val why what = u.parked k c why what := by
  have hbusy : c.next.st ≠ .free := fun e => absurd (h.symm.trans e) (by decide)
  unfold State.park State.parked State.next
  rw [State.cx_setCx_self, hc, State.setCx_setCx _ _ _ _ hbusy]

theorem State.answered_cx_self (u : State) (k : Fin 64) (c : Ctx) (d w : Nat) : (u.answered k c d w).cx k.val =
    { c.next.wr d (BitVec.ofNat 32 w) with
      st := .ready, susp := .none, z := decide (w % 256 = 0), since := u.stamp } := by
  unfold State.answered State.cx
  rw [State.leaveIdle_ctx]
  exact State.cx_setCx_self _ _ _

@[simp] theorem State.answered_regs (u : State) (k : Fin 64) (c : Ctx) (d w : Nat) :
    (u.answered k c d w).regs = u.regs :=
  State.leaveIdle_regs _

@[simp] theorem State.answered_well (u : State) (k : Fin 64) (c : Ctx) (d w : Nat) :
    (u.answered k c d w).well = u.well :=
  State.leaveIdle_well _

/-! The advance to the next instruction changes the context table alone: it commutes with what does not touch that. -/

@[simp] theorem State.stamp_next (s : State) (k : Fin 64) : (s.next k).stamp = s.stamp := (rfl)
@[simp] theorem State.reg_next (s : State) (k : Fin 64) (o : Nat) : (s.next k).reg o = s.reg o := (rfl)
@[simp] theorem State.fld_next (s : State) (k : Fin 64) (f : Fld) : (s.next k).fld f = s.fld f := (rfl)

theorem State.setFld_next (s : State) (k : Fin 64) (f : Fld) (v : Nat) :
    (s.next k).setFld f v = (s.setFld f v).next k := (rfl)

/-! Claims given up, denied and queued (R335, R336). -/

@[simp] theorem State.fld_withdraw (s : State) (who : Holder) (f : Fld) : (s.withdraw who).fld f = s.fld f := (rfl)
@[simp] theorem State.stamp_withdraw (s : State) (who : Holder) : (s.withdraw who).stamp = s.stamp := (rfl)
@[simp] theorem State.cx_withdraw (s : State) (who : Holder) (j : Nat) : (s.withdraw who).cx j = s.cx j := (rfl)

theorem State.withdraw_next (s : State) (k : Fin 64) (who : Holder) :
    (s.next k).withdraw who = (s.withdraw who).next k := (rfl)

/-- To withdraw a holder's claims changes the Well alone. -/
theorem State.withdraw_frame (s : State) (who : Holder) : { s.withdraw who with well := s.well } = s := by
  unfold State.withdraw
  rfl

@[simp] theorem State.cx_setFld (s : State) (f : Fld) (v j : Nat) : (s.setFld f v).cx j = s.cx j := (rfl)
@[simp] theorem State.stamp_setFld (s : State) (f : Fld) (v : Nat) : (s.setFld f v).stamp = s.stamp := (rfl)

@[simp] theorem State.cx_deny (s : State) (j : Nat) : s.deny.cx j = s.cx j := by
  unfold State.deny State.incMod State.raise State.incSat
  simp only [State.cx_setFld]

@[simp] theorem State.stamp_deny (s : State) : s.deny.stamp = s.stamp := by
  unfold State.deny State.incMod State.raise State.incSat
  simp only [State.stamp_setFld]

@[simp] theorem State.deny_well (s : State) : s.deny.well = s.well := by
  unfold State.deny State.incMod State.raise State.incSat
  simp only [State.setFld_well]

theorem State.deny_next (s : State) (k : Fin 64) : (s.next k).deny = s.deny.next k := by
  unfold State.deny State.incMod State.raise State.incSat
  simp only [State.setFld_next, State.fld_next]

theorem State.deny_on (s : State) : s.deny.on WELL_DENY_CNT.DENY = true := by
  have hf : s.deny.fld WELL_DENY_CNT.DENY = 1 := by
    unfold State.deny State.incMod State.raise State.incSat
    rw [State.fld_setFld_apart _ _ _ _ (by decide) (by decide), State.fld_setFld_apart _ _ _ _ (by decide) (by decide),
      State.fld_setFld _ _ _ (by decide)]
    rfl
  unfold State.on
  rw [hf]
  rfl

/-- A claim behind the others in the queue of the Well. -/
def State.queueClaim (s : State) (c : Claim) : State :=
  { s with well := { s.well with queue := s.well.queue ++ [c] } }

theorem State.queueClaim_next (s : State) (k : Fin 64) (c : Claim) :
    (s.next k).queueClaim c = (s.queueClaim c).next k := (rfl)

theorem State.cx_queueClaim (s : State) (c : Claim) (j : Nat) : (s.queueClaim c).cx j = s.cx j := (rfl)

/-- A claim within the budget waits behind the others (R336). -/
theorem State.place_fits (s : State) (who : Holder) (amt prio : Nat) (t : Ticket)
    (h : amt + 31 ≤ 2 * s.fld WELL_BUDGET.BUDGET) :
    s.place who amt prio t = (s.queueClaim ⟨who, amt, prio, t, s.stamp, false⟩, true) := by
  unfold State.place State.neverFits
  rw [decide_eq_false (Nat.not_lt.mpr h)]
  rfl

/-- A claim that the budget can never hold is denied at once (R336). -/
theorem State.place_denied (s : State) (who : Holder) (amt prio : Nat) (t : Ticket)
    (h : 2 * s.fld WELL_BUDGET.BUDGET < amt + 31) : s.place who amt prio t = (s.deny, false) := by
  unfold State.place State.neverFits
  rw [decide_eq_true h]
  rfl

/-! Assignment entries (R169). -/

/-- An assignment entry behind the others. -/
def State.queueEntry (s : State) (e : Nat × Nat) : State :=
  { s with mac := { s.mac with queue := s.mac.queue ++ [e] } }

theorem State.queueEntry_next (s : State) (k : Fin 64) (e : Nat × Nat) :
    (s.next k).queueEntry e = (s.queueEntry e).next k := (rfl)

theorem State.cx_queueEntry (s : State) (e : Nat × Nat) (j : Nat) : (s.queueEntry e).cx j = s.cx j := (rfl)

theorem State.assign_room (s : State) (saddr cell : Nat) (ha : saddr < 65536) (h : s.mac.queue.length < 128) :
    s.assign saddr cell = (s.queueEntry (saddr, cell), true) := by
  unfold State.assign
  rw [if_pos h, Nat.mod_eq_of_lt ha]
  rfl

theorem State.assign_full (s : State) (saddr cell : Nat) (h : 128 ≤ s.mac.queue.length) :
    s.assign saddr cell = (s, false) :=
  if_neg (Nat.not_lt.mpr h)

/-! The register that an address names (R292, R405). -/

theorem State.operand_ok (s t : State) (k : Fin 64) {ok : Bool} (h : ok = true) : s.operand k ok t = t := if_pos h

theorem regAt_of_implemented {off : Nat} (h : implemented off = true) : regAt (0x3000000 + off) = some off := by
  unfold regAt
  rw [Nat.add_sub_cancel_left, if_pos ⟨Nat.le_add_right _ _, h⟩]

theorem regAt_elsewhere {a : Nat} (h : a < 0x3000000 ∨ implemented (a - 0x3000000) = false) : regAt a = none := by
  unfold regAt
  refine if_neg fun ⟨hle, hi⟩ => ?_
  obtain h | h := h
  · exact absurd hle (Nat.not_le.mpr h)
  · exact absurd (hi.symm.trans h) (by decide)

/-- An access to an implemented register has its effect. -/
theorem State.register_at (u : State) (k : Fin 64) (w : Nat) (f : Nat → State) {off : Nat}
    (ha : u.ga k w = 0x3000000 + off) (h4 : off % 4 = 0) (hi : implemented off = true) : u.register k w f = f off := by
  unfold State.register
  dsimp only
  rw [ha, regAt_of_implemented hi]
  exact State.operand_ok _ _ _ (beq_iff_eq.mpr (by omega))

/-- An address that is no multiple of 4 traps with OPERAND (R287). -/
theorem State.register_misaligned (u : State) (k : Fin 64) (w : Nat) (f : Nat → State) (h : u.ga k w % 4 ≠ 0) :
    u.register k w f = u.trap k Trap.operand :=
  if_neg (by simpa using h)

/-- An address at which no register lies traps with ADDR. -/
theorem State.register_elsewhere (u : State) (k : Fin 64) (w : Nat) (f : Nat → State) (h4 : u.ga k w % 4 = 0)
    (h : u.ga k w < 0x3000000 ∨ implemented (u.ga k w - 0x3000000) = false) :
    u.register k w f = u.trap k Trap.addr := by
  unfold State.register
  dsimp only
  rw [regAt_elsewhere h]
  exact State.operand_ok _ _ _ (beq_iff_eq.mpr h4)

/-! Registers that a read does not change. -/

/-- A read of the register at `off` gives the word it holds and consumes nothing. -/
structure QuietReg (off : Nat) : Prop where
  shown : ∀ (s : State) m, s.view m off = s.reg off
  kept : ∀ w, consumed off w = w
  noCapture : off ≠ CVN_NOW_LO.off

theorem QuietReg.hpnCfg (p : Fin 4) : QuietReg (HPn_CFG.off p.val) := by
  fin_cases p <;> exact ⟨fun _ _ => rfl, fun _ => rfl, by decide⟩

theorem QuietReg.seqCtrl : QuietReg SEQ_CTRL.off := ⟨fun _ _ => rfl, fun _ => rfl, by decide⟩
theorem QuietReg.seqSketchBase : QuietReg SEQ_SKETCH_BASE.off := ⟨fun _ _ => rfl, fun _ => rfl, by decide⟩
theorem QuietReg.memEccCfg : QuietReg MEM_ECC_CFG.off := ⟨fun _ _ => rfl, fun _ => rfl, by decide⟩

/-- A whole read of a quiet register: its word, no register changed, nothing else but the draw counter. -/
theorem QuietReg.readWhole {off : Nat} (h : QuietReg off) (s : State) (m : Master) :
    (s.readWhole m off).2 = s.reg off ∧ (∀ o, (s.readWhole m off).1.reg o = s.reg o) ∧
      { (s.readWhole m off).1 with regs := s.regs, free := s.free } = s := by
  obtain ⟨hothers, hself, hcaps, hframe⟩ := s.readWhole_frame m off
  refine ⟨h.shown s m, fun o => ?_, ?_⟩
  · by_cases e : o = off
    · rw [e, hself, h.kept]
    · exact hothers o e
  · rw [← hcaps.trans (if_neg h.noCapture)] at hframe
    exact hframe

theorem PlainReg.implemented {off : Nat} (h : PlainReg off) : implemented off = true := by
  obtain ⟨d, hd, -⟩ := h.tidy
  unfold Machine.implemented
  rw [hd]
  rfl

/-- The commit of a word to a plain register leaves in each field what its access code says and changes nothing else. -/
theorem PlainReg.commit {off : Nat} (h : PlainReg off) (s : State) (m : Master) (v : Word) :
    s.onlyReg (s.commit m [(off, v)]) off ∧ ∀ d, findReg off = some d → ∀ f ∈ d.fields,
      getBits ((s.commit m [(off, v)]).reg off) f.hi f.lo = f.after v (s.reg off) := by
  have hc : s.commit m [(off, v)] = s.setReg off (s.stored [(off, v)] off v) := by
    rw [State.commit_one s m off v (.inr (h.unlocked v)) h.noLauncher, h.inert]
  rw [hc]
  refine ⟨State.onlyReg_setReg _ _ _, fun d hd f hf => ?_⟩
  obtain ⟨e, he, ht⟩ := h.tidy
  obtain rfl := Option.some.inj (he.symm.trans hd)
  rw [State.reg_setReg_self, State.stored_field _ _ _ _ _ f hd ht hf, h.ungated]

/-- The registers of which RGET and RPUT are shown are quiet to read and plain to write. -/
theorem quiet_and_plain (p : Fin 4) {off : Nat}
    (h : off ∈ [SEQ_CTRL.off, SEQ_SKETCH_BASE.off, MEM_ECC_CFG.off, HPn_CFG.off p.val]) :
    QuietReg off ∧ PlainReg off ∧ off % 4 = 0 := by
  simp only [List.mem_cons, List.not_mem_nil, or_false] at h
  obtain rfl | rfl | rfl | rfl := h
  · exact ⟨.seqCtrl, .seq (by decide) (by decide) (by decide), by decide⟩
  · exact ⟨.seqSketchBase, .seq (by decide) (by decide) (by decide), by decide⟩
  · exact ⟨.memEccCfg, .mem (by decide) (by decide) (by decide), by decide⟩
  · exact ⟨.hpnCfg p, .hpnCfg p, by unfold HPn_CFG.off; omega⟩

/-! The four functions, encoded. -/

/-- RGET of the register at `off` into g_d. -/
def State.getReg (u : State) (k : Fin 64) (d off : Nat) : State :=
  let r := (u.next k).readWhole (.ctx k) off
  r.1.setCx k.val ((r.1.cx k.val).wr d r.2)

/-- RGET of a quiet register writes its word to g_d and changes nothing else. -/
theorem QuietReg.getReg {off : Nat} (h : QuietReg off) (u : State) (k : Fin 64) (d : Nat) :
    (u.getReg k d off).cx k.val = (u.cx k.val).next.wr d (u.reg off) ∧
      (∀ j, j ≠ k.val → (u.getReg k d off).cx j = u.cx j) ∧ (∀ o, (u.getReg k d off).reg o = u.reg o) ∧
      { u.getReg k d off with regs := u.regs, ctx := u.ctx, free := u.free } = u := by
  obtain ⟨hword, hregs, hframe⟩ := h.readWhole (u.next k) (.ctx k)
  have hcx : ∀ j, ((u.next k).readWhole (.ctx k) off).1.cx j = (u.next k).cx j := fun j =>
    (congrArg (fun x : State => x.cx j) hframe :)
  refine ⟨?_, fun j hj => ?_, hregs, congrArg (fun x : State => { x with ctx := u.ctx }) hframe⟩
  · unfold State.getReg
    dsimp only
    rw [State.cx_setCx_self, hcx, hword]
    exact congrArg (fun c : Ctx => c.wr d (u.reg off)) (State.cx_setCx_self _ _ _)
  · exact (State.cx_setCx_ne _ _ _ _ hj).trans ((hcx j).trans (State.cx_setCx_ne _ _ _ _ hj))

/-- BUDG of `n` once the context's old claim has been given up. -/
def State.budg (v : State) (k : Fin 64) (n d : Nat) : State :=
  if n = 0 then (v.next k).finish k.val d Status.ok
  else
    let r := (v.next k).place (.budg k) n (v.cx k.val).prio (v.cx k.val).ticket
    if r.2 then r.1.park k.val .well (.budg d) else r.1.finish k.val d Status.budgetDenied

/-- BUDG of 0 has done all with the old claim. -/
theorem State.budg_zero (v : State) (k : Fin 64) (d : Nat) {c : Ctx} (hc : v.cx k.val = c) (h : c.st = .ready) :
    v.budg k 0 d = v.answered k c d Status.ok :=
  v.finish_next k d Status.ok hc h

/-- BUDG of a claim that the budget can never hold answers BUDGET_DENIED. -/
theorem State.budg_denied (v : State) (k : Fin 64) (n d : Nat) {c : Ctx} (hc : v.cx k.val = c) (h : c.st = .ready)
    (hn : 0 < n) (hfit : 2 * v.fld WELL_BUDGET.BUDGET < n + 31) :
    let t := v.budg k n d
    t.cx k.val = { c.next.wr d 0x15#32 with st := .ready, susp := .none, z := false, since := v.stamp } ∧
      t.on WELL_DENY_CNT.DENY = true ∧ t.well = v.well := by
  have ht : v.budg k n d = v.deny.answered k c d Status.budgetDenied := by
    unfold State.budg
    rw [if_neg hn.ne', State.place_denied (v.next k) _ _ _ _ (by rw [State.fld_next]; exact hfit)]
    dsimp only
    rw [if_neg Bool.false_ne_true, State.deny_next]
    exact v.deny.finish_next k d Status.budgetDenied ((v.cx_deny _).trans hc) h
  dsimp only
  rw [ht]
  refine ⟨?_, ?_, ?_⟩
  · rw [State.answered_cx_self, State.stamp_deny]
    rfl
  · rw [State.on_of_regs (State.answered_regs _ _ _ _ _)]
    exact v.deny_on
  · rw [State.answered_well, State.deny_well]

/-- BUDG of a claim that the budget can hold parks behind it. -/
theorem State.budg_waits (v : State) (k : Fin 64) (n d : Nat) {c : Ctx} (hc : v.cx k.val = c) (h : c.st = .ready)
    (hn : 0 < n) (hfit : n + 31 ≤ 2 * v.fld WELL_BUDGET.BUDGET) :
    let t := v.budg k n d
    t.cx k.val = { c.next with st := .parked .well, susp := .budg d } ∧
      t.well.queue = v.well.queue ++ [⟨.budg k, n, c.prio, c.ticket, v.stamp, false⟩] ∧
      t.well.granted = v.well.granted ∧ { t with ctx := v.ctx, well := v.well } = v := by
  have ht : v.budg k n d =
      (v.queueClaim ⟨.budg k, n, c.prio, c.ticket, v.stamp, false⟩).parked k c .well (.budg d) := by
    unfold State.budg
    rw [if_neg hn.ne', hc, State.place_fits (v.next k) _ _ _ _ (by rw [State.fld_next]; exact hfit)]
    dsimp only
    rw [if_pos rfl, State.queueClaim_next, State.stamp_next]
    exact (v.queueClaim _).park_next k .well (.budg d) ((v.cx_queueClaim _ _).trans hc) h
  dsimp only
  rw [ht]
  exact ⟨State.cx_setCx_self _ _ _, rfl, rfl, rfl⟩

/-- The fields of x that a SYS function reads. -/
theorem natBits_of_fx {w x : Nat} (h : natBits w 13 0 = x) :
    fnOf w = x % 2 ^ 6 ∧ natBits w 13 6 = x / 2 ^ 6 ∧ natBits w 13 7 = x / 2 ^ 7 ∧ w.testBit 6 = x.testBit 6 := by
  rw [testBit_eq_natBits, testBit_eq_natBits]
  unfold fnOf
  simp only [natBits_eq_div_mod] at h ⊢
  refine ⟨?_, ?_, ?_, ?_⟩
  · omega
  · omega
  · omega
  · congr 2; omega

section
variable {s : State} {k : Fin 64} {env : Env} {w : Nat} (h : s.fetches k env w) (ho : opOf w = 0x3F)
include h ho

/-- An encoded RGET. -/
theorem execOpRget_ran (hx : natBits w 13 0 = 0) (hb : fb w = 0) :
    execOpRget k env s = .next ((s.fetched k env).register k w ((s.fetched k env).getReg k (fd w))) := by
  obtain ⟨hf, hz, -, -⟩ := natBits_of_fx hx
  unfold execOpRget
  rw [State.function_fetches (fn := 0x00) h ho hf, State.coded_ok _ _ _ (by simp [hz, hb]), State.fetches_parity h]
  rfl

/-- An encoded RPUT. -/
theorem execOpRput_ran (hx : natBits w 13 0 = 1) (hd : fd w = 0) :
    execOpRput k env s = .next ((s.fetched k env).register k w (fun off =>
      ((s.fetched k env).next k).commit (.ctx k) [(off, ((s.fetched k env).cx k.val).rd (fb w))])) := by
  obtain ⟨hf, hz, -, -⟩ := natBits_of_fx hx
  unfold execOpRput
  rw [State.function_fetches (fn := 0x01) h ho hf, State.coded_ok _ _ _ (by simp [hz, hd]), State.fetches_parity h]
  rfl

/-- An encoded MACQ that queues an assignment entry. -/
theorem execOpMacq_entry (hx : natBits w 13 0 = 2) (hb : fb w = 0) :
    let u := s.fetched k env
    let r := (u.next k).assign (u.ga k w % 2 ^ 16) (natBits (u.ga k w) 28 16)
    execOpMacq k env s = .next (r.1.finish k.val (fd w) (if r.2 then Status.ok else Status.queueFull)) := by
  obtain ⟨hf, -, hz, h6⟩ := natBits_of_fx hx
  have hentry : ¬w.testBit 6 = true := by rw [h6]; decide
  unfold execOpMacq
  rw [State.function_fetches (fn := 0x02) h ho hf, State.coded_ok _ _ _ (by simp [hz, hb])]
  dsimp only
  rw [if_neg hentry]

/-- MACQ queues an assignment entry behind fewer than 128 others (R169). -/
theorem execOpMacq_queues (hx : natBits w 13 0 = 2) (hb : fb w = 0) (hroom : s.mac.queue.length < 128) :
    let u := s.fetched k env
    execOpMacq k env s = .next (State.answered { u with
      mac := { s.mac with queue := s.mac.queue ++ [(u.ga k w % 2 ^ 16, natBits (u.ga k w) 28 16)] } }
      k (u.cx k.val) (fd w) Status.ok) := by
  rw [← s.fetched_mac k env] at hroom ⊢
  refine (execOpMacq_entry h ho hx hb).trans (congrArg _ ?_)
  rw [State.assign_room ((s.fetched k env).next k) (_ % 2 ^ 16) _ (Nat.mod_lt _ (by decide)) hroom,
    State.queueEntry_next, if_pos rfl]
  exact State.finish_next _ k _ _ (State.cx_queueEntry _ _ _) (State.fetched_ready h)

/-- MACQ behind 128 entries answers QUEUE_FULL. -/
theorem execOpMacq_full (hx : natBits w 13 0 = 2) (hb : fb w = 0) (hfull : 128 ≤ s.mac.queue.length) :
    let u := s.fetched k env
    execOpMacq k env s = .next (u.answered k (u.cx k.val) (fd w) Status.queueFull) := by
  rw [← s.fetched_mac k env] at hfull
  refine (execOpMacq_entry h ho hx hb).trans (congrArg _ ?_)
  rw [State.assign_full ((s.fetched k env).next k) _ _ hfull]
  exact State.finish_next _ k _ _ rfl (State.fetched_ready h)

/-- An encoded MACQ that writes the hash seed. -/
theorem execOpMacq_seed (hx : natBits w 13 0 = 0x42) (hb : fb w = 0) :
    let u := s.fetched k env
    execOpMacq k env s = .next (if u.on MAC_ROLE.SF_EN then (u.next k).finish k.val (fd w) Status.badCommand
      else ((u.next k).setFld MAC_NETID.SEED (u.ga k w % 2 ^ 16)).finish k.val (fd w) Status.ok) := by
  obtain ⟨hf, -, hz, h6⟩ := natBits_of_fx hx
  have hseed : w.testBit 6 = true := by rw [h6]; decide
  unfold execOpMacq
  rw [State.function_fetches (fn := 0x02) h ho hf, State.coded_ok _ _ _ (by simp [hz, hb])]
  dsimp only
  rw [if_pos hseed]
  rfl

/-- MACQ writes the hash seed with SF_EN = 0. -/
theorem execOpMacq_writesSeed (hx : natBits w 13 0 = 0x42) (hb : fb w = 0)
    (hoff : (s.fetched k env).on MAC_ROLE.SF_EN = false) :
    let u := s.fetched k env
    execOpMacq k env s =
      .next ((u.setFld MAC_NETID.SEED (u.ga k w % 2 ^ 16)).answered k (u.cx k.val) (fd w) Status.ok) := by
  refine (execOpMacq_seed h ho hx hb).trans (congrArg _ ?_)
  rw [hoff, if_neg Bool.false_ne_true, State.setFld_next]
  exact State.finish_next _ k _ _ (State.cx_setFld _ _ _ _) (State.fetched_ready h)

/-- MACQ of the hash seed with SF_EN = 1 answers BAD_COMMAND. -/
theorem execOpMacq_refused (hx : natBits w 13 0 = 0x42) (hb : fb w = 0)
    (hon : (s.fetched k env).on MAC_ROLE.SF_EN = true) :
    let u := s.fetched k env
    execOpMacq k env s = .next (u.answered k (u.cx k.val) (fd w) Status.badCommand) := by
  refine (execOpMacq_seed h ho hx hb).trans (congrArg _ ?_)
  rw [hon, if_pos rfl]
  exact State.finish_next _ k _ _ rfl (State.fetched_ready h)

/-- An encoded BUDG. -/
theorem execOpBudg_ran (hx : natBits w 13 0 = 0x10) (hb : fb w = 0) :
    let u := s.fetched k env
    execOpBudg k env s = .next ((u.withdraw (.budg k)).budg k (u.ga k w) (fd w)) := by
  obtain ⟨hf, hz, -, -⟩ := natBits_of_fx hx
  unfold execOpBudg
  rw [State.function_fetches (fn := 0x10) h ho hf, State.coded_ok _ _ _ (by simp [hz, hb]), State.withdraw_next]
  rfl

end

/-- Settles O28: after the fetch each function is a register access, an assignment, or a claim placed. -/
theorem registersAndClaimsFromAContext : Obligations.RegistersAndClaimsFromAContext := by
  unfold Obligations.RegistersAndClaimsFromAContext
  intro k env w s h ho
  have hready := State.fetched_ready h
  dsimp only
  refine ⟨fun p off hoff ha => ?_, fun hx hb => ⟨fun h4 => ?_, fun h4 hno => ?_⟩,
    fun hx hd => ⟨fun h4 => ?_, fun h4 hno => ?_⟩,
    fun hb => ⟨fun hx hroom => ?_, fun hx hfull => ?_, fun hx hoffs => ?_, fun hx hons => ?_, fun hx hn => ?_,
      fun hx hn hfit => ?_, fun hx hn hfit => ?_⟩⟩
  · obtain ⟨hquiet, hplain, h4⟩ := quiet_and_plain p hoff
    have hat : ∀ f, (s.fetched k env).register k w f = f off := fun f =>
      (s.fetched k env).register_at k w f ha h4 hplain.implemented
    refine ⟨fun hx hb => ⟨_, execOpRget_ran h ho hx hb, ?_⟩, fun hx hd => ⟨_, execOpRput_ran h ho hx hd, ?_⟩⟩
    · rw [hat]
      obtain ⟨hself, hothers, hregs, hframe⟩ := hquiet.getReg (s.fetched k env) k (fd w)
      exact ⟨hself, fun j hj => (hothers j hj).trans (s.fetched_cx_ne k env hj), hregs, hframe⟩
    · rw [hat, ← (s.fetched k env).reg_next k]
      exact hplain.commit ((s.fetched k env).next k) _ _
  · exact (execOpRget_ran h ho hx hb).trans (congrArg _ (State.register_misaligned _ _ _ _ h4))
  · exact (execOpRget_ran h ho hx hb).trans (congrArg _ (State.register_elsewhere _ _ _ _ h4 hno))
  · exact (execOpRput_ran h ho hx hd).trans (congrArg _ (State.register_misaligned _ _ _ _ h4))
  · exact (execOpRput_ran h ho hx hd).trans (congrArg _ (State.register_elsewhere _ _ _ _ h4 hno))
  · exact execOpMacq_queues h ho hx hb hroom
  · exact execOpMacq_full h ho hx hb hfull
  · exact execOpMacq_writesSeed h ho hx hb hoffs
  · exact execOpMacq_refused h ho hx hb hons
  · refine (execOpBudg_ran h ho hx hb).trans (congrArg _ ?_)
    rw [show (s.fetched k env).ga k w = 0 from hn]
    exact State.budg_zero _ k _ (State.cx_withdraw _ _ _) hready
  · obtain ⟨hcx, hdenied, hwell⟩ := State.budg_denied ((s.fetched k env).withdraw (.budg k)) k _ (fd w)
      (State.cx_withdraw _ _ _) hready hn (by rw [State.fld_withdraw]; exact hfit)
    rw [State.stamp_withdraw] at hcx
    exact ⟨_, execOpBudg_ran h ho hx hb, hcx, hdenied, hwell⟩
  · obtain ⟨hcx, hqueue, hgranted, hframe⟩ := State.budg_waits ((s.fetched k env).withdraw (.budg k)) k _ (fd w)
      (State.cx_withdraw _ _ _) hready hn (by rw [State.fld_withdraw]; exact hfit)
    rw [State.stamp_withdraw] at hqueue
    rw [State.withdraw_ctx] at hframe
    exact ⟨_, execOpBudg_ran h ho hx hb, hcx, hqueue, hgranted,
      (congrArg (fun x : State => { x with well := (s.fetched k env).well }) hframe).trans (State.withdraw_frame _ _)⟩

end Sys2Proof.Machine

/-! The counter and the launchers: what each operation on them leaves (R23, R24, R29–R34). -/

namespace Sys2Proof.Machine

/-! The counter. -/

theorem State.stamp_of_awake {s : State} (h : s.asleep = false) : s.stamp = s.time.now := by
  unfold State.stamp
  rw [h]
  rfl

@[simp] theorem State.asleep_moveTo (s : State) (n : Nat) : (s.moveTo n).asleep = s.asleep := (rfl)

/-- A counter that can reach `n` stands at it or beyond after the move. -/
theorem State.le_moveTo_now {s : State} {n : Nat} (h : s.reach n = true) : n ≤ (s.moveTo n).time.now := by
  have hr : n ≤ max s.time.now s.time.limit := of_decide_eq_true h
  show n ≤ max s.time.now (min s.time.limit n)
  omega

theorem State.now_le_moveTo (s : State) (n : Nat) : s.time.now ≤ (s.moveTo n).time.now := Nat.le_max_left _ _

/-- A stamp ahead that the counter can reach is where it moves to. -/
theorem State.moveTo_now {s : State} {n : Nat} (h : s.reach n = true) (hn : s.time.now ≤ n) :
    (s.moveTo n).time.now = n := by
  have hr : n ≤ max s.time.now s.time.limit := of_decide_eq_true h
  show max s.time.now (min s.time.limit n) = n
  omega

/-! What an operation leaves unseen. An observation `g` of the state that does not see the parts which an operation changes
takes the same value before and after it: with `g` a field, that field is kept; with `g` the state whose changed parts are put
back, nothing else changes. -/

section
variable {β : Type} {g : State → β}

theorem State.setReg_unseen (hg : ∀ t r, g { t with regs := r } = g t) (s : State) (o : Nat) (w : Word) :
    g (s.setReg o w) = g s := hg s _

theorem State.setFld_unseen (hg : ∀ t r, g { t with regs := r } = g t) (s : State) (f : Fld) (v : Nat) :
    g (s.setFld f v) = g s := hg s _

theorem State.setLauncher_unseen (hg : ∀ t l, g { t with lnch := l } = g t) (s : State) (n : Nat) (x : Lnch) :
    g (s.setLauncher n x) = g s := hg s _

theorem State.leaveIdle_unseen (hg : ∀ t p, g { t with pwr := p } = g t) (s : State) : g s.leaveIdle = g s := by
  unfold State.leaveIdle
  split
  · exact hg s _
  · rfl

/-- Waking a context touches it and the power state. -/
theorem State.wake_unseen (hg : ∀ t c p, g { t with ctx := c, pwr := p } = g t) (s : State) (k : Nat) :
    g (s.wake k) = g s := by
  unfold State.wake
  rw [State.leaveIdle_unseen fun t p => hg t t.ctx p]
  exact hg s _ s.pwr

/-- Disarming touches the launcher and its register. -/
theorem State.lnOff_unseen (hg : ∀ t r l, g { t with regs := r, lnch := l } = g t) (s : State) (n : Nat) :
    g (s.lnOff n) = g s := by
  have regs : ∀ (t : State) f v, g (t.setFld f v) = g t := State.setFld_unseen fun t r => hg t r t.lnch
  have lnch : ∀ (t : State) n x, g (t.setLauncher n x) = g t := State.setLauncher_unseen fun t l => hg t t.regs l
  unfold State.lnOff
  dsimp only
  split
  · rw [regs, regs, regs, lnch]
  · rw [regs, lnch]

/-- An occurrence that has been acted on shows in the launcher's register alone. -/
theorem State.lnHit_unseen (hg : ∀ t r, g { t with regs := r } = g t) (s : State) (n : Nat) (late : Bool) :
    g (s.lnHit n late) = g s := by
  have regs : ∀ (t : State) f v, g (t.setFld f v) = g t := State.setFld_unseen hg
  unfold State.lnHit State.incSat
  dsimp only
  split
  · rw [regs, regs, regs]
  · rw [regs, regs]

/-- Arming touches the launcher and its register. -/
theorem State.lnArm_unseen (hg : ∀ t r l, g { t with regs := r, lnch := l } = g t) (s : State) (n : Nat) (x : Lnch) :
    g (s.lnArm n x) = g s := by
  have regs : ∀ (t : State) f v, g (t.setFld f v) = g t := State.setFld_unseen fun t r => hg t r t.lnch
  have lnch : ∀ (t : State) n x, g (t.setLauncher n x) = g t := State.setLauncher_unseen fun t l => hg t t.regs l
  unfold State.lnArm
  rw [regs, regs, regs, regs, lnch]

theorem State.lnArmInstr_unseen (hg : ∀ t r l, g { t with regs := r, lnch := l } = g t) (s : State)
    (n t action arg rep pol : Nat) (k : Fin 64) (op : Option Nat) :
    g (s.lnArmInstr n t action arg rep pol k op) = g s := by
  have flds : ∀ (t : State) f v, g (t.setFld f v) = g t := State.setFld_unseen fun t r => hg t r t.lnch
  have regs : ∀ (t : State) o w, g (t.setReg o w) = g t := State.setReg_unseen fun t r => hg t r t.lnch
  unfold State.lnArmInstr
  dsimp only
  rw [State.lnArm_unseen hg, flds, flds, flds, flds, regs, flds, flds]

/-- What only the books of memory errors changed. -/
theorem State.Books.unseen {s t : State} (h : s.Books t)
    (hg : ∀ t r m k c p o, g { t with regs := r, mem := m, marks := k, scrub := c, ports := p, cmrOpen := o } = g t) :
    g t = g s := by
  rw [← hg t s.regs s.mem s.marks s.scrub s.ports s.cmrOpen]
  exact congrArg g h

end

/-! Registers through updates of the contexts. -/

@[simp] theorem State.reg_setCx (s : State) (k : Nat) (c : Ctx) (o : Nat) : (s.setCx k c).reg o = s.reg o := (rfl)
@[simp] theorem State.on_setCx (s : State) (k : Nat) (c : Ctx) (f : Fld) : (s.setCx k c).on f = s.on f := (rfl)
@[simp] theorem State.on_park (s : State) (k : Nat) (a : Wait) (b : Susp) (f : Fld) : (s.park k a b).on f = s.on f := (rfl)
@[simp] theorem State.on_onCtx (s : State) (k : Fin 64) (f : Ctx → Ctx) (x : Fld) : (s.onCtx k f).on x = s.on x := (rfl)

/-! A context made ready. -/

theorem State.cx_wake (s : State) (k j : Nat) : (s.wake k).cx j =
    if j = k then { s.cx k with st := .ready, susp := .none, since := s.stamp } else s.cx j := by
  unfold State.wake
  rw [State.leaveIdle_unseen (g := fun t => t.cx j) fun _ _ => rfl]
  exact State.cx_setCx _ _ _ _

theorem State.leaveIdle_asleep (s : State) : s.leaveIdle.asleep = s.asleep := by
  unfold State.leaveIdle
  split
  · next h =>
    have hp : s.pwr.st = .idle := eq_of_beq h
    unfold State.asleep
    rw [hp]
    rfl
  · rfl

theorem State.leaveIdle_stamp (s : State) : s.leaveIdle.stamp = s.stamp := by
  unfold State.stamp
  rw [s.leaveIdle_asleep, s.leaveIdle_time]

theorem State.wake_stamp (s : State) (k : Nat) : (s.wake k).stamp = s.stamp := by
  unfold State.wake
  rw [State.leaveIdle_stamp]
  rfl

/-! Fields of one register and of several. -/

/-- A field in another register, or apart in the same one, reads what it read. -/
theorem State.on_setFld_apart (s : State) (f g : Fld) (v : Nat) (h : f.lo ≤ f.hi ∧ f.hi < 32)
    (a : g.hi < f.lo ∨ f.hi < g.lo) : (s.setFld f v).on g = s.on g := by
  unfold State.on
  rw [State.fld_setFld_apart s f g v h a]

theorem State.on_setFld_ne (s : State) (f g : Fld) (v : Nat) (h : g.off ≠ f.off) : (s.setFld f v).on g = s.on g := by
  unfold State.on
  rw [State.fld_setFld_ne s f g v h]

/-- A one-bit field that has been set reads 1. -/
theorem State.on_setFld_one (s : State) (f : Fld) (h : f.lo = f.hi ∧ f.hi < 32) : (s.setFld f 1).on f = true := by
  unfold State.on
  rw [State.fld_setFld s f 1 (by omega), show f.hi + 1 - f.lo = 1 by omega]
  rfl

theorem State.on_setFld_zero (s : State) (f : Fld) (h : f.lo ≤ f.hi ∧ f.hi < 32) : (s.setFld f 0).on f = false := by
  unfold State.on
  rw [State.fld_setFld s f 0 h, Nat.zero_mod]
  rfl

/-! Launchers. -/

@[simp] theorem State.on_setLauncher (s : State) (n : Nat) (x : Lnch) (f : Fld) : (s.setLauncher n x).on f = s.on f := (rfl)
@[simp] theorem State.fld_setLauncher (s : State) (n : Nat) (x : Lnch) (f : Fld) :
    (s.setLauncher n x).fld f = s.fld f := (rfl)
@[simp] theorem State.reg_setLauncher (s : State) (n : Nat) (x : Lnch) (o : Nat) :
    (s.setLauncher n x).reg o = s.reg o := (rfl)

theorem State.launcher_of_lnch {s t : State} (h : t.lnch = s.lnch) (i : Nat) : t.launcher i = s.launcher i := by
  unfold State.launcher
  rw [h]

@[simp] theorem State.launcher_setFld (s : State) (f : Fld) (v i : Nat) : (s.setFld f v).launcher i = s.launcher i :=
  State.launcher_of_lnch (State.setFld_lnch _ _ _) i

@[simp] theorem State.launcher_setReg (s : State) (o : Nat) (w : Word) (i : Nat) :
    (s.setReg o w).launcher i = s.launcher i :=
  State.launcher_of_lnch (State.setReg_lnch _ _ _) i

/-- The fields of CVN_Ln_ACT lie in its word. -/
theorem lnAct_fits (n : Nat) : ((CVN_Ln_ACT.ARMED n).lo ≤ (CVN_Ln_ACT.ARMED n).hi ∧ (CVN_Ln_ACT.ARMED n).hi < 32) ∧
    ((CVN_Ln_ACT.ACTION n).lo ≤ (CVN_Ln_ACT.ACTION n).hi ∧ (CVN_Ln_ACT.ACTION n).hi < 32) ∧
    ((CVN_Ln_ACT.ARG n).lo ≤ (CVN_Ln_ACT.ARG n).hi ∧ (CVN_Ln_ACT.ARG n).hi < 32) := by
  unfold CVN_Ln_ACT.ARMED CVN_Ln_ACT.ACTION CVN_Ln_ACT.ARG
  dsimp only
  omega

theorem State.launcher_lnOff (s : State) (n i : Nat) :
    (s.lnOff n).launcher i = if i = n then Lnch.off else s.launcher i := by
  unfold State.lnOff
  dsimp only
  split <;> simp [State.launcher_setLauncher]

/-- Disarming leaves every other register. -/
theorem State.reg_lnOff_ne (s : State) (n o : Nat) (h : o ≠ CVN_Ln_ACT.off n) : (s.lnOff n).reg o = s.reg o := by
  have keeps : ∀ (t : State) (f : Fld) v, f.off = CVN_Ln_ACT.off n → (t.setFld f v).reg o = t.reg o :=
    fun t f v hf => State.reg_setFld_ne _ _ _ _ (hf ▸ h)
  unfold State.lnOff
  dsimp only
  split
  · rw [keeps _ _ _ rfl, keeps _ _ _ rfl, keeps _ _ _ rfl, State.reg_setLauncher]
  · rw [keeps _ _ _ rfl, State.reg_setLauncher]

/-- Disarming keeps the fields of CVN_Ln_ACT between ACTION and ARMED. -/
theorem State.fld_lnOff (s : State) (n : Nat) (g : Fld) (hl : 15 < g.lo) (hh : g.hi < 31) :
    (s.lnOff n).fld g = s.fld g := by
  obtain ⟨hArmed, hAction, hArg⟩ := lnAct_fits n
  have armed : ∀ t : State, (t.setFld (CVN_Ln_ACT.ARMED n) 0).fld g = t.fld g :=
    fun t => State.fld_setFld_apart _ _ _ _ hArmed (.inl hh)
  have action : ∀ t : State, (t.setFld (CVN_Ln_ACT.ACTION n) 0).fld g = t.fld g :=
    fun t => State.fld_setFld_apart _ _ _ _ hAction (.inr hl)
  have arg : ∀ t : State, (t.setFld (CVN_Ln_ACT.ARG n) 0).fld g = t.fld g :=
    fun t => State.fld_setFld_apart _ _ _ _ hArg (.inr (Nat.lt_of_le_of_lt (by decide : 7 ≤ 15) hl))
  unfold State.lnOff
  dsimp only
  split
  · rw [arg, action, armed, State.fld_setLauncher]
  · rw [armed, State.fld_setLauncher]

theorem State.armed_lnOff (s : State) (n : Nat) : (s.lnOff n).on (CVN_Ln_ACT.ARMED n) = false := by
  obtain ⟨hArmed, hAction, hArg⟩ := lnAct_fits n
  have off : ∀ t : State, (t.setFld (CVN_Ln_ACT.ARMED n) 0).on (CVN_Ln_ACT.ARMED n) = false :=
    fun t => State.on_setFld_zero t _ hArmed
  unfold State.lnOff
  dsimp only
  split
  · rw [State.on_setFld_apart _ _ _ _ hArg (.inr (by exact (show 7 < 31 by decide))),
      State.on_setFld_apart _ _ _ _ hAction (.inr (by exact (show 15 < 31 by decide))), off]
  · exact off _

theorem State.launcher_lnArm (s : State) (n i : Nat) (x : Lnch) :
    (s.lnArm n x).launcher i = if i = n then x else s.launcher i := by
  unfold State.lnArm
  simp [State.launcher_setLauncher]

/-- An armed launcher's register: ARMED reads 1, FIRED, MISSED and FIRE_CNT read 0. -/
theorem State.fields_lnArm (s : State) (n : Nat) (x : Lnch) :
    (s.lnArm n x).on (CVN_Ln_ACT.ARMED n) = true ∧ (s.lnArm n x).on (CVN_Ln_ACT.FIRED n) = false ∧
      (s.lnArm n x).on (CVN_Ln_ACT.MISSED n) = false ∧ (s.lnArm n x).fld (CVN_Ln_ACT.FIRE_CNT n) = 0 := by
  unfold State.lnArm State.on
  refine ⟨?_, ?_, ?_, ?_⟩ <;>
    simp [State.fld_setFld, State.fld_setFld_apart, CVN_Ln_ACT.ARMED, CVN_Ln_ACT.FIRED, CVN_Ln_ACT.MISSED,
      CVN_Ln_ACT.FIRE_CNT]

theorem State.reg_lnArm_ne (s : State) (n o : Nat) (x : Lnch) (h : o ≠ CVN_Ln_ACT.off n) :
    (s.lnArm n x).reg o = s.reg o := by
  have keeps : ∀ (t : State) (f : Fld) v, f.off = CVN_Ln_ACT.off n → (t.setFld f v).reg o = t.reg o :=
    fun t f v hf => State.reg_setFld_ne _ _ _ _ (hf ▸ h)
  unfold State.lnArm
  dsimp only
  rw [keeps _ _ _ rfl, keeps _ _ _ rfl, keeps _ _ _ rfl, keeps _ _ _ rfl, State.reg_setLauncher]

/-- Arming by an instruction: the launcher and ARMED (R288, R291). -/
theorem State.lnArmInstr_arms (s : State) (n t action arg rep pol : Nat) (k : Fin 64) (op : Option Nat) :
    let u := s.lnArmInstr n t action arg rep pol k op
    u.on (CVN_Ln_ACT.ARMED n) = true ∧
      ∀ i, u.launcher i = if i = n then ⟨true, t, action, arg, rep, pol, some k, op, false, none⟩ else s.launcher i := by
  dsimp only
  unfold State.lnArmInstr
  dsimp only
  refine ⟨(State.fields_lnArm _ _ _).1, fun i => ?_⟩
  rw [State.launcher_lnArm]
  simp

/-- An occurrence that has been acted on sets FIRED and is counted; a late one sets MISSED too. -/
theorem State.fired_lnHit (s : State) (n : Nat) (late : Bool) : (s.lnHit n late).on (CVN_Ln_ACT.FIRED n) = true := by
  unfold State.lnHit State.on State.incSat
  cases late <;>
    simp [State.fld_setFld, State.fld_setFld_apart, CVN_Ln_ACT.FIRED, CVN_Ln_ACT.MISSED, CVN_Ln_ACT.FIRE_CNT]

end Sys2Proof.Machine

/-! Waiting for a stamp: TWAIT, TAT and TWAIT_EXPIRY (R288). -/

namespace Sys2Proof.Machine

theorem State.fetched_launcher (s : State) (k : Fin 64) (env : Env) (i : Nat) :
    (s.fetched k env).launcher i = s.launcher i := by
  have hu : (s.touch.upset env).lnch = s.lnch :=
    (((State.Books.refl s.touch).upset env).unseen (g := State.lnch) fun _ _ _ _ _ _ _ => rfl).trans s.touch_lnch
  refine State.launcher_of_lnch (Eq.trans ?_ hu) i
  exact ((State.Books.refl _).readSpan _ _).unseen (g := State.lnch) fun _ _ _ _ _ _ _ => rfl

/-- What a context takes on after the effect of an instruction, where that replaces what it took on before. -/
theorem State.onCtx_park (u : State) (k : Fin 64) (f : Ctx → Ctx) (why : Wait) (what : Susp)
    (h : (f (u.cx k.val).next).st ≠ .free) :
    (u.onCtx k f).park k.val why what = u.onCtx k fun c => { f c with st := .parked why, susp := what } := by
  unfold State.park State.onCtx
  rw [State.cx_setCx_self]
  exact State.setCx_setCx _ _ _ _ h

/-! TWAIT. -/

/-- An encoded TWAIT. -/
theorem execOpTwait_ran {s : State} {k : Fin 64} {env : Env} {w : Nat} (h : s.fetches k env w) (ho : opOf w = 0x2A)
    (hd : ftd w = 0) (hx : natBits w 21 0 = 0) :
    let u := s.fetched k env
    let t := (u.cx k.val).stampOf (fta w)
    execOpTwait k env s = .next (if t ≤ u.stamp then u.onCtx k (fun c => { c with c := true })
      else (u.onCtx k (fun c => { c with c := false })).park k.val .time (.twait t)) := by
  have ha : fa w = 0 := by unfold fa; simp only [natBits_eq_div_mod] at hx ⊢; omega
  have hi : fi w = 0 := by unfold fi; simp only [natBits_eq_div_mod] at hx ⊢; omega
  unfold execOpTwait
  rw [State.issue_fetches h ho, State.coded_ok _ _ _ (by simp [hd, ha, hi])]

/-! TAT. -/

/-- The encoding of TAT: x names a launcher, or with x[5] the lowest free one. -/
theorem tatOk_of {w : Nat} (hd : ftd w = 0) (ha : fa w = 0) (hx : natBits w 17 6 = 0)
    (h : natBits w 5 5 = 0 ∨ natBits w 5 5 = 1 ∧ natBits w 4 0 = 0) : tatOk w = true := by
  unfold tatOk
  rw [testBit_eq_natBits]
  obtain h | ⟨-, h⟩ := h <;> simp [hd, ha, hx, h]

/-- The launcher number that x names; 0xFF asks for the lowest free one. -/
def tatPick (w : Nat) : Nat := if w.testBit 5 then 0xFF else natBits w 4 0

theorem tatPick_named {w : Nat} (h : natBits w 5 5 = 0) : tatPick w = natBits w 4 0 := by
  unfold tatPick
  rw [testBit_eq_natBits, h]
  rfl

theorem tatPick_free {w : Nat} (h : natBits w 5 5 = 1) : tatPick w = 0xFF := by
  unfold tatPick
  rw [testBit_eq_natBits, h]
  rfl

theorem natBits_tatFree {w : Nat} (h : natBits w 5 0 = 0x20) : natBits w 5 5 = 1 ∧ natBits w 4 0 = 0 := by
  simp only [natBits_eq_div_mod] at h ⊢
  omega

/-- TAT arms launcher `n` for its context at stamp `t`. -/
def State.tatArm (u : State) (k : Fin 64) (n : Fin 32) (t : Nat) : State :=
  let v := ((u.lnFree n.val).onCtx k fun c => { c with c := u.lateArm t, v := false }).lnArmInstr n.val t 2 k.val 0 1 k none
  if u.lateArm t then (v.setFld (CVN_Ln_ACT.MISSED n.val) 1).lnOff n.val else v.park k.val .time (.tat n)

/-- An encoded TAT. -/
theorem execOpTat_ran {s : State} {k : Fin 64} {env : Env} {w : Nat} (h : s.fetches k env w) (ho : opOf w = 0x2B)
    (hok : tatOk w = true) :
    let u := s.fetched k env
    execOpTat k env s = .next (match u.lnPick (tatPick w) k with
      | some (some n) => u.tatArm k n ((u.cx k.val).stampOf (fta w))
      | _ => u.onCtx k fun c => { c with c := false, v := true }) := by
  unfold execOpTat
  rw [State.issue_fetches h ho, State.coded_ok _ _ _ hok]
  rfl

/-- A launcher that is not armed may be named. -/
theorem State.lnPick_named (u : State) (k : Fin 64) (n : Fin 32) (h : (u.launcher n.val).armed = false) :
    u.lnPick n.val k = some (some n) := by
  unfold State.lnPick
  rw [dif_pos n.isLt]
  dsimp only
  rw [h]
  rfl

/-- A launcher that another context's instruction armed may not. -/
theorem State.lnPick_taken (u : State) (k j : Fin 64) (n : Nat) (hn : n < 32) (h : (u.launcher n).armed = true)
    (ho : (u.launcher n).owner = some j) (hj : j ≠ k) : u.lnPick n k = some none := by
  have hne : (some j != some k) = true := by simp [hj]
  unfold State.lnPick
  rw [dif_pos hn]
  dsimp only
  rw [h, ho, hne]
  simp

/-- The lowest launcher of L4 to L31 that is not armed is the free one. -/
theorem State.lnPick_lowest (u : State) (k : Fin 64) (n : Fin 32) (h4 : 4 ≤ n.val)
    (hbelow : ∀ i, 4 ≤ i → i < n.val → (u.launcher i).armed = true) (h : (u.launcher n.val).armed = false) :
    u.lnPick 0xFF k = some (some n) := by
  have hfind : (List.finRange 32).find? (fun i => decide (4 ≤ i.val) && !(u.launcher i.val).armed) = some n := by
    rw [List.find?_eq_some_iff_getElem]
    refine ⟨by simp [h4, h], n.val, by simp, by simp, fun j hj => ?_⟩
    rw [List.getElem_finRange]
    by_cases hj4 : 4 ≤ j
    · simp [hbelow j hj4 hj]
    · simp [hj4]
  unfold State.lnPick
  rw [dif_neg (by decide), hfind]

theorem State.lnPick_none (u : State) (k : Fin 64) (h : ∀ i, 4 ≤ i → i < 32 → (u.launcher i).armed = true) :
    u.lnPick 0xFF k = none := by
  have hfind : (List.finRange 32).find? (fun i => decide (4 ≤ i.val) && !(u.launcher i.val).armed) = none := by
    rw [List.find?_eq_none]
    intro i _
    by_cases h4 : 4 ≤ i.val
    · simp [h i.val h4 i.isLt]
    · simp [h4]
  unfold State.lnPick
  rw [dif_neg (by decide), hfind]

section
variable (u : State) (k : Fin 64) (n : Fin 32) (t : Nat) (hop : (u.launcher n.val).op = none)
include hop

/-- TAT of a stamp at least 16 fine units ahead parks behind the launcher. -/
theorem State.tatArm_parks (h : u.stamp + 16 ≤ t) :
    let v := u.tatArm k n t
    v.cx k.val = { (u.cx k.val).next with c := false, v := false, st := .parked .time, susp := .tat n } ∧
      v.launcher n.val = ⟨true, t, 2, k.val, 0, 1, some k, none, false, none⟩ ∧
      (∀ i, i ≠ n.val → v.launcher i = u.launcher i) ∧ v.on (CVN_Ln_ACT.ARMED n.val) = true ∧
      { v with regs := u.regs, ctx := u.ctx, lnch := u.lnch } = u := by
  have hlate : u.lateArm t = false := decide_eq_false (Nat.not_lt.mpr h)
  have hfree : u.lnFree n.val = u := by unfold State.lnFree; rw [hop]
  unfold State.tatArm
  rw [hlate, hfree]
  dsimp only
  rw [if_neg Bool.false_ne_true]
  generalize hc : (fun c : Ctx => { c with c := false, v := false }) = f
  obtain ⟨harmed, hlnch⟩ := (u.onCtx k f).lnArmInstr_arms n.val t 2 k.val 0 1 k none
  have hcx := State.lnArmInstr_unseen (g := fun t => t.cx k.val) (fun _ _ _ => rfl) (u.onCtx k f) n.val t 2 k.val 0 1 k none
  have hframe := State.lnArmInstr_unseen (g := fun t => { t with regs := u.regs, ctx := u.ctx, lnch := u.lnch })
    (fun _ _ _ => rfl) (u.onCtx k f) n.val t 2 k.val 0 1 k none
  obtain ⟨v, hdef⟩ : ∃ v, v = (u.onCtx k f).lnArmInstr n.val t 2 k.val 0 1 k none := ⟨_, rfl⟩
  rw [← hdef] at harmed hcx hframe hlnch ⊢
  have hv : v.cx k.val = f (u.cx k.val).next := hcx.trans (State.cx_setCx_self _ _ _)
  refine ⟨?_, (hlnch n.val).trans (if_pos rfl), fun i hi => (hlnch i).trans (if_neg hi),
    (State.on_park _ _ _ _ _).trans harmed, hframe⟩
  unfold State.park
  rw [State.cx_setCx_self, hv, ← hc]

/-- TAT of a stamp reached or less than 16 fine units ahead goes on with C and leaves the launcher disarmed with MISSED. -/
theorem State.tatArm_late (h : t < u.stamp + 16) :
    let v := u.tatArm k n t
    v.cx k.val = { (u.cx k.val).next with c := true, v := false } ∧ v.launcher n.val = Lnch.off ∧
      (∀ i, i ≠ n.val → v.launcher i = u.launcher i) ∧ v.on (CVN_Ln_ACT.MISSED n.val) = true ∧
      { v with regs := u.regs, ctx := u.ctx, lnch := u.lnch } = u := by
  have hlate : u.lateArm t = true := decide_eq_true h
  have hfree : u.lnFree n.val = u := by unfold State.lnFree; rw [hop]
  unfold State.tatArm
  rw [hlate, hfree]
  dsimp only
  rw [if_pos rfl]
  generalize hc : (fun c : Ctx => { c with c := true, v := false }) = f
  obtain ⟨-, hlnch⟩ := (u.onCtx k f).lnArmInstr_arms n.val t 2 k.val 0 1 k none
  have hseen : ∀ {β : Type} (g : State → β), (∀ t r l, g { t with regs := r, lnch := l } = g t) →
      g (((((u.onCtx k f).lnArmInstr n.val t 2 k.val 0 1 k none).setFld (CVN_Ln_ACT.MISSED n.val) 1).lnOff n.val)) =
        g (u.onCtx k f) := fun g hg => by
    rw [State.lnOff_unseen hg, State.setFld_unseen fun t r => hg t r t.lnch, State.lnArmInstr_unseen hg]
  refine ⟨?_, ?_, fun i hi => ?_, ?_, hseen (fun t => { t with regs := u.regs, ctx := u.ctx, lnch := u.lnch }) fun _ _ _ => rfl⟩
  · refine (hseen (fun t => t.cx k.val) fun _ _ _ => rfl).trans ?_
    rw [← hc]
    exact State.cx_setCx_self _ _ _
  · rw [State.launcher_lnOff, if_pos rfl]
  · rw [State.launcher_lnOff, if_neg hi, State.launcher_setFld, hlnch, if_neg hi]
    rfl
  · unfold State.on
    rw [State.fld_lnOff _ _ _ (by exact (show 15 < 27 by decide)) (by exact (show 27 < 31 by decide))]
    exact State.on_setFld_one _ _ ⟨rfl, by exact (show 27 < 32 by decide)⟩

end

/-- TWAIT_EXPIRY of a stamp that the counter reaches makes the context ready. -/
theorem execTwaitExpiry_wakes (k : Fin 64) (n : Nat) (s : State) (ha : s.awake = true) (hw : s.asleep = false)
    (hc : (s.cx k.val).susp = .twait n) (hr : s.reach n = true) :
    ∃ t, execTwaitExpiry k s = .next t ∧ n ≤ t.stamp ∧ s.stamp ≤ t.stamp ∧
      t.cx k.val = { s.cx k.val with st := .ready, susp := .none, since := t.stamp } ∧ (∀ j, j ≠ k.val → t.cx j = s.cx j) ∧
      { t with ctx := s.ctx, time := s.time, pwr := s.pwr } = s := by
  have hstamp : ((s.moveTo n).wake k.val).stamp = (s.moveTo n).time.now :=
    (State.wake_stamp _ _).trans (State.stamp_of_awake hw)
  refine ⟨(s.moveTo n).wake k.val, ?_, ?_, ?_, ?_, fun j hj => ?_, ?_⟩
  · unfold execTwaitExpiry
    rw [hc]
    exact if_pos ⟨ha, hr⟩
  · rw [hstamp]
    exact State.le_moveTo_now hr
  · rw [hstamp, State.stamp_of_awake hw]
    exact s.now_le_moveTo n
  · rw [State.wake_stamp, State.cx_wake, if_pos rfl]
    rfl
  · rw [State.cx_wake, if_neg hj]
    rfl
  · exact State.wake_unseen (g := fun t => { t with ctx := s.ctx, time := s.time, pwr := s.pwr }) (fun _ _ _ => rfl) _ _

/-- Settles O26: after the fetch TWAIT compares, TAT picks a launcher and arms it, and the expiry wakes. -/
theorem waitingForAStamp : Obligations.WaitingForAStamp := by
  unfold Obligations.WaitingForAStamp
  refine ⟨fun k env w s h => ?_, fun k n s ha hw hc hr => execTwaitExpiry_wakes k n s ha hw hc hr⟩
  have hready := State.fetched_ready h
  have hl := s.fetched_launcher k env
  dsimp only
  refine ⟨fun ho hd hx => ⟨fun ht => ?_, fun ht => ?_⟩, fun ho hd ha hx n hn hoff hop => ?_, fun ho hd ha hx hn => ?_⟩
  · exact (execOpTwait_ran h ho hd hx).trans (congrArg _ (if_pos ht))
  · refine (execOpTwait_ran h ho hd hx).trans (congrArg _ ((if_neg (Nat.not_le.mpr ht)).trans ?_))
    exact State.onCtx_park _ _ _ _ _ fun e => absurd (hready.symm.trans e) (by decide)
  · have hpick : (s.fetched k env).lnPick (tatPick w) k = some (some n) ∧ tatOk w = true := by
      rw [← hl] at hoff
      obtain ⟨h5, hn⟩ | ⟨h5, h4, hbelow⟩ := hn
      · rw [tatPick_named h5, ← hn]
        exact ⟨State.lnPick_named _ _ _ hoff, tatOk_of hd ha hx (.inl h5)⟩
      · obtain ⟨hbit, hzero⟩ := natBits_tatFree h5
        rw [tatPick_free hbit]
        exact ⟨State.lnPick_lowest _ _ _ h4 (fun i h4 hi => hl i ▸ hbelow i h4 hi) hoff, tatOk_of hd ha hx (.inr ⟨hbit, hzero⟩)⟩
    rw [← hl] at hop
    have hran := execOpTat_ran h ho hpick.2
    dsimp only at hran
    rw [hpick.1] at hran
    simp only [← hl]
    exact ⟨fun ht => ⟨_, hran, State.tatArm_parks _ _ _ _ hop ht⟩, fun ht => ⟨_, hran, State.tatArm_late _ _ _ _ hop ht⟩⟩
  · have hpick : tatOk w = true ∧ ∀ n, (s.fetched k env).lnPick (tatPick w) k ≠ some (some n) := by
      obtain ⟨h5, harmed, j, howner, hj⟩ | ⟨h5, hall⟩ := hn
      · refine ⟨tatOk_of hd ha hx (.inl h5), fun n => ?_⟩
        rw [← hl] at harmed howner
        have hlt : natBits w 4 0 < 32 := by rw [natBits_eq_div_mod]; omega
        rw [tatPick_named h5, State.lnPick_taken _ k j _ hlt harmed howner hj]
        exact nofun
      · obtain ⟨hbit, hzero⟩ := natBits_tatFree h5
        refine ⟨tatOk_of hd ha hx (.inr ⟨hbit, hzero⟩), fun n => ?_⟩
        rw [tatPick_free hbit, State.lnPick_none _ k fun i h4 hi => hl i ▸ hall i h4 hi]
        exact nofun
    refine (execOpTat_ran h ho hpick.1).trans (congrArg _ ?_)
    split
    · next n hn => exact absurd hn (hpick.2 n)
    · rfl

end Sys2Proof.Machine

/-! Launchers armed and cancelled through CVN_Ln_ACT (R29, R31, R32). -/

namespace Sys2Proof.Machine

/-- The row of the register table at which every CVN_Ln_ACT is found. -/
def lnActDef : RegDef :=
  ⟨0x5108, 16, 32, .all 0x0,
    [⟨31, 31, .ro, []⟩, ⟨30, 30, .wo, []⟩, ⟨29, 29, .wo, []⟩, ⟨28, 28, .ro, []⟩, ⟨27, 27, .ro, []⟩, ⟨26, 26, .rw, []⟩,
     ⟨25, 24, .rw, [(0, 2)]⟩, ⟨23, 16, .ro, []⟩, ⟨15, 12, .rw, [(0, 0), (2, 10)]⟩, ⟨11, 8, .rw, []⟩, ⟨7, 0, .rw, []⟩]⟩

theorem findReg_lnAct : ∀ n : Fin 32, findReg (CVN_Ln_ACT.off n.val) = some lnActDef := by decide

theorem lnActDef_tidy : lnActDef.tidy = true := by decide

theorem lnAct_block (n : Fin 32) : CVN_Ln_ACT.off n.val / 0x1000 = 5 := by unfold CVN_Ln_ACT.off; omega

/-- A word written to CVN_Ln_ACT is committed after an occurrence of the launcher that is due (R31). -/
theorem State.commit_lnAct (s : State) (m : Master) (n : Fin 32) (w : Word) :
    let u := s.occurDue n
    let off := CVN_Ln_ACT.off n.val
    s.commit m [(off, w)] = (u.setReg off (u.stored [(off, w)] off w)).effCvn u off w := by
  have hact : s.actFirst (CVN_Ln_ACT.off n.val) = s.occurDue n := by
    have hn : Fin.ofNat 32 ((CVN_Ln_ACT.off n.val - 0x5108) / 16) = n :=
      Fin.ext (by unfold CVN_Ln_ACT.off; simp only [Fin.val_ofNat]; omega)
    unfold State.actFirst
    rw [if_pos (by unfold CVN_Ln_ACT.off; omega), hn]
  obtain ⟨hshield, hdenied⟩ := (s.occurDue n).shield_open (CVN_Ln_ACT.off n.val) w
    (.inr (protectedFields_none _ _ (by have := n.isLt; unfold CVN_Ln_ACT.off RFA_PA_LEVEL.off WELL_CLAIM_TAB.off; omega)))
  dsimp only
  rw [← State.effect_block5 _ _ m ((s.occurDue n).masterTicket m) [(CVN_Ln_ACT.off n.val, w)] _ _ (lnAct_block n)]
  simp [State.commit, hact, hshield, hdenied]

/-- A register write of CVN_Ln_ACT that reaches it. -/
theorem State.regWrite_lnAct (s : State) (m : Master) (n : Fin 32) (w : Word) (hr : s.reaches m = true) :
    let u := s.moment.occurDue n
    let off := CVN_Ln_ACT.off n.val
    s.regWrite m (fun _ => [(off, w)]) = .next ((u.setReg off (u.stored [(off, w)] off w)).effCvn u off w) := by
  have hi : implemented (CVN_Ln_ACT.off n.val) = true := by unfold implemented; rw [findReg_lnAct]; rfl
  dsimp only
  rw [State.regWrite_one s m _ _ _ hr rfl hi]
  exact congrArg Host.Outcome.next (State.commit_lnAct _ m n w)

/-- The word that reaches the fields of CVN_Ln_ACT, where ARM is not ignored, brings them as written, KEEP apart. -/
theorem State.gate_lnAct (s : State) (l : List (Nat × Word)) (n : Fin 32) (w : Word) (h : s.armIgnored n.val w = false)
    (hi lo : Nat) (hk : hi < 26 ∨ 26 < lo) : getBits (s.gate l (CVN_Ln_ACT.off n.val) w) hi lo = getBits w hi lo := by
  have hn : (CVN_Ln_ACT.off n.val - 0x5100) / 16 = n.val := by unfold CVN_Ln_ACT.off; omega
  rw [State.gate_block5 _ _ _ _ (lnAct_block n)]
  unfold State.gateCvn
  rw [if_neg (by unfold CVN_Ln_ACT.off CVN_RATE_TRIM.off; omega), if_pos (by unfold CVN_Ln_ACT.off; omega)]
  dsimp only
  rw [hn, h, if_neg Bool.false_ne_true]
  split
  · exact getBits_putBits_apart _ _ _ _ _ _ (by exact (show 26 ≤ 26 by decide)) (by exact (show 26 < 32 by decide)) hk
  · rfl

/-- A field of CVN_Ln_ACT other than KEEP after its register's write. -/
theorem State.fld_lnAct_stored (s : State) (l : List (Nat × Word)) (n : Fin 32) (w : Word) (f : Fld) (a : Acc)
    (ok : List (Nat × Nat)) (h : s.armIgnored n.val w = false) (hf : f.off = CVN_Ln_ACT.off n.val)
    (hm : ⟨f.hi, f.lo, a, ok⟩ ∈ lnActDef.fields) (hk : f.hi < 26 ∨ 26 < f.lo) :
    (s.setReg (CVN_Ln_ACT.off n.val) (s.stored l (CVN_Ln_ACT.off n.val) w)).fld f =
      (⟨f.hi, f.lo, a, ok⟩ : FieldDef).after w (s.reg (CVN_Ln_ACT.off n.val)) := by
  have hs := s.fld_stored l w f lnActDef a ok (hf ▸ findReg_lnAct n) lnActDef_tidy hm
  rw [hf] at hs
  rw [hs]
  have hg := s.gate_lnAct l n w h f.hi f.lo hk
  unfold FieldDef.after
  dsimp only
  rw [hg]

/-- What the write sets going: CANCEL goes before ARM (R29). -/
theorem State.effCvn_lnAct (s old : State) (n : Fin 32) (w : Word) : s.effCvn old (CVN_Ln_ACT.off n.val) w =
    if bit w 29 then s.lnCancel n.val
    else if bit w 30 && !old.armIgnored n.val w then s.lnWrite n.val else s := by
  have hn : (CVN_Ln_ACT.off n.val - 0x5100) / 16 = n.val := by unfold CVN_Ln_ACT.off; omega
  unfold State.effCvn
  rw [if_neg (by unfold CVN_Ln_ACT.off CVN_CFG.off; omega), if_neg (by unfold CVN_Ln_ACT.off CVN_LINE_CFG.off; omega),
    if_pos (by unfold CVN_Ln_ACT.off; omega)]
  dsimp only
  rw [hn]

/-! ARM. -/

/-- ARM is ignored on a launcher armed with RADIO alone (R32). -/
theorem State.armIgnored_of (s : State) (n : Nat) (w : Word)
    (h : (s.launcher n).armed = false ∨ (s.launcher n).action ≠ 1 ∨ bit w 29 = true) : s.armIgnored n w = false := by
  unfold State.armIgnored
  obtain h | h | h := h <;> simp [h]

/-- No occurrence of a disarmed launcher is due, nor one of a later cycle. -/
theorem State.occurDue_none (s : State) (n : Fin 32) (h : (s.launcher n.val).armed = false ∨
    s.coreCycle s.stamp < s.coreCycle (s.launcher n.val).stamp) : s.occurDue n = s := by
  unfold State.occurDue
  split
  · next hd =>
    unfold State.occur
    exact if_pos (.inl (by simp [h.resolve_right (Nat.not_lt.mpr hd)]))
  · rfl

theorem State.moment_launcher (s : State) (n : Nat) : s.moment.launcher n = s.launcher n :=
  State.launcher_of_lnch s.moment_lnch n

theorem State.moment_coreCycle (s : State) (t : Nat) : s.moment.coreCycle t = s.coreCycle t := by
  have hcore : s.moment.pwr.core = s.pwr.core := by
    unfold State.moment State.leaveIdle
    rw [State.touch_pwr]
    split <;> rfl
  unfold State.coreCycle State.onFbo State.awake
  rw [hcore, State.moment_cmc]

/-- The state in which the word of an ARM or CANCEL stands in CVN_Ln_ACT. -/
def State.actWritten (u : State) (n : Nat) (w : Word) : State :=
  u.setReg (CVN_Ln_ACT.off n) (u.stored [(CVN_Ln_ACT.off n, w)] (CVN_Ln_ACT.off n) w)

theorem State.launcher_actWritten (u : State) (n : Nat) (w : Word) (i : Nat) :
    (u.actWritten n w).launcher i = u.launcher i := State.launcher_setReg _ _ _ _

theorem State.reg_actWritten_ne (u : State) (n : Nat) (w : Word) (o : Nat) (h : o ≠ CVN_Ln_ACT.off n) :
    (u.actWritten n w).reg o = u.reg o := State.reg_setReg_ne _ _ _ _ h

theorem State.actWritten_unseen {β : Type} {g : State → β} (hg : ∀ t r, g { t with regs := r } = g t) (u : State) (n : Nat)
    (w : Word) : g (u.actWritten n w) = g u := State.setReg_unseen hg _ _ _

/-- A field of CVN_Ln_ACT that software only reads keeps its value. -/
theorem State.fld_actWritten_ro (u : State) (n : Fin 32) (w : Word) (f : Fld) (h : u.armIgnored n.val w = false)
    (hf : f.off = CVN_Ln_ACT.off n.val) (hm : ⟨f.hi, f.lo, .ro, []⟩ ∈ lnActDef.fields) (hk : 26 < f.lo) :
    (u.actWritten n.val w).fld f = u.fld f := by
  unfold State.actWritten
  rw [State.fld_lnAct_stored u _ n w f .ro [] h hf hm (.inr hk), ← hf]
  rfl

/-- The launcher that ARM takes from its registers (R29, R34). -/
theorem State.lnWrite_launcher (u : State) (n : Fin 32) (v : Word) (h : u.armIgnored n.val (withBits v 0x40000000) = false) :
    ((u.actWritten n.val (withBits v 0x40000000)).lnWrite n.val).launcher n.val =
      ⟨true, wordStamp ((u.reg (CVN_Ln_TIME_HI.off n.val)).toNat * 2 ^ 32 + (u.reg (CVN_Ln_TIME_LO.off n.val)).toNat),
        if getBits v 15 12 ≤ 10 ∧ getBits v 15 12 ≠ 1 then getBits v 15 12 else u.fld (CVN_Ln_ACT.ACTION n.val),
        getBits v 7 0, getBits v 11 8,
        if getBits v 25 24 ≤ 2 then getBits v 25 24 else u.fld (CVN_Ln_ACT.LATE_POL n.val), none, none,
        decide (wordStamp ((u.reg (CVN_Ln_TIME_HI.off n.val)).toNat * 2 ^ 32 +
          (u.reg (CVN_Ln_TIME_LO.off n.val)).toNat) < u.stamp + 16), none⟩ := by
  have hbits : ∀ hi lo, hi < 30 → getBits (withBits v 0x40000000) hi lo = getBits v hi lo := fun hi lo hhi =>
    getBits_withBits v _ hi lo fun i _ hi' =>
      show (2 ^ 30).testBit i = false by rw [Nat.testBit_two_pow]; exact decide_eq_false (by omega)
  have field := fun (f : Fld) a ok => u.fld_lnAct_stored [(CVN_Ln_ACT.off n.val, withBits v 0x40000000)] n _ f a ok h
  have haction := field (CVN_Ln_ACT.ACTION n.val) .rw [(0, 0), (2, 10)] rfl (by simp [lnActDef, CVN_Ln_ACT.ACTION])
    (.inl (by exact (show 15 < 26 by decide)))
  have harg := field (CVN_Ln_ACT.ARG n.val) .rw [] rfl (by simp [lnActDef, CVN_Ln_ACT.ARG])
    (.inl (by exact (show 7 < 26 by decide)))
  have hrep := field (CVN_Ln_ACT.REPEAT n.val) .rw [] rfl (by simp [lnActDef, CVN_Ln_ACT.REPEAT])
    (.inl (by exact (show 11 < 26 by decide)))
  have hpol := field (CVN_Ln_ACT.LATE_POL n.val) .rw [(0, 2)] rfl (by simp [lnActDef, CVN_Ln_ACT.LATE_POL])
    (.inl (by exact (show 25 < 26 by decide)))
  have hstamp : (u.actWritten n.val (withBits v 0x40000000)).stamp = u.stamp :=
    State.actWritten_unseen (g := State.stamp) (fun _ _ => rfl) _ _ _
  unfold State.lnWrite State.lateArm
  dsimp only
  rw [State.launcher_lnArm, if_pos rfl, hstamp,
    State.reg_actWritten_ne _ _ _ _ (by unfold CVN_Ln_TIME_HI.off CVN_Ln_ACT.off; omega),
    State.reg_actWritten_ne _ _ _ _ (by unfold CVN_Ln_TIME_LO.off CVN_Ln_ACT.off; omega)]
  unfold State.actWritten
  rw [haction, harg, hrep, hpol]
  simp only [CVN_Ln_ACT.ACTION, CVN_Ln_ACT.ARG, CVN_Ln_ACT.REPEAT, CVN_Ln_ACT.LATE_POL, FieldDef.after, FieldDef.takes,
    hbits _ _ (show 15 < 30 by decide), hbits _ _ (show 7 < 30 by decide), hbits _ _ (show 11 < 30 by decide),
    hbits _ _ (show 25 < 30 by decide), State.fld]
  have hcodes : (([(0, 0), (2, 10)] : List (Nat × Nat)).isEmpty || [(0, 0), (2, 10)].any fun p =>
      decide (p.1 ≤ getBits v 15 12) && decide (getBits v 15 12 ≤ p.2)) = true ↔
      getBits v 15 12 ≤ 10 ∧ getBits v 15 12 ≠ 1 := by
    simp
    omega
  simp only [hcodes]
  simp

/-- What touches the launchers and one register alone. -/
theorem State.onlyReg_lnch (u x : State) (off : Nat) (hr : ∀ o, o ≠ off → x.reg o = u.reg o)
    (hf : { x with regs := u.regs, lnch := u.lnch } = u) : u.onlyReg { x with lnch := u.lnch } off := ⟨hr, hf⟩

theorem State.lnWrite_unseen {β : Type} {g : State → β} (hg : ∀ t r l, g { t with regs := r, lnch := l } = g t) (s : State)
    (n : Nat) : g (s.lnWrite n) = g s := by
  unfold State.lnWrite
  exact State.lnArm_unseen hg _ _ _

theorem State.reg_lnWrite_ne (s : State) (n o : Nat) (h : o ≠ CVN_Ln_ACT.off n) : (s.lnWrite n).reg o = s.reg o := by
  unfold State.lnWrite
  exact State.reg_lnArm_ne _ _ _ _ h

theorem State.reg_lnWrite_actWritten (u : State) (n : Nat) (w : Word) (o : Nat) (h : o ≠ CVN_Ln_ACT.off n) :
    ((u.actWritten n w).lnWrite n).reg o = u.reg o :=
  (State.reg_lnWrite_ne _ _ _ h).trans (State.reg_actWritten_ne _ _ _ _ h)

theorem State.lnWrite_actWritten_unseen {β : Type} {g : State → β} (hg : ∀ t r l, g { t with regs := r, lnch := l } = g t)
    (u : State) (n : Nat) (w : Word) : g ((u.actWritten n w).lnWrite n) = g u :=
  (State.lnWrite_unseen hg _ _).trans (State.actWritten_unseen (fun t r => hg t r t.lnch) _ _ _)

/-- Arming by register touches the launcher and CVN_Ln_ACT. -/
theorem State.lnWrite_onlyReg (u : State) (n : Nat) (w : Word) :
    u.onlyReg { (u.actWritten n w).lnWrite n with lnch := u.lnch } (CVN_Ln_ACT.off n) :=
  State.onlyReg_lnch u ((u.actWritten n w).lnWrite n) _ (u.reg_lnWrite_actWritten n w)
    (State.lnWrite_actWritten_unseen (g := fun t => { t with regs := u.regs, lnch := u.lnch }) (fun _ _ _ => rfl) u n w)

theorem State.reg_lnOff_actWritten (u : State) (n : Nat) (w : Word) (o : Nat) (h : o ≠ CVN_Ln_ACT.off n) :
    ((u.actWritten n w).lnOff n).reg o = u.reg o :=
  (State.reg_lnOff_ne _ _ _ h).trans (State.reg_actWritten_ne _ _ _ _ h)

theorem State.lnOff_actWritten_unseen {β : Type} {g : State → β} (hg : ∀ t r l, g { t with regs := r, lnch := l } = g t)
    (u : State) (n : Nat) (w : Word) : g ((u.actWritten n w).lnOff n) = g u :=
  (State.lnOff_unseen hg _ _).trans (State.actWritten_unseen (fun t r => hg t r t.lnch) _ _ _)

/-- Disarming by register touches the launcher and CVN_Ln_ACT. -/
theorem State.lnOff_onlyReg (u : State) (n : Nat) (w : Word) :
    u.onlyReg { (u.actWritten n w).lnOff n with lnch := u.lnch } (CVN_Ln_ACT.off n) :=
  State.onlyReg_lnch u ((u.actWritten n w).lnOff n) _ (u.reg_lnOff_actWritten n w)
    (State.lnOff_actWritten_unseen (g := fun t => { t with regs := u.regs, lnch := u.lnch }) (fun _ _ _ => rfl) u n w)

/-! CANCEL. -/

/-- CANCEL of a launcher that a register write armed disarms it (R32). -/
theorem State.lnCancel_off (s : State) (n : Nat) (h : (s.launcher n).armed = true) (hop : (s.launcher n).op = none)
    (how : (s.launcher n).owner = none) : s.lnCancel n = s.lnOff n := by
  simp [State.lnCancel, State.tatCancel, h, hop, how]

theorem State.lnCancel_unarmed (s : State) (n : Nat) (h : (s.launcher n).armed = false) : s.lnCancel n = s := by
  unfold State.lnCancel
  dsimp only
  rw [h]
  rfl

/-- A one-shot of action NONE that is due is counted and disarmed (R30, R32). -/
theorem State.occurDue_once (u : State) (n : Fin 32) (hs : u.asleep = false) (ha : u.awake = true)
    (hp : u.pwr.st ≠ .inReset ∧ u.pwr.st ≠ .off) (harmed : (u.launcher n.val).armed = true)
    (haction : (u.launcher n.val).action = 0) (hrep : (u.launcher n.val).rep = 0) (hlate : (u.launcher n.val).late = false)
    (hwait : (u.launcher n.val).wait = none) (hdue : (u.launcher n.val).stamp ≤ u.stamp) :
    u.occurDue n = ((u.lnHit n.val false).lnOff n.val) := by
  have hcycle : u.coreCycle (u.launcher n.val).stamp ≤ u.coreCycle u.stamp := by
    unfold State.coreCycle fboCycle
    split
    · exact Nat.div_le_div_right (Nat.mul_le_mul_right _ hdue)
    · exact hdue
  have hbehind : u.lnBehind n.val = false := by
    unfold State.lnBehind
    rw [haction]
    rfl
  have hnow : u.stamp = u.time.now := State.stamp_of_awake hs
  have hmove : u.moveTo (u.launcher n.val).stamp = u := by
    have : max u.time.now (min u.time.limit (u.launcher n.val).stamp) = u.time.now := by omega
    unfold State.moveTo
    rw [this]
  have hreach : u.reach (u.launcher n.val).stamp = true := by
    unfold State.reach
    exact decide_eq_true (le_trans (hnow ▸ hdue) (Nat.le_max_left _ _))
  have hlatest : (u.launcher n.val).latest (u.launcher n.val).stamp u.stamp = (u.launcher n.val).stamp := by
    unfold Lnch.latest Lnch.period
    rw [hrep]
    rfl
  have hgone : ¬(!(u.launcher n.val).armed ∨ (u.launcher n.val).wait.isSome ∨ u.pwr.st = .inReset ∨ u.pwr.st = .off ∨
      u.lnBehind n.val) := by
    simp [harmed, hwait, hp, hbehind]
  unfold State.occurDue State.occur
  dsimp only
  rw [if_pos hcycle, if_neg hgone, if_neg (by simp [hs, ha]), haction, if_neg (by decide), if_pos hreach, hmove, hlatest,
    hlate]
  simp [State.lnOccur, State.lnAct, State.lnNext, haction, State.lnHit, hrep, State.incSat]

/-! The two rows. -/

/-- A row that writes CVN_Ln_ACT sets CANCEL or ARM going on what it wrote. -/
theorem State.regWrite_act (s : State) (m : Master) (n : Fin 32) (w : Word) (hr : s.reaches m = true) :
    let u := s.moment.occurDue n
    s.regWrite m (fun _ => [(CVN_Ln_ACT.off n.val, w)]) = .next (
      if bit w 29 then (u.actWritten n.val w).lnCancel n.val
      else if bit w 30 && !u.armIgnored n.val w then (u.actWritten n.val w).lnWrite n.val else u.actWritten n.val w) := by
  rw [State.regWrite_lnAct s m n w hr]
  exact congrArg Host.Outcome.next (State.effCvn_lnAct _ _ n w)

/-- ARM without CANCEL, where no occurrence is due (R29, R31). -/
theorem execArm_arms (m : Master) (n : Fin 32) (v : Word) (s : State) (hr : s.reaches m = true) (h29 : bit v 29 = false)
    (hnone : s.moment.occurDue n = s.moment)
    (hign : s.moment.armIgnored n.val (withBits v 0x40000000) = false) :
    execArm m n v s = .next ((s.moment.actWritten n.val (withBits v 0x40000000)).lnWrite n.val) := by
  have h30 : bit (withBits v 0x40000000) 30 = true := bit_withBits v _ 30 (by decide) (by decide)
  have h29' : bit (withBits v 0x40000000) 29 = false := (bit_withBits_other v _ 29 (by decide)).trans h29
  unfold execArm
  rw [State.regWrite_act s m n _ hr]
  rw [hnone, h29', h30, hign]
  rfl

/-- CANCEL, after an occurrence that is due. -/
theorem execCancel_cancels (m : Master) (n : Fin 32) (v : Word) (s : State) (hr : s.reaches m = true) :
    execCancel m n v s =
      .next (((s.moment.occurDue n).actWritten n.val (withBits v 0x20000000)).lnCancel n.val) := by
  have h29 : bit (withBits v 0x20000000) 29 = true := bit_withBits v _ 29 (by decide) (by decide)
  unfold execCancel
  rw [State.regWrite_act s m n _ hr]
  rw [h29, if_pos rfl]

/-- A device that a register access reaches has its core running and does not sleep. -/
theorem State.moment_runs {s : State} {m : Master} (hr : s.reaches m = true) : s.moment.asleep = false ∧
    s.moment.awake = true ∧ s.moment.pwr.st ≠ .inReset ∧ s.moment.pwr.st ≠ .off := by
  have hs : s.serves = true := by
    unfold State.reaches at hr
    exact (Bool.and_eq_true_iff.mp hr).1
  have hp : s.moment.pwr = s.leaveIdle.pwr := State.touch_pwr _
  unfold State.serves State.awake at hs
  unfold State.asleep State.awake
  rw [hp]
  unfold State.leaveIdle
  cases hst : s.pwr.st <;> simp_all

/-- Settles O16: the word is written after an occurrence that is due; CANCEL then disarms, ARM takes the launcher's registers. -/
theorem launchersAreArmedAndCancelledByRegister : Obligations.LaunchersAreArmedAndCancelledByRegister := by
  unfold Obligations.LaunchersAreArmedAndCancelledByRegister
  intro m n v s hr
  have hl := s.moment_launcher n.val
  refine ⟨fun h29 hnone => ?_, fun harmed hop how hnone => ?_, fun harmed haction hrep hlate hwait hdue => ?_⟩
  · have hdue : s.moment.occurDue n = s.moment := by
      refine s.moment.occurDue_none n ?_
      rw [hl, State.moment_coreCycle, State.moment_coreCycle]
      exact hnone.imp_right And.right
    have hign := s.moment.armIgnored_of n.val (withBits v 0x40000000)
      (by rw [hl]; exact hnone.imp_right fun h => .inl h.1)
    refine ⟨_, execArm_arms m n v s hr h29 hdue hign, ?_, fun i hi => ?_, ?_⟩
    · rw [State.lnWrite_launcher _ n v hign, State.reg_moment, State.reg_moment, State.fld_moment, State.fld_moment,
        State.lnWrite_actWritten_unseen (g := State.stamp) fun _ _ _ => rfl]
    · unfold State.lnWrite
      rw [State.launcher_lnArm, if_neg hi, State.launcher_actWritten, State.moment_launcher]
    · obtain ⟨ha, hf, hm, hc⟩ : _ ∧ _ ∧ _ ∧ _ := State.fields_lnArm (s.moment.actWritten n.val (withBits v 0x40000000)) n.val _
      have honly := State.lnWrite_onlyReg s.moment n.val (withBits v 0x40000000)
      rw [State.moment_lnch] at honly
      exact ⟨ha, hf, hm, hc, honly⟩
  · have hdue : s.moment.occurDue n = s.moment := by
      refine s.moment.occurDue_none n (.inr ?_)
      rw [hl, State.moment_coreCycle, State.moment_coreCycle]
      exact hnone
    have hran := execCancel_cancels m n v s hr
    have hlc : (s.moment.actWritten n.val (withBits v 0x20000000)).launcher n.val = s.launcher n.val :=
      (State.launcher_actWritten _ _ _ _).trans hl
    rw [hdue, State.lnCancel_off _ _ (hlc ▸ harmed) (hlc ▸ hop) (hlc ▸ how)] at hran
    refine ⟨_, hran, ?_, State.armed_lnOff _ _, fun i hi => ?_, ?_⟩
    · rw [State.launcher_lnOff, if_pos rfl]
    · rw [State.launcher_lnOff, if_neg hi, State.launcher_actWritten, State.moment_launcher]
    · have honly := State.lnOff_onlyReg s.moment n.val (withBits v 0x20000000)
      rw [State.moment_lnch] at honly
      exact honly
  · obtain ⟨hasleep, hawake, hreset, hoff⟩ := State.moment_runs hr
    have hdue := s.moment.occurDue_once n hasleep hawake ⟨hreset, hoff⟩ (hl ▸ harmed) (hl ▸ haction) (hl ▸ hrep) (hl ▸ hlate)
      (hl ▸ hwait) (hl ▸ hdue)
    have hoffd : ∀ w, (((s.moment.lnHit n.val false).lnOff n.val).actWritten n.val w).launcher n.val = Lnch.off := fun w => by
      rw [State.launcher_actWritten, State.launcher_lnOff, if_pos rfl]
    have hran := execCancel_cancels m n v s hr
    have hign := ((s.moment.lnHit n.val false).lnOff n.val).armIgnored_of n.val (withBits v 0x20000000)
      (.inl (by rw [State.launcher_lnOff, if_pos rfl]; rfl))
    rw [hdue, State.lnCancel_unarmed _ _ (congrArg Lnch.armed (hoffd _))] at hran
    refine ⟨_, hran, hoffd _, ?_, ?_⟩
    · unfold State.on
      rw [State.fld_actWritten_ro _ n _ (CVN_Ln_ACT.FIRED n.val) hign rfl (by simp [lnActDef, CVN_Ln_ACT.FIRED])
        (by exact (show 26 < 28 by decide)),
        State.fld_lnOff _ _ _ (by exact (show 15 < 28 by decide)) (by exact (show 28 < 31 by decide))]
      exact s.moment.fired_lnHit n.val false
    · unfold State.on
      rw [State.fld_actWritten_ro _ n _ (CVN_Ln_ACT.ARMED n.val) hign rfl (by simp [lnActDef, CVN_Ln_ACT.ARMED])
        (by exact (show 26 < 31 by decide))]
      exact State.armed_lnOff _ _

end Sys2Proof.Machine

/-! Memory: what a write leaves at every byte, in the check bits, and elsewhere (R343, R351). -/

namespace Sys2Proof.Machine

/-! What a write leaves unseen. -/

section
variable {β : Type} {g : State → β}

theorem State.putBytes_unseen (hg : ∀ t m, g { t with mem := m } = g t) (s : State) (a : Nat) (bs : List Byte) :
    g (s.putBytes a bs) = g s := by
  induction bs generalizing s a with
  | nil => rfl
  | cons b bs ih => exact (ih _ _).trans (hg s _)

theorem State.setMark_unseen (hg : ∀ t k c, g { t with marks := k, scrub := c } = g t) (s : State) (w : Nat) (m : Mark) :
    g (s.setMark w m) = g s := hg s _ _

theorem State.useInj_unseen (hg : ∀ t r, g { t with regs := r } = g t) (s : State) (b : Bank) : g (s.useInj b) = g s := by
  unfold State.useInj
  split
  · exact State.setFld_unseen hg _ _ _
  · rfl

theorem State.markFull_unseen (hg : ∀ t r k c, g { t with regs := r, marks := k, scrub := c } = g t) (s : State) (w : Nat) :
    g (s.markFull w) = g s := by
  have marks : ∀ (t : State) w m, g (t.setMark w m) = g t := State.setMark_unseen fun t k c => hg t t.regs k c
  unfold State.markFull
  split
  · split
    · exact marks _ _ _
    · rw [State.useInj_unseen fun t r => hg t r t.marks t.scrub]
      exact marks _ _ _
  · rfl

theorem State.foldl_unseen {γ : Type} {f : State → γ → State} (hf : ∀ t x, g (f t x) = g t) (l : List γ) (s : State) :
    g (l.foldl f s) = g s := by
  induction l generalizing s with
  | nil => rfl
  | cons x l ih => exact (ih _).trans (hf s x)

theorem State.devWrite_unseen (hg : ∀ t r m k c, g { t with regs := r, mem := m, marks := k, scrub := c } = g t) (s : State)
    (a : Nat) (bs : List Byte) : g (s.devWrite a bs) = g s := by
  unfold State.devWrite
  dsimp only
  rw [State.foldl_unseen fun t x => State.markFull_unseen (fun t r k c => hg t r t.mem k c) t _]
  exact State.putBytes_unseen (fun t m => hg t t.regs m t.marks t.scrub) _ _ _

end

/-- Only MEM_BANK_CFG changes among the registers where error injection is used up (R351). -/
theorem State.reg_useInj_ne (s : State) (b : Bank) (o : Nat) (h : o ≠ MEM_BANK_CFG.off) :
    (s.useInj b).reg o = s.reg o := by
  unfold State.useInj
  split
  · exact State.reg_setFld_ne _ _ _ _ h
  · rfl

theorem State.reg_markFull_ne (s : State) (w o : Nat) (h : o ≠ MEM_BANK_CFG.off) : (s.markFull w).reg o = s.reg o := by
  have marks : ∀ (t : State) w m, (t.setMark w m).reg o = t.reg o := State.setMark_unseen (g := fun t => t.reg o) fun _ _ _ => rfl
  unfold State.markFull
  split
  · split
    · exact marks _ _ _
    · rw [State.reg_useInj_ne _ _ _ h, marks]
  · rfl

theorem State.mark_markFull_ne (s : State) (w v : Nat) (h : v ≠ w) : (s.markFull w).mark v = s.mark v := by
  have marks : ∀ (t : State) m, (t.setMark w m).mark v = t.mark v := fun t m => by rw [State.mark_setMark, if_neg h]
  unfold State.markFull
  split
  · split
    · exact marks _ _
    · rw [State.useInj_unseen (g := fun t => t.mark v) fun _ _ => rfl, marks]
  · rfl

/-! Bytes. -/

/-- Every byte after bytes have been put into a bank. -/
theorem State.byte_putBytes (s : State) (a : Nat) (bs : List Byte) (x : Nat) (h : ∀ i, i < bs.length → inRom (a + i) = false) :
    (s.putBytes a bs).byte x = if a ≤ x ∧ x < a + bs.length then bs.getD (x - a) 0#8 else s.byte x := by
  induction bs generalizing s a with
  | nil => rw [if_neg (by simp only [List.length_nil]; omega)]; rfl
  | cons b bs ih =>
    have ha : inRom a = false := h 0 (Nat.succ_pos _)
    have hrest : ∀ i, i < bs.length → inRom (a + 1 + i) = false := fun i hi => by
      rw [Nat.add_assoc, Nat.add_comm 1 i]
      exact h (i + 1) (Nat.succ_lt_succ hi)
    show ((s.putByte a b).putBytes (a + 1) bs).byte x = _
    rw [ih _ _ hrest, State.byte_putByte _ _ _ _ ha]
    rw [List.length_cons]
    by_cases hx : x = a
    · subst hx
      simp
    · by_cases hin : a + 1 ≤ x ∧ x < a + 1 + bs.length
      · rw [if_pos hin, if_pos (by omega), show x - a = (x - (a + 1)) + 1 by omega]
        rfl
      · rw [if_neg hin, if_neg hx, if_neg (by omega)]

theorem State.num_congr {s t : State} {a n : Nat} (h : ∀ i, i < n → t.byte (a + i) = s.byte (a + i)) :
    t.num a n = s.num a n := by
  unfold State.num State.bytes
  rw [List.map_congr_left fun i hi => h i (List.mem_range.mp hi)]

/-- Bytes that stand in memory are the number they hold. -/
theorem State.bytes_of_put {t : State} {a : Nat} {bs : List Byte}
    (h : ∀ i, i < bs.length → t.byte (a + i) = bs.getD i 0#8) : t.bytes a bs.length = bs := by
  unfold State.bytes
  apply List.ext_getElem
  · simp
  · intro i hi _
    have hlt : i < bs.length := by simpa using hi
    simp only [List.getElem_map, List.getElem_range]
    rw [h i hlt, List.getD_eq_getElem _ _ hlt]

theorem State.num_of_put {t : State} {a n v : Nat}
    (h : ∀ i, i < n → t.byte (a + i) = (leBytes n v).getD i 0#8) : t.num a n = v % 256 ^ n := by
  have hb : t.bytes a n = leBytes n v := by
    have := State.bytes_of_put (t := t) (a := a) (bs := leBytes n v) (by simpa using h)
    simpa using this
  unfold State.num
  rw [hb, leNat_leBytes]

/-! A write to words that hold valid code words. -/

/-- What a write of `bs` from `a` to clean words leaves: its bytes; the check bits and the registers of error injection
(R351) change where it writes a whole word. -/
structure State.Stored (s : State) (a : Nat) (bs : List Byte) (t : State) : Prop where
  byte : ∀ x, t.byte x = if a ≤ x ∧ x < a + bs.length then bs.getD (x - a) 0#8 else s.byte x
  mark : ∀ w, ¬(a ≤ 8 * w ∧ 8 * w + 8 ≤ a + bs.length) → t.mark w = s.mark w
  reg : ∀ o, o ≠ MEM_BANK_CFG.off → t.reg o = s.reg o
  regs : (∀ w, ¬(a ≤ 8 * w ∧ 8 * w + 8 ≤ a + bs.length)) → t.regs = s.regs
  unseen : ∀ {β : Type} {g : State → β}, (∀ t r m k c, g { t with regs := r, mem := m, marks := k, scrub := c } = g t) →
    g t = g s

theorem State.setMark_same {s : State} {w : Nat} {m : Mark} (h : s.mark w = m) (v : Nat) :
    (s.setMark w m).mark v = s.mark v := by
  rw [State.mark_setMark]
  split
  · next e => rw [e, h]
  · rfl

/-- A write within one word, a clean one where the write leaves a part of it. -/
theorem State.portWrite_stored (s : State) (b : Bank) (a : Nat) (bs : List Byte)
    (hfit : bs.length ≤ 8 - a % 8) (hrom : ∀ i, i < bs.length → inRom (a + i) = false)
    (hpart : bs.length ≠ 8 → s.mark (a / 8) = .good) : s.Stored a bs (s.portWrite b a bs .none) := by
  by_cases h8 : bs.length = 8
  · have ha : a % 8 = 0 := by omega
    have ht : s.portWrite b a bs .none = (s.markFull (a / 8)).putBytes a bs := by simp [State.portWrite, h8]
    rw [ht]
    refine ⟨fun x => ?_, fun w hw => ?_, fun o ho => ?_, fun h => absurd (h (a / 8)) (by omega), fun hg => ?_⟩
    · rw [State.byte_putBytes _ _ _ _ hrom, State.markFull_unseen (g := fun t => t.byte x) fun _ _ _ _ => rfl]
    · rw [State.putBytes_unseen (g := fun t => t.mark w) fun _ _ => rfl]
      exact State.mark_markFull_ne _ _ _ (by omega)
    · rw [State.putBytes_unseen (g := fun t => t.reg o) fun _ _ => rfl]
      exact State.reg_markFull_ne _ _ _ ho
    · rw [State.putBytes_unseen fun t m => hg t t.regs m t.marks t.scrub]
      exact State.markFull_unseen (fun t r k c => hg t r t.mem k c) _ _
  · have hc := hpart h8
    have hread : s.readWord (a / 8) 2 = (s, true) := by
      unfold State.readWord
      rw [hc]
      cases bankOf (a / 8 * 8) <;> rfl
    have ht : s.portWrite b a bs .none = (s.setMark (a / 8) .good).putBytes a bs := by
      simp [State.portWrite, h8, hread]
    rw [ht]
    refine ⟨fun x => ?_, fun w _ => ?_, fun o _ => ?_, fun _ => ?_, fun hg => ?_⟩
    · rw [State.byte_putBytes _ _ _ _ hrom, State.setMark_unseen (g := fun t => t.byte x) fun _ _ _ => rfl]
    · rw [State.putBytes_unseen (g := fun t => t.mark w) fun _ _ => rfl]
      exact State.setMark_same hc w
    · rw [State.putBytes_unseen (g := fun t => t.reg o) fun _ _ => rfl]
      rfl
    · rw [State.putBytes_unseen (g := State.regs) fun _ _ => rfl]
      rfl
    · rw [State.putBytes_unseen fun t m => hg t t.regs m t.marks t.scrub]
      exact State.setMark_unseen (fun t k c => hg t t.regs t.mem k c) _ _ _

/-- Two adjoining writes are one. -/
theorem State.Stored.append {s t u : State} {a : Nat} {bs cs : List Byte} (h : s.Stored a bs t)
    (g : t.Stored (a + bs.length) cs u) : s.Stored a (bs ++ cs) u := by
  have hlen : (bs ++ cs).length = bs.length + cs.length := List.length_append
  refine ⟨fun x => ?_, fun w hw => ?_, fun o ho => (g.reg o ho).trans (h.reg o ho), fun hn => ?_,
    fun hg => (g.unseen hg).trans (h.unseen hg)⟩
  · rw [g.byte, h.byte, hlen]
    by_cases h2 : a + bs.length ≤ x ∧ x < a + bs.length + cs.length
    · rw [if_pos h2, if_pos (by omega), List.getD_append_right _ _ _ _ (by omega)]
      congr 1
      omega
    · rw [if_neg h2]
      by_cases h1 : a ≤ x ∧ x < a + bs.length
      · rw [if_pos h1, if_pos (by omega), List.getD_append _ _ _ _ (by omega)]
      · rw [if_neg h1, if_neg (by omega)]
  · rw [hlen] at hw
    rw [g.mark w (by omega), h.mark w (by omega)]
  · rw [hlen] at hn
    rw [g.regs fun w => by have := hn w; omega, h.regs fun w => by have := hn w; omega]

theorem State.clean_iff (s : State) (a n : Nat) (hn : 0 < n) :
    s.clean a n ↔ ∀ w, a / 8 ≤ w → w ≤ (a + n - 1) / 8 → s.mark w = .good := by
  unfold State.clean wordsOf
  rw [if_neg (by omega)]
  constructor
  · intro h w h1 h2
    exact h w (List.mem_map.mpr ⟨w - a / 8, List.mem_range.mpr (by omega), by omega⟩)
  · intro h x hx
    obtain ⟨i, hi, rfl⟩ := List.mem_map.mp hx
    have := List.mem_range.mp hi
    exact h _ (by omega) (by omega)

/-- A write cut into bank words, all of them clean. -/
theorem State.chunks_stored (b : Bank) (f : Nat) (s : State) (a : Nat) (bs : List Byte) (hf : bs.length < f)
    (hpos : 0 < bs.length) (hrom : ∀ i, i < bs.length → inRom (a + i) = false) (hc : s.clean a bs.length) :
    s.Stored a bs ((chunks f a bs).foldl (fun s c => s.portWrite b c.1 c.2 .none) s) := by
  induction f generalizing s a bs with
  | zero => omega
  | succ f ih =>
    obtain ⟨x, xs, rfl⟩ := List.exists_cons_of_length_pos hpos
    generalize hbs : x :: xs = l at *
    have hchunks : chunks (f + 1) a l = (a, l.take (8 - a % 8)) :: chunks f (a + (8 - a % 8)) (l.drop (8 - a % 8)) := by
      rw [← hbs]
      rfl
    have hclean := (s.clean_iff a l.length hpos).mp hc
    have hlen : (l.take (8 - a % 8)).length = min (8 - a % 8) l.length := List.length_take
    have first : s.Stored a (l.take (8 - a % 8)) (s.portWrite b a (l.take (8 - a % 8)) .none) :=
      s.portWrite_stored b a _ (by omega) (fun i hi => hrom i (by omega)) fun _ => hclean _ (le_refl _) (by omega)
    rw [hchunks, List.foldl_cons]
    generalize s.portWrite b a (l.take (8 - a % 8)) .none = t at *
    by_cases hmore : 8 - a % 8 < l.length
    · have hdrop : (l.drop (8 - a % 8)).length = l.length - (8 - a % 8) := List.length_drop
      have rest := ih t (a + (8 - a % 8)) (l.drop (8 - a % 8)) (by omega) (by omega)
        (fun i hi => by
          rw [Nat.add_assoc]
          exact hrom _ (by omega))
        ((t.clean_iff _ _ (by omega)).mpr fun w h1 h2 => by
          rw [first.mark w (by omega)]
          exact hclean w (by omega) (by omega))
      have hn : a + (8 - a % 8) = a + (l.take (8 - a % 8)).length := by omega
      have happ := first.append (hn ▸ rest)
      rw [List.take_append_drop] at happ
      exact hn ▸ happ
    · have htake : l.take (8 - a % 8) = l := List.take_of_length_le (by omega)
      have hnil : l.drop (8 - a % 8) = [] := List.drop_of_length_le (by omega)
      have hend : chunks f (a + (8 - a % 8)) [] = [] := by cases f <;> rfl
      rw [hnil, hend]
      rw [htake] at first
      exact first

/-- The banks do not overlap (R404). -/
theorem bankOf_of_holds {b : Bank} {a : Nat} (h : b.holds a = true) : bankOf a = some b := by
  unfold Bank.holds at h
  simp only [Bool.and_eq_true, decide_eq_true_eq] at h
  obtain ⟨hlo, hhi⟩ := h
  have apart : ∀ {c : Bank}, a < c.base ∨ c.base + c.size ≤ a → c.holds a = false := fun {c} h => by
    unfold Bank.holds
    simp only [Bool.and_eq_false_iff, decide_eq_false_iff_not]
    omega
  have here : b.holds a = true := by
    unfold Bank.holds
    simp [hlo, hhi]
  unfold bankOf Bank.all
  cases b <;> simp only [Bank.base, Bank.size] at hlo hhi <;>
    simp (discharger := simp only [Bank.base, Bank.size]; omega) only [List.find?, here, apart]

/-- A store to clean words of a bank. -/
theorem State.store_stored (s : State) {b : Bank} {a : Nat} {bs : List Byte} (hb : b.holds a = true)
    (hpos : 0 < bs.length) (hend : a + bs.length ≤ 0xF00000) (hc : s.clean a bs.length) :
    s.Stored a bs (s.store a bs) := by
  unfold State.store
  rw [bankOf_of_holds hb]
  exact s.chunks_stored b _ a bs (Nat.lt_succ_self _) hpos
    (fun i hi => by
      unfold inRom
      rw [decide_eq_false (by omega), Bool.false_and]) hc

namespace State.Stored

variable {s t : State} {a : Nat} {bs : List Byte}

/-- Bytes outside the write stand. -/
theorem byte_outside (h : s.Stored a bs t) {x : Nat} (hx : x < a ∨ a + bs.length ≤ x) : t.byte x = s.byte x := by
  rw [h.byte, if_neg (by omega)]

theorem num_outside (h : s.Stored a bs t) {x n : Nat} (hx : x + n ≤ a ∨ a + bs.length ≤ x) : t.num x n = s.num x n :=
  State.num_congr fun i hi => h.byte_outside (by omega)

/-- A number written reads back to its width. -/
theorem num_self {n v : Nat} (h : s.Stored a (leBytes n v) t) : t.num a n = v % 256 ^ n :=
  State.num_of_put fun i hi => by rw [h.byte, if_pos (by rw [leBytes_length]; omega), Nat.add_sub_cancel_left]

/-- Words of which the write leaves a part are clean after it where they were. -/
theorem clean_of_partial (h : s.Stored a bs t) {x n : Nat} (hn : 0 < n) (hc : s.clean x n)
    (hp : ∀ w, x / 8 ≤ w → w ≤ (x + n - 1) / 8 → ¬(a ≤ 8 * w ∧ 8 * w + 8 ≤ a + bs.length)) : t.clean x n :=
  (State.clean_iff _ _ _ hn).mpr fun w h1 h2 => (h.mark w (hp w h1 h2)).trans ((State.clean_iff _ _ _ hn).mp hc w h1 h2)

end State.Stored

end Sys2Proof.Machine

/-! The drift instructions TDRIFT and TLEARN (R42–R44, R185, R289). -/

namespace Sys2Proof.Machine

/-! A partner entry. -/

theorem State.clean_sub {s : State} {a n x m : Nat} (h : s.clean a n) (hm : 0 < m) (hlo : a ≤ x) (hhi : x + m ≤ a + n) :
    s.clean x m :=
  (s.clean_iff x m hm).mpr fun w h1 h2 => (s.clean_iff a n (by omega)).mp h w (by omega) (by omega)

theorem partner_holds {i o : Nat} (hi : i < 4096) (ho : o < 64) : Bank.ptb.holds (partner i + o) = true := by
  unfold Bank.holds partner Bank.base Bank.size
  simp only [Bool.and_eq_true, decide_eq_true_eq]
  omega

/-- A field of a partner entry written by the device. -/
theorem State.ptSet_stored (s : State) {i o n v : Nat} (hi : i < 4096) (hn : 0 < n) (ho : o + n ≤ 64)
    (hc : s.clean (partner i + o) n) : s.Stored (partner i + o) (leBytes n v) (s.ptSet i o n v) :=
  s.store_stored (partner_holds hi (by omega)) (by rw [leBytes_length]; exact hn)
    (by rw [leBytes_length]; unfold partner; omega) (by rw [leBytes_length]; exact hc)

/-- An entry all of whose words are clean is read as it stands. -/
theorem State.modelRead_clean (s : State) (i : Nat) (hc : s.clean (partner i) 64) :
    s.modelRead i .none = (s, (s.pt i 0x0A 2).testBit 0) := by
  unfold State.modelRead
  rw [s.access_clean _ 8 (State.clean_sub hc (by decide) (by omega) (by omega))]
  dsimp only
  rw [s.access_clean _ 20 (State.clean_sub hc (by decide) (by omega) (by omega))]
  rfl

/-! The interval form. -/

theorem intervalOk_iff (w : BitVec 64) : intervalOk w = true ↔ w.toNat % 2 ^ 16 = 0 ∧ w.toNat < 2 ^ 48 := by
  have := w.isLt
  unfold intervalOk
  simp only [natBits_eq_div_mod, Bool.and_eq_true, beq_iff_eq]
  omega

theorem intervalOf_eq {w : BitVec 64} (h : w.toNat < 2 ^ 48) : intervalOf w = w.toNat / 2 ^ 16 := by
  unfold intervalOf
  rw [natBits_eq_div_mod]
  omega

/-! The model of a partner that reports no temperature, in endpoint mode. -/

section
variable {u : State} {i : Nat} (htemp : (u.pt i 0x0A 2).testBit 6 = false) (hmode : u.on CVN_CFG.TMODE = false)

include hmode in
theorem State.proxy_endpoint (d : Nat) : u.proxy i d = false := by
  unfold State.proxy
  rw [hmode]
  rfl

include htemp hmode

theorem State.m2_endpoint (d stop : Nat) (t : Option Rat) : u.m2 i d stop t = 0 := by
  unfold State.m2 State.tempCapable
  rw [State.proxy_endpoint hmode, htemp]
  rfl

theorem State.predict_endpoint (d : Nat) : u.predict i d =
    (ratRound ((wordStamp (u.pt i 0x20 8) : Rat) + 6000 * (d : Rat) * (1 - u.drate i / 1000000000))).toNat := by
  unfold State.predict
  dsimp only
  rw [State.m2_endpoint htemp hmode]
  simp only [mul_zero, add_zero]

omit htemp in
theorem State.guardSum_endpoint (d : Nat) : u.guardSum i d = uncOf (u.pt i 0x2F 1) + uncOf (u.fld CVN_SELF_MODEL.SUNC) +
    ratAbs (u.dtco i) * u.fld CVN_CFG.M2_SPAN + 8 * (d : Rat) / 2831155200 := by
  unfold State.guardSum
  rw [State.proxy_endpoint hmode]
  rfl

omit htemp in
theorem State.guardTicks_endpoint (d : Nat) : u.guardTicks i d =
    (let m := (max (2 : Int) (((uncOf (u.pt i 0x2F 1) + uncOf (u.fld CVN_SELF_MODEL.SUNC) +
        ratAbs (u.dtco i) * u.fld CVN_CFG.M2_SPAN + 8 * (d : Rat) / 2831155200) / 1000000000 * (d : Rat) +
        (65536 / 1000000 : Rat)).ceil)).toNat
      if (u.pt i 0x0A 2).testBit 7 ∧ u.fld MAC_MISS_CFG.UNMOD = 0 then 4 * m else m) := by
  have hmax : ∀ c : Int, max 2 c.toNat = (max 2 c).toNat := fun c => by omega
  unfold State.guardTicks
  rw [State.guardSum_endpoint hmode, hmax]

end

/-! TDRIFT. -/

section
variable {s : State} {k : Fin 64} {env : Env} {w : Nat} (h : s.fetches k env w) (hx : fi w = 0)
include h hx

/-- An encoded TDRIFT. -/
theorem execOpTdrift_ran (ho : opOf w = 0x2D) :
    let u := s.fetched k env
    let c := u.cx k.val
    let i := (c.rd (fa w)).toNat
    let d := intervalOf (c.rdT (fta w))
    execOpTdrift k env s = .next (
      let r := u.modelRead i .none
      if 4096 ≤ i ∨ !intervalOk (c.rdT (fta w)) then u.trap k Trap.operand
      else if !r.2 then r.1.onCtx k (fun x => { x with z := true, v := false })
      else r.1.onCtx k (fun x =>
        { (x.wrT (ftd w) (BitVec.ofNat 64 (stampWord (r.1.predict i d)))).wr (fa w)
            (BitVec.ofNat 32 (r.1.guardTicks i d)) with
          z := false, v := (r.1.pt i 0x0A 2).testBit 7 && r.1.on MAC_MISS_CFG.UNMOD })) := by
  unfold execOpTdrift
  rw [State.issue_fetches h ho, State.coded_ok _ _ _ (by rw [hx]; rfl), State.fetches_parity h]

/-- An encoded TLEARN. -/
theorem execOpTlearn_ran (ho : opOf w = 0x2E) :
    let u := s.fetched k env
    let c := u.cx k.val
    let g := (c.rd (fa w)).toNat
    execOpTlearn k env s = .next (
      let r := u.modelRead (natBits g 11 0) .none
      if !tlearnOk g ∨ !intervalOk (c.rdT (ftd w)) then u.trap k Trap.operand
      else if !r.2 then r.1.onCtx k (fun x => { x with z := true, v := false })
      else
        let q := r.1.tlearn (natBits g 11 0) (c.stampOf (fta w)) (intervalOf (c.rdT (ftd w))) (natBits g 23 16)
        q.1.onCtx k (fun x => { x with z := false, v := q.2 })) := by
  unfold execOpTlearn
  rw [State.issue_fetches h ho, State.coded_ok _ _ _ (by rw [hx]; rfl), State.fetches_parity h]

end

/-- The code of 2048 ppb. -/
theorem codeOf_2048 : codeOf 2048 = 176 := by
  have hlt : ∀ i : Nat, ((2 ^ (64 + i) : Nat) : Rat) < 2048 ^ 16 ↔ i < 112 := fun i => by
    have : ((2048 : Rat) ^ 16) = ((2 ^ 176 : Nat) : Rat) := by norm_num
    rw [this, Nat.cast_lt, Nat.pow_lt_pow_iff_right (by decide)]
    omega
  unfold codeOf
  simp only [hlt]
  have hrange : List.range 186 = List.range 112 ++ (List.range 74).map (112 + ·) :=
    @List.range_add 112 74
  have hlow : (List.range 112).filter (fun i => decide (i < 112)) = List.range 112 :=
    List.filter_eq_self.mpr fun i hi => decide_eq_true (List.mem_range.mp hi)
  have hhigh : ((List.range 74).map (112 + ·)).filter (fun i => decide (i < 112)) = [] :=
    List.filter_eq_nil_iff.mpr fun i hi => by
      obtain ⟨j, -, rfl⟩ := List.mem_map.mp hi
      simp
  rw [hrange, List.filter_append, hlow, hhigh]
  simp

/-! TLEARN of the first exchange. -/

/-- A write of the device within entry `i` whose bytes [o, o + n) alone change, to entries' words that stay clean: all but the
word of TSYNC. -/
structure State.InEntry (i o n : Nat) (s t : State) : Prop where
  other : ∀ x m, x + m ≤ o ∨ o + n ≤ x → t.pt i x m = s.pt i x m
  byte : ∀ a, a < partner i ∨ partner i + 64 ≤ a → t.byte a = s.byte a
  cx : ∀ k, t.cx k = s.cx k
  clean : t.clean (partner i) 32 ∧ t.clean (partner i + 0x28) 24

theorem State.ptSet_inEntry (s : State) {i o n v : Nat} (hi : i < 4096) (hn : 0 < n) (ho : o + n ≤ 64)
    (hw : s.clean (partner i) 32 ∧ s.clean (partner i + 0x28) 24) (hc : s.clean (partner i + o) n)
    (hwhole : n < 8 ∨ o = 0x20 ∧ n = 8) : s.InEntry i o n (s.ptSet i o n v) ∧ (s.ptSet i o n v).pt i o n = v % 256 ^ n := by
  have h := s.ptSet_stored (v := v) hi hn ho hc
  have h8 : partner i % 8 = 0 := by unfold partner; omega
  have hlen := leBytes_length n v
  refine ⟨⟨fun x m hx => h.num_outside (by omega), fun a ha => h.byte_outside (by omega), fun k => ?_, ?_, ?_⟩, h.num_self⟩
  · exact h.unseen (g := fun t => t.cx k) fun _ _ _ _ _ => rfl
  · exact h.clean_of_partial (by decide) hw.1 fun w h1 h2 => by omega
  · exact h.clean_of_partial (by decide) hw.2 fun w h1 h2 => by omega

/-- The stores of TLEARN into the entry of a partner that reports no temperature: TSYNC, DRATE, DUNC, LTEMP where one came
all the same, the count of exchanges and PFLAGS. -/
def State.learnStores (s : State) (i sync rate unc temp count flags : Nat) : State :=
  let s := ((s.ptSet i 0x20 8 sync).ptSet i 0x28 4 rate).ptSet i 0x2F 1 unc
  let s := if temp = 0x80 then s else s.ptSet i 0x30 1 temp
  (s.ptSet i 0x33 1 count).ptSet i 0x0A 2 flags

/-- What those stores leave in the entry, and outside it. -/
theorem State.learnStores_spec (s : State) {i : Nat} (sync rate unc temp count flags : Nat) (hi : i < 4096)
    (hc : s.clean (partner i) 64) :
    let t := s.learnStores i sync rate unc temp count flags
    t.pt i 0x20 8 = sync % 256 ^ 8 ∧ t.pt i 0x28 4 = rate % 256 ^ 4 ∧ t.pt i 0x2F 1 = unc % 256 ^ 1 ∧
      t.pt i 0x33 1 = count % 256 ^ 1 ∧ t.pt i 0x0A 2 = flags % 256 ^ 2 ∧
      (∀ a, (a < partner i ∨ partner i + 64 ≤ a) → t.byte a = s.byte a) ∧ (∀ k, t.cx k = s.cx k) := by
  have sub : ∀ {x : State} {o n : Nat}, x.clean (partner i) 32 ∧ x.clean (partner i + 0x28) 24 → 0 < n →
      o + n ≤ 32 ∨ 0x28 ≤ o ∧ o + n ≤ 64 → x.clean (partner i + o) n := fun hx hn ho => by
    obtain ho | ⟨ho, ho'⟩ := ho
    · exact State.clean_sub hx.1 hn (by omega) (by omega)
    · exact State.clean_sub hx.2 hn (by omega) (by omega)
  have hw : s.clean (partner i) 32 ∧ s.clean (partner i + 0x28) 24 :=
    ⟨State.clean_sub hc (by decide) (by omega) (by omega), State.clean_sub hc (by decide) (by omega) (by omega)⟩
  unfold State.learnStores
  dsimp only
  obtain ⟨h1, v1⟩ := s.ptSet_inEntry (v := sync) hi (by decide : 0 < 8) (by decide : 0x20 + 8 ≤ 64) hw
    (State.clean_sub hc (by decide) (by omega) (by omega)) (.inr ⟨rfl, rfl⟩)
  generalize s.ptSet i 0x20 8 sync = s1 at *
  obtain ⟨h2, v2⟩ := s1.ptSet_inEntry (v := rate) hi (by decide : 0 < 4) (by decide : 0x28 + 4 ≤ 64) h1.clean
    (sub h1.clean (by decide) (by decide)) (.inl (by decide))
  generalize s1.ptSet i 0x28 4 rate = s2 at *
  obtain ⟨h3, v3⟩ := s2.ptSet_inEntry (v := unc) hi (by decide : 0 < 1) (by decide : 0x2F + 1 ≤ 64) h2.clean
    (sub h2.clean (by decide) (by decide)) (.inl (by decide))
  generalize s2.ptSet i 0x2F 1 unc = s3 at *
  have h4 : s3.InEntry i 0x30 1 (if temp = 0x80 then s3 else s3.ptSet i 0x30 1 temp) := by
    split
    · exact ⟨fun _ _ _ => rfl, fun _ _ => rfl, fun _ => rfl, h3.clean⟩
    · exact (s3.ptSet_inEntry hi (by decide : 0 < 1) (by decide) h3.clean (sub h3.clean (by decide) (by decide))
        (.inl (by decide))).1
  generalize (if temp = 0x80 then s3 else s3.ptSet i 0x30 1 temp) = s4 at *
  obtain ⟨h5, v5⟩ := s4.ptSet_inEntry (v := count) hi (by decide : 0 < 1) (by decide : 0x33 + 1 ≤ 64) h4.clean
    (sub h4.clean (by decide) (by decide)) (.inl (by decide))
  generalize s4.ptSet i 0x33 1 count = s5 at *
  obtain ⟨h6, v6⟩ := s5.ptSet_inEntry (v := flags) hi (by decide : 0 < 2) (by decide : 0x0A + 2 ≤ 64) h5.clean
    (sub h5.clean (by decide) (by decide)) (.inl (by decide))
  refine ⟨?_, ?_, ?_, ?_, v6, fun a ha => ?_, fun k => ?_⟩
  · rw [h6.other _ _ (by decide), h5.other _ _ (by decide), h4.other _ _ (by decide), h3.other _ _ (by decide),
      h2.other _ _ (by decide), v1]
  · rw [h6.other _ _ (by decide), h5.other _ _ (by decide), h4.other _ _ (by decide), h3.other _ _ (by decide), v2]
  · rw [h6.other _ _ (by decide), h5.other _ _ (by decide), h4.other _ _ (by decide), v3]
  · rw [h6.other _ _ (by decide), v5]
  · rw [h6.byte a ha, h5.byte a ha, h4.byte a ha, h3.byte a ha, h2.byte a ha, h1.byte a ha]
  · rw [h6.cx, h5.cx, h4.cx, h3.cx, h2.cx, h1.cx]

/-- TLEARN of the first exchange with a partner that reports no temperature, in endpoint mode (R44, Table 2-10). -/
theorem State.tlearn_first (u : State) {i tObs d temp : Nat} (htemp : (u.pt i 0x0A 2).testBit 6 = false)
    (hmode : u.on CVN_CFG.TMODE = false) (hn : u.pt i 0x33 1 = 0) (hobs : tObs ≠ wordStamp (u.pt i 0x20 8)) :
    u.tlearn i tObs d temp = (u.learnStores i (stampWord tObs) (twos 32 (clampInt (-2147483648) 2147483647 (ratRound
      ((6000 * (d : Rat) - ((tObs : Rat) - wordStamp (u.pt i 0x20 8))) / ((tObs : Rat) - wordStamp (u.pt i 0x20 8)) *
        1000000000)))) 176 temp 1 (u.pt i 0x0A 2 - if (u.pt i 0x0A 2).testBit 7 then 128 else 0), false) := by
  have hcap : u.tempCapable i = false := htemp
  have hzero : ¬(false = true) := Bool.false_ne_true
  unfold State.tlearn State.learnStores
  dsimp only
  rw [hn, if_pos rfl, State.m2_endpoint htemp hmode, if_neg hobs, if_neg hobs, hcap, if_neg hzero]
  dsimp only
  rw [mul_zero, sub_zero, codeOf_2048]
  rfl

theorem stampWord_lt (t : Nat) : stampWord t < 256 ^ 8 := by
  unfold stampWord
  omega

theorem twos_lt (w : Nat) (x : Int) : twos w x < 2 ^ w := by
  have hpos : (0 : Int) < ((2 ^ w : Nat) : Int) := by positivity
  have h0 := Int.emod_nonneg x hpos.ne'
  have h1 := Int.emod_lt_of_pos x hpos
  unfold twos
  omega

/-- PFLAGS without the bit of an unmodelled partner. -/
theorem testBit_clear_128 (f : Nat) : ((f - if f.testBit 7 then 128 else 0) % 256 ^ 2).testBit 7 = false := by
  rw [Nat.testBit_eq_decide_div_mod_eq, Nat.testBit_eq_decide_div_mod_eq]
  by_cases h : f / 2 ^ 7 % 2 = 1
  · rw [decide_eq_true h, if_pos rfl]
    exact decide_eq_false (by omega)
  · rw [decide_eq_false h, if_neg Bool.false_ne_true]
    exact decide_eq_false (by omega)

theorem natBits_low {g : Nat} (h : g < 4096) : natBits g 11 0 = g := by
  rw [natBits_eq_div_mod]
  omega

/-- Settles O27: after the fetch the operands are judged, a clean entry is read as it stands, and TLEARN's stores lie in it. That
V is cleared for an entry that is not valid is the model's reading (log 40). -/
theorem driftInstructions : Obligations.DriftInstructions := by
  unfold Obligations.DriftInstructions
  intro k env w s h hx
  dsimp only
  generalize hu : s.fetched k env = u
  have hdrift := fun ho => execOpTdrift_ran h hx ho
  have hlearn := fun ho => execOpTlearn_ran h hx ho
  rw [hu] at hdrift hlearn
  dsimp only [fa, fta, ftd] at hdrift hlearn
  have htake : ∀ {x : BitVec 64}, (x.toNat % 2 ^ 16 = 0 ∧ x.toNat < 2 ^ 48) → (!intervalOk x) ≠ true := fun hi => by
    rw [(intervalOk_iff _).mpr hi]
    decide
  have hfield : ∀ {g : Nat}, natBits g 15 12 = 0 → natBits g 31 24 = 0 → (!tlearnOk g) ≠ true := fun h1 h2 => by
    simp [tlearnOk, h1, h2]
  refine ⟨fun hg hclean => ⟨fun ho hint hvalid htemp hmode => ?_, fun ho hint hvalid => ?_⟩, fun ho hbad => ?_,
    fun ho hlow hhigh hint hclean => ⟨fun hvalid => ?_, fun hvalid hn htemp hmode hobs => ?_⟩⟩
  · have hi := natBits_low hg
    rw [hi] at hclean hvalid htemp ⊢
    refine (hdrift ho).trans (congrArg _ ((if_neg (not_or.mpr ⟨Nat.not_le.mpr hg, htake hint⟩)).trans ?_))
    rw [u.modelRead_clean _ hclean]
    dsimp only
    rw [if_neg (by rw [show Nat.testBit _ 0 = true from hvalid]; decide), State.predict_endpoint htemp hmode,
      State.guardTicks_endpoint hmode, intervalOf_eq hint.2]
    rfl
  · have hi := natBits_low hg
    rw [hi] at hclean hvalid
    refine (hdrift ho).trans (congrArg _ ((if_neg (not_or.mpr ⟨Nat.not_le.mpr hg, htake hint⟩)).trans ?_))
    rw [u.modelRead_clean _ hclean]
    dsimp only
    rw [if_pos (by rw [Bool.eq_false_iff.mpr hvalid]; rfl)]
    rfl
  · refine (hdrift ho).trans (congrArg _ (if_pos (hbad.imp_right fun hi => ?_)))
    rw [Bool.eq_false_iff.mpr fun e => hi ((intervalOk_iff _).mp e)]
    rfl
  · refine (hlearn ho).trans (congrArg _ ((if_neg (not_or.mpr ⟨hfield hlow hhigh, htake hint⟩)).trans ?_))
    rw [u.modelRead_clean _ hclean]
    dsimp only
    rw [if_pos (by rw [Bool.eq_false_iff.mpr hvalid]; rfl)]
    rfl
  · have hi : natBits ((u.cx k.val).rd (natBits w 21 18)).toNat 11 0 < 4096 := by rw [natBits_eq_div_mod]; omega
    have hrun := (hlearn ho).trans (congrArg _ (if_neg (not_or.mpr ⟨hfield hlow hhigh, htake hint⟩)))
    rw [u.modelRead_clean _ hclean] at hrun
    unfold Ctx.stampOf at hrun
    dsimp only at hrun
    rw [if_neg (by rw [show Nat.testBit _ 0 = true from hvalid]; decide),
      State.tlearn_first u htemp hmode hn hobs, intervalOf_eq hint.2] at hrun
    dsimp only at hrun
    refine ⟨_, hrun, ?_⟩
    generalize hs : State.learnStores u _ _ _ _ _ _ _ = v
    obtain ⟨hsync, hrate, hunc, hcount, hflags, hbytes, hcx⟩ := hs ▸ u.learnStores_spec _ _ _ _ _ _ hi hclean
    have hout : ∀ {β : Type} {g : State → β} (f : Ctx → Ctx), (∀ t c, g { t with ctx := c } = g t) → g (v.onCtx k f) = g v :=
      fun f hg => hg v _
    refine ⟨?_, ?_, ?_, ?_, ?_, ?_, fun a ha => ?_⟩
    · unfold State.onCtx
      rw [State.cx_setCx_self, hcx]
    · rw [hout (g := fun t => t.pt _ _ _) _ fun _ _ => rfl, hsync]
      exact Nat.mod_eq_of_lt (stampWord_lt _)
    · exact (hout (g := fun t => t.pt _ 0x33 1) _ fun _ _ => rfl).trans hcount
    · exact (hout (g := fun t => t.pt _ 0x2F 1) _ fun _ _ => rfl).trans hunc
    · rw [hout (g := fun t => t.pt _ _ _) _ fun _ _ => rfl, hrate]
      exact Nat.mod_eq_of_lt (twos_lt 32 _)
    · rw [hout (g := fun t => t.pt _ _ _) _ fun _ _ => rfl, hflags]
      exact testBit_clear_128 _
    · rw [hout (g := fun t => t.byte a) _ fun _ _ => rfl, hbytes a ha]

end Sys2Proof.Machine

/-! Pin words: the bits of a number in memory, IN, and a level driven (R373, R374). -/

namespace Sys2Proof.Machine

/-! Bits of a number in memory. -/

/-- Bit `i` of little-endian bytes is a bit of one of them (R5). -/
theorem leNat_testBit (l : List Byte) (i : Nat) : (leNat l).testBit i = (l.getD (i / 8) 0#8).toNat.testBit (i % 8) := by
  induction l generalizing i with
  | nil => simp [leNat]
  | cons b l ih =>
    have hb := b.isLt
    have e : leNat (b :: l) = 2 ^ 8 * leNat l + b.toNat := by rw [leNat]; ring
    rw [e, Nat.testBit_two_pow_mul_add _ hb]
    by_cases h : i < 8
    · rw [if_pos h, Nat.div_eq_of_lt h, Nat.mod_eq_of_lt h]
      rfl
    · rw [if_neg h, ih, show i / 8 = (i - 8) / 8 + 1 by omega, show i % 8 = (i - 8) % 8 by omega]
      rfl

theorem State.num_testBit (s : State) (a n i : Nat) (h : i < 8 * n) :
    (s.num a n).testBit i = (s.byte (a + i / 8)).toNat.testBit (i % 8) := by
  unfold State.num State.bytes
  rw [leNat_testBit, List.getD_eq_getElem _ _ (by simp; omega)]
  simp

/-! Writes that leave every word they touch in part. -/

/-- A write within parts of words leaves the registers too. -/
theorem State.Stored.unseen_partial {s t : State} {a : Nat} {bs : List Byte} (h : s.Stored a bs t)
    (hp : ∀ w, ¬(a ≤ 8 * w ∧ 8 * w + 8 ≤ a + bs.length)) {β : Type} {g : State → β}
    (hg : ∀ t m k c, g { t with mem := m, marks := k, scrub := c } = g t) : g t = g s := by
  have hr := h.regs hp
  have hu := h.unseen (g := fun u => g { u with regs := s.regs }) fun u r m k c => hg { u with regs := s.regs } m k c
  rw [← hr] at hu
  rw [hr] at hu
  have ht : { t with regs := s.regs } = t := by rw [← hr]
  rwa [ht] at hu

/-- What writes within parts of words leave: bytes outside `p`, every check bit, and all that memory does not hold. -/
structure State.Only (p : Nat → Prop) (s t : State) : Prop where
  byte : ∀ b, ¬p b → t.byte b = s.byte b
  mark : ∀ w, t.mark w = s.mark w
  unseen : ∀ {β : Type} {g : State → β}, (∀ t m k c, g { t with mem := m, marks := k, scrub := c } = g t) → g t = g s

namespace State.Only

variable {p q : Nat → Prop} {s t u : State}

theorem refl (s : State) : s.Only p s := ⟨fun _ _ => rfl, fun _ => rfl, fun _ => rfl⟩

theorem trans (h : s.Only p t) (g : t.Only p u) : s.Only p u :=
  ⟨fun b hb => (g.byte b hb).trans (h.byte b hb), fun w => (g.mark w).trans (h.mark w),
    fun hg => (g.unseen hg).trans (h.unseen hg)⟩

theorem mono (h : s.Only p t) (hpq : ∀ b, p b → q b) : s.Only q t :=
  ⟨fun b hb => h.byte b (mt (hpq b) hb), h.mark, h.unseen⟩

theorem clean (h : s.Only p t) {a n : Nat} (hn : 0 < n) (hc : s.clean a n) : t.clean a n :=
  (State.clean_iff _ _ _ hn).mpr fun w h1 h2 => (h.mark w).trans ((State.clean_iff _ _ _ hn).mp hc w h1 h2)

end State.Only

theorem State.Stored.only {s t : State} {a : Nat} {bs : List Byte} (h : s.Stored a bs t)
    (hp : ∀ w, ¬(a ≤ 8 * w ∧ 8 * w + 8 ≤ a + bs.length)) : s.Only (fun b => a ≤ b ∧ b < a + bs.length) t :=
  ⟨fun b hb => by rw [h.byte, if_neg hb], fun w => h.mark w (hp w), fun hg => h.unseen_partial hp hg⟩

theorem State.touch_unseen {β : Type} {g : State → β} (hg : ∀ t m f, g { t with time := m, free := f } = g t) (s : State) :
    g s.touch = g s := by
  unfold State.touch
  split
  · rfl
  · exact hg s _ _

/-! The pins of a state. -/

/-- Ball `n` driven (R373). -/
def State.drivePin (s : State) (n : Nat) (d l : Bool) : State := { s with pins := { s.pins with
  gpDrv := Tab.set (fun _ => false) s.pins.gpDrv n d
  gpOut := Tab.set (fun _ => false) s.pins.gpOut n l } }

theorem State.ball_drivePin (s : State) (n j : Nat) (d l : Bool) : (s.drivePin n d l).ball j =
    if j = n then (if d then l else Tab.get (fun _ => false) s.pins.gpIn n) else s.ball j := by
  unfold State.ball State.drivePin
  by_cases h : j = n <;> simp [Tab.get_set, h]

/-- The three cases of a pin word applied (R239, R373). -/
theorem State.applyPin_ignored {s : State} {n : Nat} (hg : s.gpSelect n = false)
    (hd : natBits (s.num (pinAddr n) 4) 6 5 = 3) : s.applyPin n = s := by
  simp [State.applyPin, hg, hd]

theorem State.applyPin_word {s : State} {n : Nat} (hg : s.gpSelect n = false)
    (hd : natBits (s.num (pinAddr n) 4) 6 5 ≠ 3) :
    let w := s.num (pinAddr n) 4
    s.applyPin n = (s.drivePin n (w.testBit 0 && !(w.testBit 4 && w.testBit 1)) (w.testBit 1)).inSync n := by
  simp only [State.applyPin, hg, Bool.false_eq_true, if_false, if_neg hd]
  rfl

theorem State.applyPin_cases (s : State) (n : Nat) :
    s.applyPin n = s ∨ ∃ d l, s.applyPin n = (s.drivePin n d l).inSync n := by
  by_cases hg : s.gpSelect n = true
  · refine .inr ⟨true, s.cascWorker (2 + (n - 8) / 4) != some (n - 8), ?_⟩
    simp only [State.applyPin, hg, if_true]
    rfl
  · have hg : s.gpSelect n = false := by simpa using hg
    by_cases hd : natBits (s.num (pinAddr n) 4) 6 5 = 3
    · exact .inl (State.applyPin_ignored hg hd)
    · exact .inr ⟨_, _, State.applyPin_word hg hd⟩

/-! IN of a pin word. -/

theorem pinAddr_holds {n o : Nat} (hn : n < 16) (ho : o < 4) : Bank.ret.holds (pinAddr n + o) = true := by
  unfold Bank.holds pinAddr Bank.base Bank.size
  simp only [Bool.and_eq_true, decide_eq_true_eq]
  omega

section
variable {s : State} {n : Nat} (hn : n < 16) (hc : s.clean (pinAddr n) 4)
include hn hc

/-- A write within a pin word. -/
theorem State.pinStore {o : Nat} {bs : List Byte} (ho : o < 4) (hpos : 0 < bs.length) (hend : o + bs.length ≤ 4) :
    s.Stored (pinAddr n + o) bs (s.store (pinAddr n + o) bs) ∧
    ∀ w, ¬(pinAddr n + o ≤ 8 * w ∧ 8 * w + 8 ≤ pinAddr n + o + bs.length) := by
  refine ⟨s.store_stored (pinAddr_holds hn ho) hpos ?_ (State.clean_sub hc hpos (by omega) (by omega)), fun w => by omega⟩
  unfold pinAddr
  omega

theorem State.inWrite_only : s.Only (fun b => b = pinAddr n + 2) (s.inWrite n) := by
  obtain ⟨h, hp⟩ := State.pinStore hn hc (o := 2) (bs := leBytes 1 (b2n (s.ball n))) (by omega) (by simp) (by simp)
  refine (h.only hp).mono fun b hb => ?_
  rw [leBytes_length] at hb
  omega

theorem State.byte_inWrite : ((s.inWrite n).byte (pinAddr n + 2)).toNat = b2n (s.ball n) := by
  obtain ⟨h, -⟩ := State.pinStore hn hc (o := 2) (bs := leBytes 1 (b2n (s.ball n))) (by omega) (by simp) (by simp)
  have hb := h.byte (pinAddr n + 2)
  rw [if_pos (by simp), Nat.sub_self] at hb
  unfold State.inWrite
  rw [hb]
  cases s.ball n <;> rfl

theorem State.inSync_only : s.Only (fun b => b = pinAddr n + 2) (s.inSync n) := by
  unfold State.inSync
  split
  · exact State.inWrite_only hn hc
  · exact .refl s

/-- IN shows the ball (R374). -/
theorem State.inSync_shows (ha : s.awake = true) (hp : s.pwr.st = .run ∨ s.pwr.st = .idle) :
    ((s.inSync n).num (pinAddr n) 4).testBit 16 = (s.inSync n).ball n := by
  have hball : (s.inSync n).ball n = s.ball n := (State.inSync_only hn hc).unseen (g := fun t => t.ball n) fun _ _ _ _ => rfl
  rw [hball]
  unfold State.inSync
  split
  · rw [State.num_testBit _ _ _ _ (by omega)]
    show ((s.inWrite n).byte (pinAddr n + 2)).toNat.testBit 0 = _
    rw [State.byte_inWrite hn hc]
    cases s.ball n <;> rfl
  · next h =>
    by_contra hne
    exact h ⟨ha, hp, hne⟩

/-! A pin word applied. -/

/-- What a pin word written and applied leaves: bytes outside it, every check bit, and all but memory and what the balls are
driven with. -/
structure State.PinKeeps (s : State) (n : Nat) (t : State) : Prop where
  byte : ∀ b, b < pinAddr n ∨ pinAddr n + 4 ≤ b → t.byte b = s.byte b
  mark : ∀ w, t.mark w = s.mark w
  unseen : ∀ {β : Type} {g : State → β}, (∀ t m k c d o,
    g { t with mem := m, marks := k, scrub := c, pins := { t.pins with gpDrv := d, gpOut := o } } = g t) → g t = g s

end

namespace State.PinKeeps

variable {s t u : State} {n : Nat}

theorem trans (h : s.PinKeeps n t) (g : t.PinKeeps n u) : s.PinKeeps n u :=
  ⟨fun b hb => (g.byte b hb).trans (h.byte b hb), fun w => (g.mark w).trans (h.mark w),
    fun hg => (g.unseen hg).trans (h.unseen hg)⟩

theorem of_only {p : Nat → Prop} (h : s.Only p t) (hp : ∀ b, p b → pinAddr n ≤ b ∧ b < pinAddr n + 4) : s.PinKeeps n t :=
  ⟨fun b hb => h.byte b fun hin => by have := hp b hin; omega, h.mark,
    fun hg => h.unseen fun t m k c => hg t m k c t.pins.gpDrv t.pins.gpOut⟩

theorem clean (h : s.PinKeeps n t) {a m : Nat} (hm : 0 < m) (hc : s.clean a m) : t.clean a m :=
  (State.clean_iff _ _ _ hm).mpr fun w h1 h2 => (h.mark w).trans ((State.clean_iff _ _ _ hm).mp hc w h1 h2)

end State.PinKeeps

theorem State.drivePin_keeps (s : State) (n : Nat) (d l : Bool) : s.PinKeeps n (s.drivePin n d l) :=
  ⟨fun _ _ => rfl, fun _ => rfl, fun hg => hg s s.mem s.marks s.scrub _ _⟩

section
variable {s : State} {n : Nat} (hn : n < 16) (hc : s.clean (pinAddr n) 4)
include hn hc

theorem State.applyPin_keeps_word : s.PinKeeps n (s.applyPin n) := by
  rcases s.applyPin_cases n with h | ⟨d, l, h⟩
  · rw [h]
    exact .of_only (.refl (p := fun _ => False) s) fun _ hb => hb.elim
  · rw [h]
    exact (s.drivePin_keeps n d l).trans
      (.of_only (State.inSync_only hn ((s.drivePin_keeps n d l).clean (by omega) hc)) fun b hb => by omega)

/-- A pin word applied with DRIVE other than 0b11: the balls, and IN (R373, R374). -/
theorem State.applyPin_drives (hg : s.gpSelect n = false) (hd : natBits (s.num (pinAddr n) 4) 6 5 ≠ 3) :
    let t := s.applyPin n
    let w := s.num (pinAddr n) 4
    (∀ j, t.ball j = if j = n then
      (if w.testBit 0 && !(w.testBit 4 && w.testBit 1) then w.testBit 1 else Tab.get (fun _ => false) s.pins.gpIn n)
      else s.ball j) ∧
    (∀ b, b ≠ pinAddr n + 2 → t.byte b = s.byte b) ∧
    (s.awake = true → s.pwr.st = .run ∨ s.pwr.st = .idle → (t.num (pinAddr n) 4).testBit 16 = t.ball n) := by
  dsimp only
  rw [State.applyPin_word hg hd]
  generalize ((s.num (pinAddr n) 4).testBit 0 && !((s.num (pinAddr n) 4).testBit 4 && (s.num (pinAddr n) 4).testBit 1)) = d
  generalize (s.num (pinAddr n) 4).testBit 1 = l
  have hclean := (s.drivePin_keeps n d l).clean (by omega) hc
  have hsync := State.inSync_only hn hclean
  refine ⟨fun j => ?_, fun b hb => hsync.byte b hb, fun ha hp => State.inSync_shows hn hclean ha hp⟩
  rw [hsync.unseen (g := fun t => t.ball j) fun _ _ _ _ => rfl, State.ball_drivePin]

end

/-! A master's write of a pin word (R374). -/

theorem foldl_range_only {α : Type} {f : α → Nat → α} {n m : Nat} (hn : n < m) (hf : ∀ i, i ≠ n → ∀ x, f x i = x) (x : α) :
    (List.range m).foldl f x = f x n := by
  induction m with
  | zero => omega
  | succ m ih =>
    rw [List.range_succ, List.foldl_append, List.foldl_cons, List.foldl_nil]
    by_cases h : n = m
    · subst h
      rw [List.foldlRecOn (motive := fun y => y = x) _ _ rfl fun y hy i hi => by
        rw [hf i (List.mem_range.mp hi).ne, hy]]
    · rw [ih (by omega), hf m (by omega)]

theorem State.applyPins_word (s : State) {n : Nat} (hn : n < 16) : s.applyPins (pinAddr n) 4 = s.applyPin n := by
  unfold State.applyPins
  rw [foldl_range_only hn fun i hi t => if_neg (by unfold pinAddr; omega)]
  exact if_pos (by omega)

theorem State.pinNote_word (s : State) {n : Nat} (hn : n < 16) :
    s.pinNote (pinAddr n) 4 = { s with pins := { s.pins with wrote := Tab.set (fun _ => 0) s.pins.wrote n (s.stamp + 1) } } := by
  unfold State.pinNote
  rw [foldl_range_only hn fun i hi t => if_neg (by unfold pinAddr; omega)]
  rw [if_pos (by omega)]

theorem State.pinWritten_pinNote (s : State) {n : Nat} (hn : n < 16) : (s.pinNote (pinAddr n) 4).pinWritten n = true := by
  rw [s.pinNote_word hn]
  unfold State.pinWritten
  simp only [Tab.get_set_self]
  exact beq_self_eq_true _

theorem chunks_one {a f : Nat} {bs : List Byte} (hpos : 0 < bs.length) (hfit : bs.length ≤ 8 - a % 8) :
    chunks (f + 1) a bs = [(a, bs)] := by
  obtain ⟨x, xs, rfl⟩ := List.exists_cons_of_length_pos hpos
  have htake : (x :: xs).take (8 - a % 8) = x :: xs := List.take_of_length_le hfit
  have hnil : (x :: xs).drop (8 - a % 8) = [] := List.drop_of_length_le hfit
  have hend : chunks f (a + (8 - a % 8)) [] = [] := by cases f <;> rfl
  show (a, (x :: xs).take (8 - a % 8)) :: chunks f (a + (8 - a % 8)) ((x :: xs).drop (8 - a % 8)) = _
  rw [htake, hnil, hend]

theorem State.masterWrite_pin (s : State) {n x : Nat} (hn : n < 16) :
    s.masterWrite (pinAddr n) (leBytes 4 x) .none =
      ((s.portWrite .ret (pinAddr n) (leBytes 4 x) .none).pinNote (pinAddr n) 4).applyPin n := by
  have hb : bankOf (pinAddr n) = some .ret := bankOf_of_holds (pinAddr_holds hn (o := 0) (by omega))
  have hlen : (leBytes 4 x).length = 4 := leBytes_length 4 x
  unfold State.masterWrite
  rw [hb]
  dsimp only
  rw [chunks_one (by omega) (by unfold pinAddr; omega), List.foldl_cons, List.foldl_nil, hlen]
  have hlog : ¬(0x4D800 ≤ pinAddr n ∧ pinAddr n < 0x4DC00) := by unfold pinAddr; omega
  rw [if_neg hlog]
  simp only [show (Bank.ret == Bank.erg) = false from rfl, show (Bank.ret == Bank.ret) = true from rfl, Bool.false_and,
    if_true, Bool.false_eq_true, if_false]
  exact State.applyPins_word _ hn

theorem State.num_add (s : State) (a m n : Nat) : s.num a (m + n) = s.num a m + 256 ^ m * s.num (a + m) n := by
  induction m generalizing a with
  | zero => simp [State.num, State.bytes, leNat]
  | succ m ih =>
    have step : ∀ b k, s.num b (k + 1) = (s.byte b).toNat + 256 * s.num (b + 1) k := fun b k => by
      unfold State.num State.bytes
      rw [List.range_succ_eq_map, List.map_cons, leNat, List.map_map]
      congr 3
      exact List.map_congr_left fun i _ => by simp [Nat.add_comm, Nat.add_left_comm]
    rw [show m + 1 + n = m + n + 1 by omega, step, step, ih, show a + 1 + m = a + (m + 1) by omega]
    ring

theorem State.num_one (s : State) (a : Nat) : s.num a 1 = (s.byte a).toNat := by
  simp [State.num, State.bytes, leNat, List.range_succ]

theorem State.num_lt (s : State) (a n : Nat) : s.num a n < 256 ^ n := by
  induction n with
  | zero => simp [State.num, State.bytes, leNat]
  | succ n ih =>
    have hb := (s.byte (a + n)).isLt
    rw [s.num_add, s.num_one, pow_succ]
    nlinarith

/-- The number in the first bytes of a longer one. -/
theorem State.num_mod (s : State) (a m n : Nat) : s.num a (m + n) % 256 ^ m = s.num a m := by
  rw [s.num_add, Nat.add_mul_mod_self_left, Nat.mod_eq_of_lt (s.num_lt a m)]

/-- The number in the last bytes of a longer one. -/
theorem State.num_div (s : State) (a m n : Nat) : s.num a (m + n) / 256 ^ m = s.num (a + m) n := by
  rw [s.num_add, Nat.add_mul_div_left _ _ (by positivity), Nat.div_eq_of_lt (s.num_lt a m), Nat.zero_add]

/-- A master's write of a pin word: what stands in it, IN apart, and nothing outside it (R373, R374). -/
theorem State.masterWrite_pin_keeps {s : State} {n : Nat} (hn : n < 16) (hc : s.clean (pinAddr n) 4) {x : Nat}
    (hx : x < 2 ^ 32) :
    let u := (s.portWrite .ret (pinAddr n) (leBytes 4 x) .none).pinNote (pinAddr n) 4
    u.num (pinAddr n) 4 = x ∧ u.clean (pinAddr n) 4 ∧ u.pinWritten n = true ∧
      (∀ b, b < pinAddr n ∨ pinAddr n + 4 ≤ b → u.byte b = s.byte b) ∧
      (∀ {β : Type} {g : State → β}, (∀ t m k c w,
        g { t with mem := m, marks := k, scrub := c, pins := { t.pins with wrote := w } } = g t) → g u = g s) := by
  have hlen : (leBytes 4 x).length = 4 := leBytes_length 4 x
  have h := s.portWrite_stored .ret (pinAddr n) (leBytes 4 x) (by rw [hlen]; unfold pinAddr; omega)
    (fun i hi => by
      unfold inRom
      rw [decide_eq_false (by unfold pinAddr; omega), Bool.false_and])
    fun _ => (s.clean_iff _ _ (by omega)).mp hc _ (le_refl _) (by omega)
  have hp : ∀ w, ¬(pinAddr n ≤ 8 * w ∧ 8 * w + 8 ≤ pinAddr n + (leBytes 4 x).length) := by
    rw [hlen]
    omega
  have ho := h.only hp
  generalize s.portWrite .ret (pinAddr n) (leBytes 4 x) .none = v at *
  dsimp only
  refine ⟨?_, ?_, v.pinWritten_pinNote hn, fun b hb => ?_, fun hg => ?_⟩
  · exact (h.num_self).trans (Nat.mod_eq_of_lt hx)
  · exact ho.clean (by omega) hc
  · exact h.byte_outside (by rw [hlen]; exact hb)
  · exact (hg v v.mem v.marks v.scrub _).trans (ho.unseen fun t m k c => hg t m k c t.pins.wrote)

theorem natBits_drive (x : Nat) : natBits x 6 5 = x / 32 % 4 := by simp [natBits_eq_div_mod]

/-- PIN_WORD_WRITE (R374). -/
theorem execPinWordWrite_drives (m : Master) (n : Fin 16) (v : Word) (s : State) (ha : s.awake = true)
    (hr : s.pwr.st = .run ∨ s.pwr.st = .idle) (hc : s.clean (pinAddr n.val) 4) :
    let a := pinAddr n.val
    let x := v.toNat
    ∃ t, exec (.pinWordWrite m n v) s = .next t ∧ t.num a 2 = x % 2 ^ 16 ∧
      t.num (a + 3) 1 = x / 2 ^ 24 ∧ (∀ b, (b < a ∨ a + 4 ≤ b) → t.byte b = s.byte b) ∧ t.regs = s.regs ∧
      t.pinWritten n.val = true ∧
      (natBits x 6 5 = 3 → s.gpSelect n.val = false → { t.pins with wrote := s.pins.wrote } = s.pins) ∧
      (natBits x 6 5 ≠ 3 → s.gpSelect n.val = false → (t.num a 4).testBit 16 = t.ball n.val ∧
        (x.testBit 0 = true → x.testBit 4 = false → t.ball n.val = x.testBit 1) ∧
        (x.testBit 0 = true → x.testBit 4 = true → x.testBit 1 = true →
          t.ball n.val = Tab.get (fun _ => false) s.pins.gpIn n.val) ∧
        (x.testBit 0 = false → t.ball n.val = Tab.get (fun _ => false) s.pins.gpIn n.val) ∧
        ∀ j, j ≠ n.val → t.ball j = s.ball j) := by
  intro a x
  have hn := n.isLt
  have hct : s.touch.clean (pinAddr n.val) 4 := fun w hw => by
    rw [show s.touch.mark w = s.mark w by unfold State.mark; simp]
    exact hc w hw
  have hexec : exec (.pinWordWrite m n v) s = .next (s.touch.masterWrite (pinAddr n.val) (leBytes 4 v.toNat) .none) := by
    show execPinWordWrite m n v s = _
    simp [execPinWordWrite, ha]
  refine ⟨_, hexec, ?_⟩
  rw [State.masterWrite_pin _ hn]
  obtain ⟨hnum, hcu, hwr, hout, hun⟩ := State.masterWrite_pin_keeps hn hct v.isLt
  generalize (s.touch.portWrite .ret (pinAddr n.val) (leBytes 4 v.toNat) .none).pinNote (pinAddr n.val) 4 = u at *
  have hk := State.applyPin_keeps_word hn hcu
  have hone : ∀ b, b ≠ pinAddr n.val + 2 → (u.applyPin n.val).byte b = u.byte b := by
    rcases u.applyPin_cases n.val with h | ⟨d, l, h⟩
    · exact fun b _ => by rw [h]
    · intro b hb
      rw [h]
      exact (State.inSync_only hn ((u.drivePin_keeps n.val d l).clean (by omega) hcu)).byte b hb
  have hgp : u.gpSelect n.val = s.gpSelect n.val :=
    (hun (g := fun t => t.gpSelect n.val) fun _ _ _ _ _ => rfl).trans
      (State.touch_unseen (g := fun t => t.gpSelect n.val) (fun _ _ _ => rfl) s)
  have hball : ∀ j, u.ball j = s.ball j := fun j =>
    (hun (g := fun t => t.ball j) fun _ _ _ _ _ => rfl).trans
      (State.touch_unseen (g := fun t => t.ball j) (fun _ _ _ => rfl) s)
  have hin : u.pins.gpIn = s.pins.gpIn := (hun (g := fun t => t.pins.gpIn) fun _ _ _ _ _ => rfl).trans (by simp)
  have hawake : u.awake = true := ((hun (g := State.awake) fun _ _ _ _ _ => rfl).trans
    (State.touch_unseen (g := State.awake) (fun _ _ _ => rfl) s)).trans ha
  have hpwr : u.pwr = s.pwr := (hun (g := State.pwr) fun _ _ _ _ _ => rfl).trans (by simp)
  refine ⟨?_, ?_, fun b hb => ?_, ?_, ?_, fun hd hg => ?_, fun hd hg => ?_⟩
  · rw [State.num_congr fun i hi => hone _ (by omega), ← u.num_mod a 2 2, hnum]
    rfl
  · rw [State.num_congr fun i hi => hone _ (by omega), ← u.num_div a 3 1, hnum]
    rfl
  · rw [hk.byte b hb, hout b hb, State.byte_of_mem s.touch_mem]
  · rw [hk.unseen (g := State.regs) fun _ _ _ _ _ _ => rfl, hun (g := State.regs) fun _ _ _ _ _ => rfl, State.touch_regs]
  · exact (hk.unseen (g := fun t => t.pinWritten n.val) fun _ _ _ _ _ _ => rfl).trans hwr
  · rw [State.applyPin_ignored (hgp.trans hg) (hnum ▸ hd),
      hun (g := fun t => ({ t.pins with wrote := s.pins.wrote } : Pins)) fun _ _ _ _ _ => rfl, State.touch_pins]
  · obtain ⟨hballs, -, hshow⟩ := State.applyPin_drives hn hcu (hgp.trans hg) (hnum ▸ hd)
    refine ⟨hshow hawake (hpwr ▸ hr), ?_, ?_, ?_, fun j hj => ?_⟩
    · intro h0 h4
      rw [hballs, if_pos rfl, hnum, show v.toNat.testBit 0 = true from h0, show v.toNat.testBit 4 = false from h4]
      rfl
    · intro h0 h4 h1
      rw [hballs, if_pos rfl, hnum, show v.toNat.testBit 0 = true from h0, show v.toNat.testBit 4 = true from h4,
        show v.toNat.testBit 1 = true from h1, hin]
      rfl
    · intro h0
      rw [hballs, if_pos rfl, hnum, show v.toNat.testBit 0 = false from h0, hin]
      rfl
    · rw [hballs, if_neg hj, hball]

/-- GP_INPUT_CHANGE (R374). -/
theorem execGpInputChange_shows (n : Fin 16) (level : Bool) (s : State) (hc : s.clean (pinAddr n.val) 4) :
    ∃ t, exec (.gpInputChange n level) s = .next t ∧ Tab.get (fun _ => false) t.pins.gpIn n.val = level ∧
      (∀ j, j ≠ n.val → Tab.get (fun _ => false) t.pins.gpIn j = Tab.get (fun _ => false) s.pins.gpIn j) ∧
      (∀ j, j ≠ n.val → t.ball j = s.ball j) ∧
      (s.awake = true → s.pwr.st = .run ∨ s.pwr.st = .idle → (t.num (pinAddr n.val) 4).testBit 16 = t.ball n.val) ∧
      (∀ b, b ≠ pinAddr n.val + 2 → t.byte b = s.byte b) ∧
      { t with mem := s.mem, marks := s.marks, scrub := s.scrub, pins := s.pins } = s.touch := by
  refine ⟨_, rfl, ?_⟩
  obtain ⟨u, hu⟩ : ∃ u : State, u = { s.touch with
    pins := { s.touch.pins with gpIn := Tab.set (fun _ => false) s.touch.pins.gpIn n.val level } } := ⟨_, rfl⟩
  have hin : ∀ j, Tab.get (fun _ => false) u.pins.gpIn j =
      if j = n.val then level else Tab.get (fun _ => false) s.pins.gpIn j := fun j => by
    rw [hu]
    simp [Tab.get_set]
  have hmem : u.mem = s.mem := by rw [hu]; simp
  have hmarks : u.marks = s.marks := by rw [hu]; simp
  have hscrub : u.scrub = s.scrub := by rw [hu]; simp
  have hdrv : u.pins.gpDrv = s.pins.gpDrv ∧ u.pins.gpOut = s.pins.gpOut := by rw [hu]; simp
  have hpwr : u.pwr = s.pwr := by rw [hu]; simp
  have hawake : u.awake = s.awake := by rw [hu]; exact State.touch_unseen (g := State.awake) (fun _ _ _ => rfl) s
  have hrest : { u with pins := s.pins } = s.touch := by rw [hu, ← s.touch_pins]
  rw [← hu]
  have hcu : u.clean (pinAddr n.val) 4 := fun w hw => by
    unfold State.mark
    rw [hmarks]
    exact hc w hw
  have hsync := State.inSync_only n.isLt hcu
  have hgp : (u.inSync n.val).pins = u.pins := hsync.unseen (g := State.pins) fun _ _ _ _ => rfl
  refine ⟨?_, fun j hj => ?_, fun j hj => ?_, fun ha hr => ?_, fun b hb => ?_, ?_⟩
  · rw [hgp, hin, if_pos rfl]
  · rw [hgp, hin, if_neg hj]
  · unfold State.ball
    rw [hgp, hin, if_neg hj, hdrv.1, hdrv.2]
  · exact State.inSync_shows n.isLt hcu (hawake.trans ha) (hpwr ▸ hr)
  · rw [hsync.byte b hb, State.byte_of_mem hmem]
  · rw [← hrest, ← hmem, ← hmarks, ← hscrub]
    exact hsync.unseen (g := fun t => ({ t with mem := u.mem, marks := u.marks, scrub := u.scrub, pins := s.pins } : State))
      fun _ _ _ _ => rfl

/-- IN of the first `m` pin words rewritten (R374). -/
theorem State.inWrites_only {m : Nat} (hm : m ≤ 16) {s : State} (hc : s.clean (pinAddr 0) 64) :
    let t := (List.range m).foldl State.inWrite s
    s.Only (fun b => ∃ n, n < 16 ∧ b = pinAddr n + 2) t ∧ ∀ n, n < m → t.num (pinAddr n + 2) 1 = b2n (s.ball n) := by
  induction m with
  | zero => exact ⟨.refl s, fun n hn => absurd hn (Nat.not_lt_zero n)⟩
  | succ m ih =>
    obtain ⟨hk, hin⟩ := ih (by omega)
    dsimp only
    rw [List.range_succ, List.foldl_append, List.foldl_cons, List.foldl_nil]
    generalize (List.range m).foldl State.inWrite s = t at *
    have hct : t.clean (pinAddr m) 4 := State.clean_sub (hk.clean (by omega) hc) (by omega) (by unfold pinAddr; omega)
      (by unfold pinAddr; omega)
    have hw := State.inWrite_only (by omega) hct
    refine ⟨hk.trans (hw.mono fun b hb => ⟨m, by omega, hb⟩), fun n hn => ?_⟩
    by_cases h : n = m
    · subst h
      rw [State.num_one, State.byte_inWrite (by omega) hct]
      exact congrArg b2n (hk.unseen (g := fun t => t.ball n) fun _ _ _ _ => rfl)
    · rw [← hin n (by omega), State.num_one, State.num_one, hw.byte _ (by unfold pinAddr; omega)]

/-- IN_REFRESH (R374). -/
theorem execInRefresh_shows (s : State) (ha : s.awake = true) (hr : s.pwr.st = .run ∨ s.pwr.st = .idle)
    (hc : s.clean (pinAddr 0) 64) (k : Nat) (hk : s.multipleNow 5 = some k) :
    ∃ t, exec .inRefresh s = .next t ∧ (∀ n, n < 16 → t.num (pinAddr n + 2) 1 = b2n (s.ball n)) ∧
      (∀ b, (∀ n, n < 16 → b ≠ pinAddr n + 2) → t.byte b = s.byte b) ∧
      { t with mem := s.mem, marks := s.marks, scrub := s.scrub } = s.moveTo (6000 * k) := by
  have hruns : s.msgRuns = true := by
    unfold State.msgRuns
    rcases hr with h | h <;> simp [ha, h]
  refine ⟨(List.range 16).foldl State.inWrite (s.moveTo (6000 * k)), ?_, ?_⟩
  · show execInRefresh s = _
    simp [execInRefresh, hk, hruns]
  · have hc' : (s.moveTo (6000 * k)).clean (pinAddr 0) 64 := hc
    obtain ⟨hkeep, hin⟩ := State.inWrites_only (le_refl 16) hc'
    refine ⟨hin, fun b hb => hkeep.byte b fun ⟨n, hn, e⟩ => hb n hn e, ?_⟩
    exact hkeep.unseen (g := fun t => ({ t with mem := s.mem, marks := s.marks, scrub := s.scrub } : State))
      fun _ _ _ _ => rfl

/-! LEVEL written and driven by the device (R31, R374). -/

theorem State.Books.portWrite {a s : State} (b : Bank) (x : Nat) (bs : List Byte) (h : a.Books s) :
    a.Books (s.portWrite b x bs .none) := by
  have hread := h.readWord (x / 8) 2
  unfold State.portWrite
  dsimp only
  generalize s.readWord (x / 8) 2 = r at *
  simp only [show (ParityHit.none == ParityHit.addr) = false from rfl, show (ParityHit.none == ParityHit.data) = false from rfl,
    Bool.false_eq_true, if_false]
  split
  · exact (h.markFull _).putBytes _ _
  · split
    · exact (hread.setMark _ _).putBytes _ _
    · exact hread.raise _ _

theorem State.Books.store {a s : State} (x : Nat) (bs : List Byte) (h : a.Books s) : a.Books (s.store x bs) := by
  unfold State.store
  split
  · exact Books.foldl (fun _ _ h => h.portWrite _ _ _) h
  · exact h

/-- Whatever stands in memory, a pin driven leaves all but the books and what the balls are driven with. -/
theorem State.pinDrive_unseen {β : Type} {g : State → β} (hg : ∀ t r m k c p o d l, g { t with
    regs := r, mem := m, marks := k, scrub := c, ports := p, cmrOpen := o,
    pins := { t.pins with gpDrv := d, gpOut := l } } = g t) (s : State) (n : Nat) (level : Bool) :
    g (s.pinDrive n level) = g s := by
  have hb : ∀ {t u : State}, t.Books u → g u = g t := fun h => h.unseen fun t r m k c p o => hg t r m k c p o t.pins.gpDrv t.pins.gpOut
  have hsync : ∀ t : State, g (t.inSync n) = g t := fun t => by
    unfold State.inSync State.inWrite
    split
    · exact hb ((State.Books.refl t).store _ _)
    · rfl
  have happly : ∀ t : State, g (t.applyPin n) = g t := fun t => by
    rcases t.applyPin_cases n with h | ⟨d, l, h⟩
    · rw [h]
    · rw [h, hsync]
      exact hg t t.regs t.mem t.marks t.scrub t.ports t.cmrOpen _ _
  unfold State.pinDrive
  dsimp only
  split
  · split
    · exact hb ((State.Books.refl s).store _ _)
    · exact (happly _).trans (hb ((State.Books.refl s).store _ _))
  · rfl

/-- LEVEL put into the low byte of a pin word. -/
def pinByte (w : Nat) (level : Bool) : Nat := w - natBits w 1 1 * 2 + b2n level * 2

theorem pinByte_bits {w : Nat} (hw : w < 256) (level : Bool) :
    pinByte w level < 256 ∧ (pinByte w level).testBit 0 = w.testBit 0 ∧ (pinByte w level).testBit 1 = level ∧
      (pinByte w level).testBit 4 = w.testBit 4 ∧ natBits (pinByte w level) 6 5 = natBits w 6 5 := by
  have hdef : pinByte w level = w - w / 2 % 2 * 2 + b2n level * 2 := by simp [pinByte, natBits_eq_div_mod]
  have hl : b2n level < 2 := by cases level <;> decide
  simp only [Nat.testBit_eq_decide_div_mod_eq, natBits_eq_div_mod, hdef]
  refine ⟨by omega, ?_, ?_, ?_, ?_⟩
  · simp only [decide_eq_decide]; omega
  · cases level
    · rw [decide_eq_false (by rw [show b2n false = 0 from rfl]; omega)]
    · rw [decide_eq_true (by rw [show b2n true = 1 from rfl]; omega)]
  · simp only [decide_eq_decide]; omega
  · omega

section
variable {s : State} {n : Nat} (level : Bool) (hn : n < 16)

theorem State.pinDrive_input (hw : (s.num (pinAddr n) 1).testBit 0 = false) : s.pinDrive n level = s := by
  unfold State.pinDrive
  dsimp only
  rw [hw]
  rfl

theorem State.pinDrive_written (hp : s.pinWritten n = true) : s.pinDrive n level = s := by
  unfold State.pinDrive
  dsimp only
  rw [hp, Bool.not_true, Bool.and_false]
  rfl

theorem State.asleep_of_runs (hr : s.pwr.st = .run ∨ s.pwr.st = .idle) : s.asleep = false := by
  unfold State.asleep
  rcases hr with h | h <;> rw [h] <;> rfl

theorem State.pinDrive_output (hr : s.pwr.st = .run ∨ s.pwr.st = .idle) (hw : (s.num (pinAddr n) 1).testBit 0 = true)
    (hp : s.pinWritten n = false) :
    s.pinDrive n level = (s.store (pinAddr n) (leBytes 1 (pinByte (s.num (pinAddr n) 1) level))).applyPin n := by
  unfold State.pinDrive
  dsimp only
  rw [hw, hp]
  have hasleep : (s.store (pinAddr n) (leBytes 1 (pinByte (s.num (pinAddr n) 1) level))).asleep = false := by
    rw [((State.Books.refl s).store _ _).unseen (g := State.asleep) fun _ _ _ _ _ _ _ => rfl]
    exact State.asleep_of_runs hr
  unfold pinByte at *
  rw [if_pos (by decide), hasleep]
  rfl

include hn

/-- A pin driven keeps its word within the word. -/
theorem State.pinDrive_keeps_word (hr : s.pwr.st = .run ∨ s.pwr.st = .idle) (hc : s.clean (pinAddr n) 4) : s.PinKeeps n (s.pinDrive n level) := by
  have hrefl : s.PinKeeps n s := .of_only (.refl (p := fun _ => False) s) fun _ hb => hb.elim
  by_cases hw : (s.num (pinAddr n) 1).testBit 0 = true
  · by_cases hp : s.pinWritten n = true
    · rw [State.pinDrive_written level hp]
      exact hrefl
    · rw [State.pinDrive_output level hr hw (by simpa using hp)]
      obtain ⟨h, hpart⟩ := State.pinStore hn hc (o := 0) (bs := leBytes 1 (pinByte (s.num (pinAddr n) 1) level)) (by omega)
        (by simp) (by simp)
      have hk : s.PinKeeps n (s.store (pinAddr n + 0) (leBytes 1 (pinByte (s.num (pinAddr n) 1) level))) :=
        .of_only (h.only hpart) fun b hb => by
          rw [leBytes_length] at hb
          omega
      exact hk.trans (State.applyPin_keeps_word hn (hk.clean (by omega) hc))
  · rw [State.pinDrive_input level (by simpa using hw)]
    exact hrefl

/-- A push-pull output, or an open drain driven low, carries the level that is written (R373, R374). -/
theorem State.pinDrive_drives (hr : s.pwr.st = .run ∨ s.pwr.st = .idle) (hc : s.clean (pinAddr n) 4)
    (hw : (s.num (pinAddr n) 1).testBit 0 = true) (hp : s.pinWritten n = false)
    (hd : natBits (s.num (pinAddr n) 1) 6 5 ≠ 3) (hg : s.gpSelect n = false)
    (hl : level = false ∨ (s.num (pinAddr n) 1).testBit 4 = false) :
    (s.pinDrive n level).ball n = level ∧ ((s.pinDrive n level).num (pinAddr n) 1).testBit 1 = level := by
  obtain ⟨hlt, h0, h1, h4, h65⟩ := pinByte_bits (s.num_lt (pinAddr n) 1) level
  obtain ⟨h, hpart⟩ := State.pinStore hn hc (o := 0) (bs := leBytes 1 (pinByte (s.num (pinAddr n) 1) level)) (by omega)
    (by simp) (by simp)
  rw [State.pinDrive_output level hr hw hp]
  rw [hw] at h0
  generalize hv : pinByte (s.num (pinAddr n) 1) level = v at *
  have hone : (s.store (pinAddr n + 0) (leBytes 1 v)).num (pinAddr n) 1 = v := h.num_self.trans (Nat.mod_eq_of_lt hlt)
  have honly := h.only hpart
  have hgu : (s.store (pinAddr n + 0) (leBytes 1 v)).gpSelect n = false :=
    (honly.unseen (g := fun t => t.gpSelect n) fun _ _ _ _ => rfl).trans hg
  have hcu := honly.clean (by omega) hc
  change ((s.store (pinAddr n + 0) (leBytes 1 v)).applyPin n).ball n = level ∧
    (((s.store (pinAddr n + 0) (leBytes 1 v)).applyPin n).num (pinAddr n) 1).testBit 1 = level
  generalize s.store (pinAddr n + 0) (leBytes 1 v) = u at *
  have hfour : u.num (pinAddr n) 4 % 256 = v := (u.num_mod (pinAddr n) 1 3).trans hone
  have hbit : ∀ i, i < 8 → (u.num (pinAddr n) 4).testBit i = v.testBit i := fun i hi => by
    rw [← hfour, show 256 = 2 ^ 8 from rfl, Nat.testBit_mod_two_pow, decide_eq_true hi, Bool.true_and]
  have hd4 : natBits (u.num (pinAddr n) 4) 6 5 ≠ 3 := by
    rw [natBits_drive] at hd h65 ⊢
    rw [natBits_drive] at h65
    omega
  obtain ⟨hballs, hbytes, -⟩ := State.applyPin_drives hn hcu hgu hd4
  refine ⟨?_, ?_⟩
  · rw [hballs, if_pos rfl, hbit 0 (by omega), hbit 1 (by omega), hbit 4 (by omega), h0, h1, h4]
    rcases hl with rfl | hl
    · simp
    · simp [hl]
  · rw [State.num_congr (s := u) fun i hi => hbytes _ (by omega), hone, h1]

end

/-- PIN_PULSE_END (R31). -/
theorem execPinPulseEnd_drives (n : Fin 16) (s : State) (hr : s.pwr.st = .run ∨ s.pwr.st = .idle) :
    let e := Tab.get (fun _ => 0) s.pins.pulses n.val
    let w := s.num (pinAddr n.val) 1
    e ≠ 0 → s.reach (e - 1) = true → ∃ t, exec (.pinPulseEnd n) s = .next t ∧ e - 1 ≤ t.stamp ∧
      Tab.get (fun _ => 0) t.pins.pulses n.val = 0 ∧
      (w.testBit 0 = true → s.clean (pinAddr n.val) 4 → natBits w 6 5 ≠ 3 → s.gpSelect n.val = false →
        (s.moveTo (e - 1)).pinWritten n.val = false → t.ball n.val = false ∧ (t.num (pinAddr n.val) 1).testBit 1 = false) ∧
      ((s.moveTo (e - 1)).pinWritten n.val = true → t.mem = s.mem) ∧
      (w.testBit 0 = false → { t with pins := s.pins, time := s.time } = s) ∧
      (s.clean (pinAddr n.val) 4 → t.regs = s.regs ∧
        ∀ b, (b < pinAddr n.val ∨ pinAddr n.val + 4 ≤ b) → t.byte b = s.byte b) := by
  intro e w he hreach
  have hn := n.isLt
  obtain ⟨u, hu⟩ : ∃ u : State, u = { s.moveTo (e - 1) with
    pins := { s.pins with pulses := Tab.set (fun _ => 0) s.pins.pulses n.val 0 } } := ⟨_, rfl⟩
  have hexec : exec (.pinPulseEnd n) s = .next (u.pinDrive n.val false) := by
    show execPinPulseEnd n s = _
    rw [hu]
    simp only [execPinPulseEnd]
    exact if_pos ⟨he, hreach⟩
  have hru : u.pwr.st = .run ∨ u.pwr.st = .idle := by rw [hu]; exact hr
  have hmem : u.mem = s.mem := by rw [hu]; rfl
  have hregs : u.regs = s.regs := by rw [hu]; rfl
  have hnum : u.num (pinAddr n.val) 1 = w := State.num_congr fun i _ => State.byte_of_mem hmem _
  have hwr : u.pinWritten n.val = (s.moveTo (e - 1)).pinWritten n.val := by rw [hu]; rfl
  have hgu : u.gpSelect n.val = s.gpSelect n.val := by rw [hu]; rfl
  have hcu : s.clean (pinAddr n.val) 4 → u.clean (pinAddr n.val) 4 := fun h => by rw [hu]; exact h
  refine ⟨_, hexec, ?_, ?_, fun hb hc hd hg hp => ?_, fun hp => ?_, fun hb => ?_, fun hc => ?_⟩
  · rw [State.pinDrive_unseen (g := State.stamp) (fun _ _ _ _ _ _ _ _ _ => rfl) u]
    have : u.stamp = (s.moveTo (e - 1)).stamp := by rw [hu]; rfl
    rw [this, State.stamp_of_awake (s := s.moveTo (e - 1)) (State.asleep_of_runs hr)]
    exact State.le_moveTo_now hreach
  · rw [State.pinDrive_unseen (g := fun t => Tab.get (fun _ => 0) t.pins.pulses n.val) (fun _ _ _ _ _ _ _ _ _ => rfl) u, hu]
    simp
  · exact State.pinDrive_drives false hn hru (hcu hc) (hnum ▸ hb) (hwr.trans hp) (hnum ▸ hd) (hgu.trans hg) (.inl rfl)
  · rw [State.pinDrive_written false (hwr.trans hp), hmem]
  · rw [State.pinDrive_input false (hnum ▸ hb), hu]
    rfl
  · have hk := State.pinDrive_keeps_word false hn hru (hcu hc)
    exact ⟨(hk.unseen (g := State.regs) fun _ _ _ _ _ _ => rfl).trans hregs, fun b hb =>
      (hk.byte b hb).trans (State.byte_of_mem hmem b)⟩

/-- Settles O48: a pin word is applied as it is written, IN follows a ball, and a pulse ends low. The ticks of IN_REFRESH
are the model's choice (log entry 103). -/
theorem pinWordsAndBalls : Obligations.PinWordsAndBalls :=
  ⟨execPinWordWrite_drives, execGpInputChange_shows, execInRefresh_shows,
    fun n s _ hr => execPinPulseEnd_drives n s hr⟩

end Sys2Proof.Machine

/-! Waking: the record of a wake, the core domain's start, and the end of the wake (R326–R330). -/

namespace Sys2Proof.Machine

/-! Fields that share no bit. -/

/-- `g` shares no bit with `f`. -/
def Fld.apart (f g : Fld) : Bool := f.off != g.off || (decide (f.lo ≤ f.hi) && decide (f.hi < 32) && (decide (g.hi < f.lo) || decide (f.hi < g.lo)))

theorem State.fld_setFld_other (s : State) (f g : Fld) (v : Nat) (h : f.apart g = true) : (s.setFld f v).fld g = s.fld g := by
  unfold Fld.apart at h
  simp only [Bool.or_eq_true, Bool.and_eq_true, decide_eq_true_eq, bne_iff_ne, ne_eq] at h
  rcases h with h | ⟨⟨h1, h2⟩, h3⟩
  · exact State.fld_setFld_ne _ _ _ _ (Ne.symm h)
  · exact State.fld_setFld_apart _ _ _ _ ⟨h1, h2⟩ h3

theorem State.on_setFld_other (s : State) (f g : Fld) (v : Nat) (h : f.apart g = true) : (s.setFld f v).on g = s.on g := by
  unfold State.on
  rw [State.fld_setFld_other _ _ _ _ h]

theorem State.onlyReg_refl (s : State) (o : Nat) : s.onlyReg s o := ⟨fun _ _ => rfl, rfl⟩

/-- Fields of one register change that register alone. -/
theorem State.onlyReg.setFld {s t : State} {o : Nat} (h : s.onlyReg t o) {f : Fld} (hf : f.off = o) (v : Nat) :
    s.onlyReg (t.setFld f v) o :=
  ⟨fun i hi => (State.reg_setFld_ne _ _ _ _ (by rw [hf]; exact hi)).trans (h.1 i hi), h.2⟩

theorem State.fld_lt (s : State) (f : Fld) : s.fld f < 2 ^ (f.hi + 1 - f.lo) := getBits_lt _ _ _

/-! TCXO_EN. -/

theorem State.tcxoJudge_unseen {β : Type} {g : State → β} (hg : ∀ t r a e, g { t with
    regs := r, pwr := { t.pwr with tcxoAt := a }, pins := { t.pins with tcxoEn := e } } = g t) (s : State) :
    g s.tcxoJudge = g s := by
  unfold State.tcxoJudge
  dsimp only
  generalize (s.tcxoWanted && s.pwr.st != .inReset) = e
  cases e
  · exact hg s _ s.pwr.tcxoAt _
  · cases s.pins.tcxoEn
    · exact hg s s.regs _ _
    · exact hg s s.regs s.pwr.tcxoAt _

theorem State.reg_tcxoJudge_ne (s : State) (o : Nat) (h : o ≠ CLK_STAT.off) : s.tcxoJudge.reg o = s.reg o := by
  unfold State.tcxoJudge
  dsimp only
  generalize (s.tcxoWanted && s.pwr.st != .inReset) = e
  cases e
  · exact State.reg_setFld_ne _ _ _ _ h
  · cases s.pins.tcxoEn <;> rfl

/-! The record of a wake (R327). -/

theorem State.wakeRecord_unseen {β : Type} {g : State → β} (hg : ∀ t r, g { t with regs := r } = g t) (s : State)
    (code tick : Nat) : g (s.wakeRecord code tick) = g s := by
  have hset : ∀ (t : State) f v, g (t.setFld f v) = g t := fun t f v => hg t _
  unfold State.wakeRecord State.incMod
  simp only [hset]
  split <;> simp only [hset]

theorem State.reg_wakeRecord_ne (s : State) (code tick o : Nat) (h : PWR_WAKE_TIME_HI.off < o) :
    (s.wakeRecord code tick).reg o = s.reg o := by
  have hne : ∀ (t : State) f v, f.off ≤ PWR_WAKE_TIME_HI.off → (t.setFld f v).reg o = t.reg o := fun t f v hf =>
    State.reg_setFld_ne _ _ _ _ (by omega)
  unfold State.wakeRecord State.incMod
  dsimp only
  simp (disch := decide) only [hne]
  split
  · exact hne _ _ _ (by decide)
  · rfl

theorem State.wakeRecord_fields (s : State) {code : Nat} (hc : code < 6) (tick : Nat) :
    let t := s.wakeRecord code tick
    t.fld PWR_WAKE_LAST.FIRST = code ∧ t.fld PWR_WAKE_LAST.SOURCES = 2 ^ (code - 1) ∧
      t.fld PWR_WAKE_LAST.FROM = (if s.pwr.st = .deep then 3 else 2) ∧ t.on PWR_WAKE_LAST.VALID = true ∧
      t.on PWR_WAKE_LAST.OVR = (s.on PWR_WAKE_LAST.VALID || s.on PWR_WAKE_LAST.OVR) ∧
      t.fld PWR_WAKE_LAST.WAKE_CNT = (s.fld PWR_WAKE_LAST.WAKE_CNT + 1) % 256 ∧
      t.fld PWR_WAKE_TIME_LO.TICKS_LO = tick % 2 ^ 32 ∧ t.fld PWR_WAKE_LAST.LNCH = 0 ∧ t.fld PWR_WAKE_LAST.PORT = 0 := by
  have hone : ∀ (u : State) (f : Fld), f.lo ≤ f.hi ∧ f.hi < 32 → f.hi = f.lo → (u.setFld f 1).on f = true := fun u f h e => by
    unfold State.on
    rw [State.fld_setFld _ _ _ h, show f.hi + 1 - f.lo = 1 by omega]
    rfl
  unfold State.wakeRecord State.incMod
  dsimp only
  simp (disch := decide) only [State.fld_setFld_other, State.on_setFld_other, State.fld_setFld, hone]
  refine ⟨Nat.mod_eq_of_lt (by show code < 2 ^ 3; omega), ?_, ?_, trivial, ?_, ?_, rfl, rfl, rfl⟩
  · interval_cases code <;> rfl
  · by_cases h : s.pwr.st = .deep
    · rw [if_pos h, h]
      rfl
    · rw [if_neg h, if_neg (by simpa using h)]
      rfl
  · cases s.on PWR_WAKE_LAST.VALID
    · rfl
    · exact hone _ _ (by decide) rfl
  · cases s.on PWR_WAKE_LAST.VALID
    · rfl
    · rw [if_pos rfl, State.fld_setFld_other _ _ _ _ (by decide)]
      rfl

/-! The wake sequence's first step (Table 16-5). -/

theorem State.wakeStart_unseen {β : Type} {g : State → β} (hg : ∀ t r st w n a e c m, g { t with
    regs := r, pwr := { t.pwr with st := st, wakeAt := w, noRadio := n, tcxoAt := a }, cmc := c, cmr := m,
    pins := { t.pins with tcxoEn := e } } = g t) (s : State) : g s.wakeStart = g s := by
  have hset : ∀ (t : State) f v, g (t.setFld f v) = g t :=
    State.setFld_unseen fun t r => hg t r t.pwr.st t.pwr.wakeAt t.pwr.noRadio t.pwr.tcxoAt t.pins.tcxoEn t.cmc t.cmr
  unfold State.wakeStart
  rw [State.tcxoJudge_unseen fun t r a e => hg t r t.pwr.st t.pwr.wakeAt t.pwr.noRadio a e t.cmc t.cmr, hset, hset]
  exact hg s s.regs _ _ _ s.pwr.tcxoAt s.pins.tcxoEn _ _

theorem State.reg_wakeStart_ne (s : State) (o : Nat) (h : o ≠ CLK_STAT.off) (h0 : o ≠ (CLK_CMn_STAT.ATTEMPT 0).off)
    (h1 : o ≠ (CLK_CMn_STAT.ATTEMPT 1).off) : s.wakeStart.reg o = s.reg o := by
  unfold State.wakeStart
  rw [State.reg_tcxoJudge_ne _ _ h, State.reg_setFld_ne _ _ _ _ h1, State.reg_setFld_ne _ _ _ _ h0]
  rfl

theorem State.tcxoJudge_st (s : State) : s.tcxoJudge.pwr.st = s.pwr.st :=
  State.tcxoJudge_unseen (g := fun t => t.pwr.st) (fun _ _ _ _ => rfl) s

theorem State.tcxoJudge_wakeAt (s : State) : s.tcxoJudge.pwr.wakeAt = s.pwr.wakeAt :=
  State.tcxoJudge_unseen (g := fun t => t.pwr.wakeAt) (fun _ _ _ _ => rfl) s

theorem State.wakeStart_pwr (s : State) : s.wakeStart.pwr.st = .waking ∧ s.wakeStart.pwr.wakeAt = s.stamp := by
  simp only [State.wakeStart, State.tcxoJudge_st, State.tcxoJudge_wakeAt, State.setFld_pwr, and_self]

/-! The wake of a sleeping device. -/

/-- What a wake event of source `code` at tick `tick` leaves of a sleeping device (R326, R327). -/
structure State.Wakes (s : State) (code tick : Nat) (t : State) : Prop where
  st : t.pwr.st = .waking
  wakeAt : t.pwr.wakeAt = s.stamp
  first : t.fld PWR_WAKE_LAST.FIRST = code
  sources : t.fld PWR_WAKE_LAST.SOURCES = 2 ^ (code - 1)
  from_ : t.fld PWR_WAKE_LAST.FROM = (if s.pwr.st = .deep then 3 else 2)
  valid : t.on PWR_WAKE_LAST.VALID = true
  ovr : t.on PWR_WAKE_LAST.OVR = (s.on PWR_WAKE_LAST.VALID || s.on PWR_WAKE_LAST.OVR)
  count : t.fld PWR_WAKE_LAST.WAKE_CNT = (s.fld PWR_WAKE_LAST.WAKE_CNT + 1) % 256
  ticks : t.fld PWR_WAKE_TIME_LO.TICKS_LO = tick % 2 ^ 32
  lnch : t.fld PWR_WAKE_LAST.LNCH = 0
  port : t.fld PWR_WAKE_LAST.PORT = 0
  reg : ∀ o, 0x3000 ≤ o → t.reg o = s.reg o
  unseen : ∀ {β : Type} {g : State → β}, (∀ t r st w n a e c m, g { t with
    regs := r, pwr := { t.pwr with st := st, wakeAt := w, noRadio := n, tcxoAt := a }, cmc := c, cmr := m,
    pins := { t.pins with tcxoEn := e } } = g t) → g t = g s

theorem State.wakeEvent_asleep (s : State) {code : Nat} (hc : code < 6) (tick : Nat) (hs : s.pwr.st = .sleep ∨ s.pwr.st = .deep) :
    (s.wakeEvent code tick).2 = true ∧ s.Wakes code tick (s.wakeEvent code tick).1 := by
  have hev : s.wakeEvent code tick = ((s.wakeRecord code tick).wakeStart, true) := by
    unfold State.wakeEvent
    rcases hs with h | h <;> simp [h]
  have hreg : ∀ f : Fld, f.off = PWR_WAKE_LAST.off ∨ f.off = PWR_WAKE_TIME_LO.off →
      (s.wakeRecord code tick).wakeStart.fld f = (s.wakeRecord code tick).fld f := fun f hf => by
    unfold State.fld
    rw [State.reg_wakeStart_ne] <;> rcases hf with h | h <;> rw [h] <;> decide
  have hon : ∀ f : Fld, f.off = PWR_WAKE_LAST.off → (s.wakeRecord code tick).wakeStart.on f = (s.wakeRecord code tick).on f :=
    fun f hf => by
      unfold State.on
      rw [hreg f (.inl hf)]
  obtain ⟨hfirst, hsrc, hfrom, hvalid, hovr, hcnt, hticks, hlnch, hport⟩ := s.wakeRecord_fields hc tick
  obtain ⟨hst, hat⟩ := (s.wakeRecord code tick).wakeStart_pwr
  rw [hev]
  refine ⟨rfl, ⟨hst, hat.trans (State.wakeRecord_unseen (g := State.stamp) (fun _ _ => rfl) s code tick), ?_, ?_, ?_, ?_, ?_, ?_,
    ?_, ?_, ?_, fun o ho => ?_, fun hg => ?_⟩⟩
  · rw [hreg _ (.inl rfl), hfirst]
  · rw [hreg _ (.inl rfl), hsrc]
  · rw [hreg _ (.inl rfl), hfrom]
  · rw [hon _ rfl, hvalid]
  · rw [hon _ rfl, hovr]
  · rw [hreg _ (.inl rfl), hcnt]
  · rw [hreg _ (.inr rfl), hticks]
  · rw [hreg _ (.inl rfl), hlnch]
  · rw [hreg _ (.inl rfl), hport]
  · have above : ∀ c, c < 0x3000 → o ≠ c := fun c hlt => by omega
    rw [State.reg_wakeStart_ne _ _ (above _ (by decide)) (above _ (by decide)) (above _ (by decide)),
      State.reg_wakeRecord_ne _ _ _ _ (lt_of_lt_of_le (by decide) ho)]
  · exact (State.wakeStart_unseen hg _).trans
      (State.wakeRecord_unseen (fun t r => hg t r t.pwr.st t.pwr.wakeAt t.pwr.noRadio t.pwr.tcxoAt t.pins.tcxoEn t.cmc t.cmr) s code tick)

/-! The wake events of O57. -/

/-- WAKE_PIN from Sleep or Deep sleep (R326). -/
theorem execWakePin_wakes (s : State) (he : s.on PWR_WAKE_EN.PIN = true) (hs : s.pwr.st = .sleep ∨ s.pwr.st = .deep) :
    ∃ t, exec .wakePin s = .next t ∧ s.Wakes 1 s.tick t := by
  refine ⟨_, ?_, (s.wakeEvent_asleep (by decide) s.tick hs).2⟩
  show execWakePin s = _
  simp [execWakePin, he]

/-- Outside the sleeping states and the wake's own tick a wake event is nothing (R327). -/
theorem State.wakeEvent_run {s : State} (h : s.pwr.st = .run) (code tick : Nat) : s.wakeEvent code tick = (s, false) := by
  simp [State.wakeEvent, State.joinsWake, h]

/-- A further source in the tick of the wake (R327). -/
theorem State.wakeEvent_joins {s : State} {tick : Nat} (h : s.joinsWake tick = true) (code : Nat) :
    s.wakeEvent code tick = (s.wakeAlso code, true) := by
  have hst : s.pwr.st = .waking := by
    unfold State.joinsWake at h
    simp only [Bool.and_eq_true, beq_iff_eq] at h
    exact h.1.1
  unfold State.wakeEvent
  rw [h, hst]
  rfl

theorem State.wakeAlso_fields (s : State) :
    (s.wakeAlso 1).fld PWR_WAKE_LAST.SOURCES = s.fld PWR_WAKE_LAST.SOURCES ||| 1 ∧
    (s.wakeAlso 1).fld PWR_WAKE_LAST.FIRST = min 1 (s.fld PWR_WAKE_LAST.FIRST) ∧
    s.onlyReg (s.wakeAlso 1) PWR_WAKE_LAST.SOURCES.off := by
  have hlt : s.fld PWR_WAKE_LAST.SOURCES < 2 ^ 5 := s.fld_lt _
  have hor : s.fld PWR_WAKE_LAST.SOURCES ||| 1 < 2 ^ 5 := Nat.or_lt_two_pow hlt (by decide)
  simp only [State.wakeAlso, Nat.sub_self, pow_zero]
  refine ⟨?_, ?_, ((State.onlyReg_refl s _).setFld (f := PWR_WAKE_LAST.SOURCES) rfl _).setFld (f := PWR_WAKE_LAST.FIRST) rfl _⟩
  · rw [State.fld_setFld_other _ _ _ _ (by decide), State.fld_setFld _ _ _ (by decide)]
    exact Nat.mod_eq_of_lt hor
  · rw [State.fld_setFld _ _ _ (by decide), State.fld_setFld_other _ _ _ _ (by decide)]
    exact Nat.mod_eq_of_lt (lt_of_le_of_lt (Nat.min_le_left _ _) (by decide))

/-- SELECT_FALL_WAKE from Sleep (R238, R326). -/
theorem execSelectFallWake_wakes (p : Fin 4) (s : State) (he : (s.fld PWR_WAKE_EN.HOST).testBit p.val = true)
    (hc : s.on (HPn_CASC_CFG.EN p.val) = false) (hs : s.pwr.st = .sleep) :
    ∃ t u, exec (.selectFallWake p) s = .next t ∧ s.Wakes 4 (s.tick + 1) u ∧
      t = (u.setFld PWR_WAKE_LAST.PORT p.val).setPort p.val { u.port p.val with woke := true } := by
  obtain ⟨hyes, hw⟩ := s.wakeEvent_asleep (code := 4) (by decide) (s.tick + 1) (.inl hs)
  refine ⟨_, _, ?_, hw, rfl⟩
  show execSelectFallWake p s = _
  simp only [execSelectFallWake]
  rw [if_pos ⟨he, by simp [hc], by simp [hs]⟩, if_pos hyes]
  simp [hs]
  rfl

/-! Tables filtered by key. -/

theorem Tab.get_filter {α : Type} (d : Nat → α) (q : Nat → Bool) (l : Tab α) (k : Nat) :
    Tab.get d (l.filter fun e => q e.1) k = if q k then Tab.get d l k else d k := by
  induction l with
  | nil => simp
  | cons e l ih =>
    obtain ⟨j, v⟩ := e
    rw [List.filter_cons]
    show Tab.get d (if q j = true then (j, v) :: l.filter fun e => q e.1 else l.filter fun e => q e.1) k =
      if q k then (if k = j then v else Tab.get d l k) else d k
    by_cases hk : k = j
    · subst hk
      cases hq : q k
      · simp only [Bool.false_eq_true, if_false]
        rw [ih, hq]
        rfl
      · simp only [if_true]
        exact if_pos rfl
    · rw [if_neg hk, ← ih]
      cases q j
      · rfl
      · exact if_neg hk

/-- A table that a function gives at the numbers of a list. -/
theorem Tab.get_map {α : Type} (d f : Nat → α) (l : List Nat) (k : Nat) :
    Tab.get d (l.map fun i => (i, f i)) k = if k ∈ l then f k else d k := by
  induction l with
  | nil => rfl
  | cons i l ih =>
    show (if k = i then f i else Tab.get d (l.map fun i => (i, f i)) k) = _
    rw [ih]
    by_cases h : k = i
    · simp [h]
    · simp [h]

/-! Registers and slots after Deep sleep (Table 16-2). -/

theorem State.regsReset_unseen {β : Type} {g : State → β} (hg : ∀ t r, g { t with regs := r } = g t) (s : State)
    (keep : Nat → Bool) : g (s.regsReset keep) = g s := by
  unfold State.regsReset
  refine (State.foldl_unseen (fun t f => ?_) _ _).trans (hg s _)
  split
  · rfl
  · exact State.setFld_unseen hg _ _ _

/-- A register that is kept keeps its value. -/
theorem State.reg_regsReset {s : State} {keep : Nat → Bool} {o : Nat} (h : keep o = true) :
    (s.regsReset keep).reg o = s.reg o := by
  have hfilter : ({ s with regs := s.regs.filter fun e => keep e.1 } : State).reg o = s.reg o :=
    (Tab.get_filter regReset keep s.regs o).trans (if_pos h)
  unfold State.regsReset
  rw [← hfilter]
  generalize ({ s with regs := s.regs.filter fun e => keep e.1 } : State) = r
  generalize softFields = l
  induction l generalizing r with
  | nil => rfl
  | cons f l ih =>
    rw [List.foldl_cons, ih]
    split
    · rfl
    · next hf =>
      refine State.reg_setFld_ne _ _ _ _ fun e => hf ?_
      rw [← e, h]

theorem State.fld_regsReset {s : State} {keep : Nat → Bool} {f : Fld} (h : keep f.off = true) :
    (s.regsReset keep).fld f = s.fld f := by
  unfold State.fld
  rw [State.reg_regsReset h]

theorem State.slotsReset_unseen {β : Type} {g : State → β} (hg : ∀ t l o, g { t with slots := l, order := o } = g t) (s : State) :
    g s.slotsReset = g s := hg s _ _

/-- What a slot is freed to. -/
def State.freedSlot (s : State) (i : Nat) : Slot :=
  let x := s.slot (i / 256) (i % 256)
  { Slot.fresh with gen := if x.gen = 63 then 1 else x.gen + 1, freed := if x.st == .free then x.freed else s.order + 1 }

theorem State.slotsReset_slots (s : State) : s.slotsReset.slots = (List.range 1024).map fun i => (i, s.freedSlot i) := by
  simp only [State.slotsReset, State.freedSlot]

theorem State.slot_slotsReset (s : State) {p i : Nat} (hp : p < 4) (hi : i < 256) :
    (s.slotsReset.slot p i).st = .free ∧
      (s.slotsReset.slot p i).gen = if (s.slot p i).gen = 63 then 1 else (s.slot p i).gen + 1 := by
  unfold State.slot
  rw [State.slotsReset_slots, Tab.get_map, if_pos (List.mem_range.mpr (by omega))]
  simp only [State.freedSlot, show (256 * p + i) / 256 = p by omega, show (256 * p + i) % 256 = i by omega]
  exact ⟨rfl, rfl⟩

theorem State.lineJudge_unseen {β : Type} {g : State → β} (hg : ∀ t r l, g { t with regs := r, line := l } = g t) (s : State) :
    g s.lineJudge = g s := by
  unfold State.lineJudge
  split
  · exact hg s _ s.line
  · split
    · exact hg s _ _
    · rfl

theorem State.reg_lineJudge_ne (s : State) (o : Nat) (h : o ≠ CVN_LINE_STAT.off) : s.lineJudge.reg o = s.reg o := by
  have hne : ∀ v, (s.setFld CVN_LINE_STAT.STATE v).reg o = s.reg o := fun v => State.reg_setFld_ne _ _ _ _ h
  unfold State.lineJudge
  split
  · exact hne 0
  · split
    · exact hne 1
    · rfl

/-! The event rings emptied (R260, R330). -/

theorem State.ringReset_unseen {β : Type} {g : State → β} (hg : ∀ t r p, g { t with regs := r, ports := p } = g t) (s : State)
    (p : Nat) : g (s.ringReset p) = g s := hg s _ _

theorem State.ringsReset_unseen {β : Type} {g : State → β} (hg : ∀ t r p, g { t with regs := r, ports := p } = g t) (s : State) :
    g s.ringsReset = g s := State.foldl_unseen (fun t p => State.ringReset_unseen hg t p) _ _

/-- A ring is empty. -/
def State.ringEmpty (s : State) (p : Nat) : Prop :=
  s.fld (HPn_RING_HEAD.HEAD p) = 0 ∧ s.fld (HPn_RING_TAIL.TAIL p) = 0 ∧ (s.port p).lost = 0

theorem State.ringReset_self (s : State) (p : Nat) : (s.ringReset p).ringEmpty p := by
  have hlow : ∀ (t : State) f v, f.hi = 15 ∧ f.lo = 0 → (t.setFld f v).fld f = v % 2 ^ 16 := fun t f v h => by
    rw [State.fld_setFld _ _ _ (by omega), h.1, h.2]
  have hne : (HPn_RING_HEAD.HEAD p).off ≠ (HPn_RING_TAIL.TAIL p).off := by
    show 0x301C + 1024 * p ≠ 0x3020 + 1024 * p
    omega
  simp only [State.ringReset, State.ringEmpty, State.port_setPort_self, and_true]
  rw [State.fld_of_regs (State.setPort_regs _ _ _), State.fld_of_regs (State.setPort_regs _ _ _),
    State.fld_setFld_ne _ _ _ _ hne, hlow _ _ _ ⟨rfl, rfl⟩, hlow _ _ _ ⟨rfl, rfl⟩]
  exact ⟨rfl, rfl⟩

theorem State.ringReset_other {s : State} {p q : Nat} (h : q ≠ p) (he : s.ringEmpty q) : (s.ringReset p).ringEmpty q := by
  obtain ⟨hhead, htail, hlost⟩ := he
  have apart : ∀ f : Fld, f.off = HPn_RING_HEAD.off q ∨ f.off = HPn_RING_TAIL.off q → (s.ringReset p).fld f = s.fld f :=
    fun f hf => by
      have hoff : f.off ≠ HPn_RING_HEAD.off p ∧ f.off ≠ HPn_RING_TAIL.off p := by
        unfold HPn_RING_HEAD.off HPn_RING_TAIL.off at *
        omega
      simp only [State.ringReset]
      rw [State.fld_of_regs (State.setPort_regs _ _ _), State.fld_setFld_ne _ _ _ _ hoff.2, State.fld_setFld_ne _ _ _ _ hoff.1]
  refine ⟨(apart _ (.inl rfl)).trans hhead, (apart _ (.inr rfl)).trans htail, ?_⟩
  simp only [State.ringReset]
  rw [State.port_setPort_ne _ _ _ _ h]
  exact hlost

theorem State.ringsReset_empty (s : State) {p : Nat} (hp : p < 4) : s.ringsReset.ringEmpty p := by
  simp only [State.ringsReset, List.foldl_cons, List.foldl_nil]
  have h0 := State.ringReset_self s 0
  generalize s.ringReset 0 = a at *
  have h1 := State.ringReset_self a 1
  have h01 := State.ringReset_other (p := 1) (by decide) h0
  generalize a.ringReset 1 = b at *
  have h2 := State.ringReset_self b 2
  have h02 := State.ringReset_other (p := 2) (by decide) h01
  have h12 := State.ringReset_other (p := 2) (by decide) h1
  generalize b.ringReset 2 = c at *
  have h3 := State.ringReset_self c 3
  interval_cases p
  · exact State.ringReset_other (by decide) h02
  · exact State.ringReset_other (by decide) h12
  · exact State.ringReset_other (by decide) h2
  · exact h3

/-! Step 4 of the wake sequence (Table 16-5). -/

theorem State.inSync_asleep {s : State} (h : s.pwr.st = .waking) (n : Nat) : s.inSync n = s := by
  unfold State.inSync
  rw [if_neg (by simp [h])]

/-- Outside Run and Idle the pin words drive the balls, and IN stays (R374). -/
theorem State.applyPins_unseen {β : Type} {g : State → β} (hg : ∀ t d l, g { t with
    pins := { t.pins with gpDrv := d, gpOut := l } } = g t) {s : State} (h : s.pwr.st = .waking) (a n : Nat) :
    g (s.applyPins a n) = g s := by
  have happly : ∀ (t : State) i, t.pwr.st = .waking → (t.applyPin i).pwr.st = .waking ∧ g (t.applyPin i) = g t := fun t i ht => by
    rcases t.applyPin_cases i with e | ⟨d, l, e⟩
    · rw [e]
      exact ⟨ht, rfl⟩
    · rw [e, State.inSync_asleep (s := t.drivePin i d l) ht]
      exact ⟨ht, hg t _ _⟩
  unfold State.applyPins
  generalize List.range 16 = l
  induction l generalizing s with
  | nil => rfl
  | cons i l ih =>
    rw [List.foldl_cons]
    split
    · rw [ih (happly s i h).1, (happly s i h).2]
    · exact ih h

theorem State.pinsWake_unseen {β : Type} {g : State → β} (hg : ∀ t d l b, g { t with
    pins := { t.pins with gpDrv := d, gpOut := l, lnaByp := b } } = g t) {s : State} (h : s.pwr.st = .waking) :
    g s.pinsWake = g s := by
  unfold State.pinsWake
  refine (State.applyPins_unseen (fun t d l => hg t d l t.pins.lnaByp) (by exact h) _ _).trans ?_
  exact hg s s.pins.gpDrv s.pins.gpOut _

theorem State.macWake_unseen {β : Type} {g : State → β} (hg : ∀ t m, g { t with mac := m } = g t) {s : State}
    (h : s.upSync = false) : g s.macWake = g s := by
  unfold State.macWake
  dsimp only
  cases hz : s.mac.sf0 with
  | none =>
    dsimp only
    rw [h]
    rfl
  | some z =>
    have hup : ∀ m, ({ s with mac := m } : State).upSync = false := fun m => h
    dsimp only
    rw [hup]
    exact hg s _

/-- The end of a wake, the message layer off and no upstream beacons followed (R183, R217, R329). -/
theorem State.wakeJudge_unseen {β : Type} {g : State → β} (hg : ∀ t st m, g { t with
    pwr := { t.pwr with st := st }, mac := m } = g t) {s : State} (hup : s.upSync = false) (hmsg : s.msgOn = false) :
    g s.wakeJudge = g s := by
  unfold State.wakeJudge
  split
  · obtain ⟨u, hu⟩ : ∃ u : State, u = { s with pwr := { s.pwr with st := .run } } := ⟨_, rfl⟩
    have huu : u.upSync = false := by rw [hu]; exact hup
    have hum : u.macWake.msgOn = false := (State.macWake_unseen (g := State.msgOn) (fun _ _ => rfl) huu).trans (by rw [hu]; exact hmsg)
    have hgu : g u = g s := by rw [hu]; exact hg s .run s.mac
    dsimp only
    rw [← hu, hum]
    exact (State.macWake_unseen (fun t m => hg t t.pwr.st m) huu).trans hgu
  · rfl

theorem State.reg_ringsReset (s : State) (o : Nat) (h : o < 0x3000 ∨ 0x4000 ≤ o) : s.ringsReset.reg o = s.reg o := by
  have hone : ∀ (t : State) p, p < 4 → (t.ringReset p).reg o = t.reg o := fun t p hp => by
    have hoff : o ≠ (HPn_RING_HEAD.HEAD p).off ∧ o ≠ (HPn_RING_TAIL.TAIL p).off := by
      show o ≠ 0x301C + 1024 * p ∧ o ≠ 0x3020 + 1024 * p
      omega
    simp only [State.ringReset]
    rw [State.reg_of_regs (State.setPort_regs _ _ _), State.reg_setFld_ne _ _ _ _ hoff.2, State.reg_setFld_ne _ _ _ _ hoff.1]
  simp only [State.ringsReset, List.foldl_cons, List.foldl_nil]
  rw [hone _ 3 (by decide), hone _ 2 (by decide), hone _ 1 (by decide), hone _ 0 (by decide)]

/-- The lost banks' bits of PWR_STATE.CLR (R330). -/
theorem State.clr_setClr (s u : State) (deep : Bool) : (u.setClr (s.lostBanks deep)).fld PWR_STATE.CLR =
    56 + b2n (deep || !s.on PWR_RET_CFG.PGM_RET) + 4 * b2n (deep || !s.on PWR_RET_CFG.PTB_RET) := by
  unfold State.setClr State.lostBanks
  rw [State.fld_setFld _ _ _ (by decide)]
  generalize (deep || !s.on PWR_RET_CFG.PGM_RET) = p
  generalize (deep || !s.on PWR_RET_CFG.PTB_RET) = q
  cases p <;> cases q <;> decide

/-- The core domain powered again, before its banks and rings are dealt with: after Deep sleep registers and slots follow
Table 16-2. -/
def State.coreWoken (s : State) : State :=
  let u : State := { s with pwr := { s.pwr with core := true, boot := [] } }
  if s.fld PWR_WAKE_LAST.FROM = 3 then (u.regsReset deepKeep).slotsReset.lineJudge else u

theorem State.coreReady_eq {s : State} (h : s.pwr.boot = []) : s.coreReady =
    ((s.coreWoken.setClr (s.coreWoken.lostBanks (s.fld PWR_WAKE_LAST.FROM = 3 : Bool))).ringsReset.pinsWake).wakeJudge := by
  simp only [State.coreReady, State.coreWoken, h, List.foldl_nil, decide_eq_true_eq]

theorem State.coreWoken_unseen {β : Type} {g : State → β} (hg : ∀ t r l o n c b, g { t with
    regs := r, slots := l, order := o, line := n, pwr := { t.pwr with core := c, boot := b } } = g t) (s : State) :
    g s.coreWoken = g s := by
  obtain ⟨u, hu⟩ : ∃ u : State, u = { s with pwr := { s.pwr with core := true, boot := [] } } := ⟨_, rfl⟩
  have hgu : g u = g s := by rw [hu]; exact hg s s.regs s.slots s.order s.line _ _
  simp only [State.coreWoken, ← hu]
  split
  · rw [State.lineJudge_unseen (fun t r n => hg t r t.slots t.order n t.pwr.core t.pwr.boot),
      State.slotsReset_unseen (fun t l o => hg t t.regs l o t.line t.pwr.core t.pwr.boot),
      State.regsReset_unseen (fun t r => hg t r t.slots t.order t.line t.pwr.core t.pwr.boot), hgu]
  · exact hgu

theorem State.coreWoken_core (s : State) : s.coreWoken.pwr.core = true := by
  simp only [State.coreWoken]
  split
  · rw [State.lineJudge_unseen (g := fun t => t.pwr.core) fun _ _ _ => rfl,
      State.slotsReset_unseen (g := fun t => t.pwr.core) fun _ _ _ => rfl,
      State.regsReset_unseen (g := fun t => t.pwr.core) fun _ _ => rfl]
  · rfl

theorem State.reg_coreWoken (s : State) (o : Nat) (h : deepKeep o = true) (hl : o ≠ CVN_LINE_STAT.off) :
    s.coreWoken.reg o = s.reg o := by
  obtain ⟨u, hu⟩ : ∃ u : State, u = { s with pwr := { s.pwr with core := true, boot := [] } } := ⟨_, rfl⟩
  have hreg : u.reg o = s.reg o := by rw [hu]; rfl
  simp only [State.coreWoken, ← hu]
  split
  · rw [State.reg_lineJudge_ne _ _ hl, State.slotsReset_unseen (g := fun t => t.reg o) (fun _ _ _ => rfl),
      State.reg_regsReset h, hreg]
  · exact hreg

theorem State.on_coreWoken (s : State) (f : Fld) (h : deepKeep f.off = true) (hl : f.off ≠ CVN_LINE_STAT.off) :
    s.coreWoken.on f = s.on f := by
  unfold State.on State.fld
  rw [s.reg_coreWoken _ h hl]

theorem State.slots_coreWoken (s : State) : (s.fld PWR_WAKE_LAST.FROM ≠ 3 → s.coreWoken.slots = s.slots) ∧
    (s.fld PWR_WAKE_LAST.FROM = 3 → ∀ p i, p < 4 → i < 256 → (s.coreWoken.slot p i).st = .free ∧
      (s.coreWoken.slot p i).gen = if (s.slot p i).gen = 63 then 1 else (s.slot p i).gen + 1) := by
  obtain ⟨u, hu⟩ : ∃ u : State, u = { s with pwr := { s.pwr with core := true, boot := [] } } := ⟨_, rfl⟩
  have hslots : u.slots = s.slots := by rw [hu]
  simp only [State.coreWoken, ← hu]
  refine ⟨fun h => by rw [if_neg h, hslots], fun h p i hp hi => ?_⟩
  rw [if_pos h]
  have hsame : ∀ p i, (u.regsReset deepKeep).slot p i = s.slot p i := fun p i => by
    rw [State.regsReset_unseen (g := fun t => t.slot p i) fun _ _ => rfl]
    unfold State.slot
    rw [hslots]
  rw [State.lineJudge_unseen (g := fun t => t.slot p i) fun _ _ _ => rfl, ← hsame p i]
  exact State.slot_slotsReset _ hp hi

/-- What the start of the core domain leaves (R329, R330). -/
theorem State.coreReady_ran {s : State} (hst : s.pwr.st = .waking) (hb : s.pwr.boot = []) (hup : s.upSync = false)
    (hmsg : s.msgOn = false) :
    let t := s.coreReady
    let clr (pgm ptb : Bool) : Prop := t.fld PWR_STATE.CLR = 56 + b2n pgm + 4 * b2n ptb
    t.pwr.core = true ∧ (∀ p, p < 4 → t.ringEmpty p) ∧ t.mem = s.mem ∧ t.ctx = s.ctx ∧
      (s.fld PWR_WAKE_LAST.FROM = 2 → t.slots = s.slots ∧ clr (!s.on PWR_RET_CFG.PGM_RET) (!s.on PWR_RET_CFG.PTB_RET)) ∧
      (s.fld PWR_WAKE_LAST.FROM = 3 → clr true true ∧ ∀ p i, p < 4 → i < 256 → (t.slot p i).st = .free ∧
        (t.slot p i).gen = if (s.slot p i).gen = 63 then 1 else (s.slot p i).gen + 1) := by
  intro t clr
  obtain ⟨v, hv⟩ : ∃ v, v = s.coreWoken.setClr (s.coreWoken.lostBanks (s.fld PWR_WAKE_LAST.FROM = 3 : Bool)) := ⟨_, rfl⟩
  have ht : t = v.ringsReset.pinsWake.wakeJudge := by rw [hv]; exact State.coreReady_eq hb
  have hvw : ∀ {β : Type} {g : State → β}, (∀ t r, g { t with regs := r } = g t) → g v = g s.coreWoken := fun hg => by
    rw [hv]
    exact State.setFld_unseen hg _ _ _
  have hstv : v.ringsReset.pwr.st = .waking := by
    rw [State.ringsReset_unseen (g := fun t => t.pwr.st) fun _ _ _ => rfl, hvw (g := fun t => t.pwr.st) fun _ _ => rfl,
      State.coreWoken_unseen (g := fun t => t.pwr.st) fun _ _ _ _ _ _ _ => rfl, hst]
  have hregs : ∀ o, o ≠ PWR_STATE.off → v.reg o = s.coreWoken.reg o := fun o ho => by
    rw [hv]
    exact State.reg_setFld_ne _ _ _ _ ho
  have hupw : v.ringsReset.pinsWake.upSync = false := by
    rw [State.pinsWake_unseen (g := State.upSync) (fun _ _ _ _ => rfl) hstv, ← hup]
    have hon : ∀ f : Fld, 0xA000 ≤ f.off → deepKeep f.off = true → v.ringsReset.on f = s.on f := fun f h hk => by
      have hline : CVN_LINE_STAT.off < 0xA000 := by decide
      have hstate : PWR_STATE.off < 0xA000 := by decide
      unfold State.on State.fld
      rw [State.reg_ringsReset _ _ (.inr (by omega)), hregs _ (by omega), s.reg_coreWoken _ hk (by omega)]
    unfold State.upSync
    rw [hon _ (by decide) (by decide), hon _ (by decide) (by decide)]
  have hmsgw : v.ringsReset.pinsWake.msgOn = false := by
    rw [State.pinsWake_unseen (g := State.msgOn) (fun _ _ _ _ => rfl) hstv, State.ringsReset_unseen (g := State.msgOn) fun _ _ _ => rfl,
      hvw (g := State.msgOn) fun _ _ => rfl, State.coreWoken_unseen (g := State.msgOn) fun _ _ _ _ _ _ _ => rfl, hmsg]
  have htv : ∀ {β : Type} {g : State → β}, (∀ t st m d l b, g { t with
      pwr := { t.pwr with st := st }, mac := m, pins := { t.pins with gpDrv := d, gpOut := l, lnaByp := b } } = g t) → g t = g v.ringsReset := fun hg => by
    rw [ht, State.wakeJudge_unseen (fun t st m => hg t st m t.pins.gpDrv t.pins.gpOut t.pins.lnaByp) hupw hmsgw]
    exact State.pinsWake_unseen (fun t d l b => hg t t.pwr.st t.mac d l b) hstv
  have hts : ∀ {β : Type} {g : State → β}, (∀ t st m d l b, g { t with
      pwr := { t.pwr with st := st }, mac := m, pins := { t.pins with gpDrv := d, gpOut := l, lnaByp := b } } = g t) → (∀ t r p, g { t with regs := r, ports := p } = g t) →
      g t = g s.coreWoken := fun h1 h2 => by
    rw [htv h1, State.ringsReset_unseen h2]
    exact hvw fun t r => h2 t r t.ports
  have hclr : t.fld PWR_STATE.CLR = 56 + b2n ((s.fld PWR_WAKE_LAST.FROM = 3 : Bool) || !s.on PWR_RET_CFG.PGM_RET) +
      4 * b2n ((s.fld PWR_WAKE_LAST.FROM = 3 : Bool) || !s.on PWR_RET_CFG.PTB_RET) := by
    rw [htv (g := fun t => t.fld PWR_STATE.CLR) fun _ _ _ _ _ _ => rfl]
    unfold State.fld
    rw [State.reg_ringsReset _ _ (.inl (by decide)), hv]
    have h := s.coreWoken.clr_setClr s.coreWoken (s.fld PWR_WAKE_LAST.FROM = 3 : Bool)
    rw [s.on_coreWoken _ (by decide) (by decide), s.on_coreWoken _ (by decide) (by decide)] at h
    exact h
  refine ⟨?_, fun p hp => ?_, ?_, ?_, fun hf => ⟨?_, ?_⟩, fun hf => ⟨?_, fun p i hp hi => ?_⟩⟩
  · exact (hts (g := fun t => t.pwr.core) (fun _ _ _ _ _ _ => rfl) fun _ _ _ => rfl).trans s.coreWoken_core
  · have h := htv (g := fun t => t.ringEmpty p) fun _ _ _ _ _ _ => rfl
    exact h ▸ v.ringsReset_empty hp
  · exact (hts (g := State.mem) (fun _ _ _ _ _ _ => rfl) fun _ _ _ => rfl).trans
      (State.coreWoken_unseen (g := State.mem) (fun _ _ _ _ _ _ _ => rfl) s)
  · exact (hts (g := State.ctx) (fun _ _ _ _ _ _ => rfl) fun _ _ _ => rfl).trans
      (State.coreWoken_unseen (g := State.ctx) (fun _ _ _ _ _ _ _ => rfl) s)
  · exact (hts (g := State.slots) (fun _ _ _ _ _ _ => rfl) fun _ _ _ => rfl).trans (s.slots_coreWoken.1 (by omega))
  · show t.fld PWR_STATE.CLR = _
    rw [hclr, hf]
    rfl
  · show t.fld PWR_STATE.CLR = _
    rw [hclr, hf]
    rfl
  · have h := hts (g := fun t => t.slot p i) (fun _ _ _ _ _ _ => rfl) fun _ _ _ => rfl
    rw [h]
    exact s.slots_coreWoken.2 hf p i hp hi

/-- WAKE_CORE_READY after a reset or Off (R367). -/
theorem State.coreStart_ran (s : State) : let t := s.coreStart
    t.pwr.st = .run ∧ t.pwr.core = true ∧ t.fld PWR_STATE.CLR = 63 ∧ t.pwr.primed = s.pwr.primed ∧ t.mem = s.mem := by
  obtain ⟨u, hu⟩ : ∃ u : State, u = { s with pwr := { s.pwr with st := .run, core := true } } := ⟨_, rfl⟩
  have hpwr : u.pwr = { s.pwr with st := .run, core := true } := by rw [hu]
  have hmem : u.mem = s.mem := by rw [hu]
  have hj : u.tcxoJudge.pwr.st = u.pwr.st ∧ u.tcxoJudge.pwr.core = u.pwr.core ∧ u.tcxoJudge.pwr.primed = u.pwr.primed ∧
      u.tcxoJudge.mem = u.mem :=
    State.tcxoJudge_unseen (g := fun t => t.pwr.st = u.pwr.st ∧ t.pwr.core = u.pwr.core ∧ t.pwr.primed = u.pwr.primed ∧
      t.mem = u.mem) (fun _ _ _ _ => rfl) u ▸ ⟨rfl, rfl, rfl, rfl⟩
  obtain ⟨hst, hcore, hprimed, hm⟩ := hj
  simp only [State.coreStart, ← hu, State.setClr]
  refine ⟨?_, ?_, ?_, ?_, ?_⟩
  · simp [hst, hpwr]
  · simp [hcore, hpwr]
  · have h := State.fld_setFld u.tcxoJudge PWR_STATE.CLR (Bank.all.foldl (fun a b => a + 2 ^ b.code) 0) (by decide)
    exact h
  · simp [hprimed, hpwr]
  · simp [hm, hmem]

end Sys2Proof.Machine

/-! Power states: refusals, the quiet point, and what a sleeping state keeps (R320–R330). -/

namespace Sys2Proof.Machine

/-! A flag raised (R262). -/

theorem State.raise_unseen {β : Type} {g : State → β} (hg : ∀ t r, g { t with regs := r } = g t) (s : State) (flag cnt : Fld) :
    g (s.raise flag cnt) = g s := by
  unfold State.raise State.incSat
  rw [State.setFld_unseen hg, State.setFld_unseen hg]

theorem State.on_raise {s : State} {flag cnt : Fld} (h : flag.lo = flag.hi ∧ flag.hi < 32) (ha : cnt.apart flag = true) :
    (s.raise flag cnt).on flag = true := by
  unfold State.raise State.incSat
  rw [State.on_setFld_other _ _ _ _ ha, State.on_setFld_one _ _ h]

theorem State.fld_raise {s : State} {flag cnt : Fld} (h : cnt.hi = cnt.lo + 7 ∧ cnt.hi < 32) (ha : flag.apart cnt = true) :
    (s.raise flag cnt).fld cnt = satInc 255 (s.fld cnt) := by
  have hle : satInc 255 (s.fld cnt) < 2 ^ 8 := by
    unfold satInc
    split <;> omega
  unfold State.raise State.incSat
  rw [State.fld_setFld _ _ _ (by omega), State.fld_setFld_other _ _ _ _ ha, show cnt.hi + 1 - cnt.lo = 8 by omega,
    Nat.mod_eq_of_lt hle]

theorem State.fld_raise_other {s : State} {flag cnt g : Fld} (hf : flag.apart g = true) (hc : cnt.apart g = true) :
    (s.raise flag cnt).fld g = s.fld g := by
  unfold State.raise State.incSat
  rw [State.fld_setFld_other _ _ _ _ hc, State.fld_setFld_other _ _ _ _ hf]

theorem State.onlyReg.raise {s t : State} {o : Nat} (h : s.onlyReg t o) {flag cnt : Fld} (hf : flag.off = o) (hc : cnt.off = o) :
    s.onlyReg (t.raise flag cnt) o := (h.setFld hf 1).setFld hc _

/-! Commands that wait and clear. -/

theorem execWakeFromOff_starts (s : State) (h : s.pwr.st = .off) : ∃ t, exec .wakeFromOff s = .next t ∧
    t.pwr.st = .starting ∧ t.time = State.reset.time ∧
      t.fld PWR_WAKE_LAST.FROM = 1 ∧ t.fld PWR_WAKE_LAST.FIRST = 1 ∧ t.fld PWR_WAKE_LAST.SOURCES = 1 ∧
      t.on PWR_WAKE_LAST.VALID = true ∧ t.on PWR_WAKE_LAST.OVR = false ∧ t.fld PWR_WAKE_LAST.WAKE_CNT = 1 ∧ t.mem = [] ∧
      ∀ o, o ≠ PWR_WAKE_LAST.VALID.off → t.reg o = regReset o := by
  obtain ⟨u, hu⟩ : ∃ u, u = s.cold .starting := ⟨_, rfl⟩
  have hreg : ∀ o, u.reg o = regReset o := fun o => by rw [hu]; rfl
  have hovr : u.on PWR_WAKE_LAST.OVR = false := by
    unfold State.on State.fld
    rw [hreg]
    decide
  have honly := (((((u.onlyReg_refl _).setFld (f := PWR_WAKE_LAST.FROM) rfl 1).setFld (f := PWR_WAKE_LAST.FIRST) rfl 1).setFld
    (f := PWR_WAKE_LAST.SOURCES) rfl 1).setFld (f := PWR_WAKE_LAST.VALID) rfl 1).setFld (f := PWR_WAKE_LAST.WAKE_CNT) rfl 1
  refine ⟨((((u.setFld PWR_WAKE_LAST.FROM 1).setFld PWR_WAKE_LAST.FIRST 1).setFld PWR_WAKE_LAST.SOURCES 1).setFld
    PWR_WAKE_LAST.VALID 1).setFld PWR_WAKE_LAST.WAKE_CNT 1, ?_, ?_⟩
  · show execWakeFromOff s = _
    simp only [execWakeFromOff, h, if_true, hu]
  · have hst : u.pwr.st = .starting := by rw [hu]; rfl
    have htime : u.time = State.reset.time := by rw [hu]; rfl
    have hmem : u.mem = [] := by rw [hu]; rfl
    simp (disch := decide) only [State.setFld_pwr, State.setFld_time, State.setFld_mem, State.fld_setFld_other,
      State.on_setFld_other, State.fld_setFld, State.on_setFld_one, hst, htime, hmem, hovr, true_and]
    exact ⟨rfl, rfl, rfl, rfl, fun o ho => (honly.1 o ho).trans (hreg o)⟩

theorem execWakeCoreReady_wakes {s : State} (hc : s.pwr.core = false) (hr : s.reach (s.pwr.wakeAt + usFine 200) = true)
    (hst : s.pwr.st = .waking) : exec .wakeCoreReady s = .next (s.moveTo (s.pwr.wakeAt + usFine 200)).coreReady := by
  show execWakeCoreReady s = _
  simp [execWakeCoreReady, hc, hr, hst]

theorem execWakeCoreReady_starts {s : State} (hc : s.pwr.core = false) (hr : s.reach (s.pwr.wakeAt + usFine 200) = true)
    (hst : s.pwr.st = .starting) : exec .wakeCoreReady s = .next (s.moveTo (s.pwr.wakeAt + usFine 200)).coreStart := by
  show execWakeCoreReady s = _
  simp [execWakeCoreReady, hc, hr, hst]

/-- CLEARING_END (R330). -/
theorem execClearingEnd_clears (b : Bank) (s : State) (ha : s.awake = true) (hb : (s.fld PWR_STATE.CLR).testBit b.code = true) :
    ∃ t, exec (.clearingEnd b) s = .next t ∧ t.fld PWR_STATE.CLR + 2 ^ b.code = s.fld PWR_STATE.CLR ∧
      (t.fld PWR_STATE.CLR).testBit b.code = false ∧ s.touch.onlyReg t PWR_STATE.REFUSED.off := by
  have hlt : s.fld PWR_STATE.CLR < 2 ^ 6 := s.fld_lt _
  have hfld : ((s.touch).setFld PWR_STATE.CLR (s.fld PWR_STATE.CLR - 2 ^ b.code)).fld PWR_STATE.CLR =
      s.fld PWR_STATE.CLR - 2 ^ b.code := by
    rw [State.fld_setFld _ _ _ (by decide)]
    exact Nat.mod_eq_of_lt (lt_of_le_of_lt (Nat.sub_le _ _) hlt)
  refine ⟨(s.touch).setFld PWR_STATE.CLR (s.fld PWR_STATE.CLR - 2 ^ b.code), ?_, ?_, ?_,
    (State.onlyReg_refl _ _).setFld (f := PWR_STATE.CLR) rfl _⟩
  · show execClearingEnd b s = _
    simp only [execClearingEnd]
    exact if_pos ⟨ha, hb⟩
  · rw [hfld]
    have := Nat.ge_two_pow_of_testBit hb
    omega
  · rw [hfld]
    rw [Nat.testBit_eq_decide_div_mod_eq, decide_eq_true_eq] at hb
    rw [Nat.testBit_eq_decide_div_mod_eq, decide_eq_false_iff_not]
    cases b <;> simp only [Bank.code] at hb ⊢ <;> omega

/-- Both conditions of R329 hold: the device is in Run. -/
theorem State.wakeJudge_runs {s : State} (hst : s.pwr.st = .waking) (hc : s.pwr.core = true) (h5 : s.cmc.st = 5)
    (hr : s.pwr.noRadio = true ∨ s.cmr.st = 5) (hup : s.upSync = false) (hmsg : s.msgOn = false) :
    s.wakeJudge.pwr.st = .run := by
  obtain ⟨u, hu⟩ : ∃ u : State, u = { s with pwr := { s.pwr with st := .run } } := ⟨_, rfl⟩
  have huu : u.upSync = false := by rw [hu]; exact hup
  have hum : u.macWake.msgOn = false := (State.macWake_unseen (g := State.msgOn) (fun _ _ => rfl) huu).trans (by rw [hu]; exact hmsg)
  unfold State.wakeJudge
  rw [if_pos (by rcases hr with h | h <;> simp [hst, hc, h5, h])]
  dsimp only
  rw [← hu, hum]
  exact (State.macWake_unseen (g := fun t => t.pwr.st) (fun _ _ => rfl) huu).trans (by rw [hu])

/-- CK_RADIO_WAIT_EXPIRY (R329). -/
theorem execCkRadioWaitExpiry_ends (s : State) (hst : s.pwr.st = .waking) (hm : s.cmr.st = 1)
    (href : s.on CLK_STAT.REF_OK = false) (hup : s.upSync = false) (hmsg : s.msgOn = false)
    (hr : s.reach (s.pwr.tcxoAt + usFine (s.fld CLK_TCXO_CFG.STARTUP + 100)) = true) :
    ∃ t, exec .ckRadioWaitExpiry s = .next t ∧ t.pwr.noRadio = true ∧
      (s.pwr.core = true → s.cmc.st = 5 → t.pwr.st = .run) ∧ (s.pwr.core = false → t.pwr.st = .waking) ∧
      { t with pwr := s.pwr, mac := s.mac, time := s.time } = s := by
  obtain ⟨n, hn⟩ : ∃ n, n = s.pwr.tcxoAt + usFine (s.fld CLK_TCXO_CFG.STARTUP + 100) := ⟨_, rfl⟩
  obtain ⟨u, hu⟩ : ∃ u : State, u = { s.moveTo n with pwr := { s.pwr with noRadio := true } } := ⟨_, rfl⟩
  have hexec : exec .ckRadioWaitExpiry s = .next u.wakeJudge := by
    show execCkRadioWaitExpiry s = _
    rw [hu, hn]
    simp only [execCkRadioWaitExpiry]
    exact if_pos ⟨hst, hm, by simp [href], hr⟩
  have hpwr : u.pwr = { s.pwr with noRadio := true } := by rw [hu]
  have huup : u.upSync = false := by rw [hu]; exact hup
  have humsg : u.msgOn = false := by rw [hu]; exact hmsg
  have hcmc : u.cmc = s.cmc := by rw [hu]; rfl
  refine ⟨_, hexec, ?_, fun hc h5 => ?_, fun hc => ?_, ?_⟩
  · rw [State.wakeJudge_unseen (g := fun t => t.pwr.noRadio) (fun _ _ _ => rfl) huup humsg, hpwr]
  · exact State.wakeJudge_runs (by rw [hpwr]; exact hst) (by rw [hpwr]; exact hc) (by rw [hcmc]; exact h5)
      (.inl (by rw [hpwr])) huup humsg
  · have hidle : u.wakeJudge = u := by
      unfold State.wakeJudge
      simp [hpwr, hc]
    rw [hidle, hpwr, hst]
  · have h := State.wakeJudge_unseen (g := fun t => ({ t with pwr := s.pwr, mac := s.mac, time := s.time } : State))
      (fun _ _ _ => rfl) huup humsg
    exact h.trans (by rw [hu]; rfl)

/-- IDLE_ENTRY (R320). -/
theorem execIdleEntry_enters {s : State} (hst : s.pwr.st = .run) (hc : s.pwr.core = true) (hi : s.idleNow = true) :
    exec .idleEntry s = .next { s.touch with pwr := { s.touch.pwr with st := .idle } } := by
  show execIdleEntry s = _
  simp only [execIdleEntry]
  exact if_pos ⟨hst, hc, hi⟩

theorem execWakePin_run {s : State} (h : s.pwr.st = .run) : exec .wakePin s = .next s := by
  show execWakePin s = _
  unfold execWakePin
  rw [State.wakeEvent_run h]
  exact ite_self _

/-- GRACE_EXPIRY of a sleep request (R323). -/
theorem execGraceExpiry_refuses {s : State} (hs : s.serves = true) (hq : s.quiet = false)
    (hr : s.reach (s.pwr.reqAt + msFine (s.fld PWR_REQ.GRACE)) = true) (hreq : s.pwr.req = 1 ∨ s.pwr.req = 2) :
    ∃ t, exec .graceExpiry s = .next t ∧ t.pwr = { s.pwr with req := 0 } ∧
      t.on PWR_STATE.REFUSED = true ∧ t.fld PWR_STATE.REFUSED_CNT = satInc 255 (s.fld PWR_STATE.REFUSED_CNT) ∧
      s.onlyReg { t with pwr := s.pwr, time := s.time } PWR_STATE.REFUSED.off := by
  obtain ⟨u, hu⟩ : ∃ u : State, u = { s.moveTo (s.pwr.reqAt + msFine (s.fld PWR_REQ.GRACE)) with
    pwr := { (s.moveTo (s.pwr.reqAt + msFine (s.fld PWR_REQ.GRACE))).pwr with req := 0 } } := ⟨_, rfl⟩
  have hexec : exec .graceExpiry s = .next (u.raise PWR_STATE.REFUSED PWR_STATE.REFUSED_CNT) := by
    show execGraceExpiry s = _
    rw [hu]
    simp only [execGraceExpiry]
    rw [if_pos ⟨hs, by omega, hr, by simp [hq]⟩]
    exact if_neg (by show ¬s.pwr.req = 3; omega)
  have hregs : u.regs = s.regs := by rw [hu]; rfl
  have hcnt : u.fld PWR_STATE.REFUSED_CNT = s.fld PWR_STATE.REFUSED_CNT := State.fld_of_regs hregs _
  obtain ⟨hreg, -⟩ := (u.onlyReg_refl _).raise (flag := PWR_STATE.REFUSED) (cnt := PWR_STATE.REFUSED_CNT) rfl rfl
  refine ⟨_, hexec, ?_, State.on_raise (by decide) (by decide), ?_, fun o ho => ?_, ?_⟩
  · rw [State.raise_pwr, hu]
    rfl
  · rw [State.fld_raise (by decide) (by decide), hcnt]
  · exact (State.reg_of_regs (s := u.raise PWR_STATE.REFUSED PWR_STATE.REFUSED_CNT) (by exact rfl) o).trans
      ((hreg o ho).trans (State.reg_of_regs hregs o))
  · rw [State.raise_unseen (g := fun t => ({ t with pwr := s.pwr, time := s.time, regs := s.regs } : State)) fun _ _ => rfl, hu]
    rfl

theorem execGraceExpiry_off {s : State} (hs : s.serves = true) (hq : s.quiet = false)
    (hr : s.reach (s.pwr.reqAt + msFine (s.fld PWR_REQ.GRACE)) = true) (hreq : s.pwr.req = 3) :
    exec .graceExpiry s = .next ((s.moveTo (s.pwr.reqAt + msFine (s.fld PWR_REQ.GRACE))).cold .off) := by
  show execGraceExpiry s = _
  simp only [execGraceExpiry]
  rw [if_pos ⟨hs, by omega, hr, by simp [hq]⟩]
  exact if_pos hreq

end Sys2Proof.Machine

/-! The radio switched off: what turning the synthesisers, the Palettes and the multipliers off leaves (R68, R73, R302, R324). -/

namespace Sys2Proof.Machine

/-! Writes by the device's own logic. -/

theorem State.reg_devWrite_ne (s : State) (a : Nat) (bs : List Byte) (o : Nat) (h : o ≠ MEM_BANK_CFG.off) :
    (s.devWrite a bs).reg o = s.reg o := by
  unfold State.devWrite
  dsimp only
  rw [State.foldl_unseen (g := fun t => t.reg o) fun t x => State.reg_markFull_ne t _ o h]
  exact State.putBytes_unseen (g := fun t => t.reg o) (fun _ _ => rfl) s a bs

theorem State.byte_putBytes_below (s : State) (a : Nat) (bs : List Byte) (x : Nat) (h : x < a) :
    (s.putBytes a bs).byte x = s.byte x := by
  induction bs generalizing s a with
  | nil => rfl
  | cons b bs ih =>
    show ((s.putByte a b).putBytes (a + 1) bs).byte x = _
    rw [ih _ _ (by omega)]
    unfold State.byte State.putByte
    rw [Tab.get_set_ne _ _ _ _ _ (by omega)]

theorem State.byte_devWrite_below (s : State) (a : Nat) (bs : List Byte) (x : Nat) (h : x < a) :
    (s.devWrite a bs).byte x = s.byte x := by
  unfold State.devWrite
  dsimp only
  rw [State.foldl_unseen (g := fun t => t.byte x) fun t i =>
    State.markFull_unseen (g := fun t => t.byte x) (fun _ _ _ _ => rfl) t _]
  exact s.byte_putBytes_below a bs x h

/-! What the radio's switches do not reach. -/

/-- The state without what switching the radio off may change. -/
def State.bare (s : State) : State :=
  { s with
    regs := [], mem := [], marks := [], scrub := [], sya := .off 0, syb := .off 0, syt := .off 0, palA := .zero, palB := .zero,
    cmc := ⟨0, 0, 0, 0, none, (0, 0)⟩, cmr := ⟨0, 0, 0, 0, none, (0, 0)⟩, well := ⟨[], [], []⟩,
    pwr := { s.pwr with tcxoAt := 0 }, pins := { s.pins with tcxoEn := false } }

/-- `t` is `s` with parts of the radio switched off: registers of the clocks, the radio and the banks' error injection, the Erg,
and the radio's own state may differ. -/
structure State.RadioOff (s t : State) : Prop where
  reg : ∀ o, 0x2000 ≤ o → o < 0x6000 → t.reg o = s.reg o
  syn : ∀ y, s.synOn y = false → t.synOn y = false
  byte : ∀ a, a < 0x400000 → t.byte a = s.byte a
  granted : s.well.granted = [] → t.well.granted = []
  bare : t.bare = s.bare

namespace State.RadioOff

variable {s t u : State}

theorem refl (s : State) : s.RadioOff s := ⟨fun _ _ _ => rfl, fun _ h => h, fun _ _ => rfl, id, rfl⟩

theorem trans (h : s.RadioOff t) (g : t.RadioOff u) : s.RadioOff u :=
  ⟨fun o h1 h2 => (g.reg o h1 h2).trans (h.reg o h1 h2), fun y hy => g.syn y (h.syn y hy),
    fun a ha => (g.byte a ha).trans (h.byte a ha), fun hg => g.granted (h.granted hg), g.bare.trans h.bare⟩

/-- What is not erased is the same. -/
theorem seen (h : s.RadioOff t) {β : Type} {g : State → β} (hg : ∀ t, g t.bare = g t) : g t = g s := by
  rw [← hg t, h.bare, hg]

/-- A step that writes no register and no memory. -/
theorem of_same (hr : t.regs = s.regs) (hm : t.mem = s.mem) (hw : s.well.granted = [] → t.well.granted = [])
    (hb : t.bare = s.bare) : s.RadioOff t :=
  ⟨fun o _ _ => State.reg_of_regs hr o, fun _ hy => (State.on_of_regs hr _).trans hy, fun a _ => State.byte_of_mem hm a, hw, hb⟩

theorem setFld (h : s.RadioOff t) {f : Fld} (hf : f.off < 0x2000 ∨ 0x6000 < f.off) (v : Nat) : s.RadioOff (t.setFld f v) := by
  refine h.trans ⟨fun o h1 h2 => State.reg_setFld_ne _ _ _ _ (by omega), fun y hy => ?_, fun _ _ => rfl, id, rfl⟩
  have hoff : (synOnFld y).off = 0x6000 := by cases y <;> rfl
  rw [State.synOn, State.on_setFld_ne _ _ _ _ (by omega)]
  exact hy

end State.RadioOff

theorem State.RadioOff.withdraw {s t : State} (h : s.RadioOff t) (w : Holder) : s.RadioOff (t.withdraw w) :=
  h.trans (.of_same (State.withdraw_regs t w) (State.withdraw_mem t w)
    (fun hg => by
      show List.filter _ t.well.granted = []
      rw [hg]
      rfl) rfl)

theorem State.RadioOff.setSyn {s t : State} (h : s.RadioOff t) (y : Syn) (x : Synth) : s.RadioOff (t.setSyn y x) :=
  h.trans (.of_same (State.setSyn_regs t y x) (State.setSyn_mem t y x) (fun hg => by rw [State.setSyn_well, hg])
    (by cases y <;> rfl))

theorem State.RadioOff.setPal {s t : State} (h : s.RadioOff t) (c : Chain) (x : Palette) : s.RadioOff (t.setPal c x) :=
  h.trans (.of_same (State.setPal_regs t c x) (State.setPal_mem t c x) (fun hg => by rw [State.setPal_well, hg])
    (by cases c <;> rfl))

theorem State.RadioOff.setMult {s t : State} (h : s.RadioOff t) (m : Mult) (x : MultSt) : s.RadioOff (t.setMult m x) :=
  h.trans (.of_same (by cases m <;> rfl) (by cases m <;> rfl) (fun hg => by cases m <;> exact hg) (by cases m <;> rfl))

theorem State.RadioOff.tcxoJudge {s t : State} (h : s.RadioOff t) : s.RadioOff t.tcxoJudge := by
  have hstat : CLK_STAT.off < 0x2000 := by decide
  refine h.trans ⟨fun o h1 _ => State.reg_tcxoJudge_ne _ _ (by omega), fun y hy => ?_, fun a _ => ?_, fun hg => ?_, ?_⟩
  · have hoff : (synOnFld y).off = 0x6000 := by cases y <;> rfl
    unfold State.synOn State.on State.fld
    rw [State.reg_tcxoJudge_ne _ _ (by omega)]
    exact hy
  · exact State.tcxoJudge_unseen (g := fun t => t.byte a) (fun _ _ _ _ => rfl) t
  · exact (State.tcxoJudge_unseen (g := fun t => t.well.granted) (fun _ _ _ _ => rfl) t).trans hg
  · exact State.tcxoJudge_unseen (g := State.bare) (fun _ _ _ _ => rfl) t

/-! A Palette stopped (R91). -/

/-- The registers that Palettes are judged by. -/
def State.palRegs (s : State) : Nat × Bool × Bool × Bool × Bool :=
  (s.fld RFA_CHAIN_CFG.ARR, s.on CHZ_CTRL.EN_A, s.on CHZ_CTRL.EN_B, s.on RFA_CHAIN_CFG.RXA_ON, s.on RFA_CHAIN_CFG.RXB_ON)

theorem State.palJudged_of_palRegs {s t : State} (h : t.palRegs = s.palRegs) (c : Chain) :
    (t.palEnabled c && t.chainOn c) = (s.palEnabled c && s.chainOn c) := by
  unfold State.palRegs at h
  simp only [Prod.mk.injEq] at h
  obtain ⟨harr, hena, henb, hona, honb⟩ := h
  unfold State.palEnabled State.diversity
  rw [harr]
  cases c
  · show (_ && t.on RFA_CHAIN_CFG.RXA_ON) = (_ && s.on RFA_CHAIN_CFG.RXA_ON)
    rw [hona, hena]
  · show (_ && t.on RFA_CHAIN_CFG.RXB_ON) = (_ && s.on RFA_CHAIN_CFG.RXB_ON)
    rw [honb, hena, henb]

theorem State.palRegs_setFld (s : State) (f : Fld) (v : Nat) (h : [RFA_CHAIN_CFG.ARR, CHZ_CTRL.EN_A, CHZ_CTRL.EN_B,
    RFA_CHAIN_CFG.RXA_ON, RFA_CHAIN_CFG.RXB_ON].all f.apart = true) : (s.setFld f v).palRegs = s.palRegs := by
  simp only [List.all_cons, List.all_nil, Bool.and_true, Bool.and_eq_true] at h
  obtain ⟨h1, h2, h3, h4, h5⟩ := h
  unfold State.palRegs
  rw [State.fld_setFld_other _ _ _ _ h1, State.on_setFld_other _ _ _ _ h2, State.on_setFld_other _ _ _ _ h3,
    State.on_setFld_other _ _ _ _ h4, State.on_setFld_other _ _ _ _ h5]

theorem State.palRegs_of_reg {s t : State} (h : ∀ o, o ≠ MEM_BANK_CFG.off → t.reg o = s.reg o) : t.palRegs = s.palRegs := by
  unfold State.palRegs State.on State.fld
  rw [h _ (by decide), h _ (by decide), h _ (by decide), h _ (by decide), h _ (by decide)]

theorem State.ergAddr_le (s : State) (c : Chain) (i p : Nat) : 0x400000 ≤ s.ergAddr c i p := by
  unfold State.ergAddr
  split <;> omega

theorem State.RadioOff.devWrite {s t : State} (h : s.RadioOff t) {a : Nat} (ha : 0x400000 ≤ a) (bs : List Byte) :
    s.RadioOff (t.devWrite a bs) := by
  have hcfg : 0x6000 < MEM_BANK_CFG.off := by decide
  refine h.trans ⟨fun o h1 h2 => State.reg_devWrite_ne _ _ _ _ (by omega), fun y hy => ?_, fun x hx => ?_, fun hg => ?_, ?_⟩
  · have hoff : (synOnFld y).off = 0x6000 := by cases y <;> rfl
    unfold State.synOn State.on State.fld
    rw [State.reg_devWrite_ne _ _ _ _ (by omega)]
    exact hy
  · exact State.byte_devWrite_below _ _ _ _ (by omega)
  · exact (State.devWrite_unseen (g := fun t => t.well.granted) (fun _ _ _ _ _ => rfl) t _ _).trans hg
  · exact State.devWrite_unseen (g := State.bare) (fun _ _ _ _ _ => rfl) _ _ _

theorem State.ergFlush_off (s : State) (c : Chain) : s.RadioOff (s.ergFlush c) ∧ (s.ergFlush c).palRegs = s.palRegs := by
  unfold State.ergFlush
  dsimp only
  have hpal : s.RadioOff (s.setPal c { s.pal c with part := [], stopPos := s.pos }) ∧
      (s.setPal c { s.pal c with part := [], stopPos := s.pos }).palRegs = s.palRegs :=
    ⟨(State.RadioOff.refl s).setPal _ _, State.palRegs_of_reg fun o _ => State.reg_of_regs (State.setPal_regs _ _ _) o⟩
  generalize s.setPal c { s.pal c with part := [], stopPos := s.pos } = u at *
  refine List.foldlRecOn (motive := fun t => s.RadioOff t ∧ t.palRegs = s.palRegs) _ _ hpal fun t ht e _ => ?_
  exact ⟨ht.1.devWrite (t.ergAddr_le _ _ _) _, (State.palRegs_of_reg fun o ho => State.reg_devWrite_ne _ _ _ _ ho).trans ht.2⟩

theorem State.palStop_off (s : State) (c : Chain) : s.RadioOff (s.palStop c) ∧ (s.palStop c).palRegs = s.palRegs := by
  obtain ⟨hflush, hregs⟩ := s.ergFlush_off c
  unfold State.palStop
  split
  · dsimp only
    generalize s.ergFlush c = u at *
    have hrest : ∀ v : State, s.RadioOff v → v.palRegs = s.palRegs →
        let w := if v.palRuns .a || v.palRuns .b then v else v.withdraw .erg
        s.RadioOff w ∧ w.palRegs = s.palRegs := fun v hv hr => by
      dsimp only
      split
      · exact ⟨hv, hr⟩
      · exact ⟨hv.withdraw _, (State.palRegs_of_reg fun o _ => State.reg_of_regs (State.withdraw_regs _ _) o).trans hr⟩
    have hpal : (u.setPal c { u.pal c with cur := .zero, marker := false }).palRegs = s.palRegs :=
      (State.palRegs_of_reg fun o _ => State.reg_of_regs (State.setPal_regs _ _ _) o).trans hregs
    have hoff := hflush.setPal c { u.pal c with cur := .zero, marker := false }
    cases c
    · exact hrest _ (hoff.setFld (f := CHZ_CTRL.RUN_A) (.inr (by decide)) 0) ((State.palRegs_setFld _ _ _ (by decide)).trans hpal)
    · exact hrest _ (hoff.setFld (f := CHZ_CTRL.RUN_B) (.inr (by decide)) 0) ((State.palRegs_setFld _ _ _ (by decide)).trans hpal)
  · exact ⟨.refl s, rfl⟩

/-- A change after which no more is enabled than before places no claim: Palettes only stop (R73). -/
theorem State.palJudge_off {s old : State} (h : ∀ c, (s.palEnabled c && s.chainOn c) = true →
    (old.palEnabled c && old.chainOn c) = true) (t : Ticket) : s.RadioOff (s.palJudge old t) := by
  unfold State.palJudge
  refine (List.foldlRecOn (motive := fun u => s.RadioOff u ∧ u.palRegs = s.palRegs) _ _ ⟨.refl s, rfl⟩ fun u hu c _ => ?_).1
  have hsame := State.palJudged_of_palRegs hu.2 c
  split
  · next hon =>
    rw [if_pos (h c (hsame.symm.trans hon))]
    exact hu
  · obtain ⟨hoff, hregs⟩ := u.palStop_off c
    exact ⟨(hu.1.trans hoff).withdraw _,
      ((State.palRegs_of_reg fun o _ => State.reg_of_regs (State.withdraw_regs _ _) o).trans hregs).trans hu.2⟩

/-! A synthesiser switched off (R68). -/

theorem State.opEnd_none {s : State} {id : Nat} (h : s.op id = none) (status extra : Nat) : s.opEnd id status extra = s := by
  unfold State.opEnd
  rw [h]

theorem State.tunesEnd_idle {s : State} (h : s.ops = []) (y : Syn) (keep : Option Nat) :
    s.tunesEnd y keep = s.setSyn y { s.syn y with cur := none, queue := [] } := by
  unfold State.tunesEnd
  dsimp only
  refine List.foldlRecOn (motive := fun t => t = s.setSyn y { s.syn y with cur := none, queue := [] }) _ _ rfl fun t ht i _ => ?_
  rw [ht]
  refine State.opEnd_none ?_ _ _
  unfold State.op
  rw [State.setSyn_ops, h]
  rfl

theorem synOnFld_apart {y z : Syn} : y ≠ z → (synOnFld y).apart (synOnFld z) = true := by
  cases y <;> cases z <;> decide

theorem State.RadioOff.synOnFld {s t : State} (h : s.RadioOff t) (y : Syn) : s.RadioOff (t.setFld (synOnFld y) 0) := by
  have hoff : ∀ z, (Sys2Proof.Machine.synOnFld z).off = 0x6000 := fun z => by cases z <;> rfl
  refine h.trans ⟨fun o _ h2 => State.reg_setFld_ne _ _ _ _ (by rw [hoff]; omega), fun z hz => ?_, fun _ _ => rfl, id, rfl⟩
  by_cases hzy : y = z
  · subst hzy
    exact State.on_setFld_zero _ _ (by cases y <;> decide)
  · exact (State.on_setFld_other _ _ _ _ (synOnFld_apart hzy)).trans hz

/-- The fields that a synthesiser's power-off clears. -/
def State.synCleared (s : State) (y : Syn) : State :=
  let s := ((s.setFld (synOnFld y) 0).setFld (synLockFld y) 0).setFld (synVcoFld y) 0
  match y with
  | .sya => s.setFld RFA_CAL_CTRL.RXA_IQ 0
  | .syb => s.setFld RFA_CAL_CTRL.RXB_IQ 0
  | .syt => s

theorem State.synCleared_off {s t : State} (h : s.RadioOff t) (y : Syn) :
    s.RadioOff (t.synCleared y) ∧ (t.synCleared y).synOn y = false := by
  have h1 := h.synOnFld y
  have hon : (t.setFld (synOnFld y) 0).synOn y = false := State.on_setFld_zero _ _ (by cases y <;> decide)
  generalize hu : t.setFld (synOnFld y) 0 = u at *
  have hcal : 0x6000 < RFA_CAL_CTRL.off := by decide
  have h2 : u.RadioOff ((u.setFld (synLockFld y) 0).setFld (synVcoFld y) 0) :=
    ((State.RadioOff.refl u).setFld (.inr (by cases y <;> decide)) 0).setFld (.inr (by cases y <;> decide)) 0
  have h3 : u.RadioOff (t.synCleared y) := by
    unfold State.synCleared
    rw [hu]
    cases y
    · exact h2.setFld (f := RFA_CAL_CTRL.RXA_IQ) (.inr hcal) 0
    · exact h2.setFld (f := RFA_CAL_CTRL.RXB_IQ) (.inr hcal) 0
    · exact h2
  exact ⟨h1.trans h3, h3.syn y hon⟩

theorem State.synCleared_judged (s : State) (y : Syn) (c : Chain)
    (h : ((s.synCleared y).palEnabled c && (s.synCleared y).chainOn c) = true) : (s.palEnabled c && s.chainOn c) = true := by
  have hen : (s.synCleared y).fld RFA_CHAIN_CFG.ARR = s.fld RFA_CHAIN_CFG.ARR ∧
      (s.synCleared y).on CHZ_CTRL.EN_A = s.on CHZ_CTRL.EN_A ∧ (s.synCleared y).on CHZ_CTRL.EN_B = s.on CHZ_CTRL.EN_B := by
    cases y <;> simp (disch := decide) only [State.synCleared, synOnFld, synLockFld, synVcoFld, State.fld_setFld_other,
      State.on_setFld_other, and_self]
  have hchain : (s.synCleared y).chainOn c = true → s.chainOn c = true := by
    intro hc
    have hzero : ∀ z f, synOnFld z = f → (s.synCleared z).on f = false := fun z f hf => by
      rw [← hf]
      exact (State.synCleared_off (State.RadioOff.refl s) z).2
    cases y <;> cases c <;> simp only [State.chainOn] at hc ⊢
    · rw [hzero .sya RFA_CHAIN_CFG.RXA_ON rfl] at hc
      exact absurd hc (by decide)
    · simpa (disch := decide) only [State.synCleared, synOnFld, synLockFld, synVcoFld, State.on_setFld_other] using hc
    · simpa (disch := decide) only [State.synCleared, synOnFld, synLockFld, synVcoFld, State.on_setFld_other] using hc
    · rw [hzero .syb RFA_CHAIN_CFG.RXB_ON rfl] at hc
      exact absurd hc (by decide)
    · simpa (disch := decide) only [State.synCleared, synOnFld, synLockFld, synVcoFld, State.on_setFld_other] using hc
    · simpa (disch := decide) only [State.synCleared, synOnFld, synLockFld, synVcoFld, State.on_setFld_other] using hc
  obtain ⟨harr, hena, henb⟩ := hen
  rw [Bool.and_eq_true] at h ⊢
  refine ⟨?_, hchain h.2⟩
  rw [← h.1]
  unfold State.palEnabled State.diversity
  rw [harr, hena, henb]

/-- A synthesiser goes off, and nothing but the radio changes. -/
theorem State.synOff_off {s : State} (h : s.ops = []) (y : Syn) (keep : Option Nat) :
    s.RadioOff (s.synOff y keep) ∧ (s.synOff y keep).synOn y = false := by
  obtain ⟨u, hu⟩ : ∃ u, u = (s.tunesEnd y keep).setSyn y { (s.tunesEnd y keep).syn y with
    phase := .off, calWord := none, calWait := false, kase := 0, second := false, wide := false } := ⟨_, rfl⟩
  have heq : s.synOff y keep = (((u.synCleared y).withdraw (synHolder y)).palJudge s
      ((u.synCleared y).ticketNow 0)).tcxoJudge := by
    rw [hu]
    cases y <;> simp only [State.synOff, State.synCleared]
  have hoff : s.RadioOff u := by
    rw [hu, State.tunesEnd_idle h]
    exact ((State.RadioOff.refl s).setSyn _ _).setSyn _ _
  have hregs : u.regs = s.regs := by
    rw [hu, State.tunesEnd_idle h]
    simp
  obtain ⟨hcl, hsyn⟩ := State.synCleared_off hoff y
  have hjudge : ∀ c, (((u.synCleared y).withdraw (synHolder y)).palEnabled c && ((u.synCleared y).withdraw (synHolder y)).chainOn c) =
      true → (s.palEnabled c && s.chainOn c) = true := fun c hc => by
    have h1 := u.synCleared_judged y c
      ((State.palJudged_of_palRegs (State.palRegs_of_reg fun o _ => State.reg_of_regs (State.withdraw_regs _ _) o) c).symm.trans hc)
    exact (State.palJudged_of_palRegs (State.palRegs_of_reg fun o _ => State.reg_of_regs hregs o) c).symm.trans h1
  have hpal := (State.palJudge_off hjudge ((u.synCleared y).ticketNow 0)).tcxoJudge
  rw [heq]
  exact ⟨(hcl.withdraw _).trans hpal, hpal.syn y ((State.on_of_regs (State.withdraw_regs _ _) _).trans hsyn)⟩

/-! A multiplier switched off (R302, R324). -/

theorem State.radioLost_idle {s : State} (hl : s.laneList = []) (hr : s.rslotList = []) (hq : s.reqs = []) (ho : s.ops = []) :
    s.radioLost = s := by
  unfold State.radioLost
  rw [hl, List.foldl_nil]
  dsimp only
  rw [hr, List.foldl_nil, hq, List.foldl_nil]
  have hopsl : ({ s with reqs := [] } : State).opsLost = { s with reqs := [] } := by
    unfold State.opsLost State.opIds
    show List.foldl _ _ (List.filter _ (List.map _ s.ops)) = _
    rw [ho]
    rfl
  rw [hopsl, ← hq]

/-- Only the radio changes where a multiplier is muted and no sample is under way. -/
theorem State.muteOne_off {s : State} (hl : s.laneList = []) (hr : s.rslotList = []) (hq : s.reqs = []) (ho : s.ops = [])
    (x : Mult) : s.RadioOff (s.muteOne x) := by
  have hlost : (if x == .cmr && (s.mult x).st == 5 then s.radioLost else s) = s := by
    split
    · exact State.radioLost_idle hl hr hq ho
    · rfl
  have hkeep : s.RadioOff (s.keepSearch x) := by
    have hband : ∀ n, n < 2 → CLK_BAND_CMn.off n < 0x2000 := fun n hn => by
      unfold CLK_BAND_CMn.off
      omega
    have hx : multIx x < 2 := by cases x <;> decide
    unfold State.keepSearch
    split
    · exact ((State.RadioOff.refl s).setFld (f := CLK_BAND_CMn.BAND (multIx x)) (.inl (hband _ hx)) _).setFld
        (f := CLK_BAND_CMn.COUNT (multIx x)) (.inl (hband _ hx)) _
    · exact .refl s
  simp only [State.muteOne, hlost]
  exact hkeep.setMult x _

theorem State.muteOne_cmr_cmc {s : State} (hl : s.laneList = []) (hr : s.rslotList = []) (hq : s.reqs = []) (ho : s.ops = []) :
    (s.muteOne .cmr).cmc = s.cmc := by
  have hlost : (if Mult.cmr == .cmr && (s.mult .cmr).st == 5 then s.radioLost else s) = s := by
    split
    · exact State.radioLost_idle hl hr hq ho
    · rfl
  simp only [State.muteOne, hlost]
  show (s.keepSearch .cmr).cmc = s.cmc
  unfold State.keepSearch
  split
  · simp
  · rfl

/-- CMC that is neither locked nor in a sequence loses nothing with CMR (R311). -/
theorem State.cmcFollows_off {s : State} (h5 : s.cmc.st ≠ 5) (h2 : s.cmc.st ≠ 2) : s.cmcFollows = s := by
  unfold State.cmcFollows
  split
  · unfold State.lossOne
    exact if_neg fun h => h.elim h5 h2
  · rfl

theorem State.mute_cmc (s : State) : s.mute .cmc = s.muteOne .cmc := by
  unfold State.mute
  exact if_neg (by decide)

theorem State.mute_cmr (s : State) : s.mute .cmr = (s.muteOne .cmr).cmcFollows := by
  unfold State.mute
  exact if_pos (by decide)

theorem State.mute_off {s : State} (hl : s.laneList = []) (hr : s.rslotList = []) (hq : s.reqs = []) (ho : s.ops = [])
    (x : Mult) (hx : x = .cmr → s.cmc.st ≠ 5 ∧ s.cmc.st ≠ 2) : s.RadioOff (s.mute x) := by
  cases x
  · rw [State.mute_cmc]
    exact State.muteOne_off hl hr hq ho .cmc
  · obtain ⟨h5, h2⟩ := hx rfl
    have hcmc := State.muteOne_cmr_cmc hl hr hq ho
    rw [State.mute_cmr, State.cmcFollows_off (by rw [hcmc]; exact h5) (by rw [hcmc]; exact h2)]
    exact State.muteOne_off hl hr hq ho .cmr

theorem State.multOff_off {s : State} (hl : s.laneList = []) (hr : s.rslotList = []) (hq : s.reqs = []) (ho : s.ops = [])
    (x : Mult) (hx : x = .cmr → s.cmc.st ≠ 5 ∧ s.cmc.st ≠ 2) : s.RadioOff (s.multOff x) := by
  have hrelock : (relockFld x).off < 0x2000 := by cases x <;> decide
  have hattempt : (CLK_CMn_STAT.ATTEMPT (multIx x)).off < 0x2000 := by cases x <;> decide
  have hmute := State.mute_off hl hr hq ho x hx
  unfold State.multOff
  split
  · exact .refl s
  · dsimp only
    generalize s.mute x = u at *
    have hsub : s.RadioOff (u.noSubst x) := by
      unfold State.noSubst
      split
      · exact hmute.setFld (.inl (by decide)) 0
      · exact hmute
    exact ((hsub.setMult x _).setFld (.inl hrelock) 0).setFld (.inl hattempt) 0

theorem State.multOff_cmc (s : State) : (s.multOff .cmc).cmc.st ≠ 5 ∧ (s.multOff .cmc).cmc.st ≠ 2 := by
  unfold State.multOff
  split
  · next h =>
    have h6 : s.cmc.st = 6 := h
    omega
  · have hset : ∀ (u : State) m, (u.setMult .cmc m).cmc = m := fun _ _ => rfl
    simp only [State.setFld_cmc, hset]
    omega

/-! Steps 2 to 4 of Table 16-3. -/

/-- Every synthesiser off. -/
theorem State.synsOff_off {s : State} (h : s.ops = []) :
    let t := [Syn.sya, .syb, .syt].foldl (fun s y => if s.synOn y then s.synOff y none else s) s
    s.RadioOff t ∧ ∀ y, t.synOn y = false := by
  have step : ∀ (t : State) y, s.RadioOff t →
      s.RadioOff (if t.synOn y then t.synOff y none else t) ∧ (if t.synOn y then t.synOff y none else t).synOn y = false ∧
        ∀ z, t.synOn z = false → (if t.synOn y then t.synOff y none else t).synOn z = false := fun t y ht => by
    have hops : t.ops = [] := (ht.seen (g := State.ops) fun _ => rfl).trans h
    split
    · obtain ⟨hoff, hy⟩ := State.synOff_off hops y none
      exact ⟨ht.trans hoff, hy, fun z hz => hoff.syn z hz⟩
    · next hy => exact ⟨ht, by simpa using hy, fun _ hz => hz⟩
  simp only [List.foldl_cons, List.foldl_nil]
  obtain ⟨ha, haa, -⟩ := step s .sya (.refl s)
  generalize (if s.synOn .sya then s.synOff .sya none else s) = a at *
  obtain ⟨hb, hbb, hab⟩ := step a .syb ha
  generalize (if a.synOn .syb then a.synOff .syb none else a) = b at *
  obtain ⟨hc, hcc, hbc⟩ := step b .syt hb
  exact ⟨hc, fun y => by
    cases y
    · exact hbc _ (hab _ haa)
    · exact hbc _ hbb
    · exact hcc⟩

/-- Claims withdrawn, entries dropped, the pins of the radio at rest (Table 16-3). -/
def State.radioRest (s : State) (deep : Bool) : State := { s with
  well := { s.well with granted := [], queue := if deep then [] else s.well.queue.filter (fun c => c.who.ofContext) }
  ents := [], held := [], reqs := [], palA := s.palA.lost, palB := s.palB.lost
  pins := { s.pins with paEn := false, paCtl := none, txrx := false, ant0 := false, ant1 := false, lnaByp := false } }

/-- Both multipliers off and the state entered. -/
def State.multsRest (s : State) (deep : Bool) : State := { s with
  cmr := { s.cmr with st := 0, stop := none }
  cmc := { s.cmc with st := 0, stop := none }
  pwr := { s.pwr with st := if deep then .deep else .sleep, req := 0, core := false } }

theorem State.radioSleep_eq (s : State) (deep : Bool) : s.radioSleep deep =
    (((((([Syn.sya, .syb, .syt].foldl (fun s y => if s.synOn y then s.synOff y none else s) s).radioRest deep).multOff .cmc).multOff
      .cmr).multsRest deep).tcxoJudge).setFld CLK_STAT.REF_OK 0 := by
  simp only [State.radioSleep, State.radioRest, State.multsRest]

/-- What Sleep and Deep sleep leave once the radio is off. -/
structure State.RadioSlept (s : State) (deep : Bool) (t : State) : Prop where
  st : t.pwr.st = if deep then .deep else .sleep
  core : t.pwr.core = false
  req : t.pwr.req = 0
  granted : t.well.granted = []
  cmc : t.cmc.st = 0
  cmr : t.cmr.st = 0
  refOk : t.on CLK_STAT.REF_OK = false
  syns : ∀ y, t.synOn y = false
  paEn : t.pins.paEn = false
  tcxoEn : deep = true → t.pins.tcxoEn = false
  reg : ∀ o, 0x2000 ≤ o → o < 0x6000 → t.reg o = s.reg o
  rest : t.keys = s.keys ∧ t.ctx = s.ctx ∧ t.lnch = s.lnch ∧ t.slots = s.slots

theorem State.tcxoJudge_off {s : State} (h : s.pwr.st = .deep) : s.tcxoJudge.pins.tcxoEn = false := by
  have hw : s.tcxoWanted = false := by
    unfold State.tcxoWanted State.asleep
    rw [h]
    split <;> rfl
  unfold State.tcxoJudge
  rw [hw]
  rfl

theorem State.radioSleep_slept {s : State} (hl : s.laneList = []) (hr : s.rslotList = []) (ho : s.ops = []) (deep : Bool) :
    s.RadioSlept deep (s.radioSleep deep) ∧ ∀ a, a < 0x400000 → (s.radioSleep deep).byte a = s.byte a := by
  rw [s.radioSleep_eq]
  obtain ⟨h1, hsyn⟩ := State.synsOff_off ho
  generalize [Syn.sya, .syb, .syt].foldl (fun s y => if s.synOn y then s.synOff y none else s) s = a at *
  obtain ⟨b, hb⟩ : ∃ b, b = a.radioRest deep := ⟨_, rfl⟩
  have hrest : b.regs = a.regs ∧ b.mem = a.mem ∧ b.laneList = a.laneList ∧ b.rslotList = a.rslotList ∧ b.reqs = [] ∧
      b.ops = a.ops ∧ b.well.granted = [] ∧ b.pins.paEn = false ∧
      (b.keys = a.keys ∧ b.ctx = a.ctx ∧ b.lnch = a.lnch ∧ b.slots = a.slots) := by
    rw [hb]
    exact ⟨rfl, rfl, rfl, rfl, rfl, rfl, rfl, rfl, rfl, rfl, rfl, rfl⟩
  obtain ⟨hbregs, hbmem, hblanes, hbrslots, hbreqs, hbops, hbgranted, hbpa, hbkeys⟩ := hrest
  rw [← hb]
  have hbl : b.laneList = [] := (hblanes.trans (h1.seen (g := State.laneList) fun _ => rfl)).trans hl
  have hbr : b.rslotList = [] := (hbrslots.trans (h1.seen (g := State.rslotList) fun _ => rfl)).trans hr
  have hbo : b.ops = [] := (hbops.trans (h1.seen (g := State.ops) fun _ => rfl)).trans ho
  have hc := State.multOff_off hbl hbr hbreqs hbo .cmc (fun h => absurd h (by decide))
  have hc2 := b.multOff_cmc
  generalize b.multOff .cmc = c at *
  have hd := hc.trans (State.multOff_off ((hc.seen (g := State.laneList) fun _ => rfl).trans hbl)
    ((hc.seen (g := State.rslotList) fun _ => rfl).trans hbr) ((hc.seen (g := State.reqs) fun _ => rfl).trans hbreqs)
    ((hc.seen (g := State.ops) fun _ => rfl).trans hbo) .cmr fun _ => hc2)
  generalize c.multOff .cmr = d at *
  obtain ⟨e, he⟩ : ∃ e, e = d.multsRest deep := ⟨_, rfl⟩
  have hrest : e.regs = d.regs ∧ e.mem = d.mem ∧ e.pwr.st = (if deep then .deep else .sleep) ∧ e.pwr.core = false ∧
      e.pwr.req = 0 ∧ e.well = d.well ∧ e.cmc.st = 0 ∧ e.cmr.st = 0 ∧ e.pins = d.pins ∧
      (e.keys = d.keys ∧ e.ctx = d.ctx ∧ e.lnch = d.lnch ∧ e.slots = d.slots) := by
    rw [he]
    exact ⟨rfl, rfl, rfl, rfl, rfl, rfl, rfl, rfl, rfl, rfl, rfl, rfl, rfl⟩
  obtain ⟨heregs, hemem, hest, hecore, hereq, hewell, hecmc, hecmr, hepins, hekeys, hectx, helnch, heslots⟩ := hrest
  rw [← he]
  have hj := (State.RadioOff.refl e).tcxoJudge
  have hjs : ∀ {β : Type} {g : State → β}, (∀ t r a x, g { t with
      regs := r, pwr := { t.pwr with tcxoAt := a }, pins := { t.pins with tcxoEn := x } } = g t) →
      g (e.tcxoJudge.setFld CLK_STAT.REF_OK 0) = g e := fun hg =>
    (State.setFld_unseen (fun t r => hg t r t.pwr.tcxoAt t.pins.tcxoEn) _ _ _).trans (State.tcxoJudge_unseen hg e)
  have hf := hj.setFld (f := CLK_STAT.REF_OK) (.inl (by decide)) 0
  obtain ⟨hbkeys, hbctx, hblnch, hbslots⟩ := hbkeys
  refine ⟨⟨?_, ?_, ?_, ?_, ?_, ?_, State.on_setFld_zero _ _ (by decide), fun y => ?_, ?_, fun hdeep => ?_, fun o h2 h6 => ?_,
    ?_, ?_, ?_, ?_⟩, fun x hx => ?_⟩
  · rw [hjs (g := fun t => t.pwr.st) fun _ _ _ _ => rfl, hest]
  · rw [hjs (g := fun t => t.pwr.core) fun _ _ _ _ => rfl, hecore]
  · rw [hjs (g := fun t => t.pwr.req) fun _ _ _ _ => rfl, hereq]
  · rw [hjs (g := fun t => t.well.granted) fun _ _ _ _ => rfl, hewell]
    exact hd.granted hbgranted
  · rw [hjs (g := fun t => t.cmc.st) fun _ _ _ _ => rfl, hecmc]
  · rw [hjs (g := fun t => t.cmr.st) fun _ _ _ _ => rfl, hecmr]
  · exact hf.syn y ((State.on_of_regs heregs _).trans (hd.syn y ((State.on_of_regs hbregs _).trans (hsyn y))))
  · rw [hjs (g := fun t => t.pins.paEn) fun _ _ _ _ => rfl, hepins, hd.seen (g := fun t => t.pins.paEn) fun _ => rfl, hbpa]
  · rw [State.setFld_pins]
    exact State.tcxoJudge_off (by rw [hest, hdeep]; rfl)
  · rw [hf.reg o h2 h6, State.reg_of_regs heregs, hd.reg o h2 h6, State.reg_of_regs hbregs, h1.reg o h2 h6]
  · rw [hjs (g := State.keys) fun _ _ _ _ => rfl, hekeys, hd.seen (g := State.keys) fun _ => rfl, hbkeys,
      h1.seen (g := State.keys) fun _ => rfl]
  · rw [hjs (g := State.ctx) fun _ _ _ _ => rfl, hectx, hd.seen (g := State.ctx) fun _ => rfl, hbctx,
      h1.seen (g := State.ctx) fun _ => rfl]
  · rw [hjs (g := State.lnch) fun _ _ _ _ => rfl, helnch, hd.seen (g := State.lnch) fun _ => rfl, hblnch,
      h1.seen (g := State.lnch) fun _ => rfl]
  · rw [hjs (g := State.slots) fun _ _ _ _ => rfl, heslots, hd.seen (g := State.slots) fun _ => rfl, hbslots,
      h1.seen (g := State.slots) fun _ => rfl]
  · rw [hf.byte x hx, State.byte_of_mem hemem, hd.byte x hx, State.byte_of_mem hbmem, h1.byte x hx]

/-- What `RadioSlept` speaks of. -/
def State.sleptView (t : State) :=
  (t.pwr, t.well, t.cmc, t.cmr, t.regs, t.pins.paEn, t.pins.tcxoEn, t.keys, t.ctx, t.lnch, t.slots)

theorem State.RadioSlept.congr {s s' t t' : State} {deep : Bool} (h : s.RadioSlept deep t) (hs : s'.sleptView = s.sleptView)
    (ht : t'.sleptView = t.sleptView) : s'.RadioSlept deep t' := by
  unfold State.sleptView at hs ht
  simp only [Prod.mk.injEq] at hs ht
  obtain ⟨-, -, -, -, hsregs, -, -, hskeys, hsctx, hslnch, hsslots⟩ := hs
  obtain ⟨hpwr, hwell, hcmc, hcmr, hregs, hpa, htcxo, hkeys, hctx, hlnch, hslots⟩ := ht
  obtain ⟨hrkeys, hrctx, hrlnch, hrslots⟩ := h.rest
  refine ⟨by rw [hpwr, h.st], by rw [hpwr, h.core], by rw [hpwr, h.req], by rw [hwell, h.granted], by rw [hcmc, h.cmc],
    by rw [hcmr, h.cmr], (State.on_of_regs hregs _).trans h.refOk, fun y => (State.on_of_regs hregs _).trans (h.syns y),
    by rw [hpa, h.paEn], fun hd => by rw [htcxo, h.tcxoEn hd], fun o h2 h6 => ?_, ?_⟩
  · rw [State.reg_of_regs hregs, h.reg o h2 h6, State.reg_of_regs hsregs]
  · rw [hkeys, hctx, hlnch, hslots, hskeys, hsctx, hslnch, hsslots]
    exact h.rest

end Sys2Proof.Machine

/-! Entering Sleep, Deep sleep and Off, and the power states of O57 (Table 16-3, R320–R330). -/

namespace Sys2Proof.Machine

/-! Banks lost (R330). -/

theorem State.clearBank_unseen {β : Type} {g : State → β} (hg : ∀ t m k c, g { t with mem := m, marks := k, scrub := c } = g t)
    (s : State) (b : Bank) : g (s.clearBank b) = g s := hg s _ _ _

theorem State.byte_clearBank (s : State) (b : Bank) {a : Nat} (ha : a < 0xF00000) :
    (s.clearBank b).byte a = if b.holds a then 0#8 else s.byte a := by
  have hrom : inRom a = false := by
    unfold inRom
    rw [decide_eq_false (by omega), Bool.false_and]
  have hget := Tab.get_filter Memory.blank (fun a => !b.holds a) s.mem a
  unfold State.byte
  rw [hrom]
  show Tab.get Memory.blank (s.clearBank b).mem a = _
  unfold State.clearBank
  rw [hget]
  cases b.holds a <;> rfl

theorem State.byte_clearBanks (bs : List Bank) (s : State) {a : Nat} (ha : a < 0xF00000) :
    (bs.foldl State.clearBank s).byte a = if bs.any (·.holds a) then 0#8 else s.byte a := by
  induction bs generalizing s with
  | nil => rfl
  | cons b bs ih =>
    rw [List.foldl_cons, ih, s.byte_clearBank b ha, List.any_cons]
    cases b.holds a
    · simp
    · simp

theorem Bank.holds_iff (b : Bank) (a : Nat) : b.holds a = true ↔ b.base ≤ a ∧ a < b.base + b.size := by
  unfold Bank.holds
  simp only [Bool.and_eq_true, decide_eq_true_eq]

/-- Which addresses a sleeping state loses (Table 16-1). -/
theorem State.lostBanks_any (s : State) (deep : Bool) (a : Nat) : (s.lostBanks deep).any (·.holds a) =
    (((deep || !s.on PWR_RET_CFG.PGM_RET) && decide (a < 0x40000)) ||
      ((deep || !s.on PWR_RET_CFG.PTB_RET) && decide (0x80000 ≤ a ∧ a < 0xC0000)) ||
      decide (0x100000 ≤ a ∧ a < 0x300000) || decide (0x400000 ≤ a ∧ a < 0x800000)) := by
  unfold State.lostBanks
  generalize (deep || !s.on PWR_RET_CFG.PGM_RET) = pgm
  generalize (deep || !s.on PWR_RET_CFG.PTB_RET) = ptb
  rw [Bool.eq_iff_iff]
  cases pgm <;> cases ptb <;>
    simp only [Bool.false_eq_true, if_false, if_true, List.nil_append, List.cons_append, List.any_cons, List.any_nil, Bool.or_false,
      Bank.holds_iff, Bank.base, Bank.size, Bool.false_and, Bool.true_and, Bool.false_or, Bool.or_eq_true,
      decide_eq_true_eq] <;>
    omega

/-! Launchers in Deep sleep (R35). -/

/-- Launcher `n` is armed and is not one that Deep sleep keeps. -/
def State.dropsDeep (s : State) (n : Nat) : Bool :=
  (s.launcher n).armed && (decide (4 ≤ n) || !s.on (CVN_Ln_ACT.KEEP n))

theorem State.on_keep_lnOff (s : State) (n i : Nat) : (s.lnOff n).on (CVN_Ln_ACT.KEEP i) = s.on (CVN_Ln_ACT.KEEP i) := by
  unfold State.on
  rw [State.fld_lnOff _ _ _ (by exact (show 15 < 26 by decide)) (by exact (show 26 < 31 by decide))]

theorem State.launchersDeep_range (s : State) (m : Nat) :
    let t := (List.range m).foldl (fun s n =>
      if (s.launcher n).armed && (decide (4 ≤ n) || !s.on (CVN_Ln_ACT.KEEP n)) then s.lnOff n else s) s
    (∀ n, t.launcher n = if n < m ∧ s.dropsDeep n = true then Lnch.off else s.launcher n) ∧
      (∀ n, t.on (CVN_Ln_ACT.KEEP n) = s.on (CVN_Ln_ACT.KEEP n)) ∧
      (∀ o, (o < 0x5108 ∨ 0x5108 + 16 * m ≤ o) → t.reg o = s.reg o) ∧
      (∀ {β : Type} {g : State → β}, (∀ t r l, g { t with regs := r, lnch := l } = g t) → g t = g s) := by
  induction m with
  | zero => exact ⟨fun n => by simp, fun _ => rfl, fun _ _ => rfl, fun _ => rfl⟩
  | succ m ih =>
    obtain ⟨hl, hk, hr, hu⟩ := ih
    dsimp only
    rw [List.range_succ, List.foldl_append, List.foldl_cons, List.foldl_nil]
    generalize (List.range m).foldl _ s = t at *
    have hm : ((t.launcher m).armed && (decide (4 ≤ m) || !t.on (CVN_Ln_ACT.KEEP m))) = s.dropsDeep m := by
      rw [hl, if_neg (by omega), hk]
      rfl
    rw [hm]
    have hsucc : ∀ n, n ≠ m → (n < m + 1 ↔ n < m) := fun n hn => by omega
    cases hd : s.dropsDeep m
    · refine ⟨fun n => ?_, hk, fun o ho => hr o (by omega), hu⟩
      rw [if_neg (by decide), hl]
      by_cases hn : n = m
      · rw [hn, if_neg (by omega), if_neg (by simp [hd])]
      · simp only [hsucc n hn]
    · have hoff : CVN_Ln_ACT.off m = 0x5108 + 16 * m := rfl
      simp only [if_true]
      refine ⟨fun n => ?_, fun n => (t.on_keep_lnOff m n).trans (hk n),
        fun o ho => (State.reg_lnOff_ne _ _ _ (by omega)).trans (hr o (by omega)),
        fun hg => (State.lnOff_unseen hg t m).trans (hu hg)⟩
      rw [State.launcher_lnOff, hl]
      by_cases hn : n = m
      · rw [if_pos hn, if_pos ⟨by omega, hn ▸ hd⟩]
      · rw [if_neg hn]
        simp only [hsucc n hn]

/-- Sleep or Deep sleep entered, the launchers apart (Table 16-3). -/
def State.banksLost (s : State) (deep : Bool) : State :=
  let s := if s.on WKR_CFG.RUN_EN then s else { s with wkr := { s.wkr with blind := max s.wkr.blind s.tick } }
  let s := (s.radioSleep deep).gpSleep deep
  (s.lostBanks deep).foldl State.clearBank { s with msgEn := false, msgQ := [] }

theorem State.enterSleep_sleep (s : State) : s.enterSleep false = s.banksLost false := by
  simp only [State.enterSleep, State.banksLost, Bool.false_eq_true, if_false]

/-- Where Deep sleep leaves the CK_CORE and CK_RADIO domains. -/
def State.deepReset (s : State) : State :=
  let l := s.lnch
  { (s.workReset (fun _ => true)) with
    lnch := l, palA := .zero, palB := .zero
    mac := { s.mac with sf0 := none, ann := annHold s.mac.ann, heard := [], opened := [], queue := [] } }

theorem State.enterSleep_deep (s : State) : s.enterSleep true = (s.banksLost true).launchersDeep.deepReset := by
  simp only [State.enterSleep, State.banksLost, if_true, State.deepReset]

theorem State.gpSleep_unseen {β : Type} {g : State → β} (hg : ∀ t d k e q, g { t with
    pins := { t.pins with gpDrv := d, cvnKept := k }, msgEn := e, msgQ := q } = g t) (s : State) (deep : Bool) :
    g (s.gpSleep deep) = g s := hg s _ _ s.msgEn s.msgQ

theorem State.banksLost_slept {s : State} (hl : s.laneList = []) (hr : s.rslotList = []) (ho : s.ops = []) (deep : Bool) :
    s.RadioSlept deep (s.banksLost deep) ∧
      (∀ a, a < 0x400000 → (s.lostBanks deep).any (·.holds a) = false → (s.banksLost deep).byte a = s.byte a) ∧
      (∀ a, a < 0xF00000 → (s.lostBanks deep).any (·.holds a) = true → (s.banksLost deep).byte a = 0#8) := by
  obtain ⟨u, hu⟩ : ∃ u : State, u = if s.on WKR_CFG.RUN_EN then s else { s with wkr := { s.wkr with blind := max s.wkr.blind s.tick } } :=
    ⟨_, rfl⟩
  have hsu : ∀ {β : Type} {g : State → β}, (∀ t w, g { t with wkr := w } = g t) → g u = g s := fun hg => by
    rw [hu]
    split
    · rfl
    · exact hg s _
  obtain ⟨hslept, hbytes⟩ := State.radioSleep_slept (s := u) ((hsu (g := State.laneList) fun _ _ => rfl).trans hl)
    ((hsu (g := State.rslotList) fun _ _ => rfl).trans hr) ((hsu (g := State.ops) fun _ _ => rfl).trans ho) deep
  obtain ⟨v, hv⟩ : ∃ v : State, v = { (u.radioSleep deep).gpSleep deep with msgEn := false, msgQ := [] } := ⟨_, rfl⟩
  obtain ⟨w, hw⟩ : ∃ w : State, w = (u.radioSleep deep).gpSleep deep := ⟨_, rfl⟩
  have heq : s.banksLost deep = (w.lostBanks deep).foldl State.clearBank v := by
    rw [hv, hw]
    simp only [State.banksLost, ← hu]
  have hvu : ∀ {β : Type} {g : State → β}, (∀ t d k e q, g { t with
      pins := { t.pins with gpDrv := d, cvnKept := k }, msgEn := e, msgQ := q } = g t) → g v = g (u.radioSleep deep) := fun hg => by
    rw [hv]
    generalize (u.radioSleep deep) = r
    exact (hg (r.gpSleep deep) (r.gpSleep deep).pins.gpDrv (r.gpSleep deep).pins.cvnKept _ _).trans (State.gpSleep_unseen hg r deep)
  have hview := hvu (g := State.sleptView) fun _ _ _ _ _ => rfl
  have hmem := hvu (g := State.mem) fun _ _ _ _ _ => rfl
  have hregs : w.regs = (u.radioSleep deep).regs := by
    rw [hw]
    exact State.gpSleep_unseen (g := State.regs) (fun _ _ _ _ _ => rfl) _ _
  have hret : ∀ f : Fld, f.off = PWR_RET_CFG.off → w.on f = s.on f := fun f hf => by
    unfold State.on State.fld
    rw [State.reg_of_regs hregs, hslept.reg _ (by rw [hf]; decide) (by rw [hf]; decide)]
    rw [hsu (g := fun t => t.reg f.off) fun _ _ => rfl]
  have hlost : ∀ a, (w.lostBanks deep).any (·.holds a) = (s.lostBanks deep).any (·.holds a) := fun a => by
    rw [State.lostBanks_any, State.lostBanks_any, hret PWR_RET_CFG.PGM_RET rfl, hret PWR_RET_CFG.PTB_RET rfl]
  rw [heq]
  refine ⟨hslept.congr (hsu (g := State.sleptView) fun _ _ => rfl).symm ?_, fun a ha hn => ?_, fun a ha hy => ?_⟩
  · exact (State.foldl_unseen (g := State.sleptView)
      (fun t b => State.clearBank_unseen (g := State.sleptView) (fun _ _ _ _ => rfl) t b) _ _).trans hview
  · rw [State.byte_clearBanks _ _ (by omega), hlost, hn, State.byte_of_mem hmem, hbytes a ha,
      hsu (g := fun t => t.byte a) fun _ _ => rfl]
    rfl
  · rw [State.byte_clearBanks _ _ ha, hlost, hy]
    rfl

theorem State.deepReset_view (v : State) : let t := v.deepReset
    (t.pwr = v.pwr ∧ t.well = v.well ∧ t.cmc = v.cmc ∧ t.cmr = v.cmr ∧ t.regs = v.regs ∧ t.mem = v.mem ∧ t.keys = v.keys ∧
      t.lnch = v.lnch) ∧ t.pins.tcxoEn = v.pins.tcxoEn ∧ t.pins.paEn = false ∧ t.ctx = [] ∧ t.engs = [] :=
  ⟨⟨rfl, rfl, rfl, rfl, rfl, rfl, rfl, rfl⟩, rfl, rfl, rfl, rfl⟩

/-! QUIET_POINT (R322, R324). -/

/-- What a sleeping state leaves, as O57 states it. -/
structure State.Sleeps (s : State) (deep : Bool) (t : State) : Prop where
  st : t.pwr.st = if deep then .deep else .sleep
  core : t.pwr.core = false
  req : t.pwr.req = 0
  granted : t.well.granted = []
  cmc : t.cmc.st = 0
  cmr : t.cmr.st = 0
  refOk : t.on CLK_STAT.REF_OK = false
  syns : ∀ y, t.synOn y = false
  paEn : t.pins.paEn = false
  tcxoEn : deep = true → t.pins.tcxoEn = false
  keys : t.keys = s.keys
  kept : ∀ a, a < 0x400000 → (s.lostBanks deep).any (·.holds a) = false → t.byte a = s.byte a
  lost : ∀ a, a < 0xF00000 → (s.lostBanks deep).any (·.holds a) = true → t.byte a = 0#8

section
variable {s : State} (hl : s.laneList = []) (hr : s.rslotList = []) (ho : s.ops = [])
include hl hr ho

theorem State.enterSleep_sleeps : s.Sleeps false (s.enterSleep false) ∧ (s.enterSleep false).ctx = s.ctx ∧
    (s.enterSleep false).lnch = s.lnch ∧ (s.enterSleep false).slots = s.slots := by
  obtain ⟨h, hkept, hlost⟩ := State.banksLost_slept hl hr ho false
  obtain ⟨hkeys, hctx, hlnch, hslots⟩ := h.rest
  rw [s.enterSleep_sleep]
  exact ⟨⟨h.st, h.core, h.req, h.granted, h.cmc, h.cmr, h.refOk, h.syns, h.paEn, h.tcxoEn, hkeys, hkept, hlost⟩, hctx, hlnch,
    hslots⟩

theorem State.enterSleep_deeps : let t := s.enterSleep true
    s.Sleeps true t ∧ t.ctx = [] ∧ t.engs = [] ∧
      (∀ n, n < 32 → t.launcher n = if s.dropsDeep n = true then Lnch.off else s.launcher n) := by
  obtain ⟨h, hkept, hlost⟩ := State.banksLost_slept hl hr ho true
  obtain ⟨hkeys, -, hlnch, -⟩ := h.rest
  have hkeep : ∀ n, n < 32 → (s.banksLost true).on (CVN_Ln_ACT.KEEP n) = s.on (CVN_Ln_ACT.KEEP n) := fun n hn => by
    have hoff : (CVN_Ln_ACT.KEEP n).off = 0x5108 + 16 * n := rfl
    unfold State.on State.fld
    rw [h.reg _ (by omega) (by omega)]
  have hlaunch : ∀ n, (s.banksLost true).launcher n = s.launcher n := fun n => by
    unfold State.launcher
    rw [hlnch]
  dsimp only
  rw [s.enterSleep_deep]
  obtain ⟨hlaunch', -, hreg, hun⟩ := (s.banksLost true).launchersDeep_range 32
  change ∀ n, (s.banksLost true).launchersDeep.launcher n = _ at hlaunch'
  change ∀ o, _ → (s.banksLost true).launchersDeep.reg o = _ at hreg
  change ∀ {β : Type} {g : State → β}, _ → g (s.banksLost true).launchersDeep = _ at hun
  generalize hv : (s.banksLost true).launchersDeep = v at *
  obtain ⟨⟨hpwr, hwell, hcmc, hcmr, hregs, hmem, hkeys', hlnch'⟩, htcxo, hpa, hctx, hengs⟩ := v.deepReset_view
  have hon : ∀ f : Fld, f.off < 0x5108 ∨ 0x5308 ≤ f.off → v.deepReset.on f = (s.banksLost true).on f := fun f hf => by
    rw [State.on_of_regs hregs]
    unfold State.on State.fld
    rw [hreg _ hf]
  refine ⟨⟨?_, ?_, ?_, ?_, ?_, ?_, ?_, fun y => ?_, hpa, fun hd => ?_, ?_, fun a ha hn => ?_, fun a ha hy => ?_⟩, hctx, hengs,
    fun n hn => ?_⟩
  · rw [hpwr, hun (g := State.pwr) fun _ _ _ => rfl, h.st]
  · rw [hpwr, hun (g := State.pwr) fun _ _ _ => rfl, h.core]
  · rw [hpwr, hun (g := State.pwr) fun _ _ _ => rfl, h.req]
  · rw [hwell, hun (g := State.well) fun _ _ _ => rfl, h.granted]
  · rw [hcmc, hun (g := State.cmc) fun _ _ _ => rfl, h.cmc]
  · rw [hcmr, hun (g := State.cmr) fun _ _ _ => rfl, h.cmr]
  · rw [hon _ (.inl (by decide)), h.refOk]
  · have hy : (synOnFld y).off = 0x6000 := by cases y <;> rfl
    unfold State.synOn
    rw [hon _ (.inr (by omega))]
    exact h.syns y
  · rw [htcxo, hun (g := State.pins) fun _ _ _ => rfl, h.tcxoEn hd]
  · rw [hkeys', hun (g := State.keys) fun _ _ _ => rfl, hkeys]
  · rw [State.byte_of_mem hmem, hun (g := fun t => t.byte a) fun _ _ _ => rfl, hkept a ha hn]
  · rw [State.byte_of_mem hmem, hun (g := fun t => t.byte a) fun _ _ _ => rfl, hlost a ha hy]
  · have hsame : v.deepReset.launcher n = v.launcher n := by
      unfold State.launcher
      rw [hlnch']
    have hdrop : (s.banksLost true).dropsDeep n = s.dropsDeep n := by
      unfold State.dropsDeep
      rw [hkeep n hn, hlaunch]
    rw [hsame, hlaunch', hdrop, hlaunch]
    simp only [hn, true_and]

end

theorem execQuietPoint_enters {s : State} (hs : s.serves = true) (hq : s.quiet = true) (hreq : s.pwr.req ≠ 0) :
    exec .quietPoint s = .next (s.touch.enter s.pwr.req) := by
  show execQuietPoint s = _
  simp only [execQuietPoint]
  exact if_pos ⟨hs, hreq, hq⟩

/-- At the quiet point no lane and no recovery slot is in use (R322). -/
theorem State.quiet_idle {s : State} (hq : s.quiet = true) : s.laneList = [] ∧ s.rslotList = [] := by
  unfold State.quiet at hq
  simp only [Bool.and_eq_true, List.isEmpty_iff] at hq
  obtain ⟨⟨⟨⟨⟨⟨-, hl⟩, hr⟩, -⟩, -⟩, -⟩, -⟩ := hq
  exact ⟨hl, hr⟩

theorem State.enter_sleep (s : State) : s.enter 1 = s.enterSleep false := by
  unfold State.enter
  exact if_neg (by decide)

theorem State.enter_deep (s : State) : s.enter 2 = s.enterSleep true := by
  unfold State.enter
  exact if_neg (by decide)

/-- A device that is off keeps nothing but the levels driven from outside (Table 16-1). -/
def State.OffOf (s t : State) : Prop := t.pwr.st = .off ∧ t.pwr.core = false ∧ t.regs = [] ∧ t.mem = [] ∧ t.ctx = [] ∧
  t.slots = [] ∧ t.ops = [] ∧ t.keys = [] ∧ t.lnch = [] ∧ t.time = State.reset.time ∧ t.pins.gpIn = s.pins.gpIn ∧
  t.pins.paEn = false ∧ t.pins.tcxoEn = false

theorem State.cold_off (s : State) : s.OffOf (s.cold .off) := ⟨rfl, rfl, rfl, rfl, rfl, rfl, rfl, rfl, rfl, rfl, rfl, rfl, rfl⟩

section
variable {s : State} (hs : s.serves = true) (hq : s.quiet = true) (ho : s.ops = [])
include hs hq

theorem execQuietPoint_off (hreq : s.pwr.req = 3) : ∃ t, exec .quietPoint s = .next t ∧ s.OffOf t := by
  refine ⟨_, execQuietPoint_enters hs hq (by omega), ?_⟩
  have henter : s.touch.enter s.pwr.req = s.touch.cold .off := by
    unfold State.enter
    exact if_pos hreq
  rw [henter]
  obtain ⟨h1, h2, h3, h4, h5, h6, h7, h8, h9, h10, h11, h12, h13⟩ := s.touch.cold_off
  exact ⟨h1, h2, h3, h4, h5, h6, h7, h8, h9, h10, by rw [h11, State.touch_pins], h12, h13⟩

include ho

omit hs in
/-- The lists that Sleep finds empty. -/
theorem State.touch_idle : s.touch.laneList = [] ∧ s.touch.rslotList = [] ∧ s.touch.ops = [] := by
  obtain ⟨hl, hr⟩ := State.quiet_idle hq
  exact ⟨(State.touch_unseen (g := State.laneList) (fun _ _ _ => rfl) s).trans hl,
    (State.touch_unseen (g := State.rslotList) (fun _ _ _ => rfl) s).trans hr, by rw [State.touch_ops, ho]⟩

theorem execQuietPoint_sleep (hreq : s.pwr.req = 1) : ∃ t, exec .quietPoint s = .next t ∧ s.touch.Sleeps false t ∧
    t.ctx = s.ctx ∧ t.lnch = s.lnch ∧ t.slots = s.slots := by
  obtain ⟨hl, hr, hops⟩ := State.touch_idle hq ho
  obtain ⟨hsleeps, hctx, hlnch, hslots⟩ := State.enterSleep_sleeps hl hr hops
  refine ⟨_, ?_, hsleeps, by rw [hctx, State.touch_ctx], by rw [hlnch, State.touch_lnch], by rw [hslots, State.touch_slots]⟩
  rw [execQuietPoint_enters hs hq (by omega), hreq, State.enter_sleep]

theorem execQuietPoint_deep (hreq : s.pwr.req = 2) : ∃ t, exec .quietPoint s = .next t ∧ s.touch.Sleeps true t ∧
    t.ctx = [] ∧ t.engs = [] ∧ (∀ n, n < 32 → t.launcher n = if s.dropsDeep n = true then Lnch.off else s.launcher n) := by
  obtain ⟨hl, hr, hops⟩ := State.touch_idle hq ho
  obtain ⟨hsleeps, hctx, hengs, hlaunch⟩ := State.enterSleep_deeps hl hr hops
  refine ⟨_, ?_, hsleeps, hctx, hengs, fun n hn => ?_⟩
  · rw [execQuietPoint_enters hs hq (by omega), hreq, State.enter_deep]
  · have hsame : s.touch.launcher n = s.launcher n ∧ s.touch.dropsDeep n = s.dropsDeep n :=
      ⟨State.touch_unseen (g := fun t => t.launcher n) (fun _ _ _ => rfl) s,
        State.touch_unseen (g := fun t => t.dropsDeep n) (fun _ _ _ => rfl) s⟩
    rw [hlaunch n hn, hsame.1, hsame.2]

end

/-! What a sleeping state loses and keeps of memory (Table 16-1). -/

namespace State.Sleeps

variable {s t : State} {deep : Bool}

theorem cleared (h : s.Sleeps deep t) (a : Nat) (ha : (0x100000 ≤ a ∧ a < 0x300000) ∨ (0x400000 ≤ a ∧ a < 0x800000)) :
    t.byte a = 0#8 := by
  refine h.lost a (by omega) ?_
  rw [State.lostBanks_any]
  rcases ha with ha | ha <;> simp [ha]

theorem ret (h : s.Sleeps deep t) (a : Nat) (h1 : 0x40000 ≤ a) (h2 : a < 0x50000) : t.byte a = s.byte a := by
  refine h.kept a (by omega) ?_
  rw [State.lostBanks_any, decide_eq_false (by omega : ¬a < 0x40000), decide_eq_false (by omega), decide_eq_false (by omega),
    decide_eq_false (by omega)]
  simp

theorem pgm (h : s.Sleeps deep t) (a : Nat) (ha : a < 0x40000) :
    t.byte a = if (deep || !s.on PWR_RET_CFG.PGM_RET) = true then 0#8 else s.byte a := by
  have hany : (s.lostBanks deep).any (·.holds a) = (deep || !s.on PWR_RET_CFG.PGM_RET) := by
    rw [State.lostBanks_any, decide_eq_true ha, decide_eq_false (by omega : ¬(0x80000 ≤ a ∧ a < 0xC0000)),
      decide_eq_false (by omega : ¬(0x100000 ≤ a ∧ a < 0x300000)), decide_eq_false (by omega : ¬(0x400000 ≤ a ∧ a < 0x800000))]
    simp
  split
  · next hy => exact h.lost a (by omega) (hany.trans hy)
  · next hn => exact h.kept a (by omega) (hany.trans (by simpa using hn))

theorem ptb (h : s.Sleeps false t) (hret : s.on PWR_RET_CFG.PTB_RET = true) (a : Nat) (h1 : 0x80000 ≤ a) (h2 : a < 0xC0000) :
    t.byte a = s.byte a := by
  refine h.kept a (by omega) ?_
  rw [State.lostBanks_any, hret, decide_eq_false (by omega : ¬a < 0x40000),
    decide_eq_false (by omega : ¬(0x100000 ≤ a ∧ a < 0x300000)), decide_eq_false (by omega : ¬(0x400000 ≤ a ∧ a < 0x800000))]
  simp

end State.Sleeps

/-- Settles O57: requests, refusals, wakes and the core's start each leave what Table 16-3 and Table 16-5 say. -/
theorem powerStatesAndWaking : Obligations.PowerStatesAndWaking := by
  unfold Obligations.PowerStatesAndWaking
  intro s off kept sleeps wakes asleep
  have touchByte : ∀ a, s.touch.byte a = s.byte a := fun a => State.byte_of_mem s.touch_mem a
  have touchOn : ∀ f, s.touch.on f = s.on f := fun f => State.on_of_regs s.touch_regs f
  have toSleeps : ∀ {deep t}, s.touch.Sleeps deep t → sleeps t := fun {deep t} h =>
    ⟨h.core, h.req, h.granted, h.cmc, h.cmr, h.refOk, h.syns, h.paEn, by rw [h.keys, State.touch_keys], h.cleared,
      fun a h1 h2 => (h.ret a h1 h2).trans (touchByte a)⟩
  have toWakes : ∀ {code tick t}, s.Wakes code tick t → wakes t code tick := fun {code tick t} h =>
    ⟨h.st, h.wakeAt, h.first, h.sources, h.from_, h.valid, h.ovr, h.count, h.ticks,
      h.unseen (g := State.mem) fun _ _ _ _ _ _ _ _ _ => rfl, h.unseen (g := State.ctx) fun _ _ _ _ _ _ _ _ _ => rfl⟩
  refine ⟨fun hs hq ho => ⟨execQuietPoint_off hs hq, fun hreq => ?_, fun hreq => ?_⟩, fun hs hq hr => ⟨fun hreq => ?_, fun hreq => ?_⟩,
    fun he hsl => ?_, fun _ hst => execWakePin_run hst, fun he hj => ?_, fun p he hc hst => ?_, execWakeFromOff_starts s,
    fun hc hr => ⟨fun hst hb hup hmsg => ?_, fun hst => ?_⟩, fun b => execClearingEnd_clears b s, execCkRadioWaitExpiry_ends s,
    execIdleEntry_enters⟩
  · obtain ⟨t, ht, h, hctx, hlnch, hslots⟩ := execQuietPoint_sleep hs hq ho hreq
    refine ⟨t, ht, h.st, toSleeps h, hctx, hlnch, hslots, fun hret a ha => ?_, fun hret a h1 h2 => ?_, fun hret a ha => ?_⟩
    · exact (h.pgm a ha).trans (by rw [touchOn, hret, touchByte]; rfl)
    · exact (h.ptb (by rw [touchOn, hret]) a h1 h2).trans (touchByte a)
    · exact (h.pgm a ha).trans (by rw [touchOn, hret]; rfl)
  · obtain ⟨t, ht, h, hctx, hengs, hlaunch⟩ := execQuietPoint_deep hs hq ho hreq
    refine ⟨t, ht, h.st, toSleeps h, hctx, hengs, fun a ha => h.pgm a ha, h.tcxoEn rfl, fun n hn harmed => ?_, fun n hn hkeep => ?_⟩
    · rw [hlaunch n hn] at harmed ⊢
      have hkept : ¬s.dropsDeep n = true := fun hd => by
        rw [if_pos hd] at harmed
        exact absurd harmed (by decide)
      rw [if_neg hkept] at harmed ⊢
      unfold State.dropsDeep at hkept
      simp only [harmed, Bool.true_and, Bool.or_eq_true, decide_eq_true_eq, Bool.not_eq_true', not_or, Bool.not_eq_false] at hkept
      exact ⟨by omega, hkept.2, rfl⟩
    · rw [hlaunch n (by omega), if_neg]
      unfold State.dropsDeep
      simp [hkeep]
      omega
  · exact execGraceExpiry_refuses hs hq hr hreq
  · exact ⟨_, execGraceExpiry_off hs hq hr hreq, (s.moveTo _).cold_off⟩
  · obtain ⟨t, ht, h⟩ := execWakePin_wakes s he hsl
    exact ⟨t, ht, toWakes h⟩
  · refine ⟨s.wakeAlso 1, ?_, s.wakeAlso_fields⟩
    show execWakePin s = _
    unfold execWakePin
    rw [if_pos he, State.wakeEvent_joins hj]
  · obtain ⟨t, u, ht, h, rfl⟩ := execSelectFallWake_wakes p s he hc hst
    obtain ⟨hst', hat, hfirst, hsrc, hfrom, hvalid, hovr, hcnt, hticks, hmem, hctx⟩ := toWakes h
    have hport : (u.setFld PWR_WAKE_LAST.PORT p.val).fld PWR_WAKE_LAST.PORT = p.val := by
      rw [State.fld_setFld _ _ _ (by decide)]
      exact Nat.mod_eq_of_lt p.isLt
    refine ⟨_, ht, ⟨?_, ?_, ?_, ?_, ?_, ?_, ?_, ?_, ?_, ?_, ?_⟩, ?_, ?_⟩ <;>
      simp (disch := decide) only [State.fld_of_regs (State.setPort_regs _ _ _), State.on_of_regs (State.setPort_regs _ _ _),
        State.fld_setFld_other, State.on_setFld_other, State.setPort_pwr, State.setFld_pwr, State.setPort_mem, State.setFld_mem,
        State.setPort_ctx, State.setFld_ctx, State.port_setPort_self, hst', hat, hfirst, hsrc, hfrom, hvalid, hovr, hcnt, hticks,
        hmem, hctx, hport]
  · obtain ⟨hcore, hrings, hmem, hctx, htwo, hthree⟩ := State.coreReady_ran (s := s.moveTo (s.pwr.wakeAt + usFine 200)) hst hb hup hmsg
    exact ⟨_, execWakeCoreReady_wakes hc hr hst, hcore, hcore, hrings, hmem, hctx, htwo, hthree⟩
  · exact ⟨_, execWakeCoreReady_starts hc hr hst, (s.moveTo _).coreStart_ran⟩

end Sys2Proof.Machine

/-! The loss of XO32 by a sleeping device (R37, R301, R310). -/

namespace Sys2Proof.Machine

/-- A device in Sleep whose CMC stands as locked although CORE_BYP keeps it from running; no fault has been recorded and no
port takes fault events. No run of the model comes to it: Sleep is entered with CMC off (Table 16-3). -/
def lockedBypassed : State :=
  { State.reset with
    regs := [(SYS_FAULT.off, 0#32), (CLK_CTRL.off, 0x10#32)]
    pwr := { State.reset.pwr with st := .sleep }
    cmc := { State.reset.cmc with st := 5 } }

/-- CMC's state in the state that a command answers with. -/
def cmcAfter : Host.Outcome State Fault Refusal → Nat
  | .next t => t.cmc.st
  | _ => 1

theorem lockedBypassed_absent : cmcAfter (exec .xo32Absent lockedBypassed) = 0 := by decide +kernel

/-- Refutes O46: XO32_ABSENT wakes a device that sleeps, and the wake sequence's first step then gives CMC the state that
CORE_BYP lets it have. For a state in Sleep with CMC locked and CORE_BYP set, CMC is off afterwards (0) and does not wait
for its reference (1), as the clause on the loss of CMC's lock has it for every power state. The clause would hold of a
device that does not sleep. -/
theorem not_counterTemperatureAndSelfTrim : ¬ Obligations.CounterTemperatureAndSelfTrim := by
  unfold Obligations.CounterTemperatureAndSelfTrim
  rintro ⟨-, -, -, -, habsent, -⟩
  obtain ⟨t, ht, -, -, -, -, hlog, -⟩ := habsent lockedBypassed (by decide) (by decide) rfl
  obtain ⟨-, -, -, hlost⟩ := hlog (by decide +kernel) (by decide +kernel)
  obtain ⟨-, -, hwaits⟩ := hlost ⟨rfl, fun hsubst => absurd hsubst (by decide +kernel)⟩
  have hoff : t.cmc.st = 0 := by
    have h := lockedBypassed_absent
    rwa [ht] at h
  omega

end Sys2Proof.Machine

/-! The loss of CMR's lock with a transmission on the air (R64, R125). -/

namespace Sys2Proof.Machine

/-! What a fault record leaves of the registers, with no port taking FAULT events. -/

theorem State.reg_faultPut_ne (s : State) (m : Nat) (f : FaultRec) (o : Nat) (h : o ≠ MEM_BANK_CFG.off) :
    (s.faultPut m f).reg o = s.reg o := by
  unfold State.faultPut
  dsimp only
  have hold (t : State) (e : Nat × List Byte) : (t.devWrite e.1 e.2).reg o = t.reg o := State.reg_devWrite_ne t e.1 e.2 o h
  refine (State.foldl_unseen (g := fun t => t.reg o) hold _ _).trans ?_
  exact (State.reg_devWrite_ne _ _ _ _ h).trans rfl

theorem State.fld_faultPut (s : State) (m : Nat) (f : FaultRec) (g : Fld) (h : g.off ≠ MEM_BANK_CFG.off) :
    (s.faultPut m f).fld g = s.fld g := by
  unfold State.fld
  rw [State.reg_faultPut_ne _ _ _ _ h]

theorem State.faultEvents_quiet {s : State} (h : s.fld SYS_FAULT.EV = 0) (f : FaultRec) (m k : Nat) :
    s.faultEvents f m k = s := by
  simp [State.faultEvents, h]

/-- With SYS_FAULT.EV = 0 a record writes no register but SYS_FAULT, SYS_FAULT_LOG and the injection register. -/
theorem State.reg_fault_quiet {s : State} (hev : s.fld SYS_FAULT.EV = 0) (f : FaultRec) {o : Nat} (h8 : o ≠ SYS_FAULT.off)
    (hc : o ≠ SYS_FAULT_LOG.off) (hm : o ≠ MEM_BANK_CFG.off) : (s.fault f).reg o = s.reg o := by
  have hput : (s.faultPut (s.faultAfter f) f).fld SYS_FAULT.EV = 0 := by
    rw [State.fld_faultPut _ _ _ _ (by decide), hev]
  have hhead : o ≠ SYS_FAULT_LOG.HEAD.off := hc
  have hwrap : o ≠ SYS_FAULT_LOG.WRAP.off := hc
  have htotal : o ≠ SYS_FAULT_LOG.TOTAL.off := hc
  have hflag : o ≠ SYS_FAULT.FAULT.off := h8
  have hcnt : o ≠ SYS_FAULT.FAULT_CNT.off := h8
  have hkind : o ≠ SYS_FAULT.LAST_KIND.off := h8
  simp only [State.fault]
  split
  · rfl
  · rw [State.faultEvents_quiet]
    · split <;> split <;>
        simp (disch := assumption) only [State.raise, State.incSat, State.incMod, State.reg_setFld_ne, State.reg_faultPut_ne]
    · split <;> split <;>
        simp (disch := decide) only [State.raise, State.incSat, State.incMod, State.fld_setFld_other, hput]

/-! The one operation on the air is cut. -/

theorem State.opsLost_one {s : State} {id : Nat} {o : RadioOp} (hops : s.ops = [(id, some o)]) (hends : s.radioEnds o = true) :
    s.opsLost = s.txCut id Status.radioLost := by
  have hop : s.op id = some o := by simp [State.op, hops, Tab.get]
  simp [State.opsLost, State.opIds, hops, hop, hends]

theorem State.radioLost_one {s : State} (hl : s.laneList = []) (hr : s.rslotList = []) (hq : s.reqs = []) {id : Nat} {o : RadioOp}
    (hops : s.ops = [(id, some o)]) (hends : s.radioEnds o = true) : s.radioLost = s.txCut id Status.radioLost := by
  unfold State.radioLost
  rw [hl, List.foldl_nil]
  dsimp only
  rw [hr, List.foldl_nil, hq, List.foldl_nil]
  have hsame : ({ s with reqs := [] } : State) = s := by rw [← hq]
  rw [hsame, State.opsLost_one hops hends]

/-- A transmission cut short: PA_EN falls and the switches return so many µs after the cut, each rounded up from the cut. -/
theorem State.op_txCut_onAir {s : State} {id : Nat} {o : RadioOp} (hop : s.op id = some o) (hp : o.phase = .onAir) (status : Nat) :
    ∃ y, (s.txCut id status).op id = some y ∧
      y.fallAt = s.stamp + usFine (min s.rampUs 16 + s.fld RFA_EXT_CTL.PA_LAG) ∧
      y.backAt = s.stamp + usFine (min s.rampUs 16 + s.fld RFA_EXT_CTL.PA_LAG + s.fld RFA_EXT_CTL.SW_LAG) := by
  have hcut : (o.phase == .onAir) = true := by simp [hp]
  simp only [State.txCut, hop, hcut, if_true, State.txTail, State.op_setOp_self]
  exact ⟨_, rfl, rfl, rfl⟩

theorem State.op_muteOne (s : State) (x : Mult) (id : Nat) :
    (s.muteOne x).op id = (if x == .cmr && (s.mult x).st == 5 then s.radioLost else s).op id := by
  have hkeep (t : State) : (t.keepSearch x).op id = t.op id := by
    unfold State.keepSearch
    split
    · simp [State.op]
    · rfl
  have hset (t : State) (m : MultSt) : (t.setMult x m).op id = t.op id := by cases x <;> rfl
  simp only [State.muteOne]
  exact (hset _ _).trans (hkeep _)

theorem State.op_fault (s : State) (f : FaultRec) (id : Nat) : (s.fault f).op id = s.op id :=
  ((State.Books.refl s).fault f).unseen (g := fun t => t.op id) fun _ _ _ _ _ _ _ => rfl

theorem State.op_setFld (s : State) (f : Fld) (v id : Nat) : (s.setFld f v).op id = s.op id := rfl

theorem State.op_lossOne_cmc (s : State) (id : Nat) : (s.lossOne .cmc).op id = s.op id := by
  have hmute (t : State) : (t.muteOne .cmc).op id = t.op id := by
    rw [State.op_muteOne, if_neg (by simp)]
  have hraise (t : State) (f c : Fld) : (t.raise f c).op id = t.op id :=
    State.raise_unseen (g := fun t => t.op id) (fun _ _ => rfl) t f c
  by_cases hrun : (s.mult .cmc).st = 5 ∨ (s.mult .cmc).st = 2
  · simp only [State.lossOne, hrun, if_true, State.noSubst, beq_self_eq_true]
    rw [State.op_setFld, hmute]
    split
    · rw [State.op_fault, hraise]
    · rw [hraise]
  · simp only [State.lossOne, hrun, if_false]

theorem State.op_cmcFollows (s : State) (id : Nat) : s.cmcFollows.op id = s.op id := by
  unfold State.cmcFollows
  split
  · exact s.op_lossOne_cmc id
  · rfl

/-- The radio's state ahead of a loss of CMR's lock: one operation, on the air, and no lane or slot. -/
structure State.OnAir (s : State) (id : Nat) (o : RadioOp) : Prop where
  lanes  : s.lanes = []
  rslots : s.rslots = []
  reqs   : s.reqs = []
  ops    : s.ops = [(id, some o)]
  kind   : o.kind = .txf
  phase  : o.phase = .onAir
  cmr    : s.cmr.st = 5

theorem State.OnAir.mute_cuts {s : State} {id : Nat} {o : RadioOp} (h : s.OnAir id o) :
    ∃ y, (s.mute .cmr).op id = some y ∧
      y.fallAt = s.stamp + usFine (min s.rampUs 16 + s.fld RFA_EXT_CTL.PA_LAG) ∧
      y.backAt = s.stamp + usFine (min s.rampUs 16 + s.fld RFA_EXT_CTL.PA_LAG + s.fld RFA_EXT_CTL.SW_LAG) := by
  have hop : s.op id = some o := by simp [State.op, h.ops, Tab.get]
  have hends : s.radioEnds o = true := by simp [State.radioEnds, h.kind, h.phase, OpKind.sends]
  have hl : s.laneList = [] := by simp [State.laneList, h.lanes]
  have hr : s.rslotList = [] := by simp [State.rslotList, h.rslots]
  have hst : ((s.mult .cmr).st == 5) = true := by simp [State.mult, h.cmr]
  have hm : (s.mute .cmr).op id = (s.txCut id Status.radioLost).op id := by
    simp only [State.mute, beq_self_eq_true, if_true, State.op_cmcFollows, State.op_muteOne, hst, Bool.and_true,
      State.radioLost_one hl hr h.reqs h.ops hends]
  rw [hm]
  exact State.op_txCut_onAir hop h.phase _

theorem State.Books.cmrFault (s : State) (kind n : Nat) : s.Books (s.cmrFault kind n) := by
  unfold State.cmrFault
  dsimp only
  split
  · exact (State.Books.refl s).fault _
  · exact ((State.Books.refl s).fault _).trans rfl

theorem State.reg_cmrFault_quiet {s : State} (hev : s.fld SYS_FAULT.EV = 0) (kind n : Nat) {o : Nat} (h8 : o ≠ SYS_FAULT.off)
    (hc : o ≠ SYS_FAULT_LOG.off) (hm : o ≠ MEM_BANK_CFG.off) : (s.cmrFault kind n).reg o = s.reg o := by
  unfold State.cmrFault
  dsimp only
  split
  · exact State.reg_fault_quiet hev _ h8 hc hm
  · exact (State.reg_of_regs (by exact rfl) o).trans (State.reg_fault_quiet hev _ h8 hc hm)

/-- The state in which a loss of CMR's lock by an error `e` mutes CMR. -/
def State.cmrLost (s : State) (e : Nat) : State :=
  ((s.touch.draw.raise (CLK_CMn_STAT.LOL 1) (lossFld .cmr).1).setFld (CLK_CMn_STAT.ERR 1) e).cmrFault 5 s.touch.radioBound

/-- The free difference of CMR's count from N, at a loss of lock, as CLK_CMn_STAT.ERR codes it (R310). -/
def lossErr (r : Nat) : Nat := twos 8 (if r % 2 = 0 then 3 + (r / 2 : Nat) % 125 else -3 - (r / 2 : Nat) % 125)

theorem State.exec_lossOfLock_cmr {s : State} (h : s.cmr.st = 5) :
    exec (.lossOfLock .cmr) s = .next ((s.cmrLost (lossErr (Config.unmeasured s.touch.free))).mute .cmr) := by
  have hsubst (t : State) : t.noSubst .cmr = t := by simp [State.noSubst]
  have hrun : (s.mult .cmr).st = 5 := h
  show execLossOfLock .cmr s = _
  unfold execLossOfLock
  rw [if_pos hrun]
  dsimp only
  rw [hsubst]
  rfl

theorem State.cmrLost_unseen {β : Type} {g : State → β}
    (hg : ∀ t r m k c p o f, g { t with regs := r, mem := m, marks := k, scrub := c, ports := p, cmrOpen := o, free := f } = g t)
    (s : State) (e : Nat) : g (s.cmrLost e) = g s.touch := by
  unfold State.cmrLost
  rw [(State.Books.cmrFault _ _ _).unseen fun t r m k c p o => hg t r m k c p o t.free]
  rw [State.setFld_unseen fun t r => hg t r t.mem t.marks t.scrub t.ports t.cmrOpen t.free]
  rw [State.raise_unseen fun t r => hg t r t.mem t.marks t.scrub t.ports t.cmrOpen t.free]
  exact hg s.touch s.touch.regs s.touch.mem s.touch.marks s.touch.scrub s.touch.ports s.touch.cmrOpen _

theorem State.reg_cmrLost_quiet {s : State} (hev : s.fld SYS_FAULT.EV = 0) (e : Nat) {o : Nat} (h : 0x6000 ≤ o ∧ o < 0xE000) :
    (s.cmrLost e).reg o = s.reg o := by
  obtain ⟨hlo, hhi⟩ := h
  have hstat : o ≠ (CLK_CMn_STAT.LOL 1).off := by show o ≠ 0x1014; omega
  have hcnt : o ≠ (lossFld .cmr).1.off := by show o ≠ CLK_LOSS_CNT.off; unfold CLK_LOSS_CNT.off; omega
  have hquiet : ((s.touch.draw.raise (CLK_CMn_STAT.LOL 1) (lossFld .cmr).1).setFld (CLK_CMn_STAT.ERR 1) e).fld SYS_FAULT.EV = 0 := by
    rw [State.fld_setFld_other _ _ _ _ (by decide), State.fld_raise_other (by decide) (by decide)]
    exact (State.fld_of_regs (s := s) (s.touch.draw_regs.trans s.touch_regs) _).trans hev
  unfold State.cmrLost
  rw [State.reg_cmrFault_quiet hquiet _ _ (by show o ≠ 0x8; omega) (by show o ≠ 0xC; omega) (by show o ≠ 0xE000; omega)]
  rw [State.reg_setFld_ne _ _ _ _ (show o ≠ (CLK_CMn_STAT.ERR 1).off from hstat)]
  unfold State.raise State.incSat
  rw [State.reg_setFld_ne _ _ _ _ hcnt, State.reg_setFld_ne _ _ _ _ hstat]
  exact State.reg_of_regs (s := s) (s.touch.draw_regs.trans s.touch_regs) _

theorem State.OnAir.cmrLost {s : State} {id : Nat} {o : RadioOp} (h : s.OnAir id o) (e : Nat) : (s.cmrLost e).OnAir id o where
  lanes := (State.cmrLost_unseen (g := State.lanes) (fun _ _ _ _ _ _ _ _ => rfl) s e).trans (s.touch_lanes.trans h.lanes)
  rslots := (State.cmrLost_unseen (g := State.rslots) (fun _ _ _ _ _ _ _ _ => rfl) s e).trans (s.touch_rslots.trans h.rslots)
  reqs := (State.cmrLost_unseen (g := State.reqs) (fun _ _ _ _ _ _ _ _ => rfl) s e).trans (s.touch_reqs.trans h.reqs)
  ops := (State.cmrLost_unseen (g := State.ops) (fun _ _ _ _ _ _ _ _ => rfl) s e).trans (s.touch_ops.trans h.ops)
  kind := h.kind
  phase := h.phase
  cmr := ((State.cmrLost_unseen (g := fun t => t.cmr.st) (fun _ _ _ _ _ _ _ _ => rfl) s e).trans
    (congrArg MultSt.st s.touch_cmr)).trans h.cmr

/-- LOSS_OF_LOCK of CMR with a transmission on the air: both ends of its tail are rounded from the loss. -/
theorem State.OnAir.lossOfLock_cuts {s : State} {id : Nat} {o : RadioOp} (h : s.OnAir id o) (hev : s.fld SYS_FAULT.EV = 0) :
    ∃ t y, exec (.lossOfLock .cmr) s = .next t ∧ t.op id = some y ∧
      y.fallAt = s.touch.stamp + usFine (min s.rampUs 16 + s.fld RFA_EXT_CTL.PA_LAG) ∧
      y.backAt = s.touch.stamp + usFine (min s.rampUs 16 + s.fld RFA_EXT_CTL.PA_LAG + s.fld RFA_EXT_CTL.SW_LAG) := by
  obtain ⟨e, he⟩ : ∃ e, e = lossErr (Config.unmeasured s.touch.free) := ⟨_, rfl⟩
  obtain ⟨y, hy, hfall, hback⟩ := (h.cmrLost e).mute_cuts
  have hstamp : (s.cmrLost e).stamp = s.touch.stamp := State.cmrLost_unseen (g := State.stamp) (fun _ _ _ _ _ _ _ _ => rfl) s e
  have hramp : (s.cmrLost e).rampUs = s.rampUs := by
    unfold State.rampUs State.fld
    rw [State.reg_cmrLost_quiet hev e (by decide)]
  have hlag : (s.cmrLost e).fld RFA_EXT_CTL.PA_LAG = s.fld RFA_EXT_CTL.PA_LAG := by
    unfold State.fld
    rw [State.reg_cmrLost_quiet hev e (by decide)]
  have hswitch : (s.cmrLost e).fld RFA_EXT_CTL.SW_LAG = s.fld RFA_EXT_CTL.SW_LAG := by
    unfold State.fld
    rw [State.reg_cmrLost_quiet hev e (by decide)]
  rw [hstamp, hramp, hlag] at hfall
  rw [hstamp, hramp, hlag, hswitch] at hback
  exact ⟨_, y, he ▸ State.exec_lossOfLock_cmr h.cmr, hy, hfall, hback⟩

/-- A TXF of context 0 whose launch instant was stamp 0. -/
def txfOnAir : RadioOp := { RadioOp.new .txf (some 0) 1 0 ⟨0, 0, 0⟩ with phase := .onAir, air := 1000 }

/-- A device in Run, with its reset settings but FAULT events off, CMR locked and the TXF on the air. -/
def sending : State :=
  { State.reset with
    regs := [(SYS_FAULT.off, 0#32)]
    pwr := { State.reset.pwr with st := .run, core := true }
    cmr := { State.reset.cmr with st := 5 }
    ops := [(0, some txfOnAir)]
    ctx := [(0, { Ctx.empty with st := .parked .radio, susp := .radio 0 })] }

theorem sending_onAir : sending.OnAir 0 txfOnAir := ⟨rfl, rfl, rfl, rfl, rfl, rfl, rfl⟩

/-- PA_EN falls 10 µs and the switches return 12 µs after the loss, in fine units rounded up from it. -/
theorem sending_tail : usFine (min sending.rampUs 16 + sending.fld RFA_EXT_CTL.PA_LAG) = 1967 ∧
    usFine (min sending.rampUs 16 + sending.fld RFA_EXT_CTL.PA_LAG + sending.fld RFA_EXT_CTL.SW_LAG) = 2360 ∧
    usFine (sending.fld RFA_EXT_CTL.SW_LAG) = 394 := by
  decide +kernel

/-- Refutes O56: with a transmission on the air at the reset settings, LOSS_OF_LOCK of CMR sets the fall of PA_EN to 10 µs after
the loss (1967 fine units, rounded up from 1966.08) and the switches' return to 12 µs after it (2360, from 2359.296). The clause
takes the return from the fall that is already rounded and rounds SW_LAG on its own: 1967 + 394 = 2361. -/
theorem not_clockMultipliersLockAndLose : ¬ Obligations.ClockMultipliersLockAndLose := by
  unfold Obligations.ClockMultipliersLockAndLose
  intro h
  obtain ⟨-, -, -, -, hcut, -⟩ := h .cmr sending
  obtain ⟨t, ht, -, -, -, ⟨y, hy, -, -, -, hrounded⟩, -⟩ :=
    hcut 0 txfOnAir 0 rfl rfl ⟨rfl, rfl, rfl⟩ rfl rfl rfl rfl rfl (by decide) (by decide +kernel)
  obtain ⟨t', y', ht', hy', hfall, hback⟩ := sending_onAir.lossOfLock_cuts (by decide +kernel)
  have htt : t' = t := by
    rw [ht] at ht'
    injection ht' with h1
    exact h1.symm
  have hyy : y' = y := by
    rw [htt, hy] at hy'
    exact (Option.some.inj hy').symm
  obtain ⟨hten, htwelve, htwo⟩ := sending_tail
  rw [hyy, hten] at hfall
  rw [hyy, htwelve] at hback
  rw [htwo] at hrounded
  omega

end Sys2Proof.Machine

/-! The end of a radio operation that a context waits for (R287, R291, Table 6-3). -/

namespace Sys2Proof.Machine

/-! TXP_STAT at the end of a transmission. -/

theorem State.txpEnd_unseen {β : Type} {g : State → β} (hg : ∀ t r, g { t with regs := r } = g t) (s : State) (status : Nat) :
    g (s.txpEnd status) = g s := by
  simp only [State.txpEnd]
  split <;> split <;> simp only [State.raise_unseen hg, State.setFld_unseen hg]

/-- The fields of TXP_STAT that the end of a transmission writes. -/
def txpEndFlds : List Fld := [TXP_STAT.LAST, TXP_STAT.LATE, TXP_STAT.LATE_CNT, TXP_STAT.CBUSY, TXP_STAT.CBUSY_CNT]

theorem State.fld_txpEnd_other (s : State) (status : Nat) {f : Fld} (hf : ∀ g ∈ txpEndFlds, g.apart f = true) :
    (s.txpEnd status).fld f = s.fld f := by
  simp only [txpEndFlds, List.mem_cons, List.not_mem_nil, or_false, forall_eq_or_imp, forall_eq] at hf
  obtain ⟨hlast, hlate, hlateCnt, hbusy, hbusyCnt⟩ := hf
  simp only [State.txpEnd]
  split <;> split <;>
    simp only [State.fld_raise_other hlate hlateCnt, State.fld_raise_other hbusy hbusyCnt, State.fld_setFld_other _ _ _ _ hlast]

theorem State.last_txpEnd (s : State) {status : Nat} (h : status < 256) : (s.txpEnd status).fld TXP_STAT.LAST = status := by
  have hset : (s.setFld TXP_STAT.LAST status).fld TXP_STAT.LAST = status := by
    rw [State.fld_setFld _ _ _ (by decide)]
    exact Nat.mod_eq_of_lt h
  have hlate (t : State) : (t.raise TXP_STAT.LATE TXP_STAT.LATE_CNT).fld TXP_STAT.LAST = t.fld TXP_STAT.LAST :=
    State.fld_raise_other (by decide) (by decide)
  have hbusy (t : State) : (t.raise TXP_STAT.CBUSY TXP_STAT.CBUSY_CNT).fld TXP_STAT.LAST = t.fld TXP_STAT.LAST :=
    State.fld_raise_other (by decide) (by decide)
  simp only [State.txpEnd]
  split <;> split <;> simp only [hlate, hbusy, hset]

theorem State.late_txpEnd (s : State) {status : Nat} (h : status = Status.late ∨ status = Status.lateSent) :
    (s.txpEnd status).on TXP_STAT.LATE = true := by
  simp only [State.txpEnd, h, if_true]
  rw [if_neg (by rcases h with rfl | rfl <;> decide)]
  exact State.on_raise (by decide) (by decide)

theorem State.cbusy_txpEnd (s : State) : (s.txpEnd Status.channelBusy).on TXP_STAT.CBUSY = true := by
  simp only [State.txpEnd, if_true]
  exact State.on_raise (by decide) (by decide)

/-! The one operation of a state. -/

/-- The state's only operation is `o`, which no launcher started and which context `k` waits for. -/
structure State.Sole (s : State) (id : Nat) (o : RadioOp) (k : Fin 64) : Prop where
  ops  : s.ops = [(id, some o)]
  ctx  : o.ctx = some k
  lnch : o.lnch = none
  susp : (s.cx k.val).susp = .radio id

theorem Tab.put_single {α : Type} (k : Nat) (v w : α) : Tab.put k v [(k, w)] = [(k, v)] := by simp [Tab.put]

theorem Tab.drop_single {α : Type} (k : Nat) (w : α) : Tab.drop k [(k, w)] = [] := by simp [Tab.drop]

theorem State.ops_setOp_single {s : State} {id : Nat} {o : RadioOp} (h : s.ops = [(id, some o)]) (x : RadioOp) :
    (s.setOp id x).ops = [(id, some x)] := by
  unfold State.setOp Tab.set
  rw [if_neg (by simp), h]
  exact Tab.put_single _ _ _

theorem State.ops_dropOp_single {s : State} {id : Nat} {o : RadioOp} (h : s.ops = [(id, some o)]) : (s.dropOp id).ops = [] := by
  unfold State.dropOp
  rw [h]
  exact Tab.drop_single _ _

theorem State.Sole.op {s : State} {id : Nat} {o : RadioOp} {k : Fin 64} (h : s.Sole id o k) : s.op id = some o := by
  simp [State.op, h.ops, Tab.get]

theorem State.Sole.of_same {s t : State} {id : Nat} {o : RadioOp} {k : Fin 64} (h : s.Sole id o k) (ho : t.ops = s.ops)
    (hc : t.ctx = s.ctx) : t.Sole id o k := by
  refine ⟨ho.trans h.ops, h.ctx, h.lnch, ?_⟩
  unfold State.cx
  rw [hc]
  exact h.susp

theorem State.Sole.setOp {s : State} {id : Nat} {o : RadioOp} {k : Fin 64} (h : s.Sole id o k) {x : RadioOp} (hc : x.ctx = o.ctx)
    (hl : x.lnch = o.lnch) : (s.setOp id x).Sole id x k :=
  ⟨State.ops_setOp_single h.ops x, hc.trans h.ctx, hl.trans h.lnch, h.susp⟩

/-! The context told. -/

theorem State.finish_unseen {β : Type} {g : State → β} (hg : ∀ t c p, g { t with ctx := c, pwr := p } = g t) (s : State)
    (k d w : Nat) : g (s.finish k d w) = g s := by
  simp only [State.finish]
  rw [State.leaveIdle_unseen fun t p => hg t t.ctx p]
  exact hg s _ s.pwr

theorem State.cx_finish (s : State) (k d w : Nat) : (s.finish k d w).cx k =
    { (s.cx k).wr d (BitVec.ofNat 32 w) with st := .ready, susp := .none, z := w % 256 == 0, since := s.stamp } := by
  simp only [State.finish]
  rw [State.leaveIdle_unseen (g := fun t => t.cx k) (fun _ _ => rfl)]
  simp

theorem Ctx.rd_wr_self (c : Ctx) {d : Nat} (hd : d ≠ 0) (w : Word) : (c.wr d w).rd d = w := by
  unfold Ctx.wr Ctx.rd
  rw [if_neg hd, if_neg hd]
  exact Tab.get_set_self _ _ _ _

theorem Ctx.rdT_wr (c : Ctx) (d : Nat) (w : Word) (i : Nat) : (c.wr d w).rdT i = c.rdT i := by
  unfold Ctx.wr
  split <;> rfl

theorem Ctx.rdT_wrT_self (c : Ctx) (i : Nat) (w : BitVec 64) : (c.wrT i w).rdT i = w := Tab.get_set_self _ _ _ _

theorem State.radioWord_lt (s : State) {status : Nat} (h : status < 256) (late : Bool) (extra : Nat) :
    s.radioWord status late extra < 2 ^ 32 := by
  have hm := Nat.mod_lt extra (show 0 < 2 ^ 16 by decide)
  unfold State.radioWord
  cases late <;> cases s.qual <;> simp only [b2n] <;> simp <;> omega

/-- What the end of the one operation leaves: the context ready with the status word and, after a TXF that went out, the launch
instant; TXP_STAT after a transmission; nothing else but the claims. -/
structure State.Ended (s : State) (o : RadioOp) (k : Fin 64) (status extra : Nat) (t : State) : Prop where
  ops    : t.ops = []
  ready  : (t.cx k.val).st = .ready
  word   : o.d ≠ 0 → ((t.cx k.val).rd o.d).toNat = s.radioWord status (o.late && o.acted) extra
  launch : o.kind = .txf → status = Status.ok ∨ status = Status.lateSent ∨ status = Status.noAck →
    (t.cx k.val).rdT o.ts = BitVec.ofNat 64 (stampWord o.t)
  last   : o.kind.sends = true → t.fld TXP_STAT.LAST = status
  late   : o.kind.sends = true → status = Status.late ∨ status = Status.lateSent → t.on TXP_STAT.LATE = true
  cbusy  : o.kind.sends = true → status = Status.channelBusy → t.on TXP_STAT.CBUSY = true
  fld    : ∀ f, (∀ g ∈ txpEndFlds, g.apart f = true) → t.fld f = s.fld f
  unseen : ∀ {β : Type} (g : State → β),
    (∀ t r op c p w, g { t with regs := r, ops := op, ctx := c, pwr := p, well := w } = g t) → g t = g s

/-- The parked context takes its status word, and a TXF's the launch instant. -/
theorem State.opReport_eq {s : State} {id : Nat} {o : RadioOp} {k : Fin 64} (hc : o.ctx = some k)
    (hs : (s.cx k.val).susp = .radio id) (status extra : Nat) :
    ∃ u : State, (∀ {β : Type} (g : State → β), (∀ t c, g { t with ctx := c } = g t) → g u = g s) ∧
      (o.kind = .txf → status = Status.ok ∨ status = Status.lateSent ∨ status = Status.noAck →
        (u.cx k.val).rdT o.ts = BitVec.ofNat 64 (stampWord o.t)) ∧
      s.opReport id o status extra = u.finish k.val o.d (u.radioWord status (o.late && o.acted) extra) := by
  have hsusp : ((s.cx k.val).susp == Susp.radio id) = true := by simp [hs]
  simp only [State.opReport, hc, hsusp, if_true]
  split
  · refine ⟨s.setCx k.val ((s.cx k.val).wrT o.ts (BitVec.ofNat 64 (stampWord o.t))), fun g hg => hg s _, fun _ _ => ?_, rfl⟩
    rw [State.cx_setCx_self]
    exact Ctx.rdT_wrT_self _ _ _
  · rename_i hno
    refine ⟨s, fun _ _ => rfl, fun hkind hst => absurd ?_ hno, rfl⟩
    simp only [hkind, beq_self_eq_true, Bool.true_and, Bool.or_eq_true, beq_iff_eq]
    exact or_assoc.2 hst

theorem State.claimLapse_idle {s : State} {o : RadioOp} (h : o.phase ≠ .claim) (id : Nat) : s.claimLapse id o = s := by
  unfold State.claimLapse
  rw [if_neg (by simpa using h)]

/-- The outcome of the one operation, past its claims (R287, Table 6-3). -/
theorem State.Sole.opClose {s : State} {id : Nat} {o : RadioOp} {k : Fin 64} (h : s.Sole id o k) (hb : o.kind ≠ .beacon)
    (hc : o.phase ≠ .claim) {status : Nat} (hst : status < 256) (extra : Nat) :
    s.Ended o k status extra (s.opClose id o status extra) ∧ (s.opClose id o status extra).well = s.well := by
  obtain ⟨v, hv⟩ : ∃ v, v = if o.kind.sends then (s.dropOp id).txpEnd status else s.dropOp id := ⟨_, rfl⟩
  have hseen : ∀ {β : Type} (g : State → β), (∀ t r op, g { t with regs := r, ops := op } = g t) → g v = g s := by
    intro β g hg
    have hdrop : g (s.dropOp id) = g s := hg s s.regs _
    rw [hv]
    split
    · exact (State.txpEnd_unseen (fun t r => hg t r t.ops) _ _).trans hdrop
    · exact hdrop
  have hops : v.ops = [] := by
    have hdrop := State.ops_dropOp_single h.ops
    rw [hv]
    split
    · exact (State.txpEnd_unseen (g := State.ops) (fun _ _ => rfl) _ _).trans hdrop
    · exact hdrop
  have hvsusp : (v.cx k.val).susp = .radio id := (hseen (fun t => (t.cx k.val).susp) fun _ _ _ => rfl).trans h.susp
  obtain ⟨u, hu, hlaunch, hreport⟩ := State.opReport_eq h.ctx hvsusp status extra
  have hclose : s.opClose id o status extra = v.opReport id o status extra := by
    have hbeacon : (o.kind == OpKind.beacon) = false := by simpa using hb
    simp only [State.opClose, State.claimLapse_idle hc, h.lnch, hbeacon, Bool.false_eq_true, if_false, hv]
  have hqual : u.radioWord status (o.late && o.acted) extra = s.radioWord status (o.late && o.acted) extra :=
    (hu (fun t => t.radioWord status (o.late && o.acted) extra) fun _ _ => rfl).trans
      (hseen (fun t => t.radioWord status (o.late && o.acted) extra) fun _ _ _ => rfl)
  obtain ⟨w, hw⟩ : ∃ w, w = u.radioWord status (o.late && o.acted) extra := ⟨_, rfl⟩
  have hcx := State.cx_finish u k.val o.d w
  have hregs : (u.finish k.val o.d w).regs = v.regs :=
    (State.finish_unseen (g := State.regs) (fun _ _ _ => rfl) u _ _ _).trans (hu State.regs fun _ _ => rfl)
  rw [hclose, hreport, ← hw]
  refine ⟨⟨?_, ?_, fun hd => ?_, fun hkind hout => ?_, fun hs => ?_, fun hs hlate => ?_, fun hs hbusy => ?_, fun f hf => ?_, fun g hg => ?_⟩, ?_⟩
  · exact (State.finish_unseen (g := State.ops) (fun _ _ _ => rfl) u _ _ _).trans ((hu State.ops fun _ _ => rfl).trans hops)
  · rw [hcx]
  · have hlt : w < 2 ^ 32 := hw ▸ State.radioWord_lt u hst _ _
    have hrd : ((u.finish k.val o.d w).cx k.val).rd o.d = BitVec.ofNat 32 w := by
      rw [hcx]
      exact Ctx.rd_wr_self _ hd _
    rw [hrd, BitVec.toNat_ofNat, Nat.mod_eq_of_lt hlt, hw, hqual]
  · rw [hcx]
    exact (Ctx.rdT_wr _ _ _ _).trans (hlaunch hkind hout)
  · rw [State.fld_of_regs hregs, hv, if_pos hs]
    exact State.last_txpEnd _ hst
  · rw [State.on_of_regs hregs, hv, if_pos hs]
    exact State.late_txpEnd _ hlate
  · rw [State.on_of_regs hregs, hv, if_pos hs, hbusy]
    exact State.cbusy_txpEnd _
  · rw [State.fld_of_regs hregs, hv]
    split
    · exact State.fld_txpEnd_other _ _ hf
    · rfl
  · rw [State.finish_unseen (g := g) fun t c p => hg t t.regs t.ops c p t.well]
    rw [hu g fun t c => hg t t.regs t.ops c t.pwr t.well]
    exact hseen g fun t r op => hg t r op t.ctx t.pwr t.well
  · exact (State.finish_unseen (g := State.well) (fun _ _ _ => rfl) u _ _ _).trans
      ((hu State.well fun _ _ => rfl).trans (hseen State.well fun _ _ _ => rfl))

theorem State.Ended.of_seen {s v t : State} {o : RadioOp} {k : Fin 64} {status extra : Nat} (h : v.Ended o k status extra t)
    (hf : ∀ f, (∀ g ∈ txpEndFlds, g.apart f = true) → v.fld f = s.fld f)
    (hg : ∀ {β : Type} (g : State → β),
      (∀ t r op c p w, g { t with regs := r, ops := op, ctx := c, pwr := p, well := w } = g t) → g v = g s)
    (hq : v.qual = s.qual) : s.Ended o k status extra t where
  ops := h.ops
  ready := h.ready
  word hd := (h.word hd).trans (by
    unfold State.radioWord
    rw [hq])
  launch := h.launch
  last := h.last
  late := h.late
  cbusy := h.cbusy
  fld f hf' := (h.fld f hf').trans (hf f hf')
  unseen g hg' := (h.unseen g hg').trans (hg g hg')

theorem State.holds_withdraw (s : State) (x : Holder) : (s.withdraw x).holds x = false := by
  simp [State.holds, State.withdraw]

theorem State.waits_withdraw (s : State) (x : Holder) : (s.withdraw x).waits x = false := by
  simp [State.waits, State.withdraw]

/-- The one operation ends (R287): its claim of the PA is gone as well. -/
theorem State.Sole.opEnd {s : State} {id : Nat} {o : RadioOp} {k : Fin 64} (h : s.Sole id o k) (hb : o.kind ≠ .beacon)
    (hc : o.phase ≠ .claim) {status : Nat} (hst : status < 256) (extra : Nat) :
    s.Ended o k status extra (s.opEnd id status extra) ∧ (s.opEnd id status extra).holds (.pa id) = false ∧
      (s.opEnd id status extra).waits (.pa id) = false := by
  have heq : s.opEnd id status extra = (s.withdraw (.pa id)).opClose id o status extra := by simp only [State.opEnd, h.op]
  obtain ⟨hend, hwell⟩ := (h.of_same (t := s.withdraw (.pa id)) (by simp) (by simp)).opClose hb hc hst extra
  rw [heq]
  refine ⟨hend.of_seen (fun f _ => State.fld_of_regs (by simp) f) (fun g hg => hg s s.regs s.ops s.ctx s.pwr _) rfl, ?_, ?_⟩
  · unfold State.holds
    rw [hwell]
    exact s.holds_withdraw (.pa id)
  · unfold State.waits
    rw [hwell]
    exact s.waits_withdraw (.pa id)

/-! SYT freed (Table 3-7 step 8). -/

theorem State.txFree_unseen {β : Type} {g : State → β} (hg : ∀ t r n p, g { t with regs := r, pins := n, pwr := p } = g t)
    (s : State) : g s.txFree = g s := by
  unfold State.txFree
  rw [State.leaveIdle_unseen fun t p => hg t t.regs t.pins p, State.setFld_unseen fun t r => hg t r t.pins t.pwr]
  exact hg s s.regs _ s.pwr

/-- SYT is free and the switches receive. -/
def State.Freed (s : State) : Prop :=
  s.on TXP_STAT.ACTIVE = false ∧ s.pins.txrx = false ∧ s.pins.ant0 = false ∧ s.pins.ant1 = false

theorem State.txFree_regs (s : State) : s.txFree.regs = (s.setFld TXP_STAT.ACTIVE 0).regs := by
  unfold State.txFree
  rw [State.leaveIdle_unseen (g := State.regs) fun _ _ => rfl]
  rfl

theorem State.txFree_pins (s : State) : s.txFree.pins = { s.pins with txrx := false, ant0 := false, ant1 := false } := by
  unfold State.txFree
  rw [State.leaveIdle_unseen (g := State.pins) fun _ _ => rfl]
  rfl

theorem State.txFree_freed (s : State) : s.txFree.Freed := by
  refine ⟨?_, ?_, ?_, ?_⟩
  · rw [State.on_of_regs s.txFree_regs]
    exact State.on_setFld_zero _ _ (by decide)
  all_goals rw [s.txFree_pins]

theorem State.fld_txFree (s : State) {f : Fld} (h : TXP_STAT.ACTIVE.apart f = true) : s.txFree.fld f = s.fld f := by
  rw [State.fld_of_regs s.txFree_regs, State.fld_setFld_other _ _ _ _ h]

theorem State.Freed.of_same {s t : State} (h : s.Freed) (hf : t.fld TXP_STAT.ACTIVE = s.fld TXP_STAT.ACTIVE)
    (hp : t.pins = s.pins) : t.Freed := by
  obtain ⟨hact, hrest⟩ := h
  refine ⟨?_, ?_⟩
  · unfold State.on at *
    rw [hf]
    exact hact
  · rw [hp]
    exact hrest

/-! A TXF ends before its last step. -/

theorem State.txEnd_waiting {s : State} {id : Nat} {o : RadioOp} {k : Fin 64} (h : s.Sole id o k) (hk : o.kind = .txf)
    (hh : o.holds = false) (status extra : Nat) : s.txEnd id status extra = s.opEnd id status extra := by
  have ht : o.tailing = false := by
    simp only [RadioOp.holds, RadioOp.launched, Bool.or_eq_false_iff] at hh
    exact hh.2.2
  simp [State.txEnd, h.op, ht, hh, hk]

theorem State.txEnd_granted {s : State} {id : Nat} {o : RadioOp} {k : Fin 64} (h : s.Sole id o k) (hk : o.kind = .txf)
    (hp : o.phase = .grant) (status extra : Nat) : s.txEnd id status extra = s.txFree.opEnd id status extra := by
  have ht : o.tailing = false := by simp [RadioOp.tailing, hp]
  have hh : o.holds = true := by simp [RadioOp.holds, hp]
  simp [State.txEnd, h.op, ht, hh, hk]

end Sys2Proof.Machine

/-! The PA grant and the steps of Table 3-7 after the last symbol (R64, R123, R125, R128, R132, R133). -/

namespace Sys2Proof.Machine

/-! What the steps leave unchanged. -/

theorem State.grantClaim_unseen {β : Type} {g : State → β} (hg : ∀ t r w, g { t with regs := r, well := w } = g t) (s : State)
    (c : Claim) : g (s.grantClaim c) = g s := by
  simp only [State.grantClaim]
  rw [State.setFld_unseen fun t r => hg t r t.well]
  exact hg s s.regs _

theorem State.selfMark_unseen {β : Type} {g : State → β} (hg : ∀ t a b, g { t with palA := a, palB := b } = g t) (s : State) :
    g s.selfMark = g s :=
  hg s _ _

theorem State.selfMark_self (s : State) : s.selfMark.palA.cur.self = true ∧ s.selfMark.palB.cur.self = true := ⟨rfl, rfl⟩

theorem State.paUp_unseen {β : Type} {g : State → β} (hg : ∀ t o n a b, g { t with ops := o, pins := n, palA := a, palB := b } = g t)
    (s : State) (id : Nat) (o : RadioOp) : g (s.paUp id o) = g s := by
  obtain ⟨u, hu⟩ : ∃ u, u = s.setOp id { o with phase := .onAir } := ⟨_, rfl⟩
  have hset : g u = g s := hu ▸ hg s _ s.pins s.palA s.palB
  have hmark : g u.selfMark = g u := State.selfMark_unseen (fun t a b => hg t t.ops t.pins a b) u
  have hup : g (s.paUp id o) = g u.selfMark := by
    simp only [State.paUp, ← hu]
    exact hg u.selfMark u.selfMark.ops _ u.selfMark.palA u.selfMark.palB
  rw [hup, hmark, hset]

theorem State.charge_unseen {β : Type} {g : State → β} (hg : ∀ t a, g { t with accts := a } = g t) (s : State) (o : RadioOp)
    (units t : Nat) : g (s.charge o units t) = g s :=
  State.foldl_unseen (fun u _ => hg u _) _ s

theorem State.emission_unseen {β : Type} {g : State → β} (hg : ∀ t x, g { t with sent := x } = g t) (s : State) (o : RadioOp)
    (e : Nat) : g (s.emission o e) = g s :=
  hg s _

theorem State.paFall_unseen {β : Type} {g : State → β}
    (hg : ∀ t w n a b k, g { t with well := w, pins := n, palA := a, palB := b, wkr := k } = g t) (s : State) (id t : Nat) :
    g (s.paFall id t) = g s := by
  obtain ⟨u, hu⟩ : ∃ u, u = s.withdraw (.pa id) := ⟨_, rfl⟩
  have hdraw : g u = g s := hu ▸ hg s _ s.pins s.palA s.palB s.wkr
  have hmark : g u.selfMark = g u := State.selfMark_unseen (fun t a b => hg t t.well t.pins a b t.wkr) u
  have hfall : g (s.paFall id t) = g u.selfMark := by
    simp only [State.paFall, ← hu]
    exact hg u.selfMark u.selfMark.well _ u.selfMark.palA u.selfMark.palB _
  rw [hfall, hmark, hdraw]

/-! Accounts. -/

/-- One update for each account of a list without repetitions. -/
theorem State.acct_foldl (f : Nat → List Bucket → List Bucket) {l : List Nat} (hl : l.Nodup) (s : State) (n : Nat) :
    (l.foldl (fun s n => s.setAcct n (f n (s.acct n))) s).acct n = if n ∈ l then f n (s.acct n) else s.acct n := by
  induction l generalizing s with
  | nil => simp
  | cons m l ih =>
    obtain ⟨hm, hl⟩ := List.nodup_cons.1 hl
    rw [List.foldl_cons, ih hl, State.acct_setAcct]
    by_cases hn : n = m
    · simp [hn, hm]
    · simp [hn]

/-- Every account of a transmission is charged, as the accounts stood when it began. -/
theorem State.acct_charge (s : State) (o : RadioOp) (units t n : Nat) : (s.charge o units t).acct n =
    if n ∈ (s.asOf o).acctsOf o.freq o.width then addBucket ((s.asOf o).expiryTick n t) units (s.acct n) else s.acct n :=
  State.acct_foldl (fun n b => addBucket ((s.asOf o).expiryTick n t) units b) (List.nodup_range.filter _) s n

/-! The claim at the rise of PA_EN (R123). -/

theorem State.deny_unseen {β : Type} {g : State → β} (hg : ∀ t r, g { t with regs := r } = g t) (s : State) : g s.deny = g s := by
  unfold State.deny State.incMod
  rw [State.setFld_unseen hg, State.raise_unseen hg]

theorem State.wellHead_single {s : State} {c : Claim} (h : s.well.queue = [c]) : s.wellHead = some c := by
  simp [State.wellHead, h, pickBest]

/-- A waiting PA claim that stands alone is ready exactly when it fits (R335). -/
theorem State.paReady_single {s : State} {id : Nat} {c : Claim} (h : s.well.queue = [c]) (hw : c.who = .pa id) :
    s.paReady id = if s.wellUsed + c.amt ≤ 2 * s.fld WELL_BUDGET.BUDGET then some c else none := by
  simp [State.paReady, State.wellHead_single h, hw, State.grantable]

theorem State.grantClaim_granted (s : State) (c : Claim) : (s.grantClaim c).well.granted = s.well.granted ++ [c] := by
  simp [State.grantClaim]

theorem State.wellUsed_grantClaim (s : State) (c : Claim) : (s.grantClaim c).wellUsed = s.wellUsed + c.amt := by
  have hasleep : (s.grantClaim c).asleep = s.asleep := State.grantClaim_unseen (fun _ _ _ => rfl) s c
  unfold State.wellUsed
  rw [hasleep, State.grantClaim_granted, List.map_append, List.foldl_append]
  simp [Nat.add_assoc]

theorem State.holds_grantClaim (s : State) (c : Claim) : (s.grantClaim c).holds c.who = true := by
  simp [State.holds, State.grantClaim_granted]

/-- The claim that the rise of PA_EN places. -/
def State.riseClaim (s : State) (id : Nat) (o : RadioOp) : Claim :=
  ⟨.pa id, s.paClaim ((s.asOf o).clampLevel o.freq o.width o.level), o.prio, o.ticket, s.stamp, false⟩

section
variable {s : State} {id : Nat} {o : RadioOp}

theorem State.paRise_denied (hh : s.holds (.pa id) = false) (hn : s.neverFits (s.riseClaim id o).amt = true) :
    s.paRise id o = s.deny.txEnd id Status.budgetDenied 0 := by
  have hplace := State.place_denied s (.pa id) (s.riseClaim id o).amt o.prio o.ticket (of_decide_eq_true hn)
  unfold State.riseClaim at hplace
  simp only [State.paRise, hh, Bool.false_eq_true, if_false, hplace, Bool.not_false, if_true]

/-- The queue with the claim of the rising PA, and what becomes of it. -/
theorem State.paRise_placed (hh : s.holds (.pa id) = false) (hn : s.neverFits (s.riseClaim id o).amt = false)
    (hq : s.well.queue = []) :
    s.paRise id o =
      let c := s.riseClaim id o
      let u := s.queueClaim c
      if s.wellUsed + c.amt ≤ 2 * s.fld WELL_BUDGET.BUDGET then (u.grantClaim c).paUp id o
      else
        let v := u.txFree.setOp id { o with phase := .lateGrant }
        if o.pol = 0 ∧ !o.neverLate then (v.txLate id .lateGrant).opWaits id o .well
        else (v.withdraw (.pa id)).txLate id .lateGrant := by
  have hplace := State.place_fits s (.pa id) (s.riseClaim id o).amt o.prio o.ticket (Nat.not_lt.1 (of_decide_eq_false hn))
  have hready := State.paReady_single (s := s.queueClaim (s.riseClaim id o)) (id := id) (c := s.riseClaim id o)
    (by simp [State.queueClaim, hq]) rfl
  have hused : (s.queueClaim (s.riseClaim id o)).wellUsed = s.wellUsed := rfl
  have hbudget : (s.queueClaim (s.riseClaim id o)).fld WELL_BUDGET.BUDGET = s.fld WELL_BUDGET.BUDGET := rfl
  rw [hused, hbudget] at hready
  obtain ⟨u, hu⟩ : ∃ u, u = s.queueClaim (s.riseClaim id o) := ⟨_, rfl⟩
  rw [← hu] at hready
  have hr : s.place (.pa id) (s.paClaim ((s.asOf o).clampLevel o.freq o.width o.level)) o.prio o.ticket = (u, true) := by
    rw [hu]
    exact hplace
  by_cases hfit : s.wellUsed + (s.riseClaim id o).amt ≤ 2 * s.fld WELL_BUDGET.BUDGET
  · simp only [State.paRise, hh, Bool.false_eq_true, if_false, hr, Bool.not_true, hready, hfit, if_true, ← hu]
  · simp only [State.paRise, hh, Bool.false_eq_true, if_false, hr, Bool.not_true, hready, hfit, ← hu]

end

end Sys2Proof.Machine

/-! PA_GRANT at the rise of PA_EN (R123, Table 3-7 step 2). -/

namespace Sys2Proof.Machine

theorem State.paUp_pins (s : State) (id : Nat) (o : RadioOp) : (s.paUp id o).pins = { s.pins with
    paEn := true, paCtl := if s.on RFA_EXT_CTL.PACTL_EN then some (o.t - usFine s.rampUs) else none } := rfl

theorem State.paUp_op (s : State) (id : Nat) (o : RadioOp) : (s.paUp id o).op id = some { o with phase := .onAir } :=
  s.op_setOp_self id { o with phase := .onAir }

theorem State.paUp_self (s : State) (id : Nat) (o : RadioOp) :
    (s.paUp id o).palA.cur.self = true ∧ (s.paUp id o).palB.cur.self = true :=
  State.selfMark_self (s.setOp id { o with phase := .onAir })

theorem State.fld_grantClaim (s : State) (c : Claim) {f : Fld} (h : f.off ≠ WELL_USED.off) :
    (s.grantClaim c).fld f = s.fld f := by
  simp only [State.grantClaim]
  rw [State.fld_setFld_ne _ _ _ _ h]
  exact State.fld_of_regs (by exact rfl) f

theorem State.on_grantClaim (s : State) (c : Claim) {f : Fld} (h : f.off ≠ WELL_USED.off) :
    (s.grantClaim c).on f = s.on f := by
  unfold State.on
  rw [State.fld_grantClaim s c h]

theorem State.riseClaim_moveTo_amt (s : State) (n id : Nat) (o : RadioOp) :
    ((s.moveTo n).riseClaim id o).amt = (s.riseClaim id o).amt := by
  unfold State.riseClaim State.paClaim
  rfl

theorem exec_paGrant_rise {s : State} {id : Nat} {o : RadioOp} (h : s.op id = some o) (ha : s.awake = true)
    (hp : o.phase = .grant) (hr : s.reach (o.t - s.riseLead) = true) :
    exec (.paGrant id) s = .next ((s.moveTo (o.t - s.riseLead)).paRise id o) := by
  show execPaGrant id s = _
  simp [execPaGrant, h, ha, hp, hr]

/-- PA_EN high with the claim just granted. -/
def State.rises (s : State) (id : Nat) (o : RadioOp) (c : Claim) : State := ((s.queueClaim c).grantClaim c).paUp id o

theorem State.rises_seen (s : State) (id : Nat) (o : RadioOp) (c : Claim) : { s.rises id o c with
    regs := s.regs, ops := s.ops, well := s.well, pins := s.pins, palA := s.palA, palB := s.palB } = s := by
  have hup := State.paUp_unseen (g := fun t => ({ t with
    regs := s.regs, ops := s.ops, well := s.well, pins := s.pins, palA := s.palA, palB := s.palB } : State))
    (fun _ _ _ _ _ => rfl) ((s.queueClaim c).grantClaim c) id o
  have hgrant := State.grantClaim_unseen (g := fun t => ({ t with
    regs := s.regs, ops := s.ops, well := s.well, pins := s.pins, palA := s.palA, palB := s.palB } : State))
    (fun _ _ _ => rfl) (s.queueClaim c) c
  exact (hup.trans hgrant).trans rfl

theorem State.rises_well (s : State) (id : Nat) (o : RadioOp) (c : Claim) :
    (s.rises id o c).holds c.who = true ∧ (s.rises id o c).wellUsed = s.wellUsed + c.amt := by
  constructor
  · exact (State.paUp_unseen (g := fun t => t.holds c.who) (fun _ _ _ _ _ => rfl) _ id o).trans (State.holds_grantClaim _ c)
  · exact ((State.paUp_unseen (g := State.wellUsed) (fun _ _ _ _ _ => rfl) _ id o).trans
      (State.wellUsed_grantClaim (s.queueClaim c) c)).trans rfl

theorem State.rises_pins (s : State) (id : Nat) (o : RadioOp) (c : Claim) : (s.rises id o c).pins = { s.pins with
    paEn := true, paCtl := if s.on RFA_EXT_CTL.PACTL_EN then some (o.t - usFine s.rampUs) else none } := by
  have hpins : ((s.queueClaim c).grantClaim c).pins = s.pins := State.grantClaim_unseen (fun _ _ _ => rfl) (s.queueClaim c) c
  have hon := State.on_grantClaim (s.queueClaim c) c (f := RFA_EXT_CTL.PACTL_EN) (by decide)
  have hramp : ((s.queueClaim c).grantClaim c).rampUs = s.rampUs := by
    unfold State.rampUs
    rw [State.fld_grantClaim _ _ (by decide)]
    rfl
  unfold State.rises
  rw [State.paUp_pins, hpins, hon, hramp]
  rfl

/-- The claim of the rising PA fits: PA_EN is high and the operation on the air (Table 3-7 step 2). -/
theorem execPaGrant_grants {s : State} {id : Nat} {o : RadioOp} {k : Fin 64} (h : s.Sole id o k) (ha : s.awake = true)
    (hp : o.phase = .grant) (hr : s.reach (o.t - s.riseLead) = true) (hh : s.holds (.pa id) = false) (hq : s.well.queue = [])
    (hn : s.neverFits (s.riseClaim id o).amt = false)
    (hf : s.wellUsed + (s.riseClaim id o).amt ≤ 2 * s.fld WELL_BUDGET.BUDGET) :
    ∃ t, exec (.paGrant id) s = .next t ∧ t.op id = some { o with phase := .onAir } ∧
      t.pins = { s.pins with paEn := true, paCtl := if s.on RFA_EXT_CTL.PACTL_EN then some (o.t - usFine s.rampUs)
        else none } ∧ t.holds (.pa id) = true ∧ t.wellUsed = s.wellUsed + (s.riseClaim id o).amt ∧
      t.palA.cur.self = true ∧ t.palB.cur.self = true ∧ { t with
        regs := s.regs, ops := s.ops, well := s.well, pins := s.pins, time := s.time, palA := s.palA, palB := s.palB } = s := by
  obtain ⟨n, hnow⟩ : ∃ n, n = o.t - s.riseLead := ⟨_, rfl⟩
  obtain ⟨c, hc⟩ : ∃ c, c = (s.moveTo n).riseClaim id o := ⟨_, rfl⟩
  have hwho : c.who = .pa id := by rw [hc, State.riseClaim]
  have hamt : c.amt = (s.riseClaim id o).amt := by rw [hc, State.riseClaim_moveTo_amt]
  have hnever : (s.moveTo n).neverFits ((s.moveTo n).riseClaim id o).amt = false := by
    rw [State.riseClaim_moveTo_amt]
    exact hn
  have hfits : (s.moveTo n).wellUsed + ((s.moveTo n).riseClaim id o).amt ≤ 2 * (s.moveTo n).fld WELL_BUDGET.BUDGET := by
    rw [State.riseClaim_moveTo_amt]
    exact hf
  have hrise : (s.moveTo n).paRise id o = (s.moveTo n).rises id o c := by
    rw [State.paRise_placed (s := s.moveTo n) hh hnever hq, hc]
    exact if_pos hfits
  obtain ⟨hholds, hused⟩ := (s.moveTo n).rises_well id o c
  obtain ⟨hselfA, hselfB⟩ := State.paUp_self (((s.moveTo n).queueClaim c).grantClaim c) id o
  have hpins := (s.moveTo n).rises_pins id o c
  have hseen := (s.moveTo n).rises_seen id o c
  refine ⟨_, exec_paGrant_rise h.op ha hp hr, ?_⟩
  rw [← hnow, hrise]
  exact ⟨State.paUp_op _ _ _, hpins, hwho ▸ hholds, hused.trans (congrArg (s.wellUsed + ·) hamt), hselfA, hselfB,
    congrArg (fun t => ({ t with time := s.time } : State)) hseen⟩

/-! Status words. -/

theorem State.radioWord_mod (s : State) {status : Nat} (h : status < 256) (late : Bool) (extra : Nat) :
    s.radioWord status late extra % 256 = status := by
  unfold State.radioWord
  omega

theorem State.radioWord_div (s : State) {status : Nat} (h : status < 256) (late : Bool) (extra : Nat) :
    s.radioWord status late extra / 65536 = extra % 65536 := by
  unfold State.radioWord
  cases late <;> cases s.qual <;> simp only [b2n] <;> simp <;> omega

theorem State.radioWord_late (s : State) {status : Nat} (h : status < 256) (late : Bool) (extra : Nat) :
    (s.radioWord status late extra).testBit 8 = late := by
  unfold State.radioWord
  rw [Nat.testBit_eq_decide_div_mod_eq]
  cases late <;> cases s.qual <;> simp only [b2n] <;> simp <;> omega

/-! Late occurrences (R34, R124). -/

section
variable {s : State} {id : Nat} {o : RadioOp} {k : Fin 64}

theorem State.Sole.txLate_waits (h : s.Sole id o k) (hpol : o.pol = 0) (hnl : o.neverLate = false) (ph : OpPhase) :
    s.txLate id ph = s.setOp id { o with late := true, phase := ph } := by
  simp [State.txLate, h.op, h.lnch, hpol, hnl]

theorem State.Sole.txLate_ends (h : s.Sole id o k) (hpol : ¬(o.pol = 0 ∧ (!o.neverLate) = true)) (ph : OpPhase) :
    s.txLate id ph = s.txEnd id Status.late 0 := by
  simp only [State.txLate, h.op, h.lnch]
  exact if_neg hpol

theorem State.Sole.opWaits (h : s.Sole id o k) (w : Wait) : s.opWaits id o w = s.park k.val w (.radio id) := by
  have hs : ((s.cx k.val).susp == Susp.radio id) = true := by simp [h.susp]
  simp only [State.opWaits, h.ctx, hs, if_true]

/-- SYT freed, then the end of the operation. -/
theorem State.Sole.opEnd_freed (h : s.Sole id o k) (hf : s.Freed) (hb : o.kind = .txf) (hc : o.phase ≠ .claim) {status : Nat}
    (hst : status < 256) (extra : Nat) : (s.opEnd id status extra).Freed ∧ (s.opEnd id status extra).pins = s.pins := by
  obtain ⟨hend, -, -⟩ := h.opEnd (by rw [hb]; decide) hc hst extra
  have hpins : (s.opEnd id status extra).pins = s.pins := hend.unseen State.pins fun _ _ _ _ _ _ => rfl
  exact ⟨hf.of_same (hend.fld _ (by decide)) hpins, hpins⟩

end

/-- The one operation has ended with `status`, whose word its context took. -/
def State.EndsWith (t : State) (id : Nat) (o : RadioOp) (k : Fin 64) (status : Nat) : Prop :=
  t.ops = [] ∧ (t.cx k.val).st = .ready ∧ t.holds (.pa id) = false ∧ ((t.cx k.val).rd o.d).toNat % 256 = status ∧
    t.fld TXP_STAT.LAST = status

theorem State.Sole.opEnd_endsWith {s : State} {id : Nat} {o : RadioOp} {k : Fin 64} (h : s.Sole id o k) (hk : o.kind = .txf)
    (hd : o.d ≠ 0) (hc : o.phase ≠ .claim) {status : Nat} (hst : status < 256) (extra : Nat) :
    (s.opEnd id status extra).EndsWith id o k status := by
  obtain ⟨hend, hholds, -⟩ := h.opEnd (by rw [hk]; decide) hc hst extra
  refine ⟨hend.ops, hend.ready, hholds, ?_, hend.last (by rw [hk]; rfl)⟩
  rw [hend.word hd]
  exact s.radioWord_mod hst _ _

/-! The claim that does not fit (R123, R336). -/

section
variable {s : State} {id : Nat} {o : RadioOp} {k : Fin 64}

theorem State.Sole.txFree (h : s.Sole id o k) : s.txFree.Sole id o k :=
  h.of_same (State.txFree_unseen (g := State.ops) (fun _ _ _ _ => rfl) s) (State.txFree_unseen (g := State.ctx) (fun _ _ _ _ => rfl) s)

theorem State.Sole.withdraw (h : s.Sole id o k) (x : Holder) : (s.withdraw x).Sole id o k := h.of_same (by simp) (by simp)

/-- A claim of the rising PA that the budget can never hold ends the operation with BUDGET_DENIED. -/
theorem execPaGrant_denied (h : s.Sole id o k) (hk : o.kind = .txf) (hd : o.d ≠ 0) (ha : s.awake = true) (hp : o.phase = .grant)
    (hr : s.reach (o.t - s.riseLead) = true) (hh : s.holds (.pa id) = false) (hn : s.neverFits (s.riseClaim id o).amt = true) :
    ∃ t, exec (.paGrant id) s = .next t ∧ t.EndsWith id o k Status.budgetDenied ∧ t.Freed ∧ t.pins.paEn = s.pins.paEn ∧
      t.on WELL_DENY_CNT.DENY = true := by
  obtain ⟨n, hnow⟩ : ∃ n, n = o.t - s.riseLead := ⟨_, rfl⟩
  obtain ⟨v, hv⟩ : ∃ v, v = (s.moveTo n).deny := ⟨_, rfl⟩
  have hnever : (s.moveTo n).neverFits ((s.moveTo n).riseClaim id o).amt = true := by
    rw [State.riseClaim_moveTo_amt]
    exact hn
  have hsole : v.Sole id o k := by
    rw [hv]
    exact h.of_same (State.deny_unseen (g := State.ops) (fun _ _ => rfl) _) (State.deny_unseen (g := State.ctx) (fun _ _ => rfl) _)
  have hdeny : v.on WELL_DENY_CNT.DENY = true := hv ▸ State.deny_on _
  have hpins : v.pins = s.pins := hv ▸ State.deny_unseen (g := State.pins) (fun _ _ => rfl) (s.moveTo n)
  have hc : o.phase ≠ .claim := by simp [hp]
  obtain ⟨hfreed, hfp⟩ := hsole.txFree.opEnd_freed v.txFree_freed hk hc (status := Status.budgetDenied) (by decide) 0
  obtain ⟨hend, -, -⟩ := hsole.txFree.opEnd (by rw [hk]; decide) hc (status := Status.budgetDenied) (by decide) 0
  refine ⟨_, exec_paGrant_rise h.op ha hp hr, ?_⟩
  rw [← hnow, State.paRise_denied (s := s.moveTo n) hh hnever, ← hv, State.txEnd_granted hsole hk hp]
  refine ⟨hsole.txFree.opEnd_endsWith hk hd hc (by decide) 0, hfreed, ?_, ?_⟩
  · rw [hfp, State.txFree_pins, hpins]
  · unfold State.on at *
    rw [hend.fld _ (by decide), State.fld_txFree _ (by decide)]
    exact hdeny

/-- The state in which a claim of the rising PA has been found not to fit: SYT and the switches freed. -/
def State.riseLate (s : State) (id : Nat) (o : RadioOp) : State :=
  ((s.moveTo (o.t - s.riseLead)).queueClaim ((s.moveTo (o.t - s.riseLead)).riseClaim id o)).txFree.setOp id { o with phase := .lateGrant }

theorem State.Sole.riseLate (h : s.Sole id o k) : (s.riseLate id o).Sole id { o with phase := .lateGrant } k := by
  unfold State.riseLate
  have hqueued : ((s.moveTo (o.t - s.riseLead)).queueClaim ((s.moveTo (o.t - s.riseLead)).riseClaim id o)).Sole id o k :=
    h.of_same (by exact rfl) (by exact rfl)
  exact hqueued.txFree.setOp rfl rfl

theorem State.riseLate_freed : (s.riseLate id o).Freed ∧ (s.riseLate id o).pins.paEn = s.pins.paEn := by
  constructor
  · exact (State.txFree_freed _).of_same rfl rfl
  · show (State.txFree _).pins.paEn = _
    rw [State.txFree_pins]
    rfl

theorem State.riseLate_waits : (s.riseLate id o).waits (.pa id) = true := by
  have hwell : (s.riseLate id o).well = ((s.moveTo (o.t - s.riseLead)).queueClaim ((s.moveTo (o.t - s.riseLead)).riseClaim id o)).well :=
    State.txFree_unseen (g := State.well) (fun _ _ _ _ => rfl) _
  unfold State.waits
  rw [hwell]
  simp [State.queueClaim, State.riseClaim]

theorem exec_paGrant_late (h : s.Sole id o k) (ha : s.awake = true) (hp : o.phase = .grant)
    (hr : s.reach (o.t - s.riseLead) = true) (hh : s.holds (.pa id) = false) (hq : s.well.queue = [])
    (hn : s.neverFits (s.riseClaim id o).amt = false)
    (hf : 2 * s.fld WELL_BUDGET.BUDGET < s.wellUsed + (s.riseClaim id o).amt) :
    exec (.paGrant id) s = .next (if o.pol = 0 ∧ (!o.neverLate) = true then
      ((s.riseLate id o).txLate id .lateGrant).opWaits id o .well
      else ((s.riseLate id o).withdraw (.pa id)).txLate id .lateGrant) := by
  have hnever : (s.moveTo (o.t - s.riseLead)).neverFits ((s.moveTo (o.t - s.riseLead)).riseClaim id o).amt = false := by
    rw [State.riseClaim_moveTo_amt]
    exact hn
  have hfits : ¬ (s.moveTo (o.t - s.riseLead)).wellUsed + ((s.moveTo (o.t - s.riseLead)).riseClaim id o).amt ≤
      2 * (s.moveTo (o.t - s.riseLead)).fld WELL_BUDGET.BUDGET := by
    rw [State.riseClaim_moveTo_amt]
    exact Nat.not_le.2 hf
  rw [exec_paGrant_rise h.op ha hp hr, State.paRise_placed (s := s.moveTo (o.t - s.riseLead)) hh hnever hq]
  dsimp only
  rw [if_neg hfits]
  rfl

/-- The claim does not fit and the policy is not ACT_LATE: the operation ends with LATE. -/
theorem execPaGrant_ends (h : s.Sole id o k) (hk : o.kind = .txf) (hd : o.d ≠ 0) (ha : s.awake = true) (hp : o.phase = .grant)
    (hr : s.reach (o.t - s.riseLead) = true) (hh : s.holds (.pa id) = false) (hq : s.well.queue = [])
    (hn : s.neverFits (s.riseClaim id o).amt = false)
    (hf : 2 * s.fld WELL_BUDGET.BUDGET < s.wellUsed + (s.riseClaim id o).amt) (hpol : o.pol ≠ 0) :
    ∃ t, exec (.paGrant id) s = .next t ∧ t.EndsWith id o k Status.late ∧ t.Freed ∧ t.waits (.pa id) = false ∧
      t.pins.paEn = s.pins.paEn := by
  obtain ⟨v, hv⟩ : ∃ v, v = (s.riseLate id o).withdraw (.pa id) := ⟨_, rfl⟩
  obtain ⟨x, hx⟩ : ∃ x : RadioOp, x = { o with phase := .lateGrant } := ⟨_, rfl⟩
  have hsole : v.Sole id x k := hv ▸ hx ▸ h.riseLate.withdraw _
  have hxk : x.kind = .txf := by rw [hx]; exact hk
  have hxc : x.phase ≠ .claim := by rw [hx]; simp
  have hxp : ¬(x.pol = 0 ∧ (!x.neverLate) = true) := fun hh => hpol (by rw [hx] at hh; exact hh.1)
  have hxh : x.holds = false := by rw [hx]; rfl
  obtain ⟨hfr, hpa⟩ := State.riseLate_freed (s := s) (id := id) (o := o)
  have hvf : v.Freed := hv ▸ hfr.of_same (State.fld_of_regs (by simp) _) (by simp)
  have hvp : v.pins.paEn = s.pins.paEn := by rw [hv]; exact hpa
  obtain ⟨hfreed, hfp⟩ := hsole.opEnd_freed hvf hxk hxc (status := Status.late) (by decide) 0
  obtain ⟨-, -, hwaits⟩ := hsole.opEnd (by rw [hxk]; decide) hxc (status := Status.late) (by decide) 0
  refine ⟨_, exec_paGrant_late h ha hp hr hh hq hn hf, ?_⟩
  rw [if_neg (fun hh => hpol hh.1), ← hv, hsole.txLate_ends hxp, State.txEnd_waiting hsole hxk hxh]
  have hdx : x.d = o.d := by rw [hx]
  have hends := hsole.opEnd_endsWith hxk (by rw [hdx]; exact hd) hxc (status := Status.late) (by decide) 0
  unfold State.EndsWith at hends
  rw [hdx] at hends
  exact ⟨hends, hfreed, hwaits, by rw [hfp, hvp]⟩

/-- The claim does not fit under ACT_LATE: the transmission waits for it, SYT and the switches free. -/
theorem execPaGrant_waits (h : s.Sole id o k) (ha : s.awake = true) (hp : o.phase = .grant)
    (hr : s.reach (o.t - s.riseLead) = true) (hh : s.holds (.pa id) = false) (hq : s.well.queue = [])
    (hn : s.neverFits (s.riseClaim id o).amt = false)
    (hf : 2 * s.fld WELL_BUDGET.BUDGET < s.wellUsed + (s.riseClaim id o).amt) (hpol : o.pol = 0) (hnl : o.neverLate = false) :
    ∃ t, exec (.paGrant id) s = .next t ∧ t.op id = some { o with phase := .lateGrant, late := true } ∧ t.Freed ∧
      t.waits (.pa id) = true ∧ t.pins.paEn = s.pins.paEn ∧ (t.cx k.val).st = .parked .well := by
  obtain ⟨v, hv⟩ : ∃ v, v = (s.riseLate id o).setOp id { o with phase := .lateGrant, late := true } := ⟨_, rfl⟩
  have hlate : (s.riseLate id o).txLate id .lateGrant = v := by
    rw [hv]
    exact h.riseLate.txLate_waits hpol hnl .lateGrant
  have hsole : v.Sole id { o with phase := .lateGrant, late := true } k := hv ▸ h.riseLate.setOp rfl rfl
  have hwait : v.opWaits id o .well = v.park k.val .well (.radio id) := by
    have hs : ((v.cx k.val).susp == Susp.radio id) = true := by simp [hsole.susp]
    simp only [State.opWaits, h.ctx, hs, if_true]
  obtain ⟨hfr, hpa⟩ := State.riseLate_freed (s := s) (id := id) (o := o)
  have hvf : v.Freed := hv ▸ hfr.of_same rfl rfl
  refine ⟨_, exec_paGrant_late h ha hp hr hh hq hn hf, ?_⟩
  rw [if_pos ⟨hpol, by rw [hnl]; rfl⟩, hlate, hwait]
  refine ⟨hsole.op, hvf.of_same rfl rfl, ?_, ?_, ?_⟩
  · show v.waits (.pa id) = true
    rw [hv]
    exact State.riseLate_waits
  · show v.pins.paEn = _
    rw [hv]
    exact hpa
  · simp [State.park]

end

end Sys2Proof.Machine

/-! PA_GRANT of a late transmission (R123). -/

namespace Sys2Proof.Machine

/-- What a slot's bound asks of the registers (R134, R389): those of the MAC engine, the call gap and the ramp. -/
theorem State.slotFits_peak (s : State) (v : Nat) (o : RadioOp) (t : Nat) :
    (s.setFld WELL_USED.PEAK v).slotFits o t = s.slotFits o t := by
  obtain ⟨u, hu⟩ : ∃ u, u = s.setFld WELL_USED.PEAK v := ⟨_, rfl⟩
  have hf (f : Fld) (h : f.off ≠ WELL_USED.off) : u.fld f = s.fld f := hu ▸ State.fld_setFld_ne s WELL_USED.PEAK f v h
  have hon (f : Fld) (h : f.off ≠ WELL_USED.off) : u.on f = s.on f := hu ▸ State.on_setFld_ne s WELL_USED.PEAK f v h
  have hm : u.mac = s.mac := hu ▸ State.setFld_unseen (g := State.mac) (fun _ _ => rfl) s _ _
  have hup (a n : Nat) : u.up a n = s.up a n := hu ▸ State.setFld_unseen (g := fun t => t.up a n) (fun _ _ => rfl) s _ _
  have hsf : u.ownSf = s.ownSf := by simp (disch := decide) only [State.ownSf, hon, hm]
  have hb : u.bo = s.bo := hf MAC_SF_CFG.BO (by decide)
  have hc : u.cont = s.cont := by simp (disch := decide) only [State.cont, hf]
  have hown : u.ownBound t = s.ownBound t := by
    unfold State.ownBound
    rw [hsf, hb, hc]
  have hsync : u.upSync = s.upSync := by simp (disch := decide) only [State.upSync, hon]
  have hslot : u.upSlot = s.upSlot := by
    simp only [State.upSlot, State.upCont, State.upChannels, hup]
  have hmember : u.memberTx o = s.memberTx o := by
    simp (disch := decide) only [State.memberTx, hsf, hf]
  have hbo : u.upBo = s.upBo := by simp only [State.upBo, hup]
  have hcont : u.upCont = s.upCont := by simp only [State.upCont, hup]
  have hmiss : u.fld MAC_BEACON_STAT.MISS = s.fld MAC_BEACON_STAT.MISS := hf _ (by decide)
  have hbound : u.upBound o t = s.upBound o t := by
    unfold State.upBound
    rw [hsync, hm, hbo, hcont, hslot, hmember, hmiss]
  have hramp : u.rampUs = s.rampUs := by simp (disch := decide) only [State.rampUs, hf]
  have hair : u.wholeAir o = s.wholeAir o := by simp (disch := decide) only [State.wholeAir, hf]
  have hslotBound : u.slotBound o t = s.slotBound o t := by
    unfold State.slotBound State.bound
    rw [hown, hbound, hb]
  rw [← hu]
  unfold State.slotFits
  rw [hslotBound, hair, hramp]

theorem State.lbtNeeded_txf {s t : State} {o x : RadioOp} (ho : o.kind = .txf) (hx : x.kind = .txf) (hl : x.lbt = o.lbt)
    (hc : x.cfg = o.cfg) (hf : x.freq = o.freq) (hw : x.width = o.width) : t.lbtNeeded x = s.lbtNeeded o := by
  have hxa : (x.kind == OpKind.ack) = false := by rw [hx]; rfl
  have hoa : (o.kind == OpKind.ack) = false := by rw [ho]; rfl
  have hasOf : ∀ n f w, (t.asOf x).liesIn f w n = (s.asOf o).liesIn f w n := fun n f w => by
    unfold State.asOf
    rw [hc]
    rfl
  have haccts : (t.asOf x).acctsOf x.freq x.width = (s.asOf o).acctsOf o.freq o.width := by
    unfold State.acctsOf
    rw [hf, hw]
    exact List.filter_congr fun n _ => hasOf n _ _
  have hon : ∀ n, (t.asOf x).on (SGL_ACCn_WINDOW.LBT n) = (s.asOf o).on (SGL_ACCn_WINDOW.LBT n) :=
    fun n => State.on_of_regs hc _
  simp only [State.lbtNeeded, hxa, hoa, Bool.false_eq_true, if_false, hl, haccts, hon]

/-- The state in which a late PA claim has just been granted, its listen time drawn (R123). -/
def State.lateGranted (s : State) (id : Nat) (k : Fin 64) (c : Claim) : State :=
  ((s.grantClaim c).park k.val .radio (.radio id)).draw

theorem State.lateGranted_unseen {β : Type} {g : State → β}
    (hg : ∀ t r w cx n, g { t with regs := r, well := w, ctx := cx, free := n } = g t) (s : State) (id : Nat) (k : Fin 64) (c : Claim) :
    g (s.lateGranted id k c) = g s := by
  obtain ⟨u, hu⟩ : ∃ u, u = s.grantClaim c := ⟨_, rfl⟩
  have hgrant : g u = g s := hu ▸ State.grantClaim_unseen (fun t r w => hg t r w t.ctx t.free) s c
  unfold State.lateGranted
  rw [← hu]
  exact (hg u u.regs u.well _ _).trans hgrant

theorem State.lateGranted_regs (s : State) (id : Nat) (k : Fin 64) (c : Claim) :
    (s.lateGranted id k c).regs = (s.grantClaim c).regs := by
  obtain ⟨u, hu⟩ : ∃ u, u = s.grantClaim c := ⟨_, rfl⟩
  unfold State.lateGranted
  rw [← hu]
  rfl

theorem State.lateGranted_holds (s : State) (id : Nat) (k : Fin 64) (c : Claim) : (s.lateGranted id k c).holds c.who = true := by
  have hholds := s.holds_grantClaim c
  obtain ⟨u, hu⟩ : ∃ u, u = s.grantClaim c := ⟨_, rfl⟩
  unfold State.lateGranted
  rw [← hu] at hholds ⊢
  exact hholds

theorem State.lateGranted_cx (s : State) (id : Nat) (k : Fin 64) (c : Claim) :
    ((s.lateGranted id k c).cx k.val).st = .parked .radio := by
  obtain ⟨u, hu⟩ : ∃ u, u = s.grantClaim c := ⟨_, rfl⟩
  unfold State.lateGranted
  rw [← hu]
  show ((u.park k.val .radio (.radio id)).cx k.val).st = _
  simp [State.park]

theorem State.lateGranted_lead (s : State) (id : Nat) (k : Fin 64) (c : Claim) : (s.lateGranted id k c).lead = s.lead := by
  have hf (f : Fld) (h : f.off ≠ WELL_USED.off) : (s.lateGranted id k c).fld f = s.fld f :=
    (State.fld_of_regs (s.lateGranted_regs id k c) f).trans (State.fld_grantClaim s c h)
  unfold State.lead State.rampUs
  rw [hf _ (by decide), hf _ (by decide), hf _ (by decide)]

theorem State.lateGranted_slotFits (s : State) (id : Nat) (k : Fin 64) (c : Claim) (o : RadioOp) (t : Nat) :
    (s.lateGranted id k c).slotFits o t = s.slotFits o t := by
  obtain ⟨u, hu⟩ : ∃ u : State, u = { s with well := { s.well with queue := s.well.queue.erase c, granted := s.well.granted ++ [c] } } :=
    ⟨_, rfl⟩
  obtain ⟨v, hv⟩ : ∃ v, v = u.setFld WELL_USED.PEAK (max (u.fld WELL_USED.PEAK) u.wellUsed) := ⟨_, rfl⟩
  have hgrant : s.grantClaim c = v := by
    rw [hv, hu]
    rfl
  have hpeak : v.slotFits o t = u.slotFits o t := hv ▸ State.slotFits_peak u _ o t
  have hwell : u.slotFits o t = s.slotFits o t := by
    rw [hu]
    rfl
  unfold State.lateGranted
  rw [hgrant]
  show v.slotFits o t = _
  rw [hpeak, hwell]

/-! SYT held and the switches moved (R118). -/

theorem State.switchTx_unseen {β : Type} {g : State → β} (hg : ∀ t r n, g { t with regs := r, pins := n } = g t) (s : State)
    (ant : Nat) : g (s.switchTx ant) = g s := by
  obtain ⟨u, hu⟩ : ∃ u, u = (s.setFld TXP_STAT.ACTIVE 1).setFld TXP_STAT.ANT ant := ⟨_, rfl⟩
  have hset : g u = g s := by
    rw [hu, State.setFld_unseen fun t r => hg t r t.pins, State.setFld_unseen fun t r => hg t r t.pins]
  simp only [State.switchTx, ← hu]
  exact (hg u u.regs _).trans hset

theorem State.switchTx_pins (s : State) (ant : Nat) :
    (s.switchTx ant).pins = { s.pins with txrx := true, ant0 := ant == 0, ant1 := ant != 0 } := by
  obtain ⟨u, hu⟩ : ∃ u, u = (s.setFld TXP_STAT.ACTIVE 1).setFld TXP_STAT.ANT ant := ⟨_, rfl⟩
  have hset : u.pins = s.pins := hu ▸ (State.setFld_unseen (g := State.pins) (fun _ _ => rfl) _ _ _).trans
    (State.setFld_unseen (g := State.pins) (fun _ _ => rfl) _ _ _)
  simp only [State.switchTx, ← hu, hset]

theorem State.switchTx_stat (s : State) (ant : Nat) :
    (s.switchTx ant).on TXP_STAT.ACTIVE = true ∧ (s.switchTx ant).fld TXP_STAT.ANT = ant % 2 := by
  have hregs : (s.switchTx ant).regs = ((s.setFld TXP_STAT.ACTIVE 1).setFld TXP_STAT.ANT ant).regs := rfl
  constructor
  · rw [State.on_of_regs hregs, State.on_setFld_other _ _ _ _ (by decide), State.on_setFld_one _ _ (by decide)]
  · rw [State.fld_of_regs hregs, State.fld_setFld _ _ _ (by decide)]
    rfl

section
variable {s : State} {id : Nat} {o : RadioOp} {k : Fin 64}

/-- The launch at a late grant, listen-before-talk not needed and the slot long enough. -/
theorem State.Sole.paLate_goes {c : Claim} (h : s.Sole id o k) (hk : o.kind = .txf) (hl : s.lbtNeeded o = false)
    (hslot : s.slotFits o (s.stamp + s.lead) = true) :
    ∃ x : RadioOp, x = { o with phase := .grant, late := true, t := s.stamp + s.lead, listen := x.listen } ∧
      s.paLate id o c = ((s.lateGranted id k c).switchTx o.ant).setOp id x := by
  obtain ⟨u, hu⟩ : ∃ u, u = s.grantClaim c := ⟨_, rfl⟩
  obtain ⟨n, hn⟩ : ∃ n, n = (u.park k.val .radio (.radio id)).fld TXP_LBT_CFG.LISTEN + (u.park k.val .radio (.radio id)).random
        ((u.park k.val .radio (.radio id)).fld TXP_LBT_CFG.RAND + 1) := ⟨_, rfl⟩
  have hsole : u.Sole id o k :=
    hu ▸ h.of_same (State.grantClaim_unseen (g := State.ops) (fun _ _ _ => rfl) s c)
      (State.grantClaim_unseen (g := State.ctx) (fun _ _ _ => rfl) s c)
  have hwait := hsole.opWaits .radio
  obtain ⟨a, haa⟩ : ∃ a, a = (u.park k.val .radio (.radio id)).draw := ⟨_, rfl⟩
  have hlate : s.lateGranted id k c = a := by
    rw [haa, hu]
    rfl
  obtain ⟨x, hx⟩ : ∃ x : RadioOp, x = { o with listen := n } := ⟨_, rfl⟩
  have hxk : x.kind = .txf := hx ▸ hk
  have hxl : x.lnch = none := hx ▸ h.lnch
  have hdraw : (u.park k.val .radio (.radio id)).drawListen o = (a, x) := by
    rw [haa, hx, hn]
    rfl
  have hneed : a.lbtNeeded x = false := by
    have hsame : a.lbtNeeded x = s.lbtNeeded o :=
      State.lbtNeeded_txf hk hxk (by rw [hx]) (by rw [hx]) (by rw [hx]) (by rw [hx])
    exact hsame.trans hl
  have hstamp : a.stamp = s.stamp := hlate ▸ State.lateGranted_unseen (g := State.stamp) (fun _ _ _ _ _ => rfl) s id k c
  have hlead : a.lead = s.lead := hlate ▸ s.lateGranted_lead id k c
  have hfit : a.slotFits x (s.stamp + s.lead) = true := by
    have hsame : a.slotFits o (s.stamp + s.lead) = s.slotFits o (s.stamp + s.lead) := hlate ▸ s.lateGranted_slotFits id k c o _
    have hlisten : a.slotFits x (s.stamp + s.lead) = a.slotFits o (s.stamp + s.lead) := by
      rw [hx]
      rfl
    exact hlisten.trans (hsame.trans hslot)
  refine ⟨{ x with phase := .grant, late := true, t := s.stamp + s.lead }, by rw [hx], ?_⟩
  rw [hlate]
  simp only [State.paLate, ← hu, hwait, hdraw, hneed, hstamp, hlead, hfit, hxl, Bool.false_eq_true, false_and, if_false,
    Bool.not_true]
  rw [hx]

/-- The queued claim of a late transmission is granted: the grant is its new release point. -/
theorem execPaGrant_grantsLate {c : Claim} (h : s.Sole id o k) (hk : o.kind = .txf) (ha : s.awake = true) (hp : o.phase = .lateGrant)
    (hready : s.txReady o = true) (hq : s.well.queue = [c]) (hw : c.who = .pa id)
    (hf : s.wellUsed + c.amt ≤ 2 * s.fld WELL_BUDGET.BUDGET) (hl : s.lbtNeeded o = false)
    (hslot : s.slotFits o (s.touch.stamp + s.lead) = true) : ∃ t x, exec (.paGrant id) s = .next t ∧ t.op id = some x ∧
      x = { o with phase := .grant, late := true, t := s.touch.stamp + s.lead, listen := x.listen } ∧
      t.holds (.pa id) = true ∧ t.on TXP_STAT.ACTIVE = true ∧ t.pins.txrx = true ∧ (t.cx k.val).st = .parked .radio := by
  obtain ⟨u, hu⟩ : ∃ u, u = s.touch := ⟨_, rfl⟩
  have hsole : u.Sole id o k := hu ▸ h.of_same (by simp) (by simp)
  have hexec : exec (.paGrant id) s = .next (u.paLate id o c) := by
    have hr := State.paReady_single hq hw
    rw [if_pos hf] at hr
    show execPaGrant id s = _
    simp [execPaGrant, h.op, ha, hp, State.paGrantLate, hready, hr, hu]
  have hlead : u.lead = s.lead := by
    rw [hu]
    exact State.touch_unseen (g := State.lead) (fun _ _ _ => rfl) s
  have hneed : u.lbtNeeded o = false := (State.lbtNeeded_txf hk hk rfl rfl rfl rfl).trans hl
  have hfit : u.slotFits o (u.stamp + u.lead) = true := by
    rw [hlead, hu]
    obtain ⟨n, hn⟩ : ∃ n, n = s.touch.stamp + s.lead := ⟨_, rfl⟩
    rw [← hn] at hslot ⊢
    exact (State.touch_unseen (g := fun t => t.slotFits o n) (fun _ _ _ => rfl) s).trans hslot
  obtain ⟨x, hx, hgoes⟩ := hsole.paLate_goes (c := c) hk hneed hfit
  rw [hlead, hu] at hx
  obtain ⟨v, hv⟩ : ∃ v, v = u.lateGranted id k c := ⟨_, rfl⟩
  rw [← hv] at hgoes
  have hholds : (v.switchTx o.ant).holds (.pa id) = true := by
    rw [State.switchTx_unseen (g := fun t => t.holds (.pa id)) (fun _ _ _ => rfl) v, hv, ← hw]
    exact u.lateGranted_holds id k c
  have hcx : ((v.switchTx o.ant).cx k.val).st = .parked .radio := by
    rw [State.switchTx_unseen (g := fun t => t.cx k.val) (fun _ _ _ => rfl) v, hv]
    exact u.lateGranted_cx id k c
  obtain ⟨hact, -⟩ := v.switchTx_stat o.ant
  have hpins := v.switchTx_pins o.ant
  obtain ⟨w, hw'⟩ : ∃ w, w = v.switchTx o.ant := ⟨_, rfl⟩
  rw [← hw'] at hgoes hholds hcx hact hpins
  refine ⟨_, x, hexec.trans (congrArg _ hgoes), State.op_setOp_self _ _ _, hx, hholds, hact, ?_, hcx⟩
  show w.pins.txrx = true
  rw [hpins]

end

end Sys2Proof.Machine

/-! TX_END: the steps of Table 3-7 after the last symbol (R64, R125, R132). -/

namespace Sys2Proof.Machine

/-! The last symbol and what follows it (Table 3-7 steps 5 to 8). -/

/-- What a transmission that went out whole has put on the air. -/
def State.emittedAll (s : State) (o : RadioOp) (x : Emission) : Prop :=
  x.start = o.t ∧ x.ant = o.ant ∧ x.level = (s.asOf o).clampLevel o.freq o.width o.level ∧
    (o.kind = .txf → x.dev = (s.packetDev o).take (o.air / symFine o.rate)) ∧
    (o.kind = .calltx → x.chips = (s.callChips o).take (o.air / 49152))

theorem State.emission_whole (s : State) (o : RadioOp) :
    ∃ x, (s.emission o (o.t + o.air)).sent = some x ∧ s.emittedAll o x := by
  have hair : (if o.t + o.air ≤ o.t + o.air then o.air else o.t + o.air - o.t) = o.air := if_pos (Nat.le_refl _)
  refine ⟨_, rfl, rfl, rfl, rfl, fun hk => ?_, fun hk => ?_⟩
  · have hcall : (o.kind == OpKind.calltx) = false := by rw [hk]; rfl
    simp only [hcall, hair, Bool.false_eq_true, if_false]
  · have hcall : (o.kind == OpKind.calltx) = true := by rw [hk]; rfl
    simp only [hcall, hair, if_true]

/-- Charged and sent: the state after the accounts of a transmission and its emission. -/
def State.sentWhole (s : State) (o : RadioOp) (at_ : Nat) : State := (s.charge o (airUnits o.air) at_).emission o (o.t + o.air)

theorem State.sentWhole_unseen {β : Type} {g : State → β} (hg : ∀ t a x, g { t with accts := a, sent := x } = g t) (s : State)
    (o : RadioOp) (n : Nat) : g (s.sentWhole o n) = g s := by
  unfold State.sentWhole
  rw [State.emission_unseen fun t x => hg t t.accts x, State.charge_unseen fun t a => hg t a t.sent]

theorem State.sentWhole_emits (s : State) (o : RadioOp) (n : Nat) :
    ∃ x, (s.sentWhole o n).sent = some x ∧ s.emittedAll o x := by
  obtain ⟨u, hu⟩ : ∃ u, u = s.charge o (airUnits o.air) n := ⟨_, rfl⟩
  have hseen {β : Type} (g : State → β) (hg : ∀ t a, g { t with accts := a } = g t) : g u = g s :=
    hu ▸ State.charge_unseen hg s o _ _
  obtain ⟨x, hx, hstart, hant, hlevel, hdev, hchips⟩ := u.emission_whole o
  refine ⟨x, ?_, hstart, hant, hlevel.trans ?_, fun hk => (hdev hk).trans ?_, fun hk => (hchips hk).trans ?_⟩
  · unfold State.sentWhole
    rw [← hu]
    exact hx
  · exact hseen (fun t => (t.asOf o).clampLevel o.freq o.width o.level) fun _ _ => rfl
  · rw [hseen (fun t => t.packetDev o) fun _ _ => rfl]
  · rw [hseen (fun t => t.callChips o) fun _ _ => rfl]

theorem State.acct_sentWhole (s : State) (o : RadioOp) (t n : Nat) : (s.sentWhole o t).acct n =
    if n ∈ (s.asOf o).acctsOf o.freq o.width then addBucket ((s.asOf o).expiryTick n t) (airUnits o.air) (s.acct n)
    else s.acct n := by
  unfold State.sentWhole
  rw [State.emission_unseen (g := fun u => u.acct n) fun _ _ => rfl]
  exact s.acct_charge o _ t n

/-- The ramp after the last symbol is over: the state `t` from `s`, the lags as `s` has them. -/
structure State.Ramped (s : State) (id : Nat) (o : RadioOp) (t : State) : Prop where
  charged : ∀ n, t.acct n = if n ∈ (s.asOf o).acctsOf o.freq o.width
    then addBucket ((s.asOf o).expiryTick n (o.t + o.air + usFine s.rampUs)) (airUnits o.air) (s.acct n) else s.acct n
  op : t.op id = some { o with
    phase := .fall, units := o.units + airUnits o.air, endAt := o.t + o.air, fallAt := o.t + o.air + s.fallLag,
    backAt := o.t + o.air + s.tail }
  pins : t.pins = { s.pins with paCtl := none }
  sent : ∃ x, t.sent = some x ∧ s.emittedAll o x
  seen : { t with accts := s.accts, ops := s.ops, pins := s.pins, sent := s.sent } = s

theorem State.txRamped_ramped (s : State) (id : Nat) (o : RadioOp) : s.Ramped id o (s.txRamped id o) := by
  obtain ⟨u, hu⟩ : ∃ u, u = s.sentWhole o (o.t + o.air + usFine s.rampUs) := ⟨_, rfl⟩
  have hseen {β : Type} (g : State → β) (hg : ∀ t a x, g { t with accts := a, sent := x } = g t) : g u = g s :=
    hu ▸ State.sentWhole_unseen hg s o _
  have hlag : u.fallLag = s.fallLag := hseen State.fallLag fun _ _ _ => rfl
  have htail : u.tail = s.tail := hseen State.tail fun _ _ _ => rfl
  obtain ⟨x, hx⟩ : ∃ x : RadioOp, x = { o with
    phase := .fall, units := o.units + airUnits o.air, endAt := o.t + o.air, fallAt := o.t + o.air + s.fallLag,
    backAt := o.t + o.air + s.tail } := ⟨_, rfl⟩
  have heq : s.txRamped id o = { u.setOp id x with pins := { u.pins with paCtl := none } } := by
    rw [hx, ← hlag, ← htail, hu]
    rfl
  rw [heq]
  refine ⟨fun n => ?_, ?_, ?_, ?_, ?_⟩
  · show u.acct n = _
    rw [hu, s.acct_sentWhole]
  · rw [← hx]
    exact u.op_setOp_self id x
  · show { u.pins with paCtl := none } = _
    rw [hseen State.pins fun _ _ _ => rfl]
  · show ∃ x, u.sent = some x ∧ _
    rw [hu]
    exact s.sentWhole_emits o _
  · exact hseen (fun t => ({ t with accts := s.accts, ops := s.ops, pins := s.pins, sent := s.sent } : State)) fun _ _ _ => rfl

/-! What reads registers apart from TXP_STAT. -/

theorem State.hears_of_fld {s t : State} (h : ∀ f : Fld, f.off ≠ TXP_STAT.off → t.fld f = s.fld f) (freq w : Nat) :
    t.hears freq w = s.hears freq w := by
  have hon (f : Fld) (hf : f.off ≠ TXP_STAT.off) : t.on f = s.on f := by
    unfold State.on
    rw [h f hf]
  have hix (c : Chain) : CHZ_WINn.off (chainIx c) ≠ TXP_STAT.off := by cases c <;> decide
  have hover (c : Chain) (b : Int) : t.overlaps c freq w b = s.overlaps c freq w b := by
    unfold State.overlaps
    rw [h (CHZ_WINn.CENTRE (chainIx c)) (hix c), hon (CHZ_WINn.HALF (chainIx c)) (hix c)]
  have hbins (c : Chain) : t.overlapBins c freq w = s.overlapBins c freq w :=
    List.filter_congr fun b _ => hover c b
  have hspan (c : Chain) : t.span c freq w = s.span c freq w := by
    unfold State.span State.highBand
    rw [hbins, h (CHZ_WINn.CENTRE (chainIx c)) (hix c)]
  have hruns (c : Chain) : t.palRuns c = s.palRuns c := by cases c <;> exact hon _ (by decide)
  have hcovers (c : Chain) : t.covers c freq w = s.covers c freq w := by
    unfold State.covers
    rw [hruns, hspan]
  unfold State.hears
  rw [hon CHZ_CTRL.DET_A (by decide), hon CHZ_CTRL.DET_B (by decide), hcovers, hcovers]

theorem State.regs_setOp (s : State) (id : Nat) (x : RadioOp) : (s.setOp id x).regs = s.regs := rfl

theorem State.fld_txFree_ne (s : State) {f : Fld} (h : f.off ≠ TXP_STAT.off) : s.txFree.fld f = s.fld f := by
  rw [State.fld_of_regs s.txFree_regs, State.fld_setFld_ne _ _ _ _ h]

theorem State.inOwnCell_txFree (s : State) (o : RadioOp) : s.txFree.inOwnCell o = s.inOwnCell o := by
  have hmac : s.txFree.mac = s.mac := State.txFree_unseen (fun _ _ _ _ => rfl) s
  have hcell : s.txFree.upCell = s.upCell := State.txFree_unseen (fun _ _ _ _ => rfl) s
  have hbo : s.txFree.upBo = s.upBo := State.txFree_unseen (fun _ _ _ _ => rfl) s
  have hsync : s.txFree.upSync = s.upSync := by
    unfold State.upSync State.on
    rw [s.fld_txFree_ne (by decide), s.fld_txFree_ne (by decide)]
  unfold State.inOwnCell
  rw [hmac, hcell, hbo, hsync]

/-! TX_END, one step at a time. -/

section
variable {s : State} {id : Nat} {o : RadioOp} {k : Fin 64}

theorem exec_txEnd (h : s.op id = some o) : exec (.txEnd id) s = .next (s.txAfter id o) := by
  show execTxEnd id s = _
  simp only [execTxEnd, h]

theorem State.txAfter_ramps (hp : o.phase = .onAir) (hc : o.copies = 0) (hr : s.reach (o.t + o.air + usFine s.rampUs) = true) :
    s.txAfter id o = (s.moveTo (o.t + o.air + usFine s.rampUs)).txRamped id o := by
  unfold State.txAfter
  rw [hp]
  exact if_pos ⟨hc, hr⟩

/-- PA_EN falls (Table 3-7 step 7). -/
theorem State.txAfter_falls (hp : o.phase = .fall) (hr : s.reach o.fallAt = true) :
    let t := s.txAfter id o
    t.op id = some { o with phase := .swap } ∧ t.pins = { s.pins with paEn := false, paCtl := none } ∧
      t.holds (.pa id) = false ∧ t.wkr = { s.wkr with blind := ceilDiv (o.fallAt + msFine 1) 6000 } ∧ t.ctx = s.ctx := by
  have heq : s.txAfter id o = (s.moveTo o.fallAt).txFall id o := by
    unfold State.txAfter
    rw [hp]
    exact if_pos hr
  obtain ⟨v, hv⟩ : ∃ v, v = s.moveTo o.fallAt := ⟨_, rfl⟩
  obtain ⟨u, hu⟩ : ∃ u, u = v.withdraw (.pa id) := ⟨_, rfl⟩
  obtain ⟨w, hw⟩ : ∃ w, w = v.paFall id o.fallAt := ⟨_, rfl⟩
  have hwell : w.well = u.well := by
    rw [hw, hu]
    exact State.selfMark_unseen (g := State.well) (fun _ _ _ => rfl) _
  have hpins : w.pins = { s.pins with paEn := false, paCtl := none } := by
    rw [hw]
    show { (v.withdraw (.pa id)).selfMark.pins with paEn := false, paCtl := none } = _
    rw [State.selfMark_unseen (g := State.pins) (fun _ _ _ => rfl), State.withdraw_pins, hv]
    rfl
  have hwkr : w.wkr = { s.wkr with blind := ceilDiv (o.fallAt + msFine 1) 6000 } := by
    rw [hw]
    show { (v.withdraw (.pa id)).selfMark.wkr with blind := ceilDiv (o.fallAt + msFine 1) 6000 } = _
    rw [State.selfMark_unseen (g := State.wkr) (fun _ _ _ => rfl), State.withdraw_wkr, hv]
    rfl
  have hctx : w.ctx = s.ctx := by
    rw [hw, State.paFall_unseen (g := State.ctx) (fun _ _ _ _ _ _ => rfl), hv]
    rfl
  have hholds : w.holds (.pa id) = false := by
    unfold State.holds
    rw [hwell, hu]
    exact v.holds_withdraw (.pa id)
  dsimp only
  rw [heq, ← hv]
  unfold State.txFall
  rw [← hw]
  exact ⟨w.op_setOp_self _ _, hpins, hholds, hwkr, hctx⟩

theorem State.txAfter_swaps (hp : o.phase = .swap) (hr : s.reach o.backAt = true) :
    s.txAfter id o = (s.moveTo o.backAt).txDone id o := by
  unfold State.txAfter
  rw [hp]
  exact if_pos hr

/-- The switches return after a transmission whose outcome has been told (Table 3-7 step 8). -/
theorem State.txDone_aborted (ha : o.aborted = true) :
    (s.txDone id o).op id = none ∧ (s.txDone id o).Freed ∧ (s.txDone id o).ctx = s.ctx := by
  obtain ⟨u, hu⟩ : ∃ u, u = s.txFree := ⟨_, rfl⟩
  have hfreed : u.Freed := hu ▸ s.txFree_freed
  have hctx : u.ctx = s.ctx := hu ▸ State.txFree_unseen (g := State.ctx) (fun _ _ _ _ => rfl) s
  have heq : s.txDone id o = u.dropOp id := by
    simp only [State.txDone, ha, if_true, hu]
  rw [heq]
  exact ⟨Tab.get_drop_self _ _ _, hfreed.of_same rfl rfl, hctx⟩

/-- The transmission whose switches have returned awaits what follows. -/
def State.swapped (s : State) (id : Nat) (o : RadioOp) : State := s.txFree.setOp id { o with phase := .ackWait }

theorem State.Sole.swapped (h : s.Sole id o k) : (s.swapped id o).Sole id { o with phase := .ackWait } k := h.txFree.setOp rfl rfl

theorem State.swapped_freed : (s.swapped id o).Freed := s.txFree_freed.of_same rfl rfl

theorem State.txDone_sent (hk : o.kind = .txf) (ha : o.aborted = false) (hc : s.inOwnCell o = false) :
    s.txDone id o = if o.wantAck then
        if s.hears o.freq o.width then s.swapped id o
        else ((s.swapped id o).setNocov true).opEnd id Status.noAck (min o.units 0xFFFF)
      else (s.swapped id o).opEnd id o.sent (min o.units 0xFFFF) := by
  have hcell : s.txFree.inOwnCell o = false := s.inOwnCell_txFree o |>.trans hc
  have hbeacon : (o.kind == OpKind.beacon) = false := by rw [hk]; rfl
  have hset (u : State) (x : RadioOp) : (u.setOp id x).hears o.freq o.width = u.hears o.freq o.width :=
    State.hears_of_fld (fun f _ => State.fld_of_regs (u.regs_setOp id x) f) _ _
  have hfree : s.txFree.hears o.freq o.width = s.hears o.freq o.width := State.hears_of_fld (fun f hf => s.fld_txFree_ne hf) _ _
  simp only [State.txDone, ha, Bool.false_eq_true, if_false, hcell, hbeacon, hset, hfree, State.swapped]

theorem RadioOp.sent_lt (o : RadioOp) : o.sent < 256 := by
  unfold RadioOp.sent
  split <;> decide

end

end Sys2Proof.Machine

/-! The last step of Table 3-7, the acknowledgement's window, copies of a call, and buckets (R125, R128, R132, R133). -/

namespace Sys2Proof.Machine

theorem State.moveTo_unseen {β : Type} {g : State → β} (hg : ∀ t m, g { t with time := m } = g t) (s : State) (n : Nat) :
    g (s.moveTo n) = g s :=
  hg s _

section
variable {s : State} {id : Nat} {o : RadioOp} {k : Fin 64}

theorem execTxEnd_aborted (h : s.Sole id o k) (hp : o.phase = .swap) (hr : s.reach o.backAt = true) (ha : o.aborted = true) :
    ∃ t, exec (.txEnd id) s = .next t ∧ t.op id = none ∧ t.Freed ∧ t.ctx = s.ctx := by
  refine ⟨_, exec_txEnd h.op, ?_⟩
  rw [State.txAfter_swaps hp hr]
  exact State.txDone_aborted ha

theorem State.Sole.moveTo (h : s.Sole id o k) (n : Nat) : (s.moveTo n).Sole id o k := h.of_same rfl rfl

/-- The outcome of a TXF that awaits no acknowledgement: OK or LATE_SENT, with the launch instant and its airtime units. -/
theorem execTxEnd_ends (h : s.Sole id o k) (hk : o.kind = .txf) (hd : o.d ≠ 0) (hp : o.phase = .swap) (hr : s.reach o.backAt = true)
    (ha : o.aborted = false) (hc : s.inOwnCell o = false) (hw : o.wantAck = false) :
    ∃ t, exec (.txEnd id) s = .next t ∧ t.EndsWith id o k (if o.late then 0x17 else 0) ∧ t.Freed ∧
      ((t.cx k.val).rdT o.ts).toNat = stampWord o.t % 2 ^ 64 ∧ t.accts = s.accts ∧
      (o.units < 65536 → ((t.cx k.val).rd o.d).toNat / 65536 = o.units) := by
  obtain ⟨v, hv⟩ : ∃ v, v = s.moveTo o.backAt := ⟨_, rfl⟩
  have hsole : (v.swapped id o).Sole id { o with phase := .ackWait } k := (hv ▸ h.moveTo o.backAt).swapped
  have hcell : v.inOwnCell o = false := hv ▸ hc
  obtain ⟨hend, -, -⟩ := hsole.opEnd (by simp [hk]) (by simp) o.sent_lt (min o.units 0xFFFF)
  have hdone : v.txDone id o = (v.swapped id o).opEnd id o.sent (min o.units 0xFFFF) := by
    rw [State.txDone_sent hk ha hcell, hw]
    rfl
  refine ⟨_, exec_txEnd h.op, ?_⟩
  rw [State.txAfter_swaps hp hr, ← hv, hdone]
  refine ⟨hsole.opEnd_endsWith hk hd (by simp) o.sent_lt _, (hsole.opEnd_freed v.swapped_freed hk (by simp) o.sent_lt _).1, ?_, ?_,
    fun hu => ?_⟩
  · have hout : o.sent = Status.ok ∨ o.sent = Status.lateSent ∨ o.sent = Status.noAck := by
      unfold RadioOp.sent
      split
      · exact .inr (.inl rfl)
      · exact .inl rfl
    rw [hend.launch hk hout, BitVec.toNat_ofNat]
  · refine (hend.unseen State.accts fun _ _ _ _ _ _ => rfl).trans ?_
    refine (State.txFree_unseen (g := State.accts) (fun _ _ _ _ => rfl) v).trans ?_
    rw [hv]
    rfl
  · rw [hend.word hd, State.radioWord_div _ o.sent_lt]
    omega

theorem State.swapped_seen {β : Type} {g : State → β}
    (hg : ∀ t r n p op, g { t with regs := r, pins := n, pwr := p, ops := op } = g t) (s : State) (id : Nat) (o : RadioOp) :
    g (s.swapped id o) = g s :=
  (hg s.txFree _ _ _ _).trans (State.txFree_unseen (fun t r n p => hg t r n p t.ops) s)

theorem execTxEnd_awaits (h : s.Sole id o k) (hk : o.kind = .txf) (hp : o.phase = .swap) (hr : s.reach o.backAt = true)
    (ha : o.aborted = false) (hc : s.inOwnCell o = false) (hw : o.wantAck = true) (hh : s.hears o.freq o.width = true) :
    ∃ t, exec (.txEnd id) s = .next t ∧ t.op id = some { o with phase := .ackWait } ∧ t.Freed ∧ t.accts = s.accts ∧
      t.ctx = s.ctx := by
  obtain ⟨v, hv⟩ : ∃ v, v = s.moveTo o.backAt := ⟨_, rfl⟩
  have hcell : v.inOwnCell o = false := hv ▸ hc
  have hhears : v.hears o.freq o.width = true := by
    rw [hv]
    exact (State.hears_of_fld (fun f _ => State.fld_of_regs (s.moveTo_regs _) f) _ _).trans hh
  have hdone : v.txDone id o = v.swapped id o := by
    rw [State.txDone_sent hk ha hcell, hw, hhears]
    rfl
  refine ⟨_, exec_txEnd h.op, ?_⟩
  rw [State.txAfter_swaps hp hr, ← hv, hdone]
  refine ⟨State.op_setOp_self _ _ _, v.swapped_freed, ?_, ?_⟩
  · refine (State.swapped_seen (g := State.accts) (fun _ _ _ _ _ => rfl) v id o).trans ?_
    rw [hv]
    rfl
  · refine (State.swapped_seen (g := State.ctx) (fun _ _ _ _ _ => rfl) v id o).trans ?_
    rw [hv]
    rfl

theorem execTxEnd_unheard (h : s.Sole id o k) (hk : o.kind = .txf) (hd : o.d ≠ 0) (hp : o.phase = .swap)
    (hr : s.reach o.backAt = true) (ha : o.aborted = false) (hc : s.inOwnCell o = false) (hw : o.wantAck = true)
    (hh : s.hears o.freq o.width = false) :
    ∃ t, exec (.txEnd id) s = .next t ∧ t.EndsWith id o k Status.noAck ∧ t.Freed ∧ t.on TXP_STAT.NOCOV = true ∧
      t.accts = s.accts := by
  obtain ⟨v, hv⟩ : ∃ v, v = s.moveTo o.backAt := ⟨_, rfl⟩
  obtain ⟨u, hu⟩ : ∃ u, u = (v.swapped id o).setNocov true := ⟨_, rfl⟩
  have hcell : v.inOwnCell o = false := hv ▸ hc
  have hhears : v.hears o.freq o.width = false := by
    rw [hv]
    exact (State.hears_of_fld (fun f _ => State.fld_of_regs (s.moveTo_regs _) f) _ _).trans hh
  have hdone : v.txDone id o = u.opEnd id Status.noAck (min o.units 0xFFFF) := by
    rw [State.txDone_sent hk ha hcell, hw, hhears, hu]
    rfl
  have hsw : (v.swapped id o).Sole id { o with phase := .ackWait } k := (hv ▸ h.moveTo o.backAt).swapped
  have hsole : u.Sole id { o with phase := .ackWait } k := hu ▸ hsw.of_same rfl rfl
  have hfreed : u.Freed := hu ▸ v.swapped_freed.of_same (State.fld_setFld_other _ _ _ _ (by decide)) rfl
  have hnocov : u.on TXP_STAT.NOCOV = true := hu ▸ State.on_setFld_one _ _ (by decide)
  have haccts : u.accts = s.accts := by
    rw [hu]
    refine (State.swapped_seen (g := State.accts) (fun _ _ _ _ _ => rfl) v id o).trans ?_
    rw [hv]
    rfl
  obtain ⟨hend, -, -⟩ := hsole.opEnd (by simp [hk]) (by simp) (status := Status.noAck) (by decide) (min o.units 0xFFFF)
  refine ⟨_, exec_txEnd h.op, ?_⟩
  rw [State.txAfter_swaps hp hr, ← hv, hdone]
  refine ⟨hsole.opEnd_endsWith hk hd (by simp) (by decide) _, (hsole.opEnd_freed hfreed hk (by simp) (by decide) _).1, ?_, ?_⟩
  · unfold State.on at *
    rw [hend.fld _ (by decide)]
    exact hnocov
  · exact (hend.unseen State.accts fun _ _ _ _ _ _ => rfl).trans haccts

/-! The window of the acknowledgement (R132). -/

theorem execAckWindowClose_ends (h : s.Sole id o k) (hk : o.kind = .txf) (hd : o.d ≠ 0) (hp : o.phase = .ackWait)
    (hr : s.reach (s.ackWindow o).2 = true) (hn : s.ackDecoding o = false) :
    ∃ t, exec (.ackWindowClose id) s = .next t ∧ t.EndsWith id o k Status.noAck ∧ t.on TXP_STAT.NOCOV = false ∧
      ((t.cx k.val).rd o.d).toNat.testBit 8 = o.late ∧ t.accts = s.accts ∧ t.pins = s.pins := by
  obtain ⟨n, hn'⟩ : ∃ n, n = (s.ackWindow o).2 := ⟨_, rfl⟩
  obtain ⟨u, hu⟩ : ∃ u, u = (s.moveTo n).setNocov false := ⟨_, rfl⟩
  have hdec : (s.moveTo n).ackDecoding o = false :=
    (State.moveTo_unseen (g := fun t => t.ackDecoding o) (fun _ _ => rfl) s n).trans hn
  have hexec : exec (.ackWindowClose id) s = .next (u.opEnd id Status.noAck (min o.units 0xFFFF)) := by
    rw [← hn'] at hr
    show execAckWindowClose id s = _
    simp only [execAckWindowClose, h.op, hp, ← hn', hr, hdec, hu, beq_self_eq_true, Bool.and_true, if_true, Bool.false_eq_true,
      if_false]
  have hsole : u.Sole id o k := hu ▸ h.of_same (by simp [State.setNocov]) (by simp [State.setNocov])
  have hnocov : u.on TXP_STAT.NOCOV = false := hu ▸ State.on_setFld_zero _ _ (by decide)
  have haccts : u.accts = s.accts := by simp [hu, State.setNocov]
  have hpins : u.pins = s.pins := by simp [hu, State.setNocov]
  have hc : o.phase ≠ .claim := by simp [hp]
  obtain ⟨hend, -, -⟩ := hsole.opEnd (by simp [hk]) hc (status := Status.noAck) (by decide) (min o.units 0xFFFF)
  refine ⟨_, hexec, hsole.opEnd_endsWith hk hd hc (by decide) _, ?_, ?_, ?_, ?_⟩
  · unfold State.on at *
    rw [hend.fld _ (by decide)]
    exact hnocov
  · have hacted : o.acted = true := by simp [RadioOp.acted, hp]
    rw [hend.word hd, State.radioWord_late _ (by decide), hacted, Bool.and_true]
  · exact (hend.unseen State.accts fun _ _ _ _ _ _ => rfl).trans haccts
  · exact (hend.unseen State.pins fun _ _ _ _ _ _ => rfl).trans hpins

theorem execAckWindowClose_decodes (h : s.op id = some o) (hp : o.phase = .ackWait)
    (hr : s.reach (s.ackWindow o).2 = true) (hn : s.ackDecoding o = true) :
    exec (.ackWindowClose id) s = .next ((s.moveTo (s.ackWindow o).2).setOp id { o with phase := .ackDecode }) := by
  obtain ⟨v, hv⟩ : ∃ v, v = s.moveTo (s.ackWindow o).2 := ⟨_, rfl⟩
  have hdec : v.ackDecoding o = true := by
    rw [hv]
    exact (State.moveTo_unseen (g := fun t => t.ackDecoding o) (fun _ _ => rfl) s _).trans hn
  show execAckWindowClose id s = _
  simp [execAckWindowClose, h, hp, hr, ← hv, hdec]

end

/-! Copies of a wake call (R133). -/

section
variable {s : State} {id : Nat} {o : RadioOp}

theorem execCallCopyEnd_last (h : s.op id = some o) (hk : o.kind = .calltx) (hp : o.phase = .onAir) (hc : o.copies = 0) :
    exec (.callCopyEnd id) s = .next (s.txAfter id o) := by
  show execCallCopyEnd id s = _
  simp [execCallCopyEnd, h, hk, hp, hc]

/-- A copy with more to come is charged, and the next begins GAP ms later. -/
theorem execCallCopyEnd_next (h : s.op id = some o) (hk : o.kind = .calltx) (hp : o.phase = .onAir) (hc : o.copies ≠ 0)
    (hr : s.reach (o.t + o.air) = true) :
    ∃ t, exec (.callCopyEnd id) s = .next t ∧
      (∀ n, t.acct n = if n ∈ (s.asOf o).acctsOf o.freq o.width
        then addBucket ((s.asOf o).expiryTick n (o.t + o.air)) (airUnits o.air) (s.acct n) else s.acct n) ∧
      t.op id = some { o with
        t := o.t + o.air + msFine (s.fld TXP_CALL_CFG.GAP), copies := o.copies - 1, units := o.units + airUnits o.air } ∧
      t.pins = s.pins ∧ (∃ x, t.sent = some x ∧ x.chips = (s.callChips o).take (o.air / 49152)) ∧
      { t with accts := s.accts, ops := s.ops, sent := s.sent, time := s.time } = s := by
  obtain ⟨n, hn⟩ : ∃ n, n = o.t + o.air := ⟨_, rfl⟩
  obtain ⟨v, hv⟩ : ∃ v, v = s.moveTo n := ⟨_, rfl⟩
  obtain ⟨u, hu⟩ : ∃ u, u = v.sentWhole o n := ⟨_, rfl⟩
  have hseen {β : Type} (g : State → β) (hg : ∀ t a x m, g { t with accts := a, sent := x, time := m } = g t) : g u = g s := by
    rw [hu, State.sentWhole_unseen fun t a x => hg t a x t.time, hv]
    exact State.moveTo_unseen (fun t m => hg t t.accts t.sent m) s n
  have hgap : u.fld TXP_CALL_CFG.GAP = s.fld TXP_CALL_CFG.GAP := hseen (fun t => t.fld TXP_CALL_CFG.GAP) fun _ _ _ _ => rfl
  have hexec : exec (.callCopyEnd id) s = .next (u.setOp id { o with
      t := n + msFine (u.fld TXP_CALL_CFG.GAP), copies := o.copies - 1, units := o.units + airUnits o.air }) := by
    have hreach : s.reach (o.t + o.air) = true := hr
    show execCallCopyEnd id s = _
    simp only [execCallCopyEnd, h, hk, hp, hc, hreach, bne_self_eq_false, Bool.or_self, Bool.false_eq_true, if_false, if_true]
    rw [hu, hv, hn]
    rfl
  rw [hgap] at hexec
  refine ⟨_, hexec, fun j => ?_, ?_, ?_, ?_, ?_⟩
  · show u.acct j = _
    rw [hu, v.acct_sentWhole, hv, ← hn]
    rfl
  · rw [State.op_setOp_self, hn]
  · exact hseen State.pins fun _ _ _ _ => rfl
  · obtain ⟨x, hx, -, -, -, -, hchips⟩ := v.sentWhole_emits o n
    refine ⟨x, ?_, (hchips hk).trans ?_⟩
    · show u.sent = _
      rw [hu]
      exact hx
    · rw [hv, State.moveTo_unseen (g := fun t => t.callChips o) fun _ _ => rfl]
  · exact hseen (fun t => ({ t with accts := s.accts, ops := s.ops, sent := s.sent, time := s.time } : State)) fun _ _ _ _ => rfl

end

/-! Buckets (R128). -/

theorem execBucketExpiry_drops (n : Fin 8) (k : Nat) (s : State) (hk : ((s.acct n.val).map (·.tick)).min? = some k)
    (hr : s.reach (6000 * k) = true) : ∃ t, exec (.bucketExpiry n) s = .next t ∧ k ≤ t.tick ∧
      t.acct n.val = (s.acct n.val).filter (fun b => decide (t.tick < b.tick)) ∧ (∀ b ∈ t.acct n.val, k < b.tick) ∧
      t.used n.val = ((t.acct n.val).map (·.units)).foldl (· + ·) 0 ∧ (∀ j, j ≠ n.val → t.acct j = s.acct j) ∧
      { t with accts := s.accts, time := s.time } = s := by
  obtain ⟨v, hv⟩ : ∃ v, v = s.moveTo (6000 * k) := ⟨_, rfl⟩
  have hexec : exec (.bucketExpiry n) s =
      .next (v.setAcct n.val ((v.acct n.val).filter (fun b => decide (v.tick < b.tick)))) := by
    show execBucketExpiry n s = _
    simp only [execBucketExpiry, hk, hr, if_true, ← hv]
  have hacct (j : Nat) : v.acct j = s.acct j := hv ▸ rfl
  have htick : k ≤ v.tick := by
    have hnow := State.le_moveTo_now hr
    rw [← hv] at hnow
    unfold State.tick
    omega
  have hset := v.acct_setAcct_self n.val ((v.acct n.val).filter (fun b => decide (v.tick < b.tick)))
  refine ⟨_, hexec, htick, ?_, fun b hb => ?_, ?_, fun j hj => ?_, ?_⟩
  · rw [hset, hacct]
    rfl
  · rw [hset] at hb
    have hlt := of_decide_eq_true (List.mem_filter.1 hb).2
    omega
  · unfold State.used
    rw [hset]
    show List.foldl _ _ (List.map _ (List.filter (fun b : Bucket => decide (v.tick < b.tick)) _)) = _
    rw [List.filter_filter]
    simp only [Bool.and_self]
  · rw [State.acct_setAcct_ne _ _ _ _ hj, hacct]
  · rw [hv]
    rfl

/-- Settles O53: each command by the lemmas of its step, the claim's amount and the ends of operations taken from them. -/
theorem transmissionsOnTheAir : Obligations.TransmissionsOnTheAir := by
  unfold Obligations.TransmissionsOnTheAir
  refine ⟨?_, fun n k s hk hr => execBucketExpiry_drops n k s hk hr⟩
  intro id o k s hops hctx hlnch hd hsusp off ended charged amt e ramped
  have h : s.Sole id o k := ⟨hops, hctx, hlnch, hsusp⟩
  have hramped : ∀ n, ramped ((s.moveTo n).txRamped id o) := fun n => by
    obtain ⟨hcharged, hop, hpins, ⟨x, hx, hstart, hant, hlevel, hdev, hchips⟩, hseen⟩ := (s.moveTo n).txRamped_ramped id o
    refine ⟨hcharged, hop, hpins, ⟨x, hx, hstart, hant, hlevel, hdev, hchips⟩, ?_⟩
    exact congrArg (fun t => ({ t with time := s.time } : State)) hseen
  refine ⟨fun hk ha hp hr hh hq => ⟨fun hn hf => ?_, fun hn => ?_, fun hn hf hpol => ?_, fun hn hf hpol hnl => ?_⟩,
    fun c hk ha hp hready hq hw hf hl hslot => ?_, fun hk hp hc hr => ?_, fun hk hp hr => ?_, fun hk hp hr hh => ⟨fun hab => ?_,
    fun hab hc => ⟨fun hw => ?_, fun hw hears => ?_, fun hw hears => ?_⟩⟩, fun hk hp hr => ⟨fun hn => ?_, fun hn => ?_⟩,
    fun hk hp => ⟨fun hc hr => ?_, fun hc hr => ?_⟩⟩
  · exact execPaGrant_grants h ha hp hr hh hq hn hf
  · obtain ⟨t, ht, hends, hfreed, hpa, hdeny⟩ := execPaGrant_denied h hk hd ha hp hr hh hn
    exact ⟨t, ht, hends, hfreed, hpa, hdeny⟩
  · obtain ⟨t, ht, hends, hfreed, hwaits, hpa⟩ := execPaGrant_ends h hk hd ha hp hr hh hq hn hf hpol
    exact ⟨t, ht, hends, hfreed, hwaits, hpa⟩
  · exact execPaGrant_waits h ha hp hr hh hq hn hf hpol hnl
  · exact execPaGrant_grantsLate h hk ha hp hready hq hw hf hl hslot
  · refine ⟨_, exec_txEnd h.op, ?_⟩
    rw [State.txAfter_ramps hp hc hr]
    exact hramped _
  · exact ⟨_, exec_txEnd h.op, State.txAfter_falls hp hr⟩
  · exact execTxEnd_aborted h hp hr hab
  · exact execTxEnd_ends h hk hd hp hr hab hc hw
  · exact execTxEnd_awaits h hk hp hr hab hc hw hears
  · exact execTxEnd_unheard h hk hd hp hr hab hc hw hears
  · exact execAckWindowClose_ends h hk hd hp hr hn
  · exact execAckWindowClose_decodes h.op hp hr hn
  · exact execCallCopyEnd_next h.op hk hp hc hr
  · refine ⟨_, execCallCopyEnd_last h.op hk hp hc, ?_⟩
    rw [State.txAfter_ramps hp hc hr]
    exact hramped _

end Sys2Proof.Machine

/-! Step 5 of Table 6-2 at a release point (R117–R122, R127, R134). -/

namespace Sys2Proof.Machine

/-! EXH of the accounts without room (R127). -/

theorem State.exhaust_unseen {β : Type} {g : State → β} (hg : ∀ t r, g { t with regs := r } = g t) (s : State) (o : RadioOp)
    (units : Nat) : g (s.exhaust o units) = g s := by
  refine State.foldl_unseen (fun u n => ?_) _ s
  split
  · rfl
  · exact State.raise_unseen hg u _ _

/-- What one account of `exhaust` does. -/
def State.exhaustOne (s : State) (o : RadioOp) (units n : Nat) : State :=
  if (s.asOf o).hasRoom units n then s else s.raise (SGL_ACCn_USED.EXH n) (SGL_ACCn_LIMIT.EXH_CNT n)

theorem State.exhaustOne_unseen {β : Type} {g : State → β} (hg : ∀ t r, g { t with regs := r } = g t) (s : State) (o : RadioOp)
    (units n : Nat) : g (s.exhaustOne o units n) = g s := by
  unfold State.exhaustOne
  split
  · rfl
  · exact State.raise_unseen hg s _ _

theorem State.on_raise_exh (s : State) (n : Nat) :
    (s.raise (SGL_ACCn_USED.EXH n) (SGL_ACCn_LIMIT.EXH_CNT n)).on (SGL_ACCn_USED.EXH n) = true := by
  refine State.on_raise ⟨rfl, show 31 < 32 by decide⟩ ?_
  have hoff : (SGL_ACCn_LIMIT.EXH_CNT n).off ≠ (SGL_ACCn_USED.EXH n).off := by
    show 0x9104 + 16 * n ≠ 0x910C + 16 * n
    omega
  unfold Fld.apart
  simp [hoff]

theorem State.exhaustOne_keeps {s : State} {n : Nat} (h : s.on (SGL_ACCn_USED.EXH n) = true) (o : RadioOp) (units m : Nat) :
    (s.exhaustOne o units m).on (SGL_ACCn_USED.EXH n) = true := by
  unfold State.exhaustOne
  split
  · exact h
  · by_cases hm : m = n
    · rw [hm]
      exact s.on_raise_exh n
    · have hflag : (SGL_ACCn_USED.EXH n).off ≠ (SGL_ACCn_USED.EXH m).off := by
        show 0x910C + 16 * n ≠ 0x910C + 16 * m
        omega
      have hcnt : (SGL_ACCn_USED.EXH n).off ≠ (SGL_ACCn_LIMIT.EXH_CNT m).off := by
        show 0x910C + 16 * n ≠ 0x9104 + 16 * m
        omega
      unfold State.raise State.incSat
      rw [State.on_setFld_ne _ _ _ _ hcnt, State.on_setFld_ne _ _ _ _ hflag]
      exact h

theorem State.exhaustOne_foldl_keeps (l : List Nat) {s : State} {n : Nat} (h : s.on (SGL_ACCn_USED.EXH n) = true) (o : RadioOp) (units : Nat) :
    (l.foldl (fun u m => u.exhaustOne o units m) s).on (SGL_ACCn_USED.EXH n) = true := by
  induction l generalizing s with
  | nil => exact h
  | cons m l ih => exact ih (State.exhaustOne_keeps h o units m)

theorem State.exhaustOne_foldl_sets (l : List Nat) {s : State} {n : Nat} (hn : n ∈ l) {o : RadioOp} {units : Nat}
    (hr : (s.asOf o).hasRoom units n = false) :
    (l.foldl (fun u m => u.exhaustOne o units m) s).on (SGL_ACCn_USED.EXH n) = true := by
  induction l generalizing s with
  | nil => exact absurd hn (by simp)
  | cons m l ih =>
    rw [List.foldl_cons]
    by_cases hm : n = m
    · refine State.exhaustOne_foldl_keeps l ?_ o units
      unfold State.exhaustOne
      rw [← hm, hr]
      exact s.on_raise_exh n
    · refine ih ((List.mem_cons.1 hn).resolve_left hm) ?_
      rw [State.exhaustOne_unseen (g := fun t => (t.asOf o).hasRoom units n) (fun _ _ => rfl) s]
      exact hr

/-- EXH stands on every account of the transmission that has no room (R127). -/
theorem State.exhaust_exh {s : State} {o : RadioOp} {units n : Nat} (hn : n ∈ (s.asOf o).acctsOf o.freq o.width)
    (hr : (s.asOf o).hasRoom units n = false) : (s.exhaust o units).on (SGL_ACCn_USED.EXH n) = true :=
  State.exhaustOne_foldl_sets _ hn hr

/-! The outcomes of step 5. -/

/-- The TXF has ended with `status`: its context has the word and TXP_STAT shows it. -/
structure State.Over (v : State) (o : RadioOp) (k : Fin 64) (status : Nat) (t : State) : Prop where
  ops   : t.ops = []
  ready : (t.cx k.val).st = .ready
  word  : ((t.cx k.val).rd o.d).toNat % 256 = status
  last  : t.fld TXP_STAT.LAST = status
  pins  : t.pins = v.pins
  accts : t.accts = v.accts
  late  : status = Status.late → t.on TXP_STAT.LATE = true
  cbusy : status = Status.channelBusy → t.on TXP_STAT.CBUSY = true

section
variable {v : State} {id : Nat} {o : RadioOp} {k : Fin 64}

theorem State.Sole.over (h : v.Sole id o k) (hk : o.kind = .txf) (hd : o.d ≠ 0) (hc : o.phase ≠ .claim) {status : Nat}
    (hst : status < 256) (extra : Nat) : v.Over o k status (v.opEnd id status extra) := by
  obtain ⟨hend, -, -⟩ := h.opEnd (by simp [hk]) hc hst extra
  have hsends : o.kind.sends = true := by rw [hk]; rfl
  refine ⟨hend.ops, hend.ready, ?_, hend.last hsends, hend.unseen State.pins fun _ _ _ _ _ _ => rfl,
    hend.unseen State.accts fun _ _ _ _ _ _ => rfl, fun hl => hend.late hsends (.inl hl), hend.cbusy hsends⟩
  rw [hend.word hd]
  exact v.radioWord_mod hst _ _

theorem State.Over.of_seen {u t : State} {status : Nat} (h : u.Over o k status t) (hp : u.pins = v.pins) (ha : u.accts = v.accts) :
    v.Over o k status t := { h with pins := h.pins.trans hp, accts := h.accts.trans ha }

theorem State.Sole.setFld (h : v.Sole id o k) (f : Fld) (n : Nat) : (v.setFld f n).Sole id o k := h.of_same (by simp) (by simp)

/-- A status that follows a write of NOCOV. -/
theorem State.Sole.over_nocov (h : v.Sole id o k) (hk : o.kind = .txf) (hd : o.d ≠ 0) (hh : o.holds = false) (hc : o.phase ≠ .claim)
    (b : Bool) : v.Over o k Status.channelBusy ((v.setNocov b).txEnd id Status.channelBusy 0) := by
  have hsole : (v.setNocov b).Sole id o k := h.setFld _ _
  rw [State.txEnd_waiting hsole hk hh]
  exact (hsole.over hk hd hc (by decide) 0).of_seen (by simp [State.setNocov]) (by simp [State.setNocov])

theorem State.Sole.over_txEnd (h : v.Sole id o k) (hk : o.kind = .txf) (hd : o.d ≠ 0) (hh : o.holds = false) (hc : o.phase ≠ .claim)
    {status : Nat} (hst : status < 256) (extra : Nat) : v.Over o k status (v.txEnd id status extra) := by
  rw [State.txEnd_waiting h hk hh]
  exact h.over hk hd hc hst extra

/-- The units that an operation's whole transmission takes. -/
def RadioOp.wholeUnits (o : RadioOp) : Nat := o.units + airUnits o.air * (o.copies + 1)

theorem State.txRoom_late {tr : Nat} (hs : v.slotFits o (tr + v.lead) = false) :
    v.txRoom id o tr = v.txEnd id Status.late 0 := by
  simp [State.txRoom, hs]

theorem State.txRoom_exhausted {tr : Nat} (hs : v.slotFits o (tr + v.lead) = true) (hr : v.allRoom o o.wholeUnits = false) :
    v.txRoom id o tr = (v.exhaust o o.wholeUnits).txEnd id Status.dutyExhausted 0 := by
  unfold RadioOp.wholeUnits at hr ⊢
  simp [State.txRoom, hs, hr]

theorem State.txRoom_goes {tr : Nat} (hs : v.slotFits o (tr + v.lead) = true) (hr : v.allRoom o o.wholeUnits = true) :
    v.txRoom id o tr = v.txGo id o tr := by
  unfold RadioOp.wholeUnits at hr
  simp [State.txRoom, hs, hr]

/-- The accounts have no room: DUTY_EXHAUSTED, and EXH on each of them. -/
theorem State.Sole.over_exhausted (h : v.Sole id o k) (hk : o.kind = .txf) (hd : o.d ≠ 0) (hh : o.holds = false)
    (hc : o.phase ≠ .claim) :
    v.Over o k Status.dutyExhausted ((v.exhaust o o.wholeUnits).txEnd id Status.dutyExhausted 0) ∧
      ∀ n ∈ (v.asOf o).acctsOf o.freq o.width, (v.asOf o).hasRoom o.wholeUnits n = false →
        ((v.exhaust o o.wholeUnits).txEnd id Status.dutyExhausted 0).on (SGL_ACCn_USED.EXH n) = true := by
  obtain ⟨u, hu⟩ : ∃ u, u = v.exhaust o o.wholeUnits := ⟨_, rfl⟩
  have hseen {β : Type} (g : State → β) (hg : ∀ t r, g { t with regs := r } = g t) : g u = g v :=
    hu ▸ State.exhaust_unseen hg v o _
  have hsole : u.Sole id o k := h.of_same (hseen State.ops fun _ _ => rfl) (hseen State.ctx fun _ _ => rfl)
  rw [← hu, State.txEnd_waiting hsole hk hh]
  refine ⟨(hsole.over hk hd hc (by decide) 0).of_seen (hseen State.pins fun _ _ => rfl) (hseen State.accts fun _ _ => rfl),
    fun n hn hr => ?_⟩
  obtain ⟨hend, -, -⟩ := hsole.opEnd (by simp [hk]) hc (status := Status.dutyExhausted) (by decide) 0
  have hexh : u.on (SGL_ACCn_USED.EXH n) = true := hu ▸ State.exhaust_exh hn hr
  have hoff : (SGL_ACCn_USED.EXH n).off ≠ TXP_STAT.off := by
    show 0x910C + 16 * n ≠ 0x9004
    omega
  unfold State.on at *
  rw [hend.fld _ fun g hg => ?_]
  · exact hexh
  · have hoffg : g.off = TXP_STAT.off := by
      revert g
      decide
    unfold Fld.apart
    simp [hoffg, Ne.symm hoff]

end

/-! The test and what follows it. -/

section
variable {v : State} {id : Nat} {o : RadioOp} {k : Fin 64} {tr : Nat}

theorem State.txStep5_clear (h : v.lbtNeeded o = false ∨
    ((v.lbtTest o tr).nocov = false ∧ (v.lbtTest o tr).covered = true ∧ (v.lbtTest o tr).clear = true)) :
    v.txStep5 id o tr = v.txRoom id o tr := by
  rcases h with h | ⟨hn, hc, hl⟩
  · simp [State.txStep5, h]
  · simp [State.txStep5, hn, hc, hl]

theorem State.txStep5_nocov (hb : v.lbtNeeded o = true) (hn : (v.lbtTest o tr).nocov = true) :
    v.txStep5 id o tr = (v.setNocov true).txEnd id Status.channelBusy 0 := by
  simp [State.txStep5, hb, hn]

theorem State.txStep5_uncovered (hk : o.kind = .txf) (hb : v.lbtNeeded o = true) (hn : (v.lbtTest o tr).nocov = false)
    (hc : (v.lbtTest o tr).covered = false) :
    v.txStep5 id o tr = if v.fld TXP_LBT_CFG.MODE = 2 then (v.setNocov false).txEnd id Status.channelBusy 0
      else if o.at_ ∧ !o.late then v.txLate id .cover else v.setOp id { o with phase := .cover } := by
  simp [State.txStep5, hb, hn, hc, hk]

theorem State.txStep5_busy (hb : v.lbtNeeded o = true) (hn : (v.lbtTest o tr).nocov = false) (hc : (v.lbtTest o tr).covered = true)
    (hl : (v.lbtTest o tr).clear = false) : v.txStep5 id o tr = v.txBusy id o tr := by
  simp [State.txStep5, hb, hn, hc, hl]

/-- The launch at a release point: the switches move, SYT is held, T is fixed. -/
theorem State.txGo_goes : let t := v.txGo id o tr
    t.op id = some { o with phase := .grant, t := tr + v.lead } ∧ t.on TXP_STAT.ACTIVE = true ∧ t.fld TXP_STAT.ANT = o.ant % 2 ∧
      t.pins = { v.pins with txrx := true, ant0 := o.ant == 0, ant1 := o.ant != 0 } ∧
      { t with regs := v.regs, pins := v.pins, ops := v.ops } = v := by
  obtain ⟨u, hu⟩ : ∃ u, u = v.switchTx o.ant := ⟨_, rfl⟩
  obtain ⟨hact, hant⟩ := v.switchTx_stat o.ant
  have hpins := v.switchTx_pins o.ant
  have hseen := State.switchTx_unseen (g := fun t => ({ t with regs := v.regs, pins := v.pins, ops := v.ops } : State))
    (fun _ _ _ => rfl) v o.ant
  rw [← hu] at hact hant hpins hseen
  have hgo : v.txGo id o tr = u.setOp id { o with phase := .grant, t := tr + v.lead } := by
    unfold State.txGo
    rw [← hu]
  rw [hgo]
  exact ⟨u.op_setOp_self _ _, hact, hant, hpins, hseen⟩

/-- A busy result with a retry left: T moves by 0.1 ms to 2^BEXP ms (R122). -/
theorem State.Sole.txBusy_retries (h : v.Sole id o k) (ht : o.tries < v.fld TXP_LBT_CFG.RETRY) (hn : o.neverLate = false) :
    ∃ x : RadioOp, x = { o with phase := .backoff, tries := o.tries + 1, t := x.t, listen := x.listen } ∧
      v.txBusy id o tr = v.draw.draw.setOp id x ∧ tr + v.lead < x.t ∧
      x.t ≤ tr + v.lead + ceilDiv (10 * 2 ^ v.fld TXP_LBT_CFG.BEXP * 196608) 10 := by
  obtain ⟨n, hback⟩ : ∃ n, n = 1 + v.random (10 * 2 ^ v.fld TXP_LBT_CFG.BEXP) := ⟨_, rfl⟩
  have hpos : 0 < 10 * 2 ^ v.fld TXP_LBT_CFG.BEXP := by positivity
  have hmax : n ≤ 10 * 2 ^ v.fld TXP_LBT_CFG.BEXP := by
    have hlt : v.random (10 * 2 ^ v.fld TXP_LBT_CFG.BEXP) < 10 * 2 ^ v.fld TXP_LBT_CFG.BEXP := Nat.mod_lt _ hpos
    omega
  have hdraw : v.drawBackoff = (v.draw, n) := by rw [hback]; rfl
  refine ⟨{ o with
    phase := .backoff, tries := o.tries + 1, t := tr + v.lead + ceilDiv (n * 196608) 10
    listen := v.draw.fld TXP_LBT_CFG.LISTEN + v.draw.random (v.draw.fld TXP_LBT_CFG.RAND + 1) }, rfl, ?_, ?_, ?_⟩
  · simp only [State.txBusy, ht, hn, hdraw, State.drawListen, h.lnch, Bool.not_false, and_self, if_true]
  · show tr + v.lead < tr + v.lead + ceilDiv (n * 196608) 10
    unfold ceilDiv
    omega
  · show tr + v.lead + ceilDiv (n * 196608) 10 ≤ _
    unfold ceilDiv
    omega

theorem State.txBusy_ends (h : ¬(o.tries < v.fld TXP_LBT_CFG.RETRY ∧ (!o.neverLate) = true)) :
    v.txBusy id o tr = (v.setNocov false).txEnd id Status.channelBusy 0 := if_neg h

end

end Sys2Proof.Machine

/-! TX_RELEASE_POINT, LBT_COVERED and LBT_RETRY (R117–R125). -/

namespace Sys2Proof.Machine

section
variable {s : State} {id : Nat} {o : RadioOp} {k : Fin 64}

theorem State.txReady_moveTo (s : State) (n : Nat) (o : RadioOp) : (s.moveTo n).txReady o = s.txReady o :=
  State.moveTo_unseen (g := fun t => t.txReady o) (fun _ _ => rfl) s n

theorem State.txReady_touch (s : State) (o : RadioOp) : s.touch.txReady o = s.txReady o :=
  State.touch_unseen (g := fun t => t.txReady o) (fun _ _ _ => rfl) s

/-- A scheduled TXF at its release point, this XO32 period's: step 5 when it is ready, else a late occurrence. -/
theorem exec_txReleasePoint_scheduled (h : s.Sole id o k) (ha : s.awake = true) (hk : o.kind = .txf) (hp : o.phase = .release)
    (hat : o.at_ = true) (hl : o.late = false) (hr : s.reach (s.release o) = true) (he : s.time.edge ≤ s.release o) :
    exec (.txReleasePoint id) s = .next (if s.txReady o then (s.moveTo (s.release o)).txStep5 id o (s.release o)
      else (s.moveTo (s.release o)).txLate id .release) := by
  obtain ⟨n, hn⟩ : ∃ n, n = s.release o := ⟨_, rfl⟩
  have hpast : (s.moveTo n).releasePast o = false := by
    have hedge : ¬ s.release o < s.time.edge := Nat.not_lt.2 he
    unfold State.releasePast
    rw [h.lnch, Bool.or_false]
    exact decide_eq_false hedge
  have hbeacon : (s.moveTo n).beaconReady id o = (s.moveTo n, o) := by simp [State.beaconReady, hk]
  have hat' : (s.releaseAt id o) = if s.txReady o then (s.moveTo n).txStep5 id o n else (s.moveTo n).txLate id .release := by
    unfold State.releaseAt
    rw [← hn]
    dsimp only
    rw [s.txReady_moveTo, hpast, hbeacon]
    cases hready : s.txReady o <;> simp [hp, hk]
  rw [← hn] at hr
  show execTxReleasePoint id s = _
  simp [execTxReleasePoint, h.op, ha, hk, hp, hat, hl, OpKind.sends, ← hn, hr, hat']

/-- A TXF without a launch instant, as soon as it is ready. -/
theorem exec_txReleasePoint_ready (h : s.op id = some o) (ha : s.awake = true) (hk : o.kind = .txf) (hp : o.phase = .release)
    (hat : o.at_ = false) (hready : s.txReady o = true) :
    exec (.txReleasePoint id) s = .next (s.touch.txStep5 id o s.touch.stamp) := by
  show execTxReleasePoint id s = _
  simp [execTxReleasePoint, h, ha, hk, hp, hat, OpKind.sends, hready]

theorem exec_lbtCovered_txf (h : s.op id = some o) (ha : s.awake = true) (hk : o.kind = .txf) (hp : o.phase = .cover)
    (hready : s.txReady o = true) (hc : (s.touch.lbtTest o s.touch.stamp).covered = true) :
    exec (.lbtCovered id) s = .next (s.touch.txStep5 id o s.touch.stamp) := by
  show execLbtCovered id s = _
  simp [execLbtCovered, h, ha, hk, hp, hc, s.txReady_touch, hready]

theorem exec_lbtRetry_ready (h : s.op id = some o) (ha : s.awake = true) (hp : o.phase = .backoff)
    (hr : s.reach (s.release o) = true) (hready : s.txReady o = true) :
    exec (.lbtRetry id) s = .next ((s.moveTo (s.release o)).txStep5 id o (s.release o)) := by
  obtain ⟨n, hn⟩ : ∃ n, n = s.release o := ⟨_, rfl⟩
  have hrel : (s.moveTo n).release o = n := hn ▸ rfl
  rw [← hn] at hr
  show execLbtRetry id s = _
  simp only [execLbtRetry, h, ha, hp, ← hn, hr, s.txReady_moveTo, hready, hrel, beq_self_eq_true, Bool.and_self, if_true]

theorem exec_lbtRetry_unready (h : s.op id = some o) (ha : s.awake = true) (hp : o.phase = .backoff)
    (hr : s.reach (s.release o) = true) (hready : s.txReady o = false) (hat : o.at_ = false) :
    exec (.lbtRetry id) s = .next ((s.moveTo (s.release o)).setOp id { o with phase := .release }) := by
  obtain ⟨n, hn⟩ : ∃ n, n = s.release o := ⟨_, rfl⟩
  rw [← hn] at hr
  show execLbtRetry id s = _
  simp [execLbtRetry, h, ha, hp, ← hn, hr, s.txReady_moveTo, hready, hat]

/-! The LBT instruction (R119). -/

theorem State.Sole.lbtDecide_covered (h : s.Sole id o k) (hk : o.kind = .lbt) (hd : o.d ≠ 0) (hc : o.phase ≠ .claim) {tr : Nat}
    (hn : (s.lbtTest o tr).nocov = false) (hcov : (s.lbtTest o tr).covered = true) :
    let t := s.lbtDecide id o tr
    t.ops = [] ∧ (t.cx k.val).st = .ready ∧
      ((t.cx k.val).rd o.d).toNat % 256 = (if (s.lbtTest o tr).clear then 0 else 0x12) ∧
      ((s.lbtTest o tr).worst < 65536 → ((t.cx k.val).rd o.d).toNat / 65536 = (s.lbtTest o tr).worst) ∧ t.pins = s.pins := by
  obtain ⟨status, hst⟩ : ∃ n, n = if (s.lbtTest o tr).clear then Status.ok else Status.channelBusy := ⟨_, rfl⟩
  have hlt : status < 256 := by
    rw [hst]
    split <;> decide
  have heq : s.lbtDecide id o tr = s.opEnd id status (s.lbtTest o tr).worst := by simp [State.lbtDecide, hn, hcov, hst]
  obtain ⟨hend, -, -⟩ := h.opEnd (by simp [hk]) hc hlt (s.lbtTest o tr).worst
  dsimp only
  rw [heq]
  refine ⟨hend.ops, hend.ready, ?_, fun hw => ?_, hend.unseen State.pins fun _ _ _ _ _ _ => rfl⟩
  · rw [hend.word hd, State.radioWord_mod _ hlt, hst]
    rfl
  · rw [hend.word hd, State.radioWord_div _ hlt, Nat.mod_eq_of_lt hw]

theorem State.Sole.lbtDecide_nocov (h : s.Sole id o k) (hk : o.kind = .lbt) (hd : o.d ≠ 0) (hc : o.phase ≠ .claim) {tr : Nat}
    (hn : (s.lbtTest o tr).nocov = true) :
    let t := s.lbtDecide id o tr
    t.ops = [] ∧ ((t.cx k.val).rd o.d).toNat % 256 = 0x12 ∧ ((t.cx k.val).rd o.d).toNat / 65536 = 255 := by
  have heq : s.lbtDecide id o tr = s.opEnd id Status.channelBusy 255 := by simp [State.lbtDecide, hn]
  obtain ⟨hend, -, -⟩ := h.opEnd (by simp [hk]) hc (status := Status.channelBusy) (by decide) 255
  dsimp only
  rw [heq]
  refine ⟨hend.ops, ?_, ?_⟩
  · rw [hend.word hd]
    exact State.radioWord_mod _ (by decide) _ _
  · rw [hend.word hd, State.radioWord_div _ (by decide)]

theorem exec_lbt_scheduled (h : s.op id = some o) (ha : s.awake = true) (hk : o.kind = .lbt) (hp : o.phase = .release)
    (hat : o.at_ = true) (hr : s.reach o.t = true) :
    exec (.txReleasePoint id) s = .next ((s.moveTo o.t).lbtDecide id o o.t) := by
  show execTxReleasePoint id s = _
  simp [execTxReleasePoint, h, ha, hk, hp, hat, hr]

theorem exec_lbt_now (h : s.op id = some o) (ha : s.awake = true) (hk : o.kind = .lbt) (hp : o.phase = .release)
    (hat : o.at_ = false) : exec (.txReleasePoint id) s = .next (s.touch.lbtDecide id o s.touch.stamp) := by
  show execTxReleasePoint id s = _
  simp [execTxReleasePoint, h, ha, hk, hp, hat]

theorem exec_lbtCovered_lbt (h : s.op id = some o) (ha : s.awake = true) (hk : o.kind = .lbt) (hp : o.phase = .cover)
    (hc : (s.touch.lbtTest o s.touch.stamp).covered = true) :
    exec (.lbtCovered id) s = .next (s.touch.lbtDecide id o s.touch.stamp) := by
  show execLbtCovered id s = _
  simp [execLbtCovered, h, ha, hk, hp, hc]

end

end Sys2Proof.Machine

/-! The release point as a whole (Table 6-2 step 5). -/

namespace Sys2Proof.Machine

/-- The state with its operations and its draw counter set. -/
def State.opsFree (s : State) (ops : Tab (Option RadioOp)) (n : Nat) : State := { s with ops := ops, free := n }

theorem State.opsFree_draw (s : State) (ops : Tab (Option RadioOp)) (n : Nat) : s.draw.opsFree ops n = s.opsFree ops n := rfl

theorem State.opsFree_setOp (s : State) (id : Nat) (x : RadioOp) (ops : Tab (Option RadioOp)) (n : Nat) :
    (s.setOp id x).opsFree ops n = s.opsFree ops n := rfl

/-- Settles O52: every command comes to step 5 in a state that differs from `s` in its time alone, and step 5's outcomes follow
one by one. -/
theorem releasePointAndListenBeforeTalk : Obligations.ReleasePointAndListenBeforeTalk := by
  unfold Obligations.ReleasePointAndListenBeforeTalk
  intro id o k s ha hops hctx hlnch hd hsusp ended goes go step5
  have h : s.Sole id o k := ⟨hops, hctx, hlnch, hsusp⟩
  have hended : ∀ c v t status, exec c s = .next t → v.pins = s.pins → v.accts = s.accts → status ≠ 0x13 →
      v.Over o k status t → ended c v status := fun c v t status ht hp hac hne hov =>
    ⟨t, ht, hov.ops, hov.ready, hov.word, hov.last, hov.pins.trans hp, hov.accts.trans hac, hov.late, hov.cbusy,
      fun hst => absurd hst hne⟩
  have hgoes : ∀ c v tr, v.regs = s.regs → v.pins = s.pins → v.ops = s.ops → exec c s = .next (v.txStep5 id o tr) → go v tr →
      ∃ t, exec c s = .next t ∧ goes t v tr := by
    intro c v tr hregs hpins hvops hexec ⟨hclear, hslot, hroom⟩
    have hlead : v.lead = s.lead := by
      unfold State.lead State.rampUs
      rw [State.fld_of_regs hregs, State.fld_of_regs hregs, State.fld_of_regs hregs]
    rw [← hlead] at hslot
    obtain ⟨hop, hact, hant, htp, hseen⟩ := State.txGo_goes (v := v) (id := id) (o := o) (tr := tr)
    rw [State.txStep5_clear hclear, State.txRoom_goes hslot hroom] at hexec
    rw [hlead] at hop
    rw [hpins] at htp hseen
    rw [hregs, hvops] at hseen
    exact ⟨_, hexec, hop, hact, hant, htp, hseen⟩
  have hstep : ∀ c v tr, v.Sole id o k → v.regs = s.regs → v.pins = s.pins → v.accts = s.accts → v.ops = s.ops →
      o.kind = .txf → o.holds = false → o.phase ≠ .claim → exec c s = .next (v.txStep5 id o tr) → step5 c v tr := by
    intro c v tr hv hregs hpins haccts hvops hk hh hc hexec
    have hlead : v.lead = s.lead := by
      unfold State.lead State.rampUs
      rw [State.fld_of_regs hregs, State.fld_of_regs hregs, State.fld_of_regs hregs]
    have hfld : ∀ f, v.fld f = s.fld f := fun f => State.fld_of_regs hregs f
    refine ⟨fun hclear hslot => ?_, fun hclear hslot hroom => ?_, fun hb hn => ?_, fun hb hn hcov hm => ?_,
      fun hb hn hcov hm hat hl hpol => ?_, fun hb hn hcov hm hat => ?_, fun ⟨hb, hn, hcov, hcl⟩ ht hnl => ?_,
      fun ⟨hb, hn, hcov, hcl⟩ ht => ?_⟩
    · rw [← hlead] at hslot
      rw [State.txStep5_clear hclear, State.txRoom_late hslot] at hexec
      exact hended c v _ _ hexec hpins haccts (by decide) (hv.over_txEnd hk hd hh hc (by decide) 0)
    · rw [← hlead] at hslot
      rw [State.txStep5_clear hclear, State.txRoom_exhausted hslot hroom] at hexec
      obtain ⟨hov, hexh⟩ := hv.over_exhausted hk hd hh hc
      exact ⟨_, hexec, hov.ops, hov.ready, hov.word, hov.last, hov.pins.trans hpins, hov.accts.trans haccts, hov.late, hov.cbusy,
        fun _ n hn hr => hexh n hn hr⟩
    · rw [State.txStep5_nocov hb hn] at hexec
      exact hended c v _ _ hexec hpins haccts (by decide) (hv.over_nocov hk hd hh hc true)
    · rw [State.txStep5_uncovered hk hb hn hcov, hfld, if_pos hm] at hexec
      exact hended c v _ _ hexec hpins haccts (by decide) (hv.over_nocov hk hd hh hc false)
    · rw [State.txStep5_uncovered hk hb hn hcov, hfld, if_neg hm, if_pos ⟨hat, by rw [hl]; rfl⟩,
        hv.txLate_ends fun hp => hpol hp.1] at hexec
      exact hended c v _ _ hexec hpins haccts (by decide) (hv.over_txEnd hk hd hh hc (by decide) 0)
    · have hwait : ¬(o.at_ = true ∧ (!o.late) = true) := by
        rcases hat with hat | hl
        · simp [hat]
        · simp [hl]
      rw [State.txStep5_uncovered hk hb hn hcov, hfld, if_neg hm, if_neg hwait] at hexec
      exact hexec
    · obtain ⟨x, hx, hbusy, hlo, hhi⟩ := hv.txBusy_retries (tr := tr) (by rw [hfld]; exact ht) hnl
      rw [State.txStep5_busy hb hn hcov hcl, hbusy] at hexec
      rw [hlead] at hlo hhi
      rw [hfld] at hhi
      have hseen : (v.draw.draw.setOp id x).opsFree s.ops s.free = { v with free := s.free } := by
        rw [State.opsFree_setOp, State.opsFree_draw, State.opsFree_draw, ← hvops]
        rfl
      exact ⟨_, x, hexec, State.op_setOp_self _ _ _, hx, hlo, hhi, hseen⟩
    · have hno : ¬(o.tries < v.fld TXP_LBT_CFG.RETRY ∧ (!o.neverLate) = true) := fun hp => by
        have := hp.1
        rw [hfld] at this
        omega
      rw [State.txStep5_busy hb hn hcov hcl, State.txBusy_ends hno] at hexec
      exact hended c v _ _ hexec hpins haccts (by decide) (hv.over_nocov hk hd hh hc false)
  have hmoved : ∀ n, (s.moveTo n).Sole id o k := fun n => h.of_same rfl rfl
  have htouched : s.touch.Sole id o k := h.of_same (by simp) (by simp)
  refine ⟨fun hk hp hat hl hr he => ?_, fun hk hp hat hready => ?_, fun hk hp hready hcov => ?_, fun hk hp hr hready => ?_,
    fun hk hp hr hready hat => ?_, fun c v tr hk hcase => ?_⟩
  · have hexec := exec_txReleasePoint_scheduled h ha hk hp hat hl hr he
    have hh : o.holds = false := by simp [RadioOp.holds, RadioOp.launched, RadioOp.tailing, hp]
    have hc : o.phase ≠ .claim := by simp [hp]
    refine ⟨fun hready hgo => ?_, fun hready => ?_, fun hready hpol => ?_, fun hready hpol hnl => ?_⟩
    · rw [if_pos hready] at hexec
      exact hgoes _ _ _ rfl rfl rfl hexec hgo
    · rw [if_pos hready] at hexec
      exact hstep _ _ _ (hmoved _) rfl rfl rfl rfl hk hh hc hexec
    · rw [hready, if_neg Bool.false_ne_true, (hmoved _).txLate_ends fun hp => hpol hp.1] at hexec
      exact hended _ _ _ _ hexec rfl rfl (by decide) ((hmoved _).over_txEnd hk hd hh hc (by decide) 0)
    · rw [hready, if_neg Bool.false_ne_true, (hmoved _).txLate_waits hpol hnl] at hexec
      exact hexec
  · have hexec := exec_txReleasePoint_ready h.op ha hk hp hat hready
    exact ⟨hgoes _ _ _ (by simp) (by simp) (by simp) hexec, hstep _ _ _ htouched (by simp) (by simp) (by simp) (by simp) hk
      (by simp [RadioOp.holds, RadioOp.launched, RadioOp.tailing, hp]) (by simp [hp]) hexec⟩
  · have hexec := exec_lbtCovered_txf h.op ha hk hp hready hcov
    exact ⟨hgoes _ _ _ (by simp) (by simp) (by simp) hexec, hstep _ _ _ htouched (by simp) (by simp) (by simp) (by simp) hk
      (by simp [RadioOp.holds, RadioOp.launched, RadioOp.tailing, hp]) (by simp [hp]) hexec⟩
  · have hexec := exec_lbtRetry_ready h.op ha hp hr hready
    exact ⟨hgoes _ _ _ rfl rfl rfl hexec, hstep _ _ _ (hmoved _) rfl rfl rfl rfl hk
      (by simp [RadioOp.holds, RadioOp.launched, RadioOp.tailing, hp]) (by simp [hp]) hexec⟩
  · exact exec_lbtRetry_unready h.op ha hp hr hready hat
  · have hdecide : v.Sole id o k ∧ v.pins = s.pins ∧ o.phase ≠ .claim ∧ exec c s = .next (v.lbtDecide id o tr) := by
      rcases hcase with ⟨rfl, hp, ⟨hat, hr, rfl, rfl⟩ | ⟨hat, rfl, rfl⟩⟩ | ⟨rfl, hp, rfl, rfl, hcov⟩
      · exact ⟨hmoved _, rfl, by simp [hp], exec_lbt_scheduled h.op ha hk hp hat hr⟩
      · exact ⟨htouched, by simp, by simp [hp], exec_lbt_now h.op ha hk hp hat⟩
      · exact ⟨htouched, by simp, by simp [hp], exec_lbtCovered_lbt h.op ha hk hp hcov⟩
    obtain ⟨hv, hpins, hc, hexec⟩ := hdecide
    refine ⟨fun hn hcov => ?_, fun hn => ?_⟩
    · obtain ⟨hops', hready, hword, hworst, htp⟩ := hv.lbtDecide_covered hk hd hc hn hcov
      exact ⟨_, hexec, hops', hready, hword, hworst, htp.trans hpins⟩
    · obtain ⟨hops', hword, hworst⟩ := hv.lbtDecide_nocov hk hd hc hn
      exact ⟨_, hexec, hops', hword, hworst⟩

end Sys2Proof.Machine

/-! Events posted on a port's ring: what they write and what they leave (R256–R262). -/

namespace Sys2Proof.Machine

/-! The device's own writes from an address on. -/

theorem State.byte_devWrite (s : State) (a : Nat) (bs : List Byte) (x : Nat) (h : a + bs.length ≤ 0xF00000) :
    (s.devWrite a bs).byte x = if a ≤ x ∧ x < a + bs.length then bs.getD (x - a) 0#8 else s.byte x := by
  rw [← State.byte_putBytes s a bs x fun i hi => by
    unfold inRom
    rw [decide_eq_false (by omega), Bool.false_and]]
  unfold State.devWrite
  dsimp only
  exact State.foldl_unseen (g := fun t => t.byte x) (fun t i => State.markFull_unseen (g := fun t => t.byte x) (fun _ _ _ _ => rfl) t _) _ _

/-! A post (R258). -/

/-- A post on a port that has lost no record. -/
theorem State.post_eq {s : State} {p : Nat} (hl : (s.port p).lost = 0) (code status handle a1 a2 st : Nat) :
    s.post p code status handle a1 a2 st = if 16 ≤ s.ringRoom p then
        s.ringPut p (s.ringAfter p (code % 256)) (eventBytes code status handle a1 a2 st)
      else (s.setPort p { s.port p with lost := satInc 0xFFFFFFFF (s.port p).lost }).raise (HPn_IRQ_FLAG.OVF p) (HPn_IRQ_CNT.OVF_CNT p) := by
  have hlost : s.lostRecord p = s := if_neg fun h => h.1 hl
  simp only [State.post, State.postBefore, hlost, hl, true_and, Nat.add_zero]

theorem eventBytes_length (code status handle a1 a2 st : Nat) : (eventBytes code status handle a1 a2 st).length = 16 := by
  simp [eventBytes, leBytes_length]

/-- A record that no record of its cycle goes behind stands at HEAD, and no other byte changes. -/
theorem State.byte_ringPut_head {s : State} {p : Nat} {bs : List Byte} (hlen : bs.length = 16)
    (hend : s.fld (HPn_RING_BASE.BASE p) + s.fld (HPn_RING_HEAD.HEAD p) + 16 ≤ 0xF00000) (x : Nat) :
    (s.ringPut p 0 bs).byte x =
      if s.fld (HPn_RING_BASE.BASE p) + s.fld (HPn_RING_HEAD.HEAD p) ≤ x ∧
          x < s.fld (HPn_RING_BASE.BASE p) + s.fld (HPn_RING_HEAD.HEAD p) + 16
      then bs.getD (x - (s.fld (HPn_RING_BASE.BASE p) + s.fld (HPn_RING_HEAD.HEAD p))) 0#8 else s.byte x := by
  have hback : s.ringBack p 0 = s.fld (HPn_RING_BASE.BASE p) + s.fld (HPn_RING_HEAD.HEAD p) := by simp [State.ringBack]
  obtain ⟨a, ha⟩ : ∃ a, a = s.fld (HPn_RING_BASE.BASE p) + s.fld (HPn_RING_HEAD.HEAD p) := ⟨_, rfl⟩
  rw [← ha] at hend hback ⊢
  have hbyte := s.byte_devWrite a bs x (by omega)
  rw [hlen] at hbyte
  rw [← hbyte]
  simp only [State.ringPut, hback, List.range_zero, List.map_nil, List.foldl_nil]
  rw [State.raise_unseen (g := fun t => t.byte x) fun _ _ => rfl]
  exact State.setFld_unseen (g := fun t => t.byte x) (fun _ _ => rfl) _ _ _

/-- The event stands at HEAD: none of its cycle has a higher CODE (R258). -/
theorem State.post_bytes {s : State} {p : Nat} (hl : (s.port p).lost = 0) (hr : 16 ≤ s.ringRoom p) {code : Nat}
    (hafter : s.ringAfter p (code % 256) = 0)
    (hend : s.fld (HPn_RING_BASE.BASE p) + s.fld (HPn_RING_HEAD.HEAD p) + 16 ≤ 0xF00000) (status handle a1 a2 st : Nat) :
    (s.post p code status handle a1 a2 st).bytes (s.fld (HPn_RING_BASE.BASE p) + s.fld (HPn_RING_HEAD.HEAD p)) 16 =
        eventBytes code status handle a1 a2 st ∧
      (∀ x, x < s.fld (HPn_RING_BASE.BASE p) + s.fld (HPn_RING_HEAD.HEAD p) ∨
        s.fld (HPn_RING_BASE.BASE p) + s.fld (HPn_RING_HEAD.HEAD p) + 16 ≤ x →
        (s.post p code status handle a1 a2 st).byte x = s.byte x) ∧
      (s.post p code status handle a1 a2 st).on (HPn_IRQ_FLAG.EVENT p) = true := by
  have hlen := eventBytes_length code status handle a1 a2 st
  have hput := State.byte_ringPut_head hlen hend
  rw [State.post_eq hl, if_pos hr, hafter]
  refine ⟨?_, fun x hx => ?_, ?_⟩
  · rw [← hlen]
    refine State.bytes_of_put fun i hi => ?_
    rw [hlen] at hi
    rw [hput, if_pos (by omega), Nat.add_sub_cancel_left]
  · rw [hput, if_neg (by omega)]
  · unfold State.ringPut
    refine State.on_raise ⟨rfl, show 0 < 32 by decide⟩ ?_
    have hoff : (HPn_IRQ_CNT.EVENT_CNT p).off ≠ (HPn_IRQ_FLAG.EVENT p).off := by
      show 0x3010 + 1024 * p ≠ 0x300C + 1024 * p
      omega
    unfold Fld.apart
    simp [hoff]

end Sys2Proof.Machine

/-! What an access to memory leaves of the registers, errors and their records included: all from 0x4000 on but those of the
memory itself (R258, R343–R349, R397). -/

namespace Sys2Proof.Machine

/-- The registers from 0x4000 on, the memory's apart, read as they did. -/
def State.Logs (s t : State) : Prop := ∀ o, 0x4000 ≤ o → o < 0xE000 → t.reg o = s.reg o

namespace State.Logs

variable {s t u : State}

theorem refl (s : State) : s.Logs s := fun _ _ _ => rfl

theorem seen (h : s.Logs t) (hr : u.regs = t.regs) : s.Logs u := fun o h1 h2 => (State.reg_of_regs hr o).trans (h o h1 h2)

theorem scrub (h : s.Logs t) (l : List Nat) : s.Logs { t with scrub := l } := h

theorem setFld (h : s.Logs t) {f : Fld} (hf : f.off < 0x4000 ∨ 0xE000 ≤ f.off) (v : Nat) : s.Logs (t.setFld f v) :=
  fun o h1 h2 => (State.reg_setFld_ne _ _ _ _ (by omega)).trans (h o h1 h2)

theorem raise (h : s.Logs t) {f c : Fld} (hf : f.off < 0x4000 ∨ 0xE000 ≤ f.off) (hc : c.off < 0x4000 ∨ 0xE000 ≤ c.off) :
    s.Logs (t.raise f c) := (h.setFld hf 1).setFld hc _

theorem incMod (h : s.Logs t) {f : Fld} (hf : f.off < 0x4000 ∨ 0xE000 ≤ f.off) : s.Logs (t.incMod f) := h.setFld hf _

theorem devWrite (h : s.Logs t) (a : Nat) (bs : List Byte) : s.Logs (t.devWrite a bs) :=
  fun o h1 h2 => (t.reg_devWrite_ne a bs o (by show o ≠ 0xE000; omega)).trans (h o h1 h2)

theorem putBytes (h : s.Logs t) (a : Nat) (bs : List Byte) : s.Logs (t.putBytes a bs) :=
  h.seen (State.putBytes_unseen (g := State.regs) (fun _ _ => rfl) t a bs)

theorem foldl {α : Type} {f : State → α → State} (hf : ∀ t x, s.Logs t → s.Logs (f t x)) (h : s.Logs t) (l : List α) :
    s.Logs (l.foldl f t) := by
  induction l generalizing t with
  | nil => exact h
  | cons x l ih => exact ih (hf t x h)

theorem markFull (h : s.Logs t) (w : Nat) : s.Logs (t.markFull w) :=
  fun o h1 h2 => (t.reg_markFull_ne w o (by show o ≠ 0xE000; omega)).trans (h o h1 h2)

/-! A port's ring. -/

theorem port_offs {p : Nat} (hp : p < 4) :
    HPn_RING_HEAD.off p < 0x4000 ∧ HPn_IRQ_FLAG.off p < 0x4000 ∧ HPn_IRQ_CNT.off p < 0x4000 := by
  unfold HPn_RING_HEAD.off HPn_IRQ_FLAG.off HPn_IRQ_CNT.off
  omega

theorem ringPut (h : s.Logs t) {p : Nat} (hp : p < 4) (m : Nat) (bs : List Byte) : s.Logs (t.ringPut p m bs) := by
  obtain ⟨hhead, hflag, hcnt⟩ := port_offs hp
  unfold State.ringPut
  exact (((h.devWrite _ _).foldl (fun _ _ h => h.devWrite _ _) _).setFld (.inl hhead) _).raise (.inl hflag) (.inl hcnt)

theorem lostRecord (h : s.Logs t) {p : Nat} (hp : p < 4) : s.Logs (t.lostRecord p) := by
  unfold State.lostRecord
  split
  · exact (h.ringPut hp _ _).seen rfl
  · exact h

theorem postBefore (h : s.Logs t) {p : Nat} (hp : p < 4) (m code status handle a1 a2 st : Nat) :
    s.Logs (t.postBefore m p code status handle a1 a2 st) := by
  obtain ⟨-, hflag, hcnt⟩ := port_offs hp
  have hlost := h.lostRecord hp
  unfold State.postBefore
  dsimp only
  split
  · exact hlost.ringPut hp _ _
  · exact State.Logs.raise (hlost.seen rfl) (.inl hflag) (.inl hcnt)

/-! A fault recorded. -/

theorem faultPost (h : s.Logs t) {p : Nat} (hp : p < 4) (m k : Nat) (f : FaultRec) : s.Logs (t.faultPost p m k f) :=
  (h.foldl (fun _ _ h => h.putBytes _ _) _).postBefore hp _ _ _ _ _ _ _

theorem faultEvents (h : s.Logs t) (f : FaultRec) (m k : Nat) : s.Logs (t.faultEvents f m k) := by
  have one {v : State} (hv : s.Logs v) {p : Nat} (hp : p < 4) :
      s.Logs (if (v.fld SYS_FAULT.EV).testBit p then v.faultPost p m k f else v) := by
    split
    · exact hv.faultPost hp m k f
    · exact hv
  unfold State.faultEvents
  split
  · exact one (one (one (one h (by decide)) (by decide)) (by decide)) (by decide)
  · exact h

theorem faultPut (h : s.Logs t) (m : Nat) (f : FaultRec) : s.Logs (t.faultPut m f) :=
  fun o h1 h2 => (t.reg_faultPut_ne m f o (by show o ≠ 0xE000; omega)).trans (h o h1 h2)

theorem fault (h : s.Logs t) (f : FaultRec) : s.Logs (t.fault f) := by
  unfold State.fault
  dsimp only
  split
  · exact h.seen rfl
  · refine State.Logs.faultEvents ?_ _ _ _
    have hput := (h.faultPut (t.faultAfter f) f).setFld (f := SYS_FAULT_LOG.HEAD) (.inl (by decide))
      (((t.faultPut (t.faultAfter f) f).fld SYS_FAULT_LOG.HEAD + 1) % 64)
    generalize (t.faultPut (t.faultAfter f) f).setFld SYS_FAULT_LOG.HEAD _ = v at hput ⊢
    have hwrap : s.Logs (if decide (t.faultLen = 64) then v.setFld SYS_FAULT_LOG.WRAP 1 else v) := by
      split
      · exact hput.setFld (.inl (by decide)) 1
      · exact hput
    generalize (if decide (t.faultLen = 64) then v.setFld SYS_FAULT_LOG.WRAP 1 else v) = x at hwrap ⊢
    have hraised := (hwrap.incMod (f := SYS_FAULT_LOG.TOTAL) (.inl (by decide))).raise (f := SYS_FAULT.FAULT)
      (c := SYS_FAULT.FAULT_CNT) (.inl (by decide)) (.inl (by decide))
    split
    · exact hraised.setFld (.inl (by decide)) _
    · exact hraised

/-! A word of memory. -/

theorem errAddr (h : s.Logs t) (b : Bank) (w kind src : Nat) : s.Logs (t.errAddr b w kind src) := by
  unfold State.errAddr
  exact State.Logs.setFld (fun o h1 h2 => (State.reg_setReg_ne _ _ _ _ (by show o ≠ 0xE010; omega)).trans (h o h1 h2))
    (.inr (by decide)) _

theorem correctable (h : s.Logs t) (b : Bank) (w src : Nat) : s.Logs (t.correctable b w src) := by
  have hraised {v : State} (hv : s.Logs v) : s.Logs ((v.raise MEM_ECC_STAT.CE MEM_ECC_STAT.CE_CNT).incMod SYS_ECC_CNT.CE_TOTAL) :=
    (hv.raise (.inr (by decide)) (.inr (by decide))).incMod (.inl (by decide))
  have haddr : s.Logs (if t.on MEM_ECC_STAT.UE then t else t.errAddr b w 0 src) := by
    split
    · exact h
    · exact h.errAddr b w 0 src
  have hcount := hraised haddr
  unfold State.correctable
  dsimp only
  generalize ((if t.on MEM_ECC_STAT.UE then t else t.errAddr b w 0 src).raise MEM_ECC_STAT.CE MEM_ECC_STAT.CE_CNT).incMod
    SYS_ECC_CNT.CE_TOTAL = v at hcount ⊢
  split
  · exact hcount.fault _
  · exact hcount

theorem uncorrectable (h : s.Logs t) (b : Bank) (w src : Nat) : s.Logs (t.uncorrectable b w src) := by
  have hraised {v : State} (hv : s.Logs v) : s.Logs ((v.raise MEM_ECC_STAT.UE MEM_ECC_STAT.UE_CNT).incMod SYS_ECC_CNT.UE_TOTAL) :=
    (hv.raise (.inr (by decide)) (.inr (by decide))).incMod (.inl (by decide))
  rw [State.uncorrectable]
  exact (hraised (h.errAddr b w 1 src)).fault ⟨0x11, Status.ecc, b.code, w * 8⟩

theorem readWord (h : s.Logs t) (w src : Nat) : s.Logs (t.readWord w src).1 := by
  unfold State.readWord
  split
  · next b _ _ =>
    have hc := h.correctable b w src
    dsimp only
    generalize t.correctable b w src = v at hc ⊢
    split
    · exact hc.scrub _
    · exact hc
  · exact h.uncorrectable _ w src
  · exact h

theorem portWrite (h : s.Logs t) (b : Bank) (a : Nat) (bs : List Byte) : s.Logs (t.portWrite b a bs .none) := by
  have hread := h.readWord (a / 8) 2
  unfold State.portWrite
  dsimp only
  rw [if_neg (by decide), if_neg (by decide)]
  split
  · exact (h.markFull _).putBytes _ _
  · split
    · exact (hread.seen (u := (t.readWord (a / 8) 2).1.setMark (a / 8) .good) rfl).putBytes _ _
    · exact hread.raise (.inr (by decide)) (.inr (by decide))

theorem store (h : s.Logs t) (a : Nat) (bs : List Byte) : s.Logs (t.store a bs) := by
  unfold State.store
  split
  · exact h.foldl (fun _ _ h => h.portWrite _ _ _) _
  · exact h

end State.Logs

end Sys2Proof.Machine

/-! What a launcher's occurrence leaves: its count, its next stamp, and its action (R30–R34, Table 2-5). -/

namespace Sys2Proof.Machine

/-! The occurrence counted, and what comes next (R30). -/

/-- FIRED is set and the occurrence counted. -/
def State.Counted (s : State) (n : Nat) (t : State) : Prop :=
  t.on (CVN_Ln_ACT.FIRED n) = true ∧ t.fld (CVN_Ln_ACT.FIRE_CNT n) = satInc 255 (s.fld (CVN_Ln_ACT.FIRE_CNT n))

/-- After an occurrence at `st` launcher `n` is disarmed, or waits for the next one. -/
def Lnch.GoesOn (x : Lnch) (n : Nat) (t : State) (st : Nat) : Prop :=
  (x.rep = 0 → t.launcher n = Lnch.off ∧ t.on (CVN_Ln_ACT.ARMED n) = false) ∧
    (x.rep ≠ 0 → t.launcher n = { x with stamp := st + 2 ^ (x.rep + 7) * 6000, late := false, wait := none })

theorem State.lnNext_unseen {β : Type} {g : State → β} (hg : ∀ t r l, g { t with regs := r, lnch := l } = g t) (s : State)
    (n st : Nat) : g (s.lnNext n st) = g s := by
  simp only [State.lnNext]
  split
  · exact State.lnOff_unseen hg s n
  · exact hg s s.regs _

theorem State.lnNext_goesOn {s : State} {n : Nat} {x : Lnch} (h : s.launcher n = x) (st : Nat) : x.GoesOn n (s.lnNext n st) st := by
  refine ⟨fun hr => ?_, fun hr => ?_⟩ <;> simp only [State.lnNext, h, hr, if_true, if_false]
  · exact ⟨(s.launcher_lnOff n n).trans (if_pos rfl), s.armed_lnOff n⟩
  · rw [State.launcher_setLauncher, if_pos rfl, Lnch.period, if_neg hr]

/-- The fields of CVN_Ln_ACT that the next occurrence leaves: those between ACTION and ARMED. -/
theorem State.fld_lnNext (s : State) (n st : Nat) (g : Fld) (hl : 15 < g.lo) (hh : g.hi < 31) :
    (s.lnNext n st).fld g = s.fld g := by
  simp only [State.lnNext]
  split
  · exact s.fld_lnOff n g hl hh
  · exact State.fld_setLauncher _ _ _ _

theorem State.on_lnNext (s : State) (n st : Nat) (g : Fld) (hl : 15 < g.lo) (hh : g.hi < 31) :
    (s.lnNext n st).on g = s.on g := by
  unfold State.on
  rw [s.fld_lnNext n st g hl hh]

theorem State.count_lnHit (s : State) (n : Nat) (late : Bool) :
    (s.lnHit n late).fld (CVN_Ln_ACT.FIRE_CNT n) = satInc 255 (s.fld (CVN_Ln_ACT.FIRE_CNT n)) := by
  have hlt : s.fld (CVN_Ln_ACT.FIRE_CNT n) < 2 ^ 8 := s.fld_lt _
  unfold State.lnHit State.incSat
  cases late <;>
    simp [State.fld_setFld, State.fld_setFld_apart, CVN_Ln_ACT.FIRED, CVN_Ln_ACT.MISSED, CVN_Ln_ACT.FIRE_CNT]
  all_goals
    unfold satInc
    split <;> omega

theorem State.missed_lnHit (s : State) (n : Nat) (late : Bool) :
    (s.lnHit n late).on (CVN_Ln_ACT.MISSED n) = (late || s.on (CVN_Ln_ACT.MISSED n)) := by
  unfold State.lnHit State.incSat State.on
  cases late <;>
    simp [State.fld_setFld, State.fld_setFld_apart, CVN_Ln_ACT.FIRED, CVN_Ln_ACT.MISSED, CVN_Ln_ACT.FIRE_CNT]

/-- An occurrence counted, in a state that has the register of `s`. -/
theorem State.lnHit_counted {s a : State} {n : Nat} (hr : a.reg (CVN_Ln_ACT.off n) = s.reg (CVN_Ln_ACT.off n)) (late : Bool) :
    s.Counted n (a.lnHit n late) ∧ (a.lnHit n late).on (CVN_Ln_ACT.MISSED n) = (late || s.on (CVN_Ln_ACT.MISSED n)) := by
  have hfld (f : Fld) (hf : f.off = CVN_Ln_ACT.off n) : a.fld f = s.fld f := by
    unfold State.fld
    rw [hf, hr]
  have hon : a.on (CVN_Ln_ACT.MISSED n) = s.on (CVN_Ln_ACT.MISSED n) := by
    unfold State.on
    rw [hfld _ rfl]
  exact ⟨⟨a.fired_lnHit n late, (a.count_lnHit n late).trans (congrArg _ (hfld _ rfl))⟩, hon ▸ a.missed_lnHit n late⟩

/-- The end of an occurrence that has been acted on. -/
theorem State.lnEnd_counted {s a : State} {n : Nat} {x : Lnch} (hr : a.reg (CVN_Ln_ACT.off n) = s.reg (CVN_Ln_ACT.off n))
    (hx : a.launcher n = x) (late : Bool) (st : Nat) :
    s.Counted n ((a.lnHit n late).lnNext n st) ∧ x.GoesOn n ((a.lnHit n late).lnNext n st) st ∧
      ((a.lnHit n late).lnNext n st).on (CVN_Ln_ACT.MISSED n) = (late || s.on (CVN_Ln_ACT.MISSED n)) := by
  obtain ⟨⟨hfired, hcnt⟩, hmissed⟩ := State.lnHit_counted hr late
  have hx' : (a.lnHit n late).launcher n = x :=
    (State.lnHit_unseen (g := fun t => t.launcher n) (fun _ _ => rfl) a n late).trans hx
  refine ⟨⟨?_, ?_⟩, State.lnNext_goesOn hx' st, ?_⟩
  · rw [State.on_lnNext _ _ _ _ (by exact (show 15 < 28 by decide)) (by exact (show 28 < 31 by decide)), hfired]
  · rw [State.fld_lnNext _ _ _ _ (by exact (show 15 < 16 by decide)) (by exact (show 23 < 31 by decide)), hcnt]
  · rw [State.on_lnNext _ _ _ _ (by exact (show 15 < 27 by decide)) (by exact (show 27 < 31 by decide)), hmissed]

theorem State.lnEnd_unseen {β : Type} {g : State → β} (hg : ∀ t r l, g { t with regs := r, lnch := l } = g t) (a : State) (n : Nat)
    (late : Bool) (st : Nat) : g ((a.lnHit n late).lnNext n st) = g a :=
  (State.lnNext_unseen hg _ n st).trans (State.lnHit_unseen (fun t r => hg t r t.lnch) a n late)

/-- A lost or dropped occurrence: MISSED alone is set. -/
theorem State.missed_next (s : State) (n st : Nat) :
    ((s.setFld (CVN_Ln_ACT.MISSED n) 1).lnNext n st).on (CVN_Ln_ACT.MISSED n) = true ∧
      ((s.setFld (CVN_Ln_ACT.MISSED n) 1).lnNext n st).fld (CVN_Ln_ACT.FIRE_CNT n) = s.fld (CVN_Ln_ACT.FIRE_CNT n) := by
  rw [State.on_lnNext _ _ _ _ (by exact (show 15 < 27 by decide)) (by exact (show 27 < 31 by decide)),
    State.fld_lnNext _ _ _ _ (by exact (show 15 < 16 by decide)) (by exact (show 23 < 31 by decide))]
  refine ⟨State.on_setFld_one _ _ ⟨rfl, by exact (show 27 < 32 by decide)⟩, ?_⟩
  simp [State.fld_setFld_apart, CVN_Ln_ACT.MISSED, CVN_Ln_ACT.FIRE_CNT]

theorem State.lnDrop_missed {s : State} {n : Nat} {x : Lnch} (hx : s.launcher n = x) (hp : x.pol = 1 ∨ x.pol = 2) (st : Nat) :
    (s.lnDrop n st).on (CVN_Ln_ACT.MISSED n) = true ∧
      (s.lnDrop n st).fld (CVN_Ln_ACT.FIRE_CNT n) = s.fld (CVN_Ln_ACT.FIRE_CNT n) ∧
      (x.pol = 1 → (s.lnDrop n st).launcher n = Lnch.off) ∧ (x.pol = 2 → x.GoesOn n (s.lnDrop n st) st) := by
  have hset : (s.setFld (CVN_Ln_ACT.MISSED n) 1).launcher n = x := (State.launcher_setFld _ _ _ _).trans hx
  simp only [State.lnDrop, hx]
  rcases hp with h | h <;> rw [h]
  · rw [if_neg (by decide)]
    refine ⟨?_, ?_, fun _ => (State.launcher_lnOff _ _ _).trans (if_pos rfl), fun h2 => absurd h2 (by decide)⟩
    · unfold State.on
      rw [State.fld_lnOff _ _ _ (by exact (show 15 < 27 by decide)) (by exact (show 27 < 31 by decide))]
      simp [State.fld_setFld, CVN_Ln_ACT.MISSED]
    · rw [State.fld_lnOff _ _ _ (by exact (show 15 < 16 by decide)) (by exact (show 23 < 31 by decide))]
      simp [State.fld_setFld_apart, CVN_Ln_ACT.MISSED, CVN_Ln_ACT.FIRE_CNT]
  · rw [if_pos rfl]
    obtain ⟨h1, h2⟩ := s.missed_next n st
    exact ⟨h1, h2, fun h => absurd h (by decide), fun _ => State.lnNext_goesOn hset st⟩

theorem State.lnDrop_unseen {β : Type} {g : State → β} (hg : ∀ t r l, g { t with regs := r, lnch := l } = g t) (s : State)
    (n st : Nat) : g (s.lnDrop n st) = g s := by
  have hset : g (s.setFld (CVN_Ln_ACT.MISSED n) 1) = g s := State.setFld_unseen (fun t r => hg t r t.lnch) _ _ _
  unfold State.lnDrop
  dsimp only
  split
  · exact (State.lnNext_unseen hg _ n st).trans hset
  · exact (State.lnOff_unseen hg _ n).trans hset

end Sys2Proof.Machine

/-! The actions of a launcher (Table 2-5). -/

namespace Sys2Proof.Machine

/-! The end of a DMA channel, its COPY told first. -/

/-- The COPY that channel `n` serves keeps the status of the channel's end. -/
def State.dmaTell (s : State) (n cause : Nat) : State :=
  match (s.dmaCh n).op with
  | some id =>
    match s.eng id with
    | some o => s.setEng id { o with status := dmaStatus cause }
    | none => s
  | none => s

theorem State.dmaEnd_eq (s : State) (n cause : Nat) : s.dmaEnd n cause =
    let t := ((s.dmaTell n cause).setDma n .idle).leaveIdle
    if cause = 0 then t.raise (DMAn_STAT.DONE n) (DMAn_STAT.DONE_CNT n)
    else (t.raise (DMAn_STAT.ERR n) (DMAn_STAT.ERR_CNT n)).setFld (DMAn_STAT.CAUSE n) cause := rfl

/-! What every action leaves: the launchers and their registers. -/

/-- The launchers, and the registers of their block, stand as they did. -/
structure State.LnSame (s t : State) : Prop where
  lnch : t.lnch = s.lnch
  reg : ∀ o, 0x5000 ≤ o → o < 0x6000 → t.reg o = s.reg o

namespace State.LnSame

variable {s t u : State}

theorem refl (s : State) : s.LnSame s := ⟨rfl, fun _ _ _ => rfl⟩

theorem seen (h : s.LnSame t) (hr : u.regs = t.regs) (hl : u.lnch = t.lnch) : s.LnSame u :=
  ⟨hl.trans h.lnch, fun o h1 h2 => (State.reg_of_regs hr o).trans (h.reg o h1 h2)⟩

theorem setFld (h : s.LnSame t) {f : Fld} (hf : f.off < 0x5000 ∨ 0x6000 ≤ f.off) (v : Nat) : s.LnSame (t.setFld f v) :=
  ⟨(State.setFld_lnch _ _ _).trans h.lnch, fun o h1 h2 => (State.reg_setFld_ne _ _ _ _ (by omega)).trans (h.reg o h1 h2)⟩

theorem of_logs (h : s.LnSame t) (hl : t.Logs u) (hb : t.Books u) : s.LnSame u :=
  ⟨(hb.unseen (g := State.lnch) fun _ _ _ _ _ _ _ => rfl).trans h.lnch,
    fun o h1 h2 => (hl o (by omega) (by omega)).trans (h.reg o h1 h2)⟩

theorem leaveIdle (h : s.LnSame t) : s.LnSame t.leaveIdle :=
  h.seen (State.leaveIdle_unseen (g := State.regs) (fun _ _ => rfl) t) (State.leaveIdle_unseen (g := State.lnch) (fun _ _ => rfl) t)

theorem dmaEnd (h : s.LnSame t) (n cause : Nat) : s.LnSame (t.dmaEnd n cause) := by
  have hoff : 0x6000 ≤ DMAn_STAT.off n := by unfold DMAn_STAT.off; omega
  have hidle {v : State} (hv : s.LnSame v) : s.LnSame (v.setDma n .idle).leaveIdle :=
    (hv.seen (u := v.setDma n .idle) (State.setDma_regs _ _ _) (State.setDma_lnch _ _ _)).leaveIdle
  have htell : s.LnSame (t.dmaTell n cause) := by
    unfold State.dmaTell
    repeat' split
    · exact h.seen (State.setEng_regs _ _ _) (State.setEng_lnch _ _ _)
    · exact h
    · exact h
  rw [State.dmaEnd_eq]
  have hready := hidle htell
  generalize ((t.dmaTell n cause).setDma n .idle).leaveIdle = v at hready ⊢
  split
  · exact (hready.setFld (.inr hoff) 1).setFld (.inr hoff) _
  · exact ((hready.setFld (.inr hoff) 1).setFld (.inr hoff) _).setFld (.inr hoff) _

theorem dmaStart (h : s.LnSame t) (n ctx : Nat) (op : Option Nat) : s.LnSame (t.dmaStart n ctx op) := by
  have hoff : 0x6000 ≤ DMAn_CFG.off n := by unfold DMAn_CFG.off; omega
  have hset := (h.setFld (f := DMAn_CFG.CTX n) (.inr hoff) ctx).leaveIdle
  simp only [State.dmaStart]
  generalize (t.setFld (DMAn_CFG.CTX n) ctx).leaveIdle = v at hset ⊢
  split
  · exact h
  · split
    · exact hset.dmaEnd _ _
    · exact hset.seen (State.setDma_regs _ _ _) (State.setDma_lnch _ _ _)

theorem post (h : s.LnSame t) {p : Nat} (hp : p < 4) (code status handle a1 a2 st : Nat) :
    s.LnSame (t.post p code status handle a1 a2 st) :=
  h.of_logs ((State.Logs.refl t).postBefore hp _ _ _ _ _ _ _) ((State.Books.refl t).postBefore _ _ _ _ _ _ _ _)

theorem store (h : s.LnSame t) (a : Nat) (bs : List Byte) : s.LnSame (t.store a bs) :=
  h.of_logs ((State.Logs.refl t).store a bs) ((State.Books.refl t).store a bs)

theorem pinDrive (h : s.LnSame t) (n : Nat) (level : Bool) : s.LnSame (t.pinDrive n level) := by
  have happly {v : State} (hv : s.LnSame v) : s.LnSame (v.applyPin n) := by
    rcases v.applyPin_cases n with e | ⟨d, l, e⟩ <;> rw [e]
    · exact hv
    · have hd : s.LnSame (v.drivePin n d l) := hv.seen rfl rfl
      unfold State.inSync State.inWrite
      split
      · exact hd.store _ _
      · exact hd
  unfold State.pinDrive
  dsimp only
  split
  · split
    · exact h.store _ _
    · exact happly (h.store _ _)
  · exact h

theorem pinAct (h : s.LnSame t) (action arg st : Nat) : s.LnSame (t.pinAct action arg st) := by
  unfold State.pinAct
  dsimp only
  split
  · exact h.pinDrive _ _
  · split
    · exact h.pinDrive _ _
    · split
      · exact h.pinDrive _ _
      · split
        · exact (h.pinDrive _ _).seen rfl rfl
        · exact h

theorem submitInternal (h : s.LnSame t) (sketch : Nat) (args : List Word) (k : Ticket) :
    s.LnSame (t.submitInternal sketch args k) := by
  unfold State.submitInternal
  split
  · exact h.post (by decide) _ _ _ _ _ _
  · split
    · exact h.post (by decide) _ _ _ _ _ _
    · exact h.seen rfl rfl

theorem wake (h : s.LnSame t) (k : Nat) : s.LnSame (t.wake k) :=
  h.seen (State.wake_unseen (g := State.regs) (fun _ _ _ => rfl) t k) (State.wake_unseen (g := State.lnch) (fun _ _ _ => rfl) t k)

theorem lnAct (h : s.LnSame t) (n : Nat) (x : Lnch) (st : Nat) : s.LnSame (t.lnAct n x st) := by
  unfold State.lnAct
  repeat' split
  · exact h.wake _
  · exact h.dmaStart _ _ _
  · exact h.pinAct _ _ _
  · exact h.post (Nat.mod_lt _ (by decide)) _ _ _ _ _ _
  · exact h.leaveIdle
  · exact h.leaveIdle.submitInternal _ _ _
  · exact h

end State.LnSame

end Sys2Proof.Machine

/-! Each action of a launcher in Run (Table 2-5). -/

namespace Sys2Proof.Machine

section
variable {u : State} {x : Lnch} (n st : Nat)

theorem State.leaveIdle_of_run (h : u.pwr.st = .run) : u.leaveIdle = u := by
  unfold State.leaveIdle
  rw [h]
  rfl

theorem State.leaveIdle_st (h : u.pwr.st = .run ∨ u.pwr.st = .idle) : u.leaveIdle.pwr.st = .run := by
  unfold State.leaveIdle
  rcases h with h | h <;> simp [h]

theorem State.lnAct_none (hx : x.action = 0) : u.lnAct n x st = u := by simp [State.lnAct, hx]

theorem State.lnAct_context (hx : x.action = 2) (hr : u.pwr.st = .run) :
    ((u.lnAct n x st).cx (x.arg % 64)).st = .ready ∧ ((u.lnAct n x st).cx (x.arg % 64)).susp = .none ∧
      { u.lnAct n x st with ctx := u.ctx } = u := by
  have ha : u.lnAct n x st = u.wake (x.arg % 64) := by simp [State.lnAct, hx]
  rw [ha, State.cx_wake, if_pos rfl]
  refine ⟨rfl, rfl, ?_⟩
  unfold State.wake
  rw [State.leaveIdle_of_run (by exact hr)]
  rfl

theorem State.setDma_frame {v : State} (h : { v with regs := u.regs, dma := u.dma } = u) (k : Nat) (y : Dma) :
    { v.setDma k y with regs := u.regs, dma := u.dma } = u := h

theorem State.lnAct_dma (hx : x.action = 3) (hr : u.pwr.st = .run) (hb : (u.dmaCh (x.arg % 16)).busy = false)
    (hsrc : u.on (DMAn_CFG.FILL (x.arg % 16)) = true ∨
      spanOk (u.fld (DMAn_SRC.SRC (x.arg % 16))) (u.fld (DMAn_LEN.LEN (x.arg % 16))) = true)
    (hdst : spanWritable (u.fld (DMAn_DST.DST (x.arg % 16))) (u.fld (DMAn_LEN.LEN (x.arg % 16))) = true) :
    (u.lnAct n x st).dmaCh (x.arg % 16) = ⟨true, u.fld (DMAn_SRC.SRC (x.arg % 16)), u.fld (DMAn_DST.DST (x.arg % 16)),
        u.fld (DMAn_LEN.LEN (x.arg % 16)), u.on (DMAn_CFG.FILL (x.arg % 16)), none⟩ ∧
      { u.lnAct n x st with regs := u.regs, dma := u.dma } = u := by
  have hspan : ((!u.on (DMAn_CFG.FILL (x.arg % 16)) && !spanOk (u.fld (DMAn_SRC.SRC (x.arg % 16)))
      (u.fld (DMAn_LEN.LEN (x.arg % 16)))) || !spanWritable (u.fld (DMAn_DST.DST (x.arg % 16)))
      (u.fld (DMAn_LEN.LEN (x.arg % 16)))) = false := by
    rcases hsrc with h | h <;> simp [h, hdst]
  have ha : u.lnAct n x st = (u.setFld (DMAn_CFG.CTX (x.arg % 16)) 63).leaveIdle.setDma (x.arg % 16)
      ⟨true, u.fld (DMAn_SRC.SRC (x.arg % 16)), u.fld (DMAn_DST.DST (x.arg % 16)),
        u.fld (DMAn_LEN.LEN (x.arg % 16)), u.on (DMAn_CFG.FILL (x.arg % 16)), none⟩ := by
    simp [State.lnAct, hx, State.dmaStart, hb, hspan]
  rw [ha]
  refine ⟨State.dmaCh_setDma_self _ _ _, ?_⟩
  rw [State.leaveIdle_of_run (u := u.setFld (DMAn_CFG.CTX (x.arg % 16)) 63) (by rw [State.setFld_pwr]; exact hr)]
  exact State.setDma_frame (State.setFld_unseen (g := fun t : State => { t with regs := u.regs, dma := u.dma }) (fun _ _ => rfl) u
    (DMAn_CFG.CTX (x.arg % 16)) 63) _ _

/-- The level to which a launcher drives an output (Table 2-5). -/
def Lnch.level (x : Lnch) (w : Nat) : Bool := if x.action = 5 then false else if x.action = 6 then !w.testBit 1 else true

theorem State.lnAct_pin (h4 : 4 ≤ x.action) (h7 : x.action ≤ 7) : u.lnAct n x st = u.pinAct x.action x.arg st := by
  unfold State.lnAct
  rw [if_neg (by omega), if_neg (by omega), if_pos ⟨h4, h7⟩]

/-- A launcher's action on a pin is a pin driven, and with PIN_PULSE on an output a pulse begun. -/
theorem State.pinAct_eq (h4 : 4 ≤ x.action) (h7 : x.action ≤ 7) :
    u.pinAct x.action x.arg st =
      if x.action = 7 ∧ (u.num (pinAddr (x.arg % 16)) 1).testBit 0 = true then
        { u.pinDrive (x.arg % 16) true with pins := { (u.pinDrive (x.arg % 16) true).pins with
          pulses := Tab.set (fun _ => 0) (u.pinDrive (x.arg % 16) true).pins.pulses (x.arg % 16) (st + (x.arg / 16 % 16 + 1) * 6000 + 1) } }
      else u.pinDrive (x.arg % 16) (x.level (u.num (pinAddr (x.arg % 16)) 1)) := by
  have h : x.action = 4 ∨ x.action = 5 ∨ x.action = 6 ∨ x.action = 7 := by omega
  unfold State.pinAct Lnch.level
  dsimp only
  rcases h with h | h | h | h <;> simp only [h, if_true, if_false, Nat.reduceEqDiff, false_and, true_and]
  cases hw : (u.num (pinAddr (x.arg % 16)) 1).testBit 0
  · rw [if_neg Bool.false_ne_true, if_neg Bool.false_ne_true, State.pinDrive_input true hw]
  · rfl

theorem State.lnAct_input (h4 : 4 ≤ x.action) (h7 : x.action ≤ 7) (hw : (u.num (pinAddr (x.arg % 16)) 1).testBit 0 = false) :
    u.lnAct n x st = u := by
  rw [State.lnAct_pin n st h4 h7, State.pinAct_eq st h4 h7, if_neg (by simp [hw]), State.pinDrive_input _ hw]

theorem State.lnAct_output (hr : u.pwr.st = .run) (h4 : 4 ≤ x.action) (h7 : x.action ≤ 7)
    (hw : (u.num (pinAddr (x.arg % 16)) 1).testBit 0 = true) (hod : (u.num (pinAddr (x.arg % 16)) 1).testBit 4 = false)
    (hd : natBits (u.num (pinAddr (x.arg % 16)) 1) 6 5 ≠ 3) (hg : u.gpSelect (x.arg % 16) = false)
    (hc : u.clean (pinAddr (x.arg % 16)) 4) (hp : u.pinWritten (x.arg % 16) = false) :
    let a := u.lnAct n x st
    a.ball (x.arg % 16) = x.level (u.num (pinAddr (x.arg % 16)) 1) ∧
      (a.num (pinAddr (x.arg % 16)) 1).testBit 1 = x.level (u.num (pinAddr (x.arg % 16)) 1) ∧
      (x.action = 7 → Tab.get (fun _ => 0) a.pins.pulses (x.arg % 16) = st + (x.arg / 16 % 16 + 1) * 6000 + 1) ∧
      ∀ b, b < pinAddr (x.arg % 16) ∨ pinAddr (x.arg % 16) + 4 ≤ b → a.byte b = u.byte b := by
  have hn : x.arg % 16 < 16 := Nat.mod_lt _ (by decide)
  obtain ⟨hball, hnum⟩ := State.pinDrive_drives (x.level (u.num (pinAddr (x.arg % 16)) 1)) hn (.inl hr) hc hw hp hd hg (.inr hod)
  have hbyte := (State.pinDrive_keeps_word (x.level (u.num (pinAddr (x.arg % 16)) 1)) hn (.inl hr) hc).byte
  dsimp only
  rw [State.lnAct_pin n st h4 h7, State.pinAct_eq st h4 h7]
  by_cases h : x.action = 7
  · have hlevel : x.level (u.num (pinAddr (x.arg % 16)) 1) = true := by simp [Lnch.level, h]
    rw [hlevel] at hball hnum hbyte
    rw [if_pos ⟨h, hw⟩, hlevel]
    generalize u.pinDrive (x.arg % 16) true = v at *
    refine ⟨hball, hnum, fun _ => ?_, hbyte⟩
    simp
  · rw [if_neg fun g => h g.1]
    exact ⟨hball, hnum, fun g => absurd g h, hbyte⟩

theorem State.lnAct_event (hx : x.action = 8) : u.lnAct n x st = u.post (x.arg % 4) 0x02 0 0 n 0 st := by
  simp [State.lnAct, hx]

theorem State.lnAct_wake (hx : x.action = 9) : u.lnAct n x st = u.leaveIdle := by simp [State.lnAct, hx]

theorem State.lnAct_sketch (hx : x.action = 10) (hn : u.namesSketch x.arg = true) {i : Nat} (hi : u.freeSlot 0 = some i) :
    u.lnAct n x st = u.leaveIdle.takeSlot 0 i x.arg 0 false false false [] ⟨st, 4, 0⟩ := by
  have hn' : u.leaveIdle.namesSketch x.arg = true :=
    (State.leaveIdle_unseen (g := fun t => t.namesSketch x.arg) (fun _ _ => rfl) u).trans hn
  have hi' : u.leaveIdle.freeSlot 0 = some i := (State.leaveIdle_unseen (g := fun t => t.freeSlot 0) (fun _ _ => rfl) u).trans hi
  simp [State.lnAct, hx, State.submitInternal, hn', hi']

end

/-! The actions as they show when the occurrence has been counted. -/

/-- What the action of launcher `n` at `st` leaves in `t`, after the state `u` which is `s` but for the time. -/
structure State.Acts (s u : State) (n : Nat) (x : Lnch) (st : Nat) (t : State) : Prop where
  none : x.action = 0 → { t with regs := s.regs, lnch := s.lnch } = u
  context : x.action = 2 → s.ctxWaits (x.arg % 64) = true → (t.cx (x.arg % 64)).st = .ready ∧ (t.cx (x.arg % 64)).susp = .none ∧
    { t with regs := s.regs, lnch := s.lnch, ctx := s.ctx } = u
  dma : x.action = 3 → (s.on (DMAn_CFG.FILL (x.arg % 16)) = true ∨
      spanOk (s.fld (DMAn_SRC.SRC (x.arg % 16))) (s.fld (DMAn_LEN.LEN (x.arg % 16))) = true) →
    spanWritable (s.fld (DMAn_DST.DST (x.arg % 16))) (s.fld (DMAn_LEN.LEN (x.arg % 16))) = true →
    t.dmaCh (x.arg % 16) = ⟨true, s.fld (DMAn_SRC.SRC (x.arg % 16)), s.fld (DMAn_DST.DST (x.arg % 16)),
      s.fld (DMAn_LEN.LEN (x.arg % 16)), s.on (DMAn_CFG.FILL (x.arg % 16)), Option.none⟩ ∧
    { t with regs := s.regs, lnch := s.lnch, dma := s.dma } = u
  pin : 4 ≤ x.action → x.action ≤ 7 → (s.num (pinAddr (x.arg % 16)) 1).testBit 0 = true →
    (s.num (pinAddr (x.arg % 16)) 1).testBit 4 = false → natBits (s.num (pinAddr (x.arg % 16)) 1) 6 5 ≠ 3 →
    s.gpSelect (x.arg % 16) = false → s.clean (pinAddr (x.arg % 16)) 4 → u.pinWritten (x.arg % 16) = false →
    t.ball (x.arg % 16) = x.level (s.num (pinAddr (x.arg % 16)) 1) ∧
    (t.num (pinAddr (x.arg % 16)) 1).testBit 1 = x.level (s.num (pinAddr (x.arg % 16)) 1) ∧
    (x.action = 7 → Tab.get (fun _ => 0) t.pins.pulses (x.arg % 16) = st + (x.arg / 16 % 16 + 1) * 6000 + 1) ∧
    (∀ a, (a < pinAddr (x.arg % 16) ∨ pinAddr (x.arg % 16) + 4 ≤ a) → t.byte a = s.byte a)
  input : 4 ≤ x.action → x.action ≤ 7 → (s.num (pinAddr (x.arg % 16)) 1).testBit 0 = false →
    { t with regs := s.regs, lnch := s.lnch } = u
  event : let ring := s.fld (HPn_RING_BASE.BASE (x.arg % 4)) + s.fld (HPn_RING_HEAD.HEAD (x.arg % 4))
    x.action = 8 → (s.port (x.arg % 4)).lost = 0 → 16 ≤ s.ringRoom (x.arg % 4) → u.ringAfter (x.arg % 4) 2 = 0 →
    0x200000 ≤ ring → ring + 16 ≤ 0x300000 → t.bytes ring 16 = eventBytes 2 0 0 n 0 st ∧
    t.on (HPn_IRQ_FLAG.EVENT (x.arg % 4)) = true ∧ (∀ a, (a < ring ∨ ring + 16 ≤ a) → t.byte a = s.byte a)
  wake : x.action = 9 → t.pwr.st = .run ∧ { t with regs := s.regs, lnch := s.lnch, pwr := s.pwr } = u
  sketch : ∀ i, x.action = 10 → s.namesSketch x.arg = true → s.freeSlot 0 = some i → t.pwr.st = .run ∧
    (t.slot 0 i).st = .queued ∧ (t.slot 0 i).sketch = x.arg ∧ (t.slot 0 i).prio = 0 ∧ (t.slot 0 i).args = [] ∧
    (t.slot 0 i).ticket = ⟨st, 4, 0⟩

/-- The end of an occurrence keeps the registers below the launchers' block. -/
theorem State.lnEnd_reg (a : State) (n : Nat) (late : Bool) (st o : Nat) (h : o < 0x5000) :
    ((a.lnHit n late).lnNext n st).reg o = a.reg o := by
  have hne (f : Fld) (hf : f.off = CVN_Ln_ACT.off n) (v : Nat) (t : State) : (t.setFld f v).reg o = t.reg o :=
    State.reg_setFld_ne _ _ _ _ (by rw [hf]; unfold CVN_Ln_ACT.off; omega)
  have hhit : (a.lnHit n late).reg o = a.reg o := by
    unfold State.lnHit State.incSat
    dsimp only
    split
    · rw [hne _ rfl, hne _ rfl, hne _ rfl]
    · rw [hne _ rfl, hne _ rfl]
  rw [← hhit]
  simp only [State.lnNext]
  split
  · exact State.reg_lnOff_ne _ _ _ (by unfold CVN_Ln_ACT.off; omega)
  · rfl

theorem State.lnAct_acts {s : State} {n : Nat} {x : Lnch} (m : TimeBase) (f : Nat) (st : Nat) (late : Bool)
    (hr : s.pwr.st = .run ∨ s.pwr.st = .idle ∧ (x.action = 9 ∨ x.action = 10))
    (hb : x.action = 3 → (s.dmaCh (x.arg % 16)).busy = false) :
    s.Acts { s with time := m, free := f } n x st
      (((({ s with time := m, free := f } : State).lnAct n x st).lnHit n late).lnNext n st) := by
  have hrun : x.action < 9 → s.pwr.st = .run := fun h => hr.elim id fun h' => by omega
  have hawake : s.pwr.st = .run ∨ s.pwr.st = .idle := hr.imp id And.left
  obtain ⟨u, hu⟩ : ∃ u : State, u = { s with time := m, free := f } := ⟨_, rfl⟩
  have hsu : ∀ {β : Type} (g : State → β), (∀ t m f, g { t with time := m, free := f } = g t) → g u = g s :=
    fun g hg => hu ▸ hg s m f
  have hnum : u.num (pinAddr (x.arg % 16)) 1 = s.num (pinAddr (x.arg % 16)) 1 := hsu (fun t => t.num (pinAddr (x.arg % 16)) 1) fun _ _ _ => rfl
  rw [← hu]
  have hrun' : x.action < 9 → u.pwr.st = .run := fun h => hu ▸ hrun h
  have hend {β : Type} (g : State → β) (hg : ∀ t r l, g { t with regs := r, lnch := l } = g t) :
      g (((u.lnAct n x st).lnHit n late).lnNext n st) = g (u.lnAct n x st) := State.lnEnd_unseen hg _ n late st
  have hself : ({ u with regs := s.regs, lnch := s.lnch } : State) = u := by rw [hu]
  refine ⟨fun hx => ?_, fun hx hw => ?_, fun hx hsrc hdst => ?_, fun h4 h7 hw hod hd hg hc hp => ?_, fun h4 h7 hw => ?_,
    fun hx hl hroom hafter hlo hhi => ?_, fun hx => ?_, fun i hx hn hi => ?_⟩
  · refine (hend (fun t : State => { t with regs := s.regs, lnch := s.lnch }) fun _ _ _ => rfl).trans ?_
    rw [State.lnAct_none n st hx]
    exact hself
  · obtain ⟨hst, hsusp, hrest⟩ := State.lnAct_context n st hx (hrun' (by omega))
    have hcx := hend (fun t : State => t.cx (x.arg % 64)) fun _ _ _ => rfl
    refine ⟨hcx ▸ hst, hcx ▸ hsusp, ?_⟩
    refine (hend (fun t : State => { t with regs := s.regs, lnch := s.lnch, ctx := s.ctx }) fun _ _ _ => rfl).trans ?_
    rw [hu] at hrest ⊢
    exact congrArg (fun t : State => { t with regs := s.regs, lnch := s.lnch }) hrest
  · have hd := State.lnAct_dma (u := u) n st hx (hrun' (by omega)) (by rw [hu]; exact hb hx) (by rw [hu]; exact hsrc)
      (by rw [hu]; exact hdst)
    obtain ⟨hch, hrest⟩ := hd
    refine ⟨?_, (hend (fun t : State => { t with regs := s.regs, lnch := s.lnch, dma := s.dma }) fun _ _ _ => rfl).trans ?_⟩
    · rw [hend (fun t : State => t.dmaCh (x.arg % 16)) fun _ _ _ => rfl, hch, hu]
      rfl
    · rw [hu] at hrest ⊢
      exact congrArg (fun t : State => { t with lnch := s.lnch }) hrest
  · have ho := State.lnAct_output (u := u) n st (hrun' (by omega)) h4 h7 (hnum ▸ hw) (hnum ▸ hod) (hnum ▸ hd) (by rw [hu]; exact hg)
      (by rw [hu]; exact hc) hp
    obtain ⟨hball, hlev, hpulse, hbyte⟩ := ho
    rw [hnum] at hball hlev
    refine ⟨(hend (fun t : State => t.ball (x.arg % 16)) fun _ _ _ => rfl).trans hball, ?_, fun h => ?_, fun b hb => ?_⟩
    · rw [hend (fun t : State => t.num (pinAddr (x.arg % 16)) 1) fun _ _ _ => rfl, hlev]
    · exact (hend (fun t : State => Tab.get (fun _ => 0) t.pins.pulses (x.arg % 16)) fun _ _ _ => rfl).trans (hpulse h)
    · rw [hend (fun t : State => t.byte b) fun _ _ _ => rfl, hbyte b hb, hu]
      rfl
  · refine (hend (fun t : State => { t with regs := s.regs, lnch := s.lnch }) fun _ _ _ => rfl).trans ?_
    rw [State.lnAct_input n st h4 h7 (hnum ▸ hw)]
    exact hself
  · have hring : u.fld (HPn_RING_BASE.BASE (x.arg % 4)) + u.fld (HPn_RING_HEAD.HEAD (x.arg % 4)) =
        s.fld (HPn_RING_BASE.BASE (x.arg % 4)) + s.fld (HPn_RING_HEAD.HEAD (x.arg % 4)) := by rw [hu]; rfl
    obtain ⟨hbytes, hbyte, hon⟩ := State.post_bytes (s := u) (p := x.arg % 4) (code := 0x02) (by rw [hu]; exact hl) (by rw [hu]; exact hroom) hafter
      (by rw [hring]; omega) 0 0 n 0 st
    rw [hring] at hbytes hbyte
    rw [← State.lnAct_event n st hx] at hbytes hbyte hon
    refine ⟨(hend (fun t : State => t.bytes _ 16) fun _ _ _ => rfl).trans hbytes, ?_, fun b hb => ?_⟩
    · have hflag : (HPn_IRQ_FLAG.EVENT (x.arg % 4)).off < 0x5000 := by
        show 0x300C + 1024 * (x.arg % 4) < 0x5000
        omega
      unfold State.on State.fld at hon ⊢
      rw [State.lnEnd_reg _ _ _ _ _ hflag]
      exact hon
    · rw [hend (fun t : State => t.byte b) fun _ _ _ => rfl, hbyte b hb, hu]
      rfl
  · rw [State.lnAct_wake n st hx] at hend ⊢
    refine ⟨(hend (fun t : State => t.pwr.st) fun _ _ _ => rfl).trans (State.leaveIdle_st (by rw [hu]; exact hawake)), ?_⟩
    refine (hend (fun t : State => { t with regs := s.regs, lnch := s.lnch, pwr := s.pwr }) fun _ _ _ => rfl).trans ?_
    refine (State.leaveIdle_unseen (g := fun t : State => { t with regs := s.regs, lnch := s.lnch, pwr := s.pwr })
      (fun _ _ => rfl) u).trans ?_
    rw [hu]
  · rw [State.lnAct_sketch n st hx (by rw [hu]; exact hn) (by rw [hu]; exact hi)] at hend ⊢
    have hslot := hend (fun t : State => t.slot 0 i) fun _ _ _ => rfl
    rw [hslot, State.takeSlot, State.slot_setSlot_self]
    exact ⟨(hend (fun t : State => t.pwr.st) fun _ _ _ => rfl).trans (State.leaveIdle_st (by rw [hu]; exact hawake)),
      rfl, rfl, rfl, rfl, rfl⟩

end Sys2Proof.Machine

/-! Launcher occurrences (R30–R36). -/

namespace Sys2Proof.Machine

/-! The cases of an occurrence (R34). -/

section
variable {u : State} {n : Nat} {x : Lnch} {st : Nat} {late : Bool}

theorem State.lnOccur_acts (hc : x.action = 2 → u.ctxWaits (x.arg % 64) = true)
    (hb : x.action = 3 → (u.dmaCh (x.arg % 16)).busy = false) (hl : late = false ∨ x.pol = 0) :
    u.lnOccur n x st late = ((u.lnAct n x st).lnHit n late).lnNext n st := by
  have hlost : ¬(x.action = 2 ∧ (!u.ctxWaits (x.arg % 64)) = true) := fun h => by simp [hc h.1] at h
  have hbusy : ¬(x.action = 3 ∧ (u.dmaCh (x.arg % 16)).busy = true) := fun h => by simp [hb h.1] at h
  unfold State.lnOccur
  dsimp only
  rw [if_neg hlost, if_neg fun h => ?_, if_neg hbusy]
  rcases hl with h0 | h0
  · exact h.1.elim (fun h1 => by simp [h0] at h1) hbusy
  · exact h.2 h0

theorem State.lnOccur_drops (hc : x.action = 2 → u.ctxWaits (x.arg % 64) = true) (hp : x.pol = 1 ∨ x.pol = 2) :
    u.lnOccur n x st true = u.lnDrop n st := by
  have hlost : ¬(x.action = 2 ∧ (!u.ctxWaits (x.arg % 64)) = true) := fun h => by simp [hc h.1] at h
  unfold State.lnOccur
  dsimp only
  rw [if_neg hlost, if_pos ⟨.inl rfl, by omega⟩]

theorem State.lnOccur_lost (hx : x.action = 2) (hc : u.ctxWaits (x.arg % 64) = false) :
    u.lnOccur n x st late = (u.setFld (CVN_Ln_ACT.MISSED n) 1).lnNext n st := by
  unfold State.lnOccur
  rw [if_pos ⟨hx, by rw [hc]; rfl⟩]

theorem Lnch.latest_self (st : Nat) : x.latest st st = st := by simp [Lnch.latest]

theorem Lnch.latest_once (hx : x.rep = 0) (st now : Nat) : x.latest st now = st := by simp [Lnch.latest, Lnch.period, hx]

theorem State.lnNext_once (h : u.launcher n = x) (hx : x.rep = 0) : u.lnNext n st = u.lnOff n := by simp [State.lnNext, h, hx]

theorem State.action_lnOff (h : u.launcher n = x) (ha : x.armed = true) (hx : x.action = 1) :
    (u.lnOff n).fld (CVN_Ln_ACT.ACTION n) = 0 := by
  unfold State.lnOff
  simp [h, ha, hx, State.fld_setFld, State.fld_setFld_apart, CVN_Ln_ACT.ACTION, CVN_Ln_ACT.ARG]

end

section
variable {s : State} {n : Fin 32} {x : Lnch} (hx : s.launcher n.val = x) (ha : x.armed = true) (hw : x.wait = none)
include hx ha hw

/-- Whether launcher `n` acts now (R30, R36). -/
theorem State.occur_open (hl : s.lnBehind n.val = false) (hp : s.pwr.st ≠ .inReset ∧ s.pwr.st ≠ .off) :
    s.occur n = if s.asleep ∨ !s.awake then if x.stamp / 6000 ≤ s.tick then s.sleepOccur n.val x else s
      else if x.action = 1 then s.radioOccur n x
      else if s.reach x.stamp then (s.moveTo x.stamp).lnOccur n.val x (x.latest x.stamp (s.moveTo x.stamp).stamp)
        (x.late || (x.latest x.stamp (s.moveTo x.stamp).stamp != x.stamp))
      else s := by
  unfold State.occur
  simp only [hx, ha, hw, hl, hp.1, hp.2, Bool.not_true, Option.isSome_none, Bool.false_eq_true, or_self, if_false]

theorem State.occur_awake (hl : s.lnBehind n.val = false) (haw : s.awake = true) (hr : s.pwr.st = .run ∨ s.pwr.st = .idle) :
    s.occur n = if x.action = 1 then s.radioOccur n x
      else if s.reach x.stamp then (s.moveTo x.stamp).lnOccur n.val x (x.latest x.stamp (s.moveTo x.stamp).time.now)
        (x.late || (x.latest x.stamp (s.moveTo x.stamp).time.now != x.stamp))
      else s := by
  have has := State.asleep_of_runs hr
  rw [State.occur_open hx ha hw hl (by rcases hr with h | h <;> rw [h] <;> decide), has, haw, if_neg (by decide),
    State.stamp_of_awake (s := s.moveTo x.stamp) has]

/-- An occurrence at its stamp, on time or late (R30). -/
theorem State.occur_atStamp (hl : s.lnBehind n.val = false) (haw : s.awake = true) (hr : s.pwr.st = .run ∨ s.pwr.st = .idle)
    (h1 : x.action ≠ 1) (hnow : s.time.now ≤ x.stamp) (hreach : s.reach x.stamp = true) :
    s.occur n = ({ s with time := { s.time with now := x.stamp } } : State).lnOccur n.val x x.stamp x.late := by
  have hmove := State.moveTo_now hreach hnow
  rw [State.occur_awake hx ha hw hl haw hr, if_neg h1, if_pos hreach, hmove, Lnch.latest_self, bne_self_eq_false, Bool.or_false]
  have hmax : max s.time.now (min s.time.limit x.stamp) = x.stamp := hmove
  unfold State.moveTo
  rw [hmax]

/-- Stamps that have passed are one occurrence, of the latest (R30). -/
theorem State.occur_passed (hl : s.lnBehind n.val = false) (haw : s.awake = true) (hr : s.pwr.st = .run)
    (h1 : x.action ≠ 1) (hnow : x.stamp ≤ s.time.now) :
    s.occur n = s.lnOccur n.val x (x.latest x.stamp s.time.now) (x.late || (x.latest x.stamp s.time.now != x.stamp)) := by
  have hreach : s.reach x.stamp = true := decide_eq_true (Nat.le_trans hnow (Nat.le_max_left _ _))
  have hmove : s.moveTo x.stamp = s := by
    unfold State.moveTo
    rw [Nat.max_eq_left (Nat.le_trans (Nat.min_le_right _ _) hnow)]
  rw [State.occur_awake hx ha hw hl haw (.inl hr), if_neg h1, if_pos hreach, hmove]

theorem State.occur_asleep (hl : s.lnBehind n.val = false) (hr : s.pwr.st = .sleep ∨ s.pwr.st = .deep)
    (ht : x.stamp / 6000 ≤ s.tick) : s.occur n = s.sleepOccur n.val x := by
  have has : s.asleep = true := by unfold State.asleep; rcases hr with h | h <;> rw [h] <;> rfl
  rw [State.occur_open hx ha hw hl (by rcases hr with h | h <;> rw [h] <;> decide), has, if_pos (.inl rfl), if_pos ht]

end

/-! A radio launcher (R32, R124, R291). -/

section
variable {s : State} {n : Fin 32} {x : Lnch} {id : Nat} {o : RadioOp} (hx : s.launcher n.val = x) (ha : x.armed = true)
  (h1 : x.action = 1) (hrep : x.rep = 0)
include hx ha h1 hrep

/-- A one-shot RADIO launcher counted and disarmed, in a state that is `s` but for the time. -/
theorem State.radio_counted (m : TimeBase) (late : Bool) :
    let t := ((({ s with time := m } : State).lnHit n.val late).lnOff n.val)
    s.Counted n.val t ∧ t.launcher n.val = Lnch.off ∧ t.fld (CVN_Ln_ACT.ACTION n.val) = 0 := by
  have hx' : (({ s with time := m } : State).lnHit n.val late).launcher n.val = x :=
    (State.lnHit_unseen (g := fun t => t.launcher n.val) (fun _ _ => rfl) _ _ _).trans hx
  have hend := State.lnEnd_counted (s := s) (a := { s with time := m }) rfl hx late 0
  rw [State.lnNext_once hx' hrep] at hend
  exact ⟨hend.1, (hend.2.1.1 hrep).1, State.action_lnOff hx' ha h1⟩

/-- A transmission on the air counts and disarms its launcher (R124). -/
theorem State.txOccur_counted (hp : o.phase = .onAir) (hreach : s.reach o.t = true) :
    let t := s.txOccur n.val o
    s.Counted n.val t ∧ t.launcher n.val = Lnch.off ∧ t.fld (CVN_Ln_ACT.ACTION n.val) = 0 ∧
      { t with regs := s.regs, lnch := s.lnch, time := s.time } = s := by
  obtain ⟨m, hm⟩ : ∃ m, s.moveTo o.t = { s with time := m } := ⟨_, rfl⟩
  obtain ⟨hc, hoff, hact⟩ := State.radio_counted hx ha h1 hrep m o.late
  have ht : s.txOccur n.val o = (((({ s with time := m } : State).lnHit n.val o.late).lnOff n.val)) := by
    unfold State.txOccur
    rw [hp, hreach, hm]
    exact if_pos rfl
  dsimp only
  rw [ht]
  refine ⟨hc, hoff, hact, ?_⟩
  refine (State.lnOff_unseen (g := fun t : State => { t with regs := s.regs, lnch := s.lnch, time := s.time }) (fun _ _ _ => rfl) _ _).trans
    ((State.lnHit_unseen (g := fun t : State => { t with regs := s.regs, lnch := s.lnch, time := s.time }) (fun _ _ => rfl) _ _ _).trans ?_)
  rfl

/-- A receive window that begins counts and disarms its launcher (R291). -/
theorem State.winOccur_counted (hlate : x.late = false) (hp : o.phase = .window) (hnow : s.time.now ≤ x.stamp)
    (hreach : s.reach x.stamp = true) :
    let t := s.winOccur n.val x id o
    s.Counted n.val t ∧ t.launcher n.val = Lnch.off ∧ t.op id = some { o with lnch := none, late := false } ∧
      { t with regs := s.regs, lnch := s.lnch, ops := s.ops } = { s with time := { s.time with now := x.stamp } } := by
  have hmax : max s.time.now (min s.time.limit x.stamp) = x.stamp := State.moveTo_now hreach hnow
  have hmove : s.moveTo x.stamp = { s with time := { s.time with now := x.stamp } } := by
    unfold State.moveTo
    rw [hmax]
  obtain ⟨⟨hfired, hcnt⟩, hoff, hact⟩ := State.radio_counted hx ha h1 hrep { s.time with now := x.stamp } false
  have ht : s.winOccur n.val x id o =
      (((({ s with time := { s.time with now := x.stamp } } : State).lnHit n.val false).lnOff n.val).setOp id
        { o with lnch := none, late := false }) := by
    unfold State.winOccur
    rw [hmove]
    simp only [hlate, hp, Bool.false_and, Bool.false_eq_true, if_false, beq_self_eq_true, if_true]
  dsimp only
  rw [ht]
  refine ⟨⟨hfired, hcnt⟩, hoff, State.op_setOp_self _ _ _, ?_⟩
  refine (State.lnOff_unseen (g := fun t : State => { t with regs := s.regs, lnch := s.lnch, ops := s.ops }) (fun _ _ _ => rfl) _ _).trans
    ((State.lnHit_unseen (g := fun t : State => { t with regs := s.regs, lnch := s.lnch, ops := s.ops }) (fun _ _ => rfl) _ _ _).trans ?_)
  rfl

end

/-! An occurrence in Sleep and Deep sleep (R36). -/

section
variable {s : State} {n : Fin 32} {x : Lnch}

/-- The wake by a launcher. -/
theorem State.wakeByLauncher_wakes (hs : s.pwr.st = .sleep ∨ s.pwr.st = .deep) (tick : Nat) :
    let t := s.wakeByLauncher n.val tick
    t.pwr.st = .waking ∧ t.pwr.boot = s.pwr.boot ∧ t.fld PWR_WAKE_LAST.FIRST = 3 ∧ t.fld PWR_WAKE_LAST.LNCH = n.val ∧
      t.lnch = s.lnch ∧ ∀ o, 0x3000 ≤ o → t.reg o = s.reg o := by
  obtain ⟨hcounts, hw⟩ := State.wakeEvent_asleep s (code := 3) (by decide) tick hs
  have hfirst : (!(s.pwr.st == .waking && (s.fld PWR_WAKE_LAST.SOURCES).testBit 2)) = true := by
    rcases hs with h | h <;> rw [h] <;> rfl
  dsimp only
  unfold State.wakeByLauncher
  dsimp only
  rw [hcounts, hfirst, if_pos rfl, if_pos rfl]
  generalize (s.wakeEvent 3 tick).1 = u at hw ⊢
  refine ⟨?_, ?_, ?_, ?_, ?_, fun o ho => ?_⟩
  · rw [State.setFld_pwr]; exact hw.st
  · rw [State.setFld_pwr]
    exact hw.unseen (g := fun t => t.pwr.boot) fun _ _ _ _ _ _ _ _ _ => rfl
  · rw [State.fld_setFld_other _ _ _ _ (by decide), hw.first]
  · have hn := n.isLt
    rw [State.fld_setFld _ _ _ (by decide)]
    exact Nat.mod_eq_of_lt hn
  · rw [State.setFld_lnch]
    exact hw.unseen (g := State.lnch) fun _ _ _ _ _ _ _ _ _ => rfl
  · rw [State.reg_setFld_ne _ _ _ _ (by show o ≠ 0x200C; omega)]
    exact hw.reg o ho

variable (hx : s.launcher n.val = x) (hrep : x.rep = 0)
include hx hrep

theorem State.sleepOccur_none (h0 : x.action = 0) :
    let t := s.sleepOccur n.val x
    s.Counted n.val t ∧ t.launcher n.val = Lnch.off ∧ { t with regs := s.regs, lnch := s.lnch } = s := by
  obtain ⟨hc, hg, -⟩ := State.lnEnd_counted (s := s) (a := s) rfl hx false x.stamp
  have ht : s.sleepOccur n.val x = (s.lnHit n.val false).lnNext n.val x.stamp := by
    simp [State.sleepOccur, h0, Lnch.latest_once hrep]
  dsimp only
  rw [ht]
  refine ⟨hc, (hg.1 hrep).1, ?_⟩
  exact State.lnEnd_unseen (g := fun t : State => { t with regs := s.regs, lnch := s.lnch }) (fun _ _ _ => rfl) s n.val false x.stamp

theorem State.sleepOccur_wakes (hs : s.pwr.st = .sleep ∨ s.pwr.st = .deep) (h : x.action = 9 ∨ x.action = 10) :
    let t := s.sleepOccur n.val x
    s.Counted n.val t ∧ t.launcher n.val = Lnch.off ∧ t.pwr.st = .waking ∧ t.fld PWR_WAKE_LAST.FIRST = 3 ∧
      t.fld PWR_WAKE_LAST.LNCH = n.val ∧ t.pwr.boot = s.pwr.boot ++ (if x.action = 10 then [(x.arg, [])] else []) := by
  obtain ⟨hst, hboot, hfirst, hlnch, hl, hreg⟩ := State.wakeByLauncher_wakes (n := n) hs (x.stamp / 6000)
  obtain ⟨u, hu⟩ : ∃ u, u = s.wakeByLauncher n.val (x.stamp / 6000) := ⟨_, rfl⟩
  rw [← hu] at hst hboot hfirst hlnch hl hreg
  obtain ⟨v, hv⟩ : ∃ v : State, v = { u with pwr := { u.pwr with boot := s.pwr.boot ++ (if x.action = 10 then [(x.arg, [])] else []) } } :=
    ⟨_, rfl⟩
  have ht : s.sleepOccur n.val x = (v.lnHit n.val false).lnNext n.val x.stamp := by
    unfold State.sleepOccur
    dsimp only
    rw [← hu, Lnch.latest_once hrep, hv]
    rcases h with h | h <;> simp only [h, if_true, if_false, OfNat.ofNat_ne_zero, Nat.reduceEqDiff, List.append_nil, hboot]
    rw [← hboot]
  have hvreg : v.regs = u.regs := by rw [hv]
  have hx' : v.launcher n.val = x := (State.launcher_of_lnch (by rw [hv]; exact hl) _).trans hx
  obtain ⟨hc, hg, -⟩ := State.lnEnd_counted (s := s) (a := v)
    ((State.reg_of_regs hvreg _).trans (hreg _ (by unfold CVN_Ln_ACT.off; omega))) hx' false x.stamp
  have hpwr : ((v.lnHit n.val false).lnNext n.val x.stamp).pwr = v.pwr :=
    State.lnEnd_unseen (g := fun t : State => t.pwr) (fun _ _ _ => rfl) v n.val false x.stamp
  have hfld (f : Fld) (hf : f.off < 0x5000) : ((v.lnHit n.val false).lnNext n.val x.stamp).fld f = u.fld f := by
    unfold State.fld
    rw [State.lnEnd_reg _ _ _ _ _ hf, State.reg_of_regs hvreg]
  dsimp only
  rw [ht]
  refine ⟨hc, (hg.1 hrep).1, ?_, (hfld _ (by decide)).trans hfirst, (hfld _ (by decide)).trans hlnch, ?_⟩
  · rw [hpwr, hv]
    exact hst
  · rw [hpwr, hv]

omit hx hrep in
/-- Another action wakes the device and waits to be ready in Run. -/
theorem State.sleepOccur_waits (hs : s.pwr.st = .sleep ∨ s.pwr.st = .deep)
    (h : (2 ≤ x.action ∧ x.action ≤ 8 ∧ x.pol = 0) ∨ x.action = 1) :
    let t := s.sleepOccur n.val x
    t.launcher n.val = { x with wait := some x.stamp } ∧ t.on (CVN_Ln_ACT.MISSED n.val) = true ∧ t.pwr.st = .waking ∧
      t.fld PWR_WAKE_LAST.FIRST = 3 := by
  obtain ⟨hst, -, hfirst, -, -, -⟩ := State.wakeByLauncher_wakes (n := n) hs (x.stamp / 6000)
  have ht : s.sleepOccur n.val x = ((s.wakeByLauncher n.val (x.stamp / 6000)).setFld (CVN_Ln_ACT.MISSED n.val) 1).setLauncher n.val
      { x with wait := some x.stamp } := by
    have hpol : x.pol = 0 ∨ x.action = 1 := h.imp (fun h => h.2.2) id
    unfold State.sleepOccur
    dsimp only
    rw [if_neg (by omega), if_neg (by omega), if_neg (by omega), if_pos hpol]
  dsimp only
  rw [ht]
  generalize s.wakeByLauncher n.val (x.stamp / 6000) = u at hst hfirst ⊢
  refine ⟨(State.launcher_setLauncher _ _ _ _).trans (if_pos rfl), ?_, ?_, ?_⟩
  · rw [State.on_setLauncher]
    exact State.on_setFld_one _ _ ⟨rfl, by exact (show 27 < 32 by decide)⟩
  · rw [State.setLauncher_unseen (g := fun t => t.pwr.st) (fun _ _ => rfl), State.setFld_pwr]
    exact hst
  · rw [State.fld_setLauncher, State.fld_setFld_other _ _ _ _ ?_, hfirst]
    have hoff : (CVN_Ln_ACT.MISSED n.val).off ≠ PWR_WAKE_LAST.FIRST.off := by
      show 0x5108 + 16 * n.val ≠ 0x200C
      omega
    simp [Fld.apart, hoff]

end

end Sys2Proof.Machine

/-! Obligation O47. -/

namespace Sys2Proof.Machine

section
variable {s : State} {n : Fin 32} {x : Lnch} (hx : s.launcher n.val = x)
include hx

/-- An occurrence that acts, on time or under ACT_LATE, after the state that is `s` but for the time. -/
theorem State.lnOccur_done (m : TimeBase) (f : Nat) (st : Nat) (late : Bool) {y : Lnch} (hy : y = x ∨ y = { x with wait := none })
    (hr : s.pwr.st = .run ∨ s.pwr.st = .idle ∧ (x.action = 9 ∨ x.action = 10))
    (hc : x.action = 2 → s.ctxWaits (x.arg % 64) = true) (hb : x.action = 3 → (s.dmaCh (x.arg % 16)).busy = false)
    (hl : late = false ∨ x.pol = 0) :
    let t := ({ s with time := m, free := f } : State).lnOccur n.val y st late
    s.Counted n.val t ∧ x.GoesOn n.val t st ∧ s.Acts { s with time := m, free := f } n.val x st t ∧
      t.on (CVN_Ln_ACT.MISSED n.val) = (late || s.on (CVN_Ln_ACT.MISSED n.val)) := by
  have hact : ({ s with time := m, free := f } : State).lnOccur n.val y st late =
      ((({ s with time := m, free := f } : State).lnAct n.val x st).lnHit n.val late).lnNext n.val st := by
    rcases hy with rfl | rfl
    · exact State.lnOccur_acts hc hb hl
    · exact State.lnOccur_acts (x := { x with wait := none }) hc hb hl
  have hacts := State.lnAct_acts (n := n.val) m f st late hr hb
  have hsame := (State.LnSame.refl ({ s with time := m, free := f } : State)).lnAct n.val x st
  obtain ⟨hcnt, hgo, hmiss⟩ := State.lnEnd_counted (s := s) (n := n.val)
    (hsame.reg _ (by unfold CVN_Ln_ACT.off; omega) (by have := n.isLt; unfold CVN_Ln_ACT.off; omega))
    ((State.launcher_of_lnch hsame.lnch _).trans hx) late st
  dsimp only
  rw [hact]
  exact ⟨hcnt, hgo, hacts, hmiss⟩

/-- A CONTEXT whose context is not parked is lost (R34). -/
theorem State.lnOccur_misses (m : TimeBase) (st : Nat) (late : Bool) (h2 : x.action = 2)
    (hc : s.ctxWaits (x.arg % 64) = false) :
    let t := ({ s with time := m } : State).lnOccur n.val x st late
    t.on (CVN_Ln_ACT.MISSED n.val) = true ∧ t.fld (CVN_Ln_ACT.FIRE_CNT n.val) = s.fld (CVN_Ln_ACT.FIRE_CNT n.val) ∧
      x.GoesOn n.val t st ∧ { t with regs := s.regs, lnch := s.lnch } = { s with time := m } := by
  dsimp only
  rw [State.lnOccur_lost (u := { s with time := m }) h2 hc]
  obtain ⟨hmiss, hcnt⟩ := State.missed_next ({ s with time := m } : State) n.val st
  refine ⟨hmiss, hcnt, ?_, ?_⟩
  · exact State.lnNext_goesOn (s := ({ s with time := m } : State).setFld (CVN_Ln_ACT.MISSED n.val) 1)
      ((State.launcher_setFld _ _ _ _).trans hx) st
  · exact (State.lnNext_unseen (g := fun t : State => { t with regs := s.regs, lnch := s.lnch }) (fun _ _ _ => rfl) _ _ _).trans
      (State.setFld_unseen (g := fun t : State => { t with regs := s.regs, lnch := s.lnch }) (fun _ _ => rfl) _ _ _)

/-- A late occurrence under DISCARD or SKIP (Table 2-6). -/
theorem State.lnOccur_dropped (m : TimeBase) (st : Nat) (hc : x.action = 2 → s.ctxWaits (x.arg % 64) = true)
    (hp : x.pol = 1 ∨ x.pol = 2) :
    let t := ({ s with time := m } : State).lnOccur n.val x st true
    t.on (CVN_Ln_ACT.MISSED n.val) = true ∧ t.fld (CVN_Ln_ACT.FIRE_CNT n.val) = s.fld (CVN_Ln_ACT.FIRE_CNT n.val) ∧
      (x.pol = 1 → t.launcher n.val = Lnch.off) ∧ (x.pol = 2 → x.GoesOn n.val t st) ∧
      { t with regs := s.regs, lnch := s.lnch } = { s with time := m } := by
  dsimp only
  rw [State.lnOccur_drops (u := { s with time := m }) hc hp]
  obtain ⟨hmiss, hcnt, h1, h2⟩ := State.lnDrop_missed (s := { s with time := m }) hx hp st
  exact ⟨hmiss, hcnt, h1, h2,
    State.lnDrop_unseen (g := fun t : State => { t with regs := s.regs, lnch := s.lnch }) (fun _ _ _ => rfl) _ _ _⟩

/-- An occurrence that waited is carried out late (R34, R36). -/
theorem execLateOccurrenceReady_acts (haw : s.awake = true) (hr : s.pwr.st = .run) (hw : x.wait = some x.stamp) (hrep : x.rep = 0)
    (hp : x.pol = 0) (h1 : x.action ≠ 1) (hc : x.action = 2 → s.ctxWaits (x.arg % 64) = true)
    (hb : x.action = 3 → (s.dmaCh (x.arg % 16)).busy = false) :
    ∃ t, exec (.lateOccurrenceReady n) s = .next t ∧ s.Counted n.val t ∧ t.launcher n.val = Lnch.off ∧
      t.on (CVN_Ln_ACT.MISSED n.val) = true ∧ s.Acts s.touch n.val x x.stamp t := by
  obtain ⟨m, f, hm⟩ : ∃ m f, s.touch = { s with time := m, free := f } := by
    unfold State.touch
    split
    · exact ⟨s.time, s.free, rfl⟩
    · exact ⟨_, _, rfl⟩
  have hbusy : ¬(x.action = 3 ∧ (s.dmaCh (x.arg % 16)).busy = true) := fun h => by simp [hb h.1] at h
  have hruns : s.msgRuns = true := by simp [State.msgRuns, haw, hr]
  have hexec : exec (.lateOccurrenceReady n) s = .next (s.touch.lnOccur n.val { x with wait := none } x.stamp true) := by
    show execLateOccurrenceReady n s = _
    unfold execLateOccurrenceReady
    simp only [hx, hw, hruns, hbusy, h1, Lnch.latest_once hrep, Bool.not_true, Bool.false_eq_true, or_self, if_false]
  obtain ⟨hcnt, hgo, hacts, hmiss⟩ := State.lnOccur_done hx m f x.stamp true (.inr rfl) (.inl hr) hc hb (.inr hp)
  rw [hm] at hexec ⊢
  exact ⟨_, hexec, hcnt, (hgo.1 hrep).1, hmiss.trans (Bool.true_or _), hacts⟩

end

/-- Settles O47: an occurrence in Run is lost, dropped or carried out once for the latest stamp passed; in Sleep it wakes the device
or waits for Run. -/
theorem launcherOccurrences : Obligations.LauncherOccurrences := by
  intro n s x hx ha counted goesOn pin k chn src dst len fill w level ring acts go now
  have hacts {u t : State} {st : Nat} (h : s.Acts u n.val x st t) : acts u t st :=
    ⟨h.none, h.context, h.dma, h.pin, h.input, h.event, h.wake, h.sketch⟩
  have hexec {u : State} (h : s.occur n = u) : exec (.launcherOccurrence n) s = .next u := congrArg Host.Outcome.next h
  refine ⟨fun _ _ hl => ?_, fun haw hr hw h0 hp hnow => ?_, fun haw hr hw hl hnow hreach => ?_, fun hs hw hrep hl ht => ?_,
    fun haw hr hw hrep hp hgo => ?_⟩
  · refine hexec ?_
    unfold State.occur
    exact if_pos (.inr (.inr (.inr (.inr hl))))
  · have hl : s.lnBehind n.val = false := by simp [State.lnBehind, hx, h0, ranked]
    obtain ⟨hcnt, hgo, hact, -⟩ := State.lnOccur_done hx s.time s.free (x.latest x.stamp s.time.now)
      (x.late || (x.latest x.stamp s.time.now != x.stamp)) (.inl rfl) (.inl hr) (fun h => by omega) (fun h => by omega) (.inr hp)
    exact ⟨_, hexec (State.occur_passed hx ha hw hl haw hr (by omega) hnow), hcnt, hgo, hact.none h0⟩
  · have hawake : s.pwr.st = .run ∨ s.pwr.st = .idle := hr.imp id And.left
    have hrun (h : x.action < 9) : s.pwr.st = .run := hr.elim id fun h' => by omega
    have hdue (h1 : x.action ≠ 1) := hexec (State.occur_atStamp hx ha hw hl haw hawake h1 hnow hreach)
    have hradio (h1 : x.action = 1) : exec (.launcherOccurrence n) s = .next (s.radioOccur n x) :=
      hexec ((State.occur_awake hx ha hw hl haw hawake).trans (if_pos h1))
    refine ⟨fun hgo hlate => ?_, fun hgo hlate hp => ?_, fun h2 hc => ?_, fun id o h1 hid ho hrep => ⟨fun hk hph ho' => ?_, fun hk hlate hph => ?_⟩⟩
    · obtain ⟨h1, -, hc, hb⟩ := hgo
      obtain ⟨hcnt, hgo, hact, hmiss⟩ := State.lnOccur_done hx { s.time with now := x.stamp } s.free x.stamp x.late (.inl rfl) hr hc hb hlate
      exact ⟨_, hdue h1, hcnt, hgo, hacts hact, hmiss⟩
    · obtain ⟨h1, -, hc, -⟩ := hgo
      have hd := hdue h1
      rw [hlate] at hd
      exact ⟨_, hd, State.lnOccur_dropped hx { s.time with now := x.stamp } x.stamp hc hp⟩
    · exact ⟨_, hdue (by omega), State.lnOccur_misses hx { s.time with now := x.stamp } x.stamp x.late h2 hc⟩
    · refine ⟨_, (hradio h1).trans (congrArg Host.Outcome.next ?_), State.txOccur_counted hx ha h1 hrep hph ho'⟩
      unfold State.radioOccur
      rcases hk with h | h <;> simp only [hid, Option.bind_some, ho, h]
    · refine ⟨_, (hradio h1).trans (congrArg Host.Outcome.next ?_), State.winOccur_counted hx ha h1 hrep hlate hph hnow hreach⟩
      unfold State.radioOccur
      simp only [hid, Option.bind_some, ho, hk, hreach, if_true]
  · have hdue := hexec (State.occur_asleep hx ha hw hl hs ht)
    exact ⟨fun h0 => ⟨_, hdue, State.sleepOccur_none hx hrep h0⟩, fun h => ⟨_, hdue, State.sleepOccur_wakes hx hrep hs h⟩,
      fun h => ⟨_, hdue, State.sleepOccur_waits hs h⟩⟩
  · obtain ⟨h1, -, hc, hb⟩ := hgo
    obtain ⟨t, he, hcnt, hoff, hmiss, hact⟩ := execLateOccurrenceReady_acts hx haw hr hw hrep hp h1 hc hb
    exact ⟨t, he, hcnt, hoff, hmiss, hacts hact⟩

end Sys2Proof.Machine

/-! A beacon lost while the coordinator's entry cannot be written (R181, R258, R397). -/

namespace Sys2Proof.Machine

/-- A synchronised member that has missed two beacons of coordinator 0. The word of the coordinator's entry that holds DUNC is
uncorrectable, port 1 takes fault events, and its ring begins where port 0's does. -/
def ringsOverlap : State :=
  { State.reset with
    regs := [(MAC_ROLE.off, 0x40000000#32), (MAC_BEACON_STAT.off, 0x2800#32), (SYS_FAULT.off, 2#32),
      (HPn_RING_BASE.off 1, 0x200000#32)]
    mem := [(partner 0 + 0x0A, 1#8)]
    marks := [((partner 0 + 0x2F) / 8, .bad)]
    pwr := { State.reset.pwr with st := .run, core := true }
    time := { State.reset.time with now := 12000000, edge := 1, adv := 0 } }

/-- The byte of the first record on port 0's ring that holds its CODE, in the state that a command answers with. -/
def codeAfter : Host.Outcome State Fault Refusal → Byte
  | .next t => t.byte 0x200003
  | _ => 0x10#8

/-- The fault event has been written over the record of the beacon's loss. -/
theorem ringsOverlap_code : codeAfter (exec .beaconMiss ringsOverlap) = 0x30#8 := by decide +kernel

/-- BEACON_MISS's clause on the third missed beacon holds of the state but for what it says of port 0's ring. -/
theorem ringsOverlap_due : ringsOverlap.awake = true ∧ ringsOverlap.upSync = true ∧
    ringsOverlap.reach ringsOverlap.upWindow.2 = true ∧ ringsOverlap.beaconPending = false ∧
    ringsOverlap.fld MAC_BEACON_STAT.MISS = 2 ∧ ringsOverlap.macPort = 0 ∧ (ringsOverlap.port 0).lost = 0 ∧
    ringsOverlap.fld (HPn_RING_BASE.BASE 0) + ringsOverlap.fld (HPn_RING_HEAD.HEAD 0) = 0x200000 ∧
    16 ≤ ringsOverlap.ringRoom 0 ∧ (ringsOverlap.moveTo ringsOverlap.upWindow.2).ringAfter 0 0x10 = 0 := by
  decide +kernel

/-- Refutes O54: the third missed beacon unmodels the coordinator after event 0x10 has been posted, and the clause on the event does
not ask that the coordinator's entry can be written. Where a word of it is uncorrectable the write records a fault, whose event on
another port goes onto a ring that may lie over port 0's: the record at HEAD is then the fault event's. -/
theorem not_windowsBeaconLossAndLeases : ¬ Obligations.WindowsBeaconLossAndLeases := by
  unfold Obligations.WindowsBeaconLossAndLeases
  intro h
  obtain ⟨hawake, hsync, hreach, hpending, hmiss, hport, hlost, hring, hroom, hafter⟩ := ringsOverlap_due
  obtain ⟨-, -, hbeacon, -⟩ := h ringsOverlap hawake
  obtain ⟨t, ht, -, -, -, -, -, -, hposted, -⟩ := (hbeacon hsync hreach hpending).2 hmiss rfl
    (by rw [hport, hring]; exact ⟨hlost, by decide, by decide⟩)
  rw [hport, hring] at hposted
  have hbytes := hposted hroom hafter
  have hcode : t.byte 0x200003 = 0x30#8 := by
    have hc := ringsOverlap_code
    rwa [ht] at hc
  have hten : t.byte 0x200003 = 0x10#8 := by
    exact congrArg (fun l => l.getD 3 0#8) hbytes
  rw [hcode] at hten
  exact absurd hten (by decide)

end Sys2Proof.Machine

/-! Calibrations and temperature conversions asked for (R67, R68, R76, R194). -/

namespace Sys2Proof.Machine

/-! Gap markers that begin with no lane in use (R57, R76). -/

theorem State.fld_of_reg {s t : State} {f : Fld} (h : t.reg f.off = s.reg f.off) : t.fld f = s.fld f := by
  unfold State.fld
  rw [h]

theorem State.on_of_reg {s t : State} {f : Fld} (h : t.reg f.off = s.reg f.off) : t.on f = s.on f := by
  unfold State.on
  rw [State.fld_of_reg h]

theorem State.fld_withTempConv (s : State) (b : Bool) (f : Fld) : ({ s with tempConv := b } : State).fld f = s.fld f :=
  State.fld_of_regs (s := s) rfl f

theorem State.on_withTempConv (s : State) (b : Bool) (f : Fld) : ({ s with tempConv := b } : State).on f = s.on f :=
  State.on_of_regs (s := s) rfl f

theorem State.on_withWkr (s : State) (x : Wkr) (f : Fld) : ({ s with wkr := x } : State).on f = s.on f :=
  State.on_of_regs (s := s) rfl f

theorem State.onlyReg.withTempConv {s t : State} {o : Nat} (h : s.onlyReg t o) (b : Bool) :
    s.onlyReg { ({ t with tempConv := b } : State) with tempConv := s.tempConv } o :=
  ⟨h.1, congrArg (fun x : State => { x with tempConv := s.tempConv }) h.2⟩

theorem State.onlyReg.withWkr {s t : State} {o : Nat} (h : s.onlyReg t o) (x : Wkr) :
    s.onlyReg { ({ t with wkr := x } : State) with wkr := s.wkr } o :=
  ⟨h.1, congrArg (fun x : State => { x with wkr := s.wkr }) h.2⟩

theorem State.tick_of_time {s t : State} (h : t.time = s.time) : t.tick = s.tick := by
  unfold State.tick
  rw [h]

/-- With no lane in use, gap markers cut none short. -/
theorem State.gapLanes_idle {s : State} (h : s.lanes = []) (cs : List Chain) (status : Nat) : s.gapLanes cs status = s := by
  unfold State.gapLanes State.liveLanes State.laneList
  rw [h]
  rfl

theorem State.gapCase_unseen {β : Type} {g : State → β} (hg : ∀ t r, g { t with regs := r } = g t) (s : State)
    (cs : List Chain) : g (s.gapCase cs) = g s := by
  unfold State.gapCase
  split
  · exact State.raise_unseen hg s _ _
  · rfl

/-- GAP is set where a Palette of the chains runs. -/
theorem State.on_gapCase {s : State} {cs : List Chain} (h : cs.any s.palRuns = true) :
    (s.gapCase cs).on CHZ_ERG_STAT.GAP = true := by
  unfold State.gapCase
  rw [if_pos h]
  exact State.on_raise (by decide) (by decide)

theorem State.reg_gapCase_ne (s : State) (cs : List Chain) {o : Nat} (h : o ≠ CHZ_ERG_STAT.off) :
    (s.gapCase cs).reg o = s.reg o := by
  unfold State.gapCase
  split
  · exact ((State.onlyReg_refl s CHZ_ERG_STAT.off).raise rfl rfl).1 o h
  · rfl

/-! A synthesiser that begins to settle (R54, R58, R68). -/

/-- `y` is `x` settling on the word that it had, at case 1 or above, its waiting tunes kept. -/
def Synth.Settles (x y : Synth) : Prop := y.phase = .settling ∧ y.word = x.word ∧ 1 ≤ y.kase ∧ y.queue = x.queue

/-- The registers that a synthesiser writes as it begins to settle: its word, LOCK, and the window of its chain. -/
def State.settleRegs (s : State) (y : Syn) (t : Tune) : State :=
  let s := (s.setFld (RFA_SYn_FREQ.WORD (synIx y)) t.word).setFld (synLockFld y) 0
  match synChain y, t.freq with
  | some c, some f => s.setFld (CHZ_WINn.CENTRE (chainIx c)) f
  | _, _ => s

/-- The synthesiser `x` settling on the tune `t` of case `k` from stamp `n`. -/
def Synth.settling (x : Synth) (t : Tune) (k n : Nat) : Synth :=
  { x with phase := .settling, cur := some t, kase := k, second := false, word := t.word, since := n }

theorem State.settle_eq (s : State) (y : Syn) (t : Tune) (k : Nat) : s.settle y t k =
    let u := (s.setSyn y ((s.syn y).settling t k s.stamp)).settleRegs y t
    if k = 0 then u else { u with tempConv := true } := rfl

theorem State.regs_settle (s : State) (y : Syn) (t : Tune) (k : Nat) : (s.settle y t k).regs =
    ((s.setSyn y ((s.syn y).settling t k s.stamp)).settleRegs y t).regs := by
  rw [State.settle_eq]
  dsimp only
  split <;> rfl

theorem State.settleRegs_unseen {β : Type} {g : State → β} (hg : ∀ t r, g { t with regs := r } = g t) (s : State)
    (y : Syn) (t : Tune) : g (s.settleRegs y t) = g s := by
  unfold State.settleRegs
  dsimp only
  split <;> simp only [State.setFld_unseen hg]

/-- What does not see the registers, the conversion and the synthesiser does not see it settle. -/
theorem State.settle_unseen {β : Type} {g : State → β} {y : Syn} (hg : ∀ t r, g { t with regs := r } = g t)
    (hb : ∀ t b, g { t with tempConv := b } = g t) (hy : ∀ t x, g (t.setSyn y x) = g t) (s : State) (t : Tune) (k : Nat) :
    g (s.settle y t k) = g s := by
  have h : g ((s.setSyn y ((s.syn y).settling t k s.stamp)).settleRegs y t) = g s := by
    rw [State.settleRegs_unseen hg, hy]
  rw [State.settle_eq]
  dsimp only
  split
  · exact h
  · rw [hb, h]

theorem State.syn_of_tempConv (s : State) (b : Bool) (y : Syn) : ({ s with tempConv := b } : State).syn y = s.syn y := by
  cases y <;> rfl

theorem State.syn_of_regs (s : State) (r : Tab Word) (y : Syn) : ({ s with regs := r } : State).syn y = s.syn y := by
  cases y <;> rfl

theorem State.syn_settle (s : State) (y : Syn) (t : Tune) (k : Nat) :
    (s.settle y t k).syn y = (s.syn y).settling t k s.stamp := by
  have h : ((s.setSyn y ((s.syn y).settling t k s.stamp)).settleRegs y t).syn y = (s.syn y).settling t k s.stamp := by
    rw [State.settleRegs_unseen (g := fun u => u.syn y) (fun u r => u.syn_of_regs r y), State.syn_setSyn_self]
  rw [State.settle_eq]
  dsimp only
  split
  · exact h
  · rw [State.syn_of_tempConv, h]

theorem State.syn_settle_ne (s : State) {y z : Syn} (t : Tune) (k : Nat) (h : z ≠ y) : (s.settle y t k).syn z = s.syn z :=
  State.settle_unseen (g := fun u => u.syn z) (fun u r => u.syn_of_regs r z) (fun u b => u.syn_of_tempConv b z)
    (fun u x => u.syn_setSyn_ne y z x h) s t k

theorem State.tempConv_settle (s : State) (y : Syn) (t : Tune) {k : Nat} (h : k ≠ 0) : (s.settle y t k).tempConv = true := by
  rw [State.settle_eq]
  dsimp only
  rw [if_neg h]

/-! A full calibration (R58, R68). -/

theorem State.calBegin_unseen {β : Type} {g : State → β} {y : Syn} (hg : ∀ t r, g { t with regs := r } = g t)
    (hb : ∀ t b, g { t with tempConv := b } = g t) (hy : ∀ t x, g (t.setSyn y x) = g t) (s : State) :
    g (s.calBegin y) = g s := by
  unfold State.calBegin
  dsimp only
  split
  · rw [hb, hy]
  · exact State.settle_unseen hg hb hy s _ _

theorem State.calBegin_settles (s : State) (y : Syn) :
    (s.syn y).Settles ((s.calBegin y).syn y) ∧ (s.calBegin y).tempConv = true := by
  unfold State.calBegin
  dsimp only
  split
  next h =>
    have hs : (({ s.setSyn y { s.syn y with kase := max (s.syn y).kase 1 } with tempConv := true } : State)).syn y =
        { s.syn y with kase := max (s.syn y).kase 1 } := by cases y <;> rfl
    rw [hs]
    exact ⟨⟨eq_of_beq h, rfl, Nat.le_max_right _ _, rfl⟩, rfl⟩
  · rw [State.syn_settle]
    exact ⟨⟨rfl, rfl, Nat.le_refl 1, rfl⟩, State.tempConv_settle s y _ (by decide)⟩

/-- A tune that names no window leaves it. -/
theorem State.settleRegs_noWindow (s : State) (y : Syn) {t : Tune} (h : t.freq = none) :
    s.settleRegs y t = (s.setFld (RFA_SYn_FREQ.WORD (synIx y)) t.word).setFld (synLockFld y) 0 := by
  unfold State.settleRegs
  rw [h]
  cases synChain y <;> rfl

/-- A calibration writes no register but the synthesiser's word and LOCK. -/
theorem State.reg_calBegin (s : State) (y : Syn) {o : Nat} (hw : o ≠ (RFA_SYn_FREQ.WORD (synIx y)).off)
    (hl : o ≠ (synLockFld y).off) : (s.calBegin y).reg o = s.reg o := by
  unfold State.calBegin
  dsimp only
  split
  · exact State.reg_of_regs (s.setSyn_regs y _) o
  · rw [State.reg_of_regs (State.regs_settle _ _ _ _), State.settleRegs_noWindow _ _ rfl, State.reg_setFld_ne _ _ _ _ hl,
      State.reg_setFld_ne _ _ _ _ hw]
    exact State.reg_of_regs (s.setSyn_regs y _) o

/-! RFA_CAL_CTRL written (R68). -/

theorem State.palRuns_setFld (s : State) (f : Fld) (v : Nat) (c : Chain) (h : f.off ≠ CHZ_CTRL.off) :
    (s.setFld f v).palRuns c = s.palRuns c := by
  cases c <;> exact State.on_setFld_ne _ _ _ _ (Ne.symm h)

theorem State.palRuns_of_reg {s t : State} (h : t.reg CHZ_CTRL.off = s.reg CHZ_CTRL.off) (c : Chain) :
    t.palRuns c = s.palRuns c := by
  cases c <;> exact State.on_of_reg h

/-- The calibration of a receive synthesiser that a host asks for. -/
def State.vcoBegin (s : State) (y : Syn) (c : Chain) : State :=
  (((s.setFld (synVcoFld y) 1).calBegin y).gapLanes [c] Status.aborted).gapCase [c]

/-- The IQ calibration of a chain that a host asks for. -/
def State.iqBegin (s : State) (f : Fld) (c : Chain) : State :=
  ((s.setFld f 1).gapLanes [c] Status.aborted).gapCase [c]

theorem State.vcoBegin_spec {s : State} (hl : s.lanes = []) (y : Syn) (c : Chain) : let t := s.vcoBegin y c
    t.on (synVcoFld y) = true ∧ (s.syn y).Settles (t.syn y) ∧ t.tempConv = true ∧
      (s.palRuns c = true → t.on CHZ_ERG_STAT.GAP = true) ∧
      ∀ {β : Type} {g : State → β}, (∀ t r, g { t with regs := r } = g t) → (∀ t b, g { t with tempConv := b } = g t) →
        (∀ t x, g (t.setSyn y x) = g t) → g t = g s := by
  obtain ⟨hfit, hoff, hpal⟩ : ((synVcoFld y).lo = (synVcoFld y).hi ∧ (synVcoFld y).hi < 32) ∧
      ((synVcoFld y).off ≠ CHZ_ERG_STAT.off ∧ (synVcoFld y).off ≠ (RFA_SYn_FREQ.WORD (synIx y)).off ∧
        (synVcoFld y).off ≠ (synLockFld y).off) ∧
      CHZ_CTRL.off ≠ (synVcoFld y).off ∧ CHZ_CTRL.off ≠ (RFA_SYn_FREQ.WORD (synIx y)).off ∧
        CHZ_CTRL.off ≠ (synLockFld y).off := by
    cases y <;> decide
  obtain ⟨hgap, hword, hlock⟩ := hoff
  obtain ⟨hpal, hpw, hpl⟩ := hpal
  have hlanes : ((s.setFld (synVcoFld y) 1).calBegin y).lanes = [] :=
    (State.calBegin_unseen (g := State.lanes) (fun _ _ => rfl) (fun _ _ => rfl) (fun t x => t.setSyn_lanes y x) _).trans hl
  obtain ⟨hset, htc⟩ := (s.setFld (synVcoFld y) 1).calBegin_settles y
  have hruns : ((s.setFld (synVcoFld y) 1).calBegin y).palRuns c = s.palRuns c :=
    (State.palRuns_of_reg (State.reg_calBegin _ y hpw hpl) c).trans (s.palRuns_setFld _ _ c hpal.symm)
  unfold State.vcoBegin
  rw [State.gapLanes_idle hlanes]
  refine ⟨?_, ?_, ?_, fun h => State.on_gapCase ?_, fun hg hb hy => ?_⟩
  · rw [State.on_of_reg (State.reg_gapCase_ne _ _ hgap), State.on_of_reg (State.reg_calBegin _ y hword hlock)]
    exact State.on_setFld_one _ _ hfit
  · rw [State.gapCase_unseen (g := fun u => u.syn y) (fun u r => u.syn_of_regs r y)]
    cases y <;> exact hset
  · exact (State.gapCase_unseen (g := State.tempConv) (fun _ _ => rfl) _ _).trans htc
  · simpa [hruns] using h
  · rw [State.gapCase_unseen hg, State.calBegin_unseen hg hb hy, State.setFld_unseen hg]

theorem State.iqBegin_spec {s : State} (hl : s.lanes = []) {f : Fld} (hf : f ∈ [RFA_CAL_CTRL.RXA_IQ, RFA_CAL_CTRL.RXB_IQ])
    (c : Chain) : let t := s.iqBegin f c
    t.on f = true ∧ (s.palRuns c = true → t.on CHZ_ERG_STAT.GAP = true) ∧
      ∀ {β : Type} {g : State → β}, (∀ t r, g { t with regs := r } = g t) → g t = g s := by
  obtain ⟨hoff, hfit⟩ : f.off = RFA_CAL_CTRL.off ∧ f.lo = f.hi ∧ f.hi < 32 := by
    revert f
    decide
  have hruns : (s.setFld f 1).palRuns c = s.palRuns c := s.palRuns_setFld f 1 c (hoff ▸ by decide)
  unfold State.iqBegin
  rw [State.gapLanes_idle (s := s.setFld f 1) hl]
  refine ⟨?_, fun h => State.on_gapCase ?_, fun hg => ?_⟩
  · rw [State.on_of_reg (State.reg_gapCase_ne _ _ (hoff ▸ by decide))]
    exact State.on_setFld_one _ _ hfit
  · simpa [hruns] using h
  · rw [State.gapCase_unseen hg, State.setFld_unseen hg]

/-- What a word written to RFA_CAL_CTRL asks for. -/
def State.calWord (s : State) (v : Word) : State :=
  [(0, CalKind.syaVco), (1, .sybVco), (2, .sytVco), (5, .rxaIq), (6, .rxbIq)].foldl (fun s c =>
    if bit v c.1 then s.calRequest c.2 else s) s

/-- A word written to RFA_CAL_CTRL is stored, then the calibrations that it names are asked for. -/
theorem State.regWrite_calCtrl {s : State} {p : Fin 4} (hr : s.reaches (.host p) = true) (v : Word) :
    ∃ w, s.regWrite (.host p) (fun _ => [(RFA_CAL_CTRL.off, v)]) = .next ((s.moment.setReg RFA_CAL_CTRL.off w).calWord v) := by
  refine ⟨s.moment.stored [(RFA_CAL_CTRL.off, v)] RFA_CAL_CTRL.off v, ?_⟩
  rw [State.regWrite_sets s (.host p) _ RFA_CAL_CTRL.off v hr rfl (by decide)
    (.inr (protectedFields_none _ v ⟨by decide, by decide, by decide, .inl (by decide)⟩)), State.effect_block6 _ _ _ _ _ _ _ (by decide)]
  rfl

/-- The state at a request has the lanes, the synthesisers and the powered chains of the state before it. -/
theorem State.synOn_setReg (s : State) (w : Word) (y : Syn) : (s.moment.setReg RFA_CAL_CTRL.off w).synOn y = s.synOn y := by
  have h : (synOnFld y).off ≠ RFA_CAL_CTRL.off := by cases y <;> decide
  exact (State.on_of_reg (State.reg_setReg_ne _ _ _ _ h)).trans (s.on_moment _)

theorem State.palRuns_setReg (s : State) (w : Word) (c : Chain) :
    (s.moment.setReg RFA_CAL_CTRL.off w).palRuns c = s.palRuns c :=
  State.palRuns_of_reg ((State.reg_setReg_ne _ _ _ _ (by decide)).trans (s.reg_moment _)) c

theorem State.calRequest_off (s : State) {k : CalKind} {y : Syn}
    (hk : (k, y) ∈ [(CalKind.syaVco, Syn.sya), (.sybVco, .syb), (.sytVco, .syt), (.rxaIq, .sya), (.rxbIq, .syb)])
    (h : s.synOn y = false) : s.calRequest k = s := by
  simp only [List.mem_cons, Prod.mk.injEq, List.not_mem_nil, or_false] at hk
  unfold State.calRequest
  rcases hk with ⟨rfl, rfl⟩ | ⟨rfl, rfl⟩ | ⟨rfl, rfl⟩ | ⟨rfl, rfl⟩ | ⟨rfl, rfl⟩ <;> simp [h]

theorem regWrite_vco {s : State} {p : Fin 4} (hr : s.reaches (.host p) = true) (hl : s.lanes = []) {y : Syn} {c : Chain}
    {v : Word} (hv : ∀ u : State, u.synOn y = true → u.calWord v = u.vcoBegin y c) (hon : s.synOn y = true) :
    ∃ t, s.regWrite (.host p) (fun _ => [(RFA_CAL_CTRL.off, v)]) = .next t ∧ t.on (synVcoFld y) = true ∧
      (s.syn y).Settles (t.syn y) ∧ t.tempConv = true ∧ (s.palRuns c = true → t.on CHZ_ERG_STAT.GAP = true) ∧
      ∀ {β : Type} {g : State → β}, (∀ t r, g { t with regs := r } = g t) → (∀ t b, g { t with tempConv := b } = g t) →
        (∀ t x, g (t.setSyn y x) = g t) → g t = g s.moment := by
  obtain ⟨w, hw⟩ := State.regWrite_calCtrl hr v
  obtain ⟨hbit, hset, htc, hgap, hg⟩ := State.vcoBegin_spec (s := s.moment.setReg RFA_CAL_CTRL.off w)
    (s.moment_lanes.trans hl) y c
  rw [hv _ ((s.synOn_setReg w y).trans hon)] at hw
  rw [s.palRuns_setReg] at hgap
  have hsyn : (s.moment.setReg RFA_CAL_CTRL.off w).syn y = s.syn y := by
    rw [State.setReg_unseen (g := fun u => u.syn y) (fun u r => u.syn_of_regs r y)]
    cases y
    · exact s.moment_sya
    · exact s.moment_syb
    · exact s.moment_syt
  refine ⟨_, hw, hbit, hsyn ▸ hset, htc, hgap, fun h1 h2 h3 => ?_⟩
  rw [hg h1 h2 h3, State.setReg_unseen h1]

theorem regWrite_iq {s : State} {p : Fin 4} (hr : s.reaches (.host p) = true) (hl : s.lanes = []) {y : Syn} {c : Chain}
    {f : Fld} (hf : f ∈ [RFA_CAL_CTRL.RXA_IQ, RFA_CAL_CTRL.RXB_IQ]) {v : Word}
    (hv : ∀ u : State, u.synOn y = true → u.calWord v = u.iqBegin f c) (hon : s.synOn y = true) :
    ∃ t, s.regWrite (.host p) (fun _ => [(RFA_CAL_CTRL.off, v)]) = .next t ∧ t.on f = true ∧
      (s.palRuns c = true → t.on CHZ_ERG_STAT.GAP = true) ∧ { t with regs := s.regs } = s.moment := by
  obtain ⟨w, hw⟩ := State.regWrite_calCtrl hr v
  obtain ⟨hbit, hgap, hg⟩ := State.iqBegin_spec (s := s.moment.setReg RFA_CAL_CTRL.off w) (s.moment_lanes.trans hl) hf c
  rw [hv _ ((s.synOn_setReg w y).trans hon)] at hw
  rw [s.palRuns_setReg] at hgap
  refine ⟨_, hw, hbit, hgap, ?_⟩
  have h := hg (β := State) (g := fun t => { t with regs := s.moment.regs }) (fun _ _ => rfl)
  rw [← s.moment_regs]
  exact h

theorem regWrite_calOff {s : State} {p : Fin 4} (hr : s.reaches (.host p) = true) {v : Word} {y : Syn}
    (hv : ∀ u : State, u.synOn y = false → u.calWord v = u) (hoff : s.synOn y = false) :
    ∃ t, s.regWrite (.host p) (fun _ => [(RFA_CAL_CTRL.off, v)]) = .next t ∧ s.moment.onlyReg t RFA_CAL_CTRL.off := by
  obtain ⟨w, hw⟩ := State.regWrite_calCtrl hr v
  rw [hv _ ((s.synOn_setReg w y).trans hoff)] at hw
  exact ⟨_, hw, State.onlyReg_setReg _ _ _⟩

theorem State.calWord_syaVco (u : State) : u.calWord 0x01#32 = u.calRequest .syaVco := rfl
theorem State.calWord_sybVco (u : State) : u.calWord 0x02#32 = u.calRequest .sybVco := rfl
theorem State.calWord_sytVco (u : State) : u.calWord 0x04#32 = u.calRequest .sytVco := rfl
theorem State.calWord_rxaIq (u : State) : u.calWord 0x20#32 = u.calRequest .rxaIq := rfl
theorem State.calWord_rxbIq (u : State) : u.calWord 0x40#32 = u.calRequest .rxbIq := rfl

/-! SYT_VCO (R68). -/

theorem State.calRequest_syt_free {s : State} (hon : s.synOn .syt = true) (ha : s.on TXP_STAT.ACTIVE = false) :
    s.calRequest .sytVco = (s.setFld RFA_CAL_CTRL.SYT_VCO 1).calBegin .syt := by
  have h : (s.setFld (calFld .sytVco) 1).on TXP_STAT.ACTIVE = false := (State.on_setFld_ne _ _ _ _ (by decide)).trans ha
  unfold State.calRequest
  dsimp only
  rw [if_pos hon, if_neg (by rw [h]; decide)]
  rfl

theorem State.calRequest_syt_held {s : State} (hon : s.synOn .syt = true) (ha : s.on TXP_STAT.ACTIVE = true) :
    s.calRequest .sytVco = { s.setFld RFA_CAL_CTRL.SYT_VCO 1 with syt := { s.syt with calWait := true } } := by
  have h : (s.setFld (calFld .sytVco) 1).on TXP_STAT.ACTIVE = true := (State.on_setFld_ne _ _ _ _ (by decide)).trans ha
  unfold State.calRequest
  dsimp only
  rw [if_pos hon, if_pos h]
  rfl

theorem State.active_setReg (s : State) (w : Word) :
    (s.moment.setReg RFA_CAL_CTRL.off w).on TXP_STAT.ACTIVE = s.on TXP_STAT.ACTIVE :=
  (State.on_of_reg (State.reg_setReg_ne _ _ _ _ (by decide))).trans (s.on_moment _)

theorem execSytVco_calibrates {s : State} {p : Fin 4} (hr : s.reaches (.host p) = true) (hon : s.synOn .syt = true)
    (ha : s.on TXP_STAT.ACTIVE = false) : ∃ t, exec (.sytVco p) s = .next t ∧ t.on RFA_CAL_CTRL.SYT_VCO = true ∧
      s.syt.Settles t.syt ∧ t.tempConv = true ∧
      { t with regs := s.regs, syt := s.syt, tempConv := s.tempConv } = s.moment := by
  obtain ⟨w, hw⟩ := State.regWrite_calCtrl hr 0x04#32
  rw [State.calWord_sytVco, State.calRequest_syt_free ((s.synOn_setReg w .syt).trans hon) ((s.active_setReg w).trans ha)] at hw
  obtain ⟨hset, htc⟩ := ((s.moment.setReg RFA_CAL_CTRL.off w).setFld RFA_CAL_CTRL.SYT_VCO 1).calBegin_settles .syt
  refine ⟨_, hw, ?_, ?_, htc, ?_⟩
  · rw [State.on_of_reg (State.reg_calBegin _ .syt (by decide) (by decide))]
    exact State.on_setFld_one _ _ (by decide)
  · rw [← s.moment_syt]
    exact hset
  · have h := State.calBegin_unseen (β := State) (y := .syt)
      (g := fun t => { t with regs := s.moment.regs, syt := s.moment.syt, tempConv := s.moment.tempConv })
      (fun _ _ => rfl) (fun _ _ => rfl) (fun _ _ => rfl)
      ((s.moment.setReg RFA_CAL_CTRL.off w).setFld RFA_CAL_CTRL.SYT_VCO 1)
    rw [← s.moment_regs, ← s.moment_syt, ← s.moment_tempConv]
    exact h

theorem execSytVco_waits {s : State} {p : Fin 4} (hr : s.reaches (.host p) = true) (hon : s.synOn .syt = true)
    (ha : s.on TXP_STAT.ACTIVE = true) : ∃ t, exec (.sytVco p) s = .next t ∧ t.on RFA_CAL_CTRL.SYT_VCO = true ∧
      t.syt = { s.syt with calWait := true } := by
  obtain ⟨w, hw⟩ := State.regWrite_calCtrl hr 0x04#32
  rw [State.calWord_sytVco, State.calRequest_syt_held ((s.synOn_setReg w .syt).trans hon) ((s.active_setReg w).trans ha)] at hw
  refine ⟨_, hw, (State.on_of_regs rfl _).trans (State.on_setFld_one _ _ (by decide)), ?_⟩
  rw [← s.moment_syt]
  rfl

/-! TEMP_START, WKR_ENABLE and CAL (R67, R194). -/

theorem FieldDef.after_ro (hi lo : Nat) (ok : List (Nat × Nat)) (w r : Word) :
    (⟨hi, lo, .ro, ok⟩ : FieldDef).after w r = getBits r hi lo := rfl

theorem FieldDef.after_rw (hi lo : Nat) (w r : Word) : (⟨hi, lo, .rw, []⟩ : FieldDef).after w r = getBits w hi lo := rfl

theorem findReg_rfaTemp :
    ∃ d, findReg RFA_TEMP.off = some d ∧ d.tidy = true ∧ (⟨11, 0, .ro, []⟩ : FieldDef) ∈ d.fields := by
  decide

theorem findReg_wkrCfg : ∃ d, findReg WKR_CFG.off = some d ∧ d.tidy = true ∧
    (⟨15, 15, .rw, []⟩ : FieldDef) ∈ d.fields ∧ (⟨31, 16, .rw, []⟩ : FieldDef) ∈ d.fields := by
  decide

/-- START set on the stored word, with the conversion begun. -/
theorem State.tempStart_stored (u : State) (w : Word) :
    let t : State := { (u.setReg RFA_TEMP.off w).setFld RFA_TEMP.START 1 with tempConv := true }
    t.on RFA_TEMP.START = true ∧ t.fld RFA_TEMP.TEMP = getBits w 11 0 ∧
      u.onlyReg { t with tempConv := u.tempConv } RFA_TEMP.off := by
  intro t
  refine ⟨?_, ?_, ((State.onlyReg_setReg u RFA_TEMP.off w).setFld rfl 1).withTempConv true⟩
  · exact (State.on_withTempConv ((u.setReg RFA_TEMP.off w).setFld RFA_TEMP.START 1) true _).trans
      (State.on_setFld_one _ _ (by decide))
  · refine (State.fld_withTempConv ((u.setReg RFA_TEMP.off w).setFld RFA_TEMP.START 1) true _).trans ?_
    rw [State.fld_setFld_other _ _ _ _ (by decide)]
    exact congrArg (getBits · 11 0) (State.reg_setReg_self u RFA_TEMP.off w)

theorem execTempStart_converts {s : State} {m : Master} (hr : s.reaches m = true) :
    ∃ t, exec (.tempStart m) s = .next t ∧ t.on RFA_TEMP.START = true ∧ t.tempConv = true ∧
      t.fld RFA_TEMP.TEMP = s.fld RFA_TEMP.TEMP ∧ s.moment.onlyReg { t with tempConv := s.tempConv } RFA_TEMP.off := by
  obtain ⟨v, hv⟩ : ∃ v, v = withBits (s.moment.reg RFA_TEMP.off) 0x80000000 := ⟨_, rfl⟩
  have hbit : RFA_TEMP.off = RFA_TEMP.off ∧ bit v 31 = true := ⟨rfl, hv ▸ bit_withBits _ _ _ (by decide) (by decide)⟩
  obtain ⟨d, hd, htidy, hf⟩ := findReg_rfaTemp
  obtain ⟨w, hx⟩ : ∃ w, w = s.moment.stored [(RFA_TEMP.off, v)] RFA_TEMP.off v := ⟨_, rfl⟩
  have hw : s.regWrite m (fun s => [(RFA_TEMP.off, withBits (s.reg RFA_TEMP.off) 0x80000000)]) =
      .next { (s.moment.setReg RFA_TEMP.off w).setFld RFA_TEMP.START 1 with tempConv := true } := by
    rw [State.regWrite_sets s m _ RFA_TEMP.off v hr (by rw [hv]) (by decide)
      (.inr (protectedFields_none _ v ⟨by decide, by decide, by decide, .inl (by decide)⟩)),
      State.effect_block6 _ _ _ _ _ _ _ (by decide), ← hx]
    unfold State.effRfa
    rw [if_neg (by decide), if_neg (by decide), if_neg (by decide), if_neg (by decide), if_neg (by decide), if_pos hbit]
  have htemp : getBits w 11 0 = s.fld RFA_TEMP.TEMP := by
    rw [hx, State.stored_field _ _ _ _ d ⟨11, 0, .ro, []⟩ hd htidy hf, FieldDef.after_ro]
    exact s.fld_moment RFA_TEMP.TEMP
  obtain ⟨hstart, ht, honly⟩ := s.moment.tempStart_stored w
  exact ⟨_, hw, hstart, rfl, ht.trans htemp, s.moment_tempConv ▸ honly⟩

/-- The receiver `x` with a calibration begun at tick `n`. -/
def Wkr.calibrating (x : Wkr) (n : Nat) : Wkr := { x with cal := some n, ref := n }

theorem State.wkrCal_idle {s : State} (h : s.wkr.cal = none) :
    s.wkrCal = { s.setFld WKR_TUNE.CAL 1 with wkr := s.wkr.calibrating s.tick } := by
  unfold State.wkrCal
  rw [h]
  rfl

theorem State.wkrCal_unseen {β : Type} {g : State → β} (hg : ∀ t r, g { t with regs := r } = g t)
    (hw : ∀ t x, g { t with wkr := x } = g t) (s : State) : g s.wkrCal = g s := by
  unfold State.wkrCal
  split
  · rfl
  · exact (hw (s.setFld WKR_TUNE.CAL 1) _).trans (State.setFld_unseen hg _ _ _)

theorem State.tick_wkrCal (s : State) : s.wkrCal.tick = s.tick :=
  State.tick_of_time (State.wkrCal_unseen (g := State.time) (fun _ _ => rfl) (fun _ _ => rfl) s)

theorem State.wkr_wkrCal {s : State} (h : s.wkr.cal = none) : s.wkrCal.wkr = s.wkr.calibrating s.wkrCal.tick := by
  rw [s.tick_wkrCal, State.wkrCal_idle h]

theorem State.on_wkrCal {s : State} (h : s.wkr.cal = none) : s.wkrCal.on WKR_TUNE.CAL = true := by
  rw [State.wkrCal_idle h, State.on_withWkr (s.setFld WKR_TUNE.CAL 1)]
  exact State.on_setFld_one _ _ (by decide)

theorem State.onlyReg.wkrCal {s t : State} (h : s.onlyReg t WKR_TUNE.off) :
    s.onlyReg { t.wkrCal with wkr := s.wkr } WKR_TUNE.off := by
  unfold State.wkrCal
  split
  · exact ⟨h.1, congrArg (fun x : State => { x with wkr := s.wkr }) h.2⟩
  · exact (h.setFld (f := WKR_TUNE.CAL) rfl 1).withWkr _

theorem State.reg_wkrCal_ne (s : State) {o : Nat} (h : o ≠ WKR_TUNE.off) : s.wkrCal.reg o = s.reg o :=
  (State.onlyReg_refl s _).wkrCal.1 o h

theorem State.wkrCal_busy {s : State} (h : s.wkr.cal ≠ none) : s.wkrCal = s := by
  unfold State.wkrCal
  rw [if_pos (Option.isSome_iff_ne_none.mpr h)]

/-- WKR_TUNE written with CAL. -/
theorem regWrite_cal {s : State} {m : Master} (hr : s.reaches m = true) (v : Word) :
    ∃ w, s.regWrite m (fun _ => [(WKR_TUNE.off, withBits v 0x80000000)]) =
      .next (s.moment.setReg WKR_TUNE.off w).wkrCal := by
  obtain ⟨x, hx⟩ : ∃ x, x = withBits v 0x80000000 := ⟨_, rfl⟩
  have hbit : WKR_TUNE.off = WKR_TUNE.off ∧ bit x 31 = true := ⟨rfl, hx ▸ bit_withBits _ _ _ (by decide) (by decide)⟩
  refine ⟨s.moment.stored [(WKR_TUNE.off, x)] WKR_TUNE.off x, ?_⟩
  rw [State.regWrite_sets s m _ WKR_TUNE.off x hr (by rw [hx]) (by decide)
    (.inr (protectedFields_none _ x ⟨by decide, by decide, by decide, .inl (by decide)⟩)),
    State.effect_blockF _ _ _ _ _ _ _ (by decide)]
  unfold State.effWkr
  rw [if_neg (by decide), if_pos hbit]

/-- EN going from 0 to 1 begins a calibration of a receiver that runs none. -/
theorem State.wkrCfg_enables {s old : State} (hn : s.on WKR_CFG.EN = true) (ho : old.on WKR_CFG.EN = false) :
    ∃ b, s.wkrCfg old = State.wkrCal { s with wkr := { s.wkr with blind := b } } := by
  have he : ∀ u : State, u.regs = s.regs → (u.on WKR_CFG.EN && !old.on WKR_CFG.EN) = true := by
    intro u hu
    rw [State.on_of_regs hu, hn, ho]
    rfl
  unfold State.wkrCfg
  dsimp only
  split
  · exact ⟨_, if_pos (he s.wkrDeaf rfl)⟩
  · exact ⟨s.wkr.blind, if_pos (he s rfl)⟩

/-- EN stored as 1 on a receiver that was off and runs no calibration. -/
theorem State.wkrCfg_stored {u : State} {w : Word} (hc : u.wkr.cal = none) (hn : getBits w 15 15 = 1)
    (ho : u.on WKR_CFG.EN = false) : let t := (u.setReg WKR_CFG.off w).wkrCfg u
    t.on WKR_CFG.EN = true ∧ t.on WKR_TUNE.CAL = true ∧ t.wkr.cal = some t.tick ∧ t.wkr.ref = t.tick ∧
      t.wkr.last = u.wkr.last ∧ t.fld WKR_CFG.ADDR = getBits w 31 16 ∧ { t with regs := u.regs, wkr := u.wkr } = u := by
  have hw : (u.setReg WKR_CFG.off w).reg WKR_CFG.off = w := State.reg_setReg_self _ _ _
  have hEn : (u.setReg WKR_CFG.off w).on WKR_CFG.EN = true := by
    have h : (u.setReg WKR_CFG.off w).fld WKR_CFG.EN = 1 := (congrArg (getBits · 15 15) hw).trans hn
    unfold State.on
    rw [h]
    rfl
  obtain ⟨b, hb⟩ := State.wkrCfg_enables hEn ho
  obtain ⟨x, hx⟩ : ∃ x : State, x = { u.setReg WKR_CFG.off w with wkr := { u.wkr with blind := b } } := ⟨_, rfl⟩
  have hxc : x.wkr.cal = none := hx ▸ hc
  have hwkr := State.wkr_wkrCal hxc
  have hreg : x.wkrCal.reg WKR_CFG.off = w :=
    (x.reg_wkrCal_ne (by decide)).trans (hx ▸ (State.reg_of_regs (s := u.setReg WKR_CFG.off w) rfl _).trans hw)
  have hEnd : x.wkrCal.on WKR_CFG.EN = (u.setReg WKR_CFG.off w).on WKR_CFG.EN := State.on_of_reg (hreg.trans hw.symm)
  have hb' : (u.setReg WKR_CFG.off w).wkrCfg u = x.wkrCal := hb.trans (congrArg State.wkrCal hx.symm)
  rw [hb']
  refine ⟨hEnd.trans hEn, State.on_wkrCal hxc, ?_, ?_, ?_, congrArg (getBits · 31 16) hreg, ?_⟩
  · rw [hwkr]
    rfl
  · rw [hwkr]
    rfl
  · rw [hwkr, hx]
    rfl
  · refine (State.wkrCal_unseen (g := fun t : State => { t with regs := u.regs, wkr := u.wkr }) (fun _ _ => rfl)
      (fun _ _ => rfl) x).trans ?_
    rw [hx]
    rfl

theorem execWkrEnable_calibrates {s : State} {m : Master} (hr : s.reaches m = true) (v : Word)
    (hoff : s.on WKR_CFG.EN = false) (hc : s.wkr.cal = none) :
    ∃ t, exec (.wkrEnable m v) s = .next t ∧ t.on WKR_CFG.EN = true ∧
      t.on WKR_TUNE.CAL = true ∧ t.wkr.cal = some t.tick ∧ t.wkr.ref = t.tick ∧ t.wkr.last = s.wkr.last ∧
      t.fld WKR_CFG.ADDR = getBits v 31 16 ∧ { t with regs := s.regs, wkr := s.wkr } = s.moment := by
  obtain ⟨x, hx⟩ : ∃ x, x = withBits v 0x8000 := ⟨_, rfl⟩
  obtain ⟨d, hd, htidy, hen, haddr⟩ := findReg_wkrCfg
  obtain ⟨w, hu⟩ : ∃ w, w = s.moment.stored [(WKR_CFG.off, x)] WKR_CFG.off x := ⟨_, rfl⟩
  have hgate : s.moment.gate [(WKR_CFG.off, x)] WKR_CFG.off x = x := by
    rw [State.gate_blockF _ _ _ _ (by decide), State.gateEng_open _ _ _ _ (by decide)]
  have hEn : getBits w 15 15 = 1 := by
    rw [hu, State.stored_field _ _ _ _ d ⟨15, 15, .rw, []⟩ hd htidy hen, hgate, FieldDef.after_rw, getBits_bit, hx,
      bit_withBits v _ 15 (by decide) (by decide)]
    rfl
  have hAddr : getBits w 31 16 = getBits v 31 16 := by
    rw [hu, State.stored_field _ _ _ _ d ⟨31, 16, .rw, []⟩ hd htidy haddr, hgate, FieldDef.after_rw, hx,
      getBits_withBits v 0x8000 31 16]
    intro i h1 h2
    interval_cases i <;> rfl
  have hw : s.regWrite m (fun _ => [(WKR_CFG.off, withBits v 0x8000)]) =
      .next ((s.moment.setReg WKR_CFG.off w).wkrCfg s.moment) := by
    rw [State.regWrite_sets s m _ WKR_CFG.off x hr (by rw [hx]) (by decide)
      (.inr (protectedFields_none _ x ⟨by decide, by decide, by decide, .inl (by decide)⟩)),
      State.effect_blockF _ _ _ _ _ _ _ (by decide), ← hu]
    rfl
  rw [← s.moment_wkr, ← s.on_moment] at *
  rw [← s.moment_regs, ← hAddr]
  exact ⟨_, hw, State.wkrCfg_stored hc hEn hoff⟩

theorem State.wkrCal_stored {u : State} (hc : u.wkr.cal = none) (w : Word) : let t := (u.setReg WKR_TUNE.off w).wkrCal
    t.on WKR_TUNE.CAL = true ∧ t.wkr = { u.wkr with cal := some t.tick, ref := t.tick } ∧
      u.onlyReg { t with wkr := u.wkr } WKR_TUNE.off :=
  ⟨State.on_wkrCal (s := u.setReg WKR_TUNE.off w) hc, State.wkr_wkrCal (s := u.setReg WKR_TUNE.off w) hc,
    (State.onlyReg_setReg u WKR_TUNE.off w).wkrCal⟩

theorem execCal_calibrates {s : State} {m : Master} (hr : s.reaches m = true) (v : Word) (hc : s.wkr.cal = none) :
    ∃ t, exec (.cal m v) s = .next t ∧ t.on WKR_TUNE.CAL = true ∧ t.wkr = { s.wkr with cal := some t.tick, ref := t.tick } ∧
      s.moment.onlyReg { t with wkr := s.wkr } WKR_TUNE.off := by
  obtain ⟨w, hw⟩ := regWrite_cal hr v
  rw [← s.moment_wkr] at hc ⊢
  exact ⟨_, hw, State.wkrCal_stored hc w⟩

theorem execCal_ignored {s : State} {m : Master} (hr : s.reaches m = true) (v : Word) (hc : s.wkr.cal ≠ none) :
    ∃ t, exec (.cal m v) s = .next t ∧ s.moment.onlyReg t WKR_TUNE.off := by
  obtain ⟨w, hw⟩ := regWrite_cal hr v
  have hwkr : (s.moment.setReg WKR_TUNE.off w).wkr = s.wkr := s.moment_wkr
  rw [State.wkrCal_busy (hwkr ▸ hc)] at hw
  exact ⟨_, hw, State.onlyReg_setReg _ _ _⟩

/-! The rows of RFA_CAL_CTRL. -/

theorem execSyaVco_calibrates {s : State} {p : Fin 4} (hr : s.reaches (.host p) = true) (hl : s.lanes = [])
    (hon : s.synOn .sya = true) : ∃ t, exec (.syaVco p) s = .next t ∧ t.on RFA_CAL_CTRL.SYA_VCO = true ∧
      s.sya.Settles t.sya ∧ t.tempConv = true ∧ (s.palRuns .a = true → t.on CHZ_ERG_STAT.GAP = true) ∧
      { t with regs := s.regs, sya := s.sya, tempConv := s.tempConv } = s.moment := by
  obtain ⟨t, ht, hbit, hset, htc, hgap, hg⟩ := regWrite_vco (v := 0x01#32) (c := .a) hr hl
    (fun u h => (u.calWord_syaVco).trans (if_pos h)) hon
  refine ⟨t, ht, hbit, hset, htc, hgap, ?_⟩
  have h := hg (β := State) (g := fun t => { t with regs := s.moment.regs, sya := s.moment.sya, tempConv := s.moment.tempConv })
    (fun _ _ => rfl) (fun _ _ => rfl) (fun _ _ => rfl)
  rw [← s.moment_regs, ← s.moment_sya, ← s.moment_tempConv]
  exact h

theorem execSybVco_calibrates {s : State} {p : Fin 4} (hr : s.reaches (.host p) = true) (hl : s.lanes = [])
    (hon : s.synOn .syb = true) : ∃ t, exec (.sybVco p) s = .next t ∧ t.on RFA_CAL_CTRL.SYB_VCO = true ∧
      s.syb.Settles t.syb ∧ t.tempConv = true ∧ (s.palRuns .b = true → t.on CHZ_ERG_STAT.GAP = true) ∧
      { t with regs := s.regs, syb := s.syb, tempConv := s.tempConv } = s.moment := by
  obtain ⟨t, ht, hbit, hset, htc, hgap, hg⟩ := regWrite_vco (v := 0x02#32) (c := .b) hr hl
    (fun u h => (u.calWord_sybVco).trans (if_pos h)) hon
  refine ⟨t, ht, hbit, hset, htc, hgap, ?_⟩
  have h := hg (β := State) (g := fun t => { t with regs := s.moment.regs, syb := s.moment.syb, tempConv := s.moment.tempConv })
    (fun _ _ => rfl) (fun _ _ => rfl) (fun _ _ => rfl)
  rw [← s.moment_regs, ← s.moment_syb, ← s.moment_tempConv]
  exact h

/-- A calibration of a synthesiser that is off is ignored. -/
theorem exec_calOff {s : State} {p : Fin 4} (hr : s.reaches (.host p) = true) {c : Instr × Syn}
    (hc : c ∈ [(Instr.syaVco p, Syn.sya), (.sybVco p, .syb), (.sytVco p, .syt), (.rxaIq p, .sya), (.rxbIq p, .syb)])
    (hoff : s.synOn c.2 = false) : ∃ t, exec c.1 s = .next t ∧ s.moment.onlyReg t RFA_CAL_CTRL.off := by
  simp only [List.mem_cons, List.not_mem_nil, or_false] at hc
  have hk : ∀ x ∈ [(CalKind.syaVco, Syn.sya), (.sybVco, .syb), (.sytVco, .syt), (.rxaIq, .sya), (.rxbIq, .syb)],
      ∀ u : State, u.synOn x.2 = false → u.calRequest x.1 = u := fun x hx u h => u.calRequest_off hx h
  rcases hc with rfl | rfl | rfl | rfl | rfl
  · exact regWrite_calOff hr (fun u h => u.calWord_syaVco.trans (hk (.syaVco, .sya) (by decide) u h)) hoff
  · exact regWrite_calOff hr (fun u h => u.calWord_sybVco.trans (hk (.sybVco, .syb) (by decide) u h)) hoff
  · exact regWrite_calOff hr (fun u h => u.calWord_sytVco.trans (hk (.sytVco, .syt) (by decide) u h)) hoff
  · exact regWrite_calOff hr (fun u h => u.calWord_rxaIq.trans (hk (.rxaIq, .sya) (by decide) u h)) hoff
  · exact regWrite_calOff hr (fun u h => u.calWord_rxbIq.trans (hk (.rxbIq, .syb) (by decide) u h)) hoff

/-- Settles O39: a request stores its word and begins what its bit names. That GAP is set for every running Palette, WR_n = 0
included, is the model's choice (log entry 171), and so is the calibration's start as the worker's reference time (log entry 95). -/
theorem calibrationsStart : Obligations.CalibrationsStart := by
  unfold Obligations.CalibrationsStart
  intro p m v s hp hm settles gap
  refine ⟨fun hl => ⟨execSyaVco_calibrates hp hl, execSybVco_calibrates hp hl, ?_, ?_⟩, execSytVco_calibrates hp,
    execSytVco_waits hp, fun c hc => exec_calOff hp hc, execTempStart_converts hm, execWkrEnable_calibrates hm v,
    execCal_calibrates hm v, execCal_ignored hm v⟩
  · exact regWrite_iq (v := 0x20#32) hp hl (by decide) fun u h => u.calWord_rxaIq.trans (if_pos h)
  · exact regWrite_iq (v := 0x40#32) hp hl (by decide) fun u h => u.calWord_rxbIq.trans (if_pos h)

end Sys2Proof.Machine

/-! Tunes of the synthesisers (R48, R54, R56, R57, R60). -/

namespace Sys2Proof.Machine

theorem pickBest_single {α : Type} (before : α → α → Bool) (x : α) : pickBest before [x] = some x := rfl

/-! What one synthesiser's beginning to settle leaves of the registers. -/

theorem State.fld_of_settle (s : State) (y : Syn) (t : Tune) (k : Nat) (f : Fld) : (s.settle y t k).fld f =
    ((s.setSyn y ((s.syn y).settling t k s.stamp)).settleRegs y t).fld f := State.fld_of_regs (s.regs_settle y t k) f

theorem State.fld_settle_other (s : State) (y : Syn) (t : Tune) (k : Nat) {f : Fld}
    (hw : (RFA_SYn_FREQ.WORD (synIx y)).apart f = true) (hl : (synLockFld y).apart f = true)
    (hc : ∀ c, synChain y = some c → (CHZ_WINn.CENTRE (chainIx c)).apart f = true) : (s.settle y t k).fld f = s.fld f := by
  rw [State.fld_of_settle, ← State.fld_of_regs (s.setSyn_regs y ((s.syn y).settling t k s.stamp)) f]
  unfold State.settleRegs
  dsimp only
  split
  next c _ hs _ => rw [State.fld_setFld_other _ _ _ _ (hc c hs), State.fld_setFld_other _ _ _ _ hl, State.fld_setFld_other _ _ _ _ hw]
  next => rw [State.fld_setFld_other _ _ _ _ hl, State.fld_setFld_other _ _ _ _ hw]

/-- A tune that settles, with the dither register reloaded (R60). -/
def State.tuneOn (s : State) (y : Syn) (t : Tune) (k : Nat) : State := (s.settle y t k).reseed y

theorem State.regs_tuneOn (s : State) (y : Syn) (t : Tune) (k : Nat) : (s.tuneOn y t k).regs = (s.settle y t k).regs :=
  State.setSyn_regs _ _ _

theorem State.tuneOn_unseen {β : Type} {g : State → β} {y : Syn} (hg : ∀ t r, g { t with regs := r } = g t)
    (hb : ∀ t b, g { t with tempConv := b } = g t) (hy : ∀ t x, g (t.setSyn y x) = g t) (s : State) (t : Tune) (k : Nat) :
    g (s.tuneOn y t k) = g s :=
  (hy _ _).trans (State.settle_unseen hg hb hy s t k)

theorem State.syn_tuneOn (s : State) (y : Syn) (t : Tune) (k : Nat) :
    (s.tuneOn y t k).syn y = { (s.syn y).settling t k s.stamp with lfsr := (s.syn y).seed } := by
  unfold State.tuneOn State.reseed
  rw [State.syn_setSyn_self, State.syn_settle]
  rfl

theorem State.syn_tuneOn_ne (s : State) {y z : Syn} (t : Tune) (k : Nat) (h : z ≠ y) : (s.tuneOn y t k).syn z = s.syn z :=
  (State.syn_setSyn_ne _ _ _ _ h).trans (s.syn_settle_ne t k h)

theorem State.tempConv_tuneOn (s : State) (y : Syn) (t : Tune) {k : Nat} (h : k ≠ 0) : (s.tuneOn y t k).tempConv = true :=
  (State.setSyn_tempConv _ _ _).trans (s.tempConv_settle y t h)

theorem State.tempConv_tuneOn_of (s : State) (y : Syn) (t : Tune) (k : Nat) (h : s.tempConv = true) :
    (s.tuneOn y t k).tempConv = true := by
  refine (State.setSyn_tempConv _ _ _).trans ?_
  by_cases hk : k = 0
  · rw [State.settle_eq, hk]
    exact (State.settleRegs_unseen (g := State.tempConv) (fun _ _ => rfl) _ _ _).trans ((State.setSyn_tempConv _ _ _).trans h)
  · exact s.tempConv_settle y t hk

/-- The fields apart from those that settling writes. -/
def synApart (y : Syn) (f : Fld) : Bool :=
  (RFA_SYn_FREQ.WORD (synIx y)).apart f && (synLockFld y).apart f &&
    (match synChain y with
    | some c => (CHZ_WINn.CENTRE (chainIx c)).apart f
    | none => true)

theorem State.fld_tuneOn_other (s : State) (y : Syn) (t : Tune) (k : Nat) {f : Fld} (h : synApart y f = true) :
    (s.tuneOn y t k).fld f = s.fld f := by
  unfold synApart at h
  simp only [Bool.and_eq_true] at h
  obtain ⟨⟨hw, hl⟩, hc⟩ := h
  rw [State.fld_of_regs (s.regs_tuneOn y t k)]
  exact s.fld_settle_other y t k hw hl fun c hs => by rwa [hs] at hc

theorem State.on_tuneOn_other (s : State) (y : Syn) (t : Tune) (k : Nat) {f : Fld} (h : synApart y f = true) :
    (s.tuneOn y t k).on f = s.on f := by
  unfold State.on
  rw [s.fld_tuneOn_other y t k h]

theorem State.fld_setFld_fits (s : State) (f : Fld) (v : Nat) (h : f.lo ≤ f.hi ∧ f.hi < 32) (hv : v < 2 ^ (f.hi + 1 - f.lo)) :
    (s.setFld f v).fld f = v := by
  rw [State.fld_setFld s f v h, Nat.mod_eq_of_lt hv]

/-- The word taken. -/
theorem State.word_tuneOn (s : State) (y : Syn) {t : Tune} (k : Nat) (h : t.word < 2 ^ 28) :
    (s.tuneOn y t k).fld (RFA_SYn_FREQ.WORD (synIx y)) = t.word := by
  have hfit : (RFA_SYn_FREQ.WORD (synIx y)).lo ≤ (RFA_SYn_FREQ.WORD (synIx y)).hi ∧ (RFA_SYn_FREQ.WORD (synIx y)).hi < 32 :=
    ⟨by show 0 ≤ 27; decide, by show 27 < 32; decide⟩
  have hl : (synLockFld y).apart (RFA_SYn_FREQ.WORD (synIx y)) = true := by cases y <;> decide
  have hc : ∀ c, synChain y = some c → (CHZ_WINn.CENTRE (chainIx c)).apart (RFA_SYn_FREQ.WORD (synIx y)) = true := by
    intro c
    cases y <;> cases c <;> decide
  rw [State.fld_of_regs (s.regs_tuneOn y t k), State.fld_of_settle]
  unfold State.settleRegs
  dsimp only
  split
  next c _ hs _ =>
    rw [State.fld_setFld_other _ _ _ _ (hc c hs), State.fld_setFld_other _ _ _ _ hl]
    exact State.fld_setFld_fits _ _ _ hfit h
  next =>
    rw [State.fld_setFld_other _ _ _ _ hl]
    exact State.fld_setFld_fits _ _ _ hfit h

/-- LOCK off. -/
theorem State.lock_tuneOn (s : State) (y : Syn) (t : Tune) (k : Nat) : (s.tuneOn y t k).on (synLockFld y) = false := by
  have hfit : (synLockFld y).lo ≤ (synLockFld y).hi ∧ (synLockFld y).hi < 32 := by cases y <;> decide
  have hc : ∀ c, synChain y = some c → (CHZ_WINn.CENTRE (chainIx c)).apart (synLockFld y) = true := by
    intro c
    cases y <;> cases c <;> decide
  rw [State.on_of_regs (s.regs_tuneOn y t k), State.on_of_regs (s.regs_settle y t k)]
  unfold State.settleRegs
  dsimp only
  split
  next c _ hs _ =>
    rw [State.on_setFld_other _ _ _ _ (hc c hs)]
    exact State.on_setFld_zero _ _ hfit
  next => exact State.on_setFld_zero _ _ hfit

/-- The window written with the word (R53). -/
theorem State.window_tuneOn (s : State) {y : Syn} {t : Tune} (k : Nat) {c : Chain} {f : Nat} (hy : synChain y = some c)
    (hf : t.freq = some f) (h : f < 2 ^ 17) : (s.tuneOn y t k).fld (CHZ_WINn.CENTRE (chainIx c)) = f := by
  rw [State.fld_of_regs (s.regs_tuneOn y t k), State.fld_of_settle]
  unfold State.settleRegs
  rw [hy, hf]
  exact State.fld_setFld_fits _ _ _ (by cases c <;> decide) (by cases c <;> exact h)

/-! TUNE_START of a tune to a word (R56, R57, R48). -/

/-- The synthesisers that a tune makes settle: in diversity SYB with SYA (R48). -/
def State.tuneSet (s : State) (y : Syn) (t : Tune) : State :=
  let v := s.tuneOn y t (s.tuneCase y t.word)
  if y == .sya && v.diversity then
    let w := v.tuneOn .syb { t with op := none } (v.tuneCase .syb t.word)
    { w with sya := { w.sya with wide := true } }
  else v

theorem State.tuneSet_unseen {β : Type} {g : State → β} (hg : ∀ t r, g { t with regs := r } = g t)
    (hb : ∀ t b, g { t with tempConv := b } = g t) (hy : ∀ t y x, g (t.setSyn y x) = g t) (s : State) (y : Syn) (t : Tune) :
    g (s.tuneSet y t) = g s := by
  have hv := State.tuneOn_unseen hg hb (fun u x => hy u y x) s t (s.tuneCase y t.word)
  unfold State.tuneSet
  dsimp only
  split
  · exact (hy _ .sya _).trans ((State.tuneOn_unseen hg hb (fun u x => hy u .syb x) _ _ _).trans hv)
  · exact hv

theorem State.tuneBegin_eq {s : State} (hl : s.lanes = []) (y : Syn) (t : Tune) :
    s.tuneBegin y t = (s.tuneSet y t).gapCase (s.tuneChains y) := by
  have h : (s.tuneSet y t).lanes = [] :=
    (State.tuneSet_unseen (g := State.lanes) (fun _ _ => rfl) (fun _ _ => rfl) (fun u y x => u.setSyn_lanes y x) s y t).trans hl
  have e : s.tuneBegin y t = ((s.tuneSet y t).gapLanes (s.tuneChains y) Status.aborted).gapCase (s.tuneChains y) := rfl
  rw [e, State.gapLanes_idle h]

theorem State.diversity_tuneOn (s : State) (y : Syn) (t : Tune) (k : Nat) : (s.tuneOn y t k).diversity = s.diversity := by
  unfold State.diversity
  rw [s.fld_tuneOn_other y t k (by cases y <;> decide)]

theorem State.tuneSet_alone {s : State} {y : Syn} (h : y ≠ .sya ∨ s.diversity = false) (t : Tune) :
    s.tuneSet y t = s.tuneOn y t (s.tuneCase y t.word) := by
  unfold State.tuneSet
  dsimp only
  rw [State.diversity_tuneOn, if_neg]
  rcases h with h | h <;> simp [h]

theorem State.tuneSet_both {s : State} (h : s.diversity = true) (t : Tune) :
    let v := s.tuneOn .sya t (s.tuneCase .sya t.word)
    s.tuneSet .sya t =
      ((v.tuneOn .syb { t with op := none } (v.tuneCase .syb t.word)).setSyn .sya
        { (v.tuneOn .syb { t with op := none } (v.tuneCase .syb t.word)).sya with wide := true }) := by
  unfold State.tuneSet
  dsimp only
  rw [State.diversity_tuneOn, if_pos (by rw [h]; rfl)]
  rfl

/-- A tune is of one synthesiser, or of SYA with SYB behind it. -/
theorem State.alone_or_both (s : State) (y : Syn) : (y ≠ .sya ∨ s.diversity = false) ∨ (y = .sya ∧ s.diversity = true) := by
  cases s.diversity <;> cases y <;> simp

/-- SYB's part of a tune writes no field of SYA's. -/
theorem State.fld_tuneSet (s : State) (y : Syn) (t : Tune) {f : Fld} (h : y = .sya → synApart .syb f = true) :
    (s.tuneSet y t).fld f = (s.tuneOn y t (s.tuneCase y t.word)).fld f := by
  rcases s.alone_or_both y with hd | ⟨rfl, hdiv⟩
  · rw [State.tuneSet_alone hd]
  · rw [State.tuneSet_both hdiv t, State.fld_of_regs (State.setSyn_regs _ _ _), State.fld_tuneOn_other _ _ _ _ (h rfl)]

theorem State.on_tuneSet (s : State) (y : Syn) (t : Tune) {f : Fld} (h : y = .sya → synApart .syb f = true) :
    (s.tuneSet y t).on f = (s.tuneOn y t (s.tuneCase y t.word)).on f := by
  unfold State.on
  rw [s.fld_tuneSet y t h]

/-- The synthesiser of a tune settles on it, SYA's markers reaching both chains in diversity. -/
theorem State.syn_tuneSet (s : State) (y : Syn) (t : Tune) : (s.tuneSet y t).syn y =
    { (s.syn y).settling t (s.tuneCase y t.word) s.stamp with
      lfsr := (s.syn y).seed, wide := (s.syn y).wide || (y == .sya && s.diversity) } := by
  rcases s.alone_or_both y with hd | ⟨rfl, hdiv⟩
  · have hb : (y == .sya && s.diversity) = false := by
      rcases hd with h | h <;> simp [h]
    rw [State.tuneSet_alone hd, State.syn_tuneOn, hb, Bool.or_false]
    rfl
  · have h := (State.syn_tuneOn_ne (s.tuneOn .sya t (s.tuneCase .sya t.word)) (y := .syb) (z := .sya) { t with op := none }
      ((s.tuneOn .sya t (s.tuneCase .sya t.word)).tuneCase .syb t.word) (by decide)).trans (s.syn_tuneOn .sya t _)
    rw [State.tuneSet_both hdiv t, State.syn_setSyn_self, hdiv]
    simp only [State.syn] at h ⊢
    rw [h]
    simp

theorem State.syn_tuneSet_ne {s : State} {y z : Syn} (t : Tune) (h : y ≠ .sya ∨ s.diversity = false) (hz : z ≠ y) :
    (s.tuneSet y t).syn z = s.syn z := by
  rw [State.tuneSet_alone h, State.syn_tuneOn_ne _ _ _ hz]

/-- In diversity SYB settles on the word as well. -/
theorem State.syb_tuneSet {s : State} (h : s.diversity = true) (t : Tune) :
    ((s.tuneSet .sya t).syn .syb).phase = .settling ∧ ((s.tuneSet .sya t).syn .syb).word = t.word ∧
      (s.tuneSet .sya t).syn .syt = s.syn .syt := by
  rw [State.tuneSet_both h t]
  refine ⟨?_, ?_, ?_⟩
  · rw [State.syn_setSyn_ne _ _ _ _ (by decide), State.syn_tuneOn]
    rfl
  · rw [State.syn_setSyn_ne _ _ _ _ (by decide), State.syn_tuneOn]
    rfl
  · rw [State.syn_setSyn_ne _ _ _ _ (by decide), State.syn_tuneOn_ne _ _ _ (by decide), State.syn_tuneOn_ne _ _ _ (by decide)]

theorem State.tempConv_tuneSet {s : State} {y : Syn} {t : Tune} (h : s.tuneCase y t.word ≠ 0) :
    (s.tuneSet y t).tempConv = true := by
  have hv := s.tempConv_tuneOn y t h
  unfold State.tuneSet
  dsimp only
  split
  · exact State.tempConv_tuneOn_of _ _ _ _ hv
  · exact hv

/-- A tune to a word begun with no lane in use. -/
structure State.Tunes (u : State) (y : Syn) (q : Tune) (t : State) : Prop where
  syn : t.syn y = { (u.syn y).settling q (u.tuneCase y q.word) u.stamp with
    lfsr := (u.syn y).seed, wide := (u.syn y).wide || (y == .sya && u.diversity) }
  word : t.fld (RFA_SYn_FREQ.WORD (synIx y)) = q.word
  lock : t.on (synLockFld y) = false
  window : ∀ c f, synChain y = some c → q.freq = some f → f < 2 ^ 17 → t.fld (CHZ_WINn.CENTRE (chainIx c)) = f
  gap : ∀ c, synChain y = some c → u.palRuns c = true → t.on CHZ_ERG_STAT.GAP = true
  temp : u.tuneCase y q.word ≠ 0 → t.tempConv = true
  both : y = .sya → u.diversity = true → (t.syn .syb).phase = .settling ∧ (t.syn .syb).word = q.word ∧
    t.syn .syt = u.syn .syt
  others : y ≠ .sya ∨ u.diversity = false → ∀ z, z ≠ y → t.syn z = u.syn z
  only : ∀ {β : Type} {g : State → β}, (∀ t r, g { t with regs := r } = g t) → (∀ t b, g { t with tempConv := b } = g t) →
    (∀ t y x, g (t.setSyn y x) = g t) → g t = g u

theorem State.tuneBegin_tunes {u : State} (hl : u.lanes = []) (y : Syn) {q : Tune} (hw : q.word < 2 ^ 28) :
    u.Tunes y q (u.tuneBegin y q) := by
  have hsyn : ∀ (s : State) (cs : List Chain) (z : Syn), (s.gapCase cs).syn z = s.syn z := fun s cs z =>
    State.gapCase_unseen (g := fun t => t.syn z) (fun t r => t.syn_of_regs r z) s cs
  rw [State.tuneBegin_eq hl]
  refine ⟨(hsyn _ _ _).trans (u.syn_tuneSet y q), ?_, ?_, ?_, ?_, ?_, ?_, ?_, ?_⟩
  · rw [State.fld_of_reg (State.reg_gapCase_ne _ _ (by cases y <;> decide)),
      u.fld_tuneSet y q (by rintro rfl; decide), u.word_tuneOn y _ hw]
  · rw [State.on_of_reg (State.reg_gapCase_ne _ _ (by cases y <;> decide)),
      u.on_tuneSet y q (by rintro rfl; decide), u.lock_tuneOn]
  · intro c f hc hf hlt
    rw [State.fld_of_reg (State.reg_gapCase_ne _ _ (by cases c <;> decide)), u.fld_tuneSet y q ?_,
      u.window_tuneOn _ hc hf hlt]
    rintro rfl
    cases hc
    decide
  · intro c hc hr
    refine State.on_gapCase (List.any_eq_true.mpr ⟨c, ?_, ?_⟩)
    · unfold State.tuneChains
      cases y <;> cases hc
      · dsimp only
        split <;> simp
      · simp
    · have hoff : ∀ f : Fld, f = CHZ_CTRL.RUN_A ∨ f = CHZ_CTRL.RUN_B → (u.tuneSet y q).on f = u.on f := by
        rintro f (rfl | rfl)
        · rw [u.on_tuneSet y q (by rintro rfl; decide), u.on_tuneOn_other y q _ (by cases y <;> decide)]
        · rw [u.on_tuneSet y q (by rintro rfl; decide), u.on_tuneOn_other y q _ (by cases y <;> decide)]
      cases c
      · exact (hoff _ (.inl rfl)).trans hr
      · exact (hoff _ (.inr rfl)).trans hr
  · exact fun h => (State.gapCase_unseen (g := State.tempConv) (fun _ _ => rfl) _ _).trans (State.tempConv_tuneSet h)
  · rintro rfl hd
    rw [hsyn, hsyn]
    exact State.syb_tuneSet hd q
  · exact fun h z hz => (hsyn _ _ _).trans (State.syn_tuneSet_ne q h hz)
  · exact fun hg hb hy => (State.gapCase_unseen hg _ _).trans (State.tuneSet_unseen hg hb hy _ _ _)

end Sys2Proof.Machine

/-! A synthesiser powered off, whatever operations wait (R68, R73, R291). -/

namespace Sys2Proof.Machine

/-! The Palettes judged again. -/

/-- The state without what judging the Palettes may change. -/
def State.palBare (s : State) : State :=
  { s with regs := [], mem := [], marks := [], scrub := [], palA := .zero, palB := .zero, well := ⟨[], [], []⟩ }

/-- `t` is `s` with Palettes judged: RUN, the Erg, the denials and the claims that wait may differ. -/
structure State.PalsOnly (s t : State) : Prop where
  reg : ∀ o, o ∉ [CHZ_CTRL.off, MEM_BANK_CFG.off, WELL_DENY_CNT.off] → t.reg o = s.reg o
  holds : ∀ w, s.holds w = false → t.holds w = false
  bare : t.palBare = s.palBare

namespace State.PalsOnly

variable {s t u : State}

theorem refl (s : State) : s.PalsOnly s := ⟨fun _ _ => rfl, fun _ => id, rfl⟩

theorem trans (h : s.PalsOnly t) (g : t.PalsOnly u) : s.PalsOnly u :=
  ⟨fun o ho => (g.reg o ho).trans (h.reg o ho), fun w hw => g.holds w (h.holds w hw), g.bare.trans h.bare⟩

/-- What is not erased is the same. -/
theorem seen (h : s.PalsOnly t) {β : Type} {g : State → β} (hg : ∀ t, g t.palBare = g t) : g t = g s := by
  rw [← hg t, h.bare, hg]

theorem of_same (hr : t.regs = s.regs) (hw : t.well = s.well) (hb : t.palBare = s.palBare) : s.PalsOnly t :=
  ⟨fun o _ => State.reg_of_regs hr o, fun w h => by unfold State.holds at h ⊢; rwa [hw], hb⟩

theorem setPal (h : s.PalsOnly t) (c : Chain) (x : Palette) : s.PalsOnly (t.setPal c x) :=
  h.trans (.of_same (State.setPal_regs t c x) (State.setPal_well t c x) (by cases c <;> rfl))

theorem setFld (h : s.PalsOnly t) {f : Fld} (hf : f.off = CHZ_CTRL.off ∨ f.off = WELL_DENY_CNT.off) (v : Nat) :
    s.PalsOnly (t.setFld f v) := by
  refine h.trans ⟨fun o ho => State.reg_setFld_ne _ _ _ _ ?_, fun w hw => hw, rfl⟩
  simp only [List.mem_cons, List.not_mem_nil, or_false, not_or] at ho
  rcases hf with hf | hf
  · exact hf ▸ ho.1
  · exact hf ▸ ho.2.2

theorem withdraw (h : s.PalsOnly t) (x : Holder) : s.PalsOnly (t.withdraw x) := by
  refine h.trans ⟨fun o _ => State.reg_of_regs (State.withdraw_regs t x) o, fun w hw => ?_, rfl⟩
  unfold State.holds at hw ⊢
  rw [List.any_eq_false] at hw ⊢
  exact fun c hc => hw c (List.mem_filter.mp hc).1

theorem devWrite (h : s.PalsOnly t) (a : Nat) (bs : List Byte) : s.PalsOnly (t.devWrite a bs) := by
  refine h.trans ⟨fun o ho => State.reg_devWrite_ne _ _ _ _ fun e => ho (by rw [e]; decide), fun w hw => ?_, ?_⟩
  · exact (State.devWrite_unseen (g := fun t => t.holds w) (fun _ _ _ _ _ => rfl) t _ _).trans hw
  · exact State.devWrite_unseen (g := State.palBare) (fun _ _ _ _ _ => rfl) _ _ _

theorem deny (h : s.PalsOnly t) : s.PalsOnly t.deny := ((h.setFld (.inr rfl) _).setFld (.inr rfl) _).setFld (.inr rfl) _

theorem place (h : s.PalsOnly t) (x : Holder) (amt prio : Nat) (k : Ticket) : s.PalsOnly (t.place x amt prio k).1 := by
  unfold State.place
  split
  · exact h.deny
  · exact h.trans ⟨fun _ _ => rfl, fun _ hw => hw, rfl⟩

theorem ergFlush (h : s.PalsOnly t) (c : Chain) : s.PalsOnly (t.ergFlush c) := by
  unfold State.ergFlush
  dsimp only
  exact List.foldlRecOn (motive := fun u => s.PalsOnly u) _ _ (h.setPal c _) fun u hu e _ => hu.devWrite _ _

theorem withdrawUnless (h : s.PalsOnly t) (b : Bool) (x : Holder) : s.PalsOnly (if b then t else t.withdraw x) := by
  split
  · exact h
  · exact h.withdraw x

theorem palStop (h : s.PalsOnly t) (c : Chain) : s.PalsOnly (t.palStop c) := by
  unfold State.palStop
  split
  · have hpal := (h.ergFlush c).setPal c { (t.ergFlush c).pal c with cur := .zero, marker := false }
    cases c
    · exact (hpal.setFld (f := CHZ_CTRL.RUN_A) (.inl rfl) 0).withdrawUnless _ _
    · exact (hpal.setFld (f := CHZ_CTRL.RUN_B) (.inl rfl) 0).withdrawUnless _ _
  · exact h

theorem palJudge (h : s.PalsOnly t) (old : State) (k : Ticket) : s.PalsOnly (t.palJudge old k) := by
  unfold State.palJudge
  refine List.foldlRecOn (motive := fun u => s.PalsOnly u) _ _ h fun u hu c _ => ?_
  split
  · split
    · exact hu
    · split
      · exact hu
      · exact hu.place _ _ _ _
  · exact (hu.palStop c).withdraw _

end State.PalsOnly

/-! A radio operation's end, whatever it is. -/

theorem State.withdraw_unseen {β : Type} {g : State → β} (hw : ∀ t w, g { t with well := w } = g t) (s : State) (x : Holder) :
    g (s.withdraw x) = g s := hw _ _

theorem State.opReport_unseen {β : Type} {g : State → β} (hc : ∀ t c, g { t with ctx := c } = g t)
    (hp : ∀ t p, g { t with pwr := p } = g t) (s : State) (id : Nat) (o : RadioOp) (status extra : Nat) :
    g (s.opReport id o status extra) = g s := by
  have hfin : ∀ (u : State) k d w, g (u.finish k d w) = g u := fun u k d w =>
    (State.leaveIdle_unseen hp _).trans (hc _ _)
  unfold State.opReport
  split
  · rfl
  · split
    · dsimp only
      split
      · exact (hfin _ _ _ _).trans (hc _ _)
      · exact hfin _ _ _ _
    · rfl

theorem State.claimLapse_unseen {β : Type} {g : State → β} (hw : ∀ t w, g { t with well := w } = g t) (s : State) (id : Nat)
    (o : RadioOp) : g (s.claimLapse id o) = g s := by
  unfold State.claimLapse
  split
  · dsimp only
    split
    · rfl
    · exact State.foldl_unseen (fun t z => by split <;> [rfl; exact hw _ _]) _ _
  · rfl

/-- The launcher of an operation that ends, and the operation dropped. -/
def State.opDrop (s : State) (id : Nat) (o : RadioOp) : State :=
  State.dropOp (match o.lnch with
    | some n => if (s.launcher n.val).op == some id then s.lnOff n.val else s
    | none => s) id

/-- What the context of an operation that has ended is told. -/
def State.opTell (s : State) (id : Nat) (o : RadioOp) (status extra : Nat) : State :=
  if o.kind == .beacon then
    match s.op o.buf with
    | some g => s.opReport o.buf g status extra
    | none => s
  else s.opReport id o status extra

theorem State.opClose_eq (s : State) (id : Nat) (o : RadioOp) (status extra : Nat) : s.opClose id o status extra =
    let u := (s.claimLapse id o).opDrop id o
    (if o.kind.sends then u.txpEnd status else u).opTell id o status extra := rfl

theorem State.opDrop_unseen {β : Type} {g : State → β} (hl : ∀ t r l, g { t with regs := r, lnch := l } = g t)
    (ho : ∀ t o, g { t with ops := o } = g t) (s : State) (id : Nat) (o : RadioOp) : g (s.opDrop id o) = g s := by
  unfold State.opDrop
  refine (ho _ _).trans ?_
  split
  · split
    · exact State.lnOff_unseen hl s _
    · rfl
  · rfl

theorem State.opTell_unseen {β : Type} {g : State → β} (hc : ∀ t c, g { t with ctx := c } = g t)
    (hp : ∀ t p, g { t with pwr := p } = g t) (s : State) (id : Nat) (o : RadioOp) (status extra : Nat) :
    g (s.opTell id o status extra) = g s := by
  unfold State.opTell
  split
  · split
    · exact State.opReport_unseen hc hp _ _ _ _ _
    · rfl
  · exact State.opReport_unseen hc hp _ _ _ _ _

/-- What sees neither registers, launchers, operations, contexts, power state nor claims does not see an operation end. -/
theorem State.opEnd_unseen {β : Type} {g : State → β} (hl : ∀ t r l, g { t with regs := r, lnch := l } = g t)
    (ho : ∀ t o, g { t with ops := o } = g t) (hc : ∀ t c, g { t with ctx := c } = g t)
    (hp : ∀ t p, g { t with pwr := p } = g t) (hw : ∀ t w, g { t with well := w } = g t) (s : State)
    (id status extra : Nat) : g (s.opEnd id status extra) = g s := by
  have hr : ∀ t r, g { t with regs := r } = g t := fun t r => hl t r t.lnch
  unfold State.opEnd
  split
  · rfl
  next o _ =>
    rw [State.opClose_eq, State.opTell_unseen hc hp]
    have hd : g (((s.withdraw (.pa id)).claimLapse id o).opDrop id o) = g s :=
      (State.opDrop_unseen hl ho _ _ _).trans ((State.claimLapse_unseen hw _ _ _).trans (hw _ _))
    split
    · exact (State.txpEnd_unseen hr _ _).trans hd
    · exact hd

theorem State.onlyReg_txpEnd (s : State) (status : Nat) : s.onlyReg (s.txpEnd status) TXP_STAT.off := by
  have hlast := (State.onlyReg_refl s TXP_STAT.off).setFld (f := TXP_STAT.LAST) rfl status
  unfold State.txpEnd
  dsimp only
  split <;> split
  · exact (hlast.raise rfl rfl).raise rfl rfl
  · exact hlast.raise rfl rfl
  · exact hlast.raise rfl rfl
  · exact hlast

/-- A radio operation's end writes its launcher's action and TXP_STAT alone. -/
theorem State.reg_opEnd (s : State) (id status extra : Nat) {x : Nat} (h5 : x < 0x5100 ∨ 0x5300 ≤ x) (h9 : x ≠ TXP_STAT.off) :
    (s.opEnd id status extra).reg x = s.reg x := by
  unfold State.opEnd
  split
  · rfl
  next o _ =>
    rw [State.opClose_eq, State.opTell_unseen (g := fun t => t.reg x) (fun _ _ => rfl) (fun _ _ => rfl)]
    have hd : (((s.withdraw (.pa id)).claimLapse id o).opDrop id o).reg x = s.reg x := by
      refine Eq.trans ?_ (State.claimLapse_unseen (g := fun t => t.reg x) (fun _ _ => rfl) (s.withdraw (.pa id)) id o)
      unfold State.opDrop
      show State.reg (match o.lnch with | some n => _ | none => _) x = _
      split
      next n _ =>
        split
        · refine State.reg_lnOff_ne _ _ _ ?_
          unfold CVN_Ln_ACT.off
          have := n.isLt
          omega
        · rfl
      · rfl
    split
    · exact ((State.onlyReg_txpEnd _ status).1 x h9).trans hd
    · exact hd

/-! A synthesiser off (R68). -/

theorem State.tunesEnd_eq (s : State) (y : Syn) (keep : Option Nat) : ∃ ids : List Nat, s.tunesEnd y keep =
    ids.foldl (fun s i => s.opEnd i Status.aborted 0) (s.setSyn y { s.syn y with cur := none, queue := [] }) := ⟨_, rfl⟩

/-- The synthesiser `x` off, with nothing waiting. -/
def Synth.powered (x : Synth) : Synth :=
  { x with
    phase := .off, cur := none, queue := [], calWord := none, calWait := false, kase := 0, second := false, wide := false }

theorem State.syn_opEnd (s : State) (id status extra : Nat) (y : Syn) : (s.opEnd id status extra).syn y = s.syn y :=
  State.opEnd_unseen (g := fun t => t.syn y) (fun _ _ _ => by cases y <;> rfl) (fun _ _ => by cases y <;> rfl)
    (fun _ _ => by cases y <;> rfl) (fun _ _ => by cases y <;> rfl) (fun _ _ => by cases y <;> rfl) s id status extra

theorem State.syn_tunesEnd (s : State) (y z : Syn) (keep : Option Nat) : (s.tunesEnd y keep).syn z =
    (s.setSyn y { s.syn y with cur := none, queue := [] }).syn z := by
  obtain ⟨ids, h⟩ := s.tunesEnd_eq y keep
  rw [h]
  exact State.foldl_unseen (g := fun t => t.syn z) (fun t i => t.syn_opEnd i _ _ z) _ _

/-- What synOff sets before the Palettes are judged. -/
def State.synDown (s : State) (y : Syn) (keep : Option Nat) : State :=
  ((s.tunesEnd y keep).setSyn y { (s.tunesEnd y keep).syn y with
    phase := .off, calWord := none, calWait := false, kase := 0, second := false, wide := false }).synCleared y

theorem State.synOff_eq (s : State) (y : Syn) (keep : Option Nat) : s.synOff y keep =
    (((s.synDown y keep).withdraw (synHolder y)).palJudge s ((s.synDown y keep).ticketNow 0)).tcxoJudge := by
  cases y <;> rfl

theorem State.synCleared_unseen {β : Type} {g : State → β} (hg : ∀ t r, g { t with regs := r } = g t) (s : State) (y : Syn) :
    g (s.synCleared y) = g s := by
  cases y <;> simp only [State.synCleared, State.setFld_unseen hg]

theorem State.syn_synDown (s : State) (y : Syn) (keep : Option Nat) : (s.synDown y keep).syn y = (s.syn y).powered := by
  unfold State.synDown
  rw [State.synCleared_unseen (g := fun t => t.syn y) (fun t r => t.syn_of_regs r y), State.syn_setSyn_self,
    State.syn_tunesEnd, State.syn_setSyn_self]
  rfl

theorem State.syn_synDown_ne (s : State) {y z : Syn} (keep : Option Nat) (h : z ≠ y) :
    (s.synDown y keep).syn z = s.syn z := by
  unfold State.synDown
  rw [State.synCleared_unseen (g := fun t => t.syn z) (fun t r => t.syn_of_regs r z), State.syn_setSyn_ne _ _ _ _ h,
    State.syn_tunesEnd, State.syn_setSyn_ne _ _ _ _ h]

theorem State.on_synCleared (s : State) (y : Syn) :
    (s.synCleared y).on (synOnFld y) = false ∧ (s.synCleared y).on (synLockFld y) = false := by
  refine ⟨(State.synCleared_off (State.RadioOff.refl s) y).2, ?_⟩
  have h : ((s.setFld (synOnFld y) 0).setFld (synLockFld y) 0).on (synLockFld y) = false :=
    State.on_setFld_zero _ _ (by cases y <;> decide)
  cases y <;> simp (disch := decide) only [State.synCleared, synVcoFld, State.on_setFld_other] <;> exact h

/-- The Palettes judged, and TCXO_EN. -/
theorem State.synOff_judged (s : State) (y : Syn) (keep : Option Nat) :
    ∃ v : State, ((s.synDown y keep).withdraw (synHolder y)).PalsOnly v ∧ s.synOff y keep = v.tcxoJudge :=
  ⟨_, (State.PalsOnly.refl _).palJudge _ _, s.synOff_eq y keep⟩

theorem State.syn_tcxoJudge (s : State) (z : Syn) : s.tcxoJudge.syn z = s.syn z :=
  State.tcxoJudge_unseen (g := fun t => t.syn z) (fun _ _ _ _ => by cases z <;> rfl) s

theorem State.syn_synOff (s : State) (y z : Syn) (keep : Option Nat) :
    (s.synOff y keep).syn z = (s.synDown y keep).syn z := by
  obtain ⟨v, hv, h⟩ := s.synOff_judged y keep
  rw [h, State.syn_tcxoJudge, hv.seen (g := fun t => t.syn z) (fun _ => by cases z <;> rfl)]
  exact State.withdraw_unseen (g := fun t => t.syn z) (fun _ _ => by cases z <;> rfl) _ _

/-- A synthesiser off: its registers clear, its claim gone, the others untouched. -/
structure State.Downed (s : State) (y : Syn) (t : State) : Prop where
  self : t.syn y = (s.syn y).powered
  others : ∀ z, z ≠ y → t.syn z = s.syn z
  on : t.synOn y = false
  lock : t.on (synLockFld y) = false
  claim : t.holds (synHolder y) = false

theorem State.reg_synOff (s : State) (y : Syn) (keep : Option Nat) {o : Nat}
    (h : o ∉ [CHZ_CTRL.off, MEM_BANK_CFG.off, WELL_DENY_CNT.off, CLK_STAT.off]) :
    (s.synOff y keep).reg o = (s.synDown y keep).reg o := by
  simp only [List.mem_cons, List.not_mem_nil, or_false, not_or] at h
  obtain ⟨h1, h2, h3, h4⟩ := h
  obtain ⟨v, hv, he⟩ := s.synOff_judged y keep
  rw [he, State.reg_tcxoJudge_ne _ _ h4, hv.reg o (by simp [h1, h2, h3])]
  rfl

theorem State.synOff_downed (s : State) (y : Syn) (keep : Option Nat) : s.Downed y (s.synOff y keep) := by
  obtain ⟨hon, hlock⟩ := State.on_synCleared ((s.tunesEnd y keep).setSyn y { (s.tunesEnd y keep).syn y with
    phase := .off, calWord := none, calWait := false, kase := 0, second := false, wide := false }) y
  refine ⟨(s.syn_synOff y y keep).trans (s.syn_synDown y keep), fun z hz => (s.syn_synOff y z keep).trans
    (s.syn_synDown_ne keep hz), ?_, ?_, ?_⟩
  · exact (State.on_of_reg (s.reg_synOff y keep (by cases y <;> decide))).trans hon
  · exact (State.on_of_reg (s.reg_synOff y keep (by cases y <;> decide))).trans hlock
  · obtain ⟨v, hv, he⟩ := s.synOff_judged y keep
    rw [he, State.tcxoJudge_unseen (g := fun t => t.holds (synHolder y)) (fun _ _ _ _ => rfl)]
    exact hv.holds _ (State.holds_withdraw _ _)

end Sys2Proof.Machine

/-! TUNE_START (R56, R57, R68). -/

namespace Sys2Proof.Machine

theorem State.liveLanes_idle {s : State} (h : s.lanes = []) (cs : List Chain) : s.liveLanes cs = [] := by
  unfold State.liveLanes State.laneList
  rw [h]
  rfl

theorem State.offBlocked_idle {s : State} {y : Syn} (hl : s.lanes = []) (ha : y = .syt → s.on TXP_STAT.ACTIVE = false)
    (force : Bool) : s.offBlocked y force = false := by
  unfold State.offBlocked
  rw [State.liveLanes_idle hl]
  cases y
  · simp
  · simp
  · simp [ha rfl]

/-- The state with the waiting tunes of a synthesiser taken out. -/
def State.unqueued (s : State) (y : Syn) : State := s.setSyn y { s.syn y with queue := [] }

theorem State.tuneTry_begins {s : State} {y : Syn} {q : Tune} (hq : (s.syn y).queue = [q]) (hw : q.word ≠ 0)
    (hb : s.tuneBlocked y q = false) : s.tuneTry y = (s.unqueued y).tuneBegin y q := by
  unfold State.tuneTry
  dsimp only
  rw [hq, pickBest_single]
  dsimp only
  rw [if_neg hw, hb]
  simp [State.unqueued]

theorem State.tuneTry_off {s : State} {y : Syn} {q : Tune} (hq : (s.syn y).queue = [q]) (hw : q.word = 0)
    (hb : s.offBlocked y q.force = false) : s.tuneTry y = (s.unqueued y).powerOff y q.op := by
  unfold State.tuneTry
  dsimp only
  rw [hq, pickBest_single]
  dsimp only
  rw [if_pos hw, hb]
  simp [State.unqueued]

theorem State.tuneCase_of_same {s t : State} (hr : t.regs = s.regs) {y : Syn} (hw : (t.syn y).word = (s.syn y).word)
    (hc : (t.syn y).calWord = (s.syn y).calWord) (ht : (t.syn y).calTemp = (s.syn y).calTemp) (w : Nat) :
    t.tuneCase y w = s.tuneCase y w := by
  unfold State.tuneCase State.temp
  dsimp only
  rw [hw, hc, ht, State.fld_of_regs hr]

theorem State.syn_touch (s : State) (y : Syn) : s.touch.syn y = s.syn y := by
  cases y
  · exact s.touch_sya
  · exact s.touch_syb
  · exact s.touch_syt

theorem State.tuneCase_touch (s : State) (y : Syn) (w : Nat) : s.touch.tuneCase y w = s.tuneCase y w := by
  refine State.tuneCase_of_same s.touch_regs ?_ ?_ ?_ w <;> rw [State.syn_touch]

/-- The waiting tune of a free synthesiser begins. -/
theorem State.tuneTry_tunes {u : State} {y : Syn} {q : Tune} (hl : u.lanes = []) (hq : (u.syn y).queue = [q])
    (hw : q.word ≠ 0) (hlt : q.word < 2 ^ 28) (hp : (u.syn y).phase ≠ .settling)
    (ha : y = .syt → u.on TXP_STAT.ACTIVE = false)
    (hd : y = .sya → u.diversity = true → u.syb.phase ≠ .settling) :
    (u.unqueued y).Tunes y q (u.tuneTry y) := by
  have hb : u.tuneBlocked y q = false := by
    unfold State.tuneBlocked
    rw [State.offBlocked_idle hl ha]
    cases y <;> cases hdiv : u.diversity <;> simp_all
  rw [State.tuneTry_begins hq hw hb]
  exact State.tuneBegin_tunes ((State.setSyn_lanes _ _ _).trans hl) y hlt

theorem exec_tuneStart {s : State} (ha : s.awake = true) (y : Syn) : exec (.tuneStart y) s = .next (s.touch.tuneTry y) :=
  if_pos ha

theorem execTuneStart_tunes {y : Syn} {s : State} {x : Synth} {q : Tune} (ha : s.awake = true) (hx : s.syn y = x)
    (hl : s.lanes = []) (hq : x.queue = [q]) (hw : q.word ≠ 0) (hlt : q.word < 2 ^ 28) (hp : x.phase ≠ .settling)
    (hact : y = .syt → s.on TXP_STAT.ACTIVE = false) (hd : y = .sya → s.diversity = true → s.syb.phase ≠ .settling) :
    ∃ t, exec (.tuneStart y) s = .next t ∧
        t.syn y = { x with phase := .settling, cur := some q, kase := s.tuneCase y q.word, second := false, queue := [],
                           word := q.word, lfsr := x.seed, since := s.touch.stamp,
                           wide := x.wide || (y == .sya && s.diversity) } ∧
        t.fld (RFA_SYn_FREQ.WORD (synIx y)) = q.word ∧ t.on (synLockFld y) = false ∧
        (∀ c f, synChain y = some c → q.freq = some f → f < 2 ^ 17 → t.fld (CHZ_WINn.CENTRE (chainIx c)) = f) ∧
        (∀ c, synChain y = some c → s.palRuns c = true → t.on CHZ_ERG_STAT.GAP = true) ∧
        (s.tuneCase y q.word ≠ 0 → t.tempConv = true) ∧
        (y = .sya → s.diversity = true → t.syb.phase = .settling ∧ t.syb.word = q.word ∧ t.syt = s.syt) ∧
        (y ≠ .sya ∨ s.diversity = false → ∀ z, z ≠ y → t.syn z = s.syn z) ∧
        { t with regs := s.regs, sya := s.sya, syb := s.syb, syt := s.syt, tempConv := s.tempConv } = s.touch := by
  subst hx
  rw [← s.tuneCase_touch, ← s.touch_regs, ← s.touch_sya, ← s.touch_syb, ← s.touch_syt, ← s.touch_tempConv]
  have hpal : ∀ c, s.touch.palRuns c = s.palRuns c := State.palRuns_of_reg (State.reg_of_regs s.touch_regs _)
  have hdiv : s.touch.diversity = s.diversity := congrArg (· == 1) (State.fld_of_regs s.touch_regs _)
  have hon := State.on_of_regs s.touch_regs TXP_STAT.ACTIVE
  simp only [← hpal, ← hdiv, ← hon, ← s.syn_touch, ← s.touch_syb] at hq hp hact hd ⊢
  rw [exec_tuneStart ha]
  rw [← s.touch_lanes] at hl
  generalize s.touch = u at hl hq hp hact hd ⊢
  have h := State.tuneTry_tunes hl hq hw hlt hp hact hd
  have hcase : (u.unqueued y).tuneCase y q.word = u.tuneCase y q.word :=
    State.tuneCase_of_same (State.setSyn_regs _ _ _) (by simp) (by simp)
      (by simp) _
  have hstamp : (u.unqueued y).stamp = u.stamp := by cases y <;> rfl
  have hruns : ∀ c, (u.unqueued y).palRuns c = u.palRuns c :=
    State.palRuns_of_reg (State.reg_of_regs (State.setSyn_regs _ _ _) _)
  have hdv : (u.unqueued y).diversity = u.diversity := congrArg (· == 1) (State.fld_of_regs (State.setSyn_regs _ _ _) _)
  have hself : (u.unqueued y).syn y = { u.syn y with queue := [] } := State.syn_setSyn_self _ _ _
  have hne : ∀ z, z ≠ y → (u.unqueued y).syn z = u.syn z := fun z hz => State.syn_setSyn_ne _ _ _ _ hz
  refine ⟨_, rfl, ?_, h.word, h.lock, h.window, ?_, ?_, ?_, ?_, ?_⟩
  · rw [h.syn, hself, hcase, hstamp, hdv]
    rfl
  · exact fun c hc hr => h.gap c hc ((hruns c).trans hr)
  · exact fun hk => h.temp (hcase ▸ hk)
  · rintro rfl hdu
    obtain ⟨hph, hwd, hst⟩ := h.both rfl (hdv.trans hdu)
    exact ⟨hph, hwd, hst.trans (hne .syt (by decide))⟩
  · exact fun hal z hz => (h.others (hdv ▸ hal) z hz).trans (hne z hz)
  · refine (h.only (g := fun t => { t with
        regs := u.regs, sya := u.sya, syb := u.syb, syt := u.syt, tempConv := u.tempConv })
      (fun _ _ => rfl) (fun _ _ => rfl) (fun _ y _ => by cases y <;> rfl)).trans ?_
    cases y <;> rfl

theorem State.powerOff_idle {s : State} (hl : s.lanes = []) (hd : s.diversity = false) (y : Syn) :
    s.powerOff y none = s.synOff y none := by
  have hlive := State.liveLanes_idle hl (s.tuneChains y)
  unfold State.powerOff
  dsimp only
  rw [hlive]
  unfold State.offSyns
  simp [hd]

theorem execTuneStart_off {y : Syn} {s : State} {x : Synth} {f : Bool} {tk : Ticket} (ha : s.awake = true)
    (hx : s.syn y = x) (hl : s.lanes = []) (hq : x.queue = [⟨0, none, f, none, tk⟩]) (hd : s.diversity = false)
    (hact : y = .syt → s.on TXP_STAT.ACTIVE = false) : ∃ t, exec (.tuneStart y) s = .next t ∧ t.synOn y = false ∧
        (t.syn y).phase = .off ∧ (t.syn y).queue = [] ∧ t.on (synLockFld y) = false ∧ t.holds (synHolder y) = false ∧
        ∀ z, z ≠ y → t.syn z = s.syn z := by
  subst hx
  have hl' : s.touch.lanes = [] := s.touch_lanes.trans hl
  have hq' : (s.touch.syn y).queue = [⟨0, none, f, none, tk⟩] := (congrArg Synth.queue (s.syn_touch y)).trans hq
  have hact' : y = .syt → s.touch.on TXP_STAT.ACTIVE = false := fun h => (State.on_of_regs s.touch_regs _).trans (hact h)
  have hd' : (s.touch.unqueued y).diversity = false :=
    (congrArg (· == 1) (State.fld_of_regs ((State.setSyn_regs _ _ _).trans s.touch_regs) _)).trans hd
  have h := State.synOff_downed (s.touch.unqueued y) y none
  have hl'' : (s.touch.unqueued y).lanes = [] := (State.setSyn_lanes _ _ _).trans hl'
  rw [← State.powerOff_idle hl'' hd', ← State.tuneTry_off hq' rfl (State.offBlocked_idle hl' hact' _)] at h
  refine ⟨_, exec_tuneStart ha y, h.on, ?_, ?_, h.lock, h.claim, fun z hz => ?_⟩
  · rw [h.self]
    rfl
  · rw [h.self]
    rfl
  · rw [h.others z hz, ← s.syn_touch]
    exact State.syn_setSyn_ne _ _ _ _ hz

end Sys2Proof.Machine

/-! Lock (R48, R54, R59): SYNTH_LOCK and CALIBRATION_END. -/

namespace Sys2Proof.Machine

/-! The end of an operation that does not transmit, its context parked on it (R287). -/

theorem State.opEnd_quiet {s : State} {id : Nat} {o : RadioOp} {k : Fin 64} (ho : s.op id = some o) (hctx : o.ctx = some k)
    (hl : o.lnch = none) (hs : (s.cx k.val).susp = .radio id) (hk : o.kind.sends = false) (hc : o.phase ≠ .claim)
    (status extra : Nat) : s.opEnd id status extra =
      ((s.withdraw (.pa id)).dropOp id).finish k.val o.d (s.radioWord status (o.late && o.acted) extra) := by
  have hb : (o.kind == .beacon) = false := beq_eq_false_iff_ne.mpr fun e => by
    rw [e] at hk
    exact absurd hk (by decide)
  have ht : (o.kind == .txf) = false := beq_eq_false_iff_ne.mpr fun e => by
    rw [e] at hk
    exact absurd hk (by decide)
  have hsusp : ((((s.withdraw (.pa id)).dropOp id).cx k.val).susp == Susp.radio id) = true := by
    have : ((s.withdraw (.pa id)).dropOp id).cx k.val = s.cx k.val := rfl
    rw [this, hs]
    exact beq_self_eq_true _
  have hdrop : ((s.withdraw (.pa id)).claimLapse id o).opDrop id o = (s.withdraw (.pa id)).dropOp id := by
    rw [State.claimLapse_idle hc]
    unfold State.opDrop
    rw [hl]
  simp only [State.opEnd, ho]
  rw [State.opClose_eq, hdrop]
  dsimp only
  rw [if_neg (by rw [hk]; decide)]
  unfold State.opTell
  rw [hb, if_neg (by decide)]
  unfold State.opReport
  rw [hctx]
  dsimp only
  rw [if_pos hsusp, ht]
  rfl

theorem State.Sole.opEnd_quiet {s : State} {id : Nat} {o : RadioOp} {k : Fin 64} (h : s.Sole id o k)
    (hk : o.kind.sends = false) (hc : o.phase ≠ .claim) (status extra : Nat) : s.opEnd id status extra =
      ((s.withdraw (.pa id)).dropOp id).finish k.val o.d (s.radioWord status (o.late && o.acted) extra) :=
  State.opEnd_quiet h.op h.ctx h.lnch h.susp hk hc status extra

theorem State.cx_finish_ne (s : State) {k j : Nat} (d w : Nat) (h : j ≠ k) : (s.finish k d w).cx j = s.cx j := by
  unfold State.finish
  dsimp only
  rw [State.leaveIdle_unseen (g := fun t => t.cx j) (fun _ _ => rfl)]
  exact State.cx_setCx_ne _ _ _ _ h

theorem State.stamp_finish (s : State) (k d w : Nat) : (s.finish k d w).stamp = s.stamp := State.leaveIdle_stamp _

/-! The synthesiser that locks. -/

/-- The synthesiser `x` locked at stamp `n`, the calibration's word and the temperature kept when one ran. -/
def Synth.locks (x : Synth) (n : Nat) (temp : Int) : Synth :=
  { x with
    phase := .locked, second := false, lockAt := n
    calWord := if x.kase = 0 then x.calWord else some x.word
    calTemp := if x.kase = 0 then x.calTemp else temp }

theorem State.lockNow_eq (s : State) (y : Syn) (band : Nat) : s.lockNow y band =
    let u := (s.setSyn y ((s.syn y).locks s.stamp s.temp)).setFld (synLockFld y) 1
    if (s.syn y).kase = 0 then u else u.setFld (synBandFld y) band := rfl

theorem State.lockNow_unseen {β : Type} {g : State → β} {y : Syn} (hg : ∀ t r, g { t with regs := r } = g t)
    (hy : ∀ t x, g (t.setSyn y x) = g t) (s : State) (band : Nat) : g (s.lockNow y band) = g s := by
  rw [State.lockNow_eq]
  dsimp only
  split
  · rw [State.setFld_unseen hg, hy]
  · rw [State.setFld_unseen hg, State.setFld_unseen hg, hy]

theorem State.syn_setFld (s : State) (f : Fld) (v : Nat) (y : Syn) : (s.setFld f v).syn y = s.syn y :=
  State.setFld_unseen (g := fun t => t.syn y) (fun t r => t.syn_of_regs r y) s f v

theorem State.syn_lockNow (s : State) (y : Syn) (band : Nat) :
    (s.lockNow y band).syn y = (s.syn y).locks s.stamp s.temp := by
  rw [State.lockNow_eq]
  dsimp only
  split
  · rw [State.syn_setFld, State.syn_setSyn_self]
  · rw [State.syn_setFld, State.syn_setFld, State.syn_setSyn_self]

theorem State.syn_lockNow_ne (s : State) {y z : Syn} (band : Nat) (h : z ≠ y) : (s.lockNow y band).syn z = s.syn z :=
  State.lockNow_unseen (g := fun t => t.syn z) (fun t r => t.syn_of_regs r z) (fun t x => t.syn_setSyn_ne y z x h) s band

theorem State.lock_lockNow (s : State) (y : Syn) (band : Nat) : (s.lockNow y band).on (synLockFld y) = true := by
  have h1 : (synLockFld y).lo = (synLockFld y).hi ∧ (synLockFld y).hi < 32 := by cases y <;> decide
  have h2 : (synBandFld y).apart (synLockFld y) = true := by cases y <;> decide
  rw [State.lockNow_eq]
  dsimp only
  split
  · exact State.on_setFld_one _ _ h1
  · rw [State.on_setFld_other _ _ _ _ h2]
    exact State.on_setFld_one _ _ h1

theorem State.band_lockNow (s : State) (y : Syn) (band : Nat) (h : (s.syn y).kase ≠ 0) :
    (s.lockNow y band).fld (synBandFld y) = band % 64 := by
  rw [State.lockNow_eq]
  dsimp only
  rw [if_neg h, State.fld_setFld _ _ _ (by cases y <;> decide)]
  cases y <;> rfl

theorem State.fld_lockNow_other (s : State) (y : Syn) (band : Nat) {f : Fld} (hl : (synLockFld y).apart f = true)
    (hb : (synBandFld y).apart f = true) : (s.lockNow y band).fld f = s.fld f := by
  rw [State.lockNow_eq]
  dsimp only
  split
  · rw [State.fld_setFld_other _ _ _ _ hl]
    exact State.fld_of_regs (State.setSyn_regs _ _ _) f
  · rw [State.fld_setFld_other _ _ _ _ hb, State.fld_setFld_other _ _ _ _ hl]
    exact State.fld_of_regs (State.setSyn_regs _ _ _) f

/-! The tune that has locked. -/

theorem State.diversity_lockNow (s : State) (y : Syn) (band : Nat) : (s.lockNow y band).diversity = s.diversity := by
  unfold State.diversity
  rw [s.fld_lockNow_other y band (by cases y <;> decide) (by cases y <;> decide)]

theorem alone_of {s : State} {y : Syn} (h : y = .syt ∨ s.diversity = false) : (s.diversity && y != .syt) = false := by
  rcases h with rfl | h
  · simp
  · simp [h]

theorem State.lockedTune_alone {s : State} {y : Syn} (h : y = .syt ∨ s.diversity = false) :
    s.lockedTune y = (s.syn y).cur.map (fun t => (t.op, (s.syn y).kase)) := by
  unfold State.lockedTune
  rw [alone_of h]
  rfl

theorem State.clearTune_alone {s : State} {y : Syn} (h : y = .syt ∨ s.diversity = false) :
    s.clearTune y = s.setSyn y { s.syn y with cur := none } := by
  unfold State.clearTune
  rw [alone_of h]
  rfl

/-- The state at lock, its tune forgotten. -/
def State.lockClear (s : State) (y : Syn) (band : Nat) : State :=
  (s.lockNow y band).setSyn y { (s.lockNow y band).syn y with cur := none }

theorem State.sytWaiters_none {s : State} (h : s.ops = []) (w : Nat) : s.sytWaiters w = [] := by
  unfold State.sytWaiters State.opIds
  rw [h]
  rfl

theorem State.tuneEnd_none {s : State} (h : s.ops = []) (id status kase : Nat) : s.tuneEnd id status kase = s := by
  unfold State.tuneEnd State.op
  rw [h]
  rfl

/-- The waiters of SYT go on where any do. -/
theorem State.waitersOn_none {s : State} (h : s.ops = []) (y : Syn) :
    (if y == .syt then (s.sytWaiters s.syt.word).foldl State.txLocked s else s) = s := by
  rw [State.sytWaiters_none h]
  split <;> rfl

/-- The TUNE whose synthesisers have locked, with its case, ended. -/
def State.lockTell (s : State) : Option (Option Nat × Nat) → State
  | some (some id, k) => s.tuneEnd id Status.ok k
  | _ => s

theorem State.lockTell_none {s : State} (h : s.ops = []) (r : Option (Option Nat × Nat)) : s.lockTell r = s := by
  unfold State.lockTell
  split
  · exact State.tuneEnd_none h _ _ _
  · rfl

theorem State.lockReached_eq {s : State} {y : Syn} (band : Nat) (h : y = .syt ∨ s.diversity = false) :
    s.lockReached y band =
      let v := (s.lockClear y band).lockTell ((s.syn y).cur.map (fun t => (t.op, (s.syn y).kase)))
      if y == .syt then (v.sytWaiters v.syt.word).foldl State.txLocked v else v := by
  have h' : y = .syt ∨ (s.lockNow y band).diversity = false := h.imp id fun e => (s.diversity_lockNow y band).trans e
  unfold State.lockReached
  dsimp only
  rw [State.lockedTune_alone h', State.clearTune_alone h']
  have hcur : ((s.lockNow y band).syn y).cur = (s.syn y).cur := by rw [State.syn_lockNow]; rfl
  have hkase : ((s.lockNow y band).syn y).kase = (s.syn y).kase := by rw [State.syn_lockNow]; rfl
  rw [hcur, hkase]
  rfl

theorem State.lockClear_unseen {β : Type} {g : State → β} {y : Syn} (hg : ∀ t r, g { t with regs := r } = g t)
    (hy : ∀ t x, g (t.setSyn y x) = g t) (s : State) (band : Nat) : g (s.lockClear y band) = g s :=
  (hy _ _).trans (State.lockNow_unseen hg hy s band)

theorem State.lockReached_idle {s : State} {y : Syn} (band : Nat) (h : y = .syt ∨ s.diversity = false) (ho : s.ops = []) :
    s.lockReached y band = s.lockClear y band := by
  have hops : (s.lockClear y band).ops = [] :=
    (State.lockClear_unseen (g := State.ops) (fun _ _ => rfl) (fun t x => t.setSyn_ops y x) s band).trans ho
  rw [State.lockReached_eq band h]
  dsimp only
  rw [State.lockTell_none hops]
  exact State.waitersOn_none hops y

/-- The one operation, a TUNE that waits for this lock, ends with its case. -/
theorem State.lockReached_sole {s : State} {y : Syn} (band : Nat) (h : y = .syt ∨ s.diversity = false) {q : Tune} {id : Nat}
    {o : RadioOp} {k : Fin 64} (hcur : (s.syn y).cur = some q) (hop : q.op = some id) (hs : s.Sole id o k)
    (hk : o.kind = .tune) (hp : o.phase ≠ .claim) :
    s.lockReached y band = (s.lockClear y band).opEnd id Status.ok (s.syn y).kase := by
  have hc : (s.lockClear y band).Sole id o k := hs.of_same
    (State.lockClear_unseen (g := State.ops) (fun _ _ => rfl) (fun t x => t.setSyn_ops y x) s band)
    (State.lockClear_unseen (g := State.ctx) (fun _ _ => rfl) (fun t x => t.setSyn_ctx y x) s band)
  have htune : (s.lockClear y band).lockTell (some (some id, (s.syn y).kase)) =
      (s.lockClear y band).opEnd id Status.ok (s.syn y).kase := by
    unfold State.lockTell State.tuneEnd
    dsimp only
    rw [hc.op]
    dsimp only
    rw [if_pos (by rw [hk]; rfl)]
  rw [State.lockReached_eq band h, hcur]
  dsimp only [Option.map]
  rw [hop, htune]
  exact State.waitersOn_none (hc.opEnd (by rw [hk]; decide) hp (by decide) _).1.ops y

/-- What is said of a synthesiser that has locked. -/
def State.LockedAs (s : State) (y : Syn) (x : Synth) (temp : Int) (band n : Nat) : Prop :=
  (s.syn y).phase = .locked ∧ (s.syn y).word = x.word ∧
    (s.syn y).calWord = (if x.kase = 0 then x.calWord else some x.word) ∧
    (s.syn y).calTemp = (if x.kase = 0 then x.calTemp else temp) ∧ (s.syn y).queue = x.queue ∧
    (s.syn y).lockAt = n ∧ s.on (synLockFld y) = true ∧ (x.kase ≠ 0 → s.fld (synBandFld y) = band % 64)

theorem State.syn_lockClear (s : State) (y : Syn) (band : Nat) :
    (s.lockClear y band).syn y = { (s.syn y).locks s.stamp s.temp with cur := none } := by
  unfold State.lockClear
  rw [State.syn_setSyn_self, State.syn_lockNow]

theorem State.syn_lockClear_ne (s : State) {y z : Syn} (band : Nat) (h : z ≠ y) : (s.lockClear y band).syn z = s.syn z :=
  (State.syn_setSyn_ne _ _ _ _ h).trans (s.syn_lockNow_ne band h)

theorem State.lockClear_locked (s : State) (y : Syn) (band : Nat) :
    (s.lockClear y band).LockedAs y (s.syn y) s.temp band s.stamp := by
  have hregs : (s.lockClear y band).regs = (s.lockNow y band).regs := State.setSyn_regs _ _ _
  unfold State.LockedAs
  rw [s.syn_lockClear]
  refine ⟨rfl, rfl, rfl, rfl, rfl, rfl, ?_, fun h => ?_⟩
  · rw [State.on_of_regs hregs, State.lock_lockNow]
  · rw [State.fld_of_regs hregs, s.band_lockNow y band h]

/-- What was said of a locked synthesiser holds after an operation has ended. -/
theorem State.LockedAs.opEnd {s : State} {y : Syn} {x : Synth} {temp : Int} {band n : Nat} (h : s.LockedAs y x temp band n)
    (id status extra : Nat) : (s.opEnd id status extra).LockedAs y x temp band n := by
  have h1 : (s.opEnd id status extra).reg (synLockFld y).off = s.reg (synLockFld y).off :=
    s.reg_opEnd id status extra (by cases y <;> decide) (by cases y <;> decide)
  have h2 : (s.opEnd id status extra).reg (synBandFld y).off = s.reg (synBandFld y).off :=
    s.reg_opEnd id status extra (by cases y <;> decide) (by cases y <;> decide)
  unfold State.LockedAs at h ⊢
  rw [s.syn_opEnd, State.on_of_reg h1, State.fld_of_reg h2]
  exact h

/-! SYNTH_LOCK. -/

theorem State.settles_touch {s : State} {y : Syn} (ha : s.awake = true) (hp : (s.syn y).phase = .settling)
    (hr : s.on CLK_STAT.REF_OK = true) : s.settles y = true := by
  unfold State.settles State.rfRuns
  rw [hp, ha, hr]
  rfl

theorem exec_synthLock {s : State} {y : Syn} (band : Nat) (hs : s.settles y = true) (hv : s.on (synVcoFld y) = false) :
    exec (.synthLock y band) s = .next (s.touch.lockReached y band) :=
  if_pos ⟨hs, by rw [hv]; rfl⟩

theorem State.temp_touch (s : State) : s.touch.temp = s.temp := by
  unfold State.temp
  rw [State.fld_of_regs s.touch_regs]

theorem State.diversity_touch (s : State) : s.touch.diversity = s.diversity :=
  congrArg (· == 1) (State.fld_of_regs s.touch_regs _)

/-- What does not see the registers, the synthesisers and the conversion of `t` sees `u`. -/
theorem State.only_lockClear (u : State) (y : Syn) (band : Nat) : ({ u.lockClear y band with
    regs := u.regs, sya := u.sya, syb := u.syb, syt := u.syt, tempConv := u.tempConv } : State) = u :=
  State.lockClear_unseen (y := y) (g := fun t : State => { t with
    regs := u.regs, sya := u.sya, syb := u.syb, syt := u.syt, tempConv := u.tempConv }) (fun _ _ => rfl)
    (fun _ _ => by cases y <;> rfl) u band

theorem execSynthLock_locks {s : State} {y : Syn} (band : Nat) (hs : s.settles y = true) (hv : s.on (synVcoFld y) = false)
    (hal : y = .syt ∨ s.diversity = false) (ho : s.ops = []) :
    ∃ t, exec (.synthLock y band) s = .next t ∧ t.LockedAs y (s.syn y) s.temp band s.touch.stamp ∧ (t.syn y).cur = none ∧
      (∀ z, z ≠ y → t.syn z = s.syn z) ∧
      { t with regs := s.regs, sya := s.sya, syb := s.syb, syt := s.syt, tempConv := s.tempConv } = s.touch := by
  have heq := State.lockReached_idle (s := s.touch) band (hal.imp (fun h => h) s.diversity_touch.trans) (s.touch_ops.trans ho)
  refine ⟨_, (exec_synthLock band hs hv).trans (congrArg _ heq), ?_, ?_, fun z hz => ?_, ?_⟩
  · have h := s.touch.lockClear_locked y band
    rwa [s.syn_touch, s.temp_touch] at h
  · rw [State.syn_lockClear]
  · rw [State.syn_lockClear_ne _ _ hz, s.syn_touch]
  · rw [← s.touch_regs, ← s.touch_sya, ← s.touch_syb, ← s.touch_syt, ← s.touch_tempConv]
    exact s.touch.only_lockClear y band

theorem execSynthLock_ends {s : State} {y : Syn} (band : Nat) (hs : s.settles y = true) (hv : s.on (synVcoFld y) = false)
    (hal : y = .syt ∨ s.diversity = false) {q : Tune} {id : Nat} {o : RadioOp} {k : Fin 64} (hcur : (s.syn y).cur = some q)
    (hop : q.op = some id) (h : s.Sole id o k) (hk : o.kind = .tune) (hp : o.phase = .lock) :
    ∃ t, exec (.synthLock y band) s = .next t ∧ t.LockedAs y (s.syn y) s.temp band s.touch.stamp ∧
      (∀ z, z ≠ y → t.syn z = s.syn z) ∧ t.ops = [] ∧
      t.cx k.val = { (s.cx k.val).wr o.d (BitVec.ofNat 32 (s.radioWord 0 (o.late && o.acted) (s.syn y).kase)) with
        st := .ready, susp := .none, z := true, since := t.stamp } ∧
      ∀ j, j ≠ k.val → t.cx j = s.cx j := by
  have hu : s.touch.Sole id o k := h.of_same s.touch_ops s.touch_ctx
  have hcl : o.phase ≠ .claim := by rw [hp]; decide
  have heq := State.lockReached_sole (s := s.touch) band (hal.imp (fun h => h) s.diversity_touch.trans)
    ((congrArg Synth.cur (s.syn_touch y)).trans hcur) hop hu hk hcl
  have hctx : (s.touch.lockClear y band).ctx = s.ctx :=
    (State.lockClear_unseen (g := State.ctx) (fun _ _ => rfl) (fun t x => t.setSyn_ctx y x) _ band).trans s.touch_ctx
  have hcx : ∀ j, (s.touch.lockClear y band).cx j = s.cx j := fun j => by
    unfold State.cx
    rw [hctx]
  have hv' : (s.touch.lockClear y band).Sole id o k := h.of_same
    ((State.lockClear_unseen (g := State.ops) (fun _ _ => rfl) (fun t x => t.setSyn_ops y x) _ band).trans s.touch_ops) hctx
  have hquiet := hv'.opEnd_quiet (by rw [hk]; rfl) hcl Status.ok (s.touch.syn y).kase
  have hword : (s.touch.lockClear y band).radioWord Status.ok (o.late && o.acted) (s.touch.syn y).kase =
      s.radioWord 0 (o.late && o.acted) (s.syn y).kase := by
    rw [s.syn_touch]
    refine (State.lockClear_unseen (g := fun t => t.radioWord Status.ok (o.late && o.acted) (s.syn y).kase) (fun _ _ => rfl)
      (fun t x => by cases y <;> rfl) _ band).trans ?_
    exact State.touch_unseen (g := fun t => t.radioWord Status.ok (o.late && o.acted) (s.syn y).kase) (fun _ _ _ => rfl) s
  refine ⟨_, (exec_synthLock band hs hv).trans (congrArg _ heq), ?_, fun z hz => ?_, ?_, ?_, fun j hj => ?_⟩
  · have hl := (s.touch.lockClear_locked y band).opEnd id Status.ok (s.touch.syn y).kase
    rw [s.syn_touch, s.temp_touch] at hl
    rwa [s.syn_touch]
  · rw [State.syn_opEnd, State.syn_lockClear_ne _ _ hz, s.syn_touch]
  · exact (hv'.opEnd (by rw [hk]; decide) hcl (by decide) _).1.ops
  · rw [hquiet, State.cx_finish, State.stamp_finish, hword]
    have hz : (s.radioWord 0 (o.late && o.acted) (s.syn y).kase % 256 == 0) = true := by
      rw [State.radioWord_mod _ (by decide)]
      rfl
    rw [hz]
    have : (((s.touch.lockClear y band).withdraw (.pa id)).dropOp id).cx k.val = s.cx k.val := hcx k.val
    rw [this]
  · rw [hquiet, State.cx_finish_ne _ _ _ hj]
    exact hcx j

/-! CALIBRATION_END. -/

theorem execCalibrationEnd_locks {s : State} {y : Syn} {c : CalKind} (band : Nat) (ha : s.awake = true)
    (hs : s.settles y = true) (hc : calSyn c = some y ∧ calFld c = synVcoFld y) (hv : s.on (synVcoFld y) = true)
    (hal : y = .syt ∨ s.diversity = false) (ho : s.ops = []) :
    ∃ t, exec (.calibrationEnd c band) s = .next t ∧ t.LockedAs y (s.syn y) s.temp band s.touch.stamp ∧
      t.on (synVcoFld y) = false ∧ (∀ z, z ≠ y → t.syn z = s.syn z) ∧
      { t with regs := s.regs, sya := s.sya, syb := s.syb, syt := s.syt, tempConv := s.tempConv } = s.touch := by
  obtain ⟨hsyn, hfld⟩ := hc
  obtain ⟨w, hw⟩ : ∃ w, w = s.touch.setFld (synVcoFld y) 0 := ⟨_, rfl⟩
  have hexec : exec (.calibrationEnd c band) s = .next (w.lockReached y band) := by
    show execCalibrationEnd c band s = _
    unfold execCalibrationEnd
    rw [if_pos ⟨ha, by rw [hfld]; exact hv⟩, hsyn]
    dsimp only
    rw [if_pos hs, hw, hfld]
  have hwsyn : ∀ z, w.syn z = s.syn z := fun z => by rw [hw, State.syn_setFld, s.syn_touch]
  have hdiv : w.diversity = s.diversity := by
    rw [hw, ← s.diversity_touch]
    exact congrArg (· == 1) (State.fld_setFld_other _ _ _ _ (by cases y <;> decide))
  have htemp : w.temp = s.temp := by
    rw [hw, ← s.temp_touch]
    exact congrArg (signed 12) (State.fld_setFld_other _ _ _ _ (by cases y <;> decide))
  have hstamp : w.stamp = s.touch.stamp := hw ▸ rfl
  have heq := State.lockReached_idle (s := w) band (hal.imp (fun h => h) hdiv.trans) (hw ▸ s.touch_ops.trans ho)
  refine ⟨_, hexec.trans (congrArg _ heq), ?_, ?_, fun z hz => ?_, ?_⟩
  · have h := w.lockClear_locked y band
    rwa [hwsyn, htemp, hstamp] at h
  · have hon : (w.lockClear y band).on (synVcoFld y) = w.on (synVcoFld y) := by
      refine (State.on_of_regs (State.setSyn_regs (w.lockNow y band) _ _) _).trans ?_
      unfold State.on
      rw [w.fld_lockNow_other y band (by cases y <;> decide) (by cases y <;> decide)]
    rw [hon, hw]
    exact State.on_setFld_zero _ _ (by cases y <;> decide)
  · rw [State.syn_lockClear_ne _ _ hz, hwsyn]
  · have h := w.only_lockClear y band
    rw [← s.touch_regs, ← s.touch_sya, ← s.touch_syb, ← s.touch_syt, ← s.touch_tempConv]
    generalize s.touch = u at hw
    subst hw
    exact congrArg (fun t : State => { t with regs := u.regs }) h

/-- The IQ calibration of a chain ends: its bit clears. -/
theorem execCalibrationEnd_iq {s : State} {c : CalKind} (band : Nat) (ha : s.awake = true) (hc : calSyn c = none)
    (hv : s.on (calFld c) = true) : exec (.calibrationEnd c band) s = .next (s.touch.setFld (calFld c) 0) := by
  show execCalibrationEnd c band s = _
  unfold execCalibrationEnd
  rw [if_pos ⟨ha, hv⟩, hc]

end Sys2Proof.Machine

/-! Lock timeouts, unlocks, SYT_VCO_START and temperature conversions (R55, R58, R67, R68). -/

namespace Sys2Proof.Machine

/-! LOCK_TIMEOUT (R55). -/

theorem execLockTimeout_early {s : State} {y : Syn} (h : s.reach ((s.syn y).since + usFine 400) = false) :
    exec (.lockTimeout y) s = .next s := by
  show execLockTimeout y s = _
  unfold execLockTimeout
  dsimp only
  rw [if_neg (by rw [h]; simp)]

theorem State.syn_moveTo (s : State) (n : Nat) (y : Syn) : (s.moveTo n).syn y = s.syn y := by cases y <;> rfl

theorem exec_lockTimeout {s : State} {y : Syn} (hs : s.settles y = true)
    (h : s.reach ((s.syn y).since + usFine 400) = true) : exec (.lockTimeout y) s =
      let u := s.moveTo ((s.syn y).since + usFine 400)
      if (s.syn y).second then .next (u.lockFail y)
      else .next { u.setSyn y { s.syn y with second := true, kase := max 1 (s.syn y).kase, since := u.stamp } with
        tempConv := true } := by
  show execLockTimeout y s = _
  unfold execLockTimeout
  dsimp only
  rw [if_pos ⟨hs, h⟩, State.syn_moveTo]

/-- The first timeout calibrates once more. -/
theorem execLockTimeout_first {s : State} {y : Syn} (hs : s.settles y = true) (hsec : (s.syn y).second = false)
    (h : s.reach ((s.syn y).since + usFine 400) = true) : ∃ t, exec (.lockTimeout y) s = .next t ∧
      t.syn y = { s.syn y with second := true, kase := max 1 (s.syn y).kase, since := t.stamp } ∧ t.tempConv = true ∧
      t.regs = s.regs ∧ (∀ z, z ≠ y → t.syn z = s.syn z) ∧
      { t with sya := s.sya, syb := s.syb, syt := s.syt, tempConv := s.tempConv } = s.moveTo ((s.syn y).since + usFine 400) := by
  obtain ⟨u, hu⟩ : ∃ u, u = s.moveTo ((s.syn y).since + usFine 400) := ⟨_, rfl⟩
  have hsyn : ∀ z, u.syn z = s.syn z := fun z => hu ▸ s.syn_moveTo _ z
  have hregs : u.regs = s.regs := hu ▸ rfl
  have hother : u.sya = s.sya ∧ u.syb = s.syb ∧ u.syt = s.syt ∧ u.tempConv = s.tempConv := hu ▸ ⟨rfl, rfl, rfl, rfl⟩
  rw [exec_lockTimeout hs h, ← hu, hsec]
  obtain ⟨ha, hb, ht, hc⟩ := hother
  rw [← ha, ← hb, ← ht, ← hc, ← hregs, ← hsyn]
  refine ⟨_, rfl, ?_, rfl, State.setSyn_regs _ _ _, fun z hz => ?_, ?_⟩
  · rw [State.syn_of_tempConv, State.syn_setSyn_self]
    cases y <;> rfl
  · rw [State.syn_of_tempConv, State.syn_setSyn_ne _ _ _ _ hz, hsyn]
  · cases y <;> rfl

/-! A fault record and what it leaves (R397). -/

theorem State.syn_fault (s : State) (f : FaultRec) (y : Syn) : (s.fault f).syn y = s.syn y :=
  ((State.Books.refl s).fault f).unseen (g := fun t => t.syn y) fun _ _ _ _ _ _ _ => by cases y <;> rfl

/-- The first record of an empty log, with no port taking FAULT events, names its kind in LAST_KIND. -/
theorem State.lastKind_fault {s : State} (ha : s.faultAny = false) (hev : s.fld SYS_FAULT.EV = 0) {f : FaultRec}
    (hk : f.kind < 256) : (s.fault f).fld SYS_FAULT.LAST_KIND = f.kind := by
  have hlen : s.faultLen = 0 := by
    unfold State.faultAny at ha
    rw [Bool.or_eq_false_iff] at ha
    obtain ⟨htotal, hwrap⟩ := ha
    unfold State.faultLen
    rw [if_neg (by rw [hwrap]; decide), bne_eq_false_iff_eq.mp htotal]
    rfl
  have hafter : s.faultAfter f = 0 := by
    unfold State.faultAfter
    rw [hlen]
    rfl
  have hmerges : s.faultMerges f = false := by
    unfold State.faultMerges
    rw [hafter, hlen]
    rfl
  have hput : (s.faultPut 0 f).fld SYS_FAULT.EV = 0 := by rw [State.fld_faultPut _ _ _ _ (by decide), hev]
  unfold State.fault
  dsimp only
  rw [hmerges, hafter, if_neg (by decide), if_pos rfl, State.faultEvents_quiet]
  · rw [State.fld_setFld_fits _ _ _ (by decide) (by show f.kind < 256; exact hk)]
  · split <;>
      simp (disch := decide) only [State.raise, State.incSat, State.incMod, State.fld_setFld_other, hput]

/-! The second timeout (R55). -/

/-- The failed tune's counters and its record. -/
def State.failNoted (s : State) (y : Syn) : State :=
  (s.raise RFA_CAL_STAT.CAL_FAIL RFA_CAL_STAT.CAL_FAIL_CNT).fault ⟨0x09, Status.lockTimeout, synIx y, (s.syn y).word⟩

theorem State.syn_failNoted (s : State) (y z : Syn) : (s.failNoted y).syn z = s.syn z :=
  (State.syn_fault _ _ _).trans (State.raise_unseen (g := fun t => t.syn z) (fun t r => t.syn_of_regs r z) _ _ _)

theorem State.failNoted_unseen {β : Type} {g : State → β}
    (hg : ∀ t r m k c p o, g { t with regs := r, mem := m, marks := k, scrub := c, ports := p, cmrOpen := o } = g t)
    (s : State) (y : Syn) : g (s.failNoted y) = g s :=
  (((State.Books.refl _).fault _).unseen hg).trans (State.raise_unseen (fun t r => hg t r t.mem t.marks t.scrub t.ports t.cmrOpen) s _ _)

theorem State.reg_failNoted {s : State} (hev : s.fld SYS_FAULT.EV = 0) (y : Syn) {o : Nat}
    (h : o ∉ [SYS_FAULT.off, SYS_FAULT_LOG.off, MEM_BANK_CFG.off]) :
    (s.failNoted y).reg o = (s.raise RFA_CAL_STAT.CAL_FAIL RFA_CAL_STAT.CAL_FAIL_CNT).reg o := by
  simp only [List.mem_cons, List.not_mem_nil, or_false, not_or] at h
  obtain ⟨h8, hc, hm⟩ := h
  refine State.reg_fault_quiet ?_ _ h8 hc hm
  rw [State.fld_raise_other (by decide) (by decide), hev]

/-- In diversity a failed SYB ends the TUNE of both chains. -/
def State.pairEnd (s : State) (y : Syn) : State :=
  match y, s.diversity, s.sya.cur.bind (·.op) with
  | .syb, true, some id => s.tuneEnd id Status.lockTimeout s.sya.kase
  | _, _, _ => s

/-- A failed SYT ends what used it. -/
def State.usersEnd (s : State) (y : Syn) : State :=
  if y == .syt then s.sytUsers.foldl (fun s i => s.txEnd i Status.lockTimeout 0) s else s

/-- The synthesisers of a failed tune off, their waiting tunes begun again. -/
def State.failOff (s : State) (y : Syn) : State :=
  let ys := s.offSyns y
  let waiting := ys.flatMap (fun z => (s.syn z).queue)
  waiting.foldl State.tuneAgain
    (ys.foldl (fun s z => s.synOff z none) (ys.foldl (fun s z => s.setSyn z { s.syn z with queue := [] }) s))

/-- The operation of the failed tune ends. -/
def State.curEnd (s : State) (x : Synth) : State :=
  match x.cur.bind (·.op) with
  | some id => s.tuneEnd id Status.lockTimeout x.kase
  | none => s

theorem State.lockFail_eq (s : State) (y : Syn) :
    s.lockFail y = ((((s.failNoted y).curEnd (s.syn y)).pairEnd y).usersEnd y).failOff y := by
  unfold State.lockFail
  extract_lets x s1 s2 s3 s4 s5 ys waiting s6 s7
  have h2 : s2 = s.failNoted y := rfl
  have h3 : s3 = s2.curEnd x := rfl
  have h4 : s4 = s3.pairEnd y := rfl
  have h5 : s5 = s4.usersEnd y := rfl
  have hys : ys = s5.offSyns y := rfl
  have hw : waiting = ys.flatMap (fun z => (s5.syn z).queue) := rfl
  have h6 : s6 = ys.foldl (fun s z => s.setSyn z { s.syn z with queue := [] }) s5 := rfl
  have h7 : s7 = ys.foldl (fun s z => s.synOff z none) s6 := rfl
  clear_value s7 s6 waiting ys s5 s4 s3 s2
  rw [h7, h6, hw, hys, ← h2, ← h3, ← h4, ← h5]
  rfl

theorem State.pairEnd_alone {s : State} (h : s.diversity = false) (y : Syn) : s.pairEnd y = s := by
  unfold State.pairEnd
  rw [h]
  split
  · next hb _ => exact absurd hb (by decide)
  · rfl

theorem State.usersEnd_none {s : State} (h : s.ops = []) (y : Syn) : s.usersEnd y = s := by
  unfold State.usersEnd State.sytUsers State.opIds
  rw [h]
  split <;> rfl

theorem State.failOff_alone {s : State} {y : Syn} (hd : s.diversity = false) (hq : (s.syn y).queue = []) :
    s.failOff y = (s.setSyn y { s.syn y with queue := [] }).synOff y none := by
  unfold State.failOff State.offSyns
  rw [hd]
  dsimp only [Bool.false_and]
  simp [hq]

theorem State.diversity_failNoted (s : State) (y : Syn) : (s.failNoted y).diversity = s.diversity := by
  have h : (s.failNoted y).reg RFA_CHAIN_CFG.ARR.off = s.reg RFA_CHAIN_CFG.ARR.off :=
    ((State.Logs.refl _).fault _ _ (by decide) (by decide)).trans
      (((State.onlyReg_refl s RFA_CAL_STAT.off).raise rfl rfl).1 _ (by decide))
  exact congrArg (· == 1) (State.fld_of_reg h)


theorem State.tuneEnd_tune {w : State} {id : Nat} {o : RadioOp} (ho : w.op id = some o) (hk : o.kind = .tune) (status kase : Nat) :
    w.tuneEnd id status kase = w.opEnd id status kase := by
  unfold State.tuneEnd
  rw [ho]
  dsimp only
  rw [hk]
  rfl

theorem State.curEnd_tune {w : State} {x : Synth} {q : Tune} {id : Nat} {o : RadioOp} (hcur : x.cur = some q)
    (hop : q.op = some id) (ho : w.op id = some o) (hk : o.kind = .tune) :
    w.curEnd x = w.opEnd id Status.lockTimeout x.kase := by
  unfold State.curEnd
  rw [hcur, Option.bind_some, hop]
  exact State.tuneEnd_tune ho hk _ _
/-- The one operation, the failed TUNE, ends, and its synthesiser goes off. -/
theorem State.lockFail_sole {s : State} {y : Syn} (hd : s.diversity = false) {q : Tune} {id : Nat} {o : RadioOp} {k : Fin 64}
    (hcur : (s.syn y).cur = some q) (hop : q.op = some id) (hq : (s.syn y).queue = []) (h : s.Sole id o k)
    (hk : o.kind = .tune) (hp : o.phase ≠ .claim) :
    ∃ v, v = (s.failNoted y).opEnd id Status.lockTimeout (s.syn y).kase ∧
      (s.failNoted y).Ended o k Status.lockTimeout (s.syn y).kase v ∧
      s.lockFail y = (v.setSyn y { v.syn y with queue := [] }).synOff y none := by
  have hs : (s.failNoted y).Sole id o k := h.of_same (State.failNoted_unseen (g := State.ops) (fun _ _ _ _ _ _ _ => rfl) s y)
    (State.failNoted_unseen (g := State.ctx) (fun _ _ _ _ _ _ _ => rfl) s y)
  have hdw := s.diversity_failNoted y
  have hqw : ((s.failNoted y).syn y).queue = [] := by rw [s.syn_failNoted, hq]
  rw [State.lockFail_eq]
  generalize s.failNoted y = w at hs hdw hqw ⊢
  have hend := (hs.opEnd (by rw [hk]; decide) hp (status := Status.lockTimeout) (by decide) (s.syn y).kase).1
  have hdv := congrArg (· == 1) (State.fld_of_reg (f := RFA_CHAIN_CFG.ARR) (w.reg_opEnd id Status.lockTimeout (s.syn y).kase (by decide) (by decide)))
  have hqv := (congrArg Synth.queue (w.syn_opEnd id Status.lockTimeout (s.syn y).kase y)).trans hqw
  obtain ⟨v, hv⟩ : ∃ v, v = w.opEnd id Status.lockTimeout (s.syn y).kase := ⟨_, rfl⟩
  rw [← hv] at hend hdv hqv ⊢
  have htune := State.curEnd_tune hcur hop hs.op hk
  rw [← hv] at htune
  have hdv : v.diversity = false := hdv.trans (hdw.trans hd)
  refine ⟨v, rfl, hend, ?_⟩
  rw [htune, State.pairEnd_alone hdv, State.usersEnd_none hend.ops, State.failOff_alone hdv hqv]



theorem State.reg_tunesEnd (s : State) (y : Syn) (keep : Option Nat) {o : Nat} (h5 : o < 0x5100 ∨ 0x5300 ≤ o)
    (h9 : o ≠ TXP_STAT.off) : (s.tunesEnd y keep).reg o = s.reg o := by
  obtain ⟨ids, h⟩ := s.tunesEnd_eq y keep
  rw [h, State.foldl_unseen (g := fun t => t.reg o) (fun t i => t.reg_opEnd i _ _ h5 h9)]
  exact State.reg_of_regs (State.setSyn_regs _ _ _) o

theorem State.reg_synCleared (s : State) (y : Syn) {o : Nat} (h : o ∉ [RFA_CHAIN_CFG.off, RFA_SY_STAT.off, RFA_CAL_CTRL.off]) :
    (s.synCleared y).reg o = s.reg o := by
  simp only [List.mem_cons, List.not_mem_nil, or_false, not_or] at h
  obtain ⟨hcfg, hstat, hcal⟩ := h
  obtain ⟨hon, hlock, hvco⟩ : (synOnFld y).off = RFA_CHAIN_CFG.off ∧ (synLockFld y).off = RFA_SY_STAT.off ∧
      (synVcoFld y).off = RFA_CAL_CTRL.off := by cases y <;> decide
  have h3 : (((s.setFld (synOnFld y) 0).setFld (synLockFld y) 0).setFld (synVcoFld y) 0).reg o = s.reg o := by
    rw [State.reg_setFld_ne _ _ _ _ (hvco ▸ hcal), State.reg_setFld_ne _ _ _ _ (hlock ▸ hstat),
      State.reg_setFld_ne _ _ _ _ (hon ▸ hcfg)]
  cases y
  · exact (State.reg_setFld_ne _ _ _ _ hcal).trans h3
  · exact (State.reg_setFld_ne _ _ _ _ hcal).trans h3
  · exact h3

/-- What a synthesiser's power-off writes: the Palettes' RUN, the Well's denials, REF_OK, its own registers, and what its operations
write as they end. -/
theorem State.reg_synOff_ne (s : State) (y : Syn) (keep : Option Nat) {o : Nat} (h5 : o < 0x5100 ∨ 0x5300 ≤ o)
    (h : o ∉ [CHZ_CTRL.off, MEM_BANK_CFG.off, WELL_DENY_CNT.off, CLK_STAT.off, TXP_STAT.off, RFA_CHAIN_CFG.off, RFA_SY_STAT.off,
      RFA_CAL_CTRL.off]) : (s.synOff y keep).reg o = s.reg o := by
  simp only [List.mem_cons, List.not_mem_nil, or_false, not_or] at h
  obtain ⟨h1, h2, h3, h4, h6, hoff⟩ := h
  rw [s.reg_synOff y keep (by simp [h1, h2, h3, h4])]
  unfold State.synDown
  rw [State.reg_synCleared _ _ (by simpa using hoff), State.reg_of_regs (State.setSyn_regs _ _ _), State.reg_tunesEnd _ _ _ h5 h6]

/-- The counters and the record of a tune that failed. -/
theorem State.failNoted_fails {s : State} (hf : s.faultAny = false) (hev : s.fld SYS_FAULT.EV = 0) (y : Syn) :
    (s.failNoted y).on RFA_CAL_STAT.CAL_FAIL = true ∧
      (s.failNoted y).fld RFA_CAL_STAT.CAL_FAIL_CNT = satInc 255 (s.fld RFA_CAL_STAT.CAL_FAIL_CNT) ∧
      (s.failNoted y).fld SYS_FAULT.LAST_KIND = 9 := by
  have hreg := s.reg_failNoted hev y (o := RFA_CAL_STAT.off) (by decide)
  have hreg' : ∀ f : Fld, f.off ≠ RFA_CAL_STAT.off →
      (s.raise RFA_CAL_STAT.CAL_FAIL RFA_CAL_STAT.CAL_FAIL_CNT).fld f = s.fld f := fun f h =>
    State.fld_of_reg (((State.onlyReg_refl s RFA_CAL_STAT.off).raise rfl rfl).1 _ h)
  refine ⟨?_, ?_, State.lastKind_fault ?_ ((hreg' _ (by decide)).trans hev) (show 9 < 256 by decide)⟩
  · rw [State.on_of_reg (f := RFA_CAL_STAT.CAL_FAIL) hreg]
    exact State.on_raise (by decide) (by decide)
  · rw [State.fld_of_reg (f := RFA_CAL_STAT.CAL_FAIL_CNT) hreg]
    exact State.fld_raise (by decide) (by decide)
  · rw [← hf]
    unfold State.faultAny State.on
    rw [hreg' _ (by decide), hreg' _ (by decide)]

theorem execLockTimeout_second {s : State} {y : Syn} (hs : s.settles y = true) (hsec : (s.syn y).second = true)
    (hr : s.reach ((s.syn y).since + usFine 400) = true) (hd : s.diversity = false) {q : Tune} {id : Nat} {o : RadioOp}
    {k : Fin 64} (hcur : (s.syn y).cur = some q) (hop : q.op = some id) (hq : (s.syn y).queue = []) (h : s.Sole id o k)
    (hk : o.kind = .tune) (hp : o.phase = .lock) (ho : o.d ≠ 0) (hf : s.faultAny = false) (hev : s.fld SYS_FAULT.EV = 0) :
    ∃ t, exec (.lockTimeout y) s = .next t ∧ t.on RFA_CAL_STAT.CAL_FAIL = true ∧
      t.fld RFA_CAL_STAT.CAL_FAIL_CNT = satInc 255 (s.fld RFA_CAL_STAT.CAL_FAIL_CNT) ∧
      t.fld SYS_FAULT.LAST_KIND = 9 ∧ t.synOn y = false ∧ (t.syn y).phase = .off ∧ (∀ z, z ≠ y → t.syn z = s.syn z) ∧
      (t.cx k.val).st = .ready ∧ ((t.cx k.val).rd o.d).toNat % 256 = 0x11 := by
  obtain ⟨u, hu⟩ : ∃ u, u = s.moveTo ((s.syn y).since + usFine 400) := ⟨_, rfl⟩
  have hsyn : ∀ z, u.syn z = s.syn z := fun z => hu ▸ s.syn_moveTo _ z
  have hregs : u.regs = s.regs := hu ▸ rfl
  have hfld : ∀ f, u.fld f = s.fld f := State.fld_of_regs hregs
  have hcl : o.phase ≠ .claim := by rw [hp]; decide
  have hexec : exec (.lockTimeout y) s = .next (u.lockFail y) := by
    rw [exec_lockTimeout hs hr, ← hu, if_pos hsec]
  have hfu : u.faultAny = false := by
    rw [← hf]
    unfold State.faultAny
    rw [hfld, State.on_of_regs hregs]
  obtain ⟨hfail, hcnt, hlast⟩ := State.failNoted_fails hfu ((hfld _).trans hev) y
  have hws : ∀ z, (u.failNoted y).syn z = s.syn z := fun z => (u.syn_failNoted y z).trans (hsyn z)
  obtain ⟨v, hv, hend, heq⟩ := State.lockFail_sole (s := u) ((congrArg (· == 1) (hfld _)).trans hd) ((congrArg Synth.cur (hsyn y)).trans hcur) hop
    ((congrArg Synth.queue (hsyn y)).trans hq) (h.of_same (hu ▸ rfl) (hu ▸ rfl)) hk hcl
  clear hu
  generalize u.failNoted y = w at *
  have hreg : ∀ {n}, n < 0x5100 ∨ 0x5300 ≤ n → n ≠ TXP_STAT.off → v.reg n = w.reg n := fun h5 h9 => by
    rw [hv, State.reg_opEnd _ _ _ _ h5 h9]
  have hvs : ∀ z, v.syn z = s.syn z := fun z => by rw [hv, State.syn_opEnd, hws]
  obtain ⟨x, hx⟩ : ∃ x, x = v.setSyn y { v.syn y with queue := [] } := ⟨_, rfl⟩
  have hxr : x.regs = v.regs := hx ▸ State.setSyn_regs _ _ _
  obtain ⟨hoff, hothers, hon, -, -⟩ := x.synOff_downed y none
  obtain ⟨hquiet, -⟩ := State.synOff_off (s := x) (hx ▸ (State.setSyn_ops _ _ _).trans hend.ops) y none
  have hctx : (x.synOff y none).cx k.val = v.cx k.val := by
    refine (hquiet.seen (g := fun t => t.cx k.val) fun _ => rfl).trans ?_
    rw [hx]
    cases y <;> rfl
  have htreg : ∀ f : Fld, f.off = RFA_CAL_STAT.off ∨ f.off = SYS_FAULT.off → (x.synOff y none).reg f.off = w.reg f.off := by
    intro f hfo
    rw [State.reg_synOff_ne, State.reg_of_regs hxr, hreg] <;> rcases hfo with e | e <;> rw [e] <;> decide
  rw [← hx] at heq
  refine ⟨_, hexec.trans (congrArg _ heq), ?_, ?_, ?_, hon, ?_, fun z hz => ?_, ?_, ?_⟩
  · rw [State.on_of_reg (htreg _ (.inl rfl)), hfail]
  · rw [State.fld_of_reg (htreg _ (.inl rfl)), hcnt, hfld]
  · rw [State.fld_of_reg (htreg _ (.inr rfl)), hlast]
  · rw [hoff]
    rfl
  · rw [hothers z hz, hx, State.syn_setSyn_ne _ _ _ _ hz, hvs]
  · rw [hctx, hend.ready]
  · rw [hctx, hend.word ho]
    exact w.radioWord_mod (by decide) _ _


/-! SYNTH_UNLOCK (R58). -/

/-- The flag, the count and the record of a lost lock. -/
def State.unlockNoted (s : State) (y : Syn) : State :=
  (s.raise (synUnlkFld y).1 (synUnlkFld y).2).fault
    ⟨0x08, Status.lockTimeout, synIx y, ((s.raise (synUnlkFld y).1 (synUnlkFld y).2).syn y).word⟩

/-- In diversity SYA's markers reach both chains. -/
def State.widen (s : State) (y : Syn) : State :=
  if y == .sya && s.diversity then { s with sya := { s.sya with wide := true } } else s

/-- The transmission that holds SYT is cut. -/
def State.unlockCut (s : State) (y : Syn) : State :=
  match y, s.txNow with
  | .syt, some id => s.txCut id Status.lockTimeout
  | _, _ => s

theorem State.synUnlock_eq (s : State) (y : Syn) : s.synUnlock y =
    let v := ((s.unlockNoted y).calBegin y).widen y
    ((v.gapLanes (v.unlockChains y) Status.lockTimeout).gapCase (v.unlockChains y)).unlockCut y := by
  unfold State.synUnlock
  extract_lets f s1 s2 s3 x s4 s5 v
  have h2 : s2 = s.unlockNoted y := rfl
  have hv : v = ((s.unlockNoted y).calBegin y).widen y := rfl
  have h3 : s3 = s2.calBegin y := rfl
  have h4 : s4 = s3.widen y := rfl
  have h5 : s5 = (s4.gapLanes (s4.unlockChains y) Status.lockTimeout).gapCase (s4.unlockChains y) := rfl
  rw [← h2, ← h3, ← h4] at hv
  clear_value v s5 s4 x s3 s2
  rw [hv, ← h5]
  rfl

theorem State.widen_eq (s : State) (y : Syn) : ∃ b, s.widen y = s.setSyn y { s.syn y with wide := b } := by
  unfold State.widen
  split
  next h =>
    refine ⟨true, ?_⟩
    cases y
    · rfl
    · exact absurd h (by simp)
    · exact absurd h (by simp)
  · exact ⟨(s.syn y).wide, by cases y <;> rfl⟩

theorem State.unlockCut_none {s : State} (h : s.ops = []) (y : Syn) : s.unlockCut y = s := by
  unfold State.unlockCut State.txNow State.opIds
  rw [h]
  cases y <;> rfl

theorem State.unlockNoted_unseen {β : Type} {g : State → β}
    (hg : ∀ t r m k c p o, g { t with regs := r, mem := m, marks := k, scrub := c, ports := p, cmrOpen := o } = g t)
    (s : State) (y : Syn) : g (s.unlockNoted y) = g s :=
  (((State.Books.refl _).fault _).unseen hg).trans (State.raise_unseen (fun t r => hg t r t.mem t.marks t.scrub t.ports t.cmrOpen) s _ _)

theorem State.syn_unlockNoted (s : State) (y z : Syn) : (s.unlockNoted y).syn z = s.syn z :=
  s.unlockNoted_unseen (g := fun t => t.syn z) (fun _ _ _ _ _ _ _ => by cases z <;> rfl) y

theorem State.reg_unlockNoted (s : State) (y : Syn) {o : Nat} (h4 : 0x4000 ≤ o) (he : o < 0xE000) :
    (s.unlockNoted y).reg o = (s.raise (synUnlkFld y).1 (synUnlkFld y).2).reg o :=
  (State.Logs.refl _).fault _ _ h4 he

/-- A locked synthesiser counts its unlock and settles again on its word (R58). -/
structure State.Unlocked (s : State) (y : Syn) (t : State) : Prop where
  unlk : t.on (synUnlkFld y).1 = true
  count : t.fld (synUnlkFld y).2 = satInc 255 (s.fld (synUnlkFld y).2)
  syn : (t.syn y).phase = .settling ∧ (t.syn y).word = (s.syn y).word ∧ (t.syn y).kase = 1 ∧ (t.syn y).second = false
  lock : t.on (synLockFld y) = false
  temp : t.tempConv = true
  others : ∀ z, z ≠ y → t.syn z = s.syn z
  gap : ∀ c, synChain y = some c → s.palRuns c = true → t.on CHZ_ERG_STAT.GAP = true

/-- A full calibration of a synthesiser that does not settle. -/
theorem State.calBegin_settle {s : State} {y : Syn} (h : (s.syn y).phase ≠ .settling) :
    s.calBegin y = s.settle y ⟨(s.syn y).word, none, true, none, s.ticketNow 0⟩ 1 := by
  unfold State.calBegin
  dsimp only
  rw [if_neg (by simpa using h)]

theorem State.synUnlock_idle {s : State} {y : Syn} (hl : s.lanes = []) (ho : s.ops = []) :
    ∃ b v, v = (s.unlockNoted y).calBegin y ∧ s.synUnlock y =
      (v.setSyn y { v.syn y with wide := b }).gapCase ((v.setSyn y { v.syn y with wide := b }).unlockChains y) := by
  obtain ⟨v, hv⟩ : ∃ v, v = (s.unlockNoted y).calBegin y := ⟨_, rfl⟩
  obtain ⟨b, hb⟩ := v.widen_eq y
  refine ⟨b, v, hv, ?_⟩
  have hvl : v.lanes = [] := by
    rw [hv, State.calBegin_unseen (g := State.lanes) (fun _ _ => rfl) (fun _ _ => rfl) fun t x => t.setSyn_lanes y x]
    exact (s.unlockNoted_unseen (g := State.lanes) (fun _ _ _ _ _ _ _ => rfl) y).trans hl
  have hvo : v.ops = [] := by
    rw [hv, State.calBegin_unseen (g := State.ops) (fun _ _ => rfl) (fun _ _ => rfl) fun t x => t.setSyn_ops y x]
    exact (s.unlockNoted_unseen (g := State.ops) (fun _ _ _ _ _ _ _ => rfl) y).trans ho
  rw [State.synUnlock_eq, ← hv]
  dsimp only
  rw [hb, State.gapLanes_idle ((State.setSyn_lanes _ _ _).trans hvl), State.unlockCut_none]
  exact (State.gapCase_unseen (g := State.ops) (fun _ _ => rfl) _ _).trans ((State.setSyn_ops _ _ _).trans hvo)

theorem State.mem_tuneChains (s : State) {y : Syn} {c : Chain} (h : synChain y = some c) : c ∈ s.tuneChains y := by
  unfold State.tuneChains
  cases y <;> cases h
  · dsimp only
    split <;> simp
  · simp

theorem State.synUnlock_unlocked {s : State} {y : Syn} (hp : (s.syn y).phase = .locked) (hl : s.lanes = []) (ho : s.ops = []) :
    s.Unlocked y (s.synUnlock y) := by
  obtain ⟨b, v, hv, heq⟩ := State.synUnlock_idle (y := y) hl ho
  have hns := s.syn_unlockNoted y
  rw [State.calBegin_settle (by rw [hns, hp]; decide), hns] at hv
  obtain ⟨x, hx⟩ : ∃ x, x = v.setSyn y { v.syn y with wide := b } := ⟨_, rfl⟩
  have hvx : ∀ f, x.fld f = v.fld f := State.fld_of_regs (hx ▸ State.setSyn_regs _ _ _)
  have hxreg : ∀ {f : Fld}, f.off ≠ CHZ_ERG_STAT.off → (x.gapCase (x.unlockChains y)).fld f = x.fld f := fun h =>
    State.fld_of_reg (State.reg_gapCase_ne _ _ h)
  have hxs : ∀ z, (x.gapCase (x.unlockChains y)).syn z = x.syn z := fun z =>
    State.gapCase_unseen (g := fun t => t.syn z) (fun t r => t.syn_of_regs r z) _ _
  have hxfld : ∀ {f : Fld}, synApart y f = true → 0x4000 ≤ f.off → f.off < 0xE000 →
      x.fld f = (s.raise (synUnlkFld y).1 (synUnlkFld y).2).fld f := by
    intro f ha h4 he
    unfold synApart at ha
    simp only [Bool.and_eq_true] at ha
    obtain ⟨⟨hw, hk⟩, hc⟩ := ha
    rw [hvx, hv, State.fld_settle_other _ _ _ _ hw hk fun c hs => by rwa [hs] at hc, State.fld_of_reg (s.reg_unlockNoted y h4 he)]
  rw [← hx] at heq
  rw [heq]
  refine ⟨?_, ?_, ?_, ?_, ?_, fun z hz => ?_, fun c hc hr => State.on_gapCase ?_⟩
  · refine (congrArg (· == 1) ((hxreg (by cases y <;> decide)).trans (hxfld (by cases y <;> decide) (by cases y <;> decide)
      (by cases y <;> decide)))).trans ?_
    exact State.on_raise (by cases y <;> decide) (by cases y <;> decide)
  · rw [hxreg (by cases y <;> decide), hxfld (by cases y <;> decide) (by cases y <;> decide) (by cases y <;> decide)]
    exact State.fld_raise (by cases y <;> decide) (by cases y <;> decide)
  · rw [hxs, hx, State.syn_setSyn_self, hv, State.syn_settle, hns]
    exact ⟨rfl, rfl, rfl, rfl⟩
  · refine (congrArg (· == 1) ((hxreg (f := synLockFld y) (by cases y <;> decide)).trans (hvx _))).trans ?_
    rw [hv]
    exact (State.on_of_regs (State.regs_tuneOn _ _ _ _).symm _).trans (State.lock_tuneOn _ _ _ _)
  · refine (State.gapCase_unseen (g := State.tempConv) (fun _ _ => rfl) _ _).trans ?_
    rw [hx, State.setSyn_tempConv, hv]
    exact State.tempConv_settle _ _ _ (by decide)
  · rw [hxs, hx, State.syn_setSyn_ne _ _ _ _ hz, hv, State.syn_settle_ne _ _ _ hz, hns]
  · refine List.any_eq_true.mpr ⟨c, State.mem_tuneChains x hc, Eq.trans ?_ hr⟩
    have hrun : ∀ {f : Fld}, f = CHZ_CTRL.RUN_A ∨ f = CHZ_CTRL.RUN_B → x.on f = s.on f := by
      intro f hf
      refine congrArg (· == 1) ?_
      rcases hf with rfl | rfl
      · rw [hxfld (by cases y <;> decide) (by decide) (by decide),
          State.fld_raise_other (by cases y <;> decide) (by cases y <;> decide)]
      · rw [hxfld (by cases y <;> decide) (by decide) (by decide),
          State.fld_raise_other (by cases y <;> decide) (by cases y <;> decide)]
    cases c
    · exact hrun (.inl rfl)
    · exact hrun (.inr rfl)

/-! SYT_VCO_START (R68). -/

theorem State.calWait_calBegin (s : State) (y : Syn) : ((s.calBegin y).syn y).calWait = (s.syn y).calWait := by
  unfold State.calBegin
  dsimp only
  split
  · rw [State.syn_of_tempConv, State.syn_setSyn_self]
  · rw [State.syn_settle]
    rfl

theorem execSytVcoStart_settles {s : State} (ha : s.awake = true) (hw : s.syt.calWait = true)
    (hact : s.on TXP_STAT.ACTIVE = false) : ∃ t, exec .sytVcoStart s = .next t ∧
      t.syt.calWait = false ∧ t.syt.phase = .settling ∧ 1 ≤ t.syt.kase ∧ t.syt.word = s.syt.word ∧
      t.on RFA_CAL_CTRL.SYT_VCO = s.on RFA_CAL_CTRL.SYT_VCO ∧ t.tempConv = true ∧ (∀ z, z ≠ .syt → t.syn z = s.syn z) ∧
      { t with regs := s.regs, sya := s.sya, syb := s.syb, syt := s.syt, tempConv := s.tempConv } = s.touch := by
  obtain ⟨u, hu⟩ : ∃ u, u = s.touch := ⟨_, rfl⟩
  have hus : ∀ z, u.syn z = s.syn z := fun z => hu ▸ s.syn_touch z
  have husyt : u.syt = s.syt := hus .syt
  obtain ⟨x, hx⟩ : ∃ x, x = u.setSyn .syt { u.syt with calWait := false } := ⟨_, rfl⟩
  have hxs : x.syn .syt = { s.syt with calWait := false } := by rw [hx, State.syn_setSyn_self, husyt]
  have hexec : exec .sytVcoStart s = .next (x.calBegin .syt) := by
    rw [hx, hu]
    exact if_pos ⟨ha, hw, by rw [hact]; rfl⟩
  obtain ⟨⟨hp, hword, hk, -⟩, htemp⟩ := x.calBegin_settles .syt
  rw [hxs] at hword
  refine ⟨_, hexec, ?_, hp, hk, hword, ?_, htemp, fun z hz => ?_, ?_⟩
  · exact (x.calWait_calBegin .syt).trans (by rw [hxs])
  · refine (State.on_of_reg (x.reg_calBegin .syt (by decide) (by decide))).trans ?_
    rw [hx, State.on_of_regs (State.setSyn_regs _ _ _), hu, State.on_of_regs s.touch_regs]
  · refine (State.calBegin_unseen (g := fun t => t.syn z) (fun t r => t.syn_of_regs r z) (fun t b => t.syn_of_tempConv b z)
      (fun t w => t.syn_setSyn_ne .syt z w hz) x).trans ?_
    rw [hx, State.syn_setSyn_ne _ _ _ _ hz, hus]
  · rw [← s.touch_regs, ← s.touch_sya, ← s.touch_syb, ← s.touch_syt, ← s.touch_tempConv, ← hu]
    refine (State.calBegin_unseen (y := .syt) (g := fun t : State => { t with
      regs := u.regs, sya := u.sya, syb := u.syb, syt := u.syt, tempConv := u.tempConv }) (fun _ _ => rfl) (fun _ _ => rfl)
      (fun _ _ => rfl) x).trans ?_
    rw [hx]
    rfl

/-! TEMP_CONVERSION_END (R67). -/

/-- A value of 12 signed bits is read back from its two's complement. -/
theorem signed_twos12 {i : Int} (h1 : -2048 ≤ i) (h2 : i ≤ 2047) : signed 12 (twos 12 i) = i := by
  unfold signed twos
  norm_num
  split <;> omega

theorem clampInt_bounds (lo hi i : Int) (h : lo ≤ hi) : lo ≤ clampInt lo hi i ∧ clampInt lo hi i ≤ hi := by
  unfold clampInt
  omega

theorem State.fld_tempTake (u : State) (raw : Int) : let t := (u.tempTake raw).setFld RFA_TEMP.START 0
    t.temp = clampInt (-2048) 2047 (raw + signed 8 (u.fld RFA_TEMP.OFFSET)) ∧ t.on RFA_TEMP.START = false ∧
      t.fld RFA_TEMP.SEQ = (u.fld RFA_TEMP.SEQ + 1) % 256 ∧ t.fld RFA_TEMP.OFFSET = u.fld RFA_TEMP.OFFSET ∧
      u.onlyReg t RFA_TEMP.off := by
  obtain ⟨i, hi⟩ : ∃ i, i = clampInt (-2048) 2047 (raw + signed 8 (u.fld RFA_TEMP.OFFSET)) := ⟨_, rfl⟩
  obtain ⟨hlo, hhi⟩ := clampInt_bounds (-2048) 2047 (raw + signed 8 (u.fld RFA_TEMP.OFFSET)) (by decide)
  have hfit : twos 12 i < 2 ^ 12 := by
    unfold twos
    omega
  have ht : u.tempTake raw = (u.setFld RFA_TEMP.TEMP (twos 12 i)).setFld RFA_TEMP.SEQ (u.fld RFA_TEMP.SEQ + 1) := by
    rw [hi]
    unfold State.tempTake State.incMod
    dsimp only
    rw [State.fld_setFld_other _ _ _ _ (by decide)]
  rw [← hi] at hlo hhi ⊢
  rw [ht]
  refine ⟨?_, State.on_setFld_zero _ _ (by decide), ?_, ?_,
    (((State.onlyReg_refl u RFA_TEMP.off).setFld rfl _).setFld rfl _).setFld rfl _⟩
  · unfold State.temp
    rw [State.fld_setFld_other _ _ _ _ (by decide), State.fld_setFld_other _ _ _ _ (by decide),
      State.fld_setFld_fits _ _ _ (by decide) hfit, signed_twos12 hlo hhi]
  · rw [State.fld_setFld_other _ _ _ _ (by decide), State.fld_setFld _ _ _ (by decide)]
    rfl
  · rw [State.fld_setFld_other _ _ _ _ (by decide), State.fld_setFld_other _ _ _ _ (by decide),
      State.fld_setFld_other _ _ _ _ (by decide)]


theorem State.onlyReg.converted {u v t : State} {n : Nat} (h : v.onlyReg t n)
    (hv : ({ v with tempConv := true } : State) = u) : u.onlyReg { t with tempConv := true } n := by
  have hr : v.regs = u.regs := hv ▸ rfl
  obtain ⟨hreg, hsame⟩ := h
  refine ⟨fun o ho => (State.reg_of_regs (s := t) (t := { t with tempConv := true }) rfl o).trans
    ((hreg o ho).trans (State.reg_of_regs hr o)), ?_⟩
  rw [← hr]
  exact (congrArg (fun x : State => { x with tempConv := true }) hsame).trans hv

theorem exec_tempConversionEnd {s : State} (raw : Int) (h : s.tempConv = true) :
    ∃ t, exec (.tempConversionEnd raw) s = .next t ∧ t.tempConv = false ∧
      t.temp = clampInt (-2048) 2047 (raw + signed 8 (s.fld RFA_TEMP.OFFSET)) ∧ t.on RFA_TEMP.START = false ∧
      t.fld RFA_TEMP.SEQ = (s.fld RFA_TEMP.SEQ + 1) % 256 ∧ t.fld RFA_TEMP.OFFSET = s.fld RFA_TEMP.OFFSET ∧
      s.touch.onlyReg { t with tempConv := true } RFA_TEMP.off := by
  obtain ⟨u, hu⟩ : ∃ u, u = s.touch := ⟨_, rfl⟩
  obtain ⟨v, hv⟩ : ∃ v : State, v = { u with tempConv := false } := ⟨_, rfl⟩
  have hback : ({ v with tempConv := true } : State) = u := by
    have htc : u.tempConv = true := by rw [hu, s.touch_tempConv, h]
    rw [hv, ← htc]
  have hexec : exec (.tempConversionEnd raw) s = .next ((v.tempTake raw).setFld RFA_TEMP.START 0) := by
    show execTempConversionEnd raw s = _
    unfold execTempConversionEnd
    rw [if_pos h, hv, hu]
  have hfld : ∀ f, v.fld f = s.fld f := fun f => by rw [hv, State.fld_withTempConv, hu, State.fld_of_regs s.touch_regs]
  have htake := v.fld_tempTake raw
  dsimp only at htake
  generalize (v.tempTake raw).setFld RFA_TEMP.START 0 = t at hexec htake
  obtain ⟨htemp, hstart, hseq, hofs, honly⟩ := htake
  have hconv : ({ t with regs := v.regs } : State).tempConv = v.tempConv := congrArg State.tempConv honly.2
  rw [hfld] at htemp hseq hofs
  rw [← hu]
  exact ⟨t, hexec, hconv.trans (by rw [hv]), htemp, hstart, hseq, hofs, honly.converted hback⟩

theorem execSynthUnlock_unlocks {s : State} {y : Syn} (ha : s.awake = true) (hp : (s.syn y).phase = .locked)
    (hl : s.lanes = []) (ho : s.ops = []) : ∃ t, exec (.synthUnlock y) s = .next t ∧ s.Unlocked y t := by
  have h := State.synUnlock_unlocked (s := s.touch) ((congrArg Synth.phase (s.syn_touch y)).trans hp) (s.touch_lanes.trans hl)
    (s.touch_ops.trans ho)
  have hexec : exec (.synthUnlock y) s = .next (s.touch.synUnlock y) := if_pos ⟨by rw [hp]; rfl, ha⟩
  refine ⟨_, hexec, h.unlk, ?_, ?_, h.lock, h.temp, fun z hz => (h.others z hz).trans (s.syn_touch z), fun c hc hr => ?_⟩
  · rw [h.count, State.fld_of_regs s.touch_regs]
  · rw [← s.syn_touch]
    exact h.syn
  · exact h.gap c hc ((State.palRuns_of_reg (State.reg_of_regs s.touch_regs _) c).trans hr)

/-- The IQ calibration of a chain ends, and the other's bit stays. -/
theorem execCalibrationEnd_iqBits {s : State} {c : CalKind} (band : Nat) (ha : s.awake = true) (hc : calSyn c = none)
    (hv : s.on (calFld c) = true) {g : Fld} (hg : (calFld c).apart g = true) :
    ∃ t, exec (.calibrationEnd c band) s = .next t ∧ t.on (calFld c) = false ∧ t.on g = s.on g ∧
      s.touch.onlyReg t RFA_CAL_CTRL.off := by
  refine ⟨_, execCalibrationEnd_iq band ha hc hv, State.on_setFld_zero _ _ (by cases c <;> decide), ?_,
    (State.onlyReg_refl _ _).setFld (by cases c <;> rfl) 0⟩
  rw [State.on_setFld_other _ _ _ _ hg, State.on_of_regs s.touch_regs]

/-- Settles O49: a tune, a lock, a timeout, an unlock and a calibration each reach one synthesiser. That GAP is set for every
running Palette, WR_n = 0 included, is the model's choice (log entry 171). -/
theorem synthesisersTuneLockAndCalibrate : Obligations.SynthesisersTuneLockAndCalibrate := by
  unfold Obligations.SynthesisersTuneLockAndCalibrate
  refine ⟨fun y band s x ha hx hl => ?_, fun band s ha => ⟨fun hv => ?_, fun hv => ?_⟩,
    fun raw s h => exec_tempConversionEnd raw h⟩
  · subst hx
    intro u others only
    refine ⟨fun q hq hw hlt hp hact hd => execTuneStart_tunes ha rfl hl hq hw hlt hp hact hd,
      fun f tk hq _ hd hact => execTuneStart_off ha rfl hl hq hd hact, fun hp hr => ?_, fun hp ho => ?_, ?_⟩
    · have hs := State.settles_touch ha hp hr
      intro locked
      refine ⟨fun hv hal => ⟨execSynthLock_locks band hs hv hal, fun q id o k hcur hop hops hk hph hln hctx _ hsus =>
          execSynthLock_ends band hs hv hal hcur hop ⟨hops, hctx, hln, hsus⟩ hk hph⟩, fun hv ho hal => ?_,
        execLockTimeout_early, fun hsec hrch => execLockTimeout_first hs hsec hrch,
        fun q id o k hsec hrch hd hcur hop hq hops hk hph hln hctx hod hsus hf hev =>
          execLockTimeout_second hs hsec hrch hd hcur hop hq ⟨hops, hctx, hln, hsus⟩ hk hph hod hf hev⟩
      exact execCalibrationEnd_locks band ha hs (by cases y <;> exact ⟨rfl, rfl⟩) hv hal ho
    · obtain ⟨t, ht, h⟩ := execSynthUnlock_unlocks ha hp hl ho
      obtain ⟨hph, hword, hkase, hsec⟩ := h.syn
      exact ⟨t, ht, h.unlk, h.count, hph, hword, hkase, hsec, h.lock, h.temp, h.others, h.gap⟩
    · rintro rfl hw hact
      exact execSytVcoStart_settles ha hw hact
  · exact execCalibrationEnd_iqBits (c := .rxaIq) (g := RFA_CAL_CTRL.RXB_IQ) band ha rfl hv (by decide)
  · exact execCalibrationEnd_iqBits (c := .rxbIq) (g := RFA_CAL_CTRL.RXA_IQ) band ha rfl hv (by decide)
end Sys2Proof.Machine

/-! Radio instructions: what they share as they issue (R287, R290, R309). -/

namespace Sys2Proof.Machine

/-! Encodings and descriptors. -/

/-- x within its mask, and b unused or allowed. -/
theorem radioOk_of {w j : Nat} {useB : Bool} (hx : fx w < 2 ^ j) (hb : useB = true ∨ fb w = 0) :
    radioOk w (2 ^ j - 1) useB = true := by
  unfold radioOk
  rw [Nat.and_two_pow_sub_one_eq_mod, Nat.mod_eq_of_lt hx]
  rcases hb with rfl | hb
  · simp
  · simp [hb]

/-- A descriptor in clean memory is read without an error. -/
theorem State.radio_clean {u : State} {k : Fin 64} {w a : Nat} {f : State → Desc → State}
    (ha : ((u.cx k.val).rd (fa w)).toNat = a) (h8 : a % 8 = 0) (hs : spanOk a 32 = true) (hc : u.clean a 32) :
    u.radio k w .none f = f u (u.desc k.val a) := by
  have hb : u.block a 32 .none = (u, 0) := by
    have hok : operandOk a 32 8 = true := by
      unfold operandOk
      rw [h8]
      exact hs
    unfold State.block
    rw [hok, State.access_clean u a 32 hc]
    rfl
  unfold State.radio
  dsimp only
  rw [ha, hb]
  rfl

/-- An operation whose fields are good begins while CMR has not failed. -/
theorem State.radioGo_runs {u : State} {k : Fin 64} {d : Nat} {ok : Bool} {f : State → State} (hok : ok = true)
    (hc : u.cmr.st ≠ 6) : u.radioGo k d ok f = f (u.next k) := by
  have hdead : (u.next k).radioDead = false := beq_eq_false_iff_ne.mpr hc
  unfold State.radioGo
  dsimp only
  rw [hok, hdead]
  rfl

/-- An instruction that ends at once after its advance has answered. -/
theorem State.radioNow_next {u : State} {k : Fin 64} {c : Ctx} (hc : u.cx k.val = c) (h : c.st = .ready)
    (d status extra : Nat) : (u.next k).radioNow k d status extra = u.answered k c d (u.radioWord status false extra) :=
  u.finish_next k d _ hc h

theorem State.radioGo_bad {u : State} {k : Fin 64} {c : Ctx} (hc : u.cx k.val = c) (h : c.st = .ready) {d : Nat} {ok : Bool}
    {f : State → State} (hok : ok = false) : u.radioGo k d ok f = u.answered k c d (u.radioWord Status.badCommand false 0) := by
  rw [← State.radioNow_next hc h]
  unfold State.radioGo
  dsimp only
  rw [hok]
  rfl

theorem State.radioGo_lost {u : State} {k : Fin 64} {c : Ctx} (hc : u.cx k.val = c) (h : c.st = .ready) {d : Nat} {ok : Bool}
    {f : State → State} (hok : ok = true) (hd : u.cmr.st = 6) :
    u.radioGo k d ok f = u.answered k c d (u.radioWord Status.radioLost false 0) := by
  have hdead : (u.next k).radioDead = true := beq_iff_eq.mpr hd
  rw [← State.radioNow_next hc h]
  unfold State.radioGo
  dsimp only
  rw [hok, hdead]
  rfl

/-- Without AT no launcher is asked for. -/
theorem State.withLnch_none (u : State) (k : Fin 64) (d : Nat) (x : Desc) (f : Option (Fin 32) → State) :
    u.withLnch k d false x f = f none := rfl

/-- A launcher that is off is taken. -/
theorem State.withLnch_off {u : State} {k : Fin 64} {d : Nat} {x : Desc} {f : Option (Fin 32) → State} (hn : x.lnch < 32)
    (h : u.launcher x.lnch = Lnch.off) : u.withLnch k d true x f = f (some ⟨x.lnch, hn⟩) := by
  have hp : u.lnPick x.lnch k = some (some ⟨x.lnch, hn⟩) := u.lnPick_named k ⟨x.lnch, hn⟩ (by rw [h]; rfl)
  unfold State.withLnch
  rw [hp]
  rfl

/-! The launcher of an operation (R291). -/

theorem State.lnFree_none {u : State} {n : Nat} (h : (u.launcher n).op = none) : u.lnFree n = u := by
  unfold State.lnFree
  rw [h]

theorem State.armRadio_eq {u : State} {n : Fin 32} (h : (u.launcher n.val).op = none) (t rep pol : Nat) (k : Fin 64) (id : Nat)
    (late : Bool) : ∃ arg, u.armRadio n t rep pol k id late =
      (u.draw.lnArmInstr n.val t 1 arg rep pol k (some id)).setLauncher n.val ⟨true, t, 1, arg, rep, pol, some k, some id, late, none⟩ := by
  unfold State.armRadio
  dsimp only
  rw [State.lnFree_none h]
  obtain ⟨-, hl⟩ := u.draw.lnArmInstr_arms n.val t 1 (Config.unmeasured u.free % 256) rep pol k (some id)
  refine ⟨Config.unmeasured u.free % 256, ?_⟩
  rw [hl n.val, if_pos rfl]

/-- The launcher that an operation has armed. -/
theorem State.launcher_armRadio {u : State} {n : Fin 32} (h : (u.launcher n.val).op = none) (t rep pol : Nat) (k : Fin 64)
    (id : Nat) (late : Bool) : ∃ arg, (u.armRadio n t rep pol k id late).launcher n.val =
      ⟨true, t, 1, arg, rep, pol, some k, some id, late, none⟩ := by
  obtain ⟨arg, he⟩ := State.armRadio_eq h t rep pol k id late
  refine ⟨arg, ?_⟩
  rw [he, State.launcher_setLauncher_self]

theorem State.armRadio_unseen {β : Type} {g : State → β} (hl : ∀ t r l, g { t with regs := r, lnch := l } = g t)
    (hf : ∀ t n, g { t with free := n } = g t) {u : State} {n : Fin 32} (h : (u.launcher n.val).op = none) (t rep pol : Nat)
    (k : Fin 64) (id : Nat) (late : Bool) : g (u.armRadio n t rep pol k id late) = g u := by
  obtain ⟨arg, he⟩ := State.armRadio_eq h t rep pol k id late
  rw [he, State.setLauncher_unseen (fun t l => hl t t.regs l), State.lnArmInstr_unseen hl]
  exact hf u _

/-- Arming writes the registers of the launchers alone. -/
theorem State.reg_armRadio {u : State} {n : Fin 32} (h : (u.launcher n.val).op = none) (t rep pol : Nat) (k : Fin 64) (id : Nat)
    (late : Bool) {o : Nat} (ho : o < 0x5100 ∨ 0x5300 ≤ o) : (u.armRadio n t rep pol k id late).reg o = u.reg o := by
  have hlt := n.isLt
  have hne : o ≠ CVN_Ln_TIME_LO.off n.val ∧ o ≠ CVN_Ln_TIME_HI.off n.val ∧ o ≠ CVN_Ln_ACT.off n.val := by
    unfold CVN_Ln_TIME_LO.off CVN_Ln_TIME_HI.off CVN_Ln_ACT.off
    omega
  obtain ⟨hlo, hhi, hact⟩ := hne
  have hfld : ∀ (v : State) (f : Fld) (x : Nat), f.off = CVN_Ln_TIME_LO.off n.val ∨ f.off = CVN_Ln_ACT.off n.val →
      (v.setFld f x).reg o = v.reg o := fun v f x hf => by
    refine State.reg_setFld_ne _ _ _ _ ?_
    rcases hf with e | e <;> rw [e] <;> assumption
  obtain ⟨arg, he⟩ := State.armRadio_eq h t rep pol k id late
  rw [he, State.reg_setLauncher]
  unfold State.lnArmInstr
  dsimp only
  rw [State.reg_lnArm_ne _ _ _ _ hact, hfld _ _ _ (.inr rfl), hfld _ _ _ (.inr rfl), hfld _ _ _ (.inr rfl),
    hfld _ _ _ (.inr rfl), State.reg_setReg_ne _ _ _ _ hhi, hfld _ _ _ (.inl rfl), hfld _ _ _ (.inl rfl)]
  rfl

/-! The context of an operation. -/

theorem State.fetched_opNext (s : State) (k : Fin 64) (env : Env) : (s.fetched k env).opNext = s.opNext := by
  have hspan := (State.Books.refl ((s.touch.upset env).setCx k.val
    { s.cx k.val with since := (s.touch.upset env).stamp })).readSpan (4 * (s.cx k.val).p.toNat) 4
  have hupset := (State.Books.refl s.touch).upset env
  have hm : (s.touch.upset env).opNext = s.opNext := (congrArg State.opNext hupset).trans s.touch_opNext
  exact (congrArg State.opNext hspan).trans hm

theorem State.addOp_next (s : State) (k : Fin 64) (o : RadioOp) : (s.next k).addOp o = (s.addOp o).next k := (rfl)

/-- An operation added, its context parked on it. -/
theorem State.addOp_parks {u : State} {k : Fin 64} {c : Ctx} (hc : u.cx k.val = c) (h : c.st = .ready) (o : RadioOp)
    (why : Wait) (id : Nat) :
    ((u.next k).addOp o).park k.val why (.radio id) = (u.addOp o).parked k c why (.radio id) := by
  rw [State.addOp_next]
  exact (u.addOp o).park_next k why _ hc h

theorem State.cx_parked (u : State) (k : Fin 64) (c : Ctx) (why : Wait) (what : Susp) :
    (u.parked k c why what).cx k.val = { c.next with st := .parked why, susp := what } := State.cx_setCx_self _ _ _

theorem State.op_addOp (u : State) (o : RadioOp) : (u.addOp o).op u.opNext = some o := State.op_setOp_self _ _ _


/-! A radio instruction that issues. -/

/-- Context `k`, with the registers `c`, is about to issue the radio instruction `w`; `u` is the state after the fetch, `x` its
descriptor, read without an error. -/
structure State.Radio (s : State) (k : Fin 64) (env : Env) (w : Nat) (u : State) (c : Ctx) (x : Desc) : Prop where
  fetch : s.fetches k env w
  state : s.fetched k env = u
  ctx : u.cx k.val = c
  desc : u.desc k.val (c.rd (fa w)).toNat = x
  align : (c.rd (fa w)).toNat % 8 = 0
  span : spanOk (c.rd (fa w)).toNat 32 = true
  clean : u.clean (c.rd (fa w)).toNat 32

namespace State.Radio

variable {s u : State} {k : Fin 64} {env : Env} {w : Nat} {c : Ctx} {x : Desc}

theorem ready (r : s.Radio k env w u c x) : c.st = .ready := by
  rw [← r.ctx, ← r.state]
  exact State.fetched_ready r.fetch

theorem opNext (r : s.Radio k env w u c x) : u.opNext = s.opNext := by
  rw [← r.state, State.fetched_opNext]

/-- The instruction's effect is that on the descriptor. -/
theorem radio (r : s.Radio k env w u c x) (f : State → Desc → State) : u.radio k w env.parity f = f u x := by
  rw [State.fetches_parity r.fetch, State.radio_clean (congrArg (fun c : Ctx => (c.rd (fa w)).toNat) r.ctx) r.align r.span r.clean,
    r.desc]

/-- The context after its advance. -/
theorem cx_next (r : s.Radio k env w u c x) : (u.next k).cx k.val = c.next := by
  unfold State.next
  rw [State.cx_setCx_self, r.ctx]

/-- An operation added, its context parked on it. -/
theorem adds (r : s.Radio k env w u c x) (o : RadioOp) (why : Wait) (id : Nat) :
    ((u.next k).addOp o).park k.val why (.radio id) = (u.addOp o).parked k c why (.radio id) :=
  State.addOp_parks r.ctx r.ready o why id

end State.Radio


/-! TUNE with AT (R291). -/

/-- x and b of a radio instruction that names AT alone. -/
theorem atAlone {w : Nat} (h : natBits w 17 2 = 1) :
    fb w = 0 ∧ fx w < 2 ^ 3 ∧ w.testBit 2 = true ∧ w.testBit 3 = false ∧ w.testBit 4 = false := by
  rw [testBit_eq_natBits, testBit_eq_natBits, testBit_eq_natBits]
  unfold fb fx
  simp only [natBits_eq_div_mod] at h ⊢
  refine ⟨?_, ?_, ?_, ?_, ?_⟩
  · omega
  · omega
  · exact decide_eq_true (by omega)
  · exact decide_eq_false (by omega)
  · exact decide_eq_false (by omega)

section
variable {s u : State} {k : Fin 64} {env : Env} {w : Nat} {c : Ctx} {x : Desc}

/-- The operation of a TUNE with AT on launcher `n`. -/
def Desc.tuneOp (x : Desc) (k : Fin 64) (d : Nat) (c : Ctx) (n : Fin 32) (t : Nat) : RadioOp :=
  { x.op .tune k d c.next with phase := .release, at_ := true, lnch := some n, t := t }

theorem State.tuneOk_at {u : State} {x : Desc} (hfr : x.freq < 2 ^ 17) (hch : x.chain < 3) (hln : x.lnch < 32)
    (hpol : x.pol ≠ 3) (hwd : wordOk (wordOf2 (2 * x.freq)) = true) (hpair : x.chain = 1 → u.single = false ∧ u.diversity = false) :
    u.tuneOk x true false = true := by
  have hboth : (x.chain == 1 && (u.single || u.diversity)) = false := by
    by_cases h : x.chain = 1
    · obtain ⟨h1, h2⟩ := hpair h
      simp [h1, h2]
    · simp [h]
  unfold State.tuneOk Desc.freqOk Desc.lnchOk
  simp [show x.freq < 131072 from hfr, hch, hln, hpol, hwd, hboth]

theorem State.Radio.tune_at (r : s.Radio k env w u c x) (ho : natBits w 31 26 = 0x30) (hx : natBits w 17 2 = 1)
    (hcmr : u.cmr.st ≠ 6) (hok : u.tuneOk x true false = true) (hln : x.lnch < 32) (hoff : u.launcher x.lnch = Lnch.off) :
    exec (.opTune k env) s = .next (((u.addOp (x.tuneOp k (fd w) c ⟨x.lnch, hln⟩ (c.stampOf (natBits w 1 0)))).parked k c .radio
      (.radio u.opNext)).armRadio ⟨x.lnch, hln⟩ (c.stampOf (natBits w 1 0)) 0 x.pol k u.opNext
        (u.lateArm (c.stampOf (natBits w 1 0)))) := by
  obtain ⟨hfb, hfx, h2, h3, h4⟩ := atAlone hx
  have henc : (radioOk w 0x1F false && tsOk w) = true := by
    have h5 : radioOk w (2 ^ 5 - 1) false = true := radioOk_of (by omega) (.inr hfb)
    unfold tsOk atBit
    rw [h2]
    simpa using h5
  show execOpTune k env s = _
  unfold execOpTune
  rw [State.issue_fetches r.fetch ho, State.coded_ok _ _ _ henc, r.state, r.radio]
  dsimp only
  rw [State.radioGo_runs (by unfold atBit; rw [h2, h3]; exact hok) hcmr]
  unfold atBit
  rw [h2, h3, h4, State.withLnch_off (u := u.next k) hln hoff]
  dsimp only
  rw [r.cx_next]
  unfold State.tuneAt
  dsimp only
  rw [r.adds]
  rfl

theorem State.Radio.tune_armed (r : s.Radio k env w u c x) (ho : natBits w 31 26 = 0x30) (hx : natBits w 17 2 = 1)
    (hcmr : u.cmr.st ≠ 6) (hok : u.tuneOk x true false = true) (hln : x.lnch < 32) (hoff : u.launcher x.lnch = Lnch.off) :
    ∃ t o, exec (.opTune k env) s = .next t ∧
      t.cx k.val = { c.next with st := .parked .radio, susp := .radio s.opNext } ∧
      (∃ arg, t.launcher x.lnch = ⟨true, c.stampOf (natBits w 1 0), 1, arg, 0, x.pol, some k, some s.opNext,
        u.lateArm (c.stampOf (natBits w 1 0)), none⟩) ∧
      t.op s.opNext = some o ∧ o = x.tuneOp k (fd w) c ⟨x.lnch, hln⟩ (c.stampOf (natBits w 1 0)) ∧ t.opNext = s.opNext + 1 ∧
      { t with regs := u.regs, ctx := u.ctx, ops := u.ops, opNext := s.opNext, lnch := u.lnch, free := u.free } = u := by
  have hexec := r.tune_at ho hx hcmr hok hln hoff
  rw [← r.opNext]
  generalize x.tuneOp k (fd w) c ⟨x.lnch, hln⟩ (c.stampOf (natBits w 1 0)) = o at hexec ⊢
  generalize c.stampOf (natBits w 1 0) = t0 at hexec ⊢
  obtain ⟨v, hv⟩ : ∃ v, v = (u.addOp o).parked k c .radio (.radio u.opNext) := ⟨_, rfl⟩
  have hvl : (v.launcher (⟨x.lnch, hln⟩ : Fin 32).val).op = none := by
    rw [hv]
    exact congrArg Lnch.op hoff
  rw [← hv] at hexec
  refine ⟨_, o, hexec, ?_, State.launcher_armRadio hvl _ _ _ _ _ _, ?_, rfl, ?_, ?_⟩
  · rw [State.armRadio_unseen (g := fun t => t.cx k.val) (fun _ _ _ => rfl) (fun _ _ => rfl) hvl, hv, State.cx_parked]
  · rw [State.armRadio_unseen (g := fun t => t.op u.opNext) (fun _ _ _ => rfl) (fun _ _ => rfl) hvl, hv]
    exact u.op_addOp o
  · rw [State.armRadio_unseen (g := State.opNext) (fun _ _ _ => rfl) (fun _ _ => rfl) hvl, hv]
    rfl
  · refine (State.armRadio_unseen (g := fun t : State => { t with
      regs := u.regs, ctx := u.ctx, ops := u.ops, opNext := u.opNext, lnch := u.lnch, free := u.free })
      (fun _ _ _ => rfl) (fun _ _ => rfl) hvl _ _ _ _ _ _).trans ?_
    rw [hv]
    rfl
end

/-! RXWIN without AT (R291). -/

theorem State.answered_unseen {β : Type} {g : State → β} (hc : ∀ t c, g { t with ctx := c } = g t)
    (hp : ∀ t p, g { t with pwr := p } = g t) (u : State) (k : Fin 64) (c : Ctx) (d w : Nat) : g (u.answered k c d w) = g u :=
  (State.leaveIdle_unseen hp _).trans (hc u _)

/-- What an instruction that ends at once gives its context. -/
theorem State.answered_radio (u : State) (k : Fin 64) (c : Ctx) (d : Nat) {status : Nat} (h : status < 256) (late : Bool)
    (extra : Nat) : (u.answered k c d (u.radioWord status late extra)).cx k.val =
      { c.next.wr d (BitVec.ofNat 32 (u.radioWord status late extra)) with
        st := .ready, susp := .none, z := decide (status = 0), since := u.stamp } := by
  rw [State.answered_cx_self, u.radioWord_mod h]

theorem State.winFree_first {u : State} {i : Nat} (hi : i < 128) (h : u.win i = none) (hj : ∀ j, j < i → u.win j ≠ none) :
    u.winFree = some i := by
  unfold State.winFree
  rw [List.find?_range_eq_some]
  refine ⟨by rw [h]; rfl, List.mem_range.mpr hi, fun j hlt => ?_⟩
  rw [Option.isNone_eq_false_iff.mpr (Option.isSome_iff_ne_none.mpr (hj j hlt))]
  rfl

/-- The windows with one placed. -/
def State.setWin (u : State) (i : Nat) (y : RxWin) : State := { u with wins := Tab.set (fun _ => none) u.wins i (some y) }

theorem State.win_setWin (u : State) (i j : Nat) (y : RxWin) : (u.setWin i y).win j = if j = i then some y else u.win j := by
  unfold State.win State.setWin
  rw [Tab.get_set]

section
variable {s u : State} {k : Fin 64} {env : Env} {w : Nat} {c : Ctx} {x : Desc}

theorem rxwinBits {w : Nat} (h : natBits w 17 5 = 0) (h0 : natBits w 3 0 = 0) :
    fb w = 0 ∧ fx w < 2 ^ 5 ∧ w.testBit 2 = false ∧ w.testBit 3 = false ∧ natBits w 1 0 = 0 := by
  rw [testBit_eq_natBits, testBit_eq_natBits]
  unfold fb fx
  simp only [natBits_eq_div_mod] at h h0 ⊢
  refine ⟨?_, ?_, ?_, ?_, ?_⟩
  · omega
  · omega
  · exact decide_eq_false (by omega)
  · exact decide_eq_false (by omega)
  · omega

theorem State.Radio.rxwin_placed (r : s.Radio k env w u c x) (ho : natBits w 31 26 = 0x31) (hb : natBits w 17 5 = 0)
    (h0 : natBits w 3 0 = 0) (hcmr : u.cmr.st ≠ 6) (hfr : x.freqOk = true) (hmode : x.modeOk = true) (hch : x.rxOk = true)
    (hp : x.pidxOk = true) {i : Nat} (hfree : u.winFree = some i) :
    let y : RxWin := ⟨x.pidx, x.rx, x.freq, 2 ^ x.width, u.stamp, u.stamp + x.span * 6000, w.testBit 4, false⟩
    exec (.opRxwin k env) s = .next ((u.setWin i y).answered k c (fd w) (u.radioWord 0 false i)) := by
  obtain ⟨hfb, hfx, h2, h3, hts⟩ := rxwinBits hb h0
  have henc : (radioOk w 0x1F false && tsOk w) = true := by
    have h5 : radioOk w (2 ^ 5 - 1) false = true := radioOk_of hfx (.inr hfb)
    unfold tsOk
    rw [hts]
    simpa using h5
  have hok : (x.freqOk && x.modeOk && x.rxOk && x.pidxOk && x.lnchOk false && (!false || x.pol != 3)) = true := by
    rw [hfr, hmode, hch, hp]
    rfl
  intro y
  show execOpRxwin k env s = _
  unfold execOpRxwin
  rw [State.issue_fetches r.fetch ho, State.coded_ok _ _ _ henc, r.state, r.radio]
  dsimp only
  unfold atBit
  rw [h2, h3, if_neg (by decide), State.radioGo_runs hok hcmr, State.withLnch_none]
  unfold State.winAdd
  dsimp only
  have hf : (u.next k).winFree = some i := hfree
  rw [hf]
  exact congrArg _ (State.radioNow_next (u := u.setWin i y) r.ctx r.ready (fd w) Status.ok i)

theorem State.Radio.rxwin_answers (r : s.Radio k env w u c x) (ho : natBits w 31 26 = 0x31) (hb : natBits w 17 5 = 0)
    (h0 : natBits w 3 0 = 0) (hcmr : u.cmr.st ≠ 6) (hfr : x.freqOk = true) (hmode : x.modeOk = true) (hch : x.rxOk = true)
    (hp : x.pidxOk = true) {i : Nat} (hfree : u.winFree = some i) :
      ∃ t, exec (.opRxwin k env) s = .next t ∧
        t.cx k.val = { c.next.wr (fd w) (BitVec.ofNat 32 (u.radioWord 0 false i)) with
          st := .ready, susp := .none, z := true, since := u.stamp } ∧
        t.win i = some ⟨x.pidx, x.rx, x.freq, 2 ^ x.width, u.stamp, u.stamp + x.span * 6000, w.testBit 4, false⟩ ∧
        (∀ j, j ≠ i → t.win j = u.win j) ∧ { t with ctx := u.ctx, wins := u.wins, pwr := u.pwr } = u := by
  have hexec := r.rxwin_placed ho hb h0 hcmr hfr hmode hch hp hfree
  dsimp only at hexec
  generalize (⟨x.pidx, x.rx, x.freq, 2 ^ x.width, u.stamp, u.stamp + x.span * 6000, w.testBit 4, false⟩ : RxWin) = y at hexec ⊢
  have hwin : ∀ j, ((u.setWin i y).answered k c (fd w) (u.radioWord 0 false i)).win j = (u.setWin i y).win j := fun j =>
    State.answered_unseen (g := fun t => t.win j) (fun _ _ => rfl) (fun _ _ => rfl) _ _ _ _ _
  refine ⟨_, hexec, ?_, ?_, fun j hj => ?_, ?_⟩
  · exact (u.setWin i y).answered_radio k c (fd w) (status := 0) (by decide) false i
  · rw [hwin, State.win_setWin, if_pos rfl]
  · rw [hwin, State.win_setWin, if_neg hj]
  · exact State.answered_unseen (g := fun t : State => { t with ctx := u.ctx, wins := u.wins, pwr := u.pwr })
      (fun _ _ => rfl) (fun _ _ => rfl) _ _ _ _ _

end

/-! LBT (R119). -/

section
variable {s u : State} {k : Fin 64} {env : Env} {w : Nat} {c : Ctx} {x : Desc}

theorem lbtBits {w : Nat} (h : natBits w 17 3 = 0) (hts : w.testBit 2 = true ∨ natBits w 1 0 = 0) :
    (radioOk w 7 false && tsOk w) = true := by
  have hfb : fb w = 0 := by
    unfold fb
    simp only [natBits_eq_div_mod] at h ⊢
    omega
  have hfx : fx w < 2 ^ 3 := by
    unfold fx
    simp only [natBits_eq_div_mod] at h ⊢
    omega
  have h3 : radioOk w (2 ^ 3 - 1) false = true := radioOk_of hfx (.inr hfb)
  unfold tsOk atBit
  rcases hts with h2 | h0
  · rw [h2]
    simpa using h3
  · rw [h0]
    simpa using h3

/-- The operation of an LBT, its listen time drawn from the `n`th free value. -/
def State.lbtOp (u : State) (x : Desc) (k : Fin 64) (w : Nat) (c : Ctx) : RadioOp :=
  (u.drawListen { x.op .lbt k (fd w) c.next with
    origin := u.stamp, at_ := atBit w, t := if atBit w then c.stampOf (natBits w 1 0) else u.stamp
    ant := u.txAnt false 0xFFFF none (wordOf2 (2 * x.freq)) }).2

theorem State.lbtOp_lbt (u : State) (x : Desc) (k : Fin 64) (w : Nat) (c : Ctx) : let o := u.lbtOp x k w c
    o.kind = .lbt ∧ o.ctx = some k ∧ o.lnch = none ∧ o.phase = .release ∧ o.late = false ∧ o.d = fd w :=
  ⟨rfl, rfl, rfl, rfl, rfl, rfl⟩

theorem State.Radio.lbt_eq (r : s.Radio k env w u c x) (ho : natBits w 31 26 = 0x33) (hb : natBits w 17 3 = 0)
    (hts : w.testBit 2 = true ∨ natBits w 1 0 = 0) : exec (.opLbt k env) s =
      .next (u.radioGo k (fd w) (x.freqOk && x.modeOk) (fun s =>
      let c := s.cx k.val
      let o := x.op .lbt k (fd w) c
      let id := s.opNext
      let q := s.drawListen { o with
        origin := s.stamp, at_ := atBit w, t := if atBit w then c.ts w else s.stamp
        ant := s.txAnt false 0xFFFF none (wordOf2 o.freq) }
      let s := (q.1.addOp q.2).park k.val .radio (.radio id)
      if atBit w then s else s.lbtDecide id q.2 s.stamp)) := by
  show execOpLbt k env s = _
  unfold execOpLbt
  rw [State.issue_fetches r.fetch ho, State.coded_ok _ _ _ (lbtBits hb hts), r.state, r.radio]

theorem State.Radio.lbt_begins (r : s.Radio k env w u c x) (ho : natBits w 31 26 = 0x33) (hb : natBits w 17 3 = 0)
    (hts : w.testBit 2 = true ∨ natBits w 1 0 = 0) (hok : (x.freqOk && x.modeOk) = true) (hcmr : u.cmr.st ≠ 6) :
    let v := (u.draw.addOp (u.lbtOp x k w c)).parked k c .radio (.radio u.opNext)
    exec (.opLbt k env) s = .next (if atBit w then v else v.lbtDecide u.opNext (u.lbtOp x k w c) v.stamp) := by
  intro v
  rw [r.lbt_eq ho hb hts, State.radioGo_runs hok hcmr]
  dsimp only
  rw [r.cx_next]
  have hpark : ((u.draw.next k).addOp (u.lbtOp x k w c)).park k.val .radio (.radio u.opNext) = v :=
    State.addOp_parks (u := u.draw) r.ctx r.ready _ _ _
  rw [← hpark]
  rfl

/-- LBT with AT waits for its stamp. -/
theorem State.Radio.lbt_waits (r : s.Radio k env w u c x) (ho : natBits w 31 26 = 0x33) (hb : natBits w 17 3 = 0)
    (hok : (x.freqOk && x.modeOk) = true) (hcmr : u.cmr.st ≠ 6) (hat : w.testBit 2 = true) :
    ∃ t, exec (.opLbt k env) s = .next t ∧ t.cx k.val = { c.next with st := .parked .radio, susp := .radio s.opNext } ∧
      t.op s.opNext = some (u.lbtOp x k w c) ∧ t.opNext = s.opNext + 1 ∧
      { t with ctx := u.ctx, ops := u.ops, opNext := s.opNext, free := u.free } = u := by
  have hexec := r.lbt_begins ho hb (.inl hat) hok hcmr
  dsimp only at hexec
  rw [show atBit w = true from hat, if_pos rfl] at hexec
  rw [← r.opNext]
  generalize u.lbtOp x k w c = q at hexec ⊢
  refine ⟨_, hexec, State.cx_parked _ _ _ _ _, u.draw.op_addOp q, rfl, ?_⟩
  unfold State.parked State.setCx State.addOp State.setOp State.draw
  dsimp only

theorem State.covers_stopped {u : State} (ha : u.palRuns .a = false) (hb : u.palRuns .b = false) (c : Chain) (freq n : Nat) :
    u.covers c freq n = none := by
  unfold State.covers
  cases c
  · rw [ha]
    rfl
  · rw [hb]
    rfl

/-- No chain covers a channel while no Palette runs. -/
theorem State.lbtTest_stopped {u : State} (ha : u.palRuns .a = false) (hb : u.palRuns .b = false) (o : RadioOp) (tr : Nat) :
    (u.lbtTest o tr).nocov = true := by
  have hnone : ∀ n, u.lbtChain o.ant o.freq n = none := fun n => by
    unfold State.lbtChain
    simp only [State.covers_stopped ha hb, Option.map_none]
  unfold State.lbtTest
  rw [hnone]

/-- An LBT that no chain covers ends with CHANNEL_BUSY and 255. -/
theorem State.lbtDecide_stopped {v : State} {o : RadioOp} {id : Nat} (ha : v.palRuns .a = false) (hb : v.palRuns .b = false)
    (hop : v.op id = some o) (hctx : o.ctx = some k) (hl : o.lnch = none) (hs : (v.cx k.val).susp = .radio id)
    (hk : o.kind = .lbt) (hp : o.phase = .release) (hlate : o.late = false) (tr : Nat) : v.lbtDecide id o tr =
      ((v.withdraw (.pa id)).dropOp id).finish k.val o.d (v.radioWord Status.channelBusy false 255) := by
  unfold State.lbtDecide
  dsimp only
  rw [State.lbtTest_stopped ha hb, if_pos rfl,
    State.opEnd_quiet hop hctx hl hs (by rw [hk]; rfl) (by rw [hp]; decide), hlate, Bool.false_and]

/-- A parked context that is made ready shows nothing of having been parked. -/
theorem Ctx.wr_parked (c : Ctx) (why : Wait) (what : Susp) (d : Nat) (v : Word) (z : Bool) (n : Nat) :
    { ({ c with st := .parked why, susp := what } : Ctx).wr d v with st := .ready, susp := .none, z := z, since := n } =
      { c.wr d v with st := .ready, susp := .none, z := z, since := n } := by
  unfold Ctx.wr
  split <;> rfl

/-- An operation added, its context parked: it stands under its number, and nothing else is seen to change. -/
theorem State.adds_to (u : State) (o : RadioOp) (k : Fin 64) (c : Ctx) (why : Wait) (what : Susp) :
    ∃ v, v = (u.addOp o).parked k c why what ∧ v.cx k.val = { c.next with st := .parked why, susp := what } ∧
      v.op u.opNext = some o ∧
      ∀ {β : Type} {g : State → β}, (∀ t o n c, g { t with ops := o, opNext := n, ctx := c } = g t) → g v = g u :=
  ⟨_, rfl, State.cx_parked _ _ _ _ _, u.op_addOp o, fun hg => hg u _ _ _⟩

theorem State.Radio.lbt_uncovered (r : s.Radio k env w u c x) (ho : natBits w 31 26 = 0x33) (hb : natBits w 17 3 = 0)
    (hts : w.testBit 2 = true ∨ natBits w 1 0 = 0) (hok : (x.freqOk && x.modeOk) = true) (hcmr : u.cmr.st ≠ 6)
    (hat : w.testBit 2 = false) (hra : u.palRuns .a = false) (hrb : u.palRuns .b = false) :
    ∃ t, exec (.opLbt k env) s = .next t ∧ t.op s.opNext = none ∧ t.regs = u.regs ∧ t.cx k.val =
      { c.next.wr (fd w) (BitVec.ofNat 32 (u.radioWord 0x12 false 255)) with
        st := .ready, susp := .none, z := false, since := u.stamp } := by
  have hexec := r.lbt_begins ho hb hts hok hcmr
  dsimp only at hexec
  rw [show atBit w = false from hat, if_neg (by decide)] at hexec
  rw [← r.opNext]
  have hlbt := u.lbtOp_lbt x k w c
  dsimp only at hlbt
  generalize u.lbtOp x k w c = q at hlbt hexec
  obtain ⟨hkind, hctx, hlnch, hph, hlate, hd⟩ := hlbt
  obtain ⟨v, hv, hcx, hop, hsame⟩ := State.adds_to u.draw q k c .radio (.radio u.opNext)
  have hun : ∀ {β : Type} {g : State → β}, (∀ t o n c, g { t with ops := o, opNext := n, ctx := c } = g t) →
      (∀ t f, g { t with free := f } = g t) → g v = g u := fun hg hf => (hsame hg).trans (hf u _)
  rw [← hv] at hexec
  rw [show u.draw.opNext = u.opNext from rfl] at hop
  have hend := State.lbtDecide_stopped ((hun (g := fun t => t.palRuns .a) (fun _ _ _ _ => rfl) fun _ _ => rfl).trans hra)
    ((hun (g := fun t => t.palRuns .b) (fun _ _ _ _ => rfl) fun _ _ => rfl).trans hrb) hop hctx hlnch (by rw [hcx]) hkind hph hlate v.stamp
  rw [hd, hun (g := fun t => t.radioWord Status.channelBusy false 255) (fun _ _ _ _ => rfl) fun _ _ => rfl] at hend
  have hw : u.radioWord Status.channelBusy false 255 % 256 = 0x12 := u.radioWord_mod (by decide) _ _
  have hst : ((v.withdraw (.pa u.opNext)).dropOp u.opNext).stamp = u.stamp := hun (g := State.stamp) (fun _ _ _ _ => rfl) fun _ _ => rfl
  have hcx' : ((v.withdraw (.pa u.opNext)).dropOp u.opNext).cx k.val = v.cx k.val := rfl
  refine ⟨_, hexec.trans (congrArg _ hend), ?_, ?_, ?_⟩
  · rw [State.finish_unseen (g := fun t => t.op u.opNext) (fun _ _ _ => rfl)]
    exact State.op_dropOp_self _ _
  · rw [State.finish_unseen (g := State.regs) (fun _ _ _ => rfl)]
    exact hun (g := State.regs) (fun _ _ _ _ => rfl) fun _ _ => rfl
  · rw [State.cx_finish, hcx', hcx, hw, hst]
    exact Ctx.wr_parked _ _ _ _ _ _ _

end

/-! RSSI (R80, R291). -/

section
variable {s u : State} {k : Fin 64} {env : Env} {w : Nat} {c : Ctx} {x : Desc}

theorem State.span_of_regs {s t : State} (h : t.regs = s.regs) (c : Chain) (freq w : Nat) : t.span c freq w = s.span c freq w := by
  have hb : t.overlapBins c freq w = s.overlapBins c freq w := by
    unfold State.overlapBins State.overlaps
    simp only [State.fld_of_regs h, State.on_of_regs h]
  unfold State.span State.highBand
  rw [hb, State.fld_of_regs h]

theorem State.energyMax_of_pal {s t : State} {c : Chain} (h : t.pal c = s.pal c) (bin w n : Nat) :
    t.energyMax c bin w n = s.energyMax c bin w n := by
  unfold State.energyMax
  rw [h]

theorem State.Radio.rssi_eq (r : s.Radio k env w u c x) (ho : natBits w 31 26 = 0x36) (hb : natBits w 13 0 = 0)
    (hok : (x.freqOk && x.modeOk && x.rxOk) = true) (h1 : 1 ≤ (c.rd (fb w)).toNat) (hn : (c.rd (fb w)).toNat ≤ 128) :
    exec (.opRssi k env) s = .next (match u.span x.rx (2 * x.freq) (2 ^ x.width) with
      | some (b, m) => u.answered k c (fd w) (u.radioWord 0 false (u.energyMax x.rx b m (c.rd (fb w)).toNat))
      | none => u.answered k c (fd w) (u.radioWord 0 false 255)) := by
  have henc : radioOk w 0 true = true := radioOk_of (j := 0) (by show fx w < 1; unfold fx; omega) (.inl rfl)
  have hok' : (x.freqOk && x.modeOk && x.rxOk && decide (1 ≤ (c.rd (fb w)).toNat) && decide ((c.rd (fb w)).toNat ≤ 128)) = true := by
    rw [hok, decide_eq_true h1, decide_eq_true hn]
    rfl
  show execOpRssi k env s = _
  unfold execOpRssi
  rw [State.issue_fetches r.fetch ho, State.coded_ok _ _ _ henc, r.state, r.radio]
  dsimp only
  rw [r.ctx, if_pos hok']
  have hspan : (u.next k).span x.rx (2 * x.freq) (2 ^ x.width) = u.span x.rx (2 * x.freq) (2 ^ x.width) :=
    State.span_of_regs (s := u) (t := u.next k) rfl x.rx (2 * x.freq) (2 ^ x.width)
  rw [hspan]
  generalize u.span x.rx (2 * x.freq) (2 ^ x.width) = p
  cases p with
  | none =>
    dsimp only
    rw [State.radioNow_next r.ctx r.ready]
    rfl
  | some p =>
    have hmax : (u.next k).energyMax x.rx p.1 p.2 (c.rd (fb w)).toNat = u.energyMax x.rx p.1 p.2 (c.rd (fb w)).toNat :=
      State.energyMax_of_pal (s := u) (t := u.next k) (by cases x.rx <;> rfl) _ _ _
    dsimp only
    rw [hmax, State.radioNow_next r.ctx r.ready]
    rfl

end
end Sys2Proof.Machine

/-! A transmission begun on a locked SYT (R117). -/

namespace Sys2Proof.Machine

/-! No account in force (R126, R129). -/

/-- The registers fixed as a transmission begins are those of the present. -/
theorem State.reg_fixed (s : State) {n : Nat} (h : fixedReg n = true) : ({ s with regs := s.fixedRegs } : State).reg n = s.reg n :=
  (Tab.get_filter regReset fixedReg s.regs n).trans (if_pos h)

theorem State.acctOn_of_reg {s t : State} {n : Nat} (h : ∀ o, fixedReg o = true → t.reg o = s.reg o) (hn : n < 8) :
    t.acctOn n = s.acctOn n := by
  have hw : fixedReg (SGL_ACCn_WINDOW.EN n).off = true ∧ fixedReg (SGL_ACCn_BAND.LOW n).off = true ∧
      fixedReg (SGL_ACCn_BAND.HIGH n).off = true := by
    interval_cases n <;> decide
  obtain ⟨hen, hlo, hhi⟩ := hw
  unfold State.acctOn
  rw [State.on_of_reg (h _ hen), State.fld_of_reg (h _ hlo), State.fld_of_reg (h _ hhi)]

theorem State.acctsOf_none {s : State} (h : ∀ i, i < 8 → s.acctOn i = false) (freq w : Nat) : s.acctsOf freq w = [] := by
  unfold State.acctsOf
  rw [List.filter_eq_nil_iff]
  intro n hn
  unfold State.liesIn
  rw [h n (List.mem_range.mp hn)]
  simp

theorem State.allRoom_none {s : State} {o : RadioOp} (h : ∀ i, i < 8 → s.acctOn i = false)
    (hc : o.cfg = s.fixedRegs) (units : Nat) : s.allRoom o units = true := by
  have hof : ∀ i, i < 8 → (s.asOf o).acctOn i = false := fun i hi => by
    have hreg : ∀ n, fixedReg n = true → (s.asOf o).reg n = s.reg n := fun n hn => by
      unfold State.asOf
      rw [hc]
      exact s.reg_fixed hn
    rw [State.acctOn_of_reg hreg hi, h i hi]
  unfold State.allRoom
  rw [State.acctsOf_none hof]
  rfl

/-- A channel with a valid word is not refused while no account is in force and none is required. -/
theorem State.txRefused_none {s : State} (h : ∀ i, i < 8 → s.acctOn i = false) (hr : s.on TXP_CTRL.REQ_ACC = false) {freq : Nat}
    (hw : wordOk (wordOf2 freq) = true) (w air : Nat) : s.txRefused freq w air = false := by
  unfold State.txRefused State.tooLong
  rw [hw, hr, State.acctsOf_none h]
  rfl

/-! What only changes one operation. -/

/-- `t` is `s` with operation `id` changed: contexts and other operations are as before, and random numbers may have been drawn. -/
structure State.OpStep (s : State) (id : Nat) (t : State) : Prop where
  other : ∀ i, i ≠ id → t.op i = s.op i
  cx : ∀ j, t.cx j = s.cx j
  unseen : ∀ {β : Type} {g : State → β}, (∀ t o c f, g { t with ops := o, ctx := c, free := f } = g t) → g t = g s

namespace State.OpStep

variable {s t : State} {id : Nat}

theorem refl (s : State) (id : Nat) : s.OpStep id s := ⟨fun _ _ => rfl, fun _ => rfl, fun _ => rfl⟩

theorem setOp (h : s.OpStep id t) (o : RadioOp) : s.OpStep id (t.setOp id o) :=
  ⟨fun i hi => (State.op_setOp_ne _ _ _ _ hi).trans (h.other i hi), h.cx, fun hg => (hg t _ t.ctx t.free).trans (h.unseen hg)⟩

theorem draw (h : s.OpStep id t) : s.OpStep id t.draw :=
  ⟨h.other, h.cx, fun hg => (hg t t.ops t.ctx _).trans (h.unseen hg)⟩

/-- A context that waits for the operation already goes on waiting. -/
theorem opWaits (h : s.OpStep id t) {o : RadioOp}
    (hc : ∀ k, o.ctx = some k → (s.cx k.val).st = .parked .radio ∧ (s.cx k.val).susp = .radio id) :
    s.OpStep id (t.opWaits id o .radio) := by
  unfold State.opWaits
  split
  next k hk =>
    split
    · obtain ⟨hst, hsu⟩ := hc k hk
      refine ⟨h.other, fun j => ?_, fun hg => (hg t t.ops _ t.free).trans (h.unseen hg)⟩
      unfold State.park
      rw [State.cx_setCx]
      split
      next hj =>
        rw [h.cx, hj]
        generalize s.cx k.val = c at hst hsu
        cases c
        simp only at hst hsu
        rw [hst, hsu]
      · exact h.cx j
    · exact h
  · exact h

end State.OpStep

/-! The release point awaited (R117, Table 6-2). -/

/-- What a transmission keeps of its operation as it comes to wait for its release point. -/
def RadioOp.plan (o : RadioOp) : RadioOp := { o with phase := .release, cfg := [], listen := 0, origin := 0, ins := [] }

/-- The transmission `id` has come to wait for its release point. -/
structure State.Begun (s : State) (id : Nat) (o : RadioOp) (t : State) : Prop where
  step : s.OpStep id t
  op : ∃ q, t.op id = some q ∧ q.phase = .release ∧ q.plan = o.plan

/-- At lock an unsealed transmission, its T fixed already, comes to wait. -/
theorem State.txLocked_begun {s t : State} {id : Nat} {o q : RadioOp} (h : s.OpStep id t) (hop : t.op id = some q)
    (hp : q.phase = .lock) (hplan : q.plan = o.plan) (hseal : q.doSeal = false)
    (hfix : (q.kind == .txf && s.stamped q && !q.at_) = false) : s.Begun id o (t.txLocked id) := by
  rw [← h.unseen (g := fun t => t.stamped q) fun _ _ _ _ => rfl] at hfix
  unfold State.txLocked
  rw [hop]
  dsimp only
  rw [hp, if_neg (by decide)]
  obtain ⟨r, hr⟩ : ∃ r, r = (t.drawListen q).2 := ⟨_, rfl⟩
  have hdraw : (t.drawListen q).1 = t.draw := rfl
  have hrfix : (r.kind == .txf && t.draw.stamped r && !r.at_) = false := by
    rw [hr]
    exact hfix
  have hrseal : r.doSeal = false := by
    rw [hr]
    exact hseal
  have hrplan : r.plan = o.plan := by
    rw [hr, ← hplan]
    rfl
  have hkeep : ∀ x : RadioOp, x.plan = r.plan → x.phase = .release → s.Begun id o (t.draw.setOp id x) := fun x hx hrel =>
    ⟨h.draw.setOp x, x, State.op_setOp_self _ _ _, hrel, hx.trans hrplan⟩
  rw [hdraw, ← hr, hrfix]
  simp only [hrseal, Bool.false_eq_true, if_false, Bool.or_false]
  split
  · exact hkeep _ (by unfold RadioOp.plan; rw [hrseal]) rfl
  · exact hkeep _ (by unfold RadioOp.plan; rw [hrseal]) rfl

theorem State.txTune_begun {s t : State} {id : Nat} {o q : RadioOp} (h : s.OpStep id t) (hop : t.op id = some q)
    (hplan : q.plan = o.plan) (hseal : q.doSeal = false) (hfix : (q.kind == .txf && s.stamped q && !q.at_) = false)
    (hc : ∀ k, q.ctx = some k → (s.cx k.val).st = .parked .radio ∧ (s.cx k.val).susp = .radio id)
    (hword : s.syt.word = wordOf2 q.freq) (hlock : s.syt.phase = .locked) : s.Begun id o (t.txTune id) := by
  obtain ⟨p, hp⟩ : ∃ p : RadioOp, p = { q with phase := .lock } := ⟨_, rfl⟩
  obtain ⟨v, hv⟩ : ∃ v, v = (t.setOp id p).opWaits id p .radio := ⟨_, rfl⟩
  have hvs : s.OpStep id v := hv ▸ (h.setOp p).opWaits (hp ▸ hc)
  have hvop : v.op id = some p := by
    have hops : v.ops = (t.setOp id p).ops := by
      rw [hv]
      unfold State.opWaits
      split
      · split <;> rfl
      · rfl
    have : v.op id = (t.setOp id p).op id := congrArg (fun l => Tab.get (fun _ => none) l id) hops
    rw [this, State.op_setOp_self]
  have hvsyt : v.syt = s.syt := hvs.unseen (g := State.syt) fun _ _ _ _ => rfl
  have htune : t.txTune id = v.txLocked id := by
    have hcond : v.syt.word = wordOf2 q.freq ∧ v.syt.phase = .locked := by
      rw [hvsyt]
      exact ⟨hword, hlock⟩
    subst hp hv
    unfold State.txTune
    rw [hop]
    exact if_pos hcond
  rw [htune]
  subst hp
  exact State.txLocked_begun hvs hvop rfl hplan hseal hfix

/-- A transmission on a SYT locked at its word, with no account in force, comes to wait for its release point at once. -/
theorem State.txBegin_begun {s : State} {id : Nat} {o : RadioOp} (hop : s.op id = some o)
    (hacc : ∀ i, i < 8 → s.acctOn i = false) (hon : s.synOn .syt = true) (hword : s.syt.word = wordOf2 o.freq)
    (hlock : s.syt.phase = .locked) (hseal : o.doSeal = false) (hfix : (o.kind == .txf && s.stamped o && !o.at_) = false)
    (hc : ∀ k, o.ctx = some k → (s.cx k.val).st = .parked .radio ∧ (s.cx k.val).susp = .radio id) :
    s.Begun id o (s.txBegin id) := by
  obtain ⟨q, hq⟩ : ∃ q : RadioOp, q = { o with cfg := s.fixedRegs } := ⟨_, rfl⟩
  have hstep : s.OpStep id (s.setOp id q) := (State.OpStep.refl s id).setOp q
  have hbegin : s.txBegin id = (s.setOp id q).txTune id := by
    have hroom := State.allRoom_none (s := s.setOp id q) (o := q) hacc (hq ▸ rfl) (airUnits o.air * (o.copies + 1))
    unfold State.txBegin
    rw [hop]
    subst hq
    exact (if_neg (by rw [hroom]; decide)).trans (if_pos hon)
  rw [hbegin]
  subst hq
  exact State.txTune_begun hstep (State.op_setOp_self _ _ _) rfl hseal hfix hc hword hlock

/-! The start of a transmission by an instruction (R291). -/

section
variable {u : State} {n : Option (Fin 32)} (h : ∀ m, n = some m → (u.launcher m.val).op = none)
include h

theorem State.armOpt_unseen {β : Type} {g : State → β} (hl : ∀ t r l, g { t with regs := r, lnch := l } = g t)
    (hf : ∀ t f, g { t with free := f } = g t) (t pol : Nat) (k : Fin 64) (id : Nat) (late : Bool) :
    g (u.armOpt n t pol k id late) = g u := by
  cases n with
  | none => rfl
  | some m => exact State.armRadio_unseen hl hf (h m rfl) t 0 pol k id late

theorem State.reg_armOpt (t pol : Nat) (k : Fin 64) (id : Nat) (late : Bool) {o : Nat} (ho : o < 0x5100 ∨ 0x5300 ≤ o) :
    (u.armOpt n t pol k id late).reg o = u.reg o := by
  cases n with
  | none => rfl
  | some m => exact State.reg_armRadio (h m rfl) t 0 pol k id late ho

end

/-- What a transmission needs to come to wait for its release point at once: SYT on and locked at its word, no account in force and
none required. -/
structure State.TxFree (u : State) (freq : Nat) : Prop where
  word : wordOk (wordOf2 freq) = true
  at_ : u.syt.word = wordOf2 freq
  lock : u.syt.phase = .locked
  on : u.on RFA_CHAIN_CFG.SYT_ON = true
  req : u.on TXP_CTRL.REQ_ACC = false
  acct : ∀ i, i < 8 → u.acctOn i = false

theorem State.acctOn_of_fixed {s t : State} (h : ∀ o, o < 0x5100 ∨ 0x5300 ≤ o → t.reg o = s.reg o) {n : Nat} (hn : n < 8) :
    t.acctOn n = s.acctOn n := by
  refine State.acctOn_of_reg (fun o ho => h o ?_) hn
  unfold fixedReg at ho
  simp only [Bool.or_eq_true, Bool.and_eq_true, decide_eq_true_eq, beq_iff_eq] at ho
  rcases ho with ⟨ho, -⟩ | rfl
  · omega
  · decide

/-- The state in which an operation of context `k` begins: added, its context parked on it, its launcher armed. -/
def State.opStart (u : State) (k : Fin 64) (c : Ctx) (o : RadioOp) (n : Option (Fin 32)) (late : Bool) : State :=
  ((u.addOp { o with lnch := n }).parked k c .radio (.radio u.opNext)).armOpt n o.t o.pol k u.opNext late

section
variable {s u : State} {k : Fin 64} {env : Env} {w : Nat} {c : Ctx} {x : Desc}

theorem State.Radio.txStart_begun (r : s.Radio k env w u c x) {o : RadioOp} {n : Option (Fin 32)} (hf : u.TxFree o.freq)
    (hk : o.ctx = some k) (hseal : o.doSeal = false) (hfix : (o.kind == .txf && u.stamped o && !o.at_) = false)
    (hl : ∀ m, n = some m → (u.launcher m.val).op = none) (ht : o.at_ = true → u.stamp + u.lead ≤ o.t) :
    (u.opStart k c o n false).Begun u.opNext { o with lnch := n } ((u.next k).txStart k o n) := by
  obtain ⟨q, hq⟩ : ∃ q : RadioOp, q = { o with lnch := n } := ⟨_, rfl⟩
  obtain ⟨v, hv, hcx, hop, hsame⟩ := State.adds_to u q k c .radio (.radio u.opNext)
  have hvl : ∀ m, n = some m → (v.launcher m.val).op = none := fun m hm =>
    (hsame (g := fun t => (t.launcher m.val).op) fun _ _ _ _ => rfl).trans (hl m hm)
  have hpast : (o.at_ && decide (o.t - u.lead < u.stamp)) = false := by
    cases hat : o.at_
    · rfl
    · have := ht hat
      simp only [Bool.true_and, decide_eq_false_iff_not]
      omega
  have hvr : v.txRefused o.freq o.width o.air = false :=
    (hsame (g := fun t => t.txRefused o.freq o.width o.air) fun _ _ _ _ => rfl).trans
      (State.txRefused_none hf.acct hf.req hf.word _ _)
  have hstart : u.opStart k c o n false = v.armOpt n o.t o.pol k u.opNext false := by
    rw [hv, hq]
    rfl
  rw [hstart]
  have htx : (u.next k).txStart k o n = (v.armOpt n o.t o.pol k u.opNext false).txBegin u.opNext := by
    have hpark : ((u.next k).addOp q).park k.val .radio (.radio (u.next k).opNext) = v := by
      rw [hv]
      exact r.adds q .radio u.opNext
    have hlate : (o.at_ && decide (o.t - (u.next k).lead < (u.next k).stamp)) = false := hpast
    have hid : (u.next k).opNext = u.opNext := rfl
    subst hq
    unfold State.txStart
    dsimp only
    rw [hpark, hvr, if_neg (by decide), hlate, hid]
    cases n with
    | none =>
      split
      · rfl
      · rfl
    | some m => rfl
  obtain ⟨y, hy⟩ : ∃ y, y = v.armOpt n o.t o.pol k u.opNext false := ⟨_, rfl⟩
  have hyg : ∀ {β : Type} {g : State → β}, (∀ t o n c, g { t with ops := o, opNext := n, ctx := c } = g t) →
      (∀ t r l, g { t with regs := r, lnch := l } = g t) → (∀ t f, g { t with free := f } = g t) → g y = g u := fun h1 h2 h3 => by
    rw [hy, State.armOpt_unseen hvl h2 h3, hsame h1]
  have hyr : ∀ m, m < 0x5100 ∨ 0x5300 ≤ m → y.reg m = u.reg m := fun m hm => by
    rw [hy, State.reg_armOpt hvl _ _ _ _ _ hm]
    exact hsame (g := fun t => t.reg m) fun _ _ _ _ => rfl
  have hyop : y.op u.opNext = some q := by
    rw [hy, State.armOpt_unseen (g := fun t => t.op u.opNext) hvl (fun _ _ _ => rfl) (fun _ _ => rfl), hop]
  have hycx : y.cx k.val = { c.next with st := .parked .radio, susp := .radio u.opNext } := by
    rw [hy, State.armOpt_unseen (g := fun t => t.cx k.val) hvl (fun _ _ _ => rfl) (fun _ _ => rfl), hcx]
  have hysyt : y.syt = u.syt := hyg (g := State.syt) (fun _ _ _ _ => rfl) (fun _ _ _ => rfl) fun _ _ => rfl
  have hts : y.stamped o = u.stamped o := by
    unfold State.stamped
    rw [State.on_of_reg (hyr TXP_CTRL.TS_INS.off (by decide))]
  rw [htx, ← hy, ← hq]
  rw [← hts] at hfix
  refine State.txBegin_begun hyop (fun i hi => (State.acctOn_of_fixed hyr hi).trans (hf.acct i hi))
    ((State.on_of_reg (hyr _ (by decide))).trans hf.on) ?_ ?_ (hq ▸ hseal) (hq ▸ hfix) fun j hj => ?_
  · rw [hysyt, hf.at_, hq]
  · rw [hysyt, hf.lock]
  · rw [hq] at hj
    obtain rfl : k = j := Option.some.inj (hk.symm.trans hj)
    rw [hycx]
    exact ⟨rfl, rfl⟩

/-- A transmission that has come to wait for its release point: its operation, its parked context, its launcher. -/
theorem State.Begun.waits {u t : State} {k : Fin 64} {c : Ctx} {o : RadioOp} {n : Option (Fin 32)} {late : Bool}
    (hl : ∀ m, n = some m → (u.launcher m.val).op = none) (h : (u.opStart k c o n late).Begun u.opNext { o with lnch := n } t) :
    t.opNext = u.opNext + 1 ∧ t.cx k.val = { c.next with st := .parked .radio, susp := .radio u.opNext } ∧ t.mem = u.mem ∧
      (n = none → { t with ctx := u.ctx, ops := u.ops, opNext := u.opNext, free := u.free } = u) ∧
      ∀ m, n = some m → (t.launcher m.val).armed = true ∧ (t.launcher m.val).stamp = o.t ∧
        (t.launcher m.val).op = some u.opNext := by
  obtain ⟨q, hq⟩ : ∃ q : RadioOp, q = { o with lnch := n } := ⟨_, rfl⟩
  obtain ⟨v, hv, hcx, -, hsame⟩ := State.adds_to u q k c .radio (.radio u.opNext)
  have hvn : v.opNext = u.opNext + 1 := hv ▸ rfl
  have hvl : ∀ m, n = some m → (v.launcher m.val).op = none := fun m hm =>
    (hsame (g := fun t => (t.launcher m.val).op) fun _ _ _ _ => rfl).trans (hl m hm)
  have hstart : u.opStart k c o n late = v.armOpt n o.t o.pol k u.opNext late := by
    rw [hv, hq]
    rfl
  obtain ⟨⟨-, hj, hg⟩, -⟩ := h
  rw [hstart] at hj hg
  refine ⟨?_, ?_, ?_, ?_, ?_⟩
  · rw [hg (g := State.opNext) fun _ _ _ _ => rfl, State.armOpt_unseen (g := State.opNext) hvl (fun _ _ _ => rfl) fun _ _ => rfl, hvn]
  · rw [hj, State.armOpt_unseen (g := fun t => t.cx k.val) hvl (fun _ _ _ => rfl) fun _ _ => rfl, hcx]
  · rw [hg (g := State.mem) fun _ _ _ _ => rfl, State.armOpt_unseen (g := State.mem) hvl (fun _ _ _ => rfl) fun _ _ => rfl]
    exact hsame (g := State.mem) fun _ _ _ _ => rfl
  · rintro rfl
    have h1 := hg (g := fun t : State => { t with ctx := u.ctx, ops := u.ops, opNext := u.opNext, free := u.free }) fun _ _ _ _ => rfl
    have h2 := hsame (g := fun t : State => { t with ctx := u.ctx, ops := u.ops, opNext := u.opNext, free := u.free }) fun _ _ _ _ => rfl
    exact h1.trans h2
  · rintro m rfl
    obtain ⟨arg, ha⟩ := State.launcher_armRadio (hvl m rfl) o.t 0 o.pol k u.opNext late
    have h1 : t.launcher m.val = (v.armRadio m o.t 0 o.pol k u.opNext late).launcher m.val :=
      hg (g := fun t => t.launcher m.val) fun _ _ _ _ => rfl
    rw [h1, ha]
    exact ⟨rfl, rfl, rfl⟩

end

end Sys2Proof.Machine

/-! TXF, CALLTX and ACKW (R115, R117, R130, R133, R291). -/

namespace Sys2Proof.Machine

/-- x and b of a radio instruction without AT are zero. -/
theorem plainBits {w : Nat} (h : natBits w 17 2 = 0) : radioOk w 7 false = true ∧ w.testBit 2 = false := by
  have hfb : fb w = 0 := by
    unfold fb
    simp only [natBits_eq_div_mod] at h ⊢
    omega
  have hfx : fx w < 2 ^ 3 := by
    unfold fx
    simp only [natBits_eq_div_mod] at h ⊢
    omega
  refine ⟨radioOk_of (j := 3) hfx (.inr hfb), ?_⟩
  rw [testBit_eq_natBits]
  simp only [natBits_eq_div_mod] at h ⊢
  exact decide_eq_false (by omega)

/-- The launch in the own cell is no sooner than the lead allows. -/
theorem State.cellLaunch_ahead {s : State} {freq lead t : Nat} (h : s.cellLaunch freq lead = some t) : s.stamp + lead ≤ t := by
  unfold State.cellLaunch at h
  split at h
  · dsimp only at h
    split at h
    · simpa using List.find?_some h
    · exact absurd h (by simp)
  · exact absurd h (by simp)

/-- A TXF without AT takes at most an instant, one that lies the lead ahead. -/
theorem State.cellTimed_ind {P : RadioOp → Prop} {s : State} {o : RadioOp} (h : o.at_ = false)
    (hp : ∀ a t, (a = true → s.stamp + s.lead ≤ t) → P { o with at_ := a, t := t }) : P (s.cellTimed o) := by
  have hkeep : P o := hp o.at_ o.t fun ha => absurd (h.symm.trans ha) (by decide)
  unfold State.cellTimed
  split
  · exact hkeep
  · split
    next t ht => exact hp true t fun _ => State.cellLaunch_ahead ht
    next => exact hkeep

/-- The advance leaves what a context sees of memory. -/
theorem State.ownBytes_next (u : State) (k : Fin 64) (a n : Nat) : (u.next k).ownBytes k.val a n = u.ownBytes k.val a n := by
  have hb : ∀ a, (u.next k).ownByte k.val a = u.ownByte k.val a := fun a => by
    unfold State.ownByte State.next
    rw [State.cx_setCx_self]
    rfl
  unfold State.ownBytes
  simp only [hb]

/-- The operation of a TXF without AT. -/
structure State.PlainTxf (u : State) (k : Fin 64) (x : Desc) (o : RadioOp) : Prop where
  kind : o.kind = .txf
  ctx : o.ctx = some k
  frame : o.frame = u.ownBytes k.val x.buf x.len
  freq : o.freq = 2 * x.freq
  width : o.width = 2 ^ x.width
  pre : o.pre = if x.pre = 0 then u.fld TXP_CTRL.PRE_LEN else x.pre
  level : o.level = if x.level = 127 then u.fld RFA_PA_LEVEL.LEVEL else x.level
  wantAck : o.wantAck = fcAr (frameCtl (u.ownBytes k.val x.buf x.len))
  len : o.len = x.len
  sset : o.sset = natBits x.mode 7 6
  doSeal : o.doSeal = x.opts.testBit 3
  ahead : o.at_ = true → u.stamp + u.lead ≤ o.t

theorem State.txfOp_plain (u : State) (k : Fin 64) (x : Desc) {w : Nat} (hat : atBit w = false) :
    u.PlainTxf k x ((u.next k).txfOp x k w) := by
  unfold State.txfOp
  dsimp only
  rw [hat, u.ownBytes_next]
  exact State.cellTimed_ind rfl fun a t ha => ⟨rfl, rfl, rfl, rfl, rfl, rfl, rfl, rfl, rfl, rfl, rfl, ha⟩

/-- What an operation keeps as it comes to wait. -/
theorem RadioOp.plan_seen {β : Type} {o q : RadioOp} (h : q.plan = o.plan) (g : RadioOp → β) (hg : ∀ x, g x.plan = g x) :
    g q = g o := by
  rw [← hg q, h, hg]

section
variable {s u : State} {k : Fin 64} {env : Env} {w : Nat} {c : Ctx} {x : Desc}

theorem State.engRead_clean {u : State} {a n : Nat} (h : u.clean a n) : u.engRead a n .none = (u, Status.ok) := by
  unfold State.engRead
  rw [State.readSpan_clean u a n h]
  rfl

theorem State.Radio.txf_starts (r : s.Radio k env w u c x) (ho : natBits w 31 26 = 0x32) (hx : natBits w 17 2 = 0)
    (hcmr : u.cmr.st ≠ 6) (hok : x.txfOk false = true) (hbuf : spanOk x.buf (max x.len 1) = true)
    (hcl : u.clean x.buf x.len) (hfit : u.txfOk ((u.next k).txfOp x k w) = true) :
    exec (.opTxf k env) s = .next ((u.next k).txStart k ((u.next k).txfOp x k w) none) := by
  obtain ⟨henc, h2⟩ := plainBits hx
  have hbuf' : operandOk x.buf x.len 1 = true := by
    unfold operandOk
    rw [hbuf, Nat.mod_one]
    rfl
  have hread : (u.next k).engRead x.buf x.len .none = (u.next k, Status.ok) := State.engRead_clean hcl
  have hfit' : (u.next k).txfOk ((u.next k).txfOp x k w) = true := hfit
  show execOpTxf k env s = _
  unfold execOpTxf
  rw [State.issue_fetches r.fetch ho, State.coded_ok _ _ _ henc, r.state, r.radio]
  dsimp only
  rw [hbuf', if_neg (by decide), State.radioGo_runs (by unfold atBit; rw [h2]; exact hok) hcmr, hread]
  dsimp only
  rw [if_neg (by decide), show atBit w = false from h2, State.withLnch_none, hfit', if_pos rfl]

theorem State.Radio.txf_waits (r : s.Radio k env w u c x) (ho : natBits w 31 26 = 0x32) (hx : natBits w 17 2 = 0)
    (hcmr : u.cmr.st ≠ 6) (hok : x.txfOk false = true) (hbuf : spanOk x.buf (max x.len 1) = true)
    (hcl : u.clean x.buf x.len) (hseal : x.opts.testBit 3 = false) (hlen : x.len + u.fcsLen (natBits x.mode 7 6) ≤ 511)
    (hts : fcTs (frameCtl (u.ownBytes k.val x.buf x.len)) = false) (hf : u.TxFree (2 * x.freq)) :
    ∃ t o q, exec (.opTxf k env) s = .next t ∧ u.PlainTxf k x o ∧ (u.opStart k c o none false).Begun u.opNext { o with lnch := none } t ∧
      t.op u.opNext = some q ∧ q.phase = .release ∧ q.plan = ({ o with lnch := none } : RadioOp).plan := by
  have h2 : atBit w = false := (plainBits hx).2
  have hp := u.txfOp_plain k x h2
  have hfit : u.txfOk ((u.next k).txfOp x k w) = true := by
    unfold State.txfOk
    dsimp only
    rw [hp.doSeal, hseal, hp.len, hp.sset]
    simpa using hlen
  have hexec := r.txf_starts ho hx hcmr hok hbuf hcl hfit
  generalize (u.next k).txfOp x k w = o at hexec hp
  have hstamped : u.stamped o = false := by
    unfold State.stamped
    rw [hp.kind, hp.frame, hts]
    rfl
  have hb := r.txStart_begun (o := o) (n := none) (hp.freq ▸ hf) hp.ctx (hp.doSeal.trans hseal) (by rw [hstamped]; simp)
    (fun m hm => absurd hm (by simp)) hp.ahead
  obtain ⟨q, hq, hph, hplan⟩ := hb.op
  exact ⟨_, o, q, hexec, hp, hb, hq, hph, hplan⟩

/-! CALLTX (R133). -/

/-- The operation of a CALLTX without AT. -/
def State.callOp (u : State) (x : Desc) (k : Fin 64) (w : Nat) (c : Ctx) : RadioOp :=
  { x.op .calltx k (fd w) c with
    width := 2, doSeal := false, air := u.callAir, copies := u.fld TXP_CALL_CFG.REPS
    level := u.levelVia x.level (u.fld TXP_CALL_CFG.LEVEL), at_ := false, t := 0
    frame := leBytes 4 x.cword ++ leBytes 1 x.cls ++ leBytes 2 x.target
    ant := u.fld RFA_DIV_CFG.TX_DEFAULT, origin := u.stamp }

theorem State.Radio.calltx_waits (r : s.Radio k env w u c x) (ho : natBits w 31 26 = 0x34) (hx : natBits w 17 0 = 0)
    (hcmr : u.cmr.st ≠ 6) (hok : (x.freqOk && x.optsOk && x.levelOk) = true) (hf : u.TxFree (2 * x.freq)) :
    ∃ t, exec (.opCalltx k env) s = .next t ∧
      (u.opStart k c (u.callOp x k w c.next) none false).Begun u.opNext { u.callOp x k w c.next with lnch := none } t := by
  have h17 : natBits w 17 2 = 0 ∧ natBits w 1 0 = 0 := by
    simp only [natBits_eq_div_mod] at hx ⊢
    omega
  obtain ⟨hx2, hts⟩ := h17
  obtain ⟨hrad, h2⟩ := plainBits hx2
  have h2 : atBit w = false := h2
  have henc : (radioOk w 7 false && tsOk w) = true := by
    unfold tsOk
    rw [hrad, hts]
    simp
  have hok' : (x.freqOk && x.optsOk && x.levelOk && x.lnchOk (atBit w)) = true := by
    rw [hok, h2]
    rfl
  have hexec : exec (.opCalltx k env) s = .next ((u.next k).txStart k (u.callOp x k w c.next) none) := by
    show execOpCalltx k env s = _
    unfold execOpCalltx
    rw [State.issue_fetches r.fetch ho, State.coded_ok _ _ _ henc, r.state, r.radio]
    dsimp only
    rw [State.radioGo_runs hok' hcmr, h2, State.withLnch_none, r.cx_next]
    rfl
  exact ⟨_, hexec, r.txStart_begun (o := u.callOp x k w c.next) (n := none) hf rfl rfl rfl (fun m hm => absurd hm (by simp))
    fun h => absurd h (by show ¬ (false = true); decide)⟩

/-! ACKW (R130, R131). -/

theorem ackwBits {w : Nat} (h : natBits w 13 4 = 0) (h2 : w.testBit 2 = true) : (radioOk w 0xF true && tsOk w) = true := by
  have hfx : fx w < 2 ^ 4 := by
    unfold fx
    simp only [natBits_eq_div_mod] at h ⊢
    omega
  have hrad : radioOk w (2 ^ 4 - 1) true = true := radioOk_of hfx (.inl rfl)
  unfold tsOk atBit
  rw [h2]
  simpa using hrad

theorem State.ownNum_next (u : State) (k : Fin 64) (a n : Nat) : (u.next k).ownNum k.val a n = u.ownNum k.val a n :=
  congrArg leNat (u.ownBytes_next k a n)

theorem State.Radio.ackw_starts (r : s.Radio k env w u c x) (ho : natBits w 31 26 = 0x35) (hx : natBits w 13 4 = 0)
    (hat : w.testBit 2 = true) (hcmr : u.cmr.st ≠ 6) (hopt : (x.optsOk && x.levelOk) = true) (hln : x.lnch < 32)
    (hoff : u.launcher x.lnch = Lnch.off) {b : Nat} (hb : (c.rd (fb w)).toNat = b) (h8 : b % 8 = 0) (hspan : spanOk b 40 = true)
    (hcl : u.clean b 40) (hserves : u.ackwServes k.val b = true) : exec (.opAckw k env) s =
      .next ((u.next k).txStart k ((u.next k).ackwOp x k w b) (some ⟨x.lnch, hln⟩)) := by
  have hopd : operandOk b 40 8 = true := by
    unfold operandOk
    rw [h8]
    exact hspan
  have hok : (x.optsOk && x.levelOk && x.lnchOk (atBit w) && u.ackwServes k.val b) = true := by
    rw [hopt, hserves]
    unfold Desc.lnchOk
    simp [hln]
  show execOpAckw k env s = _
  unfold execOpAckw
  rw [State.issue_fetches r.fetch ho, State.coded_ok _ _ _ (ackwBits hx hat), r.state, r.radio]
  dsimp only
  rw [r.ctx, hb, hopd, if_pos rfl, State.access_clean u b 40 hcl, if_neg (by simp), State.radioGo_runs hok hcmr,
    show atBit w = true from hat, State.withLnch_off (u := u.next k) hln hoff]

/-- The operation of an ACKW with AT. -/
structure State.AckwAt (u : State) (k : Fin 64) (w b : Nat) (c : Ctx) (freq : Nat) (o : RadioOp) : Prop where
  kind : o.kind = .ackw
  ctx : o.ctx = some k
  freq : o.freq = freq
  at_ : o.at_ = true
  t : o.t = c.stampOf (natBits w 1 0)
  doSeal : o.doSeal = false
  frame : o.frame = u.ackFrame (u.ownNum k.val (b + 34) 1) (w.testBit 3)

theorem State.Radio.ackwOp_at (r : s.Radio k env w u c x) (hat : w.testBit 2 = true) (b : Nat) :
    u.AckwAt k w b c (u.ackwOp x k w b).freq ((u.next k).ackwOp x k w b) := by
  have hprio : ((u.next k).cx k.val).prio = (u.cx k.val).prio := by rw [r.cx_next, r.ctx]; rfl
  have htick : ((u.next k).cx k.val).ticket = (u.cx k.val).ticket := by rw [r.cx_next, r.ctx]; rfl
  have hts : ((u.next k).cx k.val).ts w = (u.cx k.val).ts w := by rw [r.cx_next, r.ctx]; rfl
  have hsame : (u.next k).ackwOp x k w b = u.ackwOp x k w b := by
    unfold State.ackwOp State.recHdr
    simp only [u.ownNum_next, hprio, htick, hts]
    rfl
  have ht : (u.ackwOp x k w b).t = c.stampOf (natBits w 1 0) := by
    unfold State.ackwOp
    dsimp only
    rw [show atBit w = true from hat, if_pos rfl, r.ctx]
    rfl
  rw [hsame]
  exact ⟨rfl, rfl, rfl, rfl, ht, rfl, rfl⟩

theorem State.Radio.ackw_waits (r : s.Radio k env w u c x) (ho : natBits w 31 26 = 0x35) (hx : natBits w 13 4 = 0)
    (hat : w.testBit 2 = true) (hcmr : u.cmr.st ≠ 6) (hopt : (x.optsOk && x.levelOk) = true) (hln : x.lnch < 32)
    (hoff : u.launcher x.lnch = Lnch.off) {b : Nat} (hb : (c.rd (fb w)).toNat = b) (h8 : b % 8 = 0) (hspan : spanOk b 40 = true)
    (hcl : u.clean b 40) (hserves : u.ackwServes k.val b = true) (hf : u.TxFree (u.ackwOp x k w b).freq)
    (ht : u.stamp + u.lead ≤ c.stampOf (natBits w 1 0)) :
    ∃ t o, exec (.opAckw k env) s = .next t ∧ u.AckwAt k w b c (u.ackwOp x k w b).freq o ∧
      (u.opStart k c o (some ⟨x.lnch, hln⟩) false).Begun u.opNext { o with lnch := some ⟨x.lnch, hln⟩ } t := by
  have hexec := r.ackw_starts ho hx hat hcmr hopt hln hoff hb h8 hspan hcl hserves
  have hp := r.ackwOp_at hat b
  generalize (u.next k).ackwOp x k w b = o at hexec hp
  refine ⟨_, o, hexec, hp, r.txStart_begun (hp.freq ▸ hf) hp.ctx hp.doSeal ?_ ?_ fun _ => hp.t ▸ ht⟩
  · rw [hp.kind]
    rfl
  · rintro m hm
    obtain rfl := Option.some.inj hm
    show (u.launcher x.lnch).op = none
    rw [hoff]
    rfl

/-- The operation `id` has come to wait for its release point, its context parked on it. -/
def State.Waiting (t : State) (id : Nat) (k : Fin 64) (c : Ctx) (o : RadioOp) : Prop :=
  t.op id = some o ∧ o.phase = .release ∧ o.ctx = some k ∧ t.opNext = id + 1 ∧
    t.cx k.val = { c.next with st := .parked .radio, susp := .radio id }

theorem State.Radio.txf_begins (r : s.Radio k env w u c x) (hcmr : u.cmr.st ≠ 6) (hopts : x.optsOk = true)
    (hlevel : x.levelOk = true) (ho : natBits w 31 26 = 0x32) (hx : natBits w 17 2 = 0) (hfr : x.freq < 2 ^ 17)
    (hmode : x.modeOk = true) (hpre : x.preOk = true) (hpidx : x.pidxOk = true) (hbuf : spanOk x.buf (max x.len 1) = true)
    (hcl : u.clean x.buf x.len) (hseal : x.opts.testBit 3 = false) (hlen : x.len + u.fcsLen (natBits x.mode 7 6) ≤ 511)
    (hts : fcTs (frameCtl (u.ownBytes k.val x.buf x.len)) = false) (hf : u.TxFree (2 * x.freq)) :
    ∃ t o, exec (.opTxf k env) s = .next t ∧ t.Waiting s.opNext k c o ∧ o.kind = .txf ∧
      o.frame = u.ownBytes k.val x.buf x.len ∧ o.freq = 2 * x.freq ∧ o.width = 2 ^ x.width ∧
      o.pre = (if x.pre = 0 then u.fld TXP_CTRL.PRE_LEN else x.pre) ∧
      o.level = (if x.level = 127 then u.fld RFA_PA_LEVEL.LEVEL else x.level) ∧
      o.wantAck = fcAr (frameCtl (u.ownBytes k.val x.buf x.len)) ∧
      { t with ctx := u.ctx, ops := u.ops, opNext := s.opNext, free := u.free } = u := by
  have hok : x.txfOk false = true := by
    unfold Desc.txfOk Desc.freqOk
    rw [decide_eq_true hfr, hmode, hopts, hlevel, hpre, hpidx]
    rfl
  obtain ⟨t, o, q, hexec, hp, hb, hop, hph, hplan⟩ := r.txf_waits ho hx hcmr hok hbuf hcl hseal hlen hts hf
  obtain ⟨hnext, hcx, -, honly, -⟩ := hb.waits (fun m hm => absurd hm (by simp))
  have hseen : ∀ {β : Type} (g : RadioOp → β), (∀ x, g x.plan = g x) → g q = g { o with lnch := none } := fun g hg =>
    RadioOp.plan_seen hplan g hg
  rw [← r.opNext]
  exact ⟨t, q, hexec, ⟨hop, hph, (hseen RadioOp.ctx fun _ => rfl).trans hp.ctx, hnext, hcx⟩,
    (hseen RadioOp.kind fun _ => rfl).trans hp.kind, (hseen RadioOp.frame fun _ => rfl).trans hp.frame,
    (hseen RadioOp.freq fun _ => rfl).trans hp.freq, (hseen RadioOp.width fun _ => rfl).trans hp.width,
    (hseen RadioOp.pre fun _ => rfl).trans hp.pre, (hseen RadioOp.level fun _ => rfl).trans hp.level,
    (hseen RadioOp.wantAck fun _ => rfl).trans hp.wantAck, honly rfl⟩

theorem State.Radio.calltx_begins (r : s.Radio k env w u c x) (hcmr : u.cmr.st ≠ 6) (hopts : x.optsOk = true)
    (hlevel : x.levelOk = true) (ho : natBits w 31 26 = 0x34) (hx : natBits w 17 0 = 0) (hfr : x.freq < 2 ^ 17)
    (hf : u.TxFree (2 * x.freq)) :
    ∃ t o, exec (.opCalltx k env) s = .next t ∧ t.Waiting s.opNext k c o ∧ o.kind = .calltx ∧ o.freq = 2 * x.freq ∧ o.width = 2 ∧
      o.frame = leBytes 4 x.cword ++ leBytes 1 x.cls ++ leBytes 2 x.target ∧
      o.air = (u.fld TXP_CALL_CFG.PRE_BITS + 64) * 98304 ∧ o.copies = u.fld TXP_CALL_CFG.REPS ∧
      { t with ctx := u.ctx, ops := u.ops, opNext := s.opNext, free := u.free } = u := by
  have hok : (x.freqOk && x.optsOk && x.levelOk) = true := by
    unfold Desc.freqOk
    rw [decide_eq_true hfr, hopts, hlevel]
    rfl
  obtain ⟨t, hexec, hb⟩ := r.calltx_waits ho hx hcmr hok hf
  obtain ⟨hnext, hcx, -, honly, -⟩ := hb.waits (fun m hm => absurd hm (by simp))
  obtain ⟨q, hop, hph, hplan⟩ := hb.op
  have hseen : ∀ {β : Type} (g : RadioOp → β), (∀ x, g x.plan = g x) → g q = g { u.callOp x k w c.next with lnch := none } :=
    fun g hg => RadioOp.plan_seen hplan g hg
  rw [← r.opNext]
  exact ⟨t, q, hexec, ⟨hop, hph, hseen RadioOp.ctx fun _ => rfl, hnext, hcx⟩, hseen RadioOp.kind fun _ => rfl,
    hseen RadioOp.freq fun _ => rfl, hseen RadioOp.width fun _ => rfl, hseen RadioOp.frame fun _ => rfl,
    hseen RadioOp.air fun _ => rfl, hseen RadioOp.copies fun _ => rfl, honly rfl⟩

theorem State.Radio.ackw_begins (r : s.Radio k env w u c x) (hcmr : u.cmr.st ≠ 6) (hopts : x.optsOk = true)
    (hlevel : x.levelOk = true) (ho : natBits w 31 26 = 0x35) (hx : natBits w 13 4 = 0) (hat : w.testBit 2 = true)
    (hln : x.lnch < 32) (hoff : u.launcher x.lnch = Lnch.off) {b : Nat} (hb : (c.rd (fb w)).toNat = b) (h8 : b % 8 = 0)
    (hspan : spanOk b 40 = true) (hcl : u.clean b 40) (hserves : u.ackwServes k.val b = true)
    (hf : u.TxFree (u.ackwOp x k w b).freq) (ht : u.stamp + u.lead ≤ c.stampOf (natBits w 1 0)) :
    ∃ t o, exec (.opAckw k env) s = .next t ∧ t.Waiting s.opNext k c o ∧ o.kind = .ackw ∧ o.freq = (u.ackwOp x k w b).freq ∧
      o.t = c.stampOf (natBits w 1 0) ∧ o.at_ = true ∧
      o.frame = leBytes 2 (if w.testBit 3 then 18 else 2) ++ leBytes 1 (u.ownNum k.val (b + 34) 1) ++
        leBytes 2 (u.fld MAC_NETID.NETID) ∧
      (t.launcher x.lnch).armed = true ∧ (t.launcher x.lnch).stamp = c.stampOf (natBits w 1 0) ∧
      (t.launcher x.lnch).op = some s.opNext ∧ t.mem = u.mem := by
  have hopt : (x.optsOk && x.levelOk) = true := by rw [hopts, hlevel]; rfl
  obtain ⟨t, o, hexec, hp, hbeg⟩ := r.ackw_waits ho hx hat hcmr hopt hln hoff hb h8 hspan hcl hserves hf ht
  have hoff' : ∀ m : Fin 32, some (⟨x.lnch, hln⟩ : Fin 32) = some m → (u.launcher m.val).op = none := fun m hm => by
    obtain rfl := Option.some.inj hm
    show (u.launcher x.lnch).op = none
    rw [hoff]
    rfl
  obtain ⟨hnext, hcx, hmem, -, hlnch⟩ := hbeg.waits hoff'
  obtain ⟨harm, hst, hlop⟩ := hlnch _ rfl
  obtain ⟨q, hop, hph, hplan⟩ := hbeg.op
  have hseen : ∀ {β : Type} (g : RadioOp → β), (∀ x, g x.plan = g x) → g q = g { o with lnch := some ⟨x.lnch, hln⟩ } :=
    fun g hg => RadioOp.plan_seen hplan g hg
  have hframe : u.ackFrame (u.ownNum k.val (b + 34) 1) (w.testBit 3) = leBytes 2 (if w.testBit 3 then 18 else 2) ++
      leBytes 1 (u.ownNum k.val (b + 34) 1) ++ leBytes 2 (u.fld MAC_NETID.NETID) := by
    unfold State.ackFrame
    cases w.testBit 3 <;> rfl
  rw [← r.opNext]
  exact ⟨t, q, hexec, ⟨hop, hph, (hseen RadioOp.ctx fun _ => rfl).trans hp.ctx, hnext, hcx⟩,
    (hseen RadioOp.kind fun _ => rfl).trans hp.kind, (hseen RadioOp.freq fun _ => rfl).trans hp.freq,
    (hseen RadioOp.t fun _ => rfl).trans hp.t, (hseen RadioOp.at_ fun _ => rfl).trans hp.at_,
    (hseen RadioOp.frame fun _ => rfl).trans (hp.frame.trans hframe), harm, hst.trans hp.t, hlop, hmem⟩

end

/-- Settles O36: a transmission on a locked SYT that no account bounds goes through to its release point as it issues. -/
theorem transmissionsBegin : Obligations.TransmissionsBegin := by
  unfold Obligations.TransmissionsBegin
  intro k env w s h u c a b x f id bs ack ready begun ha8 hspan hcl hcmr hopts hlevel
  have r : s.Radio k env w u c x := ⟨h, rfl, rfl, rfl, ha8, hspan, hcl⟩
  have hfree : ∀ {freq}, ready freq → u.TxFree freq := fun ⟨h1, h2, h3, h4, h5, h6⟩ => ⟨h1, h2, h3, h4, h5, h6⟩
  refine ⟨fun ho hx hfr hmode hpre hpidx hbuf hcb hseal hlen hts _ hr =>
      r.txf_begins hcmr hopts hlevel ho hx hfr hmode hpre hpidx hbuf hcb hseal hlen hts (hfree hr),
    fun ho hx hfr hr => r.calltx_begins hcmr hopts hlevel ho hx hfr (hfree hr),
    fun ho hx hat hln hoff h8 hsp hcb hsv hr ht => r.ackw_begins hcmr hopts hlevel ho hx hat hln hoff rfl h8 hsp hcb hsv
      (hfree hr) ht⟩

end Sys2Proof.Machine

/-! GACK (R162, R165, R166, R291). -/

namespace Sys2Proof.Machine

/-! The beacons stop. -/

/-- `t` is `s` after operations have ended that context `k` does not wait for: its context, memory, time and clocks are as before, and
no operation has come. -/
structure State.Calm (k : Nat) (s t : State) : Prop where
  cx : t.cx k = s.cx k
  mem : t.mem = s.mem
  opNext : t.opNext = s.opNext
  time : t.time = s.time
  asleep : t.asleep = s.asleep
  cmr : t.cmr = s.cmr
  ops : ∀ i o, t.op i = some o → s.op i = some o

namespace State.Calm

variable {k : Nat} {s t u : State}

theorem refl (k : Nat) (s : State) : s.Calm k s := ⟨rfl, rfl, rfl, rfl, rfl, rfl, fun _ _ => id⟩

theorem trans (h : s.Calm k t) (g : t.Calm k u) : s.Calm k u :=
  ⟨g.cx.trans h.cx, g.mem.trans h.mem, g.opNext.trans h.opNext, g.time.trans h.time, g.asleep.trans h.asleep, g.cmr.trans h.cmr,
    fun i o e => h.ops i o (g.ops i o e)⟩

/-- A step that what stays calm does not see. -/
theorem of_unseen {f : State → State} (hf : ∀ {β : Type} {g : State → β}, (∀ t r l w p, g { t with
    regs := r, lnch := l, well := w, pins := p } = g t) → ∀ t, g (f t) = g t) (h : s.Calm k t) : s.Calm k (f t) :=
  h.trans ⟨hf (g := fun t => t.cx k) (fun _ _ _ _ _ => rfl) t, hf (g := State.mem) (fun _ _ _ _ _ => rfl) t,
    hf (g := State.opNext) (fun _ _ _ _ _ => rfl) t, hf (g := State.time) (fun _ _ _ _ _ => rfl) t,
    hf (g := State.asleep) (fun _ _ _ _ _ => rfl) t, hf (g := State.cmr) (fun _ _ _ _ _ => rfl) t, fun i o e => by
      rwa [hf (g := fun t => t.op i) (fun _ _ _ _ _ => rfl) t] at e⟩

theorem leaveIdle (h : s.Calm k t) : s.Calm k t.leaveIdle := by
  have hg : ∀ {β : Type} {g : State → β}, (∀ t p, g { t with pwr := p } = g t) → g t.leaveIdle = g t := fun hp =>
    State.leaveIdle_unseen hp t
  exact h.trans ⟨hg (g := fun t => t.cx k) fun _ _ => rfl, hg (g := State.mem) fun _ _ => rfl, hg (g := State.opNext) fun _ _ => rfl,
    hg (g := State.time) fun _ _ => rfl, t.leaveIdle_asleep, hg (g := State.cmr) fun _ _ => rfl, fun i o e => by
      rwa [hg (g := fun t => t.op i) fun _ _ => rfl] at e⟩

theorem dropOp (h : s.Calm k t) (id : Nat) : s.Calm k (t.dropOp id) := by
  refine h.trans ⟨rfl, rfl, rfl, rfl, rfl, rfl, fun i o e => ?_⟩
  by_cases hi : i = id
  · rw [hi, State.op_dropOp_self] at e
    exact absurd e (by simp)
  · rwa [State.op_dropOp_ne _ _ _ hi] at e

theorem setCx (h : s.Calm k t) {j : Nat} (hj : k ≠ j) (c : Ctx) : s.Calm k (t.setCx j c) :=
  h.trans ⟨State.cx_setCx_ne _ _ _ _ hj, rfl, rfl, rfl, rfl, rfl, fun _ _ e => e⟩

/-- A context that waits for no operation is told of none. -/
theorem opReport (h : s.Calm k t) (hk : (s.cx k).susp = .none) (id : Nat) (o : RadioOp) (status extra : Nat) :
    s.Calm k (t.opReport id o status extra) := by
  unfold State.opReport
  split
  · exact h
  next j _ =>
    split
    next hs =>
      have hj : k ≠ j.val := by
        rintro rfl
        rw [h.cx, hk] at hs
        exact absurd hs (by simp)
      dsimp only
      have hfin : ∀ u : State, s.Calm k u → ∀ d w, s.Calm k (u.finish j.val d w) := fun u hu d w => (hu.setCx hj _).leaveIdle
      split
      · exact hfin _ (h.setCx hj _) _ _
      · exact hfin _ h _ _
    · exact h

theorem opTell (h : s.Calm k t) (hk : (s.cx k).susp = .none) (id : Nat) (o : RadioOp) (status extra : Nat) :
    s.Calm k (t.opTell id o status extra) := by
  unfold State.opTell
  split
  · split
    · exact h.opReport hk _ _ _ _
    · exact h
  · exact h.opReport hk _ _ _ _

theorem opEnd (h : s.Calm k t) (hk : (s.cx k).susp = .none) (id status extra : Nat) : s.Calm k (t.opEnd id status extra) := by
  unfold State.opEnd
  split
  · exact h
  next o _ =>
    have hw : s.Calm k (t.withdraw (.pa id)) := h.of_unseen (f := fun t => t.withdraw (.pa id)) fun hg t => hg t t.regs t.lnch _ t.pins
    have hc : s.Calm k ((t.withdraw (.pa id)).claimLapse id o) := hw.of_unseen (f := fun t => t.claimLapse id o) fun hg t =>
      State.claimLapse_unseen (fun t w => hg t t.regs t.lnch w t.pins) t id o
    have hd : s.Calm k (((t.withdraw (.pa id)).claimLapse id o).opDrop id o) := by
      unfold State.opDrop
      refine State.Calm.dropOp ?_ id
      split
      next n _ =>
        split
        · exact hc.of_unseen (f := fun t => t.lnOff n.val) fun hg t =>
            State.lnOff_unseen (fun t r l => hg t r l t.well t.pins) t n.val
        · exact hc
      · exact hc
    rw [State.opClose_eq]
    have ht : s.Calm k (if o.kind.sends then (((t.withdraw (.pa id)).claimLapse id o).opDrop id o).txpEnd status
        else ((t.withdraw (.pa id)).claimLapse id o).opDrop id o) := by
      split
      · exact hd.of_unseen (f := fun t => t.txpEnd status) fun hg t =>
          State.txpEnd_unseen (fun t r => hg t r t.lnch t.well t.pins) t status
      · exact hd
    exact ht.opTell hk id o status extra

/-- A transmission that has not begun on the air ends. -/
theorem txEnd (h : s.Calm k t) (hk : (s.cx k).susp = .none) {id : Nat} (hl : ∀ o, t.op id = some o → o.tailing = false ∧ o.kind ≠ .ack)
    (status extra : Nat) : s.Calm k (t.txEnd id status extra) := by
  unfold State.txEnd
  split
  · exact h
  next o ho =>
    obtain ⟨htail, hack⟩ := hl o ho
    have hfree : s.Calm k (if o.holds then t.txFree else t) := by
      split
      · have hsw : s.Calm k (t.switchRx.setFld TXP_STAT.ACTIVE 0) := h.of_unseen (f := fun t => t.switchRx.setFld TXP_STAT.ACTIVE 0)
          fun hg t => hg t _ t.lnch t.well _
        exact hsw.leaveIdle
      · exact h
    rw [htail, if_neg (by decide), if_neg (by simp [hack])]
    exact hfree.opEnd hk _ _ _

end State.Calm

/-- The operation `i` of the beacons stopped. -/
def State.gackEnd (s : State) (i : Nat) : State :=
  match s.op i with
  | some o =>
    if o.kind == .gack then
      State.opReport (State.dropOp (match o.lnch with
        | some n => s.lnOff n.val
        | none => s) i) i o Status.aborted 0
    else if o.kind == .beacon && !o.launched then s.txEnd i Status.aborted 0
    else s
  | none => s

/-- The beacon's engine with no beacons. -/
def State.macStopped (s : State) : State :=
  { s with mac := { s.mac with sf0 := none, ann := annHold s.mac.ann, heard := [], opened := [], base := 0, done := 0 } }

theorem State.gackStop_eq (s : State) : s.gackStop = (s.opIds.foldl State.gackEnd s).macStopped := rfl

/-- The operation ends, and it is no GACK any more. -/
theorem State.Calm.gackEnd {k : Nat} {s t : State} (h : s.Calm k t) (hk : (s.cx k).susp = .none) (i : Nat) :
    s.Calm k (t.gackEnd i) ∧ ∀ o, (t.gackEnd i).op i = some o → o.kind ≠ .gack := by
  have hkt : (t.cx k).susp = .none := by rw [h.cx, hk]
  unfold State.gackEnd
  split
  next o ho =>
    have hself : ∀ u : State, t.Calm k u → o.kind ≠ .gack → s.Calm k u ∧ ∀ p, u.op i = some p → p.kind ≠ .gack :=
      fun u hu hne => ⟨h.trans hu, fun p hp => by
        obtain rfl := Option.some.inj (ho.symm.trans (hu.ops i p hp))
        exact hne⟩
    split
    next hg =>
      have hoff : t.Calm k (match o.lnch with
          | some n => t.lnOff n.val
          | none => t) := by
        split
        next n _ => exact (State.Calm.refl k t).of_unseen (f := fun t => t.lnOff n.val) fun hg t =>
          State.lnOff_unseen (fun t r l => hg t r l t.well t.pins) t n.val
        · exact State.Calm.refl k t
      generalize (match o.lnch with
          | some n => t.lnOff n.val
          | none => t) = u at hoff ⊢
      have hd := hoff.dropOp i
      have hr := (State.Calm.refl k (u.dropOp i)).opReport (by rw [hd.cx, hkt]) i o Status.aborted 0
      refine ⟨h.trans (hd.trans hr), fun p hp => ?_⟩
      have := hr.ops i p hp
      rw [State.op_dropOp_self] at this
      exact absurd this (by simp)
    next hg =>
      have hne : o.kind ≠ .gack := by simpa using hg
      split
      next hb =>
        rw [Bool.and_eq_true] at hb
        obtain ⟨hbeacon, hlaunched⟩ := hb
        have htail : o.tailing = false := by
          unfold RadioOp.launched at hlaunched
          cases ht : o.tailing
          · rfl
          · rw [ht] at hlaunched
            simp at hlaunched
        refine hself _ ((State.Calm.refl k t).txEnd hkt (fun p hp => ?_) _ _) hne
        obtain rfl := Option.some.inj (ho.symm.trans hp)
        exact ⟨htail, by rw [eq_of_beq hbeacon]; decide⟩
      · exact hself _ (State.Calm.refl k t) hne
  next ho => exact ⟨h, fun o e => absurd (ho.symm.trans e) (by simp)⟩

theorem State.Calm.gackEnds {k : Nat} {s t : State} (h : s.Calm k t) (hk : (s.cx k).susp = .none) (ids : List Nat) :
    s.Calm k (ids.foldl State.gackEnd t) ∧ ∀ i ∈ ids, ∀ o, (ids.foldl State.gackEnd t).op i = some o → o.kind ≠ .gack := by
  induction ids generalizing s t with
  | nil => exact ⟨h, fun _ hi => absurd hi (by simp)⟩
  | cons j ids ih =>
    obtain ⟨hc, hj⟩ := h.gackEnd hk j
    obtain ⟨hrest, hother⟩ := ih hc hk
    obtain ⟨hself, -⟩ := ih (State.Calm.refl k (t.gackEnd j)) (by rw [hc.cx, hk])
    refine ⟨hrest, fun i hi o ho => ?_⟩
    rcases List.mem_cons.mp hi with rfl | hi
    · exact hj o (hself.ops i o ho)
    · exact hother i hi o ho

theorem Tab.mem_of_get {α : Type} {l : Tab (Option α)} {i : Nat} {v : α} (h : Tab.get (fun _ => none) l i = some v) :
    i ∈ l.map (·.1) := by
  induction l with
  | nil => exact absurd h (by simp [Tab.get])
  | cons e l ih =>
    rw [List.map_cons, List.mem_cons]
    by_cases hi : i = e.1
    · exact .inl hi
    · refine .inr (ih ?_)
      simpa [Tab.get, hi] using h

/-- The beacons stop: no GACK is left, and a context that waits for no operation is untouched. -/
theorem State.gackStop_calm {s : State} {k : Nat} (hk : (s.cx k).susp = .none) :
    s.Calm k s.gackStop ∧ (∀ i o, s.gackStop.op i = some o → o.kind ≠ .gack) ∧ s.gackStop.mac.sf0 = none := by
  obtain ⟨hc, hno⟩ := (State.Calm.refl k s).gackEnds hk s.opIds
  rw [State.gackStop_eq]
  generalize s.opIds.foldl State.gackEnd s = t at hc hno
  refine ⟨hc.trans ⟨rfl, rfl, rfl, rfl, rfl, rfl, fun _ _ e => e⟩, fun i o ho => ?_, rfl⟩
  have ho' : t.op i = some o := ho
  exact hno i (Tab.mem_of_get (hc.ops i o ho')) o ho'


section
variable {s u : State} {k : Fin 64} {env : Env} {w : Nat} {c : Ctx} {x : Desc}

/-! GACK with STOP (R165). -/

theorem stopBits {w : Nat} (h : natBits w 17 0 = 8) : (radioOk w 0xF false && tsOk w) = true ∧ w.testBit 3 = true ∧ atBit w = false := by
  have hb : fb w = 0 ∧ fx w < 2 ^ 4 ∧ natBits w 3 3 = 1 ∧ natBits w 2 2 = 0 ∧ natBits w 1 0 = 0 := by
    unfold fb fx
    simp only [natBits_eq_div_mod] at h ⊢
    omega
  obtain ⟨hfb, hfx, h3, h2, h0⟩ := hb
  have hrad : radioOk w (2 ^ 4 - 1) false = true := radioOk_of hfx (.inr hfb)
  unfold tsOk atBit
  rw [testBit_eq_natBits, testBit_eq_natBits, h3, h2, h0]
  simpa using hrad

theorem State.Radio.gack_stops (r : s.Radio k env w u c x) (ho : natBits w 31 26 = 0x37) (hx : natBits w 17 0 = 8)
    (hok : u.gackOk x false = true) (hsu : c.susp = .none) : ∃ t, exec (.opGack k env) s = .next t ∧ t.mac.sf0 = none ∧
      (∀ i o, t.op i = some o → o.kind ≠ .gack) ∧ t.cx k.val = { c.next.wr (fd w) (BitVec.ofNat 32 (u.radioWord 0 false 0)) with
        st := .ready, susp := .none, z := true, since := u.stamp } ∧ t.mem = u.mem ∧ t.opNext = s.opNext := by
  obtain ⟨henc, h3, h2⟩ := stopBits hx
  have hexec : exec (.opGack k env) s = .next ((u.next k).gackStop.radioNow k (fd w) Status.ok 0) := by
    show execOpGack k env s = _
    unfold execOpGack
    rw [State.issue_fetches r.fetch ho, State.coded_ok _ _ _ henc, r.state, r.radio]
    dsimp only
    rw [h3, if_pos rfl, h2]
    exact congrArg _ (if_pos hok)
  have hcx := r.cx_next
  obtain ⟨hc, hno, hsf⟩ := State.gackStop_calm (s := u.next k) (k := k.val) (by rw [hcx]; exact hsu)
  generalize (u.next k).gackStop = t at hexec hc hno hsf
  have hword : t.radioWord Status.ok false 0 = u.radioWord 0 false 0 := by
    have hq : t.qual = u.qual := by
      unfold State.qual
      rw [hc.cmr, hc.asleep]
      rfl
    unfold State.radioWord
    rw [hq]
    rfl
  have hst : t.stamp = u.stamp := by
    unfold State.stamp
    rw [hc.asleep, hc.time]
    rfl
  have hmod : u.radioWord 0 false 0 % 256 = 0 := u.radioWord_mod (by decide) _ _
  unfold State.radioNow at hexec
  rw [hword] at hexec
  refine ⟨_, hexec, ?_, fun i o hi => ?_, ?_, ?_, ?_⟩
  · rw [State.finish_unseen (g := fun t => t.mac.sf0) (fun _ _ _ => rfl), hsf]
  · rw [State.finish_unseen (g := fun t => t.op i) (fun _ _ _ => rfl)] at hi
    exact hno i o hi
  · rw [State.cx_finish, hc.cx, hcx, hmod, hst]
    rfl
  · rw [State.finish_unseen (g := State.mem) (fun _ _ _ => rfl), hc.mem]
    rfl
  · rw [State.finish_unseen (g := State.opNext) (fun _ _ _ => rfl), hc.opNext, ← r.opNext]
    rfl

/-! GACK with AT (R162, R166). -/

theorem State.gackStop_idle {u : State} (h : u.ops = []) : u.gackStop = u.macStopped := by
  rw [State.gackStop_eq]
  unfold State.opIds
  rw [h]
  rfl

theorem gackBits {w : Nat} (h : natBits w 17 2 = 1) : (radioOk w 0xF false && tsOk w) = true ∧ w.testBit 3 = false ∧ atBit w = true := by
  obtain ⟨hfb, hfx, h2, h3, -⟩ := atAlone h
  have hrad : radioOk w (2 ^ 4 - 1) false = true := radioOk_of (by omega) (.inr hfb)
  unfold tsOk atBit
  rw [h2]
  exact ⟨by simpa using hrad, h3, rfl⟩

/-- The operation of a GACK. -/
def State.gackOp (u : State) (x : Desc) (k : Fin 64) (w : Nat) (c : Ctx) : RadioOp :=
  { x.op .gack k (fd w) c with
    level := u.levelOf x.level, pidx := 0xFFFF, doSeal := false
    ant := u.txAnt false 0xFFFF none (wordOf2 (2 * x.freq)), origin := u.stamp }

theorem State.Radio.gack_starts (r : s.Radio k env w u c x) (ho : natBits w 31 26 = 0x37) (hx : natBits w 17 2 = 1)
    (hcmr : u.cmr.st ≠ 6) (hok : u.gackOk x true = true) (href : u.gackRefused x = false) (hln : x.lnch < 32)
    (hoff : u.launcher x.lnch = Lnch.off) : exec (.opGack k env) s =
      .next ((u.next k).gackStart k (u.gackOp x k w c.next) ⟨x.lnch, hln⟩ (c.stampOf (natBits w 1 0))) := by
  obtain ⟨henc, h3, h2⟩ := gackBits hx
  have hgo : (atBit w && u.gackOk x true && !u.gackRefused x) = true := by
    rw [h2, hok, href]
    rfl
  show execOpGack k env s = _
  unfold execOpGack
  rw [State.issue_fetches r.fetch ho, State.coded_ok _ _ _ henc, r.state, r.radio]
  dsimp only
  rw [h3, if_neg (by decide), State.radioGo_runs hgo hcmr, State.withLnch_off (u := u.next k) hln hoff, r.cx_next]
  rfl

end


section
variable {s u : State} {k : Fin 64} {env : Env} {w : Nat} {c : Ctx} {x : Desc}

/-- A GACK operation armed on launcher `n` for SF0. -/
def RadioOp.gackAt (o : RadioOp) (n : Fin 32) (t : Nat) : RadioOp := { o with at_ := true, lnch := some n, t := t, phase := .window }

/-- The GACK operation added, its context parked on it, SF0 fixed. -/
def State.gackSet (u : State) (k : Fin 64) (c : Ctx) (o : RadioOp) (n : Fin 32) (t : Nat) : State :=
  let v := (u.macStopped.addOp (o.gackAt n t)).parked k c .radio (.radio u.opNext)
  { v with mac := { v.mac with sf0 := some t } }

/-- The beacon engine set up with its launcher armed. -/
def State.gackArmed (u : State) (k : Fin 64) (c : Ctx) (o : RadioOp) (n : Fin 32) (t : Nat) : State :=
  (u.gackSet k c o n t).armRadio n t (u.bo + 3) o.pol k u.opNext (u.lateArm t)

/-- The first beacon of a GACK operation whose beacons are not sealed. -/
def State.beaconOp (u : State) (o : RadioOp) (n : Fin 32) (t : Nat) : RadioOp :=
  { o with
    kind := .beacon, ctx := none, phase := .release, at_ := true, pol := 1, lnch := some n, t := t, buf := u.opNext
    doSeal := false, key := u.fld MAC_ROLE.BKEY, pre := u.fld TXP_CTRL.PRE_LEN }

theorem State.gackSet_unseen {β : Type} {g : State → β} (hg : ∀ t o n c m, g { t with ops := o, opNext := n, ctx := c, mac := m } = g t)
    (u : State) (k : Fin 64) (c : Ctx) (o : RadioOp) (n : Fin 32) (t : Nat) : g (u.gackSet k c o n t) = g u := by
  obtain ⟨v, hv, -, -, hsame⟩ := State.adds_to u.macStopped (o.gackAt n t) k c .radio (.radio u.opNext)
  have hset : u.gackSet k c o n t = { v with mac := { v.mac with sf0 := some t } } := by
    rw [hv]
    rfl
  rw [hset]
  exact (hg v v.ops v.opNext v.ctx _).trans ((hsame fun t o n c => hg t o n c t.mac).trans (hg u u.ops u.opNext u.ctx _))

theorem State.cx_gackSet (u : State) (k : Fin 64) (c : Ctx) (o : RadioOp) (n : Fin 32) (t : Nat) :
    (u.gackSet k c o n t).cx k.val = { c.next with st := .parked .radio, susp := .radio u.opNext } := State.cx_parked _ _ _ _ _

theorem State.op_gackSet (u : State) (k : Fin 64) (c : Ctx) (o : RadioOp) (n : Fin 32) (t : Nat) :
    (u.gackSet k c o n t).op u.opNext = some (o.gackAt n t) := State.op_addOp u.macStopped _

theorem State.Radio.gackStart_eq (r : s.Radio k env w u c x) (ho : u.ops = []) (o : RadioOp) (n : Fin 32) (t : Nat) :
    (u.next k).gackStart k o n t = (u.gackArmed k c o n t).beaconNew u.opNext n t := by
  have hstop : (u.next k).gackStop = u.macStopped.next k := State.gackStop_idle ho
  have hpark : ((u.macStopped.next k).addOp (o.gackAt n t)).park k.val .radio (.radio u.opNext) =
      (u.macStopped.addOp (o.gackAt n t)).parked k c .radio (.radio u.opNext) :=
    State.addOp_parks (u := u.macStopped) r.ctx r.ready _ _ _
  have hid : (u.macStopped.next k).opNext = u.opNext := rfl
  unfold State.gackStart
  dsimp only
  rw [hstop, hid]
  unfold RadioOp.gackAt at hpark
  rw [hpark]
  have hbo : (u.gackSet k c o n t).bo = u.bo := State.gackSet_unseen (g := State.bo) (fun _ _ _ _ _ => rfl) u k c o n t
  have hlate : (u.gackSet k c o n t).lateArm t = u.lateArm t :=
    State.gackSet_unseen (g := fun s => s.lateArm t) (fun _ _ _ _ _ => rfl) u k c o n t
  unfold State.gackArmed
  rw [← hbo, ← hlate]
  rfl

end

section
variable {s u : State} {k : Fin 64} {env : Env} {w : Nat} {c : Ctx} {x : Desc}

section
variable {n : Fin 32} (hoff : (u.launcher n.val).op = none) (c : Ctx) (o : RadioOp) (t : Nat)
include hoff

theorem State.gackSet_off : ((u.gackSet k c o n t).launcher n.val).op = none :=
  (State.gackSet_unseen (g := fun s => (s.launcher n.val).op) (fun _ _ _ _ _ => rfl) u k c o n t).trans hoff

/-- Beyond the beacon engine's own state, its operation, its launcher and a free value nothing is seen to change. -/
theorem State.gackArmed_unseen {β : Type} {g : State → β}
    (hg : ∀ t o n c m, g { t with ops := o, opNext := n, ctx := c, mac := m } = g t)
    (hl : ∀ t r l, g { t with regs := r, lnch := l } = g t) (hf : ∀ t n, g { t with free := n } = g t) :
    g (u.gackArmed k c o n t) = g u :=
  (State.armRadio_unseen hl hf (State.gackSet_off hoff c o t) _ _ _ _ _ _).trans (State.gackSet_unseen hg u k c o n t)

theorem State.reg_gackArmed {m : Nat} (hm : m < 0x5100 ∨ 0x5300 ≤ m) : (u.gackArmed k c o n t).reg m = u.reg m :=
  (State.reg_armRadio (State.gackSet_off hoff c o t) _ _ _ _ _ _ hm).trans
    (State.gackSet_unseen (g := fun s => s.reg m) (fun _ _ _ _ _ => rfl) u k c o n t)

/-- The armed beacon engine: its operation waits for its window, its context waits for it, SF0 is fixed. -/
theorem State.gackArmed_parts : (u.gackArmed k c o n t).op u.opNext = some (o.gackAt n t) ∧
    (u.gackArmed k c o n t).opNext = u.opNext + 1 ∧ (u.gackArmed k c o n t).mac.sf0 = some t ∧
    (u.gackArmed k c o n t).cx k.val = { c.next with st := .parked .radio, susp := .radio u.opNext } := by
  have hv := State.gackSet_off (k := k) hoff c o t
  unfold State.gackArmed
  rw [State.armRadio_unseen (g := fun s => s.op u.opNext) (fun _ _ _ => rfl) (fun _ _ => rfl) hv,
    State.armRadio_unseen (g := State.opNext) (fun _ _ _ => rfl) (fun _ _ => rfl) hv,
    State.armRadio_unseen (g := fun s => s.mac.sf0) (fun _ _ _ => rfl) (fun _ _ => rfl) hv,
    State.armRadio_unseen (g := fun s => s.cx k.val) (fun _ _ _ => rfl) (fun _ _ => rfl) hv]
  exact ⟨State.op_gackSet _ _ _ _ _ _, rfl, rfl, State.cx_gackSet _ _ _ _ _ _⟩

theorem State.launcher_gackArmed : ∃ arg, (u.gackArmed k c o n t).launcher n.val =
    ⟨true, t, 1, arg, u.bo + 3, o.pol, some k, some u.opNext, u.lateArm t, none⟩ :=
  State.launcher_armRadio (State.gackSet_off hoff c o t) _ _ _ _ _ _

/-- The first beacon, not sealed, begins its transmission. -/
theorem State.beaconNew_gackArmed (hb : u.fld MAC_ROLE.BLEVEL = 0) : (u.gackArmed k c o n t).beaconNew u.opNext n t =
    ((u.gackArmed k c o n t).addOp (u.beaconOp o n t)).txBegin (u.opNext + 1) := by
  obtain ⟨hop, hnext, -, -⟩ := State.gackArmed_parts (k := k) hoff c o t
  have hreg := fun m hm => State.reg_gackArmed (k := k) hoff c o t (m := m) hm
  have hrole := State.fld_of_reg (f := MAC_ROLE.BLEVEL) (hreg _ (by decide))
  have hkey := State.fld_of_reg (f := MAC_ROLE.BKEY) (hreg _ (by decide))
  have hpre := State.fld_of_reg (f := TXP_CTRL.PRE_LEN) (hreg _ (by decide))
  generalize u.gackArmed k c o n t = y at hop hnext hrole hkey hpre ⊢
  unfold State.beaconNew
  rw [hop]
  dsimp only
  rw [hnext, hrole, hkey, hpre, hb]
  rfl

theorem State.TxFree.gackArmed {freq : Nat} (hf : u.TxFree freq) : (u.gackArmed k c o n t).TxFree freq := by
  have hsyt : (u.gackArmed k c o n t).syt = u.syt :=
    State.gackArmed_unseen (g := State.syt) hoff c o t (fun _ _ _ _ _ => rfl) (fun _ _ _ => rfl) fun _ _ => rfl
  have hreg := fun m hm => State.reg_gackArmed (k := k) hoff c o t (m := m) hm
  exact ⟨hf.word, by rw [hsyt, hf.at_], by rw [hsyt, hf.lock], (State.on_of_reg (hreg _ (by decide))).trans hf.on,
    (State.on_of_reg (hreg _ (by decide))).trans hf.req, fun i hi => (State.acctOn_of_fixed hreg hi).trans (hf.acct i hi)⟩

end

theorem State.addOp_unseen {β : Type} {g : State → β} (hg : ∀ t o n, g { t with ops := o, opNext := n } = g t) (s : State) (o : RadioOp) :
    g (s.addOp o) = g s := hg s _ _

/-- An operation added is begun where nothing holds a transmission back. -/
theorem State.TxFree.begins {y : State} {o : RadioOp} (hf : y.TxFree o.freq) (hseal : o.doSeal = false) (hkind : o.kind ≠ .txf)
    (hctx : o.ctx = none) : (y.addOp o).Begun y.opNext o ((y.addOp o).txBegin y.opNext) := by
  have hk : (o.kind == .txf) = false := beq_eq_false_iff_ne.mpr hkind
  have hv : ∀ {β : Type} {g : State → β}, (∀ t o n, g { t with ops := o, opNext := n } = g t) → g (y.addOp o) = g y := fun hg =>
    State.addOp_unseen hg y o
  have hop := y.op_addOp o
  generalize y.addOp o = v at hop hv ⊢
  have hreg : ∀ m, v.reg m = y.reg m := fun m => hv (g := fun s => s.reg m) fun _ _ _ => rfl
  have hsyt : v.syt = y.syt := hv (g := State.syt) fun _ _ _ => rfl
  refine State.txBegin_begun hop (fun i hi => (State.acctOn_of_reg (fun m _ => hreg m) hi).trans (hf.acct i hi))
    ((State.on_of_reg (hreg _)).trans hf.on)
    (by rw [hsyt, hf.at_]) (by rw [hsyt, hf.lock]) hseal (by rw [hk]; rfl) fun j hj => absurd (hctx.symm.trans hj) (by simp)

/-- Beside an operation that begins, what was there stays. -/
theorem State.Begun.beside {y v : State} {o : RadioOp} (h : (y.addOp o).Begun y.opNext o v) :
    (∀ i, i ≠ y.opNext → v.op i = y.op i) ∧ v.opNext = y.opNext + 1 ∧ ∀ {β : Type} {g : State → β}, (∀ t o n c f, g { t with
      ops := o, opNext := n, ctx := c, free := f } = g t) → g v = g y :=
  ⟨fun i hi => (h.step.other i hi).trans (State.op_setOp_ne _ _ _ _ hi), h.step.unseen (g := State.opNext) fun _ _ _ _ => rfl,
    fun hg => (h.step.unseen fun t o c f => hg t o t.opNext c f).trans (State.addOp_unseen (fun t o n => hg t o n t.ctx t.free) y o)⟩

/-- GACK has armed its launcher for SF0, its context waits for it, and its first beacon waits for its release point. -/
structure State.Beaconing (v : State) (k n : Nat) (c : Ctx) (id t freq : Nat) (l : Nat → Lnch) : Prop where
  cx : v.cx k = { c.next with st := .parked .radio, susp := .radio id }
  sf0 : v.mac.sf0 = some t
  launcher : ∃ arg, v.launcher n = l arg
  gack : ∃ g, v.op id = some g ∧ g.kind = .gack
  beacon : ∃ q, v.op (id + 1) = some q ∧ q.kind = .beacon ∧ q.phase = .release ∧ q.t = t ∧ q.freq = freq
  opNext : v.opNext = id + 2

theorem State.gackStarted {n : Fin 32} {o : RadioOp} {t : Nat} (hoff : (u.launcher n.val).op = none) (hf : u.TxFree o.freq)
    (hb : u.fld MAC_ROLE.BLEVEL = 0) (hkind : o.kind = .gack) : ((u.gackArmed k c o n t).beaconNew u.opNext n t).Beaconing k.val n.val c
      u.opNext t o.freq (fun arg => ⟨true, t, 1, arg, u.bo + 3, o.pol, some k, some u.opNext, u.lateArm t, none⟩) ∧
      ((u.gackArmed k c o n t).beaconNew u.opNext n t).mem = u.mem := by
  have hfree : (u.gackArmed k c o n t).TxFree (u.beaconOp o n t).freq := State.TxFree.gackArmed hoff c o t hf
  obtain ⟨hop, hnext, hsf, hcx⟩ := State.gackArmed_parts (k := k) hoff c o t
  have hmem := State.gackArmed_unseen (k := k) (g := State.mem) hoff c o t (fun _ _ _ _ _ => rfl) (fun _ _ _ => rfl) fun _ _ => rfl
  obtain ⟨arg, hln⟩ := State.launcher_gackArmed (k := k) hoff c o t
  rw [State.beaconNew_gackArmed hoff c o t hb, ← hnext]
  generalize u.gackArmed k c o n t = y at hfree hop hnext hsf hcx hmem hln ⊢
  have hbegun := hfree.begins rfl (by show OpKind.beacon ≠ .txf; decide) rfl
  generalize (y.addOp (u.beaconOp o n t)).txBegin y.opNext = v at hbegun ⊢
  obtain ⟨q, hq, hph, hplan⟩ := hbegun.op
  have hcxs := hbegun.step.cx
  have hcx' : (y.addOp (u.beaconOp o n t)).cx k.val = _ := (State.addOp_unseen (g := fun s => s.cx k.val) (fun _ _ _ => rfl) y _).trans hcx
  obtain ⟨hother, hnext', hun⟩ := hbegun.beside
  have hseen : ∀ {β : Type} (g : RadioOp → β), (∀ x, g x.plan = g x) → g q = g (u.beaconOp o n t) := fun g hg =>
    RadioOp.plan_seen hplan g hg
  rw [hnext] at hq hnext' hother
  refine ⟨⟨(hcxs k.val).trans hcx', ?_, ⟨arg, ?_⟩, ⟨_, (hother _ (by omega)).trans hop, hkind⟩, ⟨q, hq, hseen RadioOp.kind fun _ => rfl, hph,
    hseen RadioOp.t fun _ => rfl, hseen RadioOp.freq fun _ => rfl⟩, hnext'⟩, ?_⟩
  · rw [hun (g := fun s => s.mac.sf0) fun _ _ _ _ _ => rfl]
    exact hsf
  · rw [hun (g := fun s => s.launcher n.val) fun _ _ _ _ _ => rfl]
    exact hln
  · rw [hun (g := State.mem) fun _ _ _ _ _ => rfl]
    exact hmem

end

section
variable {s u : State} {k : Fin 64} {env : Env} {w : Nat} {c : Ctx} {x : Desc}

theorem State.Radio.gack_armed (r : s.Radio k env w u c x) (ho : natBits w 31 26 = 0x37) (hx : natBits w 17 2 = 1)
    (hcmr : u.cmr.st ≠ 6) (hok : u.gackOk x true = true) (hln : x.lnch < 32) (hoff : u.launcher x.lnch = Lnch.off)
    (hf : u.TxFree (2 * x.freq)) (hb : u.fld MAC_ROLE.BLEVEL = 0) (hidle : u.ops = []) : ∃ v, exec (.opGack k env) s = .next v ∧
      v.Beaconing k.val x.lnch c u.opNext (c.stampOf (natBits w 1 0)) (2 * x.freq) (fun arg => ⟨true, c.stampOf (natBits w 1 0), 1, arg,
        u.bo + 3, x.pol, some k, some u.opNext, u.lateArm (c.stampOf (natBits w 1 0)), none⟩) ∧ v.mem = u.mem := by
  have href : u.gackRefused x = false := State.txRefused_none hf.acct hf.req hf.word _ _
  have hexec := r.gack_starts ho hx hcmr hok href hln hoff
  rw [r.gackStart_eq hidle] at hexec
  have hl : (u.launcher (⟨x.lnch, hln⟩ : Fin 32).val).op = none := congrArg Lnch.op hoff
  obtain ⟨hbeac, hmem⟩ := State.gackStarted (k := k) (c := c) (o := u.gackOp x k w c.next) (t := c.stampOf (natBits w 1 0)) hl hf hb rfl
  exact ⟨_, hexec, hbeac, hmem⟩

theorem State.Radio.rssi_answers (r : s.Radio k env w u c x) (ho : natBits w 31 26 = 0x36) (hb : natBits w 13 0 = 0)
    (hok : (x.freqOk && x.modeOk && x.rxOk) = true) (h1 : 1 ≤ (c.rd (fb w)).toNat) (hn : (c.rd (fb w)).toNat ≤ 128) :
    (∀ b m, u.span x.rx (2 * x.freq) (2 ^ x.width) = some (b, m) → exec (.opRssi k env) s =
      .next (u.answered k c (fd w) (u.radioWord 0 false (u.energyMax x.rx b m (c.rd (fb w)).toNat)))) ∧
    (u.span x.rx (2 * x.freq) (2 ^ x.width) = none →
      exec (.opRssi k env) s = .next (u.answered k c (fd w) (u.radioWord 0 false 255))) := by
  rw [r.rssi_eq ho hb hok h1 hn]
  generalize u.span x.rx (2 * x.freq) (2 ^ x.width) = p
  exact ⟨fun b m hp => by subst hp; rfl, fun hp => by subst hp; rfl⟩

end

/-- The fields of a GACK that the descriptor alone decides. -/
theorem State.gackOk_of {u : State} {x : Desc} {at_ : Bool} (hfr : x.freq < 2 ^ 17) (hmode : x.modeOk = true) (hopts : x.optsOk = true)
    (hlevel : x.levelOk = true) (hln : x.lnchOk at_ = true) (hsf : u.on MAC_ROLE.SF_EN = true) : u.gackOk x at_ = true := by
  unfold State.gackOk Desc.freqOk
  rw [decide_eq_true hfr, hmode, hopts, hlevel, hln, hsf]
  rfl

/-- Settles O35, instruction by instruction: each reads its descriptor without an error and begins. That RSSI answers 255 where no chain
covers the channel (log entry 74), and that the fields are judged ahead of a failed CMR, which RSSI does not see (log entry 70), are the
model's choices. -/
theorem radioInstructions : Obligations.RadioInstructions := by
  unfold Obligations.RadioInstructions
  intro k env w s h u c d a n x f id t0 waiting armed ha8 hspan hcl hfr
  have r : s.Radio k env w u c x := ⟨h, rfl, rfl, rfl, ha8, hspan, hcl⟩
  have hfreq : x.freqOk = true := decide_eq_true hfr
  refine ⟨fun ho hx hcmr hch hln hpol hwd hpair hoff => ?_, fun ho hb h0 hcmr hmode hch hp i hi hfree hbelow => ?_,
    fun ho hb hts => ⟨fun hmode => ?_, fun hmode hlost => ?_, fun hmode hcmr hat => ?_, fun hmode hcmr hat hra hrb => ?_⟩,
    fun ho hb hmode hch h1 hn => ?_, fun ho hmode hopts hlevel hsf => ⟨fun hx hcmr hln hwd hreq hacct hon hlock hword hbl hidle hoff => ?_,
      fun hx hsu => ?_⟩⟩
  case refine_1 =>
    obtain ⟨t, o, hexec, hcx, hlnch, hop, rfl, hnext, hsame⟩ :=
      r.tune_armed ho hx hcmr (State.tuneOk_at hfr hch hln hpol hwd hpair) hln hoff
    exact ⟨t, _, hexec, hcx, hlnch, hop, rfl, rfl, rfl, rfl, rfl, rfl, rfl, rfl, hnext, hsame⟩
  case refine_2 =>
    have hpidx : x.pidxOk = true := by
      unfold Desc.pidxOk
      simpa using hp
    exact r.rxwin_answers ho hb h0 hcmr hfreq hmode (decide_eq_true hch) hpidx (State.winFree_first hi hfree hbelow)
  case refine_3 =>
    rw [r.lbt_eq ho hb hts, State.radioGo_bad r.ctx r.ready (by rw [hmode, Bool.and_false])]
    rfl
  case refine_4 =>
    rw [r.lbt_eq ho hb hts, State.radioGo_lost r.ctx r.ready (by rw [hfreq, hmode]; rfl) hlost]
    rfl
  case refine_5 =>
    obtain ⟨t, hexec, hcx, hop, hnext, hsame⟩ := r.lbt_waits ho hb (by rw [hfreq, hmode]; rfl) hcmr hat
    have ht : (u.lbtOp x k w c).t = t0 := if_pos hat
    exact ⟨t, _, hexec, hcx, hop, rfl, rfl, rfl, ht, hnext, hsame⟩
  case refine_6 => exact r.lbt_uncovered ho hb hts (by rw [hfreq, hmode]; rfl) hcmr hat hra hrb
  case refine_7 =>
    exact r.rssi_answers ho hb (by rw [hfreq, hmode, show x.rxOk = true from decide_eq_true hch]; rfl) h1 hn
  case refine_8 =>
    have hok : u.gackOk x true = true := State.gackOk_of hfr hmode hopts hlevel (by unfold Desc.lnchOk; simp [hln]) hsf
    obtain ⟨v, hexec, ⟨hcx, hsf0, hlnch, ⟨g, hg, hgk⟩, ⟨q, hq, hqk, hph, hqt, hqf⟩, hnext⟩, hmem⟩ :=
      r.gack_armed ho hx hcmr hok hln hoff ⟨hwd, hword, hlock, hon, hreq, hacct⟩ hbl hidle
    rw [r.opNext] at hcx hlnch hg hq hnext
    exact ⟨v, g, q, hexec, hcx, hsf0, hlnch, hg, hgk, hq, hqk, hph, hqt, hqf, hnext, hmem⟩
  case refine_9 => exact r.gack_stops ho hx (State.gackOk_of hfr hmode hopts hlevel rfl hsf) hsu

end Sys2Proof.Machine


/-! The Palette starts and stops (R73, R76, R91). -/

namespace Sys2Proof.Machine

/-! What only the Palettes, the Well and the registers show. -/

/-- `t` is `s` with registers, Palettes and claims changed. -/
structure State.PalStep (s t : State) : Prop where
  unseen : ∀ {β : Type} {g : State → β}, (∀ t r a b w, g { t with regs := r, palA := a, palB := b, well := w } = g t) → g t = g s

namespace State.PalStep

variable {s t u : State}

theorem refl (s : State) : s.PalStep s := ⟨fun _ => rfl⟩

theorem trans (h : s.PalStep t) (k : t.PalStep u) : s.PalStep u := ⟨fun hg => (k.unseen hg).trans (h.unseen hg)⟩

theorem setPal (h : s.PalStep t) (c : Chain) (x : Palette) : s.PalStep (t.setPal c x) := by
  refine ⟨fun hg => ?_⟩
  cases c
  · exact (hg t t.regs x t.palB t.well).trans (h.unseen hg)
  · exact (hg t t.regs t.palA x t.well).trans (h.unseen hg)

theorem setFld (h : s.PalStep t) (f : Fld) (v : Nat) : s.PalStep (t.setFld f v) := ⟨fun hg =>
  (State.setFld_unseen (fun t r => hg t r t.palA t.palB t.well) t f v).trans (h.unseen hg)⟩

theorem raise (h : s.PalStep t) (f c : Fld) : s.PalStep (t.raise f c) := ⟨fun hg =>
  (State.raise_unseen (fun t r => hg t r t.palA t.palB t.well) t f c).trans (h.unseen hg)⟩

theorem withdraw (h : s.PalStep t) (x : Holder) : s.PalStep (t.withdraw x) := ⟨fun hg =>
  (hg t t.regs t.palA t.palB _).trans (h.unseen hg)⟩

theorem place (h : s.PalStep t) (x : Holder) (amt prio : Nat) (k : Ticket) : s.PalStep (t.place x amt prio k).1 := by
  refine ⟨fun hg => ?_⟩
  unfold State.place
  split
  · exact (State.deny_unseen (fun t r => hg t r t.palA t.palB t.well) t).trans (h.unseen hg)
  · exact (hg t t.regs t.palA t.palB _).trans (h.unseen hg)

/-- All else stands as it was. -/
theorem frame (h : s.touch.PalStep t) : { t with regs := s.regs, palA := s.palA, palB := s.palB, well := s.well } = s.touch := by
  refine (h.unseen (g := fun t : State => { t with regs := s.regs, palA := s.palA, palB := s.palB, well := s.well }) fun _ _ _ _ _ => rfl).trans ?_
  unfold State.touch
  split <;> rfl

end State.PalStep

/-! PALETTE_STOP. -/

/-- A Palette that has stopped within no bank word. -/
def Palette.stopped (x : Palette) (pos : Nat) : Palette := { x with part := [], stopPos := pos, cur := .zero, marker := false }

/-- CHZ_CTRL.RUN of a chain. -/
def runFld : Chain → Fld
  | .a => CHZ_CTRL.RUN_A | .b => CHZ_CTRL.RUN_B

theorem State.palRuns_setRun_self (s : State) (c : Chain) : (s.setFld (runFld c) 0).palRuns c = false ∧
    (s.setFld (runFld c) 1).palRuns c = true := by
  cases c
  · exact ⟨State.on_setFld_zero _ _ (by decide), State.on_setFld_one _ _ (by decide)⟩
  · exact ⟨State.on_setFld_zero _ _ (by decide), State.on_setFld_one _ _ (by decide)⟩

theorem State.palRuns_setRun_other (s : State) (c : Chain) (v : Nat) :
    (s.setFld (runFld c) v).palRuns (otherChain c) = s.palRuns (otherChain c) := by
  cases c
  · exact State.on_setFld_other s CHZ_CTRL.RUN_A CHZ_CTRL.RUN_B v (by decide)
  · exact State.on_setFld_other s CHZ_CTRL.RUN_B CHZ_CTRL.RUN_A v (by decide)

/-- A Palette within no bank word, stopped. -/
def State.palOff (s : State) (c : Chain) : State := (s.setPal c ((s.pal c).stopped s.pos)).setFld (runFld c) 0

theorem State.palStop_quiet {s : State} {c : Chain} (hr : s.palRuns c = true) (hp : (s.pal c).part = []) : s.palStop c =
    if (s.palOff c).palRuns .a || (s.palOff c).palRuns .b then s.palOff c else (s.palOff c).withdraw .erg := by
  have hflush : (s.ergFlush c).setPal c { (s.ergFlush c).pal c with cur := .zero, marker := false } =
      s.setPal c ((s.pal c).stopped s.pos) := by
    unfold State.ergFlush
    dsimp only
    rw [hp]
    cases c <;> rfl
  unfold State.palStop
  rw [if_pos hr]
  dsimp only at hflush ⊢
  rw [hflush]
  cases c <;> rfl

theorem otherChain_ne (c : Chain) : otherChain c ≠ c := by cases c <;> decide

theorem State.palRuns_or (s : State) (c : Chain) : (s.palRuns .a || s.palRuns .b) = (s.palRuns c || s.palRuns (otherChain c)) := by
  cases c
  · rfl
  · exact Bool.or_comm _ _

theorem exec_paletteStop_stops {c : Chain} {s : State} (hr : s.palRuns c = true)
    (hoff : s.palEnabled c = false ∨ s.chainOn c = false ∨ s.holds (.chzr c) = false) :
    exec (.paletteStop c) s = .next ((s.touch.palStop c).withdraw (.chzr c)) := by
  have hj : ∀ x y z : Bool, x = false ∨ y = false ∨ z = false → (!decide (x = true ∧ y = true ∧ z = true)) = true := by decide
  have hcond : s.touch.palRuns c ∧ !(s.touch.palEnabled c ∧ s.touch.chainOn c ∧ s.touch.holds (.chzr c)) := by
    refine ⟨?_, ?_⟩
    · exact (State.palRuns_of_reg (State.reg_of_regs s.touch_regs _) c).trans hr
    · refine hj _ _ _ ?_
      rw [State.touch_unseen (g := fun s => s.palEnabled c) (fun _ _ _ => rfl), State.touch_unseen (g := fun s => s.chainOn c)
        (fun _ _ _ => rfl), State.touch_unseen (g := fun s => s.holds (.chzr c)) fun _ _ _ => rfl]
      exact hoff
  show execPaletteStop c s = _
  unfold execPaletteStop
  exact if_pos hcond

theorem execPaletteStop_stops {c : Chain} {s : State} (hr : s.palRuns c = true)
    (hoff : s.palEnabled c = false ∨ s.chainOn c = false ∨ s.holds (.chzr c) = false) (hp : (s.pal c).part = []) :
    ∃ t, exec (.paletteStop c) s = .next t ∧ t.palRuns c = false ∧ t.holds (.chzr c) = false ∧
      (t.pal c).blocks = (s.pal c).blocks ∧ (t.pal c).marker = false ∧ t.palRuns (otherChain c) = s.palRuns (otherChain c) ∧
      t.pal (otherChain c) = s.pal (otherChain c) ∧ (s.palRuns (otherChain c) = false → t.holds .erg = false) ∧
      { t with regs := s.regs, palA := s.palA, palB := s.palB, well := s.well } = s.touch := by
  have hpal : ∀ d, s.touch.pal d = s.pal d := fun d => State.touch_unseen (g := fun s => s.pal d) (fun _ _ _ => by cases d <;> rfl) s
  have hruns : ∀ d, s.touch.palRuns d = s.palRuns d := State.palRuns_of_reg (State.reg_of_regs s.touch_regs _)
  have hexec := exec_paletteStop_stops hr hoff
  rw [← hruns] at hr
  rw [← hpal] at hp
  obtain ⟨v, hv⟩ : ∃ v, v = s.touch.palOff c := ⟨_, rfl⟩
  have hself : v.palRuns c = false := hv ▸ (State.palRuns_setRun_self _ c).1
  have hregs : (s.touch.setPal c ((s.touch.pal c).stopped s.touch.pos)).palRuns (otherChain c) = s.palRuns (otherChain c) :=
    (State.palRuns_of_reg (State.reg_of_regs (State.setPal_regs _ _ _) _) _).trans (hruns _)
  have hother : v.palRuns (otherChain c) = s.palRuns (otherChain c) := by
    rw [hv]
    exact (State.palRuns_setRun_other _ c 0).trans hregs
  have hpalc : v.pal c = (s.pal c).stopped s.touch.pos := by
    rw [hv, ← hpal c]
    exact State.pal_setPal_self s.touch c _
  have hpald : v.pal (otherChain c) = s.pal (otherChain c) := by
    rw [hv, ← hpal (otherChain c)]
    exact State.pal_setPal_ne s.touch c _ _ (otherChain_ne c)
  have hstep : s.touch.PalStep v := hv ▸ ((State.PalStep.refl _).setPal c _).setFld _ _
  rw [State.palStop_quiet hr hp, ← hv, State.palRuns_or v c, hself, hother, Bool.false_or] at hexec
  obtain ⟨x, hx, hxs⟩ : ∃ x, x = (if s.palRuns (otherChain c) = true then v else v.withdraw .erg) ∧ v.PalStep x := by
    refine ⟨_, rfl, ?_⟩
    split
    · exact .refl v
    · exact (State.PalStep.refl v).withdraw _
  rw [← hx] at hexec
  have hxp : ∀ d, (x.withdraw (.chzr c)).pal d = v.pal d := fun d => by
    rw [hx]
    cases d <;> split <;> rfl
  have hxr : ∀ d, (x.withdraw (.chzr c)).palRuns d = v.palRuns d := fun d => by
    refine State.palRuns_of_reg (State.reg_of_regs ?_ _) d
    rw [hx]
    split <;> rfl
  refine ⟨_, hexec, ?_, State.holds_withdraw _ _, ?_, ?_, ?_, ?_, fun hd => ?_, ?_⟩
  · rw [hxr, hself]
  · rw [hxp, hpalc]
    rfl
  · rw [hxp, hpalc]
    rfl
  · rw [hxr, hother]
  · rw [hxp, hpald]
  · rw [hx, hd]
    have he := State.holds_withdraw v .erg
    unfold State.holds at he ⊢
    rw [List.any_eq_false] at he ⊢
    exact fun q hq => he q (List.mem_filter.mp hq).1
  · exact ((hstep.trans hxs).withdraw _).frame

/-! PALETTE_START. -/

/-- A Palette as it starts. -/
def Palette.started (x : Palette) (now : Nat) : Palette := { x with start := now, gapAt := now, marker := true, cur := .zero }

/-- The Palette of chain `c` has started at `now`: RUN and GAP stand, its first sample will be a gap, the other is untouched. -/
structure State.Starts (s : State) (c : Chain) (now : Nat) (t : State) : Prop where
  runs : t.palRuns c = true
  pal : t.pal c = (s.pal c).started now
  gap : t.on CHZ_ERG_STAT.GAP = true
  other : t.palRuns (otherChain c) = s.palRuns (otherChain c)
  palOther : t.pal (otherChain c) = s.pal (otherChain c)

/-- A Palette started, its gap case counted. -/
def State.palGo (s : State) (c : Chain) : State :=
  let v := s.setFld (runFld c) 1
  (v.setPal c ((v.pal c).started v.stamp)).raise CHZ_ERG_STAT.GAP CHZ_ERG_STAT.GAP_CNT

theorem State.palStart_eq {s : State} {c : Chain} (h : s.palRuns c = false) : s.palStart c =
    if (s.palGo c).gapNow c then (s.palGo c).raise CHZ_ERG_STAT.GAP CHZ_ERG_STAT.GAP_CNT else s.palGo c := by
  unfold State.palStart
  rw [if_neg (by rw [h]; decide)]
  cases c <;> rfl

theorem State.reg_raise_ne (s : State) (f g : Fld) {o : Nat} (hf : o ≠ f.off) (hg : o ≠ g.off) : (s.raise f g).reg o = s.reg o := by
  unfold State.raise State.incSat
  rw [State.reg_setFld_ne _ _ _ _ hg, State.reg_setFld_ne _ _ _ _ hf]

theorem State.pal_raise (t : State) (f g : Fld) (d : Chain) : (t.raise f g).pal d = t.pal d :=
  State.raise_unseen (g := fun t => t.pal d) (fun _ _ => by cases d <;> rfl) t f g

theorem State.palRuns_raiseGap (t : State) (d : Chain) : (t.raise CHZ_ERG_STAT.GAP CHZ_ERG_STAT.GAP_CNT).palRuns d = t.palRuns d :=
  State.palRuns_of_reg (State.reg_raise_ne _ _ _ (by decide) (by decide)) d

/-- One gap case more leaves a Palette started. -/
theorem State.Starts.raise {s t : State} {c : Chain} {now : Nat} (h : s.Starts c now t) :
    s.Starts c now (t.raise CHZ_ERG_STAT.GAP CHZ_ERG_STAT.GAP_CNT) :=
  ⟨(t.palRuns_raiseGap c).trans h.runs, (t.pal_raise _ _ c).trans h.pal, State.on_raise (by decide) (by decide),
    (t.palRuns_raiseGap _).trans h.other, (t.pal_raise _ _ _).trans h.palOther⟩

theorem State.palGo_starts (s : State) (c : Chain) : s.Starts c s.stamp (s.palGo c) := by
  have hruns : ∀ d, (s.palGo c).palRuns d = (s.setFld (runFld c) 1).palRuns d := fun d =>
    (State.palRuns_raiseGap _ d).trans (State.palRuns_of_reg (State.reg_of_regs (State.setPal_regs _ _ _) _) d)
  have hpal : ∀ d, (s.setFld (runFld c) 1).pal d = s.pal d := fun d =>
    State.setFld_unseen (g := fun t => t.pal d) (fun _ _ => by cases d <;> rfl) s _ _
  refine ⟨(hruns c).trans (State.palRuns_setRun_self s c).2, ?_, State.on_raise (by decide) (by decide),
    (hruns _).trans (s.palRuns_setRun_other c 1), ?_⟩
  · refine (State.pal_raise _ _ _ c).trans ((State.pal_setPal_self _ c _).trans ?_)
    rw [State.stamp_setFld]
    exact congrArg (fun x : Palette => x.started s.stamp) (hpal c)
  · refine (State.pal_raise _ _ _ _).trans ((State.pal_setPal_ne _ c _ _ (otherChain_ne c)).trans ?_)
    exact hpal _

theorem State.palStart_starts {s : State} {c : Chain} (h : s.palRuns c = false) : s.Starts c s.stamp (s.palStart c) := by
  rw [State.palStart_eq h]
  split
  · exact (s.palGo_starts c).raise
  · exact s.palGo_starts c

theorem State.palStart_step {s : State} {c : Chain} (h : s.palRuns c = false) : s.PalStep (s.palStart c) := by
  have hgo : s.PalStep (s.palGo c) := (((State.PalStep.refl s).setFld _ _).setPal c _).raise _ _
  rw [State.palStart_eq h]
  split
  · exact hgo.raise _ _
  · exact hgo

theorem State.reg_palGo {s : State} {c : Chain} {o : Nat} (hc : o ≠ CHZ_CTRL.off) (he : o ≠ CHZ_ERG_STAT.off) : (s.palGo c).reg o = s.reg o := by
  unfold State.palGo
  dsimp only
  rw [State.reg_raise_ne _ _ _ he he, State.reg_of_regs (State.setPal_regs _ _ _) o]
  exact State.reg_setFld_ne _ _ _ _ (by cases c <;> exact hc)

theorem State.reg_palStart {s : State} {c : Chain} (h : s.palRuns c = false) {o : Nat} (hc : o ≠ CHZ_CTRL.off)
    (he : o ≠ CHZ_ERG_STAT.off) : (s.palStart c).reg o = s.reg o := by
  rw [State.palStart_eq h]
  split
  · rw [State.reg_raise_ne _ _ _ he he, State.reg_palGo hc he]
  · exact State.reg_palGo hc he

/-! The Erg-writing claim (Table 16-7). -/

theorem State.reg_place_ne (s : State) (x : Holder) (amt prio : Nat) (k : Ticket) {o : Nat} (h : o ≠ WELL_DENY_CNT.off) :
    (s.place x amt prio k).1.reg o = s.reg o := by
  unfold State.place
  split
  · unfold State.deny State.incMod
    rw [State.reg_setFld_ne _ _ _ _ h, State.reg_raise_ne _ _ _ h h]
  · rfl

theorem State.ergClaim_cases (s : State) (k : Ticket) : s.ergClaim k = s ∨ s.ergClaim k = (s.placeDev .erg 4 k).1 ∨
    s.ergClaim k = s.withdraw .erg := by
  unfold State.ergClaim
  split
  · split
    · exact .inl rfl
    · exact .inr (.inl rfl)
  · exact .inr (.inr rfl)

theorem State.ergClaim_step (s : State) (k : Ticket) : s.PalStep (s.ergClaim k) := by
  rcases s.ergClaim_cases k with h | h | h <;> rw [h]
  · exact .refl s
  · exact (State.PalStep.refl s).place _ _ _ _
  · exact (State.PalStep.refl s).withdraw _

theorem State.reg_ergClaim (s : State) (k : Ticket) {o : Nat} (h : o ≠ WELL_DENY_CNT.off) : (s.ergClaim k).reg o = s.reg o := by
  rcases s.ergClaim_cases k with e | e | e <;> rw [e]
  · exact s.reg_place_ne _ _ _ _ h
  · rfl

theorem State.pal_ergClaim (s : State) (k : Ticket) (d : Chain) : (s.ergClaim k).pal d = s.pal d := by
  rcases s.ergClaim_cases k with e | e | e <;> rw [e]
  · unfold State.placeDev State.place
    split
    · exact State.deny_unseen (g := fun t => t.pal d) (fun _ _ => by cases d <;> rfl) s
    · cases d <;> rfl
  · cases d <;> rfl

/-- With a Palette that writes and a claim that can fit, the claim stands. -/
theorem State.ergClaim_stands {s : State} {c : Chain} (hr : s.palRuns c = true) (hw : s.writesErg c = true)
    (hfit : s.neverFits 4 = false) (k : Ticket) : (s.ergClaim k).holds .erg = true ∨ (s.ergClaim k).waits .erg = true := by
  have hany : ((s.palRuns .a && s.writesErg .a) || (s.palRuns .b && s.writesErg .b)) = true := by
    cases c
    · rw [hr, hw]
      rfl
    · rw [hr, hw]
      exact Bool.or_true _
  unfold State.ergClaim
  rw [if_pos hany]
  split
  next h => exact (Bool.or_eq_true _ _).mp h
  next =>
    refine .inr ?_
    unfold State.placeDev State.place
    rw [if_neg (by rw [hfit]; decide)]
    unfold State.waits
    simp

theorem State.Starts.ergClaim {s t : State} {c : Chain} {now : Nat} (h : s.Starts c now t) (k : Ticket) :
    s.Starts c now (t.ergClaim k) := by
  have hruns : ∀ d, (t.ergClaim k).palRuns d = t.palRuns d := State.palRuns_of_reg (t.reg_ergClaim k (by decide))
  exact ⟨(hruns c).trans h.runs, (t.pal_ergClaim k c).trans h.pal, (State.on_of_reg (t.reg_ergClaim k (by decide))).trans h.gap,
    (hruns _).trans h.other, (t.pal_ergClaim k _).trans h.palOther⟩


/-- The ticket of the channelizer claim, which the Erg claim takes. -/
def State.chzTicket (s : State) (c : Chain) : Ticket :=
  match s.well.granted.find? (fun k => k.who == .chzr c) with
  | some k => k.ticket
  | none => s.ticketNow 0

/-- The state in which a Palette that starts tells the windows that wait for it. -/
def State.palBegun (s : State) (c : Chain) : State := (s.touch.palStart c).ergClaim (s.touch.chzTicket c)

section
variable {s : State} {c : Chain} (ha : s.awake = true) (he : s.palEnabled c = true) (hon : s.chainOn c = true)
  (hh : s.holds (.chzr c) = true) (hr : s.palRuns c = false)

theorem State.palRuns_touch (s : State) (d : Chain) : s.touch.palRuns d = s.palRuns d :=
  State.palRuns_of_reg (State.reg_of_regs s.touch_regs _) d

theorem State.pal_touch (s : State) (d : Chain) : s.touch.pal d = s.pal d :=
  State.touch_unseen (g := fun s => s.pal d) (fun _ _ _ => by cases d <;> rfl) s

include ha he hon hh hr in
theorem exec_paletteStart : exec (.paletteStart c) s = .next ((s.palBegun c).windowsOk c) := by
  have hcond : s.touch.awake ∧ s.touch.palEnabled c ∧ s.touch.chainOn c ∧ s.touch.holds (.chzr c) ∧ !s.touch.palRuns c := by
    refine ⟨?_, ?_, ?_, ?_, ?_⟩
    · exact (State.touch_unseen (g := State.awake) (fun _ _ _ => rfl) s).trans ha
    · exact (State.touch_unseen (g := fun s => s.palEnabled c) (fun _ _ _ => rfl) s).trans he
    · exact (State.touch_unseen (g := fun s => s.chainOn c) (fun _ _ _ => rfl) s).trans hon
    · exact (State.touch_unseen (g := fun s => s.holds (.chzr c)) (fun _ _ _ => rfl) s).trans hh
    · rw [s.palRuns_touch, hr]
      rfl
  show execPaletteStart c s = _
  unfold execPaletteStart
  exact if_pos hcond

include hr in
theorem State.palBegun_starts : s.Starts c s.touch.stamp (s.palBegun c) ∧ s.touch.PalStep (s.palBegun c) ∧
    (s.writesErg c = true → s.neverFits 4 = false → (s.palBegun c).holds .erg = true ∨ (s.palBegun c).waits .erg = true) := by
  have hr' : s.touch.palRuns c = false := (s.palRuns_touch c).trans hr
  have hst := State.palStart_starts hr'
  have hreg := fun o hc he => State.reg_palStart hr' (o := o) hc he
  have hstep := State.palStart_step hr'
  unfold State.palBegun
  generalize s.touch.palStart c = t at hst hreg hstep
  generalize s.touch.chzTicket c = k
  obtain ⟨h1, h2, h3, h4, h5⟩ := hst.ergClaim k
  refine ⟨⟨h1, ?_, h3, h4.trans (s.palRuns_touch _), h5.trans (s.pal_touch _)⟩, hstep.trans (t.ergClaim_step k), fun hw hfit => ?_⟩
  · rw [h2, s.pal_touch]
  · refine State.ergClaim_stands hst.runs ?_ ?_ k
    · refine Eq.trans ?_ hw
      have hcfg : t.reg CHZ_ERG_CFG.WR_A.off = s.reg CHZ_ERG_CFG.WR_A.off :=
        (hreg _ (by decide) (by decide)).trans (State.reg_of_regs s.touch_regs _)
      cases c
      · exact State.on_of_reg (f := CHZ_ERG_CFG.WR_A) hcfg
      · exact State.on_of_reg (f := CHZ_ERG_CFG.WR_B) hcfg
    · refine Eq.trans ?_ hfit
      unfold State.neverFits
      rw [State.fld_of_reg ((hreg _ (by decide) (by decide)).trans (State.reg_of_regs s.touch_regs _))]

end

theorem State.windowsOk_idle {s : State} (h : s.ops = []) (c : Chain) : s.windowsOk c = s := by
  unfold State.windowsOk State.opIds
  rw [h]
  rfl

/-- The one operation, a window that waits for the chain, ends with OK. -/
theorem State.windowsOk_sole {s : State} {id : Nat} {o : RadioOp} {k : Fin 64} {c : Chain} (h : s.Sole id o k) (hk : o.kind = .rxwin)
    (hp : o.phase = .window) (hc : o.chain = chainIx c) : s.windowsOk c =
      ((s.withdraw (.pa id)).dropOp id).finish k.val o.d (s.radioWord 0 (o.late && o.acted) o.seq) := by
  have hcond : (o.kind == .rxwin && o.phase == .window && o.chain == chainIx c) = true := by
    rw [hk, hp, hc]
    simp
  unfold State.windowsOk State.opIds
  rw [h.ops, List.map_singleton, List.foldl_cons, List.foldl_nil, h.op]
  dsimp only
  rw [if_pos hcond]
  exact h.opEnd_quiet (by rw [hk]; rfl) (by rw [hp]; decide) _ _


theorem claims_other {x y : Holder} (h : y ≠ x) (l : List Claim) :
    (l.filter (fun c => c.who != x)).any (fun c => c.who == y) = l.any (fun c => c.who == y) := by
  rw [List.any_filter]
  refine congrArg (List.any l) (funext fun c => ?_)
  by_cases hc : c.who = y
  · simp [hc, h]
  · simp [hc]

theorem State.holds_withdraw_ne (s : State) {x y : Holder} (h : y ≠ x) : (s.withdraw x).holds y = s.holds y := claims_other h _

theorem State.waits_withdraw_ne (s : State) {x y : Holder} (h : y ≠ x) : (s.withdraw x).waits y = s.waits y := claims_other h _

section
variable {s : State} {c : Chain} (ha : s.awake = true) (he : s.palEnabled c = true) (hon : s.chainOn c = true)
  (hh : s.holds (.chzr c) = true) (hr : s.palRuns c = false)
include ha he hon hh hr

theorem execPaletteStart_idle (ho : s.ops = []) : ∃ t, exec (.paletteStart c) s = .next t ∧ s.Starts c s.touch.stamp t ∧
    (s.writesErg c = true → s.neverFits 4 = false → t.holds .erg = true ∨ t.waits .erg = true) ∧
    { t with regs := s.regs, palA := s.palA, palB := s.palB, well := s.well } = s.touch := by
  obtain ⟨hst, hstep, herg⟩ := State.palBegun_starts hr
  have hops : (s.palBegun c).ops = [] :=
    (hstep.unseen (g := State.ops) fun _ _ _ _ _ => rfl).trans (s.touch_ops.trans ho)
  have hexec := exec_paletteStart ha he hon hh hr
  rw [State.windowsOk_idle hops] at hexec
  exact ⟨_, hexec, hst, herg, hstep.frame⟩

/-- A window that waits for the Palette ends as it starts. -/
theorem execPaletteStart_ends {id : Nat} {o : RadioOp} {k : Fin 64} (h : s.Sole id o k) (hk : o.kind = .rxwin)
    (hp : o.phase = .window) (hc : o.chain = chainIx c) : ∃ t, exec (.paletteStart c) s = .next t ∧ s.Starts c s.touch.stamp t ∧
      (s.writesErg c = true → s.neverFits 4 = false → t.holds .erg = true ∨ t.waits .erg = true) ∧ t.ops = [] ∧
      t.cx k.val = { (s.cx k.val).wr o.d (BitVec.ofNat 32 (s.radioWord 0 (o.late && o.acted) o.seq)) with
        st := .ready, susp := .none, z := true, since := t.stamp } := by
  obtain ⟨hst, hstep, herg⟩ := State.palBegun_starts hr
  have hops : (s.palBegun c).ops = s.ops := (hstep.unseen (g := State.ops) fun _ _ _ _ _ => rfl).trans s.touch_ops
  have hctx : (s.palBegun c).ctx = s.ctx := (hstep.unseen (g := State.ctx) fun _ _ _ _ _ => rfl).trans s.touch_ctx
  have hword : (s.palBegun c).radioWord 0 (o.late && o.acted) o.seq = s.radioWord 0 (o.late && o.acted) o.seq :=
    (hstep.unseen (g := fun t => t.radioWord 0 (o.late && o.acted) o.seq) fun _ _ _ _ _ => rfl).trans
      (State.touch_unseen (g := fun t => t.radioWord 0 (o.late && o.acted) o.seq) (fun _ _ _ => rfl) s)
  have hexec := exec_paletteStart ha he hon hh hr
  rw [State.windowsOk_sole (h.of_same hops hctx) hk hp hc, hword] at hexec
  have hcx : (s.palBegun c).cx k.val = s.cx k.val := by
    unfold State.cx
    rw [hctx]
  rw [h.ops] at hops
  generalize s.palBegun c = v at hst herg hops hcx hexec
  have hz : (s.radioWord 0 (o.late && o.acted) o.seq % 256 == 0) = true := by
    rw [State.radioWord_mod _ (by decide)]
    rfl
  obtain ⟨x, hx⟩ : ∃ x, x = (v.withdraw (.pa id)).dropOp id := ⟨_, rfl⟩
  have hxops : x.ops = [] := by
    rw [hx]
    unfold State.dropOp
    exact (congrArg (Tab.drop id) hops).trans (Tab.drop_single id _)
  have hxcx : x.cx k.val = s.cx k.val := by
    rw [hx]
    exact hcx
  have hxst : s.Starts c s.touch.stamp x := by
    have hpal : ∀ d, x.pal d = v.pal d := fun d => by
      rw [hx]
      cases d <;> rfl
    have hreg : ∀ o, x.reg o = v.reg o := fun o => State.reg_of_regs (by rw [hx]; rfl) o
    have hruns : ∀ d, x.palRuns d = v.palRuns d := State.palRuns_of_reg (hreg _)
    exact ⟨(hruns c).trans hst.runs, (hpal c).trans hst.pal, (State.on_of_reg (hreg _)).trans hst.gap, (hruns _).trans hst.other,
      (hpal _).trans hst.palOther⟩
  have hxerg : (s.writesErg c = true → s.neverFits 4 = false → x.holds .erg = true ∨ x.waits .erg = true) := fun hw hf => by
    rw [hx]
    exact (herg hw hf).imp (State.holds_withdraw_ne v (by simp)).trans (State.waits_withdraw_ne v (by simp)).trans
  rw [← hx] at hexec
  clear hx
  generalize s.radioWord 0 (o.late && o.acted) o.seq = w at hexec hz ⊢
  have hun : ∀ {β : Type} {g : State → β}, (∀ t c p, g { t with ctx := c, pwr := p } = g t) → g (x.finish k.val o.d w) = g x :=
    fun hg => State.finish_unseen hg x k.val o.d w
  refine ⟨_, hexec, ⟨?_, ?_, ?_, ?_, ?_⟩, fun hw hf => ?_, ?_, ?_⟩
  · exact (hun (g := fun t => t.palRuns c) fun _ _ _ => rfl).trans hxst.runs
  · exact (hun (g := fun t => t.pal c) fun _ _ _ => by cases c <;> rfl).trans hxst.pal
  · exact (hun (g := fun t => t.on CHZ_ERG_STAT.GAP) fun _ _ _ => rfl).trans hxst.gap
  · exact (hun (g := fun t => t.palRuns (otherChain c)) fun _ _ _ => rfl).trans hxst.other
  · exact (hun (g := fun t => t.pal (otherChain c)) fun _ _ _ => by cases c <;> rfl).trans hxst.palOther
  · exact (hxerg hw hf).imp (hun (g := fun t => t.holds .erg) fun _ _ _ => rfl).trans
      (hun (g := fun t => t.waits .erg) fun _ _ _ => rfl).trans
  · exact (hun (g := State.ops) fun _ _ _ => rfl).trans hxops
  · rw [State.cx_finish, State.stamp_finish, hxcx, hz]

end
end Sys2Proof.Machine


/-! The pending list (R82, R87, R89, R104). -/

namespace Sys2Proof.Machine

theorem State.stamp_le_touch (s : State) : s.stamp ≤ s.touch.stamp := by
  have ha : s.touch.asleep = s.asleep := State.touch_unseen (g := State.asleep) (fun _ _ _ => rfl) s
  have hn : s.time.now ≤ s.touch.time.now := by
    unfold State.touch
    split
    · exact le_rfl
    · exact le_max_left _ _
  unfold State.stamp
  rw [ha]
  split
  · exact Nat.mul_le_mul_right _ (Nat.div_le_div_right hn)
  · exact hn

theorem State.ent_touch (s : State) (e : Nat) : s.touch.ent e = s.ent e := by
  unfold State.ent
  rw [s.touch_ents]

/-! An entry removed (R106). -/

theorem State.releaseFrom_empty {s : State} (h : s.held = []) (f e : Nat) : State.releaseFrom f s e = s := by
  cases f with
  | zero => rfl
  | succ f =>
    unfold State.releaseFrom
    rw [h]
    show ({ s with held := [] } : State) = s
    rw [← h]

/-- The held store with at most one record, of an outcome that is not kept, is written to nowhere. -/
theorem State.releaseHeld_lost {s : State} {e : Nat} (h : s.held = [] ∨ ∃ q, s.held = [q] ∧ q.keep = false) :
    ∃ hs, s.releaseHeld e = { s with held := hs } ∧ (s.held = [] → hs = []) := by
  rcases h with h | ⟨q, h, hq⟩
  · refine ⟨[], ?_, fun _ => rfl⟩
    unfold State.releaseHeld State.releaseFrom
    rw [h]
    rfl
  · unfold State.releaseHeld
    rw [h, List.any_cons, hq, Bool.and_false, List.any_nil, if_neg (by decide)]
    by_cases hs : (q.strong == e) = true
    · refine ⟨[], ?_, fun e => absurd e (by simp)⟩
      have hf : [q].filter (fun x => x.strong == e) = [q] ∧ [q].filter (fun x => x.strong != e) = [] := by simp [bne, hs]
      unfold State.releaseFrom
      rw [h, hf.1, hf.2, List.foldl_cons, hq, if_neg (by decide)]
      exact State.releaseFrom_empty rfl _ _
    · refine ⟨[q], ?_, fun e => absurd e (by simp)⟩
      have hf : (q.strong == e) = false := by simpa using hs
      simp [State.releaseFrom, h, hf, bne]

theorem State.removeEnt_drops {s : State} (h : s.held = []) (e : Nat) :
    ∃ hs, s.removeEnt e = { s.dropEnt e with held := hs } ∧ (s.stronger e = [] → hs = []) := by
  have hkeep : (s.remember e = s) ∨ ∃ q, s.remember e = { s with held := [q] } ∧ q.keep = false ∧ s.stronger e ≠ [] := by
    unfold State.remember
    split
    next x t y l _ hst =>
      refine .inr ⟨_, by rw [h]; rfl, rfl, by rw [hst]; simp⟩
    · exact .inl rfl
  unfold State.removeEnt
  rcases hkeep with hr | ⟨q, hr, hq, hst⟩
  · rw [hr]
    obtain ⟨hs, heq, hnil⟩ := State.releaseHeld_lost (s := s.dropEnt e) (e := e) (.inl h)
    exact ⟨hs, heq, fun _ => hnil h⟩
  · rw [hr]
    obtain ⟨hs, heq, -⟩ := State.releaseHeld_lost (s := ({ s with held := [q] } : State).dropEnt e) (e := e) (.inr ⟨q, rfl, hq⟩)
    exact ⟨hs, heq, fun e => absurd e hst⟩


/-- Entry `e` and no other has gone. -/
def State.Gone (s : State) (e : Nat) (t : State) : Prop := t.ent e = none ∧ ∀ i, i ≠ e → t.ent i = s.ent i

theorem State.Gone.of_ents {s t : State} {e : Nat} (h : t.ents = Tab.drop e s.ents) : s.Gone e t := by
  unfold State.Gone State.ent
  rw [h]
  exact ⟨Tab.get_drop_self _ _ _, fun i hi => Tab.get_drop_ne _ _ _ _ hi⟩

theorem State.Gone.of_same {s t u : State} {e : Nat} (h : s.Gone e t) (hu : u.ents = t.ents) : s.Gone e u := by
  unfold State.Gone State.ent at h ⊢
  rwa [hu]

/-- Entry `e` has gone from `s`, and nothing else but records held for nobody. -/
structure State.Removed (s : State) (e : Nat) (v : State) : Prop where
  gone : s.Gone e v
  regs : v.regs = s.regs
  frame : { v with ents := s.ents, held := s.held } = s
  held : s.stronger e = [] → v.held = []

theorem State.removeEnt_removed {s : State} (h : s.held = []) (e : Nat) : s.Removed e (s.removeEnt e) := by
  obtain ⟨hs, heq, hnil⟩ := State.removeEnt_drops h e
  rw [heq]
  exact ⟨.of_ents rfl, rfl, rfl, hnil⟩

/-- What an entry removed leaves alone. -/
theorem State.Removed.unseen {s v : State} {e : Nat} (h : s.Removed e v) {β : Type} {g : State → β}
    (hg : ∀ t x y, g { t with ents := x, held := y } = g t) : g v = g s := by
  rw [← hg v s.ents s.held, h.frame]

theorem State.detRate_touch (s : State) (c : Chain) : s.touch.detRate c = s.detRate c := by
  unfold State.detRate State.detCfg
  rw [State.reg_of_regs s.touch_regs, State.touch_unseen (g := State.diversity) (fun _ _ _ => rfl) s]

theorem satInc_lt (n : Nat) : satInc 255 n < 256 := by
  unfold satInc
  split <;> omega

theorem State.fld_incSat {s : State} {f : Fld} (h : f.hi = f.lo + 7 ∧ f.hi < 32) : (s.incSat f).fld f = satInc 255 (s.fld f) := by
  have hlt : satInc 255 (s.fld f) < 2 ^ 8 := satInc_lt _
  unfold State.incSat
  rw [State.fld_setFld _ _ _ (by omega), show f.hi + 1 - f.lo = 8 by omega, Nat.mod_eq_of_lt hlt]

theorem State.Gone.touched {s t : State} {e : Nat} (h : s.touch.Gone e t) : s.Gone e t :=
  ⟨h.1, fun i hi => (h.2 i hi).trans (s.ent_touch i)⟩

theorem State.stronger_touch (s : State) (e : Nat) : s.touch.stronger e = s.stronger e :=
  State.touch_unseen (g := fun s => s.stronger e) (fun _ _ _ => rfl) s

section
variable {s : State} {e : Nat} {x : Entry} (he : s.ent e = some x) (hl : x.lane = none) (hsl : x.slot = none)
include he hl hsl

theorem execSyncSearchTimeout_removes (hh : s.held = []) (hsy : x.sync = none)
    (ht : x.start + 88 * symFine (s.detRate (if x.chA then .a else .b)) ≤ s.stamp) :
    ∃ t, exec (.syncSearchTimeout e) s = .next t ∧ s.Gone e t ∧
      t.fld CHZ_PENDING_STAT.FALSE_CNT = satInc 255 (s.fld CHZ_PENDING_STAT.FALSE_CNT) ∧
      { t with regs := s.regs, ents := s.ents, held := s.held } = s.touch ∧ (s.stronger e = [] → t.held = []) := by
  have hcond : x.lane.isNone ∧ x.slot.isNone ∧ x.sync.isNone ∧
      x.start + 88 * symFine (s.touch.detRate (if x.chA then .a else .b)) ≤ s.touch.stamp :=
    ⟨by rw [hl]; rfl, by rw [hsl]; rfl, by rw [hsy]; rfl, by rw [s.detRate_touch]; exact ht.trans s.stamp_le_touch⟩
  have hrem := State.removeEnt_removed (s.touch_held.trans hh) e
  have hexec : exec (.syncSearchTimeout e) s = .next ((s.touch.removeEnt e).incSat CHZ_PENDING_STAT.FALSE_CNT) := by
    show execSyncSearchTimeout e s = _
    unfold execSyncSearchTimeout
    dsimp only
    rw [s.ent_touch, he]
    dsimp only
    rw [if_pos hcond]
  have hregs := s.touch_regs
  have hents := s.touch_ents
  have hheld := s.touch_held
  have hst := s.stronger_touch e
  have hgone := hrem.gone.touched
  generalize s.touch.removeEnt e = v at hrem hexec hgone
  generalize s.touch = u at *
  refine ⟨_, hexec, hgone.of_same (v.incSat_ents _), ?_, ?_, fun h => (v.incSat_held _).trans (hrem.held (hst.trans h))⟩
  · rw [State.fld_incSat (by decide), State.fld_of_regs (hrem.regs.trans hregs)]
  · rw [← hregs, ← hents, ← hheld]
    exact (State.setFld_unseen (g := fun t : State => { t with regs := u.regs, ents := u.ents, held := u.held }) (fun _ _ => rfl) v _ _).trans
      (hrem.unseen (g := fun t : State => { t with regs := u.regs, ents := u.ents, held := u.held }) fun _ _ _ => rfl)

theorem execEntryPromoted_marks (hlim : s.fld CHZ_PENDING_POLICY.AGE_LIMIT ≠ 0)
    (ht : s.fld CHZ_PENDING_POLICY.AGE_LIMIT * 6291456 ≤ 25 * (s.stamp - x.det)) :
    ∃ t, exec (.entryPromoted e) s = .next t ∧ t.ent e = some { x with promoted := true } ∧
      (∀ i, i ≠ e → t.ent i = s.ent i) ∧ { t with ents := s.ents } = s.touch := by
  have hle := s.stamp_le_touch
  have hfld : s.touch.fld CHZ_PENDING_POLICY.AGE_LIMIT = s.fld CHZ_PENDING_POLICY.AGE_LIMIT := State.fld_of_regs s.touch_regs _
  have hcond : x.lane.isNone ∧ x.slot.isNone ∧ s.touch.fld CHZ_PENDING_POLICY.AGE_LIMIT ≠ 0 ∧
      s.touch.fld CHZ_PENDING_POLICY.AGE_LIMIT * 6291456 ≤ 25 * (s.touch.stamp - x.det) := by
    rw [hfld]
    exact ⟨by rw [hl]; rfl, by rw [hsl]; rfl, hlim, ht.trans (Nat.mul_le_mul_left _ (Nat.sub_le_sub_right hle _))⟩
  have hexec : exec (.entryPromoted e) s = .next (s.touch.setEnt e { x with promoted := true }) := by
    show execEntryPromoted e s = _
    unfold execEntryPromoted
    dsimp only
    rw [s.ent_touch, he]
    dsimp only
    rw [if_pos hcond]
  refine ⟨_, hexec, State.ent_setEnt_self _ _ _, fun i hi => ?_, ?_⟩
  · rw [State.ent_setEnt_ne _ _ _ _ hi, s.ent_touch]
  · rw [← s.touch_ents]
    rfl

end

/-! An entry that starves (R89, R101, R104). -/

section
variable {β : Type} {g : State → β} (hg : ∀ t c p q, g { t with ctx := c, pwr := p, msgQ := q } = g t)
include hg

theorem State.takeSignals_unseen (s : State) (k mask d b : Nat) : g (s.takeSignals k mask d b) = g s := by
  have hset : ∀ (t : State) (c : Ctx), g (t.setCx k c) = g t := fun t c => hg t _ t.pwr t.msgQ
  unfold State.takeSignals
  dsimp only
  split
  · split
    · exact (hset _ _).trans (hg s s.ctx s.pwr _)
    · exact (hset _ _).trans (hg s s.ctx s.pwr _)
  · split
    · exact hset _ _
    · exact hset _ _

theorem State.deliver_unseen (s : State) (k : Nat) : g (s.deliver k) = g s := by
  unfold State.deliver
  split
  · split
    · rfl
    · exact (State.wake_unseen (fun t c p => hg t c p t.msgQ) _ k).trans (State.takeSignals_unseen hg s k _ _ _)
  · rfl

theorem State.signalRing_unseen (s : State) : g s.signalRing = g s :=
  State.foldl_unseen (fun t k => (State.deliver_unseen hg _ k).trans (hg t _ t.pwr t.msgQ)) _ s

end

/-- Starving counted (R104). -/
theorem State.countStarved_counts (s : State) : s.countStarved.on LANE_STARVE_CNT.STARVED = true ∧
    s.countStarved.fld LANE_STARVE_CNT.OCC_CNT = satInc 255 (s.fld LANE_STARVE_CNT.OCC_CNT) ∧
    ∀ o, o ≠ LANE_STARVE_CNT.off → s.countStarved.reg o = s.reg o := by
  unfold State.countStarved State.incMod
  refine ⟨?_, ?_, fun o ho => ?_⟩
  · rw [State.on_setFld_other _ _ _ _ (by decide)]
    exact State.on_raise (by decide) (by decide)
  · rw [State.fld_setFld_other _ _ _ _ (by decide)]
    exact State.fld_raise (by decide) (by decide)
  · rw [State.reg_setFld_ne _ _ _ _ ho, State.reg_raise_ne _ _ _ ho ho]

theorem State.countStarved_unseen {β : Type} {g : State → β} (hg : ∀ t r, g { t with regs := r } = g t) (s : State) :
    g s.countStarved = g s := by
  unfold State.countStarved State.incMod
  rw [State.setFld_unseen hg, State.raise_unseen hg]

/-- The record of entry `x` that starves without a lane. -/
def State.starveRec (s : State) (x : Entry) : Rec :=
  let m := fun i => Config.unmeasured (8 * s.free + i)
  { stamp := x.start, pidx := x.pidx, status := Status.laneStarved
    flags := b2n s.qual * 128 + b2n x.coll.isSome * 16 + 2
    path := m 0 % 4 + 4 * b2n x.chA + 8 * b2n x.chB
    lane := 0xFF
    binw := x.bin + widthCode x.width * 2 ^ 9 + (match x.sync with | some (i, _) => i | none => m 1 % 4) * 2 ^ 11
    rssi := x.strength, alt := 0xFF, fofs := m 4 % 2 ^ 32, phy := m 5 % 2 ^ 16, snr := m 6 % 256, berr := m 7 % 256
    link := 0xFFFF, data := [] }

theorem State.starve_eq (s : State) (x : Entry) : s.starve x = s.draw.countStarved.emit (s.starveRec x) := (rfl)

theorem State.emit_starved (s : State) {r : Rec} (h : r.status = 0x30) :
    s.emit r = if s.on LANE_CTRL.STARVE_REC then (s.writeRecord r).1 else s := by
  have hw : s.wanted r = s.on LANE_CTRL.STARVE_REC := by
    unfold State.wanted
    rw [h]
    rfl
  unfold State.emit
  rw [hw]

/-! A record written to the frame ring (R103). -/

/-- The header of a frame record. -/
theorem Rec.header_bytes (r : Rec) (len seqno : Nat) : (r.header len seqno).length = 32 ∧
    ((r.header len seqno).drop 12).take 1 = leBytes 1 r.status := by
  constructor
  · simp [Rec.header]
  · simp [Rec.header, leBytes]

/-- A record without data, written where it fits before the end of the ring. -/
def State.recordPut (s : State) (r : Rec) : State :=
  let s' := s.devWrite (s.fld LANE_RING_BASE.BASE + s.fld LANE_RING_HEAD.HEAD) (r.header 0 s.seqno)
  { s' with seqno := (s'.seqno + 1) % 0x10000 }

theorem State.writeRecord_fits {s : State} {r : Rec} (hd : r.data = [])
    (hend : s.fld LANE_RING_HEAD.HEAD + 32 ≤ s.fld LANE_RING_SIZE.SIZE)
    (hroom : 32 ≤ (s.fld LANE_RING_TAIL.TAIL + 2 * s.fld LANE_RING_SIZE.SIZE - s.fld LANE_RING_HEAD.HEAD - 8) %
      s.fld LANE_RING_SIZE.SIZE) : (s.writeRecord r).1 =
      ((s.recordPut r).setFld LANE_RING_HEAD.HEAD ((s.fld LANE_RING_HEAD.HEAD + 32) % s.fld LANE_RING_SIZE.SIZE)).signalRing := by
  have hsize : r.size = 32 := by
    unfold Rec.size
    rw [hd]
    rfl
  have hwrap : decide (s.fld LANE_RING_SIZE.SIZE - s.fld LANE_RING_HEAD.HEAD < 32) = false := decide_eq_false (by omega)
  unfold State.writeRecord
  dsimp only
  rw [hsize, hwrap, if_neg (by simpa using hroom)]
  simp only [Bool.false_eq_true, false_and, if_false, hd]
  unfold State.recordPut
  simp [ceilDiv, padTo]


/-- What is seen after a record has been written to the ring. -/
structure State.Recorded (s : State) (r : Rec) (t : State) : Prop where
  status : t.num (s.fld LANE_RING_BASE.BASE + s.fld LANE_RING_HEAD.HEAD + 12) 1 = r.status % 256
  head : t.fld LANE_RING_HEAD.HEAD = (s.fld LANE_RING_HEAD.HEAD + 32) % s.fld LANE_RING_SIZE.SIZE
  seqno : t.seqno = (s.seqno + 1) % 65536
  outside : ∀ a, (a < s.fld LANE_RING_BASE.BASE + s.fld LANE_RING_HEAD.HEAD ∨
    s.fld LANE_RING_BASE.BASE + s.fld LANE_RING_HEAD.HEAD + 32 ≤ a) → t.byte a = s.byte a
  ents : t.ents = s.ents
  reg : ∀ o, o ≠ LANE_RING_HEAD.off → o ≠ MEM_BANK_CFG.off → t.reg o = s.reg o

theorem State.writeRecord_recorded {s : State} {r : Rec} (hd : r.data = [])
    (hend : s.fld LANE_RING_HEAD.HEAD + 32 ≤ s.fld LANE_RING_SIZE.SIZE)
    (hroom : 32 ≤ (s.fld LANE_RING_TAIL.TAIL + 2 * s.fld LANE_RING_SIZE.SIZE - s.fld LANE_RING_HEAD.HEAD - 8) %
      s.fld LANE_RING_SIZE.SIZE) (hlo : 0x100000 ≤ s.fld LANE_RING_BASE.BASE)
    (hhi : s.fld LANE_RING_BASE.BASE + s.fld LANE_RING_SIZE.SIZE ≤ 0x200000) : s.Recorded r (s.writeRecord r).1 := by
  obtain ⟨hlen, hst⟩ := r.header_bytes 0 s.seqno
  have hw : ∀ {β : Type} {g : State → β}, (∀ t r c p q, g { t with regs := r, ctx := c, pwr := p, msgQ := q } = g t) →
      g (s.writeRecord r).1 = g (s.recordPut r) := fun hg => by
    rw [State.writeRecord_fits hd hend hroom, State.signalRing_unseen fun t c p q => hg t t.regs c p q]
    exact State.setFld_unseen (fun t r => hg t r t.ctx t.pwr t.msgQ) _ _ _
  have hreg : ∀ o, (s.writeRecord r).1.reg o = ((s.recordPut r).setFld LANE_RING_HEAD.HEAD
      ((s.fld LANE_RING_HEAD.HEAD + 32) % s.fld LANE_RING_SIZE.SIZE)).reg o := fun o => by
    rw [State.writeRecord_fits hd hend hroom]
    exact State.signalRing_unseen (g := fun t => t.reg o) (fun _ _ _ _ => rfl) _
  have hbyte : ∀ a, (s.recordPut r).byte a =
      if s.fld LANE_RING_BASE.BASE + s.fld LANE_RING_HEAD.HEAD ≤ a ∧ a < s.fld LANE_RING_BASE.BASE + s.fld LANE_RING_HEAD.HEAD + 32
      then (r.header 0 s.seqno).getD (a - (s.fld LANE_RING_BASE.BASE + s.fld LANE_RING_HEAD.HEAD)) 0#8 else s.byte a := fun a => by
    have h := s.byte_devWrite (s.fld LANE_RING_BASE.BASE + s.fld LANE_RING_HEAD.HEAD) (r.header 0 s.seqno) a (by omega)
    rw [hlen] at h
    exact h
  have hbytes : ∀ a, (s.writeRecord r).1.byte a = (s.recordPut r).byte a := fun a => hw (g := fun t => t.byte a) fun _ _ _ _ _ => rfl
  refine ⟨?_, ?_, ?_, fun a ha => ?_, ?_, fun o h1 h2 => ?_⟩
  · refine State.num_of_put fun i hi => ?_
    obtain rfl : i = 0 := by omega
    rw [hbytes, hbyte, if_pos (by omega), ← hst, show ∀ b, b + 12 + 0 - b = 12 by omega]
    simp [List.getD_eq_getElem?_getD]
  · rw [State.fld_of_reg (hreg _)]
    exact State.fld_setFld_fits _ _ _ (by decide) (lt_of_lt_of_le (Nat.mod_lt _ (by omega)) (by
      show s.fld LANE_RING_SIZE.SIZE ≤ 2 ^ 20
      omega))
  · rw [hw (g := State.seqno) fun _ _ _ _ _ => rfl]
    have h : (s.recordPut r).seqno = ((s.devWrite (s.fld LANE_RING_BASE.BASE + s.fld LANE_RING_HEAD.HEAD)
      (r.header 0 s.seqno)).seqno + 1) % 65536 := rfl
    rw [h, State.devWrite_unseen (g := State.seqno) fun _ _ _ _ _ => rfl]
  · rw [hbytes, hbyte, if_neg (by omega)]
  · rw [hw (g := State.ents) fun _ _ _ _ _ => rfl]
    exact State.devWrite_unseen (g := State.ents) (fun _ _ _ _ _ => rfl) s _ _
  · rw [hreg, State.reg_setFld_ne _ _ _ _ h1]
    exact State.reg_devWrite_ne _ _ _ _ h2


theorem State.hasHistory_touch (s : State) (x : Entry) : s.touch.hasHistory x = s.hasHistory x :=
  State.touch_unseen (g := fun s => s.hasHistory x) (fun _ _ _ => rfl) s

theorem State.agedOut_touch (s : State) (x : Entry) : s.touch.agedOut x = s.agedOut x := by
  have hage : s.touch.entAge x = s.entAge x := State.touch_unseen (g := fun s => s.entAge x) (fun _ _ _ => rfl) s
  have hhor : s.touch.horizon = s.horizon := State.touch_unseen (g := State.horizon) (fun _ _ _ => rfl) s
  unfold State.agedOut
  rw [s.hasHistory_touch, hage, hhor, State.fld_of_regs s.touch_regs]

/-- ENTRY_STARVED: the entry removed, its starving counted and reported. -/
theorem exec_entryStarved {s : State} {e : Nat} {x : Entry} (he : s.ent e = some x) (hl : x.lane = none) (hsl : x.slot = none)
    (hc : s.cmr.st = 5) (h : s.agedOut x = true ∨ (s.hasHistory x = false ∧ x.fresh = false)) :
    exec (.entryStarved e) s = .next ((s.touch.removeEnt e).starve x) := by
  have hcond : x.lane.isNone ∧ x.slot.isNone ∧ s.touch.cmr.st = 5 ∧ (s.touch.agedOut x ∨ (!s.touch.hasHistory x ∧ !x.fresh)) := by
    refine ⟨by rw [hl]; rfl, by rw [hsl]; rfl, by rw [s.touch_cmr]; exact hc, ?_⟩
    rw [State.agedOut_touch, State.hasHistory_touch]
    exact h.imp id fun ⟨h1, h2⟩ => ⟨by rw [h1]; rfl, by rw [h2]; rfl⟩
  show execEntryStarved e s = _
  unfold execEntryStarved
  dsimp only
  rw [s.ent_touch, he]
  dsimp only
  rw [if_pos hcond]

/-- Starving seen in the registers: flagged and counted, and no register of the others changes. -/
structure State.StarveCounted (s t : State) : Prop where
  flag : t.on LANE_STARVE_CNT.STARVED = true
  count : t.fld LANE_STARVE_CNT.OCC_CNT = satInc 255 (s.fld LANE_STARVE_CNT.OCC_CNT)

theorem State.StarveCounted.of_reg {s t u : State} (h : s.StarveCounted t)
    (hu : u.reg LANE_STARVE_CNT.off = t.reg LANE_STARVE_CNT.off) : s.StarveCounted u :=
  ⟨(State.on_of_reg (f := LANE_STARVE_CNT.STARVED) hu).trans h.flag, (State.fld_of_reg (f := LANE_STARVE_CNT.OCC_CNT) hu).trans h.count⟩

/-- The state in which the record of a starved entry is written. -/
theorem State.starved_counts (v : State) : v.StarveCounted v.draw.countStarved ∧
    (∀ o, o ≠ LANE_STARVE_CNT.off → v.draw.countStarved.reg o = v.reg o) ∧
    ∀ {β : Type} {g : State → β}, (∀ t r f, g { t with regs := r, free := f } = g t) → g v.draw.countStarved = g v := by
  obtain ⟨h1, h2, h3⟩ := v.draw.countStarved_counts
  exact ⟨⟨h1, h2⟩, h3, fun hg => (State.countStarved_unseen (fun t r => hg t r t.free) v.draw).trans (hg v v.regs _)⟩

section
variable {s : State} {e : Nat} {x : Entry} (hh : s.held = [])
include hh

/-- The state in which the record of a starved entry is written: the entry has gone, its starving is counted. -/
def State.starved (s : State) (e : Nat) : State := (s.removeEnt e).draw.countStarved

theorem State.starved_spec : s.Gone e (s.starved e) ∧ s.StarveCounted (s.starved e) ∧
    (∀ o, o ≠ LANE_STARVE_CNT.off → (s.starved e).reg o = s.reg o) ∧
    ∀ {β : Type} {g : State → β}, (∀ t r x h f, g { t with regs := r, ents := x, held := h, free := f } = g t) →
      g (s.starved e) = g s := by
  have hrem := State.removeEnt_removed hh e
  obtain ⟨⟨h1, h2⟩, hreg, hseen⟩ := (s.removeEnt e).starved_counts
  have hents : (s.starved e).ents = (s.removeEnt e).ents := hseen (g := State.ents) fun _ _ _ => rfl
  refine ⟨hrem.gone.of_same hents, ⟨h1, ?_⟩, fun o ho => (hreg o ho).trans (State.reg_of_regs hrem.regs o), fun hg => ?_⟩
  · rw [← State.fld_of_regs hrem.regs]
    exact h2
  · exact (hseen fun t r f => hg t r t.ents t.held f).trans (hrem.unseen fun t x h => hg t t.regs x h t.free)

theorem State.starve_silent (hr : s.on LANE_CTRL.STARVE_REC = false) : (s.removeEnt e).starve x = s.starved e := by
  obtain ⟨-, -, hreg, -⟩ := State.starved_spec (e := e) hh
  have hoff : (s.starved e).on LANE_CTRL.STARVE_REC = false := (State.on_of_reg (hreg _ (by decide))).trans hr
  rw [State.starve_eq, State.emit_starved _ rfl]
  exact if_neg (by rw [show (s.removeEnt e).draw.countStarved = s.starved e from rfl, hoff]; decide)

theorem State.starve_records (hr : s.on LANE_CTRL.STARVE_REC = true) :
    ∃ r : Rec, (s.removeEnt e).starve x = ((s.starved e).writeRecord r).1 ∧ r.status = 0x30 ∧ r.data = [] := by
  obtain ⟨-, -, hreg, -⟩ := State.starved_spec (e := e) hh
  have hon : (s.starved e).on LANE_CTRL.STARVE_REC = true := (State.on_of_reg (hreg _ (by decide))).trans hr
  refine ⟨(s.removeEnt e).starveRec x, ?_, rfl, rfl⟩
  rw [State.starve_eq, State.emit_starved _ rfl]
  exact if_pos hon

end


/-! Any record written. -/

/-- A record is discarded with FULL, or written, after a pad or without, with its number and HEAD taken (R103). -/
theorem State.writeRecord_cases (s : State) (r : Rec) : (s.writeRecord r).1 = s.raise LANE_RING_HEAD.FULL LANE_RING_HEAD.FULL_CNT ∨
    ∃ u v n h, (v = s ∨ ∃ a bs, v = s.devWrite a bs) ∧ (∃ a bs, u = State.devWrite v a bs) ∧
      (s.writeRecord r).1 = (({ u with seqno := n } : State).setFld LANE_RING_HEAD.HEAD h).signalRing := by
  unfold State.writeRecord
  extract_lets base size head room wrap need v at_ u n x y
  by_cases hlt : room < need
  · rw [if_pos hlt]
    exact .inl rfl
  · rw [if_neg hlt]
    have hv : v = s ∨ ∃ a bs, v = s.devWrite a bs := by
      by_cases hw : wrap = true ∧ 32 ≤ size - head
      · exact .inr ⟨_, _, if_pos hw⟩
      · exact .inl (if_neg hw)
    have hu : ∃ a bs, u = v.devWrite a bs := ⟨_, _, rfl⟩
    clear_value u v
    have hx : x = { u with seqno := (n + 1) % 0x10000 } := rfl
    have hy : y = x.setFld LANE_RING_HEAD.HEAD ((at_ + r.size) % size) := rfl
    clear_value x y
    exact .inr ⟨u, v, (n + 1) % 0x10000, (at_ + r.size) % size, hv, hu, by rw [hy, hx]⟩

theorem State.writeRecord_unseen {β : Type} {g : State → β} (hg : ∀ t r m k b n c p q, g { t with
    regs := r, mem := m, marks := k, scrub := b, seqno := n, ctx := c, pwr := p, msgQ := q } = g t) (s : State) (r : Rec) :
    g (s.writeRecord r).1 = g s := by
  have hr : ∀ t x, g { t with regs := x } = g t := fun t x => hg t x t.mem t.marks t.scrub t.seqno t.ctx t.pwr t.msgQ
  have hd : ∀ t a bs, g (State.devWrite t a bs) = g t := fun t a bs =>
    State.devWrite_unseen (fun t x m k b => hg t x m k b t.seqno t.ctx t.pwr t.msgQ) t a bs
  rcases s.writeRecord_cases r with h | ⟨u, v, n, h, hv, ⟨a, bs, rfl⟩, heq⟩
  · rw [h]
    exact State.raise_unseen hr _ _ _
  · rw [heq, State.signalRing_unseen (fun t c p q => hg t t.regs t.mem t.marks t.scrub t.seqno c p q), State.setFld_unseen hr]
    have hvs : g v = g s := by
      rcases hv with rfl | ⟨a, bs, rfl⟩
      · rfl
      · exact hd _ _ _
    generalize hy : State.devWrite v a bs = y
    have hys : g y = g v := hy ▸ hd v a bs
    exact (hg y y.regs y.mem y.marks y.scrub n y.ctx y.pwr y.msgQ).trans (hys.trans hvs)

theorem State.reg_writeRecord (s : State) (r : Rec) {o : Nat} (h1 : o ≠ LANE_RING_HEAD.off) (h2 : o ≠ MEM_BANK_CFG.off) :
    (s.writeRecord r).1.reg o = s.reg o := by
  rcases s.writeRecord_cases r with h | ⟨u, v, n, h, hv, ⟨a, bs, rfl⟩, heq⟩
  · rw [h]
    exact State.reg_raise_ne _ _ _ h1 h1
  · rw [heq, State.signalRing_unseen (g := fun t => t.reg o) (fun _ _ _ _ => rfl), State.reg_setFld_ne _ _ _ _ h1]
    refine (State.reg_devWrite_ne _ _ _ _ h2).trans ?_
    rcases hv with rfl | ⟨a, bs, rfl⟩
    · rfl
    · exact State.reg_devWrite_ne _ _ _ _ h2

section
variable {s : State} {e : Nat} {x : Entry}

theorem State.starve_goes (hh : s.held = []) : s.Gone e ((s.removeEnt e).starve x) ∧ s.StarveCounted ((s.removeEnt e).starve x) := by
  obtain ⟨hgone, hcount, -, -⟩ := State.starved_spec (e := e) hh
  cases hr : s.on LANE_CTRL.STARVE_REC with
  | false =>
    rw [State.starve_silent hh hr]
    exact ⟨hgone, hcount⟩
  | true =>
    obtain ⟨r, heq, -, -⟩ := State.starve_records (e := e) (x := x) hh hr
    rw [heq]
    exact ⟨hgone.of_same (State.writeRecord_unseen (g := State.ents) (fun _ _ _ _ _ _ _ _ _ => rfl) _ r),
      hcount.of_reg (State.reg_writeRecord _ r (by decide) (by decide))⟩

end

theorem execEntryStarved_goes {s : State} {e : Nat} {x : Entry} (he : s.ent e = some x) (hl : x.lane = none) (hsl : x.slot = none)
    (hh : s.held = []) (hc : s.cmr.st = 5) (h : s.agedOut x = true ∨ (s.hasHistory x = false ∧ x.fresh = false)) :
    ∃ t, exec (.entryStarved e) s = .next t ∧ s.Gone e t ∧ t.on LANE_STARVE_CNT.STARVED = true ∧
      t.fld LANE_STARVE_CNT.OCC_CNT = satInc 255 (s.fld LANE_STARVE_CNT.OCC_CNT) ∧
      (s.on LANE_CTRL.STARVE_REC = false →
        { t with regs := s.regs, ents := s.ents, held := s.held, free := s.touch.free } = s.touch) ∧
      (let base := s.fld LANE_RING_BASE.BASE
       let size := s.fld LANE_RING_SIZE.SIZE
       let head := s.fld LANE_RING_HEAD.HEAD
       s.on LANE_CTRL.STARVE_REC = true → 64 ≤ size → head + 32 ≤ size →
         32 ≤ (s.fld LANE_RING_TAIL.TAIL + 2 * size - head - 8) % size → 0x100000 ≤ base → base + size ≤ 0x200000 →
         t.num (base + head + 12) 1 = 0x30 ∧ t.fld LANE_RING_HEAD.HEAD = (head + 32) % size ∧
         t.seqno = (s.seqno + 1) % 65536 ∧
         ∀ a, (a < base + head ∨ base + head + 32 ≤ a) → t.byte a = s.byte a) := by
  have hexec := exec_entryStarved he hl hsl hc h
  have hheld : s.touch.held = [] := s.touch_held.trans hh
  have hmem : ∀ a, s.touch.byte a = s.byte a := fun a => State.touch_unseen (g := fun s => s.byte a) (fun _ _ _ => rfl) s
  have hseq := s.touch_seqno
  have hregs := s.touch_regs
  have hfr : { s.touch with regs := s.regs, ents := s.ents, held := s.held } = s.touch := by
    unfold State.touch
    split <;> rfl
  obtain ⟨hgone, hflag, hcount⟩ := State.starve_goes (e := e) (x := x) hheld
  have hgone' := hgone.touched
  generalize s.touch = u at *
  have hfld : ∀ f, u.fld f = s.fld f := State.fld_of_regs hregs
  obtain ⟨-, -, hreg, hseen⟩ := State.starved_spec (e := e) hheld
  refine ⟨_, hexec, hgone', hflag, hcount.trans (congrArg _ (hfld _)), fun hr => ?_, fun hr _ hend hroom hlo hhi => ?_⟩
  · rw [State.starve_silent hheld ((State.on_of_regs hregs _).trans hr)]
    exact (hseen (g := fun t : State => { t with regs := s.regs, ents := s.ents, held := s.held, free := u.free })
      fun _ _ _ _ _ => rfl).trans hfr
  · obtain ⟨r, heq, hst, hd⟩ := State.starve_records (e := e) (x := x) hheld ((State.on_of_regs hregs _).trans hr)
    have hf : ∀ f : Fld, f.off ≠ LANE_STARVE_CNT.off → (u.starved e).fld f = s.fld f := fun f h =>
      (State.fld_of_reg (hreg _ h)).trans (hfld f)
    have hrec := State.writeRecord_recorded (s := u.starved e) hd
      (by rw [hf _ (by decide), hf _ (by decide)]; exact hend)
      (by rw [hf _ (by decide), hf _ (by decide), hf _ (by decide)]; exact hroom)
      (by rw [hf _ (by decide)]; exact hlo) (by rw [hf _ (by decide), hf _ (by decide)]; exact hhi)
    obtain ⟨h1, h2, h3, h4, -, -⟩ := hrec
    rw [hf _ (by decide), hf _ (by decide)] at h1 h2 h4
    rw [heq]
    refine ⟨?_, h2, ?_, fun a ha => ?_⟩
    · rw [h1, hst]
    · rw [h3, hseen (g := State.seqno) fun _ _ _ _ _ => rfl, hseq]
    · rw [h4 a ha, hseen (g := fun t => t.byte a) fun _ _ _ _ _ => rfl, hmem]

end Sys2Proof.Machine


/-! SAMPLE_POSITION (R66, R74–R78, R81, R86). -/

namespace Sys2Proof.Machine

/-! Clipped samples (R66). -/

/-- A flag raised `n` times. -/
def State.raises (s : State) (f cnt : Fld) (n : Nat) : State := (List.range n).foldl (fun s _ => s.raise f cnt) s

theorem State.raises_succ (s : State) (f cnt : Fld) (n : Nat) : s.raises f cnt (n + 1) = (s.raises f cnt n).raise f cnt := by
  unfold State.raises
  rw [List.range_succ, List.foldl_append, List.foldl_cons, List.foldl_nil]

theorem State.raises_unseen {β : Type} {g : State → β} (hg : ∀ t r, g { t with regs := r } = g t) (s : State) (f cnt : Fld) (n : Nat) :
    g (s.raises f cnt n) = g s := State.foldl_unseen (fun t _ => State.raise_unseen hg t f cnt) _ s

theorem State.reg_raises (s : State) (f cnt : Fld) (n : Nat) {o : Nat} (hf : o ≠ f.off) (hc : o ≠ cnt.off) :
    (s.raises f cnt n).reg o = s.reg o :=
  State.foldl_unseen (g := fun t => t.reg o) (fun t _ => State.reg_raise_ne t f cnt hf hc) _ s

theorem State.on_raises {s : State} {f cnt : Fld} (h : f.lo = f.hi ∧ f.hi < 32) (ha : cnt.apart f = true) {n : Nat} (hn : 0 < n) :
    (s.raises f cnt n).on f = true := by
  obtain ⟨m, rfl⟩ := Nat.exists_eq_succ_of_ne_zero hn.ne'
  rw [State.raises_succ]
  exact State.on_raise h ha

theorem State.fld_raises {s : State} {f cnt : Fld} (h : cnt.hi = cnt.lo + 7 ∧ cnt.hi < 32) (ha : f.apart cnt = true) (n : Nat) :
    (s.raises f cnt n).fld cnt = min 255 (s.fld cnt + n) := by
  have hlt := s.fld_lt cnt
  rw [show cnt.hi + 1 - cnt.lo = 8 by omega] at hlt
  induction n with
  | zero =>
    show s.fld cnt = min 255 (s.fld cnt + 0)
    omega
  | succ n ih =>
    rw [State.raises_succ, State.fld_raise h ha, ih]
    unfold satInc
    split <;> omega

/-- The clip fields of a chain. -/
theorem clipFlds (c : Chain) : ((RFA_RXn_CFG.CLIP (chainIx c)).lo = (RFA_RXn_CFG.CLIP (chainIx c)).hi ∧
    (RFA_RXn_CFG.CLIP (chainIx c)).hi < 32) ∧ (RFA_RXn_CFG.CLIP_CNT (chainIx c)).apart (RFA_RXn_CFG.CLIP (chainIx c)) = true ∧
    ((RFA_RXn_CFG.CLIP_CNT (chainIx c)).hi = (RFA_RXn_CFG.CLIP_CNT (chainIx c)).lo + 7 ∧ (RFA_RXn_CFG.CLIP_CNT (chainIx c)).hi < 32) ∧
    (RFA_RXn_CFG.CLIP (chainIx c)).apart (RFA_RXn_CFG.CLIP_CNT (chainIx c)) = true := by
  cases c <;> decide

/-- The samples of a position have been looked at for clipping. -/
structure State.Clipped (s : State) (c : Chain) (l : List Bool) (v : State) : Prop where
  flag : s.chainOn c = true → 0 < clipRuns (s.pal c).clip l → v.on (RFA_RXn_CFG.CLIP (chainIx c)) = true
  last : s.chainOn c = true → (v.pal c).clip = l.getLastD false
  count : s.chainOn c = true → v.fld (RFA_RXn_CFG.CLIP_CNT (chainIx c)) =
    min 255 (s.fld (RFA_RXn_CFG.CLIP_CNT (chainIx c)) + clipRuns (s.pal c).clip l)

/-- The raises of CLIP, and the last sample noted. -/
theorem State.clipSample_eq (s : State) (c : Chain) (l : List Bool) : ∃ n b, s.clipSample c l =
    (let t := s.raises (RFA_RXn_CFG.CLIP (chainIx c)) (RFA_RXn_CFG.CLIP_CNT (chainIx c)) n
     t.setPal c { t.pal c with clip := b }) ∧ (s.chainOn c = true → n = clipRuns (s.pal c).clip l ∧ b = l.getLastD false) := by
  unfold State.clipSample
  by_cases h : s.chainOn c = true
  · rw [if_pos h]
    exact ⟨_, _, rfl, fun _ => ⟨rfl, rfl⟩⟩
  · rw [if_neg h]
    exact ⟨0, false, rfl, fun e => absurd e h⟩

theorem State.clipSample_clipped (s : State) (c : Chain) (l : List Bool) : s.Clipped c l (s.clipSample c l) := by
  obtain ⟨n, b, heq, hon⟩ := s.clipSample_eq c l
  obtain ⟨hflag, hapart, hcnt, hapart'⟩ := clipFlds c
  rw [heq]
  dsimp only
  refine ⟨fun h hn => ?_, fun h => ?_, fun h => ?_⟩
  · rw [State.on_of_regs (State.setPal_regs _ _ _)]
    exact State.on_raises hflag hapart ((hon h).1 ▸ hn)
  · rw [State.pal_setPal_self]
    exact (hon h).2
  · rw [State.fld_of_regs (State.setPal_regs _ _ _), State.fld_raises hcnt hapart', (hon h).1]

/-! What the sampling of one chain touches. -/

/-- Where the bins of chain `c` lie in the Erg while the chains are split. -/
def ergBase (c : Chain) : Nat := 0x400000 + chainIx c * 0x200000

/-- `t` is `s` with no more changed than the sampling of chain `c` may change: its Palette, its clip counter, the check bits' faults and
its half of the Erg. -/
structure State.Apart (c : Chain) (s t : State) : Prop where
  pal : t.pal (otherChain c) = s.pal (otherChain c)
  reg : ∀ o, o ≠ MEM_BANK_CFG.off → o ≠ RFA_RXn_CFG.off (chainIx c) → t.reg o = s.reg o
  byte : s.single = false → ∀ x, (x < ergBase c ∨ ergBase c + 0x200000 ≤ x) → t.byte x = s.byte x
  unseen : ∀ {β : Type} {g : State → β}, (∀ t r m k b x y, g { t with
    regs := r, mem := m, marks := k, scrub := b, palA := x, palB := y } = g t) → g t = g s

namespace State.Apart

variable {c : Chain} {s t u : State}

theorem single (h : s.Apart c t) : t.single = s.single :=
  congrArg (· == 0) (State.fld_of_reg (f := RFA_CHAIN_CFG.ARR) (h.reg _ (by decide) (by cases c <;> decide)))

theorem refl (c : Chain) (s : State) : s.Apart c s := ⟨rfl, fun _ _ _ => rfl, fun _ _ _ => rfl, fun _ => rfl⟩

theorem trans (h : s.Apart c t) (k : t.Apart c u) : s.Apart c u :=
  ⟨k.pal.trans h.pal, fun o h1 h2 => (k.reg o h1 h2).trans (h.reg o h1 h2),
    fun hs x hx => (k.byte (h.single.trans hs) x hx).trans (h.byte hs x hx), fun hg => (k.unseen hg).trans (h.unseen hg)⟩

theorem setPal (s : State) (c : Chain) (x : Palette) : s.Apart c (s.setPal c x) :=
  ⟨State.pal_setPal_ne s c _ x (otherChain_ne c), fun o _ _ => State.reg_of_regs (State.setPal_regs s c x) o,
    fun _ a _ => by cases c <;> rfl, fun hg => by
      cases c
      · exact hg s s.regs s.mem s.marks s.scrub x s.palB
      · exact hg s s.regs s.mem s.marks s.scrub s.palA x⟩

theorem raises (s : State) (c : Chain) (n : Nat) :
    s.Apart c (s.raises (RFA_RXn_CFG.CLIP (chainIx c)) (RFA_RXn_CFG.CLIP_CNT (chainIx c)) n) :=
  ⟨State.raises_unseen (g := fun t => t.pal (otherChain c)) (fun _ _ => by cases c <;> rfl) s _ _ n,
    fun o _ h => State.reg_raises s _ _ n h h, fun _ a _ => State.raises_unseen (g := fun t => t.byte a) (fun _ _ => rfl) s _ _ n,
    fun hg => State.raises_unseen (fun t r => hg t r t.mem t.marks t.scrub t.palA t.palB) s _ _ n⟩

theorem clipSample (s : State) (c : Chain) (l : List Bool) : s.Apart c (s.clipSample c l) := by
  obtain ⟨n, b, heq, -⟩ := s.clipSample_eq c l
  rw [heq]
  exact (raises s c n).trans (setPal _ c _)

end State.Apart


/-! Bank words written (R74, R345). -/

theorem State.ergAddr_split {s : State} (h : s.single = false) (c : Chain) (i p : Nat) :
    s.ergAddr c i p = ergBase c + i * 0x1000 + 2 * (p % 2048 / 4 * 4) := by
  unfold State.ergAddr
  rw [h, if_neg (by decide)]
  rfl

theorem State.ergAddr_in {s : State} (h : s.single = false) (c : Chain) {i : Nat} (hi : i < 512) (p : Nat) :
    ergBase c + i * 0x1000 ≤ s.ergAddr c i p ∧ s.ergAddr c i p + 8 ≤ ergBase c + (i + 1) * 0x1000 ∧
      ergBase c + (i + 1) * 0x1000 ≤ ergBase c + 0x200000 := by
  rw [State.ergAddr_split h]
  omega

theorem ergBase_le (c : Chain) : ergBase c ≤ 0x600000 := by cases c <;> decide

/-- A sample keeps its word in progress, or writes it. -/
theorem State.ergSample_cases (s : State) (c : Chain) (i p : Nat) (bs : List Byte) :
    ∃ q : Tab (List Byte), (∀ j, j ≠ i → Tab.get (fun _ => []) q j = Tab.get (fun _ => []) (s.pal c).part j) ∧
      (s.ergSample c i p bs = s.setPal c { s.pal c with part := q } ∨ ∃ b : List Byte, b.length ≤ 8 ∧
        s.ergSample c i p bs = (s.setPal c { s.pal c with part := q }).devWrite (s.ergAddr c i p) b) := by
  unfold State.ergSample
  extract_lets x w w' w''
  by_cases h : w''.length < 8
  · rw [if_pos h]
    exact ⟨_, fun j hj => Tab.get_set_ne _ _ _ _ _ hj, .inl rfl⟩
  · rw [if_neg h]
    exact ⟨_, fun j hj => Tab.get_drop_ne _ _ _ _ hj, .inr ⟨_, List.length_take_le _ _, rfl⟩⟩

/-- The last sample of a word of which the others stand writes it. -/
theorem State.ergSample_full {s : State} {c : Chain} {i p : Nat} {bs w : List Byte} (hw : Tab.get (fun _ => []) (s.pal c).part i = w)
    (h6 : w.length = 6) (hp : p % 4 = 3) (hbs : bs.length = 2) : ∃ q : Tab (List Byte),
    s.ergSample c i p bs = (s.setPal c { s.pal c with part := q }).devWrite (s.ergAddr c i p) (w ++ bs) := by
  have hne : ¬ (w = [] ∧ p % 4 ≠ 0 ∧ (s.pal c).stopPos / 4 = p / 4) := fun ⟨e, _⟩ => by
    rw [e] at h6
    exact absurd h6 (by decide)
  have hlen : (w ++ bs).length = 8 := by rw [List.length_append, h6, hbs]
  refine ⟨Tab.drop i (s.pal c).part, ?_⟩
  unfold State.ergSample
  dsimp only
  rw [hw, if_neg hne, hp, h6]
  have hpad : w ++ (List.replicate (3 - 6 / 2) gapBytes).flatten ++ bs = w ++ bs := by simp
  rw [hpad, hlen, if_neg (by decide), List.take_of_length_le (by omega)]

theorem State.Apart.devWrite {c : Chain} (s : State) {a : Nat} {bs : List Byte}
    (h : s.single = false → ergBase c ≤ a ∧ a + bs.length ≤ ergBase c + 0x200000) : s.Apart c (s.devWrite a bs) := by
  refine ⟨State.devWrite_unseen (g := fun t => t.pal (otherChain c)) (fun _ _ _ _ _ => by cases c <;> rfl) s a bs,
    fun o ho _ => State.reg_devWrite_ne _ _ _ _ ho, fun hs x hx => ?_, fun hg =>
      State.devWrite_unseen (fun t r m k b => hg t r m k b t.palA t.palB) s a bs⟩
  obtain ⟨h1, h2⟩ := h hs
  have hb := ergBase_le c
  rw [State.byte_devWrite _ _ _ _ (by omega), if_neg (by omega)]

theorem State.Apart.ergAddr {c : Chain} {s t : State} (h : s.Apart c t) (d : Chain) (i p : Nat) : t.ergAddr d i p = s.ergAddr d i p := by
  unfold State.ergAddr
  rw [h.single]

theorem State.pal_devWrite (s : State) (a : Nat) (bs : List Byte) (c : Chain) : (s.devWrite a bs).pal c = s.pal c :=
  State.devWrite_unseen (g := fun t => t.pal c) (fun _ _ _ _ _ => by cases c <;> rfl) s a bs

theorem State.byte_setPal (s : State) (c : Chain) (x : Palette) (a : Nat) : (s.setPal c x).byte a = s.byte a := by cases c <;> rfl

/-- One sample of bin `i` at position `p` has been taken to the Erg. -/
structure State.ErgOne (c : Chain) (i p : Nat) (s t : State) : Prop where
  apart : s.Apart c t
  pal : ∃ q : Tab (List Byte), t.pal c = { s.pal c with part := q } ∧
    ∀ j, j ≠ i → Tab.get (fun _ => []) q j = Tab.get (fun _ => []) (s.pal c).part j
  byte : s.single = false → ∀ x, (x < s.ergAddr c i p ∨ s.ergAddr c i p + 8 ≤ x) → t.byte x = s.byte x

theorem State.ergSample_one (s : State) (c : Chain) {i : Nat} (hi : i < 512) (p : Nat) (bs : List Byte) :
    State.ErgOne c i p s (s.ergSample c i p bs) := by
  obtain ⟨q, hq, h | ⟨b, hb, h⟩⟩ := s.ergSample_cases c i p bs
  · rw [h]
    exact ⟨.setPal s c _, ⟨q, State.pal_setPal_self s c _, hq⟩, fun _ x _ => s.byte_setPal c _ x⟩
  · have hs := State.Apart.setPal s c { s.pal c with part := q }
    have hpal := State.pal_setPal_self s c { s.pal c with part := q }
    have hbyte := s.byte_setPal c { s.pal c with part := q }
    rw [h]
    generalize s.setPal c { s.pal c with part := q } = v at hs hpal hbyte
    refine ⟨hs.trans (.devWrite v fun hv => ?_), ⟨q, (v.pal_devWrite _ _ c).trans hpal, hq⟩, fun hv x hx => ?_⟩
    · obtain ⟨h1, h2, h3⟩ := State.ergAddr_in (hs.single ▸ hv) c hi p
      omega
    · obtain ⟨h1, h2, h3⟩ := State.ergAddr_in hv c hi p
      have := ergBase_le c
      rw [State.byte_devWrite _ _ _ _ (by omega), if_neg (by omega), hbyte]

/-- The word that a last sample completes. -/
theorem State.ergSample_bytes {s : State} (hs : s.single = false) {c : Chain} {i p : Nat} (hi : i < 512) {bs w : List Byte}
    (hw : Tab.get (fun _ => []) (s.pal c).part i = w) (h6 : w.length = 6) (hp : p % 4 = 3) (hbs : bs.length = 2) :
    (s.ergSample c i p bs).bytes (s.ergAddr c i p) 8 = w ++ bs := by
  obtain ⟨q, h⟩ := State.ergSample_full hw h6 hp hbs
  have hlen : (w ++ bs).length = 8 := by rw [List.length_append, h6, hbs]
  obtain ⟨h1, h2, h3⟩ := State.ergAddr_in hs c hi p
  have := ergBase_le c
  rw [h]
  have hput := State.bytes_of_put (t := (s.setPal c { s.pal c with part := q }).devWrite (s.ergAddr c i p) (w ++ bs))
    (a := s.ergAddr c i p) (bs := w ++ bs) fun j hj => by
      rw [State.byte_devWrite _ _ _ _ (by omega), if_pos (by omega), Nat.add_sub_cancel_left]
  rwa [hlen] at hput


/-- The two bytes of bin `i` at a position: the gap marker, or the companded sample. -/
def sampleBytes (gap : Bool) (o : ChainObs) (i : Nat) : List Byte :=
  if gap then gapBytes else [compByte (obsAt o i).1, compByte (obsAt o i).2]

theorem sampleBytes_length (gap : Bool) (o : ChainObs) (i : Nat) : (sampleBytes gap o i).length = 2 := by cases gap <;> rfl

/-- The first `n` bins of a position taken to the Erg. -/
def State.ergBins (s : State) (c : Chain) (gap : Bool) (o : ChainObs) (n : Nat) : State :=
  (List.range n).foldl (fun s i => s.ergSample c i s.pos (sampleBytes gap o i)) s

theorem State.ergWrite_eq (s : State) (c : Chain) (gap : Bool) (o : ChainObs) : s.ergWrite c gap o = s.ergBins c gap o 512 := (rfl)

theorem State.ergBins_succ (s : State) (c : Chain) (gap : Bool) (o : ChainObs) (n : Nat) :
    s.ergBins c gap o (n + 1) = (s.ergBins c gap o n).ergSample c n (s.ergBins c gap o n).pos (sampleBytes gap o n) := by
  unfold State.ergBins
  rw [List.range_succ, List.foldl_append, List.foldl_cons, List.foldl_nil]

/-- Bins have been taken to the Erg: words that the position completes stand there. -/
structure State.ErgMany (c : Chain) (gap : Bool) (o : ChainObs) (n : Nat) (s t : State) : Prop where
  apart : s.Apart c t
  pal : ∃ q : Tab (List Byte), t.pal c = { s.pal c with part := q } ∧
    ∀ j, n ≤ j → Tab.get (fun _ => []) q j = Tab.get (fun _ => []) (s.pal c).part j
  bytes : ∀ i, i < n → s.single = false → s.pos % 4 = 3 → ∀ w, Tab.get (fun _ => []) (s.pal c).part i = w → w.length = 6 →
    t.bytes (s.ergAddr c i s.pos) 8 = w ++ sampleBytes gap o i

theorem State.bytes_congr {s t : State} {a n : Nat} (h : ∀ i, i < n → t.byte (a + i) = s.byte (a + i)) : t.bytes a n = s.bytes a n := by
  unfold State.bytes
  exact List.map_congr_left fun i hi => h i (List.mem_range.mp hi)

theorem State.ergBins_many (s : State) (c : Chain) (gap : Bool) (o : ChainObs) {n : Nat} (hn : n ≤ 512) :
    State.ErgMany c gap o n s (s.ergBins c gap o n) := by
  induction n with
  | zero => exact ⟨.refl c s, ⟨(s.pal c).part, rfl, fun _ _ => rfl⟩, fun i hi => absurd hi (by omega)⟩
  | succ n ih =>
    obtain ⟨hap, ⟨q, hpal, hq⟩, hbytes⟩ := ih (by omega)
    have hpos : (s.ergBins c gap o n).pos = s.pos := hap.unseen (g := State.pos) fun _ _ _ _ _ _ _ => rfl
    rw [State.ergBins_succ, hpos]
    generalize s.ergBins c gap o n = v at hap hpal hbytes
    obtain ⟨hap', ⟨q', hpal', hq'⟩, hbyte⟩ := v.ergSample_one c (i := n) (by omega) s.pos (sampleBytes gap o n)
    rw [hpal] at hpal' hq'
    refine ⟨hap.trans hap', ⟨q', hpal', fun j hj => (hq' j (by omega)).trans (hq j (by omega))⟩, fun i hi hs hp w hw h6 => ?_⟩
    rcases Nat.lt_succ_iff_lt_or_eq.mp hi with hlt | rfl
    · rw [← hbytes i hlt hs hp w hw h6]
      refine State.bytes_congr fun j hj => hbyte (hap.single.trans hs) _ (.inl ?_)
      obtain ⟨h1, h2, h3⟩ := State.ergAddr_in hs c (i := i) (by omega) s.pos
      obtain ⟨h4, -, -⟩ := State.ergAddr_in hs c (i := n) (by omega) s.pos
      have hle : (i + 1) * 0x1000 ≤ n * 0x1000 := Nat.mul_le_mul_right _ hlt
      rw [hap.ergAddr]
      omega
    · rw [← hap.ergAddr]
      refine State.ergSample_bytes (hap.single.trans hs) (by omega) ?_ h6 hp (sampleBytes_length _ _ _)
      rw [hpal]
      exact (hq i le_rfl).trans hw


/-! What the sampling of a chain reads of the state is not changed by it. -/

namespace State.Apart

variable {c : Chain} {s t : State}

theorem on (h : s.Apart c t) {f : Fld} (h1 : f.off ≠ MEM_BANK_CFG.off) (h2 : f.off ≠ RFA_RXn_CFG.off (chainIx c)) : t.on f = s.on f :=
  State.on_of_reg (h.reg _ h1 h2)

theorem palRuns (h : s.Apart c t) (d : Chain) : t.palRuns d = s.palRuns d :=
  State.palRuns_of_reg (h.reg _ (by decide) (by cases c <;> decide)) d

theorem chainOn (h : s.Apart c t) (d : Chain) : t.chainOn d = s.chainOn d := by
  have hr := h.reg RFA_CHAIN_CFG.RXA_ON.off (by decide) (by cases c <;> decide)
  cases d
  · exact State.on_of_reg (f := RFA_CHAIN_CFG.RXA_ON) hr
  · exact State.on_of_reg (f := RFA_CHAIN_CFG.RXB_ON) hr

theorem ergWrites (h : s.Apart c t) (d : Chain) : t.ergWrites d = s.ergWrites d := by
  have hr := h.reg CHZ_ERG_CFG.WR_A.off (by decide) (by cases c <;> decide)
  have hw : t.writesErg d = s.writesErg d := by
    cases d
    · exact State.on_of_reg (f := CHZ_ERG_CFG.WR_A) hr
    · exact State.on_of_reg (f := CHZ_ERG_CFG.WR_B) hr
  unfold State.ergWrites
  rw [h.palRuns, hw, h.unseen (g := fun t => t.holds .erg) fun _ _ _ _ _ _ _ => rfl]

theorem gapNow (h : s.Apart c t) (d : Chain) : t.gapNow d = s.gapNow d := by
  have hdiv : t.diversity = s.diversity :=
    congrArg (· == 1) (State.fld_of_reg (f := RFA_CHAIN_CFG.ARR) (h.reg _ (by decide) (by cases c <;> decide)))
  have hr := h.reg RFA_CAL_CTRL.off (by decide) (by cases c <;> decide)
  have hsya : t.sya = s.sya := h.unseen (g := State.sya) fun _ _ _ _ _ _ _ => rfl
  have hsyb : t.syb = s.syb := h.unseen (g := State.syb) fun _ _ _ _ _ _ _ => rfl
  unfold State.gapNow
  rw [hdiv, hsya, hsyb, State.on_of_reg (f := RFA_CAL_CTRL.RXA_IQ) hr, State.on_of_reg (f := RFA_CAL_CTRL.RXB_IQ) hr]

theorem pos (h : s.Apart c t) : t.pos = s.pos := h.unseen (g := State.pos) fun _ _ _ _ _ _ _ => rfl

theorem stamp (h : s.Apart c t) : t.stamp = s.stamp := h.unseen (g := State.stamp) fun _ _ _ _ _ _ _ => rfl

theorem pins (h : s.Apart c t) : t.pins = s.pins := h.unseen (g := State.pins) fun _ _ _ _ _ _ _ => rfl

theorem rslots (h : s.Apart c t) : t.rslots = s.rslots := h.unseen (g := State.rslots) fun _ _ _ _ _ _ _ => rfl

end State.Apart

/-! The energy store at a position (R78). -/

/-- Only blocks change. -/
theorem Palette.energyStep_eq (x : Palette) (pos now : Nat) (gap self : Bool) (pow : List (Nat × Nat)) :
    ∃ b l, x.energyStep pos now gap self pow = { x with cur := b, blocks := l } := by
  unfold Palette.energyStep
  dsimp only
  split
  · exact ⟨_, _, rfl⟩
  · exact ⟨_, x.blocks, rfl⟩

/-- The sixteenth position completes the block. -/
theorem Palette.energyStep_completes (x : Palette) {pos now : Nat} {gap self : Bool} (pow : List (Nat × Nat)) (hp : pos % 16 = 15)
    (hn : x.cur.n = 15) : ∃ k, (x.energyStep pos now gap self pow).blocks = (k :: x.blocks).take 128 ∧ k.n = 16 ∧
      k.start = x.cur.start ∧ k.stop = now ∧ k.gap = (x.cur.gap || gap) ∧ k.self = (x.cur.self || self) := by
  unfold Palette.energyStep
  dsimp only
  rw [if_pos hp, if_neg (show ¬ x.cur.n = 0 by omega)]
  exact ⟨_, rfl, by rw [hn], rfl, rfl, by rw [hn]; simp, rfl⟩

/-- No recovery slot runs: live samples go nowhere. -/
theorem State.appendLive_idle {s : State} (h : s.rslots = []) (c : Chain) (gap : Bool) (o : ChainObs) : s.appendLive c gap o = s := by
  have hr : ∀ n, s.rslot n = none := fun n => by
    unfold State.rslot
    rw [h]
    rfl
  unfold State.appendLive
  refine List.foldlRecOn (motive := fun t => t = s) _ _ rfl fun t ht n _ => ?_
  rw [ht, hr]

/-! A running Palette at a position. -/

/-- The Palette of chain `c` has run over a position, at `now`. -/
structure State.Ran (s : State) (c : Chain) (o : ChainObs) (now : Nat) (v : State) : Prop where
  marker : (v.pal c).marker = false
  gapAt : (s.gapNow c || (s.pal c).marker) = true → (v.pal c).gapAt = now
  block : s.pos % 16 = 15 → (s.pal c).cur.n = 15 → ∃ k, (v.pal c).blocks = (k :: (s.pal c).blocks).take 128 ∧ k.n = 16 ∧
    k.start = (s.pal c).cur.start ∧ k.stop = now ∧ k.gap = ((s.pal c).cur.gap || (s.gapNow c || (s.pal c).marker)) ∧
    k.self = ((s.pal c).cur.self || s.pins.paEn)
  wrote : s.ergWrites c = true → (v.pal c).written = (s.pal c).written + 1
  idle : s.ergWrites c = false → (v.pal c).written = (s.pal c).written ∧ (v.pal c).part = (s.pal c).part
  bytes : ∀ i w, i < 512 → s.single = false → s.ergWrites c = true → s.pos % 4 = 3 →
    Tab.get (fun _ => []) (s.pal c).part i = w → w.length = 6 →
    v.bytes (s.ergAddr c i s.pos) 8 = w ++ sampleBytes (s.gapNow c || (s.pal c).marker) o i

/-- The Palette after its energy step. -/
def State.sampled (s : State) (c : Chain) (pow : List (Nat × Nat)) : Palette :=
  let gap := s.gapNow c || (s.pal c).marker
  let x := (s.pal c).energyStep s.pos s.stamp gap s.pins.paEn pow
  { x with marker := false, gapAt := if gap then s.stamp else x.gapAt }

theorem State.sampled_ran (s : State) (c : Chain) (pow : List (Nat × Nat)) : let x := s.sampled c pow
    x.marker = false ∧ ((s.gapNow c || (s.pal c).marker) = true → x.gapAt = s.stamp) ∧
      (s.pos % 16 = 15 → (s.pal c).cur.n = 15 → ∃ k, x.blocks = (k :: (s.pal c).blocks).take 128 ∧ k.n = 16 ∧
        k.start = (s.pal c).cur.start ∧ k.stop = s.stamp ∧ k.gap = ((s.pal c).cur.gap || (s.gapNow c || (s.pal c).marker)) ∧
        k.self = ((s.pal c).cur.self || s.pins.paEn)) ∧
      x.written = (s.pal c).written ∧ x.part = (s.pal c).part ∧ x.clip = (s.pal c).clip := by
  obtain ⟨b, l, heq⟩ := (s.pal c).energyStep_eq s.pos s.stamp (s.gapNow c || (s.pal c).marker) s.pins.paEn pow
  refine ⟨rfl, fun h => if_pos h, fun hp hn => (s.pal c).energyStep_completes pow hp hn, ?_, ?_, ?_⟩
  · have h := congrArg Palette.written heq
    exact h
  · have h := congrArg Palette.part heq
    exact h
  · have h := congrArg Palette.clip heq
    exact h


/-- The powers of a position that count: none beside a gap marker. -/
def State.powers (s : State) (c : Chain) (o : ChainObs) : List (Nat × Nat) :=
  if (s.gapNow c || (s.pal c).marker) = true then [] else o.pow.map (fun e => (e.1, s.toBall c e.2))

/-- The Palette of chain `c` sampled, before the Erg is written. -/
def State.energyDone (s : State) (c : Chain) (o : ChainObs) : State :=
  s.setPal c (s.sampled c (s.powers c o))

/-- A chain's Palette over a position, its clipping done. -/
def State.paletteRun (s : State) (c : Chain) (o : ChainObs) : State :=
  if s.palRuns c then
    let t := s.energyDone c o
    if t.ergWrites c then (t.setPal c { t.pal c with written := (t.pal c).written + 1 }).ergWrite c (s.gapNow c || (s.pal c).marker) o
    else t
  else s

theorem State.chainSample_eq {s : State} (h : s.rslots = []) (c : Chain) (o : ChainObs) :
    s.chainSample c o = (s.clipSample c o.clip).paletteRun c o := by
  have hr : (s.clipSample c o.clip).rslots = [] := (State.Apart.clipSample s c o.clip).rslots.trans h
  unfold State.chainSample
  generalize s.clipSample c o.clip = t at hr
  have hlive : ∀ x : Palette, ∀ gap, (t.setPal c x).appendLive c gap o = t.setPal c x := fun x gap =>
    State.appendLive_idle ((State.setPal_rslots t c x).trans hr) c gap o
  dsimp only
  simp only [hlive]
  rfl

/-- A Palette that does not write the Erg over a position. -/
theorem State.energyDone_ran {s : State} {c : Chain} (he : s.ergWrites c = false) (o : ChainObs) : s.Ran c o s.stamp (s.energyDone c o) := by
  obtain ⟨h1, h2, h3, h4, h5, -⟩ := s.sampled_ran c (s.powers c o)
  have hpal : (s.energyDone c o).pal c = s.sampled c _ := State.pal_setPal_self s c _
  rw [← hpal] at h1 h2 h3 h4 h5
  exact ⟨h1, h2, h3, fun h => absurd (he.symm.trans h) (by decide), fun _ => ⟨h4, h5⟩,
    fun _ _ _ _ h => absurd (he.symm.trans h) (by decide)⟩

/-- A Palette that writes the Erg over a position. -/
theorem State.ergWrite_ran {s : State} {c : Chain} (he : s.ergWrites c = true) (o : ChainObs) {y v : State}
    (hy : y = (s.energyDone c o).setPal c { (s.energyDone c o).pal c with written := ((s.energyDone c o).pal c).written + 1 })
    (hv : v = y.ergWrite c (s.gapNow c || (s.pal c).marker) o) : s.Apart c v ∧ s.Ran c o s.stamp v ∧ (v.pal c).clip = (s.pal c).clip := by
  obtain ⟨h1, h2, h3, h4, h5, h6⟩ := s.sampled_ran c (s.powers c o)
  have hpal : (s.energyDone c o).pal c = s.sampled c _ := State.pal_setPal_self s c _
  have hap : s.Apart c y := hy ▸ (State.Apart.setPal s c _).trans (.setPal _ c _)
  have hypal : y.pal c = { (s.energyDone c o).pal c with written := ((s.energyDone c o).pal c).written + 1 } :=
    hy ▸ State.pal_setPal_self _ c _
  rw [← hpal] at h1 h2 h3 h4 h5 h6
  generalize (s.energyDone c o).pal c = x at h1 h2 h3 h4 h5 h6 hypal
  rw [State.ergWrite_eq] at hv
  obtain ⟨hap', ⟨q, hvpal, -⟩, hbytes⟩ := y.ergBins_many c (s.gapNow c || (s.pal c).marker) o (n := 512) le_rfl
  rw [← hv] at hap' hvpal hbytes
  rw [hypal] at hvpal
  refine ⟨hap.trans hap', ⟨?_, fun hg => ?_, fun hp hn => ?_, fun _ => ?_, fun h => absurd (he.symm.trans h) (by decide),
    fun i w hi hs _ hp hw h6' => ?_⟩, ?_⟩
  · rw [hvpal]
    exact h1
  · rw [hvpal]
    exact h2 hg
  · rw [hvpal]
    exact h3 hp hn
  · rw [hvpal]
    exact congrArg (· + 1) h4
  · have hpart : Tab.get (fun _ => []) (y.pal c).part i = w := by
      rw [hypal]
      exact (congrArg (fun t => Tab.get (fun _ => []) t i) h5).trans hw
    have := hbytes i hi (hap.single.trans hs) (by rw [hap.pos]; exact hp) w hpart h6'
    rwa [hap.ergAddr, hap.pos] at this
  · rw [hvpal]
    exact h6

/-- A running Palette over a position. -/
theorem State.paletteRun_ran {s : State} {c : Chain} (hr : s.palRuns c = true) (o : ChainObs) :
    s.Apart c (s.paletteRun c o) ∧ s.Ran c o s.stamp (s.paletteRun c o) ∧ ((s.paletteRun c o).pal c).clip = (s.pal c).clip := by
  have hap : s.Apart c (s.energyDone c o) := .setPal s c _
  unfold State.paletteRun
  rw [if_pos hr]
  dsimp only
  rw [hap.ergWrites]
  cases he : s.ergWrites c with
  | true =>
    rw [if_pos rfl]
    exact State.ergWrite_ran he o rfl rfl
  | false =>
    rw [if_neg (by decide)]
    obtain ⟨-, -, -, -, -, h6⟩ := s.sampled_ran c (s.powers c o)
    refine ⟨hap, State.energyDone_ran he o, ?_⟩
    exact (congrArg Palette.clip (State.pal_setPal_self s c _)).trans h6


/-! Both chains over a position. -/

/-- What the sampling of a chain goes by. -/
structure SampleView where
  pal : Palette
  gap : Bool
  pos : Nat
  paEn : Bool
  erg : Bool
  single : Bool

/-- What the sampling of chain `c` goes by in `s`; the clipping apart. -/
def State.sampleView (s : State) (c : Chain) : SampleView :=
  ⟨{ s.pal c with clip := false }, s.gapNow c, s.pos, s.pins.paEn, s.ergWrites c, s.single⟩

theorem State.Ran.congr {s t v : State} {c : Chain} {o : ChainObs} {now : Nat} (h : s.sampleView c = t.sampleView c) (r : t.Ran c o now v) :
    s.Ran c o now v := by
  have hmark : (s.pal c).marker = (t.pal c).marker := congrArg (fun w => w.pal.marker) h
  have hcur : (s.pal c).cur = (t.pal c).cur := congrArg (fun w => w.pal.cur) h
  have hblocks : (s.pal c).blocks = (t.pal c).blocks := congrArg (fun w => w.pal.blocks) h
  have hwritten : (s.pal c).written = (t.pal c).written := congrArg (fun w => w.pal.written) h
  have hpart : (s.pal c).part = (t.pal c).part := congrArg (fun w => w.pal.part) h
  have hgap : s.gapNow c = t.gapNow c := congrArg SampleView.gap h
  have hpos : s.pos = t.pos := congrArg SampleView.pos h
  have hpa : s.pins.paEn = t.pins.paEn := congrArg SampleView.paEn h
  have herg : s.ergWrites c = t.ergWrites c := congrArg SampleView.erg h
  have hsingle : s.single = t.single := congrArg SampleView.single h
  have haddr : ∀ i, s.ergAddr c i s.pos = t.ergAddr c i t.pos := fun i => by
    unfold State.ergAddr
    rw [hsingle, hpos]
  obtain ⟨h1, h2, h3, h4, h5, h6⟩ := r
  constructor
  case marker => exact h1
  case gapAt =>
    rw [hgap, hmark]
    exact h2
  case block =>
    rw [hpos, hcur, hblocks, hgap, hmark, hpa]
    exact h3
  case wrote =>
    rw [herg, hwritten]
    exact h4
  case idle =>
    rw [herg, hwritten, hpart]
    exact h5
  case bytes =>
    intro i
    rw [hsingle, herg, hpart, hgap, hmark, haddr, hpos]
    exact h6 i

theorem otherChain_other (c : Chain) : otherChain (otherChain c) = c := by cases c <;> rfl

/-- What only the sampling of the other chain may change. -/
theorem State.Apart.sampleView {c : Chain} {s t : State} (h : s.Apart (otherChain c) t) : t.sampleView c = s.sampleView c := by
  have hp := h.pal
  rw [otherChain_other] at hp
  unfold State.sampleView
  rw [hp, h.gapNow, h.pos, h.pins, h.ergWrites, h.single]

/-- The clipping is none of it. -/
theorem State.clipSample_sampleView (s : State) (c : Chain) (l : List Bool) : (s.clipSample c l).sampleView c = s.sampleView c := by
  have h := State.Apart.clipSample s c l
  have hp : { (s.clipSample c l).pal c with clip := false } = { s.pal c with clip := false } := by
    obtain ⟨n, b, heq, -⟩ := s.clipSample_eq c l
    rw [heq]
    dsimp only
    rw [State.pal_setPal_self, State.raises_unseen (g := fun t => t.pal c) fun _ _ => by cases c <;> rfl]
  unfold State.sampleView
  rw [hp, h.gapNow, h.pos, h.pins, h.ergWrites, h.single]

theorem ergBase_apart (c : Chain) : ergBase c + 0x200000 ≤ ergBase (otherChain c) ∨ ergBase (otherChain c) + 0x200000 ≤ ergBase c := by
  cases c <;> decide

/-- The other chain sampled afterwards changes nothing of it. -/
theorem State.Ran.after {s v w : State} {c : Chain} {o : ChainObs} {now : Nat} (r : s.Ran c o now v) (hs : v.single = s.single)
    (h : v.Apart (otherChain c) w) : s.Ran c o now w := by
  have hp := h.pal
  rw [otherChain_other] at hp
  obtain ⟨h1, h2, h3, h4, h5, h6⟩ := r
  rw [← hp] at h1 h2 h3 h4 h5
  refine ⟨h1, h2, h3, h4, h5, fun i q hi hsg he hpos hq hl => ?_⟩
  rw [← h6 i q hi hsg he hpos hq hl]
  refine State.bytes_congr fun j hj => h.byte (hs.trans hsg) _ ?_
  obtain ⟨ha, hb, hc⟩ := State.ergAddr_in hsg c hi s.pos
  have := ergBase_apart c
  omega

theorem State.Clipped.after {s v w : State} {c : Chain} {l : List Bool} (h : s.Clipped c l v) (hp : (w.pal c).clip = (v.pal c).clip)
    (hr : w.reg (RFA_RXn_CFG.off (chainIx c)) = v.reg (RFA_RXn_CFG.off (chainIx c))) : s.Clipped c l w :=
  ⟨fun a b => (State.on_of_reg (f := RFA_RXn_CFG.CLIP (chainIx c)) hr).trans (h.flag a b), fun a => hp.trans (h.last a),
    fun a => (State.fld_of_reg (f := RFA_RXn_CFG.CLIP_CNT (chainIx c)) hr).trans (h.count a)⟩

theorem State.Clipped.before {s t v : State} {c : Chain} {l : List Bool} (h : t.Clipped c l v) (hon : t.chainOn c = s.chainOn c)
    (hp : (t.pal c).clip = (s.pal c).clip) (hr : t.reg (RFA_RXn_CFG.off (chainIx c)) = s.reg (RFA_RXn_CFG.off (chainIx c))) :
    s.Clipped c l v := by
  have hf := State.fld_of_reg (f := RFA_RXn_CFG.CLIP_CNT (chainIx c)) hr
  obtain ⟨h1, h2, h3⟩ := h
  rw [hon] at h1 h2 h3
  rw [hp] at h1 h3
  rw [hf] at h3
  exact ⟨h1, h2, h3⟩

/-- A running Palette leaves the registers. -/
theorem State.reg_paletteRun (s : State) (c : Chain) (o : ChainObs) {m : Nat} (hm : m ≠ MEM_BANK_CFG.off) :
    (s.paletteRun c o).reg m = s.reg m := by
  have hset : ∀ (t : State) (x : Palette), (t.setPal c x).reg m = t.reg m := fun t x => State.reg_of_regs (State.setPal_regs t c x) m
  unfold State.paletteRun
  split
  · dsimp only
    split
    · rw [State.ergWrite_eq]
      refine (State.foldl_unseen (g := fun t => t.reg m) (fun t i => ?_) _ _).trans ((hset _ _).trans (hset _ _))
      obtain ⟨q, -, h | ⟨b, -, h⟩⟩ := t.ergSample_cases c i t.pos (sampleBytes (s.gapNow c || (s.pal c).marker) o i)
      · rw [h]
        exact hset _ _
      · rw [h]
        exact (State.reg_devWrite_ne _ _ _ _ hm).trans (hset _ _)
    · exact hset _ _
  · rfl

/-- One chain at a position. -/
theorem State.chainSample_spec {s : State} (h : s.rslots = []) (c : Chain) (o : ChainObs) : s.Apart c (s.chainSample c o) ∧
    s.Clipped c o.clip (s.chainSample c o) ∧ (s.palRuns c = true → s.Ran c o s.stamp (s.chainSample c o)) := by
  have hap := State.Apart.clipSample s c o.clip
  have hclip := s.clipSample_clipped c o.clip
  have hview := s.clipSample_sampleView c o.clip
  rw [State.chainSample_eq h]
  have hreg := fun m hm => State.reg_paletteRun (s.clipSample c o.clip) c o (m := m) hm
  have hran := fun hr => State.paletteRun_ran (s := s.clipSample c o.clip) (c := c) hr o
  have hoff : (s.clipSample c o.clip).palRuns c = false → (s.clipSample c o.clip).paletteRun c o = s.clipSample c o.clip := fun hr => by
    unfold State.paletteRun
    rw [hr, if_neg (by decide)]
  have hcfg : RFA_RXn_CFG.off (chainIx c) ≠ MEM_BANK_CFG.off := by cases c <;> decide
  rw [hap.palRuns, hap.stamp] at hran
  rw [hap.palRuns] at hoff
  generalize s.clipSample c o.clip = t at *
  cases hr : s.palRuns c with
  | true =>
    obtain ⟨h1, h2, h3⟩ := hran hr
    exact ⟨hap.trans h1, hclip.after h3 (hreg _ hcfg), fun _ => h2.congr hview.symm⟩
  | false =>
    rw [hoff hr]
    exact ⟨hap, hclip, fun e => absurd e (by decide)⟩


/-- A chain's observation at a position. -/
def chainObs (o : SampleObs) : Chain → ChainObs
  | .a => o.a | .b => o.b

/-- Both chains sampled. -/
def State.sampleBoth (s : State) (o : SampleObs) : State := (s.chainSample .a o.a).chainSample .b o.b

theorem State.sampleBoth_spec {s : State} (h : s.rslots = []) (o : SampleObs) :
    (∀ c, s.Clipped c (chainObs o c).clip (s.sampleBoth o) ∧ (s.palRuns c = true → s.Ran c (chainObs o c) s.stamp (s.sampleBoth o))) ∧
      (∀ m, m ∉ [MEM_BANK_CFG.off, RFA_RXn_CFG.off 0, RFA_RXn_CFG.off 1] → (s.sampleBoth o).reg m = s.reg m) ∧
      ∀ {β : Type} {g : State → β}, (∀ t r m k b x y, g { t with
        regs := r, mem := m, marks := k, scrub := b, palA := x, palB := y } = g t) → g (s.sampleBoth o) = g s := by
  obtain ⟨ha, hac, har⟩ := State.chainSample_spec h .a o.a
  unfold State.sampleBoth
  generalize s.chainSample .a o.a = v at ha hac har
  obtain ⟨hb, hbc, hbr⟩ := State.chainSample_spec (ha.rslots.trans h) .b o.b
  generalize v.chainSample .b o.b = w at hb hbc hbr
  refine ⟨fun c => ?_, fun m hm => ?_, fun hg => (hb.unseen hg).trans (ha.unseen hg)⟩
  · cases c with
    | a => exact ⟨hac.after (congrArg Palette.clip hb.pal) (hb.reg _ (by decide) (by decide)), fun hr => (har hr).after ha.single hb⟩
    | b =>
      refine ⟨hbc.before (ha.chainOn .b) (congrArg Palette.clip ha.pal) (ha.reg _ (by decide) (by decide)), fun hr => ?_⟩
      have hran := hbr ((ha.palRuns .b).trans hr)
      rw [ha.stamp] at hran
      exact hran.congr (State.Apart.sampleView (c := .b) ha).symm
  · simp only [List.mem_cons, List.not_mem_nil, or_false, not_or] at hm
    obtain ⟨h1, h2, h3⟩ := hm
    exact (hb.reg m h1 h3).trans (ha.reg m h1 h2)

theorem State.Ran.of_same {s v w : State} {c : Chain} {o : ChainObs} {now : Nat} (r : s.Ran c o now v) (hp : w.pal c = v.pal c)
    (hb : ∀ a, w.byte a = v.byte a) : s.Ran c o now w := by
  obtain ⟨h1, h2, h3, h4, h5, h6⟩ := r
  rw [← hp] at h1 h2 h3 h4 h5
  exact ⟨h1, h2, h3, h4, h5, fun i q hi hsg he hpos hq hl =>
    (State.bytes_congr fun j _ => hb _).trans (h6 i q hi hsg he hpos hq hl)⟩

/-! Lanes and rounds without entries (R86). -/

theorem State.ent_none {s : State} (h : s.ents = []) (e : Nat) : s.ent e = none := by
  unfold State.ent
  rw [h]
  rfl

theorem State.entList_nil {s : State} (h : s.ents = []) : s.entList = [] := by
  unfold State.entList
  rw [h]
  rfl

/-- No lane holds an entry that is listed: none comes to a stage. -/
theorem State.laneStages_idle {s : State} (h : s.ents = []) (ms : List LaneObs) : ms.foldl State.laneStage s = s := by
  refine List.foldlRecOn (motive := fun t => t = s) _ _ rfl fun t ht m _ => ?_
  rw [ht]
  unfold State.laneStage
  split
  · rfl
  · rw [State.ent_none h]

theorem State.grantLanes_none {s : State} (h : s.entList.filter (fun p => s.servable p.2) = []) (f : Nat) :
    State.grantLanes f s = s := by
  cases f with
  | zero => rfl
  | succ f =>
    unfold State.grantLanes
    rw [h]
    cases s.freeLane <;> rfl

theorem State.round_idle {s : State} (h : s.ents = []) : s.round = s := by
  unfold State.round
  rw [State.grantLanes_none (by rw [State.entList_nil h]; rfl)]
  dsimp only
  rw [State.entList_nil h]
  rfl

/-- The state after a position's samples, before its sync words and detections. -/
def State.afterSamples (s : State) (o : SampleObs) : State :=
  let t := s.touch.sampleBoth o
  let v := { t with pos := t.pos + 1 }
  v.setFld CHZ_ERG_STAT.WPOS (v.pos % v.horizon)

theorem exec_samplePosition {s : State} (hc : s.cmr.st = 5) (ha : s.awake = true) (o : SampleObs) (cs : List Cand)
    (he : (s.afterSamples o).ents = []) : exec (.samplePosition { o with cands := cs, syncs := [] }) s =
      .next (cs.foldl State.candidate (s.afterSamples o)).round := by
  have hcond : ¬ (s.cmr.st ≠ 5 ∨ (!s.awake) = true) := by
    rw [hc, ha]
    decide
  show execSamplePosition { o with cands := cs, syncs := [] } s = _
  unfold execSamplePosition
  rw [if_neg hcond]
  dsimp only
  rw [List.foldl_nil]
  exact congrArg (fun v : State => Host.Outcome.next (cs.foldl State.candidate v).round) (State.laneStages_idle he o.lanes)


theorem State.sampleView_touch (s : State) (c : Chain) : s.touch.sampleView c = s.sampleView c := by
  have hgap : s.touch.gapNow c = s.gapNow c := State.touch_unseen (g := fun s => s.gapNow c) (fun _ _ _ => rfl) s
  have herg : s.touch.ergWrites c = s.ergWrites c := State.touch_unseen (g := fun s => s.ergWrites c) (fun _ _ _ => rfl) s
  have hsingle : s.touch.single = s.single := State.touch_unseen (g := State.single) (fun _ _ _ => rfl) s
  unfold State.sampleView
  rw [s.pal_touch, hgap, s.touch_pos, s.touch_pins, herg, hsingle]

theorem State.horizon_of_single {s t : State} (h : t.single = s.single) : t.horizon = s.horizon := by
  unfold State.horizon
  rw [h]

/-- The ring of samples has 2048 or 4096 positions. -/
theorem State.horizon_le (s : State) : 0 < s.horizon ∧ s.horizon ≤ 2 ^ 12 := by
  unfold State.horizon
  split <;> decide

/-- Both chains have been sampled at `now`; the position is not counted yet. -/
structure State.Sampled (s : State) (o : SampleObs) (now : Nat) (t : State) : Prop where
  pos : t.pos = s.pos
  ents : t.ents = s.ents
  ctx : t.ctx = s.ctx
  lanes : t.lanes = s.lanes
  reg : ∀ m, m ∉ [MEM_BANK_CFG.off, RFA_RXn_CFG.off 0, RFA_RXn_CFG.off 1] → t.reg m = s.reg m
  clipped : ∀ c, s.Clipped c (chainObs o c).clip t
  ran : ∀ c, s.palRuns c = true → s.Ran c (chainObs o c) now t

theorem State.sampleBoth_touch {s : State} (hr : s.rslots = []) (o : SampleObs) : s.Sampled o s.touch.stamp (s.touch.sampleBoth o) := by
  obtain ⟨hch, hreg, hun⟩ := State.sampleBoth_spec (s.touch_rslots.trans hr) o
  refine ⟨(hun (g := State.pos) fun _ _ _ _ _ _ _ => rfl).trans s.touch_pos,
    (hun (g := State.ents) fun _ _ _ _ _ _ _ => rfl).trans s.touch_ents,
    (hun (g := State.ctx) fun _ _ _ _ _ _ _ => rfl).trans s.touch_ctx,
    (hun (g := State.lanes) fun _ _ _ _ _ _ _ => rfl).trans s.touch_lanes,
    fun m hm => (hreg m hm).trans (State.reg_of_regs s.touch_regs m), fun c => ?_, fun c h => ?_⟩
  · exact (hch c).1.before (State.touch_unseen (g := fun s => s.chainOn c) (fun _ _ _ => rfl) s) (by rw [s.pal_touch])
      (State.reg_of_regs s.touch_regs _)
  · exact ((hch c).2 ((s.palRuns_touch c).trans h)).congr (s.sampleView_touch c).symm

/-- A sample position taken at `now`, without detections. -/
structure State.Position (s : State) (o : SampleObs) (now : Nat) (v : State) : Prop where
  pos : v.pos = s.pos + 1
  wpos : v.fld CHZ_ERG_STAT.WPOS = (s.pos + 1) % s.horizon
  ents : v.ents = s.ents
  ctx : v.ctx = s.ctx
  lanes : v.lanes = s.lanes
  reg : ∀ m, m ∉ [MEM_BANK_CFG.off, RFA_RXn_CFG.off 0, RFA_RXn_CFG.off 1, CHZ_ERG_STAT.off] → v.reg m = s.reg m
  clipped : ∀ c, s.Clipped c (chainObs o c).clip v
  ran : ∀ c, s.palRuns c = true → s.Ran c (chainObs o c) now v

theorem State.Sampled.moved {s t x : State} {o : SampleObs} {now : Nat} (h : s.Sampled o now t) (hx : x = { t with pos := t.pos + 1 }) :
    s.Position o now (x.setFld CHZ_ERG_STAT.WPOS (x.pos % x.horizon)) := by
  have hun : ∀ {β : Type} {g : State → β}, (∀ t r n, g { t with regs := r, pos := n } = g t) →
      g (x.setFld CHZ_ERG_STAT.WPOS (x.pos % x.horizon)) = g t := fun hg => by
    rw [State.setFld_unseen fun t r => hg t r t.pos, hx]
    exact hg t t.regs _
  have hxr : ∀ m, x.reg m = t.reg m := fun m => State.reg_of_regs (by rw [hx]) m
  have hxp : x.pos = s.pos + 1 := by rw [hx, ← h.pos]
  have hxh : x.horizon = s.horizon := State.horizon_of_single
    (congrArg (· == 0) (State.fld_of_reg (f := RFA_CHAIN_CFG.ARR) ((hxr _).trans (h.reg _ (by decide)))))
  have hval : (s.pos + 1) % s.horizon < 2 ^ 12 := (Nat.mod_lt _ s.horizon_le.1).trans_le s.horizon_le.2
  rw [hxp, hxh] at hun ⊢
  have hreg : ∀ m, m ≠ CHZ_ERG_STAT.off → (x.setFld CHZ_ERG_STAT.WPOS ((s.pos + 1) % s.horizon)).reg m = t.reg m := fun m hm =>
    (State.reg_setFld_ne _ _ _ _ hm).trans (hxr m)
  have hpal : ∀ c, (x.setFld CHZ_ERG_STAT.WPOS ((s.pos + 1) % s.horizon)).pal c = t.pal c := fun c =>
    hun (g := fun t => t.pal c) fun _ _ _ => by cases c <;> rfl
  refine ⟨(State.setFld_unseen (g := State.pos) (fun _ _ => rfl) x _ _).trans hxp, State.fld_setFld_fits _ _ _ (by decide) hval,
    (hun (g := State.ents) fun _ _ _ => rfl).trans h.ents, (hun (g := State.ctx) fun _ _ _ => rfl).trans h.ctx,
    (hun (g := State.lanes) fun _ _ _ => rfl).trans h.lanes, fun m hm => ?_, fun c => ?_, fun c hr => ?_⟩
  · simp only [List.mem_cons, List.not_mem_nil, or_false, not_or] at hm
    obtain ⟨h1, h2, h3, h4⟩ := hm
    exact (hreg m h4).trans (h.reg m (by simp [h1, h2, h3]))
  · exact (h.clipped c).after (congrArg Palette.clip (hpal c)) (hreg _ (by cases c <;> decide))
  · exact (h.ran c hr).of_same (hpal c) fun a => hun (g := fun t => t.byte a) fun _ _ _ => rfl

theorem State.afterSamples_position {s : State} (hr : s.rslots = []) (o : SampleObs) : s.Position o s.touch.stamp (s.afterSamples o) :=
  (State.sampleBoth_touch hr o).moved rfl

/-- The channels are where they were. -/
theorem State.Position.chanBin {s v : State} {o : SampleObs} {now : Nat} (h : s.Position o now v) (c : Chain) (ch : Nat) :
    v.chanBin c ch = s.chanBin c ch := by
  have hdiv : v.diversity = s.diversity := congrArg (· == 1) (State.fld_of_reg (f := RFA_CHAIN_CFG.ARR) (h.reg _ (by decide)))
  have hcfg : v.detCfg c = s.detCfg c := by
    unfold State.detCfg
    rw [h.reg _ (by decide), hdiv]
  unfold State.chanBin State.detAlign State.detWidth
  rw [hcfg]


/-! A detection (R81, R85, R86). -/

section
variable {s : State} (h : s.ents = [])
include h

/-- Without other entries a candidate that the detector passes is posted as entry 0. -/
theorem State.candidate_first {d : Cand} (hd : s.detects d = true) : s.candidate d = s.setEnt 0 (s.entryOf d none) := by
  have hlist := State.entList_nil h
  have hwait : s.waiting.length < 512 := by
    unfold State.waiting
    rw [hlist]
    decide
  have hfree : s.freeEnt = 0 := by
    unfold State.freeEnt
    rw [hlist, h]
    show ((List.range 1).find? _).getD _ = 0
    rw [List.range_one, List.find?_cons, State.ent_none h]
    rfl
  have hopen : s.openOn d.chain d.chan = [] := by
    unfold State.openOn
    rw [hlist]
    rfl
  have hpost : s.postEntry (s.entryOf d none) = s.setEnt 0 (s.entryOf d none) := by
    unfold State.postEntry
    rw [if_pos hwait, hfree]
  unfold State.candidate
  rw [if_pos hd]
  dsimp only
  rw [hlist, hopen]
  simp only [List.filter_nil, List.head?_nil, ite_self]
  exact hpost

omit h in
theorem State.candidate_passed {d : Cand} (hd : s.detects d = false) : s.candidate d = s := by
  unfold State.candidate
  rw [if_neg (by rw [hd]; decide)]

omit h in
theorem Tab.set_nil {α : Type} [DecidableEq α] {d : Nat → Option α} (k : Nat) (v : α) (hd : d k = none) :
    Tab.set d [] k (some v) = [(k, some v)] := by
  unfold Tab.set
  rw [if_neg (by rw [hd]; simp)]
  rfl

end

/-- Entry 0 alone set again. -/
theorem State.ents_setEnt_single {s : State} {x y : Entry} (h : s.ents = [(0, some y)]) : (s.setEnt 0 x).ents = [(0, some x)] := by
  unfold State.setEnt Tab.set
  dsimp only
  rw [if_neg (by simp), h]
  exact Tab.put_single _ _ _


/-! A round with one entry (R86). -/

section
variable {β : Type} {g : State → β} (hg : ∀ t x l, g { t with ents := x, lanes := l } = g t)
include hg

theorem State.grantLanes_unseen (f : Nat) (s : State) : g (State.grantLanes f s) = g s := by
  induction f generalizing s with
  | zero => rfl
  | succ f ih =>
    unfold State.grantLanes
    split
    · exact (ih _).trans ((hg _ _ _).trans (hg s _ s.lanes))
    · rfl

theorem State.round_unseen (s : State) : g s.round = g s := by
  unfold State.round
  refine (State.foldl_unseen (fun t p => ?_) _ _).trans (State.grantLanes_unseen hg 128 s)
  split
  · exact hg t _ t.lanes
  · rfl

end

/-- After the lanes are granted, entry 0 alone counts as posted no more. -/
theorem State.round_single {s t : State} {x : Entry} (hl : State.grantLanes 128 s = t) (ht : t.ents = [(0, some x)]) (hf : x.fresh = true) :
    s.round = t.setEnt 0 { x with fresh := false } := by
  have hlist : t.entList = [(0, x)] := by
    unfold State.entList
    rw [ht]
    rfl
  unfold State.round
  rw [hl]
  dsimp only
  rw [hlist, List.foldl_cons, List.foldl_nil]
  exact if_pos hf

theorem State.entList_of_ents {s : State} {x : Entry} (h : s.ents = [(0, some x)]) : s.entList = [(0, x)] := by
  unfold State.entList
  rw [h]
  rfl

/-- Without a free lane none is granted. -/
theorem State.grantLanes_full {s : State} (h : s.freeLane = none) (f : Nat) : State.grantLanes f s = s := by
  cases f with
  | zero => rfl
  | succ f =>
    unfold State.grantLanes
    rw [h]

/-- The one entry, servable, takes the lowest free lane. -/
theorem State.grantLanes_first {s : State} {x : Entry} (h : s.ents = [(0, some x)]) {l : Nat} (hl : s.freeLane = some l)
    (hx : s.servable x = true) (f : Nat) : State.grantLanes (f + 1) s =
      (s.setEnt 0 { x with lane := some l }).setLane l ⟨0, s.laneChain x, true, none, false, none⟩ := by
  have hlist := State.entList_of_ents h
  have hdone : ((s.setEnt 0 { x with lane := some l }).setLane l ⟨0, s.laneChain x, true, none, false, none⟩).entList =
      [(0, { x with lane := some l })] := State.entList_of_ents (State.ents_setEnt_single h)
  have hfirst : s.entList.filter (fun p => s.servable p.2) = [(0, x)] := by
    rw [hlist, List.filter_singleton, hx]
    rfl
  unfold State.grantLanes
  rw [hl, hfirst]
  refine State.grantLanes_none ?_ f
  rw [hdone, List.filter_singleton]
  rfl

section
variable {v : State} (he : v.ents = [])
include he

/-- A candidate posted and its round: the entry takes the lowest free lane. -/
theorem State.posted_lane {x : Entry} (hf : x.fresh = true) : let t := (v.setEnt 0 x).round
    (∀ l, v.freeLane = some l → v.servable x = true → t.ent 0 = some { x with lane := some l, fresh := false } ∧
      t.lane l = some ⟨0, v.laneChain x, true, none, false, none⟩) ∧
    (v.freeLane = none → t.ent 0 = some { x with fresh := false }) ∧ { t with ents := v.ents, lanes := v.lanes } = v := by
  have hs : (v.setEnt 0 x).ents = [(0, some x)] := by
    unfold State.setEnt
    rw [he]
    exact Tab.set_nil (d := fun _ => none) 0 x rfl
  have hfree : (v.setEnt 0 x).freeLane = v.freeLane := rfl
  have hserv : (v.setEnt 0 x).servable x = v.servable x := rfl
  have hchain : (v.setEnt 0 x).laneChain x = v.laneChain x := rfl
  refine ⟨fun l hlane hx => ?_, fun hnone => ?_, ?_⟩
  · have hgr := State.grantLanes_first hs (hfree.trans hlane) (hserv.trans hx) 127
    rw [State.round_single hgr (State.ents_setEnt_single hs) hf, hchain]
    exact ⟨State.ent_setEnt_self _ _ _, State.lane_setLane_self _ _ _⟩
  · rw [State.round_single (State.grantLanes_full (hfree.trans hnone) 128) hs hf]
    exact State.ent_setEnt_self _ _ _
  · exact (State.round_unseen (g := fun t : State => { t with ents := v.ents, lanes := v.lanes }) (fun _ _ _ => rfl) (v.setEnt 0 x)).trans rfl

end


theorem execSamplePosition_takes {s : State} (hc : s.cmr.st = 5) (ha : s.awake = true) (he : s.ents = []) (hr : s.rslots = [])
    (o : SampleObs) : ∃ v, exec (.samplePosition { o with cands := [], syncs := [] }) s = .next v ∧ s.Position o s.touch.stamp v ∧
      (∀ d, v.detects d = false → exec (.samplePosition { o with cands := [d], syncs := [] }) s = .next v) ∧
      ∀ d, v.detects d = true →
        exec (.samplePosition { o with cands := [d], syncs := [] }) s = .next ((v.setEnt 0 (v.entryOf d none)).round) := by
  have hpos := State.afterSamples_position hr o
  have hv : (s.afterSamples o).ents = [] := hpos.ents.trans he
  have hexec := fun cs => exec_samplePosition hc ha o cs hv
  generalize s.afterSamples o = v at *
  refine ⟨v, ?_, hpos, fun d hd => ?_, fun d hd => ?_⟩
  · rw [hexec, List.foldl_nil, State.round_idle hv]
  · rw [hexec, List.foldl_cons, List.foldl_nil, State.candidate_passed hd, State.round_idle hv]
  · rw [hexec, List.foldl_cons, List.foldl_nil, State.candidate_first hv hd]

/-- Settles O50, command by command. That GAP is set at a start with WR_n = 0 too (log entry 171), and that blocks of the energy store end
where the position is 15 modulo 16 (log entry 48), are the model's choices. -/
theorem paletteSamplesAndPendingList : Obligations.PaletteSamplesAndPendingList := by
  unfold Obligations.PaletteSamplesAndPendingList
  refine ⟨fun c s ha he hon hh hr => ⟨fun ho => ?_, fun id o k ho hk hp hc hl hctx hsu => ?_⟩, fun o s hc ha he hr => ?_,
    fun e x s he hl hsl => ⟨fun hh hsy ht => execSyncSearchTimeout_removes he hl hsl hh hsy ht,
      fun hlim ht => execEntryPromoted_marks he hl hsl hlim ht, fun hh hc h => execEntryStarved_goes he hl hsl hh hc h⟩,
    fun c s hr hoff hp => execPaletteStop_stops hr hoff hp⟩
  case refine_1 =>
    obtain ⟨t, hexec, ⟨h1, h2, h3, h4, h5⟩, herg, hsame⟩ := execPaletteStart_idle ha he hon hh hr ho
    refine ⟨t, hexec, ⟨h1, ?_, ?_, ?_, ?_, ?_, h3, h4, h5, herg⟩, hsame⟩ <;> rw [h2] <;> rfl
  case refine_2 =>
    obtain ⟨t, hexec, ⟨h1, h2, h3, h4, h5⟩, herg, hops, hcx⟩ :=
      execPaletteStart_ends ha he hon hh hr ⟨ho, hctx, hl, hsu⟩ hk hp hc
    refine ⟨t, hexec, ⟨h1, ?_, ?_, ?_, ?_, ?_, h3, h4, h5, herg⟩, hops, hcx⟩ <;> rw [h2] <;> rfl
  case refine_3 =>
    obtain ⟨v, hexec, hpos, hno, hyes⟩ := execSamplePosition_takes hc ha he hr o
    have hv : v.ents = [] := hpos.ents.trans he
    refine ⟨v, hexec, hpos.pos, hpos.wpos, hv, hpos.ctx, hpos.lanes, fun c hon => ?_, fun c hrun => ?_, hno, fun d hd => ?_⟩
    · have hcl := hpos.clipped c
      cases c with
      | a => exact ⟨hcl.flag hon, hcl.last hon, hcl.count hon⟩
      | b => exact ⟨hcl.flag hon, hcl.last hon, hcl.count hon⟩
    · have hran := hpos.ran c hrun
      refine ⟨hran.marker, hran.gapAt, hran.block, hran.wrote, hran.idle, fun i w hi hs hw hp hget hlen => ?_⟩
      have hb := hran.bytes i w hi hs hw hp hget hlen
      cases c with
      | a => exact hb
      | b => exact hb
    · obtain ⟨hlane, hfull, hsame⟩ := State.posted_lane hv (x := v.entryOf d none) rfl
      exact ⟨_, hyes d hd, rfl, rfl, hpos.chanBin _ _, rfl, hlane, hfull, hsame⟩

end Sys2Proof.Machine
